-- ==== Sys2Proof/Word.lean ====
section
/-! DEFINITION. The word types of the model and their plainest arithmetic (R6: bits are numbered from 0, little-endian). -/

namespace Sys2Proof

/-- One byte of any memory of the fabric. -/
abbrev Byte := BitVec 8

/-- A 32-bit control-space word. -/
abbrev Word32 := BitVec 32

/-- A 64-bit word: an engine register, a header, an operand. -/
abbrev Word64 := BitVec 64

/-- A fabric identifier (R59). -/
abbrev Fid := BitVec 10

end Sys2Proof
end

