-- ==== Sys2Proof/Syntax.lean ====
section
/-! DEFINITION. The commands of the block: one constructor of `Instr` per row of spec/opcode_table.json, in the
table's order, with the operands the row needs.  Pins, partners, engines, sequencers and what falls due in time are all
commands (R10 to R433); physical accidents and the answers of parts outside the fabric are operands. -/
namespace Sys2Proof

/-- The four networks (R50 to R53). -/
inductive Net where
  | req | rsp | snp | dat
  deriving DecidableEq, Repr

/-- A unit as fault reports and power handshakes name it (R334, R366): a router by node number, any other by FID. -/
structure UnitRef where
  node : Bool
  id   : Nat
  deriving DecidableEq, Repr

/-- The fuse array of the part, as the cold start reads it (R202, R432). -/
structure FuseArray where
  /-- The rule fuse block, bit 0 upward (R202). -/
  rule   : BitVec 2240
  socket : BitVec 3
  serial : Word64
  deriving DecidableEq, Repr

/-- One beat of a partner channel (R105).  A field that the beat's channel does not carry is zero. -/
structure Beat where
  net     : Net
  last    : Bool      := true
  opc     : BitVec 6
  tag     : BitVec 12 := 0
  addr    : BitVec 52 := 0
  plen    : BitVec 12 := 0
  rlx     : Bool      := false
  aop     : BitVec 4  := 0
  pid     : BitVec 20 := 0
  pidv    : Bool      := false
  peer    : Fid       := 0
  /-- Operand, result or register value of a continuation beat. -/
  operand : Word64    := 0
  status  : BitVec 8  := 0
  cnt     : BitVec 8  := 0
  df      : Bool      := false
  data    : List Byte := []
  be      : Word64    := 0
  lidx    : BitVec 7  := 0
  poison  : Bool      := false
  err     : Bool      := false
  /-- LINE, RQFID and HTID of a snoop; its TXID is `tag`.  A partner's answer keeps the line of its snoop (log 100). -/
  line    : BitVec 46 := 0
  rqfid   : Fid       := 0
  htid    : BitVec 8  := 0
  /-- On socket links alone, which carry the network layouts: SLICE and SD of the header and the REQ flit, and D_X_SOCK, the
  socket of origin on P2F and the target socket on F2P (R104). -/
  slice   : BitVec 6  := 0
  sd      : BitVec 4  := 0
  sock    : BitVec 3  := 0
  /-- A snoop came as a broadcast: its DST is 0x3FF, which the interface knows and no signal carries (R184). -/
  bc      : Bool      := false
  deriving DecidableEq, Repr

/-- What the check of a flit at a router input or at egress finds (R71 to R73, R54). -/
inductive LinkErr where
  /-- Nothing wrong. -/
  | clean
  /-- HPAR or SPAR mismatch. -/
  | parity
  /-- A correctable PCHK or DAT word. -/
  | corrected
  /-- An uncorrectable payload or DAT word. -/
  | uncorrectable
  /-- HCRC mismatch at egress. -/
  | hcrc
  /-- A correctable route entry. -/
  | routeCorrected
  /-- An uncorrectable route entry. -/
  | routeBad
  deriving DecidableEq, Repr

/-- What the SECDED check of a stored word finds (R71). -/
inductive WordErr where
  | clean | corrected | uncorrectable
  deriving DecidableEq, Repr

/-- What the checks of several stored words find, by position; an unlisted word is clean. -/
abbrev WordErrs := List (Nat × WordErr)

/-- What the check of one of several words finds. -/
def errAt (es : WordErrs) (i : Nat) : WordErr :=
  match es.find? (fun e => e.1 == i) with | some e => e.2 | none => .clean

/-- An arbiter instance (R80). -/
inductive ArbSite where
  | router (node : Fin 144) (net : Net) (out : Fin 7)
  | home   (k : Fin 64)
  | bank   (node : Fin 16) (bank : Fin 4)
  deriving DecidableEq, Repr

/-- Where a packet waits that OLD may mark (R64). -/
inductive Holder where
  | router (node : Fin 144) (net : Net) (inp : Fin 7) (vc : BitVec 2)
  | inject (fid : Fid)
  | parked (fid : Fid)
  deriving DecidableEq, Repr

/-- What a time leaf finds at a sync beat (R303): the difference in FCLK, or a missed beat. -/
inductive LeafReading where
  | diff (fclk : Nat)
  | missed
  deriving DecidableEq, Repr

/-- What the restart of a domain finds (R376, R378, R381): the global numbers of the banks whose signature differs,
and whether an Off read-back was good. -/
structure WakeReply where
  lost   : List (Fin 64)
  readOk : Bool
  deriving DecidableEq, Repr

/-- A command of the block; one constructor per row of spec/opcode_table.json. -/
inductive Instr where
  /-- FRST_N_ASSERT: Assertion of FRST_N starts a cold reset that reaches everything in the fabric and drives every
      F2P signal to 0. (R10) -/
  | frstNAssert
  /-- COLD_START: The rise of FRST_N starts the cold start sequence: fuse read, SRAM initialisation and raising
      F2P_LINK at MG, in BOOT. (R404) -/
  | coldStart (fuses : FuseArray)
  /-- WARM_RESET: A GLB_RESET write with KEY 0x0A4D and GO = 1 starts a warm reset that resets ports, wakes domains
      and returns the fabric to BOOT. (R410) -/
  | warmReset (key : BitVec 16) (go : Bool)
  /-- TEST_ENTRY: A scan or BIST instruction at the IEEE 1149.1 TAP in BOOT moves the fabric to TEST. (R415) -/
  | testEntry
  /-- PPS_IN_EDGE: A rising edge of PPS_IN is synchronised, captured and accepted or rejected, and TIM_PPS_ERR is
      computed. (R307) -/
  | ppsInEdge
  /-- WAKE_PIN: The WAKE pin, as a level or rising edge, requests a wake of the domains in PIN_MASK. (R373) -/
  | wakePin (level : Bool)
  /-- ANISE_DETECT: The fourth high period of an Anise pattern on an SL port is recognised and wakes SPINE and the
      domains of ANISE_MASK. (R374) -/
  | aniseDetect (sl : Fin 6)
  /-- P2F_WAKE: P2F_WAKE or a P2F VLD high at a partner port acts as a level wake of the port's domain. (R373) -/
  | p2fWake (fid : Fid)
  /-- P2F_LINK_RISE: The partner raises P2F_LINK, and link-up continues with the capability exchange on SL or with
      the initial credits. (R110) -/
  | p2fLinkRise (fid : Fid)
  /-- P2F_LINK_FALL: A fall of P2F_LINK abandons a link-up in progress without a fault, or is a link drop once the
      port is UP. (R112) -/
  | p2fLinkFall (fid : Fid)
  /-- SL_CAP_RECEIVE: The far capability word is latched on P2F_CAPV and the common word is computed, or the link
      goes to NOCOMMON. (R123) -/
  | slCapReceive (sl : Fin 6) (cap : BitVec 32)
  /-- LINK_TIMEOUT: Expiry of NI_LINK.TMO without P2F_LINK or the far capability word moves the port to TIMEOUT and
      raises PORT at L1. (R111) -/
  | linkTimeout (fid : Fid)
  /-- P2F_BEAT: A beat transfers on a P2F channel while VLD and F2P_AWAKE are high, consuming one credit. (R106) -/
  | p2fBeat (fid : Fid) (beat : Beat)
  /-- CREDIT_RETURN: A credit strobe from the receiver returns one credit to the sender's counter. (R106) -/
  | creditReturn (fid : Fid) (net : Net) (toPartner : Bool)
  /-- PRG_START: PRG_CTRL.START begins reception of a new image at byte 0, or is ignored and sets BUSY. (R33) -/
  | prgStart (src : Fid)
  /-- PRG_ABORT: PRG_CTRL.ABORT abandons reception or verification at once, or execution at the next instruction
      boundary, with the consequences of R31. (R33) -/
  | prgAbort
  /-- CLOVE_LOCK: PRG_CTRL.CLOVE_LOCK locks the Clove store base registers until cold reset. (R43) -/
  | cloveLock
  /-- PRG_DATA_WRITE: A 4-byte or line-form CsrWr to PRG_DATA appends its bytes to the image being received, and
      ends reception when PRG_WPTR reaches LENGTH. (R32) -/
  | prgDataWrite (src : Fid) (data : List Byte)
  /-- IMAGE_VERIFY: Verification of the whole received image completes and moves the controller to EXECUTING or to
      FAILED with the first failing error. (R27) -/
  | imageVerify
  /-- NOP: The fabric-control instruction NOP has no effect. (R28) -/
  | nop (store : WordErr)
  /-- WRTB: WRTB copies entries from a section into the shadow bank of a table in one or every unit. (R29) -/
  | wrtb (store : WordErr)
  /-- VCRC: VCRC reads back a whole shadow bank and compares its CRC-32C, stopping with VCRC_FAIL on a mismatch.
      (R29) -/
  | vcrc (store : WordErr)
  /-- WRCS: WRCS sends one register write as a control request of source 0x180 and holds the sequence until it
      completes. (R433) -/
  | wrcs (store : WordErr)
  /-- WRCS_COMPLETE: Completion of a WRCS lets the program controller start the next instruction. (R433) -/
  | wrcsComplete
  /-- WAITT: The fabric-control WAITT fixes a target fabric time less than 32,768 s ahead and waits, or completes at
      once setting LATE. (R30) -/
  | waitt (store : WordErr)
  /-- WAITT_EXPIRE: Fabric time reaches the target of a waiting WAITT and the sequence continues. (R30) -/
  | waittExpire
  /-- WAITD: WAITD starts a wait of a given duration in ns. (R28) -/
  | waitd (store : WordErr)
  /-- WAITD_EXPIRE: The duration of a WAITD elapses and the sequence continues. (R28) -/
  | waitdExpire
  /-- WAITS: WAITS starts sampling a register until (register AND mask) equals value, for at most PRG_WAITS_LIMIT.
      (R30) -/
  | waits (store : WordErr)
  /-- WAITS_SAMPLE: A WAITS sample completes over the control tree; a match ends the wait, otherwise the next sample
      begins. (R30) -/
  | waitsSample
  /-- WAITS_TIMEOUT: A WAITS reaches PRG_WAITS_LIMIT and stops the sequence with WAIT_TIMEOUT. (R30) -/
  | waitsTimeout
  /-- FENCE: FENCE takes a router, network interface, home slice or engine cluster out of service with the fenced
      behaviour of R346. (R346) -/
  | fence (store : WordErr)
  /-- UNFENCE: UNFENCE returns a unit to service at the epoch switch of its image, in the state a warm reset would
      give it. (R349) -/
  | unfence (store : WordErr)
  /-- EPSW: EPSW rounds the requested switch time up to a 1,024 ns boundary and arms the epoch switch. (R38) -/
  | epsw (store : WordErr)
  /-- EPOCH_ARM_ACK: A unit acknowledges the arm once its shadow bank is marked complete. (R38) -/
  | epochArmAck (unit : UnitRef)
  /-- ARM_TIMEOUT: An acknowledgement still missing 1 µs before T cancels the switch with ARM_TIMEOUT, keeping the
      shadow banks. (R38) -/
  | armTimeout
  /-- LINKUP: LINKUP raises F2P_LINK on every port of the named classes and starts link-up. (R110) -/
  | linkup (store : WordErr)
  /-- END: END ends the sequence and PRG_STATUS.STATE becomes DONE. (R28) -/
  | endSeq (store : WordErr)
  /-- EPOCH_SWITCH: At T every interface stamps the new epoch, pending Epoch fields take effect, and PRIMARY becomes
      DUAL. (R38) -/
  | epochSwitch
  /-- DRAIN_END: At T + DRAIN_NS each unit reports old-epoch packets; if none remain the old bank becomes the shadow
      and PRIMARY returns to RUN, otherwise OVERRUN and CONTRACT. (R38) -/
  | drainEnd
  /-- OLD_BANK_FREE: After an overrun, the old bank is freed in the first cycle in which no unit holds an old-epoch
      packet. (R38) -/
  | oldBankFree
  /-- RULE_SHADOW_COPY_DONE: The rule shadow copy completes and RK_STATUS.COPY returns to 0. (R216) -/
  | ruleShadowCopyDone
  /-- EPOCH_HOLD_RELEASE: The first new-epoch packet of an ordered stream is released once its HOLD has passed since
      the stream's last old-epoch injection. (R41) -/
  | epochHoldRelease (fid : Fid)
  /-- BUCKET_RELEASE_SEND: Once the drain has ended and its tracker holds no transaction on a bucket, the old home
      sends BucketRel to the new home. (R42) -/
  | bucketReleaseSend (k : Fin 64) (bucket : BitVec 12)
  /-- BUCKET_RELEASE_PROXY: The program controller sends a fenced old home's bucket release once the drain has ended
      and the fence actions are complete. (R42) -/
  | bucketReleaseProxy (k : Fin 64) (bucket : BitVec 12)
  /-- BUCKET_RELEASE_RECEIVE: Arrival of a bucket release puts the bucket into reconstruct mode at the new home.
      (R161) -/
  | bucketReleaseReceive (k : Fin 64)
  /-- BUCKET_SWEEP_TIMEOUT: A sweep not complete within 16 × HS_TMO.LIMIT raises TIMEOUT at L1 and the bucket stays
      in reconstruct mode. (R165) -/
  | bucketSweepTimeout (k : Fin 64) (slot : Fin 4)
  /-- CLOVE_FETCH_DONE: The fetch completes, falling back to copy 1 on a CRC failure, and the image goes to
      verification and execution. (R44) -/
  | cloveFetchDone (copy0 copy1 : List Byte)
  /-- FAULT_RETURN: FC_CTRL.RETURN asks the program controller to fetch and apply the return image, or is refused
      with CMDREJ. (R349) -/
  | faultReturn
  /-- INGRESS_ACCEPT: A network interface accepts a request header at ingress, stamping slice, epoch, RGEN, TXID, TC
      and VC. (R37) -/
  | ingressAccept (fid : Fid) (table rule : WordErr)
  /-- PIECE_ISSUE: Once tracker entries and buffers are allocated and the data beat has arrived, the pieces of a
      transaction are issued one per FCLK. (R115) -/
  | pieceIssue (fid : Fid)
  /-- ROUTER_HOP: A router switches an arriving flit to the output its look-ahead names and sends the next look-
      ahead. (R63) -/
  | routerHop (node : Fin 144) (net : Net) (out : Fin 7) (err : LinkErr) (table : WordErr)
  /-- ESCAPE_MOVE: A head flit without credit for RTR_ESC.WAIT cycles moves to VC0 and is sent on the escape route.
      (R68) -/
  | escapeMove (node : Fin 144) (net : Net) (inp : Fin 7) (vc : BitVec 2)
  /-- FORCED_WIN: A privileged requester whose wait counter reaches its limit wins and ends any grant in progress.
      (R88) -/
  | forcedWin (site : ArbSite)
  /-- ARB_WINDOW_END: At each window boundary the arbiters' TC1 and writeback counts return to zero and quota
      masking ends. (R85) -/
  | arbWindowEnd
  /-- OLD_MARK: A packet's age reaches 32,768 FCLK and the unit holding it sets OLD and resets INJ to a hop count.
      (R64) -/
  | oldMark (place : Holder)
  /-- WATCHDOG_EXPIRE: A head flit that has not moved for RTR_WDOG.LIMIT raises CONTRACT at L2 and fences the
      router. (R78) -/
  | watchdogExpire (node : Fin 144) (net : Net) (inp : Fin 7) (vc : BitVec 2)
  /-- EGRESS_PRESENT: The destination network interface checks a packet and presents it to its partner or unit.
      (R70) -/
  | egressPresent (fid : Fid) (net : Net) (vc : BitVec 2) (err : LinkErr)
  /-- ROB_RELEASE: A parked packet is presented when its turn in the stream comes. (R119) -/
  | robRelease (fid : Fid)
  /-- PIECE_ANSWER: An answer reaches the source interface and completes its piece, and the single Comp is sent when
      every piece is answered. (R116) -/
  | pieceAnswer (fid : Fid)
  /-- NACK_REISSUE: A Nacked request is reissued 64 FCLK later or after the next epoch switch, with a new interleave
      lookup. (R157) -/
  | nackReissue (fid : Fid) (entry : BitVec 8)
  /-- SRC_TRACKER_EXPIRE: A source-tracker entry expires, its piece completes TIMEOUT and TIMEOUT is raised at L1.
      (R118) -/
  | srcTrackerExpire (fid : Fid) (entry : BitVec 8)
  /-- TGT_TRACKER_EXPIRE: A target-tracker entry expires and the interface answers the requester with Comp TIMEOUT.
      (R118) -/
  | tgtTrackerExpire (fid : Fid) (entry : BitVec 8)
  /-- TRACKER_RELEASE: An expired source-tracker entry ends its out-of-use hold and may be reallocated. (R118) -/
  | trackerRelease (fid : Fid) (entry : BitVec 8)
  /-- SAF_HEADER_ARRIVE: A SeqWr header reaches Saffron and is admitted with a credit or queued for a pool slot.
      (R130) -/
  | safHeaderArrive (stored : WordErr)
  /-- SAF_POOL_GRANT: Saffron grants a waiting pool header a slot with CNT = 0x80 once room exists. (R130) -/
  | safPoolGrant
  /-- SAF_COMPLETE: A forwarded sequenced write completes and its completion leaves Saffron in sequence order,
      freeing its slot. (R127) -/
  | safComplete
  /-- SAF_WAIT_EXPIRE: A SeqWr waiting for a credit or grant reaches SAF_WAIT.LIMIT and raises SAFFRON at L1. (R132)
      -/
  | safWaitExpire (fid : Fid) (entry : BitVec 8)
  /-- SAF_ENT_WRITE: A write to a SAF_ENT entry is applied or refused whole with REFUSED set. (R128) -/
  | safEntWrite (n : Fin 32) (value : BitVec 32)
  /-- SAF_POOLDEF_WRITE: A write to SAF_POOLDEF is applied or refused with REFUSED set. (R128) -/
  | safPooldefWrite (value : BitVec 32)
  /-- HOME_REQUEST_DECIDE: A home decides a request for its line, issuing snoops, MemRd and grants and updating the
      directory. (R150) -/
  | homeRequestDecide (k : Fin 64) (lane : BitVec 2) (err : WordErrs) (table : WordErr)
  /-- HOME_WRITEBACK_DECIDE: A home decides a PutM, PutO or PutE in a stable state, accepting it or answering
      PutAckStale. (R152) -/
  | homeWritebackDecide (k : Fin 64) (err : WordErrs)
  /-- HOME_WAITER_ENTER: After a flow ends, its first waiter re-enters arbitration as a new decision. (R143) -/
  | homeWaiterEnter (k : Fin 64) (err : WordErrs)
  /-- HOME_COMPACK: A CompAck from the requester ends the flow and frees the tracker entry. (R179) -/
  | homeCompack (k : Fin 64)
  /-- HOME_INVACK: An InvAck reaching a home counts one answer of a collecting flow or sweep. (R179) -/
  | homeInvack (k : Fin 64)
  /-- HOME_SNOOP_DATA: A DataOwner or DataWb answering a snoop is taken into a line buffer and counted. (R179) -/
  | homeSnoopData (k : Fin 64)
  /-- HOME_MEM_DATA: Memory Data completes a decision's grant or far execution. (R179) -/
  | homeMemData (k : Fin 64)
  /-- HOME_MEM_COMP: A memory port's Comp completes a MemWr and triggers PutAck or the WritePass Comp. (R145) -/
  | homeMemComp (k : Fin 64)
  /-- HOME_TRACKER_EXPIRE: A home tracker entry expires, raises TIMEOUT and completes its flow according to its
      state. (R183) -/
  | homeTrackerExpire (k : Fin 64) (htid : BitVec 8)
  /-- DIR_SCRUB: Every HS_SCRUB.INTERVAL FCLK the scrubber reads and corrects one directory set. (R149) -/
  | dirScrub (k : Fin 64) (err0 err1 : WordErrs)
  /-- PRED_WINDOW_END: At a predictor window end every valid entry updates HOT and clears COUNT. (R193) -/
  | predWindowEnd (k : Fin 64)
  /-- PRED_CLEAR: HS_ATOM_CTRL.CLEAR invalidates every predictor entry in the next FCLK. (R194) -/
  | predClear (k : Fin 64)
  /-- CACHE_SNOOP: A caching partner answers a snoop according to its stable or transient state. (R171) -/
  | cacheSnoop (fid : Fid)
  /-- CACHE_ANSWER: An answer arriving at a caching partner moves its line state as the answers table states. (R172)
      -/
  | cacheAnswer (fid : Fid)
  /-- REPLICA_REPAIR: An uncorrectable replica entry is rewritten from the central table and the held lookups
      complete. (R217) -/
  | replicaRepair (copies : BitVec 5) (index : BitVec 13)
  /-- BANK_ACCESS: In each FCLK a bank chooses one access per port and performs both or resolves a conflict. (R224)
      -/
  | bankAccess (node : Fin 16) (bank : Fin 4) (fabErr locErr : WordErrs) (table : WordErr)
  /-- SRAM_SCRUB: Every SSB_SCRUB.INTERVAL FCLK a bank's scrubber reads and corrects one row. (R233) -/
  | sramScrub (node : Fin 16) (bank : Fin 4) (err : WordErrs)
  /-- ENQ: An Enq to a queue is accepted into the ring and answered OK, or refused with a status. (R241) -/
  | enq (q : Fin 4) (table : WordErr)
  /-- DOORBELL: A Doorbell on a producer-written queue stamps the meta entry and advances TAIL. (R243) -/
  | doorbell (q : Fin 4) (table : WordErr)
  /-- DEQ: A Deq on a pull queue returns the head message and advances HEAD, or returns CNT = 0. (R244) -/
  | deq (q : Fin 4) (table : WordErr)
  /-- PORT_SELECT: An egress port selects at most one message per FCLK by strict inputs and deficit-weighted round
      robin. (R251) -/
  | portSelect (q : Fin 4) (p : Fin 8) (table gate : WordErr)
  /-- DELIVERY_COMP: The consumer's Comp for a delivery marks it done, schedules a retry, or pauses the queue.
      (R247) -/
  | deliveryComp (q : Fin 4)
  /-- DELIVERY_RETRY: QM_RETRY.FCLK after a QUEUE_FULL or DOMAIN_ASLEEP answer, the message is delivered again.
      (R247) -/
  | deliveryRetry (queue : BitVec 16)
  /-- QM_Q_RESUME: QM_Q_CTRL.RESUME resumes a paused queue at its lowest undone message. (R247) -/
  | qmQResume (q : Fin 4)
  /-- TOKEN_REFILL: Every 1,024 FCLK every token bucket adds its rate up to its burst. (R253) -/
  | tokenRefill
  /-- QM_Q_RATE_WRITE: A write of QM_Q_RATE reaches both banks and applies at the next refill. (R254) -/
  | qmQRateWrite (q : Fin 4) (value : BitVec 32)
  /-- QM_Q_BURST_WRITE: A write of QM_Q_BURST reaches both banks and clamps the tokens at once. (R253) -/
  | qmQBurstWrite (q : Fin 4) (value : BitVec 32)
  /-- QM_P_RATE_WRITE: A write of QM_P_RATE reaches both banks and applies at the next refill. (R254) -/
  | qmPRateWrite (q : Fin 4) (p : Fin 8) (value : BitVec 32)
  /-- QM_P_BURST_WRITE: A write of QM_P_BURST reaches both banks and clamps the port tokens at once. (R253) -/
  | qmPBurstWrite (q : Fin 4) (p : Fin 8) (value : BitVec 32)
  /-- GATE_ENTRY_CHANGE: Fabric time reaches a gate boundary and the next gate entry comes into force. (R256) -/
  | gateEntryChange (q : Fin 4) (p : Fin 8)
  /-- GATE_LIST_START: At start time S the pending gate list becomes operational at entry 0. (R257) -/
  | gateListStart (q : Fin 4) (p : Fin 8)
  /-- SAMPLE_PERIOD_OPEN: A sample period opens, a marker record is written and the sampled queues are visited one
      per FCLK. (R258) -/
  | samplePeriodOpen (q : Fin 4)
  /-- ADD: ALU ADD writes A plus B into D. (R270) -/
  | add (t : Fin 1536) (store : WordErr)
  /-- SUB: ALU SUB writes A minus B into D. (R270) -/
  | sub (t : Fin 1536) (store : WordErr)
  /-- MULLO: ALU MULLO writes the low 64 bits of the product. (R270) -/
  | mullo (t : Fin 1536) (store : WordErr)
  /-- MULHI: ALU MULHI writes the high 64 bits of the signed product. (R270) -/
  | mulhi (t : Fin 1536) (store : WordErr)
  /-- MULHIU: ALU MULHIU writes the high 64 bits of the unsigned product. (R270) -/
  | mulhiu (t : Fin 1536) (store : WordErr)
  /-- QUO: ALU QUO writes the signed quotient, 0 and DZ on division by zero. (R264) -/
  | quo (t : Fin 1536) (store : WordErr)
  /-- QUOU: ALU QUOU writes the unsigned quotient, 0 and DZ on division by zero. (R264) -/
  | quou (t : Fin 1536) (store : WordErr)
  /-- MOD: ALU MOD writes the signed remainder, the dividend and DZ on division by zero. (R264) -/
  | mod (t : Fin 1536) (store : WordErr)
  /-- MODU: ALU MODU writes the unsigned remainder, the dividend and DZ on division by zero. (R264) -/
  | modu (t : Fin 1536) (store : WordErr)
  /-- AND: ALU AND writes A AND B. (R270) -/
  | and (t : Fin 1536) (store : WordErr)
  /-- IOR: ALU IOR writes A OR B. (R270) -/
  | ior (t : Fin 1536) (store : WordErr)
  /-- XOR: ALU XOR writes A XOR B. (R270) -/
  | xor (t : Fin 1536) (store : WordErr)
  /-- SHL: ALU SHL shifts A left by B[5:0]. (R270) -/
  | shl (t : Fin 1536) (store : WordErr)
  /-- SHR: ALU SHR shifts A right logically by B[5:0]. (R270) -/
  | shr (t : Fin 1536) (store : WordErr)
  /-- SHRA: ALU SHRA shifts A right arithmetically by B[5:0]. (R270) -/
  | shra (t : Fin 1536) (store : WordErr)
  /-- CMPLT: ALU CMPLT writes 1 when A is below B signed, otherwise 0. (R270) -/
  | cmplt (t : Fin 1536) (store : WordErr)
  /-- CMPLTU: ALU CMPLTU writes 1 when A is below B unsigned, otherwise 0. (R270) -/
  | cmpltu (t : Fin 1536) (store : WordErr)
  /-- ADDK: ADDK writes A plus the sign-extended immediate. (R270) -/
  | addk (t : Fin 1536) (store : WordErr)
  /-- ANDK: ANDK writes A AND the zero-extended immediate. (R270) -/
  | andk (t : Fin 1536) (store : WordErr)
  /-- IORK: IORK writes A OR the zero-extended immediate. (R270) -/
  | iork (t : Fin 1536) (store : WordErr)
  /-- XORK: XORK writes A XOR the zero-extended immediate. (R270) -/
  | xork (t : Fin 1536) (store : WordErr)
  /-- CMPLTK: CMPLTK compares A with the immediate and writes 1 or 0. (R270) -/
  | cmpltk (t : Fin 1536) (store : WordErr)
  /-- SETHI: SETHI writes the immediate times 65,536, sign-extended. (R270) -/
  | sethi (t : Fin 1536) (store : WordErr)
  /-- SHK_SHL: SHK with IMM[7:6] = 0 shifts A left by IMM[5:0]. (R270) -/
  | shkShl (t : Fin 1536) (store : WordErr)
  /-- SHK_SHR: SHK with IMM[7:6] = 1 shifts A right logically by IMM[5:0]. (R270) -/
  | shkShr (t : Fin 1536) (store : WordErr)
  /-- SHK_SHRA: SHK with IMM[7:6] = 2 shifts A right arithmetically by IMM[5:0]. (R270) -/
  | shkShra (t : Fin 1536) (store : WordErr)
  /-- CALLR: CALLR writes the next PC into D and jumps to A plus the immediate. (R270) -/
  | callr (t : Fin 1536) (store : WordErr)
  /-- SYNC: SYNC holds the thread until its store buffer is empty and every request answered. (R274) -/
  | sync (t : Fin 1536) (store : WordErr)
  /-- RETT: RETT returns from a trap, restoring PC from EPC and IE from PIE. (R283) -/
  | rett (t : Fin 1536) (store : WordErr)
  /-- RDTCR: RDTCR reads a thread control register into D. (R265) -/
  | rdtcr (t : Fin 1536) (store : WordErr)
  /-- WRTCR: WRTCR writes A into a thread control register. (R265) -/
  | wrtcr (t : Fin 1536) (store : WordErr)
  /-- SIGNAL: SIGNAL makes SOFT pending at a thread of the cluster. (R282) -/
  | signal (t : Fin 1536) (store : WordErr)
  /-- HALT: SYS HALT stops the issuing thread. (R270) -/
  | halt (t : Fin 1536) (store : WordErr)
  /-- BREAK: SYS BREAK takes the precise trap BREAK. (R282) -/
  | breakTrap (t : Fin 1536) (store : WordErr)
  /-- LDB: LDB loads one zero-extended byte. (R273) -/
  | ldb (t : Fin 1536) (store : WordErr) (mem : WordErrs)
  /-- LDH: LDH loads two zero-extended bytes, split if misaligned. (R276) -/
  | ldh (t : Fin 1536) (store : WordErr) (mem : WordErrs)
  /-- LDW: LDW loads four zero-extended bytes, split if misaligned. (R276) -/
  | ldw (t : Fin 1536) (store : WordErr) (mem : WordErrs)
  /-- LDD: LDD loads eight bytes, split if misaligned. (R276) -/
  | ldd (t : Fin 1536) (store : WordErr) (mem : WordErrs)
  /-- LDBS: LDBS loads one sign-extended byte. (R273) -/
  | ldbs (t : Fin 1536) (store : WordErr) (mem : WordErrs)
  /-- LDHS: LDHS loads two sign-extended bytes. (R276) -/
  | ldhs (t : Fin 1536) (store : WordErr) (mem : WordErrs)
  /-- LDWS: LDWS loads four sign-extended bytes. (R276) -/
  | ldws (t : Fin 1536) (store : WordErr) (mem : WordErrs)
  /-- STB: STB places one byte into the store buffer. (R272) -/
  | stb (t : Fin 1536) (store : WordErr)
  /-- STH: STH places two bytes into the store buffer, in two entries if split. (R272) -/
  | sth (t : Fin 1536) (store : WordErr)
  /-- STW: STW places four bytes into the store buffer, in two entries if split. (R272) -/
  | stw (t : Fin 1536) (store : WordErr)
  /-- STD: STD places eight bytes into the store buffer, in two entries if split. (R272) -/
  | std (t : Fin 1536) (store : WordErr)
  /-- LDLN: LDLN copies a fabric line into a local buffer and writes a result word. (R280) -/
  | ldln (t : Fin 1536) (store : WordErr)
  /-- STLN: STLN copies a local line to a fabric address and writes a result word. (R280) -/
  | stln (t : Fin 1536) (store : WordErr) (mem : WordErrs)
  /-- ATOM: ATOM executes an atomic in local SRAM or issues AtomFar, returning the old value. (R275) -/
  | atom (t : Fin 1536) (store : WordErr) (mem : WordErrs)
  /-- ENQ_INSTR: The ENQ instruction sends an Enq from a local buffer and writes a result word. (R280) -/
  | enqInstr (t : Fin 1536) (store : WordErr) (mem : WordErrs)
  /-- DEQ_INSTR: The DEQ instruction sends a Deq and writes the message into a local buffer. (R280) -/
  | deqInstr (t : Fin 1536) (store : WordErr)
  /-- DBELL: DBELL sends a Doorbell to a queue. (R280) -/
  | dbell (t : Fin 1536) (store : WordErr)
  /-- SEQW: SEQW sends a SeqWr from a local buffer through Saffron. (R280) -/
  | seqw (t : Fin 1536) (store : WordErr) (mem : WordErrs)
  /-- INTR: The INTR instruction sends an Intr with a vector to a FID. (R270) -/
  | intr (t : Fin 1536) (store : WordErr)
  /-- RECV: RECV returns the next doorbell or message descriptor of the thread's bindings, or enters WAIT. (R279) -/
  | recv (t : Fin 1536) (store : WordErr)
  /-- RXDONE: RXDONE frees the oldest handed-out slot of a binding. (R279) -/
  | rxdone (t : Fin 1536) (store : WordErr)
  /-- RDTIM: RDTIM writes fabric time into D. (R270) -/
  | rdtim (t : Fin 1536) (store : WordErr)
  /-- THREAD_WAITT: The engine WAITT puts the thread in WAIT until fabric time reaches A. (R270) -/
  | threadWaitt (t : Fin 1536) (store : WordErr)
  /-- THREAD_WAITT_EXPIRE: Fabric time reaches a waiting thread's WAITT target and it returns to READY. (R270) -/
  | threadWaittExpire (t : Fin 1536)
  /-- SETTMR: SETTMR arms or disarms the thread's TIMER at a fabric time. (R270) -/
  | settmr (t : Fin 1536) (store : WordErr)
  /-- BREQ: BREQ branches when A equals B. (R270) -/
  | breq (t : Fin 1536) (store : WordErr)
  /-- BRNE: BRNE branches when A differs from B. (R270) -/
  | brne (t : Fin 1536) (store : WordErr)
  /-- BRLT: BRLT branches when A is signed less than B. (R270) -/
  | brlt (t : Fin 1536) (store : WordErr)
  /-- BRGE: BRGE branches when A is signed greater than or equal to B. (R270) -/
  | brge (t : Fin 1536) (store : WordErr)
  /-- BRLO: BRLO branches when A is unsigned lower than B. (R270) -/
  | brlo (t : Fin 1536) (store : WordErr)
  /-- BRHS: BRHS branches when A is unsigned higher than or the same as B. (R270) -/
  | brhs (t : Fin 1536) (store : WordErr)
  /-- CALL: CALL writes the next PC into g31 and jumps by the offset. (R270) -/
  | call (t : Fin 1536) (store : WordErr)
  /-- STORE_DRAIN: One store-buffer entry per engine drains in program order, checked at drain for the fabric.
      (R272) -/
  | storeDrain (e : Fin 192)
  /-- ENG_FABRIC_ANSWER: An answer to a fabric load, atomic, line copy or message instruction reaches the cluster
      and readies its result. (R264) -/
  | engFabricAnswer (k : Fin 48)
  /-- TRAP_TAKE: A due deferred trap is taken at an instruction boundary, or halts the thread under R284. (R283) -/
  | trapTake (t : Fin 1536)
  /-- TIMER_FIRE: Fabric time reaches a thread's SETTMR target and TIMER becomes pending. (R282) -/
  | timerFire (t : Fin 1536)
  /-- INTERRUPT_TAKE: A pending enabled interrupt is taken at an instruction boundary, in WAIT or in PARK. (R283) -/
  | interruptTake (t : Fin 1536)
  /-- ENG_DELIVERY: A delivery from a queue manager is matched to a binding and written to its receive ring or
      refused. (R278) -/
  | engDelivery (k : Fin 48)
  /-- ENG_T_START: ENG_T_CTRL.START restarts a thread from OFF or HALT at ENTRY. (R284) -/
  | engTStart (t : Fin 1536)
  /-- ENG_T_HALT: ENG_T_CTRL.HALT stops a thread at its next instruction boundary. (R284) -/
  | engTHalt (t : Fin 1536)
  /-- LOCAL_SRAM_SCRUB: Every ENG_CL_SCRUB.INTERVAL ECLK the cluster scrubber reads one local SRAM row. (R268) -/
  | localSramScrub (k : Fin 48) (err : WordErrs)
  /-- ENG_SAMPLE_WRITE: A sampled instruction completes and the cluster writes its sample record. (R290) -/
  | engSampleWrite (k : Fin 48)
  /-- SYNC_BEAT: Every 1,024 ns the time master sends a sync beat and each leaf compares and corrects its count.
      (R303) -/
  | syncBeat (leaf : UnitRef) (reading : LeafReading)
  /-- TIM_SET: TIM_CMD.SET loads fabric time and the FCLK count, or is refused with CMDREJ. (R305) -/
  | timSet
  /-- TIM_STEP: TIM_CMD.STEP adds whole units of 1,024 ns to fabric time, or is refused with CMDREJ. (R306) -/
  | timStep
  /-- HOLDOVER_ENTER: No PPS edge for HOLD_LIM seconds sets HOLDOVER and raises TIME at L1. (R308) -/
  | holdoverEnter
  /-- PPS_OUT_RISE: PPS_OUT rises when NS becomes 0 and stays high for TIM_PPSOUT_W. (R309) -/
  | ppsOutRise
  /-- TIME_BEACON: Once per second an SL port with TIME exchanges a beacon and updates TIM_SLOFFn. (R312) -/
  | timeBeacon (sl : Fin 6) (offset : BitVec 32)
  /-- TIM_NOW_READ: A read of TIM_NOW_NS latches the whole time into TIM_NOW_S_LO and TIM_NOW_S_HI. (R313) -/
  | timNowRead
  /-- SLC_FREEZE: SLC_CTRL.FREEZE moves an ACTIVE slice to FREEZING, withholding its requests and sending a freeze
      marker. (R320) -/
  | slcFreeze (sl : Fin 64)
  /-- SLICE_FROZEN: The freeze marker completes and SLC_TRK reads 0, so the slice becomes FROZEN. (R320) -/
  | sliceFrozen (sl : Fin 64)
  /-- FREEZE_STUCK: A slice not FROZEN within SLC_TMO sets STUCK, raises TIMEOUT and posts FREEZE_STUCK. (R321) -/
  | freezeStuck (sl : Fin 64)
  /-- SLC_THAW: SLC_CTRL.THAW returns a FROZEN slice to ACTIVE and resumes its work. (R322) -/
  | slcThaw (sl : Fin 64)
  /-- SLC_RESET: SLC_CTRL.RESET moves the slice to RESETTING and refuses its requests. (R326) -/
  | slcReset (sl : Fin 64)
  /-- SLICE_RESET_SQUASH: At the drain timeout the slice's non-exempt tracker entries complete with SLICE_RESET.
      (R326) -/
  | sliceResetSquash (sl : Fin 64)
  /-- SLICE_RESET_CLEAR: When SLC_TRK reads 0 the slice's state is reset, it becomes ACTIVE and RESET_DONE is
      posted. (R327) -/
  | sliceResetClear (sl : Fin 64)
  /-- SLC_SAVE: SLC_CTRL.SAVE writes the FROZEN slice's save area to host memory. (R324) -/
  | slcSave (sl : Fin 64)
  /-- SAVE_DONE: The last save write completes, setting SAVED and posting SAVE_DONE or SAVE_FAIL. (R324) -/
  | saveDone (sl : Fin 64) (status : BitVec 8)
  /-- SLC_RESTORE: SLC_CTRL.RESTORE reads a save area into a FROZEN slice. (R325) -/
  | slcRestore (sl : Fin 64)
  /-- RESTORE_DONE: The restore reads complete and the area is checked and applied, posting RESTORE_DONE or
      RESTORE_FAIL. (R325) -/
  | restoreDone (sl : Fin 64) (area : List Byte) (status : BitVec 8)
  /-- SLC_QLIVE_WRITE: A write of SLC_QLIVE changes the number of the slice's queues in service. (R318) -/
  | slcQliveWrite (sl : Fin 64) (value : BitVec 32)
  /-- FAULT_REPORT: A FaultRpt packet reaches the fault collector and is answered with Comp. (R334) -/
  | faultReport
  /-- ALARM_FRAME: A router's alarm frame reaches the collector over its alarm line. (R334) -/
  | alarmFrame (node : Fin 144)
  /-- FAULT_TAKE: The collector takes one report per FCLK, computes its level and applies its effects. (R339) -/
  | faultTake (stored : WordErr)
  /-- FAULT_REPORT_RESEND: A report without Comp for 8 µs is resent with the same TXID and DELAY = 0xFFF. (R336) -/
  | faultReportResend (fid : Fid)
  /-- PIN_MINIMUM_END: The FAULT_N minimum elapses and a remembered release takes effect if still allowed. (R342) -/
  | pinMinimumEnd
  /-- FC_ACK: A write of FC_ACK sets the pending level of the named classes to 0. (R340) -/
  | fcAck (value : BitVec 32)
  /-- FC_PIN_RELEASE: FC_PIN.RELEASE releases FAULT_N, remembers the release, or is refused. (R343) -/
  | fcPinRelease
  /-- INJ_ARM: FC_INJ_CTRL.ARM arms inverted check bits at a checker for N checks, or is refused. (R353) -/
  | injArm
  /-- INJ_DISARM: FC_INJ_CTRL.DISARM ends an armed injection. (R353) -/
  | injDisarm
  /-- SW_RAISE: FC_SWRAISE.RAISE raises a software fault of class SW0 to SW7. (R356) -/
  | swRaise (src : Fid)
  /-- SPINE_VOTE_MISMATCH: A spine voter finds one copy disagreeing (L1, resync) or no majority (L4). (R352) -/
  | spineVoteMismatch (unit : Fin 6) (copy : Option (Fin 3))
  /-- VOTE_RESYNC_DONE: A resynchronising spine copy finishes its reload from the other two. (R352) -/
  | voteResyncDone (unit : Fin 6) (copy : Fin 3)
  /-- PWR_DOM_REQ: A write of PWR_DOMd_REQ requests one domain to a state, starting an entry or a wake. (R361) -/
  | pwrDomReq (d : Fin 18) (target : BitVec 3)
  /-- PWR_QREQ_GO: PWR_QREQn.GO requests a mask of a quadrant's domains to one state. (R361) -/
  | pwrQreqGo (n : Fin 4)
  /-- IDLE_TIMEOUT: A domain idle for IDLE_AFTER × 64 FCLK requests Idle. (R361) -/
  | idleTimeout (d : Fin 18)
  /-- POWER_ANSWER: A unit answers ACCEPT, DEFER or REFUSE; when all accept the entry proceeds to SAVE or COMMIT.
      (R366) -/
  | powerAnswer (d : Fin 18) (unit : UnitRef)
  /-- DEFER_REASK: PWR_DEFER.WAIT after a DEFER the unit is asked again. (R366) -/
  | deferReask (d : Fin 18) (unit : UnitRef)
  /-- NOANSWER_TIMEOUT: A unit silent for 16 CCLK is taken to refuse with NOANSWER and POWER is raised at L1. (R366)
      -/
  | noanswerTimeout (d : Fin 18) (unit : UnitRef)
  /-- ENTRY_SAVE_DONE: The signature computation or Off table save completes and the entry commits, or refuses with
      SAVE. (R381) -/
  | entrySaveDone (d : Fin 18) (status : BitVec 8)
  /-- VDONE: A Status read finds VDone and the voltage step of an entry or wake completes. (R383) -/
  | vdone (d : Fin 18)
  /-- AVS_STATUS_POLL: A periodic Status read checks VDone or StatusAlert, raising POWER on failure or alert. (R383)
      -/
  | avsStatusPoll (d : Fin 18) (alert : Bool)
  /-- WAKE_ACCEPT: A wake is accepted in a CCLK outside the lost-edge window, returning Idle to Run or starting the
      wake steps. (R375) -/
  | wakeAccept (d : Fin 18)
  /-- WAKE_START_DONE: Clocks restart, tables are reloaded and checked, and the domain reaches WAKE_HELD with an
      Intr. (R376) -/
  | wakeStartDone (d : Fin 18) (reply : WakeReply)
  /-- PWR_UNCLAMP: PWR_DOMd_CTRL.UNCLAMP releases the clamps and applies the return image. (R376) -/
  | pwrUnclamp (d : Fin 18)
  /-- PWR_FABREQ_GO: PWR_FABREQ.GO in QUIESCED puts every domain into Sleep or Deep sleep together. (R364) -/
  | pwrFabreqGo
  /-- PWR_FABREQ_UNCLAMP: PWR_FABREQ.UNCLAMP releases the clamps of every domain after fabric sleep. (R364) -/
  | pwrFabreqUnclamp
  /-- PWR_ANISE_SEND: A write of PWR_ANISE sends the Anise pattern on an SL port. (R374) -/
  | pwrAniseSend (sl : Fin 6)
  /-- PWR_SAVE_LOCK: PWR_CTRL.SAVE_LOCK locks the Off save area base until cold reset. (R380) -/
  | pwrSaveLock
  /-- HOLD_TIMEOUT: A packet held longer than PWR_HOLD.TMO is answered DOMAIN_ASLEEP. (R370) -/
  | holdTimeout (fid : Fid)
  /-- GLB_DRAIN: GLB_CTRL.DRAIN stops injection and moves the fabric to DRAIN, or is kept pending in DUAL. (R412) -/
  | glbDrain
  /-- FABRIC_QUIESCED: Every tracker, buffer and Saffron empties and the fabric becomes QUIESCED. (R412) -/
  | fabricQuiesced
  /-- DRAIN_TIMEOUT: A fabric not QUIESCED within GLB_DRAIN_TMO sets DRAINSTUCK and raises TIMEOUT at L1. (R413) -/
  | drainTimeout
  /-- GLB_RESUME: GLB_CTRL.RESUME returns the fabric from DRAIN or QUIESCED to RUN. (R413) -/
  | glbResume
  /-- GLB_PDREC: GLB_CTRL.PDREC in QUIESCED writes the power-down record to save slot 0. (R414) -/
  | glbPdrec
  /-- PDREC_DONE: The power-down record writes complete, setting PDDONE or PDERR. (R414) -/
  | pdrecDone (status : BitVec 8)
  /-- CTR_READ: A read of CTR_LO samples the counter and latches its high bits, its chained partner and fabric time.
      (R388) -/
  | ctrRead (bank : BitVec 10) (i : Fin 128)
  /-- CTR_CLEAR: CTR_BANK_CTRL.CLEAR clears every counter of its bank in the next FCLK. (R386) -/
  | ctrClear (bank : BitVec 10)
  /-- CTR_CHAIN_WRITE: Setting CHAIN on an even counter chains it with the next into a 96-bit count. (R387) -/
  | ctrChainWrite (bank : BitVec 10) (i : Fin 128) (chain : Bool)
  /-- BW_WINDOW_END: At a bandwidth window end the interface writes its counts into a buffer and starts the next
      window. (R392) -/
  | bwWindowEnd (fid : Fid)
  /-- PROBE_RECORD_WRITE: The queue manager writes staged trace records into a probe's ring in whole lines. (R398)
      -/
  | probeRecordWrite (node : Fin 144)
  /-- PROBE_FULL_CLEAR: Clearing PRB_STATUS.FULL re-arms tracing from the current index. (R399) -/
  | probeFullClear (node : Fin 144)
  /-- CSR_READ: A CsrRd is taken by the control hub, checked and carried over the control tree or to the direct
      window. (R423) -/
  | csrRead
  /-- CSR_WRITE: A CsrWr is taken by the control hub, checked and carried over the control tree or to the direct
      window. (R423) -/
  | csrWrite
  /-- TREE_ACCESS_DONE: A control-tree access completes, its Comp is sent and the source's next access may begin.
      (R423) -/
  | treeAccessDone (src : Fid)
  /-- CSA_LOCK: GLB_CSA_CTRL.LOCK locks every control-space access entry until cold reset. (R428) -/
  | csaLock
  /-- LATCH_READ_LO: A read of PRG_ACTIVE_ID_LO or SAF_SEQ_LO latches the whole 64-bit value. (R424) -/
  | latchReadLo (seq : Bool)
  /-- REGISTER_WRITE: A write to a register without a row of its own takes effect by its access code and field kind.
      (R12) -/
  | registerWrite (src : Fid) (offset : BitVec 26) (value : BitVec 32)
  /-- PPS_OUT_FALL: PPS_OUT falls when its high time of TIM_PPSOUT_W µs after the rise has elapsed. (R309) -/
  | ppsOutFall
  /-- AVS_VOLTAGE_WRITE_DONE: The slave frame of an AVSBus voltage write completes and the write is retried on a bad
      CRC or SlaveAck, or Status reads for VDone begin, or after the fourth failure an AVSBus failure is raised.
      (R383) -/
  | avsVoltageWriteDone (d : Fin 18) (crcOk : Bool) (ack : BitVec 2)
  deriving DecidableEq, Repr

end Sys2Proof
end

