-- ==== Sys2Proof/Decode.lean ====
section
/-! DEFINITION. The commands that a word spells.  No row of spec/opcode_table.json gives bits: the commands are events,
not encoded words, so no word spells one. -/

namespace Sys2Proof

/-- The command that a word of `nbits` bits spells by the table's bits: none, for the table gives no row any. -/
def decodeTableWord (_nbits _w : Nat) : Option Instr := none

end Sys2Proof
end

