-- ==== Sys2Proof/Config.lean ====
section
/-! DEFINITION. What an implementation, a floor plan or the part itself fixes and the spec does not: constants without a
body, so that a claim holds whatever they are.  Each is named in the assumption log. -/

namespace Sys2Proof.Config

/-- A value that the spec leaves open, by the count of such values drawn so far (log 10). -/
opaque freeValue : Nat → Nat

/-- The router and local port that the reference floor plan attaches an interface to (R61: "The contract lists the
endpoint on each local port"); node number × 8 + port (log 4). -/
opaque attach : Nat → Nat

/-- The cell that an 8-byte piece of a VCMAP section entry names, and the value it puts there; the spec gives the
contents of the section (R66, R75, R370) and no byte layout (log 5). -/
opaque vcmapCell : (entry value : Nat) → Nat × Nat

/-- The number of 8-byte pieces of an interface's VCMAP entries (log 5). -/
opaque vcmapEntries : Nat

/-- The traffic class that VCMAP gives an opcode before a program is loaded, where the spec fixes none (log 5). -/
opaque defaultTc : (net opc : Nat) → Nat

/-- The link number that the contract gives the link at a router port (R43, R347; log 4). -/
opaque linkNumber : (node port : Nat) → Nat

end Sys2Proof.Config
end

