-- ==== Sys2Proof/Machine/SMap.lean ====
section
/-! DEFINITION. Sparse storage as plain data: a list of key and value pairs, keys strictly rising, no entry equal to
what an unlisted key reads as.  Equal contents are then equal lists. -/

namespace Sys2Proof.Machine

/-- A sparse map from numbers. -/
abbrev SMap (α : Type) := List (Nat × α)

/-- The value at key `k`; an unlisted key reads as `d`. -/
def SMap.get (d : α) : SMap α → Nat → α
  | [], _ => d
  | (k', v) :: m, k => if k' = k then v else SMap.get d m k

/-- The map without key `k`. -/
def SMap.del : SMap α → Nat → SMap α
  | [], _ => []
  | (k', v) :: m, k => if k' = k then SMap.del m k else (k', v) :: SMap.del m k

/-- A pair put before the first larger key. -/
def SMap.ins (k : Nat) (v : α) : SMap α → SMap α
  | [] => [(k, v)]
  | (k', v') :: m => if k < k' then (k, v) :: (k', v') :: m else (k', v') :: SMap.ins k v m

/-- The map with key `k` holding `v`; writing what an unlisted key reads as removes the entry. -/
def SMap.set [DecidableEq α] (d : α) (m : SMap α) (k : Nat) (v : α) : SMap α :=
  if v = d then SMap.del m k else SMap.ins k v (SMap.del m k)

/-- The map with key `k` changed by `f`. -/
def SMap.upd [DecidableEq α] (d : α) (m : SMap α) (k : Nat) (f : α → α) : SMap α :=
  SMap.set d m k (f (SMap.get d m k))

/-- Every listed value changed by `f`, which leaves the default as it is. -/
def SMap.mapVals [DecidableEq α] (d : α) (f : Nat → α → α) (m : SMap α) : SMap α :=
  (m.map (fun kv => (kv.1, f kv.1 kv.2))).filter (fun kv => kv.2 ≠ d)

/-- The keys of the listed entries. -/
def SMap.keys (m : SMap α) : List Nat := m.map Prod.fst

/-- Keys strictly rising from `lo` on, no entry equal to the default. -/
def SMap.wfFrom [DecidableEq α] (d : α) : Nat → SMap α → Bool
  | _, [] => true
  | lo, (k, v) :: m => decide (lo ≤ k) && decide (v ≠ d) && SMap.wfFrom d (k + 1) m

/-- The canonical form. -/
def SMap.wf [DecidableEq α] (d : α) (m : SMap α) : Bool := SMap.wfFrom d 0 m

/-- An element put before the first one with a larger key. -/
def insertOn (key : α → Nat) (x : α) : List α → List α
  | [] => [x]
  | y :: ys => if key x < key y then x :: y :: ys else y :: insertOn key x ys

/-- A list in rising order of a key; elements of one key keep their order. -/
def sortOn (key : α → Nat) (xs : List α) : List α := xs.foldl (fun acc x => insertOn key x acc) []

end Sys2Proof.Machine
end

