-- ==== Sys2Proof/Machine/StateNet.lean ====
section
/-! DEFINITION. The state of the networks, the partner ports and Saffron: packets, router buffers, arbiters, network
interfaces, trackers, streams and slots (spec/03, 04, 05). -/

namespace Sys2Proof.Machine

/-- A packet of any network: the common header (R47), the payload fields of its network (R50 to R53) and the link
sideband that travels with it (R63).  A field that the packet's network does not carry is zero.  HCRC, PCHK and the
parity bits are functions of these fields (Flags.lean, Flits.lean); their errors are operands of the commands. -/
structure Pkt where
  net   : Net
  dst   : Fid       := 0
  src   : Fid       := 0
  opc   : BitVec 6  := 0
  tc    : BitVec 2  := 0
  vc    : BitVec 2  := 0
  ep    : Bool      := false
  rgen  : BitVec 4  := 0
  txid  : BitVec 12 := 0
  slice : BitVec 6  := 0
  len   : BitVec 3  := 0
  addr  : BitVec 52 := 0
  size  : BitVec 3  := 0
  rlx   : Bool      := false
  sd    : BitVec 4  := 0
  aop   : BitVec 4  := 0
  /-- Operands and register values of continuation flits, 64 bits each. -/
  ops   : List Word64 := []
  status : BitVec 8 := 0
  cnt   : BitVec 8  := 0
  df    : Bool      := false
  /-- LINE of a snoop.  Answers and write data keep beside their fields the line that they concern, by which a home matches
  them; the flits of RSP and DAT have no such field (R180; DEDUCED, log 100). -/
  line  : BitVec 46 := 0
  rqfid : Fid       := 0
  htid  : BitVec 8  := 0
  data  : List Byte := []
  be    : Word64    := 0
  /-- Sideband PSN: a data word is uncorrectable. -/
  psn   : Bool      := false
  inj   : BitVec 16 := 0
  old   : Bool      := false
  la    : BitVec 3  := 7
  /-- FCLK + 1 at which the packet was presented to the unit behind its interface (R142). -/
  arr   : Nat := 0
  /-- Ingress timestamp: fabric time of the cycle of its acceptance (R310). -/
  stamp : Int := 0
  deriving DecidableEq, Repr

/-- One flit of a packet: FIDX is `idx`.  Its bits on the wires are in Flits.lean. -/
structure Flit where
  pkt : Pkt
  idx : Nat
  /-- FCLK at whose end it was put where it is: it can leave from the next one on (R63, R67).  At an interface, the cycle of
  its acceptance plus `idx`. -/
  at_ : Nat := 0
  deriving DecidableEq, Repr

/-- The buffer of one router input, network and VC (R67), with the watchdog and escape bookkeeping of its head. -/
structure RBuf where
  q     : List Flit := []
  /-- Output port of the packet whose head flit has left, and the packet as it was sent (R54, R69). -/
  kept  : Option (Nat × Pkt) := none
  /-- The packet in progress is being discarded (R74). -/
  drop  : Bool := false
  /-- FCLK at which the head flit last moved (R78). -/
  moved : Nat := 0
  /-- FCLK since which the head has had no credit (R68). -/
  dry   : Option Nat := none
  /-- Ports that a broadcast head still has to leave through; none: not yet looked up (R65). -/
  bcast : Option (List Nat) := none
  /-- The front flit has moved to VC0 and leaves through the escape port (R68, R97). -/
  esc   : Bool := false
  deriving DecidableEq, Repr

/-- The credits that a router output, network and VC has spent, and when the last ones came back (R67). -/
structure Cred where
  used : Nat := 0
  backAt : Nat := 0
  back : Nat := 0
  deriving DecidableEq, Repr

/-- One arbiter instance (R80 to R88). -/
structure Arb where
  /-- Requester that holds the grant. -/
  holder : Option Nat := none
  used   : Nat := 0
  /-- The holder won by force and keeps the resource to the end of its packet (R88). -/
  forced : Bool := false
  ptr    : Nat := 0
  tc1    : Nat := 0
  wb     : Nat := 0
  /-- Wait counters of privileged requesters (R87). -/
  waits  : SMap Nat := []
  /-- FCLK + 1 of the last decision or slot: one per cycle (R80, R96). -/
  at_    : Nat := 0
  /-- ARB_MASKWIN has counted the running window (R92). -/
  maskSeen : Bool := false
  deriving DecidableEq, Repr

/-- NI_LINK.STATE (R133 table). -/
inductive LinkState where
  | down | waitPartner | cap | credit | up | timeout | nocommon
  deriving DecidableEq, Repr

/-- One number per channel or network, in the order REQ, RSP, SNP, DAT. -/
structure PerNet where
  req : Nat := 0
  rsp : Nat := 0
  snp : Nat := 0
  dat : Nat := 0
  deriving DecidableEq, Repr

/-- The number of one network. -/
def PerNet.get (c : PerNet) : Net → Nat
  | .req => c.req | .rsp => c.rsp | .snp => c.snp | .dat => c.dat

/-- The number of one network replaced. -/
def PerNet.set (c : PerNet) (n : Net) (v : Nat) : PerNet :=
  match n with
  | .req => { c with req := v } | .rsp => { c with rsp := v }
  | .snp => { c with snp := v } | .dat => { c with dat := v }

/-- What a piece waits for (R115, R118, R130, R157). -/
inductive PieceState where
  /-- Accepted; the prechecks are done; waiting for its data beat, stream number or Saffron. -/
  | ready
  | issued
  /-- A Saffron pool header is sent; its data waits for CNT = 0x80 (R130). -/
  | poolWait
  /-- Nacked with SET_FULL: reissue 64 FCLK later. -/
  | nackWait
  /-- Nacked with FENCED: reissue after the next epoch switch. -/
  | epochWait
  | answered
  /-- In the hold buffer of a packet towards a sleeping domain (R370). -/
  | held
  /-- Expired and held out of use (R118). -/
  | dead
  deriving DecidableEq, Repr

/-- One source-tracker entry: one outstanding piece (R102, R115, R117). -/
structure SrcEnt where
  state  : PieceState := .ready
  /-- The transaction that the piece belongs to, by its serial number at this interface. -/
  trans  : Nat := 0
  /-- The request as kept for a reissue (R157). -/
  req    : Pkt := { net := .req }
  /-- The data beat of a write piece. -/
  data   : Option (List Byte × Word64 × Bool) := none
  /-- Byte offset of the piece in the transaction's range, and its line index. -/
  off    : Nat := 0
  lidx   : Nat := 0
  start  : Nat := 0
  since  : Nat := 0
  status : BitVec 8 := 0
  /-- Epoch switches completed when an `epochWait` piece was Nacked. -/
  epoch  : Nat := 0
  /-- What the interface has seen of a coherent request's answers (R139, R184): CNT of `GrantM`, its DF, `InvAck`
  messages, the data. -/
  gm     : Option Nat := none
  df     : Bool := false
  acks   : Nat := 0
  got    : Bool := false
  /-- The partner has gone: answers are discarded (R112, R346). -/
  lost   : Bool := false
  /-- The request has been Nacked: what leaves next is a reissue, with the same TXID (R157). -/
  again  : Bool := false
  /-- The slice reset completed the piece; its answer is discarded (R326). -/
  squash : Bool := false
  /-- A SeqWr was sent with a reserved credit (R130). -/
  credit : Bool := false
  /-- A SeqWr's wait has reached SAF_WAIT.LIMIT and been reported (R132). -/
  waited : Bool := false
  deriving DecidableEq, Repr

/-- One transaction that a partner or an internal unit has issued (R115, R116). -/
structure Trans where
  tag    : BitVec 12 := 0
  opc    : BitVec 6  := 0
  pieces : Nat := 0
  left   : Nat := 0
  /-- Status of the lowest-addressed failed piece, with its offset. -/
  bad    : Option (Nat × BitVec 8) := none
  /-- Data lines answered so far, by line index. -/
  lines  : SMap (List Byte) := []
  tid    : Nat := 0
  /-- The issuing unit's own name of the transaction (an engine request, a queue delivery); partners use `tag`. -/
  peer   : Fid := 0
  accepted : Nat := 0
  /-- The socket of origin of a socket link's request (R104). -/
  sock   : BitVec 3 := 0
  /-- Bytes of a message, PLEN + 1, and whether one of its beats is poisoned. -/
  bytes  : Nat := 0
  poison : Bool := false
  deriving DecidableEq, Repr

/-- One target-tracker entry: a fabric request presented to the partner (R102, R118). -/
structure TgtEnt where
  req   : Pkt
  start : Nat := 0
  /-- The partner has answered; the entry of a coherent request at a socket link then waits for `CompAck`. -/
  answered : Bool := false
  deriving DecidableEq, Repr

/-- One report of the fault reporter of an interface (R334, R336). -/
structure Report where
  src    : Nat
  level  : Nat
  unit   : UnitRef
  detail : Nat := 0
  merged : Bool := false
  inj    : Bool := false
  /-- FCLK of detection. -/
  det    : Nat := 0
  txid   : BitVec 12 := 0
  sent   : Nat := 0
  deriving DecidableEq, Repr

/-- A packet whose flits are passing through the egress of an interface on one VC (R54, R70, R77). -/
structure Asm where
  /-- The packet as its first flit brought it: the kept header. -/
  pkt  : Pkt
  /-- Flits taken so far, and those of them with PSN = 1. -/
  n    : Nat := 0
  bad  : Nat := 0
  /-- The packet is being discarded (R74). -/
  drop : Bool := false
  /-- Its header has been presented: its latency has been measured (R34). -/
  seen : Bool := false
  deriving DecidableEq, Repr

/-- The pins and counters of one network interface (spec/03, 05). -/
structure Ni where
  link    : LinkState := .down
  f2pLink : Bool := false
  p2fLink : Bool := false
  /-- After an overrun the partner has to lower P2F_LINK before the port links up again (R106). -/
  mustFall : Bool := false
  capv    : Bool := false
  /-- Anise patterns driven on F2P_CAP and F2P_CAPV since cold reset (R374). -/
  anise   : Nat := 0
  /-- FCLK at which the running link-up timeout began (R110, R111). -/
  linkAt  : Nat := 0
  /-- Credits that the interface owes the partner: initial ones and those of beats that left a buffer (R106, R110). -/
  owed    : PerNet := {}
  /-- P2F credits given and not yet seen used (R106). -/
  given   : PerNet := {}
  /-- F2P credits held (R106). -/
  cred    : PerNet := {}
  /-- F2P credits received since link-up began (R110). -/
  got     : PerNet := {}
  /-- Beats on F2P not yet credited by the partner. -/
  f2pOut  : PerNet := {}
  /-- P2F beats accepted and not yet injected, oldest first. -/
  beats   : List Beat := []
  /-- F2P beats presented and not yet taken by the partner, oldest first. -/
  f2p     : List Beat := []
  /-- Answer beats that wait for an F2P credit, oldest first. -/
  f2pWait : List Beat := []
  /-- Link-up restarts by itself when P2F_LINK rises again (R112). -/
  relink  : Bool := false
  /-- Packets accepted at ingress and waiting for the attached router, with the index of their next flit. -/
  injq    : List Flit := []
  /-- Flits that have arrived from the attached router, in order of arrival. -/
  egress  : List Flit := []
  /-- Packets partly taken at egress, by 4 × network + VC. -/
  asm     : SMap (Option Asm) := []
  /-- TC0 packets of an internal unit that wait for the acceptance cycle of their slots (R95). -/
  tc0     : List Pkt := []
  /-- Packets presented to the unit behind the interface (a home, a queue manager, Saffron, a bank node, the hub). -/
  inbox   : List Pkt := []
  /-- Write data that has arrived before its request was presented, and the refused writes whose data is still to come. -/
  early   : List Pkt := []
  sink    : List (Fid × BitVec 12) := []
  /-- Source tracker, by entry. -/
  src     : SMap (Option SrcEnt) := []
  /-- Open transactions. -/
  trans   : List Trans := []
  serial  : Nat := 0
  /-- Target tracker, by fabric tag. -/
  tgt     : SMap (Option TgtEnt) := []
  /-- Data beats of refused writes still to be taken and dropped: TAG, beats left, status, slice (R209). -/
  drops   : List (BitVec 12 × Nat × Nat × BitVec 6) := []
  /-- Next stream number and outstanding count per destination (R119). -/
  seqNext : SMap Nat := []
  seqOut  : SMap Nat := []
  /-- Expected stream number per source (R119). -/
  expect  : SMap Nat := []
  /-- Reorder buffer (R119). -/
  rob     : List Pkt := []
  /-- Hold buffer of packets towards sleeping domains, with arrival FCLK (R370). -/
  hold    : List (Pkt × Nat) := []
  /-- FCLK + 1 of the last injection of each ordered stream in each epoch, by 2 × (4 × DST + TC) + EP (R41). -/
  lastOld : SMap Nat := []
  /-- New-epoch packets held under R41. -/
  epHold  : List Pkt := []
  /-- Saffron credits held and pool requests outstanding (R130). -/
  safCred : Nat := 0
  safPool : Nat := 0
  /-- Fault reporter (R336). -/
  reports : List Report := []
  merge   : Bool := false
  /-- Reports numbered so far, from which their TXIDs go round: one that came back within 64 µs would be taken for a duplicate
  (R336; DEDUCED, log 89). -/
  repNum  : Nat := 0
  /-- TXIDs of the requests of the interface itself that are outstanding: FaultRpt and PwrCtl (R48). -/
  own     : List (BitVec 12) := []
  /-- The EpochCtl packet whose arm has not been acknowledged yet (R38). -/
  arm     : Option Pkt := none
  deriving DecidableEq, Repr

/-- What a Saffron slot holds (R127). -/
inductive SlotState where
  /-- Granted with CNT = 0x80; the data is on its way. -/
  | granted
  /-- Admitted; it waits for room in its ordered stream, or behind an earlier one that does (R119, R127). -/
  | admitted
  /-- Admitted; forwarded to its target. -/
  | forwarded
  /-- Its target has answered. -/
  | done
  deriving DecidableEq, Repr

/-- One Saffron slot (R126 to R133). -/
structure SafSlot where
  /-- Number of the slot, 0 to 95. -/
  n      : Nat := 0
  master : Fid
  pool   : Bool
  slice  : BitVec 6
  txid   : BitVec 12
  req    : Pkt
  seq    : Option Nat := none
  state  : SlotState := .granted
  status : BitVec 8 := 0
  /-- The slot's word was uncorrectable: the write goes out poisoned (R352). -/
  bad    : Bool := false
  /-- The data that the slot holds until it is forwarded. -/
  data   : Option Pkt := none
  /-- FCLK at which the write was forwarded. -/
  start  : Nat := 0
  deriving DecidableEq, Repr

/-- A sequenced request of the program controller or slice control that waits in the spine for a credit or a pool slot (R126,
R130, R132). -/
structure SpineReq where
  req    : Pkt
  /-- FCLK of its acceptance. -/
  since  : Nat := 0
  /-- Its pool header has been sent. -/
  sent   : Bool := false
  /-- Its wait has been reported. -/
  waited : Bool := false
  deriving DecidableEq, Repr

/-- Saffron (R126 to R133).  The reservations lie in the SAF_ENT registers. -/
structure Saf where
  slots : List SafSlot := []
  /-- Admission queue of pool headers, oldest first (R131). -/
  admq  : List Pkt := []
  seq   : Nat := 0
  /-- Credits given to each master and not yet used (R130). -/
  given : SMap Nat := []
  /-- Expired entries of Saffron's tracker that are held out of use, by slot number: FCLK + 1 of the expiry (R118). -/
  dead  : SMap Nat := []
  /-- Requests under FID 0x180 that have neither been sent with a credit nor been granted, oldest first. -/
  spine : List SpineReq := []
  deriving DecidableEq, Repr

end Sys2Proof.Machine
end

