-- ==== Sys2Proof/Machine/Flags.lean ====
section
/-! DEFINITION. Bit fields, check codes and packet layouts: CRC-8 (R49), CRC-32C (R26), SECDED (R71), the common header
(R47) and little-endian words (R6). -/

namespace Sys2Proof.Machine

/-- Bits [lo+w-1:lo] of a number. -/
def fld (v lo w : Nat) : Nat := v / 2 ^ lo % 2 ^ w

/-- The number with bits [lo+w-1:lo] replaced by `x`. -/
def setFld (v lo w x : Nat) : Nat := v - fld v lo w * 2 ^ lo + x % 2 ^ w * 2 ^ lo

/-- One bit of a number. -/
def bitOf (v i : Nat) : Bool := v / 2 ^ i % 2 == 1

/-- The little-endian number of a list of bytes (R6). -/
def leNat : List Byte → Nat
  | [] => 0
  | b :: bs => b.toNat + 256 * leNat bs

/-- The `n` little-endian bytes of a number (R6). -/
def leBytes : Nat → Nat → List Byte
  | 0, _ => []
  | n + 1, v => BitVec.ofNat 8 v :: leBytes n (v / 256)

/-- `n` zero bytes. -/
def zeros (n : Nat) : List Byte := List.replicate n 0

/-- One byte into a CRC-8 with polynomial 0x2F, most significant bit first (R49). -/
def crc8Step (crc b : BitVec 8) : BitVec 8 :=
  (List.range 8).foldl (fun c _ => if c.msb then (c <<< 1) ^^^ 0x2F else c <<< 1) (crc ^^^ b)

/-- CRC-8 of a list of bytes (R49). -/
def crc8 (bs : List Byte) : BitVec 8 := bs.foldl crc8Step 0xFF ^^^ 0xFF

/-- One byte into a reflected CRC-32C (R26); 0x82F63B78 is 0x1EDC6F41 with its bits reversed. -/
def crc32cStep (crc : BitVec 32) (b : Byte) : BitVec 32 :=
  (List.range 8).foldl (fun c _ => if c.getLsbD 0 then (c >>> 1) ^^^ 0x82F63B78 else c >>> 1) (crc ^^^ b.zeroExtend 32)

/-- CRC-32C of a list of bytes (R26). -/
def crc32c (bs : List Byte) : BitVec 32 := bs.foldl crc32cStep 0xFFFFFFFF ^^^ 0xFFFFFFFF

/-- The number of bits set among the lowest `n`. -/
def popCount : Nat → Nat → Nat
  | 0, _ => 0
  | n + 1, v => v % 2 + popCount n (v / 2)

/-- Column codes of the (72,64) SECDED code, data bit 0 first (R71): the 56 values of weight 3 in ascending order, then
the eight of weight 5 that the rule lists. -/
def secdedColumns : List Nat :=
  (List.range 256).filter (fun v => popCount 8 v == 3) ++ [0x1F, 0x2F, 0x37, 0x3B, 0x3D, 0x3E, 0x4F, 0x57]

/-- The check byte of a data word (R71). -/
def secdedCheck (w : Word64) : Nat :=
  (secdedColumns.zipIdx.foldl (fun acc (ci : Nat × Nat) => if w.getLsbD ci.2 then acc ^^^ ci.1 else acc) 0)

/-- What a stored word and check byte read as: the corrected word and the kind of error (R71). -/
def secdedRead (w : Word64) (chk : Nat) : Word64 × WordErr :=
  let syn := secdedCheck w ^^^ chk
  if syn = 0 then (w, .clean)
  else if popCount 8 syn = 1 then (w, .corrected)
  else match secdedColumns.findIdx? (· == syn) with
    | some i => (w ^^^ (1 <<< i : Word64), .corrected)
    | none => (w, .uncorrectable)

/-- NET of the registers: 0 REQ, 1 RSP, 2 SNP, 3 DAT (R79). -/
def netCode : Net → Nat
  | .req => 0 | .rsp => 1 | .snp => 2 | .dat => 3

/-- The network of a code. -/
def netOf (n : Nat) : Net := if n % 4 = 0 then .req else if n % 4 = 1 then .rsp else if n % 4 = 2 then .snp else .dat

/-- Header bytes 1 to 7 with the VC bits taken as 0, as HCRC covers them (R49). -/
def Pkt.hdrBytes (p : Pkt) : List Byte :=
  leBytes 7 (p.len.toNat + 2 ^ 3 * p.slice.toNat + 2 ^ 9 * p.txid.toNat + 2 ^ 21 * p.rgen.toNat
    + 2 ^ 25 * p.ep.toNat + 2 ^ 28 * p.tc.toNat + 2 ^ 30 * p.opc.toNat + 2 ^ 36 * p.src.toNat + 2 ^ 46 * p.dst.toNat)

/-- HCRC of a packet (R49). -/
def Pkt.hcrc (p : Pkt) : BitVec 8 := crc8 p.hdrBytes

/-- The common header as it stands on the current link (R47). -/
def Pkt.header (p : Pkt) : Nat :=
  p.hcrc.toNat + 2 ^ 8 * leNat p.hdrBytes + 2 ^ 34 * p.vc.toNat

/-- FADDR of a REQ packet as probes and reports see it; LINE × 64 on SNP, none elsewhere (R397). -/
def Pkt.address (p : Pkt) : Option Nat :=
  match p.net with
  | .req => some p.addr.toNat
  | .snp => some (p.line.toNat * 64)
  | _ => none

/-- The age of R63: the count minus INJ plus one, modulo 65,536. -/
def ageOf (now inj : Nat) : Nat := (now + 65537 - inj) % 65536

end Sys2Proof.Machine
end

