-- ==== Sys2Proof/Machine/RegTable.lean ====
section
/-! DEFINITION. The register tables of the spec, one row per register: the block it lies in, its offset, its fields with
access code, reset value, kind and reset scope (R7, R8, R10 to R14, R425 and the register tables of each chapter, among them
those of R299, R384, R400 to R402, R420 and R431, whose identity values name the part and its program format: R1 to R3). -/

namespace Sys2Proof.Machine

/-- The instance blocks of control space (R425); `arb` is the arbiter block that routers, home slices and bank nodes
carry (R92), `pdom` the block of one power domain. -/
inductive RegBlock where
  | glb | pdom | rk | rtr | ni | hs | arb | ssb | qm | eng | ecl | ctr | prb | slc | slcg
  deriving DecidableEq, Repr

/-- Access codes (R8). -/
inductive Access where
  | ro | rw | w1c | w1s | wo | rwl | rc
  deriving DecidableEq, Repr

/-- Field kinds (R12). -/
inductive Kind where
  | none | live | epoch | quiesce
  deriving DecidableEq, Repr

/-- One field of a register: lowest bit, width, access, reset value, kind, and whether only a cold reset reaches it. -/
structure Field where
  lo : Nat
  w : Nat
  acc : Access
  reset : Nat
  kind : Kind
  cold : Bool
  deriving DecidableEq, Repr

/-- One row of a register table.  `count` copies stand `stride` bytes apart from `off` on. -/
structure RegSpec where
  block : RegBlock
  off : Nat
  stride : Nat
  count : Nat
  fields : List Field
  deriving DecidableEq, Repr

/-- Every register of the spec, under its own name. -/
inductive Reg where
  | PRG_CTRL | PRG_STATUS | PRG_WPTR | PRG_WAITS_LIMIT | PRG_ACTIVE_ID_LO | PRG_ACTIVE_ID_HI | PRG_SEQ_PC
  | PRG_CLOVE0_LO | PRG_CLOVE0_HI | PRG_CLOVE1_LO | PRG_CLOVE1_HI | PRG_DATA | EPO_STATUS | EPO_TIME_S
  | EPO_TIME_NS | EPO_DRAIN | EPO_COUNT | RTR_ID | RTR_STATUS | RTR_WDOG | RTR_ESC | RTR_ERR_CAP | RTR_ERR_HDR_LO
  | RTR_ERR_HDR_HI | RTR_CORR | NI_ID | NI_STATUS | NI_ERR_CAP | NI_ERR_HDR_LO | NI_ERR_HDR_HI | NI_STALE_CNT
  | NI_POISON_CNT | ARB_CFG0 | ARB_CFG1 | ARB_CFG2 | ARB_CFG3 | ARB_FORCED | ARB_MASKWIN | ARB_STATUS
  | RTR_SLOT_MISS | RTR_SLOT_RES | SAF_STATUS | SAF_POOLDEF | SAF_WAIT | SAF_WAITCNT | SAF_SEQ_LO | SAF_SEQ_HI
  | SAF_ENTn | NI_LINK | NI_TRK | NI_TMO | NI_TMO_CNT | NI_LATE_CNT | NI_ROB | NI_ROB_STALL | NI_SAFCRD
  | NI_SLCAP_OWN | NI_SLCAP_FAR | NI_SLCAP_COMMON | NI_UNSUP_CNT | HS_ID | HS_STATUS | HS_TRK | HS_DIR_USE
  | HS_DIR_CORR | HS_DIR_ERR | HS_RECALL_CNT | HS_COARSE_CNT | HS_NACK_CNT | HS_STALE_CNT | HS_WAITFULL
  | HS_TMO | HS_SCRUB | HS_RECON | HS_RECON_CNT | HS_CACHEPORTS | HS_ATOM_CTRL | HS_PRED_CFG | HS_ATOM_NEAR
  | HS_ATOM_FAR | HS_PRED_HOT | HS_PRED_DROP | HS_PROTO_CAP | HS_STRAY_CNT | RK_STATUS | RK_CTRL | RK_WRITER
  | RK_LOCKED | RK_CRC_ACT | RK_CRC_SHD | RK_REPn_CRC | RK_DENY_CNT | RK_DBG_DENY_CNT | RK_OVR_CNT | RK_REPAIR_CNT
  | RK_CORR_CNT | RK_DENY_CAP | RK_DENY_ADDR_LO | RK_DENY_ADDR_HI | RK_DENY_ENTRY | RK_CENTRAL_ERR | SSB_ID
  | SSB_STATUS | SSB_CORR | SSB_UNCORR | SSB_ERR_CAP | SSB_SCRUB | SSB_DENY_CNT | SSB_DENY_CAP | SSB_CONF_OTHER
  | SSB_RGNn_LO | SSB_RGNn_HI | SSB_CONFn_SEL | SSB_CONFn_CNT | QM_ID | QM_STATUS | QM_HOSTWIN | QM_RETRY
  | QM_QSEL | QM_Q_STATE | QM_Q_DEPTH | QM_Q_BYTES | QM_Q_RATE | QM_Q_BURST | QM_Q_TOKENS | QM_Q_CTRL
  | QM_Q_HEAD | QM_Q_TAIL | QM_FULL_CNT | QM_DENY_CNT | QM_BADLEN_CNT | QM_RETRY_CNT | QM_DISCARD_CNT
  | QM_EVLOST_CNT | QM_SAMPLE_CFG | QM_SAMPLE_BASE | QM_SAMPLE_SIZE | QM_SAMPLE_WPTR | QM_SAMPLE_SKIP
  | QM_P_RATE | QM_P_BURST | QM_P_TOKENS | QM_P_GATE | QM_P_GATE_S | QM_P_GATE_NS | QM_P_TX_CNT | ENG_ID
  | ENG_STATUS | ENG_ISSUE | ENG_IDLE | ENG_T_STATE | ENG_T_CAUSE | ENG_T_TADDR_LO | ENG_T_TADDR_HI
  | ENG_T_CTRL | ENG_T_TRAPS | ENG_CL_ID | ENG_CL_STATUS | ENG_CL_SRAMPA | ENG_CL_CORR | ENG_CL_UNCORR
  | ENG_CL_ERR_CAP | ENG_CL_SCRUB | ENG_CL_RXFULL | ENG_CL_NOBIND | ENG_CL_RXLOST | ENG_SAMP_CFG | ENG_SAMP_BASE
  | ENG_SAMP_WPTR | ENG_SAMP_SKIP | TIM_STATUS | TIM_CTRL | TIM_NOW_NS | TIM_NOW_S_LO | TIM_NOW_S_HI
  | TIM_SET_NS | TIM_SET_S_LO | TIM_SET_S_HI | TIM_STEP | TIM_CMD | TIM_STEP_TOTAL | TIM_PPS_S | TIM_PPS_NS
  | TIM_PPS_ERR | TIM_PPS_REJ | TIM_PPSOUT_W | TIM_ALIGN_CNT | TIM_ALIGN_CAP | TIM_SLOFFn | NI_TS_CTRL
  | NI_TS_CAP | NI_TS_NS | NI_TS_S | NI_TS_FRAC | NI_TS_MISS | SLC_STATUS | SLC_CTRL | SLC_QLIVE | SLC_TRK
  | SLC_TMO | SLC_SAVE_LO | SLC_SAVE_HI | SLC_SQUASH | SLC_DEFn | SLC_PIDS | SLC_SAFUSE | SLC_GSTATUS
  | NI_SLC_DEF | NI_SLC_UNMAP | NI_SLC_HOLD | FC_STATUS | FC_CTRL | FC_PIN | FC_IRQ | FC_FIRST | FC_FIRST_DET
  | FC_FIRST_NS | FC_FIRST_S_LO | FC_FIRST_S_HI | FC_OVF | FC_COUNT | FC_MERGED | FC_PENDn | FC_ACK
  | FC_INJ_CTRL | FC_INJ_LEFT | FC_VOTE | FC_SWRAISE | FC_CLASS_CFGc | FC_CCNTc | FC_FENCED_RTRn | FC_FENCED_NIn
  | FC_FENCED_HSn | FC_FENCED_ECn | FC_FENCED_Q | PWR_STATUS | PWR_CTRL | PWR_DEFER | PWR_HOLD | PWR_WAKE_CFG
  | PWR_IRQ | PWR_RETN_LOST_LO | PWR_RETN_LOST_HI | PWR_RETN_MASK_LO | PWR_RETN_MASK_HI | PWR_OFFSAVE_LO
  | PWR_OFFSAVE_HI | PWR_ANISE | PWR_AVS | PWR_AVS_CAP | PWR_HOLD_OVF | PWR_QREQn | PWR_FABREQ | PWR_DOMd_STATUS
  | PWR_DOMd_REQ | PWR_DOMd_CFG | PWR_DOMd_VOLT | PWR_DOMd_CTRL | PWR_DOMd_REFUSE_CNT | PWR_DOMd_ABORT_CNT
  | PWR_DOMd_LASTREF | CTR_LO | CTR_STAT | CTR_LAT_HI | CTR_LAT_PAIR_LO | CTR_LAT_PAIR_HI | CTR_LAT_NS
  | CTR_LAT_S_LO | CTR_LAT_S_HI | CTR_BANK_CTRL | CTR_BANK_ID | PRB_CTRL | PRB_SRC | PRB_DST | PRB_OPC
  | PRB_BASE_LO | PRB_BASE_HI | PRB_LIMIT_LO | PRB_LIMIT_HI | PRB_RING_BASE | PRB_RING_SIZE | PRB_WPTR
  | PRB_RDPTR | PRB_MATCH | PRB_DROP | PRB_STATUS | NI_BW_CFG | NI_BWk_IN_LO | NI_BWk_OUT_LO | NI_BWk_HI
  | NI_BWk_LEN | NI_BWk_META | NI_MONm_MAX | NI_MONm_BREACH | NI_MON_CAP | NI_MON_AGE | GLB_RESET | GLB_CTRL
  | GLB_STATUS | GLB_DRAIN_TMO | GLB_CSA_CTRL | GLB_CSA_DENY_CNT | GLB_CSA_CAP | GLB_CSA_CAP_OFF | GLB_CSA_ABSENT_CNT
  | GLB_VENDOR | GLB_PRODUCT | GLB_IPVER | GLB_CAPS | GLB_FUSE_STATUS | GLB_FUSE_DEV | GLB_FUSE_SERIAL_LO
  | GLB_FUSE_SERIAL_HI | GLB_FUSE_RULEw | GLB_MODE | GLB_CSAn_LO | GLB_CSAn_HI
  deriving DecidableEq, Repr

/-- The row of a register in its table.  A reset value that depends on the instance or on fuses is 0 here and is
supplied by `Reg.resetAt`. -/
def Reg.spec : Reg → RegSpec
  | .PRG_CTRL => ⟨.glb, 0x400, 0x4, 1,
      [⟨0, 1, .w1s, 0x0, .live, false⟩, ⟨1, 1, .w1s, 0x0, .live, false⟩, ⟨31, 1, .w1s, 0x0, .live, true⟩]⟩
  | .PRG_STATUS => ⟨.glb, 0x404, 0x4, 1,
      [⟨0, 4, .ro, 0x0, .none, false⟩, ⟨8, 5, .ro, 0x0, .none, false⟩, ⟨16, 1, .w1c, 0x0, .live, false⟩, ⟨17, 1, .w1c, 0x0, .live, false⟩]⟩
  | .PRG_WPTR => ⟨.glb, 0x408, 0x4, 1,
      [⟨0, 32, .ro, 0x0, .none, false⟩]⟩
  | .PRG_WAITS_LIMIT => ⟨.glb, 0x40C, 0x4, 1,
      [⟨0, 32, .rw, 0x3E8, .live, false⟩]⟩
  | .PRG_ACTIVE_ID_LO => ⟨.glb, 0x410, 0x4, 1,
      [⟨0, 32, .ro, 0x0, .none, false⟩]⟩
  | .PRG_ACTIVE_ID_HI => ⟨.glb, 0x414, 0x4, 1,
      [⟨0, 32, .ro, 0x0, .none, false⟩]⟩
  | .PRG_SEQ_PC => ⟨.glb, 0x418, 0x4, 1,
      [⟨0, 23, .ro, 0x0, .none, false⟩]⟩
  | .PRG_CLOVE0_LO => ⟨.glb, 0x420, 0x4, 1,
      [⟨0, 32, .rwl, 0x0, .live, true⟩]⟩
  | .PRG_CLOVE0_HI => ⟨.glb, 0x424, 0x4, 1,
      [⟨0, 8, .rwl, 0x0, .live, true⟩]⟩
  | .PRG_CLOVE1_LO => ⟨.glb, 0x428, 0x4, 1,
      [⟨0, 32, .rwl, 0x0, .live, true⟩]⟩
  | .PRG_CLOVE1_HI => ⟨.glb, 0x42C, 0x4, 1,
      [⟨0, 8, .rwl, 0x0, .live, true⟩]⟩
  | .PRG_DATA => ⟨.glb, 0x1000, 0x4, 1024,
      [⟨0, 32, .wo, 0x0, .live, false⟩]⟩
  | .EPO_STATUS => ⟨.glb, 0x600, 0x4, 1,
      [⟨0, 1, .ro, 0x0, .none, false⟩, ⟨1, 1, .ro, 0x0, .none, false⟩, ⟨2, 1, .ro, 0x0, .none, false⟩, ⟨3, 1, .w1c, 0x0, .live, false⟩]⟩
  | .EPO_TIME_S => ⟨.glb, 0x604, 0x4, 1,
      [⟨0, 16, .ro, 0x0, .none, false⟩]⟩
  | .EPO_TIME_NS => ⟨.glb, 0x608, 0x4, 1,
      [⟨0, 32, .ro, 0x0, .none, false⟩]⟩
  | .EPO_DRAIN => ⟨.glb, 0x60C, 0x4, 1,
      [⟨0, 32, .ro, 0x0, .none, false⟩]⟩
  | .EPO_COUNT => ⟨.glb, 0x610, 0x4, 1,
      [⟨0, 32, .ro, 0x0, .none, true⟩]⟩
  | .RTR_ID => ⟨.rtr, 0x0, 0x4, 1,
      [⟨0, 8, .ro, 0x0, .none, true⟩, ⟨8, 4, .ro, 0x0, .none, true⟩, ⟨12, 2, .ro, 0x0, .none, true⟩, ⟨14, 7, .ro, 0x0, .none, true⟩]⟩
  | .RTR_STATUS => ⟨.rtr, 0x4, 0x4, 1,
      [⟨0, 2, .ro, 0x0, .none, false⟩, ⟨2, 1, .w1c, 0x0, .live, false⟩, ⟨3, 1, .ro, 0x0, .none, false⟩]⟩
  | .RTR_WDOG => ⟨.rtr, 0x8, 0x4, 1,
      [⟨0, 20, .rw, 0x10000, .live, false⟩]⟩
  | .RTR_ESC => ⟨.rtr, 0xC, 0x4, 1,
      [⟨0, 10, .rw, 0x20, .live, false⟩]⟩
  | .RTR_ERR_CAP => ⟨.rtr, 0x10, 0x4, 1,
      [⟨0, 3, .ro, 0x0, .none, false⟩, ⟨3, 2, .ro, 0x0, .none, false⟩, ⟨5, 2, .ro, 0x0, .none, false⟩, ⟨8, 4, .ro, 0x0, .none, false⟩, ⟨31, 1, .w1c, 0x0, .live, false⟩]⟩
  | .RTR_ERR_HDR_LO => ⟨.rtr, 0x14, 0x4, 1,
      [⟨0, 32, .ro, 0x0, .none, false⟩]⟩
  | .RTR_ERR_HDR_HI => ⟨.rtr, 0x18, 0x4, 1,
      [⟨0, 32, .ro, 0x0, .none, false⟩]⟩
  | .RTR_CORR => ⟨.rtr, 0x1C, 0x4, 1,
      [⟨0, 32, .rc, 0x0, .none, false⟩]⟩
  | .NI_ID => ⟨.ni, 0x0, 0x4, 1,
      [⟨0, 10, .ro, 0x0, .none, true⟩, ⟨12, 3, .ro, 0x0, .none, true⟩]⟩
  | .NI_STATUS => ⟨.ni, 0x4, 0x4, 1,
      [⟨0, 4, .ro, 0x0, .none, false⟩, ⟨4, 2, .ro, 0x0, .none, false⟩, ⟨6, 1, .w1c, 0x0, .live, false⟩, ⟨7, 1, .ro, 0x0, .none, false⟩]⟩
  | .NI_ERR_CAP => ⟨.ni, 0x8, 0x4, 1,
      [⟨0, 3, .ro, 0x0, .none, false⟩, ⟨3, 2, .ro, 0x0, .none, false⟩, ⟨5, 2, .ro, 0x0, .none, false⟩, ⟨8, 4, .ro, 0x0, .none, false⟩, ⟨31, 1, .w1c, 0x0, .live, false⟩]⟩
  | .NI_ERR_HDR_LO => ⟨.ni, 0xC, 0x4, 1,
      [⟨0, 32, .ro, 0x0, .none, false⟩]⟩
  | .NI_ERR_HDR_HI => ⟨.ni, 0x10, 0x4, 1,
      [⟨0, 32, .ro, 0x0, .none, false⟩]⟩
  | .NI_STALE_CNT => ⟨.ni, 0x14, 0x4, 1,
      [⟨0, 32, .rc, 0x0, .none, false⟩]⟩
  | .NI_POISON_CNT => ⟨.ni, 0x18, 0x4, 1,
      [⟨0, 32, .rc, 0x0, .none, false⟩]⟩
  | .ARB_CFG0 => ⟨.arb, 0x0, 0x4, 1,
      [⟨0, 32, .ro, 0xFF010101, .none, false⟩]⟩
  | .ARB_CFG1 => ⟨.arb, 0x4, 0x4, 1,
      [⟨0, 32, .ro, 0x100400A, .none, false⟩]⟩
  | .ARB_CFG2 => ⟨.arb, 0x8, 0x4, 1,
      [⟨0, 32, .ro, 0x1004, .none, false⟩]⟩
  | .ARB_CFG3 => ⟨.arb, 0xC, 0x4, 1,
      [⟨0, 32, .ro, 0x0, .none, false⟩]⟩
  | .ARB_FORCED => ⟨.arb, 0x10, 0x4, 1,
      [⟨0, 32, .rc, 0x0, .none, false⟩]⟩
  | .ARB_MASKWIN => ⟨.arb, 0x14, 0x4, 1,
      [⟨0, 32, .rc, 0x0, .none, false⟩]⟩
  | .ARB_STATUS => ⟨.arb, 0x18, 0x4, 1,
      [⟨0, 1, .ro, 0x0, .none, false⟩, ⟨1, 1, .ro, 0x0, .none, false⟩, ⟨2, 8, .ro, 0x0, .none, false⟩]⟩
  | .RTR_SLOT_MISS => ⟨.rtr, 0x20, 0x4, 1,
      [⟨0, 32, .rc, 0x0, .none, false⟩]⟩
  | .RTR_SLOT_RES => ⟨.rtr, 0x24, 0x4, 1,
      [⟨0, 11, .ro, 0x0, .none, false⟩]⟩
  | .SAF_STATUS => ⟨.glb, 0x800, 0x4, 1,
      [⟨0, 7, .ro, 0x0, .none, false⟩, ⟨7, 7, .ro, 0x0, .none, false⟩, ⟨14, 7, .ro, 0x5F, .none, false⟩, ⟨21, 9, .ro, 0x0, .none, false⟩, ⟨30, 1, .w1c, 0x0, .live, false⟩]⟩
  | .SAF_POOLDEF => ⟨.glb, 0x804, 0x4, 1,
      [⟨0, 7, .rw, 0x1, .live, false⟩]⟩
  | .SAF_WAIT => ⟨.glb, 0x808, 0x4, 1,
      [⟨0, 20, .rw, 0x1800, .live, false⟩]⟩
  | .SAF_WAITCNT => ⟨.glb, 0x80C, 0x4, 1,
      [⟨0, 32, .rc, 0x0, .none, false⟩]⟩
  | .SAF_SEQ_LO => ⟨.glb, 0x810, 0x4, 1,
      [⟨0, 32, .ro, 0x0, .none, false⟩]⟩
  | .SAF_SEQ_HI => ⟨.glb, 0x814, 0x4, 1,
      [⟨0, 32, .ro, 0x0, .none, false⟩]⟩
  | .SAF_ENTn => ⟨.glb, 0x840, 0x4, 32,
      [⟨0, 10, .rw, 0x0, .live, false⟩, ⟨10, 7, .rw, 0x0, .live, false⟩, ⟨17, 7, .rw, 0x0, .live, false⟩, ⟨24, 1, .rw, 0x0, .live, false⟩, ⟨25, 7, .ro, 0x0, .none, false⟩]⟩
  | .NI_LINK => ⟨.ni, 0x40, 0x4, 1,
      [⟨0, 3, .ro, 0x0, .none, false⟩, ⟨3, 1, .ro, 0x0, .none, false⟩, ⟨16, 16, .rw, 0x64, .live, false⟩]⟩
  | .NI_TRK => ⟨.ni, 0x44, 0x4, 1,
      [⟨0, 9, .ro, 0x0, .none, false⟩, ⟨9, 9, .ro, 0x0, .none, false⟩]⟩
  | .NI_TMO => ⟨.ni, 0x48, 0x4, 1,
      [⟨0, 16, .rw, 0x40, .live, false⟩]⟩
  | .NI_TMO_CNT => ⟨.ni, 0x4C, 0x4, 1,
      [⟨0, 32, .rc, 0x0, .none, false⟩]⟩
  | .NI_LATE_CNT => ⟨.ni, 0x50, 0x4, 1,
      [⟨0, 32, .rc, 0x0, .none, false⟩]⟩
  | .NI_ROB => ⟨.ni, 0x54, 0x4, 1,
      [⟨0, 6, .ro, 0x0, .none, false⟩]⟩
  | .NI_ROB_STALL => ⟨.ni, 0x58, 0x4, 1,
      [⟨0, 32, .rc, 0x0, .none, false⟩]⟩
  | .NI_SAFCRD => ⟨.ni, 0x5C, 0x4, 1,
      [⟨0, 7, .ro, 0x0, .none, false⟩, ⟨7, 7, .ro, 0x0, .none, false⟩]⟩
  | .NI_SLCAP_OWN => ⟨.ni, 0x60, 0x4, 1,
      [⟨0, 32, .ro, 0x0, .none, false⟩]⟩
  | .NI_SLCAP_FAR => ⟨.ni, 0x64, 0x4, 1,
      [⟨0, 32, .ro, 0x0, .none, false⟩]⟩
  | .NI_SLCAP_COMMON => ⟨.ni, 0x68, 0x4, 1,
      [⟨0, 32, .ro, 0x0, .none, false⟩]⟩
  | .NI_UNSUP_CNT => ⟨.ni, 0x6C, 0x4, 1,
      [⟨0, 32, .rc, 0x0, .none, false⟩]⟩
  | .HS_ID => ⟨.hs, 0x0, 0x4, 1,
      [⟨0, 6, .ro, 0x0, .none, true⟩, ⟨6, 2, .ro, 0x0, .none, true⟩, ⟨8, 10, .ro, 0x0, .none, true⟩]⟩
  | .HS_STATUS => ⟨.hs, 0x4, 0x4, 1,
      [⟨0, 2, .ro, 0x0, .none, false⟩, ⟨2, 1, .w1c, 0x0, .live, false⟩, ⟨3, 1, .ro, 0x0, .none, false⟩, ⟨4, 1, .ro, 0x0, .none, false⟩]⟩
  | .HS_TRK => ⟨.hs, 0x8, 0x4, 1,
      [⟨0, 9, .ro, 0x0, .none, false⟩, ⟨9, 12, .ro, 0x0, .none, false⟩, ⟨21, 6, .ro, 0x0, .none, false⟩]⟩
  | .HS_DIR_USE => ⟨.hs, 0xC, 0x4, 1,
      [⟨0, 17, .ro, 0x0, .none, false⟩]⟩
  | .HS_DIR_CORR => ⟨.hs, 0x10, 0x4, 1,
      [⟨0, 32, .rc, 0x0, .none, false⟩]⟩
  | .HS_DIR_ERR => ⟨.hs, 0x14, 0x4, 1,
      [⟨0, 13, .ro, 0x0, .none, false⟩, ⟨13, 4, .ro, 0x0, .none, false⟩, ⟨31, 1, .w1c, 0x0, .live, false⟩]⟩
  | .HS_RECALL_CNT => ⟨.hs, 0x18, 0x4, 1,
      [⟨0, 32, .rc, 0x0, .none, false⟩]⟩
  | .HS_COARSE_CNT => ⟨.hs, 0x1C, 0x4, 1,
      [⟨0, 32, .rc, 0x0, .none, false⟩]⟩
  | .HS_NACK_CNT => ⟨.hs, 0x20, 0x4, 1,
      [⟨0, 32, .rc, 0x0, .none, false⟩]⟩
  | .HS_STALE_CNT => ⟨.hs, 0x24, 0x4, 1,
      [⟨0, 32, .rc, 0x0, .none, false⟩]⟩
  | .HS_WAITFULL => ⟨.hs, 0x28, 0x4, 1,
      [⟨0, 32, .rc, 0x0, .none, false⟩]⟩
  | .HS_TMO => ⟨.hs, 0x2C, 0x4, 1,
      [⟨0, 16, .rw, 0x20, .live, false⟩]⟩
  | .HS_SCRUB => ⟨.hs, 0x30, 0x4, 1,
      [⟨0, 16, .rw, 0x400, .live, false⟩]⟩
  | .HS_RECON => ⟨.hs, 0x34, 0x4, 1,
      [⟨0, 13, .ro, 0x0, .none, false⟩, ⟨13, 3, .ro, 0x0, .none, false⟩]⟩
  | .HS_RECON_CNT => ⟨.hs, 0x38, 0x4, 1,
      [⟨0, 32, .rc, 0x0, .none, false⟩]⟩
  | .HS_CACHEPORTS => ⟨.hs, 0x3C, 0x4, 1,
      [⟨0, 8, .ro, 0x0, .none, false⟩]⟩
  | .HS_ATOM_CTRL => ⟨.hs, 0x40, 0x4, 1,
      [⟨0, 2, .rw, 0x0, .live, false⟩, ⟨2, 1, .w1s, 0x0, .live, false⟩]⟩
  | .HS_PRED_CFG => ⟨.hs, 0x44, 0x4, 1,
      [⟨0, 10, .rw, 0x2, .live, false⟩, ⟨10, 6, .rw, 0x6, .live, false⟩, ⟨16, 6, .rw, 0x3, .live, false⟩]⟩
  | .HS_ATOM_NEAR => ⟨.hs, 0x48, 0x4, 1,
      [⟨0, 32, .rc, 0x0, .none, false⟩]⟩
  | .HS_ATOM_FAR => ⟨.hs, 0x4C, 0x4, 1,
      [⟨0, 32, .rc, 0x0, .none, false⟩]⟩
  | .HS_PRED_HOT => ⟨.hs, 0x50, 0x4, 1,
      [⟨0, 12, .ro, 0x0, .none, false⟩]⟩
  | .HS_PRED_DROP => ⟨.hs, 0x54, 0x4, 1,
      [⟨0, 32, .rc, 0x0, .none, false⟩]⟩
  | .HS_PROTO_CAP => ⟨.hs, 0x58, 0x4, 1,
      [⟨0, 4, .ro, 0x0, .none, false⟩, ⟨4, 2, .ro, 0x0, .none, false⟩, ⟨6, 6, .ro, 0x0, .none, false⟩, ⟨12, 10, .ro, 0x0, .none, false⟩, ⟨31, 1, .w1c, 0x0, .live, false⟩]⟩
  | .HS_STRAY_CNT => ⟨.hs, 0x5C, 0x4, 1,
      [⟨0, 32, .rc, 0x0, .none, false⟩]⟩
  | .RK_STATUS => ⟨.rk, 0x0, 0x4, 1,
      [⟨0, 1, .ro, 0x0, .none, true⟩, ⟨1, 1, .ro, 0x0, .none, true⟩, ⟨2, 1, .ro, 0x0, .none, false⟩, ⟨4, 4, .ro, 0xF, .none, false⟩]⟩
  | .RK_CTRL => ⟨.rk, 0x4, 0x4, 1,
      [⟨0, 1, .rw, 0x0, .live, false⟩]⟩
  | .RK_WRITER => ⟨.rk, 0x8, 0x4, 1,
      [⟨0, 10, .ro, 0x0, .none, true⟩, ⟨10, 1, .ro, 0x0, .none, true⟩]⟩
  | .RK_LOCKED => ⟨.rk, 0xC, 0x4, 1,
      [⟨0, 13, .ro, 0x10, .none, true⟩, ⟨13, 11, .ro, 0x0, .none, true⟩]⟩
  | .RK_CRC_ACT => ⟨.rk, 0x10, 0x4, 1,
      [⟨0, 32, .ro, 0x0, .none, true⟩]⟩
  | .RK_CRC_SHD => ⟨.rk, 0x14, 0x4, 1,
      [⟨0, 32, .ro, 0x0, .none, true⟩]⟩
  | .RK_REPn_CRC => ⟨.rk, 0x18, 0x4, 4,
      [⟨0, 32, .ro, 0x0, .none, true⟩]⟩
  | .RK_DENY_CNT => ⟨.rk, 0x28, 0x4, 1,
      [⟨0, 32, .rc, 0x0, .none, false⟩]⟩
  | .RK_DBG_DENY_CNT => ⟨.rk, 0x2C, 0x4, 1,
      [⟨0, 32, .rc, 0x0, .none, false⟩]⟩
  | .RK_OVR_CNT => ⟨.rk, 0x30, 0x4, 1,
      [⟨0, 32, .rc, 0x0, .none, false⟩]⟩
  | .RK_REPAIR_CNT => ⟨.rk, 0x34, 0x4, 1,
      [⟨0, 32, .rc, 0x0, .none, false⟩]⟩
  | .RK_CORR_CNT => ⟨.rk, 0x38, 0x4, 1,
      [⟨0, 32, .rc, 0x0, .none, false⟩]⟩
  | .RK_DENY_CAP => ⟨.rk, 0x40, 0x4, 1,
      [⟨0, 10, .ro, 0x0, .none, false⟩, ⟨10, 10, .ro, 0x0, .none, false⟩, ⟨20, 4, .ro, 0x0, .none, false⟩, ⟨24, 1, .ro, 0x0, .none, false⟩, ⟨25, 3, .ro, 0x0, .none, false⟩, ⟨28, 1, .ro, 0x0, .none, false⟩, ⟨31, 1, .w1c, 0x0, .live, false⟩]⟩
  | .RK_DENY_ADDR_LO => ⟨.rk, 0x44, 0x4, 1,
      [⟨0, 32, .ro, 0x0, .none, false⟩]⟩
  | .RK_DENY_ADDR_HI => ⟨.rk, 0x48, 0x4, 1,
      [⟨0, 20, .ro, 0x0, .none, false⟩]⟩
  | .RK_DENY_ENTRY => ⟨.rk, 0x4C, 0x4, 1,
      [⟨0, 13, .ro, 0x0, .none, false⟩]⟩
  | .RK_CENTRAL_ERR => ⟨.rk, 0x50, 0x4, 1,
      [⟨0, 13, .ro, 0x0, .none, false⟩, ⟨31, 1, .w1c, 0x0, .live, false⟩]⟩
  | .SSB_ID => ⟨.ssb, 0x0, 0x4, 1,
      [⟨0, 4, .ro, 0x0, .none, true⟩, ⟨4, 2, .ro, 0x0, .none, true⟩, ⟨6, 10, .ro, 0x0, .none, true⟩]⟩
  | .SSB_STATUS => ⟨.ssb, 0x4, 0x4, 1,
      [⟨0, 2, .ro, 0x0, .none, false⟩, ⟨2, 1, .w1c, 0x0, .live, false⟩]⟩
  | .SSB_CORR => ⟨.ssb, 0x8, 0x4, 1,
      [⟨0, 32, .rc, 0x0, .none, false⟩]⟩
  | .SSB_UNCORR => ⟨.ssb, 0xC, 0x4, 1,
      [⟨0, 32, .rc, 0x0, .none, false⟩]⟩
  | .SSB_ERR_CAP => ⟨.ssb, 0x10, 0x4, 1,
      [⟨0, 2, .ro, 0x0, .none, false⟩, ⟨2, 16, .ro, 0x0, .none, false⟩, ⟨18, 1, .ro, 0x0, .none, false⟩, ⟨19, 1, .ro, 0x0, .none, false⟩, ⟨31, 1, .w1c, 0x0, .live, false⟩]⟩
  | .SSB_SCRUB => ⟨.ssb, 0x14, 0x4, 1,
      [⟨0, 16, .rw, 0x1000, .live, false⟩]⟩
  | .SSB_DENY_CNT => ⟨.ssb, 0x18, 0x4, 1,
      [⟨0, 32, .rc, 0x0, .none, false⟩]⟩
  | .SSB_DENY_CAP => ⟨.ssb, 0x1C, 0x4, 1,
      [⟨0, 10, .ro, 0x0, .none, false⟩, ⟨10, 1, .ro, 0x0, .none, false⟩, ⟨11, 1, .ro, 0x0, .none, false⟩, ⟨12, 2, .ro, 0x0, .none, false⟩, ⟨14, 9, .ro, 0x0, .none, false⟩, ⟨31, 1, .w1c, 0x0, .live, false⟩]⟩
  | .SSB_CONF_OTHER => ⟨.ssb, 0x20, 0x4, 1,
      [⟨0, 32, .rc, 0x0, .none, false⟩]⟩
  | .SSB_RGNn_LO => ⟨.ssb, 0x400, 0x8, 64,
      [⟨0, 10, .rw, 0x0, .epoch, true⟩, ⟨10, 3, .rw, 0x0, .epoch, true⟩, ⟨13, 1, .rw, 0x0, .epoch, true⟩, ⟨14, 1, .rw, 0x0, .epoch, true⟩, ⟨15, 1, .rw, 0x0, .epoch, true⟩, ⟨16, 6, .rw, 0x0, .epoch, true⟩, ⟨22, 1, .rw, 0x0, .epoch, true⟩]⟩
  | .SSB_RGNn_HI => ⟨.ssb, 0x404, 0x8, 64,
      [⟨0, 9, .rw, 0x0, .epoch, true⟩, ⟨16, 9, .rw, 0x0, .epoch, true⟩]⟩
  | .SSB_CONFn_SEL => ⟨.ssb, 0x600, 0x8, 64,
      [⟨0, 10, .rw, 0x0, .live, false⟩, ⟨10, 1, .rw, 0x0, .live, false⟩]⟩
  | .SSB_CONFn_CNT => ⟨.ssb, 0x604, 0x8, 64,
      [⟨0, 32, .rc, 0x0, .none, false⟩]⟩
  | .QM_ID => ⟨.qm, 0x0, 0x4, 1,
      [⟨0, 2, .ro, 0x0, .none, true⟩, ⟨2, 10, .ro, 0x0, .none, true⟩]⟩
  | .QM_STATUS => ⟨.qm, 0x4, 0x4, 1,
      [⟨0, 2, .ro, 0x0, .none, false⟩, ⟨2, 1, .w1c, 0x0, .live, false⟩]⟩
  | .QM_HOSTWIN => ⟨.qm, 0x8, 0x4, 1,
      [⟨0, 10, .rw, 0x0, .quiesce, false⟩]⟩
  | .QM_RETRY => ⟨.qm, 0xC, 0x4, 1,
      [⟨0, 16, .rw, 0x100, .live, false⟩]⟩
  | .QM_QSEL => ⟨.qm, 0x10, 0x4, 1,
      [⟨0, 14, .rw, 0x0, .live, false⟩]⟩
  | .QM_Q_STATE => ⟨.qm, 0x14, 0x4, 1,
      [⟨0, 2, .ro, 0x0, .none, false⟩, ⟨2, 1, .ro, 0x0, .none, false⟩, ⟨3, 8, .ro, 0x0, .none, false⟩, ⟨11, 5, .ro, 0x0, .none, false⟩]⟩
  | .QM_Q_DEPTH => ⟨.qm, 0x18, 0x4, 1,
      [⟨0, 17, .ro, 0x0, .none, false⟩]⟩
  | .QM_Q_BYTES => ⟨.qm, 0x1C, 0x4, 1,
      [⟨0, 32, .ro, 0x0, .none, false⟩]⟩
  | .QM_Q_RATE => ⟨.qm, 0x20, 0x4, 1,
      [⟨0, 24, .rw, 0x0, .live, false⟩]⟩
  | .QM_Q_BURST => ⟨.qm, 0x24, 0x4, 1,
      [⟨0, 24, .rw, 0x0, .live, false⟩]⟩
  | .QM_Q_TOKENS => ⟨.qm, 0x28, 0x4, 1,
      [⟨0, 32, .ro, 0x0, .none, false⟩]⟩
  | .QM_Q_CTRL => ⟨.qm, 0x2C, 0x4, 1,
      [⟨0, 1, .w1s, 0x0, .live, false⟩]⟩
  | .QM_Q_HEAD => ⟨.qm, 0x30, 0x4, 1,
      [⟨0, 17, .ro, 0x0, .none, false⟩]⟩
  | .QM_Q_TAIL => ⟨.qm, 0x34, 0x4, 1,
      [⟨0, 17, .ro, 0x0, .none, false⟩]⟩
  | .QM_FULL_CNT => ⟨.qm, 0x40, 0x4, 1,
      [⟨0, 32, .rc, 0x0, .none, false⟩]⟩
  | .QM_DENY_CNT => ⟨.qm, 0x44, 0x4, 1,
      [⟨0, 32, .rc, 0x0, .none, false⟩]⟩
  | .QM_BADLEN_CNT => ⟨.qm, 0x48, 0x4, 1,
      [⟨0, 32, .rc, 0x0, .none, false⟩]⟩
  | .QM_RETRY_CNT => ⟨.qm, 0x4C, 0x4, 1,
      [⟨0, 32, .rc, 0x0, .none, false⟩]⟩
  | .QM_DISCARD_CNT => ⟨.qm, 0x50, 0x4, 1,
      [⟨0, 32, .rc, 0x0, .none, false⟩]⟩
  | .QM_EVLOST_CNT => ⟨.qm, 0x54, 0x4, 1,
      [⟨0, 32, .rc, 0x0, .none, false⟩]⟩
  | .QM_SAMPLE_CFG => ⟨.qm, 0x60, 0x4, 1,
      [⟨0, 10, .rw, 0x3E8, .live, false⟩, ⟨31, 1, .rw, 0x0, .live, false⟩]⟩
  | .QM_SAMPLE_BASE => ⟨.qm, 0x64, 0x4, 1,
      [⟨6, 19, .rw, 0x0, .live, false⟩]⟩
  | .QM_SAMPLE_SIZE => ⟨.qm, 0x68, 0x4, 1,
      [⟨0, 5, .rw, 0x6, .live, false⟩]⟩
  | .QM_SAMPLE_WPTR => ⟨.qm, 0x6C, 0x4, 1,
      [⟨0, 16, .ro, 0x0, .none, false⟩, ⟨16, 16, .ro, 0x0, .none, false⟩]⟩
  | .QM_SAMPLE_SKIP => ⟨.qm, 0x70, 0x4, 1,
      [⟨0, 32, .rc, 0x0, .none, false⟩]⟩
  | .QM_P_RATE => ⟨.qm, 0x100, 0x40, 8,
      [⟨0, 24, .rw, 0x0, .live, false⟩]⟩
  | .QM_P_BURST => ⟨.qm, 0x104, 0x40, 8,
      [⟨0, 24, .rw, 0x0, .live, false⟩]⟩
  | .QM_P_TOKENS => ⟨.qm, 0x108, 0x40, 8,
      [⟨0, 32, .ro, 0x0, .none, false⟩]⟩
  | .QM_P_GATE => ⟨.qm, 0x10C, 0x40, 8,
      [⟨0, 8, .ro, 0x0, .none, false⟩, ⟨8, 1, .ro, 0x0, .none, false⟩, ⟨9, 1, .w1c, 0x0, .live, false⟩, ⟨10, 1, .ro, 0x0, .none, false⟩]⟩
  | .QM_P_GATE_S => ⟨.qm, 0x110, 0x40, 8,
      [⟨0, 16, .ro, 0x0, .none, false⟩]⟩
  | .QM_P_GATE_NS => ⟨.qm, 0x114, 0x40, 8,
      [⟨0, 32, .ro, 0x0, .none, false⟩]⟩
  | .QM_P_TX_CNT => ⟨.qm, 0x118, 0x40, 8,
      [⟨0, 32, .rc, 0x0, .none, false⟩]⟩
  | .ENG_ID => ⟨.eng, 0x0, 0x4, 1,
      [⟨0, 8, .ro, 0x0, .none, true⟩, ⟨8, 6, .ro, 0x0, .none, true⟩, ⟨14, 2, .ro, 0x0, .none, true⟩]⟩
  | .ENG_STATUS => ⟨.eng, 0x4, 0x4, 1,
      [⟨0, 8, .ro, 0x0, .none, false⟩, ⟨8, 8, .ro, 0x0, .none, false⟩]⟩
  | .ENG_ISSUE => ⟨.eng, 0x8, 0x4, 1,
      [⟨0, 32, .rc, 0x0, .none, false⟩]⟩
  | .ENG_IDLE => ⟨.eng, 0xC, 0x4, 1,
      [⟨0, 32, .rc, 0x0, .none, false⟩]⟩
  | .ENG_T_STATE => ⟨.eng, 0x100, 0x40, 8,
      [⟨0, 3, .ro, 0x0, .none, false⟩, ⟨3, 1, .ro, 0x0, .none, false⟩, ⟨4, 6, .ro, 0x0, .none, false⟩, ⟨10, 14, .ro, 0x0, .none, false⟩]⟩
  | .ENG_T_CAUSE => ⟨.eng, 0x104, 0x40, 8,
      [⟨0, 8, .ro, 0x0, .none, false⟩, ⟨8, 8, .ro, 0x0, .none, false⟩, ⟨16, 14, .ro, 0x0, .none, false⟩, ⟨31, 1, .w1c, 0x0, .live, false⟩]⟩
  | .ENG_T_TADDR_LO => ⟨.eng, 0x108, 0x40, 8,
      [⟨0, 32, .ro, 0x0, .none, false⟩]⟩
  | .ENG_T_TADDR_HI => ⟨.eng, 0x10C, 0x40, 8,
      [⟨0, 32, .ro, 0x0, .none, false⟩]⟩
  | .ENG_T_CTRL => ⟨.eng, 0x110, 0x40, 8,
      [⟨0, 1, .w1s, 0x0, .live, false⟩, ⟨1, 1, .w1s, 0x0, .live, false⟩]⟩
  | .ENG_T_TRAPS => ⟨.eng, 0x114, 0x40, 8,
      [⟨0, 32, .rc, 0x0, .none, false⟩]⟩
  | .ENG_CL_ID => ⟨.ecl, 0x0, 0x4, 1,
      [⟨0, 6, .ro, 0x0, .none, true⟩, ⟨6, 2, .ro, 0x0, .none, true⟩, ⟨8, 10, .ro, 0x0, .none, true⟩, ⟨18, 4, .ro, 0x0, .none, true⟩]⟩
  | .ENG_CL_STATUS => ⟨.ecl, 0x4, 0x4, 1,
      [⟨0, 2, .ro, 0x0, .none, false⟩, ⟨2, 1, .w1c, 0x0, .live, false⟩, ⟨3, 1, .ro, 0x0, .none, false⟩]⟩
  | .ENG_CL_SRAMPA => ⟨.ecl, 0x8, 0x4, 1,
      [⟨0, 27, .rw, 0x0, .epoch, false⟩]⟩
  | .ENG_CL_CORR => ⟨.ecl, 0xC, 0x4, 1,
      [⟨0, 32, .rc, 0x0, .none, false⟩]⟩
  | .ENG_CL_UNCORR => ⟨.ecl, 0x10, 0x4, 1,
      [⟨0, 32, .rc, 0x0, .none, false⟩]⟩
  | .ENG_CL_ERR_CAP => ⟨.ecl, 0x14, 0x4, 1,
      [⟨0, 15, .ro, 0x0, .none, false⟩, ⟨15, 1, .ro, 0x0, .none, false⟩, ⟨31, 1, .w1c, 0x0, .live, false⟩]⟩
  | .ENG_CL_SCRUB => ⟨.ecl, 0x18, 0x4, 1,
      [⟨0, 16, .rw, 0x1000, .live, false⟩]⟩
  | .ENG_CL_RXFULL => ⟨.ecl, 0x1C, 0x4, 1,
      [⟨0, 32, .rc, 0x0, .none, false⟩]⟩
  | .ENG_CL_NOBIND => ⟨.ecl, 0x20, 0x4, 1,
      [⟨0, 32, .rc, 0x0, .none, false⟩]⟩
  | .ENG_CL_RXLOST => ⟨.ecl, 0x24, 0x4, 1,
      [⟨0, 32, .rc, 0x0, .none, false⟩]⟩
  | .ENG_SAMP_CFG => ⟨.ecl, 0x40, 0x4, 1,
      [⟨0, 16, .rw, 0x1000, .live, false⟩, ⟨16, 1, .rw, 0x0, .live, false⟩, ⟨31, 1, .rw, 0x0, .live, false⟩]⟩
  | .ENG_SAMP_BASE => ⟨.ecl, 0x44, 0x4, 1,
      [⟨0, 6, .rw, 0x0, .live, false⟩]⟩
  | .ENG_SAMP_WPTR => ⟨.ecl, 0x48, 0x4, 1,
      [⟨0, 10, .ro, 0x0, .none, false⟩, ⟨16, 16, .ro, 0x0, .none, false⟩]⟩
  | .ENG_SAMP_SKIP => ⟨.ecl, 0x4C, 0x4, 1,
      [⟨0, 32, .rc, 0x0, .none, false⟩]⟩
  | .TIM_STATUS => ⟨.glb, 0xA00, 0x4, 1,
      [⟨0, 1, .ro, 0x0, .none, true⟩, ⟨1, 1, .ro, 0x0, .none, false⟩, ⟨2, 1, .w1c, 0x0, .live, false⟩, ⟨3, 6, .ro, 0x0, .none, false⟩]⟩
  | .TIM_CTRL => ⟨.glb, 0xA04, 0x4, 1,
      [⟨0, 1, .rw, 0x0, .live, false⟩, ⟨1, 1, .rw, 0x0, .live, false⟩, ⟨8, 8, .rw, 0x2, .live, false⟩]⟩
  | .TIM_NOW_NS => ⟨.glb, 0xA08, 0x4, 1,
      [⟨0, 32, .ro, 0x0, .none, true⟩]⟩
  | .TIM_NOW_S_LO => ⟨.glb, 0xA0C, 0x4, 1,
      [⟨0, 32, .ro, 0x0, .none, true⟩]⟩
  | .TIM_NOW_S_HI => ⟨.glb, 0xA10, 0x4, 1,
      [⟨0, 16, .ro, 0x0, .none, true⟩, ⟨16, 16, .ro, 0x0, .none, true⟩]⟩
  | .TIM_SET_NS => ⟨.glb, 0xA14, 0x4, 1,
      [⟨0, 32, .rw, 0x0, .live, false⟩]⟩
  | .TIM_SET_S_LO => ⟨.glb, 0xA18, 0x4, 1,
      [⟨0, 32, .rw, 0x0, .live, false⟩]⟩
  | .TIM_SET_S_HI => ⟨.glb, 0xA1C, 0x4, 1,
      [⟨0, 16, .rw, 0x0, .live, false⟩]⟩
  | .TIM_STEP => ⟨.glb, 0xA20, 0x4, 1,
      [⟨0, 32, .rw, 0x0, .live, false⟩]⟩
  | .TIM_CMD => ⟨.glb, 0xA24, 0x4, 1,
      [⟨0, 1, .w1s, 0x0, .live, false⟩, ⟨1, 1, .w1s, 0x0, .live, false⟩]⟩
  | .TIM_STEP_TOTAL => ⟨.glb, 0xA28, 0x4, 1,
      [⟨0, 32, .ro, 0x0, .none, true⟩]⟩
  | .TIM_PPS_S => ⟨.glb, 0xA2C, 0x4, 1,
      [⟨0, 32, .ro, 0x0, .none, false⟩]⟩
  | .TIM_PPS_NS => ⟨.glb, 0xA30, 0x4, 1,
      [⟨0, 32, .ro, 0x0, .none, false⟩]⟩
  | .TIM_PPS_ERR => ⟨.glb, 0xA34, 0x4, 1,
      [⟨0, 32, .ro, 0x0, .none, false⟩]⟩
  | .TIM_PPS_REJ => ⟨.glb, 0xA38, 0x4, 1,
      [⟨0, 32, .rc, 0x0, .none, false⟩]⟩
  | .TIM_PPSOUT_W => ⟨.glb, 0xA3C, 0x4, 1,
      [⟨0, 20, .rw, 0x186A0, .live, false⟩]⟩
  | .TIM_ALIGN_CNT => ⟨.glb, 0xA40, 0x4, 1,
      [⟨0, 32, .rc, 0x0, .none, false⟩]⟩
  | .TIM_ALIGN_CAP => ⟨.glb, 0xA44, 0x4, 1,
      [⟨0, 10, .ro, 0x0, .none, false⟩, ⟨10, 1, .ro, 0x0, .none, false⟩, ⟨31, 1, .w1c, 0x0, .live, false⟩]⟩
  | .TIM_SLOFFn => ⟨.glb, 0xA48, 0x4, 6,
      [⟨0, 32, .ro, 0x0, .none, false⟩]⟩
  | .NI_TS_CTRL => ⟨.ni, 0x80, 0x4, 1,
      [⟨0, 1, .rw, 0x0, .live, false⟩, ⟨1, 1, .rw, 0x0, .live, false⟩, ⟨2, 2, .rw, 0x0, .live, false⟩, ⟨4, 6, .rw, 0x0, .live, false⟩, ⟨10, 1, .rw, 0x0, .live, false⟩]⟩
  | .NI_TS_CAP => ⟨.ni, 0x84, 0x4, 1,
      [⟨0, 12, .ro, 0x0, .none, false⟩, ⟨12, 6, .ro, 0x0, .none, false⟩, ⟨18, 1, .ro, 0x0, .none, false⟩, ⟨31, 1, .w1c, 0x0, .live, false⟩]⟩
  | .NI_TS_NS => ⟨.ni, 0x88, 0x4, 1,
      [⟨0, 32, .ro, 0x0, .none, false⟩]⟩
  | .NI_TS_S => ⟨.ni, 0x8C, 0x4, 1,
      [⟨0, 32, .ro, 0x0, .none, false⟩]⟩
  | .NI_TS_FRAC => ⟨.ni, 0x90, 0x4, 1,
      [⟨0, 16, .ro, 0x0, .none, false⟩]⟩
  | .NI_TS_MISS => ⟨.ni, 0x94, 0x4, 1,
      [⟨0, 32, .rc, 0x0, .none, false⟩]⟩
  | .SLC_STATUS => ⟨.slc, 0x0, 0x4, 1,
      [⟨0, 3, .ro, 0x0, .none, false⟩, ⟨3, 1, .w1c, 0x0, .live, false⟩, ⟨4, 1, .ro, 0x0, .none, false⟩, ⟨5, 1, .ro, 0x0, .none, false⟩, ⟨8, 2, .ro, 0x0, .none, false⟩]⟩
  | .SLC_CTRL => ⟨.slc, 0x4, 0x4, 1,
      [⟨0, 1, .w1s, 0x0, .live, false⟩, ⟨1, 1, .w1s, 0x0, .live, false⟩, ⟨2, 1, .w1s, 0x0, .live, false⟩, ⟨3, 1, .w1s, 0x0, .live, false⟩, ⟨4, 1, .w1s, 0x0, .live, false⟩]⟩
  | .SLC_QLIVE => ⟨.slc, 0x8, 0x4, 1,
      [⟨0, 17, .rw, 0x10000, .live, false⟩]⟩
  | .SLC_TRK => ⟨.slc, 0xC, 0x4, 1,
      [⟨0, 16, .ro, 0x0, .none, false⟩]⟩
  | .SLC_TMO => ⟨.slc, 0x10, 0x4, 1,
      [⟨0, 16, .rw, 0x64, .live, false⟩]⟩
  | .SLC_SAVE_LO => ⟨.slc, 0x14, 0x4, 1,
      [⟨0, 32, .rw, 0x0, .live, false⟩]⟩
  | .SLC_SAVE_HI => ⟨.slc, 0x18, 0x4, 1,
      [⟨0, 8, .rw, 0x0, .live, false⟩]⟩
  | .SLC_SQUASH => ⟨.slc, 0x1C, 0x4, 1,
      [⟨0, 32, .ro, 0x0, .none, false⟩]⟩
  | .SLC_DEFn => ⟨.slc, 0x20, 0x4, 4,
      [⟨0, 32, .ro, 0x0, .none, false⟩]⟩
  | .SLC_PIDS => ⟨.slc, 0x30, 0x4, 1,
      [⟨0, 9, .ro, 0x0, .none, false⟩]⟩
  | .SLC_SAFUSE => ⟨.slc, 0x34, 0x4, 1,
      [⟨0, 7, .ro, 0x0, .none, false⟩]⟩
  | .SLC_GSTATUS => ⟨.slcg, 0x0, 0x4, 1,
      [⟨0, 7, .ro, 0x0, .none, false⟩, ⟨7, 7, .ro, 0x0, .none, false⟩]⟩
  | .NI_SLC_DEF => ⟨.ni, 0xA0, 0x4, 1,
      [⟨0, 8, .ro, 0x0, .none, false⟩]⟩
  | .NI_SLC_UNMAP => ⟨.ni, 0xA4, 0x4, 1,
      [⟨0, 32, .rc, 0x0, .none, false⟩]⟩
  | .NI_SLC_HOLD => ⟨.ni, 0xA8, 0x4, 1,
      [⟨0, 32, .rc, 0x0, .none, false⟩]⟩
  | .FC_STATUS => ⟨.glb, 0xC00, 0x4, 1,
      [⟨0, 1, .ro, 0x0, .none, true⟩, ⟨1, 1, .ro, 0x0, .none, false⟩, ⟨2, 1, .ro, 0x0, .none, false⟩, ⟨3, 1, .w1c, 0x0, .live, false⟩, ⟨4, 1, .ro, 0x0, .none, false⟩, ⟨5, 1, .w1c, 0x0, .live, false⟩]⟩
  | .FC_CTRL => ⟨.glb, 0xC04, 0x4, 1,
      [⟨0, 3, .rw, 0x2, .live, false⟩, ⟨3, 1, .w1s, 0x0, .live, false⟩]⟩
  | .FC_PIN => ⟨.glb, 0xC08, 0x4, 1,
      [⟨0, 1, .w1s, 0x0, .live, false⟩]⟩
  | .FC_IRQ => ⟨.glb, 0xC0C, 0x4, 1,
      [⟨0, 10, .rw, 0x0, .live, false⟩, ⟨10, 12, .rw, 0x0, .live, false⟩, ⟨31, 1, .rw, 0x0, .live, false⟩]⟩
  | .FC_FIRST => ⟨.glb, 0xC10, 0x4, 1,
      [⟨0, 10, .ro, 0x0, .none, true⟩, ⟨10, 3, .ro, 0x0, .none, true⟩, ⟨13, 10, .ro, 0x0, .none, true⟩, ⟨23, 1, .ro, 0x0, .none, true⟩, ⟨24, 1, .ro, 0x0, .none, true⟩, ⟨31, 1, .w1c, 0x0, .live, true⟩]⟩
  | .FC_FIRST_DET => ⟨.glb, 0xC14, 0x4, 1,
      [⟨0, 12, .ro, 0x0, .none, true⟩, ⟨12, 12, .ro, 0x0, .none, true⟩, ⟨24, 1, .ro, 0x0, .none, true⟩, ⟨25, 1, .ro, 0x0, .none, true⟩]⟩
  | .FC_FIRST_NS => ⟨.glb, 0xC18, 0x4, 1,
      [⟨0, 32, .ro, 0x0, .none, true⟩]⟩
  | .FC_FIRST_S_LO => ⟨.glb, 0xC1C, 0x4, 1,
      [⟨0, 32, .ro, 0x0, .none, true⟩]⟩
  | .FC_FIRST_S_HI => ⟨.glb, 0xC20, 0x4, 1,
      [⟨0, 16, .ro, 0x0, .none, true⟩, ⟨16, 16, .ro, 0x0, .none, true⟩]⟩
  | .FC_OVF => ⟨.glb, 0xC24, 0x4, 1,
      [⟨0, 1, .w1c, 0x0, .live, true⟩]⟩
  | .FC_COUNT => ⟨.glb, 0xC28, 0x4, 1,
      [⟨0, 32, .rc, 0x0, .none, true⟩]⟩
  | .FC_MERGED => ⟨.glb, 0xC2C, 0x4, 1,
      [⟨0, 32, .rc, 0x0, .none, true⟩]⟩
  | .FC_PENDn => ⟨.glb, 0xC30, 0x4, 4,
      [⟨0, 32, .ro, 0x0, .none, true⟩]⟩
  | .FC_ACK => ⟨.glb, 0xC40, 0x4, 1,
      [⟨0, 32, .wo, 0x0, .live, false⟩]⟩
  | .FC_INJ_CTRL => ⟨.glb, 0xC44, 0x4, 1,
      [⟨0, 10, .rw, 0x0, .live, false⟩, ⟨10, 1, .rw, 0x0, .live, false⟩, ⟨11, 4, .rw, 0x0, .live, false⟩, ⟨15, 1, .rw, 0x0, .live, false⟩, ⟨16, 8, .rw, 0x1, .live, false⟩, ⟨24, 3, .rw, 0x0, .live, false⟩, ⟨27, 1, .w1s, 0x0, .live, false⟩, ⟨28, 1, .w1s, 0x0, .live, false⟩, ⟨29, 1, .w1c, 0x0, .live, false⟩, ⟨31, 1, .ro, 0x0, .none, false⟩]⟩
  | .FC_INJ_LEFT => ⟨.glb, 0xC48, 0x4, 1,
      [⟨0, 8, .ro, 0x0, .none, false⟩]⟩
  | .FC_VOTE => ⟨.glb, 0xC4C, 0x4, 1,
      [⟨0, 18, .ro, 0x0, .none, false⟩]⟩
  | .FC_SWRAISE => ⟨.glb, 0xC50, 0x4, 1,
      [⟨0, 3, .rw, 0x0, .live, false⟩, ⟨3, 1, .rw, 0x0, .live, false⟩, ⟨4, 12, .rw, 0x0, .live, false⟩, ⟨31, 1, .w1s, 0x0, .live, false⟩]⟩
  | .FC_CLASS_CFGc => ⟨.glb, 0xD00, 0x4, 32,
      [⟨0, 3, .rw, 0x0, .live, true⟩, ⟨3, 3, .ro, 0x0, .none, true⟩]⟩
  | .FC_CCNTc => ⟨.glb, 0xD80, 0x4, 32,
      [⟨0, 32, .rc, 0x0, .none, true⟩]⟩
  | .FC_FENCED_RTRn => ⟨.glb, 0xE00, 0x4, 5,
      [⟨0, 32, .ro, 0x0, .none, true⟩]⟩
  | .FC_FENCED_NIn => ⟨.glb, 0xE20, 0x4, 32,
      [⟨0, 32, .ro, 0x0, .none, true⟩]⟩
  | .FC_FENCED_HSn => ⟨.glb, 0xEA0, 0x4, 2,
      [⟨0, 32, .ro, 0x0, .none, true⟩]⟩
  | .FC_FENCED_ECn => ⟨.glb, 0xEA8, 0x4, 2,
      [⟨0, 32, .ro, 0x0, .none, true⟩]⟩
  | .FC_FENCED_Q => ⟨.glb, 0xEB0, 0x4, 1,
      [⟨0, 4, .ro, 0x0, .none, true⟩]⟩
  | .PWR_STATUS => ⟨.glb, 0x2000, 0x4, 1,
      [⟨0, 18, .ro, 0x0, .none, false⟩, ⟨18, 1, .w1c, 0x0, .live, false⟩]⟩
  | .PWR_CTRL => ⟨.glb, 0x2004, 0x4, 1,
      [⟨0, 1, .w1s, 0x0, .live, true⟩]⟩
  | .PWR_DEFER => ⟨.glb, 0x2008, 0x4, 1,
      [⟨0, 8, .rw, 0x40, .live, false⟩, ⟨8, 8, .rw, 0x10, .live, false⟩]⟩
  | .PWR_HOLD => ⟨.glb, 0x200C, 0x4, 1,
      [⟨0, 16, .rw, 0x64, .live, false⟩]⟩
  | .PWR_WAKE_CFG => ⟨.glb, 0x2010, 0x4, 1,
      [⟨0, 1, .rw, 0x0, .live, false⟩, ⟨1, 17, .rw, 0x1FFFF, .live, false⟩, ⟨18, 6, .rw, 0x3F, .live, false⟩, ⟨24, 4, .rw, 0x0, .live, false⟩]⟩
  | .PWR_IRQ => ⟨.glb, 0x2014, 0x4, 1,
      [⟨0, 10, .rw, 0x0, .live, false⟩, ⟨10, 12, .rw, 0x0, .live, false⟩, ⟨31, 1, .rw, 0x0, .live, false⟩]⟩
  | .PWR_RETN_LOST_LO => ⟨.glb, 0x2018, 0x4, 1,
      [⟨0, 32, .w1c, 0x0, .live, false⟩]⟩
  | .PWR_RETN_LOST_HI => ⟨.glb, 0x201C, 0x4, 1,
      [⟨0, 32, .w1c, 0x0, .live, false⟩]⟩
  | .PWR_RETN_MASK_LO => ⟨.glb, 0x2020, 0x4, 1,
      [⟨0, 32, .rw, 0xFFFFFFFF, .live, false⟩]⟩
  | .PWR_RETN_MASK_HI => ⟨.glb, 0x2024, 0x4, 1,
      [⟨0, 32, .rw, 0xFFFFFFFF, .live, false⟩]⟩
  | .PWR_OFFSAVE_LO => ⟨.glb, 0x2028, 0x4, 1,
      [⟨0, 32, .rwl, 0x0, .live, true⟩]⟩
  | .PWR_OFFSAVE_HI => ⟨.glb, 0x202C, 0x4, 1,
      [⟨0, 8, .rwl, 0x0, .live, true⟩]⟩
  | .PWR_ANISE => ⟨.glb, 0x2030, 0x4, 1,
      [⟨0, 6, .w1s, 0x0, .live, false⟩]⟩
  | .PWR_AVS => ⟨.glb, 0x2034, 0x4, 1,
      [⟨0, 16, .rw, 0xC8, .live, false⟩, ⟨16, 8, .rw, 0xA, .live, false⟩]⟩
  | .PWR_AVS_CAP => ⟨.glb, 0x2038, 0x4, 1,
      [⟨0, 4, .ro, 0x0, .none, false⟩, ⟨4, 2, .ro, 0x0, .none, false⟩, ⟨6, 1, .ro, 0x0, .none, false⟩, ⟨31, 1, .w1c, 0x0, .live, false⟩]⟩
  | .PWR_HOLD_OVF => ⟨.glb, 0x203C, 0x4, 1,
      [⟨0, 32, .rc, 0x0, .none, false⟩]⟩
  | .PWR_QREQn => ⟨.glb, 0x2040, 0x4, 4,
      [⟨0, 4, .rw, 0x0, .live, false⟩, ⟨4, 3, .rw, 0x0, .live, false⟩, ⟨7, 1, .w1s, 0x0, .live, false⟩]⟩
  | .PWR_FABREQ => ⟨.glb, 0x2050, 0x4, 1,
      [⟨0, 3, .rw, 0x0, .live, false⟩, ⟨3, 1, .w1s, 0x0, .live, false⟩, ⟨4, 1, .w1s, 0x0, .live, false⟩]⟩
  | .PWR_DOMd_STATUS => ⟨.pdom, 0x0, 0x4, 1,
      [⟨0, 3, .ro, 0x0, .none, false⟩, ⟨3, 4, .ro, 0x0, .none, false⟩, ⟨7, 3, .ro, 0x0, .none, false⟩, ⟨10, 1, .ro, 0x0, .none, false⟩, ⟨11, 1, .ro, 0x0, .none, false⟩, ⟨12, 1, .ro, 0x0, .none, false⟩, ⟨13, 1, .w1c, 0x0, .live, false⟩, ⟨14, 1, .w1c, 0x0, .live, false⟩]⟩
  | .PWR_DOMd_REQ => ⟨.pdom, 0x4, 0x4, 1,
      [⟨0, 3, .wo, 0x0, .live, false⟩]⟩
  | .PWR_DOMd_CFG => ⟨.pdom, 0x8, 0x4, 1,
      [⟨0, 1, .rw, 0x0, .live, false⟩, ⟨4, 4, .rw, 0x0, .live, true⟩, ⟨8, 16, .rw, 0x0, .live, false⟩]⟩
  | .PWR_DOMd_VOLT => ⟨.pdom, 0xC, 0x4, 1,
      [⟨0, 16, .rw, 0x2EE, .live, true⟩, ⟨16, 16, .rw, 0x1F4, .live, true⟩]⟩
  | .PWR_DOMd_CTRL => ⟨.pdom, 0x10, 0x4, 1,
      [⟨0, 1, .w1s, 0x0, .live, false⟩]⟩
  | .PWR_DOMd_REFUSE_CNT => ⟨.pdom, 0x14, 0x4, 1,
      [⟨0, 32, .rc, 0x0, .none, false⟩]⟩
  | .PWR_DOMd_ABORT_CNT => ⟨.pdom, 0x18, 0x4, 1,
      [⟨0, 32, .rc, 0x0, .none, false⟩]⟩
  | .PWR_DOMd_LASTREF => ⟨.pdom, 0x1C, 0x4, 1,
      [⟨0, 10, .ro, 0x0, .none, false⟩, ⟨10, 1, .ro, 0x0, .none, false⟩, ⟨11, 4, .ro, 0x0, .none, false⟩, ⟨31, 1, .w1c, 0x0, .live, false⟩]⟩
  | .CTR_LO => ⟨.ctr, 0x0, 0x10, 128,
      [⟨0, 32, .ro, 0x0, .none, false⟩]⟩
  | .CTR_STAT => ⟨.ctr, 0x4, 0x10, 128,
      [⟨0, 1, .w1c, 0x0, .live, false⟩, ⟨1, 1, .rw, 0x0, .live, false⟩, ⟨2, 1, .ro, 0x0, .none, false⟩]⟩
  | .CTR_LAT_HI => ⟨.ctr, 0x800, 0x4, 1,
      [⟨0, 16, .ro, 0x0, .none, false⟩]⟩
  | .CTR_LAT_PAIR_LO => ⟨.ctr, 0x804, 0x4, 1,
      [⟨0, 32, .ro, 0x0, .none, false⟩]⟩
  | .CTR_LAT_PAIR_HI => ⟨.ctr, 0x808, 0x4, 1,
      [⟨0, 16, .ro, 0x0, .none, false⟩]⟩
  | .CTR_LAT_NS => ⟨.ctr, 0x80C, 0x4, 1,
      [⟨0, 32, .ro, 0x0, .none, false⟩]⟩
  | .CTR_LAT_S_LO => ⟨.ctr, 0x810, 0x4, 1,
      [⟨0, 32, .ro, 0x0, .none, false⟩]⟩
  | .CTR_LAT_S_HI => ⟨.ctr, 0x814, 0x4, 1,
      [⟨0, 16, .ro, 0x0, .none, false⟩, ⟨16, 16, .ro, 0x0, .none, false⟩]⟩
  | .CTR_BANK_CTRL => ⟨.ctr, 0x818, 0x4, 1,
      [⟨0, 1, .rw, 0x1, .live, false⟩, ⟨1, 1, .w1s, 0x0, .live, false⟩]⟩
  | .CTR_BANK_ID => ⟨.ctr, 0x81C, 0x4, 1,
      [⟨0, 10, .ro, 0x0, .none, true⟩, ⟨10, 8, .ro, 0x0, .none, true⟩]⟩
  | .PRB_CTRL => ⟨.prb, 0x0, 0x4, 1,
      [⟨0, 1, .rw, 0x0, .live, false⟩, ⟨1, 1, .rw, 0x0, .live, false⟩, ⟨2, 1, .rw, 0x0, .live, false⟩, ⟨3, 3, .rw, 0x7, .live, false⟩, ⟨6, 2, .rw, 0x0, .live, false⟩, ⟨8, 1, .rw, 0x0, .live, false⟩]⟩
  | .PRB_SRC => ⟨.prb, 0x4, 0x4, 1,
      [⟨0, 10, .rw, 0x0, .live, false⟩, ⟨10, 4, .rw, 0xA, .live, false⟩]⟩
  | .PRB_DST => ⟨.prb, 0x8, 0x4, 1,
      [⟨0, 14, .rw, 0x2800, .live, false⟩]⟩
  | .PRB_OPC => ⟨.prb, 0xC, 0x4, 1,
      [⟨0, 6, .rw, 0x0, .live, false⟩, ⟨6, 6, .rw, 0x0, .live, false⟩, ⟨12, 4, .rw, 0xF, .live, false⟩]⟩
  | .PRB_BASE_LO => ⟨.prb, 0x10, 0x4, 1,
      [⟨0, 32, .rw, 0x0, .live, false⟩]⟩
  | .PRB_BASE_HI => ⟨.prb, 0x14, 0x4, 1,
      [⟨0, 20, .rw, 0x0, .live, false⟩]⟩
  | .PRB_LIMIT_LO => ⟨.prb, 0x18, 0x4, 1,
      [⟨0, 32, .rw, 0x0, .live, false⟩]⟩
  | .PRB_LIMIT_HI => ⟨.prb, 0x1C, 0x4, 1,
      [⟨0, 20, .rw, 0x0, .live, false⟩]⟩
  | .PRB_RING_BASE => ⟨.prb, 0x20, 0x4, 1,
      [⟨6, 19, .rw, 0x0, .live, false⟩]⟩
  | .PRB_RING_SIZE => ⟨.prb, 0x24, 0x4, 1,
      [⟨0, 5, .rw, 0x6, .live, false⟩]⟩
  | .PRB_WPTR => ⟨.prb, 0x28, 0x4, 1,
      [⟨0, 16, .ro, 0x0, .none, false⟩, ⟨16, 16, .ro, 0x0, .none, false⟩]⟩
  | .PRB_RDPTR => ⟨.prb, 0x2C, 0x4, 1,
      [⟨0, 16, .rw, 0x0, .live, false⟩]⟩
  | .PRB_MATCH => ⟨.prb, 0x30, 0x4, 1,
      [⟨0, 32, .rc, 0x0, .none, false⟩]⟩
  | .PRB_DROP => ⟨.prb, 0x34, 0x4, 1,
      [⟨0, 32, .rc, 0x0, .none, false⟩]⟩
  | .PRB_STATUS => ⟨.prb, 0x38, 0x4, 1,
      [⟨0, 1, .w1c, 0x0, .live, false⟩, ⟨1, 1, .w1c, 0x0, .live, false⟩]⟩
  | .NI_BW_CFG => ⟨.ni, 0xC0, 0x4, 1,
      [⟨0, 20, .rw, 0x3E8, .live, false⟩, ⟨31, 1, .rw, 0x0, .live, false⟩]⟩
  | .NI_BWk_IN_LO => ⟨.ni, 0xD0, 0x20, 2,
      [⟨0, 32, .ro, 0x0, .none, false⟩]⟩
  | .NI_BWk_OUT_LO => ⟨.ni, 0xD4, 0x20, 2,
      [⟨0, 32, .ro, 0x0, .none, false⟩]⟩
  | .NI_BWk_HI => ⟨.ni, 0xD8, 0x20, 2,
      [⟨0, 16, .ro, 0x0, .none, false⟩, ⟨16, 16, .ro, 0x0, .none, false⟩]⟩
  | .NI_BWk_LEN => ⟨.ni, 0xDC, 0x20, 2,
      [⟨0, 32, .ro, 0x0, .none, false⟩]⟩
  | .NI_BWk_META => ⟨.ni, 0xE0, 0x20, 2,
      [⟨0, 16, .ro, 0x0, .none, false⟩, ⟨16, 1, .ro, 0x0, .none, false⟩, ⟨17, 4, .ro, 0x0, .none, false⟩]⟩
  | .NI_MONm_MAX => ⟨.ni, 0x110, 0x8, 16,
      [⟨0, 16, .rc, 0x0, .none, false⟩]⟩
  | .NI_MONm_BREACH => ⟨.ni, 0x114, 0x8, 16,
      [⟨0, 32, .rc, 0x0, .none, false⟩]⟩
  | .NI_MON_CAP => ⟨.ni, 0x190, 0x4, 1,
      [⟨0, 4, .ro, 0x0, .none, false⟩, ⟨4, 10, .ro, 0x0, .none, false⟩, ⟨14, 12, .ro, 0x0, .none, false⟩, ⟨31, 1, .w1c, 0x0, .live, false⟩]⟩
  | .NI_MON_AGE => ⟨.ni, 0x194, 0x4, 1,
      [⟨0, 16, .ro, 0x0, .none, false⟩]⟩
  | .GLB_RESET => ⟨.glb, 0x24, 0x4, 1,
      [⟨0, 16, .wo, 0x0, .live, false⟩, ⟨16, 1, .wo, 0x0, .live, false⟩]⟩
  | .GLB_CTRL => ⟨.glb, 0x28, 0x4, 1,
      [⟨0, 1, .w1s, 0x0, .live, false⟩, ⟨1, 1, .w1s, 0x0, .live, false⟩, ⟨2, 1, .w1s, 0x0, .live, false⟩]⟩
  | .GLB_STATUS => ⟨.glb, 0x2C, 0x4, 1,
      [⟨0, 1, .ro, 0x0, .none, false⟩, ⟨1, 1, .w1c, 0x0, .live, false⟩, ⟨2, 1, .w1c, 0x0, .live, false⟩, ⟨3, 1, .w1c, 0x0, .live, false⟩, ⟨4, 1, .ro, 0x0, .none, false⟩, ⟨5, 1, .ro, 0x0, .none, false⟩, ⟨6, 1, .ro, 0x0, .none, false⟩]⟩
  | .GLB_DRAIN_TMO => ⟨.glb, 0x30, 0x4, 1,
      [⟨0, 16, .rw, 0x3E8, .live, false⟩]⟩
  | .GLB_CSA_CTRL => ⟨.glb, 0x100, 0x4, 1,
      [⟨0, 1, .w1s, 0x0, .live, true⟩]⟩
  | .GLB_CSA_DENY_CNT => ⟨.glb, 0x104, 0x4, 1,
      [⟨0, 32, .rc, 0x0, .none, false⟩]⟩
  | .GLB_CSA_CAP => ⟨.glb, 0x108, 0x4, 1,
      [⟨0, 10, .ro, 0x0, .none, false⟩, ⟨10, 4, .ro, 0x0, .none, false⟩, ⟨14, 1, .ro, 0x0, .none, false⟩, ⟨15, 2, .ro, 0x0, .none, false⟩, ⟨31, 1, .w1c, 0x0, .live, false⟩]⟩
  | .GLB_CSA_CAP_OFF => ⟨.glb, 0x10C, 0x4, 1,
      [⟨0, 26, .ro, 0x0, .none, false⟩]⟩
  | .GLB_CSA_ABSENT_CNT => ⟨.glb, 0x110, 0x4, 1,
      [⟨0, 32, .rc, 0x0, .none, false⟩]⟩
  | .GLB_VENDOR => ⟨.glb, 0x0, 0x4, 1,
      [⟨0, 16, .ro, 0xE57, .none, true⟩]⟩
  | .GLB_PRODUCT => ⟨.glb, 0x4, 0x4, 1,
      [⟨0, 16, .ro, 0xA4D, .none, true⟩]⟩
  | .GLB_IPVER => ⟨.glb, 0x8, 0x4, 1,
      [⟨0, 8, .ro, 0x0, .none, true⟩, ⟨8, 8, .ro, 0x1, .none, true⟩, ⟨16, 8, .ro, 0x2, .none, true⟩]⟩
  | .GLB_CAPS => ⟨.glb, 0xC, 0x4, 1,
      [⟨0, 4, .ro, 0x3, .none, true⟩, ⟨4, 2, .ro, 0x3, .none, true⟩]⟩
  | .GLB_FUSE_STATUS => ⟨.glb, 0x3000, 0x4, 1,
      [⟨0, 1, .ro, 0x0, .none, true⟩, ⟨1, 1, .ro, 0x0, .none, true⟩]⟩
  | .GLB_FUSE_DEV => ⟨.glb, 0x3004, 0x4, 1,
      [⟨0, 3, .ro, 0x0, .none, true⟩]⟩
  | .GLB_FUSE_SERIAL_LO => ⟨.glb, 0x3008, 0x4, 1,
      [⟨0, 32, .ro, 0x0, .none, true⟩]⟩
  | .GLB_FUSE_SERIAL_HI => ⟨.glb, 0x300C, 0x4, 1,
      [⟨0, 32, .ro, 0x0, .none, true⟩]⟩
  | .GLB_FUSE_RULEw => ⟨.glb, 0x3100, 0x4, 70,
      [⟨0, 32, .ro, 0x0, .none, true⟩]⟩
  | .GLB_MODE => ⟨.glb, 0x20, 0x4, 1,
      [⟨0, 4, .ro, 0x0, .none, false⟩, ⟨8, 1, .ro, 0x0, .none, false⟩, ⟨9, 1, .ro, 0x0, .none, false⟩, ⟨10, 1, .ro, 0x0, .none, false⟩, ⟨11, 1, .ro, 0x0, .none, false⟩]⟩
  | .GLB_CSAn_LO => ⟨.glb, 0x140, 0x8, 32,
      [⟨0, 14, .rwl, 0x0, .live, true⟩, ⟨14, 5, .rwl, 0x0, .live, true⟩, ⟨19, 1, .rwl, 0x0, .live, true⟩]⟩
  | .GLB_CSAn_HI => ⟨.glb, 0x144, 0x8, 32,
      [⟨0, 16, .rwl, 0x0, .live, true⟩, ⟨16, 16, .rwl, 0x0, .live, true⟩]⟩

/-- The registers of one block, in the table's order. -/
def Reg.ofGlb : List Reg :=
  [.PRG_CTRL, .PRG_STATUS, .PRG_WPTR, .PRG_WAITS_LIMIT, .PRG_ACTIVE_ID_LO, .PRG_ACTIVE_ID_HI, .PRG_SEQ_PC,
   .PRG_CLOVE0_LO, .PRG_CLOVE0_HI, .PRG_CLOVE1_LO, .PRG_CLOVE1_HI, .PRG_DATA, .EPO_STATUS, .EPO_TIME_S,
   .EPO_TIME_NS, .EPO_DRAIN, .EPO_COUNT, .SAF_STATUS, .SAF_POOLDEF, .SAF_WAIT, .SAF_WAITCNT, .SAF_SEQ_LO,
   .SAF_SEQ_HI, .SAF_ENTn, .TIM_STATUS, .TIM_CTRL, .TIM_NOW_NS, .TIM_NOW_S_LO, .TIM_NOW_S_HI, .TIM_SET_NS,
   .TIM_SET_S_LO, .TIM_SET_S_HI, .TIM_STEP, .TIM_CMD, .TIM_STEP_TOTAL, .TIM_PPS_S, .TIM_PPS_NS, .TIM_PPS_ERR,
   .TIM_PPS_REJ, .TIM_PPSOUT_W, .TIM_ALIGN_CNT, .TIM_ALIGN_CAP, .TIM_SLOFFn, .FC_STATUS, .FC_CTRL, .FC_PIN,
   .FC_IRQ, .FC_FIRST, .FC_FIRST_DET, .FC_FIRST_NS, .FC_FIRST_S_LO, .FC_FIRST_S_HI, .FC_OVF, .FC_COUNT,
   .FC_MERGED, .FC_PENDn, .FC_ACK, .FC_INJ_CTRL, .FC_INJ_LEFT, .FC_VOTE, .FC_SWRAISE, .FC_CLASS_CFGc,
   .FC_CCNTc, .FC_FENCED_RTRn, .FC_FENCED_NIn, .FC_FENCED_HSn, .FC_FENCED_ECn, .FC_FENCED_Q, .PWR_STATUS,
   .PWR_CTRL, .PWR_DEFER, .PWR_HOLD, .PWR_WAKE_CFG, .PWR_IRQ, .PWR_RETN_LOST_LO, .PWR_RETN_LOST_HI, .PWR_RETN_MASK_LO,
   .PWR_RETN_MASK_HI, .PWR_OFFSAVE_LO, .PWR_OFFSAVE_HI, .PWR_ANISE, .PWR_AVS, .PWR_AVS_CAP, .PWR_HOLD_OVF,
   .PWR_QREQn, .PWR_FABREQ, .GLB_RESET, .GLB_CTRL, .GLB_STATUS, .GLB_DRAIN_TMO, .GLB_CSA_CTRL, .GLB_CSA_DENY_CNT,
   .GLB_CSA_CAP, .GLB_CSA_CAP_OFF, .GLB_CSA_ABSENT_CNT, .GLB_VENDOR, .GLB_PRODUCT, .GLB_IPVER, .GLB_CAPS,
   .GLB_FUSE_STATUS, .GLB_FUSE_DEV, .GLB_FUSE_SERIAL_LO, .GLB_FUSE_SERIAL_HI, .GLB_FUSE_RULEw, .GLB_MODE,
   .GLB_CSAn_LO, .GLB_CSAn_HI]

/-- The registers of one block, in the table's order. -/
def Reg.ofPdom : List Reg :=
  [.PWR_DOMd_STATUS, .PWR_DOMd_REQ, .PWR_DOMd_CFG, .PWR_DOMd_VOLT, .PWR_DOMd_CTRL, .PWR_DOMd_REFUSE_CNT,
   .PWR_DOMd_ABORT_CNT, .PWR_DOMd_LASTREF]

/-- The registers of one block, in the table's order. -/
def Reg.ofRk : List Reg :=
  [.RK_STATUS, .RK_CTRL, .RK_WRITER, .RK_LOCKED, .RK_CRC_ACT, .RK_CRC_SHD, .RK_REPn_CRC, .RK_DENY_CNT,
   .RK_DBG_DENY_CNT, .RK_OVR_CNT, .RK_REPAIR_CNT, .RK_CORR_CNT, .RK_DENY_CAP, .RK_DENY_ADDR_LO, .RK_DENY_ADDR_HI,
   .RK_DENY_ENTRY, .RK_CENTRAL_ERR]

/-- The registers of one block, in the table's order. -/
def Reg.ofRtr : List Reg :=
  [.RTR_ID, .RTR_STATUS, .RTR_WDOG, .RTR_ESC, .RTR_ERR_CAP, .RTR_ERR_HDR_LO, .RTR_ERR_HDR_HI, .RTR_CORR,
   .RTR_SLOT_MISS, .RTR_SLOT_RES]

/-- The registers of one block, in the table's order. -/
def Reg.ofNi : List Reg :=
  [.NI_ID, .NI_STATUS, .NI_ERR_CAP, .NI_ERR_HDR_LO, .NI_ERR_HDR_HI, .NI_STALE_CNT, .NI_POISON_CNT, .NI_LINK,
   .NI_TRK, .NI_TMO, .NI_TMO_CNT, .NI_LATE_CNT, .NI_ROB, .NI_ROB_STALL, .NI_SAFCRD, .NI_SLCAP_OWN, .NI_SLCAP_FAR,
   .NI_SLCAP_COMMON, .NI_UNSUP_CNT, .NI_TS_CTRL, .NI_TS_CAP, .NI_TS_NS, .NI_TS_S, .NI_TS_FRAC, .NI_TS_MISS,
   .NI_SLC_DEF, .NI_SLC_UNMAP, .NI_SLC_HOLD, .NI_BW_CFG, .NI_BWk_IN_LO, .NI_BWk_OUT_LO, .NI_BWk_HI, .NI_BWk_LEN,
   .NI_BWk_META, .NI_MONm_MAX, .NI_MONm_BREACH, .NI_MON_CAP, .NI_MON_AGE]

/-- The registers of one block, in the table's order. -/
def Reg.ofHs : List Reg :=
  [.HS_ID, .HS_STATUS, .HS_TRK, .HS_DIR_USE, .HS_DIR_CORR, .HS_DIR_ERR, .HS_RECALL_CNT, .HS_COARSE_CNT,
   .HS_NACK_CNT, .HS_STALE_CNT, .HS_WAITFULL, .HS_TMO, .HS_SCRUB, .HS_RECON, .HS_RECON_CNT, .HS_CACHEPORTS,
   .HS_ATOM_CTRL, .HS_PRED_CFG, .HS_ATOM_NEAR, .HS_ATOM_FAR, .HS_PRED_HOT, .HS_PRED_DROP, .HS_PROTO_CAP,
   .HS_STRAY_CNT]

/-- The registers of one block, in the table's order. -/
def Reg.ofArb : List Reg :=
  [.ARB_CFG0, .ARB_CFG1, .ARB_CFG2, .ARB_CFG3, .ARB_FORCED, .ARB_MASKWIN, .ARB_STATUS]

/-- The registers of one block, in the table's order. -/
def Reg.ofSsb : List Reg :=
  [.SSB_ID, .SSB_STATUS, .SSB_CORR, .SSB_UNCORR, .SSB_ERR_CAP, .SSB_SCRUB, .SSB_DENY_CNT, .SSB_DENY_CAP,
   .SSB_CONF_OTHER, .SSB_RGNn_LO, .SSB_RGNn_HI, .SSB_CONFn_SEL, .SSB_CONFn_CNT]

/-- The registers of one block, in the table's order. -/
def Reg.ofQm : List Reg :=
  [.QM_ID, .QM_STATUS, .QM_HOSTWIN, .QM_RETRY, .QM_QSEL, .QM_Q_STATE, .QM_Q_DEPTH, .QM_Q_BYTES, .QM_Q_RATE,
   .QM_Q_BURST, .QM_Q_TOKENS, .QM_Q_CTRL, .QM_Q_HEAD, .QM_Q_TAIL, .QM_FULL_CNT, .QM_DENY_CNT, .QM_BADLEN_CNT,
   .QM_RETRY_CNT, .QM_DISCARD_CNT, .QM_EVLOST_CNT, .QM_SAMPLE_CFG, .QM_SAMPLE_BASE, .QM_SAMPLE_SIZE,
   .QM_SAMPLE_WPTR, .QM_SAMPLE_SKIP, .QM_P_RATE, .QM_P_BURST, .QM_P_TOKENS, .QM_P_GATE, .QM_P_GATE_S,
   .QM_P_GATE_NS, .QM_P_TX_CNT]

/-- The registers of one block, in the table's order. -/
def Reg.ofEng : List Reg :=
  [.ENG_ID, .ENG_STATUS, .ENG_ISSUE, .ENG_IDLE, .ENG_T_STATE, .ENG_T_CAUSE, .ENG_T_TADDR_LO, .ENG_T_TADDR_HI,
   .ENG_T_CTRL, .ENG_T_TRAPS]

/-- The registers of one block, in the table's order. -/
def Reg.ofEcl : List Reg :=
  [.ENG_CL_ID, .ENG_CL_STATUS, .ENG_CL_SRAMPA, .ENG_CL_CORR, .ENG_CL_UNCORR, .ENG_CL_ERR_CAP, .ENG_CL_SCRUB,
   .ENG_CL_RXFULL, .ENG_CL_NOBIND, .ENG_CL_RXLOST, .ENG_SAMP_CFG, .ENG_SAMP_BASE, .ENG_SAMP_WPTR, .ENG_SAMP_SKIP]

/-- The registers of one block, in the table's order. -/
def Reg.ofCtr : List Reg :=
  [.CTR_LO, .CTR_STAT, .CTR_LAT_HI, .CTR_LAT_PAIR_LO, .CTR_LAT_PAIR_HI, .CTR_LAT_NS, .CTR_LAT_S_LO, .CTR_LAT_S_HI,
   .CTR_BANK_CTRL, .CTR_BANK_ID]

/-- The registers of one block, in the table's order. -/
def Reg.ofPrb : List Reg :=
  [.PRB_CTRL, .PRB_SRC, .PRB_DST, .PRB_OPC, .PRB_BASE_LO, .PRB_BASE_HI, .PRB_LIMIT_LO, .PRB_LIMIT_HI,
   .PRB_RING_BASE, .PRB_RING_SIZE, .PRB_WPTR, .PRB_RDPTR, .PRB_MATCH, .PRB_DROP, .PRB_STATUS]

/-- The registers of one block, in the table's order. -/
def Reg.ofSlc : List Reg :=
  [.SLC_STATUS, .SLC_CTRL, .SLC_QLIVE, .SLC_TRK, .SLC_TMO, .SLC_SAVE_LO, .SLC_SAVE_HI, .SLC_SQUASH, .SLC_DEFn,
   .SLC_PIDS, .SLC_SAFUSE]

/-- The registers of one block, in the table's order. -/
def Reg.ofSlcg : List Reg :=
  [.SLC_GSTATUS]

/-- The registers of a block. -/
def RegBlock.regs : RegBlock → List Reg
  | .glb => Reg.ofGlb
  | .pdom => Reg.ofPdom
  | .rk => Reg.ofRk
  | .rtr => Reg.ofRtr
  | .ni => Reg.ofNi
  | .hs => Reg.ofHs
  | .arb => Reg.ofArb
  | .ssb => Reg.ofSsb
  | .qm => Reg.ofQm
  | .eng => Reg.ofEng
  | .ecl => Reg.ofEcl
  | .ctr => Reg.ofCtr
  | .prb => Reg.ofPrb
  | .slc => Reg.ofSlc
  | .slcg => Reg.ofSlcg

end Sys2Proof.Machine
end

