-- ==== Sys2Proof/Machine/StateHome.lean ====
section
/-! DEFINITION. The state of the home slices and of the caching partners' lines (spec/06, 07). -/

namespace Sys2Proof.Machine

/-- A valid directory way (R136, R147, R148). -/
structure DirEnt where
  tag   : Nat
  /-- 1 S, 2 EM, 3 OS; a free way has no entry. -/
  st    : Nat
  owner : Nat := 0
  /-- Pointer mode: PTR0 onward, at most four. -/
  ptrs  : List Nat := []
  /-- Coarse mode. -/
  cv    : Bool := false
  ccv   : Nat := 0
  lcv   : Nat := 0
  slv   : Nat := 0
  deriving DecidableEq, Repr

/-- Home transient states (R176). -/
inductive HSt where
  | bkt | way | mem | col | ack | wru
  deriving DecidableEq, Repr

/-- HS_PROTO_CAP code of a transient state (R176). -/
def HSt.code : HSt → Nat
  | .bkt => 4 | .way => 5 | .mem => 6 | .col => 7 | .ack => 8 | .wru => 9

/-- What an H_COL entry collects for (R176). -/
inductive ColFor where
  | request | victim | recon
  deriving DecidableEq, Repr

/-- A snoop that a flow has outstanding: the port, its opcode and its RQFID. -/
structure SnpOut where
  port : Nat
  opc  : Nat
  rq   : Nat
  /-- The port was the recorded OWNER. -/
  own  : Bool := false
  deriving DecidableEq, Repr

/-- One tracker entry; its index is the HTID (R143, R176). -/
structure TrkEnt where
  line    : Nat
  st      : HSt
  /-- The request served; a victim's entry has that of the entry it makes room for. -/
  req     : Pkt
  /-- The data of a `WritePass`. -/
  wdata   : List Byte := []
  wpoison : Bool := false
  col     : ColFor := .request
  /-- Directory state before the request. -/
  prior   : Option DirEnt := none
  /-- Snoops whose answers come to the home. -/
  owed    : List SnpOut := []
  /-- Snoops whose answers go to the requester, for R173. -/
  sent    : List SnpOut := []
  memRd   : Bool := false
  /-- The line is to be read, and waits for a line buffer (R144). -/
  wantRd  : Bool := false
  /-- Line data gathered, and whether it is poisoned. -/
  buf     : Option (List Byte × Bool) := none
  granted : Bool := false
  /-- The way handed to this request by an eviction; none in H_WAY while no entry for the victim is free (R154). -/
  way     : Option Nat := none
  /-- Victim entry: the HTID of the request that waits for the way. -/
  forH    : Nat := 0
  start   : Nat := 0
  waiters : List (Pkt × List Byte × Bool) := []
  /-- Held writebacks with their data (R178). -/
  held    : List (Pkt × List Byte × Bool) := []
  deriving DecidableEq, Repr

/-- One writeback buffer (R145, R177). -/
structure Wbuf where
  line   : Nat
  data   : List Byte
  poison : Bool := false
  ep     : Bool := false
  slice  : BitVec 6 := 0
  /-- MemWr is outstanding. -/
  sent   : Bool := false
  /-- The evictor's packet, to be answered with `PutAck`. -/
  put    : Option Pkt := none
  /-- The `WritePass` flow that ends with this MemWr. -/
  flow   : Option Nat := none
  /-- Order of entry. -/
  age    : Nat := 0
  deriving DecidableEq, Repr

/-- One bucket sweep (R164, R165). -/
structure Sweep where
  bucket : Nat
  /-- Ports that have not answered. -/
  owed   : List Nat
  start  : Nat
  /-- TIMEOUT has been raised for it (R165). -/
  late   : Bool := false
  /-- The bucket has left the home: the sweep keeps its slot until it has been answered (R164, R166). -/
  gone   : Bool := false
  deriving DecidableEq, Repr

/-- One predictor entry (R192). -/
structure PredEnt where
  tag   : Nat
  count : Nat := 0
  hot   : Bool := false
  /-- HOT before the last window's end. -/
  was   : Bool := false
  /-- Transfers recorded in one FCLK, and that FCLK + 1: a window that ends in it does not have them (R193). -/
  recent : Nat := 0
  recAt  : Nat := 0
  deriving DecidableEq, Repr

/-- The held writebacks of an ended flow, which are still to be judged (R178). -/
structure Judge where
  line : Nat
  /-- Their entry was in H_BKT: at a line that is unknown in reconstruct mode they are accepted (R163, R179). -/
  bkt  : Bool
  puts : List (Pkt × List Byte × Bool)
  deriving DecidableEq, Repr

/-- One home slice (spec/06, 07); directory, pseudo-LRU bits and predictor lie beside it. -/
structure Home where
  trk    : SMap (Option TrkEnt) := []
  wbufs  : SMap (Option Wbuf) := []
  /-- Lines that wait for a free writeback buffer, oldest first (R145). -/
  wbWait : List Wbuf := []
  /-- Waiters of ended flows, by line, each list in arrival order (R143). -/
  ready  : List (Nat × List (Pkt × List Byte × Bool)) := []
  /-- Held writebacks of ended flows, still to be judged (R178). -/
  judge  : List Judge := []
  age    : Nat := 0
  /-- Buckets of the new bank whose release has not come yet (R42). -/
  await  : List Nat := []
  /-- Requests that were here before their bucket was awaited, by SRC and TXID: they do not wait for its release (R42). -/
  before : List (Fid × BitVec 12) := []
  /-- Buckets in reconstruct mode (R161). -/
  recon  : List Nat := []
  /-- Buckets whose sweep has not been sent yet. -/
  toSweep : List Nat := []
  sweeps : SMap (Option Sweep) := []
  /-- HTIDs of expired entries whose memory data may still come (R183). -/
  lateMem : List Nat := []
  /-- Next set of the scrubber and FCLK of the last scrub (R149). -/
  scrub  : Nat := 0
  scrubAt : Nat := 0
  /-- Predictor window length in effect, in µs (R194), and total ns of the last window end. -/
  predWin : Nat := 2
  predAt : Int := 0
  /-- FCLK + 1 of the last window end. -/
  winAt  : Nat := 0
  /-- FCLK in which CLEAR invalidates the predictor (R194). -/
  predClearAt : Option Nat := none
  /-- Fenced with NO_IMAGE reported (R167). -/
  noImage : Bool := false
  deriving DecidableEq, Repr

/-- States of a line at a caching partner (R135, R170). -/
inductive CSt where
  | i | s | e | o | m | isD | imAd | smA | omA | ia | miA | oiA | eiA
  /-- I, with a `ReadPass` or `WritePass` outstanding (R169). -/
  | pass
  deriving DecidableEq, Repr

/-- A line at a caching partner (R135, R170, R172). -/
structure CLine where
  st   : CSt := .i
  data : List Byte := []
  poison : Bool := false
  /-- The eviction buffer's bytes stand: the `DataWb` still to be sent carries them (R170). -/
  fixed : Bool := false
  /-- TAG of the transaction outstanding for the line. -/
  tag  : BitVec 12 := 0
  /-- CNT and DF of the `GrantM`. -/
  cnt  : Option Nat := none
  df   : Bool := false
  acks : Nat := 0
  /-- The data has arrived. -/
  got  : Bool := false
  /-- The flow came from an `AtomAuto`: its operation and operands (R169, R172). -/
  atom : Option (Nat × Nat × Nat × Nat × Nat) := none
  deriving DecidableEq, Repr

/-- A bucket `Recall` that a caching partner has not answered yet (R164, R174). -/
structure PortRecall where
  src   : Fid
  txid  : BitVec 12
  htid  : BitVec 8
  bucket : Nat
  /-- Lines of the bucket whose eviction is still to be answered. -/
  lines : List Nat
  deriving DecidableEq, Repr

end Sys2Proof.Machine
end

