-- ==== Sys2Proof/Machine/StateMem.lean ====
section
/-! DEFINITION. The state of the shared SRAM, the queue managers and the engine clusters (spec/09, 10, 11). -/

namespace Sys2Proof.Machine

/-! ### Shared SRAM -/

/-- What a local-side access belongs to. -/
inductive LocFor where
  /-- A part of an engine request, by its number. -/
  | part (req : Nat)
  /-- A store-buffer entry, by its number. -/
  | store (ent : Nat)
  | sample
  deriving DecidableEq, Repr

/-- One access of an engine cluster on the local side of its bank node (R221, R223). -/
structure LocAcc where
  cluster : Nat
  thr     : Nat
  why     : LocFor
  /-- Shared SRAM offset of the first byte, and the bytes read; a write has `data`. -/
  o       : Nat
  n       : Nat
  wr      : Bool := false
  data    : List Byte := []
  /-- Offset of the access in its request. -/
  off     : Nat := 0
  /-- Slice of the issuing thread (R228). -/
  slice   : Nat := 0
  /-- The data stored was read as uncorrectable. -/
  psn     : Bool := false
  deriving DecidableEq, Repr

/-- One bank (R223 to R233). -/
structure Bank where
  /-- The port that lost the previous equal-level conflict: true is the local one (R224). -/
  lost    : Bool := false
  /-- Grant of the local port; the fabric port's is the arbiter instance's own. -/
  lholder : Option Nat := none
  lused   : Nat := 0
  /-- An atomic between its two cycles: the request, the old value, and whether the word was uncorrectable (R227). -/
  atom    : Option (Pkt × Nat) := none
  /-- Next row of the scrubber and FCLK of the last scrub (R233). -/
  scrub   : Nat := 0
  scrubAt : Nat := 0
  /-- The sub-arrays that the accesses of the cycle in `Arb.at_` used (R220, R233). -/
  subs    : List Nat := []
  deriving DecidableEq, Repr

/-! ### Queue managers -/

/-- One message in a ring (R240). -/
structure QMsg where
  len   : Nat
  src   : Fid
  slice : BitVec 6
  /-- Total nanoseconds of the enqueue. -/
  ns    : Int
  done  : Bool := false
  /-- Selected, and neither done nor to be delivered again. -/
  out   : Bool := false
  /-- FCLK from which a refused delivery may be repeated (R247). -/
  retry : Option Nat := none
  deriving DecidableEq, Repr

/-- A token bucket, with what this FCLK has done to it: its charges, its refill and its writes take effect in that order,
whichever comes first (R253). -/
structure Bucket where
  /-- Signed bytes with 8 fractional bits. -/
  tokens : Int := 0
  rate   : Nat := 0
  burst  : Nat := 0
  /-- FCLK + 1 to which the fields below belong. -/
  at_    : Nat := 0
  /-- Tokens, rate and burst at the start of that FCLK, the charges of the FCLK taken from the tokens. -/
  base   : Int := 0
  rate0  : Nat := 0
  burst0 : Nat := 0
  refilled : Bool := false
  /-- The least burst written in the FCLK. -/
  low    : Option Nat := none
  deriving DecidableEq, Repr

/-- Dynamic state of one queue (R237). -/
structure QDyn where
  head   : Nat := 0
  tail   : Nat := 0
  /-- The messages from HEAD to TAIL. -/
  msgs   : List QMsg := []
  bkt    : Bucket := {}
  deficit : Nat := 0
  paused : Bool := false
  cause  : Nat := 0
  /-- The notification of a pull queue is armed (R245). -/
  armed  : Bool := true
  /-- QFULL has been posted since the queue was last not full (R248). -/
  fullSaid : Bool := false
  /-- HEAD and TAIL were restored: the meta ring is read again at the thaw (R325). -/
  reload : Bool := false
  deriving DecidableEq, Repr

/-- One delivery that awaits its Comp: queue, slot index of its message, TXID. -/
structure Dlv where
  queue : Nat
  slot  : Nat
  txid  : BitVec 12
  /-- The queue went OFF or was reset: the answer is discarded (R248). -/
  stale : Bool := false
  slice : BitVec 6 := 0
  cons  : Fid := 0
  start : Nat := 0
  /-- The entry has expired and is held out of use since this FCLK (R118). -/
  dead  : Option Nat := none
  deriving DecidableEq, Repr

/-- A message in a staging place of a port (R250, R256). -/
structure Staged where
  queue : Nat
  slot  : Nat
  input : Nat
  slice : BitVec 6
  cons  : Fid
  /-- Bytes of the message, the ring access that reads it, and whether it has been read. -/
  len   : Nat
  job   : Nat
  ready : Bool := false
  data  : List Byte := []
  /-- A word of the payload was uncorrectable. -/
  bad   : Bool := false
  deriving DecidableEq, Repr

/-- What a ring access of a queue manager is for (R239 to R248, R259, R325, R398). -/
inductive RingFor where
  /-- The message of an Enq, to be answered. -/
  | put (req : Pkt) (m : QMsg)
  /-- An event; a lost one is counted at manager `cnt`. -/
  | event (cnt : Nat) (m : QMsg)
  /-- A Doorbell: its meta entry is read, then the time written into it. -/
  | bell (req : Pkt)
  /-- A Deq, to be answered with the message. -/
  | deq (req : Pkt) (m : QMsg)
  /-- The message staged at a port. -/
  | stage (port : Nat)
  /-- DONE is set in a meta entry. -/
  | mark
  /-- A line of sample or trace records. -/
  | line
  /-- The meta entries from HEAD to TAIL are read again after a restore. -/
  | reload
  deriving DecidableEq, Repr

/-- One ring access of a queue manager, in one or two steps of several pieces each. -/
structure RingJob where
  id     : Nat := 0
  why    : RingFor
  queue  : Nat := 0
  /-- The ring lies in the host window; slice of the accesses (R239). -/
  mem    : Bool := false
  slice  : BitVec 6 := 0
  /-- The running step (0: not begun): its direction, offset, and the bytes written or read so far. -/
  step   : Nat := 0
  wr     : Bool := false
  off    : Nat := 0
  data   : List Byte := []
  /-- Pieces of the step that have no answer, the first non-zero STATUS, and poison. -/
  left   : Nat := 0
  status : Nat := 0
  bad    : Bool := false
  /-- The queue was emptied meanwhile: the message does not enter it (R248, R327). -/
  void   : Bool := false
  deriving DecidableEq, Repr

/-- What a queue manager has still to inject, in order: a piece of a ring access, or a Deq's message with its Comp (R251). -/
inductive QOut where
  | piece (job rel size : Nat)
  | answer (job : Nat)
  deriving DecidableEq, Repr

/-- One piece of a ring access that awaits its answer: the access, its bytes within it, and their place in the line. -/
structure RingEnt where
  job   : Nat
  rel   : Nat
  n     : Nat
  low   : Nat
  txid  : BitVec 12
  slice : BitVec 6 := 0
  start : Nat := 0
  /-- Squashed by a slice reset: the answer is discarded (R326). -/
  stale : Bool := false
  dead  : Option Nat := none
  deriving DecidableEq, Repr

/-- A gate list as a port runs it (R255): OPEN and INTERVAL of each entry, CYCLE and GEN. -/
structure GateList where
  gen    : Nat := 0
  cycle  : Nat := 0
  ents   : List (Nat × Nat) := []
  deriving DecidableEq, Repr

/-- One egress port (R249 to R257). -/
structure QPort where
  bkt    : Bucket := {}
  staged : List Staged := []
  /-- FCLK + 1 of the last selection (R251). -/
  selAt  : Nat := 0
  /-- Round-robin pointer, deficits and freshness over groups (R251). -/
  gcur   : Nat := 0
  gdef   : SMap Nat := []
  gfresh : Bool := true
  /-- Current member, and freshness, of each group. -/
  cur    : SMap Nat := []
  stuck  : SMap Bool := []
  op     : GateList := {}
  /-- Start time of the operational list, current entry, and the time at which that entry ends. -/
  opS    : Int := 0
  entry  : Nat := 0
  ends   : Int := 0
  pend   : Option (GateList × Int) := none
  deriving DecidableEq, Repr

/-- One queue manager; its queues lie beside it. -/
structure Qm where
  port   : SMap QPort := []
  /-- Port that was served last, and FCLK until which its flits leave (R251). -/
  turn   : Nat := 7
  busy   : Nat := 0
  dlv    : SMap (Option Dlv) := []
  /-- Ring accesses in order of their beginning, the number of the next one, what waits for its flits, and the pieces that await
  answers (R239, R251). -/
  jobs   : List RingJob := []
  serial : Nat := 1
  out    : List QOut := []
  ring   : SMap (Option RingEnt) := []
  /-- Total nanoseconds of the running sample period, the queues still to be visited, and the staged records. -/
  opened : Option Int := none
  visit  : List Nat := []
  lines  : List Nat := []
  wrote  : Nat := 0
  /-- The router that the trace line served last, within the quadrant (R398). -/
  traced : Nat := 35
  deriving DecidableEq, Repr

/-! ### Engine clusters -/

/-- Thread states (R262). -/
inductive ThrState where
  | off | ready | wait | park | halt
  deriving DecidableEq, Repr

/-- R262 code. -/
def ThrState.code : ThrState → Nat
  | .off => 0 | .ready => 1 | .wait => 2 | .park => 3 | .halt => 4

/-- One store-buffer entry: half of a store, or a whole one (R272, R276). -/
structure SbEnt where
  /-- Number of the entry; halves of one store have the same `pair`. -/
  id   : Nat
  pair : Nat
  win  : Nat
  ea   : Nat
  data : List Byte
  /-- Passed to the bank, which has not performed it yet. -/
  sent : Bool := false
  deriving DecidableEq, Repr

/-- A deferred trap that is due: CAUSE, STATUS, TADDR (R282). -/
structure DueTrap where
  cause  : Nat
  status : Nat
  taddr  : Word64
  deriving DecidableEq, Repr

/-- One thread (R262, R265). -/
structure Thr where
  st      : ThrState := .off
  regs    : SMap Word64 := []
  pc      : Nat := 0
  /-- STATUS: IE, PIE, INTRAP, TEP, DOVF, DZ. -/
  ie      : Bool := false
  pie     : Bool := false
  intrap  : Bool := false
  tep     : Bool := false
  dovf    : Bool := false
  dz      : Bool := false
  ien     : Nat := 0
  ipend   : Nat := 0
  epc     : Nat := 0
  cause   : Nat := 0
  taddr   : Word64 := 0
  tvec    : Nat := 0
  tvld    : Bool := false
  scratch : Word64 := 0
  slice   : BitVec 6 := 0
  sb      : List SbEnt := []
  /-- ECLK from which a result may be used, by register, and from which the next instruction may issue (R264). -/
  ready   : SMap Nat := []
  from_   : Nat := 0
  /-- Target of a WAITT; a thread in WAIT without one is in RECV. -/
  until_  : Option Word64 := none
  timer   : Option Word64 := none
  due     : Option DueTrap := none
  /-- Store-buffer entries that a parked load waits for. -/
  parkOn  : List Nat := []
  parked  : Bool := false
  /-- ECLK in which the thread was skipped since it issued last (R263, R290). -/
  skips   : Nat := 0
  /-- Binding that RECV served last (R279). -/
  served  : Nat := 63
  /-- The state that a freeze or a drain of the fabric halted the thread in (R320, R412). -/
  held    : Option ThrState := none
  deriving DecidableEq, Repr

/-- What an outstanding engine request is for (R280). -/
inductive ReqKind where
  | load (size : Nat) (signed : Bool)
  | lineLoad (buf : Nat)
  | lineStore
  | atom (size : Nat)
  | msg
  | deq (buf : Nat)
  | store
  deriving DecidableEq, Repr

/-- One outstanding request of a thread: it is complete when every part has answered. -/
structure EReq where
  id     : Nat
  thr    : Nat
  kind   : ReqKind
  d      : Nat := 0
  ea     : Word64 := 0
  /-- Parts that have not answered. -/
  left   : Nat := 1
  bytes  : List Byte := []
  /-- Offset and status of the lowest-addressed failed part. -/
  bad    : Option (Nat × Nat) := none
  poison : Bool := false
  /-- A Deq's Comp: its CNT. -/
  cnt    : Option Nat := none
  got    : Bool := false
  /-- ECLK of issue, plus the latency of its place (R264). -/
  soonest : Nat := 0
  deriving DecidableEq, Repr

/-- One receive ring (R278, R279): slot numbers with message length, oldest first, how many of them are handed out, and
the next slot. -/
structure RxRing where
  msgs   : List (Nat × Nat) := []
  handed : Nat := 0
  tail   : Nat := 0
  bell   : Bool := false
  deriving DecidableEq, Repr

/-- The outstanding sample of a cluster (R290): the record's fields, and what it waits for. -/
structure Samp where
  pc     : Nat
  eng    : Nat
  thr    : Nat
  maj    : Nat
  ea     : Word64
  at_    : Nat
  fwd    : Bool := false
  parked : Bool := false
  split  : Bool := false
  trap   : Bool := false
  skips  : Nat := 0
  ns     : Int := 0
  /-- Requests and store pairs that it waits for; none: complete. -/
  req    : Option Nat := none
  pair   : Option Nat := none
  /-- ECLK at which it completed. -/
  doneAt : Option Nat := none
  deriving DecidableEq, Repr

/-- One engine cluster. -/
structure Ecl where
  thr    : SMap Thr := []
  /-- Thread that issued last, and ECLK + 1 of that issue, by engine (R263). -/
  last   : SMap Nat := []
  at_    : SMap Nat := []
  /-- Thread whose store drained last, and ECLK + 1 of it, by engine (R272). -/
  turn   : SMap Nat := []
  drained : SMap Nat := []
  reqs   : List EReq := []
  serial : Nat := 1
  ring   : SMap RxRing := []
  /-- Instructions since the last sample, and the outstanding sample (R290). -/
  issued : Nat := 0
  sample : Option Samp := none
  /-- Next row of the scrubber and ECLK of the last scrub (R268). -/
  scrub  : Nat := 0
  scrubAt : Nat := 0
  deriving DecidableEq, Repr

end Sys2Proof.Machine
end

