-- ==== Sys2Proof/Machine/StatePower.lean ====
section
/-! DEFINITION. The state of the power controller (spec/15): one record per power domain. -/

namespace Sys2Proof.Machine

/-- One power domain (R359 to R383). -/
structure Dom where
  /-- State code of R360: 0 Run, 1 Idle, 2 Sleep, 3 Deep sleep, 4 Off. -/
  st      : Nat := 0
  /-- PHASE code of R365 and R376; 0 steady. -/
  phase   : Nat := 0
  /-- Target of the running entry. -/
  target  : Nat := 0
  /-- The single pending slot (R363). -/
  pend    : Option Nat := none
  clamped : Bool := false
  /-- Marked ASLEEP in the current bank (R370). -/
  asleep  : Bool := false
  /-- Domains of the quadrant mask that this entry or wake runs with (bit 0 NET to bit 3 SSB). -/
  group   : Nat := 0
  /-- Units that have not answered ACCEPT, by unit key. -/
  asking  : List Nat := []
  /-- Units that answered DEFER, with the FCLK of that answer and how often in a row. -/
  defers  : SMap (Nat × Nat) := []
  /-- FCLK at which the running ASK, hold or voltage wait began. -/
  at_     : Nat := 0
  /-- The power image of the entry has reached its T. -/
  imaged  : Bool := false
  /-- A level wake is held. -/
  wake    : Bool := false
  /-- FCLK of the commit point (R369). -/
  commit  : Option Nat := none
  /-- Failed tries of the voltage write (R383), and whether Status reads have begun. -/
  tries   : Nat := 0
  polling : Bool := false
  /-- UNCLAMP has been written (R376). -/
  unclamp : Bool := false
  /-- The domain is in fabric sleep (R364). -/
  fabric  : Bool := false
  /-- RETN as sampled at the start of step 5 (R377). -/
  retn    : Nat := 0
  /-- FCLK since which none of its units has had work (R361). -/
  idleAt  : Nat := 0
  /-- FCLK of the last Status poll (R383). -/
  pollAt  : Nat := 0
  /-- Deepest state that the domain has been in since it left Run: what its wake restores. -/
  low     : Nat := 0
  /-- FCLK of an edge wake that has not been accepted (R369). -/
  edge    : Option Nat := none
  /-- A wake has been accepted: the entry is abandoned at the end of its step (R368). -/
  abandon : Bool := false
  deriving DecidableEq, Repr

end Sys2Proof.Machine
end

