-- ==== Sys2Proof/Machine/StateSlice.lean ====
section
/-! DEFINITION. The state of slice control (spec/13): one record per fabric slice. -/

namespace Sys2Proof.Machine

/-- State of an existing slice (R320 to R327); a slice whose definition has VLD = 0 is OFF. -/
inductive SlcMode where
  | active | freezing | frozen | resetting
  deriving DecidableEq, Repr

/-- One slice. -/
structure Slc where
  mode   : SlcMode := .active
  /-- FCLK of the FREEZE or RESET write. -/
  at_    : Nat := 0
  stuck  : Bool := false
  saved  : Bool := false
  /-- ERR of the last save or restore. -/
  err    : Nat := 0
  /-- Freeze markers on their way through Saffron (R320). -/
  marker : Nat := 0
  /-- A save is writing, with the length of its area (R324). -/
  saving : Option Nat := none
  restoring : Bool := false
  /-- The save area as the save writes it (R324). -/
  area   : List Byte := []
  /-- The drain timeout has squashed the slice's entries (R326). -/
  squashed : Bool := false
  deriving DecidableEq, Repr

end Sys2Proof.Machine
end

