-- ==== Sys2Proof/Machine/StateSpine.lean ====
section
/-! DEFINITION. The state of the spine: fabric time, the fault collector, the program controller, the epoch switch and
the control hub (spec/02, 12, 14, 17, 18). -/

namespace Sys2Proof.Machine

/-- What the running FCLK cycle has done to one register, for the ties of R9 and R14. -/
structure CycReg where
  /-- W1C bits that the hardware has set. -/
  set    : Nat := 0
  /-- An RC register before the cycle's first update, and what its updates make of a cleared field. -/
  before : Option Nat := none
  upd    : Nat := 0
  /-- The word before a write of RWL or Quiesce fields. -/
  undo   : Option Nat := none
  /-- A capture register that is VALID: the words of the cycle's first event, and the counts that it went into. -/
  late   : List (Reg × Nat) := []
  miss   : List Reg := []
  /-- The word before the cycle's first write, for what a write changes from the next FCLK on (R387, R397). -/
  was    : Option Nat := none
  deriving DecidableEq, Repr

/-- The primary modes (R20); R415 says when one follows another. -/
inductive Primary where
  | boot | load | run | dual | drain | quiesced | test | halt
  deriving DecidableEq, Repr

/-- GLB_MODE.PRIMARY (R20). -/
def Primary.code : Primary → Nat
  | .boot => 0 | .load => 1 | .run => 2 | .dual => 3 | .drain => 4 | .quiesced => 5 | .test => 6 | .halt => 7

/-- What a time leaf holds beside the die-wide count (R303). -/
structure Leaf where
  /-- Consecutive sync beats missed. -/
  missed : Nat := 0
  deriving DecidableEq, Repr

/-- A load or a step of fabric time that the next FCLK carries out (R305, R306). -/
inductive TimeJump where
  | set (total : Nat)
  | step (units : Int)
  deriving DecidableEq, Repr

/-- The time master, the always-on keeper and the two PPS pins (R300 to R313). -/
structure TimeSt where
  /-- The die-wide FCLK count (R302). -/
  c       : Nat := 0
  /-- TIM_STEP_TOTAL, signed. -/
  steps   : Int := 0
  leaf    : SMap Leaf := []
  /-- The always-on keeper: total nanoseconds, in steps of 40 (R304). -/
  keeper  : Nat := 0
  /-- FCLK at which the keeper was last reloaded. -/
  keepAt  : Nat := 0
  /-- Total nanoseconds of the last accepted PPS edge; none since reset (R307). -/
  ppsLast : Option Int := none
  /-- Total nanoseconds from which the seconds without an edge are counted (R308). -/
  ppsRef  : Int := 0
  ppsOut  : Bool := false
  /-- Total nanoseconds of the last rise of PPS_OUT and the FCLK at which it happened (R309). -/
  ppsRise : Option (Int × Nat) := none
  /-- A step has crossed a whole second and PPS_OUT has not answered it yet (R309). -/
  ppsDue  : Bool := false
  /-- What a TIM_CMD of this cycle does in the next one. -/
  jump    : Option TimeJump := none
  deriving DecidableEq, Repr

/-- A fault as it reaches the collector (R334, R335). -/
structure FaultRec where
  src    : Nat
  level  : Nat
  unit   : UnitRef
  detail : Nat := 0
  delay  : Nat := 0
  tsat   : Bool := false
  merged : Bool := false
  inj    : Bool := false
  /-- FCLK at which it reached the collector (R337). -/
  arr    : Nat := 0
  /-- Time of detection: total nanoseconds and fraction. -/
  ns     : Int := 0
  frac   : Nat := 0
  deriving DecidableEq, Repr

/-- A frame on a router's alarm line (R334). -/
structure Alarm where
  node   : Nat
  src    : Nat
  level  : Nat
  detail : Nat := 0
  inj    : Bool := false
  /-- Bits [15:0] of the die-wide count at detection. -/
  count  : Nat := 0
  /-- A link fence on this input port is asked for instead of the router's (R338). -/
  port   : Nat := 0
  deriving DecidableEq, Repr

/-- What a fence takes out of service (R346). -/
inductive FenceKey where
  | router (n : Nat)
  | link (node port : Nat)
  | ni (fid : Nat)
  | home (k : Nat)
  | cluster (k : Nat)
  | quadrant (q : Nat)
  deriving DecidableEq, Repr

/-- An armed injection (R353). -/
structure Inject where
  unit : UnitRef
  chk  : Nat
  two  : Bool
  port : Nat
  left : Nat
  deriving DecidableEq, Repr

/-- The fault collector beside its registers (R331 to R356). -/
structure FcSt where
  /-- Reports waiting to be taken, in order of arrival (R337). -/
  queue   : List FaultRec := []
  /-- FCLK + 1 of the last take (R337). -/
  takeAt  : Nat := 0
  /-- SRC, TXID and FCLK of the FaultRpts taken in the last 64 µs (R336). -/
  recent  : List (Fid × BitVec 12 × Nat) := []
  /-- Class and level of that fault, 32 × level + class; FCLK + 1 of the last acknowledgement, and the pending levels before it of the
  classes that it named (R340). -/
  took    : Nat := 0
  ackAt   : Nat := 0
  ackWas  : SMap Nat := []
  alarms  : List Alarm := []
  /-- FCLK of the REFCLK cycle in which FAULT_N was last asserted; none: released (R342). -/
  pinAt   : Option Nat := none
  /-- FCLK from which FAULT_N has been driven low without a break. -/
  pinFrom : Option Nat := none
  relPend : Bool := false
  /-- Fences in force that no active image covers (R348). -/
  bare    : List FenceKey := []
  /-- Fences whose Clove image has been called, or that need none of their own (R347). -/
  called  : List FenceKey := []
  /-- Fences in force of links, which no bitmap shows. -/
  links   : List (Nat × Nat) := []
  inject  : Option Inject := none
  deriving DecidableEq, Repr

/-- What the program controller's sequence waits for. -/
inductive PrgWait where
  | none
  /-- WAITT: total nanoseconds of the target (R30). -/
  | waitt (target : Int)
  /-- WAITD: nanoseconds left to wait, from an FCLK on. -/
  | waitd (ns : Nat) (since : Nat)
  /-- WAITS: offset, mask, value and the FCLK at which it started. -/
  | waits (off mask value : Nat) (since : Nat)
  /-- WRCS: its write has not completed; `direct`: it is on its way to a bank node's window (R422, R433). -/
  | wrcs (direct : Bool)
  /-- EPSW: waits for the switch time (R38). -/
  | epsw
  /-- END: waits for the end of the drain (R407). -/
  | drain
  deriving DecidableEq, Repr

/-- A Clove image asked for: its key, and whether it is a fault, power or return image (R43, R44). -/
structure CloveReq where
  key : Nat
  /-- 0 fault or quadrant image, 1 power image, 2 return image. -/
  sort : Nat
  /-- The fence that called for it. -/
  fence : Option FenceKey := none
  /-- The domain whose entry or wake asked for a power image. -/
  dom : Option Nat := none
  deriving DecidableEq, Repr

/-- PRG_STATUS.STATE (R31). -/
inductive PrgState where
  | idle | receiving | verifying | executing | done | failed
  deriving DecidableEq, Repr

/-- PRG_STATUS.STATE as a number. -/
def PrgState.code : PrgState → Nat
  | .idle => 0 | .receiving => 1 | .verifying => 2 | .executing => 3 | .done => 4 | .failed => 5

/-- The program controller beside its registers (R23 to R46). -/
structure PrgSt where
  state   : PrgState := .idle
  /-- The program store: the bytes received since START. -/
  store   : List Byte := []
  /-- Every byte and START came from the rule writer (R212). -/
  writer  : Bool := false
  pc      : Nat := 0
  wait    : PrgWait := .none
  abort   : Bool := false
  /-- UNFENCEs of the running image, by class and unit (R349). -/
  unfence : List (Nat × Nat) := []
  /-- FENCEs of the running image (R348). -/
  fenced  : List FenceKey := []
  /-- A program runs, and its PROG_ID. -/
  running : Bool := false
  progId  : Nat := 0
  /-- PROG_ID of the program that the active Clove image repairs: the last one that did not come as a Clove image. -/
  base    : Nat := 0
  /-- The Clove request whose image is being fetched, verified, executed or armed. -/
  clove   : Option CloveReq := none
  /-- The Clove fetch has begun (R44, R45). -/
  fetching : Bool := false
  /-- Requests that wait for DUAL or for program-store activity to end (R45). -/
  waiting : List CloveReq := []
  deriving DecidableEq, Repr

/-- The epoch switch (R37 to R42). -/
structure EpoSt where
  cur     : Bool := false
  dual    : Bool := false
  /-- Switch time in total nanoseconds, once EPSW has started; `late` requests are marked in PRG_STATUS. -/
  t       : Option Int := none
  /-- Units that have not acknowledged the arm yet. -/
  missing : List UnitRef := []
  /-- FCLK of the last switch. -/
  at_     : Nat := 0
  /-- The drain interval has ended with an overrun; the old bank is still held (R38). -/
  overrun : Bool := false
  /-- DRAIN_NS of the image being switched to or running. -/
  drain   : Nat := 0
  /-- A switch has completed since the last cold or warm reset (R407). -/
  first   : Bool := false
  /-- The epoch switches completed, for R157. -/
  count   : Nat := 0
  /-- The running switch is a cutover in QUIESCED, without DUAL (R416). -/
  quiet   : Bool := false
  /-- Buckets whose home the last switch changed and whose release has not been sent: bucket, old home, new home (R42). -/
  moves : List (Nat × Nat × Nat) := []
  deriving DecidableEq, Repr

/-- A control request in the hub (R423). -/
structure HubReq where
  src   : Fid
  sd    : BitVec 4
  write : Bool
  off   : Nat
  value : Word32 := 0
  /-- The REQ packet to answer; none for WRCS and WAITS. -/
  req   : Option Pkt := none
  deriving DecidableEq, Repr

/-- The control hub (R421 to R430). -/
structure Hub where
  /-- Requests that have passed the hub's checks and wait, oldest first; at most 64. -/
  queue : List HubReq := []
  /-- Accesses outstanding on the control tree, in the order in which they began; at most 16. -/
  tree : List HubReq := []
  /-- FCLK + 1 of the last take and of the last begin. -/
  takeAt : Nat := 0
  beginAt : Nat := 0
  /-- Latched upper halves of PRG_ACTIVE_ID and SAF_SEQ (R424). -/
  latId : Nat := 0
  latSeq : Nat := 0
  /-- Latched seconds and fraction of TIM_NOW (R313). -/
  latTime : Nat := 0
  deriving DecidableEq, Repr

/-- The bandwidth window of one interface (R392 to R394). -/
structure BwSt where
  inB  : Nat := 0
  outB : Nat := 0
  /-- Total nanoseconds at which the window began. -/
  start : Int := 0
  cut  : Bool := true
  seq  : Nat := 0
  /-- Per traffic class: a packet of it has waited in every FCLK so far, and the DAT payload bytes injected (R394). -/
  waited : List Bool := [true, true, true, true]
  bytes : List Nat := [0, 0, 0, 0]
  deriving DecidableEq, Repr

/-- The probe of one router (R397 to R399). -/
structure ProbeSt where
  /-- Staged records as numbers of 256 bits, with their FCLK. -/
  staged : List (Nat × Nat) := []
  /-- Records that the trace line has brought to the queue manager, with the FCLK of their arrival. -/
  came : List (Nat × Nat) := []
  index : Nat := 0
  wraps : Nat := 0
  stopped : Bool := false
  deriving DecidableEq, Repr

end Sys2Proof.Machine
end

