-- ==== Sys2Proof/Machine/State.lean ====
section
/-! DEFINITION. The state of the fabric, the reasons a step can stop, and the state right after reset. -/

namespace Sys2Proof.Machine

/-- Why a step stops with a fault. -/
inductive Fault where
  /-- A command names an interface, counter bank or unit that R59 or R385 does not assign, or a partner, channel, tracker
  or cache that the port's class does not have (R102, R134): no such unit exists, so no such event can happen.  Raised by
  every command whose `Instr.wf` is false, and by no other.  Safe: the fabric has nothing that could act. -/
  | noSuchUnit
  deriving DecidableEq, Repr

/-- Why a step is refused. -/
inductive Refusal where
  /-- Raised by an arm of `exec` whose command has no meaning yet.  Safe. -/
  | notModelled (mnemonic : String)
  deriving DecidableEq, Repr

/-- The state of the fabric. -/
structure State where
  /-- Commands waiting, first in first out. -/
  pending : List Instr := []
  /-- FCLK cycles since the last cold start began; no step or SET moves it. -/
  tick : Nat := 0
  /-- FRST_N is asserted. -/
  frst : Bool := true
  /-- The cold start sequence has ended (R404). -/
  started : Bool := false
  prim : Primary := .boot
  /-- Conditions as they stood when HALT was entered (R19): DEGRADED, FALLBACK, FREEZE, LOWPOWER. -/
  haltConds : Option (Bool × Bool × Bool × Bool) := none
  fallback : Bool := false
  /-- A DRAIN write waits for the end of DUAL (R416). -/
  drainPend : Bool := false
  /-- FCLK at which DRAIN was entered; none once its timeout has passed (R413). -/
  drainAt : Option Nat := none
  /-- The power-down record that is being written (R414). -/
  pdrec : Option (List Byte) := none
  /-- Control-space registers, by offset; an unlisted one reads its reset value. -/
  regs : SMap Word32 := []
  /-- What the running FCLK cycle has done to registers, by offset; empty at its start (R9, R14). -/
  cyc : SMap CycReg := []
  /-- GLB_MODE at the start of the running FCLK cycle (R21). -/
  modeWas : Nat := 0
  /-- The queue managers that were QUIESCED then, one bit each (R14). -/
  quietWas : Nat := 0
  /-- Epoch-kind writes waiting for the next switch, by offset (R13). -/
  shadows : SMap (Option Word32) := []
  /-- Structural tables, by bank, table, unit, port and index (R24, R28). -/
  tabs : SMap Nat := []
  /-- The fuse mirror (R432); none until fuses are loaded. -/
  fuses : Option FuseArray := none
  /-- Epoch bit of units that kept theirs through a switch, by unit key (R39). -/
  ownEp : SMap Bool := []
  tim : TimeSt := {}
  fc : FcSt := {}
  prg : PrgSt := {}
  epo : EpoSt := {}
  hub : Hub := {}
  /-- Copy 0 of the rule tables is being copied to the shadow since this FCLK (R216). -/
  rkCopy : Option Nat := none
  rbuf : SMap RBuf := []
  cred : SMap Cred := []
  arbs : SMap Arb := []
  ni : SMap Ni := []
  saf : Saf := {}
  home : SMap Home := []
  /-- Directory ways, by (8,192 × home + set) × 12 + way (R147). -/
  dir : SMap (Option DirEnt) := []
  /-- Pseudo-LRU bits, by 8,192 × home + set (R147). -/
  plru : SMap Nat := []
  /-- Predictor entries, by 2,048 × home + index (R192). -/
  pred : SMap (Option PredEnt) := []
  /-- Lines of the caching partners, by FID × 2^46 + line. -/
  cache : SMap CLine := []
  /-- Bucket `Recall`s that caching partners still have to answer, by FID. -/
  recalls : SMap (List PortRecall) := []
  /-- Shared SRAM, by offset (R219); an unlisted byte reads 0 (R404). -/
  sram : List Host.Cell := []
  /-- Words of shared SRAM that read as uncorrectable, by offset / 8 (R232). -/
  sramBad : SMap Bool := []
  /-- Banks by global number, and the local-side accesses of each node, oldest first. -/
  bank : SMap Bank := []
  loc : SMap (List LocAcc) := []
  /-- Dynamic state of the queues, by queue number, and the queue managers. -/
  que : SMap QDyn := []
  qm : SMap Qm := []
  /-- FCLK + 1 of the last refill of the token buckets (R253). -/
  refillAt : Nat := 0
  /-- Engine clusters; local SRAM by 2^18 × cluster + offset, and its uncorrectable words by that / 8 (R268). -/
  ecl : SMap Ecl := []
  lsram : List Host.Cell := []
  lsramBad : SMap Bool := []
  /-- Event counters, by 128 × bank + index (R385). -/
  ctr : SMap Nat := []
  /-- The counters as they stood before this cycle, and the banks whose CLEAR acts in the next FCLK (R386). -/
  ctrWas : SMap Nat := []
  ctrClr : List Nat := []
  /-- The WAKE pin (R373). -/
  wakePin : Bool := false
  /-- Power domains, by number (R359). -/
  dom : SMap Dom := []
  /-- Signatures that the always-on domain holds, by global bank (R378). -/
  sigs : SMap Nat := []
  /-- Fabric slices, by number. -/
  slc : SMap Slc := []
  /-- GLB_MODE.FREEZE (R320, R322). -/
  freeze : Bool := false
  bw : SMap BwSt := []
  probe : SMap ProbeSt := []
  /-- The number of free values drawn so far: the model's own field. -/
  free : Nat := 0
  deriving DecidableEq, Repr

/-- The fabric while FRST_N is asserted (R10, R109): every field at its cold-reset value. -/
def State.reset : State := {}

end Sys2Proof.Machine
end

