-- ==== Sys2Proof/Machine/Regs.lean ====
section
/-! DEFINITION. Control-space registers: where each lies (R425), what it resets to (R11), and the field rules of a read
and of a write (R7 to R14). -/

namespace Sys2Proof.Machine

/-- Base of router n's block (R425). -/
def rtrBase (n : Nat) : Nat := 0x200000 + 0x2000 * n
/-- Base of the interface block of a FID. -/
def niBase (f : Nat) : Nat := 0x600000 + 0x1000 * f
/-- Base of home slice k's block. -/
def hsBase (k : Nat) : Nat := 0x800000 + 0x10000 * k
/-- Base of bank node k's block. -/
def ssbBase (k : Nat) : Nat := 0xC00000 + 0x10000 * k
/-- Base of queue manager n's block. -/
def qmBase (n : Nat) : Nat := 0xD00000 + 0x40000 * n
/-- Base of engine e's block. -/
def engBase (e : Nat) : Nat := 0xE00000 + 0x2000 * e
/-- Base of cluster k's block. -/
def eclBase (k : Nat) : Nat := 0xF80000 + 0x1000 * k
/-- Base of counter bank b. -/
def ctrBase (b : Nat) : Nat := 0x1000000 + 0x1000 * b
/-- Base of router n's probe. -/
def prbBase (n : Nat) : Nat := 0x1380000 + 0x200 * n
/-- Base of slice s's block. -/
def slcBase (s : Nat) : Nat := 0x1400000 + 0x100 * s
/-- Base of the rule keeper's block. -/
def rkBase : Nat := 0x100000
/-- Base of power domain d's block. -/
def domBase (d : Nat) : Nat := 0x2100 + 0x20 * d
/-- Base of SLC_GSTATUS. -/
def slcgBase : Nat := 0x1404000
/-- Base of the arbiter block of a router output, a home and a bank (R92). -/
def arbBase : ArbSite → Nat
  | .router n net out => rtrBase n + 0x100 + 0x20 * (8 * netCode net + out.val)
  | .home k => hsBase k + 0xF00
  | .bank n b => ssbBase n + 0x800 + 0x20 * b.val

/-- The offset of copy `i` of a register in the block at `base`. -/
def Reg.off (r : Reg) (base i : Nat) : Nat := base + r.spec.off + r.spec.stride * i

/-- The Reset column of a register as one word. -/
def RegSpec.resetWord (sp : RegSpec) : Nat := sp.fields.foldl (fun a f => a + f.reset * 2 ^ f.lo) 0

/-- Ceiling of a fault class (R332). -/
def classCeil (c : Nat) : Nat :=
  if c = 3 ∨ c = 14 then 3
  else if c = 0 ∨ c = 2 ∨ c = 6 ∨ c = 11 ∨ c = 13 ∨ c = 16 then 2
  else if 18 ≤ c ∧ c ≤ 23 then 0 else 1

/-- Grid row and column of a router (R60). -/
def nodeRow (n : Nat) : Nat := n / 72 * 6 + n % 36 / 6
/-- Grid column of a router (R60). -/
def nodeCol (n : Nat) : Nat := n / 36 % 2 * 6 + n % 6
/-- Router at a grid position (R60). -/
def nodeAt (r c : Nat) : Nat := 36 * (r / 6 * 2 + c / 6) + 6 * (r % 6) + c % 6

/-- The router and input port reached through a mesh or express port; none for a local or absent port (R60, R61). -/
def neighbour (n p : Nat) : Option (Nat × Nat) :=
  let r := nodeRow n
  let c := nodeCol n
  if p = 0 then (if r = 0 then none else some (nodeAt (r - 1) c, 2))
  else if p = 1 then (if c = 11 then none else some (nodeAt r (c + 1), 3))
  else if p = 2 then (if r = 11 then none else some (nodeAt (r + 1) c, 0))
  else if p = 3 then (if c = 0 then none else some (nodeAt r (c - 1), 1))
  else if p = 4 then (if r % 2 = 0 ∧ c % 3 = 0 ∧ c < 9 then some (nodeAt r (c + 3), 5) else none)
  else if p = 5 then (if r % 2 = 0 ∧ c % 3 = 0 ∧ 3 ≤ c then some (nodeAt r (c - 3), 4) else none)
  else none

/-- A FID of R59. -/
def assigned (f : Nat) : Bool :=
  f ≤ 0x11B || (0x120 ≤ f && f ≤ 0x127) || (0x130 ≤ f && f ≤ 0x173) || (0x180 ≤ f && f ≤ 0x185)

/-- Every assigned FID, ascending (R59). -/
def allFids : List Nat := (List.range 0x186).filter assigned

/-- A port is present when it carries a link or the floor plan attaches an endpoint to it (R61). -/
def portPresent (n p : Nat) : Bool :=
  (neighbour n p).isSome || allFids.any (fun f => Config.attach f == n * 8 + p)

/-- The interface that the floor plan attaches to a local port. -/
def localFid (n p : Nat) : Option Nat := allFids.find? (fun f => Config.attach f == n * 8 + p)

/-- Quadrant of a numbered unit, by FID; the spine and its ports have none (R16). -/
def quadOf (f : Nat) : Option Nat :=
  if f < 0x80 then some (f / 32)
  else if f < 0x100 then some (f % 64 / 16)
  else if f < 0x110 then some (f % 16 / 4)
  else if f < 0x11C then some ((f - 0x110) / 3)
  else if 0x130 ≤ f ∧ f < 0x160 then some ((f - 0x130) / 12)
  else if 0x160 ≤ f ∧ f < 0x170 then some ((f - 0x160) / 4)
  else if 0x170 ≤ f ∧ f < 0x174 then some (f - 0x170)
  else none

/-- PCLASS of an interface (R79). -/
def pclass (f : Nat) : Nat :=
  if f < 0x80 then 0 else if f < 0xC0 then 1 else if f < 0x100 then 2 else if f < 0x110 then 3
  else if f < 0x11C then 4 else if f < 0x126 then 5 else if f < 0x128 then 6 else 7

/-- The interface has a partner: CC, LC, MP, IO, SL, MG, DB. -/
def isPartner (f : Nat) : Bool := assigned f && pclass f != 2 && pclass f != 7

/-- The interface of an engine cluster. -/
def isCluster (f : Nat) : Bool := 0x130 ≤ f && f < 0x160

/-- The interface keeps a source tracker of pieces: a partner's, or a cluster's (R115, R281). -/
def tracked (f : Nat) : Bool := isPartner f || isCluster f

/-- The class has a P2F channel (R102). -/
def hasP2f (f : Nat) (n : Net) : Bool :=
  match pclass f, n with
  | 5, _ => true
  | 3, .rsp | 3, .dat => true
  | 0, .snp | 1, .snp | 4, .snp => false
  | 0, _ | 1, _ | 4, _ => true
  | 6, .req | 6, .dat => true
  | _, _ => false

/-- The class has an F2P channel (R102). -/
def hasF2p (f : Nat) (n : Net) : Bool :=
  match pclass f, n with
  | 0, _ | 5, _ => true
  | 1, .req => false
  | 1, _ => true
  | 3, .req | 3, .dat => true
  | 4, .snp => false
  | 4, _ => true
  | 6, .rsp | 6, .dat => true
  | _, _ => false

/-- Cache index of a caching port (R134). -/
def cacheIdx (f : Nat) : Option Nat :=
  if f < 0x80 then some f else if f < 0xC0 then some (128 + (f - 0x80))
  else if 0x120 ≤ f ∧ f < 0x126 then some (192 + (f - 0x120)) else none

/-- A partner class that caches: CC, LC, SL (R134). -/
def isCaching (f : Nat) : Bool := (cacheIdx f).isSome

/-- A router of the grid or an interface of R59. -/
def unitExists (u : UnitRef) : Bool := if u.node then u.id < 144 else assigned u.id

/-- Counter bank `b` exists (R385). -/
def ctrExists (b : Nat) : Bool := assigned b || (0x200 ≤ b && b < 0x290) || (0x300 ≤ b && b < 0x340)

/-- A fuse word of the rule fuse block (R202). -/
def State.fuseBits (s : State) (lo w : Nat) : Nat :=
  match s.fuses with
  | some f => fld f.rule.toNat lo w
  | none => 0

/-- FCRC passes over bytes 0 to 275 of the rule fuse block (R202, R204). -/
def fuseGood (f : FuseArray) : Bool :=
  (crc32c (leBytes 276 f.rule.toNat)).toNat == fld f.rule.toNat 2208 32

/-- The fuse load failed (R204). -/
def State.fuseBad (s : State) : Bool :=
  match s.fuses with
  | some f => !fuseGood f
  | none => false

/-- FMAP pair j as fused: FID, SD, VLD (R202). -/
def State.fmap (s : State) (j : Nat) : Nat × Nat × Bool :=
  let v := s.fuseBits (2052 + 15 * j) 15
  (fld v 0 10, fld v 10 4, bitOf v 14 && !s.fuseBad)

/-- Domain of a FID by the hardwired assignments and the fused part of the map (R196, R203). -/
def State.fusedSd (s : State) (f : Nat) : Option Nat :=
  if 0x180 ≤ f ∧ f ≤ 0x185 then some 0
  else if f = 0x127 then some 15
  else if s.fuseBad || s.fuses.isNone then none
  else if f = 0x126 then some (s.fuseBits 2048 4)
  else ((List.range 8).find? (fun j => (s.fmap j).1 == f && (s.fmap j).2.2)).map (fun j => (s.fmap j).2.1)

/-- A rule writer exists, and its FID (R202, R204). -/
def State.ruleWriter (s : State) : Option Nat :=
  if s.fuses.isSome && !s.fuseBad && s.fuseBits 2182 1 == 1 then some (s.fuseBits 2172 10) else none

/-- The debug override is active (R205). -/
def State.dbgOvr (s : State) : Bool := s.fuseBits 2183 1 == 1 && s.fuseBits 2184 1 == 0

/-- The number of counters of a bank that the catalogue lists up to (R390): CTR_BANK_ID.COUNTERS. -/
def ctrBankSize (b : Nat) : Nat :=
  if b < 0x200 then
    if 0xC0 ≤ b ∧ b < 0x100 then 80
    else if 0x130 ≤ b ∧ b < 0x160 then 78
    else if 0x160 ≤ b ∧ b < 0x170 then 78
    else if 0x170 ≤ b ∧ b < 0x174 then 80
    else if b = 0x181 then 68 else 64
  else if b < 0x300 then 128 else 12

/-- Own capability word of an SL port (R122). -/
def slCapWord (socket : Nat) : Nat := 0x7E0F + socket * 2 ^ 6

/-- What a register holds after cold reset, instance by instance (R11 and the tables). -/
def State.resetWord (s : State) (r : Reg) (base i : Nat) : Nat :=
  match r with
  | .RTR_ID =>
    let n := (base - 0x200000) / 0x2000
    let ps := (List.range 7).filter (portPresent n)
    n + ps.length * 2 ^ 8 + n / 36 * 2 ^ 12 + (ps.foldl (fun a p => a + 2 ^ p) 0) * 2 ^ 14
  | .NI_ID => let f := (base - 0x600000) / 0x1000; f + pclass f * 2 ^ 12
  | .ARB_CFG2 => if 0x800000 ≤ base ∧ base < 0xC00000 then 0x00FF1004 else 0x1004
  | .SAF_ENTn => if i = 0 then 0x01020580 else 0
  | .NI_SLCAP_OWN =>
    let f := (base - 0x600000) / 0x1000
    if 0x120 ≤ f ∧ f < 0x126 then slCapWord ((s.fuses.map (·.socket.toNat)).getD 0) else 0
  | .HS_ID => let k := (base - 0x800000) / 0x10000; k + k / 16 * 2 ^ 6 + (0xC0 + k) * 2 ^ 8
  | .SSB_ID => let k := (base - 0xC00000) / 0x10000; k + k / 4 * 2 ^ 4 + (0x160 + k) * 2 ^ 6
  | .QM_ID => let n := (base - 0xD00000) / 0x40000; n + (0x170 + n) * 2 ^ 2
  | .ENG_ID => let e := (base - 0xE00000) / 0x2000; e + e / 4 * 2 ^ 8 + e / 48 * 2 ^ 14
  | .ENG_CL_ID => let k := (base - 0xF80000) / 0x1000
                  k + k / 12 * 2 ^ 6 + (0x130 + k) * 2 ^ 8 + k / 3 * 2 ^ 18
  | .CTR_BANK_ID => let b := (base - 0x1000000) / 0x1000; b + ctrBankSize b * 2 ^ 10
  | .FC_CLASS_CFGc => classCeil i * 2 ^ 3
  | .GLB_FUSE_STATUS => if s.fuses.isSome then 1 + s.fuseBad.toNat * 2 else 0
  | .GLB_FUSE_DEV => (s.fuses.map (·.socket.toNat)).getD 0
  | .GLB_FUSE_SERIAL_LO => (s.fuses.map (fun f => fld f.serial.toNat 0 32)).getD 0
  | .GLB_FUSE_SERIAL_HI => (s.fuses.map (fun f => fld f.serial.toNat 32 32)).getD 0
  | .GLB_FUSE_RULEw => s.fuseBits (32 * i) 32
  | .RK_WRITER => s.fuseBits 2172 10 + (if s.fuseBad then 0 else s.fuseBits 2182 1 * 2 ^ 10)
  | r => r.spec.resetWord

/-- The value in effect of copy `i` of a register in the block at `base`. -/
def State.reg (s : State) (r : Reg) (base : Nat := 0) (i : Nat := 0) : Nat :=
  (SMap.get (BitVec.ofNat 32 (s.resetWord r base i)) s.regs (r.off base i)).toNat

/-- The word that a register holds replaced, and nothing noted. -/
def State.putWord (s : State) (r : Reg) (v : Nat) (base : Nat := 0) (i : Nat := 0) : State :=
  { s with regs := SMap.set (BitVec.ofNat 32 (s.resetWord r base i)) s.regs (r.off base i) (BitVec.ofNat 32 v) }

/-- What the running FCLK cycle has done to the register at an offset (R9, R14). -/
def State.cycAt (s : State) (off : Nat) : CycReg := SMap.get {} s.cyc off

/-- The note of the running cycle about the register at an offset changed. -/
def State.noteCyc (s : State) (off : Nat) (g : CycReg → CycReg) : State := { s with cyc := SMap.upd {} s.cyc off g }

/-- The bits of a register with an access code. -/
def RegSpec.mask (sp : RegSpec) (a : Access) : Nat :=
  sp.fields.foldl (fun m f => if f.acc == a then m + (2 ^ f.w - 1) * 2 ^ f.lo else m) 0

/-- The word before this cycle's first write of a register whose write counts from the next FCLK on. -/
def State.noteWas (s : State) (r : Reg) (base i : Nat) : State :=
  s.noteCyc (r.off base i) (fun c => { c with was := some (c.was.getD (s.reg r base i)) })

/-- A field as it stood at the start of the cycle, of a register whose write counts from the next FCLK on (R387, R397). -/
def State.rfThen (s : State) (r : Reg) (lo w : Nat) (base : Nat := 0) (i : Nat := 0) : Nat :=
  fld ((s.cycAt (r.off base i)).was.getD (s.reg r base i)) lo w

/-- W1C bits that the hardware sets in this cycle are noted, so that a write of the same cycle leaves them set (R9). -/
def State.noteSet (s : State) (r : Reg) (bits : Nat) (base i : Nat) : State :=
  { s with cyc := if bits &&& r.spec.mask .w1c = 0 then s.cyc
      else SMap.upd {} s.cyc (r.off base i) (fun c => { c with set := c.set ||| (bits &&& r.spec.mask .w1c) }) }

/-- An update of an RC register by the hardware is noted: the value before the cycle's first one, and what the cycle's
updates make of a cleared field (R9). -/
def State.noteUpd (s : State) (r : Reg) (g : Nat → Nat) (base i : Nat) : State :=
  s.noteCyc (r.off base i) (fun c => { c with before := some (c.before.getD (s.reg r base i)), upd := g c.upd })

/-- A register set by the hardware. -/
def State.setReg (s : State) (r : Reg) (v : Nat) (base : Nat := 0) (i : Nat := 0) : State :=
  (s.noteSet r (v - (v &&& s.reg r base i)) base i).putWord r v base i

/-- One field of a register. -/
def State.rf (s : State) (r : Reg) (lo w : Nat) (base : Nat := 0) (i : Nat := 0) : Nat := fld (s.reg r base i) lo w

/-- One field of a register set by the hardware. -/
def State.setRf (s : State) (r : Reg) (lo w x : Nat) (base : Nat := 0) (i : Nat := 0) : State :=
  (s.noteSet r (x % 2 ^ w * 2 ^ lo) base i).putWord r (setFld (s.reg r base i) lo w x) base i

/-- A saturating 32-bit event count of class RC raised by `n` (R8). -/
def State.bump (s : State) (r : Reg) (base : Nat := 0) (i : Nat := 0) (n : Nat := 1) : State :=
  (s.noteUpd r (fun u => min (u + n) 0xFFFFFFFF) base i).putWord r (min (s.reg r base i + n) 0xFFFFFFFF) base i

/-- A capture whose register `cap` holds VALID in bit 31: the words go into their registers while VALID is 0.  While it is 1, the
cycle's first event is noted, for a W1C of VALID in the same cycle, and goes into the counts `miss` (R9, R311, R341). -/
def State.latchWords (s : State) (cap : Reg) (ws : List (Reg × Nat)) (base : Nat := 0) (i : Nat := 0) (miss : List Reg := []) :
    State :=
  if s.rf cap 31 1 base i = 1 then
    miss.foldl (fun s r => s.bump r base i) (s.noteCyc (cap.off base i) (fun c =>
      if c.late.isEmpty then { c with late := ws, miss := miss } else c))
  else ws.foldl (fun s rw => s.setReg rw.1 rw.2 base i) s

/-- A write has cleared VALID in the cycle of an event: that event is captured, and not counted (R311, R341). -/
def State.takeLate (s : State) (cap : Reg) (base i : Nat) : State :=
  let c := s.cycAt (cap.off base i)
  let s := c.miss.foldl (fun s r => s.putWord r (s.reg r base i - 1) base i) s
  c.late.foldl (fun s rw => s.setReg rw.1 rw.2 base i) s

/-- A maximum of class RC raised to at least `n` (R8). -/
def State.raiseMax (s : State) (r : Reg) (n : Nat) (base : Nat := 0) (i : Nat := 0) : State :=
  (s.noteUpd r (fun u => max u n) base i).putWord r (max (s.reg r base i) n) base i

/-- Whether the lock of an RWL register is set (R8, R43, R380, R428). -/
def State.rwlLocked (s : State) (r : Reg) : Bool :=
  match r with
  | .PRG_CLOVE0_LO | .PRG_CLOVE0_HI | .PRG_CLOVE1_LO | .PRG_CLOVE1_HI => s.rf .PRG_CTRL 31 1 == 1
  | .PWR_OFFSAVE_LO | .PWR_OFFSAVE_HI => s.rf .PWR_CTRL 0 1 == 1
  | .GLB_CSAn_LO | .GLB_CSAn_HI => s.rf .GLB_CSA_CTRL 0 1 == 1
  | _ => false

/-- What a write makes of one Live field (R8); `locked` is the state of the block's lock, `hw` the bits that the hardware has
set in the same cycle (R9). -/
def Field.write (f : Field) (locked : Bool) (hw old v : Nat) : Nat :=
  let o := fld old f.lo f.w
  let x := fld v f.lo f.w
  match f.acc with
  | .rw => setFld old f.lo f.w x
  | .rwl => if locked then old else setFld old f.lo f.w x
  | .w1c => setFld old f.lo f.w (o - (o &&& (x - (x &&& fld hw f.lo f.w))))
  | .w1s => setFld old f.lo f.w (o ||| x)
  | .ro | .wo | .rc => old

/-- What an RC read leaves of a register: its RC fields as in `upd`, the updates of the same cycle applied to a cleared field
(R8, R9). -/
def RegSpec.afterRead (sp : RegSpec) (old : Nat) (upd : Nat := 0) : Nat :=
  sp.fields.foldl (fun a f => if f.acc == .rc then setFld a f.lo f.w (fld upd f.lo f.w) else a) old

/-- A register with RC fields is read. -/
def State.rcRead (s : State) (r : Reg) (base i : Nat) : State :=
  let c := s.cycAt (r.off base i)
  let s := s.putWord r (r.spec.afterRead (s.reg r base i) c.upd) base i
  if c.before.isSome then s.noteCyc (r.off base i) (fun c => { c with before := some 0 }) else s

/-- The word before a software write of RWL or Quiesce fields in this cycle is noted, so that a lock or a change of the
block's state in the same cycle can undo the write (R9, R14). -/
def State.noteUndo (s : State) (r : Reg) (base i : Nat) : State :=
  s.noteCyc (r.off base i) (fun c => { c with undo := some (c.undo.getD (s.reg r base i)) })

/-- The lock that a register carries is set. -/
def State.lockOf (s : State) (lock : Reg) : Bool :=
  match lock with
  | .PRG_CTRL => s.rwlLocked .PRG_CLOVE0_LO
  | .PWR_CTRL => s.rwlLocked .PWR_OFFSAVE_LO
  | .GLB_CSA_CTRL => s.rwlLocked .GLB_CSAn_LO
  | _ => false

/-- A write of this cycle undone; true when there was one. -/
def State.undoWrite (s : State) (r : Reg) (base i : Nat) : Bool × State :=
  match (s.cycAt (r.off base i)).undo with
  | some v => (true, (s.putWord r v base i).noteCyc (r.off base i) (fun c => { c with undo := none }))
  | none => (false, s)

/-- The RWL registers of a lock, with their numbers of copies. -/
def lockedBy : Reg → List (Reg × Nat)
  | .PRG_CTRL => [(.PRG_CLOVE0_LO, 1), (.PRG_CLOVE0_HI, 1), (.PRG_CLOVE1_LO, 1), (.PRG_CLOVE1_HI, 1)]
  | .PWR_CTRL => [(.PWR_OFFSAVE_LO, 1), (.PWR_OFFSAVE_HI, 1)]
  | .GLB_CSA_CTRL => [(.GLB_CSAn_LO, 32), (.GLB_CSAn_HI, 32)]
  | _ => []

/-- A lock bit becomes set: writes of the same cycle to what it locks are ignored (R9). -/
def State.undoLocked (s : State) (lock : Reg) : State :=
  (lockedBy lock).foldl (fun s rn => (List.range rn.2).foldl (fun s i => (s.undoWrite rn.1 0 i).2) s) s

/-- What a read of a register shows of the word held: WO fields read zero, reserved bits read zero (R7, R8). -/
def RegSpec.visible (sp : RegSpec) (v : Nat) : Nat :=
  sp.fields.foldl (fun a f => if f.acc == .wo then a else setFld a f.lo f.w (fld v f.lo f.w)) 0

/-- The block and block base that an offset lies in (R425); none: absent. -/
def blockOf (off : Nat) : Option (RegBlock × Nat) :=
  if off < 0x100000 then
    if 0x2100 ≤ off ∧ off < 0x2340 then some (.pdom, domBase ((off - 0x2100) / 0x20)) else some (.glb, 0)
  else if off < 0x200000 then some (.rk, rkBase)
  else if off < 0x320000 then some (.rtr, rtrBase ((off - 0x200000) / 0x2000))
  else if 0x600000 ≤ off ∧ off < 0x800000 then
    let f := (off - 0x600000) / 0x1000
    if assigned f then some (.ni, niBase f) else none
  else if 0x800000 ≤ off ∧ off < 0xC00000 then some (.hs, hsBase ((off - 0x800000) / 0x10000))
  else if 0xC00000 ≤ off ∧ off < 0xD00000 then some (.ssb, ssbBase ((off - 0xC00000) / 0x10000))
  else if 0xD00000 ≤ off ∧ off < 0xE00000 then some (.qm, qmBase ((off - 0xD00000) / 0x40000))
  else if 0xE00000 ≤ off ∧ off < 0xF80000 then some (.eng, engBase ((off - 0xE00000) / 0x2000))
  else if 0xF80000 ≤ off ∧ off < 0xFB0000 then some (.ecl, eclBase ((off - 0xF80000) / 0x1000))
  else if 0x1000000 ≤ off ∧ off < 0x1340000 then
    let b := (off - 0x1000000) / 0x1000
    if assigned b || (0x200 ≤ b && b < 0x290) || (0x300 ≤ b && b < 0x340) then some (.ctr, ctrBase b) else none
  else if 0x1380000 ≤ off ∧ off < 0x1392000 then some (.prb, prbBase ((off - 0x1380000) / 0x200))
  else if 0x1400000 ≤ off ∧ off < 0x1404000 then some (.slc, slcBase ((off - 0x1400000) / 0x100))
  else if 0x1404000 ≤ off ∧ off < 0x1404100 then some (.slcg, slcgBase)
  else none

/-- The register of a list that lies at a distance from its block's base. -/
def Reg.findIn (rs : List Reg) (rel : Nat) : Option (Reg × Nat) :=
  (rs.find? (fun r => r.spec.off ≤ rel && (rel - r.spec.off) % r.spec.stride == 0
    && (rel - r.spec.off) / r.spec.stride < r.spec.count)).map (fun r => (r, (rel - r.spec.off) / r.spec.stride))

/-- Start of the arbiter blocks inside a block, and how many there are (R92). -/
def arbArea : RegBlock → Option (Nat × Nat)
  | .rtr => some (0x100, 32) | .hs => some (0xF00, 1) | .ssb => some (0x800, 4) | _ => none

/-- The register at an offset: its name, the base of its block and its copy number; none for a reserved offset. -/
def regAt (off : Nat) : Option (Reg × Nat × Nat) :=
  match blockOf off with
  | none => none
  | some (b, base) =>
    match arbArea b with
    | some (a, n) =>
      if base + a ≤ off ∧ off < base + a + 0x20 * n then
        let ab := base + a + (off - base - a) / 0x20 * 0x20
        (Reg.findIn RegBlock.arb.regs (off - ab)).map (fun ri => (ri.1, ab, ri.2))
      else (Reg.findIn b.regs (off - base)).map (fun ri => (ri.1, base, ri.2))
    | none => (Reg.findIn b.regs (off - base)).map (fun ri => (ri.1, base, ri.2))

end Sys2Proof.Machine
end

