-- ==== Sys2Proof/Machine/Ops.lean ====
section
/-! DEFINITION. The named operations over the state that every family uses: time, counters, tables, interfaces, fault
reports and packet injection. -/

namespace Sys2Proof.Machine

/-! ### Free values -/

/-- The next free value: a value that the spec leaves open (log 10). -/
def State.drawn (s : State) : Nat := Config.freeValue s.free

/-- One free value has been used. -/
def State.draw (s : State) : State := { s with free := s.free + 1 }

/-! ### Time -/

/-- Total nanosecond count of fabric time (R302). -/
def TimeSt.total (t : TimeSt) : Int := (t.c / 3 : Nat) + 1024 * t.steps

/-- FRAC (R302). -/
def TimeSt.frac (t : TimeSt) : Nat := t.c % 3 * 0x5555

/-- Total nanosecond count of fabric time. -/
def State.ns (s : State) : Int := s.tim.total

/-- Seconds of a total nanosecond count: the format of R300 and R301. -/
def secOf (ns : Int) : Nat := (ns / 1000000000).toNat
/-- NS of a total nanosecond count (R300). -/
def nsOf (ns : Int) : Nat := (ns % 1000000000).toNat

/-- FCLK in a number of nanoseconds (R18, R357: 3.0 GHz). -/
def nsTicks (n : Nat) : Nat := 3 * n
/-- FCLK in a number of microseconds. -/
def usTicks (n : Nat) : Nat := 3000 * n

/-- The die-wide FCLK count modulo 65,536, as INJ carries it (R63). -/
def State.inj16 (s : State) : BitVec 16 := BitVec.ofNat 16 s.tim.c

/-! ### Event counters -/

/-- CHAIN of counter `i` of a bank (R387). -/
def State.chained (s : State) (b i : Nat) : Bool := i % 2 == 0 && s.rfThen .CTR_STAT 1 1 (ctrBase b) i == 1

/-- `n` events into counter `i` of bank `b` (R385, R387). -/
def State.count (s : State) (b i : Nat) (n : Nat := 1) : State :=
  if i % 2 = 1 ∧ s.chained b (i - 1) then s
  else
    let v := SMap.get 0 s.ctr (128 * b + i) + n
    let s := { s with ctr := SMap.set 0 s.ctr (128 * b + i) (v % 2 ^ 48) }
    if v < 2 ^ 48 then s
    else if s.chained b i then
      let w := SMap.get 0 s.ctr (128 * b + i + 1) + v / 2 ^ 48
      let s := { s with ctr := SMap.set 0 s.ctr (128 * b + i + 1) (w % 2 ^ 48) }
      if w < 2 ^ 48 then s else s.setRf .CTR_STAT 0 1 1 (ctrBase b) (i + 1)
    else s.setRf .CTR_STAT 0 1 1 (ctrBase b) i

/-- An event of a router's counter `j` of a network (R390). -/
def State.countRtr (s : State) (node : Nat) (net : Net) (j : Nat) : State := s.count (0x200 + node) (32 * netCode net + j)

/-- An event of a slice's counter set (R390, R391). -/
def State.countSlice (s : State) (sl i : Nat) (n : Nat := 1) : State := s.count (0x300 + sl) i n

/-! ### Structural tables -/

/-- Key of a cell of a structural table. -/
def tabKey (bank table unit port idx : Nat) : Nat :=
  (((bank * 16 + table) * 1024 + unit) * 8 + port) * 65536 + idx

/-- A cell of a structural table as stored. -/
def State.tab (s : State) (bank table unit port idx : Nat) : Nat :=
  SMap.get 0 s.tabs (tabKey bank table unit port idx)

/-- A cell of a structural table written. -/
def State.setTab (s : State) (bank table unit port idx v : Nat) : State :=
  { s with tabs := SMap.set 0 s.tabs (tabKey bank table unit port idx) v }

/-- Bank of an epoch bit: A serves EP = 0, B serves EP = 1 (Epochs). -/
def bankOf (ep : Bool) : Nat := ep.toNat

/-- The shadow bank (Epochs). -/
def State.shadowBank (s : State) : Nat := (!s.epo.cur).toNat

/-- Key of a unit in `ownEp` and `leaf`: routers apart from FIDs. -/
def unitKey (u : UnitRef) : Nat := if u.node then 1024 + u.id else u.id

/-- Epoch bit of an interface: the fabric's, or the one that a sleeping unit kept (R39). -/
def State.epOf (s : State) (f : Nat) : Bool := SMap.get s.epo.cur s.ownEp f

/-- The route entry of a router for a destination in a bank (R62). -/
def State.route (s : State) (n : Nat) (ep : Bool) (dst : Nat) : Nat := s.tab (bankOf ep) 0 n 0 dst

/-! VCMAP cells: 0 to 1,023 hold a destination's RGEN [3:0] and ASLEEP [4]; 1,024 the interface's own RGEN [3:0] and
WAKETC [7:4]; 1,025 + 64 × net + opc a traffic class [1:0] with valid bit [2] (R66, R75, R370; log 5). -/

/-- Destination cell of the VCMAP table. -/
def State.dstCell (s : State) (f : Nat) (ep : Bool) (dst : Nat) : Nat := s.tab (bankOf ep) 1 f 0 dst

/-- The interface's own cell of the VCMAP table. -/
def State.ownCell (s : State) (f : Nat) (ep : Bool) : Nat := s.tab (bankOf ep) 1 f 0 1024

/-- Domain of a FID in a bank (R196). -/
def State.domainOf (s : State) (ep : Bool) (f : Nat) : Option Nat :=
  match s.fusedSd f with
  | some d => some d
  | none =>
    let v := s.tab (bankOf ep) 5 4 0 (4096 + f)
    if bitOf v 4 then some (v % 16) else none

/-- Traffic class of an opcode at an interface; EpochCtl, FaultRpt, PwrCtl and SeqWr are always TC1 (R66). -/
def State.tcOf (s : State) (f : Nat) (ep : Bool) (n : Net) (opc : Nat) : BitVec 2 :=
  if n = .req ∧ (opc = 0x1B ∨ opc = 0x1D ∨ opc = 0x1E ∨ opc = 0x14) then 1
  else
    let v := s.tab (bankOf ep) 1 f 0 (1025 + 64 * netCode n + opc)
    if bitOf v 2 then BitVec.ofNat 2 v else BitVec.ofNat 2 (Config.defaultTc (netCode n) opc)

/-- VC of a traffic class (R66). -/
def vcOf (tc : BitVec 2) : BitVec 2 := if tc = 0 then 1 else if tc = 1 then 2 else 3

/-! ### Interfaces -/

/-- The interface of a FID. -/
def State.nif (s : State) (f : Nat) : Ni := SMap.get {} s.ni f

/-- The interface of a FID replaced. -/
def State.setNi (s : State) (f : Nat) (n : Ni) : State := { s with ni := SMap.set {} s.ni f n }

/-- The interface of a FID changed. -/
def State.updNi (s : State) (f : Nat) (g : Ni → Ni) : State := s.setNi f (g (s.nif f))

/-- The interface is fenced (R346). -/
def State.niFenced (s : State) (f : Nat) : Bool := bitOf (s.reg .FC_FENCED_NIn 0 (f / 32)) (f % 32)

/-- The router is fenced (R346). -/
def State.rtrFenced (s : State) (n : Nat) : Bool := bitOf (s.reg .FC_FENCED_RTRn 0 (n / 32)) (n % 32)

/-- The home slice is fenced. -/
def State.homeFenced (s : State) (k : Nat) : Bool := bitOf (s.reg .FC_FENCED_HSn 0 (k / 32)) (k % 32)

/-- The engine cluster is fenced. -/
def State.clusterFenced (s : State) (k : Nat) : Bool := bitOf (s.reg .FC_FENCED_ECn 0 (k / 32)) (k % 32)

/-- A fence that no active image covers (R348). -/
def State.bareFence (s : State) (k : FenceKey) : State :=
  if s.fc.bare.contains k then s else { s with fc := { s.fc with bare := k :: s.fc.bare } }

/-- A bitmap bit of the collector set or cleared. -/
def State.setMap (s : State) (r : Reg) (i : Nat) (b : Bool) : State := s.setRf r (i % 32) 1 b.toNat 0 (i / 32)

/-! ### Fault reports (R331 to R337) -/

/-- Group number of a unit (R331). -/
def groupOf (u : UnitRef) : Nat :=
  if u.node then 7 * (u.id / 36)
  else match quadOf u.id with
    | some q =>
      if 0xC0 ≤ u.id ∧ u.id < 0x100 then 7 * q + 2
      else if 0x130 ≤ u.id ∧ u.id < 0x160 then 7 * q + 3
      else if 0x160 ≤ u.id ∧ u.id < 0x170 then 7 * q + 4
      else if 0x170 ≤ u.id then 7 * q + 5
      else 7 * q + 1
    | none => if u.id < 0x130 then 29 else 28

/-- Level of a fault after its class's BASE (R333). -/
def State.raisedLevel (s : State) (cls lvl : Nat) : Nat :=
  max lvl (min (s.rf .FC_CLASS_CFGc 0 3 0 cls) (classCeil cls))

/-- The interface of FID `f` as a unit. -/
def fidUnit (f : Nat) : UnitRef := ⟨false, f⟩
/-- Router `n` as a unit. -/
def nodeUnit (n : Nat) : UnitRef := ⟨true, n⟩

/-- A report reaches the collector: in order of arrival, those of one cycle by SRC (R334, R337). -/
def State.collect (s : State) (r : FaultRec) : State :=
  { s with fc := { s.fc with queue := insertOn (fun x : FaultRec => 1024 * x.arr + x.src) { r with arr := s.tick } s.fc.queue } }

/-- A fault of a spine unit, the always-on domain, a power domain's controller or software, which reports inside the
spine (R334). -/
def State.raiseSpine (s : State) (group cls lvl : Nat) (u : UnitRef) (detail : Nat := 0) (inj : Bool := false) : State :=
  s.collect { src := 32 * group + cls, level := s.raisedLevel cls lvl, unit := u, detail := detail, inj := inj,
              ns := s.ns, frac := s.tim.frac }

/-- A fault on a router's alarm line (R334). -/
def State.raiseRtr (s : State) (n cls lvl port : Nat) (inj : Bool := false) : State :=
  { s with fc := { s.fc with alarms := s.fc.alarms ++
      [{ node := n, src := 32 * groupOf (nodeUnit n) + cls, level := s.raisedLevel cls lvl, detail := port, inj := inj,
         count := s.tim.c % 65536, port := port }] } }

/-- No piece and no request of the interface itself has a TXID in a tracker entry's block of 16. -/
def Ni.blockFree (n : Ni) (i : Nat) : Bool := (SMap.get none n.src i).isNone && !n.own.any (fun t => t.toNat / 16 == i)

/-- A TXID that none of the interface's outstanding transactions has (R48): that of the highest tracker entry's block of 16
which no piece and no request of the interface itself uses, else any number that none carries. -/
def Ni.freshTxid (n : Ni) : BitVec 12 :=
  match (List.range 256).reverse.find? n.blockFree with
  | some i => BitVec.ofNat 12 (16 * i)
  | none => BitVec.ofNat 12 (((List.range 4096).find? (fun t => !n.own.any (fun x => x.toNat == t)
      && n.src.all (fun ie => match ie.2 with | some e => e.req.txid.toNat != t | none => true))).getD 0)

/-- The TXID of the interface's next report: the numbers of the highest 64 blocks that are free, in turn (DEDUCED, log 89). -/
def Ni.reportTxid (n : Ni) : BitVec 12 :=
  match ((List.range 64).map (fun j => 255 - (n.repNum + j) % 64)).find? n.blockFree with
  | some i => BitVec.ofNat 12 (16 * i + n.repNum / 64 % 16)
  | none => n.freshTxid

/-- The interface's reporter takes a fault: a report while it holds fewer than four, else MERGED on the next (R336). -/
def Ni.report (n : Ni) (r : Report) : Ni :=
  if n.reports.length < 4 then
    { n with reports := n.reports ++ [{ r with merged := n.merge, txid := n.reportTxid }], own := n.own ++ [n.reportTxid],
             merge := false, repNum := n.repNum + 1 }
  else { n with merge := true }

/-- The FaultRpt of a report (R334). -/
def Report.pkt (r : Report) (delay : Nat) : Pkt :=
  { net := .req, dst := 0x183, opc := 0x1D, tc := 1, txid := r.txid, rlx := true,
    addr := BitVec.ofNat 52 (r.src + r.level * 2 ^ 10 + r.unit.id * 2 ^ 13 + r.unit.node.toNat * 2 ^ 23 + delay * 2 ^ 24
      + r.detail * 2 ^ 36 + r.merged.toNat * 2 ^ 48 + r.inj.toNat * 2 ^ 49) }

/-! ### Packet injection (R37, R48, R63, R75) -/

/-- The bits of ADDR that a request carries: a queue number, a control-space offset and a vector have their upper bits 0
(R50). -/
def addrField (p : Pkt) : BitVec 52 :=
  if p.net ≠ .req then p.addr
  else
    let o := p.opc.toNat
    if o = 0x17 ∨ o = 0x18 ∨ o = 0x19 then BitVec.ofNat 52 (p.addr.toNat % 2 ^ 16)
    else if o = 0x15 ∨ o = 0x16 then BitVec.ofNat 52 (p.addr.toNat % 2 ^ 26)
    else if o = 0x1A then BitVec.ofNat 52 (p.addr.toNat % 2 ^ 12)
    else p.addr

/-- A packet as stamped at ingress acceptance in a given epoch (R37, R48, R50, R63, R75). -/
def State.stampEp (s : State) (f : Nat) (ep : Bool) (p : Pkt) : Pkt :=
  { p with
    src := BitVec.ofNat 10 f
    addr := addrField p
    ep := ep
    rgen := if p.dst = 0x3FF then 0 else BitVec.ofNat 4 (s.dstCell f ep p.dst.toNat)
    vc := vcOf p.tc
    inj := s.inj16
    stamp := s.ns
    old := false
    la := BitVec.ofNat 3 (s.route (Config.attach f / 8) ep p.dst.toNat) }

/-- The spine path joins MG, DB and the program controller (R422). -/
def spinePath (f d : Nat) : Bool :=
  (f == 0x180 && (d == 0x126 || d == 0x127)) || ((f == 0x126 || f == 0x127) && d == 0x180)

/-- The flits of a packet whose header is accepted in FCLK `at_`: one per cycle (R70). -/
def Pkt.flits (p : Pkt) (at_ : Nat) : List Flit := (List.range (p.len.toNat + 1)).map (fun i => ⟨p, i, at_ + i⟩)

/-- The slot sub-entry of an output of a router at a slot index, in a bank (R94). -/
def State.slotAt (s : State) (node : Nat) (net : Net) (out : Nat) (ep : Bool) (idx : Nat) : Nat :=
  fld (s.tab (bankOf ep) 2 node out (idx % 1024)) (16 * netCode net) 16

/-- The interface's copy of its router's sub-entries for its local input port (R95): the DSTs that own head slots at an index.
The copy is written in the same WRTB as the router's entries, so it is read from them. -/
def State.headSlots (s : State) (f : Nat) (net : Net) (ep : Bool) (idx : Nat) : List Nat :=
  (List.range 7).filterMap (fun out =>
    let e := s.slotAt (Config.attach f / 8) net out ep idx
    if bitOf e 0 ∧ fld e 1 3 = Config.attach f % 8 ∧ bitOf e 4 = false then some (fld e 5 10) else none)

/-- A TC0 packet's header is accepted in this cycle: two slots before a head slot of its DST (R95). -/
def State.slotDue (s : State) (f : Nat) (net : Net) (ep : Bool) (dst : Nat) : Bool :=
  (s.headSlots f net ep (s.tim.c + 2)).contains dst

/-- DAT payload bytes of a packet: those with BE set, or those of a message (R390). -/
def Pkt.payload (p : Pkt) : Nat :=
  if p.net ≠ .dat then 0 else if p.opc = 0x20 then p.data.length else popCount 64 p.be.toNat

/-- The bytes injected of a traffic class, for the floor entries of a running window (R394). -/
def State.countFloor (s : State) (f : Nat) (p : Pkt) : State :=
  if p.payload = 0 ∨ s.rf .NI_BW_CFG 31 1 (niBase f) = 0 then s
  else { s with bw := SMap.upd {} s.bw f (fun w =>
    { w with bytes := w.bytes.set p.tc.toNat (w.bytes.getD p.tc.toNat 0 + p.payload) }) }

/-- A stamped packet accepted in this cycle: counted, and handed to the attached router (R390). -/
def State.pushNow (s : State) (f : Nat) (p : Pkt) : State :=
  let d := p.dst.toNat
  let s := s.countFloor f p
  let s := (s.count f (4 * netCode p.net)).count f (4 * netCode p.net + 1) (p.len.toNat + 1)
  if spinePath f d then s.updNi d (fun n => { n with inbox := n.inbox ++ [{ p with arr := s.tick + 1 }] })
  else s.updNi f (fun n => { n with injq := n.injq ++ p.flits s.tick })

/-- A stamped packet handed to the attached router; one of TC0 waits unaccepted for the cycle of its slots (R95). -/
def State.push (s : State) (f : Nat) (p : Pkt) : State :=
  if p.tc = 0 ∧ ¬spinePath f p.dst.toNat ∧ ¬s.slotDue f p.net p.ep p.dst.toNat then s.updNi f (fun n => { n with tc0 := n.tc0 ++ [p] })
  else s.pushNow f p

/-- A packet stamped in the interface's own epoch and handed on. -/
def State.stamp (s : State) (f : Nat) (p : Pkt) : Pkt := s.stampEp f (s.epOf f) p

/-- A waiting TC0 packet as it is accepted: the pieces of a split transaction and their data keep its epoch (R37). -/
def State.restamp (s : State) (f : Nat) (p : Pkt) : Pkt :=
  let ep := if tracked f && (p.net == .req || (p.net == .dat && (p.opc == 0x18 || p.opc == 0x19 || p.opc == 0x20))) then p.ep
    else s.epOf f
  { s.stampEp f ep p with src := p.src }

/-- The waiting TC0 packets whose acceptance cycle this is, one per network (R95). -/
def State.acceptTc0 (s : State) (f : Nat) : State :=
  ([.req, .rsp, .snp, .dat] : List Net).foldl (fun s net =>
    match (s.nif f).tc0.find? (fun p => p.net == net && s.slotDue f net (s.restamp f p).ep p.dst.toNat) with
    | some p => (s.updNi f (fun n => { n with tc0 := n.tc0.erase p })).pushNow f (s.restamp f p)
    | none => s) s

/-- A request with the domain of its own interface in SD (R196). -/
def State.ownSd (s : State) (f : Nat) (p : Pkt) : Pkt :=
  if p.net = .req then { p with sd := BitVec.ofNat 4 ((s.domainOf (s.epOf f) f).getD 0) } else p

/-- A packet accepted at ingress and injected, a request in the domain of its interface. -/
def State.inject (s : State) (f : Nat) (p : Pkt) : State := s.push f (s.stamp f (s.ownSd f p))

/-! ### Sleeping destinations (R370) -/

/-- A power domain. -/
def State.domain (s : State) (d : Nat) : Dom := SMap.get {} s.dom d

/-- A power domain replaced. -/
def State.setDomain (s : State) (d : Nat) (x : Dom) : State := { s with dom := SMap.set {} s.dom d x }

/-- A level wake reaches a domain, and clears its pending slot (R363, R373). -/
def State.wakeLevel (s : State) (d : Nat) : State :=
  if (s.domain d).st = 0 ∧ (s.domain d).phase = 0 then s else s.setDomain d { s.domain d with wake := true, pend := none }

/-- Power domain of the unit behind a FID: its home, cluster, bank or interface (R359). -/
def unitDomain (f : Nat) : Nat :=
  match quadOf f with
  | some q =>
    if 0xC0 ≤ f ∧ f < 0x100 then 3 + 4 * q
    else if 0x130 ≤ f ∧ f < 0x160 then 4 + 4 * q
    else if 0x160 ≤ f ∧ f < 0x170 then 5 + 4 * q
    else 2 + 4 * q
  | none => 1

/-- The destination is ASLEEP in the current bank of an interface. -/
def State.asleepAt (s : State) (f dst : Nat) : Bool := bitOf (s.dstCell f (s.epOf f) dst) 4

/-- A traffic class is wake-capable at an interface: WAKETC. -/
def State.wakeTc (s : State) (f : Nat) (tc : BitVec 2) : Bool := bitOf (s.ownCell f (s.epOf f)) (4 + tc.toNat)

/-- A packet placed in the hold buffer, and PwrCtl sent to the power controller, whose arrival wakes the domain (R370). -/
def State.holdPkt (s : State) (f : Nat) (p : Pkt) : State :=
  let d := unitDomain p.dst.toNat
  let t := (s.nif f).freshTxid
  let s := (s.updNi f (fun n => { n with hold := n.hold ++ [(p, s.tick)], own := n.own ++ [t] })).count f 27
  s.inject f { net := .req, dst := 0x184, opc := 0x1E, tc := 1, rlx := true, txid := t, addr := BitVec.ofNat 52 d }

/-- A Comp that the interface itself gives its own unit, without a packet. -/
def State.ownComp (s : State) (f : Nat) (p : Pkt) (status : Nat) : State :=
  s.updNi f (fun n => { n with inbox := n.inbox ++
    [{ net := .rsp, dst := BitVec.ofNat 10 f, src := p.dst, opc := 0x10, txid := p.txid, slice := p.slice,
       status := BitVec.ofNat 8 status }] })

/-- A packet of an internal unit with its traffic class chosen; a request towards a sleeping domain is held, or answered
DOMAIN_ASLEEP into the unit's own inbox. -/
def State.sendTc (s : State) (f : Nat) (p : Pkt) : State :=
  let p := s.ownSd f p
  if p.net = .req ∧ p.dst ≠ 0x3FF ∧ s.asleepAt f p.dst.toNat then
    if s.wakeTc f p.tc ∧ (s.nif f).hold.length < 32 then s.holdPkt f p
    else
      ((if s.wakeTc f p.tc then s.bump .PWR_HOLD_OVF else s).count f 28).ownComp f p 3
  else s.inject f p

/-- A packet of an internal unit: TC from VCMAP, the sender's domain in SD. -/
def State.send (s : State) (f : Nat) (p : Pkt) : State :=
  s.sendTc f { p with tc := s.tcOf f (s.epOf f) p.net p.opc.toNat }

/-- An Intr of a spine unit, under a TXID of its own (R48). -/
def State.ownIntr (s : State) (f dst vec : Nat) : State :=
  let t := (s.nif f).freshTxid
  (s.updNi f (fun n => { n with own := n.own ++ [t] })).send f
    { net := .req, dst := BitVec.ofNat 10 dst, opc := 0x1A, txid := t, rlx := true, addr := BitVec.ofNat 52 vec }

/-- An interface reports a fault: the report is recorded and sent as FaultRpt at TC1 (R334); a spine unit reports inside
the spine. -/
def State.raiseNi (s : State) (f cls lvl : Nat) (detail : Nat := 0) (inj : Bool := false) (u : Option UnitRef := none) :
    State :=
  let unit := u.getD (fidUnit f)
  if 0x180 ≤ f then s.raiseSpine 28 cls lvl unit detail inj
  else
    let before := (s.nif f).reports.length
    let s := s.updNi f (fun n => n.report
      { src := 32 * groupOf unit + cls, level := s.raisedLevel cls lvl, unit := unit, detail := detail, inj := inj,
        det := s.tick, sent := s.tick })
    if before < 4 then
      match (s.nif f).reports.getLast? with
      | some r => s.inject f (r.pkt 0)
      | none => s
    else s

/-- The first error of a unit is captured with its header; later ones only count (R74, R79). -/
def State.capture (s : State) (cap lo hi : Reg) (base port net vc code : Nat) (hdr : Nat) : State :=
  s.latchWords cap [(cap, port + net * 2 ^ 3 + vc * 2 ^ 5 + code * 2 ^ 8 + 2 ^ 31), (lo, fld hdr 0 32), (hi, fld hdr 32 32)] base

/-- NI_ERR_CAP (R79). -/
def State.captureNi (s : State) (f code : Nat) (p : Pkt) : State :=
  s.capture .NI_ERR_CAP .NI_ERR_HDR_LO .NI_ERR_HDR_HI (niBase f) 0 (netCode p.net) p.vc.toNat code p.header

/-- RTR_ERR_CAP (R79). -/
def State.captureRtr (s : State) (n port code : Nat) (p : Pkt) : State :=
  s.capture .RTR_ERR_CAP .RTR_ERR_HDR_LO .RTR_ERR_HDR_HI (rtrBase n) port (netCode p.net) p.vc.toNat code p.header

/-! ### Answers (R57, R58) -/

/-- The Comp that answers a request (R58). -/
def compFor (q : Pkt) (status : Nat) (cnt : Nat := 0) (ops : List Word64 := []) : Pkt :=
  { net := .rsp, dst := q.src, opc := 0x10, txid := q.txid, slice := q.slice, status := BitVec.ofNat 8 status,
    cnt := BitVec.ofNat 8 cnt, len := if ops.isEmpty then 0 else 1, ops := ops }

/-- Data granting a state, for the request (R55, R116). -/
def dataFor (q : Pkt) (granted : Nat) (bytes : List Byte) (poison : Bool := false) : Pkt :=
  { net := .dat, dst := q.src, opc := BitVec.ofNat 6 (8 + granted), txid := q.txid, slice := q.slice,
    data := bytes, psn := poison, be := BitVec.allOnes 64 }

/-- A slice's counter of an answer status: DENIED, DOMAIN_ASLEEP, TIMEOUT (R390). -/
def State.countAnswer (s : State) (sl status : Nat) : State :=
  if status = 1 then s.countSlice sl 7 else if status = 3 then s.countSlice sl 8
  else if status = 7 then s.countSlice sl 9 else s

/-- A unit answers a request with Comp. -/
def State.answer (s : State) (f : Nat) (q : Pkt) (status : Nat) (cnt : Nat := 0) (ops : List Word64 := []) : State :=
  (s.send f (compFor q status cnt ops)).countAnswer q.slice.toNat status

/-! ### Checks open to injection (R353, R354) -/

/-- An injection is armed at this checker. -/
def State.injHit (s : State) (u : UnitRef) (chk : Nat) (port : Option Nat := none) : Bool :=
  match s.fc.inject with
  | some j => decide (j.unit = u) && j.chk == chk && decide (0 < j.left) && (port.isNone || port == some j.port)
  | none => false

/-- One check of the injected error used up. -/
def State.injUse (s : State) : State :=
  match s.fc.inject with
  | some j =>
    let s := s.setRf .FC_INJ_LEFT 0 8 (j.left - 1)
    if j.left ≤ 1 then { s with fc := { s.fc with inject := none } }
    else { s with fc := { s.fc with inject := some { j with left := j.left - 1 } } }
  | none => s

/-- What a SECDED check finds once an armed injection has acted: the error, whether it was injected, and the state. -/
def State.checkWord (s : State) (u : UnitRef) (chk : Nat) (err : WordErr) (port : Option Nat := none) :
    WordErr × Bool × State :=
  if err = .clean ∧ s.injHit u chk port then
    match s.fc.inject with
    | some j => (if j.two then .uncorrectable else .corrected, true, s.injUse)
    | none => (err, false, s)
  else (err, false, s)

/-- The check of the banked table entries that a decision of a unit reads: TABLE_ECC at L0 when one is corrected, at L2 when
one is uncorrectable, and then the unit is to be fenced (R332, R353). -/
def State.tableCheck (s : State) (u : UnitRef) (err : WordErr) (port : Nat := 0) : WordErr × State :=
  let raise (s : State) (lvl : Nat) (inj : Bool) : State :=
    if u.node then s.raiseRtr u.id 2 lvl port inj else s.raiseNi u.id 2 lvl 0 inj
  match s.checkWord u 4 err with
  | (.clean, _, s) => (.clean, s)
  | (.corrected, inj, s) => (.corrected, raise s 0 inj)
  | (.uncorrectable, inj, s) => (.uncorrectable, raise s 2 inj)

end Sys2Proof.Machine
end

