-- ==== Sys2Proof/Machine/Arbiter.lean ====
section
/-! DEFINITION. The one arbiter design of the fabric (R80 to R92): levels, rotation, bursts, quotas, wait counters. -/

namespace Sys2Proof.Machine

/-- The fused default entry (R92); `wb` is WB_QUOTA, 255 at a home. -/
def arbDefault (wb : Nat) : Nat := 0xFF010101 + 0x0100400A * 2 ^ 32 + (0x1004 + wb * 2 ^ 16) * 2 ^ 64

/-- The ARB entry that a site applies (R90 to R92). -/
def State.arbEntry (s : State) (site : ArbSite) : Nat :=
  match site with
  | .router n net out =>
    if s.epo.first then s.tab (bankOf s.epo.cur) 3 n 0 (8 * netCode net + out.val) else arbDefault 0
  | .home k => if s.epo.first then s.tab (bankOf s.epo.cur) 3 (0xC0 + k.val) 0 0 else arbDefault 255
  | .bank n b => if s.epo.first then s.tab (bankOf s.epo.cur) 3 (0x160 + n.val) 0 b.val else arbDefault 0

/-- BURST_TC1, BURST_BULK, BURST_ESC, QUOTA, WINDOW_LOG2 and WB_QUOTA of an entry (R90). -/
def burstTc1 (e : Nat) : Nat := fld e 0 8
/-- BURST_BULK (R90). -/
def burstBulk (e : Nat) : Nat := fld e 8 8
/-- BURST_ESC (R90). -/
def burstEsc (e : Nat) : Nat := fld e 16 8
/-- QUOTA (R90). -/
def arbQuota (e : Nat) : Nat := fld e 24 8
/-- WINDOW_LOG2 (R90). -/
def windowLog2 (e : Nat) : Nat := fld e 32 4
/-- WB_QUOTA (R90). -/
def wbQuota (e : Nat) : Nat := fld e 80 8

/-- Wait limit of a kind, in the order EPOCH, RAS, ESC, SAF (R86, R90). -/
def arbLimit (e kind : Nat) : Nat :=
  if kind = 0 then fld e 40 10 else if kind = 1 then fld e 50 10 else if kind = 2 then fld e 60 10 else fld e 70 10

/-- Kind of a privileged head packet: 0 EPOCH, 1 RAS, 2 ESC, 3 SAF (R86). -/
def privKind (p : Pkt) : Option Nat :=
  let req := p.net = .req
  if req ∧ (p.opc = 0x1B ∨ p.opc = 0x1C) then some 0
  else if (req ∧ (p.opc = 0x1D ∨ p.opc = 0x1E)) ∨ p.src = 0x183 ∨ p.src = 0x184 then some 1
  else if p.vc = 0 then some 2
  else if (req ∧ p.opc = 0x14) ∨ p.src = 0x181 ∨ p.dst = 0x181 then some 3
  else none

/-- One requester of a decision: its index, its level after masking, its burst limit, its privilege, and which count its
grant enters: 1 TC1, 2 writeback. -/
structure ArbReq where
  idx   : Nat
  level : Nat
  burst : Nat
  kind  : Option Nat := none
  enters : Nat := 0
  deriving DecidableEq, Repr

/-- Distance of an index from the rotation pointer among `n` requesters (R83). -/
def rotDist (n ptr idx : Nat) : Nat := (idx + n - ptr) % n

/-- The requester with the least key; the earlier one on a tie. -/
def pickMin (key : ArbReq → Nat) : List ArbReq → Option ArbReq
  | [] => none
  | r :: rs =>
    match pickMin key rs with
    | some r' => if key r' < key r then some r' else some r
    | none => some r

/-- Requesters whose wait has reached the limit of their kind (R88). -/
def forcedOf (entry : Nat) (a : Arb) (rs : List ArbReq) : List ArbReq :=
  rs.filter (fun r => match r.kind with
    | some k => decide (arbLimit entry k ≤ SMap.get 0 a.waits r.idx)
    | none => false)

/-- The winner of a decision, whether it is forced, and whether it is a new grant (R82, R83, R84, R88): a forced owner goes on
to the end of its packet; then the forced requesters; then the owner within its burst; then the levels. -/
def arbWinner (entry n : Nat) (a : Arb) (rs : List ArbReq) : Option (ArbReq × Bool × Bool) :=
  match rs.find? (fun r => a.forced && a.holder == some r.idx) with
  | some r => some (r, true, false)
  | none =>
    match pickMin (fun r => (r.kind.getD 4) * n + rotDist n a.ptr r.idx) (forcedOf entry a rs) with
    | some r => some (r, true, true)
    | none =>
      match rs.find? (fun r => a.holder == some r.idx && decide (a.used < r.burst)) with
      | some r => some (r, false, false)
      | none => (pickMin (fun r => r.level * n + rotDist n a.ptr r.idx) rs).map (fun r => (r, false, true))

/-- The wait counters after a cycle in which the privileged requesters but `won` requested and sent nothing (R87). -/
def waitsAfter (waits : SMap Nat) (rs : List ArbReq) (won : Option Nat) : SMap Nat :=
  rs.foldl (fun m q => if q.kind.isSome ∧ some q.idx ≠ won
    then SMap.set 0 m q.idx (min (SMap.get 0 m q.idx + 1) 1023) else m)
    (match won with | some i => SMap.set 0 waits i 0 | none => waits)

/-- The instance after a decision: grant, pointer, counts and wait counters (R84, R85, R87). -/
def arbAfter (n : Nat) (a : Arb) (rs : List ArbReq) (w : ArbReq × Bool × Bool) : Arb :=
  let (r, forced, new) := w
  { a with
    holder := some r.idx
    used := if new then 1 else a.used + 1
    forced := forced
    ptr := if new ∧ ¬forced then (r.idx + 1) % n else a.ptr
    tc1 := if new ∧ r.enters = 1 then a.tc1 + 1 else a.tc1
    wb := if new ∧ r.enters = 2 then a.wb + 1 else a.wb
    waits := waitsAfter a.waits rs (some r.idx) }

/-- The arbiter of a site. -/
def State.arb (s : State) (site : ArbSite) : Arb := SMap.get {} s.arbs (arbBase site)

/-- The arbiter of a site replaced. -/
def State.setArb (s : State) (site : ArbSite) (a : Arb) : State :=
  { s with arbs := SMap.set {} s.arbs (arbBase site) a }

/-- No grant stands (R82). -/
def Arb.idle (a : Arb) : Arb := { a with holder := none, used := 0, forced := false }

/-- The grant of a site ends: the owner dropped its request, its packet was discarded, or its forced packet has passed (R82,
R88). -/
def State.endGrant (s : State) (site : ArbSite) : State := s.setArb site (s.arb site).idle

/-- A quota of the entry masks requesters in the running window (R85). -/
def quotaMasks (e : Nat) (a : Arb) : Bool := decide (arbQuota e ≤ a.tc1) || (wbQuota e != 0 && decide (wbQuota e ≤ a.wb))

/-- ARB_MASKWIN counts a window once, when a quota first masks requesters in it (R92). -/
def State.noteMask (s : State) (site : ArbSite) : State :=
  let a := s.arb site
  if quotaMasks (s.arbEntry site) a ∧ ¬a.maskSeen then
    (s.setArb site { a with maskSeen := true }).bump .ARB_MASKWIN (arbBase site)
  else s

/-- The site has already decided, or served a slot, in this FCLK (R80, R96). -/
def State.arbDone (s : State) (site : ArbSite) : Bool := (s.arb site).at_ == s.tick + 1

/-- A slot takes the cycle of a site: no arbitration, and the grant goes on (R82, R96). -/
def State.arbSlot (s : State) (site : ArbSite) : State := s.setArb site { s.arb site with at_ := s.tick + 1 }

/-- The decision of a site in one FCLK: the winner, and the state with the instance, ARB_FORCED and ARB_MASKWIN advanced; with no
requester the owner has dropped its request (R82). -/
def State.arbitrate (s : State) (site : ArbSite) (n : Nat) (rs : List ArbReq) : Option ArbReq × State :=
  let a := s.arb site
  if s.arbDone site then (none, s)
  else match arbWinner (s.arbEntry site) n a rs with
  | none => (none, s.endGrant site)
  | some w =>
    let s := s.setArb site { arbAfter n a rs w with at_ := s.tick + 1 }
    let s := if w.2.1 ∧ w.2.2 then s.bump .ARB_FORCED (arbBase site) else s
    (some w.1, s.noteMask site)

/-- The arbiter site of a register block (R92). -/
def siteOf (base : Nat) : Option ArbSite :=
  if 0x200000 ≤ base ∧ base < 0x320000 then
    let n := (base - 0x200000) / 0x2000
    let r := (base - rtrBase n - 0x100) / 0x20
    if hn : n < 144 then if ho : r % 8 < 7 then some (.router ⟨n, hn⟩ (netOf (r / 8)) ⟨r % 8, ho⟩) else none else none
  else if 0x800000 ≤ base ∧ base < 0xC00000 then
    let k := (base - 0x800000) / 0x10000
    if hk : k < 64 then some (.home ⟨k, hk⟩) else none
  else if 0xC00000 ≤ base ∧ base < 0xD00000 then
    let n := (base - 0xC00000) / 0x10000
    let b := (base - ssbBase n - 0x800) / 0x20
    if hn : n < 16 then if hb : b < 4 then some (.bank ⟨n, hn⟩ ⟨b, hb⟩) else none else none
  else none

/-- Every instance under the entries now in effect: at the switch time, requesters whose count stands at or above the new quota
are masked (R91). -/
def State.maskAll (s : State) : State :=
  (SMap.keys s.arbs).foldl (fun s b => match siteOf b with | some site => s.noteMask site | none => s) s

end Sys2Proof.Machine
end

