-- ==== Sys2Proof/Machine/HomeOps.lean ====
section
/-! DEFINITION. The parts of a home slice: directory, pseudo-LRU, tracker, writeback buffers, snoops, predictor and the
atomic unit (R134 to R195). -/

namespace Sys2Proof.Machine

/-- LINE of the line that a packet's address lies in. -/
def Pkt.line51 (q : Pkt) : BitVec 46 := BitVec.ofNat 46 (q.addr.toNat / 64)

/-- FID of home slice k. -/
def homeFid (k : Nat) : Nat := 0xC0 + k

/-- FID of a cache index (R134). -/
def cacheFid (i : Nat) : Nat := if i < 128 then i else if i < 192 then 0x80 + (i - 128) else 0x120 + (i - 192)

/-- Every caching port, in index order. -/
def cachingFids : List Nat := (List.range 198).map cacheFid

/-- Bucket of a line, that is of PA[51:6] (R158). -/
def bucketOf (line : Nat) : Nat :=
  fld line 0 12 ^^^ fld line 12 12 ^^^ fld line 24 12 ^^^ fld line 36 10

/-- Interleave entry of a bucket as a unit holds it (R159). -/
def State.ilv (s : State) (unit : Nat) (ep : Bool) (b : Nat) : Nat := s.tab (bankOf ep) 4 unit 0 b

/-- Home slice k. -/
def State.hm (s : State) (k : Nat) : Home := SMap.get {} s.home k

/-- Home slice k replaced. -/
def State.setHm (s : State) (k : Nat) (h : Home) : State := { s with home := SMap.set {} s.home k h }

/-- Home slice k changed. -/
def State.updHm (s : State) (k : Nat) (g : Home → Home) : State := s.setHm k (g (s.hm k))

/-- A unit counter of a home slice (R390). -/
def State.countHome (s : State) (k j : Nat) (n : Nat := 1) : State := s.count (homeFid k) (64 + j) n

/-! ### Directory (R147, R148) -/

/-- SET of a line (R147). -/
def dirSet (line : Nat) : Nat := fld line 0 13 ^^^ fld line 13 13
/-- TAG of a line (R147). -/
def dirTag (line : Nat) : Nat := fld line 13 33
/-- The line of a directory way (R147). -/
def dirLine (set tag : Nat) : Nat := (set ^^^ fld tag 0 13) + tag * 2 ^ 13

/-- Key of a directory way. -/
def dirKey (k set way : Nat) : Nat := (8192 * k + set) * 12 + way

/-- A directory way. -/
def State.dirWay (s : State) (k set way : Nat) : Option DirEnt := SMap.get none s.dir (dirKey k set way)

/-- A directory way written or freed. -/
def State.setDir (s : State) (k set way : Nat) (e : Option DirEnt) : State :=
  { s with dir := SMap.set none s.dir (dirKey k set way) e }

/-- The way that holds a line. -/
def State.dirFind (s : State) (k line : Nat) : Option (Nat × DirEnt) :=
  (List.range 12).findSome? (fun w => match s.dirWay k (dirSet line) w with
    | some e => if e.tag = dirTag line then some (w, e) else none
    | none => none)

/-- The nodes on the way's path through the tree, each with the side that names the way: true is the higher (R147). -/
def plruPath (w : Nat) : List (Nat × Bool) :=
  let g := w / 3
  [(0, decide (6 ≤ w)), (1 + w / 6, decide (3 ≤ w % 6)), (3 + g, w % 3 == 2)]
    ++ (if w % 3 < 2 then [(7 + g, w % 3 == 1)] else [])

/-- A way used: each node on its path names the other side (R147). -/
def State.plruTouch (s : State) (k set way : Nat) : State :=
  { s with plru := SMap.upd 0 s.plru (8192 * k + set) (fun v =>
      (plruPath way).foldl (fun a nb => setFld a nb.1 1 (!nb.2).toNat) v) }

/-- The candidates on one side of a node. -/
def plruSide (node : Nat) (high : Bool) (cs : List Nat) : List Nat :=
  cs.filter (fun w => (plruPath w).contains (node, high))

/-- The candidates left after a node: those on the side that its bit names, or the other side when it has none. -/
def plruStep (bits : Nat) (node : Nat) (cs : List Nat) : List Nat :=
  let a := plruSide node (bitOf bits node) cs
  if a.isEmpty then plruSide node (!bitOf bits node) cs else a

/-- The victim way among candidates, by descending the tree from node 0 (R154). -/
def plruVictim (bits : Nat) (cs : List Nat) : Option Nat :=
  let c1 := plruStep bits 0 cs
  let c2 := match c1.head? with | some w => plruStep bits (1 + w / 6) c1 | none => []
  let c3 := match c2.head? with | some w => plruStep bits (3 + w / 3) c2 | none => []
  match c3.head? with
  | some w => if w % 3 < 2 then (plruStep bits (7 + w / 3) c3).head? else some w
  | none => none

/-- Sharers named by an entry, in the order snoops leave (R142, R148). -/
def DirEnt.sharers (e : DirEnt) : List Nat :=
  if e.cv then
    (List.range 128).filter (fun i => bitOf e.ccv (i / 2))
      ++ ((List.range 64).filter (fun j => bitOf e.lcv (j / 8))).map (128 + ·)
      ++ ((List.range 6).filter (fun j => bitOf e.slv j)).map (192 + ·)
  else e.ptrs

/-- Possible holders: the sharers, and OWNER in EM and OS (R148). -/
def DirEnt.holds (e : DirEnt) (i : Nat) : Bool := e.sharers.contains i || (decide (2 ≤ e.st) && e.owner == i)

/-- The coarse bits of a cache index set. -/
def DirEnt.coarse (e : DirEnt) (i : Nat) : DirEnt :=
  if i < 128 then { e with ccv := e.ccv ||| 2 ^ (i / 2) }
  else if i < 192 then { e with lcv := e.lcv ||| 2 ^ ((i - 128) / 8) }
  else { e with slv := e.slv ||| 2 ^ (i - 192) }

/-- A sharer added, and whether the entry changed to coarse mode (R148). -/
def DirEnt.add (e : DirEnt) (i : Nat) : DirEnt × Bool :=
  if e.sharers.contains i then (e, false)
  else if e.cv then (e.coarse i, false)
  else if e.ptrs.length < 4 then ({ e with ptrs := e.ptrs ++ [i] }, false)
  else ((e.ptrs ++ [i]).foldl DirEnt.coarse { e with cv := true, ptrs := [] }, true)

/-- Write or free the directory entry of a line: at its own way when it has one, else at the given way. -/
def State.putDir (s : State) (k line : Nat) (way : Nat) (e : Option DirEnt) : State :=
  match s.dirFind k line, e with
  | some (w, _), _ => s.setDir k (dirSet line) w e
  | none, some _ => s.setDir k (dirSet line) way e
  | none, none => s

/-- A sharer added to a line's entry. -/
def State.addSharer (s : State) (k line way : Nat) (e : DirEnt) (i : Nat) : State :=
  let (e', c) := e.add i
  let s := s.putDir k line way (some e')
  if c then (s.bump .HS_COARSE_CNT (hsBase k)).countHome k 15 else s

/-! ### Tracker -/

/-- The tracker entry of an HTID. -/
def State.trk (s : State) (k h : Nat) : Option TrkEnt := SMap.get none (s.hm k).trk h

/-- A tracker entry written or freed. -/
def State.setTrk (s : State) (k h : Nat) (e : Option TrkEnt) : State :=
  s.updHm k (fun m => { m with trk := SMap.set none m.trk h e })

/-- A tracker entry changed. -/
def State.updTrk (s : State) (k h : Nat) (g : TrkEnt → TrkEnt) : State :=
  match s.trk k h with | some e => s.setTrk k h (some (g e)) | none => s

/-- The tracker entry of a line. -/
def State.trkOf (s : State) (k line : Nat) : Option (Nat × TrkEnt) :=
  (s.hm k).trk.findSome? (fun he => match he.2 with
    | some e => if e.line = line then some (he.1, e) else none
    | none => none)

/-- The line has a flow: a tracker entry, or waiters or held writebacks that an ended flow left (R143, R154, R178). -/
def State.engaged (s : State) (k line : Nat) : Bool :=
  (s.trkOf k line).isSome || (s.hm k).ready.any (fun r => r.1 == line) || (s.hm k).judge.any (fun j => j.line == line)

/-- The free HTIDs, lowest first; one whose expired entry may still get memory data is not free, so that the data cannot be taken
for that of a new flow (R183). -/
def State.freeTrk (s : State) (k : Nat) : List Nat :=
  (List.range 256).filter (fun h => (s.trk k h).isNone && !(s.hm k).lateMem.contains h)

/-- Tracker entries in use. -/
def Home.use (m : Home) : Nat := m.trk.length
/-- Waiters of all entries. -/
def Home.waiting (m : Home) : Nat :=
  m.trk.foldl (fun a he => a + (match he.2 with | some e => e.waiters.length | none => 0)) 0
    + m.ready.foldl (fun a r => a + r.2.length) 0

/-! ### Packets of a home -/

/-- MP behind which a line lies, from the home's own interleave copy (R160). -/
def State.homeMp (s : State) (k : Nat) (ep : Bool) (line : Nat) : Nat :=
  0x100 + fld (s.ilv (homeFid k) ep (bucketOf line)) 6 4

/-- A packet in the name of another unit: the proxy answers of R184 and R372. -/
def State.injectAs (s : State) (f : Nat) (src : Fid) (p : Pkt) : State :=
  if p.dst.toNat = f then s.updNi f (fun n => { n with inbox := n.inbox ++ [{ p with src := src, arr := s.tick + 1 }] })
  else
    s.push f { s.stamp f { p with tc := s.tcOf f (s.epOf f) p.net p.opc.toNat } with src := src }

/-- The opcode of a request is followed by data. -/
def carriesData (q : Pkt) : Bool :=
  q.opc == 4 || q.opc == 5 || q.opc == 8 || q.opc == 0x13 || q.opc == 0x14 || q.opc == 0x17 || (q.opc == 0x16 && q.len == 0)

/-- The data of a refused write is taken and dropped. -/
def State.sinkData (s : State) (f : Nat) (q : Pkt) : State :=
  if ¬carriesData q then s
  else
    let n := s.nif f
    let mine (p : Pkt) : Bool := p.net == .dat && p.src == q.src && p.txid == q.txid
    match n.inbox.find? mine, n.early.find? mine with
    | some d, _ => s.setNi f { n with inbox := n.inbox.erase d }
    | none, some d => s.setNi f { n with early := n.early.erase d }
    | none, none => s.setNi f { n with sink := n.sink ++ [(q.src, q.txid)] }

/-- The answer that a fenced caching port's interface gives a snoop in its place (R184). -/
def proxyAnswer (snp : Pkt) : Pkt :=
  if snp.opc = 1 then { net := .dat, dst := snp.rqfid, opc := 0x09, txid := snp.txid, slice := snp.slice, line := snp.line,
                        data := zeros 64, psn := true, be := BitVec.allOnes 64 }
  else if snp.opc = 2 then { net := .dat, dst := snp.rqfid, opc := 0x14, txid := snp.txid, slice := snp.slice, line := snp.line,
                             data := zeros 64, psn := true, be := BitVec.allOnes 64 }
  else { net := .rsp, dst := snp.rqfid, opc := 1, txid := snp.txid, slice := snp.slice, line := snp.line, status := 8 }

/-- A unicast snoop issued; towards an ASLEEP port the home's own interface answers it (R372). -/
def State.snoop (s : State) (k opc idx line : Nat) (rq : Fid) (h : Nat) (txid : BitVec 12) (slice : BitVec 6) : State :=
  let f := homeFid k
  let p : Pkt := { net := .snp, dst := BitVec.ofNat 10 (cacheFid idx), opc := BitVec.ofNat 6 opc, txid := txid,
                   slice := slice, line := BitVec.ofNat 46 line, rqfid := rq, htid := BitVec.ofNat 8 h }
  let s := s.countHome k 8
  if bitOf (s.dstCell f (s.epOf f) (cacheFid idx)) 4 then s.injectAs f p.dst (proxyAnswer p) else s.send f p

/-- `GrantM` (R139). -/
def State.grantM (s : State) (k : Nat) (q : Pkt) (cnt : Nat) (df : Bool) : State :=
  s.send (homeFid k) { net := .rsp, dst := q.src, opc := 7, txid := q.txid, slice := q.slice,
                       cnt := BitVec.ofNat 8 cnt, df := df }

/-- `Nack` with its reason (R156). -/
def State.nack (s : State) (k : Nat) (q : Pkt) (reason : Nat) : State :=
  ((s.send (homeFid k) { net := .rsp, dst := q.src, opc := 5, txid := q.txid, slice := q.slice,
                         cnt := BitVec.ofNat 8 reason }).bump .HS_NACK_CNT (hsBase k)).countHome k 13

/-- PROTOCOL at a home, captured in HS_PROTO_CAP (R195). -/
def State.homeProto (s : State) (k lvl code : Nat) (p : Pkt) (u : UnitRef) : State :=
  let s := s.latchWords .HS_PROTO_CAP
    [(.HS_PROTO_CAP, code + netCode p.net * 2 ^ 4 + p.opc.toNat * 2 ^ 6 + p.src.toNat * 2 ^ 12 + 2 ^ 31)] (hsBase k)
  s.raiseNi (homeFid k) 6 lvl p.txid.toNat false (some u)

/-- Code of a line's state at its home (R176). -/
def State.homeCode (s : State) (k line : Nat) : Nat :=
  match s.trkOf k line with
  | some (_, e) => e.st.code
  | none => match s.dirFind k line with | some (_, d) => d.st | none => 0

/-! ### Writeback buffers (R145, R177) -/

/-- The writeback buffers that hold a line, oldest first. -/
def Home.bufsOf (m : Home) (line : Nat) : List (Nat × Wbuf) :=
  sortOn (fun b => b.2.age) (m.wbufs.filterMap (fun iw => match iw.2 with
    | some w => if w.line = line then some (iw.1, w) else none
    | none => none))

/-- The newest data of a line on its way to memory: of a line that waits for a buffer, else of the newest buffer (R177). -/
def Home.newest (m : Home) (line : Nat) : Option Wbuf :=
  match (m.wbWait.filter (fun w => w.line == line)).getLast? with
  | some w => some w
  | none => (m.bufsOf line).getLast?.map (·.2)

/-- `PutM` and `PutO` among held writebacks: each holds a writeback buffer (R178). -/
def heldBufs (ps : List (Pkt × List Byte × Bool)) : Nat := (ps.filter (fun q => q.1.opc != 6)).length

/-- Writeback buffers in use, those that hold held writebacks included (R145, R178). -/
def Home.bufsUsed (m : Home) : Nat :=
  m.wbufs.length + (m.trk.map (fun he => match he.2 with | some e => heldBufs e.held | none => 0)).sum
    + (m.judge.map (fun j => heldBufs j.puts)).sum

/-- The next MemWr of a line is issued unless one is outstanding (R177). -/
def State.issueWr (s : State) (k line : Nat) : State :=
  let bs := (s.hm k).bufsOf line
  if bs.any (fun b => b.2.sent) then s
  else match bs.head? with
    | none => s
    | some (i, w) =>
      let mp := BitVec.ofNat 10 (s.homeMp k w.ep line)
      let tx := BitVec.ofNat 12 (256 + i)
      let s := s.updHm k (fun m => { m with wbufs := SMap.set none m.wbufs i (some { w with sent := true }) })
      let s := s.send (homeFid k) { net := .req, dst := mp, opc := 0x11, txid := tx, size := 6, rlx := true, slice := w.slice,
                                    addr := BitVec.ofNat 52 (line * 64) }
      (s.send (homeFid k) { net := .dat, dst := mp, opc := 0x18, txid := tx, slice := w.slice, data := w.data, psn := w.poison,
                            be := BitVec.allOnes 64 }).countHome k 7

/-- A line that waits takes a writeback buffer, one of 32, while one is free; its MemWr follows in turn (R145). -/
def State.fillWb (s : State) (k : Nat) : State :=
  let m := s.hm k
  match m.wbWait, (List.range 32).find? (fun i => (SMap.get none m.wbufs i).isNone) with
  | w :: rest, some i =>
    if m.bufsUsed < 32 then
      (s.setHm k { m with wbufs := SMap.set none m.wbufs i (some w), wbWait := rest }).issueWr k w.line
    else s
  | _, _ => s

/-- A line on its way to memory: it takes a writeback buffer, or waits for one. -/
def State.addWb (s : State) (k : Nat) (w : Wbuf) : State :=
  (s.updHm k (fun m => { m with wbWait := m.wbWait ++ [{ w with age := m.age, sent := false }], age := m.age + 1 })).fillWb k

/-- A writeback buffer frees, and a line that waits takes it. -/
def State.freeWb (s : State) (k i : Nat) : State :=
  (s.updHm k (fun m => { m with wbufs := SMap.set none m.wbufs i none })).fillWb k

/-- Line data of the entry has still to come from memory. -/
def TrkEnt.memDue (e : TrkEnt) : Bool := (e.memRd || e.wantRd) && e.buf.isNone

/-- Line buffers in use, of 16: reserved for memory data, or holding a line (R144). -/
def Home.lineBufs (m : Home) : Nat :=
  (m.trk.filter (fun he => match he.2 with | some e => e.memRd || e.buf.isSome | none => false)).length

/-- MemRd for the line of an entry, whose line buffer is reserved (R144). -/
def State.readLineMem (s : State) (k h : Nat) (e : TrkEnt) : State :=
  let s := s.setTrk k h (some { e with memRd := true, wantRd := false })
  (s.send (homeFid k) { net := .req, dst := BitVec.ofNat 10 (s.homeMp k e.req.ep e.line), opc := 0x10, size := 6,
                        rlx := true, txid := BitVec.ofNat 12 h, slice := e.req.slice,
                        addr := BitVec.ofNat 52 (e.line * 64) }).countHome k 6

/-- Line data for a flow: from the newest writeback buffer, or by MemRd, which waits while every line buffer is in use (R144,
R177). -/
def State.needLine (s : State) (k h : Nat) : State :=
  match s.trk k h with
  | none => s
  | some e =>
    match (s.hm k).newest e.line with
    | some w => s.setTrk k h (some { e with buf := some (w.data, w.poison) })
    | none => if (s.hm k).lineBufs < 16 then s.readLineMem k h e else s.setTrk k h (some { e with wantRd := true })

/-- The entry that has waited longest for a line buffer reads its line, once one is free (R144). -/
def State.readWaiting (s : State) (k : Nat) : State :=
  let ws := (s.hm k).trk.filterMap (fun he => match he.2 with
    | some e => if e.wantRd then some (he.1, e) else none
    | none => none)
  match sortOn (fun he : Nat × TrkEnt => he.2.start) ws with
  | (h, e) :: _ => if (s.hm k).lineBufs < 16 then s.readLineMem k h e else s
  | [] => s

/-! ### Atomics (R186, R187) -/

/-- The value of an operand of `size` bytes read as signed. -/
def signedOf (size v : Nat) : Int := if v < 2 ^ (8 * size - 1) then v else (v : Int) - 2 ^ (8 * size)

/-- New value of an atomic operation on `size` bytes (R186); codes 0xA to 0xF are refused before. -/
def aopResult (aop size old a b : Nat) : Nat :=
  let m := 2 ^ (8 * size)
  let a := a % m
  let b := b % m
  match aop with
  | 0 => (old + a) % m
  | 1 => old &&& a
  | 2 => old ||| a
  | 3 => old ^^^ a
  | 4 => a
  | 5 => if old = a then b else old
  | 6 => if signedOf size old < signedOf size a then a else old
  | 7 => if signedOf size a < signedOf size old then a else old
  | 8 => max old a
  | _ => min old a

/-- A list of bytes with some replaced from an offset on. -/
def patch (bs : List Byte) (off : Nat) (new : List Byte) : List Byte :=
  bs.take off ++ new ++ bs.drop (off + new.length)

/-- The bytes of a line that a piece covers: its offset in the line and its length (R114). -/
def pieceSpan (q : Pkt) : Nat × Nat := (q.addr.toNat % 64, 2 ^ q.size.toNat)

/-- A line with the bytes of a write merged by its byte enables. -/
def mergeLine (old new : List Byte) (be : Word64) : List Byte :=
  (List.range 64).map (fun i => if be.getLsbD i then new.getD i 0 else old.getD i 0)

/-- Byte enables of a span. -/
def spanBe (off n : Nat) : Word64 := BitVec.ofNat 64 ((2 ^ n - 1) * 2 ^ off)

/-! ### Predictor (R192, R193) -/

/-- Predictor index of a line (R192). -/
def predIdx (line : Nat) : Nat := fld line 0 11 ^^^ fld line 11 11
/-- Predictor tag of a line (R192). -/
def predTag (line : Nat) : Nat := fld line 22 12

/-- HOT as a decision of this cycle uses it: in the cycle of a window's end, as before the update (R193). -/
def State.hotNow (s : State) (k : Nat) (e : PredEnt) : Bool := if (s.hm k).winAt = s.tick + 1 then e.was else e.hot

/-- One more transfer in an entry, in FCLK `t`. -/
def PredEnt.record (e : PredEnt) (t : Nat) : PredEnt :=
  { e with count := min (e.count + 1) 63, recent := if e.recAt = t + 1 then e.recent + 1 else 1, recAt := t + 1 }

/-- One transfer recorded (R193). -/
def State.predRecord (s : State) (k line : Nat) : State :=
  let key := 2048 * k + predIdx line
  let fresh : PredEnt := ({ tag := predTag line } : PredEnt).record s.tick
  match SMap.get none s.pred key with
  | some e =>
    if e.tag = predTag line then { s with pred := SMap.set none s.pred key (some (e.record s.tick)) }
    else if s.hotNow k e then s.bump .HS_PRED_DROP (hsBase k)
    else { s with pred := SMap.set none s.pred key (some fresh) }
  | none => { s with pred := SMap.set none s.pred key (some fresh) }

/-- The line's predictor entry hits with HOT = 1 (R188). -/
def State.predHot (s : State) (k line : Nat) : Bool :=
  match SMap.get none s.pred (2048 * k + predIdx line) with
  | some e => e.tag == predTag line && s.hotNow k e
  | none => false

/-- FEAT of an SL port's common word (R122, R123). -/
def State.slFeat (s : State) (f : Nat) : Nat := s.rf .NI_SLCAP_COMMON 9 8 (niBase f)

/-- An `AtomAuto` is decided near (R188). -/
def State.atomNear (s : State) (k : Nat) (q : Pkt) (line : Nat) : Bool :=
  let src := q.src.toNat
  let mode := s.rf .HS_ATOM_CTRL 0 2 (hsBase k)
  if 0x120 ≤ src ∧ src < 0x126 ∧ !bitOf (s.slFeat src) 0 then true
  else if mode = 1 then true
  else if mode = 2 then false
  else !s.predHot k line

end Sys2Proof.Machine
end

