-- ==== Sys2Proof/Machine/HomeFlow.lean ====
section
/-! DEFINITION. The flows of a home slice: decisions in stable states, directory eviction, reconstruct mode, the
completion of a gathered line, writebacks, the end of a flow and the fence of a home (R150 to R190). -/

namespace Sys2Proof.Machine

/-- The Comp that ends a flow with a status. -/
def State.homeComp (s : State) (k : Nat) (q : Pkt) (status : Nat) : State := s.answer (homeFid k) q status

/-! ### Writebacks (R152, R163, R178) -/

/-- `PutAck` or `PutAckStale` to an evictor. -/
def State.putAck (s : State) (k : Nat) (q : Pkt) (stale : Bool) : State :=
  let s := s.send (homeFid k) { net := .rsp, dst := q.src, opc := if stale then 4 else 3, txid := q.txid, slice := q.slice }
  if stale then (s.bump .HS_STALE_CNT (hsBase k)).countHome k 14 else s

/-- An accepted writeback: its data goes to memory and `PutAck` follows the memory port's Comp; `PutE` at once (R145). -/
def State.acceptPut (s : State) (k : Nat) (q : Pkt) (data : List Byte) (poison : Bool) : State :=
  if q.opc = 6 then s.putAck k q false
  else s.addWb k { line := q.addr.toNat / 64, data := data, poison := poison, ep := q.ep, slice := q.slice, put := some q }

/-- A writeback judged against the directory, a read of the line's way, which is used (R147, R152, R178); `unknown`: at an unknown
line of a bucket in reconstruct mode it is accepted (R163). -/
def State.judgePut (s : State) (k : Nat) (q : Pkt) (data : List Byte) (poison unknown : Bool) : State :=
  let line := q.addr.toNat / 64
  match s.dirFind k line with
  | some (w, d) =>
    let s := s.plruTouch k (dirSet line) w
    if 2 ≤ d.st ∧ cacheIdx q.src.toNat = some d.owner then
      let rest := d.sharers.filter (· != d.owner)
      let e' : Option DirEnt := if rest.isEmpty then none else some { d with st := 1, owner := 0 }
      (s.setDir k (dirSet line) w e').acceptPut k q data poison
    else s.putAck k q true
  | none =>
    if unknown && (s.hm k).recon.contains (bucketOf line) then s.acceptPut k q data poison else s.putAck k q true

/-! ### The end of a flow (R143, R178) -/

/-- The flow of an entry ends: its held writebacks are to be judged, and then its waiters can enter again (R178). -/
def State.endFlow (s : State) (k h : Nat) : State :=
  match s.trk k h with
  | none => s
  | some e =>
    (s.setTrk k h none).updHm k (fun m => { m with
      judge := if e.held.isEmpty then m.judge else m.judge ++ [⟨e.line, e.st == .bkt, e.held⟩]
      ready := if e.waiters.isEmpty then m.ready else m.ready ++ [(e.line, e.waiters)]
      before := m.before.erase (e.req.src, e.req.txid) })

/-- The directory entry of a line as it stood before the request (R153, R183). -/
def State.restoreDir (s : State) (k : Nat) (e : TrkEnt) : State :=
  s.putDir k e.line (e.way.getD 0) e.prior

/-! ### Completion of a decision that waited for the line (R150, R179, R190) -/

/-- A `WritePass` or far atomic leaves its line in I: the way frees (R150, R190).  Until the flow ends the way stays the line's, so
that a failed MemWr leaves the directory as it was (R153). -/
def State.dropDir (s : State) (k : Nat) (e : TrkEnt) : State := s.putDir k e.line 0 none

/-- The far execution on a gathered line; a poisoned one is not operated on (R190). -/
def State.farExecute (s : State) (k h : Nat) (e : TrkEnt) (data : List Byte) (poison : Bool) : State :=
  let s := s.dropDir k e
  if poison then
    let s := if (e.prior.map (·.st)).getD 0 ≥ 2 then s.addWb k { line := e.line, data := data, poison := true, ep := e.req.ep, slice := e.req.slice }
      else s
    (s.homeComp k e.req 6).endFlow k h
  else
    let s := ((s.bump .HS_ATOM_FAR (hsBase k)).countHome k 12).predRecord k e.line
    let (off, n) := pieceSpan e.req
    let old := leNat ((data.drop off).take n)
    let a := (e.req.ops.getD 0 0).toNat
    let b := (e.req.ops.getD 1 0).toNat
    let s := s.addWb k { line := e.line, ep := e.req.ep, slice := e.req.slice,
                         data := patch data off (leBytes n (aopResult e.req.aop.toNat n old a b)) }
    let s := s.send (homeFid k) { net := .rsp, dst := e.req.src, opc := 6, txid := e.req.txid, slice := e.req.slice,
                                  len := 2, ops := [BitVec.ofNat 64 old] }
    s.endFlow k h

/-- The merged line of a `WritePass` goes to memory; its Comp follows the memory port's (R150). -/
def State.writePassOut (s : State) (k h : Nat) (e : TrkEnt) (old : List Byte) (poison : Bool) : State :=
  let (off, n) := pieceSpan e.req
  let s := s.setTrk k h (some { e with st := .wru, granted := true, memRd := false, buf := none })
  s.addWb k { line := e.line, data := mergeLine old e.wdata (spanBe off n),
              poison := (poison && e.req.size != 6) || e.wpoison, ep := e.req.ep, slice := e.req.slice, flow := some h }

/-- A flow that has gathered its line goes on: the grant of R150, the write of a `WritePass`, or the far execution. -/
def State.complete (s : State) (k h : Nat) : State :=
  match s.trk k h with
  | none => s
  | some e =>
    let (data, poison) := e.buf.getD (zeros 64, false)
    let grant (g : Nat) (s : State) : State :=
      (s.send (homeFid k) (dataFor e.req g data poison)).setTrk k h
        (some { e with st := .ack, granted := true, memRd := false, buf := none })
    if e.req.opc = 1 then grant (if e.prior.isNone then 2 else 1) s
    else if e.req.opc = 7 then grant 0 s
    else if e.req.opc = 8 then s.writePassOut k h e data poison
    else if e.req.opc = 10 ∨ (e.req.opc = 9 ∧ ¬e.granted) then s.farExecute k h e data poison
    else grant 4 s

/-- The line is gathered already, or the memory read is outstanding: the flow goes on or waits in H_MEM. -/
def State.gathered (s : State) (k h : Nat) : State :=
  match s.trk k h with
  | none => s
  | some e =>
    if ¬e.owed.isEmpty then s.setTrk k h (some { e with st := .col })
    else if e.memDue then s.setTrk k h (some { e with st := .mem })
    else s.complete k h

/-! ### Snoops of a flow -/

/-- Snoops of one opcode to a list of caches, in order; `home`: their answers come to the home. -/
def State.snoopAll (s : State) (k h opc : Nat) (idxs : List Nat) (toHome : Bool) (own : Bool := false) : State :=
  match s.trk k h with
  | none => s
  | some e =>
    let rq : Fid := if toHome then BitVec.ofNat 10 (homeFid k) else e.req.src
    let tx : BitVec 12 := if toHome then BitVec.ofNat 12 h else e.req.txid
    let outs := idxs.map (fun i => ({ port := cacheFid i, opc := opc, rq := rq.toNat, own := own } : SnpOut))
    let s := s.setTrk k h (some (if toHome then { e with owed := e.owed ++ outs } else { e with sent := e.sent ++ outs }))
    idxs.foldl (fun s i => s.snoop k opc i e.line rq h tx e.req.slice) s

/-! ### Decisions in stable states (R150, R181) -/

/-- A request that allocates a directory way for a line in I has it; the entry becomes EM with the requester as OWNER. -/
def State.takeWay (s : State) (k h way i : Nat) : State :=
  match s.trk k h with
  | none => s
  | some e =>
    let set := dirSet e.line
    ((s.setDir k set way (some { tag := dirTag e.line, st := 2, owner := i })).plruTouch k set way).setTrk k h
      (some { e with way := some way })

/-- `GetS`, `GetM` or a request served as `GetM`, on a line in I whose way is at hand. -/
def State.serveI (s : State) (k h way : Nat) : State :=
  match s.trk k h with
  | none => s
  | some e =>
    let i := (cacheIdx e.req.src.toNat).getD 0
    let s := s.takeWay k h way i
    if e.req.opc = 1 then (s.needLine k h).gathered k h
    else
      let s := (s.updTrk k h (fun e => { e with granted := true })).grantM k e.req 0 true
      ((s.predRecord k e.line).needLine k h).gathered k h

/-- A way for a request on a line in I: a free one, or a victim's once it is evicted; without a candidate `Nack` SET_FULL; with one
but no free entry for it the request waits (R154, R155). -/
def State.findWay (s : State) (k h : Nat) : State :=
  match s.trk k h with
  | none => s
  | some e =>
    let set := dirSet e.line
    match (List.range 12).find? (fun w => (s.dirWay k set w).isNone) with
    | some w => s.serveI k h w
    | none =>
      let cands := (List.range 12).filter (fun w => match s.dirWay k set w with
        | some d => !s.engaged k (dirLine set d.tag)
        | none => false)
      match plruVictim (SMap.get 0 s.plru (8192 * k + set)) cands, (s.freeTrk k).head? with
      | some w, some hv =>
        match s.dirWay k set w with
        | none => s
        | some d =>
          let s := s.setTrk k h (some { e with st := .way, way := some w })
          let s := s.setTrk k hv (some {
            line := dirLine set d.tag, st := .col, req := e.req, col := .victim, prior := some d,
            way := some w, forH := h, start := s.tick })
          let s := ((s.bump .HS_RECALL_CNT (hsBase k)).countHome k 9).countHome k 1
          let own := if 2 ≤ d.st then [d.owner] else []
          let s := s.snoopAll k hv 4 own true true
          s.snoopAll k hv 4 (d.sharers.filter (fun i => !own.contains i)) true
      | some _, none => s.setTrk k h (some { e with st := .way, way := none })
      | none, _ => (s.nack k e.req 0).endFlow k h

/-- The requests that wait for a second entry look again (R154). -/
def State.retryWays (s : State) (k : Nat) : State :=
  ((s.hm k).trk.filterMap (fun he => match he.2 with
    | some e => if e.st = .way ∧ e.way.isNone then some he.1 else none
    | none => none)).foldl (fun s h => s.findWay k h) s

/-- One pass over a line's stable state for the entry's request (R150, R181, R189, R190). -/
def State.serve (s : State) (k h : Nat) : State :=
  match s.trk k h with
  | none => s
  | some e0 =>
    let q := e0.req
    let line := e0.line
    let found := s.dirFind k line
    let d := found.map (·.2)
    let s := s.countHome k (if d.isSome then 4 else 5)
    let s := match found with | some (w, _) => s.plruTouch k (dirSet line) w | none => s
    let near : Bool := q.opc == 9 && s.atomNear k q line
    let s := if near then (s.bump .HS_ATOM_NEAR (hsBase k)).countHome k 11 else s
    let far : Bool := q.opc == 10 || (q.opc == 9 && !near)
    let e := { e0 with prior := d, col := .request, way := (found.map (·.1)).orElse (fun _ => e0.way) }
    let s := s.setTrk k h (some e)
    let i := cacheIdx q.src.toNat
    let owner := match d with | some d => if 2 ≤ d.st then some d.owner else none | none => none
    let isOwner := i.isSome && owner == i
    let holder := match d, i with | some d, some i => d.holds i | _, _ => false
    let sharers := match d with | some d => d.sharers | none => []
    let others := sharers.filter (fun j => some j != i && some j != owner)
    let own := owner.toList
    let st := (d.map (·.st)).getD 0
    let way := e.way.getD 0
    let asGetM : Bool := q.opc == 2 || near || (q.opc == 3 && !holder)
    let em (s : State) : State := s.putDir k line way (some { tag := dirTag line, st := 2, owner := i.getD 0 })
    let granted (s : State) : State := s.updTrk k h (fun e => { e with granted := true })
    let toAck (s : State) : State := s.updTrk k h (fun e => { e with st := .ack, granted := true })
    if isOwner ∧ (q.opc ≠ 3 ∨ st = 2) then
      let s := s.homeProto k 2 st q (fidUnit q.src.toNat)
      (s.homeComp k q 9).endFlow k h
    else if q.opc = 1 then
      if st = 0 then s.findWay k h
      else if st = 1 then
        match d, i with
        | some d, some i => ((s.addSharer k line way d i).needLine k h).gathered k h
        | _, _ => (s.needLine k h).gathered k h
      else
        match d, i with
        | some d, some i => toAck ((s.addSharer k line way { d with st := 3 } i).snoopAll k h 1 own false true)
        | _, _ => toAck (s.snoopAll k h 1 own false true)
    else if asGetM then
      if st = 0 then s.findWay k h
      else if st = 1 then
        let s := (em (granted s)).grantM k q others.length true
        let s := (s.snoopAll k h 3 others false).predRecord k line
        (s.needLine k h).gathered k h
      else
        let s := (em s).snoopAll k h 2 own false true
        let s := (s.snoopAll k h 3 others false).grantM k q others.length true
        toAck (s.predRecord k line)
    else if q.opc = 3 then
      let invs := (if isOwner then [] else own) ++ others
      let s := (em s).snoopAll k h 3 invs false
      toAck ((s.grantM k q invs.length false).predRecord k line)
    else if q.opc = 7 then
      if st ≤ 1 then (s.needLine k h).gathered k h
      else
        let s := match d with | some d => s.putDir k line way (some { d with st := 3 }) | none => s
        toAck (s.snoopAll k h 1 own false true)
    else if q.opc = 8 then
      let whole := q.size = 6
      if st = 0 then
        if whole then s.writePassOut k h e (zeros 64) false else (s.needLine k h).gathered k h
      else if st = 1 then
        let s := s.snoopAll k h 3 sharers true
        (if whole then s else s.needLine k h).gathered k h
      else ((s.snoopAll k h 2 own true true).snoopAll k h 3 others true).gathered k h
    else if far then
      if st = 0 then (s.needLine k h).gathered k h
      else if st = 1 then ((s.snoopAll k h 3 sharers true).needLine k h).gathered k h
      else ((s.snoopAll k h 2 own true true).snoopAll k h 3
        (sharers.filter (fun j => some j != owner)) true).gathered k h
    else s

/-! ### New decisions, buckets and reconstruct mode (R42, R161, R162) -/

/-- Caching ports UP and not fenced: HS_CACHEPORTS, less those ASLEEP (R162, R168, R372). -/
def State.cachePorts (s : State) (k : Nat) : List Nat :=
  cachingFids.filter (fun f => decide ((s.nif f).link = .up) && !s.niFenced f
    && !bitOf (s.dstCell (homeFid k) (s.epOf (homeFid k)) f) 4)

/-- A broadcast `Recall`. -/
def State.recallAll (s : State) (k line : Nat) (rq : Fid) (txid : Nat) (h : Nat) (slice : BitVec 6) : State :=
  s.send (homeFid k) { net := .snp, dst := 0x3FF, opc := 4, txid := BitVec.ofNat 12 txid, line := BitVec.ofNat 46 line,
                       rqfid := rq, htid := BitVec.ofNat 8 h, slice := slice }

/-- The first pass of an entry: wait for the bucket, recall an unknown line, or decide (R42, R162, R176). -/
def State.begin_ (s : State) (k h : Nat) : State :=
  match s.trk k h with
  | none => s
  | some e =>
    let b := bucketOf e.line
    if (s.hm k).await.contains b ∧ ¬(s.hm k).before.contains (e.req.src, e.req.txid) then s.setTrk k h (some { e with st := .bkt })
    else if (s.hm k).recon.contains b ∧ (s.dirFind k e.line).isNone then
      let ports := s.cachePorts k
      let s := (s.bump .HS_RECON_CNT (hsBase k)).countHome k 10
      let s := s.recallAll k e.line (BitVec.ofNat 10 (homeFid k)) h h e.req.slice
      let s := s.setTrk k h (some {
        e with st := .col, col := .recon, owed := ports.map (fun f => { port := f, opc := 4, rq := homeFid k }) })
      if ports.isEmpty then s.serve k h else s
    else s.serve k h

/-- A request allocates a tracker entry and is decided (R142, R144). -/
def State.newFlow (s : State) (k : Nat) (q : Pkt) (data : List Byte) (poison : Bool)
    (ws : List (Pkt × List Byte × Bool) := []) : State :=
  match (s.freeTrk k).head? with
  | none => s
  | some h =>
    let s := s.setTrk k h (some {
      line := q.addr.toNat / 64, st := .mem, req := q, wdata := data, wpoison := poison, waiters := ws, start := s.tick })
    ((s.countHome k 0).countHome k 1).begin_ k h

/-- What a collected flow does once every answer is in (R179). -/
def State.collected (s : State) (k h : Nat) : State :=
  match s.trk k h with
  | none => s
  | some e =>
    if ¬e.owed.isEmpty ∨ e.memDue then s
    else match e.col with
      | .victim =>
        if s.homeFenced k then s.setTrk k h none else
        let s := (s.setDir k (dirSet e.line) (e.way.getD 0) none).endFlow k h
        s.serveI k e.forH (e.way.getD 0)
      | .recon => if s.homeFenced k then s.setTrk k h none else s.serve k h
      | .request => s.complete k h

/-- A flow takes one snoop answer from a port: `data` when it brought the line; a FENCED answer of the recorded OWNER to
a `Recall` poisons the line in memory (R179, R184). -/
def State.snoopAnswer (s : State) (k h port : Nat) (data : Option (List Byte × Bool)) (fenced : Bool) : State :=
  match s.trk k h with
  | none => s
  | some e =>
    let mine := e.owed.find? (fun o => o.port == port)
    let s := s.setTrk k h (some { e with owed := e.owed.filter (fun o => o.port != port) })
    let toMem (s : State) (d : List Byte) (p : Bool) : State :=
      s.addWb k { line := e.line, data := d, poison := p, ep := if s.homeFenced k then s.epo.cur else e.req.ep, slice := e.req.slice }
    let s := match data, e.col with
      | some (d, p), .request => s.updTrk k h (fun e => { e with buf := some (d, p) })
      | some (d, p), _ => toMem s d p
      | none, _ =>
        match mine with
        | some o => if fenced ∧ o.own ∧ o.opc = 4 then toMem s (zeros 64) true else s
        | none => s
    s.collected k h

/-- The home has a snoop to the port outstanding whose answer comes to the home. -/
def TrkEnt.owes (e : TrkEnt) (port : Nat) : Bool := e.owed.any (fun o => o.port == port)

/-! ### Sweeps (R164) -/

/-- Bucket recalls are sent while fewer than four are outstanding, in bucket order. -/
def State.sweepOne (s : State) (k : Nat) : State :=
  let m := s.hm k
  match (sortOn id m.toSweep).head?, (List.range 4).find? (fun i => (SMap.get none m.sweeps i).isNone) with
  | some b, some i =>
    let ports := s.cachePorts k
    let s := s.recallAll k b 0x3FF (0xF00 + i) 0 0
    s.updHm k (fun m => { m with
      toSweep := m.toSweep.filter (· != b)
      sweeps := SMap.set none m.sweeps i (some { bucket := b, owed := ports, start := s.tick }) })
  | _, _ => s

/-- Completed sweeps leave reconstruct mode and free their slots. -/
def State.sweepDone (s : State) (k : Nat) : State :=
  s.updHm k (fun m =>
    let done := m.sweeps.filterMap (fun iw => match iw.2 with
      | some w => if w.owed.isEmpty ∧ ¬w.gone then some w.bucket else none
      | none => none)
    { m with recon := m.recon.filter (fun b => !done.contains b),
             sweeps := m.sweeps.filter (fun iw => match iw.2 with | some w => !w.owed.isEmpty | none => false) })

/-- The sweeps of a home go on: completed ones end, and the next are sent (R164). -/
def State.sweepNext (s : State) (k : Nat) : State :=
  let go (s : State) : State := (s.sweepOne k).sweepDone k
  go (go (go (go (s.sweepDone k))))

/-- A port that drops its link or is fenced counts as answered everywhere (R162, R164). -/
def State.portGone (s : State) (f : Nat) : State :=
  (List.range 64).foldl (fun s k =>
    let m := s.hm k
    let s := s.setHm k { m with sweeps := m.sweeps.map (fun iw => (iw.1, iw.2.map (fun w =>
      { w with owed := w.owed.filter (· != f) }))) }
    let s := s.sweepNext k
    (m.trk.filterMap (fun he => match he.2 with
      | some e => if e.col = .recon ∧ e.owes f then some he.1 else none
      | none => none)).foldl (fun s h => s.snoopAnswer k h f none false) s) s

/-- A bucket enters reconstruct mode; entries in H_BKT for it are judged and decided (R161, R179). -/
def State.enterRecon (s : State) (k b : Nat) : State :=
  let m := s.hm k
  let hs := m.trk.filterMap (fun he => match he.2 with
    | some e => if e.st = .bkt ∧ bucketOf e.line = b then some he.1 else none
    | none => none)
  let s := s.setHm k { m with await := m.await.filter (· != b),
                              recon := if m.recon.contains b then m.recon else b :: m.recon,
                              toSweep := if m.toSweep.contains b then m.toSweep else b :: m.toSweep }
  let s := s.sweepNext k
  hs.foldl (fun s h => match s.trk k h with
    | some e =>
      let s := s.setTrk k h (some { e with held := [] })
      (e.held.foldl (fun s (q : Pkt × List Byte × Bool) => s.judgePut k q.1 q.2.1 q.2.2 true) s).begin_ k h
    | none => s) s

/-! ### The fence of a home (R167) -/

/-- A fenced home answers an entry without a grant, and its waiters and held writebacks, with `Nack` FENCED; the answers and the
memory data that the entry still awaits are taken, and a line among them goes to memory. -/
def State.fenceEntry (s : State) (k : Nat) (he : Nat × Option TrkEnt) : State :=
  match he.2 with
  | none => s
  | some e =>
    let s := (e.waiters.map (·.1) ++ e.held.map (·.1)).foldl (fun s q => s.nack k q 1) s
    let s := match e.buf, e.col with
      | some (d, p), .request => if e.prior.any (fun (x : DirEnt) => 2 ≤ x.st) then
          s.addWb k { line := e.line, data := d, poison := p, ep := s.epo.cur } else s
      | _, _ => s
    let e := { e with waiters := [], held := [] }
    if e.granted ∧ e.st ≠ .wru then s.setTrk k he.1 (some e)
    else
      let s := if e.col = .victim then s else s.nack k e.req 1
      let due : Bool := e.memRd && e.buf.isNone
      s.setTrk k he.1 (if e.owed.isEmpty ∧ ¬due then none
        else some { e with st := .col, col := .recon, buf := none, memRd := due, wantRd := false, granted := false })

/-- A writeback that a fence has answered `Nack`: its line goes to memory all the same, and nothing follows (R167). -/
def Wbuf.orphan (w : Wbuf) : Wbuf := { w with put := none, flow := none }

/-- A request that a fence answers is taken out of the home's inbox with its data, which is dropped when it comes later. -/
def State.dropBoxed (s : State) (k : Nat) (q : Pkt) : State :=
  (s.updNi (homeFid k) (fun n => { n with inbox := n.inbox.erase q })).sinkData (homeFid k) q

/-- A home slice is fenced: its bits are set, its entries answered, its accepted dirty lines keep going to memory, and
accepted writebacks whose `PutAck` is missing, held ones and waiting requests are answered `Nack` (R167). -/
def State.fenceHome (s : State) (k : Nat) : State :=
  if s.homeFenced k then s
  else
    let s := ((s.setMap .FC_FENCED_HSn k true).setMap .FC_FENCED_NIn (homeFid k) true).bareFence (.home k)
    let m := s.hm k
    let puts := m.wbufs.filterMap (fun iw => iw.2.bind (·.put)) ++ m.wbWait.filterMap (·.put)
      ++ m.judge.flatMap (fun j => j.puts.map (·.1))
    let s := s.updHm k (fun m => { m with
      wbufs := SMap.mapVals none (fun _ (w : Option Wbuf) => w.map Wbuf.orphan) m.wbufs
      wbWait := m.wbWait.map Wbuf.orphan, judge := [], before := [] })
    let s := m.trk.foldl (fun s he => s.fenceEntry k he) s
    let s := (puts ++ m.ready.flatMap (fun r => r.2.map (·.1))).foldl (fun s q => s.nack k q 1) s
    let box := (s.nif (homeFid k)).inbox.filter (fun p => p.net == .req)
    let s := box.foldl (fun s q => s.dropBoxed k q) s
    let s := (box.filter (fun p => p.opc.toNat ≤ 10)).foldl (fun s q => s.nack k q 1) s
    s.updHm k (fun m => { m with ready := [] })

end Sys2Proof.Machine
end

