-- ==== Sys2Proof/Machine/Cache.lean ====
section
/-! DEFINITION. The caching partners' lines: requests, snoops and answers as R134 to R175 require a partner to handle
them. -/

namespace Sys2Proof.Machine

/-- Key of a line at a caching partner. -/
def cacheKey (f line : Nat) : Nat := f * 2 ^ 46 + line

/-- A line at a caching partner; an unlisted one is in I (R409). -/
def State.cline (s : State) (f line : Nat) : CLine := SMap.get {} s.cache (cacheKey f line)

/-- A line at a caching partner replaced; a line in I keeps nothing. -/
def State.setCline (s : State) (f line : Nat) (c : CLine) : State :=
  { s with cache := SMap.set {} s.cache (cacheKey f line) (if c.st = .i then {} else c) }

/-- The line of a partner whose transaction has a TAG. -/
def State.clineOf (s : State) (f : Nat) (tag : BitVec 12) : Option (Nat × CLine) :=
  s.cache.findSome? (fun kc => if kc.1 / 2 ^ 46 = f ∧ kc.2.tag = tag ∧ kc.2.st ≠ .m ∧ kc.2.st ≠ .o ∧ kc.2.st ≠ .e ∧ kc.2.st ≠ .s
    then some (kc.1 % 2 ^ 46, kc.2) else none)

/-- The partner sends a beat: one credit of the channel is used (R106). -/
def State.partnerBeat (s : State) (f : Nat) (b : Beat) : State :=
  s.updNi f (fun n => { n with given := n.given.set b.net (n.given.get b.net - 1), beats := n.beats ++ [b] })

/-! ### Requests (R169, R170) -/

/-- The state that a request of a partner moves its line to; none where R169 does not let it be sent.  A copy in S may be dropped
first, and a line in E may have been written since (R135). -/
def cacheNext (opc : Nat) (st : CSt) : Option CSt :=
  match opc with
  | 7 => if st = .i ∨ st = .s then some .pass else none
  | 8 => if st = .i ∨ st = .s then some .pass else none
  | 1 => if st = .i ∨ st = .s then some .isD else none
  | 2 => if st = .i ∨ st = .s then some .imAd else none
  | 3 => if st = .s then some .smA else if st = .o then some .omA else none
  | 4 => if st = .m ∨ st = .e then some .miA else none
  | 5 => if st = .o then some .oiA else none
  | 6 => if st = .e then some .eiA else none
  | 9 => if st = .i ∨ st = .s then some .ia else none
  | _ => none

/-- The lines that a coherent request concerns. -/
def beatLines (h : Beat) : List Nat :=
  let a := h.addr.toNat
  (List.range ((a + h.plen.toNat) / 64 - a / 64 + 1)).map (a / 64 + ·)

/-- A caching partner sends a coherent request: every line of it is in a state that R169 lists for it. -/
def State.mayRequest (s : State) (f : Nat) (h : Beat) : Bool :=
  !isCaching f || !(1 ≤ h.opc.toNat && h.opc.toNat ≤ 9)
    || (beatLines h).all (fun l => (cacheNext h.opc.toNat (s.cline f l).st).isSome)

/-- A whole request message of a caching partner has been presented: its lines move (R169, R170).  The eviction buffer of a line
that may have been written gets its bytes with the data beat, unless a snoop has been answered from it before. -/
def State.cacheRequest (s : State) (f : Nat) (h : Beat) (ops : List Word64) : State :=
  let line := h.addr.toNat / 64
  let c := s.cline f line
  match (if isCaching f then cacheNext h.opc.toNat c.st else none) with
  | none => s
  | some .pass => (beatLines h).foldl (fun s l => s.setCline f l { st := .pass, tag := h.tag }) s
  | some st =>
    let keep : Bool := st == .smA || st == .omA || st == .miA || st == .oiA || st == .eiA
    let atom := if h.opc = 9 then
        some (h.aop.toNat, h.plen.toNat + 1, h.addr.toNat % 64, (ops.getD 0 0).toNat, (ops.getD 1 0).toNat)
      else none
    s.setCline f line { st := st, data := if keep then c.data else [], poison := keep && c.poison, tag := h.tag, atom := atom,
                        fixed := st == .oiA }

/-- The line whose writeback a data beat of the partner belongs to. -/
def State.wbLine (s : State) (f : Nat) (b : Beat) : Option (Nat × CLine) :=
  if b.net = .dat ∧ b.peer = 0 then (s.clineOf f b.tag).filter (fun lc => lc.2.st == .miA || lc.2.st == .oiA) else none

/-- The data beat of a writeback carries what the eviction buffer holds, once that stands (R170). -/
def State.wbBeat (s : State) (f : Nat) (b : Beat) : Beat :=
  match s.wbLine f b with
  | some (_, c) => if c.fixed then { b with data := c.data, poison := c.poison } else b
  | none => b

/-- The data beat of a partner's writeback: the eviction buffer holds its bytes. -/
def State.cacheWbData (s : State) (f : Nat) (b : Beat) : State :=
  match s.wbLine f b with
  | some (line, c) => s.setCline f line { c with data := b.data, poison := b.poison, fixed := true }
  | none => s

/-! ### Snoops (R151, R171, R173) -/

/-- What a partner does with a snoop: the answer's opcode on RSP or DAT, and the state after it. -/
inductive SnpAct where
  /-- `InvAck` to RQFID. -/
  | ack (next : CSt)
  /-- `Data`, `DataOwner` or `DataWb` to RQFID. -/
  | data (opc : Nat) (next : CSt)
  /-- A cell marked impossible. -/
  | bad
  deriving DecidableEq, Repr

/-- The snoop tables of R151 and R171. -/
def snpAct (opc : Nat) (st : CSt) : SnpAct :=
  match opc, st with
  | 1, .m => .data 0x09 .o
  | 1, .e => .data 0x09 .o
  | 1, .o => .data 0x09 .o
  | 1, .omA => .data 0x09 .omA
  | 1, .miA => .data 0x09 .miA
  | 1, .oiA => .data 0x09 .oiA
  | 1, .eiA => .data 0x09 .eiA
  | 1, _ => .bad
  | 2, .m => .data 0x14 .i
  | 2, .o => .data 0x14 .i
  | 2, .e => .data 0x14 .i
  | 2, .omA => .data 0x14 .imAd
  | 2, .miA => .data 0x14 .miA
  | 2, .oiA => .data 0x14 .oiA
  | 2, .eiA => .data 0x14 .eiA
  | 2, _ => .bad
  | 3, .m => .bad
  | 3, .e => .bad
  | 3, .o => .ack .i
  | 3, .s => .ack .i
  | 3, .i => .ack .i
  | 3, .smA => .ack .imAd
  | 3, .omA => .ack .imAd
  | 3, st => .ack st
  | 4, .m => .data 0x18 .i
  | 4, .o => .data 0x18 .i
  | 4, .e => .ack .i
  | 4, .s => .ack .i
  | 4, .i => .ack .i
  | 4, .smA => .ack .imAd
  | 4, .omA => .data 0x18 .imAd
  | 4, .miA => .data 0x18 .miA
  | 4, .oiA => .data 0x18 .oiA
  | 4, st => .ack st
  | _, _ => .bad

/-- A line in E that its partner's cores have written meanwhile, or not, is in M: the partner tells nobody, so it is open (R135; log
10). -/
def State.silent (s : State) (f line : Nat) : State :=
  let c := s.cline f line
  if c.st ≠ .e then s
  else if s.drawn % 2 = 1 then s.draw.setCline f line { c with st := .m } else s.draw

/-- The bytes of a line that its partner answers with: in M the cores may have written it since, so they are free, as is what an
eviction buffer holds before its data beat (R135, R170; log 10). -/
def State.ownerData (s : State) (c : CLine) : List Byte × State :=
  if c.st = .m ∨ (c.st = .miA ∧ ¬c.fixed) then (leBytes 64 s.drawn, s.draw) else (c.data, s)

/-- The answer to one unicast or per-line snoop. -/
def State.answerSnoop (s : State) (f : Nat) (b : Beat) : State :=
  let line := b.line.toNat
  let c := s.cline f line
  match snpAct b.opc.toNat c.st with
  | .ack next => (s.setCline f line { c with st := next }).partnerBeat f
      { net := .rsp, opc := 1, tag := b.tag, peer := b.rqfid, line := b.line }
  | .data opc next =>
    let (data, s) := s.ownerData c
    (s.setCline f line { c with st := next, data := data, fixed := c.fixed || c.st == .miA }).partnerBeat f
      { net := .dat, opc := BitVec.ofNat 6 opc, tag := b.tag, peer := b.rqfid, data := data, be := BitVec.allOnes 64,
        poison := c.poison, line := b.line }
  | .bad => s.partnerBeat f { net := .rsp, opc := 1, tag := b.tag, peer := b.peer, status := 9, cnt := b.htid, line := b.line }

/-! ### Bucket recalls (R164, R174) -/

/-- States in which a bucket's `InvAck` waits for the line. -/
def recallHolds (st : CSt) : Bool :=
  st == .m || st == .o || st == .e || st == .omA || st == .miA || st == .oiA || st == .eiA

/-- Lines of a bucket that a partner holds. -/
def State.bucketLines (s : State) (f b : Nat) : List Nat :=
  s.cache.filterMap (fun kc => if kc.1 / 2 ^ 46 = f ∧ bucketOf (kc.1 % 2 ^ 46) = b then some (kc.1 % 2 ^ 46) else none)

/-- The lowest TAG that a partner does not use: its choice is the partner's own. -/
def State.freeTag (s : State) (f : Nat) : BitVec 12 :=
  let n := s.nif f
  BitVec.ofNat 12 (((List.range 4096).find? (fun t =>
    !(n.trans.any (fun x => x.tag.toNat == t)) && !(n.beats.any (fun x => x.tag.toNat == t))
      && (s.clineOf f (BitVec.ofNat 12 t)).isNone)).getD 0)

/-- One line in M, O or E evicted, when the partner's credits let it. -/
def State.evictLine (s : State) (f line : Nat) : State :=
  let s := s.silent f line
  let c := s.cline f line
  let n := s.nif f
  let tag := s.freeTag f
  let req (opc : Nat) : Beat :=
    { net := .req, opc := BitVec.ofNat 6 opc, tag := tag, addr := BitVec.ofNat 52 (line * 64), plen := 63 }
  let withData (opc : Nat) (st : CSt) : State :=
    if n.given.req = 0 ∨ n.given.dat = 0 then s
    else
      let (data, s) := s.ownerData c
      ((s.setCline f line { c with st := st, data := data, tag := tag, fixed := true }).partnerBeat f (req opc)).partnerBeat f
        { net := .dat, opc := 0x18, tag := tag, data := data, be := BitVec.allOnes 64, poison := c.poison }
  match c.st with
  | .m => withData 4 .miA
  | .o => withData 5 .oiA
  | .e => if n.given.req = 0 then s else (s.setCline f line { c with st := .eiA, tag := tag }).partnerBeat f (req 6)
  | _ => s

/-- The recalls that a partner still has to answer go on: lines are evicted as credits allow, and a recall whose lines are
all gone is acknowledged (R164). -/
def State.recallStep (s : State) (f : Nat) : State :=
  let rs := SMap.get [] s.recalls f
  let s := rs.foldl (fun s r => r.lines.foldl (fun s l => s.evictLine f l) s) s
  let rs := rs.map (fun r => { r with lines := r.lines.filter (fun l => recallHolds (s.cline f l).st) })
  let (s, left) := rs.foldl (fun (acc : State × List PortRecall) r =>
    if r.lines.isEmpty ∧ 0 < (acc.1.nif f).given.rsp then
      (acc.1.partnerBeat f { net := .rsp, opc := 1, tag := r.txid, peer := r.src }, acc.2)
    else (acc.1, acc.2 ++ [r])) (s, [])
  { s with recalls := SMap.set [] s.recalls f left }

/-- A bucket `Recall` arrives: S copies are dropped, SM_A loses its copy, and the rest is to be evicted (R164, R174). -/
def State.bucketRecall (s : State) (f : Nat) (b : Beat) : State :=
  let bucket := b.line.toNat % 4096
  let s := (s.bucketLines f bucket).foldl (fun s l =>
    let c := s.cline f l
    if c.st = .s then s.setCline f l {} else if c.st = .smA then s.setCline f l { c with st := .imAd, data := [] } else s) s
  let r : PortRecall := { src := b.peer, txid := b.tag, htid := b.htid, bucket := bucket,
                          lines := (s.bucketLines f bucket).filter (fun l => recallHolds (s.cline f l).st) }
  { s with recalls := SMap.upd [] s.recalls f (· ++ [r]) }

/-- CACHE_SNOOP: the partner answers the oldest snoop presented to it, once it has the credits for its answer; without one
it goes on with bucket recalls that wait for credits. -/
def execCacheSnoop (fid : Fid) (s : State) : Host.Outcome State Fault Refusal :=
  let f := fid.toNat
  if !isCaching f then .fault .noSuchUnit
  else
    let n := s.nif f
    match n.f2p.find? (fun b => b.net == .snp) with
    | none => .next (s.recallStep f)
    | some b =>
      if b.rqfid = 0x3FF then
        .next (((s.setNi f { n with f2p := n.f2p.erase b }).bucketRecall f b).recallStep f)
      else
        let t := s.silent f b.line.toNat
        if (match snpAct b.opc.toNat (t.cline f b.line.toNat).st with
          | .data .. => n.given.dat
          | _ => n.given.rsp) = 0 then .next s
        else .next (((t.setNi f { n with f2p := n.f2p.erase b }).answerSnoop f b).recallStep f)

/-! ### Answers (R139, R172, R175) -/

/-- The partner sends `CompAck` for a transaction. -/
def State.compAck (s : State) (f : Nat) (tag : BitVec 12) (peer : Fid) : State :=
  s.partnerBeat f { net := .rsp, opc := 2, tag := tag, peer := peer }

/-- A near atomic executed in the partner's own copy of the line (R172, R186). -/
def CLine.runAtom (c : CLine) : CLine :=
  match c.atom with
  | some (aop, size, off, a, b) =>
    let old := leNat ((c.data.drop off).take size)
    { c with data := patch c.data off (leBytes size (aopResult aop size old a b)), atom := none }
  | none => c

/-- The line is in M once it has everything that R139 lists; the partner then sends `CompAck`. -/
def State.settle (s : State) (f line : Nat) (c : CLine) (peer : Fid) : State :=
  let done : Bool := match c.cnt with
    | some n => decide (n ≤ c.acks) && (!c.df || c.got)
    | none => false
  if done ∧ (c.st = .imAd ∨ c.st = .smA ∨ c.st = .omA) then
    (s.setCline f line { c.runAtom with st := .m, cnt := none, acks := 0, got := false, df := false, tag := 0 }).compAck f c.tag peer
  else s.setCline f line c

/-- The lines of a `ReadPass` or `WritePass` are in I with nothing outstanding: its Comp has come (R172, R175). -/
def State.passDone (s : State) (f : Nat) (tag : BitVec 12) : State :=
  { s with cache := s.cache.filter (fun (kc : Nat × CLine) => !(kc.1 / 2 ^ 46 == f && kc.2.tag == tag && kc.2.st == .pass)) }

/-- One answer for a line in a transient state, as the table of R172 states; impossible ones are discarded (R173). -/
def State.lineAnswer (s : State) (f line : Nat) (c : CLine) (b : Beat) : State :=
  let g := b.opc.toNat % 8
  if c.st = .pass then (if b.net = .rsp ∧ b.opc = 0x10 then s.passDone f c.tag else s)
  else if b.net = .dat then
    if c.st = .isD ∧ g = 1 then
      (s.setCline f line { st := .s, data := b.data, poison := b.poison }).compAck f c.tag b.peer
    else if c.st = .isD ∧ g = 2 then
      (s.setCline f line { st := .e, data := b.data, poison := b.poison }).compAck f c.tag b.peer
    else if (c.st = .imAd ∨ c.st = .ia) ∧ g = 4 then
      s.settle f line { c with st := .imAd, data := b.data, poison := b.poison, got := true } b.peer
    else s
  else if b.opc = 7 then
    if c.st = .imAd ∨ c.st = .ia then
      s.settle f line { c with st := .imAd, cnt := some b.cnt.toNat, df := b.df } b.peer
    else if c.st = .smA ∨ c.st = .omA then s.settle f line { c with cnt := some b.cnt.toNat, df := b.df } b.peer
    else s
  else if b.opc = 1 then
    if c.st = .imAd ∨ c.st = .smA ∨ c.st = .omA ∨ c.st = .ia then
      s.settle f line { c with acks := c.acks + 1 } b.peer
    else s
  else if b.opc = 6 then (if c.st = .ia then s.setCline f line {} else s)
  else if b.opc = 3 ∨ b.opc = 4 then
    (if c.st = .miA ∨ c.st = .oiA ∨ c.st = .eiA then s.setCline f line {} else s)
  else if b.opc = 0x10 ∧ b.status ≠ 0 then
    (if c.st = .omA then s.setCline f line { st := .o, data := c.data, poison := c.poison } else s.setCline f line {})
  else s

/-- CACHE_ANSWER: the partner takes the oldest coherent answer presented to it, once it has a credit for a `CompAck`. -/
def execCacheAnswer (fid : Fid) (s : State) : Host.Outcome State Fault Refusal :=
  let f := fid.toNat
  if !isCaching f then .fault .noSuchUnit
  else
    let n := s.nif f
    match n.f2p.find? (fun b => b.net == .dat || b.net == .rsp) with
    | none => .next s
    | some b =>
      if n.given.rsp = 0 then .next s
      else
        let s := s.setNi f { n with f2p := n.f2p.erase b }
        match s.clineOf f b.tag with
        | some (line, c) => .next ((s.lineAnswer f line c b).recallStep f)
        | none => .next s

end Sys2Proof.Machine
end

