-- ==== Sys2Proof/Machine/Rules.lean ====
section
/-! DEFINITION. Access rules: domains, the rule table with its fused root, the checkers and their denials (R196 to R218),
and the slice that a request is stamped with (R314, R315). -/

namespace Sys2Proof.Machine

/-- Checker of an interface: the replica of its quadrant, or the central table in the spine, which is 4 (R207). -/
def checkerOf (f : Nat) : Nat := (quadOf f).getD 4

/-- A rule entry as a number of 128 bits: 0 to 15 are the fused root with LOCK reading 1 (R199, R203). -/
def State.ruleEntry (s : State) (ep : Bool) (chk i : Nat) : Nat :=
  if i < 16 then (if s.fuseBad then 2 ^ 47 else setFld (s.fuseBits (128 * i) 128) 47 1 1)
  else s.tab (bankOf ep) 5 chk 0 i

/-- Fields of a rule entry (R199). -/
def ruleBase (e : Nat) : Nat := fld e 0 40
/-- SIZE (R199). -/
def ruleSize (e : Nat) : Nat := fld e 40 6
/-- VLD (R199). -/
def ruleVld (e : Nat) : Bool := bitOf e 46
/-- LOCK (R199). -/
def ruleLock (e : Nat) : Bool := bitOf e 47
/-- RD (R199). -/
def ruleRd (e sd : Nat) : Bool := bitOf e (48 + sd)
/-- WR (R199). -/
def ruleWr (e sd : Nat) : Bool := bitOf e (64 + sd)
/-- ATYPE (R199). -/
def ruleType (e : Nat) : Nat := fld e 80 4
/-- TFID (R199). -/
def ruleTfid (e : Nat) : Nat := fld e 84 10

/-- A valid entry keeps the rules of R199 on BASE, SIZE, ATYPE and the addresses that it covers. -/
def ruleGood (e : Nat) : Bool :=
  let sz := ruleSize e
  let b := ruleBase e * 4096
  let mem := b + 2 ^ sz ≤ 2 ^ 47
  let off := 2 ^ 47 ≤ b
  decide (12 ≤ sz ∧ sz ≤ 44) && b % 2 ^ sz == 0 && decide (ruleType e ≤ 2)
    && (if ruleType e = 0 then decide mem
        else if ruleType e = 1 then decide off && decide (0x110 ≤ ruleTfid e ∧ ruleTfid e ≤ 0x11B)
        else decide off && decide (sz ≤ 25))

/-- An address matches an entry (R200). -/
def ruleMatch (e pa : Nat) : Bool := ruleVld e && pa / 2 ^ ruleSize e == ruleBase e * 4096 / 2 ^ ruleSize e

/-- Definition of slice `sl` in a bank (R316). -/
def State.sliceDef (s : State) (ep : Bool) (sl : Nat) : Nat := s.tab (bankOf ep) 8 0x180 0 (4096 + sl)

/-- The rule window of a slice: first entry and number of entries (R316). -/
def State.ruleWindow (s : State) (ep : Bool) (sl : Nat) : Nat × Nat :=
  let d := s.sliceDef ep sl
  if bitOf d 0 then (fld d 64 12, fld d 76 13) else (0, 0)

/-- Entry `i` lies in the window of a slice. -/
def State.inWindow (s : State) (ep : Bool) (sl i : Nat) : Bool :=
  let w := s.ruleWindow ep sl
  w.1 ≤ i && i < w.1 + w.2

/-- An entry is open to a slice: it lies in no slice's window, or in that slice's (R200). -/
def State.ruleOpen (s : State) (ep : Bool) (sl i : Nat) : Bool :=
  s.inWindow ep sl i || !(List.range 64).any (fun t => s.inWindow ep t i)

/-- Indices of programmed entries that a checker holds, ascending; 16 fused ones come before them. -/
def State.ruleIndices (s : State) (ep : Bool) (chk : Nat) : List Nat :=
  List.range 16 ++ s.tabs.filterMap (fun kv =>
    let i := kv.1 % 65536
    if kv.1 / 65536 = ((bankOf ep * 16 + 5) * 1024 + chk) * 8 ∧ 16 ≤ i ∧ i < 4096 then some i else none)

/-- The entry that decides an access: the lowest valid match that is open to the slice; a fused entry that breaks R199 does
not match (R200, R203). -/
def State.deciding (s : State) (ep : Bool) (chk sl pa : Nat) : Option (Nat × Nat) :=
  (s.ruleIndices ep chk).findSome? (fun i =>
    let e := s.ruleEntry ep chk i
    if ruleMatch e pa ∧ (16 ≤ i ∨ ruleGood e) ∧ s.ruleOpen ep sl i then some (i, e) else none)

/-- The permissions that an opcode needs: RD and WR; none where the rule table does not check it (R206). -/
def rulePerm (opc : Nat) : Option (Bool × Bool) :=
  if opc = 1 ∨ opc = 7 ∨ opc = 0x12 then some (true, false)
  else if opc = 2 ∨ opc = 3 ∨ opc = 9 ∨ opc = 0xA then some (true, true)
  else if opc = 8 ∨ opc = 0x13 ∨ opc = 0x14 then some (false, true)
  else none

/-- The verdict of one check: the code of the cause, NO_MATCH 1, NO_PERM 2, TYPE 3, NO_MAP 4, and the deciding entry (R210). -/
inductive Verdict where
  | allow (entry : Nat)
  | deny (cause : Nat) (entry : Nat)
  deriving DecidableEq, Repr

/-- One check of a piece by a checker (R200, R201, R206, R210). -/
def State.ruleCheck (s : State) (chk : Nat) (ep : Bool) (sl pa opc : Nat) (sd : Option Nat) : Verdict :=
  match rulePerm opc with
  | none => .allow 0
  | some (rd, wr) =>
    match sd with
    | none => .deny 4 0x1FFF
    | some d =>
      match s.deciding ep chk sl pa with
      | none => if d = 15 ∧ s.dbgOvr then .allow 0 else .deny 1 0x1FFF
      | some (i, e) =>
        if d = 15 ∧ s.dbgOvr then .allow e
        else if opc = 0xA ∧ ruleType e = 1 then .deny 3 i
        else if (rd ∧ ¬ruleRd e d) ∨ (wr ∧ ¬ruleWr e d) then .deny 2 i
        else .allow e

/-- The debug override granted an access: it is counted, and RULE is raised at L0, once, at the precheck of the interface that
stamped its SD (R205). -/
def State.overrideUsed (s : State) (f opc : Nat) (sd : Option Nat) : State :=
  if (rulePerm opc).isSome ∧ sd = some 15 ∧ s.dbgOvr then (s.bump .RK_OVR_CNT rkBase).raiseNi f 7 0 else s

/-- A denial: counted, captured, RULE at L0 at the checker that decided it (R210). -/
def State.denied (s : State) (f : Nat) (pre : Bool) (src : Nat) (sd : Option Nat) (opc cause entry pa : Nat) : State :=
  let wr := match rulePerm opc with | some (_, w) => w | none => false
  let s := s.bump .RK_DENY_CNT rkBase
  let s := if sd = some 15 then s.bump .RK_DBG_DENY_CNT rkBase else s
  let c := src + f * 2 ^ 10 + sd.getD 0 * 2 ^ 20 + wr.toNat * 2 ^ 24 + cause * 2 ^ 25 + pre.toNat * 2 ^ 28 + 2 ^ 31
  let s := s.latchWords .RK_DENY_CAP [(.RK_DENY_CAP, c), (.RK_DENY_ADDR_LO, fld pa 0 32), (.RK_DENY_ADDR_HI, fld pa 32 20),
    (.RK_DENY_ENTRY, entry)] rkBase
  (s.count f 22).raiseNi f 7 0

/-! ### The slice of a request (R314, R315) -/

/-- The default entry of an interface: DEFSLICE, UMODE, DEFV; the fused default before the first switch. -/
def State.sliceDefault (s : State) (f : Nat) (ep : Bool) : Nat :=
  if s.epo.first then s.tab (bankOf ep) 8 f 0 4160 else 128

/-- The slice map's entry for a PID at an interface. -/
def State.sliceMap (s : State) (f : Nat) (ep : Bool) (pid : Nat) : Option Nat :=
  if s.epo.first then
    (List.range 4).findSome? (fun w =>
      let e := s.tab (bankOf ep) 8 f 0 (4 * (fld pid 0 10 ^^^ fld pid 10 10) + w)
      if bitOf e 26 ∧ fld e 0 20 = pid then some (fld e 20 6) else none)
  else none

/-- SLICE stamped on a partner's request; none: it is denied as unmapped. -/
def State.sliceFor (s : State) (f : Nat) (ep : Bool) (pidv : Bool) (pid : Nat) : Option Nat :=
  let d := s.sliceDefault f ep
  if pidv then
    match s.sliceMap f ep pid with
    | some sl => some sl
    | none => if bitOf d 6 then none else some (fld d 0 6)
  else if bitOf d 7 then some (fld d 0 6) else none

/-- A request that no slice maps: RULE at L0, counted (R314). -/
def State.unmapped (s : State) (f : Nat) : State := (s.bump .NI_SLC_UNMAP (niBase f)).raiseNi f 7 0

/-! ### Directing a request (R160, R201) -/

/-- Socket-table entry of a socket at an interface (R159). -/
def State.sockEntry (s : State) (f : Nat) (ep : Bool) (sock : Nat) : Nat := s.tab (bankOf ep) 4 f 0 (4096 + sock)

/-- Bank node of a shared-SRAM offset (R219). -/
def sramNode (off : Nat) : Nat := fld off 21 4

/-- A coherent opcode, which goes to a home: GetS to AtomFar. -/
def isCoherent (opc : Nat) : Bool := 1 ≤ opc && opc ≤ 10

/-- Where a request of an address goes: a FID, or none where no home can take it. -/
def State.direct (s : State) (f : Nat) (ep : Bool) (opc pa : Nat) (entry : Nat) : Option Nat :=
  let mem := pa < 2 ^ 47
  if mem then
    let e := s.sockEntry f ep (fld pa 44 3)
    if bitOf e 3 then some (0x120 + e % 8)
    else
      let v := s.tab (bankOf ep) 4 f 0 (fld pa 6 12 ^^^ fld pa 18 12 ^^^ fld pa 30 12 ^^^ fld pa 42 10)
      if isCoherent opc then some (0xC0 + v % 64) else some (0x100 + fld v 6 4)
  else if ruleType entry = 1 then some (ruleTfid entry)
  else if ruleType entry = 2 then some (0x160 + sramNode (pa - ruleBase entry * 4096))
  else none

/-- A rule-table entry of one copy written over another one, in both banks; copies 0 to 3 are replicas, 4 the central table. -/
def State.ruleCopy (s : State) (src dst i : Nat) : State :=
  (s.setTab 0 5 dst 0 i (s.tab 0 5 src 0 i)).setTab 1 5 dst 0 i (s.tab 1 5 src 0 i)

/-- The copies of an entry that read as uncorrectable are rewritten: a replica from the central table, the central table from
the first replica that reads it; an entry lost in all five raises TABLE_ECC at L4 and, since no check decides on it, takes part
in none any more (R217; DEDUCED, log 52). -/
def State.ruleRepair (s : State) (bad : BitVec 5) (i : Nat) (inj : Bool := false) : State :=
  match (List.range 4).find? (fun c => !bitOf bad.toNat c) with
  | none =>
    if bitOf bad.toNat 4 then
      ((List.range 5).foldl (fun s c => (s.setTab 0 5 c 0 i 0).setTab 1 5 c 0 i 0) s).raiseSpine 28 2 4 (fidUnit 0x182) i inj
    else (List.range 4).foldl (fun s c => ((s.ruleCopy 4 c i).bump .RK_REPAIR_CNT rkBase).raiseSpine 28 2 0 (fidUnit 0x182) i inj) s
  | some g =>
    let s := if bitOf bad.toNat 4 then
        let s := s.ruleCopy g 4 i
        s.latchWords .RK_CENTRAL_ERR [(.RK_CENTRAL_ERR, i + 2 ^ 31)] rkBase
      else s
    ((List.range 4).filter (bitOf bad.toNat)).foldl (fun s c =>
      ((s.ruleCopy 4 c i).bump .RK_REPAIR_CNT rkBase).raiseSpine 28 2 0 (fidUnit 0x182) i inj) s

/-- The check word of the rule entry that decides a piece at a checker: a corrected one is counted, an uncorrectable one is
rewritten before the lookup completes (R217, R353). -/
def State.ruleEcc (s : State) (f : Nat) (ep : Bool) (sl pa opc : Nat) (err : WordErr := .clean) : State :=
  if (rulePerm opc).isNone then s
  else
    let c := checkerOf f
    match s.checkWord (fidUnit 0x182) 5 err (some c) with
    | (.clean, _, s) => s
    | (.corrected, _, s) => s.bump .RK_CORR_CNT rkBase
    | (.uncorrectable, inj, s) =>
      s.ruleRepair (BitVec.ofNat 5 (2 ^ c)) (((s.deciding ep c sl pa).map (·.1)).getD 0) inj

/-- REPLICA_REPAIR: the copies of an entry that read as uncorrectable are rewritten. -/
def execReplicaRepair (copies : BitVec 5) (index : BitVec 13) (s : State) : Host.Outcome State Fault Refusal :=
  if 5120 ≤ index.toNat then .next s else .next (s.ruleRepair copies index.toNat)

end Sys2Proof.Machine
end

