-- ==== Sys2Proof/Machine/Hub.lean ====
section
/-! DEFINITION. The checks of the control hub: which request it takes next, the domain that a request carries, the permission
entries, and presence (R197, R423, R425 to R430). -/

namespace Sys2Proof.Machine

/-! ### Requests at the hub (R197, R423) -/

/-- A request of control space. -/
def Pkt.isControl (p : Pkt) : Bool := p.net == .req && (p.opc == 0x15 || p.opc == 0x16)

/-- The control request that the hub takes next: in order of arrival, those of one FCLK in ascending SRC; one that arrives in
this FCLK waits for the next. -/
def State.hubHead (s : State) : Option Pkt :=
  (sortOn (fun p : Pkt => 1024 * p.arr + p.src.toNat)
    ((s.nif 0x180).inbox.filter (fun p => p.isControl && decide (p.arr ≤ s.tick)))).head?

/-- The hub has taken no request in this FCLK, and its queue has room (R423). -/
def State.hubFree (s : State) : Bool := s.hub.takeAt != s.tick + 1 && decide (s.hub.queue.length < 64)

/-- The hub takes a request. -/
def State.hubTook (s : State) : State := { s with hub := { s.hub with takeAt := s.tick + 1 } }

/-- The domain of a control request: its SD; none where its interface has no domain, which SD cannot say (R196, R197, R427;
DEDUCED, log 104). -/
def State.hubSd (s : State) (q : Pkt) : Option Nat := (s.domainOf q.ep q.src.toNat).map (fun _ => q.sd.toNat)

/-! ### Permission (R426, R427) -/

/-- Entry n matches an offset. -/
def State.csaMatch (s : State) (n off : Nat) : Bool :=
  let e := s.reg .GLB_CSAn_LO 0 n
  let base := fld e 0 14 * 4096
  let size := fld e 14 5
  bitOf e 19 && decide (12 ≤ size ∧ size ≤ 26) && base % 2 ^ size == 0 && off / 2 ^ size == base / 2 ^ size

/-- A request of a domain may read or write an offset. -/
def State.csaAllows (s : State) (sd : Option Nat) (write : Bool) (off : Nat) : Bool :=
  match sd with
  | none => !write && decide (off < 0x100000)
  | some d =>
    if d = 0 ∨ (d = 15 ∧ s.dbgOvr) then true
    else match (List.range 32).find? (fun n => s.csaMatch n off) with
      | some n => bitOf (s.reg .GLB_CSAn_HI 0 n) (d + 16 * write.toNat)
      | none =>
        s.rf .GLB_CSA_CTRL 0 1 == 0 && (match s.ruleWriter with
          | some w => s.domainOf s.epo.cur w == some d
          | none => false)

/-- A refusal of the hub: counted, and captured while no capture is held. -/
def State.csaRefuse (s : State) (src : Nat) (sd : Option Nat) (write : Bool) (off cause : Nat) : State :=
  let s := s.bump (if cause = 1 then .GLB_CSA_DENY_CNT else .GLB_CSA_ABSENT_CNT)
  s.latchWords .GLB_CSA_CAP [(.GLB_CSA_CAP, src + (sd.getD 0) * 2 ^ 10 + write.toNat * 2 ^ 14 + cause * 2 ^ 15 + 2 ^ 31),
    (.GLB_CSA_CAP_OFF, off)]

/-! ### Presence and the verdict (R425, R429, R430) -/

/-- The direct window of the shared SRAM (R422). -/
def inDirect (off : Nat) : Bool := 0x2000000 ≤ off % 2 ^ 26

/-- An offset outside every instance block and the direct window (R425). -/
def absent (off : Nat) : Bool := (blockOf off).isNone && !inDirect off

/-- What the hub answers at once: DENIED, or BAD_REQ for an absent offset and, in TEST, for all but reads of the global
block; none: the request goes on. -/
def State.hubJudge (s : State) (src : Nat) (sd : Option Nat) (write : Bool) (off : Nat) : Option Nat × State :=
  if ¬s.csaAllows sd write off then (some 1, s.csaRefuse src sd write off 1)
  else if absent off then (some 9, s.csaRefuse src sd write off 2)
  else if s.prim = .test ∧ (write ∨ 0x100000 ≤ off) then (some 9, s)
  else (none, s)

end Sys2Proof.Machine
end

