-- ==== Sys2Proof/Machine/NiOps.lean ====
section
/-! DEFINITION. The partner side of a network interface: its channels, credits and presentation, link-up and link drop,
and the fence of an interface (R102 to R112, R121, R133, R184, R346). -/

namespace Sys2Proof.Machine

/-! ### Port classes (R102) -/

/-- Source-tracker entries (R102); clusters, queue managers and spine units keep as many as an I/O root. -/
def srcCap (f : Nat) : Nat := if pclass f = 3 then 0 else if pclass f = 0 ∨ pclass f = 1 ∨ pclass f = 6 then 128 else 256

/-- Target-tracker entries (R102). -/
def tgtCap (f : Nat) : Nat :=
  match pclass f with | 0 => 16 | 3 => 256 | 4 => 128 | 5 => 256 | _ => 0

/-- Initial credits that the fabric gives on a P2F channel (R110). -/
def initialOf : Net → Nat | .req => 8 | .rsp => 16 | .snp => 4 | .dat => 8

/-- Least initial credits of an F2P channel (R110). -/
def leastOf : Net → Nat | .req => 2 | .rsp => 8 | .snp => 4 | .dat => 4

/-- The four networks. -/
def nets : List Net := [.req, .rsp, .snp, .dat]

/-- Power domain of an interface: the NET domain of its quadrant, or SPINE (R359). -/
def niDomain (f : Nat) : Nat := match quadOf f with | some q => 2 + 4 * q | none => 1

/-- F2P_AWAKE (R121). -/
def State.awake (s : State) (f : Nat) : Bool := (s.nif f).f2pLink && (s.domain (niDomain f)).st == 0

/-! ### Presentation to a partner -/

/-- A beat presented on F2P, or kept until the partner gives a credit (R106). -/
def Ni.present (n : Ni) (b : Beat) : Ni :=
  if n.f2pWait.isEmpty ∧ 0 < n.cred.get b.net then
    { n with cred := n.cred.set b.net (n.cred.get b.net - 1), f2p := n.f2p ++ [b],
             f2pOut := n.f2pOut.set b.net (n.f2pOut.get b.net + 1) }
  else { n with f2pWait := n.f2pWait ++ [b] }

/-- Beats that waited for a credit of a channel go out while credits last. -/
def Ni.drainWait (n : Ni) : Ni :=
  n.f2pWait.foldl (fun m b => if 0 < m.cred.get b.net
    then { m with cred := m.cred.set b.net (m.cred.get b.net - 1), f2p := m.f2p ++ [b],
                  f2pOut := m.f2pOut.set b.net (m.f2pOut.get b.net + 1) }
    else { m with f2pWait := m.f2pWait ++ [b] }) { n with f2pWait := [] }

/-- DAT payload bytes of a beat: its enabled bytes, or the bytes of a message (R390). -/
def beatBytes (b : Beat) : Nat :=
  if b.net != .dat then 0 else if b.opc = 0x20 then b.data.length else popCount 64 b.be.toNat

/-- DAT bytes that cross a port are counted: 0 in, 1 out (R390, R392). -/
def State.portBytes (s : State) (f dir n : Nat) : State :=
  if n = 0 then s
  else
    let s := s.count f (20 + dir) n
    if s.rf .NI_BW_CFG 31 1 (niBase f) = 1 then
      { s with bw := SMap.upd {} s.bw f (fun w => if dir = 0 then { w with inB := w.inB + n } else { w with outB := w.outB + n }) }
    else s

/-- What a port carries of a beat: a socket link SLICE, SD and the target socket, which is that of the address, of the request that
the beat answers, or the far one (R104); the other classes none of them. -/
def State.portBeat (s : State) (f : Nat) (b : Beat) : Beat :=
  if pclass f ≠ 5 then { b with slice := 0, sd := 0, sock := 0 }
  else
    let far : BitVec 3 := BitVec.ofNat 3 (s.rf .NI_SLCAP_COMMON 6 3 (niBase f))
    let sock := if b.net = .req ∧ b.addr.toNat < 2 ^ 47 ∧ 1 ≤ b.opc.toNat ∧ b.opc.toNat ≤ 0x14
        then BitVec.ofNat 3 (fld b.addr.toNat 44 3)
      else match (s.nif f).trans.find? (fun x => x.tag == b.tag) with
        | some x => if b.net = .rsp ∨ b.net = .dat then x.sock else far
        | none => far
    { b with sock := sock }

/-- Beats presented to a partner, while its link is up. -/
def State.present (s : State) (f : Nat) (bs : List Beat) : State :=
  if (s.nif f).link = .up then
    (s.updNi f (fun n => (bs.map (s.portBeat f)).foldl Ni.present n)).portBytes f 1 (bs.foldl (fun a b => a + (beatBytes b)) 0)
  else s

/-- A credit of a P2F channel is owed for a beat that has left its buffer (R106). -/
def Ni.leave (n : Ni) (b : Beat) : Ni :=
  { n with beats := n.beats.erase b, owed := n.owed.set b.net (n.owed.get b.net + 1) }

/-! ### Link-up (R110, R111, R123) -/

/-- Every credit exchange of link-up is done: the port is UP, its common capability word fixed until the next link-up (R418). -/
def State.linkCheck (s : State) (f : Nat) : State :=
  let n := s.nif f
  if n.link = .credit ∧ nets.all (fun c => !hasP2f f c || n.owed.get c == 0)
      ∧ nets.all (fun c => !hasF2p f c || decide (leastOf c ≤ n.got.get c)) then
    s.setNi f { n with link := .up }
  else s

/-- The interface starts to give its initial credits. -/
def Ni.giveInitial (n : Ni) (f : Nat) : Ni :=
  { n with link := .credit
           owed := nets.foldl (fun c x => if hasP2f f x then c.set x (initialOf x) else c) {} }

/-- Link-up goes on when the partner's P2F_LINK is seen high (R110, R123); after an overrun it has to fall first (R106).  The
timeout for the far word of a socket link counts from here: the spec does not say from when it does (DESIGN CHOICE, log 96). -/
def State.linkOn (s : State) (f : Nat) : State :=
  let n := s.nif f
  if n.link = .waitPartner ∧ n.p2fLink ∧ n.f2pLink ∧ ¬n.mustFall then
    if pclass f = 5 then s.setNi f { n with link := .cap, capv := true, linkAt := s.tick }
    else s.setNi f (n.giveInitial f)
  else s

/-- A port that has lost its link: every credit and beat is gone (R109, R112). -/
def Ni.unlinked (n : Ni) : Ni :=
  { n with link := .down, f2pLink := false, capv := false, owed := {}, given := {}, cred := {}, got := {}, f2pOut := {},
           beats := [], f2p := [], f2pWait := [], drops := [] }

/-- F2P_LINK is raised and link-up starts (R110). -/
def State.startLink (s : State) (f : Nat) : State :=
  let n := s.nif f
  if n.link = .up ∨ s.niFenced f then s
  else (s.setNi f { n.unlinked with link := .waitPartner, f2pLink := true, linkAt := s.tick, relink := false }).linkOn f

/-! ### Saffron's credits (R133) -/

/-- The unused credits of a master are reclaimed. -/
def State.safReclaim (s : State) (f : Nat) : State :=
  { s with saf := { s.saf with given := SMap.set 0 s.saf.given f 0 } }.updNi f (fun n => { n with safCred := 0 })

/-! ### A port that has gone (R112, R184, R185, R346) -/

/-- `CompAck` of a coherent request that a lost port's interface sends once it holds everything that R139 lists (R184). -/
def SrcEnt.complete (e : SrcEnt) : Bool :=
  if e.req.opc = 1 then e.got
  else match e.gm with | some c => decide (c ≤ e.acks) && (!e.df || e.got) | none => false

/-- `CompAck` of the interface itself, to the home that the entry recorded (R140). -/
def State.ownCompAck (s : State) (f : Nat) (e : SrcEnt) : State :=
  s.send f { net := .rsp, dst := e.req.dst, opc := 2, slice := e.req.slice, txid := e.req.txid, line := e.req.line51 }

/-- A coherent request of a gone partner that has everything already is closed with `CompAck` (R184). -/
def State.closeDone (s : State) (f : Nat) : State :=
  ((s.nif f).src.filterMap (fun ie => match ie.2 with
    | some e => if e.complete ∧ e.state = .issued ∧ (e.req.opc = 1 ∨ e.req.opc = 2 ∨ e.req.opc = 3 ∨ e.req.opc = 9) then some (ie.1, e)
        else none
    | none => none)).foldl (fun s ie => (s.ownCompAck f ie.2).updNi f (fun n => { n with src := SMap.set none n.src ie.1 none })) s

/-- The requests of a gone partner: a coherent request waits for its answers, any other one for its answer; those that
never left are dropped. -/
def Ni.loseSrc (n : Ni) : Ni :=
  { n with
    src := n.src.filterMap (fun ie => match ie.2 with
      | some e => match e.state with
        | .ready | .nackWait | .epochWait => none
        | .answered => none
        | _ => some (ie.1, some { e with lost := true })
      | none => none)
    trans := [] }

/-- The unicast snoops that the partner has not taken, presented or waiting for a credit, are answered on its behalf (R184). -/
def State.proxySnoops (s : State) (f : Nat) : State :=
  if (cacheIdx f).isSome then
    (((s.nif f).f2p ++ (s.nif f).f2pWait).filter (fun b => b.net == .snp && !b.bc)).foldl (fun s b =>
      s.send f (proxyAnswer { net := .snp, opc := b.opc, rqfid := b.rqfid, txid := b.tag, line := b.line, slice := b.slice })) s
  else s

/-- Every entry of the target tracker is answered with a status, to its requester (R112, R346). -/
def State.answerTargets (s : State) (f status : Nat) : State :=
  let es := (s.nif f).tgt.filterMap (fun ie => ie.2)
  let s := es.foldl (fun s e => s.answer f e.req status) s
  s.updNi f (fun n => { n with tgt := [] })

/-- The lines of a caching partner whose port is gone: they are the partner's affair until it links up again, when it
holds every line in I (R185, R409). -/
def State.dropLines (s : State) (f : Nat) : State :=
  { s with cache := s.cache.filter (fun kc => kc.1 / 2 ^ 46 != f), recalls := SMap.set [] s.recalls f [] }

/-- What a fenced interface still injects: answers, its report, and the rest of a packet in progress (R345, R346). -/
def Ni.keptInj (n : Ni) : List Flit :=
  n.injq.filter (fun x => x.pkt.net != .req || x.pkt.opc == 0x1D ||
    (match n.injq.head? with | some h => h.idx != 0 && decide (h.pkt = x.pkt) | none => false))

/-- An interface is fenced: F2P_LINK falls, its target tracker is answered FENCED, parked and held requests are answered
FENCED, and it injects nothing else (R133, R184, R346). -/
def State.fenceNi (s : State) (f : Nat) : State :=
  if s.niFenced f then s
  else
    let n := s.nif f
    let s := (s.setMap .FC_FENCED_NIn f true).bareFence (.ni f)
    let s := s.setNi f { n with injq := n.keptInj, tc0 := n.tc0.filter (fun p => p.net != .req), epHold := [], hold := [], rob := [] }
    let s := s.answerTargets f 8
    let s := (n.rob ++ n.inbox.filter (fun p => p.net == .req)).foldl (fun s q => s.answer f q 8) s
    let s := (s.proxySnoops f).closeDone f
    let s := s.updNi f (fun n => { n.unlinked.loseSrc with
      inbox := n.inbox.filter (fun p => p.net != .req), relink := false })
    let s := (s.safReclaim f).dropLines f
    if (cacheIdx f).isSome then s.portGone f else s

/-- A link drop, or an overrun handled as one: PORT at L2 and a fence on CC, LC and MP, PORT at L1 and a later link-up by
itself on IO, SL, MG and DB (R106, R112, R185). -/
def State.linkDrop (s : State) (f : Nat) : State :=
  let hard : Bool := pclass f == 0 || pclass f == 1 || pclass f == 3
  let s := s.raiseNi f 11 (if hard then 2 else 1)
  let s := s.answerTargets f 7
  let s := (s.proxySnoops f).closeDone f
  let s := s.updNi f (fun n => { n.unlinked.loseSrc with relink := !hard })
  let s := if pclass f == 5 then s.setRf .TIM_STATUS (3 + (f - 0x120)) 1 0 else s
  let s := (s.safReclaim f).dropLines f
  let s := if (cacheIdx f).isSome then s.portGone f else s
  if hard then s.fenceNi f else s

end Sys2Proof.Machine
end

