-- ==== Sys2Proof/Machine/Pieces.lean ====
section
/-! DEFINITION. Transactions and pieces of a partner interface: formats, splitting, trackers, the answers that a partner
sees, and packets on their way into the network (R37, R41, R103, R113 to R119, R209, R311, R370). -/

namespace Sys2Proof.Machine

/-! ### Formats (R103, R113) -/

/-- Request opcodes that a class permits (R103). -/
def classPermits (f opc : Nat) : Bool :=
  match pclass f with
  | 0 => (1 ≤ opc && opc ≤ 9) || (0x12 ≤ opc && opc ≤ 0x1A)
  | 1 => 1 ≤ opc && opc ≤ 8
  | 4 => opc == 7 || opc == 8 || opc == 0xA || opc == 0x12 || opc == 0x13 || opc == 0x14 || (0x17 ≤ opc && opc ≤ 0x1A)
  | 5 => (1 ≤ opc && opc ≤ 10) || (0x12 ≤ opc && opc ≤ 0x1A)
  | 6 => opc == 7 || opc == 8 || opc == 0x12 || opc == 0x13 || opc == 0x15 || opc == 0x16
  | _ => false

/-- The offset lies in the image aperture PRG_DATA (R32). -/
def inPrgData (off : Nat) : Bool := 0x1000 ≤ off && off < 0x2000

/-- A line-form CsrWr (R32). -/
def beatLineForm (b : Beat) : Bool := b.opc == 0x16 && b.plen == 63

/-- The format constraints of R113. -/
def beatFormatOk (b : Beat) : Bool :=
  let opc := b.opc.toNat
  let len := b.plen.toNat + 1
  let a := b.addr.toNat
  if 1 ≤ opc ∧ opc ≤ 6 then len == 64 && a % 64 == 0
  else if opc = 9 ∨ opc = 10 then (len == 1 || len == 2 || len == 4 || len == 8) && a % len == 0
  else if opc = 0x14 then (len == 1 || len == 2 || len == 4 || len == 8 || len == 16 || len == 32 || len == 64) && a % len == 0
  else if opc = 0x15 then len == 4 && a % 4 == 0
  else if opc = 0x16 then (len == 4 && a % 4 == 0) || (len == 64 && a % 64 == 0 && inPrgData (a % 2 ^ 26))
  else if opc = 0x17 then decide (len ≤ 512)
  else if opc = 0x18 ∨ opc = 0x19 then len == 1
  else if opc = 0x1A then len == 1 && (decide (b.peer.toNat < 0x80) || decide (0x110 ≤ b.peer.toNat ∧ b.peer.toNat ≤ 0x11B))
  else true

/-- A transaction that R114 splits: ReadPass, WritePass, RdNC, WrNC. -/
def isSplit (opc : Nat) : Bool := opc == 7 || opc == 8 || opc == 0x12 || opc == 0x13

/-- A coherent opcode whose answers go to the partner as they come: GetS to PutE and AtomAuto (R116). -/
def isCohAns (opc : Nat) : Bool := (1 ≤ opc && opc ≤ 6) || opc == 9

/-- Lines that a byte range touches. -/
def linesOf (a len : Nat) : Nat := (a + len - 1) / 64 - a / 64 + 1

/-- Data beats that follow a request on P2F_DAT. -/
def dataBeatsOf (b : Beat) : Nat :=
  let opc := b.opc.toNat
  let len := b.plen.toNat + 1
  if opc = 4 ∨ opc = 5 ∨ opc = 0x14 then 1
  else if opc = 8 ∨ opc = 0x13 then linesOf b.addr.toNat len
  else if opc = 0x16 ∧ (beatLineForm b) then 1
  else if opc = 0x17 then (len + 63) / 64
  else 0

/-- Requests other than the split reads that expect data: `GetS`, `GetM`, `Upgr`, the atomics, `Deq` (R58, R209; `Deq` is DEDUCED,
log 98). -/
def expectsOne (opc : Nat) : Bool := (1 ≤ opc && opc ≤ 3) || opc == 9 || opc == 10 || opc == 0x18

/-- Data beats that a refused request returns as zeros with ERR (R58, R209). -/
def readBeatsOf (b : Beat) : Nat :=
  let opc := b.opc.toNat
  if opc = 7 ∨ opc = 0x12 then linesOf b.addr.toNat (b.plen.toNat + 1)
  else if expectsOne opc then 1
  else 0

/-! ### Splitting (R114) -/

/-- The largest naturally aligned power-of-two block that starts at `a` and fits in `rem` bytes; at most a line. -/
def blockLog (a rem : Nat) : Nat :=
  ([6, 5, 4, 3, 2, 1].find? (fun k => a % 2 ^ k == 0 && decide (2 ^ k ≤ rem))).getD 0

/-- The pieces of a byte range, ascending: address and SIZE. -/
def splitRange : Nat → Nat → Nat → List (Nat × Nat)
  | 0, _, _ => []
  | fuel + 1, a, rem =>
    if rem = 0 then []
    else
      let k := blockLog a rem
      (a, k) :: splitRange fuel (a + 2 ^ k) (rem - 2 ^ k)

/-- SIZE of a power-of-two length. -/
def sizeLog (len : Nat) : Nat := ([6, 5, 4, 3, 2, 1].find? (fun k => decide (2 ^ k ≤ len))).getD 0

/-- The pieces of a request: split, or one. -/
def beatPieces (b : Beat) : List (Nat × Nat) :=
  if isSplit b.opc.toNat then splitRange 128 b.addr.toNat (b.plen.toNat + 1)
  else if b.opc = 0x17 then [(b.addr.toNat, 0)]
  else [(b.addr.toNat, sizeLog (b.plen.toNat + 1))]

/-! ### Answers to the partner -/

/-- The Comp beat of a transaction.  Its PEER, the source, is the interface `f` that makes it (R105, R116). -/
def compBeat (f : Nat) (tag : BitVec 12) (status : Nat) (cnt : Nat := 0) : Beat :=
  { net := .rsp, opc := 0x10, tag := tag, status := BitVec.ofNat 8 status, cnt := BitVec.ofNat 8 cnt, peer := BitVec.ofNat 10 f }

/-- A line of zeros with ERR, which the interface `f` presents (R58, R209). -/
def errBeat (f : Nat) (tag : BitVec 12) (lidx : Nat) : Beat :=
  { net := .dat, opc := 8, tag := tag, lidx := BitVec.ofNat 7 lidx, data := zeros 64, err := true, peer := BitVec.ofNat 10 f }

/-- A request refused at its own interface: zeros and Comp for a read; a write's data is taken and dropped first (R58,
R115, R209). -/
def State.refuse (s : State) (f : Nat) (h : Beat) (status : Nat) (slice : Nat := 0) : State :=
  let s := s.countAnswer slice status
  if (dataBeatsOf h) = 0 then
    s.present f ((List.range (readBeatsOf h)).map (errBeat f h.tag) ++ [compBeat f h.tag status])
  else s.updNi f (fun n => { n with drops := n.drops ++ [(h.tag, (dataBeatsOf h), status, BitVec.ofNat 6 slice)] })

/-- A request that its class or its format does not permit: CODE 9, PROTOCOL at L1, BAD_REQ (R103). -/
def State.badReq (s : State) (f : Nat) (h : Beat) : State :=
  ((s.captureNi f 9 { net := .req, opc := h.opc, addr := h.addr, src := BitVec.ofNat 10 f }).raiseNi f 6 1 h.tag.toNat).refuse f h 9

/-! ### Packets into the network -/

/-- A packet that matches NI_TS_CTRL is captured, or counted as missed (R311). -/
def State.captureTs (s : State) (f : Nat) (egress : Bool) (p : Pkt) : State :=
  let c := s.reg .NI_TS_CTRL (niBase f)
  let hit : Bool := bitOf c (if egress then 1 else 0) && fld c 2 2 == netCode p.net && (bitOf c 10 || fld c 4 6 == p.opc.toNat)
  if ¬hit then s
  else s.latchWords .NI_TS_CAP [(.NI_TS_CAP, p.txid.toNat + p.opc.toNat * 2 ^ 12 + egress.toNat * 2 ^ 18 + 2 ^ 31),
    (.NI_TS_NS, nsOf s.ns), (.NI_TS_S, secOf s.ns % 2 ^ 32), (.NI_TS_FRAC, s.tim.frac)] (niBase f) 0 [.NI_TS_MISS]

/-! ### Sleeping destinations (R370) -/

/-- What R370 does with a packet towards a sleeping domain: it is held, or not. -/
def State.holdOrRefuse (s : State) (f : Nat) (p : Pkt) : Bool × State :=
  if s.wakeTc f p.tc ∧ (s.nif f).hold.length < 32 then (true, s.holdPkt f p)
  else (false, (if s.wakeTc f p.tc then s.bump .PWR_HOLD_OVF else s).count f 28)

/-! ### Transactions (R115, R116) -/

/-- The source-tracker entry of an index. -/
def State.srcEnt (s : State) (f i : Nat) : Option SrcEnt := SMap.get none (s.nif f).src i

/-- A source-tracker entry written or freed. -/
def State.setSrc (s : State) (f i : Nat) (e : Option SrcEnt) : State :=
  s.updNi f (fun n => { n with src := SMap.set none n.src i e })

/-- Free entries of a source tracker, ascending. -/
def State.freeSrc (s : State) (f : Nat) : List Nat := (List.range (srcCap f)).filter (fun i =>
  (s.srcEnt f i).isNone && !(s.nif f).own.any (fun t => t.toNat / 16 == i))

/-- The transaction of a serial number. -/
def Ni.tran (n : Ni) (t : Nat) : Option Trans := n.trans.find? (fun x => x.tid == t)

/-- The entries of a transaction. -/
def Ni.entsOf (n : Ni) (t : Nat) : List (Nat × SrcEnt) :=
  n.src.filterMap (fun ie => match ie.2 with
    | some e => if e.trans = t then some (ie.1, e) else none
    | none => none)

/-- A piece has its final answer. -/
def SrcEnt.done (e : SrcEnt) : Bool := e.state == .answered || e.state == .dead || e.squash

/-- The line that a transaction returns to its partner, from its pieces, whose target is the source that PEER names (R105,
R116). -/
def readLine (f : Nat) (tag : BitVec 12) (lidx : Nat) (es : List SrcEnt) : Beat :=
  let bad := es.any (fun e => e.status != 0 && e.status != 6)
  if bad then errBeat f tag lidx
  else
    let poison := es.any (fun e => e.status == 6 || (match e.data with | some (_, _, p) => p | none => false))
    let be := es.foldl (fun b e => b ||| spanBe (e.req.addr.toNat % 64) (2 ^ e.req.size.toNat)) (0 : Word64)
    let bytes := es.foldl (fun acc e => match e.data with
      | some (d, _, _) => mergeLine acc d (spanBe (e.req.addr.toNat % 64) (2 ^ e.req.size.toNat))
      | none => acc) (zeros 64)
    { net := .dat, opc := 8, tag := tag, lidx := BitVec.ofNat 7 lidx, data := bytes, be := be, poison := poison,
      peer := (es.head?.map (fun e => e.req.dst)).getD 0 }

/-- STATUS of a transaction: that of its lowest-addressed piece that failed (R116). -/
def transStatus (es : List SrcEnt) : Nat :=
  match sortOn (fun e : SrcEnt => e.off) (es.filter (fun e => e.status != 0)) with
  | e :: _ => e.status.toNat
  | [] => 0

/-- The entries of a completed transaction are freed; expired and squashed ones stay out of use (R118, R326). -/
def Ni.freeTrans (n : Ni) (t : Nat) : Ni :=
  { n with
    trans := n.trans.filter (fun x => x.tid != t)
    src := n.src.filterMap (fun ie => match ie.2 with
      | some e => if e.trans ≠ t then some (ie.1, some e)
                  else if e.state = .dead ∨ e.squash then some (ie.1, some { e with trans := 0 }) else none
      | none => none) }

/-- A transaction goes on: lines whose pieces are all answered are presented, and the one Comp once every piece is
(R116). -/
def State.progress (s : State) (f t : Nat) (cnt : Nat := 0) (ops : List Word64 := []) : State :=
  match (s.nif f).tran t with
  | none => s
  | some x =>
    let es := (s.nif f).entsOf t
    let opc := x.opc.toNat
    let isRead : Bool := opc == 7 || opc == 0x12
    let ready := if isRead then
        (List.range 65).filter (fun l => (SMap.get [] x.lines l).isEmpty && es.any (fun ie => ie.2.lidx == l)
          && es.all (fun ie => ie.2.lidx != l || ie.2.done))
      else []
    let s := s.present f (ready.map (fun l => readLine f x.tag l ((es.filter (fun ie => ie.2.lidx == l)).map (·.2))))
    let s := s.updNi f (fun n => { n with trans := n.trans.map (fun y => if y.tid = t
      then { y with lines := ready.foldl (fun m l => SMap.set [] m l [0]) y.lines } else y) })
    if es.all (fun ie => ie.2.done) then
      let st := transStatus (es.map (·.2))
      let c := compBeat f x.tag st cnt
      let zero := if st ≠ 0 ∧ expectsOne opc then [errBeat f x.tag 0] else []
      let bs := zero ++ (if ops.isEmpty then [c] else [{ c with last := false }] ++ ops.map (fun w => { c with operand := w }))
      ((s.present f bs).countAnswer (es.head?.map (fun ie => ie.2.req.slice.toNat) |>.getD 0) st).updNi f (fun n => n.freeTrans t)
    else s

/-- A piece has its final answer. -/
def State.pieceDone (s : State) (f i : Nat) (status : Nat) (data : Option (List Byte × Word64 × Bool) := none)
    (cnt : Nat := 0) (ops : List Word64 := []) : State :=
  match s.srcEnt f i with
  | none => s
  | some e =>
    (s.setSrc f i (some { e with state := .answered, status := BitVec.ofNat 8 status, data := data.orElse (fun _ => e.data) })).progress
      f e.trans cnt ops

/-- A coherent transaction ends with an error Comp of `peer`: zeros with ERR when it expected data, then the Comp (R58, R175). -/
def State.cohError (s : State) (f i status : Nat) (peer : Fid) : State :=
  match s.srcEnt f i with
  | none => s
  | some e =>
    match (s.nif f).tran e.trans with
    | some x =>
      let opc := x.opc.toNat
      let zero := if expectsOne opc then [errBeat f x.tag 0] else []
      ((s.present f (zero ++ [{ compBeat f x.tag status with peer := peer }])).countAnswer e.req.slice.toNat status).updNi f (fun n =>
        { n with trans := n.trans.filter (fun y => y.tid != x.tid), src := SMap.set none n.src i none })
    | none => s.setSrc f i none

/-- A piece ends with a status at its source interface, without an answer from the network. -/
def State.pieceFail (s : State) (f i status : Nat) : State :=
  match s.srcEnt f i with
  | none => s
  | some e =>
    if isCluster f then (s.setSrc f i (some { e with state := .answered })).ownComp f e.req status
    else if isCohAns e.req.opc.toNat then s.cohError f i status (BitVec.ofNat 10 f) else s.pieceDone f i status

/-- Power domain of the unit that owns a control-space offset (R370, R422). -/
def ownerDomain (off : Nat) : Nat :=
  match blockOf off with
  | some (.rtr, b) => 2 + 4 * ((b - 0x200000) / 0x2000 / 36)
  | some (.ni, b) => niDomain ((b - 0x600000) / 0x1000)
  | some (.hs, b) => unitDomain (0xC0 + (b - 0x800000) / 0x10000)
  | some (.ssb, b) => unitDomain (0x160 + (b - 0xC00000) / 0x10000)
  | some (.qm, b) => unitDomain (0x170 + (b - 0xD00000) / 0x40000)
  | some (.eng, b) => unitDomain (0x130 + (b - 0xE00000) / 0x2000 / 4)
  | some (.ecl, b) => unitDomain (0x130 + (b - 0xF80000) / 0x1000)
  | some (.ctr, b) =>
    let n := (b - 0x1000000) / 0x1000
    if n < 0x200 then unitDomain n else if n < 0x300 then 2 + 4 * ((n - 0x200) / 36) else 1
  | some (.prb, b) => 2 + 4 * ((b - 0x1380000) / 0x200 / 36)
  | _ => 1

/-- The owner of an offset is in a domain marked ASLEEP, or below Idle. -/
def State.ownerAsleep (s : State) (off : Nat) : Bool :=
  (s.domain (ownerDomain off)).asleep || decide (2 ≤ (s.domain (ownerDomain off)).st)

/-- A request addressed to a sleeping domain is held or answered DOMAIN_ASLEEP; a control request is never held (R370). -/
def State.sleepCheck (s : State) (f i : Nat) : State :=
  match s.srcEnt f i with
  | none => s
  | some e =>
    let off := e.req.addr.toNat % 2 ^ 26
    if e.req.opc = 0x15 ∨ e.req.opc = 0x16 then
      if (if inDirect off then s.asleepAt f e.req.dst.toNat else s.ownerAsleep off) then (s.count f 28).pieceFail f i 3 else s
    else if ¬s.asleepAt f e.req.dst.toNat then s
    else match s.holdOrRefuse f { e.req with txid := BitVec.ofNat 12 (16 * i) } with
      | (true, s) => s.setSrc f i (some { e with state := .held })
      | (false, s) => s.pieceFail f i 3

end Sys2Proof.Machine
end

