-- ==== Sys2Proof/Machine/Ports.lean ====
section
/-! DEFINITION. The commands of the partner ports' links: link-up, link drop, capability exchange, beats and credits (R104
to R123). -/

namespace Sys2Proof.Machine

/-- P2F signals of a port are looked at: its partner exists and FRST_N is not asserted (R109). -/
def State.portLives (s : State) (f : Nat) : Bool := isPartner f && !s.frst && s.started

/-- P2F_LINK_RISE. -/
def execP2fLinkRise (fid : Fid) (s : State) : Host.Outcome State Fault Refusal :=
  let f := fid.toNat
  if !isPartner f then .fault .noSuchUnit
  else if (s.nif f).p2fLink then .next s
  else
    let s := s.updNi f (fun n => { n with p2fLink := true })
    if !s.portLives f then .next s
    else if (s.nif f).relink then .next (s.startLink f)
    else .next (s.linkOn f)

/-- P2F_LINK_FALL: a link-up in progress is abandoned; a link that is UP drops (R112). -/
def execP2fLinkFall (fid : Fid) (s : State) : Host.Outcome State Fault Refusal :=
  let f := fid.toNat
  if !isPartner f then .fault .noSuchUnit
  else if !(s.nif f).p2fLink then .next s
  else
    let s := s.updNi f (fun n => { n with p2fLink := false, mustFall := false })
    if !s.portLives f then .next s
    else
      let n := s.nif f
      match n.link with
      | .waitPartner | .cap | .credit =>
        .next (s.setNi f { n.unlinked with link := .waitPartner, f2pLink := true, linkAt := s.tick })
      | .up => .next (s.linkDrop f)
      | _ => .next s

/-- The common word of two capability words; none where LEVELS have no common bit (R122, R123). -/
def slCommon (own far : Nat) : Option Nat :=
  let lv := fld own 0 2 &&& fld far 0 2
  if lv = 0 then none
  else
    let npp2 : Bool := bitOf lv 1
    some ((if npp2 then 2 else 1) + min (fld own 2 4) (fld far 2 4) * 4 + fld far 6 3 * 2 ^ 6
      + (if npp2 then fld own 9 8 &&& fld far 9 8 else 0) * 2 ^ 9)

/-- The port gives up its link-up: PORT at L1 (R111, R123). -/
def State.linkFail (s : State) (f : Nat) (st : LinkState) : State :=
  (s.updNi f (fun n => { n.unlinked with link := st })).raiseNi f 11 1

/-- SL_CAP_RECEIVE. -/
def execSlCapReceive (sl : Fin 6) (cap : BitVec 32) (s : State) : Host.Outcome State Fault Refusal :=
  let f := 0x120 + sl.val
  let n := s.nif f
  if n.link ≠ .cap then .next s
  else
    let own := s.reg .NI_SLCAP_OWN (niBase f)
    let s := s.setReg .NI_SLCAP_FAR cap.toNat (niBase f)
    match slCommon own cap.toNat with
    | none => .next (s.linkFail f .nocommon)
    | some w =>
      if fld cap.toNat 6 3 = fld own 6 3 then .next (s.linkFail f .nocommon)
      else .next ((s.setReg .NI_SLCAP_COMMON w (niBase f)).setNi f (n.giveInitial f))

/-- LINK_TIMEOUT; MG waits without a timeout in BOOT (R405). -/
def execLinkTimeout (fid : Fid) (s : State) : Host.Outcome State Fault Refusal :=
  let f := fid.toNat
  if !isPartner f then .fault .noSuchUnit
  else
    let n := s.nif f
    let late : Bool := decide (n.linkAt + usTicks (max 1 (s.rf .NI_LINK 16 16 (niBase f))) ≤ s.tick)
    let waits : Bool := (n.link == .waitPartner && !n.p2fLink && !(f == 0x126 && s.prim == .boot)) || n.link == .cap
    if late && waits then .next (s.linkFail f .timeout) else .next s

/-- The beats of one REQ or RSP message that has begun and not ended. -/
def Ni.openMsg (n : Ni) (c : Net) : List Beat :=
  let bs := n.beats.filter (fun b => b.net == c)
  let rec tail : List Beat → List Beat → List Beat
    | [], acc => acc
    | b :: rest, acc => tail rest (if b.last then [] else acc ++ [b])
  tail bs []

/-- P2F_BEAT: a beat is taken with a credit; a caching partner sends a coherent request only from the states that R169 lists, and its
lines move with it; a beat without a credit overruns the channel (R106, R169).  Towards a domain that is not in Run it is not
taken, and its VLD is a level wake (R121, R373). -/
def execP2fBeat (fid : Fid) (beat : Beat) (s : State) : Host.Outcome State Fault Refusal :=
  let f := fid.toNat
  if !isPartner f ∨ !hasP2f f beat.net then .fault .noSuchUnit
  else
    let n := s.nif f
    let first : Bool := beat.net == .req && (n.openMsg .req).isEmpty
    if s.prim = .halt ∨ !n.f2pLink then .next s
    else if !s.awake f then .next (s.wakeLevel (niDomain f))
    else if n.link ≠ .credit ∧ n.link ≠ .up then .next s
    else if first ∧ ¬s.mayRequest f beat then .next s
    else if n.given.get beat.net = 0 then
      .next (((s.captureNi f 12 { net := beat.net, opc := beat.opc }).linkDrop f).updNi f (fun n => { n with mustFall := n.p2fLink }))
    else
      let msg := n.openMsg beat.net ++ [beat]
      let beat := s.wbBeat f beat
      let s := (s.partnerBeat f beat).portBytes f 0 (beatBytes beat)
      if beat.net = .req ∧ beat.last then
        match msg with
        | h :: rest => .next (s.cacheRequest f h (rest.map (·.operand)))
        | [] => .next s
      else if beat.net = .dat then .next (s.cacheWbData f beat)
      else .next s

/-- CREDIT_RETURN: towards the partner, a credit that the interface owes; from the partner, a credit for the oldest beat on
the channel (R106, R110). -/
def execCreditReturn (fid : Fid) (net : Net) (toPartner : Bool) (s : State) : Host.Outcome State Fault Refusal :=
  let f := fid.toNat
  if !isPartner f ∨ !(if toPartner then hasP2f f net else hasF2p f net) then .fault .noSuchUnit
  else
    let n := s.nif f
    if (n.link ≠ .credit ∧ n.link ≠ .up ∧ (toPartner ∨ n.link ≠ .cap)) ∨ s.prim = .halt then .next s
    else if toPartner then
      if n.owed.get net = 0 ∨ 63 ≤ n.given.get net then .next s
      else .next ((s.setNi f { n with
        owed := n.owed.set net (n.owed.get net - 1), given := n.given.set net (n.given.get net + 1) }).linkCheck f)
    else if 63 ≤ n.cred.get net then .next s
    else
      let held := (n.f2p.filter (fun b => b.net == net)).length
      let n := if n.f2pOut.get net ≤ held then
          { n with f2p := match n.f2p.find? (fun b => b.net == net) with | some b => n.f2p.erase b | none => n.f2p }
        else n
      let n := { n with
        cred := n.cred.set net (n.cred.get net + 1), got := n.got.set net (n.got.get net + 1)
        f2pOut := n.f2pOut.set net (n.f2pOut.get net - 1) }
      .next ((s.setNi f n.drainWait).linkCheck f)

end Sys2Proof.Machine
end

