-- ==== Sys2Proof/Machine/Ingress.lean ====
section
/-! DEFINITION. What a partner's interface takes from its P2F channels (R37, R103 to R116, R124, R205 to R210, R314, R320,
R326, R370): requests, the data of writes, snoop answers, and answers to fabric requests. -/

namespace Sys2Proof.Machine

/-! ### Answers and data from the partner -/

/-- The source-tracker entry of a partner's TAG: its index and entry. -/
def Ni.entOfTag (n : Ni) (tag : BitVec 12) : Option (Nat × SrcEnt) :=
  match n.trans.find? (fun x => x.tag == tag) with
  | some x => (n.entsOf x.tid).head?
  | none => none

/-- A target-tracker entry by the fabric's tag. -/
def Ni.tgtEnt (n : Ni) (tag : BitVec 12) : Option TgtEnt := SMap.get none n.tgt tag.toNat

/-- The entry stays until `CompAck`: a coherent request that a socket link answers as home (R150). -/
def awaitsCompAck (q : Pkt) : Bool := q.opc == 1 || q.opc == 2 || q.opc == 3 || q.opc == 7 || q.opc == 9

/-- An answer without an entry is discarded and counted (R118). -/
def State.lateAnswer (s : State) (f : Nat) : State := s.bump .NI_LATE_CNT (niBase f)

/-- A beat that is taken: its buffer frees. -/
def State.takeBeat (s : State) (f : Nat) (b : Beat) : State := s.updNi f (fun n => n.leave b)

/-- The beats of the message that a REQ or RSP beat opens: up to its last one; none while it is incomplete. -/
def Ni.message (n : Ni) (c : Net) : Option (List Beat) :=
  let bs := n.beats.filter (fun b => b.net == c)
  match bs.findIdx? (·.last) with
  | some i => some (bs.take (i + 1))
  | none => none

/-- The header of a packet of the partner can be accepted in this cycle: one of TC0 only two slots before its own (R95). -/
def State.mayAccept (s : State) (f : Nat) (net : Net) (opc : Nat) (dst : Nat) : Bool :=
  s.tcOf f (s.epOf f) net opc != 0 || s.slotDue f net (s.epOf f) dst

/-- SLICE of what enters this socket on a link: the one that it carries, or the port's default slice on a link without SLICE
(R124). -/
def State.slSlice (s : State) (f : Nat) (b : Beat) : BitVec 6 :=
  if pclass f ≠ 5 then 0
  else if bitOf (s.slFeat f) 5 then b.slice
  else BitVec.ofNat 6 (fld (s.sliceDefault f (s.epOf f)) 0 6)

/-- SLICE stamped on a request of a partner; none: it is denied as unmapped (R124, R314). -/
def State.sliceStamp (s : State) (f : Nat) (ep : Bool) (h : Beat) : Option Nat :=
  if pclass f = 5 then some (s.slSlice f h).toNat else s.sliceFor f ep h.pidv h.pid.toNat

/-- `CompAck` of the partner: sent to the home that the entry recorded; the entry frees (R140). -/
def State.takeCompAck (s : State) (f : Nat) (h : Beat) : State :=
  match (s.nif f).entOfTag h.tag with
  | some (i, e) =>
    let s := s.send f { net := .rsp, dst := e.req.dst, opc := 2, slice := e.req.slice,
                        txid := e.req.txid, line := e.req.line51 }
    s.updNi f (fun n => { n with trans := n.trans.filter (fun x => x.tid != e.trans), src := SMap.set none n.src i none })
  | none => s.lateAnswer f

/-- A partner's answer on RSP to a fabric request (R116, R118); DF is 0 but in `GrantM` (R51). -/
def State.takeTgtRsp (s : State) (f : Nat) (h : Beat) (rest : List Beat) : State :=
  match (s.nif f).tgtEnt h.tag with
  | some e =>
    let q := e.req
    let ops := rest.map (·.operand)
    let s := s.send f { net := .rsp, dst := q.src, opc := h.opc, txid := q.txid, slice := q.slice, line := q.line51, status := h.status,
                        cnt := h.cnt, df := h.opc == 7 && h.df, ops := ops,
                        len := if h.opc = 6 then 2 else if ops.isEmpty then 0 else 1 }
    if h.opc = 7 then s.updNi f (fun n => { n with tgt := SMap.set none n.tgt h.tag.toNat (some { e with answered := true }) })
    else s.updNi f (fun n => { n with tgt := SMap.set none n.tgt h.tag.toNat none })
  | none => s.lateAnswer f

/-- Where an RSP message of the partner goes; none: to no live entry. -/
def State.rspDst (s : State) (f : Nat) (h : Beat) : Option Fid :=
  if h.opc = 1 then some h.peer
  else if h.opc = 2 then ((s.nif f).entOfTag h.tag).map (fun ie => ie.2.req.dst)
  else ((s.nif f).tgtEnt h.tag).map (fun e => e.req.src)

/-- One RSP message of the partner; none while its TC0 slot is not due. -/
def State.takeRsp (s : State) (f : Nat) (msg : List Beat) : Option State :=
  match msg with
  | [] => none
  | h :: rest =>
    if (s.rspDst f h).any (fun d => !s.mayAccept f .rsp h.opc.toNat d.toNat) then none
    else
      let s := msg.foldl (fun s b => s.takeBeat f b) s
      if h.opc = 1 then
        some (s.send f { net := .rsp, dst := h.peer, opc := 1, txid := h.tag, status := h.status, cnt := h.cnt, line := h.line,
                         slice := s.slSlice f h })
      else if h.opc = 2 then some (s.takeCompAck f h)
      else some (s.takeTgtRsp f h rest)

/-- One SNP beat of a socket link that stands as home (R160); none while its TC0 slot is not due. -/
def State.takeSnp (s : State) (f : Nat) (b : Beat) : Option State :=
  if ¬s.mayAccept f .snp b.opc.toNat b.peer.toNat then none
  else
    some ((s.takeBeat f b).send f { net := .snp, dst := b.peer, opc := b.opc, txid := b.tag, line := b.line, rqfid := b.rqfid,
                                    htid := b.htid, slice := s.slSlice f b })

/-- A data beat belongs to a write of the partner. -/
def isWriteData (b : Beat) : Bool := (b.opc == 0x18 || b.opc == 0x19 || b.opc == 0x20) && b.peer == 0

/-- A write's data beat joins its pieces (R115); the beats of a message collect until all are there. -/
def State.joinData (s : State) (f : Nat) (x : Trans) (b : Beat) : State :=
  let n := s.nif f
  if b.opc = 0x20 then
    let lines := SMap.set [] x.lines b.lidx.toNat b.data
    let es := n.entsOf x.tid
    let all : Bool := (List.range x.pieces).all (fun i => !(SMap.get [] lines i).isEmpty)
    let bytes := ((List.range x.pieces).foldl (fun acc i => acc ++ SMap.get [] lines i) []).take x.bytes
    let bad := x.poison || b.poison
    let n := { n with trans := n.trans.map (fun y => if y.tid = x.tid then { y with lines := lines, poison := bad } else y) }
    let n := if all then { n with src := es.foldl (fun m ie =>
        SMap.set none m ie.1 (some { ie.2 with data := some (bytes, BitVec.allOnes 64, bad) })) n.src } else n
    s.setNi f n
  else
    s.setNi f { n with src := n.src.map (fun ie => (ie.1, ie.2.map (fun e =>
      if e.trans = x.tid ∧ e.lidx = b.lidx.toNat ∧ e.data.isNone then { e with data := some (b.data, b.be, b.poison) } else e))) }

/-- A data beat of a refused write is dropped; after the last one the Comp follows (R209). -/
def State.dropData (s : State) (f : Nat) (d : BitVec 12 × Nat × Nat × BitVec 6) : State :=
  let (tag, left, status, slice) := d
  if left ≤ 1 then
    (s.updNi f (fun n => { n with drops := n.drops.erase d })).present f [compBeat f tag status]
  else s.updNi f (fun n => { n with drops := n.drops.map (fun y => if y = d then (tag, left - 1, status, slice) else y) })

/-- One DAT beat of the partner; none while it waits for its request to be accepted, or for its TC0 slot. -/
def State.takeDat (s : State) (f : Nat) (b : Beat) : Option State :=
  let n := s.nif f
  let tgt := n.tgtEnt b.tag
  if isWriteData b then
    match n.drops.find? (fun d => d.1 == b.tag), n.trans.find? (fun x => x.tag == b.tag) with
    | some d, _ => some ((s.takeBeat f b).dropData f d)
    | none, some x => some ((s.takeBeat f b).joinData f x b)
    | none, none =>
      if n.beats.any (fun q => q.net == .req && q.tag == b.tag) then none else some ((s.takeBeat f b).lateAnswer f)
  else if isCaching f ∧ ¬(pclass f = 5 ∧ b.peer = 0 ∧ tgt.isSome) then
    if ¬s.mayAccept f .dat b.opc.toNat b.peer.toNat then none
    else
      some ((s.takeBeat f b).send f { net := .dat, dst := b.peer, opc := b.opc, txid := b.tag, data := b.data, be := b.be, line := b.line,
                                      psn := b.poison, slice := s.slSlice f b })
  else if tgt.any (fun e => !s.mayAccept f .dat b.opc.toNat e.req.src.toNat) then none
  else
    let s := s.takeBeat f b
    match tgt with
    | some e =>
      let s := s.send f { net := .dat, dst := e.req.src, opc := b.opc, txid := e.req.txid, slice := e.req.slice, line := e.req.line51,
                          data := b.data, be := b.be, psn := b.poison }
      some (if pclass f = 5 ∧ awaitsCompAck e.req then
          s.updNi f (fun n => { n with tgt := SMap.set none n.tgt b.tag.toNat (some { e with answered := true }) })
        else s.updNi f (fun n => { n with tgt := SMap.set none n.tgt b.tag.toNat none }))
    | none => some (s.lateAnswer f)

/-! ### Requests -/

/-- Exempt from slice operations: GetS to PutE and AtomAuto of a caching partner (chapter 13). -/
def sliceExempt (f opc : Nat) : Bool := isCaching f && ((1 ≤ opc && opc ≤ 6) || opc == 9)

/-- The definition of a slice is valid in the current bank (R316). -/
def State.sliceOn (s : State) (sl : Nat) : Bool := bitOf (s.sliceDef s.epo.cur sl) 0

/-- Slice control's record of a slice. -/
def State.slice (s : State) (sl : Nat) : Slc := SMap.get {} s.slc sl

/-- A held request of the slice is withheld by a freeze (R320). -/
def State.sliceHolds (s : State) (f opc sl : Nat) : Bool :=
  !sliceExempt f opc && ((s.slice sl).mode == .freezing || (s.slice sl).mode == .frozen)

/-- A held request of the slice is answered SLICE_RESET, from 64 FCLK after the write (R326). -/
def State.sliceRefuses (s : State) (f opc sl : Nat) : Bool :=
  !sliceExempt f opc && (s.slice sl).mode == .resetting && decide ((s.slice sl).at_ + 64 ≤ s.tick)

/-- The feature of a socket link that a request of `src` needs is absent from a common FEAT (R122, R124).  The messages that
COMMIT covers are the WrNC of an engine cluster: the log's thread replicates with line stores to the far socket (R296; log
92). -/
def featLacks (feat src opc : Nat) : Bool :=
  (opc == 0x0A && !bitOf feat 0) || (opc == 0x14 && !bitOf feat 1)
    || ((opc == 0x17 || opc == 0x18 || opc == 0x19) && !bitOf feat 2) || (opc == 0x13 && isCluster src && !bitOf feat 4)

/-- A request of a class of `src` towards or from a socket link cannot cross it (R124). -/
def State.cannotCross (s : State) (sl src opc : Nat) (tc : BitVec 2) : Bool :=
  featLacks (s.slFeat sl) src opc || (tc == 0 && decide (s.rf .NI_SLCAP_COMMON 2 4 (niBase sl) < 3))

/-- The destination of a request that carries no memory address: Saffron, the hub or a bank node's window (R422), a queue
manager, a partner. -/
def fixedDst (h : Beat) : Option Nat :=
  let opc := h.opc.toNat
  if opc = 0x14 then some 0x181
  else if opc = 0x15 ∨ opc = 0x16 then some (if inDirect h.addr.toNat then 0x160 + fld h.addr.toNat 21 4 else 0x180)
  else if opc = 0x17 ∨ opc = 0x18 ∨ opc = 0x19 then some (0x170 + fld h.addr.toNat 14 2)
  else if opc = 0x1A then some h.peer.toNat
  else none

/-- The prechecks of a request's pieces: its pieces with their destinations, or the first denial (R115, R207). -/
def State.precheck (s : State) (f : Nat) (ep : Bool) (sl : Nat) (sd : Option Nat) (h : Beat) :
    Except (Nat × Nat × Nat) (List (Nat × Nat × Nat)) :=
  (beatPieces h).foldr (fun ak acc =>
    match s.ruleCheck (checkerOf f) ep sl ak.1 h.opc.toNat sd with
    | .deny cause entry => .error (cause, entry, ak.1)
    | .allow entry =>
      match acc with
      | .error e => .error e
      | .ok ps =>
        let dst := match fixedDst h with
          | some d => d
          | none => (s.direct f ep h.opc.toNat ak.1 entry).getD 0x3FE
        .ok ((ak.1, ak.2, dst) :: ps)) (.ok [])

/-- The request that one piece sends (R50, R55, R114, R141). -/
def pieceReq (h : Beat) (ops : List Word64) (sl : Nat) (sd : Option Nat) (tc : BitVec 2) (ak : Nat × Nat × Nat) : Pkt :=
  let opc := h.opc.toNat
  { net := .req, dst := BitVec.ofNat 10 ak.2.2, opc := h.opc, tc := tc, slice := BitVec.ofNat 6 sl,
    addr := BitVec.ofNat 52 ak.1, size := BitVec.ofNat 3 ak.2.1, rlx := h.rlx || isCohAns opc, sd := BitVec.ofNat 4 (sd.getD 0),
    aop := if opc = 9 ∨ opc = 10 then h.aop else 0, ops := ops,
    len := if opc = 9 ∨ opc = 10 then (if h.aop = 5 then 2 else 1) else if opc = 0x16 ∧ ¬(beatLineForm h) then 1 else 0 }

/-- The slice counters of an accepted request of an opcode and length (R390). -/
def State.countOp (s : State) (sl opc len : Nat) : State :=
  let s := s.countSlice sl 0
  let s := if opc = 1 ∨ opc = 2 ∨ opc = 7 ∨ opc = 0x12 ∨ opc = 0x15 then s.countSlice sl 1 len
    else if opc = 4 ∨ opc = 5 ∨ opc = 8 ∨ opc = 0x13 ∨ opc = 0x14 ∨ opc = 0x16 ∨ opc = 0x17 then s.countSlice sl 2 len else s
  if opc = 0x17 then s.countSlice sl 3 else if opc = 0x18 then s.countSlice sl 4
  else if opc = 0x14 then s.countSlice sl 5 else if opc = 0x0A then s.countSlice sl 6 else s

/-- A transaction is entered into the source tracker: one entry per piece (R115). -/
def State.enter (s : State) (f : Nat) (h : Beat) (ops : List Word64) (sl : Nat) (sd : Option Nat) (tc : BitVec 2) (ep : Bool)
    (ps : List (Nat × Nat × Nat)) : State :=
  let n := s.nif f
  let t := n.serial + 1
  let a0 := h.addr.toNat
  let ents := (s.freeSrc f).zip ps
  let x : Trans := { tag := h.tag, opc := h.opc, pieces := if h.opc = 0x17 then dataBeatsOf h else ps.length, tid := t,
                     accepted := s.tick, sock := h.sock, bytes := h.plen.toNat + 1 }
  let s := s.setNi f { n with
    serial := t
    trans := n.trans ++ [x]
    src := ents.foldl (fun m ia =>
      let q := s.stampEp f ep (pieceReq h ops sl sd tc ia.2)
      SMap.set none m ia.1 (some { trans := t, req := { q with txid := BitVec.ofNat 12 (16 * ia.1) }, off := ia.2.1 - a0,
                                   lidx := ia.2.1 / 64 - a0 / 64, since := s.tick })) n.src }
  let s := (s.count f 17 ps.length).countOp sl h.opc.toNat (h.plen.toNat + 1)
  ents.foldl (fun s ia => (s.captureTs f false { pieceReq h ops sl sd tc ia.2 with txid := BitVec.ofNat 12 (16 * ia.1) }).sleepCheck
    f ia.1) s

/-- One request message at ingress stage 1; none while it is withheld (R95, R103, R115, R124, R160, R314, R320, R412).  The response
buffer of a piece is part of its tracker entry, so one test of the free entries covers both (R115). -/
def State.takeReq (s : State) (f : Nat) (msg : List Beat) : Option State :=
  match msg with
  | [] => none
  | h :: rest =>
    let opc := h.opc.toNat
    let ctl : Bool := opc == 0x15 || opc == 0x16
    let early : Bool := f == 0x126 && !s.epo.first
    let spine : Bool := (f == 0x126 || f == 0x127) && ctl && !inDirect h.addr.toNat
    let shut : Bool := s.prim == .drain || s.prim == .quiesced || s.prim == .test || s.prim == .halt
    if (s.nif f).link ≠ .up ∨ (shut ∧ ¬spine) then none
    else
      let go (s : State) : State := msg.foldl (fun s b => s.takeBeat f b) s
      if ¬classPermits f opc ∨ ¬(beatFormatOk h) ∨ (early ∧ ¬ctl) then some ((go s).badReq f h)
      else if ctl ∧ inDirect h.addr.toNat ∧ (s.prim = .boot ∨ s.prim = .load) then some ((go s).refuse f h 9)
      else if 1 ≤ opc ∧ opc ≤ 9 ∧ 2 ^ 47 ≤ h.addr.toNat then some ((go s).badReq f h)
      else
        let ep := s.epOf f
        if (s.freeSrc f).length < (beatPieces h).length then none
        else match s.sliceStamp f ep h with
        | none => some (((go s).unmapped f).refuse f h 1)
        | some sl =>
          if s.sliceHolds f opc sl then none
          else if s.sliceRefuses f opc sl then some ((go s).refuse f h 4 sl)
          else
            let tc := s.tcOf f ep .req opc
            if pclass f = 5 ∧ s.cannotCross f f opc tc then
              some ((((go s).bump .NI_UNSUP_CNT (niBase f)).count f 29).refuse f h 5 sl)
            else
              let sd := s.domainOf ep f
              match s.precheck f ep sl sd h with
              | .error (cause, entry, pa) => some (((go s).denied f true f sd opc cause entry pa).refuse f h 1 sl)
              | .ok ps =>
                if ps.any (fun p => 0x120 ≤ p.2.2 && p.2.2 < 0x126 && s.cannotCross p.2.2 f opc tc) then
                  some ((((go s).bump .NI_UNSUP_CNT (niBase f)).count f 29).refuse f h 5 sl)
                else if (ps.head?).any (fun p => !s.mayAccept f .req opc p.2.2) then none
                else some (((go s).overrideUsed f opc sd).enter f h (rest.map (·.operand)) sl sd tc ep ps)

/-- A request that can be taken, with the checks of the entries that its lookups read: `table` of the interface's own tables,
`rule` of the rule entry.  An uncorrectable own entry fences the interface of a leaf instead (R217, R338, R353). -/
def State.takeChecked (s : State) (f : Nat) (m : List Beat) (table rule : WordErr) : Option State :=
  match s.takeReq f m, m.head? with
  | some _, some h =>
    match s.tableCheck (fidUnit f) table with
    | (.uncorrectable, s) => if f < 0x120 then some (s.fenceNi f) else s.takeReq f m
    | (_, s) =>
      let ep := s.epOf f
      let sl := (s.sliceStamp f ep h).getD 0
      (s.ruleEcc f ep sl h.addr.toNat h.opc.toNat rule).takeReq f m
  | _, _ => none

/-- INGRESS_ACCEPT: the interface takes the oldest message that it can take, channel by channel (R110, R115). -/
def execIngressAccept (fid : Fid) (table rule : WordErr) (s : State) : Host.Outcome State Fault Refusal :=
  let f := fid.toNat
  if !isPartner f then .fault .noSuchUnit
  else
    let n := s.nif f
    if n.link ≠ .up then .next s
    else
      let rsp := if s.prim = .halt then none else (n.message .rsp).bind (fun m => s.takeRsp f m)
      let snp := if s.prim = .halt then none else (n.beats.find? (fun b => b.net == .snp)).bind (fun b => s.takeSnp f b)
      let dat := if s.prim = .halt then none else (n.beats.filter (fun b => b.net == .dat)).findSome? (fun b => s.takeDat f b)
      let req := match n.message .req with | some m => s.takeChecked f m table rule | none => none
      .next ((rsp.orElse (fun _ => snp.orElse (fun _ => dat.orElse (fun _ => req)))).getD s)

end Sys2Proof.Machine
end

