-- ==== Sys2Proof/Machine/Answers.lean ====
section
/-! DEFINITION. The source side of a partner's interface: ordered streams, issue of pieces, answers, reissue, tracker
expiry, and held packets (R41, R114 to R119, R129 to R132, R139, R140, R156, R157, R184, R370). -/

namespace Sys2Proof.Machine

/-! ### Ordered streams and the HOLD record (R41, R119) -/

/-- Key of a stream with its class: 4 × DST + TC. -/
def streamKey (p : Pkt) : Nat := 4 * p.dst.toNat + p.tc.toNat

/-- HOLD of a stream at an interface, in FCLK; none without a hold entry (R395). -/
def State.holdOf (s : State) (f : Nat) (p : Pkt) : Option Nat :=
  (List.range 64).findSome? (fun i =>
    let e := s.tab (bankOf p.ep) 10 f 0 (20 + i)
    if bitOf e 12 ∧ fld e 0 10 = p.dst.toNat ∧ fld e 10 2 = p.tc.toNat then some (fld e 16 16) else none)

/-- The stream's last injection in the other epoch is less than its HOLD ago: FCLK counted from that injection. -/
def State.holdRuns (s : State) (f : Nat) (p : Pkt) : Bool :=
  let last := SMap.get 0 (s.nif f).lastOld (2 * streamKey p + (!p.ep).toNat)
  match s.holdOf f p with
  | some h => decide (0 < last ∧ s.tick + 1 < last + h)
  | none => false

/-- A packet of the current epoch waits: the stream's hold has not passed yet, whether or not the drain has ended, or an earlier
packet of the stream is held. -/
def State.streamHeld (s : State) (f : Nat) (p : Pkt) : Bool :=
  !p.rlx && p.ep == s.epo.cur
    && (s.holdRuns f p || (s.nif f).epHold.any (fun x => x.net == .req && streamKey x == streamKey p))

/-- A packet of an ordered stream is the stream's last injection in its epoch so far. -/
def State.noteOld (s : State) (f : Nat) (p : Pkt) : State :=
  if p.rlx ∨ p.net ≠ .req then s
  else s.updNi f (fun n => { n with lastOld := SMap.set 0 n.lastOld (2 * streamKey p + p.ep.toNat) (s.tick + 1) })

/-- The stream has room for another outstanding packet (R119). -/
def State.streamRoom (s : State) (f : Nat) (p : Pkt) : Bool := p.rlx || decide (SMap.get 0 (s.nif f).seqOut p.dst.toNat < 16)

/-- TXID [3:0] of the next packet of its stream; 0 for a relaxed one. -/
def State.streamTxid (s : State) (f : Nat) (p : Pkt) : BitVec 12 :=
  BitVec.ofNat 12 (p.txid.toNat / 16 * 16 + if p.rlx then 0 else SMap.get 0 (s.nif f).seqNext p.dst.toNat % 16)

/-- The packet takes its number in the stream. -/
def State.streamTake (s : State) (f : Nat) (p : Pkt) : State :=
  if p.rlx then s
  else s.updNi f (fun n => { n with
    seqNext := SMap.set 0 n.seqNext p.dst.toNat ((SMap.get 0 n.seqNext p.dst.toNat + 1) % 16)
    seqOut := SMap.upd 0 n.seqOut p.dst.toNat (· + 1) })

/-- A packet of a stream is outstanding no more. -/
def State.streamLeave (s : State) (f : Nat) (p : Pkt) : State :=
  if p.rlx then s else s.updNi f (fun n => { n with seqOut := SMap.upd 0 n.seqOut p.dst.toNat (· - 1) })

/-- A stamped packet and its data go to the router, or both wait in the HOLD of their stream. -/
def State.pushHeld (s : State) (f : Nat) (ps : List Pkt) : State :=
  match ps with
  | [] => s
  | p :: _ =>
    if s.streamHeld f p then s.updNi f (fun n => { n with epHold := n.epHold ++ ps })
    else ps.foldl (fun s q => (s.noteOld f q).push f q) s

/-- A packet of an internal unit in an ordered stream: numbered, stamped and sent (R119, R127). -/
def State.sendOrdered (s : State) (f : Nat) (p : Pkt) (data : List Pkt) : State :=
  let ep := s.epOf f
  let q := s.stampEp f ep { p with txid := s.streamTxid f p, tc := s.tcOf f ep .req p.opc.toNat }
  let ds := data.map (fun d => s.stampEp f ep { d with txid := q.txid, tc := s.tcOf f ep .dat d.opc.toNat })
  let s := s.streamTake f q
  if ¬s.asleepAt f p.dst.toNat then s.pushHeld f (q :: ds)
  else if s.wakeTc f q.tc ∧ (s.nif f).hold.length < 32 then
    (s.holdPkt f q).updNi f (fun n => { n with hold := n.hold ++ ds.map (fun d => (d, s.tick)) })
  else ((if s.wakeTc f q.tc then s.bump .PWR_HOLD_OVF else s).count f 28).ownComp f q 3

/-- EPOCH_HOLD_RELEASE: the first held stream whose HOLD has passed goes out, in order (R41). -/
def execEpochHoldRelease (fid : Fid) (s : State) : Host.Outcome State Fault Refusal :=
  let f := fid.toNat
  if !assigned f then .fault .noSuchUnit
  else
    let n := s.nif f
    match n.epHold.find? (fun p => p.net == .req && !s.holdRuns f p) with
    | none => .next s
    | some p =>
      let mine (x : Pkt) : Bool := x.dst == p.dst && x.tc == p.tc && x.net == .req
      let txids := (n.epHold.filter mine).map (·.txid)
      let out := n.epHold.filter (fun x => mine x || (x.net == .dat && x.dst == p.dst && txids.contains x.txid))
      let s := s.setNi f { n with epHold := n.epHold.filter (fun x => !out.contains x) }
      .next (out.foldl (fun s q => (s.noteOld f q).push f q) s)

/-! ### Issue (R114, R115, R117, R129, R130) -/

/-- POOLMAX of a master: its valid entry's, or the default (R128). -/
def State.safPoolmax (s : State) (f : Nat) : Nat :=
  match (List.range 32).find? (fun i => s.rf .SAF_ENTn 24 1 0 i == 1 && s.rf .SAF_ENTn 0 10 0 i == f) with
  | some i => s.rf .SAF_ENTn 17 7 0 i
  | none => s.rf .SAF_POOLDEF 0 7

/-- The data packet of a write piece or message. -/
def pieceData (q : Pkt) (tc : BitVec 2) (d : List Byte × Word64 × Bool) : Pkt :=
  let msg : Bool := q.opc == 0x17
  { q with
    net := .dat
    opc := if msg then 0x20 else if q.size = 6 ∨ q.opc = 0x16 then 0x18 else 0x19
    tc := tc, vc := vcOf tc, data := d.1, psn := d.2.2, rlx := true, line := q.line51
    be := if msg then d.2.1 else spanBe (q.addr.toNat % 64) (2 ^ q.size.toNat)
    len := if msg then BitVec.ofNat 3 ((d.1.length + 63) / 64 - 1) else 0 }

/-- A piece can leave: its data is there, its stream has room, and Saffron's rationing lets its header go. -/
def State.canIssue (s : State) (f : Nat) (es : List (Nat × SrcEnt)) (e : SrcEnt) : Bool :=
  let n := s.nif f
  e.state == .ready && (!carriesData e.req || e.data.isSome) && s.streamRoom f e.req
    && !(es.any (fun ie => ie.2.trans == e.trans && decide (ie.2.off < e.off) && ie.2.state == .ready))
    && !(e.req.opc == 0x14 && n.safCred == 0 && decide (s.safPoolmax f ≤ n.safPool))

/-- Entries of a tracker with their indices. -/
def Ni.ents (n : Ni) : List (Nat × SrcEnt) := n.src.filterMap (fun ie => ie.2.map (fun e => (ie.1, e)))

/-- One piece is sent: its request, with its data behind it; a SeqWr without a credit sends its header alone. -/
def State.issue (s : State) (f i : Nat) (e : SrcEnt) : State :=
  let q := { e.req with txid := if e.again then e.req.txid else s.streamTxid f e.req, df := e.req.opc == 0x14 && decide (0 < (s.nif f).safCred) }
  let start := if e.start = 0 then s.tick + 1 else e.start
  let datTc := s.tcOf f q.ep .dat (if q.opc = 0x17 then 0x20 else if q.size = 6 ∨ q.opc = 0x16 then 0x18 else 0x19)
  let dat := match e.data with | some d => if carriesData q then [pieceData q datTc d] else [] | none => []
  let s := s.streamTake f q
  if q.opc = 0x14 ∧ (s.nif f).safCred = 0 then
    ((s.setSrc f i (some { e with req := q, state := .poolWait, start := start })).updNi f
      (fun n => { n with safPool := n.safPool + 1 })).pushHeld f [q]
  else
    let s := if q.opc = 0x14 then s.updNi f (fun n => { n with safCred := n.safCred - 1 }) else s
    (s.setSrc f i (some { e with req := q, state := .issued, start := start, credit := q.opc == 0x14 })).pushHeld f (q :: dat)

/-- PIECE_ISSUE: the next piece that can leave, of the earliest transaction (R114). -/
def execPieceIssue (fid : Fid) (s : State) : Host.Outcome State Fault Refusal :=
  let f := fid.toNat
  if !tracked f then .fault .noSuchUnit
  else if s.niFenced f ∨ (s.prim = .halt ∧ f ≠ 0x126 ∧ f ≠ 0x127) then .next s
  else
    let es := (s.nif f).ents
    match sortOn (fun ie : Nat × SrcEnt => ie.2.trans * 4096 + ie.2.off) (es.filter (fun ie => s.canIssue f es ie.2)) with
    | (i, e) :: _ => .next (s.issue f i e)
    | [] => .next s

/-! ### Answers (R116, R118, R129, R139, R157, R184) -/

/-- A coherent transaction, or a far atomic, ends: its entry frees. -/
def State.endCoh (s : State) (f i : Nat) (e : SrcEnt) : State :=
  s.updNi f (fun n => { n with trans := n.trans.filter (fun y => y.tid != e.trans), src := SMap.set none n.src i none })

/-- What the interface has seen of a coherent request's answers. -/
def SrcEnt.see (e : SrcEnt) (p : Pkt) : SrcEnt :=
  if p.net = .dat then { e with got := true }
  else if p.opc = 7 then { e with gm := some p.cnt.toNat, df := p.df }
  else if p.opc = 1 then { e with acks := e.acks + 1 }
  else e

/-- An answer that leaves its coherent request open: data, `GrantM`, `InvAck`. -/
def isGrantPart (p : Pkt) : Bool := p.net == .dat || p.opc == 7 || p.opc == 1

/-- An answer for a partner that has gone is discarded; a coherent request is closed with `CompAck` (R184). -/
def State.lostAnswer (s : State) (f i : Nat) (e : SrcEnt) (p : Pkt) : State :=
  if (isCohAns e.req.opc.toNat) ∧ isGrantPart p then
    let e := e.see p
    if e.complete then (s.ownCompAck f e).setSrc f i none else s.setSrc f i (some e)
  else if e.req.opc = 7 ∧ p.net = .dat then ((s.ownCompAck f e).streamLeave f e.req).setSrc f i none
  else if e.req.opc = 0x18 ∧ p.net = .dat then s
  else (s.streamLeave f e.req).setSrc f i none

/-- A `Nack`: the piece waits for its reissue (R156, R157).  The reissue keeps its TXID, whose number has had its turn at the
destination, so it goes as a relaxed packet outside the stream (DEDUCED, log 99). -/
def State.nacked (s : State) (f i : Nat) (e : SrcEnt) (p : Pkt) : State :=
  (s.setSrc f i (some { e with state := if p.cnt = 0 then .nackWait else .epochWait, since := s.tick, again := true,
                               req := { e.req with rlx := true }, epoch := s.epo.count })).streamLeave f e.req

/-- An answer to a coherent request goes to the partner as it came, under its TAG (R105, R116). -/
def State.cohAnswer (s : State) (f i : Nat) (e : SrcEnt) (x : Trans) (p : Pkt) : State :=
  let b : Beat := { net := p.net, opc := p.opc, tag := x.tag, peer := p.src, status := p.status, cnt := p.cnt, df := p.df,
                    data := p.data, be := if p.net = .dat then BitVec.allOnes 64 else 0, poison := p.psn, slice := p.slice }
  let s := if isCohAns e.req.opc.toNat then s else s.streamLeave f e.req
  if isGrantPart p then (s.present f [b]).setSrc f i (some (e.see p))
  else if p.opc = 0x10 then s.cohError f i p.status.toNat p.src
  else if p.opc = 6 then
    (s.present f [{ b with last := false }, { b with operand := p.ops.headD 0 }]).endCoh f i e
  else (s.present f [b]).endCoh f i e

/-- A `Deq`'s message goes to the partner beat by beat (R105). -/
def msgBeats (tag : BitVec 12) (p : Pkt) : List Beat :=
  (List.range (p.len.toNat + 1)).map (fun l =>
    let d := (p.data.drop (64 * l)).take 64
    { net := .dat, opc := 0x20, tag := tag, lidx := BitVec.ofNat 7 l, data := d ++ zeros (64 - d.length), peer := p.src, slice := p.slice,
      be := BitVec.ofNat 64 (2 ^ d.length - 1), poison := p.psn })

/-- A `Deq` ends once its Comp and, when it brought a message, the message are there. -/
def State.deqStep (s : State) (f i : Nat) (e : SrcEnt) : State :=
  match e.gm with
  | some c => if c = 0 ∨ e.got then s.pieceDone f i 0 none c else s.setSrc f i (some e)
  | none => s.setSrc f i (some e)

/-- Saffron's side of an answer to SeqWr: the data follows a granted header (true: the final answer is still to come), and a
returned credit is kept (R129, R130).  A pool request is outstanding until its CNT = 0x80 and no longer: the spec does not say when
it ends (DESIGN CHOICE, log 96). -/
def State.seqBook (s : State) (f i : Nat) (e : SrcEnt) (p : Pkt) : Bool × State :=
  if e.req.opc ≠ 0x14 ∨ p.net ≠ .rsp ∨ p.opc ≠ 0x10 then (false, s)
  else if p.cnt = 0x80 then
    let tc := s.tcOf f e.req.ep .dat (if e.req.size = 6 then 0x18 else 0x19)
    let s := (s.setSrc f i (some { e with state := .issued })).updNi f (fun n => { n with safPool := n.safPool - 1 })
    (true, match e.data with | some d => s.push f (pieceData e.req tc d) | none => s)
  else
    let s := if p.cnt = 1 then s.updNi f (fun n => { n with safCred := n.safCred + 1 }) else s
    (false, if e.state = .poolWait then s.updNi f (fun n => { n with safPool := n.safPool - 1 }) else s)

/-- Comp of a piece (R116). -/
def State.compAnswer (s : State) (f i : Nat) (e : SrcEnt) (p : Pkt) : State :=
  if e.req.opc = 0x18 ∧ p.status = 0 then (s.streamLeave f e.req).deqStep f i { e with gm := some p.cnt.toNat }
  else (s.streamLeave f e.req).pieceDone f i p.status.toNat none 0 p.ops

/-- One answer for a live entry. -/
def State.entAnswer (s : State) (f i : Nat) (e : SrcEnt) (p : Pkt) : State :=
  if p.net = .rsp ∧ p.opc = 5 then
    if e.lost ∨ e.squash then (s.streamLeave f e.req).setSrc f i none else s.nacked f i e p
  else match s.seqBook f i e p with
  | (true, s) => s
  | (false, s) =>
  if e.squash then
    if e.req.opc = 7 ∧ p.net = .dat then ((s.ownCompAck f e).streamLeave f e.req).setSrc f i none
    else (s.streamLeave f e.req).setSrc f i none
  else if e.lost then s.lostAnswer f i e p
  else match (s.nif f).tran e.trans with
    | none => s.setSrc f i none
    | some x =>
      if isCohAns e.req.opc.toNat ∨ (e.req.opc = 0xA ∧ p.opc = 6) then s.cohAnswer f i e x p
      else if p.net = .dat then
        if e.req.opc = 0x18 then (s.present f (msgBeats x.tag p)).deqStep f i { e with got := true }
        else
          let s := if e.req.opc = 7 then s.ownCompAck f e else s
          (s.streamLeave f e.req).pieceDone f i 0 (some (p.data, p.be, p.psn))
      else s.compAnswer f i e p

/-- PIECE_ANSWER: the oldest answer that has reached a partner's interface. -/
def execPieceAnswer (fid : Fid) (s : State) : Host.Outcome State Fault Refusal :=
  let f := fid.toNat
  if !isPartner f then .fault .noSuchUnit
  else
    let n := s.nif f
    match n.inbox.find? (fun p => p.net == .rsp || p.net == .dat) with
    | none => .next s
    | some p =>
      let s := s.setNi f { n with inbox := n.inbox.erase p }
      if p.net = .rsp ∧ p.opc = 0x10 ∧ p.src = 0x181 ∧ p.cnt = 0x81 then
        .next (s.updNi f (fun n => { n with safCred := n.safCred + 1 }))
      else
        let i := p.txid.toNat / 16
        match s.srcEnt f i with
        | some e =>
          if (e.state = .issued ∨ e.state = .poolWait) ∧ e.req.txid = p.txid then .next (s.entAnswer f i e p)
          else .next (s.lateAnswer f)
        | none => .next (s.lateAnswer f)

/-! ### Reissue (R157, R207) -/

/-- The piece is prechecked, with the SD that it carries (R197), and directed again in the epoch current now; it is ready to leave, or ends DENIED. -/
def State.redirect (s : State) (f i : Nat) (e : SrcEnt) : State :=
  let ep := s.epOf f
  let q := e.req
  let sd := some q.sd.toNat
  let s := s.ruleEcc f ep q.slice.toNat q.addr.toNat q.opc.toNat
  match s.ruleCheck (checkerOf f) ep q.slice.toNat q.addr.toNat q.opc.toNat sd with
  | .deny cause entry =>
    (s.denied f true f sd q.opc.toNat cause entry q.addr.toNat).pieceFail f i 1
  | .allow entry =>
    let dst := if isCoherent q.opc.toNat ∨ q.opc = 0x12 ∨ q.opc = 0x13
      then (s.direct f ep q.opc.toNat q.addr.toNat entry).getD 0x3FE else q.dst.toNat
    let q' := s.stampEp f ep { q with dst := BitVec.ofNat 10 dst, tc := s.tcOf f ep .req q.opc.toNat }
    (s.setSrc f i (some { e with state := .ready, req := q' })).sleepCheck f i

/-- NACK_REISSUE. -/
def execNackReissue (fid : Fid) (entry : BitVec 8) (s : State) : Host.Outcome State Fault Refusal :=
  let f := fid.toNat
  let i := entry.toNat
  if !tracked f then .fault .noSuchUnit
  else match s.srcEnt f i with
    | none => .next s
    | some e =>
      let due : Bool := (e.state == .nackWait && decide (e.since + 64 ≤ s.tick)) || (e.state == .epochWait && decide (e.epoch < s.epo.count))
      if !due ∨ s.niFenced f then .next s
      else
        let s := s.redirect f i e
        match s.srcEnt f i with
        | some e' => if e'.state = .ready ∧ s.streamRoom f e'.req then .next (s.issue f i e') else .next s
        | none => .next s

/-! ### Tracker timers (R118) -/

/-- NI_TMO.LIMIT in FCLK. -/
def State.trackLimit (s : State) (f : Nat) : Nat := usTicks (max 1 (s.rf .NI_TMO 0 16 (niBase f)))

/-- The piece's timer has started and it waits for an answer. -/
def SrcEnt.timed (e : SrcEnt) : Bool :=
  e.start != 0 && (e.state == .issued || e.state == .poolWait || e.state == .nackWait || e.state == .epochWait
    || e.state == .ready || e.state == .held || e.squash)

/-- TGT_TRACKER_EXPIRE. -/
def execTgtTrackerExpire (fid : Fid) (entry : BitVec 8) (s : State) : Host.Outcome State Fault Refusal :=
  let f := fid.toNat
  if !isPartner f then .fault .noSuchUnit
  else match SMap.get none (s.nif f).tgt entry.toNat with
    | none => .next s
    | some e =>
      if s.tick < e.start + s.trackLimit f then .next s
      else
        let s := (s.bump .NI_TMO_CNT (niBase f)).updNi f (fun n => { n with tgt := SMap.set none n.tgt entry.toNat none })
        if e.answered then .next s else .next (s.answer f e.req 7)

/-! ### Held packets (R370) -/

/-- HOLD_TIMEOUT: the oldest held packet has waited PWR_HOLD.TMO. -/
def execHoldTimeout (fid : Fid) (s : State) : Host.Outcome State Fault Refusal :=
  let f := fid.toNat
  if !assigned f then .fault .noSuchUnit
  else
    let n := s.nif f
    match n.hold with
    | [] => .next s
    | (p, at_) :: rest =>
      if s.tick < at_ + usTicks (max 1 (s.rf .PWR_HOLD 0 16)) then .next s
      else
        let rest := rest.filter (fun x => x.1.net != .dat || x.1.dst != p.dst || x.1.txid != p.txid)
        let s := (s.setNi f { n with hold := rest }).count f 28
        if tracked f then .next (s.pieceFail f (p.txid.toNat / 16) 3) else .next (s.ownComp f p 3)

/-- A held request of an internal unit goes out with its data in the epoch current now, prechecked and directed again with the SD
that it carries (R197, R207). -/
def State.reinject (s : State) (f : Nat) (p : Pkt) (data : List Pkt) : State :=
  let ep := s.epOf f
  let opc := p.opc.toNat
  match s.ruleCheck (checkerOf f) ep p.slice.toNat p.addr.toNat opc (some p.sd.toNat) with
  | .deny cause entry => (s.denied f true p.src.toNat (some p.sd.toNat) opc cause entry p.addr.toNat).ownComp f p 1
  | .allow entry =>
    let dst : Fid := if opc = 0x12 ∨ opc = 0x13 ∨ (opc = 0x14 ∧ f = 0x181)
      then BitVec.ofNat 10 ((s.direct f ep opc p.addr.toNat entry).getD 0x3FE) else p.dst
    (p :: data).foldl (fun s x => s.push f (s.stamp f { x with dst := dst })) s

/-- The held packets whose destination is awake in the current bank leave, in arrival order, through ingress (R370). -/
def State.releaseHolds (s : State) (f : Nat) : State :=
  ((s.nif f).hold.filter (fun pa => pa.1.net == .req)).foldl (fun s pa =>
    if s.asleepAt f pa.1.dst.toNat then s
    else
      let data := if tracked f then [] else (s.nif f).hold.filter (fun x => x.1.net == .dat && x.1.txid == pa.1.txid)
      let s := s.updNi f (fun n => { n with hold := n.hold.filter (fun x => x != pa && !data.contains x) })
      if tracked f then
        match s.srcEnt f (pa.1.txid.toNat / 16) with
        | some e => if e.state = .held then s.redirect f (pa.1.txid.toNat / 16) e else s
        | none => s
      else s.reinject f pa.1 (data.map (·.1))) s

end Sys2Proof.Machine
end

