-- ==== Sys2Proof/Machine/SramOps.lean ====
section
/-! DEFINITION. Byte memories, the contents and error codes of the shared SRAM, and its region registers (R219, R228 to
R232). -/

namespace Sys2Proof.Machine

/-! ### Byte memories -/

/-- The canonical form of a byte memory: addresses rising, no byte that equals what an unlisted address reads as. -/
def Memory.wf (m : List Host.Cell) : Bool := SMap.wf (0 : Byte) m

/-- One byte of a memory; an unlisted address reads 0 (R404). -/
def memByte (m : List Host.Cell) (a : Nat) : Byte := SMap.get 0 m a

/-- `n` bytes from an address on. -/
def memRead (m : List Host.Cell) (a : Nat) : Nat → List Byte
  | 0 => []
  | n + 1 => memByte m a :: memRead m (a + 1) n

/-- Bytes stored from an address on. -/
def memWrite (m : List Host.Cell) (a : Nat) : List Byte → List Host.Cell
  | [] => m
  | b :: bs => memWrite (SMap.set 0 m a b) (a + 1) bs

/-- Every byte of `[a, a + n)` zero. -/
def memZero (m : List Host.Cell) (a n : Nat) : List Host.Cell := m.filter (fun c => c.1 < a || a + n ≤ c.1)

/-- The numbers of the 8-byte words that a span touches. -/
def wordsOf (a n : Nat) : List Nat := if n = 0 then [] else (List.range ((a + n - 1) / 8 - a / 8 + 1)).map (a / 8 + ·)

/-- The bad words of a span after a store to it: whole words become good, or bad when the data is poisoned; a word stored
in part stays as it was (R232). -/
def badAfter (bad : SMap Bool) (a n : Nat) (poison : Bool) : SMap Bool :=
  (wordsOf a n).foldl (fun m w =>
    if a ≤ 8 * w ∧ 8 * w + 8 ≤ a + n then SMap.set false m w poison
    else if poison then SMap.set false m w true else m) bad

/-! ### Shared SRAM (R219, R220) -/

/-- Size of the shared SRAM in bytes. -/
def sramSize : Nat := 2 ^ 25

/-- Global bank number of an offset: 4 × node + bank (R219). -/
def bankNo (o : Nat) : Nat := fld o 19 6
/-- Row of an offset within its bank (R219). -/
def rowOf (o : Nat) : Nat := fld o 6 13
/-- FID of bank node k. -/
def ssbFid (k : Nat) : Nat := 0x160 + k

/-- Bytes of the shared SRAM. -/
def State.sramRead (s : State) (o n : Nat) : List Byte := memRead s.sram o n

/-- Bytes stored into the shared SRAM. -/
def State.sramWrite (s : State) (o : Nat) (bs : List Byte) (poison : Bool := false) : State :=
  { s with sram := memWrite s.sram o bs, sramBad := badAfter s.sramBad o bs.length poison }

/-- Uncorrectable words of a span. -/
def State.sramBadIn (s : State) (o n : Nat) : List Nat := (wordsOf o n).filter (SMap.get false s.sramBad)

/-- A bank whose content is lost: zeros with valid codes in every word (R234). -/
def State.sramZero (s : State) (g : Nat) : State :=
  { s with sram := memZero s.sram (g * 2 ^ 19) (2 ^ 19)
           sramBad := s.sramBad.filter (fun w => w.1 / 2 ^ 16 != g) }

/-- The first uncorrectable word is captured (SSB_ERR_CAP). -/
def State.sramCapture (s : State) (k w : Nat) (localPort scrub : Bool) : State :=
  s.latchWords .SSB_ERR_CAP
    [(.SSB_ERR_CAP, fld w 16 2 + fld w 0 16 * 2 ^ 2 + localPort.toNat * 2 ^ 18 + scrub.toNat * 2 ^ 19 + 2 ^ 31)] (ssbBase k)

/-- The check of one word (R232): a corrected one is counted, an upset that cannot be corrected stays in the stored word; whether it
is uncorrectable, and whether by injection alone. -/
def State.wordCheck (s : State) (w : Nat) (err : WordErr) : Bool × Bool × State :=
  let o := 8 * w
  let k := sramNode o
  let (e, inj, s) := s.checkWord (fidUnit (ssbFid k)) 7 err (some (fld o 19 2))
  let was := SMap.get false s.sramBad w
  match e with
  | .clean => (was, false, s)
  | .corrected => if was then (true, false, s) else (false, false, (s.bump .SSB_CORR (ssbBase k)).count (ssbFid k) 76)
  | .uncorrectable =>
    if inj then (true, !was, s) else (true, false, { s with sramBad := SMap.set false s.sramBad w true })

/-- The check of each of the words `ws` of one row (R232): uncorrectable ones are counted, the first one captured, and SRAM_ECC
raised at L1; whether there is one. `errs` gives the upsets that this access meets, by word of the row. -/
def State.wordsCheck (s : State) (ws : List Nat) (localPort scrub : Bool) (errs : WordErrs) : Bool × State :=
  let (hits, s) := ws.foldl (fun (hs : List (Nat × Bool) × State) w =>
    let (bad, inj, t) := hs.2.wordCheck w (errAt errs (w % 8))
    (if bad then hs.1 ++ [(w, inj)] else hs.1, t)) (([] : List (Nat × Bool)), s)
  match hits with
  | [] => (false, s)
  | (w, inj) :: _ =>
    let k := sramNode (8 * w)
    (true, ((s.bump .SSB_UNCORR (ssbBase k) 0 hits.length).sramCapture k w localPort scrub).raiseNi (ssbFid k) 4 1 0 inj)

/-- What a read of `[o, o+n)` finds (R232). -/
def State.sramCheck (s : State) (o n : Nat) (localPort scrub : Bool) (errs : WordErrs) : Bool × State :=
  s.wordsCheck (wordsOf o n) localPort scrub errs

/-! ### Regions (R228 to R230) -/

/-- Region `n` of node `k` admits a master's access to a page. -/
def State.regionHit (s : State) (k n master page slice : Nat) (rd wr : Bool) : Bool :=
  let lo := s.reg .SSB_RGNn_LO (ssbBase k) n
  let hi := s.reg .SSB_RGNn_HI (ssbBase k) n
  bitOf lo 15 && master / 2 ^ fld lo 10 3 == fld lo 0 10 / 2 ^ fld lo 10 3
    && decide (fld hi 0 9 ≤ page) && decide (page ≤ fld hi 16 9)
    && (!rd || bitOf lo 13) && (!wr || bitOf lo 14) && (!bitOf lo 22 || fld lo 16 6 == slice)

/-- An access of a master to offset `o` is allowed: by a region, or because the master is a spine unit (R228). -/
def State.regionOk (s : State) (o master slice : Nat) (rd wr : Bool) : Bool :=
  (0x180 ≤ master && master ≤ 0x185)
    || (List.range 64).any (fun n => s.regionHit (sramNode o) n master (fld o 12 9) slice rd wr)

/-- A denied access: counted, captured, RULE at L0 (R229). -/
def State.regionDeny (s : State) (o master : Nat) (wr localPort : Bool) : State :=
  let k := sramNode o
  let b := ssbBase k
  let s := (s.bump .SSB_DENY_CNT b).count (ssbFid k) 77
  let s := s.latchWords .SSB_DENY_CAP [(.SSB_DENY_CAP, master + wr.toNat * 2 ^ 10 + localPort.toNat * 2 ^ 11 + fld o 19 2 * 2 ^ 12
    + fld o 12 9 * 2 ^ 14 + 2 ^ 31)] b
  s.raiseNi (ssbFid k) 7 0

end Sys2Proof.Machine
end

