-- ==== Sys2Proof/Machine/EngOps.lean ====
section
/-! DEFINITION. The parts of an engine cluster: threads and registers, local SRAM, addresses, requests, traps, and the
fence of a cluster (R261 to R285). -/

namespace Sys2Proof.Machine

/-! ### Clusters and threads (R261, R265) -/

/-- FID of engine cluster k. -/
def clFid (k : Nat) : Nat := 0x130 + k

/-- Engine cluster k. -/
def State.cl (s : State) (k : Nat) : Ecl := SMap.get {} s.ecl k

/-- Engine cluster k replaced. -/
def State.setCl (s : State) (k : Nat) (c : Ecl) : State := { s with ecl := SMap.set {} s.ecl k c }

/-- Engine cluster k changed. -/
def State.updCl (s : State) (k : Nat) (g : Ecl → Ecl) : State := s.setCl k (g (s.cl k))

/-- Thread `i` of a cluster, 0 to 31. -/
def State.thr (s : State) (k i : Nat) : Thr := SMap.get {} (s.cl k).thr i

/-- A thread replaced. -/
def State.setThr (s : State) (k i : Nat) (x : Thr) : State :=
  s.updCl k (fun c => { c with thr := SMap.set {} c.thr i x })

/-- A thread changed. -/
def State.updThr (s : State) (k i : Nat) (g : Thr → Thr) : State := s.setThr k i (g (s.thr k i))

/-- A general register; g0 reads 0 (R265). -/
def Thr.reg (x : Thr) (r : Nat) : Word64 := if r = 0 then 0 else SMap.get 0 x.regs r

/-- A general register written, usable from an ECLK on; g0 ignores writes (R264, R265). -/
def Thr.put (x : Thr) (r : Nat) (v : Word64) (at_ : Nat := 0) : Thr :=
  if r = 0 then x else { x with regs := SMap.set 0 x.regs r v, ready := SMap.set 0 x.ready r at_ }

/-- The ECLK count: RCLK / 4 beside FCLK's RCLK / 2 (R18, R357). -/
def State.eclk (s : State) : Nat := s.tick / 2

/-- An instruction word, a thread entry and a binding entry of a bank (R286). -/
def State.ecode (s : State) (k : Nat) (bank : Bool) (i : Nat) : Nat := s.tab (bankOf bank) 9 (clFid k) 0 i
/-- Thread entry of thread `i` (R286). -/
def State.thrEntry (s : State) (k : Nat) (bank : Bool) (i : Nat) : Nat := s.ecode k bank (16384 + i)
/-- Binding entry `b` (R286). -/
def State.bindEntry (s : State) (k : Nat) (bank : Bool) (b : Nat) : Nat := s.ecode k bank (16416 + b)

/-- The cluster runs: in service, its domain in Run, and the fabric neither halted nor in test. -/
def State.clLive (s : State) (k : Nat) : Bool :=
  s.started && s.prim != .halt && s.prim != .test && !s.clusterFenced k && (s.domain (unitDomain (clFid k))).st == 0

/-! ### Local SRAM (R268) -/

/-- Address of a local offset in the local memories. -/
def lsAddr (k off : Nat) : Nat := 2 ^ 18 * k + off

/-- Bytes of a cluster's local SRAM. -/
def State.lsRead (s : State) (k off n : Nat) : List Byte := memRead s.lsram (lsAddr k off) n

/-- Bytes stored into a cluster's local SRAM. -/
def State.lsWrite (s : State) (k off : Nat) (bs : List Byte) (poison : Bool := false) : State :=
  { s with lsram := memWrite s.lsram (lsAddr k off) bs, lsramBad := badAfter s.lsramBad (lsAddr k off) bs.length poison }

/-- The whole local SRAM of a cluster is written with zeros and valid codes (R289). -/
def State.lsZero (s : State) (k : Nat) : State :=
  { s with lsram := memZero s.lsram (lsAddr k 0) (2 ^ 18)
           lsramBad := s.lsramBad.filter (fun w => w.1 / 2 ^ 15 != k) }

/-- The first uncorrectable word of a cluster is captured (ENG_CL_ERR_CAP). -/
def State.clCapture (s : State) (k w : Nat) (istore : Bool) : State :=
  s.latchWords .ENG_CL_ERR_CAP [(.ENG_CL_ERR_CAP, w % 2 ^ 15 + istore.toNat * 2 ^ 15 + 2 ^ 31)] (eclBase k)

/-- The check of one word of local SRAM (R268): whether it is uncorrectable, and whether by injection alone; a corrected one is
counted, an upset that cannot be corrected stays in the stored word. -/
def State.lsWord (s : State) (k w : Nat) (err : WordErr) : Bool × Bool × State :=
  let (e, inj, s) := s.checkWord (fidUnit (clFid k)) 8 err
  let was := SMap.get false s.lsramBad w
  match e with
  | .clean => (was, false, s)
  | .corrected => if was then (true, false, s) else (false, false, s.bump .ENG_CL_CORR (eclBase k))
  | .uncorrectable =>
    if inj then (true, !was, s) else (true, false, { s with lsramBad := SMap.set false s.lsramBad w true })

/-- What a read of local SRAM finds (R268): whether a word is uncorrectable. `errs` gives the upsets that this access
meets, by word of the cluster's local SRAM; corrected words are counted, and of uncorrectable ones, counted too, the first is
captured with SRAM_ECC at L1. -/
def State.lsCheck (s : State) (k off n : Nat) (errs : WordErrs) : Bool × State :=
  let (hits, s) := (wordsOf (lsAddr k off) n).foldl (fun (hs : List (Nat × Bool) × State) w =>
    let (bad, inj, t) := hs.2.lsWord k w (errAt errs (w % 2 ^ 15))
    (if bad then hs.1 ++ [(w, inj)] else hs.1, t)) (([] : List (Nat × Bool)), s)
  match hits with
  | [] => (false, s)
  | (w, inj) :: _ =>
    (true, ((s.bump .ENG_CL_UNCORR (eclBase k) 0 hits.length).clCapture k w false).raiseNi (clFid k) 4 1 0 inj)

/-! ### Addresses (R266) -/

/-- Where an effective address leads. -/
inductive Place where
  /-- Local SRAM, by offset. -/
  | loc (off : Nat)
  /-- The own bank node through the local side, by shared SRAM offset. -/
  | side (o : Nat)
  /-- The fabric, by physical address; `coh`: ReadPass and WritePass serve it. -/
  | fab (pa : Nat) (coh : Bool)
  deriving DecidableEq, Repr

/-- Shared SRAM base of a cluster: PA[51:25] from ENG_CL_SRAMPA. -/
def State.sramPa (s : State) (k : Nat) : Nat := s.rf .ENG_CL_SRAMPA 0 27 (eclBase k) * 2 ^ 25

/-- The place of `n` bytes at an effective address; none: the access traps with ADDR (R266). -/
def State.place (s : State) (k ea n : Nat) : Option Place :=
  let win := fld ea 52 12
  let low := fld ea 0 52
  if win = 0 then if low + n ≤ 2 ^ 52 then some (.fab low (decide (low < 2 ^ 47))) else none
  else if win = 1 then if low + n ≤ 2 ^ 52 then some (.fab low false) else none
  else if win = 0x800 then if low + n ≤ 2 ^ 18 then some (.loc low) else none
  else if win = 0x801 then
    if low + n ≤ 2 ^ 25 then
      if sramNode low = k / 3 then some (.side low) else some (.fab (s.sramPa k + low) false)
    else none
  else none

/-- The place reached through the fabric where the own node's local side would serve it (R277). -/
def State.asFabric (s : State) (k : Nat) : Place → Place
  | .side o => .fab (s.sramPa k + o) false
  | p => p

/-- Bytes of a store and of a load meet: windows 0 and 1 compare as one PA (R273). -/
def sameWin (a b : Nat) : Bool := a == b || (a ≤ 1 && b ≤ 1)

/-- The entry overlaps `n` bytes at an effective address. -/
def SbEnt.meets (e : SbEnt) (ea n : Nat) : Bool :=
  sameWin e.win (fld ea 52 12) && decide (e.ea < fld ea 0 52 + n) && decide (fld ea 0 52 < e.ea + e.data.length)

/-- The entry covers every byte. -/
def SbEnt.covers (e : SbEnt) (ea n : Nat) : Bool :=
  sameWin e.win (fld ea 52 12) && decide (e.ea ≤ fld ea 0 52) && decide (fld ea 0 52 + n ≤ e.ea + e.data.length)

/-- Effective address of a buffered entry. -/
def SbEnt.full (e : SbEnt) : Nat := e.win * 2 ^ 52 + e.ea

/-- The halves of an access of `n` bytes: one when it is aligned (R276). -/
def halvesOf (ea n : Nat) : List (Nat × Nat) :=
  if ea % n = 0 then [(ea, n)] else let a := n - ea % n; [(ea, a), (ea + a, n - a)]

/-! ### Traps (R282 to R284) -/

/-- A trap or interrupt is taken (R283). -/
def Thr.trap (x : Thr) (cause status epc : Nat) (taddr : Word64) : Thr :=
  { x with st := .ready, until_ := none, parkOn := [], epc := epc % 2 ^ 14, cause := cause + status * 2 ^ 8,
           taddr := taddr, pie := x.ie, ie := false, intrap := true, pc := x.tvec }

/-- A counted trap or interrupt (ENG_T_TRAPS). -/
def State.countTrap (s : State) (k i : Nat) : State :=
  (s.bump .ENG_T_TRAPS (engBase (4 * k + i / 8)) (i % 8)).count (clFid k) 75

/-- A trap that cannot be taken halts its thread (R284). -/
def State.trapHalt (s : State) (k i cause status epc : Nat) (taddr : Word64) : State :=
  let b := engBase (4 * k + i / 8)
  let s := s.updThr k i (fun x => { x with st := .halt, until_ := none, parkOn := [] })
  let s := s.latchWords .ENG_T_CAUSE [(.ENG_T_CAUSE, cause + status * 2 ^ 8 + epc % 2 ^ 14 * 2 ^ 16 + 2 ^ 31),
    (.ENG_T_TADDR_LO, fld taddr.toNat 0 32), (.ENG_T_TADDR_HI, fld taddr.toNat 32 32)] b (i % 8)
  s.raiseNi (clFid k) 16 1 (32 * k + i)

/-- A synchronous or deferred trap: taken, or the thread halts (R283, R284). -/
def State.takeTrap (s : State) (k i cause status epc : Nat) (taddr : Word64) : State :=
  let x := s.thr k i
  if x.intrap ∨ ¬x.tvld then s.trapHalt k i cause status epc taddr
  else (s.setThr k i (x.trap cause status epc taddr)).countTrap k i

/-- A deferred trap becomes due; a second one before the first is taken is lost (R282). -/
def State.deferTrap (s : State) (k i cause status : Nat) (taddr : Word64) : State :=
  s.updThr k i (fun x => if x.due.isSome then { x with dovf := true }
    else { x with due := some ⟨cause, status, taddr⟩ })

/-! ### Requests (R264, R271, R280, R281) -/

/-- Requests of a thread. -/
def Ecl.reqsOf (c : Ecl) (i : Nat) : List EReq := c.reqs.filter (fun r => r.thr == i)

/-- A register still waits for an answer. -/
def Ecl.owes (c : Ecl) (i r : Nat) : Bool := r != 0 && c.reqs.any (fun q => q.thr == i && q.d == r)

/-- The sign extension of `n` bytes, or their zero extension. -/
def extend (n : Nat) (signed : Bool) (v : Nat) : Word64 :=
  if signed then BitVec.ofInt 64 (signedOf n v) else BitVec.ofNat 64 v

/-- A sample that waits for a request or a store completes (R290). -/
def State.sampleEnd (s : State) (k : Nat) (req pair : Option Nat) (trap : Bool := false) : State :=
  s.updCl k (fun c => match c.sample with
    | some p => if p.doneAt.isNone ∧ ((req.isSome ∧ p.req = req) ∨ (pair.isSome ∧ p.pair = pair))
        then { c with sample := some { p with doneAt := some s.eclk, trap := p.trap || trap } } else c
    | none => c)

/-- STATUS of a completed request: that of its lowest-addressed failed part, or POISON. -/
def EReq.status (r : EReq) : Nat := match r.bad with | some (_, st) => st | none => if r.poison then 6 else 0

/-- A completed request gives its result (R271, R282). -/
def State.reqFinish (s : State) (k : Nat) (r : EReq) : State :=
  let s := s.updCl k (fun c => { c with reqs := c.reqs.filter (fun q => q.id != r.id) })
  let st := r.status
  let at_ := max (s.eclk + 2) r.soonest
  let put (v : Word64) (s : State) : State := s.updThr k r.thr (fun x => x.put r.d v at_)
  let s := match r.kind with
    | .load n sg => if st = 0 then put (extend n sg (leNat r.bytes)) s
        else (put 0 s).deferTrap k r.thr 0x10 st r.ea
    | .atom _ => if st = 0 then put (BitVec.ofNat 64 (leNat r.bytes)) s
        else (put 0 s).deferTrap k r.thr 0x10 st r.ea
    | .lineLoad _ =>
      let s := put (BitVec.ofNat 64 (st * 2 ^ 8)) s
      if st = 0 then s else s.deferTrap k r.thr 0x10 st r.ea
    | .lineStore =>
      let s := put (BitVec.ofNat 64 (st * 2 ^ 8)) s
      if st = 0 then s else s.deferTrap k r.thr 0x11 st r.ea
    | .msg => put (BitVec.ofNat 64 (st * 2 ^ 8)) s
    | .deq _ => put (BitVec.ofNat 64 (st * 2 ^ 8 + r.cnt.getD 0)) s
    | .store => if st = 0 then s else s.deferTrap k r.thr 0x11 st r.ea
  s.sampleEnd k (some r.id) none (decide (st ≠ 0))

/-- One part of a request has its answer: its bytes, its status, whether its data is poisoned. -/
def State.partDone (s : State) (k id off status : Nat) (bytes : List Byte := []) (poison : Bool := false) : State :=
  match (s.cl k).reqs.find? (fun r => r.id == id) with
  | none => s
  | some r =>
    let s := match r.kind with
      | .lineLoad buf | .deq buf => if bytes.isEmpty then s else s.lsWrite k buf bytes poison
      | _ => s
    let bad := if status = 0 then r.bad else match r.bad with
      | some (o, st) => if off < o then some (off, status) else some (o, st)
      | none => some (off, status)
    let r := { r with left := r.left - 1, bad := bad, poison := r.poison || poison
                      bytes := if bytes.isEmpty then r.bytes else patch r.bytes off bytes }
    if r.left = 0 then s.reqFinish k r
    else s.updCl k (fun c => { c with reqs := c.reqs.map (fun q => if q.id = id then r else q) })

/-- A new request of a thread: its number, and the state with it. -/
def State.newReq (s : State) (k : Nat) (r : EReq) : Nat × State :=
  let n := (s.cl k).serial
  (n, s.updCl k (fun c => { c with serial := n + 1, reqs := c.reqs ++ [{ r with id := n }] }))

/-- Entries of the source tracker that a thread holds for anything but stores (R281). -/
def State.held6 (s : State) (k i : Nat) : Nat :=
  let ids := (((s.cl k).reqsOf i).filter (fun r => r.kind != .store)).map (·.id)
  ((s.nif (clFid k)).ents.filter (fun ie => ids.contains ie.2.trans)).length

/-- Entries that fabric stores of the cluster hold (R281). -/
def State.held64 (s : State) (k : Nat) : Nat :=
  let ids := ((s.cl k).reqs.filter (fun r => r.kind == .store)).map (·.id)
  ((s.nif (clFid k)).ents.filter (fun ie => ids.contains ie.2.trans)).length

/-- The precheck of one piece at the cluster's interface (R207): its destination, or a denial, which is recorded. -/
def State.engCheck (s : State) (k sl pa opc : Nat) : Option Nat × State :=
  let f := clFid k
  let ep := s.epOf f
  let sd := s.domainOf ep f
  let s := s.ruleEcc f ep sl pa opc
  match s.ruleCheck (checkerOf f) ep sl pa opc sd with
  | .deny cause entry => (none, s.denied f true f sd opc cause entry pa)
  | .allow entry => (some ((s.direct f ep opc pa entry).getD 0x3FE), s.overrideUsed f opc sd)

/-- A piece enters the cluster's source tracker and is issued when it can be (R115, R281, R320, R326, R370). -/
def State.engSend (s : State) (k sl : Nat) (req off : Nat) (q : Pkt) (data : Option (List Byte × Word64 × Bool) := none) :
    State :=
  let f := clFid k
  let ep := s.epOf f
  match s.freeSrc f with
  | [] => s
  | i :: _ =>
    let q := s.stampEp f ep { q with net := .req, slice := BitVec.ofNat 6 sl, tc := s.tcOf f ep .req q.opc.toNat,
                                     sd := BitVec.ofNat 4 ((s.domainOf ep f).getD 0), txid := BitVec.ofNat 12 (16 * i) }
    let e : SrcEnt := { trans := req, req := q, off := off, data := data, since := s.tick }
    let len := if q.opc = 0x17 then (match data with | some d => d.1.length | none => 0) else 2 ^ q.size.toNat
    let s := (((s.setSrc f i (some e)).count f 17).countOp sl q.opc.toNat len).captureTs f false q
    let d := q.dst.toNat
    if s.sliceRefuses f q.opc.toNat sl then s.pieceFail f i 4
    else if 0x120 ≤ d ∧ d < 0x126 ∧ s.cannotCross d q.src.toNat q.opc.toNat q.tc then
      ((s.bump .NI_UNSUP_CNT (niBase f)).count f 29).pieceFail f i 5
    else
      let s := s.sleepCheck f i
      match s.srcEnt f i with
      | some e => if s.canIssue f (s.nif f).ents e then s.issue f i e else s
      | none => s

/-! ### The fence of a cluster (R285, R346) -/

/-- A cluster is fenced: every thread halts, every buffered store is dropped, and requests that wait at it are answered
FENCED. -/
def State.fenceCluster (s : State) (k : Nat) : State :=
  if s.clusterFenced k then s
  else
    let f := clFid k
    let s := ((s.setMap .FC_FENCED_ECn k true).setMap .FC_FENCED_NIn f true).bareFence (.cluster k)
    let s := s.updCl k (fun c => { c with thr := SMap.mapVals {} (fun _ (x : Thr) =>
      if x.st = .off then { x with sb := [] }
      else { x with st := .halt, sb := [], until_ := none, parkOn := [], held := none }) c.thr })
    let s := { s with loc := SMap.mapVals [] (fun _ (l : List LocAcc) => l.filter (fun a => a.cluster != k || !a.wr)) s.loc }
    let n := s.nif f
    let qs := n.inbox.filter (fun p => p.net == .req)
    let s := s.setNi f { n with inbox := n.inbox.filter (fun p => p.net != .req), injq := n.keptInj,
                                tc0 := n.tc0.filter (fun p => p.net != .req) }
    (qs.foldl (fun s q => s.answer f q 8) s).safReclaim f

end Sys2Proof.Machine
end

