-- ==== Sys2Proof/Machine/Links.lean ====
section
/-! DEFINITION. Credits, buffers and ports of the routers, and the fence of a router's input (R61, R67, R69, R74). -/

namespace Sys2Proof.Machine

/-- Buffer depth of an input port per VC (R67). -/
def bufDepth (n : Net) : Nat := if n = .dat then 2 else 4

/-- Key of a router's output port, network and VC. -/
def credKey (node : Nat) (net : Net) (port vc : Nat) : Nat := ((node * 8 + port) * 4 + netCode net) * 4 + vc

/-- Credits of an output that are in use this cycle: one returned in this cycle is usable in the next. -/
def State.credUsed (s : State) (node : Nat) (net : Net) (port vc : Nat) : Nat :=
  let c := SMap.get {} s.cred (credKey node net port vc)
  c.used + (if c.backAt = s.tick + 1 then c.back else 0)

/-- A flit can be sent: VC1 uses no credits; the counters read zero from reset until the links come up with the end of the
cold start. -/
def State.hasCredit (s : State) (node : Nat) (net : Net) (port vc : Nat) : Bool :=
  vc == 1 || (s.started && decide (s.credUsed node net port vc < bufDepth net))

/-- A credit spent. -/
def State.spend (s : State) (node : Nat) (net : Net) (port vc : Nat) : State :=
  if vc = 1 then s
  else { s with cred := SMap.upd {} s.cred (credKey node net port vc) (fun c => { c with used := c.used + 1 }) }

/-- A credit pulsed back. -/
def State.giveBack (s : State) (node : Nat) (net : Net) (port vc : Nat) : State :=
  if vc = 1 then s
  else { s with cred := SMap.upd {} s.cred (credKey node net port vc) (fun c =>
    { used := c.used - 1, back := if c.backAt = s.tick + 1 then c.back + 1 else 1, backAt := s.tick + 1 }) }

/-- The router and port that an interface is attached to. -/
def attachNode (f : Nat) : Nat := Config.attach f / 8
/-- The local port of that router. -/
def attachPort (f : Nat) : Nat := Config.attach f % 8

/-- Key of a router's input buffer. -/
def bufKey (node : Nat) (net : Net) (inp vc : Nat) : Nat := ((node * 8 + inp) * 4 + netCode net) * 4 + vc

/-- An input buffer. -/
def State.buf (s : State) (node : Nat) (net : Net) (inp vc : Nat) : RBuf := SMap.get {} s.rbuf (bufKey node net inp vc)

/-- An input buffer replaced. -/
def State.setBuf (s : State) (node : Nat) (net : Net) (inp vc : Nat) (b : RBuf) : State :=
  { s with rbuf := SMap.set {} s.rbuf (bufKey node net inp vc) b }

/-- A flit has left the buffer of a linked input: its credit goes back to the router that sent it. -/
def State.creditIn (s : State) (node : Nat) (net : Net) (inp vc : Nat) : State :=
  match neighbour node inp with
  | some (m, p) => s.giveBack m net p vc
  | none => s

end Sys2Proof.Machine
end

