-- ==== Sys2Proof/Machine/Fence.lean ====
section
/-! DEFINITION. Fences of routers and links, and discarding at a router (R61, R64, R73, R74, R345, R346). -/

namespace Sys2Proof.Machine

/-- A link is fenced, at either end. -/
def State.linkFenced (s : State) (node port : Nat) : Bool :=
  s.fc.links.contains (node, port) || (match neighbour node port with
    | some (m, p) => s.fc.links.contains (m, p)
    | none => false)

/-- The flits of a buffer are discarded and their credits returned. -/
def State.flush (s : State) (node : Nat) (net : Net) (inp vc : Nat) : State :=
  let b := s.buf node net inp vc
  let cut : Bool := match b.q.getLast? with | some x => decide (x.idx < x.pkt.len.toNat) | none => b.kept.isSome || b.drop
  let s := b.q.foldl (fun s _ => s.creditIn node net inp vc) s
  (if b.q.isEmpty then s else s.countRtr node net 31).setBuf node net inp vc { drop := cut }

/-- Every input buffer of a router is discarded; its arbiters have no owner and no waiting head left (R82, R87). -/
def State.flushRouter (s : State) (node : Nat) : State :=
  let s := (List.range 7).foldl (fun s p => nets.foldl (fun s net => (List.range 4).foldl (fun s vc => s.flush node net p vc) s) s) s
  { s with arbs := SMap.mapVals {} (fun b (a : Arb) =>
      if rtrBase node ≤ b ∧ b < rtrBase node + 0x2000 then { a.idle with waits := [] } else a) s.arbs }

/-- The interfaces on a router's local ports. -/
def localFids (node : Nat) : List Nat := allFids.filter (fun f => attachNode f == node)

/-- The unit of a FID is fenced: a home slice or an engine cluster with its interface, or the interface (R346). -/
def State.fenceFid (s : State) (f : Nat) : State :=
  if 0xC0 ≤ f ∧ f < 0x100 then s.fenceHome (f - 0xC0)
  else if isCluster f then s.fenceCluster (f - 0x130)
  else s.fenceNi f

/-- A router is fenced, and the interfaces on its local ports with it (R345, R346). -/
def State.fenceRouter (s : State) (node : Nat) : State :=
  if s.rtrFenced node then s
  else
    let s := ((s.setMap .FC_FENCED_RTRn node true).bareFence (.router node)).flushRouter node
    (localFids node).foldl (fun s f => s.fenceFid f) s

/-- A link is fenced: both ends discard flits for it. -/
def State.fenceLink (s : State) (node port : Nat) : State :=
  if s.linkFenced node port then s
  else { (s.bareFence (.link node port)) with fc := { (s.bareFence (.link node port)).fc with
    links := (node, port) :: s.fc.links } }

/-- A discarded packet is counted and its first error captured (R74). -/
def State.discarded (s : State) (node inp code : Nat) (p : Pkt) : State :=
  (s.captureRtr node inp code p).countRtr node p.net 31

end Sys2Proof.Machine
end

