-- ==== Sys2Proof/Machine/Router.lean ====
section
/-! DEFINITION. The routers: arrival, slots, switching, escape, the watchdog, OLD and the probes (R54, R61 to R69, R72 to
R74, R78, R81 to R101, R397). -/

namespace Sys2Proof.Machine

/-! ### Arrival (R64, R65, R74) -/

/-- Mask of output ports of a broadcast at a router (R62, R65). -/
def State.bcastPorts (s : State) (node inp : Nat) (p : Pkt) : List Nat :=
  let e := s.route node p.ep 0x3FF
  (List.range 7).filter (fun o => bitOf e o && o != inp && portPresent node o)

/-- What a queue keeps when a head flit shows its last packet to be cut: that packet's flits, the run at its end, are gone. -/
def cutOpen (q : List Flit) : List Flit :=
  match q.getLast? with
  | some x => if x.idx < x.pkt.len.toNat then q.take (q.length - (x.idx + 1)) else q
  | none => q

/-- A head flit is not let in: CODE and level of the reason (R61, R64, R65). -/
def State.refusesHead (s : State) (node : Nat) (x : Flit) : Option Nat :=
  if x.idx ≠ 0 then none
  else if x.pkt.old ∧ x.pkt.inj = 1024 then some 11
  else if x.pkt.dst = 0x3FF then (if bitOf (s.route node x.pkt.ep 0x3FF) 12 then none else some 4)
  else if x.pkt.la = 7 ∨ ¬portPresent node x.pkt.la.toNat then some 10
  else none

/-- A flit reaches an input of a router. -/
def State.arrive (s : State) (node inp : Nat) (x : Flit) : State :=
  let net := x.pkt.net
  let vc := x.pkt.vc.toNat
  let back (s : State) : State := s.creditIn node net inp vc
  if s.rtrFenced node ∨ s.linkFenced node inp then (back s).countRtr node net 31
  else
    let b := s.buf node net inp vc
    let last : Bool := decide (x.idx = x.pkt.len.toNat)
    if b.drop ∧ x.idx ≠ 0 then back (s.setBuf node net inp vc { b with drop := !last })
    else match s.refusesHead node x with
      | some code =>
        let s := back (s.setBuf node net inp vc { b with drop := !last })
        (s.discarded node inp code x.pkt).raiseRtr node 8 1 inp
      | none =>
        if x.pkt.dst = 0x3FF ∧ (s.bcastPorts node inp x.pkt).isEmpty then back (s.setBuf node net inp vc { b with drop := !last })
        else
        let x := if x.idx = 0 ∧ x.pkt.old then { x with pkt := { x.pkt with inj := x.pkt.inj + 1 } } else x
        let q := if x.idx = 0 then cutOpen b.q else b.q
        let s := (List.range (b.q.length - q.length)).foldl (fun s _ => back s) s
        s.setBuf node net inp vc { b with q := q ++ [x], drop := false, moved := if q.isEmpty then s.tick else b.moved,
                                          dry := if q.isEmpty then none else b.dry,
                                          kept := if x.idx = 0 ∧ q.isEmpty then none else b.kept }

/-- The flits of local interfaces that are past ingress stage 2 come in, one per VC, where the router's local inputs have
room (R67, R70). -/
def State.refill (s : State) (node : Nat) (net : Net) : State :=
  (localFids node).foldl (fun s f =>
    let p := attachPort f
    (List.range 4).foldl (fun s vc =>
      match (s.nif f).injq.find? (fun x => x.pkt.net == net && x.pkt.vc.toNat == vc) with
      | some x =>
        if x.at_ + 1 < s.tick ∧ (s.buf node net p vc).q.length < bufDepth net then
          (s.updNi f (fun n => { n with injq := n.injq.erase x })).arrive node p x
        else s
      | none => s) s) s

/-! ### Leaving (R63, R72, R397) -/

/-- A head flit matches the filter of a router's probe (R397). -/
def State.probeHit (s : State) (node out : Nat) (p : Pkt) : Bool :=
  let b := prbBase node
  let blk (r : Reg) (f : Nat) : Bool :=
    let l := s.rfThen r 10 4 b
    decide (10 ≤ l) || f / 2 ^ l == s.rfThen r 0 10 b / 2 ^ l
  let m := s.rfThen .PRB_OPC 6 6 b
  let range : Bool := s.rfThen .PRB_CTRL 8 1 b == 0 || (match p.address with
    | some a => decide (s.rfThen .PRB_BASE_LO 0 32 b + 2 ^ 32 * s.rfThen .PRB_BASE_HI 0 32 b ≤ a)
        && decide (a ≤ s.rfThen .PRB_LIMIT_LO 0 32 b + 2 ^ 32 * s.rfThen .PRB_LIMIT_HI 0 32 b)
    | none => false)
  s.rfThen .PRB_CTRL 0 1 b == 1 && (s.rfThen .PRB_CTRL 3 3 b == 7 || s.rfThen .PRB_CTRL 3 3 b == out) && s.rfThen .PRB_CTRL 6 2 b == netCode p.net
    && blk .PRB_SRC p.src.toNat && blk .PRB_DST p.dst.toNat && (p.opc.toNat &&& m) == (s.rfThen .PRB_OPC 0 6 b &&& m)
    && bitOf (s.rfThen .PRB_OPC 12 4 b) p.tc.toNat && range

/-- The 256 bits of a trace record (R398). -/
def State.traceRecord (s : State) (node out : Nat) (p : Pkt) : Nat :=
  p.header + p.address.getD 0 * 2 ^ 64 + out * 2 ^ 116 + netCode p.net * 2 ^ 119 + p.vc.toNat * 2 ^ 121 + node * 2 ^ 123
    + (if p.old then 65535 else ageOf (s.tim.c % 65536) p.inj.toNat) % 65536 * 2 ^ 131 + 2 ^ 147 + nsOf s.ns * 2 ^ 160
    + secOf s.ns % 2 ^ 32 * 2 ^ 192 + s.tim.frac * 2 ^ 224

/-- The probe of a router sees a leaving head flit. -/
def State.probeSee (s : State) (node out : Nat) (p : Pkt) : State :=
  if ¬s.probeHit node out p then s
  else
    let b := prbBase node
    let s := s.bump .PRB_MATCH b
    if s.rfThen .PRB_CTRL 1 1 b = 0 ∨ (SMap.get {} s.probe node).stopped then s
    else if 4 ≤ (SMap.get {} s.probe node).staged.length then s.bump .PRB_DROP b
    else { s with probe := SMap.upd {} s.probe node (fun r =>
      { r with staged := r.staged ++ [(s.traceRecord node out p, s.tick)] }) }

/-- A flit reaches what lies behind an output port, to leave from there in the next cycle at the earliest (R63, R67). -/
def State.deliver (s : State) (node out : Nat) (x : Flit) : State :=
  let x := { x with at_ := s.tick }
  match neighbour node out with
  | some (m, p) =>
    if s.linkFenced node out then (s.giveBack node x.pkt.net out x.pkt.vc.toNat).countRtr node x.pkt.net 31
    else s.arrive m p x
  | none =>
    match localFid node out with
    | some f => s.updNi f (fun n => { n with egress := n.egress ++ [x] })
    | none => s

/-- The front flit of an input buffer leaves it. -/
def State.popBuf (s : State) (node : Nat) (net : Net) (inp vc : Nat) (kept : Option (Nat × Pkt)) : State :=
  let b := s.buf node net inp vc
  let b := { b with q := b.q.drop 1, kept := kept, moved := s.tick, dry := none, bcast := none, esc := false }
  (s.setBuf node net inp vc b).creditIn node net inp vc

/-- The packet at the front of an input buffer is discarded: its flits here and those still to come (R74). -/
def State.dropFront (s : State) (node : Nat) (net : Net) (inp vc : Nat) : State :=
  let b := s.buf node net inp vc
  match b.q with
  | [] => s
  | x :: more =>
    let run := x :: more.takeWhile (fun y => y.idx != 0)
    let whole : Bool := run.any (fun y => y.idx == y.pkt.len.toNat)
    let s := s.setBuf node net inp vc { b with q := b.q.drop run.length, kept := none, drop := !whole, moved := s.tick, dry := none,
                                               bcast := none, esc := false }
    run.foldl (fun s _ => s.creditIn node net inp vc) s

/-- The front flit of an input leaves through a port on a VC: sideband, credits, counters and probe; a broadcast head stays
until its last copy has left (R63, R65, R68). -/
def State.sendFlit (s : State) (node : Nat) (net : Net) (inp vc out : Nat) (outVc : BitVec 2) (x : Flit) (psn : Bool) : State :=
  let b := s.buf node net inp vc
  let e := s.route node x.pkt.ep x.pkt.dst.toNat
  let head := match b.kept with
    | some (_, p) => if x.idx = 0 then x.pkt else p
    | none => x.pkt
  let p := { head with vc := outVc, psn := x.pkt.psn || psn,
                       la := BitVec.ofNat 3 (if outVc = 0 then fld e 9 3 else fld e 6 3) }
  let last : Bool := decide (x.idx = x.pkt.len.toNat)
  let left := if p.dst = 0x3FF then ((b.bcast.getD (s.bcastPorts node inp x.pkt)).erase out) else []
  let s := if left.isEmpty then s.popBuf node net inp vc (if last then none else some (out, p))
    else s.setBuf node net inp vc { b with bcast := some left, moved := s.tick }
  let s := (s.spend node net out outVc.toNat).countRtr node net (4 * out)
  let s := if x.idx = 0 then s.probeSee node out p else s
  s.deliver node out { x with pkt := p }

/-! ### Checks at a router input (R72, R73) -/

/-- What the checks of a flit find, an armed injection taken into account; true: injected (R353). -/
def State.routerCheck (s : State) (node inp : Nat) (err : LinkErr) : LinkErr × Bool × State :=
  let u := nodeUnit node
  let two : Bool := match s.fc.inject with | some j => j.two | none => false
  if err ≠ .clean then (err, false, s)
  else if s.injHit u 0 (some inp) then (.parity, true, s.injUse)
  else if s.injHit u 1 (some inp) then (if two then .uncorrectable else .corrected, true, s.injUse)
  else if s.injHit u 3 then (if two then .routeBad else .routeCorrected, true, s.injUse)
  else (.clean, false, s)

/-- A corrected error at a router (R54, R73). -/
def State.corrected (s : State) (node : Nat) (net : Net) (cls port : Nat) (inj : Bool) : State :=
  ((s.bump .RTR_CORR (rtrBase node)).countRtr node net 30).raiseRtr node cls 0 port inj

/-- The front flit of an input, checked: true when it may be sent, whether its data is to be marked, and the state; a packet
that fails is discarded (R73).  A SPAR mismatch on a continuation flit, for which the table has no row, is taken as an HPAR
mismatch there is: corrected at L0 (DESIGN CHOICE, log 94). -/
def State.checkFront (s : State) (node : Nat) (net : Net) (inp vc : Nat) (x : Flit) (err : LinkErr) :
    Option Bool × State :=
  let (e, inj, s) := s.routerCheck node inp err
  let route := s.route node x.pkt.ep x.pkt.dst.toNat
  let fail (code cls lvl : Nat) : Option Bool × State :=
    (none, ((s.dropFront node net inp vc).discarded node inp code x.pkt).raiseRtr node cls lvl inp inj)
  let noRoute : Bool := x.idx == 0 && !bitOf route 12
  match e with
  | .parity => if x.idx = 0 then fail 1 0 1 else (some false, s.corrected node net 0 inp inj)
  | .uncorrectable =>
    if net = .dat then
      let s := if x.pkt.psn then s else (s.captureRtr node inp 3 x.pkt).raiseRtr node 0 1 inp inj
      if noRoute then (none, ((s.dropFront node net inp vc).discarded node inp 4 x.pkt).raiseRtr node 8 1 inp) else (some true, s)
    else fail 2 0 1
  | .routeBad =>
    if x.idx = 0 then
      let r := fail 5 2 2
      (none, r.2.fenceRouter node)
    else (some false, s)
  | .corrected => if noRoute then fail 4 8 1 else (some false, s.corrected node net 0 inp inj)
  | .routeCorrected => if noRoute then fail 4 8 1 else (some false, s.corrected node net 2 inp inj)
  | .clean | .hcrc => if noRoute then fail 4 8 1 else (some false, s)

/-! ### Escape (R68, R97) -/

/-- Escape port of a packet at a router. -/
def State.escPort (s : State) (node : Nat) (p : Pkt) : Nat := fld (s.route node p.ep p.dst.toNat) 3 3

/-- Output ports that the front flit of an input asks for, and its VC on the link.  A continuation flit follows its packet; one
whose packet's head left on VC1 before it moved to VC0 goes by its own header and look-ahead (DEDUCED, log 97). -/
def State.wants (s : State) (node : Nat) (net : Net) (inp vc : Nat) : List Nat × BitVec 2 :=
  let b := s.buf node net inp vc
  match b.q with
  | [] => ([], 0)
  | x :: _ =>
    if b.esc then ([s.escPort node x.pkt], 0)
    else if x.idx ≠ 0 then (match b.kept with | some (o, p) => ([o], p.vc) | none => ([x.pkt.la.toNat], x.pkt.vc))
    else if x.pkt.dst = 0x3FF then (b.bcast.getD (s.bcastPorts node inp x.pkt), x.pkt.vc)
    else ([x.pkt.la.toNat], x.pkt.vc)

/-- The VC of an output is held by a packet of another input buffer, whose first flit has left and whose last has not (R69). -/
def State.vcHeld (s : State) (node : Nat) (net : Net) (out : Nat) (outVc : BitVec 2) (inp vc : Nat) : Bool :=
  (List.range 7).any (fun i => (List.range 4).any (fun v => (i != inp || v != vc) &&
    (match (s.buf node net i v).kept with
    | some (o, p) => o == out && p.vc == outVc
    | none => false)))

/-- Arbiter index of an input and the VC on the link: VC0, VC2 and VC3 of each port in turn (R83). -/
def reqIdx (inp : Nat) (vc : BitVec 2) : Nat := 3 * inp + (if vc = 2 then 1 else if vc = 3 then 2 else 0)

/-- The front flit of an input can move to VC0: VC0 at the escape port has a credit. -/
def State.escapable (s : State) (node : Nat) (net : Net) (inp vc : Nat) : Bool :=
  match (s.buf node net inp vc).q with
  | [] => false
  | x :: _ => !(s.buf node net inp vc).esc && x.pkt.dst != 0x3FF && s.hasCredit node net (s.escPort node x.pkt) 0
      && portPresent node (s.escPort node x.pkt) && bitOf (s.route node x.pkt.ep x.pkt.dst.toNat) 12

/-- The wait counter of a requester of a router output returns to 0: its head packet has changed (R87). -/
def State.clearWait (s : State) (node : Nat) (net : Net) (out idx : Nat) : State :=
  if h : node < 144 ∧ out < 7 then
    let site : ArbSite := .router ⟨node, h.1⟩ net ⟨out, h.2⟩
    s.setArb site { s.arb site with waits := SMap.set 0 (s.arb site).waits idx 0 }
  else s

/-- The front flit of an input moves to VC0: from then on it asks for its escape port as the input's VC0 requester (R68, R97). -/
def State.escape (s : State) (node : Nat) (net : Net) (inp vc : Nat) : State :=
  let b := s.buf node net inp vc
  match b.q with
  | [] => s
  | x :: _ =>
    let w := s.wants node net inp vc
    let s := w.1.foldl (fun s o => s.clearWait node net o (reqIdx inp w.2)) s
    (s.setBuf node net inp vc { b with esc := true, moved := s.tick, dry := none }).countRtr node net (4 * s.escPort node x.pkt + 3)

/-- A VC1 flit that has missed its slot moves to VC0, and the move is counted. -/
def State.missSlot (s : State) (node : Nat) (net : Net) (inp : Nat) : State :=
  if s.escapable node net inp 1 then
    ((s.escape node net inp 1).bump .RTR_SLOT_MISS (rtrBase node)).countRtr node net 29
  else s

/-- The front flit of an input has been there in an earlier cycle (R63). -/
def State.waited (s : State) (node : Nat) (net : Net) (inp vc : Nat) : Bool :=
  match (s.buf node net inp vc).q with
  | [] => false
  | x :: _ => decide (x.at_ < s.tick)

/-- ESCAPE_MOVE: the head has had no credit for RTR_ESC.WAIT cycles while VC0 at the escape port has one, or a VC1 flit is past
the cycle in which it arrived (R68, R97). -/
def execEscapeMove (node : Fin 144) (net : Net) (inp : Fin 7) (vc : BitVec 2) (s : State) : Host.Outcome State Fault Refusal :=
  let b := s.buf node net inp vc.toNat
  let wait := max 1 (s.rf .RTR_ESC 0 10 (rtrBase node))
  let head : Bool := match b.q with | x :: _ => x.idx == 0 | [] => false
  let late : Bool := match b.q with | x :: _ => decide (x.at_ + 1 < s.tick) | [] => false
  let dry : Bool := match b.dry with | some d => decide (d + wait ≤ s.tick) | none => false
  if s.prim = .halt ∨ s.rtrFenced node then .next s
  else if vc = 1 then .next (if late then s.missSlot node net inp else s)
  else if vc ≠ 0 ∧ head ∧ dry ∧ s.escapable node net inp vc.toNat then .next (s.escape node net inp vc.toNat)
  else .next s

/-! ### Slots (R94 to R101) -/

/-- A VC1 flit owns the slot of this cycle. -/
def State.ownsSlot (s : State) (node : Nat) (net : Net) (inp out : Nat) (x : Flit) : Bool :=
  let e := s.slotAt node net out x.pkt.ep s.tim.c
  bitOf e 0 && fld e 1 3 == inp && bitOf e 4 == decide (x.idx ≠ 0) && fld e 5 10 == x.pkt.dst.toNat

/-- The front flit of an input's VC1 buffer that has not moved to VC0. -/
def State.vc1Front (s : State) (node : Nat) (net : Net) (inp : Nat) : Option Flit :=
  let b := s.buf node net inp 1
  match b.q with
  | x :: _ => if b.esc ∨ ¬s.waited node net inp 1 then none else some x
  | [] => none

/-- Output of a VC1 front flit on its slots; 7 for one whose packet goes on on VC0. -/
def State.vc1Out (s : State) (node : Nat) (net : Net) (inp : Nat) (x : Flit) : Nat :=
  if x.idx = 0 then x.pkt.la.toNat
  else match (s.buf node net inp 1).kept with | some (o, p) => if p.vc = 1 then o else 7 | none => 7

/-- The VC1 flits that own this cycle's slot of an output, with their inputs; the old epoch first (R96, R101). -/
def State.slotClaims (s : State) (node : Nat) (net : Net) (out : Nat) : List (Nat × Flit) :=
  let cs := (List.range 7).filterMap (fun inp => match s.vc1Front node net inp with
    | some x => if s.vc1Out node net inp x = out ∧ s.ownsSlot node net inp out x then some (inp, x) else none
    | none => none)
  cs.filter (fun c => c.2.pkt.ep != s.epo.cur) ++ cs.filter (fun c => c.2.pkt.ep == s.epo.cur)

/-- The slot's flit is sent without arbitration (R96). -/
def State.slotServe (s : State) (node : Nat) (net : Net) (out : Nat) (c : Nat × Flit) (err : LinkErr) : State :=
  match s.checkFront node net c.1 1 c.2 err with
  | (some psn, s) => (s.sendFlit node net c.1 1 out 1 c.2 psn).countRtr node net 28
  | (none, s) => s

/-- The VC1 flits for an output that its slot does not serve move to VC0 (R97, R101). -/
def State.slotMisses (s : State) (node : Nat) (net : Net) (out : Nat) (served : Option Nat) : State :=
  (List.range 7).foldl (fun s inp => match s.vc1Front node net inp with
    | some x => if some inp ≠ served ∧ s.vc1Out node net inp x = out then s.missSlot node net inp else s
    | none => s) s

/-! ### ROUTER_HOP (R80 to R88) -/

/-- The front flits that ask for an output with a credit there: input and buffer VC, their request, and whether another packet
holds their VC (R69), so that they have nothing to send.  A flit that has moved to VC0 asks as the VC0 requester of its input. -/
def State.hopAsks (s : State) (node : Fin 144) (net : Net) (out : Fin 7) : List ((Nat × Nat × ArbReq) × Bool) :=
  let e := s.arbEntry (.router node net out)
  let masked : Bool := decide (arbQuota e ≤ (s.arb (.router node net out)).tc1)
  (List.range 7).flatMap (fun inp => (List.range 4).filterMap (fun vc =>
    let b := s.buf node net inp vc
    let w := s.wants node net inp vc
    if w.1.contains out.val ∧ w.2 ≠ 1 ∧ s.waited node net inp vc ∧ s.hasCredit node net out w.2.toNat then
      match b.q with
      | x :: _ => some ((inp, vc,
          { idx := reqIdx inp w.2
            level := if w.2 = 2 ∧ !masked then 2 else 3
            burst := if w.2 = 2 then burstTc1 e else if w.2 = 3 then burstBulk e else burstEsc e
            kind := privKind { x.pkt with vc := w.2 }
            enters := if w.2 = 2 then 1 else 0 }),
          (x.idx == 0 || b.esc || b.kept.isNone) && s.vcHeld node net out w.2 inp vc)
      | [] => none
    else none))

/-- The first of each requester index. -/
def firstOfIdx (rs : List (Nat × Nat × ArbReq)) : List (Nat × Nat × ArbReq) :=
  rs.foldl (fun acc r => if acc.any (fun q => q.2.2.idx == r.2.2.idx) then acc else acc ++ [r]) []

/-- The requesters of an output: input and buffer VC, and their request. -/
def State.hopReqs (s : State) (node : Fin 144) (net : Net) (out : Fin 7) : List (Nat × Nat × ArbReq) :=
  firstOfIdx (((s.hopAsks node net out).filter (fun a => !a.2)).map (·.1))

/-- A flit waits for an output without a credit. -/
def State.hopDry (s : State) (node : Nat) (net : Net) (out : Nat) : Bool :=
  (List.range 7).any (fun inp => ([0, 2, 3] : List Nat).any (fun vc =>
    let w := s.wants node net inp vc
    w.1.contains out && !s.hasCredit node net out w.2.toNat))

/-- NOCRED and CONTEND of an output in one cycle, in which `sent` flits that asked for it with a credit leave (R390). -/
def State.hopCount (s : State) (node : Fin 144) (net : Net) (out : Fin 7) (sent : Nat) : State :=
  let s' := if s.hopDry node net out then s.countRtr node net (4 * out.val + 2) else s
  if sent < (s.hopAsks node net out).length then s'.countRtr node net (4 * out.val + 1) else s'

/-- The arbiter's winner sends one flit. -/
def State.hopArb (s : State) (node : Fin 144) (net : Net) (out : Fin 7) (err : LinkErr) : State :=
  let rs := s.hopReqs node net out
  let s := s.hopCount node net out (if rs.isEmpty then 0 else 1)
  match s.arbitrate (.router node net out) 21 (rs.map (·.2.2)) with
  | (none, s) => s
  | (some r, s) =>
    match rs.find? (fun q => q.2.2.idx == r.idx) with
    | none => s
    | some (inp, vc, _) =>
      match (s.buf node net inp vc).q with
      | [] => s
      | x :: _ =>
        let outVc := (s.wants node net inp vc).2
        match s.checkFront node net inp vc x err with
        | (none, s) => s.endGrant (.router node net out)
        | (some psn, s) =>
          let s := s.sendFlit node net inp vc out outVc x psn
          if (s.arb (.router node net out)).forced ∧ x.idx = x.pkt.len.toNat then s.endGrant (.router node net out) else s

/-- One output decides in one FCLK: the slot first, else the arbiter; once per cycle (R80, R84, R96). -/
def State.hop (s : State) (node : Fin 144) (net : Net) (out : Fin 7) (err : LinkErr) : State :=
  let s := s.refill node net
  if s.arbDone (.router node net out) then s
  else match s.slotClaims node net out with
  | c :: _ => (((s.hopCount node net out 0).slotServe node net out c err).arbSlot (.router node net out)).slotMisses node net out
      (some c.1)
  | [] => (s.slotMisses node net out none).hopArb node net out err

/-- ROUTER_HOP. -/
def execRouterHop (node : Fin 144) (net : Net) (out : Fin 7) (err : LinkErr) (table : WordErr) (s : State) :
    Host.Outcome State Fault Refusal :=
  if s.prim = .halt ∨ s.rtrFenced node ∨ ¬portPresent node out then .next s
  else match s.tableCheck (nodeUnit node) table out with
    | (.uncorrectable, s) => .next (s.fenceRouter node)
    | (.corrected, s) => .next (((s.bump .RTR_CORR (rtrBase node)).countRtr node net 30).hop node net out err)
    | (.clean, s) => .next (s.hop node net out err)

/-! ### OLD, the watchdog and arbiter windows (R64, R78, R85) -/

/-- The packet's age has reached 32,768 FCLK. -/
def State.isOld (s : State) (p : Pkt) : Bool := !p.old && decide (32768 ≤ ageOf (s.tim.c % 65536) p.inj.toNat)

/-- OLD set, and INJ made a hop count. -/
def Pkt.marked (p : Pkt) : Pkt := { p with old := true, inj := 0 }

/-- OLD set on every head flit of a buffer whose age has reached the limit, and on the flits behind it up to the next head. -/
def State.markRun (s : State) (q : List Flit) : List Flit :=
  (q.foldl (fun (acc : List Flit × Bool) x =>
    let m : Bool := if x.idx = 0 then s.isOld x.pkt else acc.2
    (acc.1 ++ [if m then { x with pkt := x.pkt.marked } else x], m)) ([], false)).1

/-- An accepted piece that waits for its issue has reached the limit. -/
def State.oldPiece (s : State) (e : SrcEnt) : Bool := e.state == .ready && s.isOld e.req

/-- An accepted packet that waits for injection at an interface has reached the limit: in its queue, under R41, or as a piece. -/
def State.oldWaits (s : State) (n : Ni) : Bool :=
  n.injq.any (fun x => s.isOld x.pkt) || n.epHold.any s.isOld
    || n.src.any (fun ie => match ie.2 with | some e => s.oldPiece e | none => false)

/-- OLD set on those packets. -/
def State.markNi (s : State) (n : Ni) : Ni :=
  { n with
    injq := n.injq.map (fun x => if s.isOld x.pkt then { x with pkt := x.pkt.marked } else x)
    epHold := n.epHold.map (fun q => if s.isOld q then q.marked else q)
    src := n.src.map (fun ie => (ie.1, ie.2.map (fun e => if s.oldPiece e then { e with req := e.req.marked } else e))) }

/-- OLD_MARK. -/
def execOldMark (place : Holder) (s : State) : Host.Outcome State Fault Refusal :=
  match place with
  | .router node net inp vc =>
    let b := s.buf node net inp vc.toNat
    if b.q.any (fun x => x.idx == 0 && s.isOld x.pkt) then .next (s.setBuf node net inp vc.toNat { b with q := s.markRun b.q })
    else .next s
  | .inject f =>
    if !assigned f.toNat then .fault .noSuchUnit
    else if s.oldWaits (s.nif f.toNat) then .next (s.updNi f.toNat s.markNi) else .next s
  | .parked f =>
    if !assigned f.toNat then .fault .noSuchUnit
    else
      let n := s.nif f.toNat
      match n.rob.find? s.isOld with
      | some p => .next (s.setNi f.toNat { n with rob := n.rob.map (fun q => if q = p then q.marked else q) })
      | none => .next s

/-- WATCHDOG_EXPIRE. -/
def execWatchdogExpire (node : Fin 144) (net : Net) (inp : Fin 7) (vc : BitVec 2) (s : State) :
    Host.Outcome State Fault Refusal :=
  let b := s.buf node net inp vc.toNat
  let limit := max 0x400 (s.rf .RTR_WDOG 0 20 (rtrBase node))
  match b.q with
  | x :: _ =>
    if s.prim = .halt ∨ s.rtrFenced node ∨ s.tick < b.moved + limit then .next s
    else .next (((s.captureRtr node inp 6 x.pkt).raiseRtr node 8 2 inp).fenceRouter node)
  | [] => .next s

/-- ARB_WINDOW_END: the counts of every arbiter whose window begins in this cycle return to zero. -/
def execArbWindowEnd (s : State) : Host.Outcome State Fault Refusal :=
  .next (s.arbs.foldl (fun s ba => match siteOf ba.1 with
    | some site =>
      if s.tim.c % 2 ^ windowLog2 (s.arbEntry site) = 0 then s.setArb site { s.arb site with tc1 := 0, wb := 0, maskSeen := false }
      else s
    | none => s) s)

end Sys2Proof.Machine
end

