-- ==== Sys2Proof/Machine/Egress.lean ====
section
/-! DEFINITION. What the destination interface of a packet does: checks, the flow monitor, the reorder buffer, the target
check, and presentation to a partner or to the unit behind it (R54, R56, R70 to R76, R102, R119, R124, R184, R207, R311,
R346, R395, R396, R419). -/

namespace Sys2Proof.Machine

/-! ### Legal packets (R55, R56) -/

/-- The opcode is listed for its network with this LEN. -/
def Pkt.legal (p : Pkt) : Bool :=
  let o := p.opc.toNat
  let l := p.len.toNat
  match p.net with
  | .req => ((1 ≤ o && o ≤ 8) && l == 0) || ((o == 9 || o == 10) && (l == 1 || l == 2))
      || ((0x10 ≤ o && o ≤ 0x15) && l == 0) || (o == 0x16 && l ≤ 1) || ((0x17 ≤ o && o ≤ 0x1E) && l == 0)
  | .rsp => ((1 ≤ o && o ≤ 7) && l == (if o = 6 then 2 else 0)) || (o == 0x10 && l ≤ 1)
  | .snp => (1 ≤ o && o ≤ 4) && l == 0
  | .dat => (((8 ≤ o && o ≤ 0xC) || (0x10 ≤ o && o ≤ 0x14) || o == 0x18 || o == 0x19) && l == 0) || o == 0x20

/-! ### The flow monitor (R36, R396) -/

/-- The monitor entry of a packet in the bank of its own epoch (R37): the lowest-numbered one that matches, with its number. -/
def State.monitorOf (s : State) (f : Nat) (p : Pkt) : Option (Nat × Nat) :=
  (List.range 16).findSome? (fun m =>
    let e := s.tab (bankOf p.ep) 10 f 0 m
    if bitOf e 19 ∧ fld e 14 2 = netCode p.net ∧ fld e 16 2 = p.tc.toNat
        ∧ p.src.toNat / 2 ^ fld e 10 4 = fld e 0 10 / 2 ^ fld e 10 4 then some (m, e) else none)

/-- Age of a head flit at presentation (R63, R396). -/
def State.ageNow (s : State) (p : Pkt) : Nat := if p.old then 65535 else ageOf (s.tim.c % 65536) p.inj.toNat

/-- A packet's header is presented: its latency is checked against its monitor entry (R34, R396).  A breach of the contract is a
fault of class CONTRACT at L1, and the packet is delivered (R4, R5, R351). -/
def State.monitor (s : State) (f : Nat) (p : Pkt) : State :=
  match s.monitorOf f p with
  | none => s
  | some (m, e) =>
    let age := s.ageNow p
    let s := (s.count f (32 + 2 * m)).count f (33 + 2 * m) age
    let s := s.raiseMax .NI_MONm_MAX age (niBase f) m
    let lat := fld e 20 16
    let breach : Bool := p.old || (if bitOf e 18 then decide (lat < age) else age != lat)
    if breach then
      let s := (s.bump .NI_MONm_BREACH (niBase f) m).raiseNi f 8 1 m
      s.latchWords .NI_MON_CAP [(.NI_MON_CAP, m + p.src.toNat * 2 ^ 4 + p.txid.toNat * 2 ^ 14 + 2 ^ 31), (.NI_MON_AGE, age)] (niBase f)
    else s

/-! ### Data of refused writes -/

/-- A request is refused at egress with Comp; its data is dropped. -/
def State.refuseReq (s : State) (f : Nat) (q : Pkt) (status : Nat) : State := (s.answer f q status).sinkData f q

/-- A request that the port cannot present: CODE 9, PROTOCOL at L1, BAD_REQ (R102). -/
def State.badEgress (s : State) (f : Nat) (q : Pkt) : State :=
  ((s.captureNi f 9 q).raiseNi f 6 1 q.txid.toNat).refuseReq f q 9

/-! ### Presentation to a partner -/

/-- The beats of a request towards a partner (R105). -/
def reqBeats (q : Pkt) (tag : Nat) : List Beat :=
  let h : Beat := { net := .req, opc := q.opc, tag := BitVec.ofNat 12 tag, addr := q.addr,
                    plen := BitVec.ofNat 12 (2 ^ q.size.toNat - 1), rlx := q.rlx, aop := q.aop, peer := q.src, slice := q.slice, sd := q.sd,
                    last := q.ops.isEmpty }
  h :: q.ops.zipIdx.map (fun oi => { h with operand := oi.1, last := decide (oi.2 + 1 = q.ops.length) })

/-- The data beats of a fabric write towards a partner. -/
def writeBeats (p : Pkt) (tag : Nat) : List Beat :=
  if p.opc = 0x20 then (msgBeats (BitVec.ofNat 12 tag) p).map (fun b => { b with peer := p.src })
  else [{ net := .dat, opc := p.opc, tag := BitVec.ofNat 12 tag, data := p.data, be := p.be, poison := p.psn, peer := p.src,
           slice := p.slice, line := p.line }]

/-- The lowest free tag of a target tracker; none when it is full (R102). -/
def Ni.freeTgt (n : Ni) (f : Nat) : Option Nat := (List.range (tgtCap f)).find? (fun i => (SMap.get none n.tgt i).isNone)

/-- The port presents requests of this opcode (R102). -/
def portTakes (f opc : Nat) : Bool := hasF2p f .req && (pclass f != 0 || opc == 0x1A)

/-- A request that waits at the egress of its port: no tracker entry, or no credit (R102, R106). -/
def State.reqWaits (s : State) (f : Nat) (q : Pkt) : Bool :=
  let n := s.nif f
  isPartner f && n.link == .up && !s.niFenced f && portTakes f q.opc.toNat
    && ((n.freeTgt f).isNone || n.cred.req == 0)

/-- A request presented to a partner whose port is UP. -/
def State.presentReq (s : State) (f : Nat) (q : Pkt) : State :=
  match (s.nif f).freeTgt f with
  | none => s
  | some i =>
    let n := s.nif f
    let mine (p : Pkt) : Bool := p.src == q.src && p.txid == q.txid
    let early := n.early.filter mine
    let s := s.setNi f { n with tgt := SMap.set none n.tgt i (some { req := q, start := s.tick }),
                                early := n.early.filter (fun p => !mine p) }
    let s := (s.count f 19).present f (reqBeats q i)
    early.foldl (fun s d => s.present f (writeBeats d i)) s

/-- Target-side interfaces that check a piece (R207). -/
def checksRule (f : Nat) : Bool :=
  pclass f == 2 || pclass f == 3 || pclass f == 4 || pclass f == 5 || (0x160 ≤ f && f < 0x170)

/-- A unit behind its own interface accepts requests of this opcode. -/
def unitTakes (f opc : Nat) : Bool :=
  opc == 0x1B
    || (if pclass f = 2 then (1 ≤ opc && opc ≤ 0xA) || opc == 0x1C
        else if isCluster f then opc == 0x17 || opc == 0x19
        else if 0x160 ≤ f ∧ f < 0x170 then opc == 7 || opc == 8 || opc == 0xA || (0x12 ≤ opc && opc ≤ 0x16)
        else if 0x170 ≤ f ∧ f < 0x174 then 0x17 ≤ opc && opc ≤ 0x19
        else if f = 0x180 then opc == 0x15 || opc == 0x16
        else if f = 0x181 then opc == 0x14
        else if f = 0x183 then opc == 0x1D
        else if f = 0x184 then opc == 0x1E
        else false)

/-- EpochCtl at an interface: the arm of the switch time that it carries (R38). -/
def State.takeArm (s : State) (f : Nat) (q : Pkt) : State :=
  if s.epo.t.any (fun t => decide (q.addr = BitVec.ofInt 52 t)) then s.updNi f (fun n => { n with arm := some q }) else s

/-- A request whose turn has come: RGEN, target check, and presentation or its refusal (R56, R76, R102, R124, R207, R346,
R419). -/
def State.deliverReq (s : State) (f : Nat) (q : Pkt) : State :=
  let cluster : Bool := 0x130 ≤ f && f < 0x160
  if q.dst ≠ 0x3FF ∧ q.rgen.toNat ≠ s.ownCell f s.epo.cur % 16 then
    ((s.bump .NI_STALE_CNT (niBase f)).count f 23).refuseReq f q 2
  else if ¬q.legal then
    if q.dst = 0x3FF then s else ((s.captureNi f 9 q).raiseNi f 6 1 q.txid.toNat).refuseReq f q 9
  else if (s.niFenced f ∧ pclass f ≠ 2) ∨ (cluster ∧ s.clusterFenced (f - 0x130)) then s.refuseReq f q 8
  else
    let s := if checksRule f then s.ruleEcc f q.ep q.slice.toNat q.addr.toNat q.opc.toNat else s
    let verdict : Verdict := if checksRule f then s.ruleCheck (checkerOf f) q.ep q.slice.toNat q.addr.toNat q.opc.toNat
      (some q.sd.toNat) else .allow 0
    match verdict with
    | .deny cause entry =>
      (s.denied f false q.src.toNat (some q.sd.toNat) q.opc.toNat cause entry q.addr.toNat).refuseReq f q 1
    | .allow _ =>
      if q.opc = 0x1B then s.takeArm f q
      else if q.dst = 0x3FF ∧ (isPartner f ∨ ¬unitTakes f q.opc.toNat) then s
      else if ¬isPartner f then s.updNi f (fun n => { n with inbox := n.inbox ++ [{ q with arr := s.tick + 1 }] })
      else if ¬portTakes f q.opc.toNat then s.badEgress f q
      else if (s.nif f).link ≠ .up then s.refuseReq f q 8
      else if pclass f = 5 ∧ s.cannotCross f q.src.toNat q.opc.toNat q.tc then
        ((s.bump .NI_UNSUP_CNT (niBase f)).count f 29).refuseReq f q 5
      else s.presentReq f q

/-! ### The reorder buffer (R119) -/

/-- The number that a source's next packet carries. -/
def Ni.expected (n : Ni) (src : Fid) : Nat := SMap.get 0 n.expect src.toNat

/-- A packet's turn has come: the next one of its source may follow. -/
def Ni.advance (n : Ni) (src : Fid) : Ni := { n with expect := SMap.set 0 n.expect src.toNat ((n.expected src + 1) % 16) }

/-- A request of an ordered stream is out of turn. -/
def State.outOfTurn (s : State) (f : Nat) (q : Pkt) : Bool :=
  q.net == .req && !q.rlx && q.dst != 0x3FF && q.txid.toNat % 16 != (s.nif f).expected q.src

/-- A request in its turn. -/
def State.inTurn (s : State) (f : Nat) (q : Pkt) : State :=
  (if q.rlx ∨ q.dst = 0x3FF then s else s.updNi f (fun n => n.advance q.src)).deliverReq f q

/-- A packet's header is presented, and its latency measured (R34, R311). -/
def State.present1 (s : State) (f : Nat) (p : Pkt) : State := (s.monitor f p).captureTs f true p

/-- ROB_RELEASE: the first parked packet whose turn has come. -/
def execRobRelease (fid : Fid) (s : State) : Host.Outcome State Fault Refusal :=
  let f := fid.toNat
  if !assigned f then .fault .noSuchUnit
  else
    let n := s.nif f
    match n.rob.find? (fun q => !s.outOfTurn f q) with
    | none => .next s
    | some q =>
      if s.reqWaits f q then .next s
      else .next (((s.setNi f { n with rob := n.rob.erase q }).present1 f q).inTurn f q)

/-! ### Responses, snoops and data -/

/-- A message that can never be addressed to a home is discarded: PROTOCOL at L1 (R179). -/
def State.notForHome (s : State) (f : Nat) (p : Pkt) : State :=
  (s.captureNi f 9 p).homeProto (f - 0xC0) 1 (s.homeCode (f - 0xC0) p.line.toNat) p (fidUnit f)

/-- A response reaches its unit or its partner's interface. -/
def State.deliverRsp (s : State) (f : Nat) (p : Pkt) : State :=
  let n := s.nif f
  if n.own.contains p.txid ∧ (p.src = 0x183 ∨ p.src = 0x184) then
    s.setNi f { n with reports := n.reports.filter (fun r => r.txid != p.txid), own := n.own.erase p.txid }
  else if f = 0x183 ∨ f = 0x184 then s.setNi f { n with own := n.own.erase p.txid }
  else if (p.src = 0x183 ∨ p.src = 0x184) ∧ ¬(f = 0x181 ∧ 0x800 ≤ p.txid.toNat) then s
  else if isPartner f then
    let mine : Bool := (s.srcEnt f (p.txid.toNat / 16)).any (fun e => e.req.txid == p.txid)
    if mine then s.setNi f { n with inbox := n.inbox ++ [p] }
    else
      if p.opc = 0x10 ∧ p.src = 0x181 ∧ p.cnt = 0x81 then s.setNi f { n with inbox := n.inbox ++ [p] }
      else if pclass f = 5 ∧ n.link = .up ∧ (p.opc = 1 ∨ p.opc = 2) then
        let b : Beat := { net := .rsp, opc := p.opc, tag := p.txid, peer := p.src, status := p.status, cnt := p.cnt, line := p.line }
        let b := { b with slice := p.slice }
        if p.opc = 1 then s.present f [b]
        else match n.tgt.find? (fun ie => match ie.2 with | some e => e.req.src == p.src && e.req.txid == p.txid | none => false) with
          | some (i, _) => (s.setNi f { n with tgt := SMap.set none n.tgt i none }).present f [{ b with tag := BitVec.ofNat 12 i }]
          | none => s.lateAnswer f
      else s.lateAnswer f
  else if pclass f = 2 ∧ p.opc ≠ 1 ∧ p.opc ≠ 2 ∧ p.opc ≠ 0x10 then s.notForHome f p
  else s.setNi f { n with inbox := n.inbox ++ [{ p with arr := s.tick + 1 }] }

/-- A data packet reaches its unit or its partner's interface; `bad` of its flits have PSN = 1. -/
def State.deliverDat (s : State) (f : Nat) (p : Pkt) (bad : Nat) : State :=
  let n := s.nif f
  let s := if bad = 0 then s else s.bump .NI_POISON_CNT (niBase f) 0 bad
  let n := { n with sink := n.sink.erase (p.src, p.txid) }
  if (s.nif f).sink.contains (p.src, p.txid) ∧ (p.opc = 0x18 ∨ p.opc = 0x19 ∨ p.opc = 0x20) then s.setNi f n
  else if ¬isPartner f then
    if pclass f = 2 ∧ p.opc = 0x20 then s.notForHome f p
    else s.setNi f { n with inbox := n.inbox ++ [{ p with arr := s.tick + 1 }] }
  else
    let ent := SMap.get none n.src (p.txid.toNat / 16)
    let answers : Bool := match ent with
      | some e => p.txid == e.req.txid && (p.opc.toNat < 0x18 || (p.opc == 0x20 && e.req.opc == 0x18))
      | none => false
    if answers then s.setNi f { n with inbox := n.inbox ++ [p] }
    else if (p.opc = 0x18 ∨ p.opc = 0x19 ∨ p.opc = 0x20) ∧ hasF2p f .req then
      match n.tgt.find? (fun ie => match ie.2 with | some e => e.req.src == p.src && e.req.txid == p.txid | none => false) with
      | some (i, _) => s.present f (writeBeats p i)
      | none =>
        if pclass f = 5 ∧ p.opc ≠ 0x20 ∧ isCaching p.src.toNat ∧ n.link = .up then
          s.present f (writeBeats p p.txid.toNat)
        else if s.niFenced f ∨ n.link ≠ .up then s
        else s.setNi f { n with early := n.early ++ [p] }
    else if pclass f = 5 ∧ n.link = .up then s.present f (writeBeats p p.txid.toNat)
    else s.lateAnswer f

/-- A snoop that waits for a credit at the egress of a caching port (R106). -/
def State.snpWaits (s : State) (f : Nat) (p : Pkt) : Bool :=
  p.net == .snp && (cacheIdx f).isSome && (s.nif f).link == .up && !s.niFenced f && (s.nif f).cred.snp == 0

/-- A snoop reaches a caching port: presented, answered in its place, or sunk (R184, R185); a home takes none (R179). -/
def State.deliverSnp (s : State) (f : Nat) (p : Pkt) : State :=
  if pclass f = 2 then (if p.dst = 0x3FF then s else s.notForHome f p)
  else if (cacheIdx f).isNone then s
  else if (s.nif f).link = .up ∧ ¬s.niFenced f then
    let b : Beat := { net := .snp, opc := p.opc, tag := p.txid, peer := p.src, line := p.line, rqfid := p.rqfid, htid := p.htid }
    s.present f [{ b with slice := p.slice, bc := p.dst == 0x3FF }]
  else if p.dst = 0x3FF ∨ p.rqfid = 0x3FF then s
  else s.send f (proxyAnswer p)

/-- A response, snoop or data packet that passed the checks: stale ones are discarded without a reply (R76); what was to sink the
data of a refused write waits for it no more. -/
def State.deliverOther (s : State) (f : Nat) (p : Pkt) (bad : Nat) : State :=
  if p.dst ≠ 0x3FF ∧ p.rgen.toNat ≠ s.ownCell f s.epo.cur % 16 then
    ((s.updNi f (fun n => if p.net = .dat then { n with sink := n.sink.erase (p.src, p.txid) } else n)).bump .NI_STALE_CNT
      (niBase f)).count f 23
  else if ¬p.legal then
    if p.dst = 0x3FF then s else (s.captureNi f 9 p).raiseNi f 6 1 p.txid.toNat
  else match p.net with
    | .rsp => s.deliverRsp f p
    | .snp => s.deliverSnp f p
    | _ => s.deliverDat f p bad

/-! ### EGRESS_PRESENT -/

/-- The flit at the front of a VC's egress buffer, once it is past the cycle of its arrival. -/
def State.egressFront (s : State) (f : Nat) (net : Net) (vc : BitVec 2) : Option Flit :=
  match (s.nif f).egress.find? (fun x => x.pkt.net == net && x.pkt.vc == vc) with
  | some x => if x.at_ < s.tick then some x else none
  | none => none

/-- A flit leaves the egress buffer: its credit goes back to the attached router (R67). -/
def State.leaveEgress (s : State) (f : Nat) (x : Flit) : State :=
  (s.updNi f (fun n => { n with egress := n.egress.erase x })).giveBack (attachNode f) x.pkt.net (attachPort f) x.pkt.vc.toNat

/-- Key of the packet that passes through an egress on a VC. -/
def asmKey (net : Net) (vc : BitVec 2) : Nat := 4 * netCode net + vc.toNat

/-- The packet that a flit at egress belongs to, and its key: a new one for a first flit; the one in progress on its VC, or on VC1
where the rest of it has moved to VC0 (log 97). -/
def Ni.asmOf (n : Ni) (x : Flit) : Nat × Option Asm :=
  let k := asmKey x.pkt.net x.pkt.vc
  if x.idx = 0 then (k, some { pkt := x.pkt })
  else match SMap.get none n.asm k with
  | some a => (k, some a)
  | none =>
    let k1 := asmKey x.pkt.net 1
    match SMap.get none n.asm k1 with
    | some a => if x.pkt.vc = 0 ∧ a.pkt.src = x.pkt.src ∧ a.pkt.txid = x.pkt.txid then (k1, some a) else (k, none)
    | none => (k, none)

/-- The packet in progress of a key written or ended. -/
def State.setAsm (s : State) (f k : Nat) (a : Option Asm) : State := s.updNi f (fun n => { n with asm := SMap.set none n.asm k a })

/-- What the checks at egress find, an armed injection taken into account; true: injected (R353). -/
def State.egressCheck (s : State) (f : Nat) (err : LinkErr) : LinkErr × Bool × State :=
  if err ≠ .clean then (err, false, s)
  else if s.injHit (fidUnit f) 0 then (.parity, true, s.injUse)
  else if s.injHit (fidUnit f) 1 then
    ((match s.fc.inject with | some j => if j.two then .uncorrectable else .corrected | none => .clean), true, s.injUse)
  else if s.injHit (fidUnit f) 2 then (.hcrc, true, s.injUse)
  else (.clean, false, s)

/-- A packet whose last flit has passed the link checks is presented or parked (R70, R119). -/
def State.egressPass (s : State) (f : Nat) (a : Asm) : State :=
  let p := { a.pkt with psn := a.pkt.psn || a.bad != 0 }
  let s := ((s.count f (4 * netCode p.net + 2)).count f (4 * netCode p.net + 3) (p.len.toNat + 1))
  if s.outOfTurn f p then s.updNi f (fun n => { n with rob := n.rob ++ [p] })
  else
    let s := if a.seen then s else s.present1 f p
    if p.net = .req then s.inTurn f p else s.deliverOther f p a.bad

/-- A packet waits at the egress: its port has no tracker entry or credit for it, or the reorder buffer has no room. -/
def State.egressWaits (s : State) (f : Nat) (p : Pkt) : Bool :=
  (p.dst.toNat == f || p.dst == 0x3FF)
    && (if s.outOfTurn f p then decide (32 ≤ (s.nif f).rob.length) else (p.net == .req && s.reqWaits f p) || s.snpWaits f p)

/-- A flit that passed the checks joins its packet; the last one presents it.  The header of a longer packet is presented with its
first flit (R34). -/
def State.joinFlit (s : State) (f k : Nat) (a : Asm) (x : Flit) (bad : Bool) : State :=
  let a := { a with n := a.n + 1, bad := a.bad + bad.toNat }
  if x.idx = a.pkt.len.toNat then (s.setAsm f k none).egressPass f a
  else if x.idx = 0 ∧ ¬s.outOfTurn f a.pkt then (s.present1 f a.pkt).setAsm f k (some { a with seen := true })
  else s.setAsm f k (some a)

/-- A packet is discarded at egress: with its flits still to come (R74). -/
def State.dropAsm (s : State) (f k : Nat) (a : Asm) (x : Flit) : State :=
  s.setAsm f k (if x.idx = a.pkt.len.toNat then none else some { a with drop := true })

/-- One flit at egress, which leaves its buffer: checked, and joined to its packet (R54, R73, R74).  A DAT word first found
uncorrectable here, for which the table has no row, is reported as a router would and presented as poisoned (DESIGN CHOICE, log
94). -/
def State.egressFlit (s : State) (f k : Nat) (a : Asm) (x : Flit) (err : LinkErr) : State :=
  let (e, inj, s) := s.egressCheck f err
  let p := x.pkt
  let drop (code cls : Nat) (inj : Bool) : State := ((s.dropAsm f k a x).captureNi f code p).raiseNi f cls 1 0 inj
  let strange : Bool := x.idx == 0 && p.dst.toNat != f && p.dst != 0x3FF
  match e with
  | .parity => if x.idx = 0 then drop 1 0 inj else (s.raiseNi f 0 0 0 inj).joinFlit f k a x (p.net == .dat && p.psn)
  | .hcrc => drop 7 1 inj
  | .corrected =>
    if strange then (drop 8 6 false).raiseNi f 0 0 0 inj
    else (s.raiseNi f 0 0 0 inj).joinFlit f k a x (p.net == .dat && p.psn)
  | .uncorrectable =>
    if p.net ≠ .dat then drop 2 0 inj
    else
      let seen (s : State) : State := if p.psn then s else (s.captureNi f 3 p).raiseNi f 0 1 0 inj
      if strange then seen (drop 8 6 false) else (seen s).joinFlit f k a x true
  | .clean | .routeCorrected | .routeBad => if strange then drop 8 6 false else s.joinFlit f k a x (p.net == .dat && p.psn)

/-- EGRESS_PRESENT: the flit at the front of one VC is checked, and its packet presented with its last flit.  A packet waits while
its port has no tracker entry or credit for it, or the reorder buffer has no room. -/
def execEgressPresent (fid : Fid) (net : Net) (vc : BitVec 2) (err : LinkErr) (s : State) :
    Host.Outcome State Fault Refusal :=
  let f := fid.toNat
  if !assigned f then .fault .noSuchUnit
  else if s.prim = .halt then .next s
  else match s.egressFront f net vc with
    | none => .next s
    | some x =>
      match (s.nif f).asmOf x with
      | (_, none) => .next (s.leaveEgress f x)
      | (k, some a) =>
        if a.drop then .next ((s.leaveEgress f x).dropAsm f k a x)
        else if (x.idx = 0 ∨ x.idx = a.pkt.len.toNat) ∧ s.egressWaits f a.pkt then .next s
        else .next ((s.leaveEgress f x).egressFlit f k a x err)

end Sys2Proof.Machine
end

