-- ==== Sys2Proof/Machine/Home.lean ====
section
/-! DEFINITION. The commands of the home slices: lanes, decisions, answers, expiry, scrubbing, the predictor's windows and
the hand-over of buckets (R42, R141 to R195). -/

namespace Sys2Proof.Machine

/-! ### Lanes (R83, R142) -/

/-- `PutM`, `PutO` or `PutE`. -/
def Pkt.isPut (p : Pkt) : Bool := p.net == .req && (p.opc == 4 || p.opc == 5 || p.opc == 6)

/-- The request needs a line of data before it is taken: `PutM`, `PutO`, `WritePass`. -/
def Pkt.needsData (p : Pkt) : Bool := p.net == .req && (p.opc == 4 || p.opc == 5 || p.opc == 8)

/-- `DataWb` (R55). -/
def Pkt.isWb (p : Pkt) : Bool := p.net == .dat && (p.opc == 0x18 || p.opc == 0x19)

/-- The line of a request. -/
def Pkt.lineOf (q : Pkt) : Nat := q.addr.toNat / 64

/-- A `DataWb` is a write's: by SRC, TXID and line. -/
def Pkt.dataFor (p q : Pkt) : Bool := p.isWb && p.src == q.src && p.txid == q.txid && p.line.toNat == q.lineOf

/-- The `DataWb` that came with a request. -/
def dataOf (box : List Pkt) (q : Pkt) : Option Pkt := box.find? (fun p => p.dataFor q)

/-- A request taken out of an inbox, and the data that came with it. -/
def boxWithout (box : List Pkt) (q : Pkt) : List Pkt :=
  let box := box.erase q
  match (if q.needsData then dataOf box q else none) with | some d => box.erase d | none => box

/-- The packets that a home's interface has presented. -/
def State.hbox (s : State) (k : Nat) : List Pkt := (s.nif (homeFid k)).inbox

/-- The inbox of a home replaced. -/
def State.setHbox (s : State) (k : Nat) (b : List Pkt) : State := s.updNi (homeFid k) (fun n => { n with inbox := b })

/-- The message can answer the snoop: a `DataWb` answers only a `Recall`, and a `DataOwner` no `Recall` (R151, R172; DEDUCED, log 100). -/
def SnpOut.takes (o : SnpOut) (p : Pkt) : Bool := p.net != .dat || p.isWb == (o.opc == 4)

/-- The home has a snoop outstanding that this answer is for: its TXID names the flow (R52), and SRC, line and kind match (R180). -/
def State.snoopOwed (s : State) (k : Nat) (p : Pkt) : Option Nat :=
  let h := p.txid.toNat
  match (if h < 256 then s.trk k h else none) with
  | some e => if e.owed.any (fun o => o.port == p.src.toNat && o.takes p) && p.line.toNat == e.line then some h else none
  | none => none

/-- A `DataWb` waits for its request while the source still tracks that write (R115). -/
def State.wbExpected (s : State) (p : Pkt) : Bool :=
  match SMap.get none (s.nif p.src.toNat).src (p.txid.toNat / 16) with
  | some e => e.req.needsData && p.dataFor { e.req with src := p.src }
  | none => false

/-- The packet takes part in arbitration: from the cycle after the one in which it was presented on (R142). -/
def State.boxed (s : State) (p : Pkt) : Bool := decide (p.arr ≤ s.tick)

/-- The head of the response lane: the oldest RSP or DAT packet, past data that belongs to a request (R142, R180). -/
def State.respHead (s : State) (k : Nat) : Option Pkt :=
  let box := s.hbox k
  box.find? (fun p => s.boxed p && (p.net == .rsp || (p.net == .dat &&
    (!p.isWb || (s.snoopOwed k p).isSome || (!box.any (fun q => q.needsData && p.dataFor q) && !s.wbExpected p)))))

/-- The head of the writeback lane: the oldest writeback whose data has come, while a buffer is free, `PutE` included; one of a
bucket whose release has not come waits unless its line has an entry (R42, R145, R179). -/
def State.putHead (s : State) (k : Nat) : Option Pkt :=
  let box := s.hbox k
  let m := s.hm k
  if 32 ≤ m.bufsUsed ∨ ¬m.wbWait.isEmpty then none
  else box.find? (fun p => p.isPut && s.boxed p && (p.opc == 6 || (dataOf box p).isSome)
    && (!m.await.contains (bucketOf p.lineOf) || (s.trkOf k p.lineOf).isSome || m.judge.any (fun j => j.line == p.lineOf)))

/-- Arbiter index of a request lane; VC1 joins VC2. -/
def laneIdx (vc : BitVec 2) : Nat := if vc = 0 then 2 else if vc = 3 then 4 else 3

/-- The head packet of a request lane. -/
def State.laneHead (s : State) (k lane : Nat) : Option Pkt :=
  (s.hbox k).find? (fun p => p.net == .req && !p.isPut && p.opc != 0x1B && laneIdx p.vc == lane && s.boxed p)

/-- The opcodes that a home serves (R142). -/
def homeServes (p : Pkt) : Bool := (1 ≤ p.opc.toNat && p.opc.toNat ≤ 10) || p.opc == 0x1C

/-- AOP 0xA to 0xF on an atomic (R186). -/
def badAop (p : Pkt) : Bool := (p.opc == 9 || p.opc == 10) && 10 ≤ p.aop.toNat

/-- The waiters of a line: those of its entry, or those of an ended flow (R143), none of them while only writebacks of an ended flow
are to be judged; none: the line has no flow. -/
def State.waitersOf (s : State) (k line : Nat) : Option Nat :=
  match s.trkOf k line, (s.hm k).ready.find? (fun r => r.1 == line) with
  | some (_, e), _ => some e.waiters.length
  | none, some r => some r.2.length
  | none, none => if (s.hm k).judge.any (fun j => j.line == line) then some 0 else none

/-- A request allocates a directory way when its line is in I. -/
def State.wantsWay (s : State) (k : Nat) (q : Pkt) : Bool :=
  let line := q.addr.toNat / 64
  (s.dirFind k line).isNone && (q.opc == 1 || q.opc == 2 || q.opc == 3 || (q.opc == 9 && s.atomNear k q line))

/-- The request needs two tracker entries: its own and a victim's (R154). -/
def State.wantsTwo (s : State) (k : Nat) (q : Pkt) : Bool :=
  let set := dirSet (q.addr.toNat / 64)
  s.wantsWay k q && (List.range 12).all (fun w => (s.dirWay k set w).isSome)
    && (List.range 12).any (fun w => match s.dirWay k set w with
      | some d => !s.engaged k (dirLine set d.tag)
      | none => false)

/-- The head of a request lane can be taken: its data has come, no writeback for its line arrived in the same cycle, and the wait
list or the tracker has room (R142, R143, R144). -/
def State.laneReady (s : State) (k : Nat) (q : Pkt) : Bool :=
  if !homeServes q || badAop q || q.opc == 0x1C then true
  else if (s.hbox k).any (fun p => p.isPut && p.lineOf == q.lineOf && p.arr == q.arr) then false
  else if q.needsData && (dataOf (s.hbox k) q).isNone then false
  else match s.waitersOf k (q.addr.toNat / 64) with
    | some n => decide (n < 8)
    | none => decide ((if s.wantsTwo k q then 2 else 1) ≤ (s.freeTrk k).length)

/-- A lane is held by a full wait list (R143, HS_WAITFULL). -/
def State.laneFull (s : State) (k : Nat) : Bool :=
  [2, 3, 4].any (fun l => match s.laneHead k l with
    | some q => homeServes q && !badAop q && q.opc != 0x1C
        && (match s.waitersOf k (q.addr.toNat / 64) with | some n => decide (8 ≤ n) | none => false)
    | none => false)

/-- The first waiter of an ended flow that can enter: the held writebacks of its line have been judged, and the tracker has room
(R143, R178). -/
def State.waiterReady (s : State) (k : Nat) : Option (Nat × (Pkt × List Byte × Bool) × List (Pkt × List Byte × Bool)) :=
  let m := s.hm k
  m.ready.findSome? (fun r => match r.2 with
    | q :: ws =>
      let need := if s.wantsTwo k q.1 then 2 else 1
      if ¬m.judge.any (fun j => j.line == r.1) ∧ need ≤ (s.freeTrk k).length then some (r.1, q, ws) else none
    | [] => none)

/-- A waiter asks for a request lane: it competes in the lane of its VC, before that lane's head (R142; DEDUCED, log 100). -/
def State.waiterOn (s : State) (k lane : Nat) : Bool := (s.waiterReady k).any (fun w => laneIdx w.2.1.1.vc == lane)

/-- The requesters of a home's ingress arbiter (R83).  The response lane drops to level 5 while QUOTA masks it, as R85 has it for
level 2; the home's column of R83 names no mask for it (DESIGN CHOICE, log 95). -/
def State.homeReqs (s : State) (k : Fin 64) : List ArbReq :=
  let e := s.arbEntry (.home k)
  let a := s.arb (.home k)
  let masked : Bool := arbQuota e ≤ a.tc1
  let resp := match s.respHead k with
    | some p => [{ idx := 0, level := if masked then 5 else 2, burst := burstTc1 e, kind := privKind p, enters := 1 }]
    | none => []
  let wb := match s.putHead k with
    | some p => [{ idx := 1, level := if wbQuota e ≤ a.wb then 5 else 3, burst := burstBulk e, kind := privKind p, enters := 2 }]
    | none => []
  let lane (i lvl burst : Nat) : List ArbReq :=
    match (if s.waiterOn k i then (s.waiterReady k).map (fun w => w.2.1.1) else (s.laneHead k i).filter (s.laneReady k)) with
    | some q => [{ idx := i, level := lvl, burst := burst, kind := privKind q }]
    | none => []
  resp ++ wb ++ lane 2 5 (burstEsc e) ++ lane 3 (if masked then 5 else 4) (burstTc1 e) ++ lane 4 5 (burstBulk e)

/-- A lane takes part in arbitration; none when another lane wins (R142).  A grant is of one message, so a forced one ends at once
(R88). -/
def State.homeWins (s : State) (k : Fin 64) (lane : Nat) : Option State :=
  match s.arbitrate (.home k) 5 (s.homeReqs k) with
  | (some r, s') =>
    if r.idx = lane then some (if (s'.arb (.home k)).forced then s'.endGrant (.home k) else s') else none
  | (none, _) => none

/-- The owner of a home's grant has dropped its request, and nothing else asks: the grant ends (R82). -/
def State.homeIdle (s : State) (k : Fin 64) : State :=
  if (s.arb (.home k)).holder.isSome ∧ ¬s.arbDone (.home k) ∧ (s.homeReqs k).isEmpty then s.endGrant (.home k) else s

/-! ### Requests and writebacks -/

/-- A request that a fenced home answers: `Nack` FENCED, or Comp FENCED once NO_IMAGE is reported (R167). -/
def State.fencedAnswer (s : State) (k : Nat) (q : Pkt) : State :=
  if q.opc.toNat ≤ 10 ∧ ¬(s.hm k).noImage then s.nack k q 1 else s.homeComp k q 8

/-- An uncorrectable directory word: capture, DIR_ECC at L2, and the fence of the slice (R149). -/
def State.dirBad (s : State) (k set way : Nat) (inj : Bool) : State :=
  let s := s.latchWords .HS_DIR_ERR [(.HS_DIR_ERR, set + way * 2 ^ 13 + 2 ^ 31)] (hsBase k)
  (s.raiseNi (homeFid k) 3 2 set inj).fenceHome k

/-- One of the two words of a way is read: a corrected error is counted; after an uncorrectable one no other is looked at. -/
def State.dirWord (s : State) (k set : Nat) (err : WordErrs) (i : Nat) : Bool × State :=
  match s.checkWord (fidUnit (homeFid k)) 6 (errAt err i) with
  | (.clean, _, s) => (true, s)
  | (.corrected, _, s) => (true, s.bump .HS_DIR_CORR (hsBase k))
  | (.uncorrectable, inj, s) => (false, s.dirBad k set (i / 2) inj)

/-- The 24 words of a set are read, words 2w and 2w + 1 of each valid way w: corrected errors are counted; on an uncorrectable one
the home is fenced, and nothing is decided (R149). -/
def State.dirRead (s : State) (k set : Nat) (err : WordErrs) : Bool × State :=
  (List.range 24).foldl (fun a i => if a.1 && (s.dirWay k set (i / 2)).isSome then a.2.dirWord k set err i else a) (true, s)

/-- A request joins the wait list of its line (R143). -/
def State.joinWait (s : State) (k : Nat) (q : Pkt × List Byte × Bool) : State :=
  let line := q.1.addr.toNat / 64
  match s.trkOf k line with
  | some (h, e) => s.setTrk k h (some { e with waiters := e.waiters ++ [q] })
  | none => s.updHm k (fun m =>
      let rs := if m.ready.any (fun r => r.1 == line) then m.ready.map (fun r => if r.1 = line then (r.1, r.2 ++ [q]) else r)
        else m.ready ++ [(line, [q])]
      { m with ready := rs })

/-- A request at the head of a lane that has won: refused, joined to its line's wait list, or decided (R142, R143, R150,
R186). -/
def State.decideReq (s : State) (k : Nat) (q : Pkt) (err : WordErrs) : State :=
  let box := s.hbox k
  let d := if q.needsData then dataOf box q else none
  let line := q.addr.toNat / 64
  if !homeServes q || badAop q then
    let s := s.setHbox k (boxWithout box q)
    (s.homeProto k 1 (s.homeCode k line) q (fidUnit (homeFid k))).homeComp k q 9
  else
    let item := (q, (d.map (·.data)).getD [], (d.map (·.psn)).getD false)
    match s.waitersOf k line with
    | some _ => (s.setHbox k (boxWithout box q)).joinWait k item
    | none =>
      match s.dirRead k (dirSet line) err with
      | (false, s) => s
      | (true, s) => (s.setHbox k (boxWithout box q)).newFlow k q item.2.1 item.2.2

/-- HOME_REQUEST_DECIDE: `err` is what the words of the set show, word 2w + i of way w, `table` what the check of the arbiter entry
finds. -/
def execHomeRequestDecide (k : Fin 64) (lane : BitVec 2) (err : WordErrs) (table : WordErr) (s : State) :
    Host.Outcome State Fault Refusal :=
  let i := laneIdx lane
  match s.laneHead k i with
  | none => .next s
  | some q =>
    if q.opc = 0x1C then .next s
    else if s.homeFenced k then .next ((s.dropBoxed k q).fencedAnswer k q)
    else if s.waiterOn k i then .next s
    else match s.homeWins k i with
      | none => .next s
      | some s => match s.tableCheck (fidUnit (homeFid k)) table with
        | (.uncorrectable, s) => .next (s.fenceHome k)
        | (_, s) => .next (s.decideReq k q err)

/-- The first held writeback of an ended flow that can be judged: its bucket's release has come (R178, R179). -/
def State.nextJudge (s : State) (k : Nat) : Option Judge :=
  (s.hm k).judge.find? (fun j => !(s.hm k).await.contains (bucketOf j.line) && !j.puts.isEmpty)

/-- A held writeback is taken out to be judged. -/
def State.dropJudge (s : State) (k : Nat) (j : Judge) : State :=
  s.updHm k (fun m =>
    let js := m.judge.map (fun x => if x = j then { x with puts := x.puts.drop 1 } else x)
    { m with judge := js.filter (fun x => !x.puts.isEmpty) })

/-- A writeback that wins its lane: held while its line has a flow, or behind the held ones of an ended flow, else judged (R152,
R178). -/
def State.decidePut (s : State) (k : Nat) (q : Pkt) (err : WordErrs) : State :=
  let box := s.hbox k
  let d := if q.needsData then dataOf box q else none
  let item := (q, (d.map (·.data)).getD [], (d.map (·.psn)).getD false)
  match s.trkOf k q.lineOf, (s.hm k).judge.any (fun j => j.line == q.lineOf) with
  | some (h, e), _ => (s.setHbox k (boxWithout box q)).setTrk k h (some { e with held := e.held ++ [item] })
  | none, true => (s.setHbox k (boxWithout box q)).updHm k (fun m => { m with
      judge := m.judge.map (fun j => if j.line = q.lineOf then { j with puts := j.puts ++ [item] } else j) })
  | none, false =>
    match s.dirRead k (dirSet q.lineOf) err with
    | (false, s) => s
    | (true, s) => (s.setHbox k (boxWithout box q)).judgePut k q item.2.1 item.2.2 true

/-- HOME_WRITEBACK_DECIDE: the held writebacks of ended flows are judged first, each with a read of the directory. -/
def execHomeWritebackDecide (k : Fin 64) (err : WordErrs) (s : State) : Host.Outcome State Fault Refusal :=
  match s.nextJudge k with
  | some j =>
    match j.puts with
    | q :: _ => match s.dirRead k (dirSet j.line) err with
      | (false, s) => .next s
      | (true, s) => .next ((s.dropJudge k j).judgePut k q.1 q.2.1 q.2.2 j.bkt)
    | [] => .next s
  | none =>
    match s.putHead k with
    | none => .next s
    | some q =>
      if s.homeFenced k then .next ((s.dropBoxed k q).fencedAnswer k q)
      else match s.homeWins k 1 with
        | none => .next s
        | some s => .next (s.decidePut k q err)

/-- HOME_WAITER_ENTER: the first waiter of an ended flow takes part in arbitration and is a new decision; the others wait on its
entry (R142, R143). -/
def execHomeWaiterEnter (k : Fin 64) (err : WordErrs) (s : State) : Host.Outcome State Fault Refusal :=
  match s.waiterReady k with
  | none => .next s
  | some (line, q, ws) =>
    if s.homeFenced k then .next s
    else match s.homeWins k (laneIdx q.1.vc) with
      | none => .next s
      | some s => match s.dirRead k (dirSet line) err with
        | (false, s) => .next s
        | (true, s) => .next ((s.updHm k (fun m => { m with ready := m.ready.filter (fun r => r.1 != line) })).newFlow k
            q.1 q.2.1 q.2.2 ws)

/-! ### The response lane (R173, R179, R180) -/

/-- A stray answer: counted, PROTOCOL at L0 (R180). -/
def State.stray (s : State) (k : Nat) (p : Pkt) : State :=
  (s.bump .HS_STRAY_CNT (hsBase k)).homeProto k 0 (s.homeCode k p.line.toNat) p (fidUnit (homeFid k))

/-- The head of the response lane taken when the lane wins. -/
def State.takeResp (s : State) (k : Fin 64) (p : Pkt) : Option State :=
  (s.homeWins k 0).map (fun s => s.setHbox k ((s.hbox k).erase p))

/-- HOME_COMPACK.  The flow is the one of that SRC, TXID and line: the TXID may be in use again for a younger flow (DEDUCED, log 100). -/
def execHomeCompack (k : Fin 64) (s : State) : Host.Outcome State Fault Refusal :=
  match s.respHead k with
  | none => .next s
  | some p =>
    if p.net ≠ .rsp ∨ p.opc ≠ 2 then .next s
    else match s.takeResp k p with
      | none => .next s
      | some s =>
        match (s.hm k).trk.find? (fun he => match he.2 with
          | some e => e.st == .ack && e.req.src == p.src && e.req.txid == p.txid && e.line == p.line.toNat
          | none => false) with
        | some (h, _) => .next (if s.homeFenced k then s else s.endFlow k h)
        | none => .next (s.stray k p)

/-- The snoop that a flow keeps as outstanding, as the packet that was sent. -/
def SnpOut.pkt (o : SnpOut) (h : Nat) (e : TrkEnt) : Pkt :=
  { net := .snp, opc := BitVec.ofNat 6 o.opc, slice := e.req.slice, line := BitVec.ofNat 46 e.line,
    rqfid := BitVec.ofNat 10 o.rq, htid := BitVec.ofNat 8 h,
    txid := if e.owed.contains o then BitVec.ofNat 12 h else e.req.txid }

/-- An `InvAck` with BAD_REQ: the port is accused, and the home answers the snoop in its place (R173, R184). -/
def State.badInvack (s : State) (k : Nat) (p : Pkt) : State :=
  let h := p.cnt.toNat
  let port := p.src.toNat
  match s.trk k h with
  | none => s.stray k p
  | some e =>
    match (e.owed ++ e.sent).find? (fun o => o.port == port) with
    | none => s.stray k p
    | some o =>
      let s := s.homeProto k 2 e.st.code p (fidUnit port)
      if e.owed.contains o then s.snoopAnswer k h port (if o.opc = 2 then some (zeros 64, true) else none) true
      else
        let s := s.setTrk k h (some { e with sent := e.sent.erase o })
        s.injectAs (homeFid k) p.src (let a := proxyAnswer (o.pkt h e); { a with dst := BitVec.ofNat 10 o.rq })

/-- HOME_INVACK. -/
def execHomeInvack (k : Fin 64) (s : State) : Host.Outcome State Fault Refusal :=
  match s.respHead k with
  | none => .next s
  | some p =>
    if p.net ≠ .rsp ∨ p.opc ≠ 1 then .next s
    else match s.takeResp k p with
      | none => .next s
      | some s =>
        let port := p.src.toNat
        if p.status = 9 then .next (s.badInvack k p)
        else if fld p.txid.toNat 8 4 = 15 then
          let i := p.txid.toNat % 4
          match SMap.get none (s.hm k).sweeps i with
          | some w =>
            if w.owed.contains port then
              .next ((s.updHm k (fun m => { m with
                sweeps := SMap.set none m.sweeps i (some { w with owed := w.owed.filter (· != port) }) })).sweepNext k)
            else .next (s.stray k p)
          | none => .next (s.stray k p)
        else match s.snoopOwed k p with
          | some h => .next (s.snoopAnswer k h port none (p.status == 8))
          | none => .next (s.stray k p)

/-- HOME_SNOOP_DATA. -/
def execHomeSnoopData (k : Fin 64) (s : State) : Host.Outcome State Fault Refusal :=
  match s.respHead k with
  | none => .next s
  | some p =>
    if p.net ≠ .dat ∨ p.opc.toNat < 0x10 then .next s
    else match s.takeResp k p with
      | none => .next s
      | some s =>
        match s.snoopOwed k p with
        | some h => .next (s.snoopAnswer k h p.src.toNat (some (p.data, p.psn)) false)
        | none => .next (s.stray k p)

/-- A memory answer that no MemRd or MemWr awaits is discarded: PROTOCOL at L1 (R180). -/
def State.memUnexpected (s : State) (k : Nat) (p : Pkt) : State :=
  s.homeProto k 1 (s.homeCode k p.line.toNat) p (fidUnit (homeFid k))

/-- HOME_MEM_DATA: memory `Data`, or the Comp with a status that answers a MemRd (R153, R179, R183). -/
def execHomeMemData (k : Fin 64) (s : State) : Host.Outcome State Fault Refusal :=
  match s.respHead k with
  | none => .next s
  | some p =>
    let h := p.txid.toNat
    let isData : Bool := p.net == .dat && 8 ≤ p.opc.toNat && p.opc.toNat < 0x10
    if ¬isData ∧ ¬(p.net = .rsp ∧ p.opc = 0x10 ∧ h < 256) then .next s
    else match s.takeResp k p with
      | none => .next s
      | some s =>
        match (if h < 256 then s.trk k h else none) with
        | some e =>
          if e.memRd ∧ e.buf.isNone then
            if isData then
              let s := s.setTrk k h (some { e with buf := some (p.data, p.psn) })
              .next (if e.st = .mem then s.complete k h else s.collected k h)
            else if e.col = .recon then .next ((s.setTrk k h (some { e with buf := some (zeros 64, true) })).collected k h)
            else .next (((s.restoreDir k e).homeComp k e.req p.status.toNat).endFlow k h)
          else if (s.hm k).lateMem.contains h then
            .next ((s.bump .HS_STRAY_CNT (hsBase k)).updHm k (fun m => { m with lateMem := m.lateMem.erase h }))
          else .next (s.memUnexpected k p)
        | none =>
          if (s.hm k).lateMem.contains h then
            .next ((s.bump .HS_STRAY_CNT (hsBase k)).updHm k (fun m => { m with lateMem := m.lateMem.erase h }))
          else .next (s.memUnexpected k p)

/-- HOME_MEM_COMP: a buffer's MemWr is done; `PutAck`, the `WritePass` Comp, and the line's next MemWr follow (R145, R153,
R177, R179). -/
def execHomeMemComp (k : Fin 64) (s : State) : Host.Outcome State Fault Refusal :=
  match s.respHead k with
  | none => .next s
  | some p =>
    if p.net ≠ .rsp ∨ p.opc ≠ 0x10 ∨ p.txid.toNat < 256 then .next s
    else match s.takeResp k p with
      | none => .next s
      | some s =>
        let i := p.txid.toNat - 256
        match SMap.get none (s.hm k).wbufs i with
        | none => .next (s.memUnexpected k p)
        | some w =>
          if ¬w.sent then .next (s.memUnexpected k p)
          else
            let s := s.freeWb k i
            let s := match w.put with
              | some q => if p.status = 0 then s.putAck k q false else s.homeComp k q p.status.toNat
              | none => s
            let s := match w.flow with
              | some h => match s.trk k h with
                | some e =>
                  let s := if p.status = 0 then s.dropDir k e else s
                  (s.homeComp k e.req p.status.toNat).endFlow k h
                | none => s
              | none => s
            .next (s.issueWr k w.line)

/-! ### Expiry and scrubbing (R146, R149, R183) -/

/-- The flow of an expired entry is completed according to its state (R183). -/
def State.expireFlow (s : State) (k h : Nat) (e : TrkEnt) : State :=
  let whole : Bool := e.req.opc == 8 || e.req.opc == 10 || (e.req.opc == 9 && !e.granted)
  let part : Bool := e.req.opc == 10 || (e.req.opc == 9 && !e.granted) || (e.req.opc == 8 && e.req.size != 6)
  let late (s : State) : State :=
    if e.memRd ∧ e.buf.isNone then s.updHm k (fun m => { m with lateMem := h :: m.lateMem }) else s
  match e.st with
  | .ack => s.endFlow k h
  | .col =>
    let s := late s
    let ownData := e.owed.any (fun o => o.own && o.port != 0x3FF)
    let s := s.setTrk k h (some { e with owed := [] })
    match e.col with
    | .request =>
      if ownData then
        let s := s.updTrk k h (fun e => { e with buf := some (zeros 64, true) })
        if part && e.req.opc == 8 then
          (((s.addWb k { line := e.line, data := zeros 64, poison := true, ep := e.req.ep, slice := e.req.slice }).dropDir k e).homeComp k
            e.req 6).endFlow k h
        else s.collected k h
      else if e.memDue then
        if part then ((s.dropDir k e).homeComp k e.req 6).endFlow k h
        else (s.updTrk k h (fun e => { e with buf := some (zeros 64, true) })).collected k h
      else s.collected k h
    | _ =>
      let s := if ownData then s.addWb k { line := e.line, data := zeros 64, poison := true, ep := e.req.ep, slice := e.req.slice } else s
      s.collected k h
  | _ =>
    let s := late s
    let s := s.updHm k (fun m => { m with
      trk := m.trk.map (fun ie => (ie.1, ie.2.map (fun v => if v.col = .victim ∧ v.forH = h then { v with forH := 256 } else v)))
      wbufs := m.wbufs.map (fun iw => (iw.1, iw.2.map (fun w => if w.flow = some h then { w with flow := none } else w)))
      wbWait := m.wbWait.map (fun w => if w.flow = some h then { w with flow := none } else w) })
    (((if whole ∨ e.st = .bkt then s else s.restoreDir k e)).homeComp k e.req 7).endFlow k h

/-- HOME_TRACKER_EXPIRE. -/
def execHomeTrackerExpire (k : Fin 64) (htid : BitVec 8) (s : State) : Host.Outcome State Fault Refusal :=
  let h := htid.toNat
  match s.trk k h with
  | none => .next s
  | some e =>
    if s.tick < e.start + usTicks (max 1 (s.rf .HS_TMO 0 16 (hsBase k))) ∨ s.homeFenced k then .next s
    else .next ((s.raiseNi (homeFid k) 9 1 h).expireFlow k h e)

/-- What the words 0 and the words 1 of a set's ways show, by way, as the errors of its words: word 0 of way w at 2w, word 1 at
2w + 1 (R147). -/
def dirErrs (err0 err1 : WordErrs) : WordErrs :=
  err0.map (fun e => (2 * e.1, e.2)) ++ err1.map (fun e => (2 * e.1 + 1, e.2))

/-- DIR_SCRUB: the next set is read; the operands say what its words show, by way (R149). -/
def execDirScrub (k : Fin 64) (err0 err1 : WordErrs) (s : State) : Host.Outcome State Fault Refusal :=
  let m := s.hm k
  let iv := s.rf .HS_SCRUB 0 16 (hsBase k)
  if iv = 0 ∨ s.tick < m.scrubAt + iv ∨ s.homeFenced k then .next s
  else
    let set := m.scrub
    .next ((s.setHm k { m with scrub := (set + 1) % 8192, scrubAt := s.tick }).dirRead k set (dirErrs err0 err1)).2

/-! ### The predictor's windows (R193, R194) -/

/-- One entry at the window's end in FCLK `t`: transfers recorded in that cycle count in the new window (R193). -/
def PredEnt.windowEnd (hi lo t : Nat) (e : PredEnt) : PredEnt :=
  let hi := max hi 1
  let lo := min lo hi
  let now := if e.recAt = t + 1 then e.recent else 0
  let c := e.count - now
  { e with hot := decide (hi ≤ c) || (e.hot && decide (lo ≤ c)), was := e.hot, count := min now 63 }

/-- Entries of home k in the predictor. -/
def predMine (k key : Nat) : Bool := key / 2048 == k

/-- PRED_WINDOW_END. -/
def execPredWindowEnd (k : Fin 64) (s : State) : Host.Outcome State Fault Refusal :=
  let m := s.hm k
  let win : Int := 1000 * (max 1 m.predWin : Nat)
  if s.ns % win ≠ 0 ∨ s.ns = m.predAt then .next s
  else
    let hi := s.rf .HS_PRED_CFG 10 6 (hsBase k)
    let lo := s.rf .HS_PRED_CFG 16 6 (hsBase k)
    .next ({ s with pred := s.pred.map (fun (ke : Nat × Option PredEnt) =>
        (ke.1, if predMine k ke.1 then ke.2.map (PredEnt.windowEnd hi lo s.tick) else ke.2)) }.setHm k
      { m with predWin := s.rf .HS_PRED_CFG 0 10 (hsBase k), predAt := s.ns, winAt := s.tick + 1 })

/-- CLEAR written: the entries are invalidated in the next FCLK (R194). -/
def State.predClear (s : State) (k : Nat) : State := s.updHm k (fun m => { m with predClearAt := some (s.tick + 1) })

/-- The end of the FCLK in which every predictor entry of a home is invalidated: a decision of that cycle has seen them (R194). -/
def State.predEmpty (s : State) (k : Nat) : State :=
  if (s.hm k).predClearAt.any (· ≤ s.tick) then
    { s with pred := s.pred.filter (fun ke => !predMine k ke.1) }.updHm k (fun m => { m with predClearAt := none })
  else s

/-- PRED_CLEAR. -/
def execPredClear (k : Fin 64) (s : State) : Host.Outcome State Fault Refusal := .next (s.predClear k)

/-! ### The hand-over of buckets (R42, R161 to R166) -/

/-- The directory of a home without the lines of a bucket that leaves it: a home that gets the bucket has no directory for it
(R161; DEDUCED, log 100). -/
def State.forgetBucket (s : State) (k b : Nat) : State :=
  { s with dir := s.dir.filter (fun (ke : Nat × Option DirEnt) =>
      !(ke.1 / 98304 == k && ke.2.any (fun d => bucketOf (dirLine (ke.1 / 12 % 8192) d.tag) == b))) }

/-- A bucket's release goes from the old home to the new one, in the name of `src`, with a TXID of its own until it arrives (R42,
R48).  Its sweep at the old home, if one is outstanding, keeps its slot until it has been answered. -/
def State.releaseBucket (s : State) (src : Nat) (mv : Nat × Nat × Nat) : State :=
  let s := { s with epo := { s.epo with moves := s.epo.moves.erase mv } }.forgetBucket mv.2.1 mv.1
  let s := (s.updHm mv.2.1 (fun m => { m with
    recon := m.recon.filter (· != mv.1)
    toSweep := m.toSweep.filter (· != mv.1)
    sweeps := SMap.mapVals none (fun _ (w : Option Sweep) => w.map (fun w => if w.bucket = mv.1 then { w with gone := true } else w))
      m.sweeps })).sweepNext mv.2.1
  let t := (s.nif src).freshTxid
  (s.updNi src (fun n => { n with own := n.own ++ [t] })).send src
    { net := .req, dst := BitVec.ofNat 10 (homeFid mv.2.2), opc := 0x1C, rlx := true, txid := t, addr := BitVec.ofNat 52 mv.1 }

/-- The home has nothing of a bucket left to do: its tracker holds no transaction on it, but for requests of the new epoch that wait
for the bucket to come back, and no waiter or held writeback of an ended flow is left (R42, R161). -/
def State.bucketIdle (s : State) (k b : Nat) : Bool :=
  let m := s.hm k
  m.trk.all (fun he => match he.2 with
      | some e => bucketOf e.line != b || (e.st == .bkt && s.epo.moves.any (fun mv => mv.1 == b && mv.2.2 == k))
      | none => true)
    && m.ready.all (fun r => bucketOf r.1 != b) && m.judge.all (fun j => bucketOf j.line != b)
    && (!m.await.contains b || s.epo.moves.any (fun mv => mv.1 == b && mv.2.2 == k))

/-- The move of a bucket away from a home, once the earlier moves of the bucket have been released. -/
def State.moveOf (s : State) (k b : Nat) : Option (Nat × Nat × Nat) :=
  (s.epo.moves.find? (fun mv => mv.1 == b)).filter (fun mv => mv.2.1 == k)

/-- BUCKET_RELEASE_SEND. -/
def execBucketReleaseSend (k : Fin 64) (bucket : BitVec 12) (s : State) : Host.Outcome State Fault Refusal :=
  match s.moveOf k bucket.toNat with
  | some mv =>
    if s.epo.dual ∨ s.homeFenced k ∨ ¬s.bucketIdle k bucket.toNat then .next s
    else .next (s.releaseBucket (homeFid k) mv)
  | none => .next s

/-- BUCKET_RELEASE_PROXY: the program controller releases for a fenced old home once its dirty lines are out (R42,
R167). -/
def execBucketReleaseProxy (k : Fin 64) (bucket : BitVec 12) (s : State) : Host.Outcome State Fault Refusal :=
  match s.moveOf k bucket.toNat with
  | some mv =>
    if s.epo.dual ∨ ¬s.homeFenced k ∨ ¬((s.hm k).wbufs.isEmpty && (s.hm k).wbWait.isEmpty) then .next s
    else .next (s.releaseBucket 0x180 mv)
  | none => .next s

/-- BUCKET_RELEASE_RECEIVE: the release at the head of its lane puts the bucket into reconstruct mode (R161). -/
def execBucketReleaseReceive (k : Fin 64) (s : State) : Host.Outcome State Fault Refusal :=
  let at_ (i : Nat) : Option (Nat × Pkt) := match s.laneHead k i with
    | some q => if q.opc = 0x1C then some (i, q) else none
    | none => none
  match [2, 3, 4].findSome? at_ with
  | none => .next s
  | some (i, q) =>
    match s.homeWins k i with
    | none => .next s
    | some s => .next (((s.setHbox k ((s.hbox k).erase q)).updNi q.src.toNat (fun n => { n with own := n.own.erase q.txid })).enterRecon k
        (q.addr.toNat % 4096))

/-- BUCKET_SWEEP_TIMEOUT (R165): the fault is raised once per sweep. -/
def execBucketSweepTimeout (k : Fin 64) (slot : Fin 4) (s : State) : Host.Outcome State Fault Refusal :=
  match SMap.get none (s.hm k).sweeps slot with
  | none => .next s
  | some w =>
    if w.late ∨ w.gone ∨ s.tick < w.start + usTicks (16 * max 1 (s.rf .HS_TMO 0 16 (hsBase k))) then .next s
    else .next ((s.updHm k (fun m => { m with
      sweeps := SMap.set none m.sweeps slot (some { w with late := true }) })).raiseNi (homeFid k) 9 1 w.bucket)

end Sys2Proof.Machine
end

