-- ==== Sys2Proof/Machine/Sram.lean ====
section
/-! DEFINITION. The shared SRAM banks: one cycle at a bank, its conflicts, far atomics, and the scrubber (R219 to R233). -/

namespace Sys2Proof.Machine

/-! ### Requesters (R80, R83, R221, R222) -/

/-- Bank b of node k. -/
def State.bankAt (s : State) (k b : Nat) : Bank := SMap.get {} s.bank (4 * k + b)

/-- Bank b of node k replaced. -/
def State.setBank (s : State) (k b : Nat) (x : Bank) : State := { s with bank := SMap.set {} s.bank (4 * k + b) x }

/-- The packets that the node's interface has presented. -/
def State.sbox (s : State) (k : Nat) : List Pkt := (s.nif (ssbFid k)).inbox

/-- The opcodes that the fabric side accepts from the network (R222). -/
def bankServes (q : Pkt) : Bool :=
  (q.opc == 0x12 || q.opc == 0x13 || q.opc == 0x14 || q.opc == 0x15 || q.opc == 0x16 || q.opc == 0xA) && !badAop q

/-- The shared SRAM offset of a request: through the entry that decides it, or in the direct window (R201, R219, R422). -/
def State.sramOff (s : State) (k : Nat) (q : Pkt) : Option Nat :=
  if q.opc = 0x15 ∨ q.opc = 0x16 then some (fld q.addr.toNat 0 25)
  else match s.deciding q.ep (checkerOf (ssbFid k)) q.slice.toNat q.addr.toNat with
  | some (_, e) => if ruleType e = 2 then some (q.addr.toNat - ruleBase e * 4096) else none
  | none => none

/-- The data of a write at the node. -/
def wrData (box : List Pkt) (q : Pkt) : Option Pkt := box.find? (fun p => p.net == .dat && p.src == q.src && p.txid == q.txid)

/-- The request writes data that follows it on DAT. -/
def bankWr (q : Pkt) : Bool := q.opc == 0x13 || q.opc == 0x14

/-- The request writes. -/
def bankStores (q : Pkt) : Bool := bankWr q || q.opc == 0x16

/-- Lane of a fabric request: VC0, VC2 with VC1, VC3. -/
def bankLane (vc : BitVec 2) : Nat := if vc = 0 then 0 else if vc = 3 then 2 else 1

/-- A request of the node is for bank b; one that no bank can serve goes to any. -/
def State.forBank (s : State) (k b : Nat) (q : Pkt) : Bool :=
  q.net == .req && (!bankServes q || (match s.sramOff k q with | some o => fld o 19 2 == b | none => true))

/-- The head of a fabric lane at bank b: the oldest request for it, which waits for its own data and for an earlier request of its
ordered stream to the bank, so that the port reorders nothing (R226). -/
def State.bankHead (s : State) (k b lane : Nat) : Option Pkt :=
  let box := s.sbox k
  let mine := box.filter (s.forBank k b)
  match mine.find? (fun q => bankLane q.vc == lane) with
  | none => none
  | some q =>
    let first : Bool := q.rlx || mine.find? (fun x => x.src == q.src && !x.rlx) == some q
    if first ∧ (¬bankServes q ∨ ¬bankWr q ∨ (wrData box q).isSome) then some q else none

/-- The local-side accesses of a node, oldest first. -/
def State.locOf (s : State) (k : Nat) : List LocAcc := SMap.get [] s.loc k

/-- The access that a cluster asks of bank b: its oldest one there that follows none of the same thread (R226, R274). -/
def State.locHead (s : State) (k b j : Nat) : Option LocAcc :=
  let mine := (s.locOf k).filter (fun a => a.cluster == 3 * k + j)
  mine.find? (fun a => fld a.o 19 2 == b && (mine.find? (fun x => x.thr == a.thr)) == some a)

/-- A bank's requesters on the fabric port. -/
def State.fabReqs (s : State) (k : Fin 16) (b : Fin 4) : List ArbReq :=
  let e := s.arbEntry (.bank k b)
  let masked : Bool := arbQuota e ≤ (s.arb (.bank k b)).tc1
  let lane (i lvl burst enters : Nat) : List ArbReq := match s.bankHead k b i with
    | some q => [{ idx := i, level := lvl, burst := burst, kind := privKind q, enters := enters }]
    | none => []
  lane 0 3 (burstEsc e) 0 ++ lane 1 (if masked then 3 else 2) (burstTc1 e) 1 ++ lane 2 3 (burstBulk e) 0

/-- A bank's requesters on the local port. -/
def State.locReqs (s : State) (k : Fin 16) (b : Fin 4) : List ArbReq :=
  let e := s.arbEntry (.bank k b)
  let masked : Bool := arbQuota e ≤ (s.arb (.bank k b)).tc1
  (List.range 3).filterMap (fun j => (s.locHead k b j).map (fun _ =>
    { idx := 3 + j, level := if masked then 3 else 2, burst := burstTc1 e, enters := 1 }))

/-! ### Conflicts (R224, R231) -/

/-- What an access does to its row: offset, length, whether it writes. -/
structure RowUse where
  o  : Nat
  n  : Nat
  wr : Bool
  deriving DecidableEq, Repr

/-- Two accesses of one cycle conflict (R224). -/
def rowConflict (a b : RowUse) : Bool :=
  rowOf a.o % 8 == rowOf b.o % 8
    && (rowOf a.o != rowOf b.o || (a.wr && b.wr && decide (a.o < b.o + b.n) && decide (b.o < a.o + a.n)))

/-- A lost conflict is counted against its master (R231). -/
def State.countConflict (s : State) (k b master : Nat) : State :=
  let s := s.count (ssbFid k) (72 + b)
  match (List.range 64).filter (fun n => s.rf .SSB_CONFn_SEL 0 11 (ssbBase k) n == master + 2 ^ 10) with
  | [] => s.bump .SSB_CONF_OTHER (ssbBase k)
  | ns => ns.foldl (fun s n => s.bump .SSB_CONFn_CNT (ssbBase k) n) s

/-! ### The accesses (R222, R227, R229, R232) -/

/-- A request leaves the node, with its data. -/
def State.bankTake (s : State) (k : Nat) (q : Pkt) : State :=
  s.updNi (ssbFid k) (fun n =>
    let box := n.inbox.erase q
    { n with inbox := match (if bankWr q then wrData box q else none) with | some d => box.erase d | none => box })

/-- A fabric request that no bank performs: an opcode that is not served, or an offset that no entry gives. -/
def State.bankRefuse (s : State) (k : Nat) (q : Pkt) : State :=
  let s := s.bankTake k q
  if bankServes q then s.answer (ssbFid k) q 1
  else ((s.raiseNi (ssbFid k) 6 1 q.txid.toNat).answer (ssbFid k) q 9).sinkData (ssbFid k) q

/-- Bytes of a data packet that its BE enables, stored in runs. -/
def State.storeBe (s : State) (row : Nat) (d : Pkt) : State :=
  (List.range 8).foldl (fun s w =>
    let es := (List.range 8).filter (fun i => d.be.getLsbD (8 * w + i))
    if es.length = 8 then s.sramWrite (row + 8 * w) ((d.data.drop (8 * w)).take 8) d.psn
    else es.foldl (fun s i => s.sramWrite (row + 8 * w + i) [d.data.getD (8 * w + i) 0] d.psn) s) s

/-- The words of a row that data stores in part, which are read first (R232). -/
def partWords (row : Nat) (be : Word64) : List Nat :=
  ((List.range 8).filter (fun w =>
    let n := ((List.range 8).filter (fun i => be.getLsbD (8 * w + i))).length
    decide (0 < n ∧ n < 8))).map (row / 8 + ·)

/-- A fabric access performed at offset `o` (R222, R227 to R229, R232); an atomic is in its first cycle. -/
def State.fabPerform (s : State) (k b o : Nat) (q : Pkt) (err : WordErrs) : State :=
  let f := ssbFid k
  let n := 2 ^ q.size.toNat
  let atomic : Bool := q.opc == 0xA
  let rd : Bool := atomic || !bankStores q
  let wr : Bool := atomic || bankStores q
  let s := s.count f (64 + b)
  if ¬s.regionOk o q.src.toNat q.slice.toNat rd wr then
    ((s.bankTake k q).regionDeny o q.src.toNat wr false).answer f q 1 0 (if q.opc = 0x15 then [0] else [])
  else if q.opc = 0x16 then
    let (_, s) := s.sramCheck o 4 false false err
    ((s.bankTake k q).sramWrite o (leBytes 4 (q.ops.getD 0 0).toNat)).answer f q 0
  else if bankWr q then
    let d := (wrData (s.sbox k) q).getD { net := .dat }
    let (_, s) := s.wordsCheck (partWords (o / 64 * 64) d.be) false false err
    ((s.bankTake k q).storeBe (o / 64 * 64) d).answer f q 0
  else
    let (bad, s) := s.sramCheck o n false false err
    if q.opc = 0x15 then
      (s.bankTake k q).answer f q (if bad then 6 else 0) 0 [BitVec.ofNat 64 (leNat (s.sramRead o 4))]
    else if atomic then
      if bad then (s.bankTake k q).answer f q 6
      else s.setBank k b { s.bankAt k b with atom := some (q, leNat (s.sramRead o n)) }
    else
      (s.bankTake k q).send f { dataFor q 0 (s.sramRead (o / 64 * 64) 64) bad with be := spanBe (o % 64) n }

/-- The second cycle of an atomic: the new value is written and `AtomResult` answers (R227). -/
def State.atomFinish (s : State) (k b : Nat) (q : Pkt) (old : Nat) : State :=
  let n := 2 ^ q.size.toNat
  let o := (s.sramOff k q).getD 0
  let a := (q.ops.getD 0 0).toNat
  let c := (q.ops.getD 1 0).toNat
  let s := (s.bankTake k q).setBank k b { s.bankAt k b with atom := none }
  (s.sramWrite o (leBytes n (aopResult q.aop.toNat n old a c))).send (ssbFid k)
    { net := .rsp, dst := q.src, opc := 6, txid := q.txid, slice := q.slice, len := 2, ops := [BitVec.ofNat 64 old] }

/-- A local-side access leaves the node's list. -/
def State.locTake (s : State) (k : Nat) (a : LocAcc) : State :=
  { s with loc := SMap.set [] s.loc k ((s.locOf k).erase a) }

/-- A local store is performed: its store-buffer entry frees, and a parked load that waited for it may go on (R272, R273). -/
def State.storeFreed (s : State) (k i ent : Nat) : State :=
  let pair := ((s.thr k i).sb.find? (fun e => e.id == ent)).map (·.pair)
  let s := s.updThr k i (fun x =>
    let x := { x with sb := x.sb.filter (fun e => e.id != ent), parkOn := x.parkOn.filter (· != ent) }
    if x.st = .park ∧ x.parkOn.isEmpty then { x with st := .ready } else x)
  if (s.thr k i).sb.any (fun e => some e.pair == pair) then s else s.sampleEnd k none pair

/-- A local-side access that no region admits when it is performed: its store or request ends DENIED (R229, R230). -/
def State.locDenied (s : State) (a : LocAcc) : State :=
  let s := s.regionDeny a.o (clFid a.cluster) a.wr true
  match a.why with
  | .store e =>
    let ea := (((s.thr a.cluster a.thr).sb.find? (fun x => x.id == e)).map SbEnt.full).getD 0
    (s.storeFreed a.cluster a.thr e).deferTrap a.cluster a.thr 0x11 1 (BitVec.ofNat 64 ea)
  | .part r => s.partDone a.cluster r a.off 1
  | .sample => s

/-- A local-side access performed, under the regions in effect in this cycle (R225, R230, R232). -/
def State.locPerform (s : State) (k b : Nat) (a : LocAcc) (err : WordErrs) : State :=
  let s := (s.locTake k a).count (ssbFid k) (68 + b)
  if ¬s.regionOk a.o (clFid a.cluster) a.slice (!a.wr) a.wr then s.locDenied a
  else if a.wr then
    let cut := (wordsOf a.o a.data.length).filter (fun w => decide (8 * w < a.o ∨ a.o + a.data.length < 8 * w + 8))
    let (_, s) := s.wordsCheck cut true false err
    let s := s.sramWrite a.o a.data a.psn
    match a.why with
    | .store e => s.storeFreed a.cluster a.thr e
    | .part r => s.partDone a.cluster r a.off 0
    | .sample => s
  else
    let (bad, s) := s.sramCheck a.o a.n true false err
    match a.why with
    | .part r => s.partDone a.cluster r a.off 0 (s.sramRead a.o a.n) bad
    | _ => s

/-! ### One cycle (R223, R224) -/

/-- What a chosen fabric access does to its row; none: no bank performs it. -/
def State.fabUse (s : State) (k : Nat) (q : Pkt) : Option RowUse :=
  if bankServes q then (s.sramOff k q).map (fun o => { o := o, n := 2 ^ q.size.toNat, wr := bankStores q }) else none

/-- What a local access does to its row. -/
def LocAcc.use (a : LocAcc) : RowUse := { o := a.o, n := if a.wr then a.data.length else a.n, wr := a.wr }

/-- Level of a winner: a forced one is at level 1 (R83). -/
def winLevel (w : ArbReq × Bool × Bool) : Nat := if w.2.1 then 1 else w.1.level

/-- Which ports perform their access: fabric, local, and the port that loses next time (R224).  `locked`: an atomic of the fabric
port is between its cycles on the local access's row, so that one waits (R227). -/
def bankVerdict (lost locked : Bool) (fu : Option RowUse) (lu : Option RowUse) (fl ll : Nat) : Bool × Bool × Bool :=
  match fu, lu with
  | some a, some c =>
    if locked ∧ rowOf a.o = rowOf c.o then (true, false, lost)
    else if rowConflict a c then
      if fl < ll then (true, false, lost) else if ll < fl then (false, true, lost)
      else if lost then (false, true, false) else (true, false, true)
    else (true, true, lost)
  | _, _ => (true, true, lost)

/-- What a cycle of a bank has chosen: the winners of its ports, and whether the access of each is performed; `held`: the fabric
access is an atomic's first cycle, `again`: it is its second (R227). -/
structure BankPick where
  wf    : Option (ArbReq × Bool × Bool)
  wl    : Option (ArbReq × Bool × Bool)
  fd    : Bool
  ld    : Bool
  held  : Bool := false
  again : Bool := false
  deriving DecidableEq, Repr

/-- A winner begins a new grant that moves the pointer (R84, R223). -/
def beginsGrant : Option (ArbReq × Bool × Bool) → Bool
  | some (_, forced, new) => new && !forced
  | none => false

/-- The grants that a winner enters into the TC1 count. -/
def entersTc1 : Option (ArbReq × Bool × Bool) → Nat
  | some (r, _, new) => if new && r.enters == 1 then 1 else 0
  | none => 0

/-- The burst count of a port after a cycle: a lost conflict and an atomic's second cycle do not count (R224, R227). -/
def usedAfter (used : Nat) (w : Option (ArbReq × Bool × Bool)) (counts : Bool) : Nat :=
  match w with | some (_, _, new) => (if new then 0 else used) + counts.toNat | none => 0

/-- The instance of a bank after a cycle (R84, R87, R88, R223). -/
def Arb.bankAfter (a : Arb) (rs : List ArbReq) (c : BankPick) : Arb :=
  let news := (if beginsGrant c.wf then (c.wf.map (·.1.idx)).toList else []) ++ (if beginsGrant c.wl then (c.wl.map (·.1.idx)).toList else [])
  let forced : Bool := match c.wf with | some (_, f, _) => f | none => false
  let ended : Bool := forced && c.fd && !c.held
  { a with
    holder := if ended then none else c.wf.map (·.1.idx)
    used := if ended then 0 else usedAfter a.used c.wf (c.fd && !c.again)
    forced := forced && !ended
    ptr := match news.max? with | some m => (m + 1) % 6 | none => a.ptr
    tc1 := a.tc1 + entersTc1 c.wf + entersTc1 c.wl
    waits := waitsAfter a.waits rs (if c.fd then c.wf.map (·.1.idx) else none) }

/-- The arbiter state of a bank after a cycle. -/
def State.bankGrant (s : State) (k : Fin 16) (b : Fin 4) (c : BankPick) : State :=
  let site := ArbSite.bank k b
  let x := s.bankAt k b
  let a := (s.arb site).bankAfter (s.fabReqs k b) c
  let s := match c.wf with | some (_, true, true) => s.bump .ARB_FORCED (arbBase site) | _ => s
  ((s.setArb site { a with at_ := s.tick + 1 }).setBank k b { x with
    lholder := c.wl.map (·.1.idx)
    lused := usedAfter x.lused c.wl c.ld }).noteMask site

/-- The requester whose atomic is between its cycles: it keeps its grant (R227). -/
def State.atomReq (s : State) (k : Fin 16) (b : Fin 4) (q : Pkt) : ArbReq × Bool × Bool :=
  let a := s.arb (.bank k b)
  let r := ((s.fabReqs k b).find? (fun r => s.bankHead k b r.idx == some q)).getD { idx := bankLane q.vc, level := 3, burst := 1 }
  (r, a.forced, false)

/-- The fabric access of a cycle performed: an atomic's write, or an access in its first cycle. -/
def State.fabDo (s : State) (k b : Nat) (q : Pkt) (fu : Option RowUse) (err : WordErrs) : State :=
  match (s.bankAt k b).atom, fu with
  | some (q, old), _ => s.atomFinish k b q old
  | none, some u => s.fabPerform k b u.o q err
  | none, none => s.bankRefuse k q

/-- One cycle of a bank: an access of each port is chosen, and both are performed or a conflict is resolved; a write of the fabric
port comes before a read of the local one, and the other way round (R223 to R225, R227). -/
def State.bankCycle (s : State) (node : Fin 16) (bank : Fin 4) (fabErr locErr : WordErrs) : State :=
  let site := ArbSite.bank node bank
  let e := s.arbEntry site
  let a := s.arb site
  let x := s.bankAt node bank
  let wl := arbWinner e 6 { a with holder := x.lholder, used := x.lused, forced := false } (s.locReqs node bank)
  let loc := wl.bind (fun w => s.locHead node bank (w.1.idx - 3))
  let again := x.atom.isSome
  let wf := match x.atom with | some (q, _) => some (s.atomReq node bank q) | none => arbWinner e 6 a (s.fabReqs node bank)
  let fab := match x.atom with | some (q, _) => some q | none => wf.bind (fun w => s.bankHead node bank w.1.idx)
  let fu := (fab.bind (s.fabUse node)).map (fun u => { u with wr := u.wr || again })
  let v := bankVerdict x.lost again fu (loc.map LocAcc.use) ((wf.map winLevel).getD 9) ((wl.map winLevel).getD 9)
  let fd := v.1
  let ld := v.2.1
  let held : Bool := !again && ((fab.map (fun q => q.opc == 0xA)).getD false)
  let s := s.bankGrant node bank { wf := wf, wl := wl, fd := fd, ld := ld, held := held, again := again }
  let subs := (if fd then (fu.map (fun u => rowOf u.o % 8)).toList else [])
    ++ (if ld then (loc.map (fun c => rowOf c.o % 8)).toList else [])
  let s := s.setBank node bank { s.bankAt node bank with lost := v.2.2, subs := subs }
  let s := match fab with | some q => if fd then s else s.countConflict node bank q.src.toNat | none => s
  let s := match loc with | some c => if ld then s else s.countConflict node bank (clFid c.cluster) | none => s
  let fabric (s : State) : State := match fab with | some q => if fd then s.fabDo node bank q fu fabErr else s | none => s
  let local_ (s : State) : State := match loc with | some c => if ld then s.locPerform node bank c locErr else s | none => s
  if (fu.map (·.wr)).getD false then local_ (fabric s) else fabric (local_ s)

/-- BANK_ACCESS: one cycle of a bank, at most one in an FCLK; `table` is what the check of its arbiter entry finds. -/
def execBankAccess (node : Fin 16) (bank : Fin 4) (fabErr locErr : WordErrs) (table : WordErr) (s : State) :
    Host.Outcome State Fault Refusal :=
  if s.prim = .halt ∨ s.arbDone (.bank node bank) then .next s
  else match s.tableCheck (fidUnit (ssbFid node)) table with
    | (.uncorrectable, s) => .next (s.fenceNi (ssbFid node))
    | (_, s) => .next (s.bankCycle node bank fabErr locErr)

/-- The sub-arrays of a bank that the accesses of this FCLK use, those that wait for its cycle among them (R233). -/
def State.subsBusy (s : State) (k : Fin 16) (b : Fin 4) : List Nat :=
  if s.arbDone (.bank k b) then (s.bankAt k b).subs
  else
    (match (s.bankAt k b).atom with | some (q, _) => ((s.fabUse k q).map (fun u => rowOf u.o % 8)).toList | none => [])
      ++ (List.range 3).filterMap (fun i => ((s.bankHead k b i).bind (s.fabUse k)).map (fun u => rowOf u.o % 8))
      ++ (List.range 3).filterMap (fun j => (s.locHead k b j).map (fun c => rowOf c.o % 8))

/-- SRAM_SCRUB: the scrubber reads one row every INTERVAL FCLK, in a cycle in which its sub-array is unused, and corrects it
(R233). -/
def execSramScrub (node : Fin 16) (bank : Fin 4) (err : WordErrs) (s : State) : Host.Outcome State Fault Refusal :=
  let iv := s.rf .SSB_SCRUB 0 16 (ssbBase node)
  let x := s.bankAt node bank
  if iv = 0 ∨ s.tick < x.scrubAt + iv ∨ s.niFenced (ssbFid node) ∨ (s.subsBusy node bank).contains (x.scrub % 8) then .next s
  else
    let s := s.setBank node bank { x with scrub := (x.scrub + 1) % 8192, scrubAt := s.tick }
    .next (s.sramCheck ((4 * node + bank) * 2 ^ 19 + 64 * x.scrub) 64 false true err).2

end Sys2Proof.Machine
end

