-- ==== Sys2Proof/Machine/Tamik.lean ====
section
/-! DEFINITION. How an engine issues a Tamik instruction: decoding, candidates, the choice among the threads, the
instruction store, sampling, and precise traps (R263 to R270, R282 to R290). -/

namespace Sys2Proof.Machine

/-! ### Decoding (R269, R270) -/

/-- The instructions of the opcode summary; numbers are the FN or IMM code within a group. -/
inductive TOp where
  | alu (fn : Nat)
  | addk | andk | iork | xork | cmpltk
  | sethi
  | shk (kind : Nat)
  | callr
  | sync | rett | rdtcr | wrtcr | signal | halt | brk
  | load (n : Nat) (signed : Bool)
  | store (n : Nat)
  | ldln | stln | atom
  | enq | deq | dbell | seqw | intr | recv | rxdone
  | rdtim | waitt | settmr
  | branch (cond : Nat)
  | call
  deriving DecidableEq, Repr

/-- D of forms A and I; A of form B. -/
def opD (w : Nat) : Nat := fld w 21 5
/-- A of forms A and I; B of form B. -/
def opA (w : Nat) : Nat := fld w 16 5
/-- B of form A. -/
def opB (w : Nat) : Nat := fld w 11 5
/-- FN of form A. -/
def opFn (w : Nat) : Nat := fld w 0 11
/-- IMM of form I, and OFF of form B, zero-extended. -/
def opImm (w : Nat) : Nat := fld w 0 16
/-- A field of `n` bits read as signed. -/
def signedFld (n v : Nat) : Int := if v < 2 ^ (n - 1) then v else (v : Int) - 2 ^ n
/-- IMM or OFF of 16 bits, sign-extended (R269). -/
def opSimm (w : Nat) : Int := signedFld 16 (opImm w)
/-- OFF of form J. -/
def opOff26 (w : Nat) : Int := signedFld 26 (fld w 0 26)

/-- The SYS group by FN, with the fields that each one leaves unused zero. -/
def decodeSys (w : Nat) : Option TOp :=
  match opFn w with
  | 0 => if fld w 11 15 = 0 then some .sync else none
  | 1 => if fld w 11 15 = 0 then some .rett else none
  | 2 => if opA w = 0 then some .rdtcr else none
  | 3 => if opD w = 0 then some .wrtcr else none
  | 4 => if opD w = 0 ∧ opB w = 0 then some .signal else none
  | 5 => if fld w 11 15 = 0 then some .halt else none
  | 6 => if fld w 11 15 = 0 then some .brk else none
  | _ => none

/-- The instruction that a word encodes; none: ILLEGAL (R270). -/
def tDecode (w : Nat) : Option TOp :=
  let d := opD w
  let a := opA w
  let b := opB w
  let fn := opFn w
  match fld w 26 6 with
  | 0x00 => if fn ≤ 0x10 then some (.alu fn) else none
  | 0x01 => some .addk
  | 0x02 => some .andk
  | 0x03 => some .iork
  | 0x04 => some .xork
  | 0x05 => some .cmpltk
  | 0x06 => if a = 0 then some .sethi else none
  | 0x07 => if fld w 8 8 = 0 ∧ fld w 6 2 < 3 then some (.shk (fld w 6 2)) else none
  | 0x08 => some .callr
  | 0x09 => decodeSys w
  | 0x10 => some (.load 1 false)
  | 0x11 => some (.load 2 false)
  | 0x12 => some (.load 4 false)
  | 0x13 => some (.load 8 false)
  | 0x14 => some (.load 1 true)
  | 0x15 => some (.load 2 true)
  | 0x16 => some (.load 4 true)
  | 0x18 => some (.store 1)
  | 0x19 => some (.store 2)
  | 0x1A => some (.store 4)
  | 0x1B => some (.store 8)
  | 0x1C => if fn = 0 then some .ldln else none
  | 0x1D => if fn = 0 then some .stln else none
  | 0x20 => if fn < 64 ∧ fld fn 0 4 ≤ 9 then some .atom else none
  | 0x28 => if fn = 0 then some .enq else none
  | 0x29 => if fn = 0 then some .deq else none
  | 0x2A => if fn = 0 ∧ b = 0 then some .dbell else none
  | 0x2B => if fn ≤ 6 then some .seqw else none
  | 0x2C => if fn = 0 then some .intr else none
  | 0x2D => if fn = 0 ∧ a = 0 ∧ b = 0 then some .recv else none
  | 0x2E => if fn = 0 ∧ d = 0 ∧ b = 0 then some .rxdone else none
  | 0x30 => if fn = 0 ∧ a = 0 ∧ b = 0 then some .rdtim else none
  | 0x31 => if fn = 0 ∧ d = 0 ∧ b = 0 then some .waitt else none
  | 0x32 => if fn = 0 ∧ d = 0 ∧ b = 0 then some .settmr else none
  | 0x38 => some (.branch 0)
  | 0x39 => some (.branch 1)
  | 0x3A => some (.branch 2)
  | 0x3B => some (.branch 3)
  | 0x3C => some (.branch 4)
  | 0x3D => some (.branch 5)
  | 0x3E => some .call
  | _ => none

/-- Source registers of an instruction. -/
def srcRegs (op : TOp) (w : Nat) : List Nat :=
  match op with
  | .alu _ | .ldln | .stln | .enq | .deq | .seqw | .intr => [opA w, opB w]
  | .addk | .andk | .iork | .xork | .cmpltk | .shk _ | .callr | .wrtcr | .signal | .load _ _ | .dbell | .rxdone
  | .waitt | .settmr => [opA w]
  | .store _ => [opD w, opA w]
  | .atom => if fld w 0 4 = 5 then [opD w, opA w, opB w] else [opA w, opB w]
  | .branch _ => [opD w, opA w]
  | .sethi | .sync | .rett | .rdtcr | .halt | .brk | .recv | .rdtim | .call => []

/-- Effective address of a load or store: A + IMM. -/
def Thr.ea (x : Thr) (w : Nat) : Word64 := x.reg (opA w) + BitVec.ofInt 64 (opSimm w)

/-! ### Candidates (R263, R274, R275, R281) -/

/-- The accesses that an engine makes of a load or store: the places of its halves; none: ADDR. -/
def State.halfPlaces (s : State) (k ea n : Nat) : Option (List (Nat × Nat × Place)) :=
  if (s.place k ea n).isNone then none
  else
    let hs := (halvesOf ea n).filterMap (fun h => (s.place k h.1 h.2).map (fun p => (h.1, h.2, p)))
    let mixed : Bool := hs.any (fun h => match h.2.2 with | .fab .. => true | _ => false)
    some (if mixed then hs.map (fun h => (h.1, h.2.1, s.asFabric k h.2.2)) else hs)

/-- The pieces of R114 that a fabric part takes. -/
def piecesOf : Nat × Nat × Place → List (Nat × Nat)
  | (_, n, .fab pa _) => splitRange 8 pa n
  | _ => []

/-- Room for `n` more entries of a thread's six, in a tracker with as many free (R281). -/
def State.room6 (s : State) (k i n : Nat) : Bool :=
  decide (s.held6 k i + n ≤ 6) && decide (n ≤ (s.freeSrc (clFid k)).length)

/-- The resources that an instruction needs are free (R263). -/
def State.resFree (s : State) (k i : Nat) (x : Thr) (op : TOp) (w : Nat) : Bool :=
  match op with
  | .load n _ =>
    match s.halfPlaces k (x.ea w).toNat n with
    | some hs => s.room6 k i ((hs.map (fun h => (piecesOf h).length)).sum)
    | none => true
  | .store n => decide (x.sb.length + (halvesOf (x.ea w).toNat n).length ≤ 8)
  | .sync => x.sb.isEmpty && ((s.cl k).reqsOf i).isEmpty
  | .atom => x.sb.isEmpty && s.room6 k i 1
  | .ldln | .stln | .enq | .deq | .dbell | .seqw | .intr => s.room6 k i 1
  | _ => true

/-- Interrupts that are pending and enabled (R265, R283). -/
def Thr.irq (x : Thr) : Nat := if x.ie then x.ien &&& x.ipend else 0

/-- The thread is a candidate (R263); one with a trap or an interrupt to take is at that first. -/
def State.candidate (s : State) (k i : Nat) : Bool :=
  let x := s.thr k i
  x.st == .ready && x.due.isNone && x.irq == 0 && decide (x.from_ ≤ s.eclk)
    && (let w := s.ecode k x.tep x.pc
        match tDecode w with
        | none => true
        | some op => (srcRegs op w).all (fun r => !(s.cl k).owes i r && decide (r = 0 ∨ SMap.get 0 x.ready r ≤ s.eclk))
            && s.resFree k i x op w)

/-- The threads of engine `j` of a cluster in the order in which it looks at them (R263). -/
def State.lookOrder (s : State) (k j : Nat) : List Nat :=
  let last := SMap.get 7 (s.cl k).last j
  (List.range 8).map (fun n => 8 * j + (last + 1 + n) % 8)

/-- The thread that engine `j` issues in this ECLK. -/
def State.issuer (s : State) (k j : Nat) : Option Nat :=
  if SMap.get 0 (s.cl k).at_ j = s.eclk + 1 then none else (s.lookOrder k j).find? (s.candidate k)

/-! ### Adoption of a new bank (R288) -/

/-- A thread adopts the current bank: PC, TVEC and SLICE come from its new entry, and TEP changes; a thread without an
entry enters OFF. -/
def State.adopt (s : State) (k i : Nat) : State :=
  let e := s.thrEntry k s.epo.cur i
  s.updThr k i (fun x =>
    let st : ThrState := if ¬bitOf e 20 then .off else if x.st = .off ∨ x.st = .halt then x.st else .ready
    { x with st := st, tep := s.epo.cur, pc := fld e 0 14, slice := BitVec.ofNat 6 (fld e 14 6), tvec := fld e 21 14,
             tvld := bitOf e 35, until_ := none, parked := false, parkOn := [],
             held := if bitOf e 20 then x.held.map (fun _ => .ready) else none })

/-- A thread that stands in OFF or HALT adopts at once. -/
def State.adoptIdle (s : State) (k i : Nat) : State :=
  let x := s.thr k i
  if x.tep ≠ s.epo.cur ∧ (x.st = .off ∨ x.st = .halt) then s.adopt k i else s

/-! ### Issue -/

/-- A new sample, or a skipped one (R290). -/
def State.sampleIssue (s : State) (k i : Nat) (x : Thr) (w : Nat) (ea : Word64) (split : Bool) : State :=
  if s.rf .ENG_SAMP_CFG 31 1 (eclBase k) = 0 then s
  else
    let c := s.cl k
    if c.issued < max 1 (s.rf .ENG_SAMP_CFG 0 16 (eclBase k)) then s.setCl k { c with issued := c.issued + 1 }
    else
      let (r, s) := if s.rf .ENG_SAMP_CFG 16 1 (eclBase k) = 1 then (s.drawn % 16, s.draw) else (0, s)
      if c.sample.isSome then (s.setCl k { c with issued := r }).bump .ENG_SAMP_SKIP (eclBase k)
      else
        let p : Samp := { pc := x.pc, eng := 4 * k + i / 8, thr := i % 8, maj := fld w 26 6, ea := ea, at_ := s.eclk,
                          parked := x.parked, split := split, skips := x.skips, ns := s.ns }
        s.setCl k { c with issued := r, sample := some p }

/-- Accounting of an issued instruction: the engine's turn, its counters, the threads that it passed over (R263, R298). -/
def State.issued (s : State) (k i : Nat) : State :=
  let j := i / 8
  let passed := (s.lookOrder k j).takeWhile (· != i)
  let s := passed.foldl (fun s m => s.updThr k m (fun y => if y.st = .ready then { y with skips := min (y.skips + 1) 0xFFF } else y)) s
  let s := s.updCl k (fun c => { c with last := SMap.set 7 c.last j (i % 8), at_ := SMap.set 0 c.at_ j (s.eclk + 1) })
  ((((s.updThr k i (fun y => { y with skips := 0 })).bump .ENG_ISSUE (engBase (4 * k + j))).count (clFid k) (64 + j)).countSlice
    (s.thr k i).slice.toNat 10)

/-- The sample of the instruction that has just issued traps precisely: it is complete. -/
def State.sampleTrap (s : State) (k i : Nat) : State :=
  s.updCl k (fun c => match c.sample with
    | some p => if p.at_ = s.eclk ∧ p.eng = 4 * k + i / 8 ∧ p.thr = i % 8 ∧ p.doneAt.isNone
        then { c with sample := some { p with trap := true, doneAt := some s.eclk } } else c
    | none => c)

/-- A precise trap: EPC is the PC of the instruction itself (R282). -/
def State.precise (s : State) (k i cause : Nat) (taddr : Word64) : State :=
  ((s.takeTrap k i cause 0 (s.thr k i).pc taddr).adoptIdle k i).sampleTrap k i

/-- The sample of the instruction that has just issued waits for its request or store, or ends with its result. -/
def State.sampleWait (s : State) (k i serial lat : Nat) : State :=
  s.updCl k (fun c => match c.sample with
    | some p =>
      if p.at_ = s.eclk ∧ p.eng = 4 * k + i / 8 ∧ p.thr = i % 8 ∧ p.doneAt.isNone ∧ p.req.isNone then
        if serial < c.serial then { c with sample := some { p with req := some serial, pair := some serial } }
        else { c with sample := some { p with doneAt := some (s.eclk + lat) } }
      else c
    | none => c)

/-- Latency of an instruction whose result comes from the engine itself (R264). -/
def latency : TOp → Nat
  | .alu fn => if 2 ≤ fn ∧ fn ≤ 4 then 8 else if 5 ≤ fn ∧ fn ≤ 8 then 36 else 4
  | .load .. => 6
  | .atom => 8
  | _ => 4

/-- The effective address of an instruction, 0 without one (R290). -/
def eaOf (op : TOp) (x : Thr) (w : Nat) : Word64 :=
  match op with
  | .load _ _ | .store _ => x.ea w
  | .ldln | .stln | .atom | .seqw => x.reg (opA w)
  | _ => 0

/-- The access is split (R276). -/
def splitOf (op : TOp) (x : Thr) (w : Nat) : Bool :=
  match op with
  | .load n _ | .store n => (x.ea w).toNat % n != 0
  | _ => false

/-- An uncorrectable instruction word: ENGINE_TRAP at L2, and the cluster is fenced (R285). -/
def State.istoreBad (s : State) (k i pc : Nat) (inj : Bool) : State :=
  ((s.clCapture k pc true).raiseNi (clFid k) 16 2 (32 * k + i) inj).fenceCluster k

/-- An instruction command: nothing happens unless the thread's engine issues that thread now and the word at its PC is
this instruction; a word that is none traps with ILLEGAL. -/
def State.instr (s : State) (t : Fin 1536) (op : TOp) (store : WordErr)
    (body : Nat → Nat → Thr → Nat → State → State) : Host.Outcome State Fault Refusal :=
  let k := t.val / 32
  let i := t.val % 32
  let x := s.thr k i
  let w := s.ecode k x.tep x.pc
  if ¬s.clLive k ∨ s.issuer k (i / 8) ≠ some i ∨ (tDecode w ≠ none ∧ tDecode w ≠ some op) then .next s
  else
    match s.checkWord (fidUnit (clFid k)) 9 store with
    | (.uncorrectable, inj, s) => .next (s.istoreBad k i x.pc inj)
    | (_, _, s) =>
      let s := s.issued k i
      if tDecode w = none then .next ((s.sampleIssue k i x w 0 false).precise k i 1 (BitVec.ofNat 64 x.pc))
      else
        let s := s.sampleIssue k i x w (eaOf op x w) (splitOf op x w)
        let serial := (s.cl k).serial
        .next ((body k i x w s).sampleWait k i serial (latency op))

/-- The thread goes on to its next instruction (R265). -/
def Thr.step (x : Thr) : Thr := { x with pc := (x.pc + 1) % 16384, parked := false }

/-- The instruction writes D and the thread goes on; the result is usable after its latency (R264). -/
def State.result (s : State) (k i d lat : Nat) (v : Word64) : State :=
  s.updThr k i (fun x => x.step.put d v (s.eclk + lat))

/-- A jump: the next instruction issues four ECLK later (R264). -/
def State.jump (s : State) (k i : Nat) (pc : Int) : State :=
  s.updThr k i (fun x => { x with pc := (pc % 16384).toNat, from_ := s.eclk + 4, parked := false })

end Sys2Proof.Machine
end

