-- ==== Sys2Proof/Machine/TamikAlu.lean ====
section
/-! DEFINITION. The integer, control and time instructions of the engines (R264, R265, R270, R274, R282, R283, R288). -/

namespace Sys2Proof.Machine

/-! ### Integer (R270) -/

/-- An ALU instruction that always has a result: D ← A op B. -/
def State.alu (s : State) (t : Fin 1536) (fn : Nat) (store : WordErr) (f : Word64 → Word64 → Word64) :
    Host.Outcome State Fault Refusal :=
  s.instr t (.alu fn) store (fun k i x w s => s.result k i (opD w) (latency (.alu fn)) (f (x.reg (opA w)) (x.reg (opB w))))

/-- A division: by zero it gives `z` of the dividend and sets DZ (R264). -/
def State.divide (s : State) (t : Fin 1536) (fn : Nat) (store : WordErr) (f : Word64 → Word64 → Word64)
    (z : Word64 → Word64) : Host.Outcome State Fault Refusal :=
  s.instr t (.alu fn) store (fun k i x w s =>
    let a := x.reg (opA w)
    let b := x.reg (opB w)
    if b = 0 then (s.updThr k i (fun y => { y with dz := true })).result k i (opD w) 36 (z a)
    else s.result k i (opD w) 36 (f a b))

/-- An instruction D ← A op IMM. -/
def State.aluImm (s : State) (t : Fin 1536) (op : TOp) (store : WordErr) (f : Word64 → Nat → Word64) :
    Host.Outcome State Fault Refusal :=
  s.instr t op store (fun k i x w s => s.result k i (opD w) 4 (f (x.reg (opA w)) (opImm w)))

/-- The sign-extended immediate. -/
def sext16 (v : Nat) : Word64 := BitVec.ofInt 64 (signedFld 16 v)

/-- ADD (R270). -/
def execAdd (t : Fin 1536) (store : WordErr) (s : State) : Host.Outcome State Fault Refusal :=
  s.alu t 0 store (fun a b => a + b)

/-- SUB (R270). -/
def execSub (t : Fin 1536) (store : WordErr) (s : State) : Host.Outcome State Fault Refusal :=
  s.alu t 1 store (fun a b => a - b)

/-- MULLO (R270). -/
def execMullo (t : Fin 1536) (store : WordErr) (s : State) : Host.Outcome State Fault Refusal :=
  s.alu t 2 store (fun a b => a * b)

/-- MULHI (R270). -/
def execMulhi (t : Fin 1536) (store : WordErr) (s : State) : Host.Outcome State Fault Refusal :=
  s.alu t 3 store (fun a b => BitVec.ofInt 64 (a.toInt * b.toInt / 2 ^ 64))

/-- MULHIU (R270). -/
def execMulhiu (t : Fin 1536) (store : WordErr) (s : State) : Host.Outcome State Fault Refusal :=
  s.alu t 4 store (fun a b => BitVec.ofNat 64 (a.toNat * b.toNat / 2 ^ 64))

/-- AND (R270). -/
def execAnd (t : Fin 1536) (store : WordErr) (s : State) : Host.Outcome State Fault Refusal :=
  s.alu t 9 store (fun a b => a &&& b)

/-- IOR (R270). -/
def execIor (t : Fin 1536) (store : WordErr) (s : State) : Host.Outcome State Fault Refusal :=
  s.alu t 0xA store (fun a b => a ||| b)

/-- XOR (R270). -/
def execXor (t : Fin 1536) (store : WordErr) (s : State) : Host.Outcome State Fault Refusal :=
  s.alu t 0xB store (fun a b => a ^^^ b)

/-- SHL (R270). -/
def execShl (t : Fin 1536) (store : WordErr) (s : State) : Host.Outcome State Fault Refusal :=
  s.alu t 0xC store (fun a b => a <<< (b.toNat % 64))

/-- SHR (R270). -/
def execShr (t : Fin 1536) (store : WordErr) (s : State) : Host.Outcome State Fault Refusal :=
  s.alu t 0xD store (fun a b => a >>> (b.toNat % 64))

/-- SHRA (R270). -/
def execShra (t : Fin 1536) (store : WordErr) (s : State) : Host.Outcome State Fault Refusal :=
  s.alu t 0xE store (fun a b => a.sshiftRight (b.toNat % 64))

/-- CMPLT (R270). -/
def execCmplt (t : Fin 1536) (store : WordErr) (s : State) : Host.Outcome State Fault Refusal :=
  s.alu t 0xF store (fun a b => if a.slt b then 1 else 0)

/-- CMPLTU (R270). -/
def execCmpltu (t : Fin 1536) (store : WordErr) (s : State) : Host.Outcome State Fault Refusal :=
  s.alu t 0x10 store (fun a b => if a.ult b then 1 else 0)

/-- QUO: truncated toward zero; by zero it gives 0 and sets DZ (R264, R270). -/
def execQuo (t : Fin 1536) (store : WordErr) (s : State) : Host.Outcome State Fault Refusal :=
  s.divide t 5 store (fun a b => BitVec.ofInt 64 (a.toInt.tdiv b.toInt)) (fun _ => 0)

/-- QUOU: truncated toward zero; by zero it gives 0 and sets DZ (R264, R270). -/
def execQuou (t : Fin 1536) (store : WordErr) (s : State) : Host.Outcome State Fault Refusal :=
  s.divide t 6 store (fun a b => BitVec.ofNat 64 (a.toNat / b.toNat)) (fun _ => 0)

/-- MOD: truncated toward zero; by zero it gives the dividend and sets DZ (R264, R270). -/
def execMod (t : Fin 1536) (store : WordErr) (s : State) : Host.Outcome State Fault Refusal :=
  s.divide t 7 store (fun a b => BitVec.ofInt 64 (a.toInt.tmod b.toInt)) (fun a => a)

/-- MODU: truncated toward zero; by zero it gives the dividend and sets DZ (R264, R270). -/
def execModu (t : Fin 1536) (store : WordErr) (s : State) : Host.Outcome State Fault Refusal :=
  s.divide t 8 store (fun a b => BitVec.ofNat 64 (a.toNat % b.toNat)) (fun a => a)

/-- ADDK (R270). -/
def execAddk (t : Fin 1536) (store : WordErr) (s : State) : Host.Outcome State Fault Refusal :=
  s.aluImm t .addk store (fun a v => a + sext16 v)

/-- ANDK (R270). -/
def execAndk (t : Fin 1536) (store : WordErr) (s : State) : Host.Outcome State Fault Refusal :=
  s.aluImm t .andk store (fun a v => a &&& BitVec.ofNat 64 v)

/-- IORK (R270). -/
def execIork (t : Fin 1536) (store : WordErr) (s : State) : Host.Outcome State Fault Refusal :=
  s.aluImm t .iork store (fun a v => a ||| BitVec.ofNat 64 v)

/-- XORK (R270). -/
def execXork (t : Fin 1536) (store : WordErr) (s : State) : Host.Outcome State Fault Refusal :=
  s.aluImm t .xork store (fun a v => a ^^^ BitVec.ofNat 64 v)

/-- CMPLTK (R270). -/
def execCmpltk (t : Fin 1536) (store : WordErr) (s : State) : Host.Outcome State Fault Refusal :=
  s.aluImm t .cmpltk store (fun a v => if a.slt (sext16 v) then 1 else 0)

/-- SETHI (R270). -/
def execSethi (t : Fin 1536) (store : WordErr) (s : State) : Host.Outcome State Fault Refusal :=
  s.aluImm t .sethi store (fun _ v => sext16 v <<< 16)

/-- SHK, IMM[7:6] = 0 (R270). -/
def execShkShl (t : Fin 1536) (store : WordErr) (s : State) : Host.Outcome State Fault Refusal :=
  s.aluImm t (.shk 0) store (fun a v => a <<< (v % 64))

/-- SHK, IMM[7:6] = 1 (R270). -/
def execShkShr (t : Fin 1536) (store : WordErr) (s : State) : Host.Outcome State Fault Refusal :=
  s.aluImm t (.shk 1) store (fun a v => a >>> (v % 64))

/-- SHK, IMM[7:6] = 2 (R270). -/
def execShkShra (t : Fin 1536) (store : WordErr) (s : State) : Host.Outcome State Fault Refusal :=
  s.aluImm t (.shk 2) store (fun a v => a.sshiftRight (v % 64))

/-! ### Control (R265, R270) -/

/-- A conditional branch: PC ← PC + OFF. -/
def State.branch (s : State) (t : Fin 1536) (cond : Nat) (store : WordErr) (f : Word64 → Word64 → Bool) :
    Host.Outcome State Fault Refusal :=
  s.instr t (.branch cond) store (fun k i x w s =>
    if f (x.reg (opD w)) (x.reg (opA w)) then s.jump k i (x.pc + opSimm w) else s.updThr k i Thr.step)

/-- BREQ (R270). -/
def execBreq (t : Fin 1536) (store : WordErr) (s : State) : Host.Outcome State Fault Refusal :=
  s.branch t 0 store (fun a b => a == b)

/-- BRNE (R270). -/
def execBrne (t : Fin 1536) (store : WordErr) (s : State) : Host.Outcome State Fault Refusal :=
  s.branch t 1 store (fun a b => a != b)

/-- BRLT (R270). -/
def execBrlt (t : Fin 1536) (store : WordErr) (s : State) : Host.Outcome State Fault Refusal :=
  s.branch t 2 store (fun a b => a.slt b)

/-- BRGE (R270). -/
def execBrge (t : Fin 1536) (store : WordErr) (s : State) : Host.Outcome State Fault Refusal :=
  s.branch t 3 store (fun a b => b.sle a)

/-- BRLO (R270). -/
def execBrlo (t : Fin 1536) (store : WordErr) (s : State) : Host.Outcome State Fault Refusal :=
  s.branch t 4 store (fun a b => a.ult b)

/-- BRHS (R270). -/
def execBrhs (t : Fin 1536) (store : WordErr) (s : State) : Host.Outcome State Fault Refusal :=
  s.branch t 5 store (fun a b => b.ule a)

/-- CALL: g31 ← next PC; PC ← PC + OFF. -/
def execCall (t : Fin 1536) (store : WordErr) (s : State) : Host.Outcome State Fault Refusal :=
  s.instr t .call store (fun k i x w s =>
    (s.updThr k i (fun y => y.put 31 (BitVec.ofNat 64 ((x.pc + 1) % 16384)) (s.eclk + 4))).jump k i (x.pc + opOff26 w))

/-- CALLR: D ← next PC; PC ← (A + IMM) mod 16,384. -/
def execCallr (t : Fin 1536) (store : WordErr) (s : State) : Host.Outcome State Fault Refusal :=
  s.instr t .callr store (fun k i x w s =>
    (s.updThr k i (fun y => y.put (opD w) (BitVec.ofNat 64 ((x.pc + 1) % 16384)) (s.eclk + 4))).jump k i
      ((x.reg (opA w)).toNat + opSimm w))

/-- SYNC: a candidate only once the store buffer is empty and every request has its answer (R274). -/
def execSync (t : Fin 1536) (store : WordErr) (s : State) : Host.Outcome State Fault Refusal :=
  s.instr t .sync store (fun k i _ _ s => s.updThr k i Thr.step)

/-- RETT: PC = EPC, IE = PIE, INTRAP = 0 (R283). -/
def execRett (t : Fin 1536) (store : WordErr) (s : State) : Host.Outcome State Fault Refusal :=
  s.instr t .rett store (fun k i x _ s =>
    (s.updThr k i (fun y => { y with ie := y.pie, intrap := false })).jump k i x.epc)

/-- A thread control register as RDTCR reads it (R265). -/
def Thr.tcr (x : Thr) (t : Fin 1536) (n : Nat) : Word64 :=
  match n with
  | 0 => BitVec.ofNat 64 (t.val / 8 + t.val % 8 * 2 ^ 8)
  | 1 => BitVec.ofNat 64 x.slice.toNat
  | 2 => BitVec.ofNat 64 (x.ie.toNat + 2 * x.pie.toNat + 4 * x.intrap.toNat + 8 * x.tep.toNat + 16 * x.dovf.toNat + 32 * x.dz.toNat)
  | 3 => BitVec.ofNat 64 x.ien
  | 4 => BitVec.ofNat 64 x.ipend
  | 5 => BitVec.ofNat 64 x.epc
  | 6 => BitVec.ofNat 64 x.cause
  | 7 => x.taddr
  | 8 => BitVec.ofNat 64 (x.tvec + x.tvld.toNat * 2 ^ 14)
  | 9 => x.scratch
  | _ => 0

/-- A thread control register as WRTCR writes it (R265). -/
def Thr.setTcr (x : Thr) (n : Nat) (v : Word64) : Thr :=
  let b (i : Nat) : Bool := v.getLsbD i
  match n with
  | 2 => { x with ie := b 0, pie := b 1, intrap := b 2, dovf := x.dovf && !b 4, dz := x.dz && !b 5 }
  | 3 => { x with ien := v.toNat % 8 }
  | 4 => { x with ipend := x.ipend - (x.ipend &&& v.toNat % 8) }
  | 5 => { x with epc := v.toNat % 16384 }
  | 8 => { x with tvec := v.toNat % 16384, tvld := b 14 }
  | 9 => { x with scratch := v }
  | _ => x

/-- RDTCR: D ← TCR B. -/
def execRdtcr (t : Fin 1536) (store : WordErr) (s : State) : Host.Outcome State Fault Refusal :=
  s.instr t .rdtcr store (fun k i x w s => s.result k i (opD w) 4 (x.tcr t (opB w)))

/-- WRTCR: TCR B ← A. -/
def execWrtcr (t : Fin 1536) (store : WordErr) (s : State) : Host.Outcome State Fault Refusal :=
  s.instr t .wrtcr store (fun k i x w s => s.updThr k i (fun y => (y.setTcr (opB w) (x.reg (opA w))).step))

/-- SIGNAL: SOFT becomes pending at thread A[4:0] of the cluster (R270, R282). -/
def execSignal (t : Fin 1536) (store : WordErr) (s : State) : Host.Outcome State Fault Refusal :=
  s.instr t .signal store (fun k i x w s =>
    (s.updThr k i Thr.step).updThr k ((x.reg (opA w)).toNat % 32) (fun y => { y with ipend := y.ipend ||| 2 }))

/-- HALT: the thread stops; one that has not adopted the current bank does so (R270, R288). -/
def execHalt (t : Fin 1536) (store : WordErr) (s : State) : Host.Outcome State Fault Refusal :=
  s.instr t .halt store (fun k i _ _ s => (s.updThr k i (fun y => { y.step with st := .halt })).adoptIdle k i)

/-- BREAK: the precise trap BREAK (R282). -/
def execBreakTrap (t : Fin 1536) (store : WordErr) (s : State) : Host.Outcome State Fault Refusal :=
  s.instr t .brk store (fun k i x _ s => s.precise k i 5 (BitVec.ofNat 64 x.pc))

/-! ### Time (R270) -/

/-- Fabric time in the form of RDTIM: seconds [31:0] and nanoseconds. -/
def State.rdtim (s : State) : Word64 := BitVec.ofNat 64 (secOf s.ns % 2 ^ 32 * 2 ^ 32 + nsOf s.ns)

/-- RDTIM: D ← fabric time. -/
def execRdtim (t : Fin 1536) (store : WordErr) (s : State) : Host.Outcome State Fault Refusal :=
  s.instr t .rdtim store (fun k i _ w s => s.result k i (opD w) 4 s.rdtim)

/-- The engines' WAITT: WAIT until fabric time is at least A; a thread that has not adopted the current bank adopts it
(R270, R288). -/
def execThreadWaitt (t : Fin 1536) (store : WordErr) (s : State) : Host.Outcome State Fault Refusal :=
  s.instr t .waitt store (fun k i x w s =>
    if x.tep ≠ s.epo.cur then s.adopt k i
    else if x.reg (opA w) ≤ s.rdtim then s.updThr k i Thr.step
    else s.updThr k i (fun y => { y with st := .wait, until_ := some (x.reg (opA w)) }))

/-- THREAD_WAITT_EXPIRE: fabric time reaches the target of a waiting thread. -/
def execThreadWaittExpire (t : Fin 1536) (s : State) : Host.Outcome State Fault Refusal :=
  let k := t.val / 32
  let i := t.val % 32
  let x := s.thr k i
  match x.until_ with
  | some u => if s.clLive k ∧ x.st = .wait ∧ u ≤ s.rdtim
      then .next (s.updThr k i (fun y => { y.step with st := .ready, until_ := none })) else .next s
  | none => .next s

/-- SETTMR: TIMER becomes pending when fabric time reaches A; A = 0 disarms. -/
def execSettmr (t : Fin 1536) (store : WordErr) (s : State) : Host.Outcome State Fault Refusal :=
  s.instr t .settmr store (fun k i x w s =>
    s.updThr k i (fun y => { y.step with timer := if x.reg (opA w) = 0 then none else some (x.reg (opA w)) }))

/-- TIMER_FIRE: fabric time reaches a thread's target (R282). -/
def execTimerFire (t : Fin 1536) (s : State) : Host.Outcome State Fault Refusal :=
  let k := t.val / 32
  let i := t.val % 32
  match (s.thr k i).timer with
  | some u => if s.clLive k ∧ u ≤ s.rdtim
      then .next (s.updThr k i (fun y => { y with timer := none, ipend := y.ipend ||| 1 })) else .next s
  | none => .next s

end Sys2Proof.Machine
end

