-- ==== Sys2Proof/Machine/TamikMem.lean ====
section
/-! DEFINITION. Loads, stores, the store buffer, line copies and atomics of the engines (R266 to R268, R270 to R277, R280,
R281). -/

namespace Sys2Proof.Machine

/-! ### The store buffer (R272, R273) -/

/-- What R273 says of a load of `n` bytes. -/
inductive Meet where
  | clear
  | forward (bytes : List Byte)
  | park (ents : List Nat)
  deriving DecidableEq, Repr

/-- A load compared with the thread's buffered stores. -/
def Thr.meet (x : Thr) (ea n : Nat) : Meet :=
  let es := x.sb.filter (fun e => e.meets ea n)
  match es.getLast? with
  | none => .clear
  | some e => if e.covers ea n then .forward ((e.data.drop (fld ea 0 52 - e.ea)).take n) else .park (es.map (·.id))

/-- The thread parks until the entries have drained; its load then issues as new (R273). -/
def State.park (s : State) (k i : Nat) (ents : List Nat) : State :=
  (s.updThr k i (fun x => { x with st := .park, parkOn := ents, parked := true })).count (clFid k) 72

/-- The entries that the parts of an access have to wait for. -/
def parkIds (ms : List Meet) : List Nat := (ms.map (fun m => match m with | .park es => es | _ => [])).flatten

/-! ### Loads (R273, R276, R277) -/

/-- Opcode of a fabric load: ReadPass where the window and the PA are coherent, else RdNC (R267). -/
def loadOpc (coh : Bool) : Nat := if coh then 7 else 0x12
/-- Opcode of a fabric store. -/
def storeOpc (coh : Bool) : Nat := if coh then 8 else 0x13

/-- The checks of the parts of a load that reach memory, before any is performed (R207, R228, R277): the destinations of
the fabric pieces, or a denial, which is recorded. -/
def State.checkParts (s : State) (k sl : Nat) (wr : Bool) (ps : List (Nat × Nat × Place)) :
    Option (List (Nat × Nat × Nat)) × State :=
  ps.foldl (fun acc p => match acc with
    | (none, s) => (none, s)
    | (some ds, s) => match p.2.2 with
      | .loc _ => (some ds, s)
      | .side o =>
        if s.regionOk o (clFid k) sl (!wr) wr then (some ds, s) else (none, s.regionDeny o (clFid k) wr true)
      | .fab _ coh =>
        (piecesOf p).foldl (fun acc ps => match acc with
          | (none, s) => (none, s)
          | (some ds, s) => match s.engCheck k sl ps.1 (if wr then storeOpc coh else loadOpc coh) with
            | (none, s) => (none, s)
            | (some d, s) => (some (ds ++ [(ps.1, ps.2, d)]), s)) (some ds, s)) (some [], s)

/-- A local-side access joins the node's list. -/
def State.locPush (s : State) (a : LocAcc) : State :=
  { s with loc := SMap.set [] s.loc (a.cluster / 3) (SMap.get [] s.loc (a.cluster / 3) ++ [a]) }

/-- The parts of a load that reach a bank or the fabric are sent. -/
def State.sendParts (s : State) (k i sl id ea0 : Nat) (ps : List (Nat × Nat × Place)) (ds : List (Nat × Nat × Nat)) : State :=
  ps.foldl (fun s p => match p.2.2 with
    | .loc _ => s
    | .side o => s.locPush { cluster := k, thr := i, why := .part id, o := o, n := p.2.1, off := p.1 - ea0, slice := sl }
    | .fab pa coh => (piecesOf p).foldl (fun s q =>
        let d := ((ds.find? (fun x => x.1 == q.1)).map (·.2.2)).getD 0x3FE
        s.engSend k sl id (p.1 - ea0 + (q.1 - pa))
          { net := .req, dst := BitVec.ofNat 10 d, opc := BitVec.ofNat 6 (loadOpc coh), addr := BitVec.ofNat 52 q.1,
            size := BitVec.ofNat 3 q.2 }) s) s

/-- Parts that a bank or the fabric answers. -/
def remoteCount (ps : List (Nat × Nat × Place)) : Nat :=
  (ps.map (fun p => match p.2.2 with | .loc _ => 0 | .side _ => 1 | .fab .. => (piecesOf p).length)).sum

/-- A load whose parts are all at hand: forwarded, or read from local SRAM (R268). -/
def State.loadNow (s : State) (k i d n : Nat) (signed : Bool) (ea : Word64) (bytes : List Byte) (bad fwd : Bool) : State :=
  let s := if fwd then s.updCl k (fun c => { c with sample := c.sample.map (fun p =>
    if p.at_ = s.eclk ∧ p.thr = i % 8 ∧ p.eng = 4 * k + i / 8 then { p with fwd := true } else p) }) else s
  if bad then (s.result k i d 6 0).deferTrap k i 0x10 6 ea
  else s.result k i d 6 (extend n signed (leNat bytes))

/-- A load: ADDR, PARK, DENIED, an answer from the engine itself, or an outstanding request. -/
def State.doLoad (s : State) (k i : Nat) (x : Thr) (w n : Nat) (signed : Bool) (mem : WordErrs) : State :=
  let ea := x.ea w
  match s.halfPlaces k ea.toNat n with
  | none => s.precise k i 3 ea
  | some hs =>
    let s := if hs.length = 2 then s.count (clFid k) 74 else s
    let ms := hs.map (fun h => x.meet h.1 h.2.1)
    if ¬(parkIds ms).isEmpty then s.park k i (parkIds ms)
    else
      let hm := hs.zip ms
      let rest := (hm.filter (fun p => p.2 == .clear)).map (·.1)
      let fwd := hm.any (fun p => p.2 != .clear)
      match s.checkParts k x.slice.toNat false rest with
      | (none, s) => s.precise k i 4 ea
      | (some ds, s) =>
        let s := if fwd then s.count (clFid k) 73 else s
        let (bytes, bad, s) := hm.foldl (fun acc p => match p.2, p.1.2.2 with
          | .forward bs, _ => (acc.1 ++ bs, acc.2.1, acc.2.2)
          | .clear, .loc off =>
            let (b, s) := acc.2.2.lsCheck k off p.1.2.1 mem
            (acc.1 ++ s.lsRead k off p.1.2.1, acc.2.1 || b, s)
          | _, _ => (acc.1 ++ zeros p.1.2.1, acc.2.1, acc.2.2)) (([] : List Byte), false, s)
        if remoteCount rest = 0 then s.loadNow k i (opD w) n signed ea bytes bad fwd
        else
          let side : Bool := rest.any (fun p => match p.2.2 with | .side _ => true | _ => false)
          let (id, s) := s.newReq k { id := 0, thr := i, kind := .load n signed, d := opD w, ea := ea, left := remoteCount rest,
                                      bytes := bytes, poison := bad, soonest := if side then s.eclk + 12 else 0 }
          (s.updThr k i Thr.step).sendParts k i x.slice.toNat id ea.toNat rest ds

/-- LDB (R270, R273). -/
def execLdb (t : Fin 1536) (store : WordErr) (mem : WordErrs) (s : State) : Host.Outcome State Fault Refusal :=
  s.instr t (.load 1 false) store (fun k i x w s => s.doLoad k i x w 1 false mem)

/-- LDH (R270, R276). -/
def execLdh (t : Fin 1536) (store : WordErr) (mem : WordErrs) (s : State) : Host.Outcome State Fault Refusal :=
  s.instr t (.load 2 false) store (fun k i x w s => s.doLoad k i x w 2 false mem)

/-- LDW (R270, R276). -/
def execLdw (t : Fin 1536) (store : WordErr) (mem : WordErrs) (s : State) : Host.Outcome State Fault Refusal :=
  s.instr t (.load 4 false) store (fun k i x w s => s.doLoad k i x w 4 false mem)

/-- LDD (R270, R276). -/
def execLdd (t : Fin 1536) (store : WordErr) (mem : WordErrs) (s : State) : Host.Outcome State Fault Refusal :=
  s.instr t (.load 8 false) store (fun k i x w s => s.doLoad k i x w 8 false mem)

/-- LDBS (R270, R273). -/
def execLdbs (t : Fin 1536) (store : WordErr) (mem : WordErrs) (s : State) : Host.Outcome State Fault Refusal :=
  s.instr t (.load 1 true) store (fun k i x w s => s.doLoad k i x w 1 true mem)

/-- LDHS (R270, R276). -/
def execLdhs (t : Fin 1536) (store : WordErr) (mem : WordErrs) (s : State) : Host.Outcome State Fault Refusal :=
  s.instr t (.load 2 true) store (fun k i x w s => s.doLoad k i x w 2 true mem)

/-- LDWS (R270, R276). -/
def execLdws (t : Fin 1536) (store : WordErr) (mem : WordErrs) (s : State) : Host.Outcome State Fault Refusal :=
  s.instr t (.load 4 true) store (fun k i x w s => s.doLoad k i x w 4 true mem)

/-! ### Stores (R272, R276, R277) -/

/-- A store enters the buffer, one entry per half. -/
def State.doStore (s : State) (k i : Nat) (x : Thr) (w n : Nat) : State :=
  let ea := x.ea w
  match s.place k ea.toNat n with
  | none => s.precise k i 3 ea
  | some _ =>
    let bytes := leBytes n (x.reg (opD w)).toNat
    let pair := (s.cl k).serial
    let hs := halvesOf ea.toNat n
    let s := if hs.length = 2 then s.count (clFid k) 74 else s
    let es : List SbEnt := hs.zipIdx.map (fun hj =>
      { id := 2 * pair + hj.2, pair := pair, win := fld hj.1.1 52 12, ea := fld hj.1.1 0 52,
        data := (bytes.drop (hj.1.1 - ea.toNat)).take hj.1.2 })
    (s.updCl k (fun c => { c with serial := pair + 1 })).updThr k i (fun y => { y.step with sb := y.sb ++ es })

/-- STB (R270, R272). -/
def execStb (t : Fin 1536) (store : WordErr) (s : State) : Host.Outcome State Fault Refusal :=
  s.instr t (.store 1) store (fun k i x w s => s.doStore k i x w 1)

/-- STH (R270, R272). -/
def execSth (t : Fin 1536) (store : WordErr) (s : State) : Host.Outcome State Fault Refusal :=
  s.instr t (.store 2) store (fun k i x w s => s.doStore k i x w 2)

/-- STW (R270, R272). -/
def execStw (t : Fin 1536) (store : WordErr) (s : State) : Host.Outcome State Fault Refusal :=
  s.instr t (.store 4) store (fun k i x w s => s.doStore k i x w 4)

/-- STD (R270, R272). -/
def execStd (t : Fin 1536) (store : WordErr) (s : State) : Host.Outcome State Fault Refusal :=
  s.instr t (.store 8) store (fun k i x w s => s.doStore k i x w 8)

/-! ### Draining (R272, R277) -/

/-- The entries that drain together: the oldest one, and its other half. -/
def Thr.oldest (x : Thr) : List SbEnt :=
  match x.sb with
  | [] => []
  | e :: _ => x.sb.filter (fun y => y.pair == e.pair)

/-- The entries of a store with their places: both through the fabric when one goes there (R277). -/
def State.drainParts (s : State) (k : Nat) (es : List SbEnt) : List (SbEnt × Nat × Nat × Place) :=
  let ps := es.filterMap (fun e => (s.place k e.full e.data.length).map (fun p => (e, e.full, e.data.length, p)))
  let mixed : Bool := ps.any (fun p => match p.2.2.2 with | .fab .. => true | _ => false)
  if mixed then ps.map (fun p => (p.1, p.2.1, p.2.2.1, s.asFabric k p.2.2.2)) else ps

/-- Fabric pieces of a store. -/
def storePieces (ps : List (SbEnt × Nat × Nat × Place)) : Nat := (ps.map (fun p => (piecesOf p.2).length)).sum

/-- A thread's oldest store can drain: it has not been passed on already, and a fabric store has entries (R281). -/
def State.canDrain (s : State) (k i : Nat) : Bool :=
  let es := (s.thr k i).oldest
  let n := storePieces (s.drainParts k es)
  !es.isEmpty && !es.any (·.sent)
    && (n == 0 || (decide (s.held64 k + n ≤ 64) && decide (n ≤ (s.freeSrc (clFid k)).length)))

/-- A denied store: no half is written, and STORE_ERR is deferred with DENIED (R277). -/
def State.storeDenied (s : State) (k i : Nat) (es : List SbEnt) : State :=
  let s := es.foldl (fun s e => s.storeFreed k i e.id) s
  s.deferTrap k i 0x11 1 (BitVec.ofNat 64 ((es.head?.map SbEnt.full).getD 0))

/-- One piece of a fabric store: its line with the bytes in place. -/
def pieceLine (pa : Nat) (bytes : List Byte) : List Byte × Word64 × Bool :=
  (patch (zeros 64) (pa % 64) bytes, spanBe (pa % 64) bytes.length, false)

/-- The oldest store of a thread drains. -/
def State.drainStore (s : State) (k i : Nat) : State :=
  let x := s.thr k i
  let es := x.oldest
  let ps := s.drainParts k es
  let sl := x.slice.toNat
  match s.checkParts k sl true (ps.map (·.2)) with
  | (none, s) => s.storeDenied k i es
  | (some ds, s) =>
    let n := storePieces ps
    let (id, s) := if n = 0 then (0, s)
      else s.newReq k { id := 0, thr := i, kind := .store, left := n, ea := BitVec.ofNat 64 ((es.head?.map SbEnt.full).getD 0) }
    ps.foldl (fun s p => match p.2.2.2 with
      | .loc off => (s.lsWrite k off p.1.data).storeFreed k i p.1.id
      | .side o =>
        (s.updThr k i (fun y => { y with sb := y.sb.map (fun e => if e.id = p.1.id then { e with sent := true } else e) })).locPush
          { cluster := k, thr := i, why := .store p.1.id, o := o, n := p.1.data.length, wr := true, data := p.1.data, slice := sl }
      | .fab pa coh =>
        let s := (piecesOf p.2).foldl (fun s q =>
          let d := ((ds.find? (fun x => x.1 == q.1)).map (·.2.2)).getD 0x3FE
          let bytes := (p.1.data.drop (q.1 - pa)).take (2 ^ q.2)
          s.engSend k sl id (q.1 - pa)
            { net := .req, dst := BitVec.ofNat 10 d, opc := BitVec.ofNat 6 (storeOpc coh), addr := BitVec.ofNat 52 q.1,
              size := BitVec.ofNat 3 q.2 } (some (pieceLine q.1 bytes))) s
        s.storeFreed k i p.1.id) s

/-- STORE_DRAIN: the next of an engine's threads, in turn, whose oldest store can drain; at most once per ECLK. -/
def execStoreDrain (e : Fin 192) (s : State) : Host.Outcome State Fault Refusal :=
  let k := e.val / 4
  let j := e.val % 4
  let c := s.cl k
  if ¬s.clLive k ∨ SMap.get 0 c.drained j = s.eclk + 1 then .next s
  else
    let last := SMap.get 7 c.turn j
    match ((List.range 8).map (fun n => 8 * j + (last + 1 + n) % 8)).find? (s.canDrain k) with
    | none => .next s
    | some i =>
      .next ((s.setCl k { c with turn := SMap.set 7 c.turn j (i % 8), drained := SMap.set 0 c.drained j (s.eclk + 1) }).drainStore k i)

/-! ### Local buffers (R273, R280) -/

/-- Offset of a local buffer of `n` bytes; none: it does not lie in the local window. -/
def State.bufOff (s : State) (k ea n : Nat) : Option Nat :=
  match s.place k ea n with | some (.loc off) => some off | _ => none

/-- The bytes of a local buffer that a message or line copy sends: forwarded, or read; `none`: the thread parks. -/
def State.bufRead (s : State) (k i ea off n : Nat) (mem : WordErrs) : Option (List Byte × Bool) × State :=
  match (s.thr k i).meet ea n with
  | .park es => (none, s.park k i es)
  | .forward bs => (some (bs, false), s)
  | .clear =>
    let (bad, s) := s.lsCheck k off n mem
    (some (s.lsRead k off n, bad), s)

/-! ### Line copies (R270, R271, R280) -/

/-- The fabric side of a line copy: its place; none: ADDR. -/
def State.lineAt (s : State) (k ea : Nat) : Option Place :=
  match s.place k ea 64 with | some (.loc _) => none | p => p

/-- LDLN: the line at fabric EA A is copied to local EA B. -/
def execLdln (t : Fin 1536) (store : WordErr) (s : State) : Host.Outcome State Fault Refusal :=
  s.instr t .ldln store (fun k i x w s =>
    let a := x.reg (opA w)
    let b := x.reg (opB w)
    let sl := x.slice.toNat
    match s.lineAt k a.toNat, s.bufOff k b.toNat 64 with
    | none, _ => s.precise k i 3 a
    | _, none => s.precise k i 3 b
    | some p, some off =>
      if a.toNat % 64 ≠ 0 then s.precise k i 2 a
      else if b.toNat % 64 ≠ 0 then s.precise k i 2 b
      else
        match x.meet b.toNat 64 with
        | .park es => s.park k i es
        | _ =>
          match s.checkParts k sl false [(a.toNat, 64, p)] with
          | (none, s) => s.precise k i 4 a
          | (some ds, s) =>
            let (id, s) := s.newReq k { id := 0, thr := i, kind := .lineLoad off, d := opD w, ea := a, bytes := zeros 64 }
            (s.updThr k i Thr.step).sendParts k i sl id a.toNat [(a.toNat, 64, p)] ds)

/-- STLN: the line at local EA B is copied to fabric EA A. -/
def execStln (t : Fin 1536) (store : WordErr) (mem : WordErrs) (s : State) : Host.Outcome State Fault Refusal :=
  s.instr t .stln store (fun k i x w s =>
    let a := x.reg (opA w)
    let b := x.reg (opB w)
    let sl := x.slice.toNat
    match s.lineAt k a.toNat, s.bufOff k b.toNat 64 with
    | none, _ => s.precise k i 3 a
    | _, none => s.precise k i 3 b
    | some p, some off =>
      if a.toNat % 64 ≠ 0 then s.precise k i 2 a
      else if b.toNat % 64 ≠ 0 then s.precise k i 2 b
      else
        match s.bufRead k i b.toNat off 64 mem with
        | (none, s) => s
        | (some (bytes, bad), s) =>
          match s.checkParts k sl true [(a.toNat, 64, p)] with
          | (none, s) => (s.result k i (opD w) 4 (BitVec.ofNat 64 (1 * 2 ^ 8))).deferTrap k i 0x11 1 a
          | (some ds, s) =>
            let (id, s) := s.newReq k { id := 0, thr := i, kind := .lineStore, d := opD w, ea := a }
            let s := s.updThr k i Thr.step
            match p with
            | .side o =>
              let a : LocAcc := { cluster := k, thr := i, why := .part id, o := o, n := 64, wr := true, slice := sl }
              s.locPush { a with data := bytes, psn := bad }
            | .fab pa coh => s.engSend k sl id 0
                { net := .req, dst := BitVec.ofNat 10 ((ds.head?.map (·.2.2)).getD 0x3FE), opc := BitVec.ofNat 6 (storeOpc coh),
                  addr := BitVec.ofNat 52 pa, size := 6 } (some (bytes, BitVec.allOnes 64, bad))
            | .loc _ => s)

/-! ### Atomics (R186, R187, R270, R275) -/

/-- An atomic in local SRAM: read, compute, write in one (R270). -/
def State.atomLocal (s : State) (k i d off n aop : Nat) (a b ea : Word64) (mem : WordErrs) : State :=
  let (bad, s) := s.lsCheck k off n mem
  if bad then (s.result k i d 8 0).deferTrap k i 0x10 6 ea
  else
    let old := leNat (s.lsRead k off n)
    (s.lsWrite k off (leBytes n (aopResult aop n old a.toNat b.toNat))).result k i d 8 (BitVec.ofNat 64 old)

/-- ATOM: in local SRAM, or as `AtomFar`. -/
def execAtom (t : Fin 1536) (store : WordErr) (mem : WordErrs) (s : State) : Host.Outcome State Fault Refusal :=
  s.instr t .atom store (fun k i x w s =>
    let ea := x.reg (opA w)
    let aop := fld w 0 4
    let lg := fld w 4 2
    let n := 2 ^ lg
    let cas : Bool := aop == 5
    let a := if cas then x.reg (opD w) else x.reg (opB w)
    let b := x.reg (opB w)
    let sl := x.slice.toNat
    if ea.toNat % n ≠ 0 then s.precise k i 2 ea
    else
      match (s.place k ea.toNat n).map (s.asFabric k) with
      | none => s.precise k i 3 ea
      | some (.loc off) => s.atomLocal k i (opD w) off n aop a b ea mem
      | some (.side _) => s
      | some (.fab pa _) =>
        match s.engCheck k sl pa 0xA with
        | (none, s) => s.precise k i 4 ea
        | (some d, s) =>
          let (id, s) := s.newReq k { id := 0, thr := i, kind := .atom n, d := opD w, ea := ea, bytes := zeros 8 }
          (s.updThr k i Thr.step).engSend k sl id 0
            { net := .req, dst := BitVec.ofNat 10 d, opc := 0xA, addr := BitVec.ofNat 52 pa, size := BitVec.ofNat 3 lg,
              aop := BitVec.ofNat 4 aop, ops := if cas then [a, b] else [a], len := if cas then 2 else 1 })

end Sys2Proof.Machine
end

