-- ==== Sys2Proof/Machine/TamikMsg.lean ====
section
/-! DEFINITION. The message instructions of the engines, deliveries and receive rings, and the answers that reach a cluster
(R130, R278 to R281, R285). -/

namespace Sys2Proof.Machine

/-! ### Message instructions (R270, R271, R280) -/

/-- A message instruction's request: D waits for the result word. -/
def State.sendMsg (s : State) (k i d : Nat) (kind : ReqKind) (q : Pkt) (data : Option (List Byte × Word64 × Bool) := none) :
    State :=
  let (id, s) := s.newReq k { id := 0, thr := i, kind := kind, d := d }
  (s.updThr k i Thr.step).engSend k (s.thr k i).slice.toNat id 0 q data

/-- A queue request for the manager that owns the queue (R236). -/
def queueReq (opc : BitVec 6) (queue : Nat) : Pkt :=
  { net := .req, dst := BitVec.ofNat 10 (0x170 + fld queue 14 2), opc := opc, addr := BitVec.ofNat 52 (fld queue 0 16) }

/-- ENQ: PLEN + 1 bytes of local buffer B to queue A[15:0]. -/
def execEnqInstr (t : Fin 1536) (store : WordErr) (mem : WordErrs) (s : State) : Host.Outcome State Fault Refusal :=
  s.instr t .enq store (fun k i x w s =>
    let a := (x.reg (opA w)).toNat
    let b := x.reg (opB w)
    let n := fld a 16 9 + 1
    match s.bufOff k b.toNat n with
    | none => s.precise k i 3 b
    | some off =>
      match s.bufRead k i b.toNat off n mem with
      | (none, s) => s
      | (some (bytes, bad), s) => s.sendMsg k i (opD w) .msg (queueReq 0x17 a) (some (bytes, BitVec.allOnes 64, bad)))

/-- DEQ: a message of queue A[15:0] into local buffer B. -/
def execDeqInstr (t : Fin 1536) (store : WordErr) (s : State) : Host.Outcome State Fault Refusal :=
  s.instr t .deq store (fun k i x w s =>
    let b := x.reg (opB w)
    match s.bufOff k b.toNat 512 with
    | none => s.precise k i 3 b
    | some off =>
      if b.toNat % 64 ≠ 0 then s.precise k i 2 b
      else match x.meet b.toNat 512 with
        | .park es => s.park k i es
        | _ => s.sendMsg k i (opD w) (.deq off) (queueReq 0x18 (x.reg (opA w)).toNat))

/-- DBELL: Doorbell to queue A[15:0]. -/
def execDbell (t : Fin 1536) (store : WordErr) (s : State) : Host.Outcome State Fault Refusal :=
  s.instr t .dbell store (fun k i x w s => s.sendMsg k i (opD w) .msg (queueReq 0x19 (x.reg (opA w)).toNat))

/-- INTR: Intr with vector B[11:0] to FID A[9:0]. -/
def execIntr (t : Fin 1536) (store : WordErr) (s : State) : Host.Outcome State Fault Refusal :=
  s.instr t .intr store (fun k i x w s => s.sendMsg k i (opD w) .msg
    { net := .req, dst := BitVec.ofNat 10 (fld (x.reg (opA w)).toNat 0 10), opc := 0x1A,
      addr := BitVec.ofNat 52 (fld (x.reg (opB w)).toNat 0 12) })

/-- SEQW: 2^FN[2:0] bytes of local buffer B to the PA at EA A, through Saffron. -/
def execSeqw (t : Fin 1536) (store : WordErr) (mem : WordErrs) (s : State) : Host.Outcome State Fault Refusal :=
  s.instr t .seqw store (fun k i x w s =>
    let a := x.reg (opA w)
    let b := x.reg (opB w)
    let lg := fld w 0 3
    let n := 2 ^ lg
    match (s.place k a.toNat n).map (s.asFabric k), s.bufOff k b.toNat n with
    | some (.fab pa _), some off =>
      if a.toNat % n ≠ 0 then s.precise k i 2 a
      else if b.toNat % n ≠ 0 then s.precise k i 2 b
      else match s.bufRead k i b.toNat off n mem with
        | (none, s) => s
        | (some (bytes, bad), s) =>
          match s.engCheck k x.slice.toNat pa 0x14 with
          | (none, s) => s.result k i (opD w) 4 (BitVec.ofNat 64 (1 * 2 ^ 8))
          | (some _, s) => s.sendMsg k i (opD w) .msg
              { net := .req, dst := 0x181, opc := 0x14, addr := BitVec.ofNat 52 pa, size := BitVec.ofNat 3 lg }
              (some (patch (zeros 64) (pa % 64) bytes, spanBe (pa % 64) n, bad))
    | some (.fab _ _), none => s.precise k i 3 b
    | _, _ => s.precise k i 3 a)

/-! ### Receive rings (R278, R279, R286) -/

/-- Key of the ring of binding `b` in a bank. -/
def ringKey (bank : Bool) (b : Nat) : Nat := 64 * bankOf bank + b

/-- The receive ring of a binding. -/
def State.ring (s : State) (k : Nat) (bank : Bool) (b : Nat) : RxRing := SMap.get {} (s.cl k).ring (ringKey bank b)

/-- The receive ring of a binding replaced. -/
def State.setRing (s : State) (k : Nat) (bank : Bool) (b : Nat) (r : RxRing) : State :=
  s.updCl k (fun c => { c with ring := SMap.set {} c.ring (ringKey bank b) r })

/-- QUEUE of a binding entry (R286). -/
def bindQueue (e : Nat) : Nat := fld e 0 16
/-- Thread of a binding entry within its cluster. -/
def bindThr (e : Nat) : Nat := 8 * fld e 16 2 + fld e 18 3
/-- VLD of a binding entry. -/
def bindVld (e : Nat) : Bool := bitOf e 21
/-- Local offset of a slot of the receive ring. -/
def bindSlot (e slot : Nat) : Nat := 512 * fld e 22 9 + 512 * slot
/-- Slots of the receive ring. -/
def bindSlots (e : Nat) : Nat := 2 ^ fld e 31 3

/-- A ring has something to hand out. -/
def RxRing.some (r : RxRing) : Bool := r.bell || decide (r.handed < r.msgs.length)

/-- The binding that RECV serves next (R279). -/
def State.recvBind (s : State) (k i : Nat) : Option Nat :=
  let x := s.thr k i
  ((List.range 64).map (fun n => (x.served + 1 + n) % 64)).find? (fun b =>
    let e := s.bindEntry k x.tep b
    bindVld e && bindThr e == i && (s.ring k x.tep b).some)

/-- The receive descriptor (R279). -/
def descriptor (e b off len : Nat) (bell : Bool) : Word64 :=
  BitVec.ofNat 64 (bindQueue e + (if bell then 0 else len - 1) * 2 ^ 16 + bell.toNat * 2 ^ 25 + b * 2 ^ 26
    + (if bell then 0 else off) * 2 ^ 32)

/-- RECV: the next doorbell or message; with nothing to receive the thread adopts the current bank, or waits (R279, R288). -/
def execRecv (t : Fin 1536) (store : WordErr) (s : State) : Host.Outcome State Fault Refusal :=
  s.instr t .recv store (fun k i x w s =>
    match s.recvBind k i with
    | some b =>
      let e := s.bindEntry k x.tep b
      let r := s.ring k x.tep b
      let s := s.updThr k i (fun y => { y with served := b })
      if r.bell then (s.setRing k x.tep b { r with bell := false }).result k i (opD w) 4 (descriptor e b 0 0 true)
      else
        let m := r.msgs.getD r.handed (0, 1)
        (s.setRing k x.tep b { r with handed := r.handed + 1 }).result k i (opD w) 4 (descriptor e b (bindSlot e m.1) m.2 false)
    | none =>
      if x.tep ≠ s.epo.cur then s.adopt k i
      else s.updThr k i (fun y => { y with st := .wait, until_ := none }))

/-- RXDONE: the oldest slot of binding A[5:0] that has been handed out frees (R279). -/
def execRxdone (t : Fin 1536) (store : WordErr) (s : State) : Host.Outcome State Fault Refusal :=
  s.instr t .rxdone store (fun k i x w s =>
    let b := (x.reg (opA w)).toNat % 64
    let r := s.ring k x.tep b
    let s := s.updThr k i Thr.step
    if r.handed = 0 then s else s.setRing k x.tep b { r with msgs := r.msgs.drop 1, handed := r.handed - 1 })

/-! ### Deliveries (R278) -/

/-- A thread in RECV returns to READY. -/
def State.wakeRecv (s : State) (k i : Nat) (bank : Bool) : State :=
  s.updThr k i (fun x => if x.st = .wait ∧ x.until_.isNone ∧ x.tep = bank then { x with st := .ready } else x)

/-- The data of a delivery. -/
def State.msgData (s : State) (f : Nat) (q : Pkt) : Option Pkt :=
  (s.nif f).inbox.find? (fun p => p.net == .dat && p.opc == 0x20 && p.src == q.src && p.txid == q.txid)

/-- ENG_DELIVERY: the oldest delivery whose data has come. -/
def execEngDelivery (k : Fin 48) (s : State) : Host.Outcome State Fault Refusal :=
  let f := clFid k
  match (s.nif f).inbox.find? (fun q => q.net == .req && (q.opc != 0x17 || (s.msgData f q).isSome)) with
  | none => .next s
  | some q =>
    if s.prim = .halt then .next s
    else
      let d := if q.opc = 0x17 then s.msgData f q else none
      let s := s.updNi f (fun n => { n with inbox := match d with
        | some p => (n.inbox.erase q).erase p
        | none => n.inbox.erase q })
      let qm : Bool := 0x170 ≤ q.src.toNat && q.src.toNat < 0x174
      let sunk (s : State) : State := if q.opc = 0x17 then s else s.sinkData f q
      if s.clusterFenced k then .next (sunk (s.answer f q 8))
      else if ¬qm ∨ (q.opc ≠ 0x17 ∧ q.opc ≠ 0x19) then
        .next (sunk ((s.raiseNi f 6 1 q.txid.toNat).answer f q 9))
      else
        let cur := s.epo.cur
        match (List.range 64).find? (fun b =>
            let e := s.bindEntry k cur b
            bindVld e && bindQueue e == q.addr.toNat % 2 ^ 16) with
        | none => .next ((s.bump .ENG_CL_NOBIND (eclBase k)).answer f q 9)
        | some b =>
          let e := s.bindEntry k cur b
          let r := s.ring k cur b
          if fld (s.thrEntry k cur (bindThr e)) 14 6 ≠ q.slice.toNat then
            .next ((s.bump .ENG_CL_NOBIND (eclBase k)).answer f q 1)
          else if q.opc = 0x19 then
            .next (((s.setRing k cur b { r with bell := true }).wakeRecv k (bindThr e) cur).answer f q 0)
          else if bindSlots e ≤ r.msgs.length then
            .next (((s.bump .ENG_CL_RXFULL (eclBase k)).count f 77).answer f q 0xA)
          else
            let p := d.getD { net := .dat }
            let slot := r.tail % bindSlots e
            let s := (s.lsWrite k (bindSlot e slot) p.data p.psn).count f 76
            let s := s.setRing k cur b { r with msgs := r.msgs ++ [(slot, p.data.length)], tail := (slot + 1) % bindSlots e }
            .next ((s.wakeRecv k (bindThr e) cur).answer f q 0)

/-! ### Answers (R116, R118, R129, R157, R264) -/

/-- The entry frees and its part of the request is done. -/
def State.engPart (s : State) (k i : Nat) (e : SrcEnt) (status : Nat) (bytes : List Byte := []) (poison : Bool := false) :
    State :=
  let s := if e.state = .issued ∨ e.state = .poolWait then s.streamLeave (clFid k) e.req else s
  (s.setSrc (clFid k) i none).partDone k e.trans e.off status bytes poison

/-- A `Deq` is done once its Comp, and its message when there is one, have come. -/
def State.engDeq (s : State) (k i : Nat) (e : SrcEnt) (g : EReq → EReq) : State :=
  let s := s.updCl k (fun c => { c with reqs := c.reqs.map (fun r => if r.id = e.trans then g r else r) })
  match (s.cl k).reqs.find? (fun r => r.id == e.trans) with
  | some r => match r.cnt with
    | some c => if c = 0 ∨ r.got then s.engPart k i e 0 else s
    | none => s
  | none => s.setSrc (clFid k) i none

/-- One answer for a live entry of the cluster's tracker. -/
def State.engAnswer (s : State) (k i : Nat) (e : SrcEnt) (p : Pkt) : State :=
  let f := clFid k
  let opc := e.req.opc.toNat
  if p.net = .rsp ∧ p.opc = 5 then
    if e.squash then s.setSrc f i none else s.nacked f i e p
  else match s.seqBook f i e p with
  | (true, s) => s
  | (false, s) =>
  if e.squash then
    let s := if opc = 7 ∧ p.net = .dat then s.ownCompAck f e else s
    if opc = 0x18 ∧ p.net = .dat then s else (s.streamLeave f e.req).setSrc f i none
  else if p.net = .dat then
    if opc = 0x18 then
      let s := (s.cl k).reqs.foldl (fun s r => if r.id = e.trans then (match r.kind with
        | .deq buf => s.lsWrite k buf p.data p.psn
        | _ => s) else s) s
      s.engDeq k i e (fun r => { r with got := true, poison := r.poison || p.psn })
    else
      let s := if opc = 7 then s.ownCompAck f e else s
      let (o, n) := pieceSpan e.req
      s.engPart k i e 0 ((p.data.drop o).take n) p.psn
  else if p.opc = 6 then s.engPart k i e 0 (leBytes 8 (p.ops.headD 0).toNat)
  else if opc = 0x18 ∧ p.status = 0 then s.engDeq k i e (fun r => { r with cnt := some p.cnt.toNat })
  else s.engPart k i e p.status.toNat

/-- The packet answers a request of the cluster; a message that no `Deq` of its own asked for is a delivery's. -/
def State.engAnswers (s : State) (f : Nat) (p : Pkt) : Bool :=
  p.net == .rsp || (p.net == .dat && (if p.opc = 0x20 then
      (s.srcEnt f (p.txid.toNat / 16)).any (fun e => e.req.txid == p.txid && e.req.opc == 0x18 && e.req.dst == p.src)
        && !(s.nif f).inbox.any (fun q => q.net == .req && q.src == p.src && q.txid == p.txid)
    else p.opc.toNat < 0x18))

/-- ENG_FABRIC_ANSWER: the oldest answer that has reached a cluster. -/
def execEngFabricAnswer (k : Fin 48) (s : State) : Host.Outcome State Fault Refusal :=
  let f := clFid k
  let n := s.nif f
  match n.inbox.find? (s.engAnswers f) with
  | none => .next s
  | some p =>
    if s.prim = .halt then .next s
    else
      let s := s.setNi f { n with inbox := n.inbox.erase p }
      if p.net = .rsp ∧ p.opc = 0x10 ∧ p.src = 0x181 ∧ p.cnt = 0x81 then
        .next (s.updNi f (fun n => { n with safCred := n.safCred + 1 }))
      else
        let i := p.txid.toNat / 16
        match s.srcEnt f i with
        | some e => if e.req.txid = p.txid ∧ e.state ≠ .dead then .next (s.engAnswer k i e p) else .next (s.lateAnswer f)
        | none => .next (s.lateAnswer f)

end Sys2Proof.Machine
end

