-- ==== Sys2Proof/Machine/EngEvents.lean ====
section
/-! DEFINITION. Events of the engine clusters: traps and interrupts, starting and halting threads, the local scrubber, and
sample records (R268, R282 to R290). -/

namespace Sys2Proof.Machine

/-- The thread stands at an instruction boundary at which a trap or interrupt can be taken (R282, R283). -/
def Thr.atBoundary (x : Thr) : Bool := x.st == .ready || x.st == .wait || x.st == .park

/-- TRAP_TAKE: a due deferred trap, with EPC = the PC of the next instruction, or the thread halts (R282 to R284). -/
def execTrapTake (t : Fin 1536) (s : State) : Host.Outcome State Fault Refusal :=
  let k := t.val / 32
  let i := t.val % 32
  let x := s.thr k i
  match x.due with
  | some u =>
    if s.clLive k ∧ x.atBoundary then
      .next (((s.updThr k i (fun y => { y with due := none })).takeTrap k i u.cause u.status x.pc u.taddr).adoptIdle k i)
    else .next s
  | none => .next s

/-- INTERRUPT_TAKE: the first pending enabled interrupt in the order TIMER, SOFT, EVENT; TADDR has no stated value then. -/
def execInterruptTake (t : Fin 1536) (s : State) : Host.Outcome State Fault Refusal :=
  let k := t.val / 32
  let i := t.val % 32
  let x := s.thr k i
  if ¬s.clLive k ∨ ¬x.atBoundary ∨ x.due.isSome ∨ x.irq = 0 then .next s
  else
    let n := if bitOf x.irq 0 then 0 else if bitOf x.irq 1 then 1 else 2
    .next ((s.draw.setThr k i (x.trap (0x20 + n) 0 x.pc (BitVec.ofNat 64 s.drawn))).countTrap k i)

/-- Threads of a slice stand still: it is being frozen or is frozen, or the fabric drains (R320, R412). -/
def State.stands (s : State) (sl : Nat) : Bool :=
  (s.slice sl).mode == .freezing || (s.slice sl).mode == .frozen || s.prim == .drain || s.prim == .quiesced

/-- ENG_T_CTRL.START (R284): from OFF or HALT, at ENTRY, with the registers kept. -/
def State.threadStart (s : State) (k i : Nat) : State :=
  let s := s.adoptIdle k i
  let x := s.thr k i
  let e := s.thrEntry k x.tep i
  if (x.st = .off ∨ x.st = .halt) ∧ bitOf e 20 ∧ ¬s.clusterFenced k then
    let y := { x with pc := fld e 0 14, ie := false, intrap := false, until_ := none, parkOn := [], parked := false }
    s.setThr k i (if s.stands y.slice.toNat then { y with st := .halt, held := some .ready }
      else { y with st := .ready, held := none })
  else s

/-- ENG_T_START. -/
def execEngTStart (t : Fin 1536) (s : State) : Host.Outcome State Fault Refusal := .next (s.threadStart (t.val / 32) (t.val % 32))

/-- ENG_T_CTRL.HALT (R284): at the next instruction boundary, or at once in WAIT or PARK. -/
def State.threadHalt (s : State) (k i : Nat) : State :=
  let x := s.thr k i
  if x.st = .off then s
  else (s.setThr k i { x with st := .halt, until_ := none, parkOn := [], held := none }).adoptIdle k i

/-- ENG_T_HALT. -/
def execEngTHalt (t : Fin 1536) (s : State) : Host.Outcome State Fault Refusal := .next (s.threadHalt (t.val / 32) (t.val % 32))

/-- LOCAL_SRAM_SCRUB: one row every INTERVAL ECLK (R268). -/
def execLocalSramScrub (k : Fin 48) (err : WordErrs) (s : State) : Host.Outcome State Fault Refusal :=
  let iv := s.rf .ENG_CL_SCRUB 0 16 (eclBase k)
  let c := s.cl k
  if iv = 0 ∨ s.eclk < c.scrubAt + iv ∨ (s.domain (unitDomain (clFid k))).st ≠ 0 then .next s
  else .next ((s.setCl k { c with scrub := (c.scrub + 1) % 4096, scrubAt := s.eclk }).lsCheck k (64 * c.scrub) 64 err).2

/-- A sample record (R290). -/
def Samp.record (p : Samp) : List Byte :=
  leBytes 32 (p.pc + p.eng * 2 ^ 14 + p.thr * 2 ^ 22 + p.maj * 2 ^ 25 + p.ea.toNat * 2 ^ 32
    + min ((p.doneAt.getD p.at_) - p.at_) 0xFFFF * 2 ^ 96 + p.fwd.toNat * 2 ^ 112 + p.parked.toNat * 2 ^ 113
    + p.split.toNat * 2 ^ 114 + p.trap.toNat * 2 ^ 115 + p.skips * 2 ^ 116 + nsOf p.ns * 2 ^ 128
    + secOf p.ns % 2 ^ 32 * 2 ^ 160)

/-- ENG_SAMPLE_WRITE: the record of a completed sample goes to the cluster's ring through the local side (R228, R290). -/
def execEngSampleWrite (k : Fin 48) (s : State) : Host.Outcome State Fault Refusal :=
  match (s.cl k).sample with
  | none => .next s
  | some p =>
    match p.doneAt with
    | none => .next s
    | some d =>
      if s.eclk < d ∨ ¬s.clLive k then .next s
      else
        let b := eclBase k
        let i := s.rf .ENG_SAMP_WPTR 0 10 b
        let o := k.val / 3 * 2 ^ 21 + s.rf .ENG_SAMP_BASE 0 6 b * 2 ^ 15 + 32 * i
        let t := 8 * (p.eng % 4) + p.thr
        let s := s.updCl k (fun c => { c with sample := none })
        let s := s.locPush { cluster := k, thr := 32, why := .sample, o := o, n := 32, wr := true, data := p.record,
                             slice := (s.thr k t).slice.toNat }
        let w := s.rf .ENG_SAMP_WPTR 16 16 b
        .next (s.setReg .ENG_SAMP_WPTR ((i + 1) % 1024 + (if i = 1023 then (w + 1) % 2 ^ 16 else w) * 2 ^ 16) b)

end Sys2Proof.Machine
end

