-- ==== Sys2Proof/Machine/QueueOps.lean ====
section
/-! DEFINITION. The parts of a queue manager: descriptors and rings, events, notification, token buckets, gates and what an
epoch switch does (R236 to R257, R318, R320, R326). -/

namespace Sys2Proof.Machine

/-! ### Descriptors (R237) -/

/-- FID of queue manager n. -/
def qmFid (n : Nat) : Nat := 0x170 + n
/-- Manager of a queue. -/
def qmOf (q : Nat) : Nat := fld q 14 2
/-- Descriptor of a queue in a bank. -/
def State.qdescIn (s : State) (ep : Bool) (q : Nat) : Nat := s.tab (bankOf ep) 6 (qmFid (qmOf q)) 0 (q % 16384)
/-- Descriptor that governs a queue: the current bank's. -/
def State.qdesc (s : State) (q : Nat) : Nat := s.qdescIn s.epo.cur q
/-- RING_BASE. -/
def qRing (d : Nat) : Nat := fld d 0 42
/-- NVEC. -/
def qNvec (d : Nat) : Nat := fld d 42 12
/-- META_BASE. -/
def qMeta (d : Nat) : Nat := fld d 64 42
/-- EVQ. -/
def qEvq (d : Nat) : Nat := fld d 106 16
/-- EVV. -/
def qEvv (d : Nat) : Bool := bitOf d 122
/-- MODE: 0 OFF, 1 PULL, 2 PUSH. -/
def qMode (d : Nat) : Nat := fld d 128 2
/-- PWR. -/
def qPwr (d : Nat) : Bool := bitOf d 130
/-- MEM. -/
def qMem (d : Nat) : Bool := bitOf d 131
/-- Bytes of a slot. -/
def qSlot (d : Nat) : Nat := 64 * 2 ^ fld d 132 2
/-- RINGLOG2. -/
def qLog (d : Nat) : Nat := fld d 134 5
/-- SLICE. -/
def qSlice (d : Nat) : Nat := fld d 139 6
/-- OPEN. -/
def qOpen (d : Nat) : Bool := bitOf d 145
/-- SAMPLE. -/
def qSample (d : Nat) : Bool := bitOf d 146
/-- Deliveries outstanding at most. -/
def qInfl (d : Nat) : Nat := fld d 147 4 + 1
/-- PORT. -/
def qPort (d : Nat) : Nat := fld d 151 3
/-- INPUT. -/
def qInput (d : Nat) : Nat := fld d 154 4
/-- OVH. -/
def qOvh (d : Nat) : Nat := fld d 158 8
/-- CONS_FID. -/
def qCons (d : Nat) : Nat := fld d 166 10
/-- NOTIFY. -/
def qNotify (d : Nat) : Nat := fld d 176 10
/-- RATE. -/
def qRate (d : Nat) : Nat := fld d 192 24
/-- BURST in bytes, at most 0x7F_FFFF. -/
def qBurst (d : Nat) : Nat := min (fld d 216 24) 0x7FFFFF
/-- QUANTUM. -/
def qQuantum (d : Nat) : Nat := fld d 240 16

/-- Cells of a manager's SHAPE section below 16,384 in a bank: local index and descriptor, ascending. -/
def State.qmList (s : State) (n : Nat) (ep : Bool) : List (Nat × Nat) :=
  s.tabs.filterMap (fun kv =>
    if kv.1 / 65536 = ((bankOf ep * 16 + 6) * 1024 + qmFid n) * 8 ∧ kv.1 % 65536 < 16384 then some (kv.1 % 65536, kv.2) else none)

/-- Dynamic state of a queue. -/
def State.qdyn (s : State) (q : Nat) : QDyn := SMap.get {} s.que q
/-- Dynamic state of a queue changed. -/
def State.updQ (s : State) (q : Nat) (g : QDyn → QDyn) : State := { s with que := SMap.upd {} s.que q g }
/-- Queue manager n. -/
def State.qmAt (s : State) (n : Nat) : Qm := SMap.get {} s.qm n
/-- Queue manager n changed. -/
def State.updQm (s : State) (n : Nat) (g : Qm → Qm) : State := { s with qm := SMap.upd {} s.qm n g }
/-- Egress port p of manager n. -/
def State.qport (s : State) (n p : Nat) : QPort := SMap.get {} (s.qmAt n).port p
/-- Egress port p of manager n changed. -/
def State.updPort (s : State) (n p : Nat) (g : QPort → QPort) : State :=
  s.updQm n (fun m => { m with port := SMap.upd {} m.port p g })

/-- The ring is full: HEAD and TAIL differ only in the wrap bit (R240). -/
def QDyn.full (x : QDyn) (d : Nat) : Bool := decide (2 ^ qLog d ≤ x.msgs.length)
/-- A count of RINGLOG2 + 1 bits advanced by `k` (R240). -/
def ringAdd (d v k : Nat) : Nat := (v + k) % 2 ^ (qLog d + 1)
/-- Slot of a count. -/
def slotOf (d v : Nat) : Nat := v % 2 ^ qLog d
/-- Slot of the j-th message from HEAD. -/
def QDyn.slot (x : QDyn) (d j : Nat) : Nat := slotOf d (x.head + j)

/-! ### Slices (R316, R318, R320, R326) -/

/-- The slice whose queue range holds a queue, with the queue's offset from QBASE. -/
def State.queueOwner (s : State) (q : Nat) : Option (Nat × Nat) :=
  (List.range 64).findSome? (fun sl =>
    let d := s.sliceDef s.epo.cur sl
    let b := fld d 16 16
    if bitOf d 0 ∧ b ≤ q ∧ q < b + fld d 32 17 then some (sl, q - b) else none)

/-- The queue is in service: its offset lies below SLC_QLIVE (R318). -/
def State.queueLive (s : State) (q : Nat) : Bool :=
  match s.queueOwner q with
  | some (sl, o) => decide (o < s.rf .SLC_QLIVE 0 17 (slcBase sl))
  | none => true

/-- The queue belongs to a slice that is being frozen or is frozen. -/
def State.queueFrozen (s : State) (q : Nat) : Bool :=
  match s.queueOwner q with
  | some (sl, _) => (s.slice sl).mode == .freezing || (s.slice sl).mode == .frozen
  | none => false

/-- Every request to the queue is answered SLICE_RESET (R326). -/
def State.queueReset (s : State) (q : Nat) : Bool :=
  match s.queueOwner q with
  | some (sl, _) => (s.slice sl).mode == .resetting && decide ((s.slice sl).at_ + 64 ≤ s.tick)
  | none => false

/-- The slice check of R241. -/
def sliceFits (d sl : Nat) : Bool := qOpen d || sl == qSlice d

/-! ### Ring memory (R239, R240) -/

/-- PA of an offset of the host window. -/
def State.hostPa (s : State) (n off : Nat) : Nat := s.rf .QM_HOSTWIN 0 10 (qmBase n) * 2 ^ 42 + off

/-- PA of a shared SRAM offset: through the first good entry of ATYPE 2 that covers it (R199, R203). -/
def State.sramPaFor (s : State) (ep : Bool) (chk o n : Nat) : Option Nat :=
  (s.ruleIndices ep chk).findSome? (fun i =>
    let e := s.ruleEntry ep chk i
    if ruleVld e ∧ ruleGood e ∧ ruleType e = 2 ∧ o + n ≤ 2 ^ ruleSize e then some (ruleBase e * 4096 + o) else none)

/-- The precheck of a ring access under the manager's own domain: its destination; a denial is recorded (R207, R239). -/
def State.qmRule (s : State) (n sl pa opc : Nat) : Option Nat × State :=
  let f := qmFid n
  let ep := s.epOf f
  let sd := s.domainOf ep f
  let s := s.ruleEcc f ep sl pa opc
  match s.ruleCheck (checkerOf f) ep sl pa opc sd with
  | .deny cause entry => (none, s.denied f true f sd opc cause entry pa)
  | .allow entry => (some ((s.direct f ep opc pa entry).getD 0x3FE), s.overrideUsed f opc sd)

/-- Meta entry of a message (R240). -/
def QMsg.word (m : QMsg) : Nat :=
  (m.len - 1) % 512 + m.done.toNat * 2 ^ 9 + m.src.toNat * 2 ^ 16 + m.slice.toNat * 2 ^ 26 + nsOf m.ns * 2 ^ 32
    + secOf m.ns % 2 ^ 32 * 2 ^ 64

/-! ### Ring accesses (R239, R241, R251) -/

/-- A ring access joins the manager's list. -/
def State.ringJob (s : State) (n : Nat) (j : RingJob) : State :=
  s.updQm n (fun m => { m with serial := m.serial + 1, jobs := m.jobs ++ [{ j with id := m.serial }] })

/-- The access puts a message into its queue. -/
def RingFor.puts : RingFor → Bool
  | .put .. | .event .. | .bell _ => true
  | _ => false

/-- Accesses that follow one another in a queue: what puts messages in, marks, and reads the meta ring again. -/
def RingFor.serial : RingFor → Bool
  | .put .. | .event .. | .bell _ | .mark | .reload => true
  | _ => false

/-- Messages that are on their way into a queue. -/
def State.incoming (s : State) (q : Nat) : Nat :=
  ((s.qmAt (qmOf q)).jobs.filter (fun j => j.queue == q && j.why.puts && !j.void)).length

/-- The ring has no slot for a further message, those on their way counted (R240). -/
def State.ringFull (s : State) (q d : Nat) : Bool := decide (2 ^ qLog d ≤ (s.qdyn q).msgs.length + s.incoming q)

/-- The message of a queue that stands at HEAD is being fetched, or messages are being put in: the manager serves the requests of
one queue in their order of arrival, one at a time (DESIGN CHOICE, log 101). -/
def State.queueBusy (s : State) (q : Nat) (opc : BitVec 6) : Bool :=
  (s.qmAt (qmOf q)).jobs.any (fun j => j.queue == q && (match j.why with
    | .deq .. => opc == 0x18
    | .reload => true
    | w => w.serial && opc != 0x18))

/-- The head message leaves its ring. -/
def QDyn.drop (x : QDyn) (d : Nat) (k : Nat) : QDyn :=
  { x with head := ringAdd d x.head k, msgs := x.msgs.drop k, fullSaid := x.fullSaid && k == 0 }

/-- The message that a meta entry describes. -/
def metaMsg (w : Nat) : QMsg :=
  { len := fld w 0 9 + 1, done := bitOf w 9, src := BitVec.ofNat 10 (fld w 16 10), slice := BitVec.ofNat 6 (fld w 26 6)
    ns := (fld w 32 32 + fld w 64 32 * 1000000000 : Nat) }

/-- Messages from HEAD to TAIL. -/
def QDyn.held (x : QDyn) (d : Nat) : Nat := (x.tail + 2 ^ (qLog d + 1) - x.head % 2 ^ (qLog d + 1)) % 2 ^ (qLog d + 1)

/-- The messages from HEAD to TAIL are read again from the meta ring, after a restore (R325). -/
def State.reloadQueue (s : State) (q : Nat) : State :=
  let d := s.qdesc q
  if (s.qmAt (qmOf q)).jobs.any (fun j => j.queue == q && j.why == .reload) then s
  else if (s.qdyn q).held d = 0 then s.updQ q (fun y => { y with msgs := [], reload := false })
  else (s.updQ q (fun y => { y with msgs := [] })).ringJob (qmOf q)
    { why := .reload, queue := q, mem := qMem d, slice := BitVec.ofNat 6 (qSlice d) }

/-! ### Notification (R245) -/

/-- A pull queue has gone from empty to non-empty: Intr or Doorbell to NOTIFY, once per arming. -/
def State.pullNotify (s : State) (n q d : Nat) (wasEmpty : Bool) : State :=
  if ¬wasEmpty ∨ qMode d ≠ 1 ∨ qNotify d = 0 ∨ ¬(s.qdyn q).armed then s
  else
    let cluster : Bool := 0x130 ≤ qNotify d && qNotify d < 0x160
    let t := (s.nif (qmFid n)).freshTxid
    ((s.updQ q (fun x => { x with armed := false })).updNi (qmFid n) (fun n => { n with own := n.own ++ [t] })).send (qmFid n)
      { net := .req, dst := BitVec.ofNat 10 (qNotify d), opc := if cluster then 0x19 else 0x1A, txid := t, rlx := true,
        slice := BitVec.ofNat 6 (qSlice d), addr := BitVec.ofNat 52 (if cluster then q else qNvec d) }

/-! ### Events (R248, R329) -/

/-- An event message. -/
def eventBytes (s : State) (code queue arg : Nat) : List Byte :=
  leBytes 16 (code + queue % 2 ^ 16 * 2 ^ 16 + arg % 2 ^ 32 * 2 ^ 32 + nsOf s.ns * 2 ^ 64 + secOf s.ns % 2 ^ 32 * 2 ^ 96)

/-- An event goes into event queue `evq`, with the queue's manager as its producer, or is lost and counted at manager `cnt`. -/
def State.postEvent (s : State) (cnt src evq : Nat) (evv : Bool) (code queue arg : Nat) : State :=
  let d := s.qdesc evq
  if ¬evv ∨ qMode d = 0 ∨ qMode d = 3 ∨ qPwr d ∨ s.ringFull evq d ∨ s.queueReset evq then s.bump .QM_EVLOST_CNT (qmBase cnt)
  else
    let m : QMsg := { len := 16, src := BitVec.ofNat 10 (qmFid src), slice := BitVec.ofNat 6 (qSlice d), ns := s.ns }
    s.ringJob (qmOf evq) { why := .event cnt m, queue := evq, mem := qMem d, slice := BitVec.ofNat 6 (qSlice d),
                           data := eventBytes s code queue arg }

/-- An event about a queue; none is posted about the event queue itself. -/
def State.queueEvent (s : State) (q code arg : Nat) : State :=
  let d := s.qdesc q
  if qEvv d ∧ qEvq d = q then s else s.postEvent (qmOf q) (qmOf q) (qEvq d) (qEvv d) code q arg

/-- An event of a slice, through the manager that owns its EVQ (R329). -/
def State.sliceEvent (s : State) (sl code arg : Nat) : State :=
  let d := s.sliceDef s.epo.cur sl
  let evq := fld d 96 16
  s.postEvent (qmOf evq) (qmOf evq) evq (bitOf d 112) code sl arg

/-! ### Deliveries (R246 to R248) -/

/-- Outstanding deliveries of a queue and its staged messages are forgotten: their answers will be discarded (R248). -/
def State.dropDeliveries (s : State) (q : Nat) : State :=
  s.updQm (qmOf q) (fun m => { m with
    dlv := SMap.mapVals none (fun _ (o : Option Dlv) => o.map (fun v => if v.queue = q then { v with stale := true } else v)) m.dlv
    port := SMap.mapVals {} (fun _ (p : QPort) => { p with staged := p.staged.filter (fun g => g.queue != q) }) m.port })

/-- A manager's ring accesses once a queue has been emptied: those that answer nobody and have not begun, and the reading of its
meta ring, are gone, and the messages of the others do not enter it. -/
def Qm.voidJobs (m : Qm) (q : Nat) : Qm :=
  let keep (j : RingJob) : Bool := j.queue != q || (match j.why with | .event .. => j.step != 0 | .reload => false | _ => true)
  { m with jobs := (m.jobs.filter keep).map (fun j => if j.queue = q then { j with void := true } else j) }

/-- Every message of a queue is dropped and counted, those on their way into it among them; HEAD stands at TAIL. -/
def State.discardQueue (s : State) (q : Nat) : State :=
  let k := (s.qdyn q).msgs.length + s.incoming q
  let s := ((if k = 0 then s else s.bump .QM_DISCARD_CNT (qmBase (qmOf q)) 0 k).dropDeliveries q).updQm (qmOf q) (fun m => m.voidJobs q)
  s.updQ q (fun x => { x with msgs := [], head := x.tail, fullSaid := false, reload := false })

/-! ### Token buckets (R253, R254) -/

/-- Least of a bucket's tokens and its ceiling. -/
def clampTokens (t : Int) (burst : Nat) : Int := min t (256 * burst : Nat)

/-- The bucket at FCLK `t`: what it remembers is of this FCLK. -/
def Bucket.sync (x : Bucket) (t : Nat) : Bucket :=
  if x.at_ = t + 1 then x
  else { x with at_ := t + 1, base := x.tokens, rate0 := x.rate, burst0 := x.burst, refilled := false, low := none }

/-- The tokens after this FCLK's charges, its refill and its writes, in that order. -/
def Bucket.settle (x : Bucket) : Bucket :=
  let t := if x.refilled then clampTokens (x.base + x.rate0) x.burst0 else x.base
  { x with tokens := match x.low with | some l => clampTokens t l | none => t }

/-- Tokens that a selection of FCLK `t` sees. -/
def Bucket.avail (x : Bucket) (t : Nat) : Int := (x.sync t).base

/-- A selection is charged. -/
def Bucket.charge (x : Bucket) (t k : Nat) : Bucket :=
  let y := x.sync t
  { y with base := y.base - (256 * k : Nat) }.settle

/-- The refill of an FCLK, at the rate in use before its writes. -/
def Bucket.refill (x : Bucket) (t : Nat) : Bucket := { x.sync t with refilled := true }.settle

/-- A write of the rate. -/
def Bucket.putRate (x : Bucket) (t rate : Nat) : Bucket := { x.sync t with rate := rate }.settle

/-- A write of the burst. -/
def Bucket.putBurst (x : Bucket) (t burst : Nat) : Bucket :=
  let y := x.sync t
  { y with burst := burst, low := some (min burst (y.low.getD burst)) }.settle

/-- A rate and a burst reach a queue's bucket. -/
def QDyn.shape (x : QDyn) (t rate burst : Nat) : QDyn := { x with bkt := (x.bkt.putRate t rate).putBurst t burst }

/-- A rate and a burst reach a port's bucket. -/
def QPort.shape (x : QPort) (t rate burst : Nat) : QPort := { x with bkt := (x.bkt.putRate t rate).putBurst t burst }

/-! ### Gates (R255 to R257) -/

/-- The header cell pair of a port's gate list in a bank: indices 0 to 3 as one number of 256 bits. -/
def State.gateHeader (s : State) (n p : Nat) (ep : Bool) : Nat :=
  (List.range 4).foldl (fun a i => a + s.tab (bankOf ep) 7 (qmFid n) p i * 2 ^ (64 * i)) 0

/-- The gate list of a port in a bank. -/
def State.gateList (s : State) (n p : Nat) (ep : Bool) : GateList :=
  let h := s.gateHeader n p ep
  { gen := fld h 128 16, cycle := fld h 80 32
    ents := (List.range (fld h 112 9)).map (fun k =>
      let e := s.tab (bankOf ep) 7 (qmFid n) p (4 + k)
      (fld e 0 16, fld e 16 24)) }

/-- Base time of a port's gate list, in total nanoseconds. -/
def State.gateBase (s : State) (n p : Nat) (ep : Bool) : Int :=
  let h := s.gateHeader n p ep
  (fld h 0 48 * 1000000000 + fld h 48 32 : Nat)

/-- Entry in force at an offset within the cycle, and the offset at which it ends. -/
def entryAt : List (Nat × Nat) → (k acc off : Nat) → Nat × Nat
  | [], k, acc, _ => (k, acc)
  | e :: es, k, acc, off => if off < acc + e.2 ∨ es.isEmpty then (k, acc + e.2) else entryAt es (k + 1) (acc + e.2) off

/-- The list and start time in force at a fabric time: the pending list from its start on. -/
def QPort.gateAt (x : QPort) (t : Int) : GateList × Int :=
  match x.pend with
  | some (g, st) => if st ≤ t then (g, st) else (x.op, x.opS)
  | none => (x.op, x.opS)

/-- Current entry at a fabric time, and the time at which it ends. -/
def QPort.entryNow (x : QPort) (t : Int) : Nat × Int :=
  let (g, st) := x.gateAt t
  if g.ents.isEmpty ∨ g.cycle = 0 then (0, t)
  else
    let off := ((t - st) % g.cycle).toNat
    let (k, e) := entryAt g.ents 0 0 off
    (k, t - off + e)

/-- The input is open at a fabric time. -/
def QPort.openAt (x : QPort) (t : Int) (input : Nat) : Bool :=
  let (g, _) := x.gateAt t
  g.ents.isEmpty || bitOf (g.ents.getD (x.entryNow t).1 (0, 0)).1 input

/-- The input is open now and stays open for `k` FCLK (R256). -/
def State.openFor (s : State) (n p input k : Nat) : Bool :=
  (List.range k).all (fun i => (s.qport n p).openAt (({ s.tim with c := s.tim.c + i } : TimeSt).total) input)

/-- Start time of a list with a base time, at a switch at `t`: the time and the whole cycles skipped (R257). -/
def gateStart (base : Int) (cycle : Nat) (t : Int) : Int × Nat :=
  let least := t + 2000
  if least ≤ base then (base, 0)
  else if cycle = 0 then (least, 0)
  else
    let k := ((least - base + cycle - 1) / cycle).toNat
    (base + k * cycle, k)

/-! ### Epoch switch and end of drain (R240, R248, R254, R257) -/

/-- A queue at an epoch switch: from the old bank's descriptor to the new one's. -/
def State.queueSwitch (s : State) (q dOld dNew : Nat) : State :=
  let s := if qMode dNew = 0 ∧ qMode dOld ≠ 0 then
      let k := (s.qdyn q).msgs.length + s.incoming q
      (s.discardQueue q).queueEvent q 3 k
    else s
  let s := if qMode dOld = 0 ∧ qMode dNew ≠ 0 then
      s.updQ q (fun x => { x with head := 0, tail := 0, msgs := [], armed := true, fullSaid := false })
    else s
  s.updQ q (fun x => x.shape s.tick (qRate dNew) (qBurst dNew))

/-- A port at an epoch switch at time `t`. -/
def State.portSwitch (s : State) (n p : Nat) (t : Int) : State :=
  let ep := s.epo.cur
  let e := s.tab (bankOf ep) 6 (qmFid n) 0 (16480 + p)
  let s := s.updPort n p (fun x => x.shape s.tick (fld e 0 24) (min (fld e 24 24) 0x7FFFFF))
  let g := s.gateList n p ep
  if g.gen = (s.qport n p).op.gen then s.updPort n p (fun x => { x with pend := none })
  else
    let (st, k) := gateStart (s.gateBase n p ep) g.cycle t
    let s := s.updPort n p (fun x => { x with pend := some (g, st) })
    let b := qmBase n
    let s := (s.setReg .QM_P_GATE_S (secOf st % 2 ^ 16) b p).setReg .QM_P_GATE_NS (nsOf st) b p
    if k = 0 then s.setRf .QM_P_GATE 9 1 0 b p
    else
      let s := s.setRf .QM_P_GATE 9 1 1 b p
      let mine := (s.qmList n ep).filter (fun qd => qMode qd.2 == 2 && qPort qd.2 == p)
      match (mine.find? (fun qd => qInput qd.2 == 0)).orElse (fun _ => mine.head?) with
      | some (_, d) => s.postEvent n n (qEvq d) (qEvv d) 4 p k
      | none => s.bump .QM_EVLOST_CNT b

/-- Every queue manager at an epoch switch at time `t`; the new bank is current already. -/
def State.qmSwitch (s : State) (t : Int) : State :=
  (List.range 4).foldl (fun s n =>
    let new := s.qmList n s.epo.cur
    let old := (s.qmList n (!s.epo.cur)).filter (fun (qd : Nat × Nat) => !new.any (fun x => x.1 == qd.1))
    let s := (new ++ old.map (fun (qd : Nat × Nat) => (qd.1, 0))).foldl (fun s (qd : Nat × Nat) =>
      let q := 16384 * n + qd.1
      s.queueSwitch q (s.qdescIn (!s.epo.cur) q) qd.2) s
    (List.range 8).foldl (fun s p => s.portSwitch n p t) s) s

/-- A table's active content copied into the shadow bank, for the units that `ok` names. -/
def State.copyActive (s : State) (table : Nat) (ok : Nat → Bool) : State :=
  let tu (k : Nat) : Nat × Nat × Nat := (k / 65536 / 8 / 1024 / 16, k / 65536 / 8 / 1024 % 16, k / 65536 / 8 % 1024)
  let cur := bankOf s.epo.cur
  let mine (b k : Nat) : Bool := (tu k).1 == b && (tu k).2.1 == table && ok (tu k).2.2
  let kept := s.tabs.filter (fun kv => !mine (1 - cur) kv.1)
  let span := 16 * 1024 * 8 * 65536
  let add := (s.tabs.filter (fun kv => mine cur kv.1)).map (fun kv => (kv.1 % span + (1 - cur) * span, kv.2))
  { s with tabs := add.foldl (fun m kv => SMap.set 0 m kv.1 kv.2) kept }

/-- At the end of a drain the active SHAPE and GATE content goes into the shadow bank (R254). -/
def State.qmDrainEnd (s : State) : State :=
  let ok (u : Nat) : Bool := 0x170 ≤ u && u < 0x174
  (s.copyActive 6 ok).copyActive 7 ok

end Sys2Proof.Machine
end

