-- ==== Sys2Proof/Machine/Rings.lean ====
section
/-! DEFINITION. The ring accesses of the queue managers: their pieces, sent as RdNC and WrNC to bank nodes and host memory, the
answers, and what each access leads to (R222, R239 to R248, R251, R259, R325, R398). -/

namespace Sys2Proof.Machine

/-! ### Source tracker (R117, R118) -/

/-- The lowest entry of a manager's source tracker that no transaction of its interface uses; deliveries and ring accesses share
it. -/
def State.freeIdx (s : State) (n : Nat) : Option Nat :=
  (List.range 256).find? (fun i => !(s.nif (qmFid n)).own.any (fun t => t.toNat / 16 == i))

/-- A TXID of the manager's interface is in use. -/
def State.ownTxid (s : State) (n : Nat) (t : BitVec 12) : State := s.updNi (qmFid n) (fun x => { x with own := x.own ++ [t] })

/-- A TXID of the manager's interface is free again. -/
def State.freeTxid (s : State) (n : Nat) (t : BitVec 12) : State := s.updNi (qmFid n) (fun x => { x with own := x.own.erase t })

/-! ### Steps -/

/-- A ring access of a manager. -/
def State.jobAt (s : State) (n id : Nat) : Option RingJob := (s.qmAt n).jobs.find? (fun j => j.id == id)

/-- A ring access replaced. -/
def State.setJob (s : State) (n : Nat) (j : RingJob) : State :=
  s.updQm n (fun m => { m with jobs := m.jobs.map (fun x => if x.id = j.id then j else x) })

/-- A ring access is over. -/
def State.dropJob (s : State) (n id : Nat) : State := s.updQm n (fun m => { m with jobs := m.jobs.filter (fun x => x.id != id) })

/-- The next step of an access: the pieces of its bytes wait for their flits (R114, R251). -/
def State.ringGo (s : State) (n : Nat) (j : RingJob) (wr : Bool) (off : Nat) (data : List Byte) : State :=
  let ps := splitRange 512 off data.length
  (s.setJob n { j with step := j.step + 1, wr := wr, off := off, data := data, left := ps.length, status := 0 }).updQm n
    (fun m => { m with out := m.out ++ ps.map (fun ak => .piece j.id (ak.1 - off) ak.2) })

/-- Offset of the meta entry of a slot count. -/
def metaAt (d v : Nat) : Nat := qMeta d + 16 * slotOf d v

/-- An access begins. -/
def State.ringBegin (s : State) (n : Nat) (j : RingJob) : State :=
  let d := s.qdesc j.queue
  let x := s.qdyn j.queue
  match j.why with
  | .put .. | .event .. => s.ringGo n j true (qRing d + slotOf d x.tail * qSlot d) j.data
  | .bell _ => s.ringGo n j false (metaAt d x.tail) (zeros 16)
  | .reload => s.ringGo n j false (metaAt d (x.head + x.msgs.length)) (zeros 16)
  | .deq .. | .stage _ => s.ringGo n j false j.off j.data
  | .mark | .line => s.ringGo n j true j.off j.data

/-- An access waits for an earlier one of its queue. -/
def Qm.jobWaits (m : Qm) (j : RingJob) : Bool :=
  j.why.serial && m.jobs.any (fun x => decide (x.id < j.id) && x.queue == j.queue && x.why.serial)

/-! ### What an access leads to -/

/-- A message is in its ring: TAIL advances and it becomes visible (R241). -/
def State.ringEnter (s : State) (n q : Nat) (m : QMsg) : State :=
  let d := s.qdesc q
  let empty := (s.qdyn q).msgs.isEmpty
  ((s.updQ q (fun x => { x with tail := ringAdd d x.tail 1, msgs := x.msgs ++ [m] })).count (qmFid n) 64).pullNotify n q d empty

/-- A staged message cannot be read: its queue pauses with the status (DESIGN CHOICE, log 101). -/
def State.stageFail (s : State) (n p : Nat) (j : RingJob) : State :=
  match (s.qport n p).staged.find? (fun g => g.job == j.id) with
  | none => s
  | some g =>
    let d := s.qdesc g.queue
    let s := s.updPort n p (fun y => { y with staged := y.staged.filter (fun z => z.job != j.id) })
    (s.updQ g.queue (fun x => { x with
      msgs := x.msgs.zipIdx.map (fun mi => if x.slot d mi.2 = g.slot then { mi.1 with out := false } else mi.1)
      paused := true
      cause := j.status })).queueEvent g.queue 2 j.status

/-- A step of an access has all its answers. -/
def State.ringDone (s : State) (n : Nat) (j : RingJob) : State :=
  let f := qmFid n
  let d := s.qdesc j.queue
  let x := s.qdyn j.queue
  let t := s.dropJob n j.id
  match j.why with
  | .put q m =>
    if j.status ≠ 0 then t.answer f q j.status
    else if j.void then t.answer f q 0
    else if j.step = 1 then s.ringGo n j true (metaAt d x.tail) (leBytes 16 m.word)
    else (t.answer f q 0).ringEnter n j.queue m
  | .event cnt m =>
    if j.void then t
    else if j.status ≠ 0 then t.bump .QM_EVLOST_CNT (qmBase cnt)
    else if j.step = 1 then s.ringGo n j true (metaAt d x.tail) (leBytes 16 m.word)
    else t.ringEnter n j.queue m
  | .bell q =>
    if j.status ≠ 0 then t.answer f q j.status
    else if j.void then t.answer f q 0
    else if j.step = 1 then
      let m := { metaMsg (leNat j.data) with ns := q.stamp }
      if qSlot d < m.len then (t.bump .QM_BADLEN_CNT (qmBase n)).answer f q 9
      else s.ringGo n { j with why := .put q m } true (metaAt d x.tail + 4) ((leBytes 16 m.word).drop 4 |>.take 8)
    else t.answer f q 0
  | .deq q _ =>
    if j.status ≠ 0 then t.answer f q j.status
    else if j.void then t.answer f q (if s.queueReset j.queue then 4 else 0)
    else s.updQm n (fun m => { m with out := m.out ++ [.answer j.id] })
  | .stage p =>
    if j.status ≠ 0 then t.stageFail n p j
    else t.updPort n p (fun y => { y with staged := y.staged.map (fun g =>
      if g.job = j.id then { g with ready := true, data := j.data, bad := j.bad } else g) })
  | .mark | .line => t
  | .reload =>
    let m := metaMsg (leNat j.data)
    let s := s.updQ j.queue (fun y => { y with msgs := y.msgs ++ [m] })
    if (s.qdyn j.queue).msgs.length < x.held d then s.ringBegin n j
    else (s.dropJob n j.id).updQ j.queue (fun y => { y with reload := false })

/-- A piece of an access has its answer. -/
def State.ringPiece (s : State) (n id rel status : Nat) (bytes : List Byte) (bad : Bool) : State :=
  match s.jobAt n id with
  | none => s
  | some j =>
    let j := { j with left := j.left - 1, status := if j.status = 0 then status else j.status, bad := j.bad || bad
                      data := if j.wr ∨ status ≠ 0 then j.data else patch j.data rel bytes }
    let s := s.setJob n j
    if j.left = 0 then s.ringDone n j else s

/-! ### Sending -/

/-- A piece leaves: prechecked, and directed to its bank node or to host memory (R207, R239). -/
def State.ringSend (s : State) (n i : Nat) (j : RingJob) (rel size : Nat) : State :=
  let f := qmFid n
  let len := 2 ^ size
  let opc : Nat := if j.wr then 0x13 else 0x12
  let pa := if j.mem then some (s.hostPa n (j.off + rel)) else s.sramPaFor (s.epOf f) (checkerOf f) (j.off + rel) len
  match pa with
  | none => s.ringPiece n j.id rel 1 [] false
  | some pa =>
    match s.qmRule n j.slice.toNat pa opc with
    | (none, s) => s.ringPiece n j.id rel 1 [] false
    | (some dst, s) =>
      let txid := BitVec.ofNat 12 (16 * i)
      let q : Pkt := { net := .req, dst := BitVec.ofNat 10 dst, opc := BitVec.ofNat 6 opc, slice := j.slice, txid := txid,
                       addr := BitVec.ofNat 52 pa, size := BitVec.ofNat 3 size, rlx := true }
      let line := patch (zeros 64) (pa % 64) ((j.data.drop rel).take len)
      let e : RingEnt := { job := j.id, rel := rel, n := len, low := pa % 64, txid := txid, slice := j.slice, start := s.tick }
      let s := (s.updQm n (fun m => { m with ring := SMap.set none m.ring i (some e) })).ownTxid n txid
      s.sendOrdered f (s.ownSd f q) (if j.wr then [pieceData q 0 (line, 0, j.bad)] else [])

/-- A Deq is answered: the message, then Comp; HEAD advances (R244). -/
def State.deqAnswer (s : State) (n : Nat) (j : RingJob) (q : Pkt) : State :=
  let f := qmFid n
  let s := s.dropJob n j.id
  if j.void then s.answer f q (if s.queueReset j.queue then 4 else 0)
  else
    let flits := (j.data.length + 63) / 64
    let d := s.qdesc j.queue
    let s := (s.updQ j.queue (fun y => y.drop d 1)).count f 65
    (s.send f { net := .dat, dst := q.src, opc := 0x20, txid := q.txid, slice := q.slice, data := j.data, psn := j.bad,
                be := BitVec.allOnes 64, len := BitVec.ofNat 3 (flits - 1) }).answer f q 0 flits

/-- The first thing that waits for its flits leaves, one flit per FCLK with the deliveries, which go first (R251; the order is a
DESIGN CHOICE, log 101). -/
def State.ringInject (s : State) (n : Nat) : State :=
  let m := s.qmAt n
  if s.tick < m.busy then s
  else match m.out with
  | [] => s
  | o :: rest =>
    let took (k : Nat) (s : State) : State := s.updQm n (fun m => { m with out := rest, busy := s.tick + k })
    match o with
    | .answer id =>
      match s.jobAt n id with
      | some j => (match j.why with | .deq q _ => (took ((j.data.length + 63) / 64) s).deqAnswer n j q | _ => took 0 s)
      | none => took 0 s
    | .piece id rel size =>
      match s.jobAt n id, s.freeIdx n with
      | none, _ => took 0 s
      | some _, none => s
      | some j, some i => (took 1 s).ringSend n i j rel size

/-! ### Answers -/

/-- A packet in the manager's inbox answers a piece of a ring access, or nothing that it has sent. -/
def State.ringAnswers (s : State) (n : Nat) (p : Pkt) : Bool :=
  (p.net == .rsp && (SMap.get none (s.qmAt n).ring (p.txid.toNat / 16)).any (fun e => e.txid == p.txid))
    || (p.net == .dat && decide (p.opc.toNat < 0x18))

/-- An answer of a piece is taken. -/
def State.ringAnswer (s : State) (n : Nat) (p : Pkt) : State :=
  let f := qmFid n
  let i := p.txid.toNat / 16
  let s := s.updNi f (fun x => { x with inbox := x.inbox.erase p })
  match SMap.get none (s.qmAt n).ring i with
  | some e =>
    if e.txid ≠ p.txid ∨ e.dead.isSome then s.lateAnswer f
    else
      let s := (s.updQm n (fun m => { m with ring := SMap.set none m.ring i none })).freeTxid n e.txid
      if e.stale then s
      else s.ringPiece n e.job e.rel (if p.net = .rsp then p.status.toNat else 0) ((p.data.drop e.low).take e.n) p.psn
  | none => s.lateAnswer f

/-- A piece expires: it has the status TIMEOUT, and its entry is held (R118). -/
def State.ringExpire (s : State) (n i : Nat) (e : RingEnt) : State :=
  let s := ((s.bump .NI_TMO_CNT (niBase (qmFid n))).count (qmFid n) 25).raiseNi (qmFid n) 9 1 e.txid.toNat
  let s := s.updQm n (fun m => { m with ring := SMap.set none m.ring i (some { e with stale := true, dead := some s.tick }) })
  if e.stale then s else s.ringPiece n e.job e.rel 7 [] false

/-- A piece is squashed by the reset of its slice: it has the status SLICE_RESET (R326). -/
def State.ringSquash (s : State) (n i : Nat) (e : RingEnt) : State :=
  (s.updQm n (fun m => { m with ring := SMap.set none m.ring i (some { e with stale := true }) })).ringPiece n e.job e.rel 4 [] false

/-- One FCLK of a manager's ring accesses: answers are taken, accesses begin, and one piece leaves. -/
def State.tickRing (s : State) (n : Nat) : State :=
  let s := ((s.nif (qmFid n)).inbox.filter (s.ringAnswers n)).foldl (fun s p => s.ringAnswer n p) s
  let m := s.qmAt n
  let s := (m.jobs.filter (fun j => j.step == 0 && !m.jobWaits j)).foldl (fun s j => if j.void then s.ringDone n j else s.ringBegin n j) s
  s.ringInject n

end Sys2Proof.Machine
end

