-- ==== Sys2Proof/Machine/Queues.lean ====
section
/-! DEFINITION. The queue managers' commands: messages in, messages out, selection and delivery, buckets, gates and
sampling (R236 to R260). -/

namespace Sys2Proof.Machine

/-! ### Requests (R236, R241 to R245) -/

/-- The manager runs: in service, powered, and the fabric neither halted nor in test. -/
def State.qmLive (s : State) (n : Nat) : Bool :=
  s.started && s.prim != .halt && s.prim != .test && !s.niFenced (qmFid n) && (s.domain (unitDomain (qmFid n))).st == 0

/-- The requests that have reached a manager, oldest first. -/
def State.qmReqs (s : State) (n : Nat) : List Pkt := (s.nif (qmFid n)).inbox.filter (fun p => p.net == .req)

/-- Queue number of a request. -/
def reqQueue (q : Pkt) : Nat := q.addr.toNat % 2 ^ 16

/-- Data of an Enq at the manager. -/
def State.enqData (s : State) (n : Nat) (q : Pkt) : Option Pkt :=
  (s.nif (qmFid n)).inbox.find? (fun p => p.net == .dat && p.src == q.src && p.txid == q.txid)

/-- The oldest request with an opcode whose data is there and which no earlier one for its queue precedes, waiting or being
served. -/
def State.qmNext (s : State) (n : Nat) (opc : BitVec 6) : Option Pkt :=
  let qs := s.qmReqs n
  qs.find? (fun q => q.opc == opc && (opc != 0x17 || (s.enqData n q).isSome) && !s.queueBusy (reqQueue q) opc
    && qs.find? (fun x => reqQueue x == reqQueue q) == some q)

/-- A request with its data leaves the manager's inbox. -/
def State.qmTake (s : State) (n : Nat) (q : Pkt) : State :=
  s.updNi (qmFid n) (fun x =>
    let box := x.inbox.erase q
    { x with inbox := match box.find? (fun p => p.net == .dat && p.src == q.src && p.txid == q.txid) with
      | some d => box.erase d
      | none => box })

/-- One request of an opcode is served; a request that no manager serves, or for another manager's queue, is answered
BAD_REQ with PROTOCOL at L1 (R236).  `table` is what the check of the queue's descriptor finds (R332, R338). -/
def State.qmServe (s : State) (n : Nat) (opc : BitVec 6) (table : WordErr) (go : Pkt → State → State) : State :=
  let f := qmFid n
  let bad (q : Pkt) : State := (((s.qmTake n q).raiseNi f 6 1 q.txid.toNat).answer f q 9)
  if ¬s.qmLive n then s
  else match (s.qmReqs n).find? (fun q => q.opc != 0x17 && q.opc != 0x18 && q.opc != 0x19) with
    | some q => (bad q).sinkData f q
    | none =>
      match s.qmNext n opc with
      | none => s
      | some q =>
        if qmOf (reqQueue q) ≠ n then bad q
        else match s.tableCheck (fidUnit f) table with
          | (.uncorrectable, s) => s.fenceNi f
          | (_, s) => go q s

/-- A refusal with DENIED, counted. -/
def State.qmDeny (s : State) (n : Nat) (q : Pkt) : State := (s.bump .QM_DENY_CNT (qmBase n)).answer (qmFid n) q 1

/-- A refusal with QUEUE_FULL, counted. -/
def State.qmFull (s : State) (n : Nat) (q : Pkt) : State :=
  ((s.bump .QM_FULL_CNT (qmBase n)).count (qmFid n) 68).answer (qmFid n) q 0xA

/-- Another slice's request for a queue of a freezing or frozen slice. -/
def State.frozenOut (s : State) (queue : Nat) (q : Pkt) : Bool :=
  s.queueFrozen queue && (match s.queueOwner queue with | some (sl, _) => sl != q.slice.toNat | none => false)

/-- An Enq decided (R241, R242, R318, R320, R326): an accepted one goes into its ring, and is answered when it is there. -/
def State.enqueue (s : State) (n : Nat) (q data : Pkt) : State :=
  let f := qmFid n
  let queue := reqQueue q
  let d := s.qdesc queue
  if s.queueReset queue then s.answer f q 4
  else if (qMode d ≠ 1 ∧ qMode d ≠ 2) ∨ qPwr d ∨ ¬sliceFits d q.slice.toNat then (s.qmDeny n q).raiseNi f 7 0
  else if ¬s.queueLive queue then s.qmDeny n q
  else if qSlot d < data.data.length then (s.bump .QM_BADLEN_CNT (qmBase n)).answer f q 9
  else if s.frozenOut queue q then s.qmFull n q
  else if s.ringFull queue d then
    let said := (s.qdyn queue).fullSaid
    let s := s.qmFull n q
    if said then s else (s.updQ queue (fun y => { y with fullSaid := true })).queueEvent queue 1 0
  else
    let m : QMsg := { len := data.data.length, src := q.src, slice := q.slice, ns := q.stamp }
    s.ringJob n { why := .put q m, queue := queue, mem := qMem d, slice := BitVec.ofNat 6 (qSlice d), data := data.data, bad := data.psn }

/-- ENQ. -/
def execEnq (q : Fin 4) (table : WordErr) (s : State) : Host.Outcome State Fault Refusal :=
  .next (s.qmServe q 0x17 table (fun p s =>
    let d := (s.enqData q p).getD { net := .dat }
    (s.qmTake q p).enqueue q p d))

/-- A Doorbell decided: the meta entry that the producer wrote is read, stamped with the time, and TAIL advances (R243). -/
def State.doorbell (s : State) (n : Nat) (q : Pkt) : State :=
  let f := qmFid n
  let queue := reqQueue q
  let d := s.qdesc queue
  if s.queueReset queue then s.answer f q 4
  else if (qMode d ≠ 1 ∧ qMode d ≠ 2) ∨ ¬qPwr d ∨ ¬sliceFits d q.slice.toNat ∨ ¬s.queueLive queue then s.qmDeny n q
  else if s.frozenOut queue q ∨ s.ringFull queue d then s.qmFull n q
  else s.ringJob n { why := .bell q, queue := queue, mem := qMem d, slice := BitVec.ofNat 6 (qSlice d) }

/-- DOORBELL. -/
def execDoorbell (q : Fin 4) (table : WordErr) (s : State) : Host.Outcome State Fault Refusal :=
  .next (s.qmServe q 0x19 table (fun p s => (s.qmTake q p).doorbell q p))

/-- A Deq decided (R244, R320, R326): the head message is read, or CNT = 0 answers. -/
def State.dequeue (s : State) (n : Nat) (q : Pkt) : State :=
  let f := qmFid n
  let queue := reqQueue q
  let d := s.qdesc queue
  let x := s.qdyn queue
  if s.queueReset queue then s.answer f q 4
  else if qMode d = 0 ∨ qMode d = 3 ∨ ¬sliceFits d q.slice.toNat then s.qmDeny n q
  else if qMode d = 2 then s.answer f q 9
  else if s.frozenOut queue q then s.answer f q 0
  else match x.msgs with
    | [] => (s.updQ queue (fun y => { y with armed := true })).answer f q 0
    | m :: _ => s.ringJob n { why := .deq q m, queue := queue, mem := qMem d, slice := BitVec.ofNat 6 (qSlice d)
                              off := qRing d + slotOf d x.head * qSlot d, data := zeros m.len }

/-- DEQ. -/
def execDeq (q : Fin 4) (table : WordErr) (s : State) : Host.Outcome State Fault Refusal :=
  .next (s.qmServe q 0x18 table (fun p s => (s.qmTake q p).dequeue q p))

/-! ### Selection (R249 to R251) -/

/-- The message that would be delivered next: its place from HEAD. -/
def QDyn.next (x : QDyn) : Option (Nat × QMsg) :=
  (x.msgs.zipIdx.map (fun mi => (mi.2, mi.1))).find? (fun im => !im.2.done && !im.2.out && im.2.retry.isNone)

/-- Deliveries of a queue outstanding, the staged ones among them. -/
def QDyn.outCount (x : QDyn) : Nat := (x.msgs.filter (·.out)).length

/-- Push delivery of a queue stands still: the fabric drains, or its slice is frozen or being reset (R320, R326, R412). -/
def State.pushStands (s : State) (queue : Nat) : Bool :=
  s.prim == .drain || s.prim == .quiesced || s.queueFrozen queue || s.queueReset queue

/-- A push queue is eligible (R250). -/
def State.eligible (s : State) (queue d : Nat) : Bool :=
  let x := s.qdyn queue
  qMode d == 2 && x.next.isSome && decide (0 < x.bkt.avail s.tick) && decide (x.outCount < qInfl d) && !x.paused && !s.pushStands queue

/-- Level-1 length of a message (R249). -/
def len1 (d : Nat) (m : QMsg) : Nat := m.len + qOvh d

/-- What one round of a deficit-weighted round robin over members finds: the member, the deficits, the freshness; `stall`
where the length of a member's head is not known yet. -/
structure Pick where
  who   : Option Nat
  defs  : SMap Nat
  fresh : Bool
  stall : Bool := false
  deriving DecidableEq, Repr

/-- One round over members from the current one on (R251); members that stay backlogged and eligible share their parent's service
by their quanta (R252). -/
def pickFrom (elig empty : Nat → Bool) (quantum : Nat → Nat) (len : Nat → Option Nat) : List Nat → SMap Nat → Bool → Pick
  | [], df, fr => { who := none, defs := df, fresh := fr }
  | x :: xs, df, fr =>
    if elig x then
      let df := if fr then SMap.upd 0 df x (· + quantum x) else df
      match len x with
      | none => { who := none, defs := df, fresh := false, stall := true }
      | some l =>
        if l ≤ SMap.get 0 df x then { who := some x, defs := SMap.upd 0 df x (· - l), fresh := false }
        else pickFrom elig empty quantum len xs df true
    else pickFrom elig empty quantum len xs (if empty x then SMap.set 0 df x 0 else df) true

/-- Members in ascending order from the current one, wrapping. -/
def fromCur (ms : List Nat) (cur : Nat) : List Nat := ms.filter (cur ≤ ·) ++ ms.filter (· < cur)

/-- The queues of a port's input: queue number and descriptor, ascending. -/
def State.inputQueues (s : State) (n p input : Nat) : List (Nat × Nat) :=
  ((s.qmList n s.epo.cur).filter (fun qd => qMode qd.2 == 2 && qPort qd.2 == p && qInput qd.2 == input)).map
    (fun qd => (16384 * n + qd.1, qd.2))

/-- The round within a group. -/
def State.pickQueue (s : State) (n p g : Nat) : Pick :=
  let qs := s.inputQueues n p (4 + g)
  let x := s.qport n p
  let df := qs.foldl (fun m qd => SMap.set 0 m qd.1 (s.qdyn qd.1).deficit) []
  pickFrom (fun q => s.eligible q (s.qdesc q)) (fun q => (s.qdyn q).msgs.all (·.done)) (fun q => qQuantum (s.qdesc q))
    (fun q => ((s.qdyn q).next).map (fun im => len1 (s.qdesc q) im.2)) (fromCur (qs.map (·.1)) (SMap.get 0 x.cur g)) df
    (!SMap.get false x.stuck g)

/-- The round over a port's groups; a group's head is the message that the round within it picks. -/
def State.pickGroup (s : State) (n p : Nat) : Pick :=
  let x := s.qport n p
  pickFrom (fun g => x.openAt s.ns (4 + g) && (s.inputQueues n p (4 + g)).any (fun qd => s.eligible qd.1 qd.2))
    (fun g => (s.inputQueues n p (4 + g)).all (fun qd => (s.qdyn qd.1).msgs.all (·.done)))
    (fun g => s.tab (bankOf s.epo.cur) 6 (qmFid n) 0 (16384 + 12 * p + g) % 2 ^ 16)
    (fun g => (s.pickQueue n p g).who.bind (fun q => ((s.qdyn q).next).map (fun im => im.2.len)))
    (fromCur (List.range 12) x.gcur) x.gdef x.gfresh

/-- What a round within group `g` leaves behind. -/
def State.keepPick (s : State) (n p g : Nat) (k : Pick) : State :=
  let s := k.defs.foldl (fun s (qv : Nat × Nat) => s.updQ qv.1 (fun x => { x with deficit := qv.2 })) s
  let s := (s.inputQueues n p (4 + g)).foldl (fun s qd =>
    if k.defs.any (fun kv => kv.1 == qd.1) then s else s.updQ qd.1 (fun x => { x with deficit := 0 })) s
  s.updPort n p (fun x => { x with
    cur := match k.who with | some q => SMap.set 0 x.cur g q | none => x.cur
    stuck := SMap.set false x.stuck g (!k.fresh) })

/-- A queue's next message is charged and takes a staging place, into which it is read (R249, R251, R256). -/
def State.stage (s : State) (n p queue input : Nat) : Option State :=
  let d := s.qdesc queue
  let x := s.qdyn queue
  match x.next with
  | none => none
  | some (j, m) =>
    let g : Staged := { queue := queue, slot := x.slot d j, input := input, slice := BitVec.ofNat 6 (qSlice d)
                        cons := BitVec.ofNat 10 (qCons d), len := m.len, job := (s.qmAt n).serial }
    let s := s.ringJob n { why := .stage p, queue := queue, mem := qMem d, slice := BitVec.ofNat 6 (qSlice d)
                           off := qRing d + x.slot d j * qSlot d, data := zeros m.len }
    let s := s.updQ queue (fun y => { y with bkt := y.bkt.charge s.tick (len1 d m)
                                             msgs := y.msgs.modify j (fun z => { z with out := true }) })
    some (s.updPort n p (fun y => { y with staged := y.staged ++ [g], bkt := y.bkt.charge s.tick m.len
                                           selAt := s.tick + 1 }))

/-- A port selects at most one message (R250, R251). -/
def State.portPick (s : State) (n p : Nat) : State :=
  let x := s.qport n p
  let e := s.tab (bankOf s.epo.cur) 6 (qmFid n) 0 (16480 + p)
  if ¬bitOf e 48 ∨ x.bkt.avail s.tick ≤ 0 ∨ 2 ≤ x.staged.length ∨ x.selAt = s.tick + 1 then s
  else
    let strict := (List.range 4).findSome? (fun i =>
      if x.openAt s.ns i then ((s.inputQueues n p i).find? (fun qd => s.eligible qd.1 qd.2)).map (fun qd => (i, qd.1)) else none)
    match strict with
    | some (i, q) => (s.stage n p q i).getD s
    | none =>
      let k := s.pickGroup n p
      let after (s : State) : State := s.updPort n p (fun y => { y with
        gdef := k.defs, gfresh := k.fresh, gcur := k.who.getD y.gcur })
      match k.who with
      | none =>
        if k.stall then (List.range 12).foldl (fun s g =>
          let j := s.pickQueue n p g
          if j.who.isNone ∧ (s.inputQueues n p (4 + g)).any (fun qd => s.eligible qd.1 qd.2) then s.keepPick n p g j else s) s
        else after s
      | some g =>
        let j := s.pickQueue n p g
        match j.who with
        | some q => match s.stage n p q (4 + g) with
          | some t => after (t.keepPick n p g j)
          | none => s
        | none => s

/-! ### Injection (R246, R251, R256) -/

/-- Flits of a staged message. -/
def Staged.flits (g : Staged) : Nat := (g.len + 63) / 64

/-- The delivery request of a staged message, in the domain of the manager. -/
def State.dlvPkt (s : State) (n : Nat) (g : Staged) (i : Nat) : Pkt :=
  s.ownSd (qmFid n) { net := .req, dst := g.cons, opc := 0x17, slice := g.slice, addr := BitVec.ofNat 52 g.queue,
                      txid := BitVec.ofNat 12 (16 * i) }

/-- The staged message of a port that can be injected now: the oldest that has been read and whose gate is open long enough; the
messages of one queue leave in their order (R246). -/
def State.injectable (s : State) (n p : Nat) : Option Staged :=
  let gs := (s.qport n p).staged
  gs.find? (fun g => g.ready && gs.find? (fun x => x.queue == g.queue) == some g && s.openFor n p g.input g.flits
    && s.streamRoom (qmFid n) (s.dlvPkt n g 0) && !s.pushStands g.queue)

/-- Ports in the order of their turns. -/
def Qm.turns (m : Qm) : List Nat := (List.range 8).map (fun i => (m.turn + 1 + i) % 8)

/-- A port whose turn it is injects one message (R246, R251). -/
def State.portInject (s : State) (n p : Nat) : State :=
  let m := s.qmAt n
  if s.tick < m.busy ∨ m.turns.find? (fun r => (s.injectable n r).isSome) ≠ some p then s
  else match s.injectable n p, s.freeIdx n with
    | some g, some i =>
      let f := qmFid n
      let q := s.dlvPkt n g i
      let t := s.streamTxid f q
      let v : Dlv := { queue := g.queue, slot := g.slot, txid := t, slice := g.slice, cons := g.cons, start := s.tick }
      let s := s.updQm n (fun m => { m with turn := p, busy := s.tick + g.flits, dlv := SMap.set none m.dlv i (some v) })
      let s := (s.updPort n p (fun x => { x with staged := x.staged.erase g })).ownTxid n t
      let s := (((s.bump .QM_P_TX_CNT (qmBase n) p).count f 66).count f 69 g.flits).count f (72 + p)
      s.sendOrdered f q [{ net := .dat, dst := g.cons, opc := 0x20, slice := g.slice, data := g.data, psn := g.bad,
                           be := BitVec.allOnes 64, len := BitVec.ofNat 3 (g.flits - 1) }]
    | _, _ => s

/-- PORT_SELECT: one FCLK of a port: a selection, and the injection of a staged message when it is the port's turn.  `table` and
`gate` are what the checks of the port's SHAPE and GATE entries find (R332, R338). -/
def execPortSelect (q : Fin 4) (p : Fin 8) (table gate : WordErr) (s : State) : Host.Outcome State Fault Refusal :=
  if ¬s.qmLive q then .next s
  else match s.tableCheck (fidUnit (qmFid q)) table with
    | (.uncorrectable, s) => .next (s.fenceNi (qmFid q))
    | (_, s) => match s.tableCheck (fidUnit (qmFid q)) gate with
      | (.uncorrectable, s) => .next (s.fenceNi (qmFid q))
      | (_, s) => .next ((s.portPick q p).portInject q p)

/-! ### Answers of consumers (R247, R248) -/

/-- HEAD moves over every done message at it (R247). -/
def QDyn.advance (x : QDyn) (d : Nat) : QDyn := x.drop d (x.msgs.takeWhile (·.done)).length

/-- The message of a slot changed. -/
def QDyn.atSlot (x : QDyn) (d slot : Nat) (g : QMsg → QMsg) : QDyn :=
  { x with msgs := x.msgs.zipIdx.map (fun mi => if x.slot d mi.2 = slot then g mi.1 else mi.1) }

/-- A delivery has been answered with a status (R247). -/
def State.delivered (s : State) (v : Dlv) (status : Nat) : State :=
  let n := qmOf v.queue
  let d := s.qdesc v.queue
  if status = 0 then
    let x := (s.qdyn v.queue).atSlot d v.slot (fun m => { m with done := true, out := false })
    let s := s.updQ v.queue (fun _ => x.advance d)
    match x.msgs with
    | m :: _ =>
      if m.done then s
      else match (x.msgs.zipIdx.find? (fun mi => x.slot d mi.2 == v.slot)) with
        | some (m, _) => s.ringJob n { why := .mark, queue := v.queue, mem := qMem d, slice := BitVec.ofNat 6 (qSlice d)
                                       off := qMeta d + 16 * v.slot, data := leBytes 16 m.word }
        | none => s
    | [] => s
  else if status = 0xA ∨ status = 3 then
    s.updQ v.queue (fun x => x.atSlot d v.slot (fun m => { m with
      out := false, retry := some (s.tick + max 1 (s.rf .QM_RETRY 0 16 (qmBase n))) }))
  else
    (s.updQ v.queue (fun x => { (x.atSlot d v.slot (fun m => { m with out := false })) with
      paused := true, cause := status })).queueEvent v.queue 2 status

/-- DELIVERY_COMP: the oldest Comp that has reached the manager. -/
def execDeliveryComp (q : Fin 4) (s : State) : Host.Outcome State Fault Refusal :=
  let f := qmFid q
  let n := s.nif f
  match n.inbox.find? (fun p => p.net == .rsp && !s.ringAnswers q p) with
  | none => .next s
  | some p =>
    if ¬s.qmLive q then .next s
    else
      let s := s.setNi f { n with inbox := n.inbox.erase p }
      let i := p.txid.toNat / 16
      match SMap.get none (s.qmAt q).dlv i with
      | some v =>
        if v.txid ≠ p.txid ∨ v.dead.isSome then .next (s.lateAnswer f)
        else
          let s := ((s.updQm q (fun m => { m with dlv := SMap.set none m.dlv i none })).freeTxid q v.txid).streamLeave f
            { net := .req, dst := v.cons }
          if v.stale then .next s else .next (s.delivered v p.status.toNat)
      | none => if n.own.contains p.txid then .next (s.freeTxid q p.txid) else .next (s.lateAnswer f)

/-- DELIVERY_RETRY: the delay of the first waiting message of a queue has passed; it may be selected again (R247). -/
def execDeliveryRetry (queue : BitVec 16) (s : State) : Host.Outcome State Fault Refusal :=
  let q := queue.toNat
  let due (m : QMsg) : Bool := match m.retry with | some t => decide (t ≤ s.tick) | none => false
  match (s.qdyn q).msgs.findIdx? due with
  | none => .next s
  | some j =>
    if ¬s.qmLive (qmOf q) then .next s
    else
      let s := s.updQ q (fun x => { x with msgs := x.msgs.modify j (fun m => { m with retry := none }) })
      .next ((s.bump .QM_RETRY_CNT (qmBase (qmOf q))).count (qmFid (qmOf q)) 67)

/-- The queue that QM_QSEL names. -/
def State.qSel (s : State) (n : Nat) : Nat := 16384 * n + s.rf .QM_QSEL 0 14 (qmBase n)

/-- QM_Q_CTRL.RESUME (R247). -/
def State.queueResume (s : State) (n : Nat) : State := s.updQ (s.qSel n) (fun x => { x with paused := false })

/-- QM_Q_RESUME. -/
def execQmQResume (q : Fin 4) (s : State) : Host.Outcome State Fault Refusal := .next (s.queueResume q)

/-! ### Token buckets (R253, R254) -/

/-- TOKEN_REFILL: every bucket of the die at once, in an FCLK whose die-wide count is a multiple of 1,024. -/
def execTokenRefill (s : State) : Host.Outcome State Fault Refusal :=
  if s.tim.c % 1024 ≠ 0 ∨ s.refillAt = s.tick + 1 then .next s
  else .next { s with
    refillAt := s.tick + 1
    que := SMap.mapVals {} (fun _ (x : QDyn) => { x with bkt := x.bkt.refill s.tick }) s.que
    qm := SMap.mapVals {} (fun _ (m : Qm) => { m with
      port := SMap.mapVals {} (fun _ (p : QPort) => { p with bkt := p.bkt.refill s.tick }) m.port }) s.qm }

/-- A field of a SHAPE entry written live, into both banks (R254). -/
def State.shapePut (s : State) (n idx lo v : Nat) : State :=
  [0, 1].foldl (fun s b => s.setTab b 6 (qmFid n) 0 idx (setFld (s.tab b 6 (qmFid n) 0 idx) lo 24 v)) s

/-- A write of QM_Q_RATE. -/
def State.queueRate (s : State) (n v : Nat) : State :=
  let q := s.qSel n
  (s.shapePut n (q % 16384) 192 (fld v 0 24)).updQ q (fun x => { x with bkt := x.bkt.putRate s.tick (fld v 0 24) })

/-- A write of QM_Q_BURST: the tokens are clamped at once. -/
def State.queueBurst (s : State) (n v : Nat) : State :=
  let q := s.qSel n
  (s.shapePut n (q % 16384) 216 (fld v 0 24)).updQ q (fun x => { x with bkt := x.bkt.putBurst s.tick (min (fld v 0 24) 0x7FFFFF) })

/-- A write of QM_P_RATE. -/
def State.portRate (s : State) (n p v : Nat) : State :=
  (s.shapePut n (16480 + p) 0 (fld v 0 24)).updPort n p (fun x => { x with bkt := x.bkt.putRate s.tick (fld v 0 24) })

/-- A write of QM_P_BURST. -/
def State.portBurst (s : State) (n p v : Nat) : State :=
  (s.shapePut n (16480 + p) 24 (fld v 0 24)).updPort n p (fun x => { x with bkt := x.bkt.putBurst s.tick (min (fld v 0 24) 0x7FFFFF) })

/-- QM_Q_RATE_WRITE. -/
def execQmQRateWrite (q : Fin 4) (value : BitVec 32) (s : State) : Host.Outcome State Fault Refusal :=
  .next (s.queueRate q value.toNat)

/-- QM_Q_BURST_WRITE. -/
def execQmQBurstWrite (q : Fin 4) (value : BitVec 32) (s : State) : Host.Outcome State Fault Refusal :=
  .next (s.queueBurst q value.toNat)

/-- QM_P_RATE_WRITE. -/
def execQmPRateWrite (q : Fin 4) (p : Fin 8) (value : BitVec 32) (s : State) : Host.Outcome State Fault Refusal :=
  .next (s.portRate q p value.toNat)

/-- QM_P_BURST_WRITE. -/
def execQmPBurstWrite (q : Fin 4) (p : Fin 8) (value : BitVec 32) (s : State) : Host.Outcome State Fault Refusal :=
  .next (s.portBurst q p value.toNat)

/-! ### Gates (R256, R257) -/

/-- GATE_ENTRY_CHANGE: fabric time has reached the end of the current entry. -/
def execGateEntryChange (q : Fin 4) (p : Fin 8) (s : State) : Host.Outcome State Fault Refusal :=
  let x := s.qport q p
  if x.op.ents.isEmpty ∨ s.ns < x.ends then .next s
  else
    let (k, e) := { x with pend := none }.entryNow s.ns
    .next (s.updPort q p (fun y => { y with entry := k, ends := e }))

/-- GATE_LIST_START: the pending list becomes operational at its start time, at entry 0. -/
def execGateListStart (q : Fin 4) (p : Fin 8) (s : State) : Host.Outcome State Fault Refusal :=
  match (s.qport q p).pend with
  | none => .next s
  | some (g, st) =>
    if s.ns < st then .next s
    else .next (s.updPort q p (fun x => { x with op := g, opS := st, pend := none, entry := 0
                                                 ends := st + ((g.ents.head?.map (·.2)).getD 0 : Nat) }))

/-! ### Sampling (R258, R259) -/

/-- QM_SAMPLE_CFG.PERIOD in nanoseconds. -/
def State.samplePeriod (s : State) (n : Nat) : Nat := 1000 * min 1000 (max 1 (s.rf .QM_SAMPLE_CFG 0 10 (qmBase n)))

/-- Records of the sample ring. -/
def State.sampleRing (s : State) (n : Nat) : Nat :=
  let l := s.rf .QM_SAMPLE_SIZE 0 5 (qmBase n)
  2 ^ (if 6 ≤ l ∧ l ≤ 16 then l else 6)

/-- A sample record is staged; four of them make a line, which goes into the ring. -/
def State.sampleRecord (s : State) (n r : Nat) : State :=
  let m := s.qmAt n
  let ls := m.lines ++ [r]
  if ls.length < 4 then s.updQm n (fun m => { m with lines := ls, wrote := m.wrote + 1 })
  else
    let b := qmBase n
    let i := s.rf .QM_SAMPLE_WPTR 0 16 b
    let w := s.rf .QM_SAMPLE_WPTR 16 16 b
    let size := s.sampleRing n
    let o := s.rf .QM_SAMPLE_BASE 6 19 b * 64 + 16 * (i % size)
    let s := s.updQm n (fun m => { m with lines := [], wrote := m.wrote + 1 })
    let s := s.ringJob n { why := .line, off := o, data := ls.flatMap (leBytes 16) }
    let j := i % size + 4
    ((if size ≤ j then s.setReg .QM_SAMPLE_WPTR (j % size + (w + 1) % 2 ^ 16 * 2 ^ 16) b
      else s.setReg .QM_SAMPLE_WPTR (j + w * 2 ^ 16) b)).count (qmFid n) 70

/-- Sampling is on and the manager runs. -/
def State.sampling (s : State) (n : Nat) : Bool :=
  s.rf .QM_SAMPLE_CFG 31 1 (qmBase n) == 1 && s.qmLive n && s.prim != .drain && s.prim != .quiesced

/-- SAMPLE_PERIOD_OPEN: the marker record, and the list of queues to visit. -/
def execSamplePeriodOpen (q : Fin 4) (s : State) : Host.Outcome State Fault Refusal :=
  let n := q.val
  let m := s.qmAt n
  if ¬s.sampling n ∨ s.ns % s.samplePeriod n ≠ 0 ∨ m.opened = some s.ns then .next s
  else
    let s := if m.visit.isEmpty then s else s.bump .QM_SAMPLE_SKIP (qmBase n) 0 m.visit.length
    let marker := nsOf s.ns + secOf s.ns % 2 ^ 48 * 2 ^ 32 + m.wrote % 2 ^ 16 * 2 ^ 80 + 2 ^ 126
    let qs := ((s.qmList n s.epo.cur).filter (fun qd => qSample qd.2)).map (fun qd => 16384 * n + qd.1)
    let s := s.updQm n (fun m => { m with opened := some s.ns, visit := qs, wrote := 0 })
    .next (s.sampleRecord n marker)

/-- The record of a queue (R259). -/
def State.queueRecord (s : State) (q : Nat) : Nat :=
  let x := s.qdyn q
  let delay := match x.msgs.head? with | some m => min (s.ns - m.ns).toNat 0xFFFFFFFF | none => 0
  q + min x.msgs.length 0xFFFF * 2 ^ 16 + (x.msgs.map (·.len)).sum % 2 ^ 32 * 2 ^ 32 + delay * 2 ^ 64 + x.paused.toNat * 2 ^ 96

/-- One FCLK of sampling at a manager: the next queue is visited. -/
def State.sampleVisit (s : State) (n : Nat) : State :=
  if ¬s.sampling n then s
  else match (s.qmAt n).visit with
    | [] => s
    | q :: rest => (s.updQm n (fun m => { m with visit := rest })).sampleRecord n (s.queueRecord q)

end Sys2Proof.Machine
end

