-- ==== Sys2Proof/Machine/Saffron.lean ====
section
/-! DEFINITION. The Saffron sequencer: reservations, admission, forwarding, completion in order (R126 to R133, R352). -/

namespace Sys2Proof.Machine

/-! ### Reservations (R128, R133) -/

/-- A SAF_ENT entry as written: MASTER, RESV, POOLMAX, VALID. -/
def State.safEnt (s : State) (i : Nat) : Nat := s.rf .SAF_ENTn 0 25 0 i

/-- MASTER of an entry. -/
def safMaster (e : Nat) : Nat := fld e 0 10
/-- RESV of an entry. -/
def safResv (e : Nat) : Nat := fld e 10 7
/-- POOLMAX of an entry. -/
def safPool (e : Nat) : Nat := fld e 17 7
/-- VALID of an entry. -/
def safValid (e : Nat) : Bool := bitOf e 24

/-- The 32 entries. -/
def State.safEnts (s : State) : List Nat := (List.range 32).map s.safEnt

/-- The masters able to issue SeqWr (R128). -/
def seqMaster (f : Nat) : Bool :=
  f < 0x80 || (0x110 ≤ f && f < 0x11C) || (0x120 ≤ f && f < 0x126) || (0x130 ≤ f && f < 0x160) || f == 0x180

/-- A set of entries and a default cap keep every limit of R128. -/
def safLegal (es : List Nat) (dflt : Nat) : Bool :=
  let vs := es.filter safValid
  let able := vs.filter (fun e => seqMaster (safMaster e))
  decide ((vs.map safResv).sum ≤ 96) && vs.any (fun e => safMaster e == 0x180 && decide (0 < safResv e))
    && vs.all (fun e => decide ((vs.filter (fun x => safMaster x == safMaster e)).length ≤ 1))
    && decide ((able.map safPool).sum + (195 - able.length) * dflt ≤ 256)

/-- RESV of a master. -/
def State.safResvOf (s : State) (f : Nat) : Nat :=
  match s.safEnts.find? (fun e => safValid e && safMaster e == f) with | some e => safResv e | none => 0

/-- Pool size: 96 minus the sum of RESV over the valid entries. -/
def State.safPoolSize (s : State) : Nat := 96 - ((s.safEnts.filter safValid).map safResv).sum

/-- Reserved slots that a master holds. -/
def Saf.reserved (x : Saf) (f : Nat) : Nat := (x.slots.filter (fun t => !t.pool && t.master.toNat == f)).length
/-- Pool slots held. -/
def Saf.poolUse (x : Saf) : Nat := (x.slots.filter (·.pool)).length
/-- Pool slots that a master holds. -/
def Saf.poolOf (x : Saf) (f : Nat) : Nat := (x.slots.filter (fun t => t.pool && t.master.toNat == f)).length
/-- Pool slots that a slice holds. -/
def Saf.poolOfSlice (x : Saf) (sl : Nat) : Nat := (x.slots.filter (fun t => t.pool && t.slice.toNat == sl)).length
/-- Credits outstanding. -/
def Saf.credits (x : Saf) : Nat := (x.given.map (·.2)).sum

/-- Slots that nothing holds: neither a request, nor a given credit, nor an expired entry held out of use (R118, R130). -/
def Saf.spare (x : Saf) : Nat := 96 - (x.slots.length + x.credits + x.dead.length)

/-- A master can be given credits: its interface is in service. -/
def State.safLive (s : State) (f : Nat) : Bool :=
  f == 0x180 || (s.epo.first && !s.niFenced f && (if isPartner f then (s.nif f).link == .up else true)
    && !((0x130 ≤ f && f < 0x160) && s.clusterFenced (f - 0x130)))

/-- A header of the program controller goes from the spine straight to Saffron, with a credit or without. -/
def State.spineSend (s : State) (q : Pkt) (credit : Bool) : State :=
  s.updNi 0x181 (fun n => { n with inbox := n.inbox ++ [{ q with df := credit }] })

/-- The waiting requests under FID 0x180 are sent: with a credit while there are any, else as pool headers while fewer than POOLMAX
are outstanding (R130). -/
def State.spineTry (s : State) : State :=
  (List.range s.saf.spine.length).foldl (fun s _ =>
    match s.saf.spine.find? (fun r => !r.sent) with
    | none => s
    | some r =>
      if 0 < (s.nif 0x180).safCred then
        ({ s with saf := { s.saf with spine := s.saf.spine.erase r } }.updNi 0x180 (fun n => { n with safCred := n.safCred - 1 })).spineSend
          r.req true
      else if (s.nif 0x180).safPool < s.safPoolmax 0x180 then
        ({ s with saf := { s.saf with spine := s.saf.spine.map (fun x => if x = r then { x with sent := true } else x) } }.updNi 0x180
          (fun n => { n with safPool := n.safPool + 1 })).spineSend r.req false
      else s) s

/-- A sequenced request of the program controller, which sits beside Saffron in the spine (R126). -/
def State.spineSeq (s : State) (p : Pkt) : State :=
  let r : SpineReq := { req := { p with net := .req, src := 0x180, dst := 0x181 }, since := s.tick }
  ({ s with saf := { s.saf with spine := s.saf.spine ++ [r] } } : State).spineTry

/-- CNT = 0x80 for a pool header under FID 0x180: it waits no more. -/
def State.spineGranted (s : State) (q : Pkt) : State :=
  match s.saf.spine.find? (fun r => r.sent && r.req.opc == q.opc && r.req.htid == q.htid) with
  | some r => ({ s with saf := { s.saf with spine := s.saf.spine.erase r } }.updNi 0x180
      (fun n => { n with safPool := n.safPool - 1 })).spineTry
  | none => s

/-- One credit handed out with CNT = 0x81; the program controller, beside Saffron in the spine, has it at once. -/
def State.safGive (s : State) (f : Nat) : State :=
  let s := { s with saf := { s.saf with given := SMap.upd 0 s.saf.given f (· + 1) } }
  if f = 0x180 then (s.updNi f (fun n => { n with safCred := n.safCred + 1 })).spineTry
  else s.send 0x181 { net := .rsp, dst := BitVec.ofNat 10 f, opc := 0x10, cnt := 0x81 }

/-- Reserved credits are handed out as slots free, to entries in index order (R133). -/
def State.safGrant (s : State) : State :=
  s.safEnts.foldl (fun s e =>
    let f := safMaster e
    if safValid e ∧ s.safLive f then
      (List.range (safResv e - (SMap.get 0 s.saf.given f + s.saf.reserved f))).foldl (fun s _ =>
        if 0 < s.saf.spare then s.safGive f else s) s
    else s) s

/-- Software's write to an entry, or its refusal as a whole. -/
def State.safEntPut (s : State) (n v : Nat) : State :=
  let e := fld v 0 25
  if safLegal ((List.range 32).map (fun i => if i = n then e else s.safEnt i)) (s.rf .SAF_POOLDEF 0 7) then
    (s.setRf .SAF_ENTn 0 25 e 0 n).safGrant
  else s.setRf .SAF_STATUS 30 1 1

/-- Software's write to the default cap, or its refusal. -/
def State.safPooldefPut (s : State) (v : Nat) : State :=
  if safLegal s.safEnts (fld v 0 7) then s.setRf .SAF_POOLDEF 0 7 (fld v 0 7) else s.setRf .SAF_STATUS 30 1 1

/-- SAF_ENT_WRITE. -/
def execSafEntWrite (n : Fin 32) (value : BitVec 32) (s : State) : Host.Outcome State Fault Refusal :=
  .next (s.safEntPut n value.toNat)

/-- SAF_POOLDEF_WRITE. -/
def execSafPooldefWrite (value : BitVec 32) (s : State) : Host.Outcome State Fault Refusal :=
  .next (s.safPooldefPut value.toNat)

/-! ### Admission (R127, R129, R130, R131) -/

/-- The freeze marker of a slice (R320), among the requests of the program controller. -/
def isMarker (q : Pkt) : Bool := q.src == 0x180 && q.rqfid == 1

/-- A request of the spine's own: an epoch-control message or a freeze marker, which carries no data. -/
def noData (q : Pkt) : Bool := q.opc == 0x1B || isMarker q

/-- Data of a request at Saffron. -/
def State.safData (s : State) (q : Pkt) : Option Pkt :=
  (s.nif 0x181).inbox.find? (fun p => p.net == .dat && p.src == q.src && p.txid == q.txid)

/-- Lowest free slot number. -/
def Saf.freeSlot (x : Saf) : Option Nat := 
  (List.range 96).find? (fun i => !x.slots.any (fun t => t.n == i) && SMap.get 0 x.dead i == 0)

/-- A slot replaced. -/
def State.setSlot (s : State) (t : SafSlot) : State :=
  { s with saf := { s.saf with slots := s.saf.slots.map (fun x => if x.n = t.n then t else x) } }

/-- The arm of a unit with a FID that no EpochCtl packet brings: Saffron's own; that of a fenced unit, whose networks discard
packets; and every one before the first switch, when no route exists (DEDUCED, log 31). -/
def State.armDirect (s : State) (u : UnitRef) : Bool :=
  !s.epo.first || u.id == 0x181 || s.niFenced u.id || (0xC0 ≤ u.id && u.id < 0x100 && s.homeFenced (u.id - 0xC0))
    || (isCluster u.id && s.clusterFenced (u.id - 0x130))

/-- The epoch-control message goes to every unit with a FID that has to acknowledge, as EpochCtl with the switch time (R38); each
packet has a TXID of its own beyond those of the slots (R48). -/
def State.sendArms (s : State) (t : SafSlot) : State :=
  (s.epo.missing.filter (fun u => !u.node && !s.armDirect u)).foldl (fun s u =>
    s.send 0x181 { net := .req, dst := BitVec.ofNat 10 u.id, opc := 0x1B, rlx := true, txid := BitVec.ofNat 12 (0x800 + u.id),
                   addr := t.req.addr }) s

/-- The denial of a forward at Saffron's check, recorded as at any checker (R207, R210). -/
def State.safDenied (s : State) (t : SafSlot) (cause entry : Nat) : State :=
  (s.denied 0x181 true t.master.toNat (some t.req.sd.toNat) 0x14 cause entry t.req.addr.toNat).setSlot
    { t with state := .done, status := 1, data := none }

/-- An admitted write is forwarded through Saffron's own ordered streams, or waits while its stream has 16 outstanding; the check is
in the bank of its forward, with the master's SD (R119, R127, R197, R207).  True: it has left its place in the order. -/
def State.safForward (s : State) (t : SafSlot) : Bool × State :=
  let q := t.req
  let ep := s.epOf 0x181
  let s := s.ruleEcc 0x181 ep q.slice.toNat q.addr.toNat 0x14
  match s.ruleCheck 4 ep q.slice.toNat q.addr.toNat 0x14 (some q.sd.toNat) with
  | .deny cause entry => (true, s.safDenied t cause entry)
  | .allow entry =>
    match s.direct 0x181 ep 0x14 q.addr.toNat entry with
    | none => (true, s.safDenied t 1 0x1FFF)
    | some d =>
      let f : Pkt := { net := .req, dst := BitVec.ofNat 10 d, opc := 0x14, slice := q.slice, sd := q.sd, addr := q.addr,
                       size := q.size, txid := BitVec.ofNat 12 (16 * t.n) }
      if ¬s.streamRoom 0x181 f then (false, s)
      else
        let s := s.setSlot { t with state := .forwarded, req := { q with txid := f.txid, dst := f.dst }, start := s.tick, data := none }
        (true, s.sendOrdered 0x181 f (match t.data with
          | some p => [{ net := .dat, dst := f.dst, opc := p.opc, slice := q.slice, data := p.data, be := p.be, psn := p.psn || t.bad }]
          | none => []))

/-- The admitted writes are forwarded in sequence order, up to the first whose stream has no room (R127). -/
def State.safForwards (s : State) : State :=
  ((sortOn (fun t : SafSlot => t.seq.getD 0) (s.saf.slots.filter (fun t => t.state == .admitted))).foldl
    (fun (acc : Bool × State) t => if acc.1 then acc.2.safForward t else acc) (true, s)).2

/-- An admitted request takes its sequence number and is forwarded in its turn; a word found uncorrectable goes out poisoned
(R127, R352). -/
def State.safAdmit (s : State) (t : SafSlot) (data : Option Pkt) (stored : WordErr) : State :=
  let (e, inj, s) := s.checkWord (fidUnit 0x181) 10 stored
  let s := match e with
    | .clean => s
    | .corrected => s.raiseSpine 28 5 0 (fidUnit 0x181) 0 inj
    | .uncorrectable => s.raiseSpine 28 5 1 (fidUnit 0x181) 0 inj
  let t := { t with seq := some s.saf.seq, bad := e == .uncorrectable, start := s.tick }
  let s := { s with saf := { s.saf with seq := (s.saf.seq + 1) % 2 ^ 64 } }.count 0x181 64
  if isMarker t.req then s.setSlot { t with state := .done }
  else if noData t.req then (s.setSlot { t with state := .forwarded }).sendArms t
  else (s.setSlot { t with state := .admitted, data := data }).safForwards

/-- A new slot for a request; none when every slot is held. -/
def State.safSlot (s : State) (q : Pkt) (pool : Bool) : Option (SafSlot × State) :=
  match s.saf.freeSlot with
  | none => none
  | some i =>
    let t : SafSlot := { n := i, master := q.src, pool := pool, slice := q.slice, txid := q.txid, req := q }
    some (t, { s with saf := { s.saf with slots := s.saf.slots ++ [t] } })

/-- A packet leaves Saffron's inbox. -/
def State.safTake (s : State) (p : Pkt) : State := s.updNi 0x181 (fun n => { n with inbox := n.inbox.erase p })

/-- A request comes with a credit: its master sent header and data together (R130).  The bit that tells it from a pool header stands
in DF, which REQ flit 0 does not have: the spec gives no such mark (DESIGN CHOICE, log 96). -/
def credited (q : Pkt) : Bool := q.df

/-- SAF_HEADER_ARRIVE: the data of a granted slot, or the oldest header, is taken: with a credit it is admitted, without one
it joins the admission queue. -/
def execSafHeaderArrive (stored : WordErr) (s : State) : Host.Outcome State Fault Refusal :=
  if s.prim = .halt then .next s
  else match s.saf.slots.findSome? (fun t => if t.state = .granted then (s.safData t.req).map (fun d => (t, d)) else none) with
  | some (t, d) => .next ((s.safTake d).safAdmit t (some d) stored)
  | none =>
    match (s.nif 0x181).inbox.find? (fun p => p.net == .req && (!credited p || noData p || (s.safData p).isSome)) with
    | none => .next s
    | some q =>
      if q.opc ≠ 0x14 ∧ ¬noData q then .next (((s.safTake q).raiseNi 0x181 6 1 q.txid.toNat).answer 0x181 q 9)
      else if credited q then
        match s.safSlot q false with
        | none => .next s
        | some (t, s) =>
          let s := { s with saf := { s.saf with given := SMap.upd 0 s.saf.given q.src.toNat (· - 1) } }
          match s.safData q with
          | some d => .next (((s.safTake q).safTake d).safAdmit t (some d) stored)
          | none => .next ((s.safTake q).safAdmit t none stored)
      else if 256 ≤ s.saf.admq.length then .next s
      else .next { (s.safTake q) with saf := { s.saf with admq := s.saf.admq ++ [q] } }

/-- A waiting header can be granted a pool slot (R130, R316). -/
def State.safCanGrant (s : State) (q : Pkt) : Bool :=
  let x := s.saf
  decide (0 < x.spare) && decide (x.poolUse < s.safPoolSize)
    && decide (x.poolOf q.src.toNat < s.safPoolmax q.src.toNat)
    && (q.src == 0x180 || !bitOf (s.sliceDef s.epo.cur q.slice.toNat) 0
        || decide (x.poolOfSlice q.slice.toNat < fld (s.sliceDef s.epo.cur q.slice.toNat) 8 7))

/-- SAF_POOL_GRANT: the oldest waiting header that can be granted gets CNT = 0x80; one without data is admitted at once. -/
def execSafPoolGrant (s : State) : Host.Outcome State Fault Refusal :=
  if s.prim = .halt then .next s
  else match s.saf.admq.find? s.safCanGrant with
  | none => .next s
  | some q =>
    match s.safSlot q true with
    | none => .next s
    | some (t, s) =>
      let s := { s with saf := { s.saf with admq := s.saf.admq.erase q } }
      if noData q then .next ((s.safAdmit t none .clean).spineGranted q)
      else .next (s.send 0x181 { net := .rsp, dst := q.src, opc := 0x10, txid := q.txid, slice := q.slice, cnt := 0x80 })

/-! ### Completion (R127, R129, R133) -/

/-- STATUS of a completion (R129): OK, but for the answers that have rules of their own: DENIED (R207), SLICE_RESET (R326),
UNSUPPORTED (R124) and POISON (R352; DEDUCED, log 99). -/
def SafSlot.comp (t : SafSlot) : BitVec 8 :=
  if t.bad then 6 else if t.status = 1 ∨ t.status = 4 ∨ t.status = 5 ∨ t.status = 6 then t.status else 0

/-- The completion of a slot leaves: it frees, and a reserved credit goes back while the reservation has room for it. -/
def State.safLeave (s : State) (t : SafSlot) : State :=
  let f := t.master.toNat
  let s := { s with saf := { s.saf with slots := s.saf.slots.filter (fun x => x.n != t.n) } }
  let back : Bool := !t.pool && decide (SMap.get 0 s.saf.given f + s.saf.reserved f < s.safResvOf f) && s.safLive f
  let s := if back then { s with saf := { s.saf with given := SMap.upd 0 s.saf.given f (· + 1) } } else s
  let s := if f = 0x180 then
      let s := if back then (s.updNi f (fun n => { n with safCred := n.safCred + 1 })).spineTry else s
      if isMarker t.req then { s with slc := SMap.upd {} s.slc t.req.htid.toNat (fun c => { c with marker := c.marker - 1 }) } else s
    else s.send 0x181 { net := .rsp, dst := t.master, opc := 0x10, txid := t.txid, slice := t.slice,
                        status := t.comp, cnt := if back then 1 else 0 }
  s.safGrant

/-- The slot whose completion is the next to leave. -/
def Saf.oldest (x : Saf) : Option SafSlot :=
  (sortOn (fun t : SafSlot => t.seq.getD 0) (x.slots.filter (fun t => t.seq.isSome))).head?

/-- An epoch-control message is complete once no unit's acknowledgement is missing (R38). -/
def State.epochDone (s : State) (t : SafSlot) : Bool := t.req.opc == 0x1B && s.epo.missing.isEmpty

/-- A target's answer marks its slot done; one to an EpochCtl packet is its unit's acknowledgement (R38). -/
def State.safAnswer (s : State) (p : Pkt) : State :=
  let s := s.safTake p
  if 0x800 ≤ p.txid.toNat then
    if p.status = 0 ∧ s.epo.t.any (fun t => decide (s.ns < t - 1000)) then { s with epo := { s.epo with missing := s.epo.missing.filter (· != fidUnit p.src.toNat) } } else s
  else match s.saf.slots.find? (fun t => t.n == p.txid.toNat / 16 && t.state == .forwarded && !noData t.req) with
  | some t => ((s.setSlot { t with state := .done, status := p.status }).streamLeave 0x181 { t.req with rlx := false }).safForwards
  | none => s.lateAnswer 0x181

/-- The oldest answer that waits at Saffron is taken. -/
def State.safAnswers (s : State) : State :=
  match (s.nif 0x181).inbox.find? (fun p => p.net == .rsp) with
  | some p => s.safAnswer p
  | none => s

/-- SAF_COMPLETE: a target's answer is taken, and the completion whose turn it is leaves. -/
def execSafComplete (s : State) : Host.Outcome State Fault Refusal :=
  if s.prim = .halt then .next s
  else match s.safAnswers.saf.oldest with
    | some t => if t.state = .done ∨ s.safAnswers.epochDone t then .next (s.safAnswers.safLeave t) else .next s.safAnswers
    | none => .next s.safAnswers

/-- SAF_WAIT_EXPIRE: a SeqWr has waited SAF_WAIT.LIMIT for a credit or a grant (R132); it keeps waiting. -/
def State.safWait (s : State) (f i : Nat) : State :=
  match s.srcEnt f i with
  | none => s
  | some e =>
    let limit := max 1 (s.rf .SAF_WAIT 0 20)
    if e.req.opc = 0x14 ∧ (e.state = .ready ∨ e.state = .poolWait ∨ e.state = .held) ∧ ¬e.waited ∧ e.since + limit ≤ s.tick then
      (((s.setSrc f i (some { e with waited := true })).bump .SAF_WAITCNT).count 0x181 67).raiseNi f 10 1
    else s

/-- The same for the requests under FID 0x180, which the spine reports. -/
def State.spineWait (s : State) (i : Nat) : State :=
  match s.saf.spine[i]? with
  | none => s
  | some r =>
    if ¬r.waited ∧ r.since + max 1 (s.rf .SAF_WAIT 0 20) ≤ s.tick then
      ((({ s with saf := { s.saf with spine := s.saf.spine.set i { r with waited := true } } } : State).bump .SAF_WAITCNT).count 0x181
        67).raiseNi 0x180 10 1
    else s

end Sys2Proof.Machine
end

