-- ==== Sys2Proof/Machine/Trackers.lean ====
section
/-! DEFINITION. The timers of the source trackers: pieces of partners and engine clusters, deliveries of the queue managers,
slots of Saffron (R118), and the wait limit of sequenced writes (R132). -/

namespace Sys2Proof.Machine

/-- A request of a source tracker has expired: counted, and TIMEOUT at L1 with its TXID. -/
def State.expired (s : State) (f txid : Nat) : State := ((s.bump .NI_TMO_CNT (niBase f)).count f 25).raiseNi f 9 1 txid

/-- An entry of a partner's or a cluster's tracker expires. -/
def State.pieceExpire (s : State) (f i : Nat) (e : SrcEnt) : State :=
  let s := s.expired f e.req.txid.toNat
  let sent : Bool := e.state == .issued || e.state == .poolWait
  let s := if sent then s.streamLeave f e.req else s
  let s := if e.state = .poolWait then s.updNi f (fun n => { n with safPool := n.safPool - 1 }) else s
  let s := if e.state = .held then s.updNi f (fun n => { n with hold := n.hold.filter (fun x => x.1.net != .req || x.1.txid.toNat / 16 != i) })
    else s
  let gone := some { e with state := .dead, trans := 0, since := s.tick, status := 7 }
  if e.lost ∨ e.squash ∨ e.trans = 0 then s.setSrc f i gone
  else if isCluster f then (s.setSrc f i gone).partDone (f - 0x130) e.trans e.off 7
  else if isCohAns e.req.opc.toNat then (s.cohError f i 7 (BitVec.ofNat 10 f)).setSrc f i gone
  else (s.setSrc f i (some { e with state := .dead, since := s.tick, status := 7 })).progress f e.trans

/-- A delivery expires: it is handled as one answered with TIMEOUT, and its entry is held (R118, R247). -/
def State.dlvExpire (s : State) (n i : Nat) (v : Dlv) : State :=
  let f := qmFid n
  let s := (s.expired f v.txid.toNat).streamLeave f { net := .req, dst := v.cons }
  let s := s.updQm n (fun m => { m with dlv := SMap.set none m.dlv i (some { v with stale := true, dead := some s.tick }) })
  if v.stale then s else s.delivered v 7

/-- A forwarded write expires at Saffron: it is done with TIMEOUT, and its number is held. -/
def State.slotExpire (s : State) (t : SafSlot) : State :=
  let s := ((s.expired 0x181 t.req.txid.toNat).setSlot { t with state := .done, status := 7 }).streamLeave 0x181
    { t.req with rlx := false }
  ({ s with saf := { s.saf with dead := SMap.set 0 s.saf.dead t.n (s.tick + 1) } } : State).safForwards

/-- SRC_TRACKER_EXPIRE. -/
def execSrcTrackerExpire (fid : Fid) (entry : BitVec 8) (s : State) : Host.Outcome State Fault Refusal :=
  let f := fid.toNat
  let i := entry.toNat
  let limit := s.trackLimit f
  if tracked f then
    match s.srcEnt f i with
    | none => .next s
    | some e => if !e.timed ∨ s.tick + 1 < e.start + limit then .next s else .next (s.pieceExpire f i e)
  else if 0x170 ≤ f ∧ f < 0x174 then
    match SMap.get none (s.qmAt (f - 0x170)).dlv i, SMap.get none (s.qmAt (f - 0x170)).ring i with
    | some v, _ => if v.dead.isSome ∨ s.tick < v.start + limit then .next s else .next (s.dlvExpire (f - 0x170) i v)
    | none, some e => if e.dead.isSome ∨ s.tick < e.start + limit then .next s else .next (s.ringExpire (f - 0x170) i e)
    | none, none => .next s
  else if f = 0x181 then
    match s.saf.slots.find? (fun t => t.n == i && t.state == .forwarded && !noData t.req) with
    | some t => if s.tick < t.start + limit then .next s else .next (s.slotExpire t)
    | none => .next s
  else if assigned f then .next s
  else .fault .noSuchUnit

/-- TRACKER_RELEASE: an expired entry whose hold of a further LIMIT has passed may be used again. -/
def execTrackerRelease (fid : Fid) (entry : BitVec 8) (s : State) : Host.Outcome State Fault Refusal :=
  let f := fid.toNat
  let i := entry.toNat
  let limit := s.trackLimit f
  if tracked f then
    match s.srcEnt f i with
    | none => .next s
    | some e => if e.state = .dead ∧ e.trans = 0 ∧ e.since + limit ≤ s.tick then .next (s.setSrc f i none) else .next s
  else if 0x170 ≤ f ∧ f < 0x174 then
    let n := f - 0x170
    let past (t : Option Nat) : Bool := t.any (fun t => decide (t + limit ≤ s.tick))
    match SMap.get none (s.qmAt n).dlv i, SMap.get none (s.qmAt n).ring i with
    | some v, _ =>
      if past v.dead then .next ((s.updQm n (fun m => { m with dlv := SMap.set none m.dlv i none })).freeTxid n v.txid) else .next s
    | none, some e =>
      if past e.dead then .next ((s.updQm n (fun m => { m with ring := SMap.set none m.ring i none })).freeTxid n e.txid) else .next s
    | none, none => .next s
  else if f = 0x181 then
    let t := SMap.get 0 s.saf.dead i
    if t ≠ 0 ∧ t + limit ≤ s.tick + 1 then .next { s with saf := { s.saf with dead := SMap.set 0 s.saf.dead i 0 } } else .next s
  else if assigned f then .next s
  else .fault .noSuchUnit

/-- SAF_WAIT_EXPIRE. -/
def execSafWaitExpire (fid : Fid) (entry : BitVec 8) (s : State) : Host.Outcome State Fault Refusal :=
  let f := fid.toNat
  if tracked f then .next (s.safWait f entry.toNat)
  else if f = 0x180 then .next (s.spineWait entry.toNat)
  else if assigned f then .next s
  else .fault .noSuchUnit

end Sys2Proof.Machine
end

