-- ==== Sys2Proof/Machine/Slices.lean ====
section
/-! DEFINITION. Slice control: freeze, thaw, reset, save, restore, resizing (R316 to R330). -/

namespace Sys2Proof.Machine

/-! ### State and events (R316, R320, R328, R329) -/

/-- A slice's record changed. -/
def State.updSlc (s : State) (sl : Nat) (g : Slc → Slc) : State := { s with slc := SMap.upd {} s.slc sl g }

/-- SLC_STATUS.STATE: 0 OFF, 1 ACTIVE, 2 FREEZING, 3 FROZEN, 4 RESETTING. -/
def State.slcState (s : State) (sl : Nat) : Nat :=
  if ¬s.sliceOn sl then 0
  else match (s.slice sl).mode with | .active => 1 | .freezing => 2 | .frozen => 3 | .resetting => 4

/-- The entry counts in SLC_TRK: a non-exempt transaction of the slice, not in the out-of-use hold (R328). -/
def counts (f sl : Nat) (e : SrcEnt) : Bool :=
  e.state != .dead && e.req.slice.toNat == sl && !sliceExempt f e.req.opc.toNat

/-- Deliveries of a slice's queues that a manager has outstanding. -/
def Qm.dlvOf (m : Qm) (sl : Nat) : List (Nat × Dlv) :=
  m.dlv.filterMap (fun iv => match iv.2 with
    | some v => if v.slice.toNat = sl ∧ v.dead.isNone then some (iv.1, v) else none
    | none => none)

/-- Pieces of ring accesses of a slice's queues that a manager has outstanding. -/
def Qm.ringOf (m : Qm) (sl : Nat) : List (Nat × RingEnt) :=
  m.ring.filterMap (fun ie => match ie.2 with
    | some e => if e.slice.toNat = sl ∧ e.dead.isNone then some (ie.1, e) else none
    | none => none)

/-- SLC_TRK (R328). -/
def State.slcTrk (s : State) (sl : Nat) : Nat :=
  (s.ni.map (fun fn => (fn.2.ents.filter (fun ie => counts fn.1 sl ie.2)).length)).sum
    + ((List.range 4).map (fun n => ((s.qmAt n).dlvOf sl).length + ((s.qmAt n).ringOf sl).length)).sum

/-- SLC_TMO.US in FCLK; 0 acts as 1. -/
def State.slcTmo (s : State) (sl : Nat) : Nat := usTicks (max 1 (s.rf .SLC_TMO 0 16 (slcBase sl)))

/-- GLB_MODE.FREEZE returns to 0 when no slice is FROZEN or FREEZING (R322). -/
def State.freezeEnd (s : State) : State :=
  if s.slc.any (fun kx => kx.2.mode == .freezing || kx.2.mode == .frozen) then s else { s with freeze := false }

/-- A command is ignored: CMDREJ (R323). -/
def State.slcReject (s : State) (sl : Nat) : State := s.setRf .SLC_STATUS 3 1 1 (slcBase sl)

/-! ### Threads (R320, R322, R327) -/

/-- A thread that stands still: HALT without a trap capture, its state kept for its return. -/
def Thr.stand (x : Thr) : Thr :=
  if x.st = .off ∨ x.st = .halt then x else { x with st := .halt, held := some x.st }

/-- A thread that stood still goes on; one that waited for what has come meanwhile is ready. -/
def Thr.goOn (x : Thr) (woken : Bool) : Thr :=
  match x.held with
  | none => x
  | some st =>
    let ready : Bool := (st == .park && x.parkOn.isEmpty) || (st == .wait && x.until_.isNone && woken)
    { x with st := if ready then .ready else st, held := none }

/-- Every thread of the die for which `ok` holds, changed. -/
def State.mapThreads (s : State) (ok : Thr → Bool) (g : Nat → Nat → Thr → Thr) : State :=
  { s with ecl := SMap.mapVals {} (fun k (c : Ecl) =>
      { c with thr := SMap.mapVals {} (fun i (x : Thr) => if ok x then g k i x else x) c.thr }) s.ecl }

/-- EVENT is pending. -/
def Thr.event (x : Thr) : Thr := { x with ipend := x.ipend ||| 4 }

/-- A thread restarted at the ENTRY of its entry with g1 to g31 zero and EVENT pending (R289, R327). -/
def Thr.restart (x : Thr) (entry : Nat) : Thr :=
  ({ x with st := .ready, regs := [], ready := [], pc := fld entry 0 14, ie := false, intrap := false, until_ := none,
            parkOn := [], parked := false, due := none, held := none } : Thr).event

/-! ### Freeze and thaw (R320 to R322) -/

/-- FREEZE of an ACTIVE slice. -/
def State.slcFreeze (s : State) (sl : Nat) : State :=
  let s := s.updSlc sl (fun c => { c with mode := .freezing, at_ := s.tick, stuck := false, saved := false, marker := c.marker + 1 })
  let s := s.mapThreads (fun x => x.slice.toNat == sl) (fun _ _ x => x.stand)
  s.spineSeq { net := .req, opc := 0x14, tc := 1, rqfid := 1, htid := BitVec.ofNat 8 sl }

/-- THAW of a FROZEN slice. -/
def State.slcThaw (s : State) (sl : Nat) : State :=
  let s := s.updSlc sl (fun c => { c with mode := .active })
  let s := (s.que.filter (fun kx => kx.2.reload)).foldl (fun s kx =>
    if (s.queueOwner kx.1).map (·.1) = some sl then s.reloadQueue kx.1 else s) s
  let stand : Bool := s.stands sl
  let t := (List.range 1536).foldl (fun s n =>
    let k := n / 32
    let i := n % 32
    let x := s.thr k i
    if x.slice.toNat = sl ∧ bitOf (s.thrEntry k x.tep i) 20 then
      s.setThr k i (if stand then x.event else x.event.goOn (s.recvBind k i).isSome)
    else s) s
  t.freezeEnd.sliceEvent sl 0x22 0

/-! ### Reset (R326, R327) -/

/-- RESET: the slice refuses its requests from 64 FCLK on, and its threads stop. -/
def State.slcReset (s : State) (sl : Nat) : State :=
  let s := s.updSlc sl (fun c => { c with mode := .resetting, at_ := s.tick, squashed := false, saving := none, restoring := false })
  let s := s.setReg .SLC_SQUASH 0 (slcBase sl)
  (s.mapThreads (fun x => x.slice.toNat == sl) (fun _ _ x => x.stand)).freezeEnd

/-- A piece is squashed: it completes with SLICE_RESET, and its entry stays until its answer comes if it was sent. -/
def State.squashPiece (s : State) (f i : Nat) (e : SrcEnt) : State :=
  let sent : Bool := e.state == .issued || e.state == .poolWait
  if isCluster f then
    (s.setSrc f i (if sent then some { e with squash := true, trans := 0 } else none)).partDone (f - 0x130) e.trans e.off 4
  else if sent then s.setSrc f i (some { e with squash := true, status := 4 })
  else s.setSrc f i (some { e with state := .answered, status := 4 })

/-- Every entry of an interface that holds a non-exempt transaction of the slice is squashed. -/
def State.squashNi (s : State) (f sl : Nat) : State :=
  let es := (s.nif f).ents.filter (fun ie => counts f sl ie.2 && !ie.2.squash && ie.2.state != .answered)
  let s := s.bump .SLC_SQUASH (slcBase sl) 0 es.length
  let s := es.foldl (fun s ie => s.squashPiece f ie.1 ie.2) s
  if isCluster f then s else (es.map (fun ie => ie.2.trans)).eraseDups.foldl (fun s t => s.progress f t) s

/-- The drain timeout (R326 step 3). -/
def State.slcSquash (s : State) (sl : Nat) : State :=
  let s := s.updSlc sl (fun c => { c with squashed := true })
  let s := (SMap.keys s.ni).foldl (fun s f => if tracked f then s.squashNi f sl else s) s
  let s := (List.range 4).foldl (fun s n =>
    let vs := ((s.qmAt n).dlvOf sl).filter (fun iv => !iv.2.stale)
    let s := s.bump .SLC_SQUASH (slcBase sl) 0 vs.length
    let s := s.updQm n (fun m => { m with dlv := vs.foldl (fun d iv => SMap.set none d iv.1 (some { iv.2 with stale := true })) m.dlv })
    let es := ((s.qmAt n).ringOf sl).filter (fun ie => !ie.2.stale)
    es.foldl (fun s ie => s.ringSquash n ie.1 ie.2) (s.bump .SLC_SQUASH (slcBase sl) 0 es.length)) s
  let gone := s.saf.admq.filter (fun q => q.src != 0x180 && q.slice.toNat == sl)
  let s := { s with saf := { s.saf with admq := s.saf.admq.filter (fun q => !gone.contains q) } }
  gone.foldl (fun s q => s.send 0x181 { compFor q 4 with cnt := 0 }) s

/-- The queues of a slice's range that hold anything. -/
def State.sliceQueues (s : State) (sl : Nat) : List Nat :=
  (SMap.keys s.que).filter (fun q => (s.queueOwner q).map (·.1) == some sl)

/-- The thread entries of a bank that belong to a slice: cluster and thread, ascending. -/
def State.sliceThreads (s : State) (ep : Bool) (sl : Nat) : List (Nat × Nat) :=
  (List.range 1536).filterMap (fun t =>
    let e := s.thrEntry (t / 32) ep (t % 32)
    if bitOf e 20 ∧ fld e 14 6 = sl then some (t / 32, t % 32) else none)

/-- A counter bank cleared, with its overflow marks (R327, R386). -/
def State.clearBank (s : State) (b : Nat) : State :=
  let s := { s with ctr := s.ctr.filter (fun kv => kv.1 / 128 != b) }
  (List.range 128).foldl (fun s i => if s.rf .CTR_STAT 0 1 (ctrBase b) i = 1 then s.setRf .CTR_STAT 0 1 0 (ctrBase b) i else s) s

/-- The slice's state is reset, with the registers that a slice reset reaches (R11), and the slice becomes ACTIVE (R327). -/
def State.slcClear (s : State) (sl : Nat) : State :=
  let s := (s.sliceQueues sl).foldl (fun s q => (s.discardQueue q).updQ q (fun x =>
    { x with head := 0, tail := 0, paused := false, cause := 0, armed := true, reload := false })) s
  let s := (s.sliceThreads s.epo.cur sl).foldl (fun s ki => (s.adoptIdle ki.1 ki.2).updThr ki.1 ki.2 (fun x =>
    let y := x.restart (s.thrEntry ki.1 s.epo.cur ki.2)
    if s.prim = .drain ∨ s.prim = .quiesced then y.stand else y)) s
  let s := (s.sliceThreads s.epo.cur sl).foldl (fun s ki => [Reg.ENG_T_CAUSE, .ENG_T_TADDR_LO, .ENG_T_TADDR_HI].foldl
    (fun s r => s.putWord r 0 (engBase (4 * ki.1 + ki.2 / 8)) (ki.2 % 8)) s) s
  let s := (s.clearBank (0x300 + sl)).putWord .SLC_STATUS 0 (slcBase sl)
  let s := s.updSlc sl (fun c => { marker := c.marker })
  s.freezeEnd.sliceEvent sl 0x23 (s.reg .SLC_SQUASH (slcBase sl))

/-! ### Save (R324) -/

/-- Base of the save area. -/
def State.saveBase (s : State) (sl : Nat) : Nat :=
  s.reg .SLC_SAVE_LO (slcBase sl) * 2 ^ 12 + s.rf .SLC_SAVE_HI 0 8 (slcBase sl) * 2 ^ 44

/-- A queue record. -/
def State.queueSave (s : State) (q : Nat) : List Byte :=
  let d := s.qdesc q
  let x := s.qdyn q
  leBytes 32 (x.head % 2 ^ 16 + x.tail % 2 ^ 16 * 2 ^ 16 + (BitVec.ofInt 32 x.bkt.tokens).toNat * 2 ^ 32 + x.deficit % 2 ^ 32 * 2 ^ 64
    + x.paused.toNat * 2 ^ 96 + x.cause * 2 ^ 97 + fld d 132 2 * 2 ^ 105 + qLog d * 2 ^ 107 + x.head / 2 ^ 16 % 2 * 2 ^ 112
    + x.tail / 2 ^ 16 % 2 * 2 ^ 113)

/-- A thread record. -/
def Thr.save (x : Thr) (t : Fin 1536) : List Byte :=
  (List.range 31).flatMap (fun r => leBytes 8 (x.reg (r + 1)).toNat)
    ++ leBytes 8 (x.pc + (x.held.getD x.st).code * 2 ^ 16)
    ++ ([2, 3, 4, 5, 6, 7, 8, 9] : List Nat).flatMap (fun n => leBytes 8 (x.tcr t n).toNat)

/-- A list of bytes padded with zeros to a multiple of 64. -/
def pad64 (bs : List Byte) : List Byte := bs ++ zeros ((64 - bs.length % 64) % 64)

/-- A save area without its trailer. -/
def State.saveBody (s : State) (sl : Nat) : List Byte :=
  let d := s.sliceDef s.epo.cur sl
  let ths := s.sliceThreads s.epo.cur sl
  leBytes 4 0x45434C53 ++ leBytes 2 1 ++ leBytes 1 sl ++ [0] ++ leBytes 4 (fld d 32 17) ++ leBytes 4 ths.length
    ++ leBytes 8 s.prg.progId
    ++ leBytes 8 (nsOf s.ns + secOf s.ns % 2 ^ 32 * 2 ^ 32) ++ zeros 32
    ++ pad64 ((List.range (fld d 32 17)).flatMap (fun i => s.queueSave (fld d 16 16 + i)))
    ++ ths.flatMap (fun ki => (s.thr ki.1 ki.2).save (Fin.ofNat 1536 (32 * ki.1 + ki.2)))

/-- A save area. -/
def withTrailer (body : List Byte) : List Byte := body ++ leBytes 4 (crc32c body).toNat ++ zeros 60

/-- SAVE of a FROZEN slice: the area as it is written. -/
def State.slcSave (s : State) (sl : Nat) : State :=
  let area := withTrailer (s.saveBody sl)
  s.updSlc sl (fun c => { c with saving := some area.length, area := area })

/-- One piece of a spine unit's own access to memory, in SD0: the precheck at the central table and the check at its target; a denial
is recorded (R207). -/
def State.spineCheck (s : State) (f pa opc : Nat) : Bool × State :=
  let ep := s.epOf f
  let s := s.ruleEcc f ep 0 pa opc
  match s.ruleCheck (checkerOf f) ep 0 pa opc (some 0) with
  | .deny cause entry => (false, s.denied f true f (some 0) opc cause entry pa)
  | .allow entry =>
    let d := (s.direct f ep opc pa entry).getD 0x3FE
    if ¬checksRule d then (true, s)
    else
      let s := s.ruleEcc d ep 0 pa opc
      match s.ruleCheck (checkerOf d) ep 0 pa opc (some 0) with
      | .deny cause entry => (false, s.denied d false f (some 0) opc cause entry pa)
      | .allow _ => (true, s)

/-- The accesses of spine unit `f` to an area of host memory are allowed, page by page (R208, R324, R380, R414). -/
def State.areaOk (s : State) (f base len opc : Nat) : Bool × State :=
  (List.range ((len + 4095) / 4096)).foldl (fun (r : Bool × State) i => if r.1 then r.2.spineCheck f (base + 4096 * i) opc else r)
    (true, s)

/-- SAVE_DONE: the writes are answered; `status` is the first non-zero STATUS among them, or 0. -/
def execSaveDone (sl : Fin 64) (status : BitVec 8) (s : State) : Host.Outcome State Fault Refusal :=
  match (s.slice sl).saving with
  | none => .next s
  | some len =>
    let (ok, s) := s.areaOk 0x180 (s.saveBase sl) len 0x13
    if ok ∧ status = 0 then
      .next ((s.updSlc sl (fun c => { c with saving := none, saved := true, err := 0 })).sliceEvent sl 0x24 len)
    else .next ((s.updSlc sl (fun c => { c with saving := none, err := 3 })).sliceEvent sl 0x25 3)

/-! ### Restore (R325) -/

/-- The little-endian number of `n` bytes of an area. -/
def areaNat (a : List Byte) (off n : Nat) : Nat := leNat ((a.drop off).take n)

/-- Offset of the trailer of an area with these counts. -/
def trailerAt (qc tc : Nat) : Nat := 64 + (32 * qc + 63) / 64 * 64 + 320 * tc

/-- What the checks of an area find: 0, or ERR. -/
def State.restoreErr (s : State) (sl : Nat) (a : List Byte) : Nat :=
  let d := s.sliceDef s.epo.cur sl
  let qc := areaNat a 8 4
  let tc := areaNat a 12 4
  let e := trailerAt qc tc
  if areaNat a 0 4 ≠ 0x45434C53 ∨ areaNat a 4 2 ≠ 1 ∨ a.length < e + 64 ∨ (crc32c (a.take e)).toNat ≠ areaNat a e 4 then 1
  else if qc ≠ fld d 32 17 ∨ tc ≠ (s.sliceThreads s.epo.cur sl).length
      ∨ (List.range qc).any (fun i =>
        let w := areaNat a (64 + 32 * i) 32
        let t := s.qdesc (fld d 16 16 + i)
        fld w 105 2 != fld t 132 2 || fld w 107 5 != qLog t) then 2
  else 0

/-- A queue record applied. -/
def QDyn.load (x : QDyn) (w : Nat) : QDyn :=
  { x with head := fld w 0 16 + fld w 112 1 * 2 ^ 16, tail := fld w 16 16 + fld w 113 1 * 2 ^ 16
           bkt := { x.bkt with tokens := clampTokens (BitVec.ofNat 32 (fld w 32 32)).toInt x.bkt.burst, at_ := 0 }, deficit := fld w 64 32
           paused := bitOf w 96, cause := fld w 97 8, reload := true }

/-- A thread record applied: a waiting thread executes its RECV or WAITT again after the thaw. -/
def Thr.load (x : Thr) (a : List Byte) : Thr :=
  let w := areaNat a 248 8
  let code := fld w 16 3
  let t (n : Nat) : Word64 := BitVec.ofNat 64 (areaNat a (256 + 8 * n) 8)
  let b (i : Nat) : Bool := (t 0).getLsbD i
  { x with
    regs := (List.range 31).foldl (fun m r => SMap.set 0 m (r + 1) (BitVec.ofNat 64 (areaNat a (8 * r) 8))) []
    ready := [], pc := fld w 0 14, st := if code = 0 then .off else .halt
    held := if 1 ≤ code ∧ code ≤ 3 then some .ready else none
    ie := b 0, pie := b 1, intrap := b 2, dovf := b 4, dz := b 5, ien := (t 1).toNat % 8, ipend := (t 2).toNat % 8
    epc := (t 3).toNat % 2 ^ 14, cause := (t 4).toNat % 2 ^ 16, taddr := t 5, tvec := (t 6).toNat % 2 ^ 14, tvld := (t 6).getLsbD 14
    scratch := t 7, until_ := none, parkOn := [], parked := false }

/-- A good area applied to the FROZEN slice. -/
def State.restore (s : State) (sl : Nat) (a : List Byte) : State :=
  let d := s.sliceDef s.epo.cur sl
  let qc := fld d 32 17
  let s := (List.range qc).foldl (fun s i => s.updQ (fld d 16 16 + i) (fun x => x.load (areaNat a (64 + 32 * i) 32))) s
  let base := 64 + (32 * qc + 63) / 64 * 64
  (s.sliceThreads s.epo.cur sl).zipIdx.foldl (fun s kj =>
    s.updThr kj.1.1 kj.1.2 (fun x => x.load (a.drop (base + 320 * kj.2)))) s

/-- RESTORE_DONE: the reads are answered with the area; `status` is the first non-zero STATUS among them, or 0. -/
def execRestoreDone (sl : Fin 64) (area : List Byte) (status : BitVec 8) (s : State) : Host.Outcome State Fault Refusal :=
  if ¬(s.slice sl).restoring then .next s
  else
    let (ok, s) := s.areaOk 0x180 (s.saveBase sl) area.length 0x12
    let err := if ¬ok ∨ status ≠ 0 then 3 else s.restoreErr sl area
    let s := s.updSlc sl (fun c => { c with restoring := false, err := err })
    if err = 0 then .next ((s.restore sl area).sliceEvent sl 0x26 0) else .next (s.sliceEvent sl 0x27 err)

/-! ### Commands (R323) -/

/-- A write of SLC_CTRL: RESET before FREEZE, THAW, SAVE and RESTORE; what is not allowed, or not the first, is ignored. -/
def State.slcCtrl (s : State) (sl v : Nat) : State :=
  let w := fld v 0 5
  let m := s.slcState sl
  let busy : Bool := (s.slice sl).saving.isSome || (s.slice sl).restoring
  if w = 0 then s
  else
    let (ok, t) : Bool × State :=
      if bitOf w 2 then (decide (1 ≤ m ∧ m ≤ 3), s.slcReset sl)
      else if bitOf w 0 then (m == 1, s.slcFreeze sl)
      else if bitOf w 1 then (m == 3, s.slcThaw sl)
      else if bitOf w 3 then (m == 3 && !busy, s.slcSave sl)
      else (m == 3 && !busy, s.updSlc sl (fun c => { c with restoring := true }))
    if ¬ok then s.slcReject sl
    else if popCount 5 w = 1 then t else t.slcReject sl

/-- SLC_FREEZE. -/
def execSlcFreeze (sl : Fin 64) (s : State) : Host.Outcome State Fault Refusal := .next (s.slcCtrl sl 1)

/-- SLC_THAW. -/
def execSlcThaw (sl : Fin 64) (s : State) : Host.Outcome State Fault Refusal := .next (s.slcCtrl sl 2)

/-- SLC_RESET. -/
def execSlcReset (sl : Fin 64) (s : State) : Host.Outcome State Fault Refusal := .next (s.slcCtrl sl 4)

/-- SLC_SAVE. -/
def execSlcSave (sl : Fin 64) (s : State) : Host.Outcome State Fault Refusal := .next (s.slcCtrl sl 8)

/-- SLC_RESTORE. -/
def execSlcRestore (sl : Fin 64) (s : State) : Host.Outcome State Fault Refusal := .next (s.slcCtrl sl 16)

/-- SLICE_FROZEN: the marker has completed and SLC_TRK reads 0 (R320). -/
def execSliceFrozen (sl : Fin 64) (s : State) : Host.Outcome State Fault Refusal :=
  let c := s.slice sl
  if c.mode ≠ .freezing ∨ c.marker ≠ 0 ∨ s.slcTrk sl ≠ 0 then .next s
  else .next (({ (s.updSlc sl (fun c => { c with mode := .frozen })) with freeze := true } : State).sliceEvent sl 0x20 0)

/-- FREEZE_STUCK (R321). -/
def execFreezeStuck (sl : Fin 64) (s : State) : Host.Outcome State Fault Refusal :=
  let c := s.slice sl
  if c.mode ≠ .freezing ∨ c.stuck ∨ s.tick < c.at_ + s.slcTmo sl then .next s
  else .next (((s.updSlc sl (fun c => { c with stuck := true })).raiseSpine 28 9 1 (fidUnit 0x180) sl).sliceEvent sl 0x21 0)

/-- SLICE_RESET_SQUASH (R326). -/
def execSliceResetSquash (sl : Fin 64) (s : State) : Host.Outcome State Fault Refusal :=
  let c := s.slice sl
  if c.mode ≠ .resetting ∨ c.squashed ∨ s.tick < c.at_ + s.slcTmo sl ∨ s.slcTrk sl = 0 then .next s
  else .next (s.slcSquash sl)

/-- SLICE_RESET_CLEAR (R326, R327). -/
def execSliceResetClear (sl : Fin 64) (s : State) : Host.Outcome State Fault Refusal :=
  if (s.slice sl).mode ≠ .resetting ∨ s.slcTrk sl ≠ 0 then .next s else .next (s.slcClear sl)

/-- SLC_QLIVE is written (R318). -/
def State.qliveWrite (s : State) (sl v : Nat) : State := s.setRf .SLC_QLIVE 0 17 v (slcBase sl)

/-- SLC_QLIVE_WRITE (R318). -/
def execSlcQliveWrite (sl : Fin 64) (value : BitVec 32) (s : State) : Host.Outcome State Fault Refusal :=
  .next (s.qliveWrite sl value.toNat)

/-- The slices at an epoch switch: one without a definition in the new bank is OFF (R316, R319). -/
def State.slcSwitch (s : State) : State :=
  ({ s with slc := SMap.mapVals {} (fun sl (c : Slc) => if s.sliceOn sl then c else { marker := c.marker }) s.slc } : State).freezeEnd

end Sys2Proof.Machine
end

