-- ==== Sys2Proof/Machine/PowerOps.lean ====
section
/-! DEFINITION. The parts of the power controller: domains and their units, requests, the handshake, commit and wake
(R359 to R381). -/

namespace Sys2Proof.Machine

/-! ### Domains (R359) -/

/-- Quadrant of a quadrant domain. -/
def domQuad (d : Nat) : Nat := (d - 2) / 4
/-- Place of a quadrant domain in the quadrant mask: 0 NET, 1 HOME, 2 ENG, 3 SSB. -/
def domBit (d : Nat) : Nat := (d - 2) % 4

/-- Domains of a quadrant mask (R361). -/
def maskDoms (q m : Nat) : List Nat := ((List.range 4).filter (bitOf m)).map (fun i => 2 + 4 * q + i)

/-- The units that the controller asks in a domain (R359, R366). -/
def domUnits (d : Nat) : List UnitRef :=
  if d = 0 then []
  else if d = 1 then (allFids.filter (fun f => (quadOf f).isNone)).map fidUnit
  else
    let q := domQuad d
    if domBit d = 0 then
      ((List.range 36).map (fun i => nodeUnit (36 * q + i))) ++ (allFids.filter (fun f => quadOf f == some q)).map fidUnit
    else (allFids.filter (fun f => unitDomain f == d)).map fidUnit

/-- Power domain of an entry's unit in a table of structural state: routers and interfaces lie in NET, other units in their
own domain; the central rule table is in the spine (R359). -/
def tabDomain (table unit : Nat) : Nat :=
  if table = 0 ∨ table = 2 ∨ (table = 3 ∧ unit < 144) then 2 + 4 * (unit / 36)
  else if table = 5 then (if unit < 4 then 2 + 4 * unit else 1)
  else if table = 3 ∨ table = 9 then unitDomain unit
  else match quadOf unit with | some q => 2 + 4 * q | none => 1

/-- Key in `ownEp` of the unit that holds a table: a router, an interface, or the home, bank node or cluster behind one, whose
domain is its own (R39). -/
def tabHolder (table unit : Nat) : Nat :=
  if table = 0 ∨ table = 2 ∨ (table = 3 ∧ unit < 144) then 1024 + unit
  else if table = 3 ∨ table = 9 then 2048 + unit
  else unit

/-- Power domain of a key of `ownEp`. -/
def holderDomain (k : Nat) : Nat :=
  if 2048 ≤ k then unitDomain (k - 2048) else if 1024 ≤ k then 2 + 4 * ((k - 1024) / 36) else niDomain k

/-- A domain is in Sleep or lower. -/
def State.domDown (s : State) (d : Nat) : Bool := 2 ≤ (s.domain d).st

/-- Cells of the tables for whose table and unit `ok` holds: those of bank `src` copied over the other bank's (R39). -/
def State.copyTabs (s : State) (src : Nat) (ok : Nat → Nat → Bool) : State :=
  let mine (b k : Nat) : Bool :=
    let u := k / 65536 / 8
    u / 1024 / 16 == b && ok (u / 1024 % 16) (u % 1024)
  let kept := s.tabs.filter (fun kv => !mine (1 - src) kv.1)
  let span := 16 * 1024 * 8 * 65536
  let add := (s.tabs.filter (fun kv => mine src kv.1)).map (fun kv => (kv.1 % span + (1 - src) * span, kv.2))
  { s with tabs := add.foldl (fun m kv => SMap.set 0 m kv.1 kv.2) kept }

/-- GLB_MODE.LOWPOWER: a domain is not in Run (R360). -/
def State.lowPower (s : State) : Bool := (List.range 18).any (fun d => (s.domain d).st != 0)

/-- DEGRADED, FALLBACK, FREEZE and LOWPOWER: set only in RUN, DUAL, DRAIN and QUIESCED (R19). -/
def State.conds (s : State) : Bool × Bool × Bool × Bool :=
  if s.prim = .run ∨ s.prim = .dual ∨ s.prim = .drain ∨ s.prim = .quiesced then
    (!s.fc.bare.isEmpty, s.fallback, s.freeze, s.lowPower)
  else (false, false, false, false)

/-- PWR_STATUS.CMDREJ: a request was ignored. -/
def State.pwrReject (s : State) : State := s.setRf .PWR_STATUS 18 1 1

/-- The quadrant mask of a quadrant: domains in Sleep or lower, or on their way there (R362). -/
def State.quadMask (s : State) (q : Nat) : Nat :=
  ((List.range 4).map (fun i =>
    let x := s.domain (2 + 4 * q + i)
    if 2 ≤ x.st ∨ (x.phase ≠ 0 ∧ 2 ≤ x.target) ∨ 8 ≤ x.phase then 2 ^ i else 0)).sum

/-- The domains that enter and wake with one: all of a fabric sleep, or those of its mask (R364, R373). -/
def State.groupDoms (s : State) (d : Nat) : List Nat :=
  let x := s.domain d
  if x.fabric then (List.range 17).map (· + 1)
  else if 2 ≤ d ∧ x.group ≠ 0 then maskDoms (domQuad d) x.group else [d]

/-- A fault of a power domain (R331, R383). -/
def State.raisePower (s : State) (d cls lvl : Nat) (u : UnitRef := fidUnit 0x184) (inj : Bool := false) : State :=
  s.raiseSpine (if d < 2 then 30 else 7 * domQuad d + 6) cls lvl u 0 inj

/-! ### Refusals and requests (R361 to R368) -/

/-- A refusal is counted and captured; a later one overwrites the capture (R367). -/
def State.refused (s : State) (d : Nat) (u : UnitRef) (reason : Nat) : State :=
  (s.bump .PWR_DOMd_REFUSE_CNT (domBase d)).setReg .PWR_DOMd_LASTREF
    (u.id + u.node.toNat * 2 ^ 10 + reason * 2 ^ 11 + 2 ^ 31) (domBase d)

/-- Why CHECK refuses the domains `new` of quadrant `q` to go to Sleep or lower (R362). -/
def State.checkEntry (s : State) (q new : Nat) : Option Nat :=
  let old := s.quadMask q
  let m := old ||| new
  if bitOf m 0 ∧ m ≠ 15 then some 2
  else if old ≠ 0 ∧ m ≠ old then some 1
  else if (List.range 4).any (fun p => p != q && s.quadMask p != 0) then some 1
  else if s.fallback then some 1
  else none

/-- The handshake begins: every unit of the domain is asked (R366). -/
def Dom.ask (x : Dom) (d now : Nat) : Dom :=
  { x with phase := 4, asking := (domUnits d).map unitKey, defers := [], at_ := now }

/-- A Clove image is asked for; the program controller starts when it may (R45). -/
def State.wantImage (s : State) (r : CloveReq) : State := { s with prg := { s.prg with waiting := s.prg.waiting ++ [r] } }

/-- The return image is asked for, once (R367, R376). -/
def State.wantReturn (s : State) : State :=
  if s.prg.waiting.any (fun r => r.sort == 2) ∨ s.prg.clove.any (fun r => r.sort == 2) then s
  else s.wantImage { key := 0x6000, sort := 2 }

/-- Steady domains `ds` of one quadrant, or SPINE, start an entry to state `t`. -/
def State.startEntry (s : State) (ds : List Nat) (t : Nat) : State :=
  match ds with
  | [] => s
  | d :: _ =>
    if t = 1 then
      ds.foldl (fun s d => s.setDomain d ({ s.domain d with target := 1, group := 0, abandon := false, imaged := false }.ask d s.tick)) s
    else
      let q := domQuad d
      let new := (ds.map (fun d => 2 ^ domBit d)).sum
      match s.checkEntry q new with
      | some r => ds.foldl (fun s d => s.refused d (fidUnit 0x184) r) s
      | none =>
        if s.quadMask q ≠ 0 then
          ds.foldl (fun s d => s.setDomain d { s.domain d with
            phase := 5, target := t, abandon := false, retn := s.rf .PWR_DOMd_CFG 0 1 (domBase d) }) s
        else
          (ds.foldl (fun s d => s.setDomain d { s.domain d with
            phase := 2, target := t, group := new, abandon := false, imaged := false, low := 0 }) s).wantImage
            { key := 5 * 4096 + 16 * q + new, sort := 1, dom := some d }

/-- An edge wake reaches a domain; within 4 CCLK after the commit point it is lost (R369). -/
def State.wakeEdge (s : State) (d : Nat) : State :=
  let x := s.domain d
  let lost : Bool := match x.commit with | some c => decide (s.tick ≤ c + 32) | none => false
  if lost ∨ (x.st = 0 ∧ x.phase = 0) then s else s.setDomain d { x with edge := some s.tick, pend := none }

/-- A request of a state for domains of one quadrant, or for SPINE (R361, R363). -/
def State.pwrRequest (s : State) (ds : List Nat) (t : Nat) : State :=
  if s.prim = .boot ∨ s.prim = .load ∨ s.prim = .test ∨ s.prim = .halt ∨ 5 ≤ t ∨ ds.contains 0 ∨ (ds.contains 1 ∧ 2 ≤ t) then
    s.pwrReject
  else if t = 0 then ds.foldl State.wakeLevel s
  else
    let busy := ds.filter (fun d => (s.domain d).phase != 0)
    let s := busy.foldl (fun s d => s.setDomain d { s.domain d with pend := some t }) s
    let go := ds.filter (fun d => (s.domain d).phase == 0 && (s.domain d).st != t)
    if t = 1 ∧ go.any s.domDown then s.pwrReject else s.startEntry go t

/-- A sequence has ended: a pending request is acted on (R363). -/
def State.endSeq (s : State) (d : Nat) : State :=
  match (s.domain d).pend with
  | none => s
  | some t =>
    let s := s.setDomain d { s.domain d with pend := none }
    if t = (s.domain d).st then s else s.pwrRequest [d] t

/-- An abandoned entry's domain, from Run or Idle back in Run, where `imaged` after the return image; a domain already in
Sleep or lower keeps a wake standing, which takes it to Run by the sequence of R376. -/
def Dom.abandoned (x : Dom) (imaged : Bool) : Dom :=
  let x := { x with asking := [], defers := [], abandon := false, fabric := false, edge := none, wake := decide (2 ≤ x.st) }
  if 2 ≤ x.st then { x with phase := 0 }
  else { x with st := 0, phase := if imaged then 12 else 0, group := if imaged then x.group else 0 }

/-- An entry is abandoned: the domain returns to Run, with the return image when its image had reached T (R367, R368). -/
def State.abandonEntry (s : State) (d : Nat) : State :=
  let ds := (s.groupDoms d).filter (fun g => 1 ≤ (s.domain g).phase && (s.domain g).phase ≤ 6)
  let imaged : Bool := ds.any (fun g => (s.domain g).imaged && (s.domain g).st < 2)
  let s := ds.foldl (fun s g => s.setDomain g ((s.domain g).abandoned imaged)) s
  if imaged then s.wantReturn else ds.foldl State.endSeq s

/-- A unit of the domain refuses: the entry is abandoned (R367). -/
def State.refuseEntry (s : State) (d : Nat) (u : UnitRef) (reason : Nat) : State := (s.refused d u reason).abandonEntry d

/-- The image of an entry has failed: the power controller refuses with IMAGE. -/
def State.imageFailed (s : State) (r : CloveReq) : State :=
  match r.dom with
  | some d => if (s.domain d).phase = 2 then s.refuseEntry d (fidUnit 0x184) 1 else s
  | none => s

/-! ### Commit (R365, R369, R379) -/

/-- One domain commits: clamps, stopped clocks, and the voltage step where the target needs one. -/
def State.commitOne (s : State) (d : Nat) : State :=
  let x := s.domain d
  let volt : Bool := 3 ≤ x.target || 3 ≤ x.st
  let edge := match x.edge with | some t => if s.tick ≤ t + 32 then none else some t | none => none
  let s := s.setDomain d { x with
    st := if x.target = 1 then 1 else if volt then max 2 x.st else 2
    phase := if volt then 7 else 0
    clamped := x.target != 1
    commit := some s.tick
    edge := edge
    low := max x.low x.target
    tries := 0
    polling := false
    at_ := s.tick }
  let s := if x.target = 4 ∧ (d = 1 ∨ domBit d = 0) then
      (allFids.filter (fun f => isPartner f && niDomain f == d)).foldl (fun s f =>
        s.updNi f (fun n => { n.unlinked with
          relink := n.relink || n.link == .waitPartner || n.link == .cap || n.link == .credit || n.link == .up })) s
    else s
  if volt then s else s.endSeq d

/-- A domain is ready to commit; its group commits when every domain of it is, SPINE last (R364). -/
def State.readyCommit (s : State) (d : Nat) : State :=
  let s := s.setDomain d { s.domain d with phase := 6 }
  let ds := s.groupDoms d
  if ds.all (fun g => (s.domain g).phase == 6 || ((s.domain g).phase == 0 && s.domDown g)) then
    let go := ds.filter (fun g => (s.domain g).phase == 6)
    (go.filter (· != 1) ++ go.filter (· == 1)).foldl State.commitOne s
  else s

/-- The handshake of a domain has ended: the entry is abandoned, or goes on to SAVE or COMMIT (R365, R368, R377). -/
def State.askDone (s : State) (d : Nat) : State :=
  let x := s.domain d
  if x.phase ≠ 4 ∨ !x.asking.isEmpty ∨ !x.defers.isEmpty then s
  else if x.abandon then s.abandonEntry d
  else
    let s := s.setDomain d { x with phase := 5, retn := s.rf .PWR_DOMd_CFG 0 1 (domBase d), at_ := s.tick }
    if x.target = 4 ∨ (x.target = 3 ∧ 2 ≤ d ∧ domBit d = 3) then s else s.readyCommit d

/-! ### The image of an entry and the return image (R365, R367, R370, R376) -/

/-- The T of a power image: its domains are ASLEEP, so that no packet of the new epoch reaches them, and the drain of the entry
begins (R365, R371). -/
def State.powerImageT (s : State) (r : CloveReq) : State :=
  match r.dom with
  | some d => (s.groupDoms d).foldl (fun s g =>
      if (s.domain g).phase = 2 then s.setDomain g { s.domain g with phase := 3, imaged := true, asleep := true } else s) s
  | none => s

/-- The T of a return image: every domain that waits for it is in Run and no longer ASLEEP. -/
def State.returnImageT (s : State) : State :=
  let ds := (List.range 18).filter (fun d => (s.domain d).phase == 12)
  let s := ds.foldl (fun s d => s.setDomain d { pend := (s.domain d).pend, pollAt := s.tick, idleAt := s.tick }) s
  ds.foldl State.endSeq s

/-- The end of a drain: entries that wait for it ask their units, or are abandoned when a wake was accepted. -/
def State.powerDrained (s : State) : State :=
  ((List.range 18).filter (fun d => (s.domain d).phase == 3)).foldl (fun s d =>
    if (s.domain d).phase ≠ 3 then s
    else if (s.domain d).abandon then s.abandonEntry d
    else s.setDomain d ((s.domain d).ask d s.tick)) s

end Sys2Proof.Machine
end

