-- ==== Sys2Proof/Machine/PrgOps.lean ====
section
/-! DEFINITION. The parts of the program controller: images and their sections (R24 to R26), the layout of the tables in a
section, the stop of a sequence (R31), Clove requests (R43 to R46), and fences by key (R345 to R349). -/

namespace Sys2Proof.Machine

/-! ### Image layout (R25) -/

/-- KIND of an image. -/
def imgKind (b : List Byte) : Nat := areaNat b 0x06 1
/-- PROG_ID of an image. -/
def imgProg (b : List Byte) : Nat := areaNat b 0x10 8
/-- LENGTH of an image. -/
def imgLen (b : List Byte) : Nat := areaNat b 0x20 4
/-- DRAIN_NS of an image. -/
def imgDrain (b : List Byte) : Nat := areaNat b 0x2C 4

/-- One entry of the section table. -/
structure Section where
  typ  : Nat
  off  : Nat
  size : Nat
  crc  : Nat
  deriving DecidableEq, Repr

/-- The section table of an image. -/
def imgSections (b : List Byte) : List Section :=
  (List.range (areaNat b 0x24 2)).map (fun i =>
    let o := 0x100 + 32 * i
    { typ := areaNat b o 1, off := areaNat b (o + 4) 4, size := areaNat b (o + 8) 4, crc := areaNat b (o + 12) 4 })

/-- Payload of a section. -/
def Section.bytes (x : Section) (b : List Byte) : List Byte := (b.drop x.off).take x.size

/-- The CTRL section of an image. -/
def imgCtrl (b : List Byte) : List Byte :=
  match (imgSections b).find? (fun x => x.typ == 12) with | some x => x.bytes b | none => []

/-! ### Fabric-control instructions (R28) -/

/-- One fabric-control instruction: FOP, bits [18:0], operand words, and the bytes it takes. -/
structure CtrlInstr where
  fop  : Nat
  low  : Nat
  ops  : List Nat
  size : Nat
  deriving DecidableEq, Repr

/-- NW of a listed operation; none: not listed. -/
def fopWords (fop : Nat) : Option Nat :=
  if fop = 0 ∨ fop = 7 ∨ fop = 8 ∨ fop = 10 ∨ fop = 0x1F then some 0
  else if fop = 1 ∨ fop = 6 then some 3
  else if fop = 2 ∨ fop = 3 then some 2
  else if fop = 4 ∨ fop = 5 ∨ fop = 9 then some 1
  else none

/-- The instruction at an offset of a CTRL section; none: it stops the sequence with BAD_INSTR. -/
def ctrlAt (c : List Byte) (pc : Nat) : Option CtrlInstr :=
  let w := areaNat c pc 4
  let fop := fld w 21 5
  let nw := fld w 19 2
  if c.length < pc + 4 ∨ fld w 26 6 ≠ 0x3F ∨ fopWords fop ≠ some nw ∨ c.length < pc + 4 + 4 * nw then none
  else some { fop := fop, low := fld w 0 19, ops := (List.range nw).map (fun i => areaNat c (pc + 4 + 4 * i) 4), size := 4 + 4 * nw }

/-- Every instruction of a CTRL section from an offset on, as far as it can be read; `fuel` bounds their number. -/
def ctrlList (c : List Byte) : (fuel pc : Nat) → List CtrlInstr
  | 0, _ => []
  | n + 1, pc => match ctrlAt c pc with
    | some i => i :: ctrlList c n (pc + i.size)
    | none => []

/-! ### Tables and their section layout (R28, R29 and the owning chapters) -/

/-- The unit holds the table, and the port exists at it (R28). -/
def holdsTable (t u port : Nat) : Bool :=
  if t = 0 then decide (u < 144) && port == 0
  else if t = 2 then decide (u < 144) && portPresent u port
  else if t = 3 then (decide (u < 144) || (0xC0 ≤ u && u < 0x100) || (0x160 ≤ u && u < 0x170)) && port == 0
  else if t = 5 then decide (u < 4) && port == 0
  else if t = 6 then (0x170 ≤ u && u < 0x174) && port == 0
  else if t = 7 then 0x170 ≤ u && u < 0x174
  else if t = 8 then (isPartner u || u == 0x180) && assigned u && port == 0
  else if t = 9 then isCluster u && port == 0
  else (t == 1 || t == 4 || t == 10) && assigned u && port == 0

/-- Every unit that holds a table at a port, ascending: what UNIT 0x3FF addresses. -/
def tableUnits (t port : Nat) : List Nat := (List.range 0x186).filter (fun u => holdsTable t u port)

/-- Bytes of an entry in its section. -/
def entryBytes (t i : Nat) : Nat :=
  if t = 0 ∨ t = 4 then 2
  else if t = 1 ∨ t = 2 ∨ t = 7 then 8
  else if t = 3 then 16
  else if t = 5 then (if i < 4096 then 16 else 2)
  else if t = 6 then 32
  else if t = 8 then (if 4096 ≤ i ∧ i < 4160 then 32 else 4)
  else if t = 9 then (if i < 16384 then 4 else 8)
  else if i < 16 then 16 else 8

/-- Indices of a table at a unit, ascending; the number of VCMAP entries is the implementation's (log 5). -/
def tableIndices (t u : Nat) : List Nat :=
  if t = 0 ∨ t = 2 then List.range 1024
  else if t = 1 then List.range Config.vcmapEntries
  else if t = 3 then List.range (if u < 144 then 32 else if u < 0x100 then 1 else 4)
  else if t = 4 then List.range 4104
  else if t = 5 then List.range 5120
  else if t = 6 then List.range 16488
  else if t = 7 then List.range 260
  else if t = 8 then (if u = 0x180 then (List.range 64).map (· + 4096) else List.range 4096 ++ [4160])
  else if t = 9 then List.range 16480
  else List.range 84

/-- An index that the table has at the unit. -/
def hasIndex (t u i : Nat) : Bool :=
  if t = 8 then (if u = 0x180 then 4096 ≤ i && i < 4160 else decide (i < 4096) || i == 4160)
  else decide (i < (tableIndices t u).length)

/-- One entry that a WRTB writes: table, unit, port, index, value. -/
structure TabWrite where
  table : Nat
  unit  : Nat
  port  : Nat
  idx   : Nat
  val   : Nat
  deriving DecidableEq, Repr

/-- The `n` entries from index `i` on that lie at an offset of a section. -/
def sliceEntries (sec : List Byte) (t : Nat) : (n i off : Nat) → List (Nat × Nat)
  | 0, _, _ => []
  | n + 1, i, off => (i, areaNat sec off (entryBytes t i)) :: sliceEntries sec t n (i + 1) (off + entryBytes t i)

/-- Bytes that a range of entries takes in its section. -/
def rangeBytes (t first n : Nat) : Nat := ((List.range n).map (fun j => entryBytes t (first + j))).sum

/-- The operands of a WRTB: table, port, section index, unit, offset, first entry, entry count. -/
def CtrlInstr.wrtb (i : CtrlInstr) : Nat × Nat × Nat × Nat × Nat × Nat × Nat :=
  let o1 := i.ops.getD 0 0
  let o3 := i.ops.getD 2 0
  (fld i.low 15 4, fld i.low 12 3, fld o1 28 4, fld o1 16 10, i.ops.getD 1 0, fld o3 16 16, fld o3 0 16)

/-- Units that a WRTB or VCRC reaches: the named one, or every one that holds the table and all the indices; the central
rule table is unit 4, which UNIT 0x3FF names with the replicas (R28, R214). -/
def unitsOf (t port u : Nat) (ok : Nat → Bool) : List Nat :=
  if u ≠ 0x3FF then (if holdsTable t u port ∧ ok u then [u] else [])
  else if t = 5 then (if port = 0 ∧ ok 4 then [0, 1, 2, 3, 4] else [])
  else (tableUnits t port).filter ok

/-- The entries that a WRTB of an image writes; none: BAD_INSTR (R28, R29, R215).  A SECTION index that names no entry of the
section table is BAD_INSTR too (DESIGN CHOICE, log 93). -/
def State.wrtbWrites (s : State) (img : List Byte) (i : CtrlInstr) : Option (List TabWrite) :=
  let (t, port, sec, u, off, first, n) := i.wrtb
  let ok (u : Nat) : Bool := (List.range n).all (fun j => hasIndex t u (first + j))
  match (imgSections img)[sec]? with
  | none => none
  | some x =>
    let us := unitsOf t port u ok
    if 10 < t ∨ us.isEmpty ∨ off % 8 ≠ 0 ∨ x.size < off + rangeBytes t first n
        ∨ (t = 5 ∧ first < 4096 ∧ 4096 < first + n) ∨ (u ≠ 0x3FF ∧ s.domDown (tabDomain t u)) then none
    else
      let es := sliceEntries (x.bytes img) t n first off
      some ((us.filter (fun u => !s.domDown (tabDomain t u))).flatMap (fun u =>
        es.map (fun e => { table := t, unit := u, port := port, idx := e.1, val := e.2 })))

/-- A rule entry or a map entry that is fused reads as fused, and no WRTB changes it (R198, R203). -/
def State.fusedCell (s : State) (i : Nat) : Option Nat :=
  if i < 16 then some (s.ruleEntry false 4 i)
  else if i < 4096 then none
  else (s.fusedSd (i - 4096)).map (fun d => d + 2 ^ 4 + 2 ^ 5)

/-- An entry as it reads in a bank, in the layout of its section. -/
def State.entryAs (s : State) (bank t u port i : Nat) : Nat :=
  if t = 5 then (s.fusedCell i).getD (s.tab bank 5 u 0 i)
  else if t = 1 then s.tab bank 12 u 0 i
  else s.tab bank t u port i

/-- One entry written into a bank.  A VCMAP entry is kept as it came beside the cell that it stands for (log 5). -/
def State.putEntry (s : State) (bank : Nat) (w : TabWrite) : State :=
  if w.table = 5 then (if (s.fusedCell w.idx).isSome then s else s.setTab bank 5 w.unit 0 w.idx w.val)
  else if w.table = 1 then
    let c := Config.vcmapCell w.idx w.val
    (s.setTab bank 12 w.unit 0 w.idx w.val).setTab bank 1 w.unit 0 (c.1 % 2048) c.2
  else s.setTab bank w.table w.unit w.port w.idx w.val

/-- CRC-32C over a table of a unit in a bank, in the layout of its section (R29). -/
def State.tableCrc (s : State) (bank t u port : Nat) : Nat :=
  (crc32c ((tableIndices t (if t = 5 then 4 else u)).flatMap (fun i => leBytes (entryBytes t i) (s.entryAs bank t u port i)))).toNat

/-- Replica n's shadow matches the central shadow (R214). -/
def State.repMatch (s : State) (n : Nat) : Bool :=
  s.tabs.all (fun kv =>
    let u := kv.1 / 65536 / 8
    if u / 1024 / 16 = s.shadowBank ∧ u / 1024 % 16 = 5 ∧ (u % 1024 = 4 ∨ u % 1024 = n) then
      s.tab s.shadowBank 5 4 0 (kv.1 % 65536) == s.tab s.shadowBank 5 n 0 (kv.1 % 65536)
    else true)

/-! ### The shadow banks (R31, R216, R254, R317) -/

/-- The shadow banks hold a copy of the active ones: after a drain, and after a stop that marks them empty.  Units whose
domain is in Sleep or lower keep both their banks (R39); the rule keeper's copy is `rules`. -/
def State.resetShadow (s : State) (rules : Bool) : State :=
  s.copyTabs (bankOf s.epo.cur) (fun t u =>
    (t != 5 || rules) && !s.domDown (tabDomain (if t = 12 then 1 else t) u)
      && SMap.get s.epo.cur s.ownEp (tabHolder t u) == s.epo.cur)

/-! ### Clove requests (R44 to R46) -/

/-- A fault image is being fetched, verified, executed or armed. -/
def PrgSt.repairing (p : PrgSt) : Bool := p.clove.any (fun r => r.sort == 0)

/-- The program store is in use. -/
def PrgSt.busy (p : PrgSt) : Bool := p.state == .receiving || p.state == .verifying || p.state == .executing

/-- Keys of the units of a quadrant. -/
def quadKeys (q : Nat) : List FenceKey :=
  (List.range 36).map (fun i => .router (36 * q + i)) ++ (List.range 16).map (fun i => .home (16 * q + i))
    ++ (List.range 12).map (fun i => .cluster (12 * q + i))
    ++ (allFids.filter (fun f => quadOf f == some q)).map (fun f => .ni f)

/-- Keys that a fence of a key stands for: the interfaces on a router's local ports are fenced with it. -/
def keysOf : FenceKey → List FenceKey
  | .router n => .router n :: (localFids n).flatMap (fun f =>
      if 0xC0 ≤ f ∧ f < 0x100 then [.home (f - 0xC0)] else if isCluster f then [.cluster (f - 0x130)] else [.ni f])
  | .quadrant q => .quadrant q :: quadKeys q
  | .home k => [.home k, .ni (0xC0 + k)]
  | .cluster k => [.cluster k, .ni (0x130 + k)]
  | k => [k]

/-- The homes that a fence takes out of service and for which no image comes answer FENCED from now on (R167). -/
def State.imageless (s : State) (k : Option FenceKey) : State :=
  ((k.map keysOf).getD []).foldl (fun s x => match x with
    | .home h => s.updHm h (fun m => { m with noImage := true })
    | _ => s) s

/-- No image serves a fence: PROGRAM at L1 with NO_IMAGE, which PRG_STATUS shows while the store is not in use (R46). -/
def State.noImage (s : State) (k : Option FenceKey) : State :=
  let s := s.imageless k
  let s := if s.prg.busy then s else s.setRf .PRG_STATUS 8 5 0xF
  let s := if s.prg.busy then s else { s with prg := { s.prg with state := .failed } }
  s.raiseSpine 28 12 1 (fidUnit 0x180)

/-- The fetch of a Clove image begins (R44).  Meanwhile PRG_STATUS.STATE reads RECEIVING, and PRG_WPTR the bytes of the store:
0, and the image's length once it has been fetched (DESIGN CHOICE, log 93). -/
def State.startFetch (s : State) (r : CloveReq) : State :=
  let s := (s.setReg .PRG_WPTR 0).setReg .PRG_SEQ_PC 0
  { s with prg := { s.prg with state := .receiving, store := [], writer := false, pc := 0, wait := .none, abort := false,
                               unfence := [], fenced := [], clove := some r, fetching := true } }

/-- An armed or arming switch is cancelled; EPO_TIME_S and EPO_TIME_NS keep its time (DESIGN CHOICE, log 93). -/
def State.disarm (s : State) : State :=
  { s with epo := { s.epo with t := none, missing := [] }
           ni := SMap.mapVals {} (fun _ (n : Ni) => { n with arm := none }) s.ni }

/-- The sequence stops with an error (R31): the shadow banks are marked empty, but for ARM_TIMEOUT and in DUAL, when no bank
is a shadow. -/
def State.prgStop (s : State) (err : Nat) : State :=
  let r := s.prg.clove
  let s := { s with prg := { s.prg with state := .failed, wait := .none, abort := false, unfence := [], fenced := [],
                                        clove := none, fetching := false } }
  let s := (s.setRf .PRG_STATUS 8 5 err).disarm
  let s := if err = 0xC ∨ s.epo.dual then s else s.resetShadow true
  let s := s.raiseSpine 28 12 1 (fidUnit 0x180)
  match r with
  | some r => if r.sort = 1 then s.imageFailed r else s
  | none => s

/-- The fetch of a fault image takes the program store from whatever holds it, an armed switch included: that stops with
PREEMPTED, and a power or return image is asked for again (R45). -/
def State.preempt (s : State) (r : CloveReq) : State :=
  if s.prg.busy then
    let again := s.prg.clove
    let s := ({ s with prg := { s.prg with clove := none } } : State).prgStop 0xD
    (match again with | some a => s.wantImage a | none => s).startFetch r
  else s.startFetch r

/-- A request that waits begins once the fabric is not in DUAL: a fault image at once, any other when the store is free
(R45). -/
def State.pump (s : State) : State :=
  if s.epo.dual ∨ s.prim = .halt then s
  else
    let drop (r : CloveReq) : State := { s with prg := { s.prg with waiting := s.prg.waiting.erase r } }
    match s.prg.waiting.find? (fun r => r.sort == 0), s.prg.waiting.head? with
    | some r, _ => if s.fallback then (drop r).noImage r.fence else (drop r).preempt r
    | none, some r => if s.prg.busy then s else (drop r).startFetch r
    | none, none => s

/-- A fence calls for a Clove image (R45 to R47, R347). -/
def State.callImage (s : State) (key : Nat) (k : FenceKey) : State :=
  let r : CloveReq := { key := key, sort := 0, fence := some k }
  if s.fallback ∨ s.prg.repairing ∨ s.prg.waiting.any (fun r => r.sort == 0) then s.noImage (some k)
  else if s.epo.dual then s.wantImage r
  else s.preempt r

/-! ### Fences by key (R345 to R349) -/

/-- The Clove key of a fence that calls for an image (R43, R347). -/
def cloveKey : FenceKey → Option Nat
  | .router n => some (0x1000 + n)
  | .link n p => some (0x2000 + Config.linkNumber n p % 4096)
  | .home k => some (0x3000 + k)
  | .quadrant q => some (0x4000 + q)
  | _ => none

/-- The unit is fenced already. -/
def State.isFenced (s : State) : FenceKey → Bool
  | .router n => s.rtrFenced n
  | .link n p => s.linkFenced n p
  | .ni f => s.niFenced f
  | .home k => s.homeFenced k
  | .cluster k => s.clusterFenced k
  | .quadrant q => bitOf (s.reg .FC_FENCED_Q) q

/-- Fences whose image has been called, or that need none of their own. -/
def State.markCalled (s : State) (ks : List FenceKey) : State :=
  { s with fc := { s.fc with called := ks.filter (fun k => !s.fc.called.contains k) ++ s.fc.called } }

/-- The unit of a key is taken out of service (R346). -/
def State.fenceKey (s : State) : FenceKey → State
  | .router n => s.fenceRouter n
  | .link n p => s.fenceLink n p
  | .ni f => s.fenceFid f
  | .home k => s.fenceHome k
  | .cluster k => s.fenceCluster k
  | .quadrant q =>
    let s := s.setRf .FC_FENCED_Q q 1 1
    let s := (List.range 36).foldl (fun s i => s.fenceRouter (36 * q + i)) s
    (allFids.filter (fun f => quadOf f == some q)).foldl State.fenceFid s

/-- A fence ordered by the collector, or reported by a unit that fenced itself: its image is called once (R345, R347). -/
def State.orderFence (s : State) (k : FenceKey) : State :=
  let known : Bool := s.isFenced k && (s.fc.called.contains k || (cloveKey k).isNone)
  if known then s
  else
    let s := (s.fenceKey k).markCalled (keysOf k)
    match cloveKey k with
    | some key => s.callImage key k
    | none => s

/-- An image that has become active covers the fences of a key (R348). -/
def State.cover (s : State) (k : FenceKey) : State :=
  { s with fc := { s.fc with bare := s.fc.bare.filter (fun x => !(keysOf k).contains x) } }

end Sys2Proof.Machine
end

