-- ==== Sys2Proof/Machine/Faults.lean ====
section
/-! DEFINITION. The fault collector: reports, levels and escalation, the first-fault latch, FAULT_N, interrupts, fences that
a fault orders, HALT, spine voting and injection (R331 to R356). -/

namespace Sys2Proof.Machine

/-! ### Arrival (R334 to R337) -/

/-- Fabric time `k` FCLK before this cycle, by the die-wide count. -/
def State.timeAgo (s : State) (k : Nat) : Int × Nat :=
  let t := { s.tim with c := s.tim.c - k }
  (t.total, t.frac)

/-- FAULT_REPORT: the oldest FaultRpt at the collector is recorded, or answered as a duplicate; both get Comp OK. -/
def execFaultReport (s : State) : Host.Outcome State Fault Refusal :=
  match (s.nif 0x183).inbox.find? (fun p => p.net == .req && p.opc == 0x1D) with
  | none => .next s
  | some p =>
    let s := s.updNi 0x183 (fun n => { n with inbox := n.inbox.erase p })
    let recent := s.fc.recent.filter (fun x => decide (s.tick < x.2.2 + usTicks 64))
    let dup : Bool := recent.any (fun x => x.1 == p.src && x.2.1 == p.txid)
    let s := s.answer 0x183 p 0
    if dup then .next { s with fc := { s.fc with recent := recent } }
    else
      let a := p.addr.toNat
      let delay := fld a 24 12
      let age := ageOf (s.tim.c % 65536) p.inj.toNat
      let tsat : Bool := p.old || delay == 0xFFF
      let back := if p.old then 0 else if delay = 0xFFF then age - 1 else age - 1 + delay
      let t := s.timeAgo back
      let merged := bitOf a 48
      let s := if merged then s.bump .FC_MERGED else s
      let r : FaultRec := { src := fld a 0 10, level := fld a 10 3, unit := ⟨bitOf a 23, fld a 13 10⟩, detail := fld a 36 12,
                            delay := delay, tsat := tsat, merged := merged, inj := bitOf a 49, ns := t.1, frac := t.2 }
      .next (({ s with fc := { s.fc with recent := (p.src, p.txid, s.tick) :: recent } } : State).collect r)

/-- ALARM_FRAME: the oldest frame on a router's alarm line reaches the collector. -/
def execAlarmFrame (node : Fin 144) (s : State) : Host.Outcome State Fault Refusal :=
  match s.fc.alarms.find? (fun a => a.node == node.val) with
  | none => .next s
  | some a =>
    let t := s.timeAgo ((s.tim.c % 65536 + 65536 - a.count) % 65536)
    .next (({ s with fc := { s.fc with alarms := s.fc.alarms.erase a } } : State).collect
      { src := a.src, level := a.level, unit := nodeUnit node, detail := a.detail, inj := a.inj, ns := t.1, frac := t.2 })

/-- FAULT_REPORT_RESEND: a report without its Comp for 8 µs is sent again with DELAY = 0xFFF. -/
def execFaultReportResend (fid : Fid) (s : State) : Host.Outcome State Fault Refusal :=
  let f := fid.toNat
  if assigned f then
    match (s.nif f).reports.find? (fun r => decide (r.sent + usTicks 8 ≤ s.tick)) with
    | none => .next s
    | some r =>
      if s.prim = .halt then .next s
      else
        .next ((s.updNi f (fun n => { n with reports := n.reports.map (fun x => if x = r then { x with sent := s.tick } else x) })).inject f
          (r.pkt 0xFFF))
  else .fault .noSuchUnit

/-! ### Levels and the latch (R339 to R341) -/

/-- Pending level of a class. -/
def State.pendOf (s : State) (c : Nat) : Nat := fld (s.reg .FC_PENDn 0 (c / 8)) (4 * (c % 8)) 4

/-- Pending level of a class set. -/
def State.setPend (s : State) (c v : Nat) : State := s.setRf .FC_PENDn (4 * (c % 8)) 4 v 0 (c / 8)

/-- Pending level of a class before an acknowledgement of this cycle, against which a fault is judged (R340). -/
def State.pendWas (s : State) (c : Nat) : Nat :=
  if s.fc.ackAt = s.tick + 1 then SMap.get 0 s.fc.ackWas c + s.pendOf c else s.pendOf c

/-- The level of a fault after R339. -/
def State.lvlOf (s : State) (r : FaultRec) : Nat :=
  let c := r.src % 32
  let p := s.pendWas c
  if 1 ≤ r.level ∧ 1 ≤ p then max r.level (min (p + 1) (classCeil c)) else r.level

/-- The first fault is latched; a later one sets FC_OVF and is counted (R341). -/
def State.latchFault (s : State) (r : FaultRec) (lvl : Nat) : State :=
  let full : Bool := s.rf .FC_FIRST 31 1 == 1
  let s := s.latchWords .FC_FIRST
    [(.FC_FIRST, r.src + lvl * 2 ^ 10 + r.unit.id * 2 ^ 13 + r.unit.node.toNat * 2 ^ 23 + r.inj.toNat * 2 ^ 24 + 2 ^ 31),
     (.FC_FIRST_DET, r.detail + r.delay * 2 ^ 12 + r.tsat.toNat * 2 ^ 24 + r.merged.toNat * 2 ^ 25),
     (.FC_FIRST_NS, nsOf r.ns), (.FC_FIRST_S_LO, secOf r.ns % 2 ^ 32),
     (.FC_FIRST_S_HI, secOf r.ns / 2 ^ 32 % 2 ^ 16 + r.frac * 2 ^ 16), (.FC_OVF, s.reg .FC_OVF)] 0 0 [.FC_COUNT]
  if full then s.setRf .FC_OVF 0 1 1 else s

/-! ### FAULT_N and interrupts (R342 to R344) -/

/-- PINLVL: 0 acts as 1, above 4 as 4. -/
def State.pinLvl (s : State) : Nat := min 4 (max 1 (s.rf .FC_CTRL 0 3))

/-- FAULT_N is asserted, and its minimum starts afresh, in the next REFCLK cycle. -/
def State.assertPin (s : State) : State :=
  let at_ := (s.tick / 120 + 1) * 120
  { s with fc := { s.fc with pinAt := some at_, pinFrom := some (s.fc.pinFrom.getD at_), relPend := false } }

/-- FAULT_N is driven low. -/
def State.pinLow (s : State) : Bool := s.fc.pinFrom.any (fun t => decide (t ≤ s.tick))

/-- The minimum assertion of 2 µs is running. -/
def State.minPulse (s : State) : Bool := match s.fc.pinAt with | some t => decide (s.tick < t + 6000) | none => false

/-- Nothing but the minimum can hold a release back. -/
def State.pinFree (s : State) : Bool :=
  (List.range 32).all (fun c => decide (s.pendOf c < s.pinLvl)) && s.prim != .halt

/-- One Intr to FC_IRQ.FID, a core-cluster port or an I/O root. -/
def State.faultIrq (s : State) : State :=
  let f := s.rf .FC_IRQ 0 10
  if s.rf .FC_IRQ 31 1 = 1 ∧ (f < 0x80 ∨ (0x110 ≤ f ∧ f < 0x11C)) then
    s.ownIntr 0x183 f (s.rf .FC_IRQ 10 12)
  else s

/-! ### Fences and HALT (R338, R345, R350) -/

/-- What a fault of L2 fences; none: it has the effect of L1. -/
def fenceTarget (r : FaultRec) : Option FenceKey :=
  let g := r.src / 32
  let u := r.unit.id
  if 28 ≤ g ∨ g % 7 = 6 then none
  else if r.unit.node then (if r.src % 32 = 0 then some (.link u r.detail) else some (.router u))
  else if 0xC0 ≤ u ∧ u < 0x100 then some (.home (u - 0xC0))
  else if isCluster u then some (.cluster (u - 0x130))
  else some (.ni u)

/-- The fabric stops (R19, R350): conditions keep their values, and any program sequence is abandoned. -/
def State.enterHalt (s : State) : State :=
  if s.prim = .test ∨ s.prim = .halt then s
  else
    let p := s.prg
    ({ s with haltConds := some s.conds, prim := .halt,
              prg := { p with state := if p.busy then .failed else p.state, wait := .none, abort := false, unfence := [],
                              fenced := [], clove := none, fetching := false, waiting := [] } } : State).disarm

/-- The effects of a level on the fault's own unit (R338). -/
def State.faultEffect (s : State) (r : FaultRec) (lvl : Nat) : State :=
  if lvl = 4 then s.enterHalt
  else if lvl = 3 ∧ r.src / 32 < 28 then s.orderFence (.quadrant (r.src / 32 / 7))
  else if lvl = 2 then (match fenceTarget r with | some k => s.orderFence k | none => s)
  else s

/-- One fault is taken (R337 to R350). -/
def State.takeFault (s : State) (r : FaultRec) : State :=
  let c := r.src % 32
  let s := s.bump .FC_CCNTc 0 c
  if s.prim = .halt then s.latchFault r r.level
  else
    let lvl := s.lvlOf r
    let old := s.pendWas c
    let s := s.latchFault r lvl
    let s := { s with fc := { s.fc with took := 32 * lvl + c } }
    if lvl = 0 then s
    else
      let s := s.setPend c (max (s.pendOf c) lvl)
      let s := if s.pinLvl ≤ lvl ∨ lvl = 4 then s.assertPin else s
      let s := if old < lvl then s.faultIrq else s
      s.faultEffect r lvl

/-- FAULT_TAKE: at most one in an FCLK; the record's word is checked as spine storage (R352). -/
def execFaultTake (stored : WordErr) (s : State) : Host.Outcome State Fault Refusal :=
  match s.fc.queue with
  | [] => .next s
  | r :: rest =>
    if s.fc.takeAt = s.tick + 1 then .next s
    else
      let s := { s with fc := { s.fc with queue := rest, takeAt := s.tick + 1 } }
      let (e, inj, s) := s.checkWord (fidUnit 0x183) 10 stored
      let s := match e with
        | .clean => s
        | .corrected => s.raiseSpine 28 5 0 (fidUnit 0x183) 0 inj
        | .uncorrectable => s.raiseSpine 28 5 1 (fidUnit 0x183) 0 inj
      .next (s.takeFault r)

/-! ### Acknowledgement and the pin (R340, R343) -/

/-- One class is acknowledged; after a fault of the class in the same cycle it stays pending at that fault's level. -/
def State.ackOne (s : State) (c : Nat) : State :=
  let stay := if s.fc.takeAt = s.tick + 1 ∧ s.fc.took % 32 = c then s.fc.took / 32 else 0
  let p := s.pendOf c
  let s := s.setPend c stay
  { s with fc := { s.fc with ackWas := SMap.set 0 s.fc.ackWas c (SMap.get 0 s.fc.ackWas c + (p - stay)) } }

/-- The classes of a mask are acknowledged. -/
def State.ackFaults (s : State) (value : Nat) : State :=
  let s := if s.fc.ackAt = s.tick + 1 then s else { s with fc := { s.fc with ackAt := s.tick + 1, ackWas := [] } }
  (List.range 32).foldl (fun s c => if bitOf value c then s.ackOne c else s) s

/-- FC_ACK. -/
def execFcAck (value : BitVec 32) (s : State) : Host.Outcome State Fault Refusal := .next (s.ackFaults value.toNat)

/-- FC_PIN.RELEASE is written. -/
def State.pinRelease (s : State) : State :=
  if ¬s.pinFree then s.setRf .FC_STATUS 3 1 1
  else if s.minPulse then { s with fc := { s.fc with relPend := true } }
  else { s with fc := { s.fc with pinAt := none, pinFrom := none, relPend := false } }

/-- FC_PIN_RELEASE. -/
def execFcPinRelease (s : State) : Host.Outcome State Fault Refusal := .next s.pinRelease

/-- PIN_MINIMUM_END: a remembered release takes effect if the other conditions still hold. -/
def execPinMinimumEnd (s : State) : Host.Outcome State Fault Refusal :=
  if ¬s.fc.relPend ∨ s.minPulse then .next s
  else if s.pinFree then .next { s with fc := { s.fc with relPend := false, pinAt := none, pinFrom := none } }
  else .next { s with fc := { s.fc with relPend := false } }

/-! ### Injection (R353, R354) -/

/-- The checker exists at the unit. -/
def hasChecker (u : UnitRef) (chk port : Nat) : Bool :=
  let f := u.id
  let node : Bool := u.node && decide (f < 144)
  let ni : Bool := !u.node && assigned f
  let spine : Bool := !u.node && decide (0x180 ≤ f ∧ f < 0x186)
  let bank : Bool := !u.node && decide (0x160 ≤ f ∧ f < 0x170) && decide (port < 4)
  if chk = 0 ∨ chk = 1 then (node && portPresent f port) || ni
  else if chk = 2 then ni
  else if chk = 3 then node
  else if chk = 4 then node || ni
  else if chk = 5 then !u.node && f == 0x182 && decide (port < 4)
  else if chk = 6 then !u.node && decide (0xC0 ≤ f ∧ f < 0x100)
  else if chk = 7 ∨ chk = 12 then bank
  else if chk = 8 ∨ chk = 9 then !u.node && isCluster f
  else if chk = 10 then spine
  else if chk = 11 then spine && decide (port < 3)
  else false

/-- A copy of spine unit `u` resynchronises (R352). -/
def State.resyncing (s : State) (u : Nat) : Bool := s.rf .FC_VOTE (3 * u) 3 != 0

/-- An injection is armed from the fields of FC_INJ_CTRL, or refused. -/
def State.injArm (s : State) : State :=
  let v := s.reg .FC_INJ_CTRL
  let u : UnitRef := ⟨bitOf v 10, fld v 0 10⟩
  let chk := fld v 11 4
  let port := fld v 24 3
  let fenced : Bool := if u.node then s.rtrFenced u.id else s.niFenced u.id
  let mode : Bool := s.prim == .run || s.prim == .dual || s.prim == .drain || s.prim == .quiesced
  if s.fc.inject.isSome ∨ ¬hasChecker u chk port ∨ fenced ∨ ¬mode ∨ (chk = 11 ∧ s.resyncing (u.id - 0x180)) then
    s.setRf .FC_INJ_CTRL 29 1 1
  else
    let n := max 1 (fld v 16 8)
    { s with fc := { s.fc with inject := some { unit := u, chk := chk, two := bitOf v 15, port := port, left := n } } }.setRf
      .FC_INJ_LEFT 0 8 n

/-- INJ_ARM. -/
def execInjArm (s : State) : Host.Outcome State Fault Refusal := .next s.injArm

/-- No injection is armed. -/
def State.injDisarm (s : State) : State := { s with fc := { s.fc with inject := none } }.setRf .FC_INJ_LEFT 0 8 0

/-- INJ_DISARM. -/
def execInjDisarm (s : State) : Host.Outcome State Fault Refusal := .next s.injDisarm

/-- A software fault from the fields of FC_SWRAISE, in the name of who wrote RAISE (R356). -/
def State.swRaise (s : State) (src : Nat) : State :=
  let v := s.reg .FC_SWRAISE
  s.raiseSpine 31 (24 + fld v 0 3) (fld v 3 1) (fidUnit src) (fld v 4 12)

/-- SW_RAISE. -/
def execSwRaise (src : Fid) (s : State) : Host.Outcome State Fault Refusal :=
  if !assigned src.toNat then .fault .noSuchUnit else .next (s.swRaise src.toNat)

/-! ### Spine voting (R352) -/

/-- A copy disagrees with the other two, or no two working copies agree. -/
def State.voteMiss (s : State) (u : Nat) (copy : Option Nat) (inj : Bool := false) : State :=
  let f := fidUnit (0x180 + u)
  match copy with
  | none => s.raiseSpine 28 17 4 f (4 * u) inj
  | some k =>
    if bitOf (s.reg .FC_VOTE) (3 * u + k) then s
    else if s.resyncing u then s.raiseSpine 28 17 4 f (4 * u + k) inj
    else (s.setRf .FC_VOTE (3 * u + k) 1 1).raiseSpine 28 17 1 f (4 * u + k) inj

/-- SPINE_VOTE_MISMATCH. -/
def execSpineVoteMismatch (unit : Fin 6) (copy : Option (Fin 3)) (s : State) : Host.Outcome State Fault Refusal :=
  .next (s.voteMiss unit (copy.map (·.val)))

/-- VOTE_RESYNC_DONE. -/
def execVoteResyncDone (unit : Fin 6) (copy : Fin 3) (s : State) : Host.Outcome State Fault Refusal :=
  .next (s.setRf .FC_VOTE (3 * unit + copy) 1 0)

/-- The voter injection of one FCLK: it waits while a copy of the unit resynchronises (R353). -/
def State.voterTick (s : State) : State :=
  match s.fc.inject with
  | some j =>
    if j.chk = 11 ∧ ¬s.resyncing (j.unit.id - 0x180) then (s.voteMiss (j.unit.id - 0x180) (some j.port) true).injUse else s
  | none => s

end Sys2Proof.Machine
end

