-- ==== Sys2Proof/Machine/Time.lean ====
section
/-! DEFINITION. Fabric time: sync beats and leaves, SET and STEP, PPS_IN and PPS_OUT, beacons, the keeper (R300 to R313). -/

namespace Sys2Proof.Machine

/-! ### The keeper (R304) -/

/-- The keeper's time, in steps of 40 ns on REFCLK. -/
def State.keeperNow (s : State) : Nat := s.tim.keeper + 40 * ((s.tick - s.tim.keepAt) / 120)

/-- The time master reloads the keeper while SPINE is in Run. -/
def State.keepTime (s : State) : State := { s with tim := { s.tim with keeper := s.ns.toNat, keepAt := s.tick } }

/-- SPINE returns to Run: the count is loaded from the keeper, rounded up to a multiple of 1,024 ns. -/
def State.spineTime (s : State) : State :=
  let t := (s.keeperNow + 1023) / 1024 * 1024
  ({ s with tim := { s.tim with c := (3 * ((t : Int) - 1024 * s.tim.steps)).toNat % 2 ^ 64 } } : State).setRf .TIM_STATUS 1 1 1

/-! ### Leaves (R303, R358) -/

/-- A unit reports TIME. -/
def State.raiseTime (s : State) (u : UnitRef) (lvl : Nat) : State :=
  if u.node then s.raiseRtr u.id 13 lvl 0 else s.raiseNi u.id 13 lvl

/-- A unit whose leaf has failed is fenced; the spine and its ports have none to fence (R338). -/
def State.fenceLeaf (s : State) (u : UnitRef) : State :=
  if 28 ≤ groupOf u then s
  else if u.node then s.fenceRouter u.id
  else s.fenceFid u.id

/-- Power domain of a leaf: that of its router or unit. -/
def leafDomain (u : UnitRef) : Nat := if u.node then 2 + 4 * (u.id / 36) else unitDomain u.id

/-- SYNC_BEAT: one leaf at one beat, every 1,024 ns. -/
def execSyncBeat (leaf : UnitRef) (reading : LeafReading) (s : State) : Host.Outcome State Fault Refusal :=
  if !unitExists leaf then .fault .noSuchUnit
  else if ¬s.started ∨ s.tim.c % 3072 ≠ 0 ∨ s.domDown (leafDomain leaf) ∨ s.domDown 1 then .next s
  else
    let k := unitKey leaf
    let missed := (SMap.get {} s.tim.leaf k).missed
    let s := s.keepTime
    let set (s : State) (n : Nat) : State :=
      { s with tim := { s.tim with leaf := SMap.set {} s.tim.leaf k { missed := n } } }
    match reading with
    | .missed => if missed + 1 < 4 then .next (set s (missed + 1)) else .next (((set s 0).raiseTime leaf 2).fenceLeaf leaf)
    | .diff n =>
      let s := set s 0
      if n = 0 then .next s
      else if 3 < n then .next ((s.raiseTime leaf 2).fenceLeaf leaf)
      else
        let s := s.bump .TIM_ALIGN_CNT
        let s := s.latchWords .TIM_ALIGN_CAP [(.TIM_ALIGN_CAP, leaf.id + leaf.node.toNat * 2 ^ 10 + 2 ^ 31)]
        .next (s.raiseTime leaf 0)

/-! ### SET and STEP (R305, R306) -/

/-- TIM_STATUS.CMDREJ. -/
def State.timReject (s : State) : State := s.setRf .TIM_STATUS 2 1 1

/-- Windows in progress are cut by a step of fabric time (R306, R392). -/
def State.cutWindows (s : State) : State := { s with bw := SMap.mapVals {} (fun _ (w : BwSt) => { w with cut := true }) s.bw }

/-- The time that TIM_SET_S and TIM_SET_NS name, in total nanoseconds. -/
def State.setTotal (s : State) : Nat :=
  (s.reg .TIM_SET_S_LO + s.rf .TIM_SET_S_HI 0 16 * 2 ^ 32) * 1000000000 + min (s.reg .TIM_SET_NS) 999999999

/-- TIM_CMD.SET: fabric time is loaded in the next FCLK. -/
def State.timSet (s : State) : State :=
  if (s.prim = .boot ∨ s.prim = .load ∨ s.prim = .test) ∧ s.epo.t.isNone then
    { s with tim := { s.tim with jump := some (.set s.setTotal) } }
  else s.timReject

/-- TIM_STEP.UNITS as a signed number. -/
def State.stepUnits (s : State) : Int :=
  let v := s.reg .TIM_STEP
  if v < 2 ^ 31 then v else (v : Int) - 2 ^ 32

/-- TIM_CMD.STEP: fabric time is stepped in the next FCLK. -/
def State.timStep (s : State) : State :=
  let u := s.stepUnits
  if s.epo.t.isSome ∨ s.epo.dual ∨ s.prim = .boot ∨ s.prim = .load ∨ s.prim = .test ∨ s.prim = .halt ∨ s.ns + 1024 * u < 0 then
    s.timReject
  else { s with tim := { s.tim with jump := some (.step u) } }

/-- Fabric time is loaded: the count, the total of the steps, and what is measured from an earlier time. -/
def State.loadTime (s : State) (new : Nat) : State :=
  let d : Int := new - s.ns
  ({ s with tim := { s.tim with c := 3 * new % 2 ^ 64, steps := 0, ppsRef := s.tim.ppsRef + d
                                ppsLast := s.tim.ppsLast.map (· + d) } }.setRf .TIM_STATUS 0 1 1).cutWindows

/-- Fabric time is stepped; a whole second that the step crosses is due at PPS_OUT (R309). -/
def State.stepTime (s : State) (u : Int) : State :=
  let t := { s with tim := { s.tim with steps := s.tim.steps + u } }
  let due : Bool := s.rf .TIM_CTRL 1 1 == 1 && secOf s.ns != secOf t.ns
  ({ t with tim := { t.tim with ppsDue := t.tim.ppsDue || due } } : State).cutWindows

/-- What the last cycle's TIM_CMD left to this one. -/
def State.timeJump (s : State) : State :=
  let t := { s with tim := { s.tim with jump := none } }
  match s.tim.jump with
  | none => s
  | some (.set new) => t.loadTime new
  | some (.step u) => t.stepTime u

/-- TIM_SET. -/
def execTimSet (s : State) : Host.Outcome State Fault Refusal := .next s.timSet

/-- TIM_STEP. -/
def execTimStep (s : State) : Host.Outcome State Fault Refusal := .next s.timStep

/-! ### PPS_IN and holdover (R307, R308) -/

/-- A signed number of 32 bits, saturated at ±0x7FFF_FFFF. -/
def sat32 (v : Int) : Nat := (max (-0x7FFFFFFF) (min 0x7FFFFFFF v) % 2 ^ 32).toNat

/-- PPS_IN_EDGE: the synchronised edge is seen in this cycle. -/
def execPpsInEdge (s : State) : Host.Outcome State Fault Refusal :=
  let (t, frac) := s.timeAgo 2
  let soon : Bool := match s.tim.ppsLast with | some l => decide (t < l + 900000000) | none => false
  if s.rf .TIM_CTRL 0 1 = 0 ∨ soon then .next (s.bump .TIM_PPS_REJ)
  else
    let near := (t + 500000000) / 1000000000 * 1000000000
    let s := (s.setReg .TIM_PPS_S (secOf t % 2 ^ 32)).setReg .TIM_PPS_NS (nsOf t)
    let s := (s.setReg .TIM_PPS_ERR (sat32 ((t - near) * 65536 + frac))).setRf .TIM_STATUS 1 1 0
    .next { s with tim := { s.tim with ppsLast := some t, ppsRef := t } }

/-- HOLDOVER_ENTER. -/
def execHoldoverEnter (s : State) : Host.Outcome State Fault Refusal :=
  let lim : Int := (max 1 (s.rf .TIM_CTRL 8 8) : Nat) * 1000000000
  if s.rf .TIM_CTRL 0 1 = 0 ∨ s.rf .TIM_STATUS 1 1 = 1 ∨ s.ns < s.tim.ppsRef + lim then .next s
  else .next ((s.setRf .TIM_STATUS 1 1 1).raiseSpine 28 13 1 (fidUnit 0x185))

/-! ### PPS_OUT (R309) -/

/-- PPS_OUT_RISE: NS becomes 0, or a step has crossed a whole second; never within 900 ms of the last rise. -/
def execPpsOutRise (s : State) : Host.Outcome State Fault Refusal :=
  let soon : Bool := match s.tim.ppsRise with | some (_, t) => decide (s.tick < t + usTicks 900000) | none => false
  let due : Bool := s.tim.ppsDue || (nsOf s.ns == 0 && s.tim.c % 3 == 0)
  if s.rf .TIM_CTRL 1 1 = 0 ∨ s.tim.ppsOut ∨ ¬due then .next s
  else if soon then .next { s with tim := { s.tim with ppsDue := false } }
  else .next { s with tim := { s.tim with ppsOut := true, ppsDue := false, ppsRise := some (s.ns, s.tick) } }

/-- PPS_OUT_FALL: the pin has been high for TIM_PPSOUT_W. -/
def execPpsOutFall (s : State) : Host.Outcome State Fault Refusal :=
  match s.tim.ppsRise with
  | some (_, t) =>
    if s.tim.ppsOut ∧ t + usTicks (max 1 (s.rf .TIM_PPSOUT_W 0 20)) ≤ s.tick then .next { s with tim := { s.tim with ppsOut := false } }
    else .next s
  | none => .next s

/-! ### Beacons and the read of the time (R312, R313) -/

/-- The common FEAT of an SL port that is UP holds TIME. -/
def State.slTime (s : State) (n : Nat) : Bool := (s.nif (0x120 + n)).link == .up && bitOf (s.slFeat (0x120 + n)) 3

/-- TIME_BEACON: the offset of the far socket that the round trip gives. -/
def execTimeBeacon (sl : Fin 6) (offset : BitVec 32) (s : State) : Host.Outcome State Fault Refusal :=
  if s.slTime sl then .next ((s.setReg .TIM_SLOFFn offset.toNat 0 sl).setRf .TIM_STATUS (3 + sl) 1 1) else .next s

/-- A read of TIM_NOW_NS latches the whole time. -/
def State.latchTime (s : State) : State := { s with hub := { s.hub with latTime := secOf s.ns % 2 ^ 48 + s.tim.frac * 2 ^ 48 } }

/-- TIM_NOW_READ. -/
def execTimNowRead (s : State) : Host.Outcome State Fault Refusal := .next s.latchTime

end Sys2Proof.Machine
end

