-- ==== Sys2Proof/Machine/ImageCheck.lean ====
section
/-! DEFINITION. What an image has to satisfy before any part of it is applied (R24 to R27 and the content rules of the
owning chapters). -/

namespace Sys2Proof.Machine

/-! ### Checks 1 to 5: the header (R27) -/

/-- Largest image of a KIND (R25). -/
def imgLimit (kind : Nat) : Nat := if kind ≤ 2 then 2 ^ 23 else 2 ^ 17

/-- BASE_ID is the running PROG_ID, for an image of every KIND (R417: while FALLBACK = 1 that of the Clove image); or the image is
full and no program runs. -/
def State.baseOk (s : State) (b : List Byte) : Bool :=
  (s.prg.running && areaNat b 0x18 8 == s.prg.progId) || (imgKind b == 0 && !s.prg.running)

/-- The first header check that fails, as PRG_STATUS.ERR. -/
def State.headerErr (s : State) (b : List Byte) : Option Nat :=
  if areaNat b 0 4 ≠ 0x47505541 ∨ areaNat b 4 2 ≠ 3 ∨ areaNat b 8 2 ≠ 0x0A4D ∨ 4 < imgKind b
      ∨ imgDrain b < 1024 ∨ 1048576 < imgDrain b then some 1
  else if s.reg .GLB_IPVER < areaNat b 0x0C 4 then some 2
  else if imgLen b % 64 ≠ 0 ∨ imgLimit (imgKind b) < imgLen b then some 6
  else if (crc32c (b.take 0xFC)).toNat ≠ areaNat b 0xFC 4 then some 3
  else if ¬s.baseOk b then some 7
  else none

/-! ### Checks 6 to 9: the section table and the sections (R24, R25) -/

/-- Sections stand in ascending order without overlap between two offsets. -/
def sectionsFit (lo len : Nat) : List Section → Bool
  | [] => true
  | x :: xs => x.off % 64 == 0 && lo ≤ x.off && x.size % 8 == 0 && 8 ≤ x.size && x.off + x.size ≤ len
      && sectionsFit (x.off + x.size) len xs

/-- The layout obeys R25. -/
def layoutOk (b : List Byte) : Bool :=
  let n := areaNat b 0x24 2
  decide (1 ≤ n ∧ n ≤ 16) && sectionsFit (0x100 + 32 * n) (imgLen b) (imgSections b)

/-- The section set obeys R24. -/
def sectionSetOk (b : List Byte) : Bool :=
  let ts := (imgSections b).map (·.typ)
  let each (t : Nat) : Bool := if imgKind b = 0 ∨ t = 12 then ts.count t == 1 else ts.count t ≤ 1
  ts.all (fun t => 1 ≤ t && t ≤ 12) && ((List.range 12).map (· + 1)).all each

/-- The image delivers rules: it carries a RULE section, or a WRTB of it writes TABLE 5 out of another one (R212; log 93). -/
def hasRules (b : List Byte) : Bool :=
  (imgSections b).any (fun x => x.typ == 6)
    || (ctrlList (imgCtrl b) (imgCtrl b).length 0).any (fun i => i.fop == 1 && i.wrtb.1 == 5)

/-! ### Check 10: the content (R27) -/

/-- The entries that the WRTBs of an image write, up to its END. -/
def State.imageWrites (s : State) (b : List Byte) : List TabWrite :=
  let c := imgCtrl b
  ((ctrlList c c.length 0).takeWhile (fun i => i.fop != 0x1F)).flatMap (fun i =>
    if i.fop = 1 then (s.wrtbWrites b i).getD [] else [])

/-- What the new bank will hold: the running bank's contents with the written entries in their places (R317). -/
def State.nextBank (s : State) (ws : List TabWrite) : State :=
  ws.foldl (fun s w => s.putEntry s.shadowBank w) (s.copyTabs (bankOf s.epo.cur) (fun _ _ => true))

/-- An ARB entry keeps its ranges (R90).  WINDOW_LOG2 is read from its four bits [35:32] as they stand, which hold no 16; 0 to 5
are refused (DESIGN CHOICE, log 95). -/
def arbOk (w : TabWrite) : Bool :=
  let e := w.val
  let isHome : Bool := 0xC0 ≤ w.unit && w.unit < 0x100
  [(0, 8), (8, 8), (16, 8), (24, 8), (40, 10), (50, 10), (60, 10), (70, 10)].all (fun f => fld e f.1 f.2 != 0)
    && 6 ≤ fld e 32 4 && fld e 36 4 == 0 && fld e 88 40 == 0 && (fld e 80 8 != 0) == isHome

/-- An entry of the RULE section keeps the rules of R197 and R199; a hardwired or fused map entry is judged by its lock alone. -/
def State.ruleOk (s : State) (w : TabWrite) : Bool :=
  if w.idx < 4096 then !ruleVld w.val || ruleGood w.val
  else if (s.fusedCell w.idx).isSome then true
  else !bitOf w.val 4 || (1 ≤ fld w.val 0 4 && fld w.val 0 4 ≤ 14)

/-- In a full image the own socket is not remote (R159). -/
def State.socketOk (s : State) (full : Bool) (w : TabWrite) : Bool :=
  !(full && w.idx == 4096 + (s.fuses.map (fun f => f.socket.toNat)).getD 0 && bitOf w.val 3)

/-- FIDs that a pull queue may notify (R238). -/
def notifyOk (f : Nat) : Bool :=
  f == 0 || decide (f < 0x80) || (0x110 ≤ f && f ≤ 0x11B) || isCluster f

/-- A span lies within the memory of a queue. -/
def qSpanOk (d off n : Nat) : Bool := decide (off + n ≤ if qMem d then 2 ^ 42 else sramSize)

/-- A queue descriptor keeps R237 and R238, whatever its MODE. -/
def qdescOk (d : Nat) : Bool :=
  qMode d != 3 && (qMode d != 2 || isCluster (qCons d) || (0x110 ≤ qCons d && qCons d ≤ 0x11B)) && notifyOk (qNotify d)
    && qSpanOk d (qRing d) (qSlot d * 2 ^ qLog d) && qSpanOk d (qMeta d) (16 * 2 ^ qLog d) && 767 ≤ qQuantum d

/-- A group entry of SHAPE keeps R238. -/
def groupOk (w : TabWrite) : Bool := w.idx < 16384 || 16480 ≤ w.idx || 512 ≤ fld w.val 0 16

/-- RING_BASE, META_BASE, MEM, SLOTLOG2 and RINGLOG2 of a descriptor. -/
def qPlace (d : Nat) : Nat × Nat × Bool × Nat × Nat := (qRing d, qMeta d, qMem d, qSlot d, qLog d)

/-- The inputs of a port hold no more queues than they may, and groups in use have their quantum (R238); `n` is the state
with the new bank in its place. -/
def State.inputsOk (n : State) (m p : Nat) : Bool :=
  let ep := !n.epo.cur
  let mine := (n.qmList m ep).filter (fun qd => qMode qd.2 == 2 && qPort qd.2 == p)
  (List.range 16).all (fun i =>
    let k := (mine.filter (fun qd => qInput qd.2 == i)).length
    if i < 4 then decide (k ≤ 1)
    else decide (k ≤ 64) && (k == 0 || decide (512 ≤ fld (n.tab (bankOf ep) 6 (qmFid m) 0 (16384 + 12 * p + (i - 4))) 0 16)))

/-- A gate list keeps the rules of R255; with no entries in use its CYCLE is not looked at. -/
def State.gateOk (n : State) (m p : Nat) : Bool :=
  let h := n.gateHeader m p (!n.epo.cur)
  let g := n.gateList m p (!n.epo.cur)
  decide (fld h 48 32 < 1000000000) && g.ents.length ≤ 256
    && (g.ents.isEmpty || (1024 ≤ g.cycle && g.cycle ≤ 1000000000 && g.cycle == (g.ents.map (·.2)).sum
      && g.ents.all (fun e => 8 ≤ e.2)))

/-- No two spans of a list overlap. -/
def spansApart : List (Nat × Nat) → Bool
  | [] => true
  | a :: xs => xs.all (fun b => a.2 == 0 || b.2 == 0 || a.1 + a.2 ≤ b.1 || b.1 + b.2 ≤ a.1) && spansApart xs

/-- No element of a list stands in it twice. -/
def noRepeat [BEq α] : List α → Bool
  | [] => true
  | a :: xs => !xs.contains a && noRepeat xs

/-- The bindings of a cluster keep R287 in the new bank. -/
def State.bindingsOk (n : State) (k : Nat) : Bool :=
  let ep := !n.epo.cur
  let es := ((List.range 64).map (n.bindEntry k ep)).filter bindVld
  noRepeat (es.map bindQueue) && es.all (fun e => bitOf (n.thrEntry k ep (bindThr e)) 20 && bindSlot e (bindSlots e) ≤ 2 ^ 18)
    && spansApart (es.map (fun e => (bindSlot e 0, 512 * bindSlots e)))

/-- A slice exists in the new bank. -/
def State.sliceNew (n : State) (sl : Nat) : Bool := bitOf (n.sliceDef (!n.epo.cur) sl) 0

/-- The slice map and the default entry of an interface keep R317 in the new bank. -/
def State.sliceMapOk (n : State) (f : Nat) : Bool :=
  let b := n.shadowBank
  let es := ((List.range 4096).map (n.tab b 8 f 0)).filter (fun e => bitOf e 26)
  let d := n.tab b 8 f 0 4160
  es.all (fun e => n.sliceNew (fld e 20 6)) && noRepeat (es.map (fun e => fld e 0 20))
    && (List.range 64).all (fun sl => (es.filter (fun e => fld e 20 6 == sl)).length ≤ 256)
    && (!(bitOf d 7 || !bitOf d 6) || n.sliceNew (fld d 0 6))

/-- A queue of a manager keeps R317 in the new bank. -/
def State.queueSliceOk (n : State) (m : Nat) (qd : Nat × Nat) : Bool :=
  let q := 16384 * m + qd.1
  qMode qd.2 == 0 || (n.sliceNew (qSlice qd.2) && (List.range 64).all (fun sl =>
    let d := n.sliceDef (!n.epo.cur) sl
    !(bitOf d 0 && fld d 16 16 ≤ q && q < fld d 16 16 + fld d 32 17) || qSlice qd.2 == sl))

/-- The rules of R317 hold of the new bank; interfaces with no slice entries of their own are not looked at. -/
def State.slicesOk (n : State) : Bool :=
  let ep := !n.epo.cur
  let ds := ((List.range 64).map (n.sliceDef ep)).filter (fun d => bitOf d 0)
  let mapped := (allFids.filter isPartner).filter (fun f => n.tabs.any (fun kv =>
    kv.1 / 65536 / 8 == (n.shadowBank * 16 + 8) * 1024 + f))
  spansApart (ds.map (fun d => (fld d 16 16, fld d 32 17))) && spansApart (ds.map (fun d => (fld d 64 12, fld d 76 13)))
    && ds.all (fun d => (fld d 76 13 == 0 || (16 ≤ fld d 64 12 && fld d 64 12 + fld d 76 13 ≤ 4096))
      && fld d 16 16 + fld d 32 17 ≤ 65536)
    && mapped.all n.sliceMapOk
    && (List.range 4).all (fun m => (n.qmList m ep).all (n.queueSliceOk m))
    && (List.range 1536).all (fun t =>
      let e := n.thrEntry (t / 32) ep (t % 32)
      !bitOf e 20 || n.sliceNew (fld e 14 6))
    && (List.range 16).all (fun k => (List.range 64).all (fun i =>
      let lo := n.reg .SSB_RGNn_LO (ssbBase k) i
      !(bitOf lo 15 && bitOf lo 22) || n.sliceNew (fld lo 16 6)))

/-- Check 10 of R27. -/
def State.contentOk (s : State) (b : List Byte) : Bool :=
  let ws := s.imageWrites b
  let n := s.nextBank ws
  let of_ (t : Nat) : List TabWrite := ws.filter (fun w => w.table == t)
  let desc := (of_ 6).filter (fun w => w.idx < 16384)
  !(3 ≤ imgKind b && hasRules b)
    && (of_ 3).all arbOk && (of_ 4).all (s.socketOk (imgKind b == 0)) && (of_ 5).all s.ruleOk
    && desc.all (fun w =>
      let old := s.qdesc (16384 * (w.unit - 0x170) + w.idx)
      qdescOk w.val && (qMode old == 0 || qPlace old == qPlace w.val))
    && (of_ 6).all groupOk && ((of_ 6).map (·.unit)).eraseDups.all (fun u => (List.range 8).all (n.inputsOk (u - 0x170)))
    && ((of_ 7).map (fun w => (w.unit, w.port))).eraseDups.all (fun up => n.gateOk (up.1 - 0x170) up.2)
    && ((of_ 9).map (·.unit)).eraseDups.all (fun u => n.bindingsOk (u - 0x130))
    && ((of_ 6).isEmpty && (of_ 8).isEmpty && (of_ 9).isEmpty || n.slicesOk)

/-! ### Checks 11 and 12 (R211, R212) -/

/-- A rule entry or map entry that is locked in the running bank keeps its contents. -/
def State.lockOk (s : State) (w : TabWrite) : Bool :=
  let cur := s.entryAs (bankOf s.epo.cur) 5 4 0 w.idx
  !(bitOf cur (if w.idx < 4096 then 47 else 5)) || cur == w.val

/-- The first check that a whole image fails, as PRG_STATUS.ERR (R27). -/
def State.imageErr (s : State) (b : List Byte) : Option Nat :=
  match s.headerErr b with
  | some e => some e
  | none =>
    let n := areaNat b 0x24 2
    if (crc32c ((b.drop 0x100).take (32 * n))).toNat ≠ areaNat b 0x30 4 then some 4
    else if ¬layoutOk b then some 6
    else if ¬(imgSections b).all (fun x => (crc32c (x.bytes b)).toNat == x.crc) then some 5
    else if ¬sectionSetOk b ∨ ¬s.contentOk b then some 1
    else if ¬((s.imageWrites b).filter (fun w => w.table == 5)).all s.lockOk then some 8
    else if hasRules b ∧ ¬s.prg.writer then some 0x10
    else none

end Sys2Proof.Machine
end

