-- ==== Sys2Proof/Machine/EpochOps.lean ====
section
/-! DEFINITION. The parts of the epoch switch: who takes part (R39), what UNFENCE gives a unit (R349), what takes effect at
T, who still holds an old-epoch packet, and the freeing of the old bank (R38 to R42). -/

namespace Sys2Proof.Machine

/-! ### Units (R39) -/

/-- Every unit that an arm concerns: the routers and every interface. -/
def allUnits : List UnitRef := (List.range 144).map nodeUnit ++ allFids.map fidUnit

/-- The key under which a unit is fenced. -/
def fenceKeyOf (u : UnitRef) : FenceKey :=
  if u.node then .router u.id
  else if 0xC0 ≤ u.id ∧ u.id < 0x100 then .home (u.id - 0xC0)
  else if isCluster u.id then .cluster (u.id - 0x130)
  else .ni u.id

/-- The unit that a CLASS and UNIT of FENCE or UNFENCE name; homes and clusters are named by FID; none: not of the CLASS
(R28). -/
def classUnit (cls u : Nat) : Option UnitRef :=
  if cls = 0 then (if u < 144 then some (nodeUnit u) else none)
  else if cls = 1 then (if assigned u then some (fidUnit u) else none)
  else if cls = 2 then (if 0xC0 ≤ u ∧ u < 0x100 then some (fidUnit u) else none)
  else if isCluster u then some (fidUnit u) else none

/-- Power domain of the part of a unit that holds an epoch: the router or the interface. -/
def epochDomain (u : UnitRef) : Nat := if u.node then 2 + 4 * (u.id / 36) else niDomain u.id

/-- The running image unfences the unit. -/
def State.unfences (s : State) (u : UnitRef) : Bool :=
  s.prg.unfence.any (fun cu => classUnit cu.1 cu.2 == some u)

/-- The units that have to acknowledge an arm (R39).  A fenced unit that the image unfences is asked though its domain is in
Sleep or lower: both sentences of the rule apply to it (DESIGN CHOICE, log 93). -/
def State.participants (s : State) : List UnitRef :=
  allUnits.filter (fun u => if s.isFenced (fenceKeyOf u) then s.unfences u else (s.domain (epochDomain u)).st ≤ 1)

/-! ### Engine clusters that start afresh (R289, R349) -/

/-- Local SRAM is zeroed, the receive rings are emptied with their messages counted, and every thread with a valid entry
restarts in the current bank. -/
def State.restartCluster (s : State) (k : Nat) : State :=
  let lost := ((s.cl k).ring.map (fun r => r.2.msgs.length)).sum
  let s := (s.lsZero k).bump .ENG_CL_RXLOST (eclBase k) 0 lost
  let s := s.updCl k (fun c => { c with ring := [], reqs := [], sample := none })
  (List.range 32).foldl (fun s i =>
    let e := s.thrEntry k s.epo.cur i
    if bitOf e 20 then
      let s := if (s.thr k i).tep = s.epo.cur ∧ (s.thr k i).st ≠ .off then s else s.adopt k i
      s.updThr k i (fun x =>
        let y := { (x.restart e) with sb := [] }
        if s.stands y.slice.toNat then y.stand else y)
    else s) s

/-! ### UNFENCE at the switch (R349) -/

/-- The keys are no longer fenced. -/
def State.dropKeys (s : State) (ks : List FenceKey) : State :=
  { s with fc := { s.fc with bare := s.fc.bare.filter (fun x => !ks.contains x),
                             called := s.fc.called.filter (fun x => !ks.contains x) } }

/-- The credits of a router's links stand at the buffer depths, and its buffers are empty. -/
def State.clearRouter (s : State) (n : Nat) : State :=
  let mine (k : Nat) : Bool := k / 128 == n
  let far := (List.range 7).filterMap (neighbour n)
  let towards (k : Nat) : Bool := far.any (fun mp => k / 16 == mp.1 * 8 + mp.2)
  { s with rbuf := s.rbuf.filter (fun kb => !mine kb.1),
           cred := s.cred.filter (fun kc => !mine kc.1 && !towards kc.1) }

/-- The directory, tracker, predictor and queues of a home are empty. -/
def State.clearHome (s : State) (k : Nat) : State :=
  { (s.setHm k {}) with
    dir := s.dir.filter (fun e => e.1 / 98304 != k)
    plru := s.plru.filter (fun e => e.1 / 8192 != k)
    pred := s.pred.filter (fun e => e.1 / 2048 != k) }

/-- An interface that returns to service, as a warm reset would leave it: its partner's pins stand, and its reports are numbered on
(R349, R336). -/
def Ni.unfenced (n : Ni) : Ni := { p2fLink := n.p2fLink, mustFall := n.mustFall, anise := n.anise, repNum := n.repNum }

/-- A fenced unit returns to service. -/
def State.unfenceUnit (s : State) (u : UnitRef) : State :=
  let key := fenceKeyOf u
  if ¬s.isFenced key then s
  else
    match key with
    | .router n => ((s.setMap .FC_FENCED_RTRn n false).clearRouter n).dropKeys [key]
    | .home k => ((((s.setMap .FC_FENCED_HSn k false).setMap .FC_FENCED_NIn (0xC0 + k) false).updNi (0xC0 + k) Ni.unfenced).clearHome k).dropKeys
        [key, .ni (0xC0 + k)]
    | .cluster k => ((((s.setMap .FC_FENCED_ECn k false).setMap .FC_FENCED_NIn (clFid k) false).updNi (clFid k) Ni.unfenced).restartCluster k).dropKeys
        [key, .ni (clFid k)]
    | .ni f => ((s.setMap .FC_FENCED_NIn f false).updNi f Ni.unfenced).dropKeys [key]
    | _ => s

/-- A quadrant whose units are no longer all fenced is fenced no more. -/
def State.quadsNow (s : State) : State :=
  (List.range 4).foldl (fun s q =>
    if bitOf (s.reg .FC_FENCED_Q) q ∧ ¬(quadKeys q).all (fun k => match k with | .ni f => s.isFenced (fenceKeyOf (fidUnit f)) | k => s.isFenced k)
    then (s.setRf .FC_FENCED_Q q 1 0).dropKeys [.quadrant q] else s) s

/-- Every UNFENCE of the running image. -/
def State.unfenceAll (s : State) : State :=
  ((s.prg.unfence.filterMap (fun cu => classUnit cu.1 cu.2)).foldl State.unfenceUnit s).quadsNow

/-- Links return to service with a return image or a full image, which route over them again (R347). -/
def State.linksBack (s : State) : State :=
  (s.dropKeys (s.fc.links.map (fun np => FenceKey.link np.1 np.2))) |> fun s => { s with fc := { s.fc with links := [] } }

/-- The fences of units in the bitmaps, as keys. -/
def State.fencedKeys (s : State) : List FenceKey :=
  ((allUnits.map fenceKeyOf).filter s.isFenced) ++ (s.fc.links.map (fun np => FenceKey.link np.1 np.2))

/-! ### What takes effect at T -/

/-- A pending word put into the Epoch fields of a register (R13). -/
def RegSpec.epochWord (sp : RegSpec) (old v : Nat) : Nat :=
  sp.fields.foldl (fun a f => if f.kind == .epoch then setFld a f.lo f.w (fld v f.lo f.w) else a) old

/-- Pending Epoch-kind fields take effect (R13, R38). -/
def State.applyShadows (s : State) : State :=
  let s' := s.shadows.foldl (fun s kv => match regAt kv.1, kv.2 with
    | some (r, base, i), some v => s.setReg r (r.spec.epochWord (s.reg r base i) v.toNat) base i
    | _, _ => s) s
  { s' with shadows := [] }

/-- Homes, bank nodes and clusters: units behind an interface with a power domain of their own. -/
def innerFids : List Nat := allFids.filter (fun f => unitDomain f != niDomain f)

/-- Units whose domain is in Sleep or lower keep the epoch bit that they have (R39). -/
def State.keepEpochs (s : State) : State :=
  let down := (allFids ++ (List.range 144).map (1024 + ·) ++ innerFids.map (2048 + ·)).filter (fun k => s.domDown (holderDomain k))
  { s with ownEp := down.foldl (fun m k => if m.any (fun e => e.1 == k) then m else SMap.ins k s.epo.cur m) s.ownEp }

/-- The buckets whose home the switch changes, as the spine's interleave tables give them; none at the first switch. -/
def State.bucketMoves (s : State) : List (Nat × Nat × Nat) :=
  if ¬s.epo.first then []
  else (List.range 4096).filterMap (fun b =>
    let old := fld (s.ilv 0x180 (!s.epo.cur) b) 0 6
    let new := fld (s.ilv 0x180 s.epo.cur b) 0 6
    if old = new then none else some (b, old, new))

/-- The requests on a bucket that a home has taken. -/
def Home.requestsOn (m : Home) (b : Nat) : List (Fid × BitVec 12) :=
  (m.trk.flatMap (fun he => match he.2 with
      | some e => if bucketOf e.line = b then e.req :: e.waiters.map (·.1) else []
      | none => []) ++ m.ready.flatMap (fun r => if bucketOf r.1 = b then r.2.map (·.1) else [])).map (fun q => (q.src, q.txid))

/-- The new homes of the moved buckets wait for their release; what they have taken on such a bucket before is of an epoch in
which it was theirs, and does not wait (R42). -/
def State.moveBuckets (s : State) : State :=
  let ms := s.bucketMoves
  let s := { s with epo := { s.epo with moves := s.epo.moves ++ ms } }
  ms.foldl (fun s mv => s.updHm mv.2.2 (fun m => { m with
    await := mv.1 :: m.await.filter (· != mv.1), before := m.before ++ m.requestsOn mv.1 })) s

/-- Threads in OFF or HALT of clusters in service adopt the new bank at once (R288). -/
def State.adoptAll (s : State) : State :=
  (List.range 1536).foldl (fun s t =>
    if s.clusterFenced (t / 32) ∨ s.domDown (unitDomain (clFid (t / 32))) then s else s.adoptIdle (t / 32) (t % 32)) s

/-- FALLBACK after the switch to an image (R348). -/
def State.fallbackAfter (s : State) (kind : Nat) : Bool :=
  match s.prg.clove with
  | some r => if r.sort = 0 then true else if r.sort = 2 ∨ kind = 0 then false else s.fallback
  | none => if kind = 0 then false else if kind = 3 then true else s.fallback

/-- Fences that the new image covers; at the first switch after a reset every other fence is uncovered (R348, R411). -/
def State.coverFences (s : State) : State :=
  let s := if s.epo.first then s
    else { s with fc := { s.fc with bare := s.fencedKeys.filter (fun k => !(s.prg.fenced.flatMap keysOf).contains k) } }
  let s := s.prg.fenced.foldl State.cover s
  match s.prg.clove.bind (·.fence) with
  | some k => s.cover k
  | none => s

/-! ### Old-epoch packets and the end of the drain -/

/-- A packet of the epoch that the last switch ended. -/
def State.oldPkt (s : State) (p : Pkt) : Bool := p.ep != s.epo.cur

/-- A router holds an old-epoch packet. -/
def State.routerOld (s : State) (n : Nat) : Bool :=
  s.rbuf.any (fun kb => kb.1 / 128 == n && (kb.2.q.any (fun x => s.oldPkt x.pkt) ||
    (match kb.2.kept with | some (_, p) => s.oldPkt p | none => false)))

/-- An interface or the unit behind it holds an old-epoch packet, or a thread that has not adopted the new bank. -/
def State.fidOld (s : State) (f : Nat) : Bool :=
  let n := s.nif f
  n.injq.any (fun x => s.oldPkt x.pkt) || n.tc0.any (fun p => s.oldPkt (s.restamp f p)) || n.egress.any (fun x => s.oldPkt x.pkt)
    || n.asm.any (fun ka => match ka.2 with | some a => s.oldPkt a.pkt | none => false) || n.epHold.any s.oldPkt || n.inbox.any s.oldPkt || n.rob.any s.oldPkt
    || n.early.any s.oldPkt || (f == 0x181 && s.saf.admq.any s.oldPkt)
    || (isCluster f && (s.cl (f - 0x130)).thr.any (fun kx => kx.2.st != .off && kx.2.tep != s.epo.cur))

/-- The units in service that still hold the old epoch. -/
def State.oldHolders (s : State) : List UnitRef :=
  allUnits.filter (fun u => !s.isFenced (fenceKeyOf u) && !s.domDown (epochDomain u)
    && (if u.node then s.routerOld u.id else s.fidOld u.id))

/-- A unit reports CONTRACT. -/
def State.raiseContract (s : State) (u : UnitRef) : State := if u.node then s.raiseRtr u.id 8 1 0 else s.raiseNi u.id 8 1

/-- GLB_CTRL.DRAIN takes effect: ports withhold their REQ beats and every thread stops (R412). -/
def State.beginDrain (s : State) : State :=
  ({ s with prim := .drain, drainPend := false, drainAt := some s.tick } : State).mapThreads (fun _ => true) (fun _ _ x => x.stand)

/-- A sequence has reached its END and, with a switch, the end of its drain. -/
def State.prgDone (s : State) : State :=
  let r := s.prg.clove
  let s := { s with prg := { s.prg with state := .done, wait := .none, abort := false, unfence := [], fenced := [], clove := none } }
  match r with
  | some r => if r.sort = 1 then s.imageFailed r else s
  | none => s

/-- The receive rings of the bank that is freed go with its binding tables, and with them messages that no thread has received
(DESIGN CHOICE, log 103: the spec tells of lost messages only at a wake). -/
def State.dropOldRings (s : State) : State :=
  { s with ecl := SMap.mapVals {} (fun k (c : Ecl) =>
      if s.clusterFenced k then c
      else { c with ring := c.ring.filter (fun kr => kr.1 / 64 == bankOf (SMap.get s.epo.cur s.ownEp (2048 + clFid k))) }) s.ecl }

/-- The old bank becomes the shadow (R38 step 4): its contents follow the active bank, the rule keeper's when its copy ends;
waiting DRAIN, END, power entries and Clove fetches go on. -/
def State.freeBank (s : State) : State :=
  let s := { s with epo := { s.epo with dual := false, overrun := false, quiet := false }, rkCopy := some s.tick }.dropOldRings
  let s := if s.prim = .dual then (if s.drainPend then s.beginDrain else { s with prim := .run }) else s
  let s := s.resetShadow false
  let s := if s.prg.state = .executing ∧ s.prg.wait = .drain then s.prgDone else s
  s.powerDrained.pump

end Sys2Proof.Machine
end

