-- ==== Sys2Proof/Machine/Programs.lean ====
section
/-! DEFINITION. The program controller: the program port, verification, and the fabric-control instructions (R27 to R33,
R407, R433). -/

namespace Sys2Proof.Machine

/-! ### The program port (R32, R33) -/

/-- PRG_CTRL.START written by `src`. -/
def State.prgBegin (s : State) (src : Nat) : State :=
  if s.prim = .test ∨ s.prim = .halt then s
  else if s.prg.busy then s.setRf .PRG_STATUS 17 1 1
  else
    let s := s.setRf .PRG_STATUS 8 5 0
    { s with
      prim := if s.prim = .boot then .load else s.prim
      prg := { s.prg with state := .receiving, store := [], writer := s.ruleWriter == some src, pc := 0, wait := .none,
                          abort := false, unfence := [], fenced := [], clove := none, fetching := false } }

/-- PRG_CTRL.ABORT: at once while receiving or verifying, or at the next instruction boundary; an armed switch completes. -/
def State.prgAbandon (s : State) : State :=
  let p := s.prg
  if p.state = .receiving ∨ p.state = .verifying then (s.prgStop 0xE).pump
  else if p.state = .executing then
    if p.wait = .none ∨ (p.wait = .epsw ∧ s.epo.missing ≠ []) then (s.prgStop 0xE).pump
    else { s with prg := { p with abort := true } }
  else s

/-- PRG_START. -/
def execPrgStart (src : Fid) (s : State) : Host.Outcome State Fault Refusal :=
  if !assigned src.toNat then .fault .noSuchUnit
  else if s.prim = .boot ∧ src ≠ 0x126 then .next s else .next (s.prgBegin src.toNat)

/-- PRG_ABORT. -/
def execPrgAbort (s : State) : Host.Outcome State Fault Refusal := .next s.prgAbandon

/-- CLOVE_LOCK. -/
def execCloveLock (s : State) : Host.Outcome State Fault Refusal := 
  .next (if s.lockOf .PRG_CTRL then s else (s.setRf .PRG_CTRL 31 1 1).undoLocked .PRG_CTRL)

/-- A write to PRG_DATA: 4 bytes, or the 64 of a line, appended while an image is being received.  The bytes of the write that
overruns LENGTH are appended too, so that PRG_WPTR reads past LENGTH (DESIGN CHOICE, log 93). -/
def State.prgData (s : State) (src : Nat) (data : List Byte) : State :=
  let p := s.prg
  if p.state ≠ .receiving ∨ p.fetching ∨ (data.length ≠ 4 ∧ data.length ≠ 64) then s
  else
    let b := p.store ++ data
    let s := { s with prg := { p with store := b, writer := p.writer && s.ruleWriter == some src } }
    let early : Option Nat := if p.store.length < 256 ∧ 256 ≤ b.length then s.headerErr b else none
    match early with
    | some e => (s.prgStop e).pump
    | none =>
      if b.length < 256 ∨ b.length < imgLen b then s
      else if imgLen b < b.length then (s.prgStop 6).pump
      else { s with prg := { s.prg with state := .verifying } }

/-- PRG_DATA_WRITE. -/
def execPrgDataWrite (src : Fid) (data : List Byte) (s : State) : Host.Outcome State Fault Refusal :=
  if !assigned src.toNat then .fault .noSuchUnit else .next (s.prgData src.toNat data)

/-- IMAGE_VERIFY. -/
def execImageVerify (s : State) : Host.Outcome State Fault Refusal :=
  if s.prg.state ≠ .verifying ∨ s.prim = .halt then .next s
  else match s.imageErr s.prg.store with
    | some e => .next (s.prgStop e).pump
    | none => .next { s with prg := { s.prg with state := .executing, pc := 0, wait := .none } }

/-! ### One instruction of a sequence (R28, R31, R352) -/

/-- The controller is at an instruction boundary of a sequence. -/
def State.atInstr (s : State) : Bool := s.prim != .halt && s.prg.state == .executing && s.prg.wait == .none

/-- The sequence stops, and a Clove image that waits may start. -/
def State.stopSeq (s : State) (err : Nat) : State := (s.prgStop err).pump

/-- The instruction is complete: the next one starts, or a pending ABORT takes effect. -/
def State.prgNext (s : State) (size : Nat) : State :=
  if s.prg.abort then s.stopSeq 0xE
  else { s with prg := { s.prg with pc := s.prg.pc + size, wait := .none } }

/-- The instruction waits. -/
def State.prgWait (s : State) (w : PrgWait) : State := { s with prg := { s.prg with wait := w } }

/-- The word of the program store that holds the instruction is read. -/
def State.storeWord (s : State) (err : WordErr) : Option State × State :=
  let (e, inj, s) := s.checkWord (fidUnit 0x180) 10 err
  match e with
  | .clean => (some s, s)
  | .corrected => (some (s.raiseSpine 28 5 0 (fidUnit 0x180) 0 inj), s)
  | .uncorrectable => (none, (s.raiseSpine 28 5 1 (fidUnit 0x180) 0 inj).stopSeq 0x11)

/-- The instruction at the program counter runs when its operation is `fop`, unless it stalls; one that cannot be read as an
instruction stops the sequence. -/
def State.ctrlStep (s : State) (fop : Nat) (err : WordErr) (stall : CtrlInstr → Bool) (go : CtrlInstr → State → State) : State :=
  if ¬s.atInstr then s
  else
    match ctrlAt (imgCtrl s.prg.store) s.prg.pc with
    | none => s.stopSeq 9
    | some i =>
      if i.fop ≠ fop ∨ stall i then s
      else match s.storeWord err with
        | (some s, _) => go i s
        | (none, s) => s

/-- No stall. -/
def noStall (_ : CtrlInstr) : Bool := false

/-! ### NOP, WRTB, VCRC (R28, R29) -/

/-- NOP. -/
def execNop (store : WordErr) (s : State) : Host.Outcome State Fault Refusal :=
  .next (s.ctrlStep 0 store noStall (fun i s => s.prgNext i.size))

/-- A WRTB of TABLE 5 waits for the rule keeper's copy (R216); every one waits for the end of DUAL. -/
def State.tableStall (s : State) (rule : Bool) (i : CtrlInstr) : Bool :=
  s.epo.dual || (rule && s.rkCopy.isSome && i.wrtb.1 == 5)

/-- WRTB. -/
def execWrtb (store : WordErr) (s : State) : Host.Outcome State Fault Refusal :=
  .next (s.ctrlStep 1 store (s.tableStall true) (fun i s =>
    match s.wrtbWrites s.prg.store i with
    | none => s.stopSeq 9
    | some ws => (ws.foldl (fun s w => s.putEntry s.shadowBank w) s).prgNext i.size))

/-- VCRC. -/
def execVcrc (store : WordErr) (s : State) : Host.Outcome State Fault Refusal :=
  .next (s.ctrlStep 2 store (s.tableStall false) (fun i s =>
    let t := fld i.low 15 4
    let port := fld i.low 12 3
    let u := fld (i.ops.getD 0 0) 16 10
    let us := unitsOf t port u (fun _ => true)
    if 10 < t ∨ us.isEmpty ∨ (u ≠ 0x3FF ∧ s.domDown (tabDomain t u)) then s.stopSeq 9
    else if (us.filter (fun u => !s.domDown (tabDomain t u))).all (fun u => s.tableCrc s.shadowBank t u port == i.ops.getD 1 0) then
      s.prgNext i.size
    else s.stopSeq 0xA))

/-! ### WRCS (R433) -/

/-- A control request of the program controller itself. -/
def HubReq.mine (r : HubReq) : Bool := r.src == 0x180 && r.write && r.req.isNone

/-- TXID of the controller's write to a bank node's window. -/
def wrcsTxid : BitVec 12 := 0xFFE

/-- A WRCS into the direct window goes to the bank node; one that would be answered BAD_REQ or DOMAIN_ASLEEP is dropped
(R422, R430). -/
def State.wrcsDirect (s : State) (off v : Nat) : State :=
  let d : Fid := BitVec.ofNat 10 (0x160 + fld off 21 4)
  if s.prim = .boot ∨ s.prim = .load ∨ s.asleepAt 0x180 d.toNat then s.prgWait (.wrcs false)
  else (s.send 0x180 { net := .req, dst := d, opc := 0x16, txid := wrcsTxid, len := 1, size := 2, rlx := true,
                       addr := BitVec.ofNat 52 off, ops := [BitVec.ofNat 64 v] }).prgWait (.wrcs true)

/-- WRCS: the hub takes it as a request of source 0x180, one in an FCLK and with room in its queue, and refuses an absent
offset (R423, R433). -/
def execWrcs (store : WordErr) (s : State) : Host.Outcome State Fault Refusal :=
  .next (s.ctrlStep 3 store (fun i => !inDirect (fld (i.ops.getD 0 0) 0 26) && !s.hubFree) (fun i s =>
    let off := fld (i.ops.getD 0 0) 0 26
    if inDirect off then s.wrcsDirect off (i.ops.getD 1 0)
    else match s.hubTook.hubJudge 0x180 (some 0) true off with
    | (some _, s) => s.prgWait (.wrcs false)
    | (none, s) =>
      let r : HubReq := { src := 0x180, sd := 0, write := true, off := off, value := BitVec.ofNat 32 (i.ops.getD 1 0) }
      ({ s with hub := { s.hub with queue := s.hub.queue ++ [r] } } : State).prgWait (.wrcs false)))

/-- WRCS_COMPLETE: its write has been applied, shadowed, ignored or dropped. -/
def execWrcsComplete (s : State) : Host.Outcome State Fault Refusal :=
  if s.prim = .halt ∨ s.prg.state ≠ .executing then .next s
  else match s.prg.wait with
    | .wrcs false => if (s.hub.queue ++ s.hub.tree).any HubReq.mine then .next s else .next (s.prgNext 12)
    | .wrcs true =>
      match (s.nif 0x180).inbox.find? (fun p => p.net == .rsp && p.txid == wrcsTxid) with
      | some p => .next ((s.updNi 0x180 (fun n => { n with inbox := n.inbox.erase p })).prgNext 12)
      | none => .next s
    | _ => .next s

/-! ### Waits (R30) -/

/-- The instance of a time, given by seconds modulo 65,536 and nanoseconds, that is less than 32,768 s ahead. -/
def instanceOf (now : Int) (sec ns : Nat) : Int :=
  let span : Int := 65536 * 1000000000
  let d := ((sec * 1000000000 + ns : Nat) - now) % span
  if d < 32768 * 1000000000 then now + d else now + d - span

/-- PRG_STATUS.LATE. -/
def State.prgLate (s : State) : State := s.setRf .PRG_STATUS 16 1 1

/-- WAITT. -/
def execWaitt (store : WordErr) (s : State) : Host.Outcome State Fault Refusal :=
  .next (s.ctrlStep 4 store noStall (fun i s =>
    let t := instanceOf s.ns (fld i.low 0 16) (i.ops.getD 0 0)
    if t < s.ns then s.prgLate.prgNext i.size
    else if t = s.ns then s.prgNext i.size
    else s.prgWait (.waitt t)))

/-- WAITT_EXPIRE. -/
def execWaittExpire (s : State) : Host.Outcome State Fault Refusal :=
  if s.prim = .halt ∨ s.prg.state ≠ .executing then .next s
  else match s.prg.wait with
    | .waitt t => if t ≤ s.ns then .next (s.prgNext 8) else .next s
    | _ => .next s

/-- WAITD. -/
def execWaitd (store : WordErr) (s : State) : Host.Outcome State Fault Refusal :=
  .next (s.ctrlStep 5 store noStall (fun i s => s.prgWait (.waitd (i.ops.getD 0 0) s.tick)))

/-- WAITD_EXPIRE. -/
def execWaitdExpire (s : State) : Host.Outcome State Fault Refusal :=
  if s.prim = .halt ∨ s.prg.state ≠ .executing then .next s
  else match s.prg.wait with
    | .waitd n t => if t + nsTicks n ≤ s.tick then .next (s.prgNext 8) else .next s
    | _ => .next s

/-- WAITS. -/
def execWaits (store : WordErr) (s : State) : Host.Outcome State Fault Refusal :=
  .next (s.ctrlStep 6 store noStall (fun i s =>
    s.prgWait (.waits (fld (i.ops.getD 0 0) 0 26) (i.ops.getD 1 0) (i.ops.getD 2 0) s.tick)))

/-- WAITS_TIMEOUT. -/
def execWaitsTimeout (s : State) : Host.Outcome State Fault Refusal :=
  if s.prim = .halt ∨ s.prg.state ≠ .executing then .next s
  else match s.prg.wait with
    | .waits _ _ _ t => if t + usTicks (max 1 (s.reg .PRG_WAITS_LIMIT)) ≤ s.tick then .next (s.stopSeq 0xB) else .next s
    | _ => .next s

/-! ### FENCE, UNFENCE, LINKUP, END (R28, R345, R349, R407) -/

/-- The unit that an instruction names. -/
def CtrlInstr.unit (i : CtrlInstr) : Option UnitRef := classUnit (fld i.low 17 2) (fld i.low 0 10)

/-- FENCE. -/
def execFence (store : WordErr) (s : State) : Host.Outcome State Fault Refusal :=
  .next (s.ctrlStep 7 store noStall (fun i s =>
    match i.unit with
    | none => s.stopSeq 9
    | some u =>
      let k := fenceKeyOf u
      let s := (s.fenceKey k).markCalled (keysOf k)
      ({ s with prg := { s.prg with fenced := k :: s.prg.fenced } } : State).prgNext i.size))

/-- UNFENCE: it takes effect at the switch of the image. -/
def execUnfence (store : WordErr) (s : State) : Host.Outcome State Fault Refusal :=
  .next (s.ctrlStep 8 store noStall (fun i s =>
    match i.unit with
    | none => s.stopSeq 9
    | some _ => ({ s with prg := { s.prg with unfence := (fld i.low 17 2, fld i.low 0 10) :: s.prg.unfence } } : State).prgNext i.size))

/-- Bit of the port-class mask of LINKUP for an interface: CC, LC, MP, IO, SL, MG, DB. -/
def linkClass (f : Nat) : Nat :=
  if f < 0x80 then 0 else if f < 0xC0 then 1 else if f < 0x110 then 2 else if f < 0x120 then 3
  else if f < 0x126 then 4 else if f = 0x126 then 5 else 6

/-- LINKUP: the ports of the named classes start link-up, but for those whose domain is in Sleep or lower. -/
def execLinkup (store : WordErr) (s : State) : Host.Outcome State Fault Refusal :=
  .next (s.ctrlStep 10 store noStall (fun i s =>
    if ¬s.epo.first then s.stopSeq 9
    else
      let go := allFids.filter (fun f => isPartner f && bitOf i.low (linkClass f) && !s.domDown (niDomain f))
      (go.foldl State.startLink s).prgNext i.size))

/-- END: complete at once, or when the drain of the switch has ended. -/
def execEndSeq (store : WordErr) (s : State) : Host.Outcome State Fault Refusal :=
  .next (s.ctrlStep 0x1F store noStall (fun _ s => if s.epo.dual then s.prgWait .drain else s.prgDone.pump))

/-! ### EPSW and the switch (R38 to R42, R416) -/

/-- The switch time for a requested one: at least 4 µs after the start of the instruction, rounded up to a multiple of
1,024 ns. -/
def switchTime (now : Int) (want : Option Int) : Int :=
  let t := match want with | some w => max w (now + 4000) | none => now + 4000
  (t + 1023) / 1024 * 1024

/-- EPSW: it stalls in DRAIN, and while two epochs are live. -/
def execEpsw (store : WordErr) (s : State) : Host.Outcome State Fault Refusal :=
  .next (s.ctrlStep 9 store (fun _ => s.prim == .drain || s.epo.dual) (fun i s =>
    let ns := i.ops.getD 0 0
    let want : Option Int := if ns = 0xFFFFFFFF then none else some (instanceOf s.ns (fld i.low 0 16) ns)
    let late : Bool := match want with | some w => decide (w < s.ns) | none => false
    let t := switchTime s.ns want
    let s := if late then s.prgLate else s
    let s := (s.setReg .EPO_TIME_S (secOf t % 65536)).setReg .EPO_TIME_NS (nsOf t)
    let s := { s with epo := { s.epo with t := some t, missing := s.participants } }
    (s.spineSeq { net := .req, opc := 0x1B, tc := 1, addr := BitVec.ofInt 52 t }).prgWait .epsw))

/-- The epoch-control message has been admitted by Saffron and sent to the units. -/
def State.armSent (s : State) : Bool := s.saf.slots.any (fun t => t.req.opc == 0x1B && t.state == .forwarded)

/-- The arm has reached the unit: a router by the control tree, a unit with a FID by its EpochCtl, or as `armDirect` says. -/
def State.armed (s : State) (u : UnitRef) : Bool :=
  u.node || (s.nif u.id).arm.isSome || (s.armSent && s.armDirect u)

/-- The unit can acknowledge: the arm has reached it and its shadow is complete (R38, R214, R319). -/
def State.canAck (s : State) (u : UnitRef) : Bool :=
  s.armed u && (u.node || ((u.id != 0x180 || !s.slc.any (fun kx => kx.2.mode == .freezing || kx.2.mode == .resetting))
    && (u.id != 0x182 || (s.rkCopy.isNone && (List.range 4).all s.repMatch))))

/-- EPOCH_ARM_ACK: a unit's acknowledgement, by RSP to Saffron where its arm came as a packet (R38). -/
def execEpochArmAck (unit : UnitRef) (s : State) : Host.Outcome State Fault Refusal :=
  if !unitExists unit then .fault .noSuchUnit
  else match s.epo.t with
    | some t =>
      if s.prim = .halt ∨ t - 1000 ≤ s.ns ∨ ¬s.canAck unit then .next s
      else match (if unit.node then none else (s.nif unit.id).arm) with
        | some q => .next ((s.updNi unit.id (fun n => { n with arm := none })).answer unit.id q 0)
        | none => .next { s with epo := { s.epo with missing := s.epo.missing.filter (· != unit) } }
    | none => .next s

/-- ARM_TIMEOUT. -/
def execArmTimeout (s : State) : Host.Outcome State Fault Refusal :=
  match s.epo.t with
  | some t =>
    if s.prim = .halt ∨ s.ns < t - 1000 ∨ s.epo.missing.isEmpty then .next s else .next (s.stopSeq 0xC)
  | none => .next s

/-- The switch at T: the new epoch, what the image brings, and the two live epochs; in QUIESCED the old bank is free at once. -/
def State.switchEpoch (s : State) (t : Int) : State :=
  let img := s.prg.store
  let kind := imgKind img
  let s := s.keepEpochs
  let quiet : Bool := s.prim == .quiesced
  let fb := s.fallbackAfter kind
  let back : Bool := s.prg.clove.any (fun r => r.sort == 2)
  let s := { s with
    epo := { s.epo with cur := !s.epo.cur, dual := !quiet, t := none, at_ := s.tick, overrun := false, drain := imgDrain img,
                        count := s.epo.count + 1, quiet := quiet }
    prim := if s.prim = Primary.load ∨ s.prim = Primary.run then .dual else s.prim
    fallback := fb }
  let s := { s with prg := { s.prg with running := true, progId := imgProg img
                                        base := if kind ≤ 2 ∨ back then imgProg img else s.prg.base } }
  let s := s.coverFences.unfenceAll
  let s := if kind = 0 ∨ back then s.linksBack else s
  let s := ((s.applyShadows).qmSwitch t).slcSwitch.adoptAll.moveBuckets
  let s := ({ s with epo := { s.epo with first := true } } : State).maskAll
  let s := match s.prg.clove with
    | some r => if r.sort = 1 then s.powerImageT r else if r.sort = 2 then s.returnImageT else s
    | none => s
  let s := allFids.foldl State.releaseHolds s
  let s := if quiet then s.freeBank else s
  s.prgNext 8

/-- EPOCH_SWITCH: the first cycle at or after T, every unit having acknowledged. -/
def execEpochSwitch (s : State) : Host.Outcome State Fault Refusal :=
  match s.epo.t with
  | some t =>
    if s.prim = .halt ∨ s.prg.wait ≠ .epsw ∨ s.ns < t ∨ ¬s.epo.missing.isEmpty then .next s else .next (s.switchEpoch t)
  | none => .next s

/-! ### The end of the drain (R38, R216) -/

/-- DRAIN_END. -/
def execDrainEnd (s : State) : Host.Outcome State Fault Refusal :=
  if s.prim = .halt ∨ ¬s.epo.dual ∨ s.epo.overrun ∨ s.tick < s.epo.at_ + nsTicks s.epo.drain then .next s
  else
    let hs := s.oldHolders
    if hs.isEmpty then .next s.freeBank
    else .next (hs.foldl State.raiseContract
      (({ s with epo := { s.epo with overrun := true } } : State).setRf .EPO_STATUS 3 1 1))

/-- OLD_BANK_FREE. -/
def execOldBankFree (s : State) : Host.Outcome State Fault Refusal :=
  if s.prim = .halt ∨ ¬s.epo.dual ∨ ¬s.epo.overrun ∨ ¬s.oldHolders.isEmpty then .next s else .next s.freeBank

/-- RULE_SHADOW_COPY_DONE: the shadow of every copy in service holds the active rules. -/
def execRuleShadowCopyDone (s : State) : Host.Outcome State Fault Refusal :=
  if s.rkCopy.isNone then .next s
  else .next { (s.copyTabs (bankOf s.epo.cur) (fun t u => t == 5 && !s.domDown (tabDomain 5 u))) with rkCopy := none }

/-! ### Clove images (R43 to R46, R349, R408) -/

/-- The image of a key in one copy of the store: none: the copy is damaged or repairs another program; `some none`: the
key is absent. -/
def State.cloveImage (s : State) (r : CloveReq) (copy : List Byte) : Option (Option (List Byte)) :=
  let n := areaNat copy 4 2
  let base := areaNat copy 8 8
  let baseOk : Bool := base == s.prg.progId || (r.sort == 2 && base == s.prg.base)
  if areaNat copy 0 4 ≠ 0x45564C43 ∨ 1024 < n ∨ ¬baseOk ∨ (crc32c ((copy.drop 0x20).take (16 * n))).toNat ≠ areaNat copy 0x10 4 then none
  else
    match (List.range n).find? (fun i => areaNat copy (0x20 + 16 * i) 2 == r.key) with
    | none => some none
    | some i =>
      let o := 0x20 + 16 * i
      let img := (copy.drop (areaNat copy (o + 4) 4)).take (areaNat copy (o + 8) 4)
      let good : Bool := (crc32c (img.take 0xFC)).toNat == areaNat img 0xFC 4 && areaNat img 0xFC 4 == areaNat copy (o + 12) 4
        && (crc32c ((img.drop 0x100).take (32 * areaNat img 0x24 2))).toNat == areaNat img 0x30 4
        && (imgSections img).all (fun x => (crc32c (x.bytes img)).toNat == x.crc)
      if good then some (some img) else none

/-- CLOVE_FETCH_DONE: what the memory ports answered for copy 0 and, when that fails, for copy 1. -/
def execCloveFetchDone (copy0 copy1 : List Byte) (s : State) : Host.Outcome State Fault Refusal :=
  match s.prg.clove with
  | some r =>
    if s.prim = .halt ∨ ¬s.prg.fetching then .next s
    else match (s.cloveImage r copy0).orElse (fun _ => s.cloveImage r copy1) with
      | some (some img) => .next { s with prg := { s.prg with store := img, fetching := false, state := .verifying } }
      | _ => .next ((s.imageless r.fence).stopSeq 0xF)
  | none => .next s

/-- FC_CTRL.RETURN. -/
def State.askReturn (s : State) : State :=
  if ¬s.fallback ∨ s.prg.busy ∨ (List.range 32).any (fun c => 2 ≤ s.pendOf c) then s.setRf .FC_STATUS 5 1 1
  else s.wantReturn.pump

/-- FAULT_RETURN. -/
def execFaultReturn (s : State) : Host.Outcome State Fault Refusal := .next s.askReturn

end Sys2Proof.Machine
end

