-- ==== Sys2Proof/Machine/Power.lean ====
section
/-! DEFINITION. The power controller's commands: requests, the entry handshake, voltage steps, wakes and fabric sleep (R361 to
R383). -/

namespace Sys2Proof.Machine

/-! ### What keeps a unit from stopping (R361, R366) -/

/-- A thread is READY or in PARK. -/
def Thr.active (x : Thr) : Bool := x.st == .ready || x.st == .park

/-- An interface holds a flit, a beat, a request, a report or a tracker entry. -/
def Ni.busy (n : Ni) : Bool :=
  !n.injq.isEmpty || !n.tc0.isEmpty || !n.egress.isEmpty || !n.asm.isEmpty || !n.rob.isEmpty || !n.src.isEmpty || !n.tgt.isEmpty || !n.beats.isEmpty
    || !n.f2pWait.isEmpty || !n.hold.isEmpty || !n.epHold.isEmpty || !n.early.isEmpty || !n.reports.isEmpty

/-- A unit of a domain has work: in a NET domain or SPINE its router or interface with what the interface serves there, in
the other domains the unit behind the interface. -/
def State.unitBusy (s : State) (d : Nat) (u : UnitRef) : Bool :=
  if u.node then s.rbuf.any (fun kb => kb.1 / 128 == u.id && (!kb.2.q.isEmpty || kb.2.kept.isSome))
  else
    let f := u.id
    let n := s.nif f
    let box : Bool := !n.inbox.isEmpty
    if d = 1 then
      n.busy || box || (f == 0x180 && (s.prg.busy || !s.hub.queue.isEmpty))
        || (f == 0x181 && (!s.saf.slots.isEmpty || !s.saf.admq.isEmpty || !s.saf.spine.isEmpty)) || (f == 0x183 && !s.fc.queue.isEmpty)
    else if domBit d = 0 then
      n.busy || (0x170 ≤ f && f < 0x174 && (box || !(s.qmAt (f - 0x170)).dlv.isEmpty
        || !(s.qmAt (f - 0x170)).jobs.isEmpty || !(s.qmAt (f - 0x170)).ring.isEmpty || (s.qmAt (f - 0x170)).port.any (fun kp => !kp.2.staged.isEmpty)))
    else if domBit d = 1 then
      let m := s.hm (f - 0xC0)
      box || !m.trk.isEmpty || !m.wbufs.isEmpty || !m.wbWait.isEmpty || !m.ready.isEmpty || !m.judge.isEmpty
    else if domBit d = 2 then
      let c := s.cl (f - 0x130)
      box || !c.reqs.isEmpty || c.thr.any (fun kx => kx.2.active || !kx.2.sb.isEmpty)
    else box || (List.range 4).any (fun b => (s.bankAt (f - 0x160) b).atom.isSome) || !(s.locOf (f - 0x160)).isEmpty

/-- A domain has work (R361). -/
def State.domainBusy (s : State) (d : Nat) : Bool := (domUnits d).any (s.unitBusy d)

/-- A home owns a bucket of the active interleave bank, has one in reconstruct mode, or has one still to release. -/
def State.homeOwns (s : State) (k : Nat) : Bool :=
  (List.range 4096).any (fun b => fld (s.ilv 0x180 s.epo.cur b) 0 6 == k) || !(s.hm k).recon.isEmpty || !(s.hm k).await.isEmpty
    || s.epo.moves.any (fun mv => mv.2.1 == k)

/-- A slice that is FREEZING or RESETTING owns resources of the unit. -/
def State.sliceBusy (s : State) (f : Nat) : Bool :=
  (s.slc.filter (fun kx => kx.2.mode == .freezing || kx.2.mode == .resetting)).any (fun kx =>
    let sl := kx.1
    if isCluster f then (List.range 32).any (fun i =>
      let e := s.thrEntry (f - 0x130) s.epo.cur i
      bitOf e 20 && fld e 14 6 == sl)
    else if 0x160 ≤ f ∧ f < 0x170 then (List.range 64).any (fun i =>
      let lo := s.reg .SSB_RGNn_LO (ssbBase (f - 0x160)) i
      bitOf lo 15 && bitOf lo 22 && fld lo 16 6 == sl)
    else if 0x170 ≤ f ∧ f < 0x174 then
      let e := s.sliceDef s.epo.cur sl
      let m := 16384 * (f - 0x170)
      fld e 32 17 != 0 && fld e 16 16 < m + 16384 && m < fld e 16 16 + fld e 32 17
    else false)

/-- The reason for which a unit refuses an entry of its domain, if it does (R366). -/
def State.refusal (s : State) (d : Nat) (u : UnitRef) : Option Nat :=
  let f := u.id
  let own : Bool := !u.node && 2 ≤ d && domBit d != 0
  if (if u.node then s.routerOld u.id else (d < 2 || domBit d == 0 || own) && s.fidOld f) then some 6
  else if !u.node && s.sliceBusy f then some 5
  else if own && isCluster f && (s.cl (f - 0x130)).thr.any (fun kx => kx.2.active) then some 4
  else if own && 0xC0 ≤ f && f < 0x100 && (s.domain d).imaged && s.homeOwns (f - 0xC0) then some 3
  else none

/-! ### Requests (R361, R364) -/

/-- PWR_DOM_REQ. -/
def execPwrDomReq (d : Fin 18) (target : BitVec 3) (s : State) : Host.Outcome State Fault Refusal :=
  .next ((s.pwrRequest [d.val] target.toNat).pump)

/-- PWR_QREQ_GO. -/
def State.quadRequest (s : State) (n : Nat) : State :=
  let v := s.reg .PWR_QREQn 0 n
  let ds := maskDoms n (fld v 0 4)
  if ds.isEmpty then s else (s.pwrRequest ds (fld v 4 3)).pump

/-- PWR_QREQ_GO. -/
def execPwrQreqGo (n : Fin 4) (s : State) : Host.Outcome State Fault Refusal := .next (s.quadRequest n)

/-- IDLE_TIMEOUT. -/
def execIdleTimeout (d : Fin 18) (s : State) : Host.Outcome State Fault Refusal :=
  let x := s.domain d
  let after := s.rf .PWR_DOMd_CFG 8 16 (domBase d)
  let off : Bool := s.prim == .boot || s.prim == .load || s.prim == .test || s.prim == .halt
  if d.val = 0 ∨ off ∨ after = 0 ∨ x.st ≠ 0 ∨ x.phase ≠ 0 ∨ s.tick < x.idleAt + 64 * after ∨ s.domainBusy d then .next s
  else .next (s.pwrRequest [d.val] 1)

/-- PWR_FABREQ_GO: every domain from 1 to 17 enters Sleep or Deep sleep together, without an image. -/
def State.fabricSleep (s : State) : State :=
  let t := s.rf .PWR_FABREQ 0 3
  let ds := (List.range 17).map (· + 1)
  if s.prim ≠ .quiesced ∨ (t ≠ 2 ∧ t ≠ 3) ∨ ds.any (fun d => (s.domain d).phase != 0 || (s.domain d).st != 0 && (s.domain d).st != 1) then
    s.pwrReject
  else ds.foldl (fun s d => s.setDomain d
    (({ s.domain d with target := t, fabric := true, abandon := false, imaged := false, low := 0 } : Dom).ask d s.tick)) s

/-- PWR_FABREQ_GO. -/
def execPwrFabreqGo (s : State) : Host.Outcome State Fault Refusal := .next s.fabricSleep

/-! ### The handshake (R366) -/

/-- POWER_ANSWER: the unit answers from what it holds. -/
def execPowerAnswer (d : Fin 18) (unit : UnitRef) (s : State) : Host.Outcome State Fault Refusal :=
  let x := s.domain d
  let k := unitKey unit
  if !unitExists unit then .fault .noSuchUnit
  else if x.phase ≠ 4 ∨ ¬x.asking.contains k then .next s
  else
    let rest := x.asking.filter (· != k)
    match s.refusal d unit with
    | some r => .next ((s.refuseEntry d unit r).pump)
    | none =>
      if s.unitBusy d unit then
        let n := (SMap.get (0, 0) x.defers k).2 + 1
        if s.rf .PWR_DEFER 8 8 < n then .next ((s.refuseEntry d unit 7).pump)
        else .next (s.setDomain d { x with asking := rest, defers := SMap.set (0, 0) x.defers k (s.tick, n) })
      else .next (((s.setDomain d { x with asking := rest, defers := SMap.del x.defers k }).askDone d).pump)

/-- DEFER_REASK: PWR_DEFER.WAIT CCLK after a DEFER. -/
def execDeferReask (d : Fin 18) (unit : UnitRef) (s : State) : Host.Outcome State Fault Refusal :=
  let x := s.domain d
  let k := unitKey unit
  let (t, n) := SMap.get (0, 0) x.defers k
  if !unitExists unit then .fault .noSuchUnit
  else if x.phase ≠ 4 ∨ x.asking.contains k ∨ n = 0 ∨ s.tick < t + 8 * max 1 (s.rf .PWR_DEFER 0 8) then .next s
  else .next (s.setDomain d { x with asking := x.asking ++ [k], defers := SMap.set (0, 0) x.defers k (s.tick, n) })

/-- NOANSWER_TIMEOUT: 16 CCLK without an answer. -/
def execNoanswerTimeout (d : Fin 18) (unit : UnitRef) (s : State) : Host.Outcome State Fault Refusal :=
  let x := s.domain d
  let k := unitKey unit
  let (t, n) := SMap.get (0, 0) x.defers k
  let asked := if n = 0 then x.at_ else t
  if !unitExists unit then .fault .noSuchUnit
  else if x.phase ≠ 4 ∨ ¬x.asking.contains k ∨ s.tick < asked + 128 then .next s
  else .next (((s.raisePower d 14 1 unit).refuseEntry d unit 8).pump)

/-! ### SAVE (R377, R378, R381) -/

/-- Global bank numbers of an SSB domain. -/
def domBanks (d : Nat) : List Nat := (List.range 16).map (fun i => 16 * domQuad d + i)

/-- A bank is held in the Deep sleep of its domain (R377). -/
def State.bankHeld (s : State) (d g : Nat) : Bool :=
  (s.domain d).retn == 0 || bitOf (s.reg (if g < 32 then .PWR_RETN_MASK_LO else .PWR_RETN_MASK_HI)) (g % 32)

/-- The signature of a bank (R378). -/
def State.bankSig (s : State) (g : Nat) : Nat := (crc32c (s.sramRead (g * 2 ^ 19) (2 ^ 19))).toNat

/-- The signatures of the held banks go to the always-on domain. -/
def State.saveSigs (s : State) (d : Nat) : State :=
  { s with sigs := ((domBanks d).filter (s.bankHeld d)).foldl (fun m g => SMap.set 0 m g (s.bankSig g)) s.sigs }

/-- The slot of domain d in the Off save area: 8 MiB each, from that of domain 1 on (R380). -/
def State.offSlot (s : State) (d : Nat) : Nat :=
  (s.reg .PWR_OFFSAVE_LO + s.rf .PWR_OFFSAVE_HI 0 8 * 2 ^ 32) * 2 ^ 12 + (d - 1) * 2 ^ 23

/-- The power controller's accesses to a slot are allowed: the whole slot is checked, since how much of it a save fills is not stated
(DESIGN CHOICE, log 102). -/
def State.slotOk (s : State) (d opc : Nat) : Bool × State := s.areaOk 0x184 (s.offSlot d) (2 ^ 23) opc

/-- ENTRY_SAVE_DONE: the signatures or the table save of step 5 are done; `status` answers the writes of an Off save.  A move
from one sleep state to another that fails, or that a wake meets, leaves its state as it was. -/
def execEntrySaveDone (d : Fin 18) (status : BitVec 8) (s : State) : Host.Outcome State Fault Refusal :=
  let x := s.domain d
  if x.phase ≠ 5 then .next s
  else
    let moved : Bool := 2 ≤ x.st
    let (ok, s) := if x.target = 4 then s.slotOk d 0x13 else (true, s)
    if x.target = 4 ∧ (status ≠ 0 ∨ ¬ok) then
      if moved then .next (((s.refused d (fidUnit 0x184) 9).setDomain d { x with phase := 0, abandon := false }).endSeq d)
      else .next ((s.refuseEntry d (fidUnit 0x184) 9).pump)
    else if x.abandon then
      if moved then .next (s.setDomain d { x with phase := 0, abandon := false, wake := true })
      else .next ((s.abandonEntry d).pump)
    else
      let s := if x.target = 3 ∧ 2 ≤ d.val ∧ domBit d = 3 then s.saveSigs d else s
      .next ((s.readyCommit d).pump)

/-! ### Voltage steps (R383) -/

/-- An AVSBus failure: a committed domain stays at its last good voltage, and a waking one in its state. -/
def State.avsFail (s : State) (d ack : Nat) (tmo : Bool) : State :=
  let x := s.domain d
  let s := (s.raisePower d 14 1).setRf .PWR_DOMd_STATUS 13 1 1 (domBase d)
  let s := s.latchWords .PWR_AVS_CAP [(.PWR_AVS_CAP, s.rf .PWR_DOMd_CFG 4 4 (domBase d) + ack * 2 ^ 4 + tmo.toNat * 2 ^ 6 + 2 ^ 31)]
  let s := s.setDomain d { x with st := if x.phase = 7 then 2 else x.st, phase := 0, polling := false, tries := 0 }
  s.endSeq d

/-- AVS_VOLTAGE_WRITE_DONE: a voltage command of the AVSBus, whose frames of 12.5 MHz the model takes as one answer (R382). -/
def execAvsVoltageWriteDone (d : Fin 18) (crcOk : Bool) (ack : BitVec 2) (s : State) : Host.Outcome State Fault Refusal :=
  let x := s.domain d
  if (x.phase ≠ 7 ∧ x.phase ≠ 8) ∨ x.polling then .next s
  else if crcOk ∧ ack = 0 then .next (s.setDomain d { x with polling := true, at_ := s.tick, pollAt := s.tick })
  else if x.tries < 3 then .next (s.setDomain d { x with tries := x.tries + 1 })
  else .next (s.avsFail d ack.toNat false)

/-- VDONE: the voltage step of an entry or of a wake is complete. -/
def execVdone (d : Fin 18) (s : State) : Host.Outcome State Fault Refusal :=
  let x := s.domain d
  if ¬x.polling then .next s
  else if x.phase = 7 then .next ((s.setDomain d { x with st := x.target, phase := 0, polling := false }).endSeq d)
  else .next (s.setDomain d { x with phase := 9, polling := false })

/-- AVS_STATUS_POLL: a Status read of a domain that waits for VDone, or of the rail of a running one. -/
def execAvsStatusPoll (d : Fin 18) (alert : Bool) (s : State) : Host.Outcome State Fault Refusal :=
  let x := s.domain d
  if d.val = 0 then .next s
  else if x.polling then
    if x.at_ + usTicks (max 1 (s.rf .PWR_AVS 0 16)) ≤ s.tick then .next (s.avsFail d 0 true)
    else if x.pollAt + usTicks 4 ≤ s.tick then .next (s.setDomain d { x with pollAt := s.tick })
    else .next s
  else
    let ms := s.rf .PWR_AVS 16 8
    if x.st ≠ 0 ∨ x.phase ≠ 0 ∨ ms = 0 ∨ s.tick < x.pollAt + usTicks (1000 * ms) then .next s
    else
      let s := s.setDomain d { x with pollAt := s.tick }
      .next (if alert then s.raisePower d 14 3 else s)

/-! ### Wake sources (R373, R374) -/

/-- Domains of PIN_MASK. -/
def State.pinDoms (s : State) : List Nat := ((List.range 17).map (· + 1)).filter (bitOf (s.reg .PWR_WAKE_CFG))

/-- WAKE_PIN: the level of the WAKE pin. -/
def execWakePin (level : Bool) (s : State) : Host.Outcome State Fault Refusal :=
  let rise : Bool := level && !s.wakePin
  let s := { s with wakePin := level }
  if s.rf .PWR_WAKE_CFG 0 1 = 1 then .next (if rise then s.pinDoms.foldl State.wakeEdge s else s)
  else .next (if level then s.pinDoms.foldl State.wakeLevel s else s)

/-- ANISE_DETECT: while SPINE is below Run. -/
def execAniseDetect (sl : Fin 6) (s : State) : Host.Outcome State Fault Refusal :=
  if (s.domain 1).st = 0 ∨ s.rf .PWR_WAKE_CFG (18 + sl) 1 = 0 then .next s
  else
    let qs := (List.range 4).filter (fun q => s.rf .PWR_WAKE_CFG (24 + q) 1 == 1)
    .next ((1 :: qs.flatMap (fun q => maskDoms q (s.quadMask q))).foldl State.wakeEdge s)

/-- P2F_WAKE: a level wake of the port's domain. -/
def execP2fWake (fid : Fid) (s : State) : Host.Outcome State Fault Refusal :=
  if !isPartner fid.toNat then .fault .noSuchUnit
  else .next (s.wakeLevel (niDomain fid.toNat))

/-! ### The wake (R368, R375, R376) -/

/-- An edge is seen: while an entry runs it is acted on once 4 CCLK have passed with no commit point, as an edge in the 4 CCLK
before that point is lost (R369). -/
def Dom.edgeSeen (x : Dom) (now : Nat) : Bool :=
  match x.edge with
  | none => false
  | some t => !(1 ≤ x.phase && x.phase ≤ 6) || t + 32 < now

/-- A wake of the domain stands: a held level, an edge, the pin as a level, or work that reaches a unit in Idle. -/
def State.wakeStands (s : State) (d : Nat) : Bool :=
  let x := s.domain d
  x.wake || x.edgeSeen s.tick || (s.wakePin && s.rf .PWR_WAKE_CFG 0 1 == 0 && s.pinDoms.contains d && x.st != 0)
    || (x.st == 1 && x.phase == 0 && s.domainBusy d)

/-- PwrCtl packets that name the domain are answered, and are a level wake of it (R370, R373). -/
def State.takePwrCtl (s : State) (d : Nat) : State :=
  let mine := (s.nif 0x184).inbox.filter (fun p => p.net == .req && p.opc == 0x1E && p.addr.toNat % 32 == d)
  let s := s.updNi 0x184 (fun n => { n with inbox := n.inbox.filter (fun p => !mine.contains p) })
  let s := mine.foldl (fun s p => s.answer 0x184 p 0) s
  if mine.isEmpty then s else s.wakeLevel d

/-- The wake marks of a domain are gone. -/
def State.clearWake (s : State) (d : Nat) : State := s.setDomain d { s.domain d with wake := false, edge := none }

/-- The wake of a domain in Sleep or lower begins: the voltage first where it was lowered. -/
def State.startWake (s : State) (d : Nat) : State :=
  let x := s.domain d
  if x.st < 2 then s
  else if x.phase ≠ 0 then (if x.phase = 7 then s.setDomain d { x with wake := true } else s)
  else s.setDomain d { x with phase := if 3 ≤ x.st then 8 else 9, wake := false, edge := none, pend := none, tries := 0,
                              polling := false, at_ := s.tick }

/-- A wake is accepted (R375): Idle returns to Run; an entry that has not committed is abandoned; a domain in Sleep or lower
wakes with its group, SPINE first. -/
def State.acceptWake (s : State) (d : Nat) : State :=
  let x := s.domain d
  if x.phase = 7 then s
  else if 8 ≤ x.phase then s.clearWake d
  else if x.phase ≠ 0 then
    if x.abandon then s.clearWake d
    else
      let s := s.bump .PWR_DOMd_ABORT_CNT (domBase d)
      let ds := (s.groupDoms d).filter (fun g => 1 ≤ (s.domain g).phase && (s.domain g).phase ≤ 6)
      ds.foldl (fun s g => s.setDomain g { s.domain g with abandon := true, wake := false, edge := none, pend := none }) s
  else if x.st = 0 then s.clearWake d
  else if x.st = 1 then
    (s.setDomain d { x with st := 0, wake := false, edge := none, pend := none, idleAt := s.tick, pollAt := s.tick }).endSeq d
  else if d ≠ 1 ∧ (s.domain 1).st ≠ 0 then s.setDomain 1 { s.domain 1 with wake := true }
  else (s.groupDoms d).foldl State.startWake s

/-- WAKE_ACCEPT. -/
def execWakeAccept (d : Fin 18) (s : State) : Host.Outcome State Fault Refusal :=
  let s' := s.takePwrCtl d
  if d.val = 0 ∨ s.prim = .halt then .next s
  else if s'.wakeStands d then .next ((s'.acceptWake d).pump) else .next s'

/-- What a slice whose region covers a lost bank is told (R378). -/
def State.bankLost (s : State) (d g : Nat) (inj : Bool) : State :=
  let k := g / 4
  let s := s.sramZero g
  let r : Reg := if g < 32 then .PWR_RETN_LOST_LO else .PWR_RETN_LOST_HI
  let s := (s.setRf r (g % 32) 1 1).raisePower d 15 1 (fidUnit (ssbFid k)) inj
  let sls := ((List.range 64).filterMap (fun i =>
    let lo := s.reg .SSB_RGNn_LO (ssbBase k) i
    let hi := s.reg .SSB_RGNn_HI (ssbBase k) i
    if bitOf lo 15 ∧ bitOf lo 22 ∧ fld hi 0 9 / 128 ≤ g % 4 ∧ g % 4 ≤ fld hi 16 9 / 128 then some (fld lo 16 6) else none)).eraseDups
  sls.foldl (fun s sl => s.sliceEvent sl 0x10 g) s

/-- The signature check of one held bank; `bad` says that its data differ from what was signed. -/
def State.checkBank (s : State) (d g : Nat) (bad : Bool) : State :=
  let inj := s.injHit (fidUnit (ssbFid (g / 4))) 12 (some (g % 4))
  let wrong : Bool := bad || s.bankSig g != SMap.get 0 s.sigs g
  let s := if inj then s.injUse else s
  if wrong ∨ inj then s.bankLost d g (inj && !wrong) else s

/-- A waking cluster takes the fabric's current epoch bit with both banks alike: its threads and receive rings go on in the
current bank (R39; DEDUCED, log 103). -/
def State.wakeCluster (s : State) (k : Nat) : State :=
  let own := SMap.get s.epo.cur s.ownEp (2048 + clFid k)
  if own = s.epo.cur then s
  else s.updCl k (fun c => { c with
    thr := SMap.mapVals {} (fun _ (x : Thr) => { x with tep := s.epo.cur }) c.thr
    ring := (c.ring.filter (fun kr => kr.1 / 64 == bankOf own)).map (fun kr => (ringKey s.epo.cur (kr.1 % 64), kr.2)) })

/-- Every unit of a waking domain copies its active bank into its other one and takes the current epoch bit (R39); the rule
replica is reloaded in both banks from the central table (R217). -/
def State.wakeTables (s : State) (d : Nat) : State :=
  let mine (t u : Nat) : Bool := t != 5 && tabDomain (if t = 12 then 1 else t) u == d
  let epOf (t u : Nat) : Bool := SMap.get s.epo.cur s.ownEp (tabHolder t u)
  let s0 := (s.copyTabs 0 (fun t u => mine t u && !epOf t u)).copyTabs 1 (fun t u => mine t u && epOf t u)
  let s0 := if 2 ≤ d ∧ domBit d = 2 then (List.range 12).foldl (fun s i => s.wakeCluster (12 * domQuad d + i)) s0 else s0
  let s0 := { s0 with ownEp := s.ownEp.filter (fun kv => holderDomain kv.1 != d) }
  if 2 ≤ d ∧ domBit d = 0 then
    let n := domQuad d
    let isRep (k : Nat) : Bool := k / 65536 / 8 / 1024 % 16 == 5 && k / 65536 / 8 % 1024 == n
    let cen := (s0.tabs.filter (fun kv => kv.1 / 65536 / 8 / 1024 % 16 == 5 && kv.1 / 65536 / 8 % 1024 == 4)).map
      (fun kv => (kv.1 - (4 - n) * 8 * 65536, kv.2))
    { s0 with tabs := cen.foldl (fun m kv => SMap.set 0 m kv.1 kv.2) (s0.tabs.filter (fun kv => !isRep kv.1)) }
  else s0

/-- What the data SRAM of a waking domain has lost is made good (R234, R289, R378). -/
def State.wakeData (s : State) (d : Nat) (lost : List Nat) : State :=
  let x := s.domain d
  let gone : Bool := x.low == 4 || (x.low == 3 && x.retn == 1)
  if d < 2 then s
  else
    let q := domQuad d
    if domBit d = 1 then
      if gone then (List.range 16).foldl (fun s i =>
        let h := s.hm (16 * q + i)
        (s.clearHome (16 * q + i)).setHm (16 * q + i) h) s
      else s
    else if domBit d = 2 then (if gone then (List.range 12).foldl (fun s i => s.restartCluster (12 * q + i)) s else s)
    else if domBit d = 3 then
      (domBanks d).foldl (fun s g =>
        if x.low = 4 ∨ (x.low = 3 ∧ ¬s.bankHeld d g) then s.sramZero g
        else if x.low = 3 then s.checkBank d g (lost.contains g)
        else s) s
    else s

/-- The interrupt of WAKE_HELD (R376). -/
def State.wakeIrq (s : State) : State :=
  let f := s.rf .PWR_IRQ 0 10
  if s.rf .PWR_IRQ 31 1 = 1 ∧ (f < 0x80 ∨ (0x110 ≤ f ∧ f < 0x11C)) then
    s.ownIntr 0x184 f (s.rf .PWR_IRQ 10 12)
  else s

/-- SPINE is still on its way up: it comes before every other domain (R304, R364). -/
def State.spineFirst (s : State) (d : Nat) : Bool :=
  d != 1 && decide (2 ≤ (s.domain 1).st) && decide ((s.domain 1).phase < 11)

/-- WAKE_START_DONE. -/
def execWakeStartDone (d : Fin 18) (reply : WakeReply) (s : State) : Host.Outcome State Fault Refusal :=
  let x := s.domain d
  let (ok, t) := if x.low = 4 then s.slotOk d 0x12 else (true, s)
  if x.phase ≠ 9 ∨ s.spineFirst d then .next s
  else if x.low = 4 ∧ (¬reply.readOk ∨ ¬ok) then
    .next (((t.setDomain d { x with st := 4, phase := 0 }).setRf .PWR_DOMd_STATUS 14 1 1 (domBase d)).raisePower d 15 1)
  else
    let s := (t.wakeTables d).wakeData d (reply.lost.map (·.val))
    let s := if d.val = 1 then s.spineTime else s
    .next ((s.setDomain d { s.domain d with phase := 11 }).wakeIrq)

/-! ### Clamps (R376, R379) -/

/-- The ports of a domain that woke from Off link up again once its clamps are released (R121). -/
def State.relinkPorts (s : State) (d : Nat) : State :=
  ((allFids.filter (fun f => isPartner f && niDomain f == d)).filter (fun f => (s.nif f).relink)).foldl State.startLink s

/-- One domain of fabric sleep is back in Run. -/
def State.fabricWoken (s : State) (d : Nat) : State :=
  ((s.setDomain d { pend := (s.domain d).pend, pollAt := s.tick, idleAt := s.tick }).relinkPorts d).endSeq d

/-- PWR_DOMd_CTRL.UNCLAMP: the return image is asked for once the last domain of the mask has been released. -/
def State.unclampDom (s : State) (d : Nat) : State :=
  let x := s.domain d
  if x.phase ≠ 11 then s.pwrReject
  else if x.fabric then s.fabricWoken d
  else
    let s := (s.setDomain d { x with phase := 12, clamped := false, unclamp := true }).relinkPorts d
    if (s.groupDoms d).all (fun g => (s.domain g).phase == 12) then s.wantReturn.pump else s

/-- PWR_UNCLAMP. -/
def execPwrUnclamp (d : Fin 18) (s : State) : Host.Outcome State Fault Refusal := .next (s.unclampDom d)

/-- PWR_FABREQ.UNCLAMP: every domain of a fabric sleep is released. -/
def State.fabricUnclamp (s : State) : State :=
  let ds := ((List.range 17).map (· + 1)).filter (fun d => (s.domain d).fabric)
  if ds.isEmpty ∨ ds.any (fun d => (s.domain d).phase != 11) then s.pwrReject else ds.foldl State.fabricWoken s

/-- PWR_FABREQ_UNCLAMP. -/
def execPwrFabreqUnclamp (s : State) : Host.Outcome State Fault Refusal := .next s.fabricUnclamp

/-- PWR_ANISE_SEND: the pattern goes out on the port's capability pins. -/
def State.sendAnise (s : State) (sl : Nat) : State := s.updNi (0x120 + sl) (fun n => { n with anise := n.anise + 1 })

/-- PWR_ANISE_SEND. -/
def execPwrAniseSend (sl : Fin 6) (s : State) : Host.Outcome State Fault Refusal := .next (s.sendAnise sl)

/-- PWR_SAVE_LOCK. -/
def execPwrSaveLock (s : State) : Host.Outcome State Fault Refusal := .next (s.setRf .PWR_CTRL 0 1 1)

end Sys2Proof.Machine
end

