-- ==== Sys2Proof/Machine/Counters.lean ====
section
/-! DEFINITION. Event counters, bandwidth windows and router probes (R385 to R399). -/

namespace Sys2Proof.Machine

/-! ### Event counters (R385 to R388) -/

/-- A 48-bit counter. -/
def State.ctrAt (s : State) (b i : Nat) : Nat := SMap.get 0 s.ctr (128 * b + i)

/-- A 48-bit counter as it stood before this cycle, which is what a read of this cycle samples (R386). -/
def State.ctrThen (s : State) (b i : Nat) : Nat := SMap.get 0 s.ctrWas (128 * b + i)

/-- A read of CTR_LO latches the rest of the sample, of this counter and its chained partner alone (R388, R389). -/
def State.ctrLatch (s : State) (b i : Nat) : State :=
  let base := ctrBase b
  let v := s.ctrThen b i
  let pair := if s.chained b i then s.ctrThen b (i + 1) else 0
  let s := ((s.setReg .CTR_LAT_HI (v / 2 ^ 32) base).setReg .CTR_LAT_PAIR_LO (fld pair 0 32) base).setReg .CTR_LAT_PAIR_HI
    (pair / 2 ^ 32) base
  if s.rf .CTR_BANK_CTRL 0 1 base = 0 then s
  else
    let sec := secOf s.ns
    ((s.setReg .CTR_LAT_NS (nsOf s.ns) base).setReg .CTR_LAT_S_LO (fld sec 0 32) base).setReg .CTR_LAT_S_HI
      (fld sec 32 16 + s.tim.frac * 2 ^ 16) base

/-- CTR_READ. -/
def execCtrRead (bank : BitVec 10) (i : Fin 128) (s : State) : Host.Outcome State Fault Refusal :=
  if ctrExists bank.toNat then .next (s.ctrLatch bank.toNat i) else .fault .noSuchUnit

/-- CTR_BANK_CTRL.CLEAR: every counter of the bank is cleared in the next FCLK (R386). -/
def State.askClear (s : State) (b : Nat) : State := { s with ctrClr := b :: s.ctrClr.filter (· != b) }

/-- CTR_CLEAR. -/
def execCtrClear (bank : BitVec 10) (s : State) : Host.Outcome State Fault Refusal :=
  if ctrExists bank.toNat then .next (s.askClear bank.toNat) else .fault .noSuchUnit

/-- CHAIN of a counter, in force from the next FCLK on; it reads 0 on an odd one (R387). -/
def State.setChain (s : State) (b i : Nat) (chain : Bool) : State :=
  if i % 2 = 1 then s else (s.noteWas .CTR_STAT (ctrBase b) i).setRf .CTR_STAT 1 1 chain.toNat (ctrBase b) i

/-- CTR_CHAIN_WRITE. -/
def execCtrChainWrite (bank : BitVec 10) (i : Fin 128) (chain : Bool) (s : State) : Host.Outcome State Fault Refusal :=
  if ctrExists bank.toNat then .next (s.setChain bank.toNat i chain) else .fault .noSuchUnit

/-! ### Bandwidth windows (R392 to R394) -/

/-- Window length in nanoseconds. -/
def State.bwWin (s : State) (f : Nat) : Nat := 1000 * min 1000000 (max 1 (s.rf .NI_BW_CFG 0 20 (niBase f)))

/-- Windows begin: EN has risen, and the first one is cut (R392). -/
def State.bwStart (s : State) (f : Nat) : State := { s with bw := SMap.upd {} s.bw f (fun w => { start := s.ns, seq := w.seq }) }

/-- The floor entries that the window has breached. -/
def State.floorMisses (s : State) (f len : Nat) (w : BwSt) : List Nat :=
  if w.cut then []
  else (List.range 4).filter (fun j =>
    let e := s.tab (bankOf s.epo.cur) 10 f 0 (16 + j)
    bitOf e 2 && w.waited.getD (fld e 0 2) false && decide (1000 * w.bytes.getD (fld e 0 2) 0 < fld e 8 24 * len))

/-- The end of a window: counts, length and sequence number go into the buffer of the new SEQ, whose META tells a reader that it
was rewritten (R392, R393). -/
def State.bwEnd (s : State) (f : Nat) : State :=
  let w := SMap.get {} s.bw f
  let base := niBase f
  let len := (s.ns - w.start).toNat
  let seq := (w.seq + 1) % 65536
  let k := seq % 2
  let miss := s.floorMisses f len w
  let bits := (miss.map (fun j => 2 ^ (17 + j))).sum
  let s := ((s.setReg .NI_BWk_IN_LO (fld w.inB 0 32) base k).setReg .NI_BWk_OUT_LO (fld w.outB 0 32) base k).setReg .NI_BWk_HI
    (fld w.inB 32 16 + fld w.outB 32 16 * 2 ^ 16) base k
  let s := (s.setReg .NI_BWk_LEN (len % 2 ^ 32) base k).setReg .NI_BWk_META (seq + w.cut.toNat * 2 ^ 16 + bits) base k
  let s := { s with bw := SMap.set {} s.bw f { start := s.ns, cut := false, seq := seq } }
  miss.foldl (fun s j => s.raiseNi f 8 1 (16 + j)) s

/-- BW_WINDOW_END. -/
def execBwWindowEnd (fid : Fid) (s : State) : Host.Outcome State Fault Refusal :=
  let f := fid.toNat
  if ¬assigned f then .fault .noSuchUnit
  else if s.rf .NI_BW_CFG 31 1 (niBase f) = 0 ∨ s.ns % s.bwWin f ≠ 0 ∨ s.ns = (SMap.get {} s.bw f).start then .next s
  else .next (s.bwEnd f)

/-! ### Router probes (R398, R399) -/

/-- The records of a trace ring. -/
def State.probeSize (s : State) (n : Nat) : Nat :=
  let l := s.rf .PRB_RING_SIZE 0 5 (prbBase n)
  2 ^ (if 6 ≤ l ∧ l ≤ 16 then l else 6)

/-- A line of two records goes into the ring; with STOP = 1 tracing ends before unread records would be overwritten. -/
def State.probeLine (s : State) (n a b : Nat) : State :=
  let base := prbBase n
  let m := n / 36
  let p := SMap.get {} s.probe n
  let s := (s.ringJob m { why := .line, off := s.rf .PRB_RING_BASE 6 19 base * 64 + 32 * p.index, data := leBytes 32 a ++ leBytes 32 b }).count
    (qmFid m) 71
  let i := (p.index + 2) % s.probeSize n
  let wraps := if i < p.index then (p.wraps + 1) % 65536 else p.wraps
  let full : Bool := s.rf .PRB_CTRL 2 1 base == 1 && i / 2 == s.rf .PRB_RDPTR 0 16 base % s.probeSize n / 2
  let s := (s.setReg .PRB_WPTR (i + wraps * 2 ^ 16) base)
  let s := if full then s.setRf .PRB_STATUS 0 1 1 base else s
  { s with probe := SMap.set {} s.probe n { p with index := i, wraps := wraps, stopped := full } }

/-- The staged records of a probe are dropped. -/
def State.probeDrop (s : State) (n k : Nat) : State :=
  { (s.bump .PRB_DROP (prbBase n) 0 k) with probe := SMap.upd {} s.probe n (fun p => { p with staged := [] }) }

/-- A probe whose router is fenced, or whose domain is below Idle, stops (R399). -/
def State.probeGone (s : State) (n : Nat) : Bool := s.rtrFenced n || s.domDown (2 + 4 * (n / 36))

/-- The router whose staged record the trace line of quadrant `n` takes next: in rotation, while the manager holds less than a
line of that probe's records. -/
def State.traceNext (s : State) (n : Nat) : Option Nat :=
  ((List.range 36).map (fun j => 36 * n + ((s.qmAt n).traced + 1 + j) % 36)).find? (fun m =>
    let p := SMap.get {} s.probe m
    !p.staged.isEmpty && decide (p.came.length < 2))

/-- One FCLK of the trace line of quadrant `n`: it brings its queue manager one record per 2 FCLK (R398). -/
def State.tickTrace (s : State) (n : Nat) : State :=
  let gone := (SMap.keys s.probe).filter (fun m => m / 36 == n && s.probeGone m && !(SMap.get {} s.probe m).staged.isEmpty)
  let s := gone.foldl (fun s m => s.probeDrop m (SMap.get {} s.probe m).staged.length) s
  if s.tick % 2 = 0 ∨ s.probe.isEmpty then s
  else match s.traceNext n with
    | none => s
    | some m =>
      let s := s.updQm n (fun q => { q with traced := m % 36 })
      { s with probe := SMap.upd {} s.probe m (fun p =>
          { p with staged := p.staged.drop 1, came := p.came ++ (p.staged.take 1).map (fun r => (r.1, s.tick)) }) }

/-- PROBE_RECORD_WRITE: a whole line has come, or one record has waited 64 FCLK for a partner. -/
def execProbeRecordWrite (node : Fin 144) (s : State) : Host.Outcome State Fault Refusal :=
  let n := node.val
  let p := SMap.get {} s.probe n
  let still : Bool := s.prim == .drain || s.prim == .quiesced || s.prim == .halt || p.stopped || !s.qmLive (n / 36)
  let take (k : Nat) : State := { s with probe := SMap.set {} s.probe n { p with came := p.came.drop k } }
  if still then .next s
  else match p.came with
    | a :: b :: _ => .next ((take 2).probeLine n a.1 b.1)
    | [a] => if a.2 + 64 ≤ s.tick then .next ((take 1).probeLine n a.1 0) else .next s
    | [] => .next s

/-- PRB_STATUS.FULL cleared: tracing goes on from the current index. -/
def State.probeRearm (s : State) (n : Nat) : State :=
  { (s.setRf .PRB_STATUS 0 1 0 (prbBase n)) with probe := SMap.upd {} s.probe n (fun p => { p with stopped := false }) }

/-- PROBE_FULL_CLEAR. -/
def execProbeFullClear (node : Fin 144) (s : State) : Host.Outcome State Fault Refusal := .next (s.probeRearm node.val)

end Sys2Proof.Machine
end

