-- ==== Sys2Proof/Machine/Startup.lean ====
section
/-! DEFINITION. Start-up and the global modes: cold and warm reset, TEST, drain, QUIESCED and the power-down record (R10,
R11, R403 to R416). -/

namespace Sys2Proof.Machine

/-! ### Cold reset and cold start (R10, R403 to R405) -/

/-- The levels that partners drive on their ports; no reset of the fabric moves them. -/
def State.partnerPins (s : State) : SMap Ni := SMap.mapVals {} (fun _ (n : Ni) => { p2fLink := n.p2fLink }) s.ni

/-- FRST_N is asserted: everything but the queue of commands and the pins that others drive. -/
def State.coldReset (s : State) : State :=
  { State.reset with pending := s.pending, wakePin := s.wakePin, ni := s.partnerPins, free := s.free }

/-- FRST_N_ASSERT. -/
def execFrstNAssert (s : State) : Host.Outcome State Fault Refusal := .next s.coldReset

/-- The sequence of R404 from step 2 on: storage reads zero, Saffron hands out its credits, MG raises F2P_LINK; the first full image
comes over it (R406). -/
def State.startUp (s : State) : State := ({ s with frst := false, started := true } : State).safGrant.startLink 0x126

/-- COLD_START: FRST_N has risen; the fuses are loaded and checked (R204). -/
def execColdStart (fuses : FuseArray) (s : State) : Host.Outcome State Fault Refusal :=
  if ¬s.frst then .next s
  else
    let s := { s.coldReset with fuses := some fuses }
    .next (if s.fuseBad then s.startUp.raiseSpine 28 7 1 (fidUnit 0x182) else s.startUp)

/-! ### Warm reset (R410, R411, R213, R355) -/

/-- A register's word after a warm reset: only fields of cold scope keep their value. -/
def RegSpec.warmWord (sp : RegSpec) (reset old : Nat) : Nat :=
  sp.fields.foldl (fun a f => if f.cold then setFld a f.lo f.w (fld old f.lo f.w) else a) reset

/-- Registers after a warm reset. -/
def State.warmRegs (s : State) : SMap Word32 :=
  s.regs.filterMap (fun kv => match regAt kv.1 with
    | some (r, base, i) =>
      let w := BitVec.ofNat 32 (r.spec.warmWord (s.resetWord r base i) kv.2.toNat)
      if w = BitVec.ofNat 32 (s.resetWord r base i) then none else some (kv.1, w)
    | none => none)

/-- A cell of a rule table or domain map with its LOCK bit set. -/
def lockedCell (key v : Nat) : Bool :=
  let u := key / 65536 / 8
  u / 1024 % 16 == 5 && (if key % 65536 < 4096 then ruleLock v else bitOf v 5)

/-- Structural tables after a warm reset: in both banks the locked entries of the bank that was active. -/
def State.warmTabs (s : State) : SMap Nat :=
  let span := 16 * 1024 * 8 * 65536
  let kept := s.tabs.filter (fun kv => kv.1 / span == bankOf s.epo.cur && lockedCell kv.1 kv.2)
  kept.map (fun kv => (kv.1 % span, kv.2)) ++ kept.map (fun kv => (kv.1 % span + span, kv.2))

/-- The state that a warm reset leaves. -/
def State.warmReset (s : State) : State :=
  let t : State := { State.reset with
    pending := s.pending
    free := s.free
    tick := s.tick
    wakePin := s.wakePin
    ni := s.partnerPins
    fuses := s.fuses
    regs := s.warmRegs
    tabs := s.warmTabs
    tim := { c := s.tim.c, steps := s.tim.steps, keeper := s.tim.keeper, keepAt := s.tim.keepAt, ppsRef := s.ns }
    fc := { pinAt := s.fc.pinAt, pinFrom := s.fc.pinFrom, called := s.fc.called.filter (fun k => match k with | .link .. => false | _ => true) }
    epo := { count := s.epo.count } }
  t.startUp.setRf .GLB_STATUS 6 1 1

/-- A write to GLB_RESET. -/
def State.resetWrite (s : State) (key : Nat) (go : Bool) : State :=
  if key = 0x0A4D ∧ go ∧ s.prim ≠ .test ∧ s.started then s.warmReset else s.setRf .GLB_STATUS 3 1 1

/-- WARM_RESET. -/
def execWarmReset (key : BitVec 16) (go : Bool) (s : State) : Host.Outcome State Fault Refusal :=
  .next (s.resetWrite key.toNat go)

/-- TEST_ENTRY: only BOOT lets the TAP in. -/
def execTestEntry (s : State) : Host.Outcome State Fault Refusal :=
  .next (if s.prim = .boot then { s with prim := .test } else s)

/-! ### Drain (R412, R413, R416) -/

/-- GLB_STATUS.CMDREJ. -/
def State.glbReject (s : State) : State := s.setRf .GLB_STATUS 2 1 1

/-- GLB_CTRL.DRAIN written in mode `m`. -/
def State.drainWrite (s : State) (m : Primary) : State :=
  match m with
  | .run => s.beginDrain
  | .dual => { s with drainPend := true }
  | _ => s.glbReject

/-- GLB_DRAIN. -/
def execGlbDrain (s : State) : Host.Outcome State Fault Refusal := .next (s.drainWrite s.prim)

/-- Every tracker, router buffer and hold buffer is empty, and so is Saffron. -/
def State.allEmpty (s : State) : Bool :=
  s.ni.all (fun kn => kn.2.src.isEmpty && kn.2.tgt.isEmpty && kn.2.hold.isEmpty) && s.qm.all (fun km => km.2.dlv.isEmpty && km.2.jobs.isEmpty && km.2.ring.isEmpty)
    && s.home.all (fun kh => kh.2.trk.isEmpty) && s.rbuf.all (fun kb => kb.2.q.isEmpty)
    && s.saf.slots.isEmpty && s.saf.admq.isEmpty && s.saf.spine.isEmpty

/-- DRAIN is left: DRAINSTUCK clears. -/
def State.leaveDrain (s : State) (m : Primary) : State :=
  ({ s with prim := m, drainAt := none } : State).setRf .GLB_STATUS 4 1 0

/-- FABRIC_QUIESCED. -/
def execFabricQuiesced (s : State) : Host.Outcome State Fault Refusal :=
  if s.prim = .drain ∧ s.allEmpty then .next (s.leaveDrain .quiesced) else .next s

/-- DRAIN_TIMEOUT: once for a drain. -/
def execDrainTimeout (s : State) : Host.Outcome State Fault Refusal :=
  match s.drainAt with
  | some t =>
    if s.prim = .drain ∧ t + usTicks (max 1 (s.rf .GLB_DRAIN_TMO 0 16)) ≤ s.tick then
      .next ((({ s with drainAt := none } : State).setRf .GLB_STATUS 4 1 1).raiseSpine 28 9 1 (fidUnit 0x180))
    else .next s
  | none => .next s

/-- Threads that the drain stopped go on, but for those whose slice stands. -/
def State.threadsGoOn (s : State) : State :=
  s.mapThreads (fun _ => true) (fun k i x => if s.stands x.slice.toNat then x else x.goOn (s.recvBind k i).isSome)

/-- GLB_CTRL.RESUME written in mode `m`: ignored outside DRAIN and QUIESCED, where it cancels a pending DRAIN. -/
def State.resumeWrite (s : State) (m : Primary) : State :=
  match m with
  | .drain | .quiesced => (s.leaveDrain .run).threadsGoOn
  | _ => ({ s with drainPend := false } : State).glbReject

/-- GLB_RESUME. -/
def execGlbResume (s : State) : Host.Outcome State Fault Refusal := .next (s.resumeWrite s.prim)

/-! ### The power-down record (R414) -/

/-- Consecutive registers as bytes. -/
def State.regBytes (s : State) (r : Reg) (n : Nat) : List Byte := (List.range n).flatMap (fun i => leBytes 4 (s.reg r 0 i))

/-- The 252 bytes of the record that its CRC covers. -/
def State.pdBody (s : State) : List Byte :=
  leBytes 4 0x52445050 ++ leBytes 2 1 ++ zeros 2 ++ leBytes 8 s.prg.progId
    ++ leBytes 8 (nsOf s.ns + fld (secOf s.ns) 0 32 * 2 ^ 32) ++ leBytes 4 s.epo.count ++ zeros 4
    ++ s.regBytes .FC_FIRST 1 ++ s.regBytes .FC_FIRST_DET 1 ++ s.regBytes .FC_FIRST_NS 1 ++ s.regBytes .FC_FIRST_S_LO 1
    ++ s.regBytes .FC_FIRST_S_HI 1 ++ s.regBytes .FC_OVF 1 ++ s.regBytes .FC_COUNT 1 ++ s.regBytes .FC_MERGED 1
    ++ s.regBytes .FC_PENDn 4
    ++ s.regBytes .FC_FENCED_RTRn 5 ++ s.regBytes .FC_FENCED_NIn 32 ++ s.regBytes .FC_FENCED_HSn 2
    ++ s.regBytes .FC_FENCED_ECn 2 ++ s.regBytes .FC_FENCED_Q 1 ++ zeros 4

/-- The whole record. -/
def State.pdRecord (s : State) : List Byte := s.pdBody ++ leBytes 4 (crc32c s.pdBody).toNat

/-- GLB_CTRL.PDREC. -/
def State.pdrecWrite (s : State) : State :=
  if s.prim = .quiesced ∧ s.rf .PWR_CTRL 0 1 = 1 ∧ s.pdrec.isNone then { s with pdrec := some s.pdRecord } else s.glbReject

/-- GLB_PDREC. -/
def execGlbPdrec (s : State) : Host.Outcome State Fault Refusal := .next s.pdrecWrite

/-- PDREC_DONE: the record's writes have been answered. -/
def execPdrecDone (status : BitVec 8) (s : State) : Host.Outcome State Fault Refusal :=
  match s.pdrec with
  | some _ =>
    let (ok, s) := ({ s with pdrec := none } : State).areaOk 0x184 (s.offSlot 1) 256 0x13
    .next (if ok ∧ status = 0 then s.setRf .GLB_STATUS 0 1 1 else s.setRf .GLB_STATUS 1 1 1)
  | none => .next s

/-- A write to GLB_CTRL; DRAIN and RESUME are judged in the mode in which the write arrives (R416). -/
def State.glbCtrl (s : State) (v : Nat) : State :=
  let m := s.prim
  let s := if bitOf v 1 then s.resumeWrite m else s
  let s := if bitOf v 0 then s.drainWrite m else s
  if bitOf v 2 then s.pdrecWrite else s

end Sys2Proof.Machine
end

