-- ==== Sys2Proof/Machine/RegView.lean ====
section
/-! DEFINITION. What a register shows: fields that mirror state held elsewhere, and the windows of the rule keeper (the
register tables of each chapter, R218, R424). -/

namespace Sys2Proof.Machine

/-! ### Parts -/

/-- STATE of a block: 0 RUN, 1 DRAIN, 2 QUIESCED, 3 FENCED. -/
def State.blockState (s : State) (fenced : Bool) : Nat :=
  if fenced then 3 else if s.prim = .quiesced then 2 else if s.prim = .drain then 1 else 0

/-- Queue manager n is QUIESCED. -/
def State.qmQuiet (s : State) (n : Nat) : Bool := s.blockState (s.niFenced (qmFid n)) == 2

/-- A bit at a place. -/
def bitAt (b : Bool) (i : Nat) : Nat := b.toNat * 2 ^ i

/-- The mode as GLB_MODE codes it, in this cycle (R19, R20): in HALT the conditions are those of its entry. -/
def State.modeNow (s : State) : Nat :=
  let (dg, fb, fz, lp) := s.haltConds.getD s.conds
  s.prim.code + bitAt dg 8 + bitAt fb 9 + bitAt fz 10 + bitAt lp 11

/-- The queue managers that are QUIESCED, one bit each. -/
def State.quietNow (s : State) : Nat := ((List.range 4).map (fun n => bitAt (s.qmQuiet n) n)).sum

/-- Reserved slots of a router in the current bank, over ports and networks, at most 0x7FF. -/
def State.slotsReserved (s : State) (n : Nat) : Nat :=
  let mine := s.tabs.filter (fun kv => kv.1 / 65536 / 8 == (bankOf s.epo.cur * 16 + 2) * 1024 + n && kv.1 % 65536 < 1024)
  min 0x7FF ((mine.map (fun kv => ((List.range 4).filter (fun j => bitOf kv.2 (16 * j))).length)).sum)

/-- Threads of a cluster that still run the old bank. -/
def State.oldThreads (s : State) (k : Nat) : Bool := (s.cl k).thr.any (fun kx => kx.2.st != .off && kx.2.tep != s.epo.cur)

/-- Thread of an engine's register copy: its cluster and its number there. -/
def engThr (base t : Nat) : Nat × Nat :=
  let e := (base - 0xE00000) / 0x2000
  (e / 4, 8 * (e % 4) + t)

/-- Bits of the threads of an engine for which `ok` holds. -/
def State.thrBits (s : State) (base : Nat) (ok : ThrState → Bool) : Nat :=
  ((List.range 8).map (fun t => let kt := engThr base t; bitAt (ok (s.thr kt.1 kt.2).st) t)).sum

/-- Locked rule entries, the fused ones included. -/
def State.lockedRules (s : State) : Nat :=
  16 + (s.tabs.filter (fun kv => kv.1 / 65536 / 8 == (bankOf s.epo.cur * 16 + 5) * 1024 + 4
    && 16 ≤ kv.1 % 65536 && kv.1 % 65536 < 4096 && ruleLock kv.2)).length

/-- Locked domain map entries, the hardwired and fused ones included. -/
def State.lockedMap (s : State) : Nat :=
  ((List.range 1024).filter (fun f => (s.fusedSd f).isSome || bitOf (s.tab (bankOf s.epo.cur) 5 4 0 (4096 + f)) 5)).length

/-- PIDs with a valid entry that names a slice, over every interface's map in the current bank. -/
def State.slicePids (s : State) (sl : Nat) : Nat :=
  (s.tabs.foldl (fun (acc : List Nat) kv =>
    if kv.1 / 65536 / 8 / 1024 = bankOf s.epo.cur * 16 + 8 ∧ kv.1 % 65536 < 4096 ∧ bitOf kv.2 26 ∧ fld kv.2 20 6 = sl then
      (if acc.contains (fld kv.2 0 20) then acc else fld kv.2 0 20 :: acc)
    else acc) []).length

/-- Source-tracker entries in use at an interface, with a queue manager's deliveries and Saffron's slots. -/
def State.srcUse (s : State) (f : Nat) : Nat :=
  (s.nif f).src.length + (if 0x170 ≤ f ∧ f < 0x174 then (s.qmAt (f - 0x170)).dlv.length + (s.qmAt (f - 0x170)).ring.length else 0)
    + (if f = 0x181 then (s.saf.slots.filter (fun t => t.state == .forwarded)).length + s.saf.dead.length else 0)

/-- PWR_DOMd_STATUS beside its sticky bits. -/
def Dom.statusWord (x : Dom) : Nat :=
  x.st + x.phase * 2 ^ 3 + (x.pend.getD 0) * 2 ^ 7 + bitAt x.pend.isSome 10 + bitAt x.clamped 11 + bitAt x.asleep 12

/-- A signed number in 32 bits. -/
def word32 (v : Int) : Nat := (v % 2 ^ 32).toNat

/-! ### The registers -/

/-- The word that a register holds for its reader; fields that no state mirrors are as stored. -/
def State.regNow (s : State) (r : Reg) (base i : Nat) : Nat :=
  let w := s.reg r base i
  match r with
  | .GLB_MODE => s.modeWas
  | .GLB_STATUS => setFld w 5 1 s.drainPend.toNat
  | .PRG_STATUS => setFld w 0 4 s.prg.state.code
  | .PRG_WPTR => s.prg.store.length
  | .PRG_ACTIVE_ID_LO => fld s.prg.progId 0 32
  | .PRG_ACTIVE_ID_HI => fld s.hub.latId 32 32
  | .PRG_SEQ_PC => s.prg.pc
  | .EPO_STATUS => setFld w 0 3 (s.epo.cur.toNat + 2 * s.epo.dual.toNat + 4 * s.epo.t.isSome.toNat)
  | .EPO_DRAIN => s.epo.drain
  | .EPO_COUNT => s.epo.count
  | .RTR_STATUS =>
    let n := (base - 0x200000) / 0x2000
    setFld (setFld w 0 2 (s.blockState (s.rtrFenced n))) 3 1 (s.routerOld n).toNat
  | .RTR_SLOT_RES => s.slotsReserved ((base - 0x200000) / 0x2000)
  | .NI_STATUS =>
    let f := (base - 0x600000) / 0x1000
    fld (s.ownCell f (s.epOf f)) 0 4 + s.blockState (s.niFenced f) * 2 ^ 4 + bitAt (bitOf w 6) 6 + bitAt (s.fidOld f) 7
  | .NI_LINK =>
    let f := (base - 0x600000) / 0x1000
    let st := match (s.nif f).link with
      | .down => 0 | .waitPartner => 1 | .cap => 2 | .credit => 3 | .up => 4 | .timeout => 5 | .nocommon => 6
    setFld w 0 4 (st + 8 * (s.awake f).toNat)
  | .NI_TRK => let f := (base - 0x600000) / 0x1000; s.srcUse f + (s.nif f).tgt.length * 2 ^ 9
  | .NI_ROB => (s.nif ((base - 0x600000) / 0x1000)).rob.length
  | .NI_SAFCRD => let n := s.nif ((base - 0x600000) / 0x1000); n.safCred + n.safPool * 2 ^ 7
  | .NI_SLC_DEF => s.sliceDefault ((base - 0x600000) / 0x1000) s.epo.cur
  | .ARB_CFG0 | .ARB_CFG1 | .ARB_CFG2 | .ARB_CFG3 =>
    let j := match r with | .ARB_CFG0 => 0 | .ARB_CFG1 => 1 | .ARB_CFG2 => 2 | _ => 3
    match siteOf base with | some site => fld (s.arbEntry site) (32 * j) 32 | none => w
  | .ARB_STATUS =>
    match siteOf base with
    | some site =>
      let e := s.arbEntry site
      let a := s.arb site
      let wb : Bool := match site with | .home _ => decide (wbQuota e ≤ a.wb) | _ => false
      bitAt (decide (arbQuota e ≤ a.tc1)) 0 + bitAt wb 1 + min 255 a.tc1 * 2 ^ 2
    | none => w
  | .SAF_STATUS =>
    s.saf.slots.length + s.saf.poolUse * 2 ^ 7 + s.safPoolSize * 2 ^ 14 + s.saf.admq.length * 2 ^ 21 + bitAt (bitOf w 30) 30
  | .SAF_SEQ_LO => fld s.saf.seq 0 32
  | .SAF_SEQ_HI => fld s.hub.latSeq 32 32
  | .SAF_ENTn =>
    if safValid w then setFld w 25 7 ((s.saf.slots.filter (fun t => t.master.toNat == safMaster w)).length) else w
  | .HS_STATUS =>
    let k := (base - 0x800000) / 0x10000
    s.blockState (s.homeFenced k) + bitAt (bitOf w 2) 2 + bitAt (s.fidOld (homeFid k)) 3 + bitAt (!(s.hm k).recon.isEmpty) 4
  | .HS_TRK =>
    let m := s.hm ((base - 0x800000) / 0x10000)
    m.use + m.waiting * 2 ^ 9 + m.bufsUsed * 2 ^ 21
  | .HS_DIR_USE => (s.dir.filter (fun e => e.1 / 98304 == (base - 0x800000) / 0x10000)).length
  | .HS_RECON => let m := s.hm ((base - 0x800000) / 0x10000); m.recon.length + m.sweeps.length * 2 ^ 13
  | .HS_CACHEPORTS => (s.cachePorts ((base - 0x800000) / 0x10000)).length
  | .HS_PRED_HOT =>
    min 0xFFF (s.pred.filter (fun e => predMine ((base - 0x800000) / 0x10000) e.1 && e.2.any (·.hot))).length
  | .RK_STATUS =>
    s.fuseBad.toNat + 2 * s.dbgOvr.toNat + 4 * s.rkCopy.isSome.toNat + ((List.range 4).map (fun n => bitAt (s.repMatch n) (4 + n))).sum
  | .RK_LOCKED => s.lockedRules + s.lockedMap * 2 ^ 13
  | .RK_CRC_ACT => if s.started then s.tableCrc (bankOf s.epo.cur) 5 4 0 else 0
  | .RK_CRC_SHD => if s.started then s.tableCrc s.shadowBank 5 4 0 else 0
  | .RK_REPn_CRC => if s.started then s.tableCrc s.shadowBank 5 i 0 else 0
  | .SSB_STATUS => setFld w 0 2 (s.blockState (s.niFenced (ssbFid ((base - 0xC00000) / 0x10000))))
  | .QM_STATUS => setFld w 0 2 (s.blockState (s.niFenced (qmFid ((base - 0xD00000) / 0x40000))))
  | .QM_Q_STATE =>
    let n := (base - 0xD00000) / 0x40000
    let q := s.qSel n
    let x := s.qdyn q
    let out := ((s.qmAt n).dlv.filter (fun iv => iv.2.any (fun v => v.queue == q && !v.stale && v.dead.isNone))).length
    qMode (s.qdesc q) + bitAt x.paused 2 + x.cause * 2 ^ 3 + out * 2 ^ 11
  | .QM_Q_DEPTH => (s.qdyn (s.qSel ((base - 0xD00000) / 0x40000))).msgs.length
  | .QM_Q_BYTES => ((s.qdyn (s.qSel ((base - 0xD00000) / 0x40000))).msgs.map (·.len)).sum
  | .QM_Q_RATE => (s.qdyn (s.qSel ((base - 0xD00000) / 0x40000))).bkt.rate
  | .QM_Q_BURST => (s.qdyn (s.qSel ((base - 0xD00000) / 0x40000))).bkt.burst
  | .QM_Q_TOKENS => word32 (s.qdyn (s.qSel ((base - 0xD00000) / 0x40000))).bkt.tokens
  | .QM_Q_HEAD => (s.qdyn (s.qSel ((base - 0xD00000) / 0x40000))).head
  | .QM_Q_TAIL => (s.qdyn (s.qSel ((base - 0xD00000) / 0x40000))).tail
  | .QM_P_RATE => (s.qport ((base - 0xD00000) / 0x40000) i).bkt.rate
  | .QM_P_BURST => (s.qport ((base - 0xD00000) / 0x40000) i).bkt.burst
  | .QM_P_TOKENS => word32 (s.qport ((base - 0xD00000) / 0x40000) i).bkt.tokens
  | .QM_P_GATE =>
    let p := s.qport ((base - 0xD00000) / 0x40000) i
    p.entry + bitAt p.pend.isSome 8 + bitAt (bitOf w 9) 9 + bitAt (!p.op.ents.isEmpty) 10
  | .ENG_STATUS =>
    s.thrBits base (fun t => t != .off && t != .halt) + s.thrBits base (fun t => t == .halt) * 2 ^ 8
  | .ENG_T_STATE =>
    let kt := engThr base i
    let x := s.thr kt.1 kt.2
    x.st.code + bitAt x.tep 3 + x.slice.toNat * 2 ^ 4 + x.pc * 2 ^ 10
  | .ENG_CL_STATUS =>
    let k := (base - 0xF80000) / 0x1000
    s.blockState (s.clusterFenced k) + bitAt (bitOf w 2) 2 + bitAt (s.oldThreads k) 3
  | .TIM_STATUS => fld w 0 3 + ((List.range 6).map (fun n => bitAt (bitOf w (3 + n) && s.slTime n) (3 + n))).sum
  | .TIM_SLOFFn => if s.slTime i then w else 0
  | .TIM_NOW_NS => nsOf s.ns
  | .TIM_NOW_S_LO => fld s.hub.latTime 0 32
  | .TIM_NOW_S_HI => fld s.hub.latTime 32 32
  | .TIM_STEP_TOTAL => word32 s.tim.steps
  | .SLC_STATUS =>
    let sl := (base - 0x1400000) / 0x100
    let x := s.slice sl
    s.slcState sl + bitAt (bitOf w 3) 3 + bitAt x.stuck 4 + bitAt x.saved 5 + x.err * 2 ^ 8
  | .SLC_TRK => min 0xFFFF (s.slcTrk ((base - 0x1400000) / 0x100))
  | .SLC_DEFn => fld (s.sliceDef s.epo.cur ((base - 0x1400000) / 0x100)) (32 * i) 32
  | .SLC_PIDS => s.slicePids ((base - 0x1400000) / 0x100)
  | .SLC_SAFUSE => s.saf.poolOfSlice ((base - 0x1400000) / 0x100)
  | .SLC_GSTATUS =>
    ((List.range 64).filter (fun sl => s.slcState sl == 3)).length
      + ((List.range 64).filter (fun sl => s.slcState sl == 2 || s.slcState sl == 4)).length * 2 ^ 7
  | .FC_STATUS =>
    bitAt s.pinLow 0 + bitAt s.minPulse 1 + bitAt s.fc.relPend 2 + bitAt (bitOf w 3) 3 + bitAt (s.prim == .halt) 4
      + bitAt (bitOf w 5) 5
  | .FC_INJ_CTRL => setFld w 31 1 s.fc.inject.isSome.toNat
  | .PWR_STATUS => ((List.range 18).map (fun d => bitAt ((s.domain d).st != 0) d)).sum + bitAt (bitOf w 18) 18
  | .PWR_DOMd_STATUS => setFld w 0 13 (s.domain ((base - 0x2100) / 0x20)).statusWord
  | .CTR_LO => fld (s.ctrThen ((base - 0x1000000) / 0x1000) i) 0 32
  | .CTR_STAT => setFld w 2 1 (i % 2 == 1 && s.chained ((base - 0x1000000) / 0x1000) (i - 1)).toNat
  | _ => w

/-- A word of the rule keeper's windows: two domain map entries, or a quarter of a rule entry, of the bank that RK_CTRL.VIEW
selects (R218). -/
def State.ruleWindowWord (s : State) (rel : Nat) : Nat :=
  let bank := if s.rf .RK_CTRL 0 1 rkBase = 0 then bankOf s.epo.cur else s.shadowBank
  if rel < 0x1800 then
    let f := (rel - 0x1000) / 4 * 2
    s.entryAs bank 5 4 0 (4096 + f) + s.entryAs bank 5 4 0 (4097 + f) * 2 ^ 16
  else fld (s.entryAs bank 5 4 0 ((rel - 0x10000) / 16)) (32 * (rel % 16 / 4)) 32

/-- The offset lies in a window of the rule keeper. -/
def inRuleWindow (off : Nat) : Bool := (0x101000 ≤ off && off < 0x101800) || (0x110000 ≤ off && off < 0x120000)

/-- What a read of an offset returns; a reserved or absent one reads zero, and so does a WO field.  An RC register shows its
value without the updates of this cycle (R9). -/
def State.csPeek (s : State) (off : Nat) : Nat :=
  if inRuleWindow off then s.ruleWindowWord (off - rkBase)
  else match regAt off with
    | some (r, base, i) => r.spec.visible ((s.cycAt (r.off base i)).before.getD (s.regNow r base i))
    | none => 0

/-! ### Effects of a read (R8, R388, R424) -/

/-- A read of PRG_ACTIVE_ID_LO or SAF_SEQ_LO latches the upper half. -/
def State.latchLo (s : State) (seq : Bool) : State :=
  { s with hub := if seq then { s.hub with latSeq := s.saf.seq } else { s.hub with latId := s.prg.progId } }

/-- LATCH_READ_LO. -/
def execLatchReadLo (seq : Bool) (s : State) : Host.Outcome State Fault Refusal := .next (s.latchLo seq)

/-- A read of an offset: its value, and the state after it. -/
def State.csRead (s : State) (off : Nat) : Nat × State :=
  (s.csPeek off, match regAt off with
    | some (.PRG_ACTIVE_ID_LO, _, _) => s.latchLo false
    | some (.SAF_SEQ_LO, _, _) => s.latchLo true
    | some (.TIM_NOW_NS, _, _) => s.latchTime
    | some (.CTR_LO, base, i) => s.ctrLatch ((base - 0x1000000) / 0x1000) i
    | some (r, base, i) => if r.spec.mask .rc = 0 then s else s.rcRead r base i
    | none => s)

end Sys2Proof.Machine
end

