-- ==== Sys2Proof/Machine/Control.lean ====
section
/-! DEFINITION. Control space: what a write does, the control hub with its checks, and the control tree (R7 to R14, R421 to
R430). -/

namespace Sys2Proof.Machine

/-! ### Writes by access code and field kind (R8, R12 to R14) -/

/-- The Live fields of a register after a write. -/
def RegSpec.liveWord (sp : RegSpec) (locked : Bool) (hw old v : Nat) : Nat :=
  sp.fields.foldl (fun a f => if f.kind == .live then f.write locked hw a v else a) old

/-- The register has a field of a kind. -/
def RegSpec.hasKind (sp : RegSpec) (k : Kind) : Bool := sp.fields.any (fun f => f.kind == k)

/-- The Quiesce fields of a register after a write that is accepted. -/
def RegSpec.quiesceWord (sp : RegSpec) (old v : Nat) : Nat :=
  sp.fields.foldl (fun a f => if f.kind == .quiesce then f.write false 0 a v else a) old

/-- The Live fields of a register written by software: W1C bits that the hardware has set in this cycle stay set; RWL fields are
noted for a lock of the same cycle, a lock bit that becomes set undoes the cycle's writes to what it locks, and a capture that is
cleared takes the event of the same cycle (R9). -/
def State.putLive (s : State) (r : Reg) (base i v : Nat) : State :=
  let sp := r.spec
  let t := if sp.mask .rwl = 0 then s else s.noteUndo r base i
  let t := if sp.block = .prb then t.noteWas r base i else t
  let t := t.putWord r (sp.liveWord (s.rwlLocked r) (s.cycAt (r.off base i)).set (s.reg r base i) v) base i
  let t := if bitOf (sp.mask .w1c) 31 && s.rf r 31 1 base i == 1 && t.rf r 31 1 base i == 0 then t.takeLate r base i else t
  if t.lockOf r && !s.lockOf r then t.undoLocked r else t

/-- The Quiesce fields of QM_HOSTWIN written: the queue manager must be QUIESCED, and have been so at the start of the cycle;
else QREJ lies in QM_STATUS (R14). -/
def State.putQuiesce (s : State) (r : Reg) (base i v : Nat) : State :=
  let n := (base - 0xD00000) / 0x40000
  if s.qmQuiet n && bitOf s.quietWas n then (s.noteUndo r base i).putWord r (r.spec.quiesceWord (s.reg r base i) v) base i
  else s.setRf .QM_STATUS 2 1 1 base

/-- A write to a register without further effect.  The one Quiesce register is QM_HOSTWIN. -/
def State.putReg (s : State) (r : Reg) (base i v : Nat) : State :=
  let sp := r.spec
  let s := s.putLive r base i v
  let s := if sp.hasKind .epoch then
      { s with shadows := SMap.set none s.shadows (r.off base i) (some (BitVec.ofNat 32 v)) } else s
  if sp.hasKind .quiesce then s.putQuiesce r base i v else s

/-- A value with some bits zero: commands, which read 0. -/
def without (v : Nat) (bits : List Nat) : Nat := bits.foldl (fun a b => setFld a b 1 0) v

/-! ### Writes with an effect of their own -/

/-- PRG_CTRL: ABORT comes before START. -/
def State.prgCtrl (s : State) (src v : Nat) : State :=
  let s := s.putReg .PRG_CTRL 0 0 (without v [0, 1])
  let s := if bitOf v 1 then s.prgAbandon else s
  if bitOf v 0 ∧ ¬(s.prim = .boot ∧ src ≠ 0x126) then s.prgBegin src else s

/-- NI_BW_CFG: a write to WIN cuts the running window, and a rise of EN begins one (R392). -/
def State.bwCfg (s : State) (base v : Nat) : State :=
  let f := (base - 0x600000) / 0x1000
  let on := s.rf .NI_BW_CFG 31 1 base
  let s := s.putReg .NI_BW_CFG base 0 v
  if on = 0 then (if bitOf v 31 then s.bwStart f else s)
  else { s with bw := SMap.upd {} s.bw f (fun w => { w with cut := true }) }

/-- TIM_CTRL: from the rise of PPS_EN the seconds without an edge are counted (R308). -/
def State.timCtrl (s : State) (v : Nat) : State :=
  let on := s.rf .TIM_CTRL 0 1
  let s := s.putReg .TIM_CTRL 0 0 v
  if on = 0 ∧ bitOf v 0 then { s with tim := { s.tim with ppsRef := s.ns } } else s

/-- TIM_CMD: SET comes first, and a STEP beside it is ignored (R306). -/
def State.timCmd (s : State) (v : Nat) : State :=
  if bitOf v 0 then (if bitOf v 1 then s.timSet.timReject else s.timSet)
  else if bitOf v 1 then s.timStep else s

/-- ENG_T_CTRL of a thread: START, then HALT. -/
def State.engCtrl (s : State) (k t v : Nat) : State :=
  let s := if bitOf v 0 then s.threadStart k t else s
  if bitOf v 1 then s.threadHalt k t else s

/-- FC_INJ_CTRL: DISARM comes before ARM. -/
def State.injCtrl (s : State) (v : Nat) : State :=
  let s := s.putReg .FC_INJ_CTRL 0 0 (without v [27, 28])
  let s := if bitOf v 28 then s.injDisarm else s
  if bitOf v 27 then s.injArm else s

/-- PWR_FABREQ. -/
def State.fabReq (s : State) (v : Nat) : State :=
  let s := s.putReg .PWR_FABREQ 0 0 (without v [3, 4])
  let s := if bitOf v 3 then s.fabricSleep else s
  if bitOf v 4 then s.fabricUnclamp else s

/-- CTR_STAT: OVF is cleared by a 1; CHAIN. -/
def State.ctrStat (s : State) (base i v : Nat) : State :=
  let s := if bitOf v 0 ∧ ¬bitOf (s.cycAt (Reg.off .CTR_STAT base i)).set 0 then s.setRf .CTR_STAT 0 1 0 base i else s
  s.setChain ((base - 0x1000000) / 0x1000) i (bitOf v 1)

/-- PRB_RING_BASE and PRB_RING_SIZE: ignored while the probe is on (R399). -/
def State.ringReg (s : State) (r : Reg) (base v : Nat) : State :=
  if s.rf .PRB_CTRL 0 1 base = 1 then s.setRf .PRB_STATUS 1 1 1 base else s.putReg r base 0 v

/-- A write of a register by `src`. -/
def State.regWrite (s : State) (src : Nat) (r : Reg) (base i v : Nat) : State :=
  match r with
  | .GLB_RESET => s.resetWrite (fld v 0 16) (bitOf v 16)
  | .GLB_CTRL => s.glbCtrl v
  | .PRG_CTRL => s.prgCtrl src v
  | .PRG_DATA => s.prgData src (leBytes 4 v)
  | .SAF_POOLDEF => s.safPooldefPut v
  | .SAF_ENTn => s.safEntPut i v
  | .NI_BW_CFG => s.bwCfg base v
  | .HS_ATOM_CTRL =>
    let s := s.putReg r base i (without v [2])
    if bitOf v 2 then s.predClear ((base - 0x800000) / 0x10000) else s
  | .QM_Q_RATE => s.queueRate ((base - 0xD00000) / 0x40000) v
  | .QM_Q_BURST => s.queueBurst ((base - 0xD00000) / 0x40000) v
  | .QM_Q_CTRL => if bitOf v 0 then s.queueResume ((base - 0xD00000) / 0x40000) else s
  | .QM_P_RATE => s.portRate ((base - 0xD00000) / 0x40000) i v
  | .QM_P_BURST => s.portBurst ((base - 0xD00000) / 0x40000) i v
  | .ENG_T_CTRL => let kt := engThr base i; s.engCtrl kt.1 kt.2 v
  | .TIM_CTRL => s.timCtrl v
  | .TIM_CMD => s.timCmd v
  | .SLC_CTRL => s.slcCtrl ((base - 0x1400000) / 0x100) v
  | .SLC_QLIVE => s.qliveWrite ((base - 0x1400000) / 0x100) v
  | .FC_CTRL =>
    let s := s.putReg r base i (without v [3])
    if bitOf v 3 then s.askReturn else s
  | .FC_PIN => if bitOf v 0 then s.pinRelease else s
  | .FC_ACK => s.ackFaults v
  | .FC_INJ_CTRL => s.injCtrl v
  | .FC_SWRAISE =>
    let s := s.putReg r base i (without v [31])
    if bitOf v 31 then s.swRaise src else s
  | .PWR_ANISE => ((List.range 6).filter (bitOf v)).foldl State.sendAnise s
  | .PWR_QREQn =>
    let s := s.putReg r base i (without v [7])
    if bitOf v 7 then s.quadRequest i else s
  | .PWR_FABREQ => s.fabReq v
  | .PWR_DOMd_REQ => (s.pwrRequest [(base - 0x2100) / 0x20] (fld v 0 3)).pump
  | .PWR_DOMd_CTRL => if bitOf v 0 then s.unclampDom ((base - 0x2100) / 0x20) else s
  | .CTR_STAT => s.ctrStat base i v
  | .CTR_BANK_CTRL =>
    let s := s.putReg r base i (without v [1])
    if bitOf v 1 then s.askClear ((base - 0x1000000) / 0x1000) else s
  | .PRB_RING_BASE | .PRB_RING_SIZE => s.ringReg r base v
  | .PRB_STATUS =>
    let s := s.putReg r base i v
    if bitOf v 0 ∧ s.rf .PRB_STATUS 0 1 base = 0 then s.probeRearm ((base - 0x1380000) / 0x200) else s
  | r => s.putReg r base i v

/-- A write of an offset by `src`; a reserved or absent one, or one in a window of the rule keeper, has no effect. -/
def State.csWrite (s : State) (src off v : Nat) : State :=
  match regAt off with
  | some (r, base, i) => s.regWrite src r base i v
  | none => s

/-- REGISTER_WRITE: a write that has passed the hub; units below Idle and, in TEST, all units drop it (R430). -/
def execRegisterWrite (src : Fid) (offset : BitVec 26) (value : BitVec 32) (s : State) : Host.Outcome State Fault Refusal :=
  if ¬assigned src.toNat then .fault .noSuchUnit
  else if s.prim = .test ∨ s.ownerAsleep offset.toNat then .next s
  else .next (s.csWrite src.toNat offset.toNat value.toNat)

/-- CSA_LOCK. -/
def execCsaLock (s : State) : Host.Outcome State Fault Refusal :=
  .next (if s.lockOf .GLB_CSA_CTRL then s else (s.setRf .GLB_CSA_CTRL 0 1 1).undoLocked .GLB_CSA_CTRL)

/-! ### The hub (R421 to R423, R429, R430) -/

/-- The hub can take a request: once in an FCLK, with room in its queue. -/
def State.hubReady (s : State) : Bool :=
  s.started && !s.domDown 1 && s.hubFree

/-- A request leaves the hub's interface, with the line of a line-form write. -/
def State.hubTake (s : State) (ps : List Pkt) : State :=
  s.hubTook.updNi 0x180 (fun n =>
    { n with inbox := n.inbox.filter (fun p => !ps.contains p) })

/-- The access of the oldest queued request whose source has none outstanding begins; one in an FCLK, at most 16
outstanding. -/
def State.hubBegin (s : State) : State :=
  if s.hub.beginAt = s.tick + 1 ∨ 16 ≤ s.hub.tree.length then s
  else match s.hub.queue.find? (fun r => !s.hub.tree.any (fun x => x.src == r.src)) with
    | some r => { s with hub := { s.hub with queue := s.hub.queue.erase r, tree := s.hub.tree ++ [r], beginAt := s.tick + 1 } }
    | none => s

/-- CSR_READ. -/
def execCsrRead (s : State) : Host.Outcome State Fault Refusal :=
  match s.hubHead with
  | none => .next s
  | some q =>
    if ¬s.hubReady ∨ q.opc ≠ 0x15 then .next s
    else
      let off := q.addr.toNat % 2 ^ 26
      let sd := s.hubSd q
      let s := s.hubTake [q]
      match s.hubJudge q.src.toNat sd false off with
      | (some st, s) => .next (s.answer 0x180 q st 0 [0])
      | (none, s) =>
        let r : HubReq := { src := q.src, sd := BitVec.ofNat 4 (sd.getD 0), write := false, off := off, req := some q }
        .next ({ s with hub := { s.hub with queue := s.hub.queue ++ [r] } } : State).hubBegin

/-- CSR_WRITE: a write to PRG_DATA completes as it is taken. -/
def execCsrWrite (s : State) : Host.Outcome State Fault Refusal :=
  match s.hubHead with
  | none => .next s
  | some q =>
    let off := q.addr.toNat % 2 ^ 26
    let line : Bool := q.len == 0
    let data := (s.nif 0x180).inbox.find? (fun p => p.net == .dat && p.src == q.src && p.txid == q.txid)
    if ¬s.hubReady ∨ q.opc ≠ 0x16 ∨ (line ∧ data.isNone) then .next s
    else
      let sd := s.hubSd q
      let v := (q.ops.getD 0 0).toNat % 2 ^ 32
      let s := s.hubTake (q :: (if line then data.toList else []))
      match s.hubJudge q.src.toNat sd true off with
      | (some st, s) => .next (s.answer 0x180 q st)
      | (none, s) =>
        if inPrgData off then
          .next ((s.prgData q.src.toNat (if line then (data.map (·.data)).getD [] else leBytes 4 v)).answer 0x180 q 0)
        else
          let r : HubReq := { src := q.src, sd := BitVec.ofNat 4 (sd.getD 0), write := true, off := off,
                              value := BitVec.ofNat 32 v, req := some q }
          .next ({ s with hub := { s.hub with queue := s.hub.queue ++ [r] } } : State).hubBegin

/-- The answer of a tree access to its requester. -/
def State.hubAnswer (s : State) (r : HubReq) (status value : Nat) : State :=
  match r.req with
  | some q => s.answer 0x180 q status 0 (if r.write then [] else [BitVec.ofNat 64 value])
  | none => s

/-- A tree access reaches its unit: the unit's domain may be below Idle, else the field rules apply.  A write that starts a
warm reset is lost without an answer (R410). -/
def State.treeAccess (s : State) (r : HubReq) : State :=
  if absent r.off then (s.csaRefuse r.src.toNat (some r.sd.toNat) r.write r.off 2).hubAnswer r 9 0
  else if s.ownerAsleep r.off then s.hubAnswer r 3 0
  else if r.write then
    let t := s.csWrite r.src.toNat r.off r.value.toNat
    if t.hub.tree.isEmpty ∧ ¬s.hub.tree.isEmpty then t else t.hubAnswer r 0 0
  else
    let (v, t) := s.csRead r.off
    t.hubAnswer r 0 v

/-- TREE_ACCESS_DONE: the access of `src`; accesses to one register take effect in the order in which they began. -/
def execTreeAccessDone (src : Fid) (s : State) : Host.Outcome State Fault Refusal :=
  if ¬assigned src.toNat then .fault .noSuchUnit
  else match s.hub.tree.find? (fun r => r.src == src) with
    | none => .next s
    | some r =>
      if (s.hub.tree.takeWhile (fun x => x.src != src)).any (fun x => x.off == r.off) then .next s
      else
        let t := s.treeAccess r
        .next ({ t with hub := { t.hub with tree := t.hub.tree.erase r } } : State).hubBegin

/-! ### WAITS (R30) -/

/-- A sample of WAITS: no side effect; an absent offset and a unit below Idle read 0, a word of the direct window as its region
registers let the controller read it. -/
def State.sampleOff (s : State) (off : Nat) : Nat :=
  if inDirect off then
    (if s.domDown (unitDomain (ssbFid (fld off 21 4))) then 0
     else if s.regionOk (fld off 0 25) 0x180 0 true false then leNat (s.sramRead (fld off 0 25) 4) else 0)
  else if s.ownerAsleep off then 0 else s.csPeek off

/-- WAITS_SAMPLE. -/
def execWaitsSample (s : State) : Host.Outcome State Fault Refusal :=
  if s.prim = .halt ∨ s.prg.state ≠ .executing then .next s
  else match s.prg.wait with
    | .waits off mask value _ => if (s.sampleOff off) &&& mask = value then .next (s.prgNext 16) else .next s
    | _ => .next s

/-! ### A forced win (R88) -/

/-- The requester that wins a site's next decision by force. -/
def State.forcedAt (s : State) (site : ArbSite) (n : Nat) (rs : List ArbReq) : Option ArbReq :=
  match arbWinner (s.arbEntry site) n (s.arb site) rs with
  | some (r, true, true) => some r
  | _ => none

/-- The head of the response lane of a home is served. -/
def State.homeRespond (s : State) (k : Fin 64) : Host.Outcome State Fault Refusal :=
  match s.respHead k with
  | none => .next s
  | some p =>
    if p.net = .dat then (if p.opc.toNat < 0x10 then execHomeMemData k s else execHomeSnoopData k s)
    else if p.opc = 1 then execHomeInvack k s
    else if p.opc = 2 then execHomeCompack k s
    else if p.txid.toNat < 256 then execHomeMemData k s else execHomeMemComp k s

/-- FORCED_WIN: the site's decision is made for a requester whose wait has reached the limit of its kind. -/
def execForcedWin (site : ArbSite) (s : State) : Host.Outcome State Fault Refusal :=
  match site with
  | .router node net out =>
    if s.prim = .halt ∨ s.rtrFenced node ∨ ¬portPresent node out
        ∨ (s.forcedAt site 21 ((s.hopReqs node net out).map (fun x => x.2.2))).isNone then .next s
    else .next (s.hop node net out .clean)
  | .home k =>
    match s.forcedAt site 5 (s.homeReqs k) with
    | none => .next s
    | some r =>
      if r.idx = 0 then s.homeRespond k
      else if r.idx = 1 then execHomeWritebackDecide k [] s
      else execHomeRequestDecide k (if r.idx = 2 then 0 else if r.idx = 4 then 3 else 2) [] .clean s
  | .bank node bank =>
    if (s.forcedAt site 6 (s.fabReqs node bank)).isNone then .next s else execBankAccess node bank [] [] .clean s

end Sys2Proof.Machine
end

