-- ==== Sys2Proof/Machine/Dispatch.lean ====
section
/-! DEFINITION. The meaning of each command, one arm per row of spec/opcode_table.json. -/

namespace Sys2Proof.Machine

def exec (i : Instr) (s : State) : Host.Outcome State Fault Refusal :=
  match i with
  | .frstNAssert => Sys2Proof.Machine.execFrstNAssert s
  | .coldStart fuses => Sys2Proof.Machine.execColdStart fuses s
  | .warmReset key go => Sys2Proof.Machine.execWarmReset key go s
  | .testEntry => Sys2Proof.Machine.execTestEntry s
  | .ppsInEdge => Sys2Proof.Machine.execPpsInEdge s
  | .wakePin level => Sys2Proof.Machine.execWakePin level s
  | .aniseDetect sl => Sys2Proof.Machine.execAniseDetect sl s
  | .p2fWake fid => Sys2Proof.Machine.execP2fWake fid s
  | .p2fLinkRise fid => Sys2Proof.Machine.execP2fLinkRise fid s
  | .p2fLinkFall fid => Sys2Proof.Machine.execP2fLinkFall fid s
  | .slCapReceive sl cap => Sys2Proof.Machine.execSlCapReceive sl cap s
  | .linkTimeout fid => Sys2Proof.Machine.execLinkTimeout fid s
  | .p2fBeat fid beat => Sys2Proof.Machine.execP2fBeat fid beat s
  | .creditReturn fid net toPartner => Sys2Proof.Machine.execCreditReturn fid net toPartner s
  | .prgStart src => Sys2Proof.Machine.execPrgStart src s
  | .prgAbort => Sys2Proof.Machine.execPrgAbort s
  | .cloveLock => Sys2Proof.Machine.execCloveLock s
  | .prgDataWrite src data => Sys2Proof.Machine.execPrgDataWrite src data s
  | .imageVerify => Sys2Proof.Machine.execImageVerify s
  | .nop store => Sys2Proof.Machine.execNop store s
  | .wrtb store => Sys2Proof.Machine.execWrtb store s
  | .vcrc store => Sys2Proof.Machine.execVcrc store s
  | .wrcs store => Sys2Proof.Machine.execWrcs store s
  | .wrcsComplete => Sys2Proof.Machine.execWrcsComplete s
  | .waitt store => Sys2Proof.Machine.execWaitt store s
  | .waittExpire => Sys2Proof.Machine.execWaittExpire s
  | .waitd store => Sys2Proof.Machine.execWaitd store s
  | .waitdExpire => Sys2Proof.Machine.execWaitdExpire s
  | .waits store => Sys2Proof.Machine.execWaits store s
  | .waitsSample => Sys2Proof.Machine.execWaitsSample s
  | .waitsTimeout => Sys2Proof.Machine.execWaitsTimeout s
  | .fence store => Sys2Proof.Machine.execFence store s
  | .unfence store => Sys2Proof.Machine.execUnfence store s
  | .epsw store => Sys2Proof.Machine.execEpsw store s
  | .armTimeout => Sys2Proof.Machine.execArmTimeout s
  | .linkup store => Sys2Proof.Machine.execLinkup store s
  | .endSeq store => Sys2Proof.Machine.execEndSeq store s
  | .epochSwitch => Sys2Proof.Machine.execEpochSwitch s
  | .drainEnd => Sys2Proof.Machine.execDrainEnd s
  | .oldBankFree => Sys2Proof.Machine.execOldBankFree s
  | .ruleShadowCopyDone => Sys2Proof.Machine.execRuleShadowCopyDone s
  | .epochArmAck unit => Sys2Proof.Machine.execEpochArmAck unit s
  | .epochHoldRelease fid => Sys2Proof.Machine.execEpochHoldRelease fid s
  | .bucketReleaseSend k bucket => Sys2Proof.Machine.execBucketReleaseSend k bucket s
  | .bucketReleaseProxy k bucket => Sys2Proof.Machine.execBucketReleaseProxy k bucket s
  | .bucketReleaseReceive k => Sys2Proof.Machine.execBucketReleaseReceive k s
  | .bucketSweepTimeout k slot => Sys2Proof.Machine.execBucketSweepTimeout k slot s
  | .cloveFetchDone copy0 copy1 => Sys2Proof.Machine.execCloveFetchDone copy0 copy1 s
  | .faultReturn => Sys2Proof.Machine.execFaultReturn s
  | .ingressAccept fid table rule => Sys2Proof.Machine.execIngressAccept fid table rule s
  | .pieceIssue fid => Sys2Proof.Machine.execPieceIssue fid s
  | .routerHop node net out err table => Sys2Proof.Machine.execRouterHop node net out err table s
  | .escapeMove node net inp vc => Sys2Proof.Machine.execEscapeMove node net inp vc s
  | .forcedWin site => Sys2Proof.Machine.execForcedWin site s
  | .arbWindowEnd => Sys2Proof.Machine.execArbWindowEnd s
  | .oldMark place => Sys2Proof.Machine.execOldMark place s
  | .watchdogExpire node net inp vc => Sys2Proof.Machine.execWatchdogExpire node net inp vc s
  | .egressPresent fid net vc err => Sys2Proof.Machine.execEgressPresent fid net vc err s
  | .robRelease fid => Sys2Proof.Machine.execRobRelease fid s
  | .pieceAnswer fid => Sys2Proof.Machine.execPieceAnswer fid s
  | .nackReissue fid entry => Sys2Proof.Machine.execNackReissue fid entry s
  | .srcTrackerExpire fid entry => Sys2Proof.Machine.execSrcTrackerExpire fid entry s
  | .tgtTrackerExpire fid entry => Sys2Proof.Machine.execTgtTrackerExpire fid entry s
  | .trackerRelease fid entry => Sys2Proof.Machine.execTrackerRelease fid entry s
  | .safHeaderArrive stored => Sys2Proof.Machine.execSafHeaderArrive stored s
  | .safPoolGrant => Sys2Proof.Machine.execSafPoolGrant s
  | .safComplete => Sys2Proof.Machine.execSafComplete s
  | .safWaitExpire fid entry => Sys2Proof.Machine.execSafWaitExpire fid entry s
  | .safEntWrite n value => Sys2Proof.Machine.execSafEntWrite n value s
  | .safPooldefWrite value => Sys2Proof.Machine.execSafPooldefWrite value s
  | .homeRequestDecide k lane err table => Sys2Proof.Machine.execHomeRequestDecide k lane err table s
  | .homeWritebackDecide k err => Sys2Proof.Machine.execHomeWritebackDecide k err s
  | .homeWaiterEnter k err => Sys2Proof.Machine.execHomeWaiterEnter k err s
  | .homeCompack k => Sys2Proof.Machine.execHomeCompack k s
  | .homeInvack k => Sys2Proof.Machine.execHomeInvack k s
  | .homeSnoopData k => Sys2Proof.Machine.execHomeSnoopData k s
  | .homeMemData k => Sys2Proof.Machine.execHomeMemData k s
  | .homeMemComp k => Sys2Proof.Machine.execHomeMemComp k s
  | .homeTrackerExpire k htid => Sys2Proof.Machine.execHomeTrackerExpire k htid s
  | .dirScrub k err0 err1 => Sys2Proof.Machine.execDirScrub k err0 err1 s
  | .predWindowEnd k => Sys2Proof.Machine.execPredWindowEnd k s
  | .predClear k => Sys2Proof.Machine.execPredClear k s
  | .cacheSnoop fid => Sys2Proof.Machine.execCacheSnoop fid s
  | .cacheAnswer fid => Sys2Proof.Machine.execCacheAnswer fid s
  | .replicaRepair copies index => Sys2Proof.Machine.execReplicaRepair copies index s
  | .bankAccess node bank fabErr locErr table => Sys2Proof.Machine.execBankAccess node bank fabErr locErr table s
  | .sramScrub node bank err => Sys2Proof.Machine.execSramScrub node bank err s
  | .enq q table => Sys2Proof.Machine.execEnq q table s
  | .doorbell q table => Sys2Proof.Machine.execDoorbell q table s
  | .deq q table => Sys2Proof.Machine.execDeq q table s
  | .portSelect q p table gate => Sys2Proof.Machine.execPortSelect q p table gate s
  | .deliveryComp q => Sys2Proof.Machine.execDeliveryComp q s
  | .deliveryRetry queue => Sys2Proof.Machine.execDeliveryRetry queue s
  | .qmQResume q => Sys2Proof.Machine.execQmQResume q s
  | .tokenRefill => Sys2Proof.Machine.execTokenRefill s
  | .qmQRateWrite q value => Sys2Proof.Machine.execQmQRateWrite q value s
  | .qmQBurstWrite q value => Sys2Proof.Machine.execQmQBurstWrite q value s
  | .qmPRateWrite q p value => Sys2Proof.Machine.execQmPRateWrite q p value s
  | .qmPBurstWrite q p value => Sys2Proof.Machine.execQmPBurstWrite q p value s
  | .gateEntryChange q p => Sys2Proof.Machine.execGateEntryChange q p s
  | .gateListStart q p => Sys2Proof.Machine.execGateListStart q p s
  | .samplePeriodOpen q => Sys2Proof.Machine.execSamplePeriodOpen q s
  | .add t store => Sys2Proof.Machine.execAdd t store s
  | .sub t store => Sys2Proof.Machine.execSub t store s
  | .mullo t store => Sys2Proof.Machine.execMullo t store s
  | .mulhi t store => Sys2Proof.Machine.execMulhi t store s
  | .mulhiu t store => Sys2Proof.Machine.execMulhiu t store s
  | .quo t store => Sys2Proof.Machine.execQuo t store s
  | .quou t store => Sys2Proof.Machine.execQuou t store s
  | .mod t store => Sys2Proof.Machine.execMod t store s
  | .modu t store => Sys2Proof.Machine.execModu t store s
  | .and t store => Sys2Proof.Machine.execAnd t store s
  | .ior t store => Sys2Proof.Machine.execIor t store s
  | .xor t store => Sys2Proof.Machine.execXor t store s
  | .shl t store => Sys2Proof.Machine.execShl t store s
  | .shr t store => Sys2Proof.Machine.execShr t store s
  | .shra t store => Sys2Proof.Machine.execShra t store s
  | .cmplt t store => Sys2Proof.Machine.execCmplt t store s
  | .cmpltu t store => Sys2Proof.Machine.execCmpltu t store s
  | .addk t store => Sys2Proof.Machine.execAddk t store s
  | .andk t store => Sys2Proof.Machine.execAndk t store s
  | .iork t store => Sys2Proof.Machine.execIork t store s
  | .xork t store => Sys2Proof.Machine.execXork t store s
  | .cmpltk t store => Sys2Proof.Machine.execCmpltk t store s
  | .sethi t store => Sys2Proof.Machine.execSethi t store s
  | .shkShl t store => Sys2Proof.Machine.execShkShl t store s
  | .shkShr t store => Sys2Proof.Machine.execShkShr t store s
  | .shkShra t store => Sys2Proof.Machine.execShkShra t store s
  | .callr t store => Sys2Proof.Machine.execCallr t store s
  | .sync t store => Sys2Proof.Machine.execSync t store s
  | .rett t store => Sys2Proof.Machine.execRett t store s
  | .rdtcr t store => Sys2Proof.Machine.execRdtcr t store s
  | .wrtcr t store => Sys2Proof.Machine.execWrtcr t store s
  | .signal t store => Sys2Proof.Machine.execSignal t store s
  | .halt t store => Sys2Proof.Machine.execHalt t store s
  | .breakTrap t store => Sys2Proof.Machine.execBreakTrap t store s
  | .ldb t store mem => Sys2Proof.Machine.execLdb t store mem s
  | .ldh t store mem => Sys2Proof.Machine.execLdh t store mem s
  | .ldw t store mem => Sys2Proof.Machine.execLdw t store mem s
  | .ldd t store mem => Sys2Proof.Machine.execLdd t store mem s
  | .ldbs t store mem => Sys2Proof.Machine.execLdbs t store mem s
  | .ldhs t store mem => Sys2Proof.Machine.execLdhs t store mem s
  | .ldws t store mem => Sys2Proof.Machine.execLdws t store mem s
  | .stb t store => Sys2Proof.Machine.execStb t store s
  | .sth t store => Sys2Proof.Machine.execSth t store s
  | .stw t store => Sys2Proof.Machine.execStw t store s
  | .std t store => Sys2Proof.Machine.execStd t store s
  | .ldln t store => Sys2Proof.Machine.execLdln t store s
  | .stln t store mem => Sys2Proof.Machine.execStln t store mem s
  | .atom t store mem => Sys2Proof.Machine.execAtom t store mem s
  | .enqInstr t store mem => Sys2Proof.Machine.execEnqInstr t store mem s
  | .deqInstr t store => Sys2Proof.Machine.execDeqInstr t store s
  | .dbell t store => Sys2Proof.Machine.execDbell t store s
  | .seqw t store mem => Sys2Proof.Machine.execSeqw t store mem s
  | .intr t store => Sys2Proof.Machine.execIntr t store s
  | .recv t store => Sys2Proof.Machine.execRecv t store s
  | .rxdone t store => Sys2Proof.Machine.execRxdone t store s
  | .rdtim t store => Sys2Proof.Machine.execRdtim t store s
  | .threadWaitt t store => Sys2Proof.Machine.execThreadWaitt t store s
  | .settmr t store => Sys2Proof.Machine.execSettmr t store s
  | .breq t store => Sys2Proof.Machine.execBreq t store s
  | .brne t store => Sys2Proof.Machine.execBrne t store s
  | .brlt t store => Sys2Proof.Machine.execBrlt t store s
  | .brge t store => Sys2Proof.Machine.execBrge t store s
  | .brlo t store => Sys2Proof.Machine.execBrlo t store s
  | .brhs t store => Sys2Proof.Machine.execBrhs t store s
  | .call t store => Sys2Proof.Machine.execCall t store s
  | .threadWaittExpire t => Sys2Proof.Machine.execThreadWaittExpire t s
  | .trapTake t => Sys2Proof.Machine.execTrapTake t s
  | .timerFire t => Sys2Proof.Machine.execTimerFire t s
  | .interruptTake t => Sys2Proof.Machine.execInterruptTake t s
  | .storeDrain e => Sys2Proof.Machine.execStoreDrain e s
  | .engFabricAnswer k => Sys2Proof.Machine.execEngFabricAnswer k s
  | .engDelivery k => Sys2Proof.Machine.execEngDelivery k s
  | .engTStart t => Sys2Proof.Machine.execEngTStart t s
  | .engTHalt t => Sys2Proof.Machine.execEngTHalt t s
  | .localSramScrub k err => Sys2Proof.Machine.execLocalSramScrub k err s
  | .engSampleWrite k => Sys2Proof.Machine.execEngSampleWrite k s
  | .syncBeat leaf reading => Sys2Proof.Machine.execSyncBeat leaf reading s
  | .timSet => Sys2Proof.Machine.execTimSet s
  | .timStep => Sys2Proof.Machine.execTimStep s
  | .holdoverEnter => Sys2Proof.Machine.execHoldoverEnter s
  | .ppsOutRise => Sys2Proof.Machine.execPpsOutRise s
  | .ppsOutFall => Sys2Proof.Machine.execPpsOutFall s
  | .timeBeacon sl offset => Sys2Proof.Machine.execTimeBeacon sl offset s
  | .timNowRead => Sys2Proof.Machine.execTimNowRead s
  | .slcFreeze sl => Sys2Proof.Machine.execSlcFreeze sl s
  | .sliceFrozen sl => Sys2Proof.Machine.execSliceFrozen sl s
  | .freezeStuck sl => Sys2Proof.Machine.execFreezeStuck sl s
  | .slcThaw sl => Sys2Proof.Machine.execSlcThaw sl s
  | .slcReset sl => Sys2Proof.Machine.execSlcReset sl s
  | .sliceResetSquash sl => Sys2Proof.Machine.execSliceResetSquash sl s
  | .sliceResetClear sl => Sys2Proof.Machine.execSliceResetClear sl s
  | .slcSave sl => Sys2Proof.Machine.execSlcSave sl s
  | .slcRestore sl => Sys2Proof.Machine.execSlcRestore sl s
  | .saveDone sl status => Sys2Proof.Machine.execSaveDone sl status s
  | .restoreDone sl area status => Sys2Proof.Machine.execRestoreDone sl area status s
  | .slcQliveWrite sl value => Sys2Proof.Machine.execSlcQliveWrite sl value s
  | .faultReport => Sys2Proof.Machine.execFaultReport s
  | .alarmFrame node => Sys2Proof.Machine.execAlarmFrame node s
  | .faultTake stored => Sys2Proof.Machine.execFaultTake stored s
  | .faultReportResend fid => Sys2Proof.Machine.execFaultReportResend fid s
  | .pinMinimumEnd => Sys2Proof.Machine.execPinMinimumEnd s
  | .fcAck value => Sys2Proof.Machine.execFcAck value s
  | .fcPinRelease => Sys2Proof.Machine.execFcPinRelease s
  | .injArm => Sys2Proof.Machine.execInjArm s
  | .injDisarm => Sys2Proof.Machine.execInjDisarm s
  | .swRaise src => Sys2Proof.Machine.execSwRaise src s
  | .spineVoteMismatch unit copy => Sys2Proof.Machine.execSpineVoteMismatch unit copy s
  | .voteResyncDone unit copy => Sys2Proof.Machine.execVoteResyncDone unit copy s
  | .pwrDomReq d target => Sys2Proof.Machine.execPwrDomReq d target s
  | .pwrQreqGo n => Sys2Proof.Machine.execPwrQreqGo n s
  | .idleTimeout d => Sys2Proof.Machine.execIdleTimeout d s
  | .powerAnswer d unit => Sys2Proof.Machine.execPowerAnswer d unit s
  | .deferReask d unit => Sys2Proof.Machine.execDeferReask d unit s
  | .noanswerTimeout d unit => Sys2Proof.Machine.execNoanswerTimeout d unit s
  | .entrySaveDone d status => Sys2Proof.Machine.execEntrySaveDone d status s
  | .vdone d => Sys2Proof.Machine.execVdone d s
  | .avsStatusPoll d alert => Sys2Proof.Machine.execAvsStatusPoll d alert s
  | .avsVoltageWriteDone d crcOk ack => Sys2Proof.Machine.execAvsVoltageWriteDone d crcOk ack s
  | .wakeAccept d => Sys2Proof.Machine.execWakeAccept d s
  | .wakeStartDone d reply => Sys2Proof.Machine.execWakeStartDone d reply s
  | .pwrUnclamp d => Sys2Proof.Machine.execPwrUnclamp d s
  | .pwrFabreqGo => Sys2Proof.Machine.execPwrFabreqGo s
  | .pwrFabreqUnclamp => Sys2Proof.Machine.execPwrFabreqUnclamp s
  | .pwrAniseSend sl => Sys2Proof.Machine.execPwrAniseSend sl s
  | .pwrSaveLock => Sys2Proof.Machine.execPwrSaveLock s
  | .holdTimeout fid => Sys2Proof.Machine.execHoldTimeout fid s
  | .glbDrain => Sys2Proof.Machine.execGlbDrain s
  | .fabricQuiesced => Sys2Proof.Machine.execFabricQuiesced s
  | .drainTimeout => Sys2Proof.Machine.execDrainTimeout s
  | .glbResume => Sys2Proof.Machine.execGlbResume s
  | .glbPdrec => Sys2Proof.Machine.execGlbPdrec s
  | .pdrecDone status => Sys2Proof.Machine.execPdrecDone status s
  | .ctrRead bank index => Sys2Proof.Machine.execCtrRead bank index s
  | .ctrClear bank => Sys2Proof.Machine.execCtrClear bank s
  | .ctrChainWrite bank index chain => Sys2Proof.Machine.execCtrChainWrite bank index chain s
  | .bwWindowEnd fid => Sys2Proof.Machine.execBwWindowEnd fid s
  | .probeRecordWrite node => Sys2Proof.Machine.execProbeRecordWrite node s
  | .probeFullClear node => Sys2Proof.Machine.execProbeFullClear node s
  | .csrRead => Sys2Proof.Machine.execCsrRead s
  | .csrWrite => Sys2Proof.Machine.execCsrWrite s
  | .treeAccessDone src => Sys2Proof.Machine.execTreeAccessDone src s
  | .csaLock => Sys2Proof.Machine.execCsaLock s
  | .latchReadLo seq => Sys2Proof.Machine.execLatchReadLo seq s
  | .registerWrite src offset value => Sys2Proof.Machine.execRegisterWrite src offset value s

end Sys2Proof.Machine
end

