-- ==== Sys2Proof/Machine/Tick.lean ====
section
/-! DEFINITION. One FCLK of time: what happens in every cycle whatever is commanded (R68, R143, R263, R302, R320, R361, R390,
R394). -/

namespace Sys2Proof.Machine

/-- The end of a cycle: a Quiesce write of this cycle to a queue manager that has left QUIESCED in it is ignored (R14). -/
def State.settleQuiesce (s : State) : State :=
  (List.range 4).foldl (fun s n =>
    if s.qmQuiet n then s
    else
      let (hit, t) := s.undoWrite .QM_HOSTWIN (qmBase n) 0
      if hit then t.setRf .QM_STATUS 2 1 1 (qmBase n) else t) s

/-- The start of a cycle: nothing has happened in it yet, and the counter banks of CLEAR are cleared (R9, R14, R21, R386). -/
def State.newCycle (s : State) : State :=
  let t := { s with cyc := [], modeWas := s.modeNow, quietWas := s.quietNow, ctrWas := s.ctr, ctrClr := [] }
  s.ctrClr.foldl State.clearBank t

/-- The die-wide count advances while the spine runs, and a SET or STEP of the last cycle applies (R302, R305, R306). -/
def State.tickTime (s : State) : State :=
  (if 2 ≤ (s.domain 1).st then { s with tick := s.tick + 1 }
  else { s with tick := s.tick + 1, tim := { s.tim with c := (s.tim.c + 1) % 2 ^ 64 } }).timeJump

/-! ### Routers (R68) -/

/-- The front flit of an input buffer has no credit on any port that it asks for. -/
def State.isDry (s : State) (node : Nat) (net : Net) (inp vc : Nat) : Bool :=
  let w := s.wants node net inp vc
  !w.1.isEmpty && w.1.all (fun o => !s.hasCredit node net o w.2.toNat)

/-- The FCLK since which each buffer's head has had no credit. -/
def State.tickDry (s : State) : State :=
  { s with rbuf := SMap.mapVals {} (fun key (b : RBuf) =>
      if s.isDry (key / 128) (netOf (key / 4 % 4)) (key / 16 % 8) (key % 4) then
        { b with dry := some (b.dry.getD s.tick) }
      else { b with dry := none }) s.rbuf }

/-! ### Interfaces (R119, R132, R320, R390, R394) -/

/-- A request at the head of a partner's REQ channel is withheld by the freeze of its slice (R320). -/
def State.withheld (s : State) (f : Nat) : Bool :=
  match ((s.nif f).message .req).bind (·.head?) with
  | some h => (match s.sliceStamp f (s.epOf f) h with
    | some sl => s.sliceHolds f h.opc.toNat sl
    | none => false)
  | none => false

/-- SeqWr headers that wait for a credit or a grant (R132). -/
def Ni.safWaits (n : Ni) : Nat :=
  (n.ents.filter (fun ie => ie.2.req.opc == 0x14
    && (ie.2.state == .poolWait || (ie.2.state == .ready && ie.2.data.isSome && n.safCred == 0)))).length

/-- Traffic classes of which no packet waits leave the floor entries of the running window (R394). -/
def State.tickFloors (s : State) (f : Nat) : State :=
  if s.rf .NI_BW_CFG 31 1 (niBase f) = 0 then s
  else
    let n := s.nif f
    { s with bw := SMap.upd {} s.bw f (fun w => { w with
        waited := (List.range 4).map (fun tc => w.waited.getD tc false
          && (n.injq.any (fun x => x.idx == 0 && x.pkt.tc.toNat == tc) || n.tc0.any (fun p => p.tc.toNat == tc))) }) }

/-- One FCLK at an interface. -/
def State.tickNi (s : State) (f : Nat) : State :=
  let s := s.acceptTc0 f
  let s := (s.count f 16 (s.srcUse f)).count f 18 (s.nif f).tgt.length
  let s := s.count f 26 (s.nif f).safWaits
  let s := if 32 ≤ (s.nif f).rob.length then (s.bump .NI_ROB_STALL (niBase f)).count f 24 else s
  let s := if s.withheld f then s.bump .NI_SLC_HOLD (niBase f) else s
  s.tickFloors f

/-! ### Homes, Saffron and slices (R143, R390) -/

/-- One FCLK at a home slice: what waits for a free buffer or entry goes on, and a cleared predictor is empty (R82, R144, R154,
R194). -/
def State.tickHome (s : State) (k : Nat) : State :=
  let s := (((if h : k < 64 then s.homeIdle ⟨k, h⟩ else s).readWaiting k).retryWays k).predEmpty k
  let m := s.hm k
  let s := (s.count (0xC0 + k) 66 m.use).count (0xC0 + k) 67 m.waiting
  if s.laneFull k then s.bump .HS_WAITFULL (hsBase k) else s

/-- One FCLK at Saffron: occupancy, and the credits that can be handed out (R133). -/
def State.tickSaf (s : State) : State :=
  let s := (s.count 0x181 65 s.saf.slots.length).count 0x181 66 s.saf.admq.length
  let s := (s.saf.slots.filter (·.pool)).foldl (fun s t => s.countSlice t.slice.toNat 11) s
  s.safGrant

/-! ### Engines (R263, R390) -/

/-- An engine that has issued nothing in the ECLK that ends: it has passed over its READY threads. -/
def State.tickEngine (s : State) (k j : Nat) : State :=
  if SMap.get 0 (s.cl k).at_ j = s.eclk + 1 then s
  else
    let s := (s.bump .ENG_IDLE (engBase (4 * k + j))).count (clFid k) (68 + j)
    s.updCl k (fun c => { c with thr := SMap.mapVals {} (fun i (x : Thr) =>
      if i / 8 = j ∧ x.st = .ready then { x with skips := min (x.skips + 1) 0xFFF } else x) c.thr })

/-- The end of an ECLK in a cluster whose clock runs. -/
def State.tickCluster (s : State) (k : Nat) : State :=
  if (s.domain (unitDomain (clFid k))).st ≠ 0 then s
  else
    let s := s.count (clFid k) 72 ((s.cl k).thr.filter (fun ix => ix.2.st == .park)).length
    (List.range 4).foldl (fun s j => s.tickEngine k j) s

/-! ### Domains (R361) -/

/-- The idle time of a domain that asks for Idle by itself starts again while it has work. -/
def State.tickDomain (s : State) (d : Nat) : State :=
  if s.rf .PWR_DOMd_CFG 8 16 (domBase d) ≠ 0 ∧ s.domainBusy d then s.setDomain d { s.domain d with idleAt := s.tick } else s

/-! ### The whole fabric -/

/-- What counts and waits in the networks, homes, engines and managers, which stand still in HALT (R350). -/
def State.tickUnits (s : State) : State :=
  let s := (s.tickDry).tickSaf
  let s := (SMap.keys s.ni).foldl (fun s f => s.tickNi f) s
  let s := (SMap.keys s.home).foldl (fun s k => s.tickHome k) s
  let s := if s.tick % 2 = 1 then (List.range 48).foldl (fun s k => s.tickCluster k) s else s
  (List.range 4).foldl (fun s n => if s.qmLive n then ((s.sampleVisit n).tickRing n).tickTrace n else s) s

/-- One FCLK passes; none while FRST_N is asserted (R404). -/
def tickFclk (s : State) : State :=
  if s.frst then s
  else
    let s := if s.prim = .halt then s else s.tickUnits
    let s := (List.range 18).foldl (fun s d => s.tickDomain d) s
    ((s.voterTick.hubBegin).settleQuiesce.tickTime).newCycle

end Sys2Proof.Machine
end

