-- ==== Sys2Proof/Safety.lean ====
section
/-! DEFINITION. What counts as a safe run, and the terms in which statements speak of units at work. -/

namespace Sys2Proof

/-- Every waiting command names existing units, so no step can stop. -/
def Machine.State.safe (s : Machine.State) : Prop := ∀ c ∈ s.pending, ∃ t, Machine.exec c s = .next t

namespace Machine

/-- The invariant of every step: both byte memories keep their canonical form, and the fabric runs only with its fuses loaded and
FRST_N released (R219, R268, R404). -/
abbrev State.Inv (s : State) : Prop :=
  Memory.wf s.sram = true ∧ Memory.wf s.lsram = true ∧ (s.started = true → s.frst = false ∧ s.fuses.isSome = true)

/-- The program controller stands at an instruction, with no ABORT and no injection pending. -/
abbrev State.atCtrl (s : State) (i : CtrlInstr) : Prop :=
  s.prim ≠ .halt ∧ s.prg.state = .executing ∧ s.prg.wait = .none ∧ s.prg.abort = false ∧ s.fc.inject = none ∧
    ctrlAt (imgCtrl s.prg.store) s.prg.pc = some i

/-- The program controller's sequence waits, with no ABORT pending. -/
abbrev State.ctrlWaits (s : State) (w : PrgWait) : Prop :=
  s.prim ≠ .halt ∧ s.prg.state = .executing ∧ s.prg.wait = w ∧ s.prg.abort = false

/-- The state with the sequence advanced by some bytes. -/
def State.seqAt (s : State) (n : Nat) : State := { s with prg := { s.prg with pc := s.prg.pc + n, wait := .none } }

/-- Thread `t` of the fabric, 0 to 1,535. -/
def State.thrOf (s : State) (t : Fin 1536) : Thr := s.thr (t.val / 32) (t.val % 32)

/-- The engine of thread `t` issues it now; the word at its PC is `w`, which encodes `op`; no injection is armed. -/
abbrev State.issues (s : State) (t : Fin 1536) (op : TOp) (w : Nat) : Prop :=
  s.clLive (t.val / 32) = true ∧ s.issuer (t.val / 32) (t.val % 32 / 8) = some (t.val % 32) ∧
    s.ecode (t.val / 32) (s.thrOf t).tep (s.thrOf t).pc = w ∧ tDecode w = some op ∧ s.fc.inject = none

/-- From `s` to `u` only thread `t` and the accounting of its issue have changed: the counters, the sample, and the skip counts of
the threads of its engine. -/
def State.onlyThread (s : State) (t : Fin 1536) (u : State) : Prop :=
  { u with ecl := s.ecl, regs := s.regs, cyc := s.cyc, ctr := s.ctr, free := s.free } = s ∧
    (∀ k, k ≠ t.val / 32 → u.cl k = s.cl k) ∧
    (∀ i, i ≠ t.val % 32 → { u.thr (t.val / 32) i with skips := (s.thr (t.val / 32) i).skips } = s.thr (t.val / 32) i) ∧
    (u.cl (t.val / 32)).reqs = (s.cl (t.val / 32)).reqs ∧ (u.cl (t.val / 32)).ring = (s.cl (t.val / 32)).ring

/-- Sampling is off at the cluster of thread `t`. -/
abbrev State.unsampled (s : State) (t : Fin 1536) : Prop := s.rf .ENG_SAMP_CFG 31 1 (eclBase (t.val / 32)) = 0

end Machine

end Sys2Proof
end

