-- ==== Sys2Proof/WellFormed.lean ====
section
/-! DEFINITION. Which commands name something that exists: interfaces of R59 and the classes and channels of R102, counter
banks of R385, units of R331. -/

namespace Sys2Proof

/-- The place is at an assigned interface, or at a router. -/
def Holder.wf : Holder → Bool
  | .router .. => true
  | .inject f => Machine.assigned f.toNat
  | .parked f => Machine.assigned f.toNat

/-- Every unit that a command names exists, and has the partner, tracker, channel or cache that the command needs. -/
def Instr.wf : Instr → Bool
  | .p2fWake f | .p2fLinkRise f | .p2fLinkFall f | .linkTimeout f | .ingressAccept f _ _ | .pieceAnswer f
  | .tgtTrackerExpire f _ => Machine.isPartner f.toNat
  | .p2fBeat f b => Machine.isPartner f.toNat && Machine.hasP2f f.toNat b.net
  | .creditReturn f net toPartner =>
    Machine.isPartner f.toNat && (if toPartner then Machine.hasP2f f.toNat net else Machine.hasF2p f.toNat net)
  | .pieceIssue f | .nackReissue f _ => Machine.tracked f.toNat
  | .cacheSnoop f | .cacheAnswer f => Machine.isCaching f.toNat
  | .prgStart f | .prgDataWrite f _ | .epochHoldRelease f | .egressPresent f _ _ _ | .robRelease f
  | .srcTrackerExpire f _ | .trackerRelease f _ | .safWaitExpire f _ | .faultReportResend f | .swRaise f
  | .holdTimeout f | .bwWindowEnd f | .treeAccessDone f | .registerWrite f _ _ => Machine.assigned f.toNat
  | .oldMark h => h.wf
  | .epochArmAck u | .syncBeat u _ | .powerAnswer _ u | .deferReask _ u | .noanswerTimeout _ u => Machine.unitExists u
  | .ctrRead b _ | .ctrClear b | .ctrChainWrite b _ _ => Machine.ctrExists b.toNat
  | _ => true

end Sys2Proof
end

