-- ==== Sys2Proof/Certificates/Slice0/Obligations.lean ====
section
/-! DEFINITION. The statements put to the provers.  Each docstring names the rules of spec/ that the statement comes from. A
frame is written as an equation: the new state with the named fields put back is the old state. -/

open Sys2Proof Sys2Proof.Machine

/-! ### The queue of commands, and which commands complete -/

/-- A step with a command at the front of the queue is that command's meaning on the state with the rest of the queue; on an empty queue
a step is one FCLK of time (the model's choice, log 1). -/
def Obligations.StepRunsTheFrontCommand : Prop :=
  (∀ (c : Instr) (rest : List Instr) (s : State), step { s with pending := c :: rest } = exec c { s with pending := rest }) ∧
  (∀ s : State, s.pending = [] → step s = .next (tickFclk s))

/-- A command completes exactly when every unit that it names exists; no data, mode or history stops the block (the stop itself is the
model's, log 2). -/
def Obligations.CommandsCompleteExactlyWhenWellFormed : Prop :=
  ∀ (c : Instr) (s : State), (c.wf = true → ∃ t, exec c s = .next t) ∧ (c.wf = false → exec c s = .fault .noSuchUnit)

/-! ### Start-up and the global modes -/

/-- FRST_N asserted in any state leaves the cold-reset state, in which nothing of the fabric survives but the queue of commands, the
pins that others drive and the model's counter of free values (R10, R109); its rise loads the fuses, starts the fabric in BOOT and
raises F2P_LINK at MG and nowhere else, and a bad FCRC leaves no rule writer (R204, R404); the key and GO start a warm reset in
every mode but TEST, with LASTRST, fuses, time, EPO_COUNT and the pin state as R410, R411 and R355 state, and any other write sets
RSTREJ alone. Storage as zeros after a cold start is the model's choice (log 8), and that a write in TEST is such another write is
its reading (log 91).
Completion: its clauses conclude that exec answers next, with the command's own effect, under conditions on the state and the
operands alone, for FRST_N_ASSERT, COLD_START, WARM_RESET. -/
def Obligations.ResetsReachTheirState : Prop :=
  (∀ s : State, ∃ t, exec .frstNAssert s = .next t ∧
      { t with pending := [], wakePin := false, ni := [], free := 0 } = State.reset ∧
      t.pending = s.pending ∧ t.wakePin = s.wakePin ∧
      (∀ f, (t.nif f).f2pLink = false ∧ (t.nif f).capv = false ∧ (t.nif f).f2p = [] ∧ (t.nif f).owed = {} ∧ t.awake f = false)) ∧
  (∀ (s : State) (fu : FuseArray), s.frst = true → ∃ t, exec (.coldStart fu) s = .next t ∧
      t.frst = false ∧ t.started = true ∧ t.fuses = some fu ∧ t.prim = .boot ∧ t.epo = {} ∧ t.tim = {} ∧ t.sram = [] ∧
      t.lsram = [] ∧ t.tabs = [] ∧ t.pending = s.pending ∧
      (∀ f, (t.nif f).f2pLink = decide (f = 0x126)) ∧
      (fuseGood fu = false → t.ruleWriter = none ∧ ∃ r ∈ t.fc.queue, r.src = 32 * 28 + 7 ∧ r.level = 1) ∧
      (fuseGood fu = true → t.fc = {})) ∧
  ((∀ s : State, s.prim ≠ .test → s.started = true → ∃ t, exec (.warmReset 0x0A4D true) s = .next t ∧
      t.prim = .boot ∧ t.started = true ∧ t.rf .GLB_STATUS 6 1 = 1 ∧ t.fuses = s.fuses ∧ t.ns = s.ns ∧ t.tick = s.tick ∧
      t.epo = { count := s.epo.count } ∧ t.fc.pinAt = s.fc.pinAt ∧ t.fc.inject = none ∧ t.sram = [] ∧ t.lsram = [] ∧
      t.home = [] ∧ t.saf.slots = [] ∧ t.pending = s.pending ∧
      (∀ f, f ≠ 0x126 → (t.nif f).f2pLink = false ∧ (t.nif f).beats = [] ∧ (t.nif f).hold = [])) ∧
    (∀ (s : State) (key : BitVec 16) (go : Bool), key ≠ 0x0A4D ∨ go = false ∨ s.prim = .test → ∃ t,
      exec (.warmReset key go) s = .next t ∧ t.rf .GLB_STATUS 3 1 = 1 ∧ { t with regs := s.regs, cyc := s.cyc } = s))

/-- TEST_ENTRY, DRAIN, QUIESCED, the drain's timeout, RESUME and the power-down record do what R412 to R416 state, and change nothing
else.
Completion: its clauses conclude that exec answers next, with the command's own effect, under conditions on the state and the
operands alone, for TEST_ENTRY, GLB_DRAIN, FABRIC_QUIESCED, DRAIN_TIMEOUT, GLB_RESUME, GLB_PDREC, PDREC_DONE. -/
def Obligations.GlobalModeCommands : Prop :=
  (∀ s : State, s.prim = .boot → exec .testEntry s = .next { s with prim := .test }) ∧
  (∀ s : State, s.prim ≠ .boot → exec .testEntry s = .next s) ∧
  (∀ s : State, s.prim = .run → ∃ t, exec .glbDrain s = .next t ∧ t.prim = .drain ∧ t.drainAt = some s.tick ∧
    { t with prim := s.prim, drainPend := s.drainPend, drainAt := s.drainAt, ecl := s.ecl } = s ∧
    (∀ k i, (t.thr k i).st = .off ∨ (t.thr k i).st = .halt)) ∧
  (∀ s : State, s.prim = .dual → exec .glbDrain s = .next { s with drainPend := true }) ∧
  (∀ s : State, s.prim = .drain → s.allEmpty = true → ∃ t, exec .fabricQuiesced s = .next t ∧ t.prim = .quiesced ∧
    { t with prim := s.prim, drainAt := s.drainAt, regs := s.regs, cyc := s.cyc } = s) ∧
  (∀ (s : State) (d : Nat), s.prim = .drain → s.drainAt = some d →
    d + usTicks (max 1 (s.rf .GLB_DRAIN_TMO 0 16)) ≤ s.tick → ∃ t, exec .drainTimeout s = .next t ∧
    t.rf .GLB_STATUS 4 1 = 1 ∧ t.prim = .drain ∧ (∃ r ∈ t.fc.queue, r.src = 32 * 28 + 9 ∧ 1 ≤ r.level) ∧
    { t with drainAt := s.drainAt, regs := s.regs, cyc := s.cyc, fc := s.fc } = s) ∧
  (∀ s : State, s.prim = .drain ∨ s.prim = .quiesced → ∃ t, exec .glbResume s = .next t ∧ t.prim = .run ∧
    { t with prim := s.prim, drainAt := s.drainAt, regs := s.regs, cyc := s.cyc, ecl := s.ecl } = s) ∧
  (∀ s : State, s.prim = .run ∨ s.prim = .dual → ∃ t, exec .glbResume s = .next t ∧ t.drainPend = false ∧
    t.rf .GLB_STATUS 2 1 = 1 ∧ { t with drainPend := s.drainPend, regs := s.regs, cyc := s.cyc } = s) ∧
  (∀ s : State, s.prim = .quiesced → s.rf .PWR_CTRL 0 1 = 1 → s.pdrec = none →
    exec .glbPdrec s = .next { s with pdrec := some s.pdRecord } ∧ s.pdRecord.length = 256) ∧
  (∀ (s : State) (status : BitVec 8), s.pdrec.isSome = true → ∃ t, exec (.pdrecDone status) s = .next t ∧ t.pdrec = none ∧
    t.prim = s.prim ∧ t.tabs = s.tabs ∧ t.sram = s.sram ∧
    (let ok := (({ s with pdrec := none } : State).areaOk 0x184 (s.offSlot 1) 256 0x13).1
     (status = 0 → ok = true → t.rf .GLB_STATUS 0 1 = 1) ∧ (status ≠ 0 ∨ ok = false → t.rf .GLB_STATUS 1 1 = 1)))

/-- The primary mode changes only along the edges of the table of R415, and TEST is left only by a cold reset. -/
def Obligations.PrimaryModeChangesOnlyAsListed : Prop :=
  ∀ (c : Instr) (s t : State), exec c s = .next t → t.prim = s.prim ∨ t.prim = .boot ∧ (s.prim ≠ .test ∨ s.frst = true ∨ c = .frstNAssert) ∨
    (s.prim, t.prim) ∈ [(.boot, .test), (.boot, .load), (.load, .dual), (.run, .dual), (.dual, .run), (.dual, .drain),
      (.run, .drain), (.drain, .quiesced), (.drain, .run), (.quiesced, .run), (.boot, .halt), (.load, .halt), (.run, .halt),
      (.dual, .halt), (.drain, .halt), (.quiesced, .halt)]

/-! ### Fabric time -/

/-- With no command waiting a step is one FCLK of the die-wide count, which alone moves fabric time (R301, R302; that an empty queue
lets time pass is log 1); SET and STEP and when each is ignored with CMDREJ (R305, R306); a leaf at a sync beat: nothing at
difference 0, an alignment at L0 for 1 to 3 FCLK, TIME at L2 with a fence beyond that or at the fourth beat missed in a row (R303).
Completion: its clauses conclude that exec answers next, with the command's own effect, under conditions on the state and the
operands alone, for SYNC_BEAT, TIM_SET, TIM_STEP. -/
def Obligations.FabricTimeAdvancesAndIsSet : Prop :=
  ((∀ s : State, s.pending = [] → s.frst = false → (s.domain 1).st < 2 → s.tim.jump = none → ∃ t, step s = .next t ∧
      t.tim.c = (s.tim.c + 1) % 2 ^ 64 ∧ t.tim.steps = s.tim.steps ∧ t.tick = s.tick + 1 ∧ t.pending = [] ∧
      t.prim = s.prim ∧ t.tabs = s.tabs ∧ t.sram = s.sram ∧ t.lsram = s.lsram ∧ t.epo = s.epo) ∧
    (∀ s : State, s.pending = [] → s.frst = true → step s = .next s) ∧
    (∀ t : TimeSt, t.total = (t.c / 3 : Nat) + 1024 * t.steps ∧ (t.frac = 0 ∨ t.frac = 0x5555 ∨ t.frac = 0xAAAA)) ∧
    (∀ t : TimeSt, t.c % 3072 = 0 → t.total % 1024 = 0)) ∧
  ((∀ s : State, (s.prim = .boot ∨ s.prim = .load ∨ s.prim = .test) → s.epo.t = none →
      exec .timSet s = .next { s with tim := { s.tim with jump := some (.set
        ((s.reg .TIM_SET_S_LO + s.rf .TIM_SET_S_HI 0 16 * 2 ^ 32) * 1000000000 + min (s.reg .TIM_SET_NS) 999999999)) } }) ∧
    (∀ s : State, (s.prim ≠ .boot ∧ s.prim ≠ .load ∧ s.prim ≠ .test) ∨ s.epo.t ≠ none → ∃ t, exec .timSet s = .next t ∧
      t.rf .TIM_STATUS 2 1 = 1 ∧ { t with regs := s.regs, cyc := s.cyc } = s) ∧
    (∀ s : State, s.epo.t = none → s.epo.dual = false → (s.prim = .run ∨ s.prim = .drain ∨ s.prim = .quiesced) →
      0 ≤ s.ns + 1024 * s.stepUnits →
      exec .timStep s = .next { s with tim := { s.tim with jump := some (.step s.stepUnits) } }) ∧
    (∀ s : State, s.epo.t ≠ none ∨ s.epo.dual = true ∨ s.prim = .boot ∨ s.prim = .load ∨ s.prim = .test ∨ s.prim = .halt ∨
      s.ns + 1024 * s.stepUnits < 0 → ∃ t, exec .timStep s = .next t ∧ t.rf .TIM_STATUS 2 1 = 1 ∧
      { t with regs := s.regs, cyc := s.cyc } = s) ∧
    (∀ (s : State) (new : Nat), s.pending = [] → s.frst = false → s.tim.jump = some (.set new) → ∃ t, step s = .next t ∧
      t.tim.c = 3 * new % 2 ^ 64 ∧ t.tim.steps = 0 ∧ (3 * new < 2 ^ 64 → t.ns = new ∧ t.tim.frac = 0) ∧ t.tim.jump = none ∧
      t.rf .TIM_STATUS 0 1 = 1 ∧ (∀ f, (SMap.get {} t.bw f).cut = true)) ∧
    (∀ (s : State) (u : Int), s.pending = [] → s.frst = false → (s.domain 1).st < 2 → s.tim.jump = some (.step u) →
      ∃ t, step s = .next t ∧ t.tim.c = (s.tim.c + 1) % 2 ^ 64 ∧ t.tim.steps = s.tim.steps + u ∧ t.tim.jump = none ∧
      (∀ f, (SMap.get {} t.bw f).cut = true))) ∧
  (∀ (s : State) (u : UnitRef), unitExists u = true → s.started = true → s.tim.c % 3072 = 0 → s.domDown (leafDomain u) = false →
      s.domDown 1 = false →
      (∃ t, exec (.syncBeat u (.diff 0)) s = .next t ∧ (SMap.get {} t.tim.leaf (unitKey u)).missed = 0 ∧
        t.tim.keeper = s.ns.toNat ∧ { t with tim := s.tim } = s) ∧
      (∀ n, 1 ≤ n → n ≤ 3 → ∃ t, exec (.syncBeat u (.diff n)) s = .next t ∧ (SMap.get {} t.tim.leaf (unitKey u)).missed = 0 ∧
        t.rf .TIM_ALIGN_CAP 31 1 = 1 ∧ t.fc.bare = s.fc.bare ∧ t.sram = s.sram ∧ t.tabs = s.tabs ∧ t.prim = s.prim) ∧
      ((SMap.get {} s.tim.leaf (unitKey u)).missed < 3 → ∃ t, exec (.syncBeat u .missed) s = .next t ∧
        (SMap.get {} t.tim.leaf (unitKey u)).missed = (SMap.get {} s.tim.leaf (unitKey u)).missed + 1 ∧
        { t with tim := s.tim } = s) ∧
      (∀ n, 3 < n → u.node = true → ∃ s' : State, { s' with tim := s.tim } = s ∧
        exec (.syncBeat u (.diff n)) s = .next ((s'.raiseRtr u.id 13 2 0).fenceRouter u.id)) ∧
      ((SMap.get {} s.tim.leaf (unitKey u)).missed = 3 → u.node = true → ∃ s' : State, { s' with tim := s.tim } = s ∧
        exec (.syncBeat u .missed) s = .next ((s'.raiseRtr u.id 13 2 0).fenceRouter u.id)))

/-- PPS_IN with its captured time, the edges that are only counted and HOLDOVER after HOLD_LIM seconds with TIME at L1 (R307, R308);
PPS_OUT rises at a whole second or at once when a step has crossed one, and falls after its width; a beacon sets TIM_SLOFF; a read
of TIM_NOW_NS latches the rest of the time (R309, R312, R313).
Completion: its clauses conclude that exec answers next, with the command's own effect, under conditions on the state and the
operands alone, for PPS_IN_EDGE, HOLDOVER_ENTER, PPS_OUT_RISE, PPS_OUT_FALL, TIME_BEACON, TIM_NOW_READ. -/
def Obligations.PpsBeaconAndTimeRead : Prop :=
  ((∀ s : State, s.rf .TIM_CTRL 0 1 = 1 → (∀ l, s.tim.ppsLast = some l → l + 900000000 ≤ (s.timeAgo 2).1) → 0 ≤ (s.timeAgo 2).1 →
      ∃ t, exec .ppsInEdge s = .next t ∧ t.tim.ppsLast = some (s.timeAgo 2).1 ∧ t.rf .TIM_STATUS 1 1 = 0 ∧
      t.reg .TIM_PPS_NS = nsOf (s.timeAgo 2).1 ∧ t.reg .TIM_PPS_S = secOf (s.timeAgo 2).1 % 2 ^ 32 ∧
      { t with tim := s.tim, regs := s.regs, cyc := s.cyc } = s) ∧
    (∀ s : State, s.rf .TIM_CTRL 0 1 = 0 ∨ (∃ l, s.tim.ppsLast = some l ∧ (s.timeAgo 2).1 < l + 900000000) →
      ∃ t, exec .ppsInEdge s = .next t ∧ t.reg .TIM_PPS_REJ = min (s.reg .TIM_PPS_REJ + 1) 0xFFFFFFFF ∧
      { t with regs := s.regs, cyc := s.cyc } = s) ∧
    (∀ s : State, s.rf .TIM_CTRL 0 1 = 1 → s.rf .TIM_STATUS 1 1 = 0 →
      s.tim.ppsRef + (max 1 (s.rf .TIM_CTRL 8 8) : Nat) * 1000000000 ≤ s.ns → ∃ t, exec .holdoverEnter s = .next t ∧
      t.rf .TIM_STATUS 1 1 = 1 ∧ (∃ r ∈ t.fc.queue, r.src = 32 * 28 + 13 ∧ 1 ≤ r.level ∧ r.unit = fidUnit 0x185) ∧
      { t with regs := s.regs, cyc := s.cyc, fc := s.fc } = s)) ∧
  ((∀ s : State, s.rf .TIM_CTRL 1 1 = 1 → s.tim.ppsOut = false → (s.tim.ppsDue = true ∨ nsOf s.ns = 0 ∧ s.tim.c % 3 = 0) →
      (∀ r t, s.tim.ppsRise = some (r, t) → t + usTicks 900000 ≤ s.tick) →
      exec .ppsOutRise s = .next { s with tim := { s.tim with ppsOut := true, ppsDue := false, ppsRise := some (s.ns, s.tick) } }) ∧
    (∀ (s : State) (r : Int) (t : Nat), s.tim.ppsRise = some (r, t) → s.tim.ppsOut = true →
      t + usTicks (max 1 (s.rf .TIM_PPSOUT_W 0 20)) ≤ s.tick →
      exec .ppsOutFall s = .next { s with tim := { s.tim with ppsOut := false } }) ∧
    (∀ (s : State) (sl : Fin 6) (off : BitVec 32), s.slTime sl = true → ∃ t, exec (.timeBeacon sl off) s = .next t ∧
      t.reg .TIM_SLOFFn 0 sl = off.toNat ∧ t.rf .TIM_STATUS (3 + sl) 1 = 1 ∧ { t with regs := s.regs, cyc := s.cyc } = s) ∧
    (∀ s : State, exec .timNowRead s = .next { s with hub := { s.hub with
      latTime := secOf s.ns % 2 ^ 48 + s.tim.frac * 2 ^ 48 } }))

/-! ### Counters, bandwidth windows and probes -/

/-- Counter banks: an event counts modulo 2^48, a wrap goes to OVF or to the chained counter (R385, R387); a read samples the counter as
it stood before the cycle and latches the rest (R386, R388); CLEAR empties its bank and no other in the next FCLK, and CHAIN on an
even counter is in force from the next FCLK on (R386, R387).
Completion: its clauses conclude that exec answers next, with the command's own effect, under conditions on the state and the
operands alone, for CTR_READ, CTR_CLEAR, CTR_CHAIN_WRITE. -/
def Obligations.CounterBanks : Prop :=
  (∀ (s : State) (b i n : Nat), (i % 2 = 0 ∨ s.chained b (i - 1) = false) →
    (s.count b i n).ctrAt b i = (s.ctrAt b i + n) % 2 ^ 48 ∧
    (∀ b' i', 128 * b' + i' ≠ 128 * b + i → 128 * b' + i' ≠ 128 * b + i + 1 → (s.count b i n).ctrAt b' i' = s.ctrAt b' i')) ∧
  (∀ (s : State) (b i n : Nat), i % 2 = 1 → s.chained b (i - 1) = true → s.count b i n = s) ∧
  (∀ (s : State) (b i : Nat), i % 2 = 0 → s.chained b i = true → s.ctrAt b i = 2 ^ 48 - 1 →
    (s.count b i 1).ctrAt b i = 0 ∧ (s.count b i 1).ctrAt b (i + 1) = (s.ctrAt b (i + 1) + 1) % 2 ^ 48) ∧
  (∀ (s : State) (b : BitVec 10) (i : Fin 128), ctrExists b.toNat = true → ∃ t, exec (.ctrRead b i) s = .next t ∧
    t.reg .CTR_LAT_HI (ctrBase b.toNat) = s.ctrThen b.toNat i / 2 ^ 32 % 2 ^ 32 ∧
    (s.chained b.toNat i = false → t.reg .CTR_LAT_PAIR_LO (ctrBase b.toNat) = 0 ∧ t.reg .CTR_LAT_PAIR_HI (ctrBase b.toNat) = 0) ∧
    { t with regs := s.regs, cyc := s.cyc } = s) ∧
  (∀ (s : State) (b : BitVec 10), ctrExists b.toNat = true → ∃ t, exec (.ctrClear b) s = .next t ∧ b.toNat ∈ t.ctrClr ∧
    { t with ctrClr := s.ctrClr } = s ∧
    (∀ i, i < 128 → (t.newCycle).ctrAt b.toNat i = 0 ∧ (t.newCycle).ctrThen b.toNat i = s.ctrAt b.toNat i) ∧
    (∀ b' i, i < 128 → b' ≠ b.toNat → b' ∉ s.ctrClr → (t.newCycle).ctrAt b' i = s.ctrAt b' i)) ∧
  (∀ (s : State) (b : BitVec 10) (i : Fin 128) (c : Bool), ctrExists b.toNat = true → i.val % 2 = 0 →
    ∃ t, exec (.ctrChainWrite b i c) s = .next t ∧ t.rf .CTR_STAT 1 1 (ctrBase b.toNat) i = c.toNat ∧
      t.chained b.toNat i = s.chained b.toNat i ∧ (t.newCycle).chained b.toNat i = c ∧
      { t with regs := s.regs, cyc := s.cyc } = s)

/-- The end of a bandwidth window puts both counts, the length and the new SEQ into the buffer of that SEQ, and the next one starts
without a gap (R392 to R394); a probe's staged records: a whole line of two leaves for the ring through the quadrant's manager, a
fenced router's are dropped and counted, and clearing FULL re-arms tracing (R398, R399).
Completion: its clauses conclude that exec answers next, with the command's own effect, under conditions on the state and the
operands alone, for BW_WINDOW_END, PROBE_RECORD_WRITE, PROBE_FULL_CLEAR. -/
def Obligations.BandwidthWindowsAndProbes : Prop :=
  (∀ (s : State) (fid : Fid), assigned fid.toNat = true → s.rf .NI_BW_CFG 31 1 (niBase fid.toNat) = 1 →
      s.ns % s.bwWin fid.toNat = 0 → s.ns ≠ (SMap.get {} s.bw fid.toNat).start →
      let w := SMap.get {} s.bw fid.toNat
      let k := (w.seq + 1) % 65536 % 2
      s.floorMisses fid.toNat (s.ns - w.start).toNat w = [] →
      ∃ t, exec (.bwWindowEnd fid) s = .next t ∧
        t.reg .NI_BWk_IN_LO (niBase fid.toNat) k = w.inB % 2 ^ 32 ∧ t.reg .NI_BWk_OUT_LO (niBase fid.toNat) k = w.outB % 2 ^ 32 ∧
        t.reg .NI_BWk_LEN (niBase fid.toNat) k = (s.ns - w.start).toNat % 2 ^ 32 ∧
        t.reg .NI_BWk_META (niBase fid.toNat) k = (w.seq + 1) % 65536 + w.cut.toNat * 2 ^ 16 ∧
        (SMap.get {} t.bw fid.toNat).start = s.ns ∧ (SMap.get {} t.bw fid.toNat).inB = 0 ∧
        { t with regs := s.regs, cyc := s.cyc, bw := s.bw } = s) ∧
  ((∀ (s : State) (n : Fin 144) (a b : Nat × Nat) (rest : List (Nat × Nat)), (SMap.get {} s.probe n.val).came = a :: b :: rest →
      (SMap.get {} s.probe n.val).stopped = false → s.qmLive (n.val / 36) = true → s.prim = .run →
      ∃ t, exec (.probeRecordWrite n) s = .next t ∧ (SMap.get {} t.probe n.val).came = rest ∧
        (SMap.get {} t.probe n.val).index = ((SMap.get {} s.probe n.val).index + 2) % s.probeSize n ∧
        (∀ m, m ≠ n.val → SMap.get {} t.probe m = SMap.get {} s.probe m) ∧ t.tabs = s.tabs ∧ t.lsram = s.lsram) ∧
    (∀ (s : State) (n : Fin 144), (SMap.get {} s.probe n.val).staged ≠ [] → s.probeGone n = true →
      (SMap.get {} (s.tickTrace (n.val / 36)).probe n.val).staged = [] ∧
      (s.tickTrace (n.val / 36)).reg .PRB_DROP (prbBase n) =
        min (s.reg .PRB_DROP (prbBase n) + (SMap.get {} s.probe n.val).staged.length) 0xFFFFFFFF) ∧
    (∀ (s : State) (q m : Nat), s.tick % 2 = 1 → (∀ k, s.probeGone k = false) → s.traceNext q = some m → s.probe ≠ [] →
      (SMap.get {} (s.tickTrace q).probe m).staged = (SMap.get {} s.probe m).staged.drop 1 ∧
      (SMap.get {} (s.tickTrace q).probe m).came.length = (SMap.get {} s.probe m).came.length + 1) ∧
    (∀ (s : State) (n : Fin 144), ∃ t, exec (.probeFullClear n) s = .next t ∧ (SMap.get {} t.probe n.val).stopped = false ∧
      t.rf .PRB_STATUS 0 1 (prbBase n) = 0 ∧ { t with probe := s.probe, regs := s.regs, cyc := s.cyc } = s))

/-! ### Control space -/

/-- CsrRd and CsrWr at the hub: one that the permission entries refuse is answered DENIED, one to an absent offset BAD_REQ, each
counted; one that is allowed waits in the hub's queue or begins on the tree; domain 0 reaches everything, without a matching entry
only the rule writer's domain does while the entries are not locked, and a requester without a domain reads the global block and
nothing else (R422 to R429). The last is the model's reading (log 72).
Completion: its clauses conclude that exec answers next, with the command's own effect, under conditions on the state and the
operands alone, for CSR_READ, CSR_WRITE. -/
def Obligations.ControlRequestsAreCheckedAtTheHub : Prop :=
  (∀ (s : State) (q : Pkt), s.hubHead = some q → s.hubReady = true → q.opc = 0x15 →
      let off := q.addr.toNat % 2 ^ 26
      let sd := s.hubSd q
      (s.csaAllows sd false off = false → ∃ s' : State, exec .csrRead s = .next (s'.answer 0x180 q 1 0 [0]) ∧
        s'.reg .GLB_CSA_DENY_CNT = min (s.reg .GLB_CSA_DENY_CNT + 1) 0xFFFFFFFF ∧
        { s' with hub := s.hub, ni := s.ni, regs := s.regs, cyc := s.cyc } = s ∧ s'.hub.queue = s.hub.queue) ∧
      (s.csaAllows sd false off = true → absent off = true → ∃ s' : State, exec .csrRead s = .next (s'.answer 0x180 q 9 0 [0]) ∧
        s'.reg .GLB_CSA_ABSENT_CNT = min (s.reg .GLB_CSA_ABSENT_CNT + 1) 0xFFFFFFFF ∧
        { s' with hub := s.hub, ni := s.ni, regs := s.regs, cyc := s.cyc } = s ∧ s'.hub.queue = s.hub.queue) ∧
      (s.csaAllows sd false off = true → absent off = false → s.prim ≠ .test → ∃ t, exec .csrRead s = .next t ∧
        (∃ r, r.off = off ∧ r.write = false ∧ r.req = some q ∧ (r ∈ t.hub.queue ∨ r ∈ t.hub.tree)) ∧
        { t with hub := s.hub, ni := s.ni } = s)) ∧
  (∀ (s : State) (q : Pkt), s.hubHead = some q → s.hubReady = true → q.opc = 0x16 →
      let off := q.addr.toNat % 2 ^ 26
      let sd := s.hubSd q
      (q.len ≠ 0 → s.csaAllows sd true off = false → ∃ s' : State, exec .csrWrite s = .next (s'.answer 0x180 q 1) ∧
        s'.reg .GLB_CSA_DENY_CNT = min (s.reg .GLB_CSA_DENY_CNT + 1) 0xFFFFFFFF ∧
        { s' with hub := s.hub, ni := s.ni, regs := s.regs, cyc := s.cyc } = s) ∧
      (q.len ≠ 0 → s.csaAllows sd true off = true → absent off = true → ∃ s' : State, exec .csrWrite s = .next (s'.answer 0x180 q 9) ∧
        s'.reg .GLB_CSA_ABSENT_CNT = min (s.reg .GLB_CSA_ABSENT_CNT + 1) 0xFFFFFFFF ∧
        { s' with hub := s.hub, ni := s.ni, regs := s.regs, cyc := s.cyc } = s) ∧
      (∀ d, (s.nif 0x180).inbox.find? (fun p => p.net == .dat && p.src == q.src && p.txid == q.txid) = d → (q.len = 0 → d.isSome = true) →
        s.csaAllows sd true off = true → absent off = false → s.prim ≠ .test → inPrgData off = true →
        ∃ s' : State, { s' with hub := s.hub, ni := s.ni } = s ∧ exec .csrWrite s = .next ((s'.prgData q.src.toNat
          (if q.len == 0 then (d.map (·.data)).getD [] else leBytes 4 ((q.ops.getD 0 0).toNat % 2 ^ 32))).answer 0x180 q 0)) ∧
      (q.len ≠ 0 → s.csaAllows sd true off = true → absent off = false → s.prim ≠ .test → inPrgData off = false → ∃ t,
        exec .csrWrite s = .next t ∧
        (∃ r, r.off = off ∧ r.write = true ∧ r.value.toNat = (q.ops.getD 0 0).toNat % 2 ^ 32 ∧ r.req = some q ∧
          (r ∈ t.hub.queue ∨ r ∈ t.hub.tree)) ∧
        { t with hub := s.hub, ni := s.ni } = s)) ∧
  ((∀ (s : State) (w : Bool) (off : Nat), s.csaAllows (some 0) w off = true) ∧
    (∀ (s : State) (w : Bool) (off : Nat), s.csaAllows none w off = (!w && decide (off < 0x100000))) ∧
    (∀ (s : State) (d n off : Nat) (w : Bool), d ≠ 0 → d ≠ 15 → n < 32 → s.csaMatch n off = true →
      (∀ m, m < n → s.csaMatch m off = false) →
      s.csaAllows (some d) w off = bitOf (s.reg .GLB_CSAn_HI 0 n) (d + 16 * w.toNat)) ∧
    (∀ (s : State) (d off : Nat) (w : Bool), d ≠ 0 → d ≠ 15 → (∀ m, m < 32 → s.csaMatch m off = false) →
      s.rf .GLB_CSA_CTRL 0 1 = 1 → s.csaAllows (some d) w off = false))

/-- An access on the control tree reaches its unit: a read answers with what the register shows, a write applies the field rules, a unit
below Idle answers DOMAIN_ASLEEP; accesses to one register take effect in the order in which they began (R423, R430).
Where a clause says that a command whose event is not due changes nothing, that is the model's choice (log 2).
Completion: its clauses conclude that exec answers next, with the command's own effect, under conditions on the state and the
operands alone, for TREE_ACCESS_DONE. -/
def Obligations.TreeAccessReachesItsUnit : Prop :=
  ∀ (s : State) (src : Fid) (r : HubReq), assigned src.toNat = true → s.hub.tree.find? (fun x => x.src == src) = some r →
    ((s.hub.tree.takeWhile (fun x => x.src != src)).any (fun x => x.off == r.off) = false → absent r.off = false →
      (s.ownerAsleep r.off = true → ∃ u, u = s.hubAnswer r 3 0 ∧ exec (.treeAccessDone src) s =
        .next ({ u with hub := { u.hub with tree := u.hub.tree.erase r } } : State).hubBegin) ∧
      (s.ownerAsleep r.off = false → r.write = false → ∃ u, u = ((s.csRead r.off).2).hubAnswer r 0 (s.csPeek r.off) ∧
        exec (.treeAccessDone src) s = .next ({ u with hub := { u.hub with tree := u.hub.tree.erase r } } : State).hubBegin) ∧
      (s.ownerAsleep r.off = false → r.write = true → (s.csWrite r.src.toNat r.off r.value.toNat).hub.tree ≠ [] →
        ∃ u, u = (s.csWrite r.src.toNat r.off r.value.toNat).hubAnswer r 0 0 ∧ exec (.treeAccessDone src) s =
          .next ({ u with hub := { u.hub with tree := u.hub.tree.erase r } } : State).hubBegin)) ∧
    ((s.hub.tree.takeWhile (fun x => x.src != src)).any (fun x => x.off == r.off) = true →
      exec (.treeAccessDone src) s = .next s)

/-- A register write that has passed the hub changes the Live fields by their access codes, a bit that the hardware sets in the same
cycle staying set (R9), keeps an Epoch field for the next switch, and is dropped by a unit below Idle and in TEST (R8, R13, R430);
the locks and latches of R380, R424 and R428.
Completion: its clauses conclude that exec answers next, with the command's own effect, under conditions on the state and the
operands alone, for CLOVE_LOCK, PWR_SAVE_LOCK, CSA_LOCK, LATCH_READ_LO, REGISTER_WRITE. -/
def Obligations.RegisterWritesFollowTheFieldRules : Prop :=
  (∀ (s : State) (src : Fid) (off : BitVec 26) (v : BitVec 32), assigned src.toNat = true →
    (s.prim = .test ∨ s.ownerAsleep off.toNat = true) → exec (.registerWrite src off v) s = .next s) ∧
  (∀ (s : State) (src : Fid) (off : BitVec 26) (v : BitVec 32) (base i : Nat), assigned src.toNat = true → s.prim ≠ .test →
    s.ownerAsleep off.toNat = false → (∃ r, regAt off.toNat = some (r, base, i) ∧
      (r = .SSB_RGNn_LO ∨ r = .SSB_RGNn_HI ∨ r = .ENG_CL_SRAMPA)) → ∃ t, exec (.registerWrite src off v) s = .next t ∧
    SMap.get none t.shadows off.toNat = some v) ∧
  (∀ (s : State) (src : Fid) (v : BitVec 32), assigned src.toNat = true → s.prim ≠ .test → s.ownerAsleep 0xA14 = false →
    ∃ t, exec (.registerWrite src 0xA14 v) s = .next t ∧ t.reg .TIM_SET_NS = v.toNat ∧ { t with regs := s.regs, cyc := s.cyc } = s) ∧
  (∀ (f : Field) (lk : Bool) (hw old v : Nat), f.lo + f.w ≤ 32 → old < 2 ^ 32 →
    (f.acc = .rw → fld (f.write lk hw old v) f.lo f.w = fld v f.lo f.w) ∧
    (f.acc = .rwl → f.write true hw old v = old ∧ fld (f.write false hw old v) f.lo f.w = fld v f.lo f.w) ∧
    (f.acc = .w1c → fld (f.write lk 0 old v) f.lo f.w = fld old f.lo f.w - (fld old f.lo f.w &&& fld v f.lo f.w) ∧
      (∀ i, i < f.w → bitOf hw (f.lo + i) = true → bitOf (f.write lk hw old v) (f.lo + i) = bitOf old (f.lo + i))) ∧
    (f.acc = .w1s → fld (f.write lk hw old v) f.lo f.w = (fld old f.lo f.w ||| fld v f.lo f.w)) ∧
    (f.acc = .ro ∨ f.acc = .rc → f.write lk hw old v = old)) ∧
  (∀ s : State, ∃ t, exec .csaLock s = .next t ∧ t.rf .GLB_CSA_CTRL 0 1 = 1 ∧ { t with regs := s.regs, cyc := s.cyc } = s) ∧
  (∀ s : State, ∃ t, exec .pwrSaveLock s = .next t ∧ t.rf .PWR_CTRL 0 1 = 1 ∧ { t with regs := s.regs, cyc := s.cyc } = s) ∧
  (∀ s : State, ∃ t, exec .cloveLock s = .next t ∧ t.rf .PRG_CTRL 31 1 = 1 ∧ { t with regs := s.regs, cyc := s.cyc } = s) ∧
  (∀ s : State, exec (.latchReadLo true) s = .next { s with hub := { s.hub with latSeq := s.saf.seq } } ∧
    exec (.latchReadLo false) s = .next { s with hub := { s.hub with latId := s.prg.progId } })

/-! ### Partner ports -/

/-- P2F_LINK rising at a port that waits for it starts the initial credits, or on a socket link the capability exchange; the far word
gives the common one, or NOCOMMON with PORT at L1; P2F_LINK falling abandons a link-up or is a link drop; a port that waits longer
than NI_LINK.TMO gives up with PORT at L1, MG in BOOT never (R110 to R112, R122, R123, R405).
Where a clause says that a command whose event is not due changes nothing, that is the model's choice (log 2).
Completion: its clauses conclude that exec answers next, with the command's own effect, under conditions on the state and the
operands alone, for P2F_LINK_RISE, P2F_LINK_FALL, SL_CAP_RECEIVE, LINK_TIMEOUT. -/
def Obligations.LinksComeUpAndFall : Prop :=
  ((∀ (s : State) (fid : Fid), isPartner fid.toNat = true → s.portLives fid.toNat = true → (s.nif fid.toNat).p2fLink = false →
      (s.nif fid.toNat).relink = false → (s.nif fid.toNat).mustFall = false → (s.nif fid.toNat).link = .waitPartner →
      (s.nif fid.toNat).f2pLink = true → ∃ t, exec (.p2fLinkRise fid) s = .next t ∧ (t.nif fid.toNat).p2fLink = true ∧
        (pclass fid.toNat = 5 → (t.nif fid.toNat).link = .cap ∧ (t.nif fid.toNat).capv = true) ∧
        (pclass fid.toNat ≠ 5 → (t.nif fid.toNat).link = .credit ∧
          ∀ c, (t.nif fid.toNat).owed.get c = if hasP2f fid.toNat c then initialOf c else 0) ∧
        (∀ f, f ≠ fid.toNat → t.nif f = s.nif f) ∧ { t with ni := s.ni } = s) ∧
    (∀ (s : State) (fid : Fid), isPartner fid.toNat = true → s.portLives fid.toNat = false → (s.nif fid.toNat).p2fLink = false →
      ∃ t, exec (.p2fLinkRise fid) s = .next t ∧ t.nif fid.toNat = { s.nif fid.toNat with p2fLink := true } ∧
        (∀ f, f ≠ fid.toNat → t.nif f = s.nif f) ∧ { t with ni := s.ni } = s)) ∧
  (∀ (s : State) (sl : Fin 6) (cap : BitVec 32), (s.nif (0x120 + sl)).link = .cap →
      let own := s.reg .NI_SLCAP_OWN (niBase (0x120 + sl))
      (∀ w, slCommon own cap.toNat = some w → fld cap.toNat 6 3 ≠ fld own 6 3 → ∃ t, exec (.slCapReceive sl cap) s = .next t ∧
        (t.nif (0x120 + sl)).link = .credit ∧ t.reg .NI_SLCAP_FAR (niBase (0x120 + sl)) = cap.toNat ∧
        t.reg .NI_SLCAP_COMMON (niBase (0x120 + sl)) = w % 2 ^ 32 ∧ { t with ni := s.ni, regs := s.regs, cyc := s.cyc } = s) ∧
      (slCommon own cap.toNat = none ∨ fld cap.toNat 6 3 = fld own 6 3 → ∃ s' : State,
        s'.reg .NI_SLCAP_FAR (niBase (0x120 + sl)) = cap.toNat ∧ { s' with regs := s.regs, cyc := s.cyc } = s ∧
        exec (.slCapReceive sl cap) s = .next (s'.linkFail (0x120 + sl) .nocommon))) ∧
  ((∀ (s : State) (fid : Fid), isPartner fid.toNat = true → s.portLives fid.toNat = true → (s.nif fid.toNat).p2fLink = true →
      (s.nif fid.toNat).link ∈ [.waitPartner, .cap, .credit] → ∃ t, exec (.p2fLinkFall fid) s = .next t ∧
        (t.nif fid.toNat).link = .waitPartner ∧ (t.nif fid.toNat).f2pLink = true ∧ (t.nif fid.toNat).p2fLink = false ∧
        (t.nif fid.toNat).owed = {} ∧ (t.nif fid.toNat).cred = {} ∧
        (∀ f, f ≠ fid.toNat → t.nif f = s.nif f) ∧ { t with ni := s.ni } = s) ∧
    (∀ (s : State) (fid : Fid), isPartner fid.toNat = true → s.portLives fid.toNat = true → (s.nif fid.toNat).p2fLink = true →
      (s.nif fid.toNat).link = .up → exec (.p2fLinkFall fid) s =
        .next ((s.updNi fid.toNat (fun n => { n with p2fLink := false, mustFall := false })).linkDrop fid.toNat))) ∧
  ((∀ (s : State) (fid : Fid), isPartner fid.toNat = true → ((s.nif fid.toNat).link = .waitPartner ∧ (s.nif fid.toNat).p2fLink = false ∧
      (fid ≠ 0x126 ∨ s.prim ≠ .boot) ∨ (s.nif fid.toNat).link = .cap) →
      (s.nif fid.toNat).linkAt + usTicks (max 1 (s.rf .NI_LINK 16 16 (niBase fid.toNat))) ≤ s.tick →
      exec (.linkTimeout fid) s = .next (s.linkFail fid.toNat .timeout)) ∧
    (∀ (s : State) (f : Nat) (st : LinkState), f < 0x180 → ∃ s' : State, s.linkFail f st = s'.raiseNi f 11 1 ∧
      (s'.nif f).link = st ∧ (s'.nif f).f2pLink = false ∧ { s' with ni := s.ni } = s) ∧
    (∀ s : State, s.prim = .boot → (s.nif 0x126).link = .waitPartner → exec (.linkTimeout 0x126) s = .next s))

/-- A beat on a P2F channel uses a credit, and one without a credit is discarded, captured with CODE 12 and handled as a link drop; a
credit strobe adds one credit at its receiver and takes one from what its sender owes; once all initial credits are given and the
least ones received the port is UP (R106, R110).
Where a clause says that a command whose event is not due changes nothing, that is the model's choice (log 2).
Completion: its clauses conclude that exec answers next, with the command's own effect, under conditions on the state and the
operands alone, for P2F_BEAT, CREDIT_RETURN. -/
def Obligations.BeatsAndCredits : Prop :=
  ((∀ (s : State) (fid : Fid) (b : Beat), isPartner fid.toNat = true → hasP2f fid.toNat b.net = true → s.awake fid.toNat = true →
      (s.nif fid.toNat).link = .up → s.prim ≠ .halt → (s.nif fid.toNat).given.get b.net ≠ 0 →
      (b.net = .req → (s.nif fid.toNat).openMsg .req = [] → s.mayRequest fid.toNat b = true) →
      ∃ t, exec (.p2fBeat fid b) s = .next t ∧ (t.nif fid.toNat).beats = (s.nif fid.toNat).beats ++ [s.wbBeat fid.toNat b] ∧
        (t.nif fid.toNat).given.get b.net + 1 = (s.nif fid.toNat).given.get b.net ∧
        (∀ f, f ≠ fid.toNat → t.nif f = s.nif f) ∧
        { t with ni := s.ni, cache := s.cache, bw := s.bw, ctr := s.ctr, regs := s.regs, cyc := s.cyc } = s ∧
        (b.net ≠ .dat → s.wbBeat fid.toNat b = b ∧ t.bw = s.bw ∧ t.ctr = s.ctr ∧ t.regs = s.regs) ∧
        (b.net ≠ .dat → isCaching fid.toNat = false ∨ b.net ≠ .req ∨ b.last = false → t.cache = s.cache)) ∧
    (∀ (s : State) (fid : Fid) (b : Beat), isPartner fid.toNat = true → hasP2f fid.toNat b.net = true → s.awake fid.toNat = true →
      (s.nif fid.toNat).link = .up → s.prim ≠ .halt → (s.nif fid.toNat).given.get b.net = 0 →
      (b.net = .req → (s.nif fid.toNat).openMsg .req = [] → s.mayRequest fid.toNat b = true) →
      exec (.p2fBeat fid b) s = .next (((s.captureNi fid.toNat 12 { net := b.net, opc := b.opc }).linkDrop fid.toNat).updNi fid.toNat
        (fun n => { n with mustFall := n.p2fLink }))) ∧
    (∀ (s : State) (fid : Fid) (b : Beat), isCaching fid.toNat = true → b.net = .req → s.mayRequest fid.toNat b = false →
      hasP2f fid.toNat b.net = true → s.awake fid.toNat = true → (s.nif fid.toNat).openMsg .req = [] → exec (.p2fBeat fid b) s = .next s)) ∧
  ((∀ (s : State) (fid : Fid) (c : Net), isPartner fid.toNat = true → hasP2f fid.toNat c = true →
      (s.nif fid.toNat).link = .credit ∨ (s.nif fid.toNat).link = .up → s.prim ≠ .halt → (s.nif fid.toNat).owed.get c ≠ 0 →
      (s.nif fid.toNat).given.get c < 63 → ∃ t, exec (.creditReturn fid c true) s = .next t ∧
        (t.nif fid.toNat).owed.get c + 1 = (s.nif fid.toNat).owed.get c ∧
        (t.nif fid.toNat).given.get c = (s.nif fid.toNat).given.get c + 1 ∧
        (∀ c', c' ≠ c → (t.nif fid.toNat).owed.get c' = (s.nif fid.toNat).owed.get c') ∧
        (∀ f, f ≠ fid.toNat → t.nif f = s.nif f) ∧ { t with ni := s.ni } = s) ∧
    (∀ (s : State) (fid : Fid) (c : Net), isPartner fid.toNat = true → hasF2p fid.toNat c = true →
      (s.nif fid.toNat).link = .up ∨ (s.nif fid.toNat).link = .cap → s.prim ≠ .halt → (s.nif fid.toNat).cred.get c < 63 →
        (s.nif fid.toNat).f2pWait = [] →
      ∃ t, exec (.creditReturn fid c false) s = .next t ∧ (t.nif fid.toNat).cred.get c = (s.nif fid.toNat).cred.get c + 1 ∧
        (∀ f, f ≠ fid.toNat → t.nif f = s.nif f) ∧ { t with ni := s.ni } = s) ∧
    (∀ (s : State) (f : Nat), (s.nif f).link = .credit → (∀ c, hasP2f f c = true → (s.nif f).owed.get c = 0) →
      (∀ c, hasF2p f c = true → leastOf c ≤ (s.nif f).got.get c) → ((s.linkCheck f).nif f).link = .up))

/-- The sources of a wake: the pin as a level or as an edge, the Anise pattern, a partner's P2F_WAKE, and VLD towards a port that is not
awake, whose beat is not taken; a domain in Run ignores them all (R373 to R375).
Where a clause says that a command whose event is not due changes nothing, that is the model's choice (log 2).
Completion: its clauses conclude that exec answers next, with the command's own effect, under conditions on the state and the
operands alone, for WAKE_PIN, ANISE_DETECT, P2F_WAKE, P2F_BEAT. -/
def Obligations.WakeSources : Prop :=
  (∀ (s : State) (fid : Fid), isPartner fid.toNat = true → (s.domain (niDomain fid.toNat)).st ≠ 0 →
    ∃ t, exec (.p2fWake fid) s = .next t ∧ (t.domain (niDomain fid.toNat)).wake = true ∧
      (∀ d, d ≠ niDomain fid.toNat → t.domain d = s.domain d) ∧ { t with dom := s.dom } = s) ∧
  (∀ (s : State) (fid : Fid), isPartner fid.toNat = true → (s.domain (niDomain fid.toNat)).st = 0 →
    (s.domain (niDomain fid.toNat)).phase = 0 → exec (.p2fWake fid) s = .next s) ∧
  (∀ (s : State) (fid : Fid) (b : Beat), isPartner fid.toNat = true → hasP2f fid.toNat b.net = true → s.prim ≠ .halt →
    (s.nif fid.toNat).f2pLink = true → (s.domain (niDomain fid.toNat)).st ≠ 0 → ∃ t, exec (.p2fBeat fid b) s = .next t ∧
      (t.domain (niDomain fid.toNat)).wake = true ∧ (t.nif fid.toNat).beats = (s.nif fid.toNat).beats ∧
      (∀ d, d ≠ niDomain fid.toNat → t.domain d = s.domain d) ∧ { t with dom := s.dom } = s) ∧
  (∀ s : State, s.rf .PWR_WAKE_CFG 0 1 = 0 → ∃ t, exec (.wakePin true) s = .next t ∧ t.wakePin = true ∧
    (∀ d ∈ s.pinDoms, (s.domain d).st ≠ 0 → (t.domain d).wake = true) ∧ { t with dom := s.dom, wakePin := s.wakePin } = s) ∧
  (∀ s : State, s.rf .PWR_WAKE_CFG 0 1 = 1 → s.wakePin = true → exec (.wakePin true) s = .next s) ∧
  (∀ s : State, s.rf .PWR_WAKE_CFG 0 1 = 1 → s.wakePin = false → ∃ t, exec (.wakePin true) s = .next t ∧ t.wakePin = true ∧
    (∀ d ∈ s.pinDoms, (s.domain d).st ≠ 0 → (s.domain d).commit = none → (t.domain d).edge = some s.tick) ∧
    { t with dom := s.dom, wakePin := s.wakePin } = s) ∧
  (∀ s : State, exec (.wakePin false) s = .next { s with wakePin := false }) ∧
  (∀ (s : State) (sl : Fin 6), 2 ≤ (s.domain 1).st → s.rf .PWR_WAKE_CFG (18 + sl) 1 = 1 → (s.domain 1).commit = none →
    ∃ t, exec (.aniseDetect sl) s = .next t ∧ (t.domain 1).edge = some s.tick ∧ { t with dom := s.dom } = s)

/-! ### The program controller -/

/-- START begins reception, from BOOT it loads, or is ignored with BUSY; the bytes are appended; ABORT during reception fails the image
(R32, R33, R415); verification moves a good image to EXECUTING and stops on the first failing check, and a stop leaves FAILED with
its ERR, PROGRAM at L1, no armed switch and shadow banks that copy the active ones (R27, R31).
Where a clause says that a command whose event is not due changes nothing, that is the model's choice (log 2).
Completion: its clauses conclude that exec answers next, with the command's own effect, under conditions on the state and the
operands alone, for PRG_START, PRG_ABORT, PRG_DATA_WRITE, IMAGE_VERIFY. -/
def Obligations.ProgramPortAndVerification : Prop :=
  ((∀ (s : State) (src : Fid), assigned src.toNat = true → s.prim ≠ .test → s.prim ≠ .halt → s.prg.busy = false →
      (s.prim = .boot → src = 0x126) → ∃ t, exec (.prgStart src) s = .next t ∧ t.prg.state = .receiving ∧ t.prg.store = [] ∧
        t.prg.pc = 0 ∧ (s.prim = .boot → t.prim = .load) ∧ (s.prim ≠ .boot → t.prim = s.prim) ∧ t.rf .PRG_STATUS 8 5 = 0 ∧
        { t with prg := s.prg, prim := s.prim, regs := s.regs, cyc := s.cyc } = s) ∧
    (∀ (s : State) (src : Fid), assigned src.toNat = true → s.prim ≠ .boot → s.prim ≠ .test → s.prim ≠ .halt → s.prg.busy = true →
      ∃ t, exec (.prgStart src) s = .next t ∧ t.rf .PRG_STATUS 17 1 = 1 ∧ { t with regs := s.regs, cyc := s.cyc } = s) ∧
    (∀ (s : State) (src : Fid) (data : List Byte), assigned src.toNat = true → s.prg.state = .receiving → s.prg.fetching = false →
      (data.length = 4 ∨ data.length = 64) → s.prg.store.length + data.length < 256 →
      ∃ t, exec (.prgDataWrite src data) s = .next t ∧ t.prg.store = s.prg.store ++ data ∧ t.prg.state = .receiving ∧
        { t with prg := s.prg } = s) ∧
    (∀ (s : State) (src : Fid) (data : List Byte), assigned src.toNat = true → s.prg.state ≠ .receiving →
      exec (.prgDataWrite src data) s = .next s) ∧
    (∀ s : State, s.prg.state = .receiving ∨ s.prg.state = .verifying → exec .prgAbort s = .next (s.stopSeq 0xE)) ∧
    (∀ s : State, s.prg.state = .executing → s.prg.wait = .epsw → s.epo.missing = [] →
      exec .prgAbort s = .next { s with prg := { s.prg with abort := true } })) ∧
  ((∀ s : State, s.prim ≠ .halt → s.prg.state = .verifying → s.imageErr s.prg.store = none →
      exec .imageVerify s = .next { s with prg := { s.prg with state := .executing, pc := 0, wait := .none } }) ∧
    (∀ (s : State) (e : Nat), s.prim ≠ .halt → s.prg.state = .verifying → s.imageErr s.prg.store = some e →
      exec .imageVerify s = .next (s.stopSeq e)) ∧
    (∀ (s : State) (e : Nat), s.prg.waiting = [] → s.prg.clove = none → (s.stopSeq e).prg.state = .failed ∧
      (s.stopSeq e).rf .PRG_STATUS 8 5 = e % 32 ∧ (s.stopSeq e).epo.t = none ∧ (s.stopSeq e).epo.cur = s.epo.cur ∧
      (∃ r ∈ (s.stopSeq e).fc.queue, r.src = 32 * 28 + 12 ∧ 1 ≤ r.level) ∧ (s.stopSeq e).prim = s.prim ∧
      (e = 0xC ∨ s.epo.dual = true → (s.stopSeq e).tabs = s.tabs) ∧
      (e ≠ 0xC → s.epo.dual = false → (s.stopSeq e).tabs = (s.resetShadow true).tabs)))

/-- NOP, the waits and END of a sequence (R28, R30, R407); an uncorrectable program-store word stops the sequence with ERR = STORE and
STORE_ECC at L1, a corrected one is raised at L0 and the instruction runs (R352).
Completion: its clauses conclude that exec answers next, with the command's own effect, under conditions on the state and the
operands alone, for NOP, WAITT, WAITT_EXPIRE, WAITD, WAITD_EXPIRE, WAITS, WAITS_SAMPLE, WAITS_TIMEOUT, END. -/
def Obligations.SequenceWaitsAndStoreErrors : Prop :=
  ((∀ (s : State) (i : CtrlInstr), s.atCtrl i → i.fop = 0 → exec (.nop .clean) s = .next (s.seqAt i.size)) ∧
    (∀ (s : State) (i : CtrlInstr), s.atCtrl i → i.fop = 4 →
      let t := instanceOf s.ns (fld i.low 0 16) (i.ops.getD 0 0)
      (s.ns < t → exec (.waitt .clean) s = .next (s.prgWait (.waitt t))) ∧
      (t < s.ns → ∃ s' : State, s'.rf .PRG_STATUS 16 1 = 1 ∧ { s' with regs := s.regs, cyc := s.cyc } = s ∧
        exec (.waitt .clean) s = .next (s'.seqAt i.size))) ∧
    (∀ (now : Int) (sec ns : Nat), sec < 65536 → ns < 1000000000 →
      instanceOf now sec ns - now < 32768 * 1000000000 ∧ now - instanceOf now sec ns ≤ 32768 * 1000000000 ∧
      (instanceOf now sec ns - (sec * 1000000000 + ns : Nat)) % (65536 * 1000000000) = 0) ∧
    (∀ (s : State) (t : Int), s.ctrlWaits (.waitt t) → t ≤ s.ns → exec .waittExpire s = .next (s.seqAt 8)) ∧
    (∀ (s : State) (i : CtrlInstr), s.atCtrl i → i.fop = 5 →
      exec (.waitd .clean) s = .next (s.prgWait (.waitd (i.ops.getD 0 0) s.tick))) ∧
    (∀ (s : State) (n t : Nat), s.ctrlWaits (.waitd n t) → t + 3 * n ≤ s.tick → exec .waitdExpire s = .next (s.seqAt 8)) ∧
    (∀ (s : State) (i : CtrlInstr), s.atCtrl i → i.fop = 6 → exec (.waits .clean) s =
      .next (s.prgWait (.waits (fld (i.ops.getD 0 0) 0 26) (i.ops.getD 1 0) (i.ops.getD 2 0) s.tick))) ∧
    (∀ (s : State) (off mask value t : Nat), s.ctrlWaits (.waits off mask value t) → (s.sampleOff off) &&& mask = value →
      exec .waitsSample s = .next (s.seqAt 16)) ∧
    (∀ (s : State) (off mask value t : Nat), s.ctrlWaits (.waits off mask value t) →
      t + usTicks (max 1 (s.reg .PRG_WAITS_LIMIT)) ≤ s.tick → exec .waitsTimeout s = .next (s.stopSeq 0xB)) ∧
    (∀ (s : State) (i : CtrlInstr), s.atCtrl i → i.fop = 0x1F → s.epo.dual = false →
      exec (.endSeq .clean) s = .next s.prgDone.pump ∧ s.prgDone.prg.state = .done) ∧
    (∀ (s : State) (i : CtrlInstr), s.atCtrl i → i.fop = 0x1F → s.epo.dual = true →
      exec (.endSeq .clean) s = .next (s.prgWait .drain))) ∧
  (∀ (s : State) (i : CtrlInstr), s.atCtrl i → i.fop = 0 →
      exec (.nop .uncorrectable) s = .next ((s.raiseSpine 28 5 1 (fidUnit 0x180)).stopSeq 0x11) ∧
      exec (.nop .corrected) s = .next ((s.raiseSpine 28 5 0 (fidUnit 0x180)).seqAt i.size))

/-- WRTB writes entries of its section into the shadow bank and leaves the active bank as it is; VCRC compares each unit's shadow table
with its operand; both stall in DUAL (R28, R29).
Completion: its clauses conclude that exec answers next, with the command's own effect, under conditions on the state and the
operands alone, for WRTB, VCRC. -/
def Obligations.TableInstructionsTouchOnlyTheShadow : Prop :=
  (∀ (s : State) (i : CtrlInstr) (ws : List TabWrite), s.atCtrl i → i.fop = 1 → s.epo.dual = false → s.rkCopy = none →
    s.wrtbWrites s.prg.store i = some ws → ∃ t, exec (.wrtb .clean) s = .next t ∧
      t = (ws.foldl (fun s w => s.putEntry s.shadowBank w) s).seqAt i.size ∧
      (∀ table unit port idx, table < 16 → unit < 1024 → port < 8 → idx < 65536 →
        t.tab (bankOf s.epo.cur) table unit port idx = s.tab (bankOf s.epo.cur) table unit port idx) ∧
      { t with tabs := s.tabs, prg := s.prg } = s) ∧
  (∀ (s : State) (i : CtrlInstr), s.atCtrl i → i.fop = 1 → s.epo.dual = false → s.rkCopy = none →
    s.wrtbWrites s.prg.store i = none → exec (.wrtb .clean) s = .next (s.stopSeq 9)) ∧
  (∀ (s : State) (i : CtrlInstr), s.atCtrl i → i.fop = 1 → s.epo.dual = true → exec (.wrtb .clean) s = .next s) ∧
  (∀ (s : State) (i : CtrlInstr) (u : Nat), s.atCtrl i → i.fop = 2 → s.epo.dual = false → fld i.low 15 4 ≤ 10 →
    u = fld (i.ops.getD 0 0) 16 10 → u ≠ 0x3FF → holdsTable (fld i.low 15 4) u (fld i.low 12 3) = true →
    s.domDown (tabDomain (fld i.low 15 4) u) = false →
    (s.tableCrc s.shadowBank (fld i.low 15 4) u (fld i.low 12 3) = i.ops.getD 1 0 →
      exec (.vcrc .clean) s = .next (s.seqAt i.size)) ∧
    (s.tableCrc s.shadowBank (fld i.low 15 4) u (fld i.low 12 3) ≠ i.ops.getD 1 0 →
      exec (.vcrc .clean) s = .next (s.stopSeq 0xA)))

/-- WRCS sends one control request of source 0x180, or one to the bank node of its offset, and holds the sequence until it has
completed; one to an absent offset is dropped (R423, R425, R433).
Where a clause says that a command whose event is not due changes nothing, that is the model's choice (log 2).
Completion: its clauses conclude that exec answers next, with the command's own effect, under conditions on the state and the
operands alone, for WRCS, WRCS_COMPLETE. -/
def Obligations.WrcsHoldsTheSequence : Prop :=
  (∀ (s : State) (i : CtrlInstr), s.atCtrl i → i.fop = 3 → inDirect (fld (i.ops.getD 0 0) 0 26) = false → s.hubFree = true →
    s.prim ≠ .test →
    (absent (fld (i.ops.getD 0 0) 0 26) = false → ∃ t, exec (.wrcs .clean) s = .next t ∧ t.prg.wait = .wrcs false ∧ t.prg.pc = s.prg.pc ∧
      t.hub.queue = s.hub.queue ++ [{ src := 0x180, sd := 0, write := true, off := fld (i.ops.getD 0 0) 0 26,
                                      value := BitVec.ofNat 32 (i.ops.getD 1 0) }] ∧
      { t with prg := s.prg, hub := s.hub } = s) ∧
    (absent (fld (i.ops.getD 0 0) 0 26) = true → ∃ t, exec (.wrcs .clean) s = .next t ∧ t.prg.wait = .wrcs false ∧
      t.prg.pc = s.prg.pc ∧ t.hub.queue = s.hub.queue ∧
      t.reg .GLB_CSA_ABSENT_CNT = min (s.reg .GLB_CSA_ABSENT_CNT + 1) 0xFFFFFFFF ∧
      { t with prg := s.prg, hub := s.hub, regs := s.regs, cyc := s.cyc } = s)) ∧
  (∀ (s : State) (i : CtrlInstr), s.atCtrl i → i.fop = 3 → inDirect (fld (i.ops.getD 0 0) 0 26) = false → s.hubFree = false →
    exec (.wrcs .clean) s = .next s) ∧
  (∀ (s : State) (i : CtrlInstr), s.atCtrl i → i.fop = 3 → inDirect (fld (i.ops.getD 0 0) 0 26) = true →
    exec (.wrcs .clean) s = .next (s.wrcsDirect (fld (i.ops.getD 0 0) 0 26) (i.ops.getD 1 0))) ∧
  (∀ s : State, s.ctrlWaits (.wrcs false) → (s.hub.queue ++ s.hub.tree).any HubReq.mine = false →
    exec .wrcsComplete s = .next (s.seqAt 12)) ∧
  (∀ (s : State) (p : Pkt) (rest : List Pkt), s.ctrlWaits (.wrcs true) → (s.nif 0x180).inbox = p :: rest → p.net = .rsp →
    p.txid = wrcsTxid → ∃ t, exec .wrcsComplete s = .next t ∧ t.prg.pc = s.prg.pc + 12 ∧ t.prg.wait = .none ∧
      (t.nif 0x180).inbox = rest ∧ { t with prg := s.prg, ni := s.ni } = s) ∧
  (∀ s : State, s.ctrlWaits (.wrcs false) → (s.hub.queue ++ s.hub.tree).any HubReq.mine = true → exec .wrcsComplete s = .next s)

/-- FENCE, UNFENCE and LINKUP of a sequence (R28, R110, R346, R349); a Clove image goes to verification, from copy 1 when copy 0 is bad,
and none in either copy stops with NO_IMAGE; RETURN asks for the return image or is refused with CMDREJ (R44, R349).
Completion: its clauses conclude that exec answers next, with the command's own effect, under conditions on the state and the
operands alone, for FENCE, UNFENCE, LINKUP, CLOVE_FETCH_DONE, FAULT_RETURN. -/
def Obligations.FencesLinkupAndCloveImages : Prop :=
  ((∀ (s : State) (i : CtrlInstr) (u : UnitRef), s.atCtrl i → i.fop = 7 → i.unit = some u → ∃ t, exec (.fence .clean) s = .next t ∧
      t = ({ (s.fenceKey (fenceKeyOf u)).markCalled (keysOf (fenceKeyOf u)) with
             prg := { (s.fenceKey (fenceKeyOf u)).prg with fenced := fenceKeyOf u :: (s.fenceKey (fenceKeyOf u)).prg.fenced } } :
             State).prgNext i.size) ∧
    (∀ (s : State) (i : CtrlInstr), s.atCtrl i → i.fop = 7 ∧ i.unit = none → exec (.fence .clean) s = .next (s.stopSeq 9)) ∧
    (∀ (s : State) (i : CtrlInstr) (u : UnitRef), s.atCtrl i → i.fop = 8 → i.unit = some u → exec (.unfence .clean) s =
      .next (({ s with prg := { s.prg with unfence := (fld i.low 17 2, fld i.low 0 10) :: s.prg.unfence } } : State).seqAt i.size)) ∧
    (∀ (s : State) (i : CtrlInstr), s.atCtrl i → i.fop = 10 → s.epo.first = true → exec (.linkup .clean) s =
      .next (((allFids.filter (fun f => isPartner f && bitOf i.low (linkClass f) && !s.domDown (niDomain f))).foldl
        State.startLink s).prgNext i.size)) ∧
    (∀ (s : State) (i : CtrlInstr), s.atCtrl i → i.fop = 10 → s.epo.first = false → exec (.linkup .clean) s = .next (s.stopSeq 9)) ∧
    (∀ (s : State) (f : Nat), s.niFenced f = false → (s.nif f).link ≠ .up → (s.nif f).p2fLink = false →
      ((s.startLink f).nif f).link = .waitPartner ∧ ((s.startLink f).nif f).f2pLink = true ∧
      { s.startLink f with ni := s.ni } = s)) ∧
  ((∀ (s : State) (r : CloveReq) (c0 c1 img : List Byte), s.prg.clove = some r → s.prg.fetching = true → s.prim ≠ .halt →
      (s.cloveImage r c0 = some (some img) ∨ s.cloveImage r c0 = none ∧ s.cloveImage r c1 = some (some img)) →
      exec (.cloveFetchDone c0 c1) s = .next { s with prg := { s.prg with store := img, fetching := false, state := .verifying } }) ∧
    (∀ (s : State) (r : CloveReq) (c0 c1 : List Byte), s.prg.clove = some r → s.prg.fetching = true → s.prim ≠ .halt →
      s.cloveImage r c0 = none → s.cloveImage r c1 = none →
      exec (.cloveFetchDone c0 c1) s = .next ((s.imageless r.fence).stopSeq 0xF)) ∧
    (∀ s : State, s.fallback = true → s.prg.busy = false → (∀ c, c < 32 → s.pendOf c < 2) → s.prg.waiting = [] → s.prg.clove = none →
      s.epo.dual = false → s.prim ≠ .halt → ∃ t, exec .faultReturn s = .next t ∧ t.prg.fetching = true ∧
        t.prg.clove = some { key := 0x6000, sort := 2 } ∧ { t with prg := s.prg, regs := s.regs, cyc := s.cyc } = s) ∧
    (∀ s : State, s.fallback = false → ∃ t, exec .faultReturn s = .next t ∧ t.rf .FC_STATUS 5 1 = 1 ∧
      { t with regs := s.regs, cyc := s.cyc } = s))

/-! ### The epoch switch -/

/-- EPSW fixes a switch time at least 4 µs ahead on a 1,024 ns boundary and arms it through Saffron; a unit's acknowledgement is taken
once, and answers its EpochCtl packet where that brought the arm; one still missing 1 µs before T cancels the switch and keeps the
shadow banks (R38).
Where a clause says that a command whose event is not due changes nothing, that is the model's choice (log 2).
Completion: its clauses conclude that exec answers next, with the command's own effect, under conditions on the state and the
operands alone, for EPSW, ARM_TIMEOUT, EPOCH_ARM_ACK. -/
def Obligations.EpochArm : Prop :=
  (∀ (now : Int) (w : Option Int), now + 4000 ≤ switchTime now w ∧ switchTime now w % 1024 = 0 ∧
    switchTime now none < now + 4000 + 1024 ∧
    (∀ x, w = some x → now + 4000 ≤ x → x ≤ switchTime now w ∧ switchTime now w < x + 1024)) ∧
  (∀ (s : State) (i : CtrlInstr), s.atCtrl i → i.fop = 9 → s.prim ≠ .drain → s.epo.dual = false → s.saf.spine = [] →
    0 < (s.nif 0x180).safCred →
    let want := if i.ops.getD 0 0 = 0xFFFFFFFF then none else some (instanceOf s.ns (fld i.low 0 16) (i.ops.getD 0 0))
    ∃ t, exec (.epsw .clean) s = .next t ∧ t.epo.t = some (switchTime s.ns want) ∧ t.epo.missing = s.participants ∧
      t.prg.wait = .epsw ∧ t.prg.pc = s.prg.pc ∧ (∀ w, want = some w → w < s.ns → t.rf .PRG_STATUS 16 1 = 1) ∧
      (∃ p ∈ (t.nif 0x181).inbox, p.net = .req ∧ p.opc = 0x1B ∧ p.src = 0x180 ∧ p.tc = 1 ∧
        p.addr = BitVec.ofInt 52 (switchTime s.ns want)) ∧
      { t with prg := s.prg, epo := s.epo, regs := s.regs, cyc := s.cyc, ni := s.ni } = s) ∧
  (∀ (s : State) (i : CtrlInstr), s.atCtrl i → i.fop = 9 → s.prim = .drain ∨ s.epo.dual = true →
    exec (.epsw .clean) s = .next s) ∧
  (∀ (s : State) (u : UnitRef) (t : Int), unitExists u = true → s.epo.t = some t → s.prim ≠ .halt → s.ns < t - 1000 →
    s.canAck u = true →
    (u.node = true ∨ (s.nif u.id).arm = none → ∃ t', exec (.epochArmAck u) s = .next t' ∧ u ∉ t'.epo.missing ∧
      (∀ v, v ≠ u → (v ∈ t'.epo.missing ↔ v ∈ s.epo.missing)) ∧ { t' with epo := s.epo } = s) ∧
    (∀ q, u.node = false → (s.nif u.id).arm = some q → exec (.epochArmAck u) s =
      .next ((s.updNi u.id (fun n => { n with arm := none })).answer u.id q 0))) ∧
  (∀ (s : State) (p : Pkt) (t : Int), 0x800 ≤ p.txid.toNat → p.status = 0 → s.epo.t = some t → s.ns < t - 1000 →
    (s.safAnswer p).epo.missing = s.epo.missing.filter (· != fidUnit p.src.toNat)) ∧
  (∀ (s : State) (t : Int), s.epo.t = some t → s.prim ≠ .halt → t - 1000 ≤ s.ns → s.epo.missing ≠ [] →
    exec .armTimeout s = .next (s.stopSeq 0xC))

/-- At T the current epoch changes, the program is the running one and from LOAD or RUN the fabric is in DUAL; with no old-epoch packet
left at the end of the drain the old bank is free and the fabric in RUN, or in DRAIN when one is pending, else the overrun is
reported and the bank freed with the last packet; the rule shadow's copy ends with the active rules in the shadow (R38, R216, R415,
R416).
Where a clause says that a command whose event is not due changes nothing, that is the model's choice (log 2).
Completion: its clauses conclude that exec answers next, with the command's own effect, under conditions on the state and the
operands alone, for EPOCH_SWITCH, DRAIN_END, OLD_BANK_FREE, RULE_SHADOW_COPY_DONE. -/
def Obligations.EpochSwitchAndDrain : Prop :=
  ((∀ (s : State) (t : Int), s.epo.t = some t → s.prim ≠ .halt → s.prg.wait = .epsw → t ≤ s.ns → s.epo.missing = [] →
      s.prim = .load ∨ s.prim = .run → s.prg.clove = none → s.prg.abort = false → s.fc.inject = none → ∃ t', exec .epochSwitch s = .next t' ∧
        t'.epo.cur = !s.epo.cur ∧ t'.epo.dual = true ∧ t'.epo.t = none ∧ t'.epo.count = s.epo.count + 1 ∧ t'.prim = .dual ∧
        t'.epo.drain = imgDrain s.prg.store ∧ t'.prg.running = true ∧ t'.prg.progId = imgProg s.prg.store ∧
        t'.prg.pc = s.prg.pc + 8 ∧ t'.shadows = [] ∧ t'.tabs = s.tabs) ∧
    (∀ (s : State) (t : Int), s.epo.t = some t → s.ns < t ∨ s.epo.missing ≠ [] → exec .epochSwitch s = .next s)) ∧
  ((∀ s : State, s.prim = .dual → s.epo.dual = true → s.epo.overrun = false → s.epo.at_ + nsTicks s.epo.drain ≤ s.tick →
      s.oldHolders = [] → exec .drainEnd s = .next s.freeBank) ∧
    (∀ s : State, s.prim = .dual → s.epo.dual = true → s.epo.overrun = true → s.oldHolders = [] →
      exec .oldBankFree s = .next s.freeBank) ∧
    (∀ s : State, s.prim = .dual → s.drainPend = false → s.prg.waiting = [] →
      (∀ d, d < 18 → (s.domain d).phase ≠ 3) → (s.prg.state ≠ .executing ∨ s.prg.wait ≠ .drain) →
      s.freeBank.prim = .run ∧ s.freeBank.epo.dual = false ∧ s.freeBank.epo.cur = s.epo.cur ∧ s.freeBank.rkCopy = some s.tick) ∧
    (∀ s : State, s.prim ≠ .halt → s.epo.dual = true → s.epo.overrun = false → s.epo.at_ + nsTicks s.epo.drain ≤ s.tick →
      s.oldHolders ≠ [] → ∃ s' : State, exec .drainEnd s = .next (s.oldHolders.foldl State.raiseContract s') ∧
        s'.epo.overrun = true ∧ s'.epo.dual = true ∧ s'.rf .EPO_STATUS 3 1 = 1 ∧ { s' with epo := s.epo, regs := s.regs, cyc := s.cyc } = s) ∧
    (∀ s : State, s.rkCopy.isSome = true → SMap.wf 0 s.tabs = true → s.domDown 1 = false → ∃ t, exec .ruleShadowCopyDone s = .next t ∧
      t.rkCopy = none ∧ (∀ i, i < 65536 → t.tab s.shadowBank 5 4 0 i = s.tab (bankOf s.epo.cur) 5 4 0 i) ∧
      { t with rkCopy := s.rkCopy, tabs := s.tabs } = s))

/-! ### The networks -/

/-- R114: a byte range of at most 4,096 bytes is cut into pieces that are naturally aligned powers of two of at most a line, lie inside
the range in ascending order without overlap, and together have its length. -/
def Obligations.RequestsSplitIntoAlignedPieces : Prop :=
  ∀ a len : Nat, 0 < len → len ≤ 4096 →
    let ps := splitRange 128 a len
    (ps.map (fun p => 2 ^ p.2)).sum = len ∧
    (∀ p ∈ ps, p.2 ≤ 6 ∧ p.1 % 2 ^ p.2 = 0 ∧ a ≤ p.1 ∧ p.1 + 2 ^ p.2 ≤ a + len) ∧
    ps.Pairwise (fun p q => p.1 + 2 ^ p.2 ≤ q.1)

/-- An UP port in RUN takes a request: a class or format that does not permit it is answered BAD_REQ with CODE 9, no slice or no rule
DENIED, and an accepted one enters the source tracker whole; it waits for room there, for its TC0 slot and for the end of a freeze
of its slice, whose reset refuses it; the earliest piece that can leave is issued, but not from a fenced interface (R95, R103, R113
to R115, R207, R314, R320, R326).
Where a clause says that a command whose event is not due changes nothing, that is the model's choice (log 2).
Completion: its clauses conclude that exec answers next, with the command's own effect, under conditions on the state and the
operands alone, for INGRESS_ACCEPT, PIECE_ISSUE. -/
def Obligations.IngressTakesRequestsWhole : Prop :=
  (∀ (s : State) (fid : Fid) (h : Beat), isPartner fid.toNat = true → (s.nif fid.toNat).link = .up → s.prim = .run →
    s.fc.inject = none → (s.nif fid.toNat).beats = [h] → h.net = .req → h.last = true → s.epo.first = true →
    let f := fid.toNat
    let s0 := s.takeBeat f h
    ((classPermits f h.opc.toNat = false ∨ beatFormatOk h = false) →
      exec (.ingressAccept fid .clean .clean) s = .next (s0.badReq f h)) ∧
    (classPermits f h.opc.toNat = true → beatFormatOk h = true → h.addr.toNat < 2 ^ 47 →
      ((s.freeSrc f).length < (beatPieces h).length → exec (.ingressAccept fid .clean .clean) s = .next s) ∧
      ((beatPieces h).length ≤ (s.freeSrc f).length →
        (s.sliceStamp f (s.epOf f) h = none →
          exec (.ingressAccept fid .clean .clean) s = .next ((s0.unmapped f).refuse f h 1)) ∧
        (∀ sl, s.sliceStamp f (s.epOf f) h = some sl →
          (s.sliceHolds f h.opc.toNat sl = true → exec (.ingressAccept fid .clean .clean) s = .next s) ∧
          (s.sliceHolds f h.opc.toNat sl = false → s.sliceRefuses f h.opc.toNat sl = true →
            exec (.ingressAccept fid .clean .clean) s = .next (s0.refuse f h 4 sl)) ∧
          (s.sliceHolds f h.opc.toNat sl = false → s.sliceRefuses f h.opc.toNat sl = false →
            (pclass f = 5 → s.cannotCross f f h.opc.toNat (s.tcOf f (s.epOf f) .req h.opc.toNat) = false) →
            (∀ cause entry pa, s.precheck f (s.epOf f) sl (s.domainOf (s.epOf f) f) h = .error (cause, entry, pa) →
              exec (.ingressAccept fid .clean .clean) s =
                .next ((s0.denied f true f (s.domainOf (s.epOf f) f) h.opc.toNat cause entry pa).refuse f h 1 sl)) ∧
            (∀ ps, s.precheck f (s.epOf f) sl (s.domainOf (s.epOf f) f) h = .ok ps → (∀ p ∈ ps, p.2.2 < 0x120 ∨ 0x126 ≤ p.2.2) →
              (∀ p, ps.head? = some p → s.mayAccept f .req h.opc.toNat p.2.2 = true) →
              exec (.ingressAccept fid .clean .clean) s =
                .next ((s0.overrideUsed f h.opc.toNat (s.domainOf (s.epOf f) f)).enter f h [] sl (s.domainOf (s.epOf f) f)
                  (s.tcOf f (s.epOf f) .req h.opc.toNat) (s.epOf f) ps)) ∧
            (∀ ps p, s.precheck f (s.epOf f) sl (s.domainOf (s.epOf f) f) h = .ok ps → (∀ p ∈ ps, p.2.2 < 0x120 ∨ 0x126 ≤ p.2.2) →
              ps.head? = some p → s.mayAccept f .req h.opc.toNat p.2.2 = false →
              exec (.ingressAccept fid .clean .clean) s = .next s)))))) ∧
  (∀ (s : State) (fid : Fid) (t r : WordErr), isPartner fid.toNat = true → (s.nif fid.toNat).link ≠ .up →
    exec (.ingressAccept fid t r) s = .next s) ∧
  (∀ (s : State) (fid : Fid) (i : Nat) (e : SrcEnt), tracked fid.toNat = true → s.niFenced fid.toNat = false → s.prim ≠ .halt →
    (i, e) ∈ (s.nif fid.toNat).ents → s.canIssue fid.toNat (s.nif fid.toNat).ents e = true →
    (∀ j x, (j, x) ∈ (s.nif fid.toNat).ents → s.canIssue fid.toNat (s.nif fid.toNat).ents x = true → (j, x) ≠ (i, e) →
      e.trans * 4096 + e.off < x.trans * 4096 + x.off) →
    exec (.pieceIssue fid) s = .next (s.issue fid.toNat i e)) ∧
  (∀ (s : State) (fid : Fid), tracked fid.toNat = true → s.niFenced fid.toNat = true → exec (.pieceIssue fid) s = .next s)

/-- The one arbiter design: without a forced winner the holder goes on up to its burst; else the best level wins and within it the first
index at or after the pointer, which moves past the winner; a forced winner comes first, by kind, and leaves the pointer; only
privileged losers' wait counters grow (R82, R83, R84, R87, R88). -/
def Obligations.ArbiterPicksByForceLevelAndRotation : Prop :=
  ∀ (e n : Nat) (a : Arb) (rs : List ArbReq), a.ptr < n → (∀ q ∈ rs, q.idx < n ∧ q.level < 8) →
    (∀ r, forcedOf e a rs = [] → (∀ q ∈ rs, a.holder ≠ some q.idx) → arbWinner e n a rs = some (r, false, true) →
      r ∈ rs ∧ (∀ q ∈ rs, r.level < q.level ∨ r.level = q.level ∧ rotDist n a.ptr r.idx ≤ rotDist n a.ptr q.idx) ∧
      (arbAfter n a rs (r, false, true)).ptr = (r.idx + 1) % n ∧ (arbAfter n a rs (r, false, true)).used = 1) ∧
    (∀ r, forcedOf e a rs = [] → r ∈ rs → a.holder = some r.idx → a.used < r.burst → rs.Pairwise (fun x y => x.idx ≠ y.idx) →
      arbWinner e n a rs = some (r, a.forced, false)) ∧
    (forcedOf e a rs ≠ [] → ∃ r, arbWinner e n a rs = some (r, true, true) ∧ r ∈ forcedOf e a rs ∧
      (∀ q ∈ forcedOf e a rs, (r.kind.getD 4) < (q.kind.getD 4) ∨
        r.kind.getD 4 = q.kind.getD 4 ∧ rotDist n a.ptr r.idx ≤ rotDist n a.ptr q.idx) ∧
      (arbAfter n a rs (r, true, true)).ptr = a.ptr) ∧
    (rs ≠ [] → ∃ w, arbWinner e n a rs = some w ∧ w.1 ∈ rs ∧ SMap.get 0 (arbAfter n a rs w).waits w.1.idx = 0) ∧
    (arbWinner e n a [] = none)

/-- A router output in service decides: an uncorrectable route entry fences the router; only front flits with a credit ask; a head flit
for a local interface leaves the buffer and reaches the interface (R67, R70, R73, R84); a forced win makes the decision of its site;
a head moves to VC0 and asks for its escape port once its wait has passed, a VC1 flit once it has missed its slot (R68, R88, R97).
Where a clause says that a command whose event is not due changes nothing, that is the model's choice (log 2).
Completion: its clauses conclude that exec answers next, with the command's own effect, under conditions on the state and the
operands alone, for ROUTER_HOP, ESCAPE_MOVE, FORCED_WIN. -/
def Obligations.RouterOutputsDecide : Prop :=
  (∀ (s : State) (node : Fin 144) (net : Net) (out : Fin 7) (err : LinkErr), s.prim ≠ .halt → s.rtrFenced node = false →
    portPresent node out = true → s.fc.inject = none →
    exec (.routerHop node net out err .clean) s = .next (s.hop node net out err) ∧
    exec (.routerHop node net out err .uncorrectable) s = .next ((s.raiseRtr node 2 2 out).fenceRouter node) ∧
    (s.hopReqs node net out = [] → s.slotClaims node net out = [] →
      exec (.forcedWin (.router node net out)) s = .next s)) ∧
  (∀ (s : State) (node : Fin 144) (net : Net) (out : Fin 7), s.prim ≠ .halt → s.rtrFenced node = false →
    portPresent node out = true → (s.forcedAt (.router node net out) 21 ((s.hopReqs node net out).map (·.2.2))).isSome = true →
    exec (.forcedWin (.router node net out)) s = .next (s.hop node net out .clean)) ∧
  (∀ (s : State) (k : Fin 64), (s.forcedAt (.home k) 5 (s.homeReqs k)).isSome = false →
    exec (.forcedWin (.home k)) s = .next s) ∧
  (∀ (s : State) (node : Fin 144) (net : Net) (out : Fin 7), ∀ r ∈ s.hopReqs node net out,
    s.hasCredit node net out ((s.wants node net r.1 r.2.1).2.toNat) = true ∧ (s.buf node net r.1 r.2.1).q ≠ []) ∧
  (∀ (s : State) (node inp out c : Nat) (net : Net) (vc ov : BitVec 2) (p : Pkt) (rest : List Flit) (psn : Bool), node < 144 →
    inp < 7 → out < 7 → (s.buf node net inp vc.toNat).q = ⟨p, 0, c⟩ :: rest → (s.buf node net inp vc.toNat).kept = none →
    p.dst ≠ 0x3FF → p.len = 0 → neighbour node out = none →
    let t := s.sendFlit node net inp vc.toNat out ov ⟨p, 0, c⟩ psn
    (t.buf node net inp vc.toNat).q = rest ∧
    (∀ f, localFid node out = some f → (s.nif f).egress = [] →
      ∃ q : Pkt, (t.nif f).egress = [⟨q, 0, s.tick⟩] ∧ q.vc = ov ∧ q.psn = (p.psn || psn) ∧
        { q with vc := p.vc, psn := p.psn, la := p.la } = p) ∧
    { t with rbuf := s.rbuf, cred := s.cred, ni := s.ni, ctr := s.ctr, regs := s.regs, cyc := s.cyc, probe := s.probe } = s) ∧
  (∀ (s : State) (node : Fin 144) (net : Net) (inp : Fin 7) (vc : BitVec 2) (d : Nat) (x : Flit) (rest : List Flit), s.prim ≠ .halt →
    s.rtrFenced node = false → vc = 2 ∨ vc = 3 → (s.buf node net inp vc.toNat).q = x :: rest → x.idx = 0 →
    (s.buf node net inp vc.toNat).dry = some d → d + max 1 (s.rf .RTR_ESC 0 10 (rtrBase node)) ≤ s.tick →
    s.escapable node net inp vc.toNat = true →
    exec (.escapeMove node net inp vc) s = .next (s.escape node net inp vc.toNat)) ∧
  (∀ (s : State) (node inp vc : Nat) (net : Net) (x : Flit) (rest : List Flit), (s.buf node net inp vc).q = x :: rest →
    ((s.escape node net inp vc).buf node net inp vc).q = x :: rest ∧
    (s.escape node net inp vc).wants node net inp vc = ([s.escPort node x.pkt], 0) ∧
    { s.escape node net inp vc with rbuf := s.rbuf, arbs := s.arbs, ctr := s.ctr, regs := s.regs, cyc := s.cyc } = s) ∧
  (∀ (s : State) (node : Fin 144) (net : Net) (inp : Fin 7) (x : Flit) (rest : List Flit), s.prim ≠ .halt → s.rtrFenced node = false →
    (s.buf node net inp 1).q = x :: rest → x.at_ + 1 < s.tick →
    exec (.escapeMove node net inp 1) s = .next (s.missSlot node net inp)) ∧
  (∀ (s : State) (node : Fin 144) (net : Net) (inp : Fin 7) (vc : BitVec 2), (s.buf node net inp vc.toNat).dry = none →
    vc ≠ 1 → exec (.escapeMove node net inp vc) s = .next s)

/-- OLD is set on every packet in a router's buffer or at an interface whose age has reached 32,768 and on no younger one, with INJ 0;
the watchdog fences a router whose head has not moved for the limit, CONTRACT at L2, CODE 6; a window end clears the counts of every
arbiter whose window begins (R64, R78, R85).
Where a clause says that a command whose event is not due changes nothing, that is the model's choice (log 2).
Completion: its clauses conclude that exec answers next, with the command's own effect, under conditions on the state and the
operands alone, for ARB_WINDOW_END, OLD_MARK, WATCHDOG_EXPIRE. -/
def Obligations.AgesWatchdogsAndWindows : Prop :=
  (∀ (s : State) (p : Pkt), s.isOld p = true ↔ p.old = false ∧ 32768 ≤ ageOf (s.tim.c % 65536) p.inj.toNat) ∧
  (∀ (s : State) (node : Fin 144) (net : Net) (inp : Fin 7) (vc : BitVec 2),
    let q := (s.buf node net inp vc.toNat).q
    ((∃ x ∈ q, x.idx = 0 ∧ s.isOld x.pkt = true) → ∃ t, exec (.oldMark (.router node net inp vc)) s = .next t ∧
      (t.buf node net inp vc.toNat).q.length = q.length ∧
      (∀ (i : Nat) (x : Flit), q[i]? = some x → x.idx = 0 → (t.buf node net inp vc.toNat).q[i]? =
        some (if s.isOld x.pkt then { x with pkt := { x.pkt with old := true, inj := 0 } } else x)) ∧ { t with rbuf := s.rbuf } = s) ∧
    ((∀ x ∈ q, x.idx = 0 → s.isOld x.pkt = false) → exec (.oldMark (.router node net inp vc)) s = .next s)) ∧
  (∀ (s : State) (f : Fid), assigned f.toNat = true → s.oldWaits (s.nif f.toNat) = true →
    ∃ t, exec (.oldMark (.inject f)) s = .next t ∧
      (t.nif f.toNat).injq = (s.nif f.toNat).injq.map (fun x => if s.isOld x.pkt then { x with pkt := x.pkt.marked } else x) ∧
      (t.nif f.toNat).epHold = (s.nif f.toNat).epHold.map (fun p => if s.isOld p then p.marked else p) ∧
      (∀ g, g ≠ f.toNat → t.nif g = s.nif g) ∧ { t with ni := s.ni } = s) ∧
  (∀ (s : State) (f : Fid) (p : Pkt), assigned f.toNat = true → (s.nif f.toNat).rob = [p] → s.isOld p = true →
    ∃ t, exec (.oldMark (.parked f)) s = .next t ∧ (t.nif f.toNat).rob = [{ p with old := true, inj := 0 }] ∧
      { t with ni := s.ni } = s) ∧
  (∀ (s : State) (node : Fin 144) (net : Net) (inp : Fin 7) (vc : BitVec 2) (x : Flit) (rest : List Flit), s.prim ≠ .halt →
    s.rtrFenced node = false → (s.buf node net inp vc.toNat).q = x :: rest →
    let limit := max 0x400 (s.rf .RTR_WDOG 0 20 (rtrBase node))
    ((s.buf node net inp vc.toNat).moved + limit ≤ s.tick → exec (.watchdogExpire node net inp vc) s =
      .next (((s.captureRtr node inp 6 x.pkt).raiseRtr node 8 2 inp).fenceRouter node)) ∧
    (s.tick < (s.buf node net inp vc.toNat).moved + limit → exec (.watchdogExpire node net inp vc) s = .next s)) ∧
  (∀ s : State, ∃ t, exec .arbWindowEnd s = .next t ∧ { t with arbs := s.arbs } = s ∧
    (∀ (a : Arb) (site : ArbSite), s.arbs = [(arbBase site, a)] → siteOf (arbBase site) = some site →
      s.tim.c % 2 ^ windowLog2 (s.arbEntry site) = 0 →
      t.arb site = { a with tc1 := 0, wb := 0, maskSeen := false }))

/-- What a destination interface does with a flit at its egress: the last flit of a packet presents it, parks it when it is ahead of its
stream, or the packet is discarded with the CODE and fault of R73; a parked packet follows when its turn has come (R54, R70, R73,
R74, R119).
Where a clause says that a command whose event is not due changes nothing, that is the model's choice (log 2).
Completion: its clauses conclude that exec answers next, with the command's own effect, under conditions on the state and the
operands alone, for EGRESS_PRESENT, ROB_RELEASE. -/
def Obligations.EgressChecksAndOrders : Prop :=
  (∀ (s : State) (fid : Fid) (net : Net) (vc : BitVec 2) (x : Flit), assigned fid.toNat = true → s.prim ≠ .halt →
    s.fc.inject = none → s.egressFront fid.toNat net vc = some x → x.idx = 0 → x.pkt.len = 0 → s.egressWaits fid.toNat x.pkt = false →
    let f := fid.toNat
    let p := x.pkt
    let s0 := (s.leaveEgress f x).setAsm f (asmKey net vc) none
    let a : Asm := { pkt := p, n := 1, bad := (net == .dat && p.psn).toNat }
    (p.dst.toNat = f ∨ p.dst = 0x3FF → exec (.egressPresent fid net vc .clean) s = .next (s0.egressPass f a)) ∧
    (p.dst.toNat ≠ f → p.dst ≠ 0x3FF → exec (.egressPresent fid net vc .clean) s = .next ((s0.captureNi f 8 p).raiseNi f 6 1)) ∧
    exec (.egressPresent fid net vc .hcrc) s = .next ((s0.captureNi f 7 p).raiseNi f 1 1) ∧
    exec (.egressPresent fid net vc .parity) s = .next ((s0.captureNi f 1 p).raiseNi f 0 1) ∧
    (net ≠ .dat → exec (.egressPresent fid net vc .uncorrectable) s = .next ((s0.captureNi f 2 p).raiseNi f 0 1))) ∧
  (∀ (s : State) (fid : Fid) (net : Net) (vc : BitVec 2) (x : Flit) (a : Asm), assigned fid.toNat = true → s.prim ≠ .halt →
    s.fc.inject = none → s.egressFront fid.toNat net vc = some x → x.idx ≠ 0 →
    SMap.get none (s.nif fid.toNat).asm (asmKey net vc) = some a →
    let f := fid.toNat
    let s0 := s.leaveEgress f x
    let b : Asm := { a with n := a.n + 1, bad := a.bad + (net == .dat && x.pkt.psn).toNat }
    (a.drop = false → x.idx ≠ a.pkt.len.toNat → exec (.egressPresent fid net vc .clean) s = .next (s0.setAsm f (asmKey net vc) (some b))) ∧
    (a.drop = false → x.idx = a.pkt.len.toNat → s.egressWaits f a.pkt = false →
      exec (.egressPresent fid net vc .clean) s = .next ((s0.setAsm f (asmKey net vc) none).egressPass f b)) ∧
    (a.drop = false → x.idx ≠ a.pkt.len.toNat →
      exec (.egressPresent fid net vc .parity) s = .next ((s0.raiseNi f 0 0).setAsm f (asmKey net vc) (some b))) ∧
    (a.drop = true → exec (.egressPresent fid net vc .clean) s = .next (s0.dropAsm f (asmKey net vc) a x))) ∧
  (∀ (s : State) (fid : Fid) (net : Net) (vc : BitVec 2) (err : LinkErr), assigned fid.toNat = true →
    s.egressFront fid.toNat net vc = none → exec (.egressPresent fid net vc err) s = .next s) ∧
  (∀ (s : State) (f : Nat) (a : Asm), a.pkt.net = .req → s.outOfTurn f a.pkt = true →
    ((s.egressPass f a).nif f).rob = (s.nif f).rob ++ [{ a.pkt with psn := a.pkt.psn || a.bad != 0 }]) ∧
  (∀ (s : State) (fid : Fid) (q : Pkt) (rest : List Pkt), assigned fid.toNat = true → (s.nif fid.toNat).rob = q :: rest →
    (s.outOfTurn fid.toNat q = false → s.reqWaits fid.toNat q = false →
      exec (.robRelease fid) s =
        .next (((s.setNi fid.toNat { s.nif fid.toNat with rob := rest }).present1 fid.toNat q).inTurn fid.toNat q)) ∧
    ((∀ x ∈ q :: rest, s.outOfTurn fid.toNat x = true) → exec (.robRelease fid) s = .next s)) ∧
  (∀ (s : State) (f : Nat) (q : Pkt), q.net = .req → q.rlx = false → q.dst ≠ 0x3FF →
    s.outOfTurn f q = (q.txid.toNat % 16 != (s.nif f).expected q.src) ∧
    ((s.nif f).advance q.src).expected q.src = ((s.nif f).expected q.src + 1) % 16)

/-- Answers at a source interface: one for a live piece is handled by its request, any other is counted late; CNT 0x81 from Saffron is a
credit; a Nacked piece goes out again 64 FCLK after SET_FULL, or after the next epoch switch (R116, R118, R130, R157).
Where a clause says that a command whose event is not due changes nothing, that is the model's choice (log 2).
Completion: its clauses conclude that exec answers next, with the command's own effect, under conditions on the state and the
operands alone, for PIECE_ANSWER, NACK_REISSUE. -/
def Obligations.AnswersCompletePieces : Prop :=
  (∀ (s : State) (fid : Fid) (p : Pkt) (rest : List Pkt), isPartner fid.toNat = true → (s.nif fid.toNat).inbox = p :: rest →
    p.net = .rsp ∨ p.net = .dat →
    let f := fid.toNat
    let s0 := s.setNi f { s.nif f with inbox := rest }
    (p.net = .rsp → p.opc = 0x10 → p.src = 0x181 → p.cnt = 0x81 → exec (.pieceAnswer fid) s =
      .next (s0.updNi f (fun n => { n with safCred := n.safCred + 1 }))) ∧
    (p.cnt ≠ 0x81 → s.srcEnt f (p.txid.toNat / 16) = none → exec (.pieceAnswer fid) s = .next (s0.bump .NI_LATE_CNT (niBase f))) ∧
    (∀ e, p.cnt ≠ 0x81 → s.srcEnt f (p.txid.toNat / 16) = some e → e.state = .issued → e.req.txid = p.txid →
      exec (.pieceAnswer fid) s = .next (s0.entAnswer f (p.txid.toNat / 16) e p))) ∧
  (∀ (s : State) (fid : Fid) (i : BitVec 8) (e : SrcEnt), tracked fid.toNat = true → s.srcEnt fid.toNat i.toNat = some e →
    (e.state = .nackWait → s.tick < e.since + 64 → exec (.nackReissue fid i) s = .next s) ∧
    (e.state = .epochWait → s.epo.count ≤ e.epoch → exec (.nackReissue fid i) s = .next s) ∧
    (∀ e', s.niFenced fid.toNat = false → (e.state = .nackWait ∧ e.since + 64 ≤ s.tick ∨ e.state = .epochWait ∧ e.epoch < s.epo.count) →
      (s.redirect fid.toNat i.toNat e).srcEnt fid.toNat i.toNat = some e' → e'.state = .ready →
      (s.redirect fid.toNat i.toNat e).streamRoom fid.toNat e'.req = true →
      exec (.nackReissue fid i) s = .next ((s.redirect fid.toNat i.toNat e).issue fid.toNat i.toNat e'))) ∧
  (∀ (es : List SrcEnt), (∀ e ∈ es, e.status = 0) → transStatus es = 0) ∧
  (∀ (es : List SrcEnt) (e : SrcEnt), e ∈ es → e.status ≠ 0 → (∀ x ∈ es, x.status ≠ 0 → x ≠ e → e.off < x.off) →
    transStatus es = e.status.toNat)

/-- Tracker timers: an expired piece is counted, raises TIMEOUT and is held for a further limit; an expired target entry is answered
TIMEOUT; held packets leave after their HOLD or end with DOMAIN_ASLEEP (R41, R118, R370).
Where a clause says that a command whose event is not due changes nothing, that is the model's choice (log 2).
Completion: its clauses conclude that exec answers next, with the command's own effect, under conditions on the state and the
operands alone, for EPOCH_HOLD_RELEASE, SRC_TRACKER_EXPIRE, TGT_TRACKER_EXPIRE, TRACKER_RELEASE, HOLD_TIMEOUT. -/
def Obligations.TrackersExpireAndRelease : Prop :=
  (∀ (s : State) (fid : Fid) (i : BitVec 8) (e : SrcEnt), tracked fid.toNat = true → s.srcEnt fid.toNat i.toNat = some e →
    (e.timed = true → e.start + s.trackLimit fid.toNat ≤ s.tick + 1 → exec (.srcTrackerExpire fid i) s =
      .next (s.pieceExpire fid.toNat i.toNat e)) ∧
    (s.tick + 1 < e.start + s.trackLimit fid.toNat → exec (.srcTrackerExpire fid i) s = .next s) ∧
    (e.state = .dead → e.trans = 0 → e.since + s.trackLimit fid.toNat ≤ s.tick → ∃ t, exec (.trackerRelease fid i) s = .next t ∧
      t.srcEnt fid.toNat i.toNat = none ∧ { t with ni := s.ni } = s) ∧
    (s.tick < e.since + s.trackLimit fid.toNat → exec (.trackerRelease fid i) s = .next s)) ∧
  (∀ (s : State) (f txid : Nat), 0x180 ≤ f → f < 1024 → ∃ r ∈ (s.expired f txid).fc.queue,
    r.src = 32 * 28 + 9 ∧ 1 ≤ r.level ∧ r.detail = txid) ∧
  (∀ (s : State) (fid : Fid) (i : BitVec 8) (e : TgtEnt), isPartner fid.toNat = true →
    SMap.get none (s.nif fid.toNat).tgt i.toNat = some e →
    (s.tick < e.start + s.trackLimit fid.toNat → exec (.tgtTrackerExpire fid i) s = .next s) ∧
    (e.start + s.trackLimit fid.toNat ≤ s.tick → ∃ s' : State, (SMap.get none (s'.nif fid.toNat).tgt i.toNat).isNone = true ∧
      { s' with ni := s.ni, regs := s.regs, cyc := s.cyc } = s ∧
      (e.answered = false → exec (.tgtTrackerExpire fid i) s = .next (s'.answer fid.toNat e.req 7)) ∧
      (e.answered = true → exec (.tgtTrackerExpire fid i) s = .next s'))) ∧
  (∀ (s : State) (fid : Fid) (p : Pkt) (h : Nat), assigned fid.toNat = true → (s.nif fid.toNat).epHold = [p] → p.net = .req →
    s.holdOf fid.toNat p = some h →
    let last := SMap.get 0 (s.nif fid.toNat).lastOld (2 * streamKey p + (!p.ep).toNat)
    (0 < last → s.tick + 1 < last + h → exec (.epochHoldRelease fid) s = .next s) ∧
    (last = 0 ∨ last + h ≤ s.tick + 1 → ∃ s' : State, (s'.nif fid.toNat).epHold = [] ∧ { s' with ni := s.ni } = s ∧
      exec (.epochHoldRelease fid) s = .next ((s'.noteOld fid.toNat p).push fid.toNat p))) ∧
  (∀ (s : State) (fid : Fid) (p : Pkt) (t : Nat) (rest : List (Pkt × Nat)), assigned fid.toNat = true →
    (s.nif fid.toNat).hold = (p, t) :: rest → p.net = .req → (∀ x ∈ rest, x.1.net = .req) →
    let limit := usTicks (max 1 (s.rf .PWR_HOLD 0 16))
    (s.tick < t + limit → exec (.holdTimeout fid) s = .next s) ∧
    (t + limit ≤ s.tick → ∃ s' : State, (s'.nif fid.toNat).hold = rest ∧
      { s' with ni := s.ni, ctr := s.ctr, regs := s.regs, cyc := s.cyc } = s ∧
      (tracked fid.toNat = true → exec (.holdTimeout fid) s = .next (s'.pieceFail fid.toNat (p.txid.toNat / 16) 3)) ∧
      (tracked fid.toNat = false → exec (.holdTimeout fid) s = .next (s'.ownComp fid.toNat p 3))))

/-! ### Access rules -/

/-- The lowest open matching entry decides, its RD and WR bits give the permission, no match is cause 1, no permission 2, a far atomic
to a device 3, no domain 4; the debug override grants domain 15 and nothing else (R200, R201, R205, R210); the rule keeper rewrites
a damaged copy in both banks from a good one, and an entry lost in all five copies raises TABLE_ECC at L4 (R217).
Completion: its clauses conclude that exec answers next, with the command's own effect, under conditions on the state and the
operands alone, for REPLICA_REPAIR. -/
def Obligations.AccessRulesDecideAndAreRepaired : Prop :=
  ((∀ (e pa : Nat), ruleMatch e pa = true ↔ ruleVld e = true ∧ pa / 2 ^ ruleSize e = ruleBase e * 4096 / 2 ^ ruleSize e) ∧
    (∀ (s : State) (ep : Bool) (chk sl pa i e : Nat), SMap.wf 0 s.tabs = true → chk < 5 → s.deciding ep chk sl pa = some (i, e) →
      e = s.ruleEntry ep chk i ∧ ruleMatch e pa = true ∧ s.ruleOpen ep sl i = true ∧
      (∀ j, j < i → 16 ≤ j → s.ruleOpen ep sl j = true → ruleMatch (s.ruleEntry ep chk j) pa = false)) ∧
    (∀ (s : State) (chk : Nat) (ep : Bool) (sl pa opc d : Nat) (rd wr : Bool), rulePerm opc = some (rd, wr) →
      (d ≠ 15 ∨ s.dbgOvr = false) →
      (s.deciding ep chk sl pa = none → s.ruleCheck chk ep sl pa opc (some d) = .deny 1 0x1FFF) ∧
      (∀ i e, s.deciding ep chk sl pa = some (i, e) → opc ≠ 0xA ∨ ruleType e ≠ 1 →
        ((rd = true → ruleRd e d = true) ∧ (wr = true → ruleWr e d = true) → s.ruleCheck chk ep sl pa opc (some d) = .allow e) ∧
        (¬((rd = true → ruleRd e d = true) ∧ (wr = true → ruleWr e d = true)) →
          s.ruleCheck chk ep sl pa opc (some d) = .deny 2 i)) ∧
      (∀ i e, s.deciding ep chk sl pa = some (i, e) → opc = 0xA → ruleType e = 1 → s.ruleCheck chk ep sl pa opc (some d) = .deny 3 i)) ∧
    (∀ (s : State) (chk : Nat) (ep : Bool) (sl pa opc : Nat), (rulePerm opc).isSome = true →
      s.ruleCheck chk ep sl pa opc none = .deny 4 0x1FFF ∧
      (s.dbgOvr = true → ∃ e, s.ruleCheck chk ep sl pa opc (some 15) = .allow e)) ∧
    (∀ (s : State) (f : Nat) (pre : Bool) (src d opc cause entry pa : Nat), 0x180 ≤ f → f < 1024 → d ≠ 15 →
      s.rf .RK_DENY_CAP 31 1 rkBase = 1 →
      (s.denied f pre src (some d) opc cause entry pa).reg .RK_DENY_CNT rkBase = min (s.reg .RK_DENY_CNT rkBase + 1) 0xFFFFFFFF ∧
      (s.denied f pre src (some d) opc cause entry pa).reg .RK_DENY_ENTRY rkBase = s.reg .RK_DENY_ENTRY rkBase)) ∧
  ((∀ (s : State) (c i : Nat), c < 4 → i < 4096 → ∃ t, exec (.replicaRepair (BitVec.ofNat 5 (2 ^ c)) (BitVec.ofNat 13 i)) s = .next t ∧
      (∀ b, b < 2 → t.tab b 5 c 0 i = s.tab b 5 4 0 i ∧ t.tab b 5 4 0 i = s.tab b 5 4 0 i) ∧
      t.reg .RK_REPAIR_CNT rkBase = min (s.reg .RK_REPAIR_CNT rkBase + 1) 0xFFFFFFFF ∧
      (∃ r ∈ t.fc.queue, r.src = 32 * 28 + 2) ∧ { t with tabs := s.tabs, regs := s.regs, cyc := s.cyc, fc := s.fc } = s) ∧
    (∀ (s : State) (i : Nat), i < 4096 → ∃ t, exec (.replicaRepair 16 (BitVec.ofNat 13 i)) s = .next t ∧
      (∀ b, b < 2 → t.tab b 5 4 0 i = s.tab b 5 0 0 i) ∧
      (s.rf .RK_CENTRAL_ERR 31 1 rkBase = 0 → t.reg .RK_CENTRAL_ERR rkBase = i + 2 ^ 31) ∧
        { t with tabs := s.tabs, regs := s.regs, cyc := s.cyc } = s) ∧
    (∀ (s : State) (i : Nat), i < 4096 → ∃ t, exec (.replicaRepair 31 (BitVec.ofNat 13 i)) s = .next t ∧
      (∃ r ∈ t.fc.queue, r.src = 32 * 28 + 2 ∧ 4 ≤ r.level) ∧ (∀ b c, b < 2 → c < 5 → t.tab b 5 c 0 i = 0) ∧
      { t with fc := s.fc, tabs := s.tabs } = s))

/-! ### Saffron -/

/-- Headers, grants and completions of Saffron: a header without a credit joins the admission queue, the oldest grantable one gets a
pool slot and CNT 0x80, completions leave in sequence order (R127, R129 to R131); writes that would break R128 are refused whole; a
SeqWr that has waited the limit raises SAFFRON at L1 once and goes on waiting (R128, R132).
Where a clause says that a command whose event is not due changes nothing, that is the model's choice (log 2).
Completion: its clauses conclude that exec answers next, with the command's own effect, under conditions on the state and the
operands alone, for SAF_HEADER_ARRIVE, SAF_POOL_GRANT, SAF_COMPLETE, SAF_WAIT_EXPIRE, SAF_ENT_WRITE, SAF_POOLDEF_WRITE. -/
def Obligations.SaffronOrdersAndReserves : Prop :=
  ((∀ (s : State) (q : Pkt) (rest : List Pkt), s.prim ≠ .halt → (∀ t ∈ s.saf.slots, t.state ≠ .granted) →
      (s.nif 0x181).inbox = q :: rest → q.net = .req → q.opc = 0x14 → q.df = false →
      (s.saf.admq.length < 256 → ∃ t, exec (.safHeaderArrive .clean) s = .next t ∧ t.saf.admq = s.saf.admq ++ [q] ∧
        (t.nif 0x181).inbox = rest ∧ t.saf.slots = s.saf.slots ∧ t.saf.seq = s.saf.seq ∧ { t with saf := s.saf, ni := s.ni } = s) ∧
      (256 ≤ s.saf.admq.length → exec (.safHeaderArrive .clean) s = .next s)) ∧
    (∀ (s : State) (q d : Pkt) (i : Nat), s.prim ≠ .halt → (∀ t ∈ s.saf.slots, t.state ≠ .granted) → (s.nif 0x181).inbox = [q, d] →
      q.net = .req → q.opc = 0x14 → q.df = true → d.net = .dat → d.src = q.src → d.txid = q.txid → s.saf.freeSlot = some i →
      let x : SafSlot := { n := i, master := q.src, pool := false, slice := q.slice, txid := q.txid, req := q }
      ∃ s' : State, exec (.safHeaderArrive .clean) s = .next (s'.safAdmit x (some d) .clean) ∧ s'.saf.slots = s.saf.slots ++ [x] ∧
        s'.saf.seq = s.saf.seq ∧ s'.saf.admq = s.saf.admq ∧ (s'.nif 0x181).inbox = [] ∧ { s' with saf := s.saf, ni := s.ni } = s) ∧
    (∀ (s : State) (q : Pkt) (rest : List Pkt) (i : Nat), s.prim ≠ .halt → s.saf.admq = q :: rest → s.safCanGrant q = true →
      s.saf.freeSlot = some i → noData q = false → ∃ s' : State, exec .safPoolGrant s =
        .next (s'.send 0x181 { net := .rsp, dst := q.src, opc := 0x10, txid := q.txid, slice := q.slice, cnt := 0x80 }) ∧
        s'.saf.admq = rest ∧ (∃ x, s'.saf.slots = s.saf.slots ++ [x] ∧ x.n = i ∧ x.master = q.src ∧ x.pool = true ∧ x.seq = none) ∧
        { s' with saf := s.saf } = s) ∧
    (∀ s : State, s.saf.admq = [] → exec .safPoolGrant s = .next s) ∧
    (∀ (s : State) (q : Pkt), s.safCanGrant q = true → s.saf.slots.length + s.saf.credits < 96 ∧ s.saf.poolUse < s.safPoolSize ∧
      s.saf.poolOf q.src.toNat < s.safPoolmax q.src.toNat) ∧
    (∀ (s : State) (t : SafSlot), s.prim ≠ .halt → (∀ p ∈ (s.nif 0x181).inbox, p.net ≠ .rsp) → s.saf.oldest = some t →
      (t.state = .done → exec .safComplete s = .next (s.safLeave t)) ∧
      (t.state = .granted → t.req.opc = 0x14 → exec .safComplete s = .next s)) ∧
    (∀ (x : Saf) (t : SafSlot), x.oldest = some t → t ∈ x.slots ∧ ∀ u ∈ x.slots, u.seq.isSome = true → t.seq.getD 0 ≤ u.seq.getD 0)) ∧
  ((∀ (s : State) (n : Fin 32) (v : BitVec 32),
      let es := (List.range 32).map (fun i => if i = n.val then fld v.toNat 0 25 else s.safEnt i)
      (safLegal es (s.rf .SAF_POOLDEF 0 7) = false → ∃ t, exec (.safEntWrite n v) s = .next t ∧ t.rf .SAF_STATUS 30 1 = 1 ∧
        (∀ i, i < 32 → t.safEnt i = s.safEnt i) ∧ { t with regs := s.regs, cyc := s.cyc } = s) ∧
      (safLegal es (s.rf .SAF_POOLDEF 0 7) = true → ∃ s' : State, exec (.safEntWrite n v) s = .next s'.safGrant ∧
        s'.safEnt n = fld v.toNat 0 25 ∧ (∀ i, i < 32 → i ≠ n.val → s'.safEnt i = s.safEnt i) ∧
          { s' with regs := s.regs, cyc := s.cyc } = s)) ∧
    (∀ (s : State) (v : BitVec 32),
      (safLegal s.safEnts (fld v.toNat 0 7) = true → ∃ t, exec (.safPooldefWrite v) s = .next t ∧
        t.rf .SAF_POOLDEF 0 7 = fld v.toNat 0 7 ∧ { t with regs := s.regs, cyc := s.cyc } = s) ∧
      (safLegal s.safEnts (fld v.toNat 0 7) = false → ∃ t, exec (.safPooldefWrite v) s = .next t ∧
        t.rf .SAF_STATUS 30 1 = 1 ∧ t.rf .SAF_POOLDEF 0 7 = s.rf .SAF_POOLDEF 0 7 ∧ { t with regs := s.regs, cyc := s.cyc } = s)) ∧
    (∀ (es : List Nat) (d : Nat), safLegal es d = true → ((es.filter safValid).map safResv).sum ≤ 96 ∧
      (∃ e ∈ es, safValid e = true ∧ safMaster e = 0x180 ∧ 0 < safResv e)) ∧
    (∀ (s : State) (fid : Fid) (i : BitVec 8) (e : SrcEnt), tracked fid.toNat = true → s.srcEnt fid.toNat i.toNat = some e →
      (e.req.opc = 0x14 → e.state = .ready ∨ e.state = .poolWait ∨ e.state = .held → e.waited = false →
        e.since + max 1 (s.rf .SAF_WAIT 0 20) ≤ s.tick → exec (.safWaitExpire fid i) s =
          .next ((((s.setSrc fid.toNat i.toNat (some { e with waited := true })).bump .SAF_WAITCNT).count 0x181 67).raiseNi
            fid.toNat 10 1)) ∧
      (e.waited = true ∨ s.tick < e.since + max 1 (s.rf .SAF_WAIT 0 20) → exec (.safWaitExpire fid i) s = .next s)) ∧
    (∀ (s : State) (i : BitVec 8) (r : SpineReq), s.saf.spine[i.toNat]? = some r → r.waited = false →
      r.since + max 1 (s.rf .SAF_WAIT 0 20) ≤ s.tick → ∃ t, exec (.safWaitExpire 0x180 i) s = .next t ∧
        t.saf.spine[i.toNat]? = some { r with waited := true } ∧ t.reg .SAF_WAITCNT = min (s.reg .SAF_WAITCNT + 1) 0xFFFFFFFF ∧
        (∃ x ∈ t.fc.queue, x.src = 32 * 28 + 10 ∧ 1 ≤ x.level)))

/-! ### Home slices and caching partners -/

/-- The bucket of a physical address is the exclusive or of its bits 17:6, 29:18, 41:30 and, extended with zeros, 51:42, a number below
4,096, and a caching partner that answers a bucket `Recall` picks, among the lines it lists, those of that same function (R158). -/
def Obligations.BucketOfAnAddress : Prop :=
  (∀ pa : BitVec 52, bucketOf (pa.toNat / 64) =
    (pa.extractLsb' 6 12 ^^^ pa.extractLsb' 18 12 ^^^ pa.extractLsb' 30 12 ^^^ (pa.extractLsb' 42 10).zeroExtend 12).toNat ∧
    bucketOf (pa.toNat / 64) < 4096) ∧
  (∀ (s : State) (f b line : Nat) (c : CLine), line < 2 ^ 46 → (cacheKey f line, c) ∈ s.cache →
    (line ∈ s.bucketLines f b ↔ bucketOf line = b))

/-- A request at the head of a lane that wins is decided, a fenced home answers it, and the first waiter of an ended flow is decided
with the others behind it; a writeback that wins is judged by OWNER; `GetS` on a line in I makes the requester OWNER in EM and reads
memory, and a flow's end frees its entry (R142, R143, R150, R152, R167).
Where a clause says that a command whose event is not due changes nothing, that is the model's choice (log 2).
Completion: its clauses conclude that exec answers next, with the command's own effect, under conditions on the state and the
operands alone, for HOME_REQUEST_DECIDE, HOME_WRITEBACK_DECIDE, HOME_WAITER_ENTER. -/
def Obligations.HomesDecideRequestsAndWritebacks : Prop :=
  ((∀ (s s1 : State) (k : Fin 64) (lane : BitVec 2) (q : Pkt) (e : WordErrs), s.laneHead k (laneIdx lane) = some q → q.opc ≠ 0x1C →
      (s.homeFenced k = true → exec (.homeRequestDecide k lane e .clean) s = .next ((s.dropBoxed k q).fencedAnswer k q)) ∧
      (s.homeFenced k = false → s.fc.inject = none → s.waiterOn k (laneIdx lane) = false → s.homeWins k (laneIdx lane) = some s1 →
        exec (.homeRequestDecide k lane e .clean) s = .next (s1.decideReq k q e) ∧
        exec (.homeRequestDecide k lane e .uncorrectable) s = .next ((s1.raiseNi (homeFid k) 2 2).fenceHome k))) ∧
    (∀ (s : State) (k : Fin 64) (lane : BitVec 2) (e : WordErrs) (t : WordErr), s.laneHead k (laneIdx lane) = none →
      exec (.homeRequestDecide k lane e t) s = .next s) ∧
    (∀ (s : State) (k : Nat) (q : Pkt) (e : WordErrs),
      let d := if q.needsData then dataOf (s.hbox k) q else none
      let item := (q, (d.map (·.data)).getD [], (d.map (·.psn)).getD false)
      let s0 := s.setHbox k (boxWithout (s.hbox k) q)
      (homeServes q = false ∨ badAop q = true →
        s.decideReq k q e = (s0.homeProto k 1 (s0.homeCode k q.lineOf) q (fidUnit (homeFid k))).homeComp k q 9) ∧
      (homeServes q = true → badAop q = false →
        (∀ n, s.waitersOf k q.lineOf = some n → s.decideReq k q e = s0.joinWait k item) ∧
        (s.waitersOf k q.lineOf = none → s.fc.inject = none →
          s.decideReq k q [] = s0.newFlow k q item.2.1 item.2.2 ∧
          (∀ w < 12, (s.dirWay k (dirSet q.lineOf) w).isSome = true →
            s.decideReq k q [(2 * w, .uncorrectable)] = s.dirBad k (dirSet q.lineOf) w false)))) ∧
    (∀ (s s1 : State) (k : Fin 64) (q : Pkt) (e : WordErrs), s.nextJudge k = none → s.putHead k = some q →
      (s.homeFenced k = true → exec (.homeWritebackDecide k e) s = .next ((s.dropBoxed k q).fencedAnswer k q)) ∧
      (s.homeFenced k = false → s.homeWins k 1 = some s1 → exec (.homeWritebackDecide k e) s = .next (s1.decidePut k q e))) ∧
    (∀ (s : State) (k : Fin 64) (j : Judge) (q : Pkt × List Byte × Bool) (qs : List (Pkt × List Byte × Bool)), s.nextJudge k = some j →
      j.puts = q :: qs → s.fc.inject = none →
      exec (.homeWritebackDecide k []) s = .next ((s.dropJudge k j).judgePut k q.1 q.2.1 q.2.2 j.bkt)) ∧
    (∀ (s : State) (k : Fin 64) (e : WordErrs), s.nextJudge k = none → s.putHead k = none →
      exec (.homeWritebackDecide k e) s = .next s) ∧
    (∀ (s : State) (k : Nat) (q : Pkt),
      let d := if q.needsData then dataOf (s.hbox k) q else none
      let item := (q, (d.map (·.data)).getD [], (d.map (·.psn)).getD false)
      let s0 := s.setHbox k (boxWithout (s.hbox k) q)
      (∀ h x e, s.trkOf k q.lineOf = some (h, x) → s.decidePut k q e = s0.setTrk k h (some { x with held := x.held ++ [item] })) ∧
      (s.trkOf k q.lineOf = none → (s.hm k).judge = [] → s.fc.inject = none →
        s.decidePut k q [] = s0.judgePut k q item.2.1 item.2.2 true)) ∧
    (∀ (s : State) (k : Nat) (q : Pkt) (data : List Byte) (poison unknown : Bool) (w i : Nat) (d : DirEnt), k < 64 →
      s.dirFind k q.lineOf = some (w, d) → cacheIdx q.src.toNat = some i →
      (2 ≤ d.st ∧ d.owner = i → s.judgePut k q data poison unknown = (((s.plruTouch k (dirSet q.lineOf) w).setDir k (dirSet q.lineOf) w
        (if (d.sharers.filter (· != i)).isEmpty then none else some { d with st := 1, owner := 0 })).acceptPut k q data poison)) ∧
      (d.st < 2 ∨ d.owner ≠ i → (s.judgePut k q data poison unknown).reg .HS_STALE_CNT (hsBase k) =
        min (s.reg .HS_STALE_CNT (hsBase k) + 1) 0xFFFFFFFF)) ∧
    (∀ (s s1 : State) (k : Fin 64) (line : Nat) (q : Pkt × List Byte × Bool) (ws : List (Pkt × List Byte × Bool)),
      s.waiterReady k = some (line, q, ws) → s.homeFenced k = false → s.homeWins k (laneIdx q.1.vc) = some s1 → s.fc.inject = none →
      exec (.homeWaiterEnter k []) s =
        .next ((s1.updHm k (fun m => { m with ready := m.ready.filter (fun r => r.1 != line) })).newFlow k q.1 q.2.1 q.2.2 ws)) ∧
    (∀ (s : State) (k : Fin 64) (e : WordErrs), (s.hm k).ready = [] → exec (.homeWaiterEnter k e) s = .next s)) ∧
  ((∀ (s : State) (k : Fin 64) (h way i : Nat) (e : TrkEnt), h < 256 → way < 12 → s.trk k h = some e → e.req.opc = 1 →
      cacheIdx e.req.src.toNat = some i → (s.hm k).newest e.line = none → e.owed = [] → e.buf = none →
      let b := ((s.takeWay k h way i).hm k).lineBufs
      (s.serveI k h way).dirWay k (dirSet e.line) way = some { tag := dirTag e.line, st := 2, owner := i } ∧
      ∃ e', (s.serveI k h way).trk k h = some e' ∧ e'.st = .mem ∧ (b < 16 → e'.memRd = true ∧ e'.wantRd = false) ∧
        (16 ≤ b → e'.wantRd = true) ∧ e'.line = e.line ∧ e'.req = e.req) ∧
    (∀ (s : State) (k : Fin 64) (h : Nat) (e : TrkEnt) (d : List Byte) (p : Bool), s.trk k h = some e → e.req.opc = 1 →
      e.buf = some (d, p) → s.complete k h = (s.send (homeFid k) (dataFor e.req (if e.prior.isNone then 2 else 1) d p)).setTrk k h
        (some { e with st := .ack, granted := true, memRd := false, buf := none })) ∧
    (∀ (s : State) (k h : Nat) (e : TrkEnt), s.trk k h = some e → e.held = [] → e.waiters = [] →
      (s.endFlow k h).trk k h = none ∧ { s.endFlow k h with home := s.home } = s))

/-- Answers at a home go to the flow that they name: `CompAck` ends the flow that waits for it, snoop answers and memory answers move
theirs on, one that nothing awaits is a stray or a protocol fault, and late memory data of an expired flow is discarded (R173, R177,
R179, R180, R183).
Where a clause says that a command whose event is not due changes nothing, that is the model's choice (log 2).
A `CompAck` is matched by its line as well by the model's reading (log 100).
Completion: its clauses conclude that exec answers next, with the command's own effect, under conditions on the state and the
operands alone, for HOME_COMPACK, HOME_INVACK, HOME_SNOOP_DATA, HOME_MEM_DATA, HOME_MEM_COMP. -/
def Obligations.HomesTakeAnswers : Prop :=
  (∀ (s s1 : State) (k : Fin 64) (p : Pkt), s.respHead k = some p → s.takeResp k p = some s1 →
    (p.net = .rsp → p.opc = 2 →
      (∀ h e, (s1.hm k).trk = [(h, some e)] → e.st = .ack → e.req.src = p.src → e.req.txid = p.txid → e.line = p.line.toNat →
        s1.homeFenced k = false → exec (.homeCompack k) s = .next (s1.endFlow k h)) ∧
      ((∀ h e, (h, some e) ∈ (s1.hm k).trk →
          ¬(e.st = .ack ∧ e.req.src = p.src ∧ e.req.txid = p.txid ∧ e.line = p.line.toNat)) →
        exec (.homeCompack k) s = .next (s1.stray k p))) ∧
    (p.net = .rsp → p.opc = 1 → p.status = 9 → exec (.homeInvack k) s = .next (s1.badInvack k p)) ∧
    (p.net = .rsp → p.opc = 1 → p.status ≠ 9 → p.txid.toNat < 0xF00 →
      (∀ h, s1.snoopOwed k p = some h →
        exec (.homeInvack k) s = .next (s1.snoopAnswer k h p.src.toNat none (p.status == 8))) ∧
      (s1.snoopOwed k p = none → exec (.homeInvack k) s = .next (s1.stray k p))) ∧
    (p.net = .dat → 0x10 ≤ p.opc.toNat →
      (∀ h, s1.snoopOwed k p = some h →
        exec (.homeSnoopData k) s = .next (s1.snoopAnswer k h p.src.toNat (some (p.data, p.psn)) false)) ∧
      (s1.snoopOwed k p = none → exec (.homeSnoopData k) s = .next (s1.stray k p))) ∧
    (p.net = .dat → p.opc = 8 → p.txid.toNat < 256 →
      (∀ e, s1.trk k p.txid.toNat = some e → e.memRd = true → e.buf = none → e.st = .mem → exec (.homeMemData k) s =
        .next ((s1.setTrk k p.txid.toNat (some { e with buf := some (p.data, p.psn) })).complete k p.txid.toNat)) ∧
      (s1.trk k p.txid.toNat = none → (s1.hm k).lateMem = [] → exec (.homeMemData k) s = .next (s1.memUnexpected k p)) ∧
      (s1.trk k p.txid.toNat = none → p.txid.toNat ∈ (s1.hm k).lateMem → exec (.homeMemData k) s = .next
        ((s1.bump .HS_STRAY_CNT (hsBase k)).updHm k (fun m => { m with lateMem := m.lateMem.erase p.txid.toNat })))) ∧
    (p.net = .rsp → p.opc = 0x10 → 256 ≤ p.txid.toNat →
      (∀ w q, SMap.get none (s1.hm k).wbufs (p.txid.toNat - 256) = some w → w.sent = true → w.put = some q → w.flow = none →
        p.status = 0 → exec (.homeMemComp k) s =
          .next (((s1.freeWb k (p.txid.toNat - 256)).putAck k q false).issueWr k w.line)) ∧
      (SMap.get none (s1.hm k).wbufs (p.txid.toNat - 256) = none → exec (.homeMemComp k) s = .next (s1.memUnexpected k p)))) ∧
  (∀ (s : State) (k : Fin 64), s.respHead k = none → exec (.homeCompack k) s = .next s ∧ exec (.homeInvack k) s = .next s ∧
    exec (.homeSnoopData k) s = .next s ∧ exec (.homeMemData k) s = .next s ∧ exec (.homeMemComp k) s = .next s)

/-- A home's timers: an expired tracker entry raises TIMEOUT and its flow is completed; the scrubber reads a whole set, counts a
corrected word and fences the slice on an uncorrectable one; a window's end decides HOT and clears COUNT, but for transfers of that
very FCLK; CLEAR drops the home's predictor entries in the next FCLK, and no other's (R149, R183, R193, R194).
Where a clause says that a command whose event is not due changes nothing, that is the model's choice (log 2).
Completion: its clauses conclude that exec answers next, with the command's own effect, under conditions on the state and the
operands alone, for HOME_TRACKER_EXPIRE, DIR_SCRUB, PRED_WINDOW_END, PRED_CLEAR. -/
def Obligations.HomeTimersScrubAndPredictor : Prop :=
  (∀ (s : State) (k : Fin 64) (h : BitVec 8) (e : TrkEnt), s.trk k h.toNat = some e →
    let limit := usTicks (max 1 (s.rf .HS_TMO 0 16 (hsBase k)))
    (s.tick < e.start + limit → exec (.homeTrackerExpire k h) s = .next s) ∧
    (e.start + limit ≤ s.tick → s.homeFenced k = false →
      exec (.homeTrackerExpire k h) s = .next ((s.raiseNi (homeFid k) 9 1 h.toNat).expireFlow k h.toNat e)) ∧
    (e.st = .ack → s.expireFlow k h.toNat e = s.endFlow k h.toNat)) ∧
  (∀ (s : State) (k : Fin 64), s.rf .HS_SCRUB 0 16 (hsBase k) ≠ 0 → s.homeFenced k = false →
    (s.hm k).scrubAt + s.rf .HS_SCRUB 0 16 (hsBase k) ≤ s.tick → s.fc.inject = none →
    let s1 := s.setHm k { s.hm k with scrub := ((s.hm k).scrub + 1) % 8192, scrubAt := s.tick }
    exec (.dirScrub k [] []) s = .next s1 ∧
    (∀ w < 12, (s.dirWay k (s.hm k).scrub w).isSome = true →
      exec (.dirScrub k [(w, .corrected)] []) s = .next (s1.bump .HS_DIR_CORR (hsBase k)) ∧
      exec (.dirScrub k [] [(w, .corrected)]) s = .next (s1.bump .HS_DIR_CORR (hsBase k)) ∧
      exec (.dirScrub k [(w, .uncorrectable)] []) s = .next (s1.dirBad k (s.hm k).scrub w false) ∧
      exec (.dirScrub k [] [(w, .uncorrectable)]) s = .next (s1.dirBad k (s.hm k).scrub w false))) ∧
  (∀ (hi lo t : Nat) (e : PredEnt), (e.windowEnd hi lo t).tag = e.tag ∧ (e.windowEnd hi lo t).was = e.hot ∧
    (e.recAt ≠ t + 1 → (e.windowEnd hi lo t).count = 0 ∧
      ((e.windowEnd hi lo t).hot = true ↔ max hi 1 ≤ e.count ∨ e.hot = true ∧ min lo (max hi 1) ≤ e.count)) ∧
    (e.recAt = t + 1 → (e.windowEnd hi lo t).count = min e.recent 63 ∧
      ((e.windowEnd hi lo t).hot = true ↔
        max hi 1 ≤ e.count - e.recent ∨ e.hot = true ∧ min lo (max hi 1) ≤ e.count - e.recent))) ∧
  (∀ (s : State) (k : Fin 64), s.ns % (1000 * (max 1 (s.hm k).predWin : Nat)) = 0 → s.ns ≠ (s.hm k).predAt →
    ∃ t, exec (.predWindowEnd k) s = .next t ∧ (t.hm k).predAt = s.ns ∧ (t.hm k).winAt = s.tick + 1 ∧
      (∀ i, i < 2048 → SMap.get none t.pred (2048 * k + i) = (SMap.get none s.pred (2048 * k + i)).map
        (PredEnt.windowEnd (s.rf .HS_PRED_CFG 10 6 (hsBase k)) (s.rf .HS_PRED_CFG 16 6 (hsBase k)) s.tick)) ∧
      (∀ key, key / 2048 ≠ k.val → SMap.get none t.pred key = SMap.get none s.pred key) ∧
      { t with pred := s.pred, home := s.home } = s) ∧
  (∀ (s : State) (k : Fin 64), ∃ t, exec (.predClear k) s = .next t ∧ (t.hm k).predClearAt = some (s.tick + 1) ∧
    { t with home := s.home } = s) ∧
  (∀ (s : State) (k : Fin 64) (at_ : Nat), (s.hm k).predClearAt = some at_ →
    (s.tick < at_ → s.predEmpty k = s) ∧
    (at_ ≤ s.tick → ∃ t, t = s.predEmpty k ∧ (∀ i, i < 2048 → (SMap.get none t.pred (2048 * k + i)).isNone = true) ∧
      (∀ key, key / 2048 ≠ k.val → SMap.get none t.pred key = SMap.get none s.pred key) ∧ (t.hm k).predClearAt = none ∧
      { t with pred := s.pred, home := s.home } = s))

/-- A bucket moves between homes: the old home releases it once the drain is over and nothing of it is left there, the program
controller does so for a fenced one whose dirty lines are out, the new home enters reconstruct mode on the release, and a late sweep
raises TIMEOUT once (R42, R161, R165, R167).
Where a clause says that a command whose event is not due changes nothing, that is the model's choice (log 2).
Completion: its clauses conclude that exec answers next, with the command's own effect, under conditions on the state and the
operands alone, for BUCKET_RELEASE_SEND, BUCKET_RELEASE_PROXY, BUCKET_RELEASE_RECEIVE, BUCKET_SWEEP_TIMEOUT. -/
def Obligations.BucketsMoveBetweenHomes : Prop :=
  (∀ (s : State) (k : Fin 64) (b : BitVec 12) (mv : Nat × Nat × Nat), s.moveOf k b.toNat = some mv →
    (s.epo.dual = true → exec (.bucketReleaseSend k b) s = .next s ∧ exec (.bucketReleaseProxy k b) s = .next s) ∧
    (s.epo.dual = false → s.homeFenced k = false → s.bucketIdle k b.toNat = true →
      exec (.bucketReleaseSend k b) s = .next (s.releaseBucket (homeFid k) mv)) ∧
    (s.bucketIdle k b.toNat = false → exec (.bucketReleaseSend k b) s = .next s) ∧
    (s.epo.dual = false → s.homeFenced k = true → (s.hm k).wbufs = [] → (s.hm k).wbWait = [] →
      exec (.bucketReleaseProxy k b) s = .next (s.releaseBucket 0x180 mv)) ∧
    (s.homeFenced k = false → exec (.bucketReleaseProxy k b) s = .next s)) ∧
  (∀ (s : State) (src : Nat) (mv : Nat × Nat × Nat), ∃ (s1 : State) (x : BitVec 12), s.releaseBucket src mv =
    s1.send src { net := .req, dst := BitVec.ofNat 10 (homeFid mv.2.2), opc := 0x1C, rlx := true, txid := x,
                  addr := BitVec.ofNat 52 mv.1 } ∧
    x ∈ (s1.nif src).own ∧ s1.epo.moves = s.epo.moves.erase mv ∧ mv.1 ∉ (s1.hm mv.2.1).recon ∧ mv.1 ∉ (s1.hm mv.2.1).toSweep ∧
    { s1 with epo := s.epo, home := s.home, dir := s.dir, ni := s.ni, ctr := s.ctr, regs := s.regs, cyc := s.cyc } = s) ∧
  (∀ (s s1 : State) (k : Fin 64) (q : Pkt), s.laneHead k 2 = some q → q.opc = 0x1C → s.homeWins k 2 = some s1 →
    exec (.bucketReleaseReceive k) s = .next (((s1.setHbox k ((s1.hbox k).erase q)).updNi q.src.toNat (fun n =>
      { n with own := n.own.erase q.txid })).enterRecon k (q.addr.toNat % 4096))) ∧
  (∀ (s : State) (k : Fin 64), (∀ i, s.laneHead k i = none) → exec (.bucketReleaseReceive k) s = .next s) ∧
  (∀ (s : State) (k : Fin 64) (i : Fin 4) (w : Sweep), SMap.get none (s.hm k).sweeps i = some w →
    let limit := usTicks (16 * max 1 (s.rf .HS_TMO 0 16 (hsBase k)))
    (w.late = true ∨ w.gone = true ∨ s.tick < w.start + limit → exec (.bucketSweepTimeout k i) s = .next s) ∧
    (w.late = false → w.gone = false → w.start + limit ≤ s.tick → ∃ s1 : State, { s1 with home := s.home } = s ∧
      SMap.get none (s1.hm k).sweeps i = some { w with late := true } ∧
      exec (.bucketSweepTimeout k i) s = .next (s1.raiseNi (homeFid k) 9 1 w.bucket)))

/-- A caching partner's side: a snoop is answered by the tables of R151 and R171 once the partner has a credit, a line that its cores
may have written with bytes left open (log 10); a coherent answer moves the line and `CompAck` follows; a line reaches M only with
every `InvAck` and its data (R139, R151, R171, R172).
Where a clause says that a command whose event is not due changes nothing, that is the model's choice (log 2).
Completion: its clauses conclude that exec answers next, with the command's own effect, under conditions on the state and the
operands alone, for CACHE_SNOOP, CACHE_ANSWER. -/
def Obligations.CachingPartnersFollowTheLineTables : Prop :=
  (∀ (s : State) (fid : Fid) (b : Beat), isCaching fid.toNat = true → (s.nif fid.toNat).f2p = [b] → b.net = .snp →
    b.rqfid ≠ 0x3FF →
    (0 < (s.nif fid.toNat).given.rsp → 0 < (s.nif fid.toNat).given.dat → exec (.cacheSnoop fid) s =
      .next ((((s.silent fid.toNat b.line.toNat).setNi fid.toNat { s.nif fid.toNat with f2p := [] }).answerSnoop
        fid.toNat b).recallStep fid.toNat)) ∧
    ((s.nif fid.toNat).given.rsp = 0 → (s.nif fid.toNat).given.dat = 0 → exec (.cacheSnoop fid) s = .next s)) ∧
  (∀ (s : State) (f line : Nat), ((s.cline f line).st ≠ .e → s.silent f line = s) ∧
    ((s.cline f line).st = .e → ∃ t, t = s.silent f line ∧ ((t.cline f line).st = .e ∨ (t.cline f line).st = .m) ∧
      (t.cline f line).data = (s.cline f line).data ∧ { t with cache := s.cache, free := s.free } = s)) ∧
  (∀ (s : State) (f : Nat) (b : Beat) (next : CSt), snpAct b.opc.toNat (s.cline f b.line.toNat).st = .ack next →
    ∃ t, t = s.answerSnoop f b ∧ (t.cline f b.line.toNat).st = next ∧
      (t.nif f).beats = (s.nif f).beats ++ [{ net := .rsp, opc := 1, tag := b.tag, peer := b.rqfid, line := b.line }] ∧
      { t with cache := s.cache, ni := s.ni } = s) ∧
  (∀ (s : State) (f : Nat) (b : Beat) (next : CSt) (o : Nat),
    let c := s.cline f b.line.toNat
    snpAct b.opc.toNat c.st = .data o next →
    ∃ t, t = s.answerSnoop f b ∧ (t.cline f b.line.toNat).st = next ∧
      (∃ x : Beat, (t.nif f).beats = (s.nif f).beats ++ [x] ∧ x.net = .dat ∧ x.opc = BitVec.ofNat 6 o ∧ x.peer = b.rqfid ∧
        x.line = b.line ∧ x.poison = c.poison ∧ (c.st ≠ .m → (c.st = .miA → c.fixed = true) → x.data = c.data)) ∧
      { t with cache := s.cache, ni := s.ni, free := s.free } = s) ∧
  (∀ (s : State) (fid : Fid) (b : Beat) (line : Nat) (c : CLine), isCaching fid.toNat = true → (s.nif fid.toNat).f2p = [b] →
    b.net = .dat ∨ b.net = .rsp → 0 < (s.nif fid.toNat).given.rsp → s.clineOf fid.toNat b.tag = some (line, c) →
    exec (.cacheAnswer fid) s = .next (((s.setNi fid.toNat { s.nif fid.toNat with f2p := [] }).lineAnswer fid.toNat line c b).recallStep
      fid.toNat)) ∧
  (∀ (s : State) (f line : Nat) (c : CLine) (b : Beat), c.st = .isD → b.net = .dat → b.opc = 10 →
    ((s.lineAnswer f line c b).cline f line).st = .e ∧
    (∃ x : Beat, ((s.lineAnswer f line c b).nif f).beats = (s.nif f).beats ++ [x] ∧ x.net = .rsp ∧ x.opc = 2 ∧ x.peer = b.peer)) ∧
  (∀ (s : State) (f line : Nat) (c : CLine) (peer : Fid) (n : Nat), c.st = .imAd → c.cnt = some n →
    (((s.settle f line c peer).cline f line).st = .m ↔ n ≤ c.acks ∧ (c.df = true → c.got = true)))

/-! ### Shared SRAM -/

/-- A bank performs an access of each port in one cycle; the fabric side refuses a master that no region admits, stores a write's bytes
and answers OK, reads a line's bytes, and takes two cycles for an atomic; the scrubber walks the rows (R222, R227, R228, R229,
R233).
Where a clause says that a command whose event is not due changes nothing, that is the model's choice (log 2).
Completion: its clauses conclude that exec answers next, with the command's own effect, under conditions on the state and the
operands alone, for BANK_ACCESS, SRAM_SCRUB. -/
def Obligations.SharedSramAccesses : Prop :=
  (∀ (s : State) (node : Fin 16) (bank : Fin 4) (fe le : WordErrs), s.prim ≠ .halt → s.fc.inject = none →
    s.arbDone (.bank node bank) = false →
    exec (.bankAccess node bank fe le .clean) s = .next (s.bankCycle node bank fe le) ∧
    exec (.bankAccess node bank fe le .uncorrectable) s = .next ((s.raiseNi (ssbFid node) 2 2).fenceNi (ssbFid node))) ∧
  (∀ (s : State) (node : Fin 16) (bank : Fin 4) (fe le : WordErrs), (s.bankAt node bank).atom = none → s.sbox node = [] →
    s.locOf node = [] → ∃ t, t = s.bankCycle node bank fe le ∧
      { t with arbs := s.arbs, bank := s.bank, regs := s.regs, cyc := s.cyc } = s) ∧
  (∀ (s : State) (k b o : Nat) (q : Pkt), k < 16 → b < 4 → q.opc = 0x12 → s.regionOk o q.src.toNat q.slice.toNat true false = false →
    s.fabPerform k b o q [] = (((s.count (ssbFid k) (64 + b)).bankTake k q).regionDeny o q.src.toNat false false).answer
      (ssbFid k) q 1) ∧
  (∀ (s : State) (k b o : Nat) (q d : Pkt), k < 16 → b < 4 → q.opc = 0x13 → q.size = 6 → s.fc.inject = none → wrData (s.sbox k) q = some d →
    o % 64 = 0 → d.be = BitVec.allOnes 64 → d.data.length = 64 → s.regionOk o q.src.toNat q.slice.toNat false true = true →
    ∃ s1 : State, s.fabPerform k b o q [] = s1.answer (ssbFid k) q 0 ∧
      (∀ i, i < 64 → memByte s1.sram (o + i) = d.data.getD i 0) ∧
      (∀ a, (a < o ∨ o + 64 ≤ a) → memByte s1.sram a = memByte s.sram a) ∧
      { s1 with sram := s.sram, sramBad := s.sramBad, ctr := s.ctr, regs := s.regs, cyc := s.cyc, ni := s.ni } = s) ∧
  (∀ (s : State) (k b o : Nat) (q : Pkt), k < 16 → b < 4 → q.opc = 0x12 → s.fc.inject = none → s.sramBadIn o (2 ^ q.size.toNat) = [] →
    s.regionOk o q.src.toNat q.slice.toNat true false = true → ∃ s1 : State, s.fabPerform k b o q [] =
      s1.send (ssbFid k) { dataFor q 0 (s.sramRead (o / 64 * 64) 64) with be := spanBe (o % 64) (2 ^ q.size.toNat) } ∧
      { s1 with ctr := s.ctr, regs := s.regs, cyc := s.cyc, ni := s.ni } = s) ∧
  (∀ (s : State) (k b : Nat) (q : Pkt) (old o : Nat), s.sramOff k q = some o → ∃ s1 : State, s.atomFinish k b q old =
      s1.send (ssbFid k) { net := .rsp, dst := q.src, opc := 6, txid := q.txid, slice := q.slice, len := 2,
                           ops := [BitVec.ofNat 64 old] } ∧
      s1.sramRead o (2 ^ q.size.toNat) = leBytes (2 ^ q.size.toNat) (aopResult q.aop.toNat (2 ^ q.size.toNat) old
        (q.ops.getD 0 0).toNat (q.ops.getD 1 0).toNat) ∧
      (∀ a, (a < o ∨ o + 2 ^ q.size.toNat ≤ a) → memByte s1.sram a = memByte s.sram a) ∧ (s1.bankAt k b).atom = none) ∧
  (∀ (s : State) (node : Fin 16) (bank : Fin 4), s.rf .SSB_SCRUB 0 16 (ssbBase node) ≠ 0 → s.niFenced (ssbFid node) = false →
    s.fc.inject = none → (s.bankAt node bank).scrubAt + s.rf .SSB_SCRUB 0 16 (ssbBase node) ≤ s.tick →
    s.sramBadIn ((4 * node.val + bank.val) * 2 ^ 19 + 64 * (s.bankAt node bank).scrub) 64 = [] →
    (s.subsBusy node bank).contains ((s.bankAt node bank).scrub % 8) = false →
    ∃ t, exec (.sramScrub node bank []) s = .next t ∧
      (t.bankAt node bank).scrub = ((s.bankAt node bank).scrub + 1) % 8192 ∧ (t.bankAt node bank).scrubAt = s.tick ∧
      { t with bank := s.bank } = s) ∧
  (∀ (s : State) (node : Fin 16) (bank : Fin 4) (e : WordErrs), s.rf .SSB_SCRUB 0 16 (ssbBase node) = 0 ∨
    (s.subsBusy node bank).contains ((s.bankAt node bank).scrub % 8) = true →
    exec (.sramScrub node bank e) s = .next s)

/-! ### Queue managers -/

/-- A running manager serves the request at the front, when none of its queue is being served: Enq, Doorbell and Deq are decided by
their queue, one of another opcode is BAD_REQ with PROTOCOL; a full ring answers QUEUE_FULL, a message that is taken goes to its
slot and its meta entry, then moves TAIL and keeps HEAD, and an empty pull queue answers CNT 0 and arms its notification (R236, R240
to R245). That the requests of one queue are served one at a time is the model's choice (log 101).
Where a clause says that a command whose event is not due changes nothing, that is the model's choice (log 2).
Completion: its clauses conclude that exec answers next, with the command's own effect, under conditions on the state and the
operands alone, for ENQ, DOORBELL, DEQ. -/
def Obligations.QueueRequestsAreServed : Prop :=
  (∀ (s : State) (n : Fin 4) (q : Pkt), s.qmLive n = true → s.qmReqs n = [q] → qmOf (reqQueue q) = n →
    s.queueBusy (reqQueue q) q.opc = false → s.fc.inject = none →
    let lost := (s.raiseNi (qmFid n) 2 2).fenceNi (qmFid n)
    (∀ d, q.opc = 0x17 → s.enqData n q = some d → exec (.enq n .clean) s = .next ((s.qmTake n q).enqueue n q d) ∧
      exec (.enq n .uncorrectable) s = .next lost) ∧
    (q.opc = 0x19 → exec (.doorbell n .clean) s = .next ((s.qmTake n q).doorbell n q) ∧
      exec (.doorbell n .uncorrectable) s = .next lost) ∧
    (q.opc = 0x18 → exec (.deq n .clean) s = .next ((s.qmTake n q).dequeue n q) ∧ exec (.deq n .uncorrectable) s = .next lost) ∧
    (∀ table, q.opc = 0x12 → exec (.deq n table) s = .next ((((s.qmTake n q).raiseNi (qmFid n) 6 1 q.txid.toNat).answer (qmFid n) q 9).sinkData
      (qmFid n) q))) ∧
  (∀ (s : State) (n : Fin 4) (table : WordErr), s.qmLive n = false ∨ s.qmReqs n = [] →
    exec (.enq n table) s = .next s ∧ exec (.doorbell n table) s = .next s ∧ exec (.deq n table) s = .next s) ∧
  (∀ (s : State) (n : Nat) (q data : Pkt),
    let d := s.qdesc (reqQueue q)
    s.queueReset (reqQueue q) = false → qMode d = 1 ∨ qMode d = 2 → qPwr d = false → sliceFits d q.slice.toNat = true →
    s.queueLive (reqQueue q) = true → data.data.length ≤ qSlot d → s.frozenOut (reqQueue q) q = false →
    (s.ringFull (reqQueue q) d = true → (s.qdyn (reqQueue q)).fullSaid = true → s.enqueue n q data = s.qmFull n q) ∧
    (s.ringFull (reqQueue q) d = false → ∃ t, t = s.enqueue n q data ∧ { t with qm := s.qm } = s ∧
      ∃ j : RingJob, (t.qmAt n).jobs = (s.qmAt n).jobs ++ [j] ∧ j.queue = reqQueue q ∧ j.data = data.data ∧ j.bad = data.psn ∧
        j.why = .put q { len := data.data.length, src := q.src, slice := q.slice, ns := q.stamp })) ∧
  (∀ (s : State) (n : Nat) (j : RingJob) (q : Pkt) (m : QMsg), j.why = .put q m →
    (j.status ≠ 0 → s.ringDone n j = (s.dropJob n j.id).answer (qmFid n) q j.status) ∧
    (j.status = 0 → j.void = false → j.step = 1 → s.ringDone n j =
      s.ringGo n j true (metaAt (s.qdesc j.queue) (s.qdyn j.queue).tail) (leBytes 16 m.word)) ∧
    (j.status = 0 → j.void = false → j.step = 2 → s.ringDone n j =
      ((s.dropJob n j.id).answer (qmFid n) q 0).ringEnter n j.queue m)) ∧
  (∀ (s : State) (n q : Nat) (m : QMsg), ∃ t, t = s.ringEnter n q m ∧ (t.qdyn q).msgs = (s.qdyn q).msgs ++ [m] ∧
    (t.qdyn q).tail = ((s.qdyn q).tail + 1) % 2 ^ (qLog (s.qdesc q) + 1) ∧ (t.qdyn q).head = (s.qdyn q).head ∧
    ∀ x, x ≠ q → t.qdyn x = s.qdyn x) ∧
  (∀ (s : State) (n : Nat) (q : Pkt), s.queueReset (reqQueue q) = false → qMode (s.qdesc (reqQueue q)) = 1 →
    sliceFits (s.qdesc (reqQueue q)) q.slice.toNat = true → s.frozenOut (reqQueue q) q = false →
    ((s.qdyn (reqQueue q)).msgs = [] → ∃ s1 : State, s.dequeue n q = s1.answer (qmFid n) q 0 ∧
      (s1.qdyn (reqQueue q)).armed = true ∧ { s1 with que := s.que } = s) ∧
    (∀ m ms, (s.qdyn (reqQueue q)).msgs = m :: ms → ∃ t, t = s.dequeue n q ∧ { t with qm := s.qm } = s ∧
      ∃ j : RingJob, (t.qmAt n).jobs = (s.qmAt n).jobs ++ [j] ∧ j.why = .deq q m ∧
        j.off = qRing (s.qdesc (reqQueue q)) + (s.qdyn (reqQueue q)).slot (s.qdesc (reqQueue q)) 0 * qSlot (s.qdesc (reqQueue q)))) ∧
  (∀ (s : State) (n : Nat) (j : RingJob) (q : Pkt), j.void = false → ∃ t, t = s.deqAnswer n j q ∧
    (t.qdyn j.queue).msgs = (s.qdyn j.queue).msgs.drop 1 ∧
    (t.qdyn j.queue).head = ((s.qdyn j.queue).head + 1) % 2 ^ (qLog (s.qdesc j.queue) + 1) ∧
    (t.qdyn j.queue).tail = (s.qdyn j.queue).tail ∧ ∀ x, x ≠ j.queue → t.qdyn x = s.qdyn x)

/-- A port selects and injects in its turn; the Comp of a delivery ends it: OK is done, QUEUE_FULL and DOMAIN_ASLEEP are repeated after
QM_RETRY, any other status pauses the queue until RESUME (R246, R247, R250, R251).
Where a clause says that a command whose event is not due changes nothing, that is the model's choice (log 2).
Completion: its clauses conclude that exec answers next, with the command's own effect, under conditions on the state and the
operands alone, for PORT_SELECT, DELIVERY_COMP, DELIVERY_RETRY, QM_Q_RESUME. -/
def Obligations.PushDeliveriesAreAnswered : Prop :=
  (∀ (s : State) (n : Fin 4) (p : Fin 8), s.qmLive n = true → s.fc.inject = none →
    exec (.portSelect n p .clean .clean) s = .next ((s.portPick n p).portInject n p) ∧
    exec (.portSelect n p .clean .uncorrectable) s = .next ((s.raiseNi (qmFid n) 2 2).fenceNi (qmFid n)) ∧
    ∀ gate, exec (.portSelect n p .uncorrectable gate) s = .next ((s.raiseNi (qmFid n) 2 2).fenceNi (qmFid n))) ∧
  (∀ (s : State) (n p : Nat), (s.qport n p).staged = [] → (s.qport n p).bkt.avail s.tick ≤ 0 →
    s.portPick n p = s ∧ s.portInject n p = s) ∧
  (∀ (s : State) (n : Fin 4) (p : Pkt) (v : Dlv), s.qmLive n = true → (s.nif (qmFid n)).inbox = [p] → p.net = .rsp →
    s.ringAnswers n p = false → SMap.get none (s.qmAt n).dlv (p.txid.toNat / 16) = some v → v.txid = p.txid → v.dead = none →
    ∃ s1 : State, { s1 with ni := s.ni, qm := s.qm } = s ∧ (SMap.get none (s1.qmAt n).dlv (p.txid.toNat / 16)).isNone = true ∧
      (s1.nif (qmFid n)).inbox = [] ∧
      (v.stale = false → exec (.deliveryComp n) s = .next (s1.delivered v p.status.toNat)) ∧
      (v.stale = true → exec (.deliveryComp n) s = .next s1)) ∧
  (∀ (s : State) (v : Dlv) (st : Nat), st = 0xA ∨ st = 3 → ∃ t, t = s.delivered v st ∧ { t with que := s.que } = s ∧
    (∀ i m, (s.qdyn v.queue).msgs[i]? = some m → (s.qdyn v.queue).slot (s.qdesc v.queue) i = v.slot →
      (t.qdyn v.queue).msgs[i]? =
        some { m with out := false, retry := some (s.tick + max 1 (s.rf .QM_RETRY 0 16 (qmBase (qmOf v.queue)))) })) ∧
  (∀ (s : State) (v : Dlv) (st : Nat), st ≠ 0 → st ≠ 0xA → st ≠ 3 →
    ((s.delivered v st).qdyn v.queue).paused = true ∧ ((s.delivered v st).qdyn v.queue).cause = st) ∧
  (∀ (s : State) (queue : BitVec 16) (m : QMsg) (rest : List QMsg) (t0 : Nat), s.qmLive (qmOf queue.toNat) = true →
    (s.qdyn queue.toNat).msgs = m :: rest → m.retry = some t0 →
    (t0 ≤ s.tick → ∃ t, exec (.deliveryRetry queue) s = .next t ∧ (t.qdyn queue.toNat).msgs = { m with retry := none } :: rest ∧
      t.reg .QM_RETRY_CNT (qmBase (qmOf queue.toNat)) = min (s.reg .QM_RETRY_CNT (qmBase (qmOf queue.toNat)) + 1) 0xFFFFFFFF ∧
      { t with que := s.que, regs := s.regs, cyc := s.cyc, ctr := s.ctr } = s) ∧
    (s.tick < t0 → rest = [] → exec (.deliveryRetry queue) s = .next s)) ∧
  (∀ (s : State) (n : Fin 4), ∃ t, exec (.qmQResume n) s = .next t ∧ (t.qdyn (s.qSel n)).paused = false ∧
    (∀ x, x ≠ s.qSel n → t.qdyn x = s.qdyn x) ∧ { t with que := s.que } = s)

/-- Token buckets: a refill adds the rate up to the burst in every bucket at once; a new rate waits for the next refill, a new burst
clamps the tokens and never raises them; both reach the SHAPE entry of both banks; and within one FCLK a charge, the refill and the
writes have the same effect in either order (R253, R254).
Where a clause says that a command whose event is not due changes nothing, that is the model's choice (log 2).
Completion: its clauses conclude that exec answers next, with the command's own effect, under conditions on the state and the
operands alone, for TOKEN_REFILL, QM_Q_RATE_WRITE, QM_Q_BURST_WRITE, QM_P_RATE_WRITE, QM_P_BURST_WRITE. -/
def Obligations.TokenBuckets : Prop :=
  (∀ s : State, s.tim.c % 1024 = 0 → s.refillAt ≠ s.tick + 1 → ∃ t, exec .tokenRefill s = .next t ∧ t.refillAt = s.tick + 1 ∧
    (∀ q, (s.qdyn q).bkt.at_ ≠ s.tick + 1 → (t.qdyn q).bkt.tokens =
      min ((s.qdyn q).bkt.tokens + (s.qdyn q).bkt.rate) (256 * (s.qdyn q).bkt.burst : Nat)) ∧
    (∀ n p, (s.qport n p).bkt.at_ ≠ s.tick + 1 → (t.qport n p).bkt.tokens =
      min ((s.qport n p).bkt.tokens + (s.qport n p).bkt.rate) (256 * (s.qport n p).bkt.burst : Nat)) ∧
    { t with que := s.que, qm := s.qm, refillAt := s.refillAt } = s) ∧
  (∀ s : State, s.tim.c % 1024 ≠ 0 → exec .tokenRefill s = .next s) ∧
  (∀ (x : Bucket) (t k r b : Nat), (x.charge t k).refill t = (x.refill t).charge t k ∧
    (x.putRate t r).refill t = (x.refill t).putRate t r ∧ (x.putBurst t b).refill t = (x.refill t).putBurst t b ∧
    (x.charge t k).putBurst t b = (x.putBurst t b).charge t k) ∧
  (∀ (s : State) (n : Fin 4) (v : BitVec 32), ∃ t, exec (.qmQRateWrite n v) s = .next t ∧
    (t.qdyn (s.qSel n)).bkt.rate = fld v.toNat 0 24 ∧
    ((s.qdyn (s.qSel n)).bkt.at_ ≠ s.tick + 1 → (t.qdyn (s.qSel n)).bkt.tokens = (s.qdyn (s.qSel n)).bkt.tokens) ∧
    (∀ b, b < 2 → fld (t.tab b 6 (qmFid n) 0 (s.qSel n % 16384)) 192 24 = fld v.toNat 0 24) ∧
    { t with que := s.que, tabs := s.tabs } = s) ∧
  (∀ (s : State) (n : Fin 4) (v : BitVec 32), ∃ t, exec (.qmQBurstWrite n v) s = .next t ∧
    (t.qdyn (s.qSel n)).bkt.burst = min (fld v.toNat 0 24) 0x7FFFFF ∧
    ((s.qdyn (s.qSel n)).bkt.at_ ≠ s.tick + 1 → (t.qdyn (s.qSel n)).bkt.tokens =
      min (s.qdyn (s.qSel n)).bkt.tokens (256 * (min (fld v.toNat 0 24) 0x7FFFFF) : Nat)) ∧
    { t with que := s.que, tabs := s.tabs } = s) ∧
  (∀ (s : State) (n : Fin 4) (p : Fin 8) (v : BitVec 32), ∃ t, exec (.qmPRateWrite n p v) s = .next t ∧
    (t.qport n p).bkt.rate = fld v.toNat 0 24 ∧
    ((s.qport n p).bkt.at_ ≠ s.tick + 1 → (t.qport n p).bkt.tokens = (s.qport n p).bkt.tokens) ∧
    { t with qm := s.qm, tabs := s.tabs } = s) ∧
  (∀ (s : State) (n : Fin 4) (p : Fin 8) (v : BitVec 32), ∃ t, exec (.qmPBurstWrite n p v) s = .next t ∧
    (t.qport n p).bkt.burst = min (fld v.toNat 0 24) 0x7FFFFF ∧
    ((s.qport n p).bkt.at_ ≠ s.tick + 1 → (t.qport n p).bkt.tokens =
      min (s.qport n p).bkt.tokens (256 * (min (fld v.toNat 0 24) 0x7FFFFF) : Nat)) ∧
    { t with qm := s.qm, tabs := s.tabs } = s)

/-- Gates and samples: a list starts at BASE, or at the first whole cycle at least 2 µs after T; at its start the pending list becomes
operational at entry 0; entries follow fabric time; a sample period opens with its marker and skips what was not visited (R256 to
R259).
Where a clause says that a command whose event is not due changes nothing, that is the model's choice (log 2).
Completion: its clauses conclude that exec answers next, with the command's own effect, under conditions on the state and the
operands alone, for GATE_ENTRY_CHANGE, GATE_LIST_START, SAMPLE_PERIOD_OPEN. -/
def Obligations.GatesAndSamplePeriods : Prop :=
  (∀ (base t : Int) (cycle : Nat), 0 < cycle →
    (t + 2000 ≤ base → gateStart base cycle t = (base, 0)) ∧
    (base < t + 2000 → (gateStart base cycle t).1 = base + (gateStart base cycle t).2 * cycle ∧
      t + 2000 ≤ (gateStart base cycle t).1 ∧ (gateStart base cycle t).1 < t + 2000 + cycle)) ∧
  (∀ (s : State) (n : Fin 4) (p : Fin 8) (g : GateList) (st : Int), (s.qport n p).pend = some (g, st) →
    (s.ns < st → exec (.gateListStart n p) s = .next s) ∧
    (st ≤ s.ns → ∃ t, exec (.gateListStart n p) s = .next t ∧ (t.qport n p).op = g ∧ (t.qport n p).opS = st ∧
      (t.qport n p).pend = none ∧ (t.qport n p).entry = 0 ∧ { t with qm := s.qm } = s)) ∧
  (∀ (s : State) (n : Fin 4) (p : Fin 8), (s.qport n p).op.ents ≠ [] →
    (s.ns < (s.qport n p).ends → exec (.gateEntryChange n p) s = .next s) ∧
    ((s.qport n p).ends ≤ s.ns → (s.qport n p).pend = none → ∃ t, exec (.gateEntryChange n p) s = .next t ∧
      ((t.qport n p).entry, (t.qport n p).ends) = (s.qport n p).entryNow s.ns ∧ { t with qm := s.qm } = s)) ∧
  (∀ (s : State) (n : Fin 4), s.sampling n = true → s.ns % s.samplePeriod n = 0 → (s.qmAt n).opened ≠ some s.ns →
    ∃ s1 : State, exec (.samplePeriodOpen n) s = .next (s1.sampleRecord n
        (nsOf s.ns + secOf s.ns % 2 ^ 48 * 2 ^ 32 + (s.qmAt n).wrote % 2 ^ 16 * 2 ^ 80 + 2 ^ 126)) ∧
      (s1.qmAt n).opened = some s.ns ∧ (s1.qmAt n).wrote = 0 ∧
      (SMap.wf 0 s.tabs = true → ∀ q ∈ (s1.qmAt n).visit, qSample (s.qdesc q) = true) ∧
        { s1 with qm := s.qm, regs := s.regs, cyc := s.cyc } = s) ∧
  (∀ (s : State) (n : Fin 4), s.sampling n = false → exec (.samplePeriodOpen n) s = .next s)

/-! ### Engine clusters -/

/-- The integer instructions of R270 on 64-bit registers: results, latencies of R264, and the division corners: a zero divisor gives 0
or the dividend and sets DZ.
That a signed quotient is truncated toward zero is the usual sense of the word, not the spec's (log 55).
Completion: its clauses conclude that exec answers next, with the command's own effect, under conditions on the state and the
operands alone, for ADD, SUB, MULLO, MULHI, MULHIU, QUO, QUOU, MOD, MODU, AND, IOR, XOR, SHL, SHR, SHRA, CMPLT, CMPLTU, ADDK, ANDK,
IORK, XORK, CMPLTK, SETHI, SHK_SHL, SHK_SHR, SHK_SHRA. -/
def Obligations.EngineArithmetic : Prop :=
  ∀ (s : State) (t : Fin 1536),
    let runs := fun (op : TOp) (c : Instr) (g : Nat → Thr → Thr) => ∀ w, s.issues t op w →
      ∃ u, exec c s = .next u ∧ u.thrOf t = { g w (s.thrOf t) with skips := 0 } ∧ s.onlyThread t u
    let computes := fun (op : TOp) (lat : Nat) (c : Instr) (f : Nat → Thr → Word64) =>
      runs op c (fun w x => x.step.put (opD w) (f w x) (s.eclk + lat))
    let A := fun w (x : Thr) => x.reg (opA w)
    let B := fun w (x : Thr) => x.reg (opB w)
    let K := fun w => (BitVec.ofNat 16 (opImm w)).signExtend 64
    let Z := fun w => BitVec.ofNat 64 (opImm w)
    let div := fun (f z : Word64 → Word64 → Word64) w (x : Thr) =>
      ({ x with dz := x.dz || B w x == 0 } : Thr).step.put (opD w) (if B w x = 0 then z (A w x) (B w x) else f (A w x) (B w x)) (s.eclk + 36)
    computes (.alu 0) 4 (.add t .clean) (fun w x => A w x + B w x) ∧
    computes (.alu 1) 4 (.sub t .clean) (fun w x => A w x - B w x) ∧
    computes (.alu 2) 8 (.mullo t .clean) (fun w x => A w x * B w x) ∧
    computes (.alu 3) 8 (.mulhi t .clean) (fun w x => ((A w x).signExtend 128 * (B w x).signExtend 128).extractLsb' 64 64) ∧
    computes (.alu 4) 8 (.mulhiu t .clean) (fun w x => ((A w x).zeroExtend 128 * (B w x).zeroExtend 128).extractLsb' 64 64) ∧
    runs (.alu 5) (.quo t .clean) (div (fun a b => a.sdiv b) (fun _ _ => 0)) ∧
    runs (.alu 6) (.quou t .clean) (div (fun a b => a / b) (fun _ _ => 0)) ∧
    runs (.alu 7) (.mod t .clean) (div (fun a b => a.srem b) (fun a _ => a)) ∧
    runs (.alu 8) (.modu t .clean) (div (fun a b => a % b) (fun a _ => a)) ∧
    computes (.alu 9) 4 (.and t .clean) (fun w x => A w x &&& B w x) ∧
    computes (.alu 0xA) 4 (.ior t .clean) (fun w x => A w x ||| B w x) ∧
    computes (.alu 0xB) 4 (.xor t .clean) (fun w x => A w x ^^^ B w x) ∧
    computes (.alu 0xC) 4 (.shl t .clean) (fun w x => A w x <<< (B w x &&& 63)) ∧
    computes (.alu 0xD) 4 (.shr t .clean) (fun w x => A w x >>> (B w x &&& 63)) ∧
    computes (.alu 0xE) 4 (.shra t .clean) (fun w x => (A w x).sshiftRight' (B w x &&& 63)) ∧
    computes (.alu 0xF) 4 (.cmplt t .clean) (fun w x => if (A w x).toInt < (B w x).toInt then 1 else 0) ∧
    computes (.alu 0x10) 4 (.cmpltu t .clean) (fun w x => if A w x < B w x then 1 else 0) ∧
    computes .addk 4 (.addk t .clean) (fun w x => A w x + K w) ∧
    computes .andk 4 (.andk t .clean) (fun w x => A w x &&& Z w) ∧
    computes .iork 4 (.iork t .clean) (fun w x => A w x ||| Z w) ∧
    computes .xork 4 (.xork t .clean) (fun w x => A w x ^^^ Z w) ∧
    computes .cmpltk 4 (.cmpltk t .clean) (fun w x => if (A w x).toInt < (K w).toInt then 1 else 0) ∧
    computes .sethi 4 (.sethi t .clean) (fun w _ => K w <<< 16) ∧
    computes (.shk 0) 4 (.shkShl t .clean) (fun w x => A w x <<< (opImm w % 64)) ∧
    computes (.shk 1) 4 (.shkShr t .clean) (fun w x => A w x >>> (opImm w % 64)) ∧
    computes (.shk 2) 4 (.shkShra t .clean) (fun w x => (A w x).sshiftRight (opImm w % 64))

/-- Branches, calls, SYNC, RETT and the time instructions: where the thread goes on, what it saves, and when it waits (R264, R265, R270,
R283).
Where a clause says that a command whose event is not due changes nothing, that is the model's choice (log 2).
Completion: its clauses conclude that exec answers next, with the command's own effect, under conditions on the state and the
operands alone, for CALLR, SYNC, RETT, RDTIM, THREAD_WAITT, SETTMR, BREQ, BRNE, BRLT, BRGE, BRLO, BRHS, CALL, THREAD_WAITT_EXPIRE,
TIMER_FIRE. -/
def Obligations.EngineControlAndTime : Prop :=
  ∀ (s : State) (t : Fin 1536),
    let runs := fun (op : TOp) (c : Instr) (g : Nat → Thr → Thr) => ∀ w, s.issues t op w →
      ∃ u, exec c s = .next u ∧ u.thrOf t = { g w (s.thrOf t) with skips := 0 } ∧ s.onlyThread t u
    let computes := fun (op : TOp) (lat : Nat) (c : Instr) (f : Nat → Thr → Word64) =>
      runs op c (fun w x => x.step.put (opD w) (f w x) (s.eclk + lat))
    let br := fun (f : Word64 → Word64 → Bool) w (x : Thr) => if f (x.reg (opD w)) (x.reg (opA w)) then
      ({ x with pc := ((x.pc + opSimm w) % 16384).toNat, from_ := s.eclk + 4, parked := false } : Thr) else x.step
    runs (.branch 0) (.breq t .clean) (br (fun a b => a == b)) ∧
    runs (.branch 1) (.brne t .clean) (br (fun a b => a != b)) ∧
    runs (.branch 2) (.brlt t .clean) (br (fun a b => decide (a.toInt < b.toInt))) ∧
    runs (.branch 3) (.brge t .clean) (br (fun a b => decide (b.toInt ≤ a.toInt))) ∧
    runs (.branch 4) (.brlo t .clean) (br (fun a b => decide (a.toNat < b.toNat))) ∧
    runs (.branch 5) (.brhs t .clean) (br (fun a b => decide (b.toNat ≤ a.toNat))) ∧
    runs .call (.call t .clean) (fun w x => { x.put 31 (BitVec.ofNat 64 ((x.pc + 1) % 16384)) (s.eclk + 4) with
      pc := ((x.pc + opOff26 w) % 16384).toNat, from_ := s.eclk + 4, parked := false }) ∧
    runs .callr (.callr t .clean) (fun w x => { x.put (opD w) (BitVec.ofNat 64 ((x.pc + 1) % 16384)) (s.eclk + 4) with
      pc := (((x.reg (opA w)).toNat + opSimm w) % 16384).toNat, from_ := s.eclk + 4, parked := false }) ∧
    runs .sync (.sync t .clean) (fun _ x => x.step) ∧
    runs .rett (.rett t .clean) (fun _ x =>
      { x with ie := x.pie, intrap := false, pc := x.epc % 16384, from_ := s.eclk + 4, parked := false }) ∧
    computes .rdtim 4 (.rdtim t .clean) (fun _ _ => s.rdtim) ∧
    runs .settmr (.settmr t .clean) (fun w x =>
      { x.step with timer := if x.reg (opA w) = 0 then none else some (x.reg (opA w)) }) ∧
    ((s.thrOf t).tep = s.epo.cur → runs .waitt (.threadWaitt t .clean) (fun w x => if x.reg (opA w) ≤ s.rdtim then x.step
      else { x with st := .wait, until_ := some (x.reg (opA w)) })) ∧
    (∀ v, (s.thrOf t).until_ = some v →
      (s.clLive (t.val / 32) = true → (s.thrOf t).st = .wait → v ≤ s.rdtim → ∃ u, exec (.threadWaittExpire t) s = .next u ∧
        u.thrOf t = { (s.thrOf t).step with st := .ready, until_ := none } ∧ { u with ecl := s.ecl } = s) ∧
      (s.rdtim < v → exec (.threadWaittExpire t) s = .next s)) ∧
    (∀ v, (s.thrOf t).timer = some v →
      (s.clLive (t.val / 32) = true → v ≤ s.rdtim → ∃ u, exec (.timerFire t) s = .next u ∧
        u.thrOf t = { s.thrOf t with timer := none, ipend := (s.thrOf t).ipend ||| 1 } ∧ { u with ecl := s.ecl } = s) ∧
      (s.rdtim < v → exec (.timerFire t) s = .next s)) ∧
    ((s.thrOf t).timer = none → exec (.timerFire t) s = .next s)

/-- Thread control registers, HALT, SIGNAL, traps and interrupts: what they save, where the thread goes on, when it halts instead (R265,
R270, R282 to R284). TADDR after an interrupt is a free value (log 10).
Where a clause says that a command whose event is not due changes nothing, that is the model's choice (log 2).
Completion: its clauses conclude that exec answers next, with the command's own effect, under conditions on the state and the
operands alone, for RDTCR, WRTCR, SIGNAL, HALT, BREAK, TRAP_TAKE, INTERRUPT_TAKE, ENG_T_START, ENG_T_HALT. -/
def Obligations.EngineTrapsAndThreadControl : Prop :=
  (∀ (s : State) (t : Fin 1536),
    let runs := fun (op : TOp) (c : Instr) (g : Nat → Thr → Thr) => ∀ w, s.issues t op w →
      ∃ u, exec c s = .next u ∧ u.thrOf t = { g w (s.thrOf t) with skips := 0 } ∧ s.onlyThread t u
    let computes := fun (op : TOp) (lat : Nat) (c : Instr) (f : Nat → Thr → Word64) =>
      runs op c (fun w x => x.step.put (opD w) (f w x) (s.eclk + lat))
    computes .rdtcr 4 (.rdtcr t .clean) (fun w x => x.tcr t (opB w)) ∧
    runs .wrtcr (.wrtcr t .clean) (fun w x => (x.setTcr (opB w) (x.reg (opA w))).step) ∧
    ((s.thrOf t).tep = s.epo.cur → runs .halt (.halt t .clean) (fun _ x => { x.step with st := .halt })) ∧
    ((s.thrOf t).intrap = false → (s.thrOf t).tvld = true →
      runs .brk (.breakTrap t .clean) (fun _ x => x.trap 5 0 x.pc (BitVec.ofNat 64 x.pc))) ∧
    (∀ w, s.issues t .brk w → (s.thrOf t).intrap = true ∨ (s.thrOf t).tvld = false → (s.thrOf t).tep = s.epo.cur →
      ∃ u, exec (.breakTrap t .clean) s = .next u ∧ (u.thrOf t).st = .halt ∧ (u.thrOf t).pc = (s.thrOf t).pc) ∧
    (∀ w j, s.issues t .signal w → j = ((s.thrOf t).reg (opA w)).toNat % 32 → j ≠ t.val % 32 →
      ∃ u, exec (.signal t .clean) s = .next u ∧ u.thrOf t = { (s.thrOf t).step with skips := 0 } ∧
        (u.thr (t.val / 32) j).ipend = (s.thr (t.val / 32) j).ipend ||| 2 ∧ (u.thr (t.val / 32) j).pc = (s.thr (t.val / 32) j).pc)) ∧
  (∀ (x : Thr) (cause status epc : Nat) (a : Word64), let y := x.trap cause status epc a
    y.epc = epc % 2 ^ 14 ∧ y.cause = cause + status * 2 ^ 8 ∧ y.taddr = a ∧ y.pie = x.ie ∧ y.ie = false ∧ y.intrap = true ∧
    y.pc = x.tvec ∧ y.st = .ready ∧ y.regs = x.regs) ∧
  (∀ (x : Thr) (n : Nat) (v : Word64), (n = 0 ∨ n = 1 ∨ n = 6 ∨ n = 7 ∨ 10 ≤ n → x.setTcr n v = x) ∧ (x.setTcr n v).regs = x.regs ∧
    (x.setTcr n v).slice = x.slice ∧ (x.setTcr n v).tep = x.tep ∧ (x.setTcr 9 v).tcr 0 9 = v ∧
    (x.setTcr 5 v).epc = v.toNat % 16384 ∧ (x.setTcr 8 v).tvld = v.getLsbD 14) ∧
  (∀ (s : State) (t : Fin 1536) (d : DueTrap), (s.thrOf t).due = some d → s.clLive (t.val / 32) = true → (s.thrOf t).st = .ready →
    (s.thrOf t).intrap = false → (s.thrOf t).tvld = true → ∃ u, exec (.trapTake t) s = .next u ∧
      u.thrOf t = { (s.thrOf t).trap d.cause d.status (s.thrOf t).pc d.taddr with due := none } ∧
      { u with ecl := s.ecl, regs := s.regs, cyc := s.cyc, ctr := s.ctr } = s) ∧
  (∀ (s : State) (t : Fin 1536) (d : DueTrap), (s.thrOf t).due = some d → s.clLive (t.val / 32) = true → (s.thrOf t).st = .ready →
    (s.thrOf t).intrap = true → (s.thrOf t).tep = s.epo.cur → ∃ u, exec (.trapTake t) s = .next u ∧ (u.thrOf t).st = .halt ∧
      (u.thrOf t).due = none ∧ (u.thrOf t).epc = (s.thrOf t).epc) ∧
  (∀ (s : State) (t : Fin 1536), s.clLive (t.val / 32) = true → (s.thrOf t).st = .ready → (s.thrOf t).due = none →
    ((s.thrOf t).irq = 0 → exec (.interruptTake t) s = .next s) ∧
    ((s.thrOf t).irq ≠ 0 → ∃ u n a, exec (.interruptTake t) s = .next u ∧ n < 3 ∧
      (n = 0 ↔ bitOf (s.thrOf t).irq 0 = true) ∧ (bitOf (s.thrOf t).irq 0 = false → (n = 1 ↔ bitOf (s.thrOf t).irq 1 = true)) ∧
      u.thrOf t = (s.thrOf t).trap (0x20 + n) 0 (s.thrOf t).pc a ∧
      { u with ecl := s.ecl, regs := s.regs, cyc := s.cyc, ctr := s.ctr, free := s.free } = s)) ∧
  (∀ (s : State) (t : Fin 1536), let k := t.val / 32
    let e := s.thrEntry k (s.thrOf t).tep (t.val % 32)
    (s.thrOf t).tep = s.epo.cur →
    ((s.thrOf t).st = .off ∨ (s.thrOf t).st = .halt → bitOf e 20 = true → s.clusterFenced k = false →
      s.stands (s.thrOf t).slice.toNat = false → ∃ u, exec (.engTStart t) s = .next u ∧
        u.thrOf t = { s.thrOf t with pc := fld e 0 14, ie := false, intrap := false, until_ := none, parkOn := [], parked := false,
                                     st := .ready, held := none } ∧ { u with ecl := s.ecl } = s) ∧
    ((s.thrOf t).st = .ready ∨ bitOf e 20 = false → exec (.engTStart t) s = .next s) ∧
    ((s.thrOf t).st ≠ .off → ∃ u, exec (.engTHalt t) s = .next u ∧
      u.thrOf t = { s.thrOf t with st := .halt, until_ := none, parkOn := [], held := none } ∧ { u with ecl := s.ecl } = s) ∧
    ((s.thrOf t).st = .off → exec (.engTHalt t) s = .next s))

/-- Loads, stores and atomics in local SRAM: a load reads the bytes at its address, a store enters the buffer and its bytes reach memory
when it drains, an atomic reads and writes at once, and an address without a place traps with ADDR (R186, R266, R270, R272, R273,
R282).
Where a clause says that a command whose event is not due changes nothing, that is the model's choice (log 2).
Completion: its clauses conclude that exec answers next, with the command's own effect, under conditions on the state and the
operands alone, for LDB, LDH, LDW, LDD, LDBS, LDHS, LDWS, STB, STH, STW, STD, ATOM, STORE_DRAIN, LOCAL_SRAM_SCRUB. -/
def Obligations.EngineLocalMemory : Prop :=
  ∀ (s : State) (t : Fin 1536), let k := t.val / 32
    let x := s.thrOf t
    (∀ (n : Nat) (sg : Bool) (c : Instr), (n, sg, c) ∈ [(1, false, Instr.ldb t .clean []), (2, false, .ldh t .clean []),
        (4, false, .ldw t .clean []), (8, false, .ldd t .clean []), (1, true, .ldbs t .clean []),
        (2, true, .ldhs t .clean []), (4, true, .ldws t .clean [])] →
      ∀ w, s.issues t (.load n sg) w →
        (∀ off, x.sb = [] → (x.ea w).toNat % n = 0 → s.place k (x.ea w).toNat n = some (.loc off) →
          (wordsOf (lsAddr k off) n).filter (SMap.get false s.lsramBad) = [] → ∃ u, exec c s = .next u ∧
            u.thrOf t = { x.step.put (opD w) (extend n sg (leNat (s.lsRead k off n))) (s.eclk + 6) with skips := 0 } ∧
            s.onlyThread t u) ∧
        (s.place k (x.ea w).toNat n = none → x.intrap = false → x.tvld = true → ∃ u, exec c s = .next u ∧
          u.thrOf t = { x.trap 3 0 x.pc (x.ea w) with skips := 0 })) ∧
    (∀ (n : Nat) (c : Instr), (n, c) ∈ [(1, Instr.stb t .clean), (2, .sth t .clean), (4, .stw t .clean), (8, .std t .clean)] →
      ∀ w p, s.issues t (.store n) w → (x.ea w).toNat % n = 0 → s.place k (x.ea w).toNat n = some p → ∃ u, exec c s = .next u ∧
        u.thrOf t = { x.step with
          sb := x.sb ++ [{ id := 2 * (s.cl k).serial, pair := (s.cl k).serial, win := fld (x.ea w).toNat 52 12,
                           ea := fld (x.ea w).toNat 0 52, data := leBytes n (x.reg (opD w)).toNat }], skips := 0 } ∧
        s.onlyThread t u) ∧
    (∀ w off, let n := 2 ^ fld w 4 2
      let old := leNat (s.lsRead k off n)
      s.issues t .atom w → (x.reg (opA w)).toNat % n = 0 → s.place k (x.reg (opA w)).toNat n = some (.loc off) →
      (wordsOf (lsAddr k off) n).filter (SMap.get false s.lsramBad) = [] → ∃ u, exec (.atom t .clean []) s = .next u ∧
        u.thrOf t = { x.step.put (opD w) (BitVec.ofNat 64 old) (s.eclk + 8) with skips := 0 } ∧
        u.lsRead k off n = leBytes n (aopResult (fld w 0 4) n old
          (if fld w 0 4 = 5 then x.reg (opD w) else x.reg (opB w)).toNat (x.reg (opB w)).toNat) ∧
        (∀ a, a < lsAddr k off ∨ lsAddr k off + n ≤ a → memByte u.lsram a = memByte s.lsram a) ∧
        { u with ecl := s.ecl, regs := s.regs, cyc := s.cyc, ctr := s.ctr, free := s.free, lsram := s.lsram, lsramBad := s.lsramBad } = s) ∧
    (∀ (e : Fin 192) (i off : Nat) (b : SbEnt), let k := e.val / 4
      s.clLive k = true → SMap.get 0 (s.cl k).drained (e.val % 4) ≠ s.eclk + 1 →
      ((List.range 8).map (fun n => 8 * (e.val % 4) + (SMap.get 7 (s.cl k).turn (e.val % 4) + 1 + n) % 8)).find? (s.canDrain k)
        = some i →
      (s.thr k i).sb = [b] → s.place k b.full b.data.length = some (.loc off) → ∃ u, exec (.storeDrain e) s = .next u ∧
        u.lsRead k off b.data.length = b.data ∧ (u.thr k i).sb = [] ∧
        (∀ a, a < lsAddr k off ∨ lsAddr k off + b.data.length ≤ a → memByte u.lsram a = memByte s.lsram a) ∧
        { u with ecl := s.ecl, lsram := s.lsram, lsramBad := s.lsramBad } = s) ∧
    (∀ (k : Fin 48), s.rf .ENG_CL_SCRUB 0 16 (eclBase k) ≠ 0 →
      (s.eclk < (s.cl k).scrubAt + s.rf .ENG_CL_SCRUB 0 16 (eclBase k) → exec (.localSramScrub k []) s = .next s) ∧
      ((s.cl k).scrubAt + s.rf .ENG_CL_SCRUB 0 16 (eclBase k) ≤ s.eclk → s.fc.inject = none →
        (s.domain (unitDomain (clFid k))).st = 0 → (wordsOf (lsAddr k (64 * (s.cl k).scrub)) 64).filter (SMap.get false s.lsramBad) = [] →
        ∃ u, exec (.localSramScrub k []) s = .next u ∧ (u.cl k).scrub = ((s.cl k).scrub + 1) % 4096 ∧
          (u.cl k).scrubAt = s.eclk ∧ { u with ecl := s.ecl } = s))

/-- Line copies and message instructions go out as one outstanding request whose D waits, RECV hands out the next doorbell or message of
the thread, RXDONE frees its oldest slot (R270, R271, R279, R280).
Completion: its clauses conclude that exec answers next, with the command's own effect, under conditions on the state and the
operands alone, for LDLN, STLN, ENQ_INSTR, DEQ_INSTR, DBELL, SEQW, INTR, RECV, RXDONE. -/
def Obligations.EngineMessagesAndLineCopies : Prop :=
  (∀ (s : State) (t : Fin 1536) (w : Nat), s.unsampled t → let k := t.val / 32
    let i := t.val % 32
    let x := s.thrOf t
    let s0 := s.issued k i
    let a := x.reg (opA w)
    let b := x.reg (opB w)
    let end_ := fun (u : State) => u.sampleWait k i (s0.cl k).serial 4
    (∀ p off ds s1, s.issues t .ldln w → s0.lineAt k a.toNat = some p → s0.bufOff k b.toNat 64 = some off → a.toNat % 64 = 0 →
      b.toNat % 64 = 0 → x.meet b.toNat 64 = .clear → s0.checkParts k x.slice.toNat false [(a.toNat, 64, p)] = (some ds, s1) →
      let q : EReq := { id := 0, thr := i, kind := .lineLoad off, d := opD w, ea := a, bytes := zeros 64 }
      exec (.ldln t .clean) s = .next (end_ (((s1.newReq k q).2.updThr k i Thr.step).sendParts k i x.slice.toNat (s1.cl k).serial a.toNat [(a.toNat, 64, p)] ds))) ∧
    (∀ o off bytes bad ds s1 s2, s.issues t .stln w → s0.lineAt k a.toNat = some (.side o) → s0.bufOff k b.toNat 64 = some off →
      a.toNat % 64 = 0 → b.toNat % 64 = 0 → s0.bufRead k i b.toNat off 64 [] = (some (bytes, bad), s1) → bad = false →
      s1.checkParts k x.slice.toNat true [(a.toNat, 64, .side o)] = (some ds, s2) →
      let c : LocAcc :=
        { cluster := k, thr := i, why := .part (s2.cl k).serial, o := o, n := 64, wr := true, data := bytes, slice := x.slice.toNat }
      exec (.stln t .clean []) s = .next (end_ (((s2.newReq k { id := 0, thr := i, kind := .lineStore, d := opD w, ea := a }).2.updThr
        k i Thr.step).locPush c))) ∧
    (∀ off bytes bad s1, s.issues t .enq w → s0.bufOff k b.toNat (fld a.toNat 16 9 + 1) = some off →
      s0.bufRead k i b.toNat off (fld a.toNat 16 9 + 1) [] = (some (bytes, bad), s1) → exec (.enqInstr t .clean []) s =
        .next (end_ (s1.sendMsg k i (opD w) .msg (queueReq 0x17 a.toNat) (some (bytes, BitVec.allOnes 64, bad))))) ∧
    (∀ off, s.issues t .deq w → s0.bufOff k b.toNat 512 = some off → b.toNat % 64 = 0 → x.meet b.toNat 512 = .clear →
      exec (.deqInstr t .clean) s = .next (end_ (s0.sendMsg k i (opD w) (.deq off) (queueReq 0x18 a.toNat)))) ∧
    (s.issues t .dbell w → exec (.dbell t .clean) s = .next (end_ (s0.sendMsg k i (opD w) .msg (queueReq 0x19 a.toNat)))) ∧
    (s.issues t .intr w → exec (.intr t .clean) s = .next (end_ (s0.sendMsg k i (opD w) .msg
      { net := .req, dst := BitVec.ofNat 10 (fld a.toNat 0 10), opc := 0x1A, addr := BitVec.ofNat 52 (fld b.toNat 0 12) }))) ∧
    (∀ pa coh off bytes bad d s1 s2, s.issues t .seqw w →
      (s0.place k a.toNat (2 ^ fld w 0 3)).map (s0.asFabric k) = some (.fab pa coh) → s0.bufOff k b.toNat (2 ^ fld w 0 3) = some off →
      a.toNat % 2 ^ fld w 0 3 = 0 → b.toNat % 2 ^ fld w 0 3 = 0 →
      s0.bufRead k i b.toNat off (2 ^ fld w 0 3) [] = (some (bytes, bad), s1) →
      s1.engCheck k x.slice.toNat pa 0x14 = (some d, s2) → exec (.seqw t .clean []) s = .next (end_ (s2.sendMsg k i (opD w) .msg
        { net := .req, dst := 0x181, opc := 0x14, addr := BitVec.ofNat 52 pa, size := BitVec.ofNat 3 (fld w 0 3) }
        (some (patch (zeros 64) (pa % 64) bytes, spanBe (pa % 64) (2 ^ fld w 0 3), bad)))))) ∧
  (∀ (s : State) (k : Fin 48) (i d : Nat) (kind : ReqKind) (q : Pkt) (data : Option (List Byte × Word64 × Bool)),
    let u := s.sendMsg k i d kind q data
    (u.cl k).reqs = (s.cl k).reqs ++ [{ id := (s.cl k).serial, thr := i, kind := kind, d := d }] ∧
    (u.cl k).serial = (s.cl k).serial + 1 ∧ (∀ j, u.thr k j = if j = i then (s.thr k i).step else s.thr k j)) ∧
  (∀ (s : State) (t : Fin 1536) (w : Nat), let k := t.val / 32
    let x := s.thrOf t
    (∀ b, s.issues t .recv w → s.recvBind k (t.val % 32) = some b →
      let r := s.ring k x.tep b
      let e := s.bindEntry k x.tep b
      (r.bell = true → ∃ u, exec (.recv t .clean) s = .next u ∧ u.ring k x.tep b = { r with bell := false } ∧ u.thrOf t =
        { ({ x with served := b } : Thr).step.put (opD w) (descriptor e b 0 0 true) (s.eclk + 4) with skips := 0 }) ∧
      (∀ slot len, r.bell = false → r.msgs[r.handed]? = some (slot, len) → ∃ u, exec (.recv t .clean) s = .next u ∧
        u.ring k x.tep b = { r with handed := r.handed + 1 } ∧ u.thrOf t =
        { ({ x with served := b } : Thr).step.put (opD w) (descriptor e b (bindSlot e slot) len false) (s.eclk + 4) with skips := 0 })) ∧
    (s.issues t .recv w → s.recvBind k (t.val % 32) = none → x.tep = s.epo.cur → ∃ u, exec (.recv t .clean) s = .next u ∧
      u.thrOf t = { x with st := .wait, until_ := none, skips := 0 } ∧ s.onlyThread t u) ∧
    (∀ b, s.issues t .rxdone w → b = (x.reg (opA w)).toNat % 64 → 0 < (s.ring k x.tep b).handed →
      ∃ u, exec (.rxdone t .clean) s = .next u ∧ u.thrOf t = { x.step with skips := 0 } ∧ u.ring k x.tep b =
        { s.ring k x.tep b with msgs := (s.ring k x.tep b).msgs.drop 1, handed := (s.ring k x.tep b).handed - 1 }))

/-- What reaches a cluster: a delivery goes into the ring of its binding and wakes its thread, or is refused; an answer completes its
request's part; a completed sample record is written once, with its region check (R278, R280, R282, R285, R290).
Where a clause says that a command whose event is not due changes nothing, that is the model's choice (log 2).
Completion: its clauses conclude that exec answers next, with the command's own effect, under conditions on the state and the
operands alone, for ENG_FABRIC_ANSWER, ENG_DELIVERY, ENG_SAMPLE_WRITE. -/
def Obligations.ClustersTakeDeliveriesAndAnswers : Prop :=
  (∀ (s : State) (k : Fin 48) (q p : Pkt) (b : Nat), s.prim ≠ .halt → (s.nif (clFid k)).inbox = [q, p] → q.net = .req → q.opc = 0x17 →
    p.net = .dat → p.opc = 0x20 → p.src = q.src → p.txid = q.txid → 0x170 ≤ q.src.toNat → q.src.toNat < 0x174 →
    s.clusterFenced k = false → (List.range 64).find? (fun b => bindVld (s.bindEntry k s.epo.cur b) &&
      bindQueue (s.bindEntry k s.epo.cur b) == q.addr.toNat % 2 ^ 16) = some b →
    let e := s.bindEntry k s.epo.cur b
    let r := s.ring k s.epo.cur b
    let slot := r.tail % bindSlots e
    (fld (s.thrEntry k s.epo.cur (bindThr e)) 14 6 = q.slice.toNat →
      (r.msgs.length < bindSlots e → ∃ s1 : State, exec (.engDelivery k) s = .next (s1.answer (clFid k) q 0) ∧
        s1.ring k s.epo.cur b = { r with msgs := r.msgs ++ [(slot, p.data.length)], tail := (slot + 1) % bindSlots e } ∧
        s1.lsRead k (bindSlot e slot) p.data.length = p.data ∧ (s1.nif (clFid k)).inbox = [] ∧
        { s1 with ecl := s.ecl, lsram := s.lsram, lsramBad := s.lsramBad, ni := s.ni, ctr := s.ctr, regs := s.regs, cyc := s.cyc } = s) ∧
      (bindSlots e ≤ r.msgs.length → ∃ s1 : State, exec (.engDelivery k) s = .next (s1.answer (clFid k) q 0xA) ∧
        { s1 with ni := s.ni, ctr := s.ctr, regs := s.regs, cyc := s.cyc } = s)) ∧
    (fld (s.thrEntry k s.epo.cur (bindThr e)) 14 6 ≠ q.slice.toNat → ∃ s1 : State, exec (.engDelivery k) s =
      .next (s1.answer (clFid k) q 1) ∧ { s1 with ni := s.ni, regs := s.regs, cyc := s.cyc } = s)) ∧
  (∀ (s : State) (k : Fin 48), (s.nif (clFid k)).inbox = [] → exec (.engDelivery k) s = .next s ∧
    exec (.engFabricAnswer k) s = .next s) ∧
  (∀ (s : State) (k : Fin 48) (p : Pkt), s.prim ≠ .halt → (s.nif (clFid k)).inbox = [p] → p.net = .rsp → p.cnt ≠ 0x81 →
    let s0 := s.setNi (clFid k) { s.nif (clFid k) with inbox := [] }
    (∀ e, s.srcEnt (clFid k) (p.txid.toNat / 16) = some e → e.req.txid = p.txid → e.state ≠ .dead →
      exec (.engFabricAnswer k) s = .next (s0.engAnswer k (p.txid.toNat / 16) e p)) ∧
    (s.srcEnt (clFid k) (p.txid.toNat / 16) = none → exec (.engFabricAnswer k) s = .next (s0.lateAnswer (clFid k)))) ∧
  (∀ (s : State) (k : Nat) (r : EReq) (n : Nat) (sg : Bool), r.kind = .load n sg → r.d ≠ 0 →
    (r.bad = none → r.poison = false → ((s.reqFinish k r).thr k r.thr).reg r.d = extend n sg (leNat r.bytes) ∧
      ((s.reqFinish k r).thr k r.thr).due = (s.thr k r.thr).due) ∧
    (∀ o st, r.bad = some (o, st) → st ≠ 0 → (s.thr k r.thr).due = none → ((s.reqFinish k r).thr k r.thr).reg r.d = 0 ∧
      ((s.reqFinish k r).thr k r.thr).due = some ⟨0x10, st, r.ea⟩)) ∧
  (∀ (s : State) (k : Fin 48) (p : Samp) (d : Nat), (s.cl k).sample = some p → p.doneAt = some d →
    (s.eclk < d → exec (.engSampleWrite k) s = .next s) ∧
    (d ≤ s.eclk → s.clLive k = true → ∃ s1 : State, exec (.engSampleWrite k) s = .next s1 ∧ (s1.cl k).sample = none ∧
      s1.rf .ENG_SAMP_WPTR 0 10 (eclBase k) = (s.rf .ENG_SAMP_WPTR 0 10 (eclBase k) + 1) % 1024)) ∧
  (∀ (s : State) (k : Fin 48), (s.cl k).sample = none → exec (.engSampleWrite k) s = .next s)

/-! ### Fabric slices -/

/-- SLC_CTRL commands go by the state of the slice, and any other is ignored with CMDREJ; FREEZE and RESET stop the slice's threads with
their state kept, FREEZE sends a marker through Saffron, THAW lets the threads go on with EVENT pending, SAVE lays down the save
area with its CRC (R320, R322 to R324, R326).
Completion: its clauses conclude that exec answers next, with the command's own effect, under conditions on the state and the
operands alone, for SLC_FREEZE, SLC_THAW, SLC_RESET, SLC_SAVE, SLC_RESTORE. -/
def Obligations.SliceCommandsFollowTheirTable : Prop :=
  ∀ (s : State) (sl : Fin 64), SMap.wf {} s.ecl = true → (∀ k, SMap.wf {} (s.cl k).thr = true) →
    let m := s.slcState sl
    let idle : Prop := (s.slice sl).saving = none ∧ (s.slice sl).restoring = false
    let mine := fun (k i : Nat) => (s.thr k i).slice.toNat = sl.val
    let stopped := fun (u : State) => ∀ k i, (mine k i → (s.thr k i).st ≠ .off → (s.thr k i).st ≠ .halt →
        u.thr k i = { s.thr k i with st := .halt, held := some (s.thr k i).st }) ∧
      ((¬mine k i ∨ (s.thr k i).st = .off ∨ (s.thr k i).st = .halt) → u.thr k i = s.thr k i)
    (m = 1 → ∃ u q, exec (.slcFreeze sl) s = .next u ∧ u.slcState sl = 2 ∧ (u.slice sl).at_ = s.tick ∧ (u.slice sl).stuck = false ∧
      (u.slice sl).marker = (s.slice sl).marker + 1 ∧ stopped u ∧ q.net = .req ∧ q.opc = 0x14 ∧ q.src = 0x180 ∧ q.dst = 0x181 ∧
      q.htid.toNat = sl.val ∧ { u with slc := s.slc, ecl := s.ecl, ni := s.ni, saf := s.saf } = s ∧
      (s.saf.spine = [] → let i := (s.nif 0x181).inbox
        let j := (u.nif 0x181).inbox
        let n := (s.nif 0x180).safCred
        let more : Prop := (s.nif 0x180).safPool < s.safPoolmax 0x180
        (0 < n → j = i ++ [{ q with df := true }] ∧ (u.nif 0x180).safCred = n - 1 ∧ u.saf = s.saf) ∧
        (n = 0 → more → j = i ++ [{ q with df := false }] ∧ (u.nif 0x180).safPool = (s.nif 0x180).safPool + 1 ∧
          u.saf = { s.saf with spine := [{ req := q, since := s.tick, sent := true }] }) ∧
        (n = 0 → ¬more → u.ni = s.ni ∧ u.saf = { s.saf with spine := [{ req := q, since := s.tick }] }))) ∧
    (m = 3 → s.que.any (fun kx => kx.2.reload) = false → ∃ u, exec (.slcThaw sl) s = .next u ∧ u.slcState sl = 1 ∧
      (∀ k i, k < 48 → i < 32 → mine k i → bitOf (s.thrEntry k (s.thr k i).tep i) 20 = true →
        (u.thr k i).ipend = (s.thr k i).ipend ||| 4 ∧ (u.thr k i).pc = (s.thr k i).pc ∧
        (∀ v, (s.thr k i).held = some .wait → (s.thr k i).until_ = some v → s.prim ≠ .drain → s.prim ≠ .quiesced →
          (u.thr k i).st = .wait ∧ (u.thr k i).held = none) ∧
        ((s.thr k i).held = some .ready → s.prim ≠ .drain → s.prim ≠ .quiesced →
          (u.thr k i).st = .ready ∧ (u.thr k i).held = none)) ∧
      (∀ k i, ¬mine k i → u.thr k i = s.thr k i)) ∧
    (1 ≤ m → m ≤ 3 → ∃ u, exec (.slcReset sl) s = .next u ∧ u.slcState sl = 4 ∧ (u.slice sl).at_ = s.tick ∧
      (u.slice sl).saving = none ∧ (u.slice sl).restoring = false ∧ u.reg .SLC_SQUASH (slcBase sl) = 0 ∧ stopped u ∧
      { u with slc := s.slc, ecl := s.ecl, regs := s.regs, cyc := s.cyc, freeze := s.freeze } = s) ∧
    (m = 3 → idle → ∃ u, let a := (u.slice sl).area
      let e := a.length - 64
      exec (.slcSave sl) s = .next u ∧ (u.slice sl).saving = some a.length ∧ areaNat a 0 4 = 0x45434C53 ∧ areaNat a 4 2 = 1 ∧
      areaNat a 6 1 = sl ∧ areaNat a e 4 = (crc32c (a.take e)).toNat ∧ (u.slice sl).mode = (s.slice sl).mode ∧
        { u with slc := s.slc } = s) ∧
    (m = 3 → idle → ∃ u, exec (.slcRestore sl) s = .next u ∧ u.slice sl = { s.slice sl with restoring := true } ∧
      { u with slc := s.slc } = s) ∧
    (m ≠ 1 → exec (.slcFreeze sl) s = .next (s.slcReject sl)) ∧ (m ≠ 3 → exec (.slcThaw sl) s = .next (s.slcReject sl)) ∧
    (m = 0 ∨ m = 4 → exec (.slcReset sl) s = .next (s.slcReject sl)) ∧
    (m ≠ 3 ∨ ¬idle → exec (.slcSave sl) s = .next (s.slcReject sl) ∧ exec (.slcRestore sl) s = .next (s.slcReject sl)) ∧
    (s.slcReject sl).rf .SLC_STATUS 3 1 (slcBase sl) = 1 ∧ { s.slcReject sl with regs := s.regs, cyc := s.cyc } = s

/-- A freezing slice is FROZEN once its marker has completed and SLC_TRK reads 0, and STUCK with TIMEOUT at L1 at its limit; a reset
squashes at the limit and clears at SLC_TRK = 0; SAVE and RESTORE end with SAVED or ERR; SLC_QLIVE is live (R318, R320, R321, R324
to R328).
Where a clause says that a command whose event is not due changes nothing, that is the model's choice (log 2).
Completion: its clauses conclude that exec answers next, with the command's own effect, under conditions on the state and the
operands alone, for SLICE_FROZEN, FREEZE_STUCK, SLICE_RESET_SQUASH, SLICE_RESET_CLEAR, SAVE_DONE, RESTORE_DONE, SLC_QLIVE_WRITE. -/
def Obligations.SliceOperationsRunTheirCourse : Prop :=
  (∀ (s : State) (sl : Fin 64), let c := s.slice sl
    (c.mode = .freezing → c.marker = 0 → s.slcTrk sl = 0 → ∃ u, exec (.sliceFrozen sl) s = .next u ∧ u.freeze = true ∧
      u.slice sl = { c with mode := .frozen }) ∧
    (c.mode ≠ .freezing ∨ c.marker ≠ 0 ∨ s.slcTrk sl ≠ 0 → exec (.sliceFrozen sl) s = .next s) ∧
    (c.mode = .freezing → c.stuck = false → c.at_ + s.slcTmo sl ≤ s.tick → ∃ u, exec (.freezeStuck sl) s = .next u ∧
      u.slice sl = { c with stuck := true } ∧
      ∃ r ∈ u.fc.queue, r.src = 32 * 28 + 9 ∧ r.level = s.raisedLevel 9 1 ∧ r.detail = sl ∧ r.unit = fidUnit 0x180) ∧
    (c.mode ≠ .freezing ∨ c.stuck = true ∨ s.tick < c.at_ + s.slcTmo sl → exec (.freezeStuck sl) s = .next s) ∧
    (c.mode = .resetting → c.squashed = false → c.at_ + s.slcTmo sl ≤ s.tick → s.slcTrk sl ≠ 0 →
      exec (.sliceResetSquash sl) s = .next (s.slcSquash sl) ∧ ((s.slcSquash sl).slice sl).squashed = true) ∧
    (c.mode ≠ .resetting ∨ c.squashed = true ∨ s.tick < c.at_ + s.slcTmo sl → exec (.sliceResetSquash sl) s = .next s) ∧
    (c.mode = .resetting → s.slcTrk sl = 0 → exec (.sliceResetClear sl) s = .next (s.slcClear sl) ∧
      (s.slcClear sl).slice sl = { marker := c.marker }) ∧
    (c.mode ≠ .resetting ∨ s.slcTrk sl ≠ 0 → exec (.sliceResetClear sl) s = .next s) ∧
    (∀ v : Word32, ∃ u, exec (.slcQliveWrite sl v) s = .next u ∧ u.rf .SLC_QLIVE 0 17 (slcBase sl) = v.toNat % 2 ^ 17 ∧
      { u with regs := s.regs, cyc := s.cyc } = s)) ∧
  (∀ (s : State) (f i : Nat) (e : SrcEnt), isCluster f = false →
    (e.state = .issued → (s.squashPiece f i e).srcEnt f i = some { e with squash := true, status := 4 }) ∧
    (e.state ≠ .issued → e.state ≠ .poolWait → (s.squashPiece f i e).srcEnt f i = some { e with state := .answered, status := 4 })) ∧
  (∀ (x : Thr) (e : Nat), let y := x.restart e
    y.pc = fld e 0 14 ∧ y.st = .ready ∧ (∀ r, y.reg r = 0) ∧ y.ipend = x.ipend ||| 4 ∧ y.ie = false ∧ y.intrap = false ∧
    y.tvec = x.tvec ∧ y.epc = x.epc ∧ y.scratch = x.scratch ∧ y.slice = x.slice) ∧
  (∀ (s : State) (b i : Nat), i < 128 → SMap.get 0 (s.clearBank b).ctr (128 * b + i) = 0) ∧
  (∀ (s : State) (sl : Fin 64) (status : BitVec 8) (len : Nat), (s.slice sl).saving = some len →
    let ok := (s.areaOk 0x180 (s.saveBase sl) len 0x13).1
    ∃ u, exec (.saveDone sl status) s = .next u ∧ (u.slice sl).saving = none ∧ (u.slice sl).mode = (s.slice sl).mode ∧
      (ok = true → status = 0 → (u.slice sl).saved = true ∧ (u.slice sl).err = 0) ∧
      (ok = false ∨ status ≠ 0 → (u.slice sl).saved = (s.slice sl).saved ∧ (u.slice sl).err = 3)) ∧
  (∀ (s : State) (sl : Fin 64) (a : List Byte) (status : BitVec 8), (s.slice sl).restoring = true →
    let r := s.areaOk 0x180 (s.saveBase sl) a.length 0x12
    let err := if r.1 = false ∨ status ≠ 0 then 3 else r.2.restoreErr sl a
    ∃ u, exec (.restoreDone sl a status) s = .next u ∧ (u.slice sl).restoring = false ∧ (u.slice sl).err = err ∧
      (u.slice sl).mode = (s.slice sl).mode ∧ (err ≠ 0 → u.ecl = s.ecl)) ∧
  (∀ (s : State) (sl : Fin 64) (a : List Byte) (status : BitVec 8), (s.slice sl).saving = none → (s.slice sl).restoring = false →
    exec (.saveDone sl status) s = .next s ∧ exec (.restoreDone sl a status) s = .next s)

/-- An area as SAVE writes it passes every check of a RESTORE into the same slice, and its records give back what was saved; TOKENS is
clamped to BURST (R324, R325). -/
def Obligations.SavedAreaRestoresWhatItHolds : Prop :=
  (∀ (s : State) (sl : Nat), sl < 64 → (∀ q, (s.qdyn q).cause < 256) → s.restoreErr sl (withTrailer (s.saveBody sl)) = 0) ∧
  (∀ (s : State) (q : Nat) (y : QDyn), let x := s.qdyn q
    x.head < 2 ^ 17 → x.tail < 2 ^ 17 → x.deficit < 2 ^ 32 → x.cause < 256 → -2 ^ 31 ≤ x.bkt.tokens → x.bkt.tokens < 2 ^ 31 →
    (s.queueSave q).length = 32 ∧ let z := y.load (leNat (s.queueSave q))
    z.head = x.head ∧ z.tail = x.tail ∧ z.deficit = x.deficit ∧ z.paused = x.paused ∧ z.cause = x.cause ∧
    z.bkt.tokens = clampTokens x.bkt.tokens y.bkt.burst ∧ z.msgs = y.msgs ∧ z.armed = y.armed) ∧
  (∀ (x y : Thr) (t : Fin 1536), x.pc < 2 ^ 14 → x.epc < 2 ^ 14 → x.tvec < 2 ^ 14 → x.cause < 2 ^ 16 → x.ien < 8 → x.ipend < 8 →
    (x.save t).length = 320 ∧ let z := y.load (x.save t)
    (∀ r, r < 32 → z.reg r = x.reg r) ∧ z.pc = x.pc ∧ z.epc = x.epc ∧ z.tvec = x.tvec ∧ z.tvld = x.tvld ∧ z.cause = x.cause ∧
    z.taddr = x.taddr ∧ z.ien = x.ien ∧ z.ipend = x.ipend ∧ z.scratch = x.scratch ∧ z.ie = x.ie ∧ z.pie = x.pie ∧
    z.intrap = x.intrap ∧ z.dovf = x.dovf ∧ z.dz = x.dz ∧ z.slice = y.slice ∧ z.tep = y.tep)

/-! ### Faults -/

/-- A FaultRpt is recorded once and answered, a frame of an alarm line and a software fault are recorded, each with its level, unit and
time, at the greater of source level and BASE; a report without its Comp for 8 µs goes again (R333 to R336, R356).
Where a clause says that a command whose event is not due changes nothing, that is the model's choice (log 2).
Completion: its clauses conclude that exec answers next, with the command's own effect, under conditions on the state and the
operands alone, for FAULT_REPORT, ALARM_FRAME, FAULT_REPORT_RESEND, SW_RAISE. -/
def Obligations.FaultsReachTheCollector : Prop :=
  (∀ (s : State) (p : Pkt), (s.nif 0x183).inbox = [p] → p.net = .req → p.opc = 0x1D →
    let s0 := (s.setNi 0x183 { s.nif 0x183 with inbox := [] }).answer 0x183 p 0
    let kept := s.fc.recent.filter (fun x => decide (s.tick < x.2.2 + 64 * 3000))
    let a := p.addr.toNat
    let age := ageOf (s.tim.c % 65536) p.inj.toNat
    (kept.any (fun x => x.1 == p.src && x.2.1 == p.txid) = true →
      exec .faultReport s = .next { s0 with fc := { s0.fc with recent := kept } }) ∧
    (kept.any (fun x => x.1 == p.src && x.2.1 == p.txid) = false → ∃ (r : FaultRec) (s1 : State),
      s1 = (if bitOf a 48 then s0.bump .FC_MERGED else s0) ∧
      exec .faultReport s = .next (({ s1 with fc := { s1.fc with recent := (p.src, p.txid, s.tick) :: kept } } : State).collect r) ∧
      r.src = fld a 0 10 ∧ r.level = fld a 10 3 ∧ r.unit = ⟨bitOf a 23, fld a 13 10⟩ ∧ r.delay = fld a 24 12 ∧
      r.detail = fld a 36 12 ∧ r.merged = bitOf a 48 ∧ r.inj = bitOf a 49 ∧ (r.tsat = true ↔ p.old = true ∨ fld a 24 12 = 0xFFF) ∧
      (p.old = false → fld a 24 12 ≠ 0xFFF → (r.ns, r.frac) = s.timeAgo (age - 1 + fld a 24 12)) ∧
      (p.old = false → fld a 24 12 = 0xFFF → (r.ns, r.frac) = s.timeAgo (age - 1)) ∧
      (p.old = true → (r.ns, r.frac) = s.timeAgo 0))) ∧
  (∀ s : State, (s.nif 0x183).inbox.filter (fun p => p.net == .req && p.opc == 0x1D) = [] → exec .faultReport s = .next s) ∧
  (∀ (s : State) (node : Fin 144) (a : Alarm) (rest : List Alarm),
    (s.fc.alarms = a :: rest → a.node = node → ∃ r : FaultRec,
      exec (.alarmFrame node) s = .next (({ s with fc := { s.fc with alarms := rest } } : State).collect r) ∧ r.src = a.src ∧
      r.level = a.level ∧ r.detail = a.detail ∧ r.inj = a.inj ∧ r.unit = nodeUnit node ∧
      (r.ns, r.frac) = s.timeAgo ((s.tim.c % 65536 + 65536 - a.count) % 65536)) ∧
    (s.fc.alarms.filter (fun a => a.node == node.val) = [] → exec (.alarmFrame node) s = .next s)) ∧
  (∀ (s : State) (r : FaultRec), (s.collect r).fc.queue.length = s.fc.queue.length + 1 ∧
    ({ r with arr := s.tick } : FaultRec) ∈ (s.collect r).fc.queue ∧
    { s.collect r with fc := s.fc } = s ∧ ({ (s.collect r).fc with queue := s.fc.queue } : FcSt) = s.fc) ∧
  (∀ (s : State) (f : Fid) (r : Report), assigned f.toNat = true →
    ((s.nif f.toNat).reports = [r] → r.sent + 8 * 3000 ≤ s.tick → s.prim ≠ .halt → exec (.faultReportResend f) s =
      .next ((s.setNi f.toNat { s.nif f.toNat with reports := [{ r with sent := s.tick }] }).inject f.toNat (r.pkt 0xFFF))) ∧
    ((s.nif f.toNat).reports = [r] → s.tick < r.sent + 8 * 3000 → exec (.faultReportResend f) s = .next s) ∧
    ((s.nif f.toNat).reports = [] → exec (.faultReportResend f) s = .next s)) ∧
  (∀ (s : State) (src : Fid), assigned src.toNat = true → let v := s.reg .FC_SWRAISE
    exec (.swRaise src) s = .next (s.collect { src := 32 * 31 + (24 + fld v 0 3), level := s.raisedLevel (24 + fld v 0 3) (fld v 3 1),
                                               unit := fidUnit src.toNat, detail := fld v 4 12, ns := s.ns, frac := s.tim.frac })) ∧
  (∀ (s : State) (cls lvl : Nat),
    s.raisedLevel cls lvl = max lvl (min (s.rf .FC_CLASS_CFGc 0 3 0 cls) (classCeil cls)) ∧ (lvl ≤ s.raisedLevel cls lvl))

/-- The collector takes the oldest record, at most one in an FCLK: pending level and escalation, the first-fault latch, FAULT_N with its
2 µs, HALT at L4; FC_ACK clears classes, and a release waits for the minimum or is refused (R337 to R343, R350).
Where a clause says that a command whose event is not due changes nothing, that is the model's choice (log 2).
Completion: its clauses conclude that exec answers next, with the command's own effect, under conditions on the state and the
operands alone, for FAULT_TAKE, PIN_MINIMUM_END, FC_ACK, FC_PIN_RELEASE. -/
def Obligations.FaultsAreTakenAndAcknowledged : Prop :=
  (∀ s : State, (s.fc.queue = [] ∨ s.fc.takeAt = s.tick + 1 → exec (.faultTake .clean) s = .next s) ∧
    (∀ r rest, s.fc.queue = r :: rest → s.fc.takeAt ≠ s.tick + 1 → s.fc.inject = none → exec (.faultTake .clean) s =
      .next (({ s with fc := { s.fc with queue := rest, takeAt := s.tick + 1 } } : State).takeFault r))) ∧
  (∀ (s : State) (r : FaultRec), let c := r.src % 32
    s.lvlOf r = (if 1 ≤ r.level ∧ 1 ≤ s.pendWas c then max r.level (min (s.pendWas c + 1) (classCeil c)) else r.level) ∧
    (s.fc.ackAt ≠ s.tick + 1 → s.pendWas c = s.pendOf c) ∧
    (r.level < 4 → s.lvlOf r < 4) ∧
    (s.prim = .halt → s.takeFault r = (s.bump .FC_CCNTc 0 c).latchFault r r.level) ∧
    (s.prim ≠ .halt → r.level ≤ 1 → s.lvlOf r ≤ 1 → let u := s.takeFault r
      let l := s.lvlOf r
      (∀ d, d < 32 → u.pendOf d = if d = c ∧ l ≠ 0 then max (s.pendOf c) l else s.pendOf d) ∧ u.prim = s.prim ∧
      u.fc.pinAt = (if l = 1 ∧ s.pinLvl = 1 then some ((s.tick / 120 + 1) * 120) else s.fc.pinAt) ∧
      u.reg .FC_CCNTc 0 c = min (s.reg .FC_CCNTc 0 c + 1) 0xFFFFFFFF) ∧
    (s.prim ≠ .halt → s.prim ≠ .test → r.level = 4 → (s.takeFault r).prim = .halt ∧ (s.takeFault r).fc.relPend = false ∧
      (s.takeFault r).fc.pinAt = some ((s.tick / 120 + 1) * 120))) ∧
  (∀ (s : State) (r : FaultRec) (k : FenceKey), s.faultEffect r 0 = s ∧ s.faultEffect r 1 = s ∧
    (fenceTarget r = some k → s.faultEffect r 2 = s.orderFence k) ∧ (fenceTarget r = none → s.faultEffect r 2 = s) ∧
    (r.src / 32 < 28 → s.faultEffect r 3 = s.orderFence (.quadrant (r.src / 32 / 7))) ∧ (28 ≤ r.src / 32 → s.faultEffect r 3 = s)) ∧
  (∀ (s : State) (r : FaultRec) (l : Nat), let u := s.latchFault r l
    { u with regs := s.regs, cyc := s.cyc } = s ∧
    (s.rf .FC_FIRST 31 1 = 1 → u.rf .FC_OVF 0 1 = 1 ∧ u.reg .FC_COUNT = min (s.reg .FC_COUNT + 1) 0xFFFFFFFF ∧
      ∀ g, g = .FC_FIRST ∨ g = .FC_FIRST_DET ∨ g = .FC_FIRST_NS ∨ g = .FC_FIRST_S_LO ∨ g = .FC_FIRST_S_HI → u.reg g = s.reg g) ∧
    (s.rf .FC_FIRST 31 1 = 0 → r.src < 1024 → l < 8 → r.unit.id < 1024 → u.rf .FC_FIRST 0 10 = r.src ∧ u.rf .FC_FIRST 10 3 = l ∧
      u.rf .FC_FIRST 13 10 = r.unit.id ∧ u.rf .FC_FIRST 23 1 = r.unit.node.toNat ∧ u.rf .FC_FIRST 24 1 = r.inj.toNat ∧
      u.rf .FC_FIRST 31 1 = 1 ∧ u.reg .FC_FIRST_NS = nsOf r.ns ∧ u.reg .FC_FIRST_S_LO = secOf r.ns % 2 ^ 32 ∧
      (r.detail < 4096 → r.delay < 4096 → u.rf .FC_FIRST_DET 0 12 = r.detail ∧ u.rf .FC_FIRST_DET 12 12 = r.delay ∧
        u.rf .FC_FIRST_DET 24 1 = r.tsat.toNat ∧ u.rf .FC_FIRST_DET 25 1 = r.merged.toNat))) ∧
  (∀ (s : State) (v : Word32), s.fc.took < 160 → ∃ u, exec (.fcAck v) s = .next u ∧
    (∀ c, c < 32 → u.pendOf c = if bitOf v.toNat c then
      (if s.fc.takeAt = s.tick + 1 ∧ s.fc.took % 32 = c then s.fc.took / 32 else 0) else s.pendOf c) ∧
    (s.fc.takeAt ≠ s.tick + 1 → s.fc.ackAt ≠ s.tick + 1 → ∀ c, c < 32 → u.pendWas c = s.pendOf c) ∧
    u.fc = { s.fc with ackAt := s.tick + 1, ackWas := u.fc.ackWas } ∧ { u with regs := s.regs, cyc := s.cyc, fc := s.fc } = s) ∧
  (∀ s : State,
    (s.pinFree = false → exec .fcPinRelease s = .next (s.setRf .FC_STATUS 3 1 1)) ∧
    (s.pinFree = true → s.minPulse = true → exec .fcPinRelease s = .next { s with fc := { s.fc with relPend := true } }) ∧
    (s.pinFree = true → s.minPulse = false →
      exec .fcPinRelease s = .next { s with fc := { s.fc with pinAt := none, pinFrom := none, relPend := false } }) ∧
    (s.fc.relPend = false ∨ s.minPulse = true → exec .pinMinimumEnd s = .next s) ∧
    (s.fc.relPend = true → s.minPulse = false → s.pinFree = false →
      exec .pinMinimumEnd s = .next { s with fc := { s.fc with relPend := false } }) ∧
    (s.fc.relPend = true → s.minPulse = false → s.pinFree = true →
      exec .pinMinimumEnd s = .next { s with fc := { s.fc with relPend := false, pinAt := none, pinFrom := none } }) ∧
    (∀ r : FaultRec, 1 ≤ r.level → s.prim ≠ .halt → s.pinLvl ≤ s.lvlOf r → (s.takeFault r).fc.pinAt = some ((s.tick / 120 + 1) * 120)) ∧
    (∀ t, s.fc.pinAt = some t → (s.minPulse = true ↔ s.tick < t + 2 * 3000)))

/-- ARM takes the fields of FC_INJ_CTRL or is refused, DISARM ends an injection; a spine copy that disagrees raises SPINE_VOTE at L1 and
resynchronises, and no majority raises it at L4 (R352, R353).
Where a clause says that a command whose event is not due changes nothing, that is the model's choice (log 2).
Completion: its clauses conclude that exec answers next, with the command's own effect, under conditions on the state and the
operands alone, for INJ_ARM, INJ_DISARM, SPINE_VOTE_MISMATCH, VOTE_RESYNC_DONE. -/
def Obligations.InjectionAndSpineVoting : Prop :=
  (∀ s : State, let v := s.reg .FC_INJ_CTRL
    let u : UnitRef := ⟨bitOf v 10, fld v 0 10⟩
    let refused := s.fc.inject ≠ none ∨ hasChecker u (fld v 11 4) (fld v 24 3) = false ∨ (u.node = true ∧ s.rtrFenced u.id = true) ∨
      (u.node = false ∧ s.niFenced u.id = true) ∨ (s.prim ≠ .run ∧ s.prim ≠ .dual ∧ s.prim ≠ .drain ∧ s.prim ≠ .quiesced) ∨
      (fld v 11 4 = 11 ∧ s.resyncing (u.id - 0x180) = true)
    (refused → exec .injArm s = .next (s.setRf .FC_INJ_CTRL 29 1 1)) ∧
    let j : Inject := { unit := u, chk := fld v 11 4, two := bitOf v 15, port := fld v 24 3, left := max 1 (fld v 16 8) }
    (¬refused → ∃ t, exec .injArm s = .next t ∧ t.fc = { s.fc with inject := some j } ∧
      t.rf .FC_INJ_LEFT 0 8 = max 1 (fld v 16 8) ∧ { t with fc := s.fc, regs := s.regs, cyc := s.cyc } = s)) ∧
  (∀ (u : UnitRef) (chk port : Nat), 13 ≤ chk → hasChecker u chk port = false) ∧
  (∀ s : State, ∃ t, exec .injDisarm s = .next t ∧ t.fc = { s.fc with inject := none } ∧ t.rf .FC_INJ_LEFT 0 8 = 0 ∧
    { t with fc := s.fc, regs := s.regs, cyc := s.cyc } = s) ∧
  (∀ (s : State) (n : Fin 6) (k : Fin 3), let f := fidUnit (0x180 + n.val)
    let d := 4 * n.val + k.val
    exec (.spineVoteMismatch n none) s = .next (s.raiseSpine 28 17 4 f (4 * n.val)) ∧
    (s.rf .FC_VOTE (3 * n.val + k.val) 1 = 1 → exec (.spineVoteMismatch n (some k)) s = .next s) ∧
    (s.rf .FC_VOTE (3 * n.val + k.val) 1 = 0 → s.resyncing n = true →
      exec (.spineVoteMismatch n (some k)) s = .next (s.raiseSpine 28 17 4 f d)) ∧
    (s.resyncing n = false → ∃ t : State, exec (.spineVoteMismatch n (some k)) s = .next (t.raiseSpine 28 17 1 f d) ∧
      t.rf .FC_VOTE (3 * n.val + k.val) 1 = 1 ∧ { t with regs := s.regs, cyc := s.cyc } = s) ∧
    (∃ t, exec (.voteResyncDone n k) s = .next t ∧ t.rf .FC_VOTE (3 * n.val + k.val) 1 = 0 ∧
      (∀ i, i < 18 → i ≠ 3 * n.val + k.val → t.rf .FC_VOTE i 1 = s.rf .FC_VOTE i 1) ∧ { t with regs := s.regs, cyc := s.cyc } = s))

/-! ### Power -/

/-- Requests, the checks of R362, the pending slot, the handshake with its refusals and DEFERs, and the end of SAVE (R361 to R363, R365
to R367, R377, R378).
Where a clause says that a command whose event is not due changes nothing, that is the model's choice (log 2).
Completion: its clauses conclude that exec answers next, with the command's own effect, under conditions on the state and the
operands alone, for PWR_DOM_REQ, PWR_QREQ_GO, IDLE_TIMEOUT, POWER_ANSWER, DEFER_REASK, NOANSWER_TIMEOUT, ENTRY_SAVE_DONE. -/
def Obligations.PowerEntriesAskTheirUnits : Prop :=
  (∀ (s : State) (d : Fin 18) (t : BitVec 3), let x := s.domain d
    let off : Prop := s.prim = .boot ∨ s.prim = .load ∨ s.prim = .test ∨ s.prim = .halt
    let q := domQuad d
    let new := 2 ^ domBit d
    (off ∨ d.val = 0 ∨ 5 ≤ t.toNat ∨ (d.val = 1 ∧ 2 ≤ t.toNat) → exec (.pwrDomReq d t) s = .next s.pwrReject.pump) ∧
    (¬off → 1 ≤ d.val → x.phase = 0 → x.st = 0 → exec (.pwrDomReq d 1) s =
      .next (s.setDomain d (({ x with target := 1, group := 0, abandon := false, imaged := false } : Dom).ask d s.tick)).pump) ∧
    (¬off → 1 ≤ d.val → d.val = 1 → t = 1 → x.phase ≠ 0 →
      exec (.pwrDomReq d t) s = .next (s.setDomain d { x with pend := some t.toNat }).pump) ∧
    (¬off → 2 ≤ d.val → 1 ≤ t.toNat → t.toNat < 5 → x.phase ≠ 0 →
      exec (.pwrDomReq d t) s = .next (s.setDomain d { x with pend := some t.toNat }).pump) ∧
    (¬off → 2 ≤ d.val → 2 ≤ t.toNat → t.toNat < 5 → x.phase = 0 → x.st ≠ t.toNat → ∀ r, s.checkEntry q new = some r →
      exec (.pwrDomReq d t) s = .next (s.refused d (fidUnit 0x184) r).pump) ∧
    (¬off → 2 ≤ d.val → 2 ≤ t.toNat → t.toNat < 5 → x.phase = 0 → x.st < 2 → s.checkEntry q new = none → s.quadMask q = 0 →
      exec (.pwrDomReq d t) s = .next ((s.setDomain d { x with phase := 2, target := t.toNat, group := new, abandon := false,
                                                               imaged := false, low := 0 }).wantImage
        { key := 5 * 4096 + 16 * q + new, sort := 1, dom := some d.val }).pump) ∧
    (¬off → 1 ≤ d.val → exec (.pwrDomReq d 0) s = .next (s.wakeLevel d).pump)) ∧
  (∀ (s : State) (q new : Nat), s.checkEntry q new = none → let m := s.quadMask q ||| new
    (bitOf m 0 = true → m = 15) ∧ (s.quadMask q ≠ 0 → m = s.quadMask q) ∧ s.fallback = false ∧
    (∀ p, p < 4 → p ≠ q → s.quadMask p = 0)) ∧
  (∀ (s : State) (n : Fin 4), let v := s.reg .PWR_QREQn 0 n
    (fld v 0 4 = 0 → exec (.pwrQreqGo n) s = .next s) ∧
    (fld v 0 4 ≠ 0 → exec (.pwrQreqGo n) s = .next (s.pwrRequest (maskDoms n (fld v 0 4)) (fld v 4 3)).pump)) ∧
  (∀ (s : State) (d : Fin 18), let x := s.domain d
    let after := s.rf .PWR_DOMd_CFG 8 16 (domBase d)
    (d.val ≠ 0 → s.prim = .run → after ≠ 0 → x.st = 0 → x.phase = 0 → x.idleAt + 64 * after ≤ s.tick → s.domainBusy d = false →
      exec (.idleTimeout d) s = .next (s.setDomain d (({ x with target := 1, group := 0, abandon := false, imaged := false } : Dom).ask
        d s.tick))) ∧
    (after = 0 ∨ x.st ≠ 0 ∨ x.phase ≠ 0 ∨ s.tick < x.idleAt + 64 * after ∨ s.domainBusy d = true → exec (.idleTimeout d) s = .next s)) ∧
  (∀ (s : State) (d : Fin 18) (u : UnitRef), unitExists u = true → let x := s.domain d
    let k := unitKey u
    let rest := x.asking.filter (· != k)
    let n := (SMap.get (0, 0) x.defers k).2
    (x.phase ≠ 4 ∨ x.asking.contains k = false →
      exec (.powerAnswer d u) s = .next s ∧ exec (.noanswerTimeout d u) s = .next s) ∧
    (x.phase = 4 → x.asking.contains k = true →
      (∀ r, s.refusal d u = some r → exec (.powerAnswer d u) s = .next (s.refuseEntry d u r).pump) ∧
      (s.refusal d u = none → s.unitBusy d u = true → s.rf .PWR_DEFER 8 8 ≤ n →
        exec (.powerAnswer d u) s = .next (s.refuseEntry d u 7).pump) ∧
      (s.refusal d u = none → s.unitBusy d u = true → n < s.rf .PWR_DEFER 8 8 → exec (.powerAnswer d u) s =
        .next (s.setDomain d { x with asking := rest, defers := SMap.set (0, 0) x.defers k (s.tick, n + 1) })) ∧
      (s.refusal d u = none → s.unitBusy d u = false → exec (.powerAnswer d u) s =
        .next ((s.setDomain d { x with asking := rest, defers := SMap.del x.defers k }).askDone d).pump)) ∧
    (x.phase = 4 → x.asking.contains k = false → n ≠ 0 →
      (SMap.get (0, 0) x.defers k).1 + 8 * max 1 (s.rf .PWR_DEFER 0 8) ≤ s.tick → ∃ t, exec (.deferReask d u) s = .next t ∧
        (t.domain d).asking = x.asking ++ [k] ∧ (SMap.get (0, 0) (t.domain d).defers k) = (s.tick, n) ∧ { t with dom := s.dom } = s) ∧
    (n = 0 ∨ s.tick < (SMap.get (0, 0) x.defers k).1 + 8 * max 1 (s.rf .PWR_DEFER 0 8) → exec (.deferReask d u) s = .next s) ∧
    (x.phase = 4 → x.asking.contains k = true → n = 0 →
      (x.at_ + 128 ≤ s.tick → exec (.noanswerTimeout d u) s = .next ((s.raisePower d 14 1 u).refuseEntry d u 8).pump) ∧
      (s.tick < x.at_ + 128 → exec (.noanswerTimeout d u) s = .next s))) ∧
  (∀ (s : State) (d : Fin 18), let x := s.domain d
    x.phase = 4 → x.asking = [] → x.defers = [] → x.abandon = false → x.target = 1 → x.st = 0 → x.group = 0 → x.fabric = false →
    x.pend = none → ∃ t, s.askDone d = t ∧ (t.domain d).st = 1 ∧ (t.domain d).phase = 0 ∧ (t.domain d).clamped = false ∧
      { t with dom := s.dom } = s) ∧
  (∀ (s : State) (d : Fin 18) (u : UnitRef) (r : Nat), u.id < 1024 → r < 16 → let x := s.domain d
    let t := s.refused d u r
    t.rf .PWR_DOMd_LASTREF 0 10 (domBase d) = u.id ∧ t.rf .PWR_DOMd_LASTREF 11 4 (domBase d) = r ∧
    t.reg .PWR_DOMd_REFUSE_CNT (domBase d) = min (s.reg .PWR_DOMd_REFUSE_CNT (domBase d) + 1) 0xFFFFFFFF ∧
    (x.phase = 4 → x.group = 0 → x.fabric = false → x.imaged = false → x.pend = none → ∃ y, s.refuseEntry d u r = y ∧
      (y.domain d).phase = 0 ∧ (y.domain d).st = (if 2 ≤ x.st then x.st else 0) ∧ (∀ e, e ≠ d.val → y.domain e = s.domain e))) ∧
  (∀ (s : State) (d : Fin 18) (status : BitVec 8), let x := s.domain d
    let r := s.slotOk d 0x13
    let bad : Prop := x.target = 4 ∧ (status ≠ 0 ∨ r.1 = false)
    let sv := if x.target = 4 then r.2 else s
    (x.phase ≠ 5 → exec (.entrySaveDone d status) s = .next s) ∧
    (x.phase = 5 → bad → x.st < 2 → exec (.entrySaveDone d status) s = .next (r.2.refuseEntry d (fidUnit 0x184) 9).pump) ∧
    (x.phase = 5 → bad → 2 ≤ x.st → exec (.entrySaveDone d status) s =
      .next (((r.2.refused d (fidUnit 0x184) 9).setDomain d { x with phase := 0, abandon := false }).endSeq d)) ∧
    (x.phase = 5 → ¬bad → x.abandon = true → x.st < 2 → exec (.entrySaveDone d status) s = .next (sv.abandonEntry d).pump) ∧
    (x.phase = 5 → ¬bad → x.abandon = true → 2 ≤ x.st →
      exec (.entrySaveDone d status) s = .next (sv.setDomain d { x with phase := 0, abandon := false, wake := true })) ∧
    (x.phase = 5 → ¬bad → x.abandon = false → (x.target ≠ 3 ∨ d.val < 2 ∨ domBit d ≠ 3) →
      exec (.entrySaveDone d status) s = .next (sv.readyCommit d).pump) ∧
    (x.phase = 5 → x.abandon = false → x.target = 3 → 2 ≤ d.val → domBit d = 3 →
      exec (.entrySaveDone d status) s = .next ((s.saveSigs d).readyCommit d).pump))

/-- Voltage steps end at VDone, are tried again three times and fail within their limit; a wake is accepted by what the domain is at,
runs to WAKE_HELD and waits for UNCLAMP; fabric sleep takes every domain (R364, R368, R373 to R376, R383).
Where a clause says that a command whose event is not due changes nothing, that is the model's choice (log 2).
Completion: its clauses conclude that exec answers next, with the command's own effect, under conditions on the state and the
operands alone, for VDONE, AVS_STATUS_POLL, AVS_VOLTAGE_WRITE_DONE, WAKE_ACCEPT, WAKE_START_DONE, PWR_UNCLAMP, PWR_FABREQ_GO,
PWR_FABREQ_UNCLAMP, PWR_ANISE_SEND. -/
def Obligations.PowerVoltageWakeAndFabricSleep : Prop :=
  (∀ (s : State) (d : Fin 18), let x := s.domain d
    (x.polling = false → exec (.vdone d) s = .next s) ∧
    (x.polling = true → x.phase = 7 → x.pend = none →
      exec (.vdone d) s = .next (s.setDomain d { x with st := x.target, phase := 0, polling := false })) ∧
    (x.polling = true → x.phase ≠ 7 → exec (.vdone d) s = .next (s.setDomain d { x with phase := 9, polling := false })) ∧
    (∀ ok ack, x.phase = 7 ∨ x.phase = 8 → x.polling = false →
      (ok = true → ack = 0 → exec (.avsVoltageWriteDone d ok ack) s =
        .next (s.setDomain d { x with polling := true, at_ := s.tick, pollAt := s.tick })) ∧
      (ok = false ∨ ack ≠ 0 → x.tries < 3 →
        exec (.avsVoltageWriteDone d ok ack) s = .next (s.setDomain d { x with tries := x.tries + 1 })) ∧
      (ok = false ∨ ack ≠ 0 → 3 ≤ x.tries → exec (.avsVoltageWriteDone d ok ack) s = .next (s.avsFail d ack.toNat false))) ∧
    (∀ ok ack, (x.phase ≠ 7 ∧ x.phase ≠ 8) ∨ x.polling = true → exec (.avsVoltageWriteDone d ok ack) s = .next s) ∧
    (∀ alert, d.val ≠ 0 → x.polling = true → let lim := 3000 * max 1 (s.rf .PWR_AVS 0 16)
      (x.at_ + lim ≤ s.tick → exec (.avsStatusPoll d alert) s = .next (s.avsFail d 0 true)) ∧
      (s.tick < x.at_ + lim → x.pollAt + 12000 ≤ s.tick →
        exec (.avsStatusPoll d alert) s = .next (s.setDomain d { x with pollAt := s.tick })) ∧
      (s.tick < x.at_ + lim → s.tick < x.pollAt + 12000 → exec (.avsStatusPoll d alert) s = .next s)) ∧
    (d.val ≠ 0 → x.polling = false → x.st = 0 → x.phase = 0 → s.rf .PWR_AVS 16 8 ≠ 0 →
      x.pollAt + 3000000 * s.rf .PWR_AVS 16 8 ≤ s.tick → let t := s.setDomain d { x with pollAt := s.tick }
      exec (.avsStatusPoll d false) s = .next t ∧ exec (.avsStatusPoll d true) s = .next (t.raisePower d 14 3)) ∧
    (∀ ack tmo, x.pend = none → let t := s.avsFail d ack tmo
      (t.domain d).phase = 0 ∧ (t.domain d).st = (if x.phase = 7 then 2 else x.st) ∧ t.rf .PWR_DOMd_STATUS 13 1 (domBase d) = 1 ∧
      ∃ r ∈ t.fc.queue, r.src % 32 = 14 ∧ r.level = s.raisedLevel 14 1)) ∧
  (∀ (s : State) (d : Fin 18), let s1 := s.takePwrCtl d
    let x := s1.domain d
    (d.val = 0 ∨ s.prim = .halt → exec (.wakeAccept d) s = .next s) ∧
    (d.val ≠ 0 → s.prim ≠ .halt → s1.wakeStands d = false → exec (.wakeAccept d) s = .next s1) ∧
    (d.val ≠ 0 → s.prim ≠ .halt → s1.wakeStands d = true →
      (x.st = 0 → x.phase = 0 → exec (.wakeAccept d) s = .next (s1.setDomain d { x with wake := false, edge := none }).pump) ∧
      (x.st = 1 → x.phase = 0 → exec (.wakeAccept d) s = .next ((s1.setDomain d
        { x with st := 0, wake := false, edge := none, pend := none, idleAt := s1.tick, pollAt := s1.tick }).endSeq d).pump) ∧
      (x.phase = 7 → exec (.wakeAccept d) s = .next s1.pump) ∧
      (8 ≤ x.phase → exec (.wakeAccept d) s = .next (s1.setDomain d { x with wake := false, edge := none }).pump) ∧
      (1 ≤ x.phase → x.phase ≤ 6 → x.abandon = false → x.fabric = false → x.group = 0 → ∃ t : State, exec (.wakeAccept d) s = .next t.pump ∧
        t.domain d = { x with abandon := true, wake := false, edge := none, pend := none } ∧
        t.reg .PWR_DOMd_ABORT_CNT (domBase d) = min (s1.reg .PWR_DOMd_ABORT_CNT (domBase d) + 1) 0xFFFFFFFF) ∧
      (2 ≤ x.st → x.phase = 0 → d.val ≠ 1 → (s1.domain 1).st ≠ 0 →
        exec (.wakeAccept d) s = .next (s1.setDomain 1 { s1.domain 1 with wake := true }).pump) ∧
      (2 ≤ x.st → x.phase = 0 → d.val = 1 ∨ (s1.domain 1).st = 0 → x.fabric = false → x.group = 0 → ∃ t : State,
        exec (.wakeAccept d) s = .next t.pump ∧ (t.domain d).phase = (if 3 ≤ x.st then 8 else 9) ∧ (t.domain d).wake = false ∧
        { t with dom := s1.dom } = s1))) ∧
  (∀ (s : State) (d : Fin 18) (w : WakeReply), let x := s.domain d
    (x.phase ≠ 9 ∨ s.spineFirst d = true → exec (.wakeStartDone d w) s = .next s) ∧
    (x.phase = 9 → s.spineFirst d = false → x.low = 4 → w.readOk = false ∨ (s.slotOk d 0x12).1 = false →
      ∃ t, exec (.wakeStartDone d w) s = .next t ∧
      t.domain d = { x with st := 4, phase := 0 } ∧ t.rf .PWR_DOMd_STATUS 14 1 (domBase d) = 1) ∧
    (x.phase = 9 → s.spineFirst d = false → x.low ≠ 4 ∨ (w.readOk = true ∧ (s.slotOk d 0x12).1 = true) →
      ∃ t, exec (.wakeStartDone d w) s = .next t ∧
      (t.domain d).phase = 11 ∧ (t.domain d).clamped = x.clamped ∧ (t.domain d).asleep = x.asleep)) ∧
  (∀ (s : State) (d : Fin 18), let x := s.domain d
    (x.phase ≠ 11 → exec (.pwrUnclamp d) s = .next s.pwrReject) ∧
    (x.phase = 11 → x.fabric = false → 2 ≤ d.val → (∃ g ∈ s.groupDoms d, g ≠ d.val ∧ (s.domain g).phase ≠ 12) →
      ∃ t, exec (.pwrUnclamp d) s = .next t ∧ (t.domain d).phase = 12 ∧ (t.domain d).clamped = false ∧
        (t.domain d).unclamp = true ∧ t.prg = s.prg) ∧
    (x.phase = 11 → x.fabric = false → (∀ g ∈ s.groupDoms d, g = d.val ∨ (s.domain g).phase = 12) →
      ∃ t : State, exec (.pwrUnclamp d) s = .next t.wantReturn.pump ∧ (t.domain d).phase = 12 ∧ (t.domain d).clamped = false) ∧
    (x.phase = 11 → x.fabric = true → x.pend = none → ∃ t, exec (.pwrUnclamp d) s = .next t ∧ (t.domain d).phase = 0 ∧
      (t.domain d).st = 0 ∧ (t.domain d).clamped = false)) ∧
  (∀ s : State, let g := s.rf .PWR_FABREQ 0 3
    let steady := ∀ d, 1 ≤ d → d ≤ 17 → (s.domain d).phase = 0 ∧ (s.domain d).st ≤ 1
    let held := ((List.range 17).map (· + 1)).filter (fun d => (s.domain d).fabric)
    (s.prim = .quiesced → g = 2 ∨ g = 3 → steady → ∃ t, exec .pwrFabreqGo s = .next t ∧ { t with dom := s.dom } = s ∧
      ∀ d, 1 ≤ d → d ≤ 17 → (t.domain d).phase = 4 ∧ (t.domain d).target = g ∧ (t.domain d).fabric = true ∧
        (t.domain d).asking = (domUnits d).map unitKey) ∧
    (s.prim ≠ .quiesced ∨ (g ≠ 2 ∧ g ≠ 3) ∨ ¬steady → exec .pwrFabreqGo s = .next s.pwrReject) ∧
    (held = [] ∨ (∃ d ∈ held, (s.domain d).phase ≠ 11) → exec .pwrFabreqUnclamp s = .next s.pwrReject) ∧
    (held ≠ [] → (∀ d ∈ held, (s.domain d).phase = 11 ∧ (s.domain d).pend = none) → ∃ t, exec .pwrFabreqUnclamp s = .next t ∧
      t.prim = s.prim ∧ ∀ d ∈ held, (t.domain d).phase = 0 ∧ (t.domain d).st = 0 ∧ (t.domain d).clamped = false) ∧
    s.pwrReject.rf .PWR_STATUS 18 1 = 1) ∧
  (∀ (s : State) (n : Fin 6), ∃ t, exec (.pwrAniseSend n) s = .next t ∧
    t.nif (0x120 + n.val) = { s.nif (0x120 + n.val) with anise := (s.nif (0x120 + n.val)).anise + 1 } ∧ { t with ni := s.ni } = s)

/-! ### Check codes, and the invariant of every step -/

/-- CRC-32C (R26): the remainder by the polynomial 0x1EDC_6F41 over the bytes in ascending order, each with its least significant bit
first (reflected input), from 0xFFFF_FFFF, with its bits reversed (reflected output) and XORed with 0xFFFF_FFFF; that of the nine
ASCII bytes "123456789" is 0xE306_9283. -/
def Obligations.Crc32cIsTheReflectedCastagnoliCrc : Prop :=
  (∀ bs : List Byte, crc32c bs =
    ((bs.flatMap (fun b => (List.range 8).map b.getLsbD)).foldl
      (fun (c : Word32) (b : Bool) => if (c.msb != b) = true then (c <<< 1) ^^^ 0x1EDC6F41 else c <<< 1) 0xFFFFFFFF).reverse
      ^^^ 0xFFFFFFFF) ∧
  crc32c [0x31, 0x32, 0x33, 0x34, 0x35, 0x36, 0x37, 0x38, 0x39] = 0xE3069283

/-- Every step keeps the invariant: both byte memories stay in their canonical form, and the fabric runs only with FRST_N released and
its fuses loaded (R219, R268, R404). -/
def Obligations.EveryStepKeepsTheInvariant : Prop :=
  ∀ s t : State, s.Inv → step s = .next t → t.Inv

/-- The invariant holds at reset. -/
def Obligations.ResetMeetsTheInvariant : Prop :=
  State.reset.Inv
end

