-- ==== Sys2Proof/Laws/SMap.lean ====
section
/-! SUPPORT. Laws of sparse maps: what a read gives after a write, and the canonical form. -/

namespace Sys2Proof.Machine

variable {α : Type} {d : α}

@[simp] theorem SMap.get_nil (k : Nat) : SMap.get d ([] : SMap α) k = d := rfl

theorem SMap.get_del (m : SMap α) (k k' : Nat) : SMap.get d (SMap.del m k) k' = if k' = k then d else SMap.get d m k' := by
  induction m with
  | nil => simp [SMap.del]
  | cons p m ih =>
    obtain ⟨a, v⟩ := p
    by_cases h : a = k
    · subst h
      simp only [SMap.del, if_true, ih, SMap.get]
      by_cases h' : a = k'
      · simp [h']
      · simp [h', Ne.symm h']
    · simp only [SMap.del, h, if_false, SMap.get, ih]
      by_cases h' : a = k'
      · subst h'; simp [h]
      · simp [h']

theorem SMap.get_ins (m : SMap α) (k k' : Nat) (v : α) (h : SMap.get d m k' = if k' = k then d else SMap.get d m k')
    (hk : ∀ p ∈ m, p.1 ≠ k) : SMap.get d (SMap.ins k v m) k' = if k' = k then v else SMap.get d m k' := by
  induction m with
  | nil => by_cases e : k' = k <;> simp [SMap.ins, SMap.get, e, Ne.symm]
  | cons p m ih =>
    obtain ⟨a, w⟩ := p
    have ha : a ≠ k := hk (a, w) (by simp)
    have hm : ∀ q ∈ m, q.1 ≠ k := fun q hq => hk q (by simp [hq])
    unfold SMap.ins
    split
    · by_cases e : k' = k
      · subst e; simp [SMap.get]
      · simp only [SMap.get, Ne.symm e, if_false, e]
    · by_cases e : a = k'
      · subst e; simp [SMap.get, ha]
      · have h2 : SMap.get d m k' = if k' = k then d else SMap.get d m k' := by
          simpa [SMap.get, e] using h
        simp only [SMap.get, e, if_false]; exact ih h2 hm

theorem SMap.mem_del_ne (m : SMap α) (k : Nat) : ∀ p ∈ SMap.del m k, p.1 ≠ k := by
  induction m with
  | nil => simp [SMap.del]
  | cons p m ih =>
    obtain ⟨a, v⟩ := p
    by_cases h : a = k
    · simpa [SMap.del, h] using fun q w hq => ih (q, w) hq
    · intro q hq
      simp only [SMap.del, h, if_false, List.mem_cons] at hq
      rcases hq with rfl | hq
      · exact h
      · exact ih q hq

/-- A read after a write: the value written at its key, what was there before at every other key. -/
@[simp] theorem SMap.get_set [DecidableEq α] (m : SMap α) (k k' : Nat) (v : α) :
    SMap.get d (SMap.set d m k v) k' = if k' = k then v else SMap.get d m k' := by
  unfold SMap.set
  split
  · rename_i h; subst h; exact SMap.get_del m k k'
  · rw [SMap.get_ins _ _ _ _ (by by_cases h : k' = k <;> simp [SMap.get_del, h]) (SMap.mem_del_ne m k)]
    by_cases h : k' = k <;> simp [SMap.get_del, h]

/-- A write leaves every other key alone, whatever an unlisted key is taken to read as. -/
theorem SMap.get_set_ne [DecidableEq α] {e : α} (m : SMap α) (k k' : Nat) (v : α) (h : k' ≠ k) :
    SMap.get e (SMap.set d m k v) k' = SMap.get e m k' := by
  unfold SMap.set
  split
  · rw [SMap.get_del, if_neg h]
  · rw [SMap.get_ins (d := e) _ _ _ _ (by simp [SMap.get_del, h]) (SMap.mem_del_ne m k), if_neg h, SMap.get_del, if_neg h]

@[simp] theorem SMap.get_upd [DecidableEq α] (m : SMap α) (k k' : Nat) (f : α → α) :
    SMap.get d (SMap.upd d m k f) k' = if k' = k then f (SMap.get d m k) else SMap.get d m k' := by
  simp [SMap.upd]

/-! ### The canonical form -/

variable [DecidableEq α]

theorem SMap.wfFrom_mono {m : SMap α} {a b : Nat} (h : a ≤ b) (hm : SMap.wfFrom d b m = true) :
    SMap.wfFrom d a m = true := by
  cases m with
  | nil => rfl
  | cons p m => obtain ⟨k, v⟩ := p; simp_all [SMap.wfFrom]; omega

theorem SMap.wfFrom_del {m : SMap α} {a : Nat} (k : Nat) (hm : SMap.wfFrom d a m = true) :
    SMap.wfFrom d a (SMap.del m k) = true := by
  induction m generalizing a with
  | nil => rfl
  | cons p m ih =>
    obtain ⟨k', v⟩ := p
    simp only [SMap.wfFrom, Bool.and_eq_true, decide_eq_true_eq] at hm
    unfold SMap.del
    split
    · exact SMap.wfFrom_mono (by omega) (ih hm.2)
    · simp [SMap.wfFrom, hm.1, ih hm.2]

theorem SMap.wfFrom_ins {m : SMap α} {a : Nat} (k : Nat) (v : α) (ha : a ≤ k) (hv : v ≠ d) (hk : ∀ p ∈ m, p.1 ≠ k)
    (hm : SMap.wfFrom d a m = true) : SMap.wfFrom d a (SMap.ins k v m) = true := by
  induction m generalizing a with
  | nil => simp [SMap.ins, SMap.wfFrom, ha, hv]
  | cons p m ih =>
    obtain ⟨k', w⟩ := p
    have hne : k' ≠ k := hk (k', w) (by simp)
    simp only [SMap.wfFrom, Bool.and_eq_true, decide_eq_true_eq] at hm
    unfold SMap.ins
    split
    · simp [SMap.wfFrom, ha, hv, hm.1.2, hm.2]; omega
    · simp only [SMap.wfFrom, Bool.and_eq_true, decide_eq_true_eq, hm.1, ne_eq, not_false_eq_true, and_self, true_and]
      exact ih (by omega) (fun q hq => hk q (by simp [hq])) hm.2

/-- A write keeps the canonical form. -/
theorem SMap.wf_set {m : SMap α} (k : Nat) (v : α) (hm : SMap.wf d m = true) : SMap.wf d (SMap.set d m k v) = true := by
  unfold SMap.set
  split
  · exact SMap.wfFrom_del k hm
  · rename_i h; exact SMap.wfFrom_ins k v (Nat.zero_le k) h (SMap.mem_del_ne m k) (SMap.wfFrom_del k hm)

theorem SMap.wf_upd {m : SMap α} (k : Nat) (f : α → α) (hm : SMap.wf d m = true) : SMap.wf d (SMap.upd d m k f) = true :=
  SMap.wf_set _ _ hm

/-- Two maps in canonical form that read alike are equal. -/
theorem SMap.wfFrom_get_lt {m : SMap α} {a k : Nat} (hm : SMap.wfFrom d a m = true) (hk : k < a) : SMap.get d m k = d := by
  induction m generalizing a with
  | nil => rfl
  | cons p m ih =>
    obtain ⟨k', v⟩ := p
    simp only [SMap.wfFrom, Bool.and_eq_true, decide_eq_true_eq] at hm
    have : k' ≠ k := by omega
    simp only [SMap.get, this, if_false]
    exact ih hm.2 (by omega)

end Sys2Proof.Machine
end

