-- ==== Sys2Proof/Laws/Memory.lean ====
section
/-! SUPPORT. Laws of the byte memories: every operation keeps the canonical form, a store leaves every other byte alone, and a
read after a store gives the bytes stored (R219, R268). -/

namespace Sys2Proof.Machine

theorem Memory.wf_nil : Memory.wf [] = true := rfl

theorem Memory.wf_write {m : List Host.Cell} (bs : List Byte) (a : Nat) (h : Memory.wf m = true) :
    Memory.wf (memWrite m a bs) = true := by
  induction bs generalizing m a with
  | nil => exact h
  | cons b bs ih => exact ih _ (SMap.wf_set a b h)

theorem SMap.wfFrom_filter {α : Type} [DecidableEq α] {d : α} {m : SMap α} {a : Nat} (p : Nat × α → Bool)
    (hm : SMap.wfFrom d a m = true) : SMap.wfFrom d a (m.filter p) = true := by
  induction m generalizing a with
  | nil => rfl
  | cons x m ih =>
    obtain ⟨k, v⟩ := x
    simp only [SMap.wfFrom, Bool.and_eq_true, decide_eq_true_eq] at hm
    rw [List.filter_cons]
    split
    · simp [SMap.wfFrom, hm.1, ih hm.2]
    · exact SMap.wfFrom_mono (by omega) (ih hm.2)

theorem Memory.wf_zero {m : List Host.Cell} (a n : Nat) (h : Memory.wf m = true) : Memory.wf (memZero m a n) = true :=
  SMap.wfFrom_filter _ h

/-- A store leaves every byte outside its span as it was. -/
theorem memByte_write_outside (m : List Host.Cell) (bs : List Byte) (a x : Nat) (h : x < a ∨ a + bs.length ≤ x) :
    memByte (memWrite m a bs) x = memByte m x := by
  induction bs generalizing m a with
  | nil => rfl
  | cons b bs ih =>
    simp only [List.length_cons] at h
    rw [memWrite, ih _ _ (by omega), memByte, SMap.get_set, if_neg (by omega)]
    rfl

/-- A byte of a store reads as it was stored. -/
theorem memByte_write_inside (m : List Host.Cell) (bs : List Byte) (a i : Nat) (h : i < bs.length) :
    memByte (memWrite m a bs) (a + i) = bs[i] := by
  induction bs generalizing m a i with
  | nil => simp at h
  | cons b bs ih =>
    cases i with
    | zero =>
      rw [memWrite, memByte_write_outside _ _ _ _ (by omega), memByte, SMap.get_set]; simp
    | succ i =>
      have := ih (SMap.set 0 m a b) (a + 1) i (by simpa using h)
      rw [show a + 1 + i = a + (i + 1) by omega] at this
      simpa [memWrite] using this

theorem memRead_length (m : List Host.Cell) (a n : Nat) : (memRead m a n).length = n := by
  induction n generalizing a with
  | zero => rfl
  | succ n ih => simp [memRead, ih]

/-- A read of the span just stored gives the bytes stored. -/
theorem memRead_write (m : List Host.Cell) (bs : List Byte) (a : Nat) : memRead (memWrite m a bs) a bs.length = bs := by
  induction bs generalizing m a with
  | nil => rfl
  | cons b bs ih =>
    have h0 := memByte_write_inside m (b :: bs) a 0 (by simp)
    simp only [Nat.add_zero, List.getElem_cons_zero] at h0
    simp only [List.length_cons, memRead, h0]
    congr 1
    simpa [memWrite] using ih (SMap.set 0 m a b) (a + 1)

/-! ### The shared and the local SRAM -/

theorem State.sramWrite_wf (s : State) (o : Nat) (bs : List Byte) (p : Bool) (h : Memory.wf s.sram = true) :
    Memory.wf (s.sramWrite o bs p).sram = true := Memory.wf_write bs o h

theorem State.sramZero_wf (s : State) (g : Nat) (h : Memory.wf s.sram = true) : Memory.wf (s.sramZero g).sram = true :=
  Memory.wf_zero _ _ h

theorem State.lsWrite_wf (s : State) (k off : Nat) (bs : List Byte) (p : Bool) (h : Memory.wf s.lsram = true) :
    Memory.wf (s.lsWrite k off bs p).lsram = true := Memory.wf_write bs _ h

theorem State.lsZero_wf (s : State) (k : Nat) (h : Memory.wf s.lsram = true) : Memory.wf (s.lsZero k).lsram = true :=
  Memory.wf_zero _ _ h

theorem State.sramRead_write (s : State) (o : Nat) (bs : List Byte) (p : Bool) :
    (s.sramWrite o bs p).sramRead o bs.length = bs := memRead_write _ _ _

theorem State.lsRead_write (s : State) (k off : Nat) (bs : List Byte) (p : Bool) :
    (s.lsWrite k off bs p).lsRead k off bs.length = bs := memRead_write _ _ _

end Sys2Proof.Machine
end

