-- ==== Sys2Proof/Laws/Regs.lean ====
section
/-! SUPPORT. Laws of bit fields and of control-space registers: what a register or field reads after it was set (R6, R7). -/

namespace Sys2Proof.Machine

/-! ### Bit fields -/

theorem fld_lt (v lo w : Nat) : fld v lo w < 2 ^ w := Nat.mod_lt _ (Nat.two_pow_pos w)

/-- Three parts put together: what lies below the field, the field, and what lies above it. -/
def joined (a b c lo w : Nat) : Nat := (a * 2 ^ w + b) * 2 ^ lo + c

theorem joined_div (a b c lo w : Nat) (hc : c < 2 ^ lo) : joined a b c lo w / 2 ^ lo = a * 2 ^ w + b := by
  rw [joined, Nat.add_comm, Nat.add_mul_div_right _ _ (Nat.two_pow_pos lo), Nat.div_eq_of_lt hc, Nat.zero_add]

theorem joined_fld (a b c lo w : Nat) (hb : b < 2 ^ w) (hc : c < 2 ^ lo) : fld (joined a b c lo w) lo w = b := by
  rw [fld, joined_div _ _ _ _ _ hc, Nat.add_comm, Nat.add_mul_mod_self_right, Nat.mod_eq_of_lt hb]

theorem joined_low (a b c lo w : Nat) (hc : c < 2 ^ lo) : joined a b c lo w % 2 ^ lo = c := by
  rw [joined, Nat.add_comm, Nat.add_mul_mod_self_right, Nat.mod_eq_of_lt hc]

theorem eq_joined (v lo w : Nat) : v = joined (v / 2 ^ lo / 2 ^ w) (fld v lo w) (v % 2 ^ lo) lo w := by
  have h1 := Nat.div_add_mod' v (2 ^ lo)
  have h2 := Nat.div_add_mod' (v / 2 ^ lo) (2 ^ w)
  unfold joined fld
  rw [h2, h1]

/-- A field put into a number: the parts below and above stay. -/
theorem setFld_joined (v lo w x : Nat) :
    setFld v lo w x = joined (v / 2 ^ lo / 2 ^ w) (x % 2 ^ w) (v % 2 ^ lo) lo w := by
  have h := eq_joined v lo w
  unfold setFld
  unfold joined at h ⊢
  rw [Nat.add_mul] at h ⊢
  omega

/-- A field that was set reads what was put there. -/
theorem fld_setFld_same (v lo w x : Nat) : fld (setFld v lo w x) lo w = x % 2 ^ w := by
  rw [setFld_joined, joined_fld _ _ _ _ _ (Nat.mod_lt _ (Nat.two_pow_pos w)) (Nat.mod_lt _ (Nat.two_pow_pos lo))]

/-- A field below the one that was set keeps its value. -/
theorem fld_setFld_below (v lo w x lo' w' : Nat) (h : lo' + w' ≤ lo) : fld (setFld v lo w x) lo' w' = fld v lo' w' := by
  have key : ∀ n, n % 2 ^ lo / 2 ^ lo' % 2 ^ w' = n / 2 ^ lo' % 2 ^ w' := by
    intro n
    obtain ⟨k, rfl⟩ := Nat.exists_eq_add_of_le h
    rw [show lo' + w' + k = lo' + (w' + k) by omega, Nat.pow_add, Nat.mod_mul_right_div_self, Nat.pow_add,
      Nat.mod_mul_right_mod]
  unfold fld
  rw [← key (setFld v lo w x), ← key v, setFld_joined, joined_low _ _ _ _ _ (Nat.mod_lt _ (Nat.two_pow_pos lo))]

/-- A field above the one that was set keeps its value. -/
theorem fld_setFld_above (v lo w x lo' w' : Nat) (h : lo + w ≤ lo') : fld (setFld v lo w x) lo' w' = fld v lo' w' := by
  have key : setFld v lo w x / 2 ^ (lo + w) = v / 2 ^ (lo + w) := by
    rw [Nat.pow_add, ← Nat.div_div_eq_div_mul, ← Nat.div_div_eq_div_mul, setFld_joined,
      joined_div _ _ _ _ _ (Nat.mod_lt _ (Nat.two_pow_pos lo)), Nat.add_comm,
      Nat.add_mul_div_right _ _ (Nat.two_pow_pos w), Nat.div_eq_of_lt (Nat.mod_lt _ (Nat.two_pow_pos w)), Nat.zero_add]
  obtain ⟨k, rfl⟩ := Nat.exists_eq_add_of_le h
  unfold fld
  rw [Nat.pow_add 2 (lo + w) k, ← Nat.div_div_eq_div_mul, ← Nat.div_div_eq_div_mul, key]

/-- A field of a 32-bit word put into a 32-bit word gives a 32-bit word. -/
theorem setFld_lt (v lo w x n : Nat) (hv : v < 2 ^ n) (h : lo + w ≤ n) : setFld v lo w x < 2 ^ n := by
  have hx : x % 2 ^ w < 2 ^ w := Nat.mod_lt _ (Nat.two_pow_pos w)
  have hc : v % 2 ^ lo < 2 ^ lo := Nat.mod_lt _ (Nat.two_pow_pos lo)
  have key : setFld v lo w x / 2 ^ (lo + w) = v / 2 ^ (lo + w) := by
    rw [Nat.pow_add, ← Nat.div_div_eq_div_mul, ← Nat.div_div_eq_div_mul, setFld_joined,
      joined_div _ _ _ _ _ hc, Nat.add_comm,
      Nat.add_mul_div_right _ _ (Nat.two_pow_pos w), Nat.div_eq_of_lt hx, Nat.zero_add]
  obtain ⟨k, rfl⟩ := Nat.exists_eq_add_of_le h
  rw [Nat.pow_add, Nat.mul_comm] at hv ⊢
  rw [← Nat.div_lt_iff_lt_mul (Nat.two_pow_pos (lo + w))] at hv ⊢
  rw [key]; exact hv

theorem bitOf_eq_fld (v i : Nat) : bitOf v i = (fld v i 1 == 1) := rfl

/-! ### Registers -/

/-- What a register resets to depends on the fuses alone. -/
theorem State.resetWord_congr {s t : State} (h : t.fuses = s.fuses) (r : Reg) (b i : Nat) :
    t.resetWord r b i = s.resetWord r b i := by
  have e1 : ∀ lo w, t.fuseBits lo w = s.fuseBits lo w := fun lo w => by simp only [State.fuseBits, h]
  have e2 : t.fuseBad = s.fuseBad := by simp only [State.fuseBad, h]
  cases r <;> simp only [State.resetWord, e1, e2, h]

/-- What a register reads depends on the register store and the fuses alone. -/
theorem State.reg_congr {s t : State} (hr : t.regs = s.regs) (h : t.fuses = s.fuses) (r : Reg) (b i : Nat) :
    t.reg r b i = s.reg r b i := by
  rw [State.reg, State.reg, hr, State.resetWord_congr h]

theorem State.rf_congr {s t : State} (hr : t.regs = s.regs) (h : t.fuses = s.fuses) (r : Reg) (lo w b i : Nat) :
    t.rf r lo w b i = s.rf r lo w b i := by
  rw [State.rf, State.rf, State.reg_congr hr h]

theorem State.reg_lt (s : State) (r : Reg) (b i : Nat) : s.reg r b i < 2 ^ 32 := BitVec.isLt _

/-- A note about the running cycle changes no register. -/
@[simp] theorem State.reg_noteCyc (s : State) (o : Nat) (g : CycReg → CycReg) (r : Reg) (b i : Nat) :
    (s.noteCyc o g).reg r b i = s.reg r b i := State.reg_congr rfl rfl _ _ _

/-- A note about the running cycle changes no register. -/
@[simp] theorem State.reg_noteSet (s : State) (r r' : Reg) (m b i b' i' : Nat) :
    (s.noteSet r' m b' i').reg r b i = s.reg r b i := State.reg_congr rfl rfl _ _ _

/-- A register whose word was replaced reads that word, cut to 32 bits. -/
@[simp] theorem State.reg_putWord_same (s : State) (r : Reg) (v b i : Nat) :
    (s.putWord r v b i).reg r b i = v % 2 ^ 32 := by
  have h : (s.putWord r v b i).resetWord r b i = s.resetWord r b i := State.resetWord_congr rfl _ _ _
  unfold State.reg
  rw [h]
  unfold State.putWord
  rw [SMap.get_set, if_pos rfl, BitVec.toNat_ofNat]

/-- A register at another offset keeps its value. -/
theorem State.reg_putWord_other (s : State) (r r' : Reg) (v b i b' i' : Nat) (h : r'.off b' i' ≠ r.off b i) :
    (s.putWord r v b i).reg r' b' i' = s.reg r' b' i' := by
  have h' : (s.putWord r v b i).resetWord r' b' i' = s.resetWord r' b' i' := State.resetWord_congr rfl _ _ _
  unfold State.reg
  rw [h']
  unfold State.putWord
  rw [SMap.get_set_ne _ _ _ _ h]

/-- A register that the hardware has set reads that value, cut to 32 bits. -/
@[simp] theorem State.reg_setReg_same (s : State) (r : Reg) (v b i : Nat) :
    (s.setReg r v b i).reg r b i = v % 2 ^ 32 := State.reg_putWord_same _ _ _ _ _

/-- A register at another offset keeps its value. -/
theorem State.reg_setReg_other (s : State) (r r' : Reg) (v b i b' i' : Nat) (h : r'.off b' i' ≠ r.off b i) :
    (s.setReg r v b i).reg r' b' i' = s.reg r' b' i' :=
  (State.reg_putWord_other _ _ _ _ _ _ _ _ h).trans (State.reg_noteSet _ _ _ _ _ _ _ _)

/-- A register one of whose fields was set reads the word with that field. -/
theorem State.reg_setRf_same (s : State) (r : Reg) (lo w x b i : Nat) (h : lo + w ≤ 32) :
    (s.setRf r lo w x b i).reg r b i = setFld (s.reg r b i) lo w x := by
  rw [State.setRf, State.reg_putWord_same, Nat.mod_eq_of_lt (setFld_lt _ lo w x 32 (s.reg_lt r b i) h)]

/-- A register at another offset keeps its value. -/
theorem State.reg_setRf_other (s : State) (r r' : Reg) (lo w x b i b' i' : Nat) (h : r'.off b' i' ≠ r.off b i) :
    (s.setRf r lo w x b i).reg r' b' i' = s.reg r' b' i' :=
  (State.reg_putWord_other _ _ _ _ _ _ _ _ h).trans (State.reg_noteSet _ _ _ _ _ _ _ _)

/-- A field that the hardware has set reads that value, cut to its width. -/
theorem State.rf_setRf_same (s : State) (r : Reg) (lo w x b i : Nat) (h : lo + w ≤ 32) :
    (s.setRf r lo w x b i).rf r lo w b i = x % 2 ^ w := by
  rw [State.rf, State.reg_setRf_same _ _ _ _ _ _ _ h, fld_setFld_same]

/-- Another field of the same register keeps its value. -/
theorem State.rf_setRf_apart (s : State) (r : Reg) (lo w x lo' w' b i : Nat) (h : lo + w ≤ 32)
    (hd : lo' + w' ≤ lo ∨ lo + w ≤ lo') : (s.setRf r lo w x b i).rf r lo' w' b i = s.rf r lo' w' b i := by
  rw [State.rf, State.reg_setRf_same _ _ _ _ _ _ _ h]
  rcases hd with hd | hd
  · rw [fld_setFld_below _ _ _ _ _ _ hd]; rfl
  · rw [fld_setFld_above _ _ _ _ _ _ hd]; rfl

/-- A field of a register at another offset keeps its value. -/
theorem State.rf_setRf_other (s : State) (r r' : Reg) (lo w x lo' w' b i b' i' : Nat) (h : r'.off b' i' ≠ r.off b i) :
    (s.setRf r lo w x b i).rf r' lo' w' b' i' = s.rf r' lo' w' b' i' := by
  rw [State.rf, State.reg_setRf_other _ _ _ _ _ _ _ _ _ _ h, State.rf]

/-- A saturating count goes up by the number of events (R8). -/
theorem State.reg_bump_same (s : State) (r : Reg) (b i n : Nat) :
    (s.bump r b i n).reg r b i = min (s.reg r b i + n) 0xFFFFFFFF := by
  rw [State.bump, State.reg_putWord_same]
  exact Nat.mod_eq_of_lt (by omega)

/-- A count leaves a register at another offset alone. -/
theorem State.reg_bump_other (s : State) (r r' : Reg) (b i n b' i' : Nat) (h : r'.off b' i' ≠ r.off b i) :
    (s.bump r b i n).reg r' b' i' = s.reg r' b' i' :=
  (State.reg_putWord_other _ _ _ _ _ _ _ _ h).trans (State.reg_congr rfl rfl _ _ _)

end Sys2Proof.Machine
end

