-- ==== Sys2Proof/Laws/State.lean ====
section
/-! SUPPORT. What the shared operations leave alone: one lemma per operation and field of the state. -/

namespace Sys2Proof.Machine

/-- What every step of a fold keeps, the fold keeps. -/
theorem State.foldl_keeps {α β : Type} (p : State → β) (g : State → α → State) (h : ∀ s x, p (g s x) = p s) (xs : List α) (s : State) :
    p (xs.foldl g s) = p s := by
  induction xs generalizing s with
  | nil => rfl
  | cons x xs ih => exact (ih _).trans (h s x)

/-! ### `State.putWord` changes only `regs`. -/

@[simp] theorem State.putWord_pending (s : State) (r : Reg) (v b i : Nat) : (s.putWord r v b i).pending = s.pending := rfl
@[simp] theorem State.putWord_tick (s : State) (r : Reg) (v b i : Nat) : (s.putWord r v b i).tick = s.tick := rfl
@[simp] theorem State.putWord_frst (s : State) (r : Reg) (v b i : Nat) : (s.putWord r v b i).frst = s.frst := rfl
@[simp] theorem State.putWord_started (s : State) (r : Reg) (v b i : Nat) : (s.putWord r v b i).started = s.started := rfl
@[simp] theorem State.putWord_prim (s : State) (r : Reg) (v b i : Nat) : (s.putWord r v b i).prim = s.prim := rfl
@[simp] theorem State.putWord_haltConds (s : State) (r : Reg) (v b i : Nat) : (s.putWord r v b i).haltConds = s.haltConds := rfl
@[simp] theorem State.putWord_fallback (s : State) (r : Reg) (v b i : Nat) : (s.putWord r v b i).fallback = s.fallback := rfl
@[simp] theorem State.putWord_drainPend (s : State) (r : Reg) (v b i : Nat) : (s.putWord r v b i).drainPend = s.drainPend := rfl
@[simp] theorem State.putWord_drainAt (s : State) (r : Reg) (v b i : Nat) : (s.putWord r v b i).drainAt = s.drainAt := rfl
@[simp] theorem State.putWord_pdrec (s : State) (r : Reg) (v b i : Nat) : (s.putWord r v b i).pdrec = s.pdrec := rfl
@[simp] theorem State.putWord_cyc (s : State) (r : Reg) (v b i : Nat) : (s.putWord r v b i).cyc = s.cyc := rfl
@[simp] theorem State.putWord_modeWas (s : State) (r : Reg) (v b i : Nat) : (s.putWord r v b i).modeWas = s.modeWas := rfl
@[simp] theorem State.putWord_quietWas (s : State) (r : Reg) (v b i : Nat) : (s.putWord r v b i).quietWas = s.quietWas := rfl
@[simp] theorem State.putWord_shadows (s : State) (r : Reg) (v b i : Nat) : (s.putWord r v b i).shadows = s.shadows := rfl
@[simp] theorem State.putWord_tabs (s : State) (r : Reg) (v b i : Nat) : (s.putWord r v b i).tabs = s.tabs := rfl
@[simp] theorem State.putWord_fuses (s : State) (r : Reg) (v b i : Nat) : (s.putWord r v b i).fuses = s.fuses := rfl
@[simp] theorem State.putWord_ownEp (s : State) (r : Reg) (v b i : Nat) : (s.putWord r v b i).ownEp = s.ownEp := rfl
@[simp] theorem State.putWord_tim (s : State) (r : Reg) (v b i : Nat) : (s.putWord r v b i).tim = s.tim := rfl
@[simp] theorem State.putWord_fc (s : State) (r : Reg) (v b i : Nat) : (s.putWord r v b i).fc = s.fc := rfl
@[simp] theorem State.putWord_prg (s : State) (r : Reg) (v b i : Nat) : (s.putWord r v b i).prg = s.prg := rfl
@[simp] theorem State.putWord_epo (s : State) (r : Reg) (v b i : Nat) : (s.putWord r v b i).epo = s.epo := rfl
@[simp] theorem State.putWord_hub (s : State) (r : Reg) (v b i : Nat) : (s.putWord r v b i).hub = s.hub := rfl
@[simp] theorem State.putWord_rkCopy (s : State) (r : Reg) (v b i : Nat) : (s.putWord r v b i).rkCopy = s.rkCopy := rfl
@[simp] theorem State.putWord_rbuf (s : State) (r : Reg) (v b i : Nat) : (s.putWord r v b i).rbuf = s.rbuf := rfl
@[simp] theorem State.putWord_cred (s : State) (r : Reg) (v b i : Nat) : (s.putWord r v b i).cred = s.cred := rfl
@[simp] theorem State.putWord_arbs (s : State) (r : Reg) (v b i : Nat) : (s.putWord r v b i).arbs = s.arbs := rfl
@[simp] theorem State.putWord_ni (s : State) (r : Reg) (v b i : Nat) : (s.putWord r v b i).ni = s.ni := rfl
@[simp] theorem State.putWord_saf (s : State) (r : Reg) (v b i : Nat) : (s.putWord r v b i).saf = s.saf := rfl
@[simp] theorem State.putWord_home (s : State) (r : Reg) (v b i : Nat) : (s.putWord r v b i).home = s.home := rfl
@[simp] theorem State.putWord_dir (s : State) (r : Reg) (v b i : Nat) : (s.putWord r v b i).dir = s.dir := rfl
@[simp] theorem State.putWord_plru (s : State) (r : Reg) (v b i : Nat) : (s.putWord r v b i).plru = s.plru := rfl
@[simp] theorem State.putWord_pred (s : State) (r : Reg) (v b i : Nat) : (s.putWord r v b i).pred = s.pred := rfl
@[simp] theorem State.putWord_cache (s : State) (r : Reg) (v b i : Nat) : (s.putWord r v b i).cache = s.cache := rfl
@[simp] theorem State.putWord_recalls (s : State) (r : Reg) (v b i : Nat) : (s.putWord r v b i).recalls = s.recalls := rfl
@[simp] theorem State.putWord_sram (s : State) (r : Reg) (v b i : Nat) : (s.putWord r v b i).sram = s.sram := rfl
@[simp] theorem State.putWord_sramBad (s : State) (r : Reg) (v b i : Nat) : (s.putWord r v b i).sramBad = s.sramBad := rfl
@[simp] theorem State.putWord_bank (s : State) (r : Reg) (v b i : Nat) : (s.putWord r v b i).bank = s.bank := rfl
@[simp] theorem State.putWord_loc (s : State) (r : Reg) (v b i : Nat) : (s.putWord r v b i).loc = s.loc := rfl
@[simp] theorem State.putWord_que (s : State) (r : Reg) (v b i : Nat) : (s.putWord r v b i).que = s.que := rfl
@[simp] theorem State.putWord_qm (s : State) (r : Reg) (v b i : Nat) : (s.putWord r v b i).qm = s.qm := rfl
@[simp] theorem State.putWord_refillAt (s : State) (r : Reg) (v b i : Nat) : (s.putWord r v b i).refillAt = s.refillAt := rfl
@[simp] theorem State.putWord_ecl (s : State) (r : Reg) (v b i : Nat) : (s.putWord r v b i).ecl = s.ecl := rfl
@[simp] theorem State.putWord_lsram (s : State) (r : Reg) (v b i : Nat) : (s.putWord r v b i).lsram = s.lsram := rfl
@[simp] theorem State.putWord_lsramBad (s : State) (r : Reg) (v b i : Nat) : (s.putWord r v b i).lsramBad = s.lsramBad := rfl
@[simp] theorem State.putWord_ctr (s : State) (r : Reg) (v b i : Nat) : (s.putWord r v b i).ctr = s.ctr := rfl
@[simp] theorem State.putWord_ctrWas (s : State) (r : Reg) (v b i : Nat) : (s.putWord r v b i).ctrWas = s.ctrWas := rfl
@[simp] theorem State.putWord_ctrClr (s : State) (r : Reg) (v b i : Nat) : (s.putWord r v b i).ctrClr = s.ctrClr := rfl
@[simp] theorem State.putWord_wakePin (s : State) (r : Reg) (v b i : Nat) : (s.putWord r v b i).wakePin = s.wakePin := rfl
@[simp] theorem State.putWord_dom (s : State) (r : Reg) (v b i : Nat) : (s.putWord r v b i).dom = s.dom := rfl
@[simp] theorem State.putWord_sigs (s : State) (r : Reg) (v b i : Nat) : (s.putWord r v b i).sigs = s.sigs := rfl
@[simp] theorem State.putWord_slc (s : State) (r : Reg) (v b i : Nat) : (s.putWord r v b i).slc = s.slc := rfl
@[simp] theorem State.putWord_freeze (s : State) (r : Reg) (v b i : Nat) : (s.putWord r v b i).freeze = s.freeze := rfl
@[simp] theorem State.putWord_bw (s : State) (r : Reg) (v b i : Nat) : (s.putWord r v b i).bw = s.bw := rfl
@[simp] theorem State.putWord_probe (s : State) (r : Reg) (v b i : Nat) : (s.putWord r v b i).probe = s.probe := rfl
@[simp] theorem State.putWord_free (s : State) (r : Reg) (v b i : Nat) : (s.putWord r v b i).free = s.free := rfl

/-! ### `State.noteCyc` changes only `cyc`. -/

@[simp] theorem State.noteCyc_pending (s : State) (o : Nat) (g : CycReg → CycReg) : (s.noteCyc o g).pending = s.pending := rfl
@[simp] theorem State.noteCyc_tick (s : State) (o : Nat) (g : CycReg → CycReg) : (s.noteCyc o g).tick = s.tick := rfl
@[simp] theorem State.noteCyc_frst (s : State) (o : Nat) (g : CycReg → CycReg) : (s.noteCyc o g).frst = s.frst := rfl
@[simp] theorem State.noteCyc_started (s : State) (o : Nat) (g : CycReg → CycReg) : (s.noteCyc o g).started = s.started := rfl
@[simp] theorem State.noteCyc_prim (s : State) (o : Nat) (g : CycReg → CycReg) : (s.noteCyc o g).prim = s.prim := rfl
@[simp] theorem State.noteCyc_haltConds (s : State) (o : Nat) (g : CycReg → CycReg) : (s.noteCyc o g).haltConds = s.haltConds := rfl
@[simp] theorem State.noteCyc_fallback (s : State) (o : Nat) (g : CycReg → CycReg) : (s.noteCyc o g).fallback = s.fallback := rfl
@[simp] theorem State.noteCyc_drainPend (s : State) (o : Nat) (g : CycReg → CycReg) : (s.noteCyc o g).drainPend = s.drainPend := rfl
@[simp] theorem State.noteCyc_drainAt (s : State) (o : Nat) (g : CycReg → CycReg) : (s.noteCyc o g).drainAt = s.drainAt := rfl
@[simp] theorem State.noteCyc_pdrec (s : State) (o : Nat) (g : CycReg → CycReg) : (s.noteCyc o g).pdrec = s.pdrec := rfl
@[simp] theorem State.noteCyc_regs (s : State) (o : Nat) (g : CycReg → CycReg) : (s.noteCyc o g).regs = s.regs := rfl
@[simp] theorem State.noteCyc_modeWas (s : State) (o : Nat) (g : CycReg → CycReg) : (s.noteCyc o g).modeWas = s.modeWas := rfl
@[simp] theorem State.noteCyc_quietWas (s : State) (o : Nat) (g : CycReg → CycReg) : (s.noteCyc o g).quietWas = s.quietWas := rfl
@[simp] theorem State.noteCyc_shadows (s : State) (o : Nat) (g : CycReg → CycReg) : (s.noteCyc o g).shadows = s.shadows := rfl
@[simp] theorem State.noteCyc_tabs (s : State) (o : Nat) (g : CycReg → CycReg) : (s.noteCyc o g).tabs = s.tabs := rfl
@[simp] theorem State.noteCyc_fuses (s : State) (o : Nat) (g : CycReg → CycReg) : (s.noteCyc o g).fuses = s.fuses := rfl
@[simp] theorem State.noteCyc_ownEp (s : State) (o : Nat) (g : CycReg → CycReg) : (s.noteCyc o g).ownEp = s.ownEp := rfl
@[simp] theorem State.noteCyc_tim (s : State) (o : Nat) (g : CycReg → CycReg) : (s.noteCyc o g).tim = s.tim := rfl
@[simp] theorem State.noteCyc_fc (s : State) (o : Nat) (g : CycReg → CycReg) : (s.noteCyc o g).fc = s.fc := rfl
@[simp] theorem State.noteCyc_prg (s : State) (o : Nat) (g : CycReg → CycReg) : (s.noteCyc o g).prg = s.prg := rfl
@[simp] theorem State.noteCyc_epo (s : State) (o : Nat) (g : CycReg → CycReg) : (s.noteCyc o g).epo = s.epo := rfl
@[simp] theorem State.noteCyc_hub (s : State) (o : Nat) (g : CycReg → CycReg) : (s.noteCyc o g).hub = s.hub := rfl
@[simp] theorem State.noteCyc_rkCopy (s : State) (o : Nat) (g : CycReg → CycReg) : (s.noteCyc o g).rkCopy = s.rkCopy := rfl
@[simp] theorem State.noteCyc_rbuf (s : State) (o : Nat) (g : CycReg → CycReg) : (s.noteCyc o g).rbuf = s.rbuf := rfl
@[simp] theorem State.noteCyc_cred (s : State) (o : Nat) (g : CycReg → CycReg) : (s.noteCyc o g).cred = s.cred := rfl
@[simp] theorem State.noteCyc_arbs (s : State) (o : Nat) (g : CycReg → CycReg) : (s.noteCyc o g).arbs = s.arbs := rfl
@[simp] theorem State.noteCyc_ni (s : State) (o : Nat) (g : CycReg → CycReg) : (s.noteCyc o g).ni = s.ni := rfl
@[simp] theorem State.noteCyc_saf (s : State) (o : Nat) (g : CycReg → CycReg) : (s.noteCyc o g).saf = s.saf := rfl
@[simp] theorem State.noteCyc_home (s : State) (o : Nat) (g : CycReg → CycReg) : (s.noteCyc o g).home = s.home := rfl
@[simp] theorem State.noteCyc_dir (s : State) (o : Nat) (g : CycReg → CycReg) : (s.noteCyc o g).dir = s.dir := rfl
@[simp] theorem State.noteCyc_plru (s : State) (o : Nat) (g : CycReg → CycReg) : (s.noteCyc o g).plru = s.plru := rfl
@[simp] theorem State.noteCyc_pred (s : State) (o : Nat) (g : CycReg → CycReg) : (s.noteCyc o g).pred = s.pred := rfl
@[simp] theorem State.noteCyc_cache (s : State) (o : Nat) (g : CycReg → CycReg) : (s.noteCyc o g).cache = s.cache := rfl
@[simp] theorem State.noteCyc_recalls (s : State) (o : Nat) (g : CycReg → CycReg) : (s.noteCyc o g).recalls = s.recalls := rfl
@[simp] theorem State.noteCyc_sram (s : State) (o : Nat) (g : CycReg → CycReg) : (s.noteCyc o g).sram = s.sram := rfl
@[simp] theorem State.noteCyc_sramBad (s : State) (o : Nat) (g : CycReg → CycReg) : (s.noteCyc o g).sramBad = s.sramBad := rfl
@[simp] theorem State.noteCyc_bank (s : State) (o : Nat) (g : CycReg → CycReg) : (s.noteCyc o g).bank = s.bank := rfl
@[simp] theorem State.noteCyc_loc (s : State) (o : Nat) (g : CycReg → CycReg) : (s.noteCyc o g).loc = s.loc := rfl
@[simp] theorem State.noteCyc_que (s : State) (o : Nat) (g : CycReg → CycReg) : (s.noteCyc o g).que = s.que := rfl
@[simp] theorem State.noteCyc_qm (s : State) (o : Nat) (g : CycReg → CycReg) : (s.noteCyc o g).qm = s.qm := rfl
@[simp] theorem State.noteCyc_refillAt (s : State) (o : Nat) (g : CycReg → CycReg) : (s.noteCyc o g).refillAt = s.refillAt := rfl
@[simp] theorem State.noteCyc_ecl (s : State) (o : Nat) (g : CycReg → CycReg) : (s.noteCyc o g).ecl = s.ecl := rfl
@[simp] theorem State.noteCyc_lsram (s : State) (o : Nat) (g : CycReg → CycReg) : (s.noteCyc o g).lsram = s.lsram := rfl
@[simp] theorem State.noteCyc_lsramBad (s : State) (o : Nat) (g : CycReg → CycReg) : (s.noteCyc o g).lsramBad = s.lsramBad := rfl
@[simp] theorem State.noteCyc_ctr (s : State) (o : Nat) (g : CycReg → CycReg) : (s.noteCyc o g).ctr = s.ctr := rfl
@[simp] theorem State.noteCyc_ctrWas (s : State) (o : Nat) (g : CycReg → CycReg) : (s.noteCyc o g).ctrWas = s.ctrWas := rfl
@[simp] theorem State.noteCyc_ctrClr (s : State) (o : Nat) (g : CycReg → CycReg) : (s.noteCyc o g).ctrClr = s.ctrClr := rfl
@[simp] theorem State.noteCyc_wakePin (s : State) (o : Nat) (g : CycReg → CycReg) : (s.noteCyc o g).wakePin = s.wakePin := rfl
@[simp] theorem State.noteCyc_dom (s : State) (o : Nat) (g : CycReg → CycReg) : (s.noteCyc o g).dom = s.dom := rfl
@[simp] theorem State.noteCyc_sigs (s : State) (o : Nat) (g : CycReg → CycReg) : (s.noteCyc o g).sigs = s.sigs := rfl
@[simp] theorem State.noteCyc_slc (s : State) (o : Nat) (g : CycReg → CycReg) : (s.noteCyc o g).slc = s.slc := rfl
@[simp] theorem State.noteCyc_freeze (s : State) (o : Nat) (g : CycReg → CycReg) : (s.noteCyc o g).freeze = s.freeze := rfl
@[simp] theorem State.noteCyc_bw (s : State) (o : Nat) (g : CycReg → CycReg) : (s.noteCyc o g).bw = s.bw := rfl
@[simp] theorem State.noteCyc_probe (s : State) (o : Nat) (g : CycReg → CycReg) : (s.noteCyc o g).probe = s.probe := rfl
@[simp] theorem State.noteCyc_free (s : State) (o : Nat) (g : CycReg → CycReg) : (s.noteCyc o g).free = s.free := rfl

/-! ### `State.noteSet` changes only `cyc`. -/

@[simp] theorem State.noteSet_pending (s : State) (r : Reg) (m b i : Nat) : (s.noteSet r m b i).pending = s.pending := rfl
@[simp] theorem State.noteSet_tick (s : State) (r : Reg) (m b i : Nat) : (s.noteSet r m b i).tick = s.tick := rfl
@[simp] theorem State.noteSet_frst (s : State) (r : Reg) (m b i : Nat) : (s.noteSet r m b i).frst = s.frst := rfl
@[simp] theorem State.noteSet_started (s : State) (r : Reg) (m b i : Nat) : (s.noteSet r m b i).started = s.started := rfl
@[simp] theorem State.noteSet_prim (s : State) (r : Reg) (m b i : Nat) : (s.noteSet r m b i).prim = s.prim := rfl
@[simp] theorem State.noteSet_haltConds (s : State) (r : Reg) (m b i : Nat) : (s.noteSet r m b i).haltConds = s.haltConds := rfl
@[simp] theorem State.noteSet_fallback (s : State) (r : Reg) (m b i : Nat) : (s.noteSet r m b i).fallback = s.fallback := rfl
@[simp] theorem State.noteSet_drainPend (s : State) (r : Reg) (m b i : Nat) : (s.noteSet r m b i).drainPend = s.drainPend := rfl
@[simp] theorem State.noteSet_drainAt (s : State) (r : Reg) (m b i : Nat) : (s.noteSet r m b i).drainAt = s.drainAt := rfl
@[simp] theorem State.noteSet_pdrec (s : State) (r : Reg) (m b i : Nat) : (s.noteSet r m b i).pdrec = s.pdrec := rfl
@[simp] theorem State.noteSet_regs (s : State) (r : Reg) (m b i : Nat) : (s.noteSet r m b i).regs = s.regs := rfl
@[simp] theorem State.noteSet_modeWas (s : State) (r : Reg) (m b i : Nat) : (s.noteSet r m b i).modeWas = s.modeWas := rfl
@[simp] theorem State.noteSet_quietWas (s : State) (r : Reg) (m b i : Nat) : (s.noteSet r m b i).quietWas = s.quietWas := rfl
@[simp] theorem State.noteSet_shadows (s : State) (r : Reg) (m b i : Nat) : (s.noteSet r m b i).shadows = s.shadows := rfl
@[simp] theorem State.noteSet_tabs (s : State) (r : Reg) (m b i : Nat) : (s.noteSet r m b i).tabs = s.tabs := rfl
@[simp] theorem State.noteSet_fuses (s : State) (r : Reg) (m b i : Nat) : (s.noteSet r m b i).fuses = s.fuses := rfl
@[simp] theorem State.noteSet_ownEp (s : State) (r : Reg) (m b i : Nat) : (s.noteSet r m b i).ownEp = s.ownEp := rfl
@[simp] theorem State.noteSet_tim (s : State) (r : Reg) (m b i : Nat) : (s.noteSet r m b i).tim = s.tim := rfl
@[simp] theorem State.noteSet_fc (s : State) (r : Reg) (m b i : Nat) : (s.noteSet r m b i).fc = s.fc := rfl
@[simp] theorem State.noteSet_prg (s : State) (r : Reg) (m b i : Nat) : (s.noteSet r m b i).prg = s.prg := rfl
@[simp] theorem State.noteSet_epo (s : State) (r : Reg) (m b i : Nat) : (s.noteSet r m b i).epo = s.epo := rfl
@[simp] theorem State.noteSet_hub (s : State) (r : Reg) (m b i : Nat) : (s.noteSet r m b i).hub = s.hub := rfl
@[simp] theorem State.noteSet_rkCopy (s : State) (r : Reg) (m b i : Nat) : (s.noteSet r m b i).rkCopy = s.rkCopy := rfl
@[simp] theorem State.noteSet_rbuf (s : State) (r : Reg) (m b i : Nat) : (s.noteSet r m b i).rbuf = s.rbuf := rfl
@[simp] theorem State.noteSet_cred (s : State) (r : Reg) (m b i : Nat) : (s.noteSet r m b i).cred = s.cred := rfl
@[simp] theorem State.noteSet_arbs (s : State) (r : Reg) (m b i : Nat) : (s.noteSet r m b i).arbs = s.arbs := rfl
@[simp] theorem State.noteSet_ni (s : State) (r : Reg) (m b i : Nat) : (s.noteSet r m b i).ni = s.ni := rfl
@[simp] theorem State.noteSet_saf (s : State) (r : Reg) (m b i : Nat) : (s.noteSet r m b i).saf = s.saf := rfl
@[simp] theorem State.noteSet_home (s : State) (r : Reg) (m b i : Nat) : (s.noteSet r m b i).home = s.home := rfl
@[simp] theorem State.noteSet_dir (s : State) (r : Reg) (m b i : Nat) : (s.noteSet r m b i).dir = s.dir := rfl
@[simp] theorem State.noteSet_plru (s : State) (r : Reg) (m b i : Nat) : (s.noteSet r m b i).plru = s.plru := rfl
@[simp] theorem State.noteSet_pred (s : State) (r : Reg) (m b i : Nat) : (s.noteSet r m b i).pred = s.pred := rfl
@[simp] theorem State.noteSet_cache (s : State) (r : Reg) (m b i : Nat) : (s.noteSet r m b i).cache = s.cache := rfl
@[simp] theorem State.noteSet_recalls (s : State) (r : Reg) (m b i : Nat) : (s.noteSet r m b i).recalls = s.recalls := rfl
@[simp] theorem State.noteSet_sram (s : State) (r : Reg) (m b i : Nat) : (s.noteSet r m b i).sram = s.sram := rfl
@[simp] theorem State.noteSet_sramBad (s : State) (r : Reg) (m b i : Nat) : (s.noteSet r m b i).sramBad = s.sramBad := rfl
@[simp] theorem State.noteSet_bank (s : State) (r : Reg) (m b i : Nat) : (s.noteSet r m b i).bank = s.bank := rfl
@[simp] theorem State.noteSet_loc (s : State) (r : Reg) (m b i : Nat) : (s.noteSet r m b i).loc = s.loc := rfl
@[simp] theorem State.noteSet_que (s : State) (r : Reg) (m b i : Nat) : (s.noteSet r m b i).que = s.que := rfl
@[simp] theorem State.noteSet_qm (s : State) (r : Reg) (m b i : Nat) : (s.noteSet r m b i).qm = s.qm := rfl
@[simp] theorem State.noteSet_refillAt (s : State) (r : Reg) (m b i : Nat) : (s.noteSet r m b i).refillAt = s.refillAt := rfl
@[simp] theorem State.noteSet_ecl (s : State) (r : Reg) (m b i : Nat) : (s.noteSet r m b i).ecl = s.ecl := rfl
@[simp] theorem State.noteSet_lsram (s : State) (r : Reg) (m b i : Nat) : (s.noteSet r m b i).lsram = s.lsram := rfl
@[simp] theorem State.noteSet_lsramBad (s : State) (r : Reg) (m b i : Nat) : (s.noteSet r m b i).lsramBad = s.lsramBad := rfl
@[simp] theorem State.noteSet_ctr (s : State) (r : Reg) (m b i : Nat) : (s.noteSet r m b i).ctr = s.ctr := rfl
@[simp] theorem State.noteSet_ctrWas (s : State) (r : Reg) (m b i : Nat) : (s.noteSet r m b i).ctrWas = s.ctrWas := rfl
@[simp] theorem State.noteSet_ctrClr (s : State) (r : Reg) (m b i : Nat) : (s.noteSet r m b i).ctrClr = s.ctrClr := rfl
@[simp] theorem State.noteSet_wakePin (s : State) (r : Reg) (m b i : Nat) : (s.noteSet r m b i).wakePin = s.wakePin := rfl
@[simp] theorem State.noteSet_dom (s : State) (r : Reg) (m b i : Nat) : (s.noteSet r m b i).dom = s.dom := rfl
@[simp] theorem State.noteSet_sigs (s : State) (r : Reg) (m b i : Nat) : (s.noteSet r m b i).sigs = s.sigs := rfl
@[simp] theorem State.noteSet_slc (s : State) (r : Reg) (m b i : Nat) : (s.noteSet r m b i).slc = s.slc := rfl
@[simp] theorem State.noteSet_freeze (s : State) (r : Reg) (m b i : Nat) : (s.noteSet r m b i).freeze = s.freeze := rfl
@[simp] theorem State.noteSet_bw (s : State) (r : Reg) (m b i : Nat) : (s.noteSet r m b i).bw = s.bw := rfl
@[simp] theorem State.noteSet_probe (s : State) (r : Reg) (m b i : Nat) : (s.noteSet r m b i).probe = s.probe := rfl
@[simp] theorem State.noteSet_free (s : State) (r : Reg) (m b i : Nat) : (s.noteSet r m b i).free = s.free := rfl

/-! ### `State.setReg` changes only `regs`, `cyc`. -/

@[simp] theorem State.setReg_pending (s : State) (r : Reg) (v b i : Nat) : (s.setReg r v b i).pending = s.pending := rfl
@[simp] theorem State.setReg_tick (s : State) (r : Reg) (v b i : Nat) : (s.setReg r v b i).tick = s.tick := rfl
@[simp] theorem State.setReg_frst (s : State) (r : Reg) (v b i : Nat) : (s.setReg r v b i).frst = s.frst := rfl
@[simp] theorem State.setReg_started (s : State) (r : Reg) (v b i : Nat) : (s.setReg r v b i).started = s.started := rfl
@[simp] theorem State.setReg_prim (s : State) (r : Reg) (v b i : Nat) : (s.setReg r v b i).prim = s.prim := rfl
@[simp] theorem State.setReg_haltConds (s : State) (r : Reg) (v b i : Nat) : (s.setReg r v b i).haltConds = s.haltConds := rfl
@[simp] theorem State.setReg_fallback (s : State) (r : Reg) (v b i : Nat) : (s.setReg r v b i).fallback = s.fallback := rfl
@[simp] theorem State.setReg_drainPend (s : State) (r : Reg) (v b i : Nat) : (s.setReg r v b i).drainPend = s.drainPend := rfl
@[simp] theorem State.setReg_drainAt (s : State) (r : Reg) (v b i : Nat) : (s.setReg r v b i).drainAt = s.drainAt := rfl
@[simp] theorem State.setReg_pdrec (s : State) (r : Reg) (v b i : Nat) : (s.setReg r v b i).pdrec = s.pdrec := rfl
@[simp] theorem State.setReg_modeWas (s : State) (r : Reg) (v b i : Nat) : (s.setReg r v b i).modeWas = s.modeWas := rfl
@[simp] theorem State.setReg_quietWas (s : State) (r : Reg) (v b i : Nat) : (s.setReg r v b i).quietWas = s.quietWas := rfl
@[simp] theorem State.setReg_shadows (s : State) (r : Reg) (v b i : Nat) : (s.setReg r v b i).shadows = s.shadows := rfl
@[simp] theorem State.setReg_tabs (s : State) (r : Reg) (v b i : Nat) : (s.setReg r v b i).tabs = s.tabs := rfl
@[simp] theorem State.setReg_fuses (s : State) (r : Reg) (v b i : Nat) : (s.setReg r v b i).fuses = s.fuses := rfl
@[simp] theorem State.setReg_ownEp (s : State) (r : Reg) (v b i : Nat) : (s.setReg r v b i).ownEp = s.ownEp := rfl
@[simp] theorem State.setReg_tim (s : State) (r : Reg) (v b i : Nat) : (s.setReg r v b i).tim = s.tim := rfl
@[simp] theorem State.setReg_fc (s : State) (r : Reg) (v b i : Nat) : (s.setReg r v b i).fc = s.fc := rfl
@[simp] theorem State.setReg_prg (s : State) (r : Reg) (v b i : Nat) : (s.setReg r v b i).prg = s.prg := rfl
@[simp] theorem State.setReg_epo (s : State) (r : Reg) (v b i : Nat) : (s.setReg r v b i).epo = s.epo := rfl
@[simp] theorem State.setReg_hub (s : State) (r : Reg) (v b i : Nat) : (s.setReg r v b i).hub = s.hub := rfl
@[simp] theorem State.setReg_rkCopy (s : State) (r : Reg) (v b i : Nat) : (s.setReg r v b i).rkCopy = s.rkCopy := rfl
@[simp] theorem State.setReg_rbuf (s : State) (r : Reg) (v b i : Nat) : (s.setReg r v b i).rbuf = s.rbuf := rfl
@[simp] theorem State.setReg_cred (s : State) (r : Reg) (v b i : Nat) : (s.setReg r v b i).cred = s.cred := rfl
@[simp] theorem State.setReg_arbs (s : State) (r : Reg) (v b i : Nat) : (s.setReg r v b i).arbs = s.arbs := rfl
@[simp] theorem State.setReg_ni (s : State) (r : Reg) (v b i : Nat) : (s.setReg r v b i).ni = s.ni := rfl
@[simp] theorem State.setReg_saf (s : State) (r : Reg) (v b i : Nat) : (s.setReg r v b i).saf = s.saf := rfl
@[simp] theorem State.setReg_home (s : State) (r : Reg) (v b i : Nat) : (s.setReg r v b i).home = s.home := rfl
@[simp] theorem State.setReg_dir (s : State) (r : Reg) (v b i : Nat) : (s.setReg r v b i).dir = s.dir := rfl
@[simp] theorem State.setReg_plru (s : State) (r : Reg) (v b i : Nat) : (s.setReg r v b i).plru = s.plru := rfl
@[simp] theorem State.setReg_pred (s : State) (r : Reg) (v b i : Nat) : (s.setReg r v b i).pred = s.pred := rfl
@[simp] theorem State.setReg_cache (s : State) (r : Reg) (v b i : Nat) : (s.setReg r v b i).cache = s.cache := rfl
@[simp] theorem State.setReg_recalls (s : State) (r : Reg) (v b i : Nat) : (s.setReg r v b i).recalls = s.recalls := rfl
@[simp] theorem State.setReg_sram (s : State) (r : Reg) (v b i : Nat) : (s.setReg r v b i).sram = s.sram := rfl
@[simp] theorem State.setReg_sramBad (s : State) (r : Reg) (v b i : Nat) : (s.setReg r v b i).sramBad = s.sramBad := rfl
@[simp] theorem State.setReg_bank (s : State) (r : Reg) (v b i : Nat) : (s.setReg r v b i).bank = s.bank := rfl
@[simp] theorem State.setReg_loc (s : State) (r : Reg) (v b i : Nat) : (s.setReg r v b i).loc = s.loc := rfl
@[simp] theorem State.setReg_que (s : State) (r : Reg) (v b i : Nat) : (s.setReg r v b i).que = s.que := rfl
@[simp] theorem State.setReg_qm (s : State) (r : Reg) (v b i : Nat) : (s.setReg r v b i).qm = s.qm := rfl
@[simp] theorem State.setReg_refillAt (s : State) (r : Reg) (v b i : Nat) : (s.setReg r v b i).refillAt = s.refillAt := rfl
@[simp] theorem State.setReg_ecl (s : State) (r : Reg) (v b i : Nat) : (s.setReg r v b i).ecl = s.ecl := rfl
@[simp] theorem State.setReg_lsram (s : State) (r : Reg) (v b i : Nat) : (s.setReg r v b i).lsram = s.lsram := rfl
@[simp] theorem State.setReg_lsramBad (s : State) (r : Reg) (v b i : Nat) : (s.setReg r v b i).lsramBad = s.lsramBad := rfl
@[simp] theorem State.setReg_ctr (s : State) (r : Reg) (v b i : Nat) : (s.setReg r v b i).ctr = s.ctr := rfl
@[simp] theorem State.setReg_ctrWas (s : State) (r : Reg) (v b i : Nat) : (s.setReg r v b i).ctrWas = s.ctrWas := rfl
@[simp] theorem State.setReg_ctrClr (s : State) (r : Reg) (v b i : Nat) : (s.setReg r v b i).ctrClr = s.ctrClr := rfl
@[simp] theorem State.setReg_wakePin (s : State) (r : Reg) (v b i : Nat) : (s.setReg r v b i).wakePin = s.wakePin := rfl
@[simp] theorem State.setReg_dom (s : State) (r : Reg) (v b i : Nat) : (s.setReg r v b i).dom = s.dom := rfl
@[simp] theorem State.setReg_sigs (s : State) (r : Reg) (v b i : Nat) : (s.setReg r v b i).sigs = s.sigs := rfl
@[simp] theorem State.setReg_slc (s : State) (r : Reg) (v b i : Nat) : (s.setReg r v b i).slc = s.slc := rfl
@[simp] theorem State.setReg_freeze (s : State) (r : Reg) (v b i : Nat) : (s.setReg r v b i).freeze = s.freeze := rfl
@[simp] theorem State.setReg_bw (s : State) (r : Reg) (v b i : Nat) : (s.setReg r v b i).bw = s.bw := rfl
@[simp] theorem State.setReg_probe (s : State) (r : Reg) (v b i : Nat) : (s.setReg r v b i).probe = s.probe := rfl
@[simp] theorem State.setReg_free (s : State) (r : Reg) (v b i : Nat) : (s.setReg r v b i).free = s.free := rfl

/-! ### `State.setRf` changes only `regs`, `cyc`. -/

@[simp] theorem State.setRf_pending (s : State) (r : Reg) (lo w x b i : Nat) : (s.setRf r lo w x b i).pending = s.pending := rfl
@[simp] theorem State.setRf_tick (s : State) (r : Reg) (lo w x b i : Nat) : (s.setRf r lo w x b i).tick = s.tick := rfl
@[simp] theorem State.setRf_frst (s : State) (r : Reg) (lo w x b i : Nat) : (s.setRf r lo w x b i).frst = s.frst := rfl
@[simp] theorem State.setRf_started (s : State) (r : Reg) (lo w x b i : Nat) : (s.setRf r lo w x b i).started = s.started := rfl
@[simp] theorem State.setRf_prim (s : State) (r : Reg) (lo w x b i : Nat) : (s.setRf r lo w x b i).prim = s.prim := rfl
@[simp] theorem State.setRf_haltConds (s : State) (r : Reg) (lo w x b i : Nat) : (s.setRf r lo w x b i).haltConds = s.haltConds := rfl
@[simp] theorem State.setRf_fallback (s : State) (r : Reg) (lo w x b i : Nat) : (s.setRf r lo w x b i).fallback = s.fallback := rfl
@[simp] theorem State.setRf_drainPend (s : State) (r : Reg) (lo w x b i : Nat) : (s.setRf r lo w x b i).drainPend = s.drainPend := rfl
@[simp] theorem State.setRf_drainAt (s : State) (r : Reg) (lo w x b i : Nat) : (s.setRf r lo w x b i).drainAt = s.drainAt := rfl
@[simp] theorem State.setRf_pdrec (s : State) (r : Reg) (lo w x b i : Nat) : (s.setRf r lo w x b i).pdrec = s.pdrec := rfl
@[simp] theorem State.setRf_modeWas (s : State) (r : Reg) (lo w x b i : Nat) : (s.setRf r lo w x b i).modeWas = s.modeWas := rfl
@[simp] theorem State.setRf_quietWas (s : State) (r : Reg) (lo w x b i : Nat) : (s.setRf r lo w x b i).quietWas = s.quietWas := rfl
@[simp] theorem State.setRf_shadows (s : State) (r : Reg) (lo w x b i : Nat) : (s.setRf r lo w x b i).shadows = s.shadows := rfl
@[simp] theorem State.setRf_tabs (s : State) (r : Reg) (lo w x b i : Nat) : (s.setRf r lo w x b i).tabs = s.tabs := rfl
@[simp] theorem State.setRf_fuses (s : State) (r : Reg) (lo w x b i : Nat) : (s.setRf r lo w x b i).fuses = s.fuses := rfl
@[simp] theorem State.setRf_ownEp (s : State) (r : Reg) (lo w x b i : Nat) : (s.setRf r lo w x b i).ownEp = s.ownEp := rfl
@[simp] theorem State.setRf_tim (s : State) (r : Reg) (lo w x b i : Nat) : (s.setRf r lo w x b i).tim = s.tim := rfl
@[simp] theorem State.setRf_fc (s : State) (r : Reg) (lo w x b i : Nat) : (s.setRf r lo w x b i).fc = s.fc := rfl
@[simp] theorem State.setRf_prg (s : State) (r : Reg) (lo w x b i : Nat) : (s.setRf r lo w x b i).prg = s.prg := rfl
@[simp] theorem State.setRf_epo (s : State) (r : Reg) (lo w x b i : Nat) : (s.setRf r lo w x b i).epo = s.epo := rfl
@[simp] theorem State.setRf_hub (s : State) (r : Reg) (lo w x b i : Nat) : (s.setRf r lo w x b i).hub = s.hub := rfl
@[simp] theorem State.setRf_rkCopy (s : State) (r : Reg) (lo w x b i : Nat) : (s.setRf r lo w x b i).rkCopy = s.rkCopy := rfl
@[simp] theorem State.setRf_rbuf (s : State) (r : Reg) (lo w x b i : Nat) : (s.setRf r lo w x b i).rbuf = s.rbuf := rfl
@[simp] theorem State.setRf_cred (s : State) (r : Reg) (lo w x b i : Nat) : (s.setRf r lo w x b i).cred = s.cred := rfl
@[simp] theorem State.setRf_arbs (s : State) (r : Reg) (lo w x b i : Nat) : (s.setRf r lo w x b i).arbs = s.arbs := rfl
@[simp] theorem State.setRf_ni (s : State) (r : Reg) (lo w x b i : Nat) : (s.setRf r lo w x b i).ni = s.ni := rfl
@[simp] theorem State.setRf_saf (s : State) (r : Reg) (lo w x b i : Nat) : (s.setRf r lo w x b i).saf = s.saf := rfl
@[simp] theorem State.setRf_home (s : State) (r : Reg) (lo w x b i : Nat) : (s.setRf r lo w x b i).home = s.home := rfl
@[simp] theorem State.setRf_dir (s : State) (r : Reg) (lo w x b i : Nat) : (s.setRf r lo w x b i).dir = s.dir := rfl
@[simp] theorem State.setRf_plru (s : State) (r : Reg) (lo w x b i : Nat) : (s.setRf r lo w x b i).plru = s.plru := rfl
@[simp] theorem State.setRf_pred (s : State) (r : Reg) (lo w x b i : Nat) : (s.setRf r lo w x b i).pred = s.pred := rfl
@[simp] theorem State.setRf_cache (s : State) (r : Reg) (lo w x b i : Nat) : (s.setRf r lo w x b i).cache = s.cache := rfl
@[simp] theorem State.setRf_recalls (s : State) (r : Reg) (lo w x b i : Nat) : (s.setRf r lo w x b i).recalls = s.recalls := rfl
@[simp] theorem State.setRf_sram (s : State) (r : Reg) (lo w x b i : Nat) : (s.setRf r lo w x b i).sram = s.sram := rfl
@[simp] theorem State.setRf_sramBad (s : State) (r : Reg) (lo w x b i : Nat) : (s.setRf r lo w x b i).sramBad = s.sramBad := rfl
@[simp] theorem State.setRf_bank (s : State) (r : Reg) (lo w x b i : Nat) : (s.setRf r lo w x b i).bank = s.bank := rfl
@[simp] theorem State.setRf_loc (s : State) (r : Reg) (lo w x b i : Nat) : (s.setRf r lo w x b i).loc = s.loc := rfl
@[simp] theorem State.setRf_que (s : State) (r : Reg) (lo w x b i : Nat) : (s.setRf r lo w x b i).que = s.que := rfl
@[simp] theorem State.setRf_qm (s : State) (r : Reg) (lo w x b i : Nat) : (s.setRf r lo w x b i).qm = s.qm := rfl
@[simp] theorem State.setRf_refillAt (s : State) (r : Reg) (lo w x b i : Nat) : (s.setRf r lo w x b i).refillAt = s.refillAt := rfl
@[simp] theorem State.setRf_ecl (s : State) (r : Reg) (lo w x b i : Nat) : (s.setRf r lo w x b i).ecl = s.ecl := rfl
@[simp] theorem State.setRf_lsram (s : State) (r : Reg) (lo w x b i : Nat) : (s.setRf r lo w x b i).lsram = s.lsram := rfl
@[simp] theorem State.setRf_lsramBad (s : State) (r : Reg) (lo w x b i : Nat) : (s.setRf r lo w x b i).lsramBad = s.lsramBad := rfl
@[simp] theorem State.setRf_ctr (s : State) (r : Reg) (lo w x b i : Nat) : (s.setRf r lo w x b i).ctr = s.ctr := rfl
@[simp] theorem State.setRf_ctrWas (s : State) (r : Reg) (lo w x b i : Nat) : (s.setRf r lo w x b i).ctrWas = s.ctrWas := rfl
@[simp] theorem State.setRf_ctrClr (s : State) (r : Reg) (lo w x b i : Nat) : (s.setRf r lo w x b i).ctrClr = s.ctrClr := rfl
@[simp] theorem State.setRf_wakePin (s : State) (r : Reg) (lo w x b i : Nat) : (s.setRf r lo w x b i).wakePin = s.wakePin := rfl
@[simp] theorem State.setRf_dom (s : State) (r : Reg) (lo w x b i : Nat) : (s.setRf r lo w x b i).dom = s.dom := rfl
@[simp] theorem State.setRf_sigs (s : State) (r : Reg) (lo w x b i : Nat) : (s.setRf r lo w x b i).sigs = s.sigs := rfl
@[simp] theorem State.setRf_slc (s : State) (r : Reg) (lo w x b i : Nat) : (s.setRf r lo w x b i).slc = s.slc := rfl
@[simp] theorem State.setRf_freeze (s : State) (r : Reg) (lo w x b i : Nat) : (s.setRf r lo w x b i).freeze = s.freeze := rfl
@[simp] theorem State.setRf_bw (s : State) (r : Reg) (lo w x b i : Nat) : (s.setRf r lo w x b i).bw = s.bw := rfl
@[simp] theorem State.setRf_probe (s : State) (r : Reg) (lo w x b i : Nat) : (s.setRf r lo w x b i).probe = s.probe := rfl
@[simp] theorem State.setRf_free (s : State) (r : Reg) (lo w x b i : Nat) : (s.setRf r lo w x b i).free = s.free := rfl

/-! ### `State.bump` changes only `regs`, `cyc`. -/

@[simp] theorem State.bump_pending (s : State) (r : Reg) (b i n : Nat) : (s.bump r b i n).pending = s.pending := rfl
@[simp] theorem State.bump_tick (s : State) (r : Reg) (b i n : Nat) : (s.bump r b i n).tick = s.tick := rfl
@[simp] theorem State.bump_frst (s : State) (r : Reg) (b i n : Nat) : (s.bump r b i n).frst = s.frst := rfl
@[simp] theorem State.bump_started (s : State) (r : Reg) (b i n : Nat) : (s.bump r b i n).started = s.started := rfl
@[simp] theorem State.bump_prim (s : State) (r : Reg) (b i n : Nat) : (s.bump r b i n).prim = s.prim := rfl
@[simp] theorem State.bump_haltConds (s : State) (r : Reg) (b i n : Nat) : (s.bump r b i n).haltConds = s.haltConds := rfl
@[simp] theorem State.bump_fallback (s : State) (r : Reg) (b i n : Nat) : (s.bump r b i n).fallback = s.fallback := rfl
@[simp] theorem State.bump_drainPend (s : State) (r : Reg) (b i n : Nat) : (s.bump r b i n).drainPend = s.drainPend := rfl
@[simp] theorem State.bump_drainAt (s : State) (r : Reg) (b i n : Nat) : (s.bump r b i n).drainAt = s.drainAt := rfl
@[simp] theorem State.bump_pdrec (s : State) (r : Reg) (b i n : Nat) : (s.bump r b i n).pdrec = s.pdrec := rfl
@[simp] theorem State.bump_modeWas (s : State) (r : Reg) (b i n : Nat) : (s.bump r b i n).modeWas = s.modeWas := rfl
@[simp] theorem State.bump_quietWas (s : State) (r : Reg) (b i n : Nat) : (s.bump r b i n).quietWas = s.quietWas := rfl
@[simp] theorem State.bump_shadows (s : State) (r : Reg) (b i n : Nat) : (s.bump r b i n).shadows = s.shadows := rfl
@[simp] theorem State.bump_tabs (s : State) (r : Reg) (b i n : Nat) : (s.bump r b i n).tabs = s.tabs := rfl
@[simp] theorem State.bump_fuses (s : State) (r : Reg) (b i n : Nat) : (s.bump r b i n).fuses = s.fuses := rfl
@[simp] theorem State.bump_ownEp (s : State) (r : Reg) (b i n : Nat) : (s.bump r b i n).ownEp = s.ownEp := rfl
@[simp] theorem State.bump_tim (s : State) (r : Reg) (b i n : Nat) : (s.bump r b i n).tim = s.tim := rfl
@[simp] theorem State.bump_fc (s : State) (r : Reg) (b i n : Nat) : (s.bump r b i n).fc = s.fc := rfl
@[simp] theorem State.bump_prg (s : State) (r : Reg) (b i n : Nat) : (s.bump r b i n).prg = s.prg := rfl
@[simp] theorem State.bump_epo (s : State) (r : Reg) (b i n : Nat) : (s.bump r b i n).epo = s.epo := rfl
@[simp] theorem State.bump_hub (s : State) (r : Reg) (b i n : Nat) : (s.bump r b i n).hub = s.hub := rfl
@[simp] theorem State.bump_rkCopy (s : State) (r : Reg) (b i n : Nat) : (s.bump r b i n).rkCopy = s.rkCopy := rfl
@[simp] theorem State.bump_rbuf (s : State) (r : Reg) (b i n : Nat) : (s.bump r b i n).rbuf = s.rbuf := rfl
@[simp] theorem State.bump_cred (s : State) (r : Reg) (b i n : Nat) : (s.bump r b i n).cred = s.cred := rfl
@[simp] theorem State.bump_arbs (s : State) (r : Reg) (b i n : Nat) : (s.bump r b i n).arbs = s.arbs := rfl
@[simp] theorem State.bump_ni (s : State) (r : Reg) (b i n : Nat) : (s.bump r b i n).ni = s.ni := rfl
@[simp] theorem State.bump_saf (s : State) (r : Reg) (b i n : Nat) : (s.bump r b i n).saf = s.saf := rfl
@[simp] theorem State.bump_home (s : State) (r : Reg) (b i n : Nat) : (s.bump r b i n).home = s.home := rfl
@[simp] theorem State.bump_dir (s : State) (r : Reg) (b i n : Nat) : (s.bump r b i n).dir = s.dir := rfl
@[simp] theorem State.bump_plru (s : State) (r : Reg) (b i n : Nat) : (s.bump r b i n).plru = s.plru := rfl
@[simp] theorem State.bump_pred (s : State) (r : Reg) (b i n : Nat) : (s.bump r b i n).pred = s.pred := rfl
@[simp] theorem State.bump_cache (s : State) (r : Reg) (b i n : Nat) : (s.bump r b i n).cache = s.cache := rfl
@[simp] theorem State.bump_recalls (s : State) (r : Reg) (b i n : Nat) : (s.bump r b i n).recalls = s.recalls := rfl
@[simp] theorem State.bump_sram (s : State) (r : Reg) (b i n : Nat) : (s.bump r b i n).sram = s.sram := rfl
@[simp] theorem State.bump_sramBad (s : State) (r : Reg) (b i n : Nat) : (s.bump r b i n).sramBad = s.sramBad := rfl
@[simp] theorem State.bump_bank (s : State) (r : Reg) (b i n : Nat) : (s.bump r b i n).bank = s.bank := rfl
@[simp] theorem State.bump_loc (s : State) (r : Reg) (b i n : Nat) : (s.bump r b i n).loc = s.loc := rfl
@[simp] theorem State.bump_que (s : State) (r : Reg) (b i n : Nat) : (s.bump r b i n).que = s.que := rfl
@[simp] theorem State.bump_qm (s : State) (r : Reg) (b i n : Nat) : (s.bump r b i n).qm = s.qm := rfl
@[simp] theorem State.bump_refillAt (s : State) (r : Reg) (b i n : Nat) : (s.bump r b i n).refillAt = s.refillAt := rfl
@[simp] theorem State.bump_ecl (s : State) (r : Reg) (b i n : Nat) : (s.bump r b i n).ecl = s.ecl := rfl
@[simp] theorem State.bump_lsram (s : State) (r : Reg) (b i n : Nat) : (s.bump r b i n).lsram = s.lsram := rfl
@[simp] theorem State.bump_lsramBad (s : State) (r : Reg) (b i n : Nat) : (s.bump r b i n).lsramBad = s.lsramBad := rfl
@[simp] theorem State.bump_ctr (s : State) (r : Reg) (b i n : Nat) : (s.bump r b i n).ctr = s.ctr := rfl
@[simp] theorem State.bump_ctrWas (s : State) (r : Reg) (b i n : Nat) : (s.bump r b i n).ctrWas = s.ctrWas := rfl
@[simp] theorem State.bump_ctrClr (s : State) (r : Reg) (b i n : Nat) : (s.bump r b i n).ctrClr = s.ctrClr := rfl
@[simp] theorem State.bump_wakePin (s : State) (r : Reg) (b i n : Nat) : (s.bump r b i n).wakePin = s.wakePin := rfl
@[simp] theorem State.bump_dom (s : State) (r : Reg) (b i n : Nat) : (s.bump r b i n).dom = s.dom := rfl
@[simp] theorem State.bump_sigs (s : State) (r : Reg) (b i n : Nat) : (s.bump r b i n).sigs = s.sigs := rfl
@[simp] theorem State.bump_slc (s : State) (r : Reg) (b i n : Nat) : (s.bump r b i n).slc = s.slc := rfl
@[simp] theorem State.bump_freeze (s : State) (r : Reg) (b i n : Nat) : (s.bump r b i n).freeze = s.freeze := rfl
@[simp] theorem State.bump_bw (s : State) (r : Reg) (b i n : Nat) : (s.bump r b i n).bw = s.bw := rfl
@[simp] theorem State.bump_probe (s : State) (r : Reg) (b i n : Nat) : (s.bump r b i n).probe = s.probe := rfl
@[simp] theorem State.bump_free (s : State) (r : Reg) (b i n : Nat) : (s.bump r b i n).free = s.free := rfl

/-! ### `State.raiseMax` changes only `regs`, `cyc`. -/

@[simp] theorem State.raiseMax_pending (s : State) (r : Reg) (n b i : Nat) : (s.raiseMax r n b i).pending = s.pending := rfl
@[simp] theorem State.raiseMax_tick (s : State) (r : Reg) (n b i : Nat) : (s.raiseMax r n b i).tick = s.tick := rfl
@[simp] theorem State.raiseMax_frst (s : State) (r : Reg) (n b i : Nat) : (s.raiseMax r n b i).frst = s.frst := rfl
@[simp] theorem State.raiseMax_started (s : State) (r : Reg) (n b i : Nat) : (s.raiseMax r n b i).started = s.started := rfl
@[simp] theorem State.raiseMax_prim (s : State) (r : Reg) (n b i : Nat) : (s.raiseMax r n b i).prim = s.prim := rfl
@[simp] theorem State.raiseMax_haltConds (s : State) (r : Reg) (n b i : Nat) : (s.raiseMax r n b i).haltConds = s.haltConds := rfl
@[simp] theorem State.raiseMax_fallback (s : State) (r : Reg) (n b i : Nat) : (s.raiseMax r n b i).fallback = s.fallback := rfl
@[simp] theorem State.raiseMax_drainPend (s : State) (r : Reg) (n b i : Nat) : (s.raiseMax r n b i).drainPend = s.drainPend := rfl
@[simp] theorem State.raiseMax_drainAt (s : State) (r : Reg) (n b i : Nat) : (s.raiseMax r n b i).drainAt = s.drainAt := rfl
@[simp] theorem State.raiseMax_pdrec (s : State) (r : Reg) (n b i : Nat) : (s.raiseMax r n b i).pdrec = s.pdrec := rfl
@[simp] theorem State.raiseMax_modeWas (s : State) (r : Reg) (n b i : Nat) : (s.raiseMax r n b i).modeWas = s.modeWas := rfl
@[simp] theorem State.raiseMax_quietWas (s : State) (r : Reg) (n b i : Nat) : (s.raiseMax r n b i).quietWas = s.quietWas := rfl
@[simp] theorem State.raiseMax_shadows (s : State) (r : Reg) (n b i : Nat) : (s.raiseMax r n b i).shadows = s.shadows := rfl
@[simp] theorem State.raiseMax_tabs (s : State) (r : Reg) (n b i : Nat) : (s.raiseMax r n b i).tabs = s.tabs := rfl
@[simp] theorem State.raiseMax_fuses (s : State) (r : Reg) (n b i : Nat) : (s.raiseMax r n b i).fuses = s.fuses := rfl
@[simp] theorem State.raiseMax_ownEp (s : State) (r : Reg) (n b i : Nat) : (s.raiseMax r n b i).ownEp = s.ownEp := rfl
@[simp] theorem State.raiseMax_tim (s : State) (r : Reg) (n b i : Nat) : (s.raiseMax r n b i).tim = s.tim := rfl
@[simp] theorem State.raiseMax_fc (s : State) (r : Reg) (n b i : Nat) : (s.raiseMax r n b i).fc = s.fc := rfl
@[simp] theorem State.raiseMax_prg (s : State) (r : Reg) (n b i : Nat) : (s.raiseMax r n b i).prg = s.prg := rfl
@[simp] theorem State.raiseMax_epo (s : State) (r : Reg) (n b i : Nat) : (s.raiseMax r n b i).epo = s.epo := rfl
@[simp] theorem State.raiseMax_hub (s : State) (r : Reg) (n b i : Nat) : (s.raiseMax r n b i).hub = s.hub := rfl
@[simp] theorem State.raiseMax_rkCopy (s : State) (r : Reg) (n b i : Nat) : (s.raiseMax r n b i).rkCopy = s.rkCopy := rfl
@[simp] theorem State.raiseMax_rbuf (s : State) (r : Reg) (n b i : Nat) : (s.raiseMax r n b i).rbuf = s.rbuf := rfl
@[simp] theorem State.raiseMax_cred (s : State) (r : Reg) (n b i : Nat) : (s.raiseMax r n b i).cred = s.cred := rfl
@[simp] theorem State.raiseMax_arbs (s : State) (r : Reg) (n b i : Nat) : (s.raiseMax r n b i).arbs = s.arbs := rfl
@[simp] theorem State.raiseMax_ni (s : State) (r : Reg) (n b i : Nat) : (s.raiseMax r n b i).ni = s.ni := rfl
@[simp] theorem State.raiseMax_saf (s : State) (r : Reg) (n b i : Nat) : (s.raiseMax r n b i).saf = s.saf := rfl
@[simp] theorem State.raiseMax_home (s : State) (r : Reg) (n b i : Nat) : (s.raiseMax r n b i).home = s.home := rfl
@[simp] theorem State.raiseMax_dir (s : State) (r : Reg) (n b i : Nat) : (s.raiseMax r n b i).dir = s.dir := rfl
@[simp] theorem State.raiseMax_plru (s : State) (r : Reg) (n b i : Nat) : (s.raiseMax r n b i).plru = s.plru := rfl
@[simp] theorem State.raiseMax_pred (s : State) (r : Reg) (n b i : Nat) : (s.raiseMax r n b i).pred = s.pred := rfl
@[simp] theorem State.raiseMax_cache (s : State) (r : Reg) (n b i : Nat) : (s.raiseMax r n b i).cache = s.cache := rfl
@[simp] theorem State.raiseMax_recalls (s : State) (r : Reg) (n b i : Nat) : (s.raiseMax r n b i).recalls = s.recalls := rfl
@[simp] theorem State.raiseMax_sram (s : State) (r : Reg) (n b i : Nat) : (s.raiseMax r n b i).sram = s.sram := rfl
@[simp] theorem State.raiseMax_sramBad (s : State) (r : Reg) (n b i : Nat) : (s.raiseMax r n b i).sramBad = s.sramBad := rfl
@[simp] theorem State.raiseMax_bank (s : State) (r : Reg) (n b i : Nat) : (s.raiseMax r n b i).bank = s.bank := rfl
@[simp] theorem State.raiseMax_loc (s : State) (r : Reg) (n b i : Nat) : (s.raiseMax r n b i).loc = s.loc := rfl
@[simp] theorem State.raiseMax_que (s : State) (r : Reg) (n b i : Nat) : (s.raiseMax r n b i).que = s.que := rfl
@[simp] theorem State.raiseMax_qm (s : State) (r : Reg) (n b i : Nat) : (s.raiseMax r n b i).qm = s.qm := rfl
@[simp] theorem State.raiseMax_refillAt (s : State) (r : Reg) (n b i : Nat) : (s.raiseMax r n b i).refillAt = s.refillAt := rfl
@[simp] theorem State.raiseMax_ecl (s : State) (r : Reg) (n b i : Nat) : (s.raiseMax r n b i).ecl = s.ecl := rfl
@[simp] theorem State.raiseMax_lsram (s : State) (r : Reg) (n b i : Nat) : (s.raiseMax r n b i).lsram = s.lsram := rfl
@[simp] theorem State.raiseMax_lsramBad (s : State) (r : Reg) (n b i : Nat) : (s.raiseMax r n b i).lsramBad = s.lsramBad := rfl
@[simp] theorem State.raiseMax_ctr (s : State) (r : Reg) (n b i : Nat) : (s.raiseMax r n b i).ctr = s.ctr := rfl
@[simp] theorem State.raiseMax_ctrWas (s : State) (r : Reg) (n b i : Nat) : (s.raiseMax r n b i).ctrWas = s.ctrWas := rfl
@[simp] theorem State.raiseMax_ctrClr (s : State) (r : Reg) (n b i : Nat) : (s.raiseMax r n b i).ctrClr = s.ctrClr := rfl
@[simp] theorem State.raiseMax_wakePin (s : State) (r : Reg) (n b i : Nat) : (s.raiseMax r n b i).wakePin = s.wakePin := rfl
@[simp] theorem State.raiseMax_dom (s : State) (r : Reg) (n b i : Nat) : (s.raiseMax r n b i).dom = s.dom := rfl
@[simp] theorem State.raiseMax_sigs (s : State) (r : Reg) (n b i : Nat) : (s.raiseMax r n b i).sigs = s.sigs := rfl
@[simp] theorem State.raiseMax_slc (s : State) (r : Reg) (n b i : Nat) : (s.raiseMax r n b i).slc = s.slc := rfl
@[simp] theorem State.raiseMax_freeze (s : State) (r : Reg) (n b i : Nat) : (s.raiseMax r n b i).freeze = s.freeze := rfl
@[simp] theorem State.raiseMax_bw (s : State) (r : Reg) (n b i : Nat) : (s.raiseMax r n b i).bw = s.bw := rfl
@[simp] theorem State.raiseMax_probe (s : State) (r : Reg) (n b i : Nat) : (s.raiseMax r n b i).probe = s.probe := rfl
@[simp] theorem State.raiseMax_free (s : State) (r : Reg) (n b i : Nat) : (s.raiseMax r n b i).free = s.free := rfl

/-! ### `State.latchWords` changes only `regs`, `cyc`. -/

@[simp] theorem State.latchWords_pending (s : State) (c : Reg) (ws : List (Reg × Nat)) (b i : Nat) (m : List Reg) : (s.latchWords c ws b i m).pending = s.pending := by
  unfold State.latchWords; split
  · exact (State.foldl_keeps (fun t => t.pending) (fun s r => s.bump r b i) (fun _ _ => rfl) m _).trans rfl
  · exact State.foldl_keeps (fun t => t.pending) (fun s x => s.setReg x.1 x.2 b i) (fun _ _ => rfl) ws s
@[simp] theorem State.latchWords_tick (s : State) (c : Reg) (ws : List (Reg × Nat)) (b i : Nat) (m : List Reg) : (s.latchWords c ws b i m).tick = s.tick := by
  unfold State.latchWords; split
  · exact (State.foldl_keeps (fun t => t.tick) (fun s r => s.bump r b i) (fun _ _ => rfl) m _).trans rfl
  · exact State.foldl_keeps (fun t => t.tick) (fun s x => s.setReg x.1 x.2 b i) (fun _ _ => rfl) ws s
@[simp] theorem State.latchWords_frst (s : State) (c : Reg) (ws : List (Reg × Nat)) (b i : Nat) (m : List Reg) : (s.latchWords c ws b i m).frst = s.frst := by
  unfold State.latchWords; split
  · exact (State.foldl_keeps (fun t => t.frst) (fun s r => s.bump r b i) (fun _ _ => rfl) m _).trans rfl
  · exact State.foldl_keeps (fun t => t.frst) (fun s x => s.setReg x.1 x.2 b i) (fun _ _ => rfl) ws s
@[simp] theorem State.latchWords_started (s : State) (c : Reg) (ws : List (Reg × Nat)) (b i : Nat) (m : List Reg) : (s.latchWords c ws b i m).started = s.started := by
  unfold State.latchWords; split
  · exact (State.foldl_keeps (fun t => t.started) (fun s r => s.bump r b i) (fun _ _ => rfl) m _).trans rfl
  · exact State.foldl_keeps (fun t => t.started) (fun s x => s.setReg x.1 x.2 b i) (fun _ _ => rfl) ws s
@[simp] theorem State.latchWords_prim (s : State) (c : Reg) (ws : List (Reg × Nat)) (b i : Nat) (m : List Reg) : (s.latchWords c ws b i m).prim = s.prim := by
  unfold State.latchWords; split
  · exact (State.foldl_keeps (fun t => t.prim) (fun s r => s.bump r b i) (fun _ _ => rfl) m _).trans rfl
  · exact State.foldl_keeps (fun t => t.prim) (fun s x => s.setReg x.1 x.2 b i) (fun _ _ => rfl) ws s
@[simp] theorem State.latchWords_haltConds (s : State) (c : Reg) (ws : List (Reg × Nat)) (b i : Nat) (m : List Reg) : (s.latchWords c ws b i m).haltConds = s.haltConds := by
  unfold State.latchWords; split
  · exact (State.foldl_keeps (fun t => t.haltConds) (fun s r => s.bump r b i) (fun _ _ => rfl) m _).trans rfl
  · exact State.foldl_keeps (fun t => t.haltConds) (fun s x => s.setReg x.1 x.2 b i) (fun _ _ => rfl) ws s
@[simp] theorem State.latchWords_fallback (s : State) (c : Reg) (ws : List (Reg × Nat)) (b i : Nat) (m : List Reg) : (s.latchWords c ws b i m).fallback = s.fallback := by
  unfold State.latchWords; split
  · exact (State.foldl_keeps (fun t => t.fallback) (fun s r => s.bump r b i) (fun _ _ => rfl) m _).trans rfl
  · exact State.foldl_keeps (fun t => t.fallback) (fun s x => s.setReg x.1 x.2 b i) (fun _ _ => rfl) ws s
@[simp] theorem State.latchWords_drainPend (s : State) (c : Reg) (ws : List (Reg × Nat)) (b i : Nat) (m : List Reg) : (s.latchWords c ws b i m).drainPend = s.drainPend := by
  unfold State.latchWords; split
  · exact (State.foldl_keeps (fun t => t.drainPend) (fun s r => s.bump r b i) (fun _ _ => rfl) m _).trans rfl
  · exact State.foldl_keeps (fun t => t.drainPend) (fun s x => s.setReg x.1 x.2 b i) (fun _ _ => rfl) ws s
@[simp] theorem State.latchWords_drainAt (s : State) (c : Reg) (ws : List (Reg × Nat)) (b i : Nat) (m : List Reg) : (s.latchWords c ws b i m).drainAt = s.drainAt := by
  unfold State.latchWords; split
  · exact (State.foldl_keeps (fun t => t.drainAt) (fun s r => s.bump r b i) (fun _ _ => rfl) m _).trans rfl
  · exact State.foldl_keeps (fun t => t.drainAt) (fun s x => s.setReg x.1 x.2 b i) (fun _ _ => rfl) ws s
@[simp] theorem State.latchWords_pdrec (s : State) (c : Reg) (ws : List (Reg × Nat)) (b i : Nat) (m : List Reg) : (s.latchWords c ws b i m).pdrec = s.pdrec := by
  unfold State.latchWords; split
  · exact (State.foldl_keeps (fun t => t.pdrec) (fun s r => s.bump r b i) (fun _ _ => rfl) m _).trans rfl
  · exact State.foldl_keeps (fun t => t.pdrec) (fun s x => s.setReg x.1 x.2 b i) (fun _ _ => rfl) ws s
@[simp] theorem State.latchWords_modeWas (s : State) (c : Reg) (ws : List (Reg × Nat)) (b i : Nat) (m : List Reg) : (s.latchWords c ws b i m).modeWas = s.modeWas := by
  unfold State.latchWords; split
  · exact (State.foldl_keeps (fun t => t.modeWas) (fun s r => s.bump r b i) (fun _ _ => rfl) m _).trans rfl
  · exact State.foldl_keeps (fun t => t.modeWas) (fun s x => s.setReg x.1 x.2 b i) (fun _ _ => rfl) ws s
@[simp] theorem State.latchWords_quietWas (s : State) (c : Reg) (ws : List (Reg × Nat)) (b i : Nat) (m : List Reg) : (s.latchWords c ws b i m).quietWas = s.quietWas := by
  unfold State.latchWords; split
  · exact (State.foldl_keeps (fun t => t.quietWas) (fun s r => s.bump r b i) (fun _ _ => rfl) m _).trans rfl
  · exact State.foldl_keeps (fun t => t.quietWas) (fun s x => s.setReg x.1 x.2 b i) (fun _ _ => rfl) ws s
@[simp] theorem State.latchWords_shadows (s : State) (c : Reg) (ws : List (Reg × Nat)) (b i : Nat) (m : List Reg) : (s.latchWords c ws b i m).shadows = s.shadows := by
  unfold State.latchWords; split
  · exact (State.foldl_keeps (fun t => t.shadows) (fun s r => s.bump r b i) (fun _ _ => rfl) m _).trans rfl
  · exact State.foldl_keeps (fun t => t.shadows) (fun s x => s.setReg x.1 x.2 b i) (fun _ _ => rfl) ws s
@[simp] theorem State.latchWords_tabs (s : State) (c : Reg) (ws : List (Reg × Nat)) (b i : Nat) (m : List Reg) : (s.latchWords c ws b i m).tabs = s.tabs := by
  unfold State.latchWords; split
  · exact (State.foldl_keeps (fun t => t.tabs) (fun s r => s.bump r b i) (fun _ _ => rfl) m _).trans rfl
  · exact State.foldl_keeps (fun t => t.tabs) (fun s x => s.setReg x.1 x.2 b i) (fun _ _ => rfl) ws s
@[simp] theorem State.latchWords_fuses (s : State) (c : Reg) (ws : List (Reg × Nat)) (b i : Nat) (m : List Reg) : (s.latchWords c ws b i m).fuses = s.fuses := by
  unfold State.latchWords; split
  · exact (State.foldl_keeps (fun t => t.fuses) (fun s r => s.bump r b i) (fun _ _ => rfl) m _).trans rfl
  · exact State.foldl_keeps (fun t => t.fuses) (fun s x => s.setReg x.1 x.2 b i) (fun _ _ => rfl) ws s
@[simp] theorem State.latchWords_ownEp (s : State) (c : Reg) (ws : List (Reg × Nat)) (b i : Nat) (m : List Reg) : (s.latchWords c ws b i m).ownEp = s.ownEp := by
  unfold State.latchWords; split
  · exact (State.foldl_keeps (fun t => t.ownEp) (fun s r => s.bump r b i) (fun _ _ => rfl) m _).trans rfl
  · exact State.foldl_keeps (fun t => t.ownEp) (fun s x => s.setReg x.1 x.2 b i) (fun _ _ => rfl) ws s
@[simp] theorem State.latchWords_tim (s : State) (c : Reg) (ws : List (Reg × Nat)) (b i : Nat) (m : List Reg) : (s.latchWords c ws b i m).tim = s.tim := by
  unfold State.latchWords; split
  · exact (State.foldl_keeps (fun t => t.tim) (fun s r => s.bump r b i) (fun _ _ => rfl) m _).trans rfl
  · exact State.foldl_keeps (fun t => t.tim) (fun s x => s.setReg x.1 x.2 b i) (fun _ _ => rfl) ws s
@[simp] theorem State.latchWords_fc (s : State) (c : Reg) (ws : List (Reg × Nat)) (b i : Nat) (m : List Reg) : (s.latchWords c ws b i m).fc = s.fc := by
  unfold State.latchWords; split
  · exact (State.foldl_keeps (fun t => t.fc) (fun s r => s.bump r b i) (fun _ _ => rfl) m _).trans rfl
  · exact State.foldl_keeps (fun t => t.fc) (fun s x => s.setReg x.1 x.2 b i) (fun _ _ => rfl) ws s
@[simp] theorem State.latchWords_prg (s : State) (c : Reg) (ws : List (Reg × Nat)) (b i : Nat) (m : List Reg) : (s.latchWords c ws b i m).prg = s.prg := by
  unfold State.latchWords; split
  · exact (State.foldl_keeps (fun t => t.prg) (fun s r => s.bump r b i) (fun _ _ => rfl) m _).trans rfl
  · exact State.foldl_keeps (fun t => t.prg) (fun s x => s.setReg x.1 x.2 b i) (fun _ _ => rfl) ws s
@[simp] theorem State.latchWords_epo (s : State) (c : Reg) (ws : List (Reg × Nat)) (b i : Nat) (m : List Reg) : (s.latchWords c ws b i m).epo = s.epo := by
  unfold State.latchWords; split
  · exact (State.foldl_keeps (fun t => t.epo) (fun s r => s.bump r b i) (fun _ _ => rfl) m _).trans rfl
  · exact State.foldl_keeps (fun t => t.epo) (fun s x => s.setReg x.1 x.2 b i) (fun _ _ => rfl) ws s
@[simp] theorem State.latchWords_hub (s : State) (c : Reg) (ws : List (Reg × Nat)) (b i : Nat) (m : List Reg) : (s.latchWords c ws b i m).hub = s.hub := by
  unfold State.latchWords; split
  · exact (State.foldl_keeps (fun t => t.hub) (fun s r => s.bump r b i) (fun _ _ => rfl) m _).trans rfl
  · exact State.foldl_keeps (fun t => t.hub) (fun s x => s.setReg x.1 x.2 b i) (fun _ _ => rfl) ws s
@[simp] theorem State.latchWords_rkCopy (s : State) (c : Reg) (ws : List (Reg × Nat)) (b i : Nat) (m : List Reg) : (s.latchWords c ws b i m).rkCopy = s.rkCopy := by
  unfold State.latchWords; split
  · exact (State.foldl_keeps (fun t => t.rkCopy) (fun s r => s.bump r b i) (fun _ _ => rfl) m _).trans rfl
  · exact State.foldl_keeps (fun t => t.rkCopy) (fun s x => s.setReg x.1 x.2 b i) (fun _ _ => rfl) ws s
@[simp] theorem State.latchWords_rbuf (s : State) (c : Reg) (ws : List (Reg × Nat)) (b i : Nat) (m : List Reg) : (s.latchWords c ws b i m).rbuf = s.rbuf := by
  unfold State.latchWords; split
  · exact (State.foldl_keeps (fun t => t.rbuf) (fun s r => s.bump r b i) (fun _ _ => rfl) m _).trans rfl
  · exact State.foldl_keeps (fun t => t.rbuf) (fun s x => s.setReg x.1 x.2 b i) (fun _ _ => rfl) ws s
@[simp] theorem State.latchWords_cred (s : State) (c : Reg) (ws : List (Reg × Nat)) (b i : Nat) (m : List Reg) : (s.latchWords c ws b i m).cred = s.cred := by
  unfold State.latchWords; split
  · exact (State.foldl_keeps (fun t => t.cred) (fun s r => s.bump r b i) (fun _ _ => rfl) m _).trans rfl
  · exact State.foldl_keeps (fun t => t.cred) (fun s x => s.setReg x.1 x.2 b i) (fun _ _ => rfl) ws s
@[simp] theorem State.latchWords_arbs (s : State) (c : Reg) (ws : List (Reg × Nat)) (b i : Nat) (m : List Reg) : (s.latchWords c ws b i m).arbs = s.arbs := by
  unfold State.latchWords; split
  · exact (State.foldl_keeps (fun t => t.arbs) (fun s r => s.bump r b i) (fun _ _ => rfl) m _).trans rfl
  · exact State.foldl_keeps (fun t => t.arbs) (fun s x => s.setReg x.1 x.2 b i) (fun _ _ => rfl) ws s
@[simp] theorem State.latchWords_ni (s : State) (c : Reg) (ws : List (Reg × Nat)) (b i : Nat) (m : List Reg) : (s.latchWords c ws b i m).ni = s.ni := by
  unfold State.latchWords; split
  · exact (State.foldl_keeps (fun t => t.ni) (fun s r => s.bump r b i) (fun _ _ => rfl) m _).trans rfl
  · exact State.foldl_keeps (fun t => t.ni) (fun s x => s.setReg x.1 x.2 b i) (fun _ _ => rfl) ws s
@[simp] theorem State.latchWords_saf (s : State) (c : Reg) (ws : List (Reg × Nat)) (b i : Nat) (m : List Reg) : (s.latchWords c ws b i m).saf = s.saf := by
  unfold State.latchWords; split
  · exact (State.foldl_keeps (fun t => t.saf) (fun s r => s.bump r b i) (fun _ _ => rfl) m _).trans rfl
  · exact State.foldl_keeps (fun t => t.saf) (fun s x => s.setReg x.1 x.2 b i) (fun _ _ => rfl) ws s
@[simp] theorem State.latchWords_home (s : State) (c : Reg) (ws : List (Reg × Nat)) (b i : Nat) (m : List Reg) : (s.latchWords c ws b i m).home = s.home := by
  unfold State.latchWords; split
  · exact (State.foldl_keeps (fun t => t.home) (fun s r => s.bump r b i) (fun _ _ => rfl) m _).trans rfl
  · exact State.foldl_keeps (fun t => t.home) (fun s x => s.setReg x.1 x.2 b i) (fun _ _ => rfl) ws s
@[simp] theorem State.latchWords_dir (s : State) (c : Reg) (ws : List (Reg × Nat)) (b i : Nat) (m : List Reg) : (s.latchWords c ws b i m).dir = s.dir := by
  unfold State.latchWords; split
  · exact (State.foldl_keeps (fun t => t.dir) (fun s r => s.bump r b i) (fun _ _ => rfl) m _).trans rfl
  · exact State.foldl_keeps (fun t => t.dir) (fun s x => s.setReg x.1 x.2 b i) (fun _ _ => rfl) ws s
@[simp] theorem State.latchWords_plru (s : State) (c : Reg) (ws : List (Reg × Nat)) (b i : Nat) (m : List Reg) : (s.latchWords c ws b i m).plru = s.plru := by
  unfold State.latchWords; split
  · exact (State.foldl_keeps (fun t => t.plru) (fun s r => s.bump r b i) (fun _ _ => rfl) m _).trans rfl
  · exact State.foldl_keeps (fun t => t.plru) (fun s x => s.setReg x.1 x.2 b i) (fun _ _ => rfl) ws s
@[simp] theorem State.latchWords_pred (s : State) (c : Reg) (ws : List (Reg × Nat)) (b i : Nat) (m : List Reg) : (s.latchWords c ws b i m).pred = s.pred := by
  unfold State.latchWords; split
  · exact (State.foldl_keeps (fun t => t.pred) (fun s r => s.bump r b i) (fun _ _ => rfl) m _).trans rfl
  · exact State.foldl_keeps (fun t => t.pred) (fun s x => s.setReg x.1 x.2 b i) (fun _ _ => rfl) ws s
@[simp] theorem State.latchWords_cache (s : State) (c : Reg) (ws : List (Reg × Nat)) (b i : Nat) (m : List Reg) : (s.latchWords c ws b i m).cache = s.cache := by
  unfold State.latchWords; split
  · exact (State.foldl_keeps (fun t => t.cache) (fun s r => s.bump r b i) (fun _ _ => rfl) m _).trans rfl
  · exact State.foldl_keeps (fun t => t.cache) (fun s x => s.setReg x.1 x.2 b i) (fun _ _ => rfl) ws s
@[simp] theorem State.latchWords_recalls (s : State) (c : Reg) (ws : List (Reg × Nat)) (b i : Nat) (m : List Reg) : (s.latchWords c ws b i m).recalls = s.recalls := by
  unfold State.latchWords; split
  · exact (State.foldl_keeps (fun t => t.recalls) (fun s r => s.bump r b i) (fun _ _ => rfl) m _).trans rfl
  · exact State.foldl_keeps (fun t => t.recalls) (fun s x => s.setReg x.1 x.2 b i) (fun _ _ => rfl) ws s
@[simp] theorem State.latchWords_sram (s : State) (c : Reg) (ws : List (Reg × Nat)) (b i : Nat) (m : List Reg) : (s.latchWords c ws b i m).sram = s.sram := by
  unfold State.latchWords; split
  · exact (State.foldl_keeps (fun t => t.sram) (fun s r => s.bump r b i) (fun _ _ => rfl) m _).trans rfl
  · exact State.foldl_keeps (fun t => t.sram) (fun s x => s.setReg x.1 x.2 b i) (fun _ _ => rfl) ws s
@[simp] theorem State.latchWords_sramBad (s : State) (c : Reg) (ws : List (Reg × Nat)) (b i : Nat) (m : List Reg) : (s.latchWords c ws b i m).sramBad = s.sramBad := by
  unfold State.latchWords; split
  · exact (State.foldl_keeps (fun t => t.sramBad) (fun s r => s.bump r b i) (fun _ _ => rfl) m _).trans rfl
  · exact State.foldl_keeps (fun t => t.sramBad) (fun s x => s.setReg x.1 x.2 b i) (fun _ _ => rfl) ws s
@[simp] theorem State.latchWords_bank (s : State) (c : Reg) (ws : List (Reg × Nat)) (b i : Nat) (m : List Reg) : (s.latchWords c ws b i m).bank = s.bank := by
  unfold State.latchWords; split
  · exact (State.foldl_keeps (fun t => t.bank) (fun s r => s.bump r b i) (fun _ _ => rfl) m _).trans rfl
  · exact State.foldl_keeps (fun t => t.bank) (fun s x => s.setReg x.1 x.2 b i) (fun _ _ => rfl) ws s
@[simp] theorem State.latchWords_loc (s : State) (c : Reg) (ws : List (Reg × Nat)) (b i : Nat) (m : List Reg) : (s.latchWords c ws b i m).loc = s.loc := by
  unfold State.latchWords; split
  · exact (State.foldl_keeps (fun t => t.loc) (fun s r => s.bump r b i) (fun _ _ => rfl) m _).trans rfl
  · exact State.foldl_keeps (fun t => t.loc) (fun s x => s.setReg x.1 x.2 b i) (fun _ _ => rfl) ws s
@[simp] theorem State.latchWords_que (s : State) (c : Reg) (ws : List (Reg × Nat)) (b i : Nat) (m : List Reg) : (s.latchWords c ws b i m).que = s.que := by
  unfold State.latchWords; split
  · exact (State.foldl_keeps (fun t => t.que) (fun s r => s.bump r b i) (fun _ _ => rfl) m _).trans rfl
  · exact State.foldl_keeps (fun t => t.que) (fun s x => s.setReg x.1 x.2 b i) (fun _ _ => rfl) ws s
@[simp] theorem State.latchWords_qm (s : State) (c : Reg) (ws : List (Reg × Nat)) (b i : Nat) (m : List Reg) : (s.latchWords c ws b i m).qm = s.qm := by
  unfold State.latchWords; split
  · exact (State.foldl_keeps (fun t => t.qm) (fun s r => s.bump r b i) (fun _ _ => rfl) m _).trans rfl
  · exact State.foldl_keeps (fun t => t.qm) (fun s x => s.setReg x.1 x.2 b i) (fun _ _ => rfl) ws s
@[simp] theorem State.latchWords_refillAt (s : State) (c : Reg) (ws : List (Reg × Nat)) (b i : Nat) (m : List Reg) : (s.latchWords c ws b i m).refillAt = s.refillAt := by
  unfold State.latchWords; split
  · exact (State.foldl_keeps (fun t => t.refillAt) (fun s r => s.bump r b i) (fun _ _ => rfl) m _).trans rfl
  · exact State.foldl_keeps (fun t => t.refillAt) (fun s x => s.setReg x.1 x.2 b i) (fun _ _ => rfl) ws s
@[simp] theorem State.latchWords_ecl (s : State) (c : Reg) (ws : List (Reg × Nat)) (b i : Nat) (m : List Reg) : (s.latchWords c ws b i m).ecl = s.ecl := by
  unfold State.latchWords; split
  · exact (State.foldl_keeps (fun t => t.ecl) (fun s r => s.bump r b i) (fun _ _ => rfl) m _).trans rfl
  · exact State.foldl_keeps (fun t => t.ecl) (fun s x => s.setReg x.1 x.2 b i) (fun _ _ => rfl) ws s
@[simp] theorem State.latchWords_lsram (s : State) (c : Reg) (ws : List (Reg × Nat)) (b i : Nat) (m : List Reg) : (s.latchWords c ws b i m).lsram = s.lsram := by
  unfold State.latchWords; split
  · exact (State.foldl_keeps (fun t => t.lsram) (fun s r => s.bump r b i) (fun _ _ => rfl) m _).trans rfl
  · exact State.foldl_keeps (fun t => t.lsram) (fun s x => s.setReg x.1 x.2 b i) (fun _ _ => rfl) ws s
@[simp] theorem State.latchWords_lsramBad (s : State) (c : Reg) (ws : List (Reg × Nat)) (b i : Nat) (m : List Reg) : (s.latchWords c ws b i m).lsramBad = s.lsramBad := by
  unfold State.latchWords; split
  · exact (State.foldl_keeps (fun t => t.lsramBad) (fun s r => s.bump r b i) (fun _ _ => rfl) m _).trans rfl
  · exact State.foldl_keeps (fun t => t.lsramBad) (fun s x => s.setReg x.1 x.2 b i) (fun _ _ => rfl) ws s
@[simp] theorem State.latchWords_ctr (s : State) (c : Reg) (ws : List (Reg × Nat)) (b i : Nat) (m : List Reg) : (s.latchWords c ws b i m).ctr = s.ctr := by
  unfold State.latchWords; split
  · exact (State.foldl_keeps (fun t => t.ctr) (fun s r => s.bump r b i) (fun _ _ => rfl) m _).trans rfl
  · exact State.foldl_keeps (fun t => t.ctr) (fun s x => s.setReg x.1 x.2 b i) (fun _ _ => rfl) ws s
@[simp] theorem State.latchWords_ctrWas (s : State) (c : Reg) (ws : List (Reg × Nat)) (b i : Nat) (m : List Reg) : (s.latchWords c ws b i m).ctrWas = s.ctrWas := by
  unfold State.latchWords; split
  · exact (State.foldl_keeps (fun t => t.ctrWas) (fun s r => s.bump r b i) (fun _ _ => rfl) m _).trans rfl
  · exact State.foldl_keeps (fun t => t.ctrWas) (fun s x => s.setReg x.1 x.2 b i) (fun _ _ => rfl) ws s
@[simp] theorem State.latchWords_ctrClr (s : State) (c : Reg) (ws : List (Reg × Nat)) (b i : Nat) (m : List Reg) : (s.latchWords c ws b i m).ctrClr = s.ctrClr := by
  unfold State.latchWords; split
  · exact (State.foldl_keeps (fun t => t.ctrClr) (fun s r => s.bump r b i) (fun _ _ => rfl) m _).trans rfl
  · exact State.foldl_keeps (fun t => t.ctrClr) (fun s x => s.setReg x.1 x.2 b i) (fun _ _ => rfl) ws s
@[simp] theorem State.latchWords_wakePin (s : State) (c : Reg) (ws : List (Reg × Nat)) (b i : Nat) (m : List Reg) : (s.latchWords c ws b i m).wakePin = s.wakePin := by
  unfold State.latchWords; split
  · exact (State.foldl_keeps (fun t => t.wakePin) (fun s r => s.bump r b i) (fun _ _ => rfl) m _).trans rfl
  · exact State.foldl_keeps (fun t => t.wakePin) (fun s x => s.setReg x.1 x.2 b i) (fun _ _ => rfl) ws s
@[simp] theorem State.latchWords_dom (s : State) (c : Reg) (ws : List (Reg × Nat)) (b i : Nat) (m : List Reg) : (s.latchWords c ws b i m).dom = s.dom := by
  unfold State.latchWords; split
  · exact (State.foldl_keeps (fun t => t.dom) (fun s r => s.bump r b i) (fun _ _ => rfl) m _).trans rfl
  · exact State.foldl_keeps (fun t => t.dom) (fun s x => s.setReg x.1 x.2 b i) (fun _ _ => rfl) ws s
@[simp] theorem State.latchWords_sigs (s : State) (c : Reg) (ws : List (Reg × Nat)) (b i : Nat) (m : List Reg) : (s.latchWords c ws b i m).sigs = s.sigs := by
  unfold State.latchWords; split
  · exact (State.foldl_keeps (fun t => t.sigs) (fun s r => s.bump r b i) (fun _ _ => rfl) m _).trans rfl
  · exact State.foldl_keeps (fun t => t.sigs) (fun s x => s.setReg x.1 x.2 b i) (fun _ _ => rfl) ws s
@[simp] theorem State.latchWords_slc (s : State) (c : Reg) (ws : List (Reg × Nat)) (b i : Nat) (m : List Reg) : (s.latchWords c ws b i m).slc = s.slc := by
  unfold State.latchWords; split
  · exact (State.foldl_keeps (fun t => t.slc) (fun s r => s.bump r b i) (fun _ _ => rfl) m _).trans rfl
  · exact State.foldl_keeps (fun t => t.slc) (fun s x => s.setReg x.1 x.2 b i) (fun _ _ => rfl) ws s
@[simp] theorem State.latchWords_freeze (s : State) (c : Reg) (ws : List (Reg × Nat)) (b i : Nat) (m : List Reg) : (s.latchWords c ws b i m).freeze = s.freeze := by
  unfold State.latchWords; split
  · exact (State.foldl_keeps (fun t => t.freeze) (fun s r => s.bump r b i) (fun _ _ => rfl) m _).trans rfl
  · exact State.foldl_keeps (fun t => t.freeze) (fun s x => s.setReg x.1 x.2 b i) (fun _ _ => rfl) ws s
@[simp] theorem State.latchWords_bw (s : State) (c : Reg) (ws : List (Reg × Nat)) (b i : Nat) (m : List Reg) : (s.latchWords c ws b i m).bw = s.bw := by
  unfold State.latchWords; split
  · exact (State.foldl_keeps (fun t => t.bw) (fun s r => s.bump r b i) (fun _ _ => rfl) m _).trans rfl
  · exact State.foldl_keeps (fun t => t.bw) (fun s x => s.setReg x.1 x.2 b i) (fun _ _ => rfl) ws s
@[simp] theorem State.latchWords_probe (s : State) (c : Reg) (ws : List (Reg × Nat)) (b i : Nat) (m : List Reg) : (s.latchWords c ws b i m).probe = s.probe := by
  unfold State.latchWords; split
  · exact (State.foldl_keeps (fun t => t.probe) (fun s r => s.bump r b i) (fun _ _ => rfl) m _).trans rfl
  · exact State.foldl_keeps (fun t => t.probe) (fun s x => s.setReg x.1 x.2 b i) (fun _ _ => rfl) ws s
@[simp] theorem State.latchWords_free (s : State) (c : Reg) (ws : List (Reg × Nat)) (b i : Nat) (m : List Reg) : (s.latchWords c ws b i m).free = s.free := by
  unfold State.latchWords; split
  · exact (State.foldl_keeps (fun t => t.free) (fun s r => s.bump r b i) (fun _ _ => rfl) m _).trans rfl
  · exact State.foldl_keeps (fun t => t.free) (fun s x => s.setReg x.1 x.2 b i) (fun _ _ => rfl) ws s

/-! ### `State.setMap` changes only `regs`, `cyc`. -/

@[simp] theorem State.setMap_pending (s : State) (r : Reg) (i : Nat) (b : Bool) : (s.setMap r i b).pending = s.pending := rfl
@[simp] theorem State.setMap_tick (s : State) (r : Reg) (i : Nat) (b : Bool) : (s.setMap r i b).tick = s.tick := rfl
@[simp] theorem State.setMap_frst (s : State) (r : Reg) (i : Nat) (b : Bool) : (s.setMap r i b).frst = s.frst := rfl
@[simp] theorem State.setMap_started (s : State) (r : Reg) (i : Nat) (b : Bool) : (s.setMap r i b).started = s.started := rfl
@[simp] theorem State.setMap_prim (s : State) (r : Reg) (i : Nat) (b : Bool) : (s.setMap r i b).prim = s.prim := rfl
@[simp] theorem State.setMap_haltConds (s : State) (r : Reg) (i : Nat) (b : Bool) : (s.setMap r i b).haltConds = s.haltConds := rfl
@[simp] theorem State.setMap_fallback (s : State) (r : Reg) (i : Nat) (b : Bool) : (s.setMap r i b).fallback = s.fallback := rfl
@[simp] theorem State.setMap_drainPend (s : State) (r : Reg) (i : Nat) (b : Bool) : (s.setMap r i b).drainPend = s.drainPend := rfl
@[simp] theorem State.setMap_drainAt (s : State) (r : Reg) (i : Nat) (b : Bool) : (s.setMap r i b).drainAt = s.drainAt := rfl
@[simp] theorem State.setMap_pdrec (s : State) (r : Reg) (i : Nat) (b : Bool) : (s.setMap r i b).pdrec = s.pdrec := rfl
@[simp] theorem State.setMap_modeWas (s : State) (r : Reg) (i : Nat) (b : Bool) : (s.setMap r i b).modeWas = s.modeWas := rfl
@[simp] theorem State.setMap_quietWas (s : State) (r : Reg) (i : Nat) (b : Bool) : (s.setMap r i b).quietWas = s.quietWas := rfl
@[simp] theorem State.setMap_shadows (s : State) (r : Reg) (i : Nat) (b : Bool) : (s.setMap r i b).shadows = s.shadows := rfl
@[simp] theorem State.setMap_tabs (s : State) (r : Reg) (i : Nat) (b : Bool) : (s.setMap r i b).tabs = s.tabs := rfl
@[simp] theorem State.setMap_fuses (s : State) (r : Reg) (i : Nat) (b : Bool) : (s.setMap r i b).fuses = s.fuses := rfl
@[simp] theorem State.setMap_ownEp (s : State) (r : Reg) (i : Nat) (b : Bool) : (s.setMap r i b).ownEp = s.ownEp := rfl
@[simp] theorem State.setMap_tim (s : State) (r : Reg) (i : Nat) (b : Bool) : (s.setMap r i b).tim = s.tim := rfl
@[simp] theorem State.setMap_fc (s : State) (r : Reg) (i : Nat) (b : Bool) : (s.setMap r i b).fc = s.fc := rfl
@[simp] theorem State.setMap_prg (s : State) (r : Reg) (i : Nat) (b : Bool) : (s.setMap r i b).prg = s.prg := rfl
@[simp] theorem State.setMap_epo (s : State) (r : Reg) (i : Nat) (b : Bool) : (s.setMap r i b).epo = s.epo := rfl
@[simp] theorem State.setMap_hub (s : State) (r : Reg) (i : Nat) (b : Bool) : (s.setMap r i b).hub = s.hub := rfl
@[simp] theorem State.setMap_rkCopy (s : State) (r : Reg) (i : Nat) (b : Bool) : (s.setMap r i b).rkCopy = s.rkCopy := rfl
@[simp] theorem State.setMap_rbuf (s : State) (r : Reg) (i : Nat) (b : Bool) : (s.setMap r i b).rbuf = s.rbuf := rfl
@[simp] theorem State.setMap_cred (s : State) (r : Reg) (i : Nat) (b : Bool) : (s.setMap r i b).cred = s.cred := rfl
@[simp] theorem State.setMap_arbs (s : State) (r : Reg) (i : Nat) (b : Bool) : (s.setMap r i b).arbs = s.arbs := rfl
@[simp] theorem State.setMap_ni (s : State) (r : Reg) (i : Nat) (b : Bool) : (s.setMap r i b).ni = s.ni := rfl
@[simp] theorem State.setMap_saf (s : State) (r : Reg) (i : Nat) (b : Bool) : (s.setMap r i b).saf = s.saf := rfl
@[simp] theorem State.setMap_home (s : State) (r : Reg) (i : Nat) (b : Bool) : (s.setMap r i b).home = s.home := rfl
@[simp] theorem State.setMap_dir (s : State) (r : Reg) (i : Nat) (b : Bool) : (s.setMap r i b).dir = s.dir := rfl
@[simp] theorem State.setMap_plru (s : State) (r : Reg) (i : Nat) (b : Bool) : (s.setMap r i b).plru = s.plru := rfl
@[simp] theorem State.setMap_pred (s : State) (r : Reg) (i : Nat) (b : Bool) : (s.setMap r i b).pred = s.pred := rfl
@[simp] theorem State.setMap_cache (s : State) (r : Reg) (i : Nat) (b : Bool) : (s.setMap r i b).cache = s.cache := rfl
@[simp] theorem State.setMap_recalls (s : State) (r : Reg) (i : Nat) (b : Bool) : (s.setMap r i b).recalls = s.recalls := rfl
@[simp] theorem State.setMap_sram (s : State) (r : Reg) (i : Nat) (b : Bool) : (s.setMap r i b).sram = s.sram := rfl
@[simp] theorem State.setMap_sramBad (s : State) (r : Reg) (i : Nat) (b : Bool) : (s.setMap r i b).sramBad = s.sramBad := rfl
@[simp] theorem State.setMap_bank (s : State) (r : Reg) (i : Nat) (b : Bool) : (s.setMap r i b).bank = s.bank := rfl
@[simp] theorem State.setMap_loc (s : State) (r : Reg) (i : Nat) (b : Bool) : (s.setMap r i b).loc = s.loc := rfl
@[simp] theorem State.setMap_que (s : State) (r : Reg) (i : Nat) (b : Bool) : (s.setMap r i b).que = s.que := rfl
@[simp] theorem State.setMap_qm (s : State) (r : Reg) (i : Nat) (b : Bool) : (s.setMap r i b).qm = s.qm := rfl
@[simp] theorem State.setMap_refillAt (s : State) (r : Reg) (i : Nat) (b : Bool) : (s.setMap r i b).refillAt = s.refillAt := rfl
@[simp] theorem State.setMap_ecl (s : State) (r : Reg) (i : Nat) (b : Bool) : (s.setMap r i b).ecl = s.ecl := rfl
@[simp] theorem State.setMap_lsram (s : State) (r : Reg) (i : Nat) (b : Bool) : (s.setMap r i b).lsram = s.lsram := rfl
@[simp] theorem State.setMap_lsramBad (s : State) (r : Reg) (i : Nat) (b : Bool) : (s.setMap r i b).lsramBad = s.lsramBad := rfl
@[simp] theorem State.setMap_ctr (s : State) (r : Reg) (i : Nat) (b : Bool) : (s.setMap r i b).ctr = s.ctr := rfl
@[simp] theorem State.setMap_ctrWas (s : State) (r : Reg) (i : Nat) (b : Bool) : (s.setMap r i b).ctrWas = s.ctrWas := rfl
@[simp] theorem State.setMap_ctrClr (s : State) (r : Reg) (i : Nat) (b : Bool) : (s.setMap r i b).ctrClr = s.ctrClr := rfl
@[simp] theorem State.setMap_wakePin (s : State) (r : Reg) (i : Nat) (b : Bool) : (s.setMap r i b).wakePin = s.wakePin := rfl
@[simp] theorem State.setMap_dom (s : State) (r : Reg) (i : Nat) (b : Bool) : (s.setMap r i b).dom = s.dom := rfl
@[simp] theorem State.setMap_sigs (s : State) (r : Reg) (i : Nat) (b : Bool) : (s.setMap r i b).sigs = s.sigs := rfl
@[simp] theorem State.setMap_slc (s : State) (r : Reg) (i : Nat) (b : Bool) : (s.setMap r i b).slc = s.slc := rfl
@[simp] theorem State.setMap_freeze (s : State) (r : Reg) (i : Nat) (b : Bool) : (s.setMap r i b).freeze = s.freeze := rfl
@[simp] theorem State.setMap_bw (s : State) (r : Reg) (i : Nat) (b : Bool) : (s.setMap r i b).bw = s.bw := rfl
@[simp] theorem State.setMap_probe (s : State) (r : Reg) (i : Nat) (b : Bool) : (s.setMap r i b).probe = s.probe := rfl
@[simp] theorem State.setMap_free (s : State) (r : Reg) (i : Nat) (b : Bool) : (s.setMap r i b).free = s.free := rfl

/-! ### `State.setTab` changes only `tabs`. -/

@[simp] theorem State.setTab_pending (s : State) (bank table unit port idx v : Nat) : (s.setTab bank table unit port idx v).pending = s.pending := rfl
@[simp] theorem State.setTab_tick (s : State) (bank table unit port idx v : Nat) : (s.setTab bank table unit port idx v).tick = s.tick := rfl
@[simp] theorem State.setTab_frst (s : State) (bank table unit port idx v : Nat) : (s.setTab bank table unit port idx v).frst = s.frst := rfl
@[simp] theorem State.setTab_started (s : State) (bank table unit port idx v : Nat) : (s.setTab bank table unit port idx v).started = s.started := rfl
@[simp] theorem State.setTab_prim (s : State) (bank table unit port idx v : Nat) : (s.setTab bank table unit port idx v).prim = s.prim := rfl
@[simp] theorem State.setTab_haltConds (s : State) (bank table unit port idx v : Nat) : (s.setTab bank table unit port idx v).haltConds = s.haltConds := rfl
@[simp] theorem State.setTab_fallback (s : State) (bank table unit port idx v : Nat) : (s.setTab bank table unit port idx v).fallback = s.fallback := rfl
@[simp] theorem State.setTab_drainPend (s : State) (bank table unit port idx v : Nat) : (s.setTab bank table unit port idx v).drainPend = s.drainPend := rfl
@[simp] theorem State.setTab_drainAt (s : State) (bank table unit port idx v : Nat) : (s.setTab bank table unit port idx v).drainAt = s.drainAt := rfl
@[simp] theorem State.setTab_pdrec (s : State) (bank table unit port idx v : Nat) : (s.setTab bank table unit port idx v).pdrec = s.pdrec := rfl
@[simp] theorem State.setTab_regs (s : State) (bank table unit port idx v : Nat) : (s.setTab bank table unit port idx v).regs = s.regs := rfl
@[simp] theorem State.setTab_cyc (s : State) (bank table unit port idx v : Nat) : (s.setTab bank table unit port idx v).cyc = s.cyc := rfl
@[simp] theorem State.setTab_modeWas (s : State) (bank table unit port idx v : Nat) : (s.setTab bank table unit port idx v).modeWas = s.modeWas := rfl
@[simp] theorem State.setTab_quietWas (s : State) (bank table unit port idx v : Nat) : (s.setTab bank table unit port idx v).quietWas = s.quietWas := rfl
@[simp] theorem State.setTab_shadows (s : State) (bank table unit port idx v : Nat) : (s.setTab bank table unit port idx v).shadows = s.shadows := rfl
@[simp] theorem State.setTab_fuses (s : State) (bank table unit port idx v : Nat) : (s.setTab bank table unit port idx v).fuses = s.fuses := rfl
@[simp] theorem State.setTab_ownEp (s : State) (bank table unit port idx v : Nat) : (s.setTab bank table unit port idx v).ownEp = s.ownEp := rfl
@[simp] theorem State.setTab_tim (s : State) (bank table unit port idx v : Nat) : (s.setTab bank table unit port idx v).tim = s.tim := rfl
@[simp] theorem State.setTab_fc (s : State) (bank table unit port idx v : Nat) : (s.setTab bank table unit port idx v).fc = s.fc := rfl
@[simp] theorem State.setTab_prg (s : State) (bank table unit port idx v : Nat) : (s.setTab bank table unit port idx v).prg = s.prg := rfl
@[simp] theorem State.setTab_epo (s : State) (bank table unit port idx v : Nat) : (s.setTab bank table unit port idx v).epo = s.epo := rfl
@[simp] theorem State.setTab_hub (s : State) (bank table unit port idx v : Nat) : (s.setTab bank table unit port idx v).hub = s.hub := rfl
@[simp] theorem State.setTab_rkCopy (s : State) (bank table unit port idx v : Nat) : (s.setTab bank table unit port idx v).rkCopy = s.rkCopy := rfl
@[simp] theorem State.setTab_rbuf (s : State) (bank table unit port idx v : Nat) : (s.setTab bank table unit port idx v).rbuf = s.rbuf := rfl
@[simp] theorem State.setTab_cred (s : State) (bank table unit port idx v : Nat) : (s.setTab bank table unit port idx v).cred = s.cred := rfl
@[simp] theorem State.setTab_arbs (s : State) (bank table unit port idx v : Nat) : (s.setTab bank table unit port idx v).arbs = s.arbs := rfl
@[simp] theorem State.setTab_ni (s : State) (bank table unit port idx v : Nat) : (s.setTab bank table unit port idx v).ni = s.ni := rfl
@[simp] theorem State.setTab_saf (s : State) (bank table unit port idx v : Nat) : (s.setTab bank table unit port idx v).saf = s.saf := rfl
@[simp] theorem State.setTab_home (s : State) (bank table unit port idx v : Nat) : (s.setTab bank table unit port idx v).home = s.home := rfl
@[simp] theorem State.setTab_dir (s : State) (bank table unit port idx v : Nat) : (s.setTab bank table unit port idx v).dir = s.dir := rfl
@[simp] theorem State.setTab_plru (s : State) (bank table unit port idx v : Nat) : (s.setTab bank table unit port idx v).plru = s.plru := rfl
@[simp] theorem State.setTab_pred (s : State) (bank table unit port idx v : Nat) : (s.setTab bank table unit port idx v).pred = s.pred := rfl
@[simp] theorem State.setTab_cache (s : State) (bank table unit port idx v : Nat) : (s.setTab bank table unit port idx v).cache = s.cache := rfl
@[simp] theorem State.setTab_recalls (s : State) (bank table unit port idx v : Nat) : (s.setTab bank table unit port idx v).recalls = s.recalls := rfl
@[simp] theorem State.setTab_sram (s : State) (bank table unit port idx v : Nat) : (s.setTab bank table unit port idx v).sram = s.sram := rfl
@[simp] theorem State.setTab_sramBad (s : State) (bank table unit port idx v : Nat) : (s.setTab bank table unit port idx v).sramBad = s.sramBad := rfl
@[simp] theorem State.setTab_bank (s : State) (bank table unit port idx v : Nat) : (s.setTab bank table unit port idx v).bank = s.bank := rfl
@[simp] theorem State.setTab_loc (s : State) (bank table unit port idx v : Nat) : (s.setTab bank table unit port idx v).loc = s.loc := rfl
@[simp] theorem State.setTab_que (s : State) (bank table unit port idx v : Nat) : (s.setTab bank table unit port idx v).que = s.que := rfl
@[simp] theorem State.setTab_qm (s : State) (bank table unit port idx v : Nat) : (s.setTab bank table unit port idx v).qm = s.qm := rfl
@[simp] theorem State.setTab_refillAt (s : State) (bank table unit port idx v : Nat) : (s.setTab bank table unit port idx v).refillAt = s.refillAt := rfl
@[simp] theorem State.setTab_ecl (s : State) (bank table unit port idx v : Nat) : (s.setTab bank table unit port idx v).ecl = s.ecl := rfl
@[simp] theorem State.setTab_lsram (s : State) (bank table unit port idx v : Nat) : (s.setTab bank table unit port idx v).lsram = s.lsram := rfl
@[simp] theorem State.setTab_lsramBad (s : State) (bank table unit port idx v : Nat) : (s.setTab bank table unit port idx v).lsramBad = s.lsramBad := rfl
@[simp] theorem State.setTab_ctr (s : State) (bank table unit port idx v : Nat) : (s.setTab bank table unit port idx v).ctr = s.ctr := rfl
@[simp] theorem State.setTab_ctrWas (s : State) (bank table unit port idx v : Nat) : (s.setTab bank table unit port idx v).ctrWas = s.ctrWas := rfl
@[simp] theorem State.setTab_ctrClr (s : State) (bank table unit port idx v : Nat) : (s.setTab bank table unit port idx v).ctrClr = s.ctrClr := rfl
@[simp] theorem State.setTab_wakePin (s : State) (bank table unit port idx v : Nat) : (s.setTab bank table unit port idx v).wakePin = s.wakePin := rfl
@[simp] theorem State.setTab_dom (s : State) (bank table unit port idx v : Nat) : (s.setTab bank table unit port idx v).dom = s.dom := rfl
@[simp] theorem State.setTab_sigs (s : State) (bank table unit port idx v : Nat) : (s.setTab bank table unit port idx v).sigs = s.sigs := rfl
@[simp] theorem State.setTab_slc (s : State) (bank table unit port idx v : Nat) : (s.setTab bank table unit port idx v).slc = s.slc := rfl
@[simp] theorem State.setTab_freeze (s : State) (bank table unit port idx v : Nat) : (s.setTab bank table unit port idx v).freeze = s.freeze := rfl
@[simp] theorem State.setTab_bw (s : State) (bank table unit port idx v : Nat) : (s.setTab bank table unit port idx v).bw = s.bw := rfl
@[simp] theorem State.setTab_probe (s : State) (bank table unit port idx v : Nat) : (s.setTab bank table unit port idx v).probe = s.probe := rfl
@[simp] theorem State.setTab_free (s : State) (bank table unit port idx v : Nat) : (s.setTab bank table unit port idx v).free = s.free := rfl

/-! ### `State.setNi` changes only `ni`. -/

@[simp] theorem State.setNi_pending (s : State) (f : Nat) (n : Ni) : (s.setNi f n).pending = s.pending := rfl
@[simp] theorem State.setNi_tick (s : State) (f : Nat) (n : Ni) : (s.setNi f n).tick = s.tick := rfl
@[simp] theorem State.setNi_frst (s : State) (f : Nat) (n : Ni) : (s.setNi f n).frst = s.frst := rfl
@[simp] theorem State.setNi_started (s : State) (f : Nat) (n : Ni) : (s.setNi f n).started = s.started := rfl
@[simp] theorem State.setNi_prim (s : State) (f : Nat) (n : Ni) : (s.setNi f n).prim = s.prim := rfl
@[simp] theorem State.setNi_haltConds (s : State) (f : Nat) (n : Ni) : (s.setNi f n).haltConds = s.haltConds := rfl
@[simp] theorem State.setNi_fallback (s : State) (f : Nat) (n : Ni) : (s.setNi f n).fallback = s.fallback := rfl
@[simp] theorem State.setNi_drainPend (s : State) (f : Nat) (n : Ni) : (s.setNi f n).drainPend = s.drainPend := rfl
@[simp] theorem State.setNi_drainAt (s : State) (f : Nat) (n : Ni) : (s.setNi f n).drainAt = s.drainAt := rfl
@[simp] theorem State.setNi_pdrec (s : State) (f : Nat) (n : Ni) : (s.setNi f n).pdrec = s.pdrec := rfl
@[simp] theorem State.setNi_regs (s : State) (f : Nat) (n : Ni) : (s.setNi f n).regs = s.regs := rfl
@[simp] theorem State.setNi_cyc (s : State) (f : Nat) (n : Ni) : (s.setNi f n).cyc = s.cyc := rfl
@[simp] theorem State.setNi_modeWas (s : State) (f : Nat) (n : Ni) : (s.setNi f n).modeWas = s.modeWas := rfl
@[simp] theorem State.setNi_quietWas (s : State) (f : Nat) (n : Ni) : (s.setNi f n).quietWas = s.quietWas := rfl
@[simp] theorem State.setNi_shadows (s : State) (f : Nat) (n : Ni) : (s.setNi f n).shadows = s.shadows := rfl
@[simp] theorem State.setNi_tabs (s : State) (f : Nat) (n : Ni) : (s.setNi f n).tabs = s.tabs := rfl
@[simp] theorem State.setNi_fuses (s : State) (f : Nat) (n : Ni) : (s.setNi f n).fuses = s.fuses := rfl
@[simp] theorem State.setNi_ownEp (s : State) (f : Nat) (n : Ni) : (s.setNi f n).ownEp = s.ownEp := rfl
@[simp] theorem State.setNi_tim (s : State) (f : Nat) (n : Ni) : (s.setNi f n).tim = s.tim := rfl
@[simp] theorem State.setNi_fc (s : State) (f : Nat) (n : Ni) : (s.setNi f n).fc = s.fc := rfl
@[simp] theorem State.setNi_prg (s : State) (f : Nat) (n : Ni) : (s.setNi f n).prg = s.prg := rfl
@[simp] theorem State.setNi_epo (s : State) (f : Nat) (n : Ni) : (s.setNi f n).epo = s.epo := rfl
@[simp] theorem State.setNi_hub (s : State) (f : Nat) (n : Ni) : (s.setNi f n).hub = s.hub := rfl
@[simp] theorem State.setNi_rkCopy (s : State) (f : Nat) (n : Ni) : (s.setNi f n).rkCopy = s.rkCopy := rfl
@[simp] theorem State.setNi_rbuf (s : State) (f : Nat) (n : Ni) : (s.setNi f n).rbuf = s.rbuf := rfl
@[simp] theorem State.setNi_cred (s : State) (f : Nat) (n : Ni) : (s.setNi f n).cred = s.cred := rfl
@[simp] theorem State.setNi_arbs (s : State) (f : Nat) (n : Ni) : (s.setNi f n).arbs = s.arbs := rfl
@[simp] theorem State.setNi_saf (s : State) (f : Nat) (n : Ni) : (s.setNi f n).saf = s.saf := rfl
@[simp] theorem State.setNi_home (s : State) (f : Nat) (n : Ni) : (s.setNi f n).home = s.home := rfl
@[simp] theorem State.setNi_dir (s : State) (f : Nat) (n : Ni) : (s.setNi f n).dir = s.dir := rfl
@[simp] theorem State.setNi_plru (s : State) (f : Nat) (n : Ni) : (s.setNi f n).plru = s.plru := rfl
@[simp] theorem State.setNi_pred (s : State) (f : Nat) (n : Ni) : (s.setNi f n).pred = s.pred := rfl
@[simp] theorem State.setNi_cache (s : State) (f : Nat) (n : Ni) : (s.setNi f n).cache = s.cache := rfl
@[simp] theorem State.setNi_recalls (s : State) (f : Nat) (n : Ni) : (s.setNi f n).recalls = s.recalls := rfl
@[simp] theorem State.setNi_sram (s : State) (f : Nat) (n : Ni) : (s.setNi f n).sram = s.sram := rfl
@[simp] theorem State.setNi_sramBad (s : State) (f : Nat) (n : Ni) : (s.setNi f n).sramBad = s.sramBad := rfl
@[simp] theorem State.setNi_bank (s : State) (f : Nat) (n : Ni) : (s.setNi f n).bank = s.bank := rfl
@[simp] theorem State.setNi_loc (s : State) (f : Nat) (n : Ni) : (s.setNi f n).loc = s.loc := rfl
@[simp] theorem State.setNi_que (s : State) (f : Nat) (n : Ni) : (s.setNi f n).que = s.que := rfl
@[simp] theorem State.setNi_qm (s : State) (f : Nat) (n : Ni) : (s.setNi f n).qm = s.qm := rfl
@[simp] theorem State.setNi_refillAt (s : State) (f : Nat) (n : Ni) : (s.setNi f n).refillAt = s.refillAt := rfl
@[simp] theorem State.setNi_ecl (s : State) (f : Nat) (n : Ni) : (s.setNi f n).ecl = s.ecl := rfl
@[simp] theorem State.setNi_lsram (s : State) (f : Nat) (n : Ni) : (s.setNi f n).lsram = s.lsram := rfl
@[simp] theorem State.setNi_lsramBad (s : State) (f : Nat) (n : Ni) : (s.setNi f n).lsramBad = s.lsramBad := rfl
@[simp] theorem State.setNi_ctr (s : State) (f : Nat) (n : Ni) : (s.setNi f n).ctr = s.ctr := rfl
@[simp] theorem State.setNi_ctrWas (s : State) (f : Nat) (n : Ni) : (s.setNi f n).ctrWas = s.ctrWas := rfl
@[simp] theorem State.setNi_ctrClr (s : State) (f : Nat) (n : Ni) : (s.setNi f n).ctrClr = s.ctrClr := rfl
@[simp] theorem State.setNi_wakePin (s : State) (f : Nat) (n : Ni) : (s.setNi f n).wakePin = s.wakePin := rfl
@[simp] theorem State.setNi_dom (s : State) (f : Nat) (n : Ni) : (s.setNi f n).dom = s.dom := rfl
@[simp] theorem State.setNi_sigs (s : State) (f : Nat) (n : Ni) : (s.setNi f n).sigs = s.sigs := rfl
@[simp] theorem State.setNi_slc (s : State) (f : Nat) (n : Ni) : (s.setNi f n).slc = s.slc := rfl
@[simp] theorem State.setNi_freeze (s : State) (f : Nat) (n : Ni) : (s.setNi f n).freeze = s.freeze := rfl
@[simp] theorem State.setNi_bw (s : State) (f : Nat) (n : Ni) : (s.setNi f n).bw = s.bw := rfl
@[simp] theorem State.setNi_probe (s : State) (f : Nat) (n : Ni) : (s.setNi f n).probe = s.probe := rfl
@[simp] theorem State.setNi_free (s : State) (f : Nat) (n : Ni) : (s.setNi f n).free = s.free := rfl

/-! ### `State.updNi` changes only `ni`. -/

@[simp] theorem State.updNi_pending (s : State) (f : Nat) (g : Ni → Ni) : (s.updNi f g).pending = s.pending := rfl
@[simp] theorem State.updNi_tick (s : State) (f : Nat) (g : Ni → Ni) : (s.updNi f g).tick = s.tick := rfl
@[simp] theorem State.updNi_frst (s : State) (f : Nat) (g : Ni → Ni) : (s.updNi f g).frst = s.frst := rfl
@[simp] theorem State.updNi_started (s : State) (f : Nat) (g : Ni → Ni) : (s.updNi f g).started = s.started := rfl
@[simp] theorem State.updNi_prim (s : State) (f : Nat) (g : Ni → Ni) : (s.updNi f g).prim = s.prim := rfl
@[simp] theorem State.updNi_haltConds (s : State) (f : Nat) (g : Ni → Ni) : (s.updNi f g).haltConds = s.haltConds := rfl
@[simp] theorem State.updNi_fallback (s : State) (f : Nat) (g : Ni → Ni) : (s.updNi f g).fallback = s.fallback := rfl
@[simp] theorem State.updNi_drainPend (s : State) (f : Nat) (g : Ni → Ni) : (s.updNi f g).drainPend = s.drainPend := rfl
@[simp] theorem State.updNi_drainAt (s : State) (f : Nat) (g : Ni → Ni) : (s.updNi f g).drainAt = s.drainAt := rfl
@[simp] theorem State.updNi_pdrec (s : State) (f : Nat) (g : Ni → Ni) : (s.updNi f g).pdrec = s.pdrec := rfl
@[simp] theorem State.updNi_regs (s : State) (f : Nat) (g : Ni → Ni) : (s.updNi f g).regs = s.regs := rfl
@[simp] theorem State.updNi_cyc (s : State) (f : Nat) (g : Ni → Ni) : (s.updNi f g).cyc = s.cyc := rfl
@[simp] theorem State.updNi_modeWas (s : State) (f : Nat) (g : Ni → Ni) : (s.updNi f g).modeWas = s.modeWas := rfl
@[simp] theorem State.updNi_quietWas (s : State) (f : Nat) (g : Ni → Ni) : (s.updNi f g).quietWas = s.quietWas := rfl
@[simp] theorem State.updNi_shadows (s : State) (f : Nat) (g : Ni → Ni) : (s.updNi f g).shadows = s.shadows := rfl
@[simp] theorem State.updNi_tabs (s : State) (f : Nat) (g : Ni → Ni) : (s.updNi f g).tabs = s.tabs := rfl
@[simp] theorem State.updNi_fuses (s : State) (f : Nat) (g : Ni → Ni) : (s.updNi f g).fuses = s.fuses := rfl
@[simp] theorem State.updNi_ownEp (s : State) (f : Nat) (g : Ni → Ni) : (s.updNi f g).ownEp = s.ownEp := rfl
@[simp] theorem State.updNi_tim (s : State) (f : Nat) (g : Ni → Ni) : (s.updNi f g).tim = s.tim := rfl
@[simp] theorem State.updNi_fc (s : State) (f : Nat) (g : Ni → Ni) : (s.updNi f g).fc = s.fc := rfl
@[simp] theorem State.updNi_prg (s : State) (f : Nat) (g : Ni → Ni) : (s.updNi f g).prg = s.prg := rfl
@[simp] theorem State.updNi_epo (s : State) (f : Nat) (g : Ni → Ni) : (s.updNi f g).epo = s.epo := rfl
@[simp] theorem State.updNi_hub (s : State) (f : Nat) (g : Ni → Ni) : (s.updNi f g).hub = s.hub := rfl
@[simp] theorem State.updNi_rkCopy (s : State) (f : Nat) (g : Ni → Ni) : (s.updNi f g).rkCopy = s.rkCopy := rfl
@[simp] theorem State.updNi_rbuf (s : State) (f : Nat) (g : Ni → Ni) : (s.updNi f g).rbuf = s.rbuf := rfl
@[simp] theorem State.updNi_cred (s : State) (f : Nat) (g : Ni → Ni) : (s.updNi f g).cred = s.cred := rfl
@[simp] theorem State.updNi_arbs (s : State) (f : Nat) (g : Ni → Ni) : (s.updNi f g).arbs = s.arbs := rfl
@[simp] theorem State.updNi_saf (s : State) (f : Nat) (g : Ni → Ni) : (s.updNi f g).saf = s.saf := rfl
@[simp] theorem State.updNi_home (s : State) (f : Nat) (g : Ni → Ni) : (s.updNi f g).home = s.home := rfl
@[simp] theorem State.updNi_dir (s : State) (f : Nat) (g : Ni → Ni) : (s.updNi f g).dir = s.dir := rfl
@[simp] theorem State.updNi_plru (s : State) (f : Nat) (g : Ni → Ni) : (s.updNi f g).plru = s.plru := rfl
@[simp] theorem State.updNi_pred (s : State) (f : Nat) (g : Ni → Ni) : (s.updNi f g).pred = s.pred := rfl
@[simp] theorem State.updNi_cache (s : State) (f : Nat) (g : Ni → Ni) : (s.updNi f g).cache = s.cache := rfl
@[simp] theorem State.updNi_recalls (s : State) (f : Nat) (g : Ni → Ni) : (s.updNi f g).recalls = s.recalls := rfl
@[simp] theorem State.updNi_sram (s : State) (f : Nat) (g : Ni → Ni) : (s.updNi f g).sram = s.sram := rfl
@[simp] theorem State.updNi_sramBad (s : State) (f : Nat) (g : Ni → Ni) : (s.updNi f g).sramBad = s.sramBad := rfl
@[simp] theorem State.updNi_bank (s : State) (f : Nat) (g : Ni → Ni) : (s.updNi f g).bank = s.bank := rfl
@[simp] theorem State.updNi_loc (s : State) (f : Nat) (g : Ni → Ni) : (s.updNi f g).loc = s.loc := rfl
@[simp] theorem State.updNi_que (s : State) (f : Nat) (g : Ni → Ni) : (s.updNi f g).que = s.que := rfl
@[simp] theorem State.updNi_qm (s : State) (f : Nat) (g : Ni → Ni) : (s.updNi f g).qm = s.qm := rfl
@[simp] theorem State.updNi_refillAt (s : State) (f : Nat) (g : Ni → Ni) : (s.updNi f g).refillAt = s.refillAt := rfl
@[simp] theorem State.updNi_ecl (s : State) (f : Nat) (g : Ni → Ni) : (s.updNi f g).ecl = s.ecl := rfl
@[simp] theorem State.updNi_lsram (s : State) (f : Nat) (g : Ni → Ni) : (s.updNi f g).lsram = s.lsram := rfl
@[simp] theorem State.updNi_lsramBad (s : State) (f : Nat) (g : Ni → Ni) : (s.updNi f g).lsramBad = s.lsramBad := rfl
@[simp] theorem State.updNi_ctr (s : State) (f : Nat) (g : Ni → Ni) : (s.updNi f g).ctr = s.ctr := rfl
@[simp] theorem State.updNi_ctrWas (s : State) (f : Nat) (g : Ni → Ni) : (s.updNi f g).ctrWas = s.ctrWas := rfl
@[simp] theorem State.updNi_ctrClr (s : State) (f : Nat) (g : Ni → Ni) : (s.updNi f g).ctrClr = s.ctrClr := rfl
@[simp] theorem State.updNi_wakePin (s : State) (f : Nat) (g : Ni → Ni) : (s.updNi f g).wakePin = s.wakePin := rfl
@[simp] theorem State.updNi_dom (s : State) (f : Nat) (g : Ni → Ni) : (s.updNi f g).dom = s.dom := rfl
@[simp] theorem State.updNi_sigs (s : State) (f : Nat) (g : Ni → Ni) : (s.updNi f g).sigs = s.sigs := rfl
@[simp] theorem State.updNi_slc (s : State) (f : Nat) (g : Ni → Ni) : (s.updNi f g).slc = s.slc := rfl
@[simp] theorem State.updNi_freeze (s : State) (f : Nat) (g : Ni → Ni) : (s.updNi f g).freeze = s.freeze := rfl
@[simp] theorem State.updNi_bw (s : State) (f : Nat) (g : Ni → Ni) : (s.updNi f g).bw = s.bw := rfl
@[simp] theorem State.updNi_probe (s : State) (f : Nat) (g : Ni → Ni) : (s.updNi f g).probe = s.probe := rfl
@[simp] theorem State.updNi_free (s : State) (f : Nat) (g : Ni → Ni) : (s.updNi f g).free = s.free := rfl

/-! ### `State.setDomain` changes only `dom`. -/

@[simp] theorem State.setDomain_pending (s : State) (d : Nat) (x : Dom) : (s.setDomain d x).pending = s.pending := rfl
@[simp] theorem State.setDomain_tick (s : State) (d : Nat) (x : Dom) : (s.setDomain d x).tick = s.tick := rfl
@[simp] theorem State.setDomain_frst (s : State) (d : Nat) (x : Dom) : (s.setDomain d x).frst = s.frst := rfl
@[simp] theorem State.setDomain_started (s : State) (d : Nat) (x : Dom) : (s.setDomain d x).started = s.started := rfl
@[simp] theorem State.setDomain_prim (s : State) (d : Nat) (x : Dom) : (s.setDomain d x).prim = s.prim := rfl
@[simp] theorem State.setDomain_haltConds (s : State) (d : Nat) (x : Dom) : (s.setDomain d x).haltConds = s.haltConds := rfl
@[simp] theorem State.setDomain_fallback (s : State) (d : Nat) (x : Dom) : (s.setDomain d x).fallback = s.fallback := rfl
@[simp] theorem State.setDomain_drainPend (s : State) (d : Nat) (x : Dom) : (s.setDomain d x).drainPend = s.drainPend := rfl
@[simp] theorem State.setDomain_drainAt (s : State) (d : Nat) (x : Dom) : (s.setDomain d x).drainAt = s.drainAt := rfl
@[simp] theorem State.setDomain_pdrec (s : State) (d : Nat) (x : Dom) : (s.setDomain d x).pdrec = s.pdrec := rfl
@[simp] theorem State.setDomain_regs (s : State) (d : Nat) (x : Dom) : (s.setDomain d x).regs = s.regs := rfl
@[simp] theorem State.setDomain_cyc (s : State) (d : Nat) (x : Dom) : (s.setDomain d x).cyc = s.cyc := rfl
@[simp] theorem State.setDomain_modeWas (s : State) (d : Nat) (x : Dom) : (s.setDomain d x).modeWas = s.modeWas := rfl
@[simp] theorem State.setDomain_quietWas (s : State) (d : Nat) (x : Dom) : (s.setDomain d x).quietWas = s.quietWas := rfl
@[simp] theorem State.setDomain_shadows (s : State) (d : Nat) (x : Dom) : (s.setDomain d x).shadows = s.shadows := rfl
@[simp] theorem State.setDomain_tabs (s : State) (d : Nat) (x : Dom) : (s.setDomain d x).tabs = s.tabs := rfl
@[simp] theorem State.setDomain_fuses (s : State) (d : Nat) (x : Dom) : (s.setDomain d x).fuses = s.fuses := rfl
@[simp] theorem State.setDomain_ownEp (s : State) (d : Nat) (x : Dom) : (s.setDomain d x).ownEp = s.ownEp := rfl
@[simp] theorem State.setDomain_tim (s : State) (d : Nat) (x : Dom) : (s.setDomain d x).tim = s.tim := rfl
@[simp] theorem State.setDomain_fc (s : State) (d : Nat) (x : Dom) : (s.setDomain d x).fc = s.fc := rfl
@[simp] theorem State.setDomain_prg (s : State) (d : Nat) (x : Dom) : (s.setDomain d x).prg = s.prg := rfl
@[simp] theorem State.setDomain_epo (s : State) (d : Nat) (x : Dom) : (s.setDomain d x).epo = s.epo := rfl
@[simp] theorem State.setDomain_hub (s : State) (d : Nat) (x : Dom) : (s.setDomain d x).hub = s.hub := rfl
@[simp] theorem State.setDomain_rkCopy (s : State) (d : Nat) (x : Dom) : (s.setDomain d x).rkCopy = s.rkCopy := rfl
@[simp] theorem State.setDomain_rbuf (s : State) (d : Nat) (x : Dom) : (s.setDomain d x).rbuf = s.rbuf := rfl
@[simp] theorem State.setDomain_cred (s : State) (d : Nat) (x : Dom) : (s.setDomain d x).cred = s.cred := rfl
@[simp] theorem State.setDomain_arbs (s : State) (d : Nat) (x : Dom) : (s.setDomain d x).arbs = s.arbs := rfl
@[simp] theorem State.setDomain_ni (s : State) (d : Nat) (x : Dom) : (s.setDomain d x).ni = s.ni := rfl
@[simp] theorem State.setDomain_saf (s : State) (d : Nat) (x : Dom) : (s.setDomain d x).saf = s.saf := rfl
@[simp] theorem State.setDomain_home (s : State) (d : Nat) (x : Dom) : (s.setDomain d x).home = s.home := rfl
@[simp] theorem State.setDomain_dir (s : State) (d : Nat) (x : Dom) : (s.setDomain d x).dir = s.dir := rfl
@[simp] theorem State.setDomain_plru (s : State) (d : Nat) (x : Dom) : (s.setDomain d x).plru = s.plru := rfl
@[simp] theorem State.setDomain_pred (s : State) (d : Nat) (x : Dom) : (s.setDomain d x).pred = s.pred := rfl
@[simp] theorem State.setDomain_cache (s : State) (d : Nat) (x : Dom) : (s.setDomain d x).cache = s.cache := rfl
@[simp] theorem State.setDomain_recalls (s : State) (d : Nat) (x : Dom) : (s.setDomain d x).recalls = s.recalls := rfl
@[simp] theorem State.setDomain_sram (s : State) (d : Nat) (x : Dom) : (s.setDomain d x).sram = s.sram := rfl
@[simp] theorem State.setDomain_sramBad (s : State) (d : Nat) (x : Dom) : (s.setDomain d x).sramBad = s.sramBad := rfl
@[simp] theorem State.setDomain_bank (s : State) (d : Nat) (x : Dom) : (s.setDomain d x).bank = s.bank := rfl
@[simp] theorem State.setDomain_loc (s : State) (d : Nat) (x : Dom) : (s.setDomain d x).loc = s.loc := rfl
@[simp] theorem State.setDomain_que (s : State) (d : Nat) (x : Dom) : (s.setDomain d x).que = s.que := rfl
@[simp] theorem State.setDomain_qm (s : State) (d : Nat) (x : Dom) : (s.setDomain d x).qm = s.qm := rfl
@[simp] theorem State.setDomain_refillAt (s : State) (d : Nat) (x : Dom) : (s.setDomain d x).refillAt = s.refillAt := rfl
@[simp] theorem State.setDomain_ecl (s : State) (d : Nat) (x : Dom) : (s.setDomain d x).ecl = s.ecl := rfl
@[simp] theorem State.setDomain_lsram (s : State) (d : Nat) (x : Dom) : (s.setDomain d x).lsram = s.lsram := rfl
@[simp] theorem State.setDomain_lsramBad (s : State) (d : Nat) (x : Dom) : (s.setDomain d x).lsramBad = s.lsramBad := rfl
@[simp] theorem State.setDomain_ctr (s : State) (d : Nat) (x : Dom) : (s.setDomain d x).ctr = s.ctr := rfl
@[simp] theorem State.setDomain_ctrWas (s : State) (d : Nat) (x : Dom) : (s.setDomain d x).ctrWas = s.ctrWas := rfl
@[simp] theorem State.setDomain_ctrClr (s : State) (d : Nat) (x : Dom) : (s.setDomain d x).ctrClr = s.ctrClr := rfl
@[simp] theorem State.setDomain_wakePin (s : State) (d : Nat) (x : Dom) : (s.setDomain d x).wakePin = s.wakePin := rfl
@[simp] theorem State.setDomain_sigs (s : State) (d : Nat) (x : Dom) : (s.setDomain d x).sigs = s.sigs := rfl
@[simp] theorem State.setDomain_slc (s : State) (d : Nat) (x : Dom) : (s.setDomain d x).slc = s.slc := rfl
@[simp] theorem State.setDomain_freeze (s : State) (d : Nat) (x : Dom) : (s.setDomain d x).freeze = s.freeze := rfl
@[simp] theorem State.setDomain_bw (s : State) (d : Nat) (x : Dom) : (s.setDomain d x).bw = s.bw := rfl
@[simp] theorem State.setDomain_probe (s : State) (d : Nat) (x : Dom) : (s.setDomain d x).probe = s.probe := rfl
@[simp] theorem State.setDomain_free (s : State) (d : Nat) (x : Dom) : (s.setDomain d x).free = s.free := rfl

/-! ### `State.wakeLevel` changes only `dom`. -/

@[simp] theorem State.wakeLevel_pending (s : State) (d : Nat) : (s.wakeLevel d).pending = s.pending := by unfold State.wakeLevel; split <;> rfl
@[simp] theorem State.wakeLevel_tick (s : State) (d : Nat) : (s.wakeLevel d).tick = s.tick := by unfold State.wakeLevel; split <;> rfl
@[simp] theorem State.wakeLevel_frst (s : State) (d : Nat) : (s.wakeLevel d).frst = s.frst := by unfold State.wakeLevel; split <;> rfl
@[simp] theorem State.wakeLevel_started (s : State) (d : Nat) : (s.wakeLevel d).started = s.started := by unfold State.wakeLevel; split <;> rfl
@[simp] theorem State.wakeLevel_prim (s : State) (d : Nat) : (s.wakeLevel d).prim = s.prim := by unfold State.wakeLevel; split <;> rfl
@[simp] theorem State.wakeLevel_haltConds (s : State) (d : Nat) : (s.wakeLevel d).haltConds = s.haltConds := by unfold State.wakeLevel; split <;> rfl
@[simp] theorem State.wakeLevel_fallback (s : State) (d : Nat) : (s.wakeLevel d).fallback = s.fallback := by unfold State.wakeLevel; split <;> rfl
@[simp] theorem State.wakeLevel_drainPend (s : State) (d : Nat) : (s.wakeLevel d).drainPend = s.drainPend := by unfold State.wakeLevel; split <;> rfl
@[simp] theorem State.wakeLevel_drainAt (s : State) (d : Nat) : (s.wakeLevel d).drainAt = s.drainAt := by unfold State.wakeLevel; split <;> rfl
@[simp] theorem State.wakeLevel_pdrec (s : State) (d : Nat) : (s.wakeLevel d).pdrec = s.pdrec := by unfold State.wakeLevel; split <;> rfl
@[simp] theorem State.wakeLevel_regs (s : State) (d : Nat) : (s.wakeLevel d).regs = s.regs := by unfold State.wakeLevel; split <;> rfl
@[simp] theorem State.wakeLevel_cyc (s : State) (d : Nat) : (s.wakeLevel d).cyc = s.cyc := by unfold State.wakeLevel; split <;> rfl
@[simp] theorem State.wakeLevel_modeWas (s : State) (d : Nat) : (s.wakeLevel d).modeWas = s.modeWas := by unfold State.wakeLevel; split <;> rfl
@[simp] theorem State.wakeLevel_quietWas (s : State) (d : Nat) : (s.wakeLevel d).quietWas = s.quietWas := by unfold State.wakeLevel; split <;> rfl
@[simp] theorem State.wakeLevel_shadows (s : State) (d : Nat) : (s.wakeLevel d).shadows = s.shadows := by unfold State.wakeLevel; split <;> rfl
@[simp] theorem State.wakeLevel_tabs (s : State) (d : Nat) : (s.wakeLevel d).tabs = s.tabs := by unfold State.wakeLevel; split <;> rfl
@[simp] theorem State.wakeLevel_fuses (s : State) (d : Nat) : (s.wakeLevel d).fuses = s.fuses := by unfold State.wakeLevel; split <;> rfl
@[simp] theorem State.wakeLevel_ownEp (s : State) (d : Nat) : (s.wakeLevel d).ownEp = s.ownEp := by unfold State.wakeLevel; split <;> rfl
@[simp] theorem State.wakeLevel_tim (s : State) (d : Nat) : (s.wakeLevel d).tim = s.tim := by unfold State.wakeLevel; split <;> rfl
@[simp] theorem State.wakeLevel_fc (s : State) (d : Nat) : (s.wakeLevel d).fc = s.fc := by unfold State.wakeLevel; split <;> rfl
@[simp] theorem State.wakeLevel_prg (s : State) (d : Nat) : (s.wakeLevel d).prg = s.prg := by unfold State.wakeLevel; split <;> rfl
@[simp] theorem State.wakeLevel_epo (s : State) (d : Nat) : (s.wakeLevel d).epo = s.epo := by unfold State.wakeLevel; split <;> rfl
@[simp] theorem State.wakeLevel_hub (s : State) (d : Nat) : (s.wakeLevel d).hub = s.hub := by unfold State.wakeLevel; split <;> rfl
@[simp] theorem State.wakeLevel_rkCopy (s : State) (d : Nat) : (s.wakeLevel d).rkCopy = s.rkCopy := by unfold State.wakeLevel; split <;> rfl
@[simp] theorem State.wakeLevel_rbuf (s : State) (d : Nat) : (s.wakeLevel d).rbuf = s.rbuf := by unfold State.wakeLevel; split <;> rfl
@[simp] theorem State.wakeLevel_cred (s : State) (d : Nat) : (s.wakeLevel d).cred = s.cred := by unfold State.wakeLevel; split <;> rfl
@[simp] theorem State.wakeLevel_arbs (s : State) (d : Nat) : (s.wakeLevel d).arbs = s.arbs := by unfold State.wakeLevel; split <;> rfl
@[simp] theorem State.wakeLevel_ni (s : State) (d : Nat) : (s.wakeLevel d).ni = s.ni := by unfold State.wakeLevel; split <;> rfl
@[simp] theorem State.wakeLevel_saf (s : State) (d : Nat) : (s.wakeLevel d).saf = s.saf := by unfold State.wakeLevel; split <;> rfl
@[simp] theorem State.wakeLevel_home (s : State) (d : Nat) : (s.wakeLevel d).home = s.home := by unfold State.wakeLevel; split <;> rfl
@[simp] theorem State.wakeLevel_dir (s : State) (d : Nat) : (s.wakeLevel d).dir = s.dir := by unfold State.wakeLevel; split <;> rfl
@[simp] theorem State.wakeLevel_plru (s : State) (d : Nat) : (s.wakeLevel d).plru = s.plru := by unfold State.wakeLevel; split <;> rfl
@[simp] theorem State.wakeLevel_pred (s : State) (d : Nat) : (s.wakeLevel d).pred = s.pred := by unfold State.wakeLevel; split <;> rfl
@[simp] theorem State.wakeLevel_cache (s : State) (d : Nat) : (s.wakeLevel d).cache = s.cache := by unfold State.wakeLevel; split <;> rfl
@[simp] theorem State.wakeLevel_recalls (s : State) (d : Nat) : (s.wakeLevel d).recalls = s.recalls := by unfold State.wakeLevel; split <;> rfl
@[simp] theorem State.wakeLevel_sram (s : State) (d : Nat) : (s.wakeLevel d).sram = s.sram := by unfold State.wakeLevel; split <;> rfl
@[simp] theorem State.wakeLevel_sramBad (s : State) (d : Nat) : (s.wakeLevel d).sramBad = s.sramBad := by unfold State.wakeLevel; split <;> rfl
@[simp] theorem State.wakeLevel_bank (s : State) (d : Nat) : (s.wakeLevel d).bank = s.bank := by unfold State.wakeLevel; split <;> rfl
@[simp] theorem State.wakeLevel_loc (s : State) (d : Nat) : (s.wakeLevel d).loc = s.loc := by unfold State.wakeLevel; split <;> rfl
@[simp] theorem State.wakeLevel_que (s : State) (d : Nat) : (s.wakeLevel d).que = s.que := by unfold State.wakeLevel; split <;> rfl
@[simp] theorem State.wakeLevel_qm (s : State) (d : Nat) : (s.wakeLevel d).qm = s.qm := by unfold State.wakeLevel; split <;> rfl
@[simp] theorem State.wakeLevel_refillAt (s : State) (d : Nat) : (s.wakeLevel d).refillAt = s.refillAt := by unfold State.wakeLevel; split <;> rfl
@[simp] theorem State.wakeLevel_ecl (s : State) (d : Nat) : (s.wakeLevel d).ecl = s.ecl := by unfold State.wakeLevel; split <;> rfl
@[simp] theorem State.wakeLevel_lsram (s : State) (d : Nat) : (s.wakeLevel d).lsram = s.lsram := by unfold State.wakeLevel; split <;> rfl
@[simp] theorem State.wakeLevel_lsramBad (s : State) (d : Nat) : (s.wakeLevel d).lsramBad = s.lsramBad := by unfold State.wakeLevel; split <;> rfl
@[simp] theorem State.wakeLevel_ctr (s : State) (d : Nat) : (s.wakeLevel d).ctr = s.ctr := by unfold State.wakeLevel; split <;> rfl
@[simp] theorem State.wakeLevel_ctrWas (s : State) (d : Nat) : (s.wakeLevel d).ctrWas = s.ctrWas := by unfold State.wakeLevel; split <;> rfl
@[simp] theorem State.wakeLevel_ctrClr (s : State) (d : Nat) : (s.wakeLevel d).ctrClr = s.ctrClr := by unfold State.wakeLevel; split <;> rfl
@[simp] theorem State.wakeLevel_wakePin (s : State) (d : Nat) : (s.wakeLevel d).wakePin = s.wakePin := by unfold State.wakeLevel; split <;> rfl
@[simp] theorem State.wakeLevel_sigs (s : State) (d : Nat) : (s.wakeLevel d).sigs = s.sigs := by unfold State.wakeLevel; split <;> rfl
@[simp] theorem State.wakeLevel_slc (s : State) (d : Nat) : (s.wakeLevel d).slc = s.slc := by unfold State.wakeLevel; split <;> rfl
@[simp] theorem State.wakeLevel_freeze (s : State) (d : Nat) : (s.wakeLevel d).freeze = s.freeze := by unfold State.wakeLevel; split <;> rfl
@[simp] theorem State.wakeLevel_bw (s : State) (d : Nat) : (s.wakeLevel d).bw = s.bw := by unfold State.wakeLevel; split <;> rfl
@[simp] theorem State.wakeLevel_probe (s : State) (d : Nat) : (s.wakeLevel d).probe = s.probe := by unfold State.wakeLevel; split <;> rfl
@[simp] theorem State.wakeLevel_free (s : State) (d : Nat) : (s.wakeLevel d).free = s.free := by unfold State.wakeLevel; split <;> rfl

/-! ### `State.draw` changes only `free`. -/

@[simp] theorem State.draw_pending (s : State) : (s.draw).pending = s.pending := rfl
@[simp] theorem State.draw_tick (s : State) : (s.draw).tick = s.tick := rfl
@[simp] theorem State.draw_frst (s : State) : (s.draw).frst = s.frst := rfl
@[simp] theorem State.draw_started (s : State) : (s.draw).started = s.started := rfl
@[simp] theorem State.draw_prim (s : State) : (s.draw).prim = s.prim := rfl
@[simp] theorem State.draw_haltConds (s : State) : (s.draw).haltConds = s.haltConds := rfl
@[simp] theorem State.draw_fallback (s : State) : (s.draw).fallback = s.fallback := rfl
@[simp] theorem State.draw_drainPend (s : State) : (s.draw).drainPend = s.drainPend := rfl
@[simp] theorem State.draw_drainAt (s : State) : (s.draw).drainAt = s.drainAt := rfl
@[simp] theorem State.draw_pdrec (s : State) : (s.draw).pdrec = s.pdrec := rfl
@[simp] theorem State.draw_regs (s : State) : (s.draw).regs = s.regs := rfl
@[simp] theorem State.draw_cyc (s : State) : (s.draw).cyc = s.cyc := rfl
@[simp] theorem State.draw_modeWas (s : State) : (s.draw).modeWas = s.modeWas := rfl
@[simp] theorem State.draw_quietWas (s : State) : (s.draw).quietWas = s.quietWas := rfl
@[simp] theorem State.draw_shadows (s : State) : (s.draw).shadows = s.shadows := rfl
@[simp] theorem State.draw_tabs (s : State) : (s.draw).tabs = s.tabs := rfl
@[simp] theorem State.draw_fuses (s : State) : (s.draw).fuses = s.fuses := rfl
@[simp] theorem State.draw_ownEp (s : State) : (s.draw).ownEp = s.ownEp := rfl
@[simp] theorem State.draw_tim (s : State) : (s.draw).tim = s.tim := rfl
@[simp] theorem State.draw_fc (s : State) : (s.draw).fc = s.fc := rfl
@[simp] theorem State.draw_prg (s : State) : (s.draw).prg = s.prg := rfl
@[simp] theorem State.draw_epo (s : State) : (s.draw).epo = s.epo := rfl
@[simp] theorem State.draw_hub (s : State) : (s.draw).hub = s.hub := rfl
@[simp] theorem State.draw_rkCopy (s : State) : (s.draw).rkCopy = s.rkCopy := rfl
@[simp] theorem State.draw_rbuf (s : State) : (s.draw).rbuf = s.rbuf := rfl
@[simp] theorem State.draw_cred (s : State) : (s.draw).cred = s.cred := rfl
@[simp] theorem State.draw_arbs (s : State) : (s.draw).arbs = s.arbs := rfl
@[simp] theorem State.draw_ni (s : State) : (s.draw).ni = s.ni := rfl
@[simp] theorem State.draw_saf (s : State) : (s.draw).saf = s.saf := rfl
@[simp] theorem State.draw_home (s : State) : (s.draw).home = s.home := rfl
@[simp] theorem State.draw_dir (s : State) : (s.draw).dir = s.dir := rfl
@[simp] theorem State.draw_plru (s : State) : (s.draw).plru = s.plru := rfl
@[simp] theorem State.draw_pred (s : State) : (s.draw).pred = s.pred := rfl
@[simp] theorem State.draw_cache (s : State) : (s.draw).cache = s.cache := rfl
@[simp] theorem State.draw_recalls (s : State) : (s.draw).recalls = s.recalls := rfl
@[simp] theorem State.draw_sram (s : State) : (s.draw).sram = s.sram := rfl
@[simp] theorem State.draw_sramBad (s : State) : (s.draw).sramBad = s.sramBad := rfl
@[simp] theorem State.draw_bank (s : State) : (s.draw).bank = s.bank := rfl
@[simp] theorem State.draw_loc (s : State) : (s.draw).loc = s.loc := rfl
@[simp] theorem State.draw_que (s : State) : (s.draw).que = s.que := rfl
@[simp] theorem State.draw_qm (s : State) : (s.draw).qm = s.qm := rfl
@[simp] theorem State.draw_refillAt (s : State) : (s.draw).refillAt = s.refillAt := rfl
@[simp] theorem State.draw_ecl (s : State) : (s.draw).ecl = s.ecl := rfl
@[simp] theorem State.draw_lsram (s : State) : (s.draw).lsram = s.lsram := rfl
@[simp] theorem State.draw_lsramBad (s : State) : (s.draw).lsramBad = s.lsramBad := rfl
@[simp] theorem State.draw_ctr (s : State) : (s.draw).ctr = s.ctr := rfl
@[simp] theorem State.draw_ctrWas (s : State) : (s.draw).ctrWas = s.ctrWas := rfl
@[simp] theorem State.draw_ctrClr (s : State) : (s.draw).ctrClr = s.ctrClr := rfl
@[simp] theorem State.draw_wakePin (s : State) : (s.draw).wakePin = s.wakePin := rfl
@[simp] theorem State.draw_dom (s : State) : (s.draw).dom = s.dom := rfl
@[simp] theorem State.draw_sigs (s : State) : (s.draw).sigs = s.sigs := rfl
@[simp] theorem State.draw_slc (s : State) : (s.draw).slc = s.slc := rfl
@[simp] theorem State.draw_freeze (s : State) : (s.draw).freeze = s.freeze := rfl
@[simp] theorem State.draw_bw (s : State) : (s.draw).bw = s.bw := rfl
@[simp] theorem State.draw_probe (s : State) : (s.draw).probe = s.probe := rfl

/-! ### `State.collect` changes only `fc`. -/

@[simp] theorem State.collect_pending (s : State) (r : FaultRec) : (s.collect r).pending = s.pending := rfl
@[simp] theorem State.collect_tick (s : State) (r : FaultRec) : (s.collect r).tick = s.tick := rfl
@[simp] theorem State.collect_frst (s : State) (r : FaultRec) : (s.collect r).frst = s.frst := rfl
@[simp] theorem State.collect_started (s : State) (r : FaultRec) : (s.collect r).started = s.started := rfl
@[simp] theorem State.collect_prim (s : State) (r : FaultRec) : (s.collect r).prim = s.prim := rfl
@[simp] theorem State.collect_haltConds (s : State) (r : FaultRec) : (s.collect r).haltConds = s.haltConds := rfl
@[simp] theorem State.collect_fallback (s : State) (r : FaultRec) : (s.collect r).fallback = s.fallback := rfl
@[simp] theorem State.collect_drainPend (s : State) (r : FaultRec) : (s.collect r).drainPend = s.drainPend := rfl
@[simp] theorem State.collect_drainAt (s : State) (r : FaultRec) : (s.collect r).drainAt = s.drainAt := rfl
@[simp] theorem State.collect_pdrec (s : State) (r : FaultRec) : (s.collect r).pdrec = s.pdrec := rfl
@[simp] theorem State.collect_regs (s : State) (r : FaultRec) : (s.collect r).regs = s.regs := rfl
@[simp] theorem State.collect_cyc (s : State) (r : FaultRec) : (s.collect r).cyc = s.cyc := rfl
@[simp] theorem State.collect_modeWas (s : State) (r : FaultRec) : (s.collect r).modeWas = s.modeWas := rfl
@[simp] theorem State.collect_quietWas (s : State) (r : FaultRec) : (s.collect r).quietWas = s.quietWas := rfl
@[simp] theorem State.collect_shadows (s : State) (r : FaultRec) : (s.collect r).shadows = s.shadows := rfl
@[simp] theorem State.collect_tabs (s : State) (r : FaultRec) : (s.collect r).tabs = s.tabs := rfl
@[simp] theorem State.collect_fuses (s : State) (r : FaultRec) : (s.collect r).fuses = s.fuses := rfl
@[simp] theorem State.collect_ownEp (s : State) (r : FaultRec) : (s.collect r).ownEp = s.ownEp := rfl
@[simp] theorem State.collect_tim (s : State) (r : FaultRec) : (s.collect r).tim = s.tim := rfl
@[simp] theorem State.collect_prg (s : State) (r : FaultRec) : (s.collect r).prg = s.prg := rfl
@[simp] theorem State.collect_epo (s : State) (r : FaultRec) : (s.collect r).epo = s.epo := rfl
@[simp] theorem State.collect_hub (s : State) (r : FaultRec) : (s.collect r).hub = s.hub := rfl
@[simp] theorem State.collect_rkCopy (s : State) (r : FaultRec) : (s.collect r).rkCopy = s.rkCopy := rfl
@[simp] theorem State.collect_rbuf (s : State) (r : FaultRec) : (s.collect r).rbuf = s.rbuf := rfl
@[simp] theorem State.collect_cred (s : State) (r : FaultRec) : (s.collect r).cred = s.cred := rfl
@[simp] theorem State.collect_arbs (s : State) (r : FaultRec) : (s.collect r).arbs = s.arbs := rfl
@[simp] theorem State.collect_ni (s : State) (r : FaultRec) : (s.collect r).ni = s.ni := rfl
@[simp] theorem State.collect_saf (s : State) (r : FaultRec) : (s.collect r).saf = s.saf := rfl
@[simp] theorem State.collect_home (s : State) (r : FaultRec) : (s.collect r).home = s.home := rfl
@[simp] theorem State.collect_dir (s : State) (r : FaultRec) : (s.collect r).dir = s.dir := rfl
@[simp] theorem State.collect_plru (s : State) (r : FaultRec) : (s.collect r).plru = s.plru := rfl
@[simp] theorem State.collect_pred (s : State) (r : FaultRec) : (s.collect r).pred = s.pred := rfl
@[simp] theorem State.collect_cache (s : State) (r : FaultRec) : (s.collect r).cache = s.cache := rfl
@[simp] theorem State.collect_recalls (s : State) (r : FaultRec) : (s.collect r).recalls = s.recalls := rfl
@[simp] theorem State.collect_sram (s : State) (r : FaultRec) : (s.collect r).sram = s.sram := rfl
@[simp] theorem State.collect_sramBad (s : State) (r : FaultRec) : (s.collect r).sramBad = s.sramBad := rfl
@[simp] theorem State.collect_bank (s : State) (r : FaultRec) : (s.collect r).bank = s.bank := rfl
@[simp] theorem State.collect_loc (s : State) (r : FaultRec) : (s.collect r).loc = s.loc := rfl
@[simp] theorem State.collect_que (s : State) (r : FaultRec) : (s.collect r).que = s.que := rfl
@[simp] theorem State.collect_qm (s : State) (r : FaultRec) : (s.collect r).qm = s.qm := rfl
@[simp] theorem State.collect_refillAt (s : State) (r : FaultRec) : (s.collect r).refillAt = s.refillAt := rfl
@[simp] theorem State.collect_ecl (s : State) (r : FaultRec) : (s.collect r).ecl = s.ecl := rfl
@[simp] theorem State.collect_lsram (s : State) (r : FaultRec) : (s.collect r).lsram = s.lsram := rfl
@[simp] theorem State.collect_lsramBad (s : State) (r : FaultRec) : (s.collect r).lsramBad = s.lsramBad := rfl
@[simp] theorem State.collect_ctr (s : State) (r : FaultRec) : (s.collect r).ctr = s.ctr := rfl
@[simp] theorem State.collect_ctrWas (s : State) (r : FaultRec) : (s.collect r).ctrWas = s.ctrWas := rfl
@[simp] theorem State.collect_ctrClr (s : State) (r : FaultRec) : (s.collect r).ctrClr = s.ctrClr := rfl
@[simp] theorem State.collect_wakePin (s : State) (r : FaultRec) : (s.collect r).wakePin = s.wakePin := rfl
@[simp] theorem State.collect_dom (s : State) (r : FaultRec) : (s.collect r).dom = s.dom := rfl
@[simp] theorem State.collect_sigs (s : State) (r : FaultRec) : (s.collect r).sigs = s.sigs := rfl
@[simp] theorem State.collect_slc (s : State) (r : FaultRec) : (s.collect r).slc = s.slc := rfl
@[simp] theorem State.collect_freeze (s : State) (r : FaultRec) : (s.collect r).freeze = s.freeze := rfl
@[simp] theorem State.collect_bw (s : State) (r : FaultRec) : (s.collect r).bw = s.bw := rfl
@[simp] theorem State.collect_probe (s : State) (r : FaultRec) : (s.collect r).probe = s.probe := rfl
@[simp] theorem State.collect_free (s : State) (r : FaultRec) : (s.collect r).free = s.free := rfl

/-! ### `State.raiseSpine` changes only `fc`. -/

@[simp] theorem State.raiseSpine_pending (s : State) (g c l : Nat) (u : UnitRef) (d : Nat) (j : Bool) : (s.raiseSpine g c l u d j).pending = s.pending := rfl
@[simp] theorem State.raiseSpine_tick (s : State) (g c l : Nat) (u : UnitRef) (d : Nat) (j : Bool) : (s.raiseSpine g c l u d j).tick = s.tick := rfl
@[simp] theorem State.raiseSpine_frst (s : State) (g c l : Nat) (u : UnitRef) (d : Nat) (j : Bool) : (s.raiseSpine g c l u d j).frst = s.frst := rfl
@[simp] theorem State.raiseSpine_started (s : State) (g c l : Nat) (u : UnitRef) (d : Nat) (j : Bool) : (s.raiseSpine g c l u d j).started = s.started := rfl
@[simp] theorem State.raiseSpine_prim (s : State) (g c l : Nat) (u : UnitRef) (d : Nat) (j : Bool) : (s.raiseSpine g c l u d j).prim = s.prim := rfl
@[simp] theorem State.raiseSpine_haltConds (s : State) (g c l : Nat) (u : UnitRef) (d : Nat) (j : Bool) : (s.raiseSpine g c l u d j).haltConds = s.haltConds := rfl
@[simp] theorem State.raiseSpine_fallback (s : State) (g c l : Nat) (u : UnitRef) (d : Nat) (j : Bool) : (s.raiseSpine g c l u d j).fallback = s.fallback := rfl
@[simp] theorem State.raiseSpine_drainPend (s : State) (g c l : Nat) (u : UnitRef) (d : Nat) (j : Bool) : (s.raiseSpine g c l u d j).drainPend = s.drainPend := rfl
@[simp] theorem State.raiseSpine_drainAt (s : State) (g c l : Nat) (u : UnitRef) (d : Nat) (j : Bool) : (s.raiseSpine g c l u d j).drainAt = s.drainAt := rfl
@[simp] theorem State.raiseSpine_pdrec (s : State) (g c l : Nat) (u : UnitRef) (d : Nat) (j : Bool) : (s.raiseSpine g c l u d j).pdrec = s.pdrec := rfl
@[simp] theorem State.raiseSpine_regs (s : State) (g c l : Nat) (u : UnitRef) (d : Nat) (j : Bool) : (s.raiseSpine g c l u d j).regs = s.regs := rfl
@[simp] theorem State.raiseSpine_cyc (s : State) (g c l : Nat) (u : UnitRef) (d : Nat) (j : Bool) : (s.raiseSpine g c l u d j).cyc = s.cyc := rfl
@[simp] theorem State.raiseSpine_modeWas (s : State) (g c l : Nat) (u : UnitRef) (d : Nat) (j : Bool) : (s.raiseSpine g c l u d j).modeWas = s.modeWas := rfl
@[simp] theorem State.raiseSpine_quietWas (s : State) (g c l : Nat) (u : UnitRef) (d : Nat) (j : Bool) : (s.raiseSpine g c l u d j).quietWas = s.quietWas := rfl
@[simp] theorem State.raiseSpine_shadows (s : State) (g c l : Nat) (u : UnitRef) (d : Nat) (j : Bool) : (s.raiseSpine g c l u d j).shadows = s.shadows := rfl
@[simp] theorem State.raiseSpine_tabs (s : State) (g c l : Nat) (u : UnitRef) (d : Nat) (j : Bool) : (s.raiseSpine g c l u d j).tabs = s.tabs := rfl
@[simp] theorem State.raiseSpine_fuses (s : State) (g c l : Nat) (u : UnitRef) (d : Nat) (j : Bool) : (s.raiseSpine g c l u d j).fuses = s.fuses := rfl
@[simp] theorem State.raiseSpine_ownEp (s : State) (g c l : Nat) (u : UnitRef) (d : Nat) (j : Bool) : (s.raiseSpine g c l u d j).ownEp = s.ownEp := rfl
@[simp] theorem State.raiseSpine_tim (s : State) (g c l : Nat) (u : UnitRef) (d : Nat) (j : Bool) : (s.raiseSpine g c l u d j).tim = s.tim := rfl
@[simp] theorem State.raiseSpine_prg (s : State) (g c l : Nat) (u : UnitRef) (d : Nat) (j : Bool) : (s.raiseSpine g c l u d j).prg = s.prg := rfl
@[simp] theorem State.raiseSpine_epo (s : State) (g c l : Nat) (u : UnitRef) (d : Nat) (j : Bool) : (s.raiseSpine g c l u d j).epo = s.epo := rfl
@[simp] theorem State.raiseSpine_hub (s : State) (g c l : Nat) (u : UnitRef) (d : Nat) (j : Bool) : (s.raiseSpine g c l u d j).hub = s.hub := rfl
@[simp] theorem State.raiseSpine_rkCopy (s : State) (g c l : Nat) (u : UnitRef) (d : Nat) (j : Bool) : (s.raiseSpine g c l u d j).rkCopy = s.rkCopy := rfl
@[simp] theorem State.raiseSpine_rbuf (s : State) (g c l : Nat) (u : UnitRef) (d : Nat) (j : Bool) : (s.raiseSpine g c l u d j).rbuf = s.rbuf := rfl
@[simp] theorem State.raiseSpine_cred (s : State) (g c l : Nat) (u : UnitRef) (d : Nat) (j : Bool) : (s.raiseSpine g c l u d j).cred = s.cred := rfl
@[simp] theorem State.raiseSpine_arbs (s : State) (g c l : Nat) (u : UnitRef) (d : Nat) (j : Bool) : (s.raiseSpine g c l u d j).arbs = s.arbs := rfl
@[simp] theorem State.raiseSpine_ni (s : State) (g c l : Nat) (u : UnitRef) (d : Nat) (j : Bool) : (s.raiseSpine g c l u d j).ni = s.ni := rfl
@[simp] theorem State.raiseSpine_saf (s : State) (g c l : Nat) (u : UnitRef) (d : Nat) (j : Bool) : (s.raiseSpine g c l u d j).saf = s.saf := rfl
@[simp] theorem State.raiseSpine_home (s : State) (g c l : Nat) (u : UnitRef) (d : Nat) (j : Bool) : (s.raiseSpine g c l u d j).home = s.home := rfl
@[simp] theorem State.raiseSpine_dir (s : State) (g c l : Nat) (u : UnitRef) (d : Nat) (j : Bool) : (s.raiseSpine g c l u d j).dir = s.dir := rfl
@[simp] theorem State.raiseSpine_plru (s : State) (g c l : Nat) (u : UnitRef) (d : Nat) (j : Bool) : (s.raiseSpine g c l u d j).plru = s.plru := rfl
@[simp] theorem State.raiseSpine_pred (s : State) (g c l : Nat) (u : UnitRef) (d : Nat) (j : Bool) : (s.raiseSpine g c l u d j).pred = s.pred := rfl
@[simp] theorem State.raiseSpine_cache (s : State) (g c l : Nat) (u : UnitRef) (d : Nat) (j : Bool) : (s.raiseSpine g c l u d j).cache = s.cache := rfl
@[simp] theorem State.raiseSpine_recalls (s : State) (g c l : Nat) (u : UnitRef) (d : Nat) (j : Bool) : (s.raiseSpine g c l u d j).recalls = s.recalls := rfl
@[simp] theorem State.raiseSpine_sram (s : State) (g c l : Nat) (u : UnitRef) (d : Nat) (j : Bool) : (s.raiseSpine g c l u d j).sram = s.sram := rfl
@[simp] theorem State.raiseSpine_sramBad (s : State) (g c l : Nat) (u : UnitRef) (d : Nat) (j : Bool) : (s.raiseSpine g c l u d j).sramBad = s.sramBad := rfl
@[simp] theorem State.raiseSpine_bank (s : State) (g c l : Nat) (u : UnitRef) (d : Nat) (j : Bool) : (s.raiseSpine g c l u d j).bank = s.bank := rfl
@[simp] theorem State.raiseSpine_loc (s : State) (g c l : Nat) (u : UnitRef) (d : Nat) (j : Bool) : (s.raiseSpine g c l u d j).loc = s.loc := rfl
@[simp] theorem State.raiseSpine_que (s : State) (g c l : Nat) (u : UnitRef) (d : Nat) (j : Bool) : (s.raiseSpine g c l u d j).que = s.que := rfl
@[simp] theorem State.raiseSpine_qm (s : State) (g c l : Nat) (u : UnitRef) (d : Nat) (j : Bool) : (s.raiseSpine g c l u d j).qm = s.qm := rfl
@[simp] theorem State.raiseSpine_refillAt (s : State) (g c l : Nat) (u : UnitRef) (d : Nat) (j : Bool) : (s.raiseSpine g c l u d j).refillAt = s.refillAt := rfl
@[simp] theorem State.raiseSpine_ecl (s : State) (g c l : Nat) (u : UnitRef) (d : Nat) (j : Bool) : (s.raiseSpine g c l u d j).ecl = s.ecl := rfl
@[simp] theorem State.raiseSpine_lsram (s : State) (g c l : Nat) (u : UnitRef) (d : Nat) (j : Bool) : (s.raiseSpine g c l u d j).lsram = s.lsram := rfl
@[simp] theorem State.raiseSpine_lsramBad (s : State) (g c l : Nat) (u : UnitRef) (d : Nat) (j : Bool) : (s.raiseSpine g c l u d j).lsramBad = s.lsramBad := rfl
@[simp] theorem State.raiseSpine_ctr (s : State) (g c l : Nat) (u : UnitRef) (d : Nat) (j : Bool) : (s.raiseSpine g c l u d j).ctr = s.ctr := rfl
@[simp] theorem State.raiseSpine_ctrWas (s : State) (g c l : Nat) (u : UnitRef) (d : Nat) (j : Bool) : (s.raiseSpine g c l u d j).ctrWas = s.ctrWas := rfl
@[simp] theorem State.raiseSpine_ctrClr (s : State) (g c l : Nat) (u : UnitRef) (d : Nat) (j : Bool) : (s.raiseSpine g c l u d j).ctrClr = s.ctrClr := rfl
@[simp] theorem State.raiseSpine_wakePin (s : State) (g c l : Nat) (u : UnitRef) (d : Nat) (j : Bool) : (s.raiseSpine g c l u d j).wakePin = s.wakePin := rfl
@[simp] theorem State.raiseSpine_dom (s : State) (g c l : Nat) (u : UnitRef) (d : Nat) (j : Bool) : (s.raiseSpine g c l u d j).dom = s.dom := rfl
@[simp] theorem State.raiseSpine_sigs (s : State) (g c l : Nat) (u : UnitRef) (d : Nat) (j : Bool) : (s.raiseSpine g c l u d j).sigs = s.sigs := rfl
@[simp] theorem State.raiseSpine_slc (s : State) (g c l : Nat) (u : UnitRef) (d : Nat) (j : Bool) : (s.raiseSpine g c l u d j).slc = s.slc := rfl
@[simp] theorem State.raiseSpine_freeze (s : State) (g c l : Nat) (u : UnitRef) (d : Nat) (j : Bool) : (s.raiseSpine g c l u d j).freeze = s.freeze := rfl
@[simp] theorem State.raiseSpine_bw (s : State) (g c l : Nat) (u : UnitRef) (d : Nat) (j : Bool) : (s.raiseSpine g c l u d j).bw = s.bw := rfl
@[simp] theorem State.raiseSpine_probe (s : State) (g c l : Nat) (u : UnitRef) (d : Nat) (j : Bool) : (s.raiseSpine g c l u d j).probe = s.probe := rfl
@[simp] theorem State.raiseSpine_free (s : State) (g c l : Nat) (u : UnitRef) (d : Nat) (j : Bool) : (s.raiseSpine g c l u d j).free = s.free := rfl

/-! ### `State.raiseRtr` changes only `fc`. -/

@[simp] theorem State.raiseRtr_pending (s : State) (n c l p : Nat) (j : Bool) : (s.raiseRtr n c l p j).pending = s.pending := rfl
@[simp] theorem State.raiseRtr_tick (s : State) (n c l p : Nat) (j : Bool) : (s.raiseRtr n c l p j).tick = s.tick := rfl
@[simp] theorem State.raiseRtr_frst (s : State) (n c l p : Nat) (j : Bool) : (s.raiseRtr n c l p j).frst = s.frst := rfl
@[simp] theorem State.raiseRtr_started (s : State) (n c l p : Nat) (j : Bool) : (s.raiseRtr n c l p j).started = s.started := rfl
@[simp] theorem State.raiseRtr_prim (s : State) (n c l p : Nat) (j : Bool) : (s.raiseRtr n c l p j).prim = s.prim := rfl
@[simp] theorem State.raiseRtr_haltConds (s : State) (n c l p : Nat) (j : Bool) : (s.raiseRtr n c l p j).haltConds = s.haltConds := rfl
@[simp] theorem State.raiseRtr_fallback (s : State) (n c l p : Nat) (j : Bool) : (s.raiseRtr n c l p j).fallback = s.fallback := rfl
@[simp] theorem State.raiseRtr_drainPend (s : State) (n c l p : Nat) (j : Bool) : (s.raiseRtr n c l p j).drainPend = s.drainPend := rfl
@[simp] theorem State.raiseRtr_drainAt (s : State) (n c l p : Nat) (j : Bool) : (s.raiseRtr n c l p j).drainAt = s.drainAt := rfl
@[simp] theorem State.raiseRtr_pdrec (s : State) (n c l p : Nat) (j : Bool) : (s.raiseRtr n c l p j).pdrec = s.pdrec := rfl
@[simp] theorem State.raiseRtr_regs (s : State) (n c l p : Nat) (j : Bool) : (s.raiseRtr n c l p j).regs = s.regs := rfl
@[simp] theorem State.raiseRtr_cyc (s : State) (n c l p : Nat) (j : Bool) : (s.raiseRtr n c l p j).cyc = s.cyc := rfl
@[simp] theorem State.raiseRtr_modeWas (s : State) (n c l p : Nat) (j : Bool) : (s.raiseRtr n c l p j).modeWas = s.modeWas := rfl
@[simp] theorem State.raiseRtr_quietWas (s : State) (n c l p : Nat) (j : Bool) : (s.raiseRtr n c l p j).quietWas = s.quietWas := rfl
@[simp] theorem State.raiseRtr_shadows (s : State) (n c l p : Nat) (j : Bool) : (s.raiseRtr n c l p j).shadows = s.shadows := rfl
@[simp] theorem State.raiseRtr_tabs (s : State) (n c l p : Nat) (j : Bool) : (s.raiseRtr n c l p j).tabs = s.tabs := rfl
@[simp] theorem State.raiseRtr_fuses (s : State) (n c l p : Nat) (j : Bool) : (s.raiseRtr n c l p j).fuses = s.fuses := rfl
@[simp] theorem State.raiseRtr_ownEp (s : State) (n c l p : Nat) (j : Bool) : (s.raiseRtr n c l p j).ownEp = s.ownEp := rfl
@[simp] theorem State.raiseRtr_tim (s : State) (n c l p : Nat) (j : Bool) : (s.raiseRtr n c l p j).tim = s.tim := rfl
@[simp] theorem State.raiseRtr_prg (s : State) (n c l p : Nat) (j : Bool) : (s.raiseRtr n c l p j).prg = s.prg := rfl
@[simp] theorem State.raiseRtr_epo (s : State) (n c l p : Nat) (j : Bool) : (s.raiseRtr n c l p j).epo = s.epo := rfl
@[simp] theorem State.raiseRtr_hub (s : State) (n c l p : Nat) (j : Bool) : (s.raiseRtr n c l p j).hub = s.hub := rfl
@[simp] theorem State.raiseRtr_rkCopy (s : State) (n c l p : Nat) (j : Bool) : (s.raiseRtr n c l p j).rkCopy = s.rkCopy := rfl
@[simp] theorem State.raiseRtr_rbuf (s : State) (n c l p : Nat) (j : Bool) : (s.raiseRtr n c l p j).rbuf = s.rbuf := rfl
@[simp] theorem State.raiseRtr_cred (s : State) (n c l p : Nat) (j : Bool) : (s.raiseRtr n c l p j).cred = s.cred := rfl
@[simp] theorem State.raiseRtr_arbs (s : State) (n c l p : Nat) (j : Bool) : (s.raiseRtr n c l p j).arbs = s.arbs := rfl
@[simp] theorem State.raiseRtr_ni (s : State) (n c l p : Nat) (j : Bool) : (s.raiseRtr n c l p j).ni = s.ni := rfl
@[simp] theorem State.raiseRtr_saf (s : State) (n c l p : Nat) (j : Bool) : (s.raiseRtr n c l p j).saf = s.saf := rfl
@[simp] theorem State.raiseRtr_home (s : State) (n c l p : Nat) (j : Bool) : (s.raiseRtr n c l p j).home = s.home := rfl
@[simp] theorem State.raiseRtr_dir (s : State) (n c l p : Nat) (j : Bool) : (s.raiseRtr n c l p j).dir = s.dir := rfl
@[simp] theorem State.raiseRtr_plru (s : State) (n c l p : Nat) (j : Bool) : (s.raiseRtr n c l p j).plru = s.plru := rfl
@[simp] theorem State.raiseRtr_pred (s : State) (n c l p : Nat) (j : Bool) : (s.raiseRtr n c l p j).pred = s.pred := rfl
@[simp] theorem State.raiseRtr_cache (s : State) (n c l p : Nat) (j : Bool) : (s.raiseRtr n c l p j).cache = s.cache := rfl
@[simp] theorem State.raiseRtr_recalls (s : State) (n c l p : Nat) (j : Bool) : (s.raiseRtr n c l p j).recalls = s.recalls := rfl
@[simp] theorem State.raiseRtr_sram (s : State) (n c l p : Nat) (j : Bool) : (s.raiseRtr n c l p j).sram = s.sram := rfl
@[simp] theorem State.raiseRtr_sramBad (s : State) (n c l p : Nat) (j : Bool) : (s.raiseRtr n c l p j).sramBad = s.sramBad := rfl
@[simp] theorem State.raiseRtr_bank (s : State) (n c l p : Nat) (j : Bool) : (s.raiseRtr n c l p j).bank = s.bank := rfl
@[simp] theorem State.raiseRtr_loc (s : State) (n c l p : Nat) (j : Bool) : (s.raiseRtr n c l p j).loc = s.loc := rfl
@[simp] theorem State.raiseRtr_que (s : State) (n c l p : Nat) (j : Bool) : (s.raiseRtr n c l p j).que = s.que := rfl
@[simp] theorem State.raiseRtr_qm (s : State) (n c l p : Nat) (j : Bool) : (s.raiseRtr n c l p j).qm = s.qm := rfl
@[simp] theorem State.raiseRtr_refillAt (s : State) (n c l p : Nat) (j : Bool) : (s.raiseRtr n c l p j).refillAt = s.refillAt := rfl
@[simp] theorem State.raiseRtr_ecl (s : State) (n c l p : Nat) (j : Bool) : (s.raiseRtr n c l p j).ecl = s.ecl := rfl
@[simp] theorem State.raiseRtr_lsram (s : State) (n c l p : Nat) (j : Bool) : (s.raiseRtr n c l p j).lsram = s.lsram := rfl
@[simp] theorem State.raiseRtr_lsramBad (s : State) (n c l p : Nat) (j : Bool) : (s.raiseRtr n c l p j).lsramBad = s.lsramBad := rfl
@[simp] theorem State.raiseRtr_ctr (s : State) (n c l p : Nat) (j : Bool) : (s.raiseRtr n c l p j).ctr = s.ctr := rfl
@[simp] theorem State.raiseRtr_ctrWas (s : State) (n c l p : Nat) (j : Bool) : (s.raiseRtr n c l p j).ctrWas = s.ctrWas := rfl
@[simp] theorem State.raiseRtr_ctrClr (s : State) (n c l p : Nat) (j : Bool) : (s.raiseRtr n c l p j).ctrClr = s.ctrClr := rfl
@[simp] theorem State.raiseRtr_wakePin (s : State) (n c l p : Nat) (j : Bool) : (s.raiseRtr n c l p j).wakePin = s.wakePin := rfl
@[simp] theorem State.raiseRtr_dom (s : State) (n c l p : Nat) (j : Bool) : (s.raiseRtr n c l p j).dom = s.dom := rfl
@[simp] theorem State.raiseRtr_sigs (s : State) (n c l p : Nat) (j : Bool) : (s.raiseRtr n c l p j).sigs = s.sigs := rfl
@[simp] theorem State.raiseRtr_slc (s : State) (n c l p : Nat) (j : Bool) : (s.raiseRtr n c l p j).slc = s.slc := rfl
@[simp] theorem State.raiseRtr_freeze (s : State) (n c l p : Nat) (j : Bool) : (s.raiseRtr n c l p j).freeze = s.freeze := rfl
@[simp] theorem State.raiseRtr_bw (s : State) (n c l p : Nat) (j : Bool) : (s.raiseRtr n c l p j).bw = s.bw := rfl
@[simp] theorem State.raiseRtr_probe (s : State) (n c l p : Nat) (j : Bool) : (s.raiseRtr n c l p j).probe = s.probe := rfl
@[simp] theorem State.raiseRtr_free (s : State) (n c l p : Nat) (j : Bool) : (s.raiseRtr n c l p j).free = s.free := rfl

/-! ### `State.setBuf` changes only `rbuf`. -/

@[simp] theorem State.setBuf_pending (s : State) (n : Nat) (x : Net) (i v : Nat) (b : RBuf) : (s.setBuf n x i v b).pending = s.pending := rfl
@[simp] theorem State.setBuf_tick (s : State) (n : Nat) (x : Net) (i v : Nat) (b : RBuf) : (s.setBuf n x i v b).tick = s.tick := rfl
@[simp] theorem State.setBuf_frst (s : State) (n : Nat) (x : Net) (i v : Nat) (b : RBuf) : (s.setBuf n x i v b).frst = s.frst := rfl
@[simp] theorem State.setBuf_started (s : State) (n : Nat) (x : Net) (i v : Nat) (b : RBuf) : (s.setBuf n x i v b).started = s.started := rfl
@[simp] theorem State.setBuf_prim (s : State) (n : Nat) (x : Net) (i v : Nat) (b : RBuf) : (s.setBuf n x i v b).prim = s.prim := rfl
@[simp] theorem State.setBuf_haltConds (s : State) (n : Nat) (x : Net) (i v : Nat) (b : RBuf) : (s.setBuf n x i v b).haltConds = s.haltConds := rfl
@[simp] theorem State.setBuf_fallback (s : State) (n : Nat) (x : Net) (i v : Nat) (b : RBuf) : (s.setBuf n x i v b).fallback = s.fallback := rfl
@[simp] theorem State.setBuf_drainPend (s : State) (n : Nat) (x : Net) (i v : Nat) (b : RBuf) : (s.setBuf n x i v b).drainPend = s.drainPend := rfl
@[simp] theorem State.setBuf_drainAt (s : State) (n : Nat) (x : Net) (i v : Nat) (b : RBuf) : (s.setBuf n x i v b).drainAt = s.drainAt := rfl
@[simp] theorem State.setBuf_pdrec (s : State) (n : Nat) (x : Net) (i v : Nat) (b : RBuf) : (s.setBuf n x i v b).pdrec = s.pdrec := rfl
@[simp] theorem State.setBuf_regs (s : State) (n : Nat) (x : Net) (i v : Nat) (b : RBuf) : (s.setBuf n x i v b).regs = s.regs := rfl
@[simp] theorem State.setBuf_cyc (s : State) (n : Nat) (x : Net) (i v : Nat) (b : RBuf) : (s.setBuf n x i v b).cyc = s.cyc := rfl
@[simp] theorem State.setBuf_modeWas (s : State) (n : Nat) (x : Net) (i v : Nat) (b : RBuf) : (s.setBuf n x i v b).modeWas = s.modeWas := rfl
@[simp] theorem State.setBuf_quietWas (s : State) (n : Nat) (x : Net) (i v : Nat) (b : RBuf) : (s.setBuf n x i v b).quietWas = s.quietWas := rfl
@[simp] theorem State.setBuf_shadows (s : State) (n : Nat) (x : Net) (i v : Nat) (b : RBuf) : (s.setBuf n x i v b).shadows = s.shadows := rfl
@[simp] theorem State.setBuf_tabs (s : State) (n : Nat) (x : Net) (i v : Nat) (b : RBuf) : (s.setBuf n x i v b).tabs = s.tabs := rfl
@[simp] theorem State.setBuf_fuses (s : State) (n : Nat) (x : Net) (i v : Nat) (b : RBuf) : (s.setBuf n x i v b).fuses = s.fuses := rfl
@[simp] theorem State.setBuf_ownEp (s : State) (n : Nat) (x : Net) (i v : Nat) (b : RBuf) : (s.setBuf n x i v b).ownEp = s.ownEp := rfl
@[simp] theorem State.setBuf_tim (s : State) (n : Nat) (x : Net) (i v : Nat) (b : RBuf) : (s.setBuf n x i v b).tim = s.tim := rfl
@[simp] theorem State.setBuf_fc (s : State) (n : Nat) (x : Net) (i v : Nat) (b : RBuf) : (s.setBuf n x i v b).fc = s.fc := rfl
@[simp] theorem State.setBuf_prg (s : State) (n : Nat) (x : Net) (i v : Nat) (b : RBuf) : (s.setBuf n x i v b).prg = s.prg := rfl
@[simp] theorem State.setBuf_epo (s : State) (n : Nat) (x : Net) (i v : Nat) (b : RBuf) : (s.setBuf n x i v b).epo = s.epo := rfl
@[simp] theorem State.setBuf_hub (s : State) (n : Nat) (x : Net) (i v : Nat) (b : RBuf) : (s.setBuf n x i v b).hub = s.hub := rfl
@[simp] theorem State.setBuf_rkCopy (s : State) (n : Nat) (x : Net) (i v : Nat) (b : RBuf) : (s.setBuf n x i v b).rkCopy = s.rkCopy := rfl
@[simp] theorem State.setBuf_cred (s : State) (n : Nat) (x : Net) (i v : Nat) (b : RBuf) : (s.setBuf n x i v b).cred = s.cred := rfl
@[simp] theorem State.setBuf_arbs (s : State) (n : Nat) (x : Net) (i v : Nat) (b : RBuf) : (s.setBuf n x i v b).arbs = s.arbs := rfl
@[simp] theorem State.setBuf_ni (s : State) (n : Nat) (x : Net) (i v : Nat) (b : RBuf) : (s.setBuf n x i v b).ni = s.ni := rfl
@[simp] theorem State.setBuf_saf (s : State) (n : Nat) (x : Net) (i v : Nat) (b : RBuf) : (s.setBuf n x i v b).saf = s.saf := rfl
@[simp] theorem State.setBuf_home (s : State) (n : Nat) (x : Net) (i v : Nat) (b : RBuf) : (s.setBuf n x i v b).home = s.home := rfl
@[simp] theorem State.setBuf_dir (s : State) (n : Nat) (x : Net) (i v : Nat) (b : RBuf) : (s.setBuf n x i v b).dir = s.dir := rfl
@[simp] theorem State.setBuf_plru (s : State) (n : Nat) (x : Net) (i v : Nat) (b : RBuf) : (s.setBuf n x i v b).plru = s.plru := rfl
@[simp] theorem State.setBuf_pred (s : State) (n : Nat) (x : Net) (i v : Nat) (b : RBuf) : (s.setBuf n x i v b).pred = s.pred := rfl
@[simp] theorem State.setBuf_cache (s : State) (n : Nat) (x : Net) (i v : Nat) (b : RBuf) : (s.setBuf n x i v b).cache = s.cache := rfl
@[simp] theorem State.setBuf_recalls (s : State) (n : Nat) (x : Net) (i v : Nat) (b : RBuf) : (s.setBuf n x i v b).recalls = s.recalls := rfl
@[simp] theorem State.setBuf_sram (s : State) (n : Nat) (x : Net) (i v : Nat) (b : RBuf) : (s.setBuf n x i v b).sram = s.sram := rfl
@[simp] theorem State.setBuf_sramBad (s : State) (n : Nat) (x : Net) (i v : Nat) (b : RBuf) : (s.setBuf n x i v b).sramBad = s.sramBad := rfl
@[simp] theorem State.setBuf_bank (s : State) (n : Nat) (x : Net) (i v : Nat) (b : RBuf) : (s.setBuf n x i v b).bank = s.bank := rfl
@[simp] theorem State.setBuf_loc (s : State) (n : Nat) (x : Net) (i v : Nat) (b : RBuf) : (s.setBuf n x i v b).loc = s.loc := rfl
@[simp] theorem State.setBuf_que (s : State) (n : Nat) (x : Net) (i v : Nat) (b : RBuf) : (s.setBuf n x i v b).que = s.que := rfl
@[simp] theorem State.setBuf_qm (s : State) (n : Nat) (x : Net) (i v : Nat) (b : RBuf) : (s.setBuf n x i v b).qm = s.qm := rfl
@[simp] theorem State.setBuf_refillAt (s : State) (n : Nat) (x : Net) (i v : Nat) (b : RBuf) : (s.setBuf n x i v b).refillAt = s.refillAt := rfl
@[simp] theorem State.setBuf_ecl (s : State) (n : Nat) (x : Net) (i v : Nat) (b : RBuf) : (s.setBuf n x i v b).ecl = s.ecl := rfl
@[simp] theorem State.setBuf_lsram (s : State) (n : Nat) (x : Net) (i v : Nat) (b : RBuf) : (s.setBuf n x i v b).lsram = s.lsram := rfl
@[simp] theorem State.setBuf_lsramBad (s : State) (n : Nat) (x : Net) (i v : Nat) (b : RBuf) : (s.setBuf n x i v b).lsramBad = s.lsramBad := rfl
@[simp] theorem State.setBuf_ctr (s : State) (n : Nat) (x : Net) (i v : Nat) (b : RBuf) : (s.setBuf n x i v b).ctr = s.ctr := rfl
@[simp] theorem State.setBuf_ctrWas (s : State) (n : Nat) (x : Net) (i v : Nat) (b : RBuf) : (s.setBuf n x i v b).ctrWas = s.ctrWas := rfl
@[simp] theorem State.setBuf_ctrClr (s : State) (n : Nat) (x : Net) (i v : Nat) (b : RBuf) : (s.setBuf n x i v b).ctrClr = s.ctrClr := rfl
@[simp] theorem State.setBuf_wakePin (s : State) (n : Nat) (x : Net) (i v : Nat) (b : RBuf) : (s.setBuf n x i v b).wakePin = s.wakePin := rfl
@[simp] theorem State.setBuf_dom (s : State) (n : Nat) (x : Net) (i v : Nat) (b : RBuf) : (s.setBuf n x i v b).dom = s.dom := rfl
@[simp] theorem State.setBuf_sigs (s : State) (n : Nat) (x : Net) (i v : Nat) (b : RBuf) : (s.setBuf n x i v b).sigs = s.sigs := rfl
@[simp] theorem State.setBuf_slc (s : State) (n : Nat) (x : Net) (i v : Nat) (b : RBuf) : (s.setBuf n x i v b).slc = s.slc := rfl
@[simp] theorem State.setBuf_freeze (s : State) (n : Nat) (x : Net) (i v : Nat) (b : RBuf) : (s.setBuf n x i v b).freeze = s.freeze := rfl
@[simp] theorem State.setBuf_bw (s : State) (n : Nat) (x : Net) (i v : Nat) (b : RBuf) : (s.setBuf n x i v b).bw = s.bw := rfl
@[simp] theorem State.setBuf_probe (s : State) (n : Nat) (x : Net) (i v : Nat) (b : RBuf) : (s.setBuf n x i v b).probe = s.probe := rfl
@[simp] theorem State.setBuf_free (s : State) (n : Nat) (x : Net) (i v : Nat) (b : RBuf) : (s.setBuf n x i v b).free = s.free := rfl

/-! ### `State.spend` changes only `cred`. -/

@[simp] theorem State.spend_pending (s : State) (n : Nat) (x : Net) (p v : Nat) : (s.spend n x p v).pending = s.pending := by unfold State.spend; split <;> rfl
@[simp] theorem State.spend_tick (s : State) (n : Nat) (x : Net) (p v : Nat) : (s.spend n x p v).tick = s.tick := by unfold State.spend; split <;> rfl
@[simp] theorem State.spend_frst (s : State) (n : Nat) (x : Net) (p v : Nat) : (s.spend n x p v).frst = s.frst := by unfold State.spend; split <;> rfl
@[simp] theorem State.spend_started (s : State) (n : Nat) (x : Net) (p v : Nat) : (s.spend n x p v).started = s.started := by unfold State.spend; split <;> rfl
@[simp] theorem State.spend_prim (s : State) (n : Nat) (x : Net) (p v : Nat) : (s.spend n x p v).prim = s.prim := by unfold State.spend; split <;> rfl
@[simp] theorem State.spend_haltConds (s : State) (n : Nat) (x : Net) (p v : Nat) : (s.spend n x p v).haltConds = s.haltConds := by unfold State.spend; split <;> rfl
@[simp] theorem State.spend_fallback (s : State) (n : Nat) (x : Net) (p v : Nat) : (s.spend n x p v).fallback = s.fallback := by unfold State.spend; split <;> rfl
@[simp] theorem State.spend_drainPend (s : State) (n : Nat) (x : Net) (p v : Nat) : (s.spend n x p v).drainPend = s.drainPend := by unfold State.spend; split <;> rfl
@[simp] theorem State.spend_drainAt (s : State) (n : Nat) (x : Net) (p v : Nat) : (s.spend n x p v).drainAt = s.drainAt := by unfold State.spend; split <;> rfl
@[simp] theorem State.spend_pdrec (s : State) (n : Nat) (x : Net) (p v : Nat) : (s.spend n x p v).pdrec = s.pdrec := by unfold State.spend; split <;> rfl
@[simp] theorem State.spend_regs (s : State) (n : Nat) (x : Net) (p v : Nat) : (s.spend n x p v).regs = s.regs := by unfold State.spend; split <;> rfl
@[simp] theorem State.spend_cyc (s : State) (n : Nat) (x : Net) (p v : Nat) : (s.spend n x p v).cyc = s.cyc := by unfold State.spend; split <;> rfl
@[simp] theorem State.spend_modeWas (s : State) (n : Nat) (x : Net) (p v : Nat) : (s.spend n x p v).modeWas = s.modeWas := by unfold State.spend; split <;> rfl
@[simp] theorem State.spend_quietWas (s : State) (n : Nat) (x : Net) (p v : Nat) : (s.spend n x p v).quietWas = s.quietWas := by unfold State.spend; split <;> rfl
@[simp] theorem State.spend_shadows (s : State) (n : Nat) (x : Net) (p v : Nat) : (s.spend n x p v).shadows = s.shadows := by unfold State.spend; split <;> rfl
@[simp] theorem State.spend_tabs (s : State) (n : Nat) (x : Net) (p v : Nat) : (s.spend n x p v).tabs = s.tabs := by unfold State.spend; split <;> rfl
@[simp] theorem State.spend_fuses (s : State) (n : Nat) (x : Net) (p v : Nat) : (s.spend n x p v).fuses = s.fuses := by unfold State.spend; split <;> rfl
@[simp] theorem State.spend_ownEp (s : State) (n : Nat) (x : Net) (p v : Nat) : (s.spend n x p v).ownEp = s.ownEp := by unfold State.spend; split <;> rfl
@[simp] theorem State.spend_tim (s : State) (n : Nat) (x : Net) (p v : Nat) : (s.spend n x p v).tim = s.tim := by unfold State.spend; split <;> rfl
@[simp] theorem State.spend_fc (s : State) (n : Nat) (x : Net) (p v : Nat) : (s.spend n x p v).fc = s.fc := by unfold State.spend; split <;> rfl
@[simp] theorem State.spend_prg (s : State) (n : Nat) (x : Net) (p v : Nat) : (s.spend n x p v).prg = s.prg := by unfold State.spend; split <;> rfl
@[simp] theorem State.spend_epo (s : State) (n : Nat) (x : Net) (p v : Nat) : (s.spend n x p v).epo = s.epo := by unfold State.spend; split <;> rfl
@[simp] theorem State.spend_hub (s : State) (n : Nat) (x : Net) (p v : Nat) : (s.spend n x p v).hub = s.hub := by unfold State.spend; split <;> rfl
@[simp] theorem State.spend_rkCopy (s : State) (n : Nat) (x : Net) (p v : Nat) : (s.spend n x p v).rkCopy = s.rkCopy := by unfold State.spend; split <;> rfl
@[simp] theorem State.spend_rbuf (s : State) (n : Nat) (x : Net) (p v : Nat) : (s.spend n x p v).rbuf = s.rbuf := by unfold State.spend; split <;> rfl
@[simp] theorem State.spend_arbs (s : State) (n : Nat) (x : Net) (p v : Nat) : (s.spend n x p v).arbs = s.arbs := by unfold State.spend; split <;> rfl
@[simp] theorem State.spend_ni (s : State) (n : Nat) (x : Net) (p v : Nat) : (s.spend n x p v).ni = s.ni := by unfold State.spend; split <;> rfl
@[simp] theorem State.spend_saf (s : State) (n : Nat) (x : Net) (p v : Nat) : (s.spend n x p v).saf = s.saf := by unfold State.spend; split <;> rfl
@[simp] theorem State.spend_home (s : State) (n : Nat) (x : Net) (p v : Nat) : (s.spend n x p v).home = s.home := by unfold State.spend; split <;> rfl
@[simp] theorem State.spend_dir (s : State) (n : Nat) (x : Net) (p v : Nat) : (s.spend n x p v).dir = s.dir := by unfold State.spend; split <;> rfl
@[simp] theorem State.spend_plru (s : State) (n : Nat) (x : Net) (p v : Nat) : (s.spend n x p v).plru = s.plru := by unfold State.spend; split <;> rfl
@[simp] theorem State.spend_pred (s : State) (n : Nat) (x : Net) (p v : Nat) : (s.spend n x p v).pred = s.pred := by unfold State.spend; split <;> rfl
@[simp] theorem State.spend_cache (s : State) (n : Nat) (x : Net) (p v : Nat) : (s.spend n x p v).cache = s.cache := by unfold State.spend; split <;> rfl
@[simp] theorem State.spend_recalls (s : State) (n : Nat) (x : Net) (p v : Nat) : (s.spend n x p v).recalls = s.recalls := by unfold State.spend; split <;> rfl
@[simp] theorem State.spend_sram (s : State) (n : Nat) (x : Net) (p v : Nat) : (s.spend n x p v).sram = s.sram := by unfold State.spend; split <;> rfl
@[simp] theorem State.spend_sramBad (s : State) (n : Nat) (x : Net) (p v : Nat) : (s.spend n x p v).sramBad = s.sramBad := by unfold State.spend; split <;> rfl
@[simp] theorem State.spend_bank (s : State) (n : Nat) (x : Net) (p v : Nat) : (s.spend n x p v).bank = s.bank := by unfold State.spend; split <;> rfl
@[simp] theorem State.spend_loc (s : State) (n : Nat) (x : Net) (p v : Nat) : (s.spend n x p v).loc = s.loc := by unfold State.spend; split <;> rfl
@[simp] theorem State.spend_que (s : State) (n : Nat) (x : Net) (p v : Nat) : (s.spend n x p v).que = s.que := by unfold State.spend; split <;> rfl
@[simp] theorem State.spend_qm (s : State) (n : Nat) (x : Net) (p v : Nat) : (s.spend n x p v).qm = s.qm := by unfold State.spend; split <;> rfl
@[simp] theorem State.spend_refillAt (s : State) (n : Nat) (x : Net) (p v : Nat) : (s.spend n x p v).refillAt = s.refillAt := by unfold State.spend; split <;> rfl
@[simp] theorem State.spend_ecl (s : State) (n : Nat) (x : Net) (p v : Nat) : (s.spend n x p v).ecl = s.ecl := by unfold State.spend; split <;> rfl
@[simp] theorem State.spend_lsram (s : State) (n : Nat) (x : Net) (p v : Nat) : (s.spend n x p v).lsram = s.lsram := by unfold State.spend; split <;> rfl
@[simp] theorem State.spend_lsramBad (s : State) (n : Nat) (x : Net) (p v : Nat) : (s.spend n x p v).lsramBad = s.lsramBad := by unfold State.spend; split <;> rfl
@[simp] theorem State.spend_ctr (s : State) (n : Nat) (x : Net) (p v : Nat) : (s.spend n x p v).ctr = s.ctr := by unfold State.spend; split <;> rfl
@[simp] theorem State.spend_ctrWas (s : State) (n : Nat) (x : Net) (p v : Nat) : (s.spend n x p v).ctrWas = s.ctrWas := by unfold State.spend; split <;> rfl
@[simp] theorem State.spend_ctrClr (s : State) (n : Nat) (x : Net) (p v : Nat) : (s.spend n x p v).ctrClr = s.ctrClr := by unfold State.spend; split <;> rfl
@[simp] theorem State.spend_wakePin (s : State) (n : Nat) (x : Net) (p v : Nat) : (s.spend n x p v).wakePin = s.wakePin := by unfold State.spend; split <;> rfl
@[simp] theorem State.spend_dom (s : State) (n : Nat) (x : Net) (p v : Nat) : (s.spend n x p v).dom = s.dom := by unfold State.spend; split <;> rfl
@[simp] theorem State.spend_sigs (s : State) (n : Nat) (x : Net) (p v : Nat) : (s.spend n x p v).sigs = s.sigs := by unfold State.spend; split <;> rfl
@[simp] theorem State.spend_slc (s : State) (n : Nat) (x : Net) (p v : Nat) : (s.spend n x p v).slc = s.slc := by unfold State.spend; split <;> rfl
@[simp] theorem State.spend_freeze (s : State) (n : Nat) (x : Net) (p v : Nat) : (s.spend n x p v).freeze = s.freeze := by unfold State.spend; split <;> rfl
@[simp] theorem State.spend_bw (s : State) (n : Nat) (x : Net) (p v : Nat) : (s.spend n x p v).bw = s.bw := by unfold State.spend; split <;> rfl
@[simp] theorem State.spend_probe (s : State) (n : Nat) (x : Net) (p v : Nat) : (s.spend n x p v).probe = s.probe := by unfold State.spend; split <;> rfl
@[simp] theorem State.spend_free (s : State) (n : Nat) (x : Net) (p v : Nat) : (s.spend n x p v).free = s.free := by unfold State.spend; split <;> rfl

/-! ### `State.giveBack` changes only `cred`. -/

@[simp] theorem State.giveBack_pending (s : State) (n : Nat) (x : Net) (p v : Nat) : (s.giveBack n x p v).pending = s.pending := by unfold State.giveBack; split <;> rfl
@[simp] theorem State.giveBack_tick (s : State) (n : Nat) (x : Net) (p v : Nat) : (s.giveBack n x p v).tick = s.tick := by unfold State.giveBack; split <;> rfl
@[simp] theorem State.giveBack_frst (s : State) (n : Nat) (x : Net) (p v : Nat) : (s.giveBack n x p v).frst = s.frst := by unfold State.giveBack; split <;> rfl
@[simp] theorem State.giveBack_started (s : State) (n : Nat) (x : Net) (p v : Nat) : (s.giveBack n x p v).started = s.started := by unfold State.giveBack; split <;> rfl
@[simp] theorem State.giveBack_prim (s : State) (n : Nat) (x : Net) (p v : Nat) : (s.giveBack n x p v).prim = s.prim := by unfold State.giveBack; split <;> rfl
@[simp] theorem State.giveBack_haltConds (s : State) (n : Nat) (x : Net) (p v : Nat) : (s.giveBack n x p v).haltConds = s.haltConds := by unfold State.giveBack; split <;> rfl
@[simp] theorem State.giveBack_fallback (s : State) (n : Nat) (x : Net) (p v : Nat) : (s.giveBack n x p v).fallback = s.fallback := by unfold State.giveBack; split <;> rfl
@[simp] theorem State.giveBack_drainPend (s : State) (n : Nat) (x : Net) (p v : Nat) : (s.giveBack n x p v).drainPend = s.drainPend := by unfold State.giveBack; split <;> rfl
@[simp] theorem State.giveBack_drainAt (s : State) (n : Nat) (x : Net) (p v : Nat) : (s.giveBack n x p v).drainAt = s.drainAt := by unfold State.giveBack; split <;> rfl
@[simp] theorem State.giveBack_pdrec (s : State) (n : Nat) (x : Net) (p v : Nat) : (s.giveBack n x p v).pdrec = s.pdrec := by unfold State.giveBack; split <;> rfl
@[simp] theorem State.giveBack_regs (s : State) (n : Nat) (x : Net) (p v : Nat) : (s.giveBack n x p v).regs = s.regs := by unfold State.giveBack; split <;> rfl
@[simp] theorem State.giveBack_cyc (s : State) (n : Nat) (x : Net) (p v : Nat) : (s.giveBack n x p v).cyc = s.cyc := by unfold State.giveBack; split <;> rfl
@[simp] theorem State.giveBack_modeWas (s : State) (n : Nat) (x : Net) (p v : Nat) : (s.giveBack n x p v).modeWas = s.modeWas := by unfold State.giveBack; split <;> rfl
@[simp] theorem State.giveBack_quietWas (s : State) (n : Nat) (x : Net) (p v : Nat) : (s.giveBack n x p v).quietWas = s.quietWas := by unfold State.giveBack; split <;> rfl
@[simp] theorem State.giveBack_shadows (s : State) (n : Nat) (x : Net) (p v : Nat) : (s.giveBack n x p v).shadows = s.shadows := by unfold State.giveBack; split <;> rfl
@[simp] theorem State.giveBack_tabs (s : State) (n : Nat) (x : Net) (p v : Nat) : (s.giveBack n x p v).tabs = s.tabs := by unfold State.giveBack; split <;> rfl
@[simp] theorem State.giveBack_fuses (s : State) (n : Nat) (x : Net) (p v : Nat) : (s.giveBack n x p v).fuses = s.fuses := by unfold State.giveBack; split <;> rfl
@[simp] theorem State.giveBack_ownEp (s : State) (n : Nat) (x : Net) (p v : Nat) : (s.giveBack n x p v).ownEp = s.ownEp := by unfold State.giveBack; split <;> rfl
@[simp] theorem State.giveBack_tim (s : State) (n : Nat) (x : Net) (p v : Nat) : (s.giveBack n x p v).tim = s.tim := by unfold State.giveBack; split <;> rfl
@[simp] theorem State.giveBack_fc (s : State) (n : Nat) (x : Net) (p v : Nat) : (s.giveBack n x p v).fc = s.fc := by unfold State.giveBack; split <;> rfl
@[simp] theorem State.giveBack_prg (s : State) (n : Nat) (x : Net) (p v : Nat) : (s.giveBack n x p v).prg = s.prg := by unfold State.giveBack; split <;> rfl
@[simp] theorem State.giveBack_epo (s : State) (n : Nat) (x : Net) (p v : Nat) : (s.giveBack n x p v).epo = s.epo := by unfold State.giveBack; split <;> rfl
@[simp] theorem State.giveBack_hub (s : State) (n : Nat) (x : Net) (p v : Nat) : (s.giveBack n x p v).hub = s.hub := by unfold State.giveBack; split <;> rfl
@[simp] theorem State.giveBack_rkCopy (s : State) (n : Nat) (x : Net) (p v : Nat) : (s.giveBack n x p v).rkCopy = s.rkCopy := by unfold State.giveBack; split <;> rfl
@[simp] theorem State.giveBack_rbuf (s : State) (n : Nat) (x : Net) (p v : Nat) : (s.giveBack n x p v).rbuf = s.rbuf := by unfold State.giveBack; split <;> rfl
@[simp] theorem State.giveBack_arbs (s : State) (n : Nat) (x : Net) (p v : Nat) : (s.giveBack n x p v).arbs = s.arbs := by unfold State.giveBack; split <;> rfl
@[simp] theorem State.giveBack_ni (s : State) (n : Nat) (x : Net) (p v : Nat) : (s.giveBack n x p v).ni = s.ni := by unfold State.giveBack; split <;> rfl
@[simp] theorem State.giveBack_saf (s : State) (n : Nat) (x : Net) (p v : Nat) : (s.giveBack n x p v).saf = s.saf := by unfold State.giveBack; split <;> rfl
@[simp] theorem State.giveBack_home (s : State) (n : Nat) (x : Net) (p v : Nat) : (s.giveBack n x p v).home = s.home := by unfold State.giveBack; split <;> rfl
@[simp] theorem State.giveBack_dir (s : State) (n : Nat) (x : Net) (p v : Nat) : (s.giveBack n x p v).dir = s.dir := by unfold State.giveBack; split <;> rfl
@[simp] theorem State.giveBack_plru (s : State) (n : Nat) (x : Net) (p v : Nat) : (s.giveBack n x p v).plru = s.plru := by unfold State.giveBack; split <;> rfl
@[simp] theorem State.giveBack_pred (s : State) (n : Nat) (x : Net) (p v : Nat) : (s.giveBack n x p v).pred = s.pred := by unfold State.giveBack; split <;> rfl
@[simp] theorem State.giveBack_cache (s : State) (n : Nat) (x : Net) (p v : Nat) : (s.giveBack n x p v).cache = s.cache := by unfold State.giveBack; split <;> rfl
@[simp] theorem State.giveBack_recalls (s : State) (n : Nat) (x : Net) (p v : Nat) : (s.giveBack n x p v).recalls = s.recalls := by unfold State.giveBack; split <;> rfl
@[simp] theorem State.giveBack_sram (s : State) (n : Nat) (x : Net) (p v : Nat) : (s.giveBack n x p v).sram = s.sram := by unfold State.giveBack; split <;> rfl
@[simp] theorem State.giveBack_sramBad (s : State) (n : Nat) (x : Net) (p v : Nat) : (s.giveBack n x p v).sramBad = s.sramBad := by unfold State.giveBack; split <;> rfl
@[simp] theorem State.giveBack_bank (s : State) (n : Nat) (x : Net) (p v : Nat) : (s.giveBack n x p v).bank = s.bank := by unfold State.giveBack; split <;> rfl
@[simp] theorem State.giveBack_loc (s : State) (n : Nat) (x : Net) (p v : Nat) : (s.giveBack n x p v).loc = s.loc := by unfold State.giveBack; split <;> rfl
@[simp] theorem State.giveBack_que (s : State) (n : Nat) (x : Net) (p v : Nat) : (s.giveBack n x p v).que = s.que := by unfold State.giveBack; split <;> rfl
@[simp] theorem State.giveBack_qm (s : State) (n : Nat) (x : Net) (p v : Nat) : (s.giveBack n x p v).qm = s.qm := by unfold State.giveBack; split <;> rfl
@[simp] theorem State.giveBack_refillAt (s : State) (n : Nat) (x : Net) (p v : Nat) : (s.giveBack n x p v).refillAt = s.refillAt := by unfold State.giveBack; split <;> rfl
@[simp] theorem State.giveBack_ecl (s : State) (n : Nat) (x : Net) (p v : Nat) : (s.giveBack n x p v).ecl = s.ecl := by unfold State.giveBack; split <;> rfl
@[simp] theorem State.giveBack_lsram (s : State) (n : Nat) (x : Net) (p v : Nat) : (s.giveBack n x p v).lsram = s.lsram := by unfold State.giveBack; split <;> rfl
@[simp] theorem State.giveBack_lsramBad (s : State) (n : Nat) (x : Net) (p v : Nat) : (s.giveBack n x p v).lsramBad = s.lsramBad := by unfold State.giveBack; split <;> rfl
@[simp] theorem State.giveBack_ctr (s : State) (n : Nat) (x : Net) (p v : Nat) : (s.giveBack n x p v).ctr = s.ctr := by unfold State.giveBack; split <;> rfl
@[simp] theorem State.giveBack_ctrWas (s : State) (n : Nat) (x : Net) (p v : Nat) : (s.giveBack n x p v).ctrWas = s.ctrWas := by unfold State.giveBack; split <;> rfl
@[simp] theorem State.giveBack_ctrClr (s : State) (n : Nat) (x : Net) (p v : Nat) : (s.giveBack n x p v).ctrClr = s.ctrClr := by unfold State.giveBack; split <;> rfl
@[simp] theorem State.giveBack_wakePin (s : State) (n : Nat) (x : Net) (p v : Nat) : (s.giveBack n x p v).wakePin = s.wakePin := by unfold State.giveBack; split <;> rfl
@[simp] theorem State.giveBack_dom (s : State) (n : Nat) (x : Net) (p v : Nat) : (s.giveBack n x p v).dom = s.dom := by unfold State.giveBack; split <;> rfl
@[simp] theorem State.giveBack_sigs (s : State) (n : Nat) (x : Net) (p v : Nat) : (s.giveBack n x p v).sigs = s.sigs := by unfold State.giveBack; split <;> rfl
@[simp] theorem State.giveBack_slc (s : State) (n : Nat) (x : Net) (p v : Nat) : (s.giveBack n x p v).slc = s.slc := by unfold State.giveBack; split <;> rfl
@[simp] theorem State.giveBack_freeze (s : State) (n : Nat) (x : Net) (p v : Nat) : (s.giveBack n x p v).freeze = s.freeze := by unfold State.giveBack; split <;> rfl
@[simp] theorem State.giveBack_bw (s : State) (n : Nat) (x : Net) (p v : Nat) : (s.giveBack n x p v).bw = s.bw := by unfold State.giveBack; split <;> rfl
@[simp] theorem State.giveBack_probe (s : State) (n : Nat) (x : Net) (p v : Nat) : (s.giveBack n x p v).probe = s.probe := by unfold State.giveBack; split <;> rfl
@[simp] theorem State.giveBack_free (s : State) (n : Nat) (x : Net) (p v : Nat) : (s.giveBack n x p v).free = s.free := by unfold State.giveBack; split <;> rfl

/-! ### `State.count` changes only `ctr`, `regs`, `cyc`. -/

@[simp] theorem State.count_pending (s : State) (b i n : Nat) : (s.count b i n).pending = s.pending := by
  unfold State.count; dsimp only; repeat' split
  all_goals rfl
@[simp] theorem State.count_tick (s : State) (b i n : Nat) : (s.count b i n).tick = s.tick := by
  unfold State.count; dsimp only; repeat' split
  all_goals rfl
@[simp] theorem State.count_frst (s : State) (b i n : Nat) : (s.count b i n).frst = s.frst := by
  unfold State.count; dsimp only; repeat' split
  all_goals rfl
@[simp] theorem State.count_started (s : State) (b i n : Nat) : (s.count b i n).started = s.started := by
  unfold State.count; dsimp only; repeat' split
  all_goals rfl
@[simp] theorem State.count_prim (s : State) (b i n : Nat) : (s.count b i n).prim = s.prim := by
  unfold State.count; dsimp only; repeat' split
  all_goals rfl
@[simp] theorem State.count_haltConds (s : State) (b i n : Nat) : (s.count b i n).haltConds = s.haltConds := by
  unfold State.count; dsimp only; repeat' split
  all_goals rfl
@[simp] theorem State.count_fallback (s : State) (b i n : Nat) : (s.count b i n).fallback = s.fallback := by
  unfold State.count; dsimp only; repeat' split
  all_goals rfl
@[simp] theorem State.count_drainPend (s : State) (b i n : Nat) : (s.count b i n).drainPend = s.drainPend := by
  unfold State.count; dsimp only; repeat' split
  all_goals rfl
@[simp] theorem State.count_drainAt (s : State) (b i n : Nat) : (s.count b i n).drainAt = s.drainAt := by
  unfold State.count; dsimp only; repeat' split
  all_goals rfl
@[simp] theorem State.count_pdrec (s : State) (b i n : Nat) : (s.count b i n).pdrec = s.pdrec := by
  unfold State.count; dsimp only; repeat' split
  all_goals rfl
@[simp] theorem State.count_modeWas (s : State) (b i n : Nat) : (s.count b i n).modeWas = s.modeWas := by
  unfold State.count; dsimp only; repeat' split
  all_goals rfl
@[simp] theorem State.count_quietWas (s : State) (b i n : Nat) : (s.count b i n).quietWas = s.quietWas := by
  unfold State.count; dsimp only; repeat' split
  all_goals rfl
@[simp] theorem State.count_shadows (s : State) (b i n : Nat) : (s.count b i n).shadows = s.shadows := by
  unfold State.count; dsimp only; repeat' split
  all_goals rfl
@[simp] theorem State.count_tabs (s : State) (b i n : Nat) : (s.count b i n).tabs = s.tabs := by
  unfold State.count; dsimp only; repeat' split
  all_goals rfl
@[simp] theorem State.count_fuses (s : State) (b i n : Nat) : (s.count b i n).fuses = s.fuses := by
  unfold State.count; dsimp only; repeat' split
  all_goals rfl
@[simp] theorem State.count_ownEp (s : State) (b i n : Nat) : (s.count b i n).ownEp = s.ownEp := by
  unfold State.count; dsimp only; repeat' split
  all_goals rfl
@[simp] theorem State.count_tim (s : State) (b i n : Nat) : (s.count b i n).tim = s.tim := by
  unfold State.count; dsimp only; repeat' split
  all_goals rfl
@[simp] theorem State.count_fc (s : State) (b i n : Nat) : (s.count b i n).fc = s.fc := by
  unfold State.count; dsimp only; repeat' split
  all_goals rfl
@[simp] theorem State.count_prg (s : State) (b i n : Nat) : (s.count b i n).prg = s.prg := by
  unfold State.count; dsimp only; repeat' split
  all_goals rfl
@[simp] theorem State.count_epo (s : State) (b i n : Nat) : (s.count b i n).epo = s.epo := by
  unfold State.count; dsimp only; repeat' split
  all_goals rfl
@[simp] theorem State.count_hub (s : State) (b i n : Nat) : (s.count b i n).hub = s.hub := by
  unfold State.count; dsimp only; repeat' split
  all_goals rfl
@[simp] theorem State.count_rkCopy (s : State) (b i n : Nat) : (s.count b i n).rkCopy = s.rkCopy := by
  unfold State.count; dsimp only; repeat' split
  all_goals rfl
@[simp] theorem State.count_rbuf (s : State) (b i n : Nat) : (s.count b i n).rbuf = s.rbuf := by
  unfold State.count; dsimp only; repeat' split
  all_goals rfl
@[simp] theorem State.count_cred (s : State) (b i n : Nat) : (s.count b i n).cred = s.cred := by
  unfold State.count; dsimp only; repeat' split
  all_goals rfl
@[simp] theorem State.count_arbs (s : State) (b i n : Nat) : (s.count b i n).arbs = s.arbs := by
  unfold State.count; dsimp only; repeat' split
  all_goals rfl
@[simp] theorem State.count_ni (s : State) (b i n : Nat) : (s.count b i n).ni = s.ni := by
  unfold State.count; dsimp only; repeat' split
  all_goals rfl
@[simp] theorem State.count_saf (s : State) (b i n : Nat) : (s.count b i n).saf = s.saf := by
  unfold State.count; dsimp only; repeat' split
  all_goals rfl
@[simp] theorem State.count_home (s : State) (b i n : Nat) : (s.count b i n).home = s.home := by
  unfold State.count; dsimp only; repeat' split
  all_goals rfl
@[simp] theorem State.count_dir (s : State) (b i n : Nat) : (s.count b i n).dir = s.dir := by
  unfold State.count; dsimp only; repeat' split
  all_goals rfl
@[simp] theorem State.count_plru (s : State) (b i n : Nat) : (s.count b i n).plru = s.plru := by
  unfold State.count; dsimp only; repeat' split
  all_goals rfl
@[simp] theorem State.count_pred (s : State) (b i n : Nat) : (s.count b i n).pred = s.pred := by
  unfold State.count; dsimp only; repeat' split
  all_goals rfl
@[simp] theorem State.count_cache (s : State) (b i n : Nat) : (s.count b i n).cache = s.cache := by
  unfold State.count; dsimp only; repeat' split
  all_goals rfl
@[simp] theorem State.count_recalls (s : State) (b i n : Nat) : (s.count b i n).recalls = s.recalls := by
  unfold State.count; dsimp only; repeat' split
  all_goals rfl
@[simp] theorem State.count_sram (s : State) (b i n : Nat) : (s.count b i n).sram = s.sram := by
  unfold State.count; dsimp only; repeat' split
  all_goals rfl
@[simp] theorem State.count_sramBad (s : State) (b i n : Nat) : (s.count b i n).sramBad = s.sramBad := by
  unfold State.count; dsimp only; repeat' split
  all_goals rfl
@[simp] theorem State.count_bank (s : State) (b i n : Nat) : (s.count b i n).bank = s.bank := by
  unfold State.count; dsimp only; repeat' split
  all_goals rfl
@[simp] theorem State.count_loc (s : State) (b i n : Nat) : (s.count b i n).loc = s.loc := by
  unfold State.count; dsimp only; repeat' split
  all_goals rfl
@[simp] theorem State.count_que (s : State) (b i n : Nat) : (s.count b i n).que = s.que := by
  unfold State.count; dsimp only; repeat' split
  all_goals rfl
@[simp] theorem State.count_qm (s : State) (b i n : Nat) : (s.count b i n).qm = s.qm := by
  unfold State.count; dsimp only; repeat' split
  all_goals rfl
@[simp] theorem State.count_refillAt (s : State) (b i n : Nat) : (s.count b i n).refillAt = s.refillAt := by
  unfold State.count; dsimp only; repeat' split
  all_goals rfl
@[simp] theorem State.count_ecl (s : State) (b i n : Nat) : (s.count b i n).ecl = s.ecl := by
  unfold State.count; dsimp only; repeat' split
  all_goals rfl
@[simp] theorem State.count_lsram (s : State) (b i n : Nat) : (s.count b i n).lsram = s.lsram := by
  unfold State.count; dsimp only; repeat' split
  all_goals rfl
@[simp] theorem State.count_lsramBad (s : State) (b i n : Nat) : (s.count b i n).lsramBad = s.lsramBad := by
  unfold State.count; dsimp only; repeat' split
  all_goals rfl
@[simp] theorem State.count_ctrWas (s : State) (b i n : Nat) : (s.count b i n).ctrWas = s.ctrWas := by
  unfold State.count; dsimp only; repeat' split
  all_goals rfl
@[simp] theorem State.count_ctrClr (s : State) (b i n : Nat) : (s.count b i n).ctrClr = s.ctrClr := by
  unfold State.count; dsimp only; repeat' split
  all_goals rfl
@[simp] theorem State.count_wakePin (s : State) (b i n : Nat) : (s.count b i n).wakePin = s.wakePin := by
  unfold State.count; dsimp only; repeat' split
  all_goals rfl
@[simp] theorem State.count_dom (s : State) (b i n : Nat) : (s.count b i n).dom = s.dom := by
  unfold State.count; dsimp only; repeat' split
  all_goals rfl
@[simp] theorem State.count_sigs (s : State) (b i n : Nat) : (s.count b i n).sigs = s.sigs := by
  unfold State.count; dsimp only; repeat' split
  all_goals rfl
@[simp] theorem State.count_slc (s : State) (b i n : Nat) : (s.count b i n).slc = s.slc := by
  unfold State.count; dsimp only; repeat' split
  all_goals rfl
@[simp] theorem State.count_freeze (s : State) (b i n : Nat) : (s.count b i n).freeze = s.freeze := by
  unfold State.count; dsimp only; repeat' split
  all_goals rfl
@[simp] theorem State.count_bw (s : State) (b i n : Nat) : (s.count b i n).bw = s.bw := by
  unfold State.count; dsimp only; repeat' split
  all_goals rfl
@[simp] theorem State.count_probe (s : State) (b i n : Nat) : (s.count b i n).probe = s.probe := by
  unfold State.count; dsimp only; repeat' split
  all_goals rfl
@[simp] theorem State.count_free (s : State) (b i n : Nat) : (s.count b i n).free = s.free := by
  unfold State.count; dsimp only; repeat' split
  all_goals rfl

/-! ### `State.countSlice` changes only `ctr`, `regs`, `cyc`. -/

@[simp] theorem State.countSlice_pending (s : State) (sl i n : Nat) : (s.countSlice sl i n).pending = s.pending := by simp [State.countSlice]
@[simp] theorem State.countSlice_tick (s : State) (sl i n : Nat) : (s.countSlice sl i n).tick = s.tick := by simp [State.countSlice]
@[simp] theorem State.countSlice_frst (s : State) (sl i n : Nat) : (s.countSlice sl i n).frst = s.frst := by simp [State.countSlice]
@[simp] theorem State.countSlice_started (s : State) (sl i n : Nat) : (s.countSlice sl i n).started = s.started := by simp [State.countSlice]
@[simp] theorem State.countSlice_prim (s : State) (sl i n : Nat) : (s.countSlice sl i n).prim = s.prim := by simp [State.countSlice]
@[simp] theorem State.countSlice_haltConds (s : State) (sl i n : Nat) : (s.countSlice sl i n).haltConds = s.haltConds := by simp [State.countSlice]
@[simp] theorem State.countSlice_fallback (s : State) (sl i n : Nat) : (s.countSlice sl i n).fallback = s.fallback := by simp [State.countSlice]
@[simp] theorem State.countSlice_drainPend (s : State) (sl i n : Nat) : (s.countSlice sl i n).drainPend = s.drainPend := by simp [State.countSlice]
@[simp] theorem State.countSlice_drainAt (s : State) (sl i n : Nat) : (s.countSlice sl i n).drainAt = s.drainAt := by simp [State.countSlice]
@[simp] theorem State.countSlice_pdrec (s : State) (sl i n : Nat) : (s.countSlice sl i n).pdrec = s.pdrec := by simp [State.countSlice]
@[simp] theorem State.countSlice_modeWas (s : State) (sl i n : Nat) : (s.countSlice sl i n).modeWas = s.modeWas := by simp [State.countSlice]
@[simp] theorem State.countSlice_quietWas (s : State) (sl i n : Nat) : (s.countSlice sl i n).quietWas = s.quietWas := by simp [State.countSlice]
@[simp] theorem State.countSlice_shadows (s : State) (sl i n : Nat) : (s.countSlice sl i n).shadows = s.shadows := by simp [State.countSlice]
@[simp] theorem State.countSlice_tabs (s : State) (sl i n : Nat) : (s.countSlice sl i n).tabs = s.tabs := by simp [State.countSlice]
@[simp] theorem State.countSlice_fuses (s : State) (sl i n : Nat) : (s.countSlice sl i n).fuses = s.fuses := by simp [State.countSlice]
@[simp] theorem State.countSlice_ownEp (s : State) (sl i n : Nat) : (s.countSlice sl i n).ownEp = s.ownEp := by simp [State.countSlice]
@[simp] theorem State.countSlice_tim (s : State) (sl i n : Nat) : (s.countSlice sl i n).tim = s.tim := by simp [State.countSlice]
@[simp] theorem State.countSlice_fc (s : State) (sl i n : Nat) : (s.countSlice sl i n).fc = s.fc := by simp [State.countSlice]
@[simp] theorem State.countSlice_prg (s : State) (sl i n : Nat) : (s.countSlice sl i n).prg = s.prg := by simp [State.countSlice]
@[simp] theorem State.countSlice_epo (s : State) (sl i n : Nat) : (s.countSlice sl i n).epo = s.epo := by simp [State.countSlice]
@[simp] theorem State.countSlice_hub (s : State) (sl i n : Nat) : (s.countSlice sl i n).hub = s.hub := by simp [State.countSlice]
@[simp] theorem State.countSlice_rkCopy (s : State) (sl i n : Nat) : (s.countSlice sl i n).rkCopy = s.rkCopy := by simp [State.countSlice]
@[simp] theorem State.countSlice_rbuf (s : State) (sl i n : Nat) : (s.countSlice sl i n).rbuf = s.rbuf := by simp [State.countSlice]
@[simp] theorem State.countSlice_cred (s : State) (sl i n : Nat) : (s.countSlice sl i n).cred = s.cred := by simp [State.countSlice]
@[simp] theorem State.countSlice_arbs (s : State) (sl i n : Nat) : (s.countSlice sl i n).arbs = s.arbs := by simp [State.countSlice]
@[simp] theorem State.countSlice_ni (s : State) (sl i n : Nat) : (s.countSlice sl i n).ni = s.ni := by simp [State.countSlice]
@[simp] theorem State.countSlice_saf (s : State) (sl i n : Nat) : (s.countSlice sl i n).saf = s.saf := by simp [State.countSlice]
@[simp] theorem State.countSlice_home (s : State) (sl i n : Nat) : (s.countSlice sl i n).home = s.home := by simp [State.countSlice]
@[simp] theorem State.countSlice_dir (s : State) (sl i n : Nat) : (s.countSlice sl i n).dir = s.dir := by simp [State.countSlice]
@[simp] theorem State.countSlice_plru (s : State) (sl i n : Nat) : (s.countSlice sl i n).plru = s.plru := by simp [State.countSlice]
@[simp] theorem State.countSlice_pred (s : State) (sl i n : Nat) : (s.countSlice sl i n).pred = s.pred := by simp [State.countSlice]
@[simp] theorem State.countSlice_cache (s : State) (sl i n : Nat) : (s.countSlice sl i n).cache = s.cache := by simp [State.countSlice]
@[simp] theorem State.countSlice_recalls (s : State) (sl i n : Nat) : (s.countSlice sl i n).recalls = s.recalls := by simp [State.countSlice]
@[simp] theorem State.countSlice_sram (s : State) (sl i n : Nat) : (s.countSlice sl i n).sram = s.sram := by simp [State.countSlice]
@[simp] theorem State.countSlice_sramBad (s : State) (sl i n : Nat) : (s.countSlice sl i n).sramBad = s.sramBad := by simp [State.countSlice]
@[simp] theorem State.countSlice_bank (s : State) (sl i n : Nat) : (s.countSlice sl i n).bank = s.bank := by simp [State.countSlice]
@[simp] theorem State.countSlice_loc (s : State) (sl i n : Nat) : (s.countSlice sl i n).loc = s.loc := by simp [State.countSlice]
@[simp] theorem State.countSlice_que (s : State) (sl i n : Nat) : (s.countSlice sl i n).que = s.que := by simp [State.countSlice]
@[simp] theorem State.countSlice_qm (s : State) (sl i n : Nat) : (s.countSlice sl i n).qm = s.qm := by simp [State.countSlice]
@[simp] theorem State.countSlice_refillAt (s : State) (sl i n : Nat) : (s.countSlice sl i n).refillAt = s.refillAt := by simp [State.countSlice]
@[simp] theorem State.countSlice_ecl (s : State) (sl i n : Nat) : (s.countSlice sl i n).ecl = s.ecl := by simp [State.countSlice]
@[simp] theorem State.countSlice_lsram (s : State) (sl i n : Nat) : (s.countSlice sl i n).lsram = s.lsram := by simp [State.countSlice]
@[simp] theorem State.countSlice_lsramBad (s : State) (sl i n : Nat) : (s.countSlice sl i n).lsramBad = s.lsramBad := by simp [State.countSlice]
@[simp] theorem State.countSlice_ctrWas (s : State) (sl i n : Nat) : (s.countSlice sl i n).ctrWas = s.ctrWas := by simp [State.countSlice]
@[simp] theorem State.countSlice_ctrClr (s : State) (sl i n : Nat) : (s.countSlice sl i n).ctrClr = s.ctrClr := by simp [State.countSlice]
@[simp] theorem State.countSlice_wakePin (s : State) (sl i n : Nat) : (s.countSlice sl i n).wakePin = s.wakePin := by simp [State.countSlice]
@[simp] theorem State.countSlice_dom (s : State) (sl i n : Nat) : (s.countSlice sl i n).dom = s.dom := by simp [State.countSlice]
@[simp] theorem State.countSlice_sigs (s : State) (sl i n : Nat) : (s.countSlice sl i n).sigs = s.sigs := by simp [State.countSlice]
@[simp] theorem State.countSlice_slc (s : State) (sl i n : Nat) : (s.countSlice sl i n).slc = s.slc := by simp [State.countSlice]
@[simp] theorem State.countSlice_freeze (s : State) (sl i n : Nat) : (s.countSlice sl i n).freeze = s.freeze := by simp [State.countSlice]
@[simp] theorem State.countSlice_bw (s : State) (sl i n : Nat) : (s.countSlice sl i n).bw = s.bw := by simp [State.countSlice]
@[simp] theorem State.countSlice_probe (s : State) (sl i n : Nat) : (s.countSlice sl i n).probe = s.probe := by simp [State.countSlice]
@[simp] theorem State.countSlice_free (s : State) (sl i n : Nat) : (s.countSlice sl i n).free = s.free := by simp [State.countSlice]

/-! ### `State.countRtr` changes only `ctr`, `regs`, `cyc`. -/

@[simp] theorem State.countRtr_pending (s : State) (n : Nat) (x : Net) (j : Nat) : (s.countRtr n x j).pending = s.pending := by simp [State.countRtr]
@[simp] theorem State.countRtr_tick (s : State) (n : Nat) (x : Net) (j : Nat) : (s.countRtr n x j).tick = s.tick := by simp [State.countRtr]
@[simp] theorem State.countRtr_frst (s : State) (n : Nat) (x : Net) (j : Nat) : (s.countRtr n x j).frst = s.frst := by simp [State.countRtr]
@[simp] theorem State.countRtr_started (s : State) (n : Nat) (x : Net) (j : Nat) : (s.countRtr n x j).started = s.started := by simp [State.countRtr]
@[simp] theorem State.countRtr_prim (s : State) (n : Nat) (x : Net) (j : Nat) : (s.countRtr n x j).prim = s.prim := by simp [State.countRtr]
@[simp] theorem State.countRtr_haltConds (s : State) (n : Nat) (x : Net) (j : Nat) : (s.countRtr n x j).haltConds = s.haltConds := by simp [State.countRtr]
@[simp] theorem State.countRtr_fallback (s : State) (n : Nat) (x : Net) (j : Nat) : (s.countRtr n x j).fallback = s.fallback := by simp [State.countRtr]
@[simp] theorem State.countRtr_drainPend (s : State) (n : Nat) (x : Net) (j : Nat) : (s.countRtr n x j).drainPend = s.drainPend := by simp [State.countRtr]
@[simp] theorem State.countRtr_drainAt (s : State) (n : Nat) (x : Net) (j : Nat) : (s.countRtr n x j).drainAt = s.drainAt := by simp [State.countRtr]
@[simp] theorem State.countRtr_pdrec (s : State) (n : Nat) (x : Net) (j : Nat) : (s.countRtr n x j).pdrec = s.pdrec := by simp [State.countRtr]
@[simp] theorem State.countRtr_modeWas (s : State) (n : Nat) (x : Net) (j : Nat) : (s.countRtr n x j).modeWas = s.modeWas := by simp [State.countRtr]
@[simp] theorem State.countRtr_quietWas (s : State) (n : Nat) (x : Net) (j : Nat) : (s.countRtr n x j).quietWas = s.quietWas := by simp [State.countRtr]
@[simp] theorem State.countRtr_shadows (s : State) (n : Nat) (x : Net) (j : Nat) : (s.countRtr n x j).shadows = s.shadows := by simp [State.countRtr]
@[simp] theorem State.countRtr_tabs (s : State) (n : Nat) (x : Net) (j : Nat) : (s.countRtr n x j).tabs = s.tabs := by simp [State.countRtr]
@[simp] theorem State.countRtr_fuses (s : State) (n : Nat) (x : Net) (j : Nat) : (s.countRtr n x j).fuses = s.fuses := by simp [State.countRtr]
@[simp] theorem State.countRtr_ownEp (s : State) (n : Nat) (x : Net) (j : Nat) : (s.countRtr n x j).ownEp = s.ownEp := by simp [State.countRtr]
@[simp] theorem State.countRtr_tim (s : State) (n : Nat) (x : Net) (j : Nat) : (s.countRtr n x j).tim = s.tim := by simp [State.countRtr]
@[simp] theorem State.countRtr_fc (s : State) (n : Nat) (x : Net) (j : Nat) : (s.countRtr n x j).fc = s.fc := by simp [State.countRtr]
@[simp] theorem State.countRtr_prg (s : State) (n : Nat) (x : Net) (j : Nat) : (s.countRtr n x j).prg = s.prg := by simp [State.countRtr]
@[simp] theorem State.countRtr_epo (s : State) (n : Nat) (x : Net) (j : Nat) : (s.countRtr n x j).epo = s.epo := by simp [State.countRtr]
@[simp] theorem State.countRtr_hub (s : State) (n : Nat) (x : Net) (j : Nat) : (s.countRtr n x j).hub = s.hub := by simp [State.countRtr]
@[simp] theorem State.countRtr_rkCopy (s : State) (n : Nat) (x : Net) (j : Nat) : (s.countRtr n x j).rkCopy = s.rkCopy := by simp [State.countRtr]
@[simp] theorem State.countRtr_rbuf (s : State) (n : Nat) (x : Net) (j : Nat) : (s.countRtr n x j).rbuf = s.rbuf := by simp [State.countRtr]
@[simp] theorem State.countRtr_cred (s : State) (n : Nat) (x : Net) (j : Nat) : (s.countRtr n x j).cred = s.cred := by simp [State.countRtr]
@[simp] theorem State.countRtr_arbs (s : State) (n : Nat) (x : Net) (j : Nat) : (s.countRtr n x j).arbs = s.arbs := by simp [State.countRtr]
@[simp] theorem State.countRtr_ni (s : State) (n : Nat) (x : Net) (j : Nat) : (s.countRtr n x j).ni = s.ni := by simp [State.countRtr]
@[simp] theorem State.countRtr_saf (s : State) (n : Nat) (x : Net) (j : Nat) : (s.countRtr n x j).saf = s.saf := by simp [State.countRtr]
@[simp] theorem State.countRtr_home (s : State) (n : Nat) (x : Net) (j : Nat) : (s.countRtr n x j).home = s.home := by simp [State.countRtr]
@[simp] theorem State.countRtr_dir (s : State) (n : Nat) (x : Net) (j : Nat) : (s.countRtr n x j).dir = s.dir := by simp [State.countRtr]
@[simp] theorem State.countRtr_plru (s : State) (n : Nat) (x : Net) (j : Nat) : (s.countRtr n x j).plru = s.plru := by simp [State.countRtr]
@[simp] theorem State.countRtr_pred (s : State) (n : Nat) (x : Net) (j : Nat) : (s.countRtr n x j).pred = s.pred := by simp [State.countRtr]
@[simp] theorem State.countRtr_cache (s : State) (n : Nat) (x : Net) (j : Nat) : (s.countRtr n x j).cache = s.cache := by simp [State.countRtr]
@[simp] theorem State.countRtr_recalls (s : State) (n : Nat) (x : Net) (j : Nat) : (s.countRtr n x j).recalls = s.recalls := by simp [State.countRtr]
@[simp] theorem State.countRtr_sram (s : State) (n : Nat) (x : Net) (j : Nat) : (s.countRtr n x j).sram = s.sram := by simp [State.countRtr]
@[simp] theorem State.countRtr_sramBad (s : State) (n : Nat) (x : Net) (j : Nat) : (s.countRtr n x j).sramBad = s.sramBad := by simp [State.countRtr]
@[simp] theorem State.countRtr_bank (s : State) (n : Nat) (x : Net) (j : Nat) : (s.countRtr n x j).bank = s.bank := by simp [State.countRtr]
@[simp] theorem State.countRtr_loc (s : State) (n : Nat) (x : Net) (j : Nat) : (s.countRtr n x j).loc = s.loc := by simp [State.countRtr]
@[simp] theorem State.countRtr_que (s : State) (n : Nat) (x : Net) (j : Nat) : (s.countRtr n x j).que = s.que := by simp [State.countRtr]
@[simp] theorem State.countRtr_qm (s : State) (n : Nat) (x : Net) (j : Nat) : (s.countRtr n x j).qm = s.qm := by simp [State.countRtr]
@[simp] theorem State.countRtr_refillAt (s : State) (n : Nat) (x : Net) (j : Nat) : (s.countRtr n x j).refillAt = s.refillAt := by simp [State.countRtr]
@[simp] theorem State.countRtr_ecl (s : State) (n : Nat) (x : Net) (j : Nat) : (s.countRtr n x j).ecl = s.ecl := by simp [State.countRtr]
@[simp] theorem State.countRtr_lsram (s : State) (n : Nat) (x : Net) (j : Nat) : (s.countRtr n x j).lsram = s.lsram := by simp [State.countRtr]
@[simp] theorem State.countRtr_lsramBad (s : State) (n : Nat) (x : Net) (j : Nat) : (s.countRtr n x j).lsramBad = s.lsramBad := by simp [State.countRtr]
@[simp] theorem State.countRtr_ctrWas (s : State) (n : Nat) (x : Net) (j : Nat) : (s.countRtr n x j).ctrWas = s.ctrWas := by simp [State.countRtr]
@[simp] theorem State.countRtr_ctrClr (s : State) (n : Nat) (x : Net) (j : Nat) : (s.countRtr n x j).ctrClr = s.ctrClr := by simp [State.countRtr]
@[simp] theorem State.countRtr_wakePin (s : State) (n : Nat) (x : Net) (j : Nat) : (s.countRtr n x j).wakePin = s.wakePin := by simp [State.countRtr]
@[simp] theorem State.countRtr_dom (s : State) (n : Nat) (x : Net) (j : Nat) : (s.countRtr n x j).dom = s.dom := by simp [State.countRtr]
@[simp] theorem State.countRtr_sigs (s : State) (n : Nat) (x : Net) (j : Nat) : (s.countRtr n x j).sigs = s.sigs := by simp [State.countRtr]
@[simp] theorem State.countRtr_slc (s : State) (n : Nat) (x : Net) (j : Nat) : (s.countRtr n x j).slc = s.slc := by simp [State.countRtr]
@[simp] theorem State.countRtr_freeze (s : State) (n : Nat) (x : Net) (j : Nat) : (s.countRtr n x j).freeze = s.freeze := by simp [State.countRtr]
@[simp] theorem State.countRtr_bw (s : State) (n : Nat) (x : Net) (j : Nat) : (s.countRtr n x j).bw = s.bw := by simp [State.countRtr]
@[simp] theorem State.countRtr_probe (s : State) (n : Nat) (x : Net) (j : Nat) : (s.countRtr n x j).probe = s.probe := by simp [State.countRtr]
@[simp] theorem State.countRtr_free (s : State) (n : Nat) (x : Net) (j : Nat) : (s.countRtr n x j).free = s.free := by simp [State.countRtr]

/-! ### `State.countFloor` changes only `bw`. -/

@[simp] theorem State.countFloor_pending (s : State) (f : Nat) (p : Pkt) : (s.countFloor f p).pending = s.pending := by unfold State.countFloor; split <;> rfl
@[simp] theorem State.countFloor_tick (s : State) (f : Nat) (p : Pkt) : (s.countFloor f p).tick = s.tick := by unfold State.countFloor; split <;> rfl
@[simp] theorem State.countFloor_frst (s : State) (f : Nat) (p : Pkt) : (s.countFloor f p).frst = s.frst := by unfold State.countFloor; split <;> rfl
@[simp] theorem State.countFloor_started (s : State) (f : Nat) (p : Pkt) : (s.countFloor f p).started = s.started := by unfold State.countFloor; split <;> rfl
@[simp] theorem State.countFloor_prim (s : State) (f : Nat) (p : Pkt) : (s.countFloor f p).prim = s.prim := by unfold State.countFloor; split <;> rfl
@[simp] theorem State.countFloor_haltConds (s : State) (f : Nat) (p : Pkt) : (s.countFloor f p).haltConds = s.haltConds := by unfold State.countFloor; split <;> rfl
@[simp] theorem State.countFloor_fallback (s : State) (f : Nat) (p : Pkt) : (s.countFloor f p).fallback = s.fallback := by unfold State.countFloor; split <;> rfl
@[simp] theorem State.countFloor_drainPend (s : State) (f : Nat) (p : Pkt) : (s.countFloor f p).drainPend = s.drainPend := by unfold State.countFloor; split <;> rfl
@[simp] theorem State.countFloor_drainAt (s : State) (f : Nat) (p : Pkt) : (s.countFloor f p).drainAt = s.drainAt := by unfold State.countFloor; split <;> rfl
@[simp] theorem State.countFloor_pdrec (s : State) (f : Nat) (p : Pkt) : (s.countFloor f p).pdrec = s.pdrec := by unfold State.countFloor; split <;> rfl
@[simp] theorem State.countFloor_regs (s : State) (f : Nat) (p : Pkt) : (s.countFloor f p).regs = s.regs := by unfold State.countFloor; split <;> rfl
@[simp] theorem State.countFloor_cyc (s : State) (f : Nat) (p : Pkt) : (s.countFloor f p).cyc = s.cyc := by unfold State.countFloor; split <;> rfl
@[simp] theorem State.countFloor_modeWas (s : State) (f : Nat) (p : Pkt) : (s.countFloor f p).modeWas = s.modeWas := by unfold State.countFloor; split <;> rfl
@[simp] theorem State.countFloor_quietWas (s : State) (f : Nat) (p : Pkt) : (s.countFloor f p).quietWas = s.quietWas := by unfold State.countFloor; split <;> rfl
@[simp] theorem State.countFloor_shadows (s : State) (f : Nat) (p : Pkt) : (s.countFloor f p).shadows = s.shadows := by unfold State.countFloor; split <;> rfl
@[simp] theorem State.countFloor_tabs (s : State) (f : Nat) (p : Pkt) : (s.countFloor f p).tabs = s.tabs := by unfold State.countFloor; split <;> rfl
@[simp] theorem State.countFloor_fuses (s : State) (f : Nat) (p : Pkt) : (s.countFloor f p).fuses = s.fuses := by unfold State.countFloor; split <;> rfl
@[simp] theorem State.countFloor_ownEp (s : State) (f : Nat) (p : Pkt) : (s.countFloor f p).ownEp = s.ownEp := by unfold State.countFloor; split <;> rfl
@[simp] theorem State.countFloor_tim (s : State) (f : Nat) (p : Pkt) : (s.countFloor f p).tim = s.tim := by unfold State.countFloor; split <;> rfl
@[simp] theorem State.countFloor_fc (s : State) (f : Nat) (p : Pkt) : (s.countFloor f p).fc = s.fc := by unfold State.countFloor; split <;> rfl
@[simp] theorem State.countFloor_prg (s : State) (f : Nat) (p : Pkt) : (s.countFloor f p).prg = s.prg := by unfold State.countFloor; split <;> rfl
@[simp] theorem State.countFloor_epo (s : State) (f : Nat) (p : Pkt) : (s.countFloor f p).epo = s.epo := by unfold State.countFloor; split <;> rfl
@[simp] theorem State.countFloor_hub (s : State) (f : Nat) (p : Pkt) : (s.countFloor f p).hub = s.hub := by unfold State.countFloor; split <;> rfl
@[simp] theorem State.countFloor_rkCopy (s : State) (f : Nat) (p : Pkt) : (s.countFloor f p).rkCopy = s.rkCopy := by unfold State.countFloor; split <;> rfl
@[simp] theorem State.countFloor_rbuf (s : State) (f : Nat) (p : Pkt) : (s.countFloor f p).rbuf = s.rbuf := by unfold State.countFloor; split <;> rfl
@[simp] theorem State.countFloor_cred (s : State) (f : Nat) (p : Pkt) : (s.countFloor f p).cred = s.cred := by unfold State.countFloor; split <;> rfl
@[simp] theorem State.countFloor_arbs (s : State) (f : Nat) (p : Pkt) : (s.countFloor f p).arbs = s.arbs := by unfold State.countFloor; split <;> rfl
@[simp] theorem State.countFloor_ni (s : State) (f : Nat) (p : Pkt) : (s.countFloor f p).ni = s.ni := by unfold State.countFloor; split <;> rfl
@[simp] theorem State.countFloor_saf (s : State) (f : Nat) (p : Pkt) : (s.countFloor f p).saf = s.saf := by unfold State.countFloor; split <;> rfl
@[simp] theorem State.countFloor_home (s : State) (f : Nat) (p : Pkt) : (s.countFloor f p).home = s.home := by unfold State.countFloor; split <;> rfl
@[simp] theorem State.countFloor_dir (s : State) (f : Nat) (p : Pkt) : (s.countFloor f p).dir = s.dir := by unfold State.countFloor; split <;> rfl
@[simp] theorem State.countFloor_plru (s : State) (f : Nat) (p : Pkt) : (s.countFloor f p).plru = s.plru := by unfold State.countFloor; split <;> rfl
@[simp] theorem State.countFloor_pred (s : State) (f : Nat) (p : Pkt) : (s.countFloor f p).pred = s.pred := by unfold State.countFloor; split <;> rfl
@[simp] theorem State.countFloor_cache (s : State) (f : Nat) (p : Pkt) : (s.countFloor f p).cache = s.cache := by unfold State.countFloor; split <;> rfl
@[simp] theorem State.countFloor_recalls (s : State) (f : Nat) (p : Pkt) : (s.countFloor f p).recalls = s.recalls := by unfold State.countFloor; split <;> rfl
@[simp] theorem State.countFloor_sram (s : State) (f : Nat) (p : Pkt) : (s.countFloor f p).sram = s.sram := by unfold State.countFloor; split <;> rfl
@[simp] theorem State.countFloor_sramBad (s : State) (f : Nat) (p : Pkt) : (s.countFloor f p).sramBad = s.sramBad := by unfold State.countFloor; split <;> rfl
@[simp] theorem State.countFloor_bank (s : State) (f : Nat) (p : Pkt) : (s.countFloor f p).bank = s.bank := by unfold State.countFloor; split <;> rfl
@[simp] theorem State.countFloor_loc (s : State) (f : Nat) (p : Pkt) : (s.countFloor f p).loc = s.loc := by unfold State.countFloor; split <;> rfl
@[simp] theorem State.countFloor_que (s : State) (f : Nat) (p : Pkt) : (s.countFloor f p).que = s.que := by unfold State.countFloor; split <;> rfl
@[simp] theorem State.countFloor_qm (s : State) (f : Nat) (p : Pkt) : (s.countFloor f p).qm = s.qm := by unfold State.countFloor; split <;> rfl
@[simp] theorem State.countFloor_refillAt (s : State) (f : Nat) (p : Pkt) : (s.countFloor f p).refillAt = s.refillAt := by unfold State.countFloor; split <;> rfl
@[simp] theorem State.countFloor_ecl (s : State) (f : Nat) (p : Pkt) : (s.countFloor f p).ecl = s.ecl := by unfold State.countFloor; split <;> rfl
@[simp] theorem State.countFloor_lsram (s : State) (f : Nat) (p : Pkt) : (s.countFloor f p).lsram = s.lsram := by unfold State.countFloor; split <;> rfl
@[simp] theorem State.countFloor_lsramBad (s : State) (f : Nat) (p : Pkt) : (s.countFloor f p).lsramBad = s.lsramBad := by unfold State.countFloor; split <;> rfl
@[simp] theorem State.countFloor_ctr (s : State) (f : Nat) (p : Pkt) : (s.countFloor f p).ctr = s.ctr := by unfold State.countFloor; split <;> rfl
@[simp] theorem State.countFloor_ctrWas (s : State) (f : Nat) (p : Pkt) : (s.countFloor f p).ctrWas = s.ctrWas := by unfold State.countFloor; split <;> rfl
@[simp] theorem State.countFloor_ctrClr (s : State) (f : Nat) (p : Pkt) : (s.countFloor f p).ctrClr = s.ctrClr := by unfold State.countFloor; split <;> rfl
@[simp] theorem State.countFloor_wakePin (s : State) (f : Nat) (p : Pkt) : (s.countFloor f p).wakePin = s.wakePin := by unfold State.countFloor; split <;> rfl
@[simp] theorem State.countFloor_dom (s : State) (f : Nat) (p : Pkt) : (s.countFloor f p).dom = s.dom := by unfold State.countFloor; split <;> rfl
@[simp] theorem State.countFloor_sigs (s : State) (f : Nat) (p : Pkt) : (s.countFloor f p).sigs = s.sigs := by unfold State.countFloor; split <;> rfl
@[simp] theorem State.countFloor_slc (s : State) (f : Nat) (p : Pkt) : (s.countFloor f p).slc = s.slc := by unfold State.countFloor; split <;> rfl
@[simp] theorem State.countFloor_freeze (s : State) (f : Nat) (p : Pkt) : (s.countFloor f p).freeze = s.freeze := by unfold State.countFloor; split <;> rfl
@[simp] theorem State.countFloor_probe (s : State) (f : Nat) (p : Pkt) : (s.countFloor f p).probe = s.probe := by unfold State.countFloor; split <;> rfl
@[simp] theorem State.countFloor_free (s : State) (f : Nat) (p : Pkt) : (s.countFloor f p).free = s.free := by unfold State.countFloor; split <;> rfl

/-! ### `State.pushNow` changes only `ni`, `ctr`, `regs`, `cyc`, `bw`. -/

@[simp] theorem State.pushNow_pending (s : State) (f : Nat) (p : Pkt) : (s.pushNow f p).pending = s.pending := by
  unfold State.pushNow; dsimp only; split <;> simp
@[simp] theorem State.pushNow_tick (s : State) (f : Nat) (p : Pkt) : (s.pushNow f p).tick = s.tick := by
  unfold State.pushNow; dsimp only; split <;> simp
@[simp] theorem State.pushNow_frst (s : State) (f : Nat) (p : Pkt) : (s.pushNow f p).frst = s.frst := by
  unfold State.pushNow; dsimp only; split <;> simp
@[simp] theorem State.pushNow_started (s : State) (f : Nat) (p : Pkt) : (s.pushNow f p).started = s.started := by
  unfold State.pushNow; dsimp only; split <;> simp
@[simp] theorem State.pushNow_prim (s : State) (f : Nat) (p : Pkt) : (s.pushNow f p).prim = s.prim := by
  unfold State.pushNow; dsimp only; split <;> simp
@[simp] theorem State.pushNow_haltConds (s : State) (f : Nat) (p : Pkt) : (s.pushNow f p).haltConds = s.haltConds := by
  unfold State.pushNow; dsimp only; split <;> simp
@[simp] theorem State.pushNow_fallback (s : State) (f : Nat) (p : Pkt) : (s.pushNow f p).fallback = s.fallback := by
  unfold State.pushNow; dsimp only; split <;> simp
@[simp] theorem State.pushNow_drainPend (s : State) (f : Nat) (p : Pkt) : (s.pushNow f p).drainPend = s.drainPend := by
  unfold State.pushNow; dsimp only; split <;> simp
@[simp] theorem State.pushNow_drainAt (s : State) (f : Nat) (p : Pkt) : (s.pushNow f p).drainAt = s.drainAt := by
  unfold State.pushNow; dsimp only; split <;> simp
@[simp] theorem State.pushNow_pdrec (s : State) (f : Nat) (p : Pkt) : (s.pushNow f p).pdrec = s.pdrec := by
  unfold State.pushNow; dsimp only; split <;> simp
@[simp] theorem State.pushNow_modeWas (s : State) (f : Nat) (p : Pkt) : (s.pushNow f p).modeWas = s.modeWas := by
  unfold State.pushNow; dsimp only; split <;> simp
@[simp] theorem State.pushNow_quietWas (s : State) (f : Nat) (p : Pkt) : (s.pushNow f p).quietWas = s.quietWas := by
  unfold State.pushNow; dsimp only; split <;> simp
@[simp] theorem State.pushNow_shadows (s : State) (f : Nat) (p : Pkt) : (s.pushNow f p).shadows = s.shadows := by
  unfold State.pushNow; dsimp only; split <;> simp
@[simp] theorem State.pushNow_tabs (s : State) (f : Nat) (p : Pkt) : (s.pushNow f p).tabs = s.tabs := by
  unfold State.pushNow; dsimp only; split <;> simp
@[simp] theorem State.pushNow_fuses (s : State) (f : Nat) (p : Pkt) : (s.pushNow f p).fuses = s.fuses := by
  unfold State.pushNow; dsimp only; split <;> simp
@[simp] theorem State.pushNow_ownEp (s : State) (f : Nat) (p : Pkt) : (s.pushNow f p).ownEp = s.ownEp := by
  unfold State.pushNow; dsimp only; split <;> simp
@[simp] theorem State.pushNow_tim (s : State) (f : Nat) (p : Pkt) : (s.pushNow f p).tim = s.tim := by
  unfold State.pushNow; dsimp only; split <;> simp
@[simp] theorem State.pushNow_fc (s : State) (f : Nat) (p : Pkt) : (s.pushNow f p).fc = s.fc := by
  unfold State.pushNow; dsimp only; split <;> simp
@[simp] theorem State.pushNow_prg (s : State) (f : Nat) (p : Pkt) : (s.pushNow f p).prg = s.prg := by
  unfold State.pushNow; dsimp only; split <;> simp
@[simp] theorem State.pushNow_epo (s : State) (f : Nat) (p : Pkt) : (s.pushNow f p).epo = s.epo := by
  unfold State.pushNow; dsimp only; split <;> simp
@[simp] theorem State.pushNow_hub (s : State) (f : Nat) (p : Pkt) : (s.pushNow f p).hub = s.hub := by
  unfold State.pushNow; dsimp only; split <;> simp
@[simp] theorem State.pushNow_rkCopy (s : State) (f : Nat) (p : Pkt) : (s.pushNow f p).rkCopy = s.rkCopy := by
  unfold State.pushNow; dsimp only; split <;> simp
@[simp] theorem State.pushNow_rbuf (s : State) (f : Nat) (p : Pkt) : (s.pushNow f p).rbuf = s.rbuf := by
  unfold State.pushNow; dsimp only; split <;> simp
@[simp] theorem State.pushNow_cred (s : State) (f : Nat) (p : Pkt) : (s.pushNow f p).cred = s.cred := by
  unfold State.pushNow; dsimp only; split <;> simp
@[simp] theorem State.pushNow_arbs (s : State) (f : Nat) (p : Pkt) : (s.pushNow f p).arbs = s.arbs := by
  unfold State.pushNow; dsimp only; split <;> simp
@[simp] theorem State.pushNow_saf (s : State) (f : Nat) (p : Pkt) : (s.pushNow f p).saf = s.saf := by
  unfold State.pushNow; dsimp only; split <;> simp
@[simp] theorem State.pushNow_home (s : State) (f : Nat) (p : Pkt) : (s.pushNow f p).home = s.home := by
  unfold State.pushNow; dsimp only; split <;> simp
@[simp] theorem State.pushNow_dir (s : State) (f : Nat) (p : Pkt) : (s.pushNow f p).dir = s.dir := by
  unfold State.pushNow; dsimp only; split <;> simp
@[simp] theorem State.pushNow_plru (s : State) (f : Nat) (p : Pkt) : (s.pushNow f p).plru = s.plru := by
  unfold State.pushNow; dsimp only; split <;> simp
@[simp] theorem State.pushNow_pred (s : State) (f : Nat) (p : Pkt) : (s.pushNow f p).pred = s.pred := by
  unfold State.pushNow; dsimp only; split <;> simp
@[simp] theorem State.pushNow_cache (s : State) (f : Nat) (p : Pkt) : (s.pushNow f p).cache = s.cache := by
  unfold State.pushNow; dsimp only; split <;> simp
@[simp] theorem State.pushNow_recalls (s : State) (f : Nat) (p : Pkt) : (s.pushNow f p).recalls = s.recalls := by
  unfold State.pushNow; dsimp only; split <;> simp
@[simp] theorem State.pushNow_sram (s : State) (f : Nat) (p : Pkt) : (s.pushNow f p).sram = s.sram := by
  unfold State.pushNow; dsimp only; split <;> simp
@[simp] theorem State.pushNow_sramBad (s : State) (f : Nat) (p : Pkt) : (s.pushNow f p).sramBad = s.sramBad := by
  unfold State.pushNow; dsimp only; split <;> simp
@[simp] theorem State.pushNow_bank (s : State) (f : Nat) (p : Pkt) : (s.pushNow f p).bank = s.bank := by
  unfold State.pushNow; dsimp only; split <;> simp
@[simp] theorem State.pushNow_loc (s : State) (f : Nat) (p : Pkt) : (s.pushNow f p).loc = s.loc := by
  unfold State.pushNow; dsimp only; split <;> simp
@[simp] theorem State.pushNow_que (s : State) (f : Nat) (p : Pkt) : (s.pushNow f p).que = s.que := by
  unfold State.pushNow; dsimp only; split <;> simp
@[simp] theorem State.pushNow_qm (s : State) (f : Nat) (p : Pkt) : (s.pushNow f p).qm = s.qm := by
  unfold State.pushNow; dsimp only; split <;> simp
@[simp] theorem State.pushNow_refillAt (s : State) (f : Nat) (p : Pkt) : (s.pushNow f p).refillAt = s.refillAt := by
  unfold State.pushNow; dsimp only; split <;> simp
@[simp] theorem State.pushNow_ecl (s : State) (f : Nat) (p : Pkt) : (s.pushNow f p).ecl = s.ecl := by
  unfold State.pushNow; dsimp only; split <;> simp
@[simp] theorem State.pushNow_lsram (s : State) (f : Nat) (p : Pkt) : (s.pushNow f p).lsram = s.lsram := by
  unfold State.pushNow; dsimp only; split <;> simp
@[simp] theorem State.pushNow_lsramBad (s : State) (f : Nat) (p : Pkt) : (s.pushNow f p).lsramBad = s.lsramBad := by
  unfold State.pushNow; dsimp only; split <;> simp
@[simp] theorem State.pushNow_ctrWas (s : State) (f : Nat) (p : Pkt) : (s.pushNow f p).ctrWas = s.ctrWas := by
  unfold State.pushNow; dsimp only; split <;> simp
@[simp] theorem State.pushNow_ctrClr (s : State) (f : Nat) (p : Pkt) : (s.pushNow f p).ctrClr = s.ctrClr := by
  unfold State.pushNow; dsimp only; split <;> simp
@[simp] theorem State.pushNow_wakePin (s : State) (f : Nat) (p : Pkt) : (s.pushNow f p).wakePin = s.wakePin := by
  unfold State.pushNow; dsimp only; split <;> simp
@[simp] theorem State.pushNow_dom (s : State) (f : Nat) (p : Pkt) : (s.pushNow f p).dom = s.dom := by
  unfold State.pushNow; dsimp only; split <;> simp
@[simp] theorem State.pushNow_sigs (s : State) (f : Nat) (p : Pkt) : (s.pushNow f p).sigs = s.sigs := by
  unfold State.pushNow; dsimp only; split <;> simp
@[simp] theorem State.pushNow_slc (s : State) (f : Nat) (p : Pkt) : (s.pushNow f p).slc = s.slc := by
  unfold State.pushNow; dsimp only; split <;> simp
@[simp] theorem State.pushNow_freeze (s : State) (f : Nat) (p : Pkt) : (s.pushNow f p).freeze = s.freeze := by
  unfold State.pushNow; dsimp only; split <;> simp
@[simp] theorem State.pushNow_probe (s : State) (f : Nat) (p : Pkt) : (s.pushNow f p).probe = s.probe := by
  unfold State.pushNow; dsimp only; split <;> simp
@[simp] theorem State.pushNow_free (s : State) (f : Nat) (p : Pkt) : (s.pushNow f p).free = s.free := by
  unfold State.pushNow; dsimp only; split <;> simp

/-! ### `State.push` changes only `ni`, `ctr`, `regs`, `cyc`, `bw`. -/

@[simp] theorem State.push_pending (s : State) (f : Nat) (p : Pkt) : (s.push f p).pending = s.pending := by unfold State.push; split <;> simp
@[simp] theorem State.push_tick (s : State) (f : Nat) (p : Pkt) : (s.push f p).tick = s.tick := by unfold State.push; split <;> simp
@[simp] theorem State.push_frst (s : State) (f : Nat) (p : Pkt) : (s.push f p).frst = s.frst := by unfold State.push; split <;> simp
@[simp] theorem State.push_started (s : State) (f : Nat) (p : Pkt) : (s.push f p).started = s.started := by unfold State.push; split <;> simp
@[simp] theorem State.push_prim (s : State) (f : Nat) (p : Pkt) : (s.push f p).prim = s.prim := by unfold State.push; split <;> simp
@[simp] theorem State.push_haltConds (s : State) (f : Nat) (p : Pkt) : (s.push f p).haltConds = s.haltConds := by unfold State.push; split <;> simp
@[simp] theorem State.push_fallback (s : State) (f : Nat) (p : Pkt) : (s.push f p).fallback = s.fallback := by unfold State.push; split <;> simp
@[simp] theorem State.push_drainPend (s : State) (f : Nat) (p : Pkt) : (s.push f p).drainPend = s.drainPend := by unfold State.push; split <;> simp
@[simp] theorem State.push_drainAt (s : State) (f : Nat) (p : Pkt) : (s.push f p).drainAt = s.drainAt := by unfold State.push; split <;> simp
@[simp] theorem State.push_pdrec (s : State) (f : Nat) (p : Pkt) : (s.push f p).pdrec = s.pdrec := by unfold State.push; split <;> simp
@[simp] theorem State.push_modeWas (s : State) (f : Nat) (p : Pkt) : (s.push f p).modeWas = s.modeWas := by unfold State.push; split <;> simp
@[simp] theorem State.push_quietWas (s : State) (f : Nat) (p : Pkt) : (s.push f p).quietWas = s.quietWas := by unfold State.push; split <;> simp
@[simp] theorem State.push_shadows (s : State) (f : Nat) (p : Pkt) : (s.push f p).shadows = s.shadows := by unfold State.push; split <;> simp
@[simp] theorem State.push_tabs (s : State) (f : Nat) (p : Pkt) : (s.push f p).tabs = s.tabs := by unfold State.push; split <;> simp
@[simp] theorem State.push_fuses (s : State) (f : Nat) (p : Pkt) : (s.push f p).fuses = s.fuses := by unfold State.push; split <;> simp
@[simp] theorem State.push_ownEp (s : State) (f : Nat) (p : Pkt) : (s.push f p).ownEp = s.ownEp := by unfold State.push; split <;> simp
@[simp] theorem State.push_tim (s : State) (f : Nat) (p : Pkt) : (s.push f p).tim = s.tim := by unfold State.push; split <;> simp
@[simp] theorem State.push_fc (s : State) (f : Nat) (p : Pkt) : (s.push f p).fc = s.fc := by unfold State.push; split <;> simp
@[simp] theorem State.push_prg (s : State) (f : Nat) (p : Pkt) : (s.push f p).prg = s.prg := by unfold State.push; split <;> simp
@[simp] theorem State.push_epo (s : State) (f : Nat) (p : Pkt) : (s.push f p).epo = s.epo := by unfold State.push; split <;> simp
@[simp] theorem State.push_hub (s : State) (f : Nat) (p : Pkt) : (s.push f p).hub = s.hub := by unfold State.push; split <;> simp
@[simp] theorem State.push_rkCopy (s : State) (f : Nat) (p : Pkt) : (s.push f p).rkCopy = s.rkCopy := by unfold State.push; split <;> simp
@[simp] theorem State.push_rbuf (s : State) (f : Nat) (p : Pkt) : (s.push f p).rbuf = s.rbuf := by unfold State.push; split <;> simp
@[simp] theorem State.push_cred (s : State) (f : Nat) (p : Pkt) : (s.push f p).cred = s.cred := by unfold State.push; split <;> simp
@[simp] theorem State.push_arbs (s : State) (f : Nat) (p : Pkt) : (s.push f p).arbs = s.arbs := by unfold State.push; split <;> simp
@[simp] theorem State.push_saf (s : State) (f : Nat) (p : Pkt) : (s.push f p).saf = s.saf := by unfold State.push; split <;> simp
@[simp] theorem State.push_home (s : State) (f : Nat) (p : Pkt) : (s.push f p).home = s.home := by unfold State.push; split <;> simp
@[simp] theorem State.push_dir (s : State) (f : Nat) (p : Pkt) : (s.push f p).dir = s.dir := by unfold State.push; split <;> simp
@[simp] theorem State.push_plru (s : State) (f : Nat) (p : Pkt) : (s.push f p).plru = s.plru := by unfold State.push; split <;> simp
@[simp] theorem State.push_pred (s : State) (f : Nat) (p : Pkt) : (s.push f p).pred = s.pred := by unfold State.push; split <;> simp
@[simp] theorem State.push_cache (s : State) (f : Nat) (p : Pkt) : (s.push f p).cache = s.cache := by unfold State.push; split <;> simp
@[simp] theorem State.push_recalls (s : State) (f : Nat) (p : Pkt) : (s.push f p).recalls = s.recalls := by unfold State.push; split <;> simp
@[simp] theorem State.push_sram (s : State) (f : Nat) (p : Pkt) : (s.push f p).sram = s.sram := by unfold State.push; split <;> simp
@[simp] theorem State.push_sramBad (s : State) (f : Nat) (p : Pkt) : (s.push f p).sramBad = s.sramBad := by unfold State.push; split <;> simp
@[simp] theorem State.push_bank (s : State) (f : Nat) (p : Pkt) : (s.push f p).bank = s.bank := by unfold State.push; split <;> simp
@[simp] theorem State.push_loc (s : State) (f : Nat) (p : Pkt) : (s.push f p).loc = s.loc := by unfold State.push; split <;> simp
@[simp] theorem State.push_que (s : State) (f : Nat) (p : Pkt) : (s.push f p).que = s.que := by unfold State.push; split <;> simp
@[simp] theorem State.push_qm (s : State) (f : Nat) (p : Pkt) : (s.push f p).qm = s.qm := by unfold State.push; split <;> simp
@[simp] theorem State.push_refillAt (s : State) (f : Nat) (p : Pkt) : (s.push f p).refillAt = s.refillAt := by unfold State.push; split <;> simp
@[simp] theorem State.push_ecl (s : State) (f : Nat) (p : Pkt) : (s.push f p).ecl = s.ecl := by unfold State.push; split <;> simp
@[simp] theorem State.push_lsram (s : State) (f : Nat) (p : Pkt) : (s.push f p).lsram = s.lsram := by unfold State.push; split <;> simp
@[simp] theorem State.push_lsramBad (s : State) (f : Nat) (p : Pkt) : (s.push f p).lsramBad = s.lsramBad := by unfold State.push; split <;> simp
@[simp] theorem State.push_ctrWas (s : State) (f : Nat) (p : Pkt) : (s.push f p).ctrWas = s.ctrWas := by unfold State.push; split <;> simp
@[simp] theorem State.push_ctrClr (s : State) (f : Nat) (p : Pkt) : (s.push f p).ctrClr = s.ctrClr := by unfold State.push; split <;> simp
@[simp] theorem State.push_wakePin (s : State) (f : Nat) (p : Pkt) : (s.push f p).wakePin = s.wakePin := by unfold State.push; split <;> simp
@[simp] theorem State.push_dom (s : State) (f : Nat) (p : Pkt) : (s.push f p).dom = s.dom := by unfold State.push; split <;> simp
@[simp] theorem State.push_sigs (s : State) (f : Nat) (p : Pkt) : (s.push f p).sigs = s.sigs := by unfold State.push; split <;> simp
@[simp] theorem State.push_slc (s : State) (f : Nat) (p : Pkt) : (s.push f p).slc = s.slc := by unfold State.push; split <;> simp
@[simp] theorem State.push_freeze (s : State) (f : Nat) (p : Pkt) : (s.push f p).freeze = s.freeze := by unfold State.push; split <;> simp
@[simp] theorem State.push_probe (s : State) (f : Nat) (p : Pkt) : (s.push f p).probe = s.probe := by unfold State.push; split <;> simp
@[simp] theorem State.push_free (s : State) (f : Nat) (p : Pkt) : (s.push f p).free = s.free := by unfold State.push; split <;> simp

/-! ### `State.inject` changes only `ni`, `ctr`, `regs`, `cyc`, `bw`. -/

@[simp] theorem State.inject_pending (s : State) (f : Nat) (p : Pkt) : (s.inject f p).pending = s.pending := by simp [State.inject]
@[simp] theorem State.inject_tick (s : State) (f : Nat) (p : Pkt) : (s.inject f p).tick = s.tick := by simp [State.inject]
@[simp] theorem State.inject_frst (s : State) (f : Nat) (p : Pkt) : (s.inject f p).frst = s.frst := by simp [State.inject]
@[simp] theorem State.inject_started (s : State) (f : Nat) (p : Pkt) : (s.inject f p).started = s.started := by simp [State.inject]
@[simp] theorem State.inject_prim (s : State) (f : Nat) (p : Pkt) : (s.inject f p).prim = s.prim := by simp [State.inject]
@[simp] theorem State.inject_haltConds (s : State) (f : Nat) (p : Pkt) : (s.inject f p).haltConds = s.haltConds := by simp [State.inject]
@[simp] theorem State.inject_fallback (s : State) (f : Nat) (p : Pkt) : (s.inject f p).fallback = s.fallback := by simp [State.inject]
@[simp] theorem State.inject_drainPend (s : State) (f : Nat) (p : Pkt) : (s.inject f p).drainPend = s.drainPend := by simp [State.inject]
@[simp] theorem State.inject_drainAt (s : State) (f : Nat) (p : Pkt) : (s.inject f p).drainAt = s.drainAt := by simp [State.inject]
@[simp] theorem State.inject_pdrec (s : State) (f : Nat) (p : Pkt) : (s.inject f p).pdrec = s.pdrec := by simp [State.inject]
@[simp] theorem State.inject_modeWas (s : State) (f : Nat) (p : Pkt) : (s.inject f p).modeWas = s.modeWas := by simp [State.inject]
@[simp] theorem State.inject_quietWas (s : State) (f : Nat) (p : Pkt) : (s.inject f p).quietWas = s.quietWas := by simp [State.inject]
@[simp] theorem State.inject_shadows (s : State) (f : Nat) (p : Pkt) : (s.inject f p).shadows = s.shadows := by simp [State.inject]
@[simp] theorem State.inject_tabs (s : State) (f : Nat) (p : Pkt) : (s.inject f p).tabs = s.tabs := by simp [State.inject]
@[simp] theorem State.inject_fuses (s : State) (f : Nat) (p : Pkt) : (s.inject f p).fuses = s.fuses := by simp [State.inject]
@[simp] theorem State.inject_ownEp (s : State) (f : Nat) (p : Pkt) : (s.inject f p).ownEp = s.ownEp := by simp [State.inject]
@[simp] theorem State.inject_tim (s : State) (f : Nat) (p : Pkt) : (s.inject f p).tim = s.tim := by simp [State.inject]
@[simp] theorem State.inject_fc (s : State) (f : Nat) (p : Pkt) : (s.inject f p).fc = s.fc := by simp [State.inject]
@[simp] theorem State.inject_prg (s : State) (f : Nat) (p : Pkt) : (s.inject f p).prg = s.prg := by simp [State.inject]
@[simp] theorem State.inject_epo (s : State) (f : Nat) (p : Pkt) : (s.inject f p).epo = s.epo := by simp [State.inject]
@[simp] theorem State.inject_hub (s : State) (f : Nat) (p : Pkt) : (s.inject f p).hub = s.hub := by simp [State.inject]
@[simp] theorem State.inject_rkCopy (s : State) (f : Nat) (p : Pkt) : (s.inject f p).rkCopy = s.rkCopy := by simp [State.inject]
@[simp] theorem State.inject_rbuf (s : State) (f : Nat) (p : Pkt) : (s.inject f p).rbuf = s.rbuf := by simp [State.inject]
@[simp] theorem State.inject_cred (s : State) (f : Nat) (p : Pkt) : (s.inject f p).cred = s.cred := by simp [State.inject]
@[simp] theorem State.inject_arbs (s : State) (f : Nat) (p : Pkt) : (s.inject f p).arbs = s.arbs := by simp [State.inject]
@[simp] theorem State.inject_saf (s : State) (f : Nat) (p : Pkt) : (s.inject f p).saf = s.saf := by simp [State.inject]
@[simp] theorem State.inject_home (s : State) (f : Nat) (p : Pkt) : (s.inject f p).home = s.home := by simp [State.inject]
@[simp] theorem State.inject_dir (s : State) (f : Nat) (p : Pkt) : (s.inject f p).dir = s.dir := by simp [State.inject]
@[simp] theorem State.inject_plru (s : State) (f : Nat) (p : Pkt) : (s.inject f p).plru = s.plru := by simp [State.inject]
@[simp] theorem State.inject_pred (s : State) (f : Nat) (p : Pkt) : (s.inject f p).pred = s.pred := by simp [State.inject]
@[simp] theorem State.inject_cache (s : State) (f : Nat) (p : Pkt) : (s.inject f p).cache = s.cache := by simp [State.inject]
@[simp] theorem State.inject_recalls (s : State) (f : Nat) (p : Pkt) : (s.inject f p).recalls = s.recalls := by simp [State.inject]
@[simp] theorem State.inject_sram (s : State) (f : Nat) (p : Pkt) : (s.inject f p).sram = s.sram := by simp [State.inject]
@[simp] theorem State.inject_sramBad (s : State) (f : Nat) (p : Pkt) : (s.inject f p).sramBad = s.sramBad := by simp [State.inject]
@[simp] theorem State.inject_bank (s : State) (f : Nat) (p : Pkt) : (s.inject f p).bank = s.bank := by simp [State.inject]
@[simp] theorem State.inject_loc (s : State) (f : Nat) (p : Pkt) : (s.inject f p).loc = s.loc := by simp [State.inject]
@[simp] theorem State.inject_que (s : State) (f : Nat) (p : Pkt) : (s.inject f p).que = s.que := by simp [State.inject]
@[simp] theorem State.inject_qm (s : State) (f : Nat) (p : Pkt) : (s.inject f p).qm = s.qm := by simp [State.inject]
@[simp] theorem State.inject_refillAt (s : State) (f : Nat) (p : Pkt) : (s.inject f p).refillAt = s.refillAt := by simp [State.inject]
@[simp] theorem State.inject_ecl (s : State) (f : Nat) (p : Pkt) : (s.inject f p).ecl = s.ecl := by simp [State.inject]
@[simp] theorem State.inject_lsram (s : State) (f : Nat) (p : Pkt) : (s.inject f p).lsram = s.lsram := by simp [State.inject]
@[simp] theorem State.inject_lsramBad (s : State) (f : Nat) (p : Pkt) : (s.inject f p).lsramBad = s.lsramBad := by simp [State.inject]
@[simp] theorem State.inject_ctrWas (s : State) (f : Nat) (p : Pkt) : (s.inject f p).ctrWas = s.ctrWas := by simp [State.inject]
@[simp] theorem State.inject_ctrClr (s : State) (f : Nat) (p : Pkt) : (s.inject f p).ctrClr = s.ctrClr := by simp [State.inject]
@[simp] theorem State.inject_wakePin (s : State) (f : Nat) (p : Pkt) : (s.inject f p).wakePin = s.wakePin := by simp [State.inject]
@[simp] theorem State.inject_dom (s : State) (f : Nat) (p : Pkt) : (s.inject f p).dom = s.dom := by simp [State.inject]
@[simp] theorem State.inject_sigs (s : State) (f : Nat) (p : Pkt) : (s.inject f p).sigs = s.sigs := by simp [State.inject]
@[simp] theorem State.inject_slc (s : State) (f : Nat) (p : Pkt) : (s.inject f p).slc = s.slc := by simp [State.inject]
@[simp] theorem State.inject_freeze (s : State) (f : Nat) (p : Pkt) : (s.inject f p).freeze = s.freeze := by simp [State.inject]
@[simp] theorem State.inject_probe (s : State) (f : Nat) (p : Pkt) : (s.inject f p).probe = s.probe := by simp [State.inject]
@[simp] theorem State.inject_free (s : State) (f : Nat) (p : Pkt) : (s.inject f p).free = s.free := by simp [State.inject]

/-! ### `State.holdPkt` changes only `ni`, `ctr`, `regs`, `cyc`, `bw`. -/

@[simp] theorem State.holdPkt_pending (s : State) (f : Nat) (p : Pkt) : (s.holdPkt f p).pending = s.pending := by simp [State.holdPkt]
@[simp] theorem State.holdPkt_tick (s : State) (f : Nat) (p : Pkt) : (s.holdPkt f p).tick = s.tick := by simp [State.holdPkt]
@[simp] theorem State.holdPkt_frst (s : State) (f : Nat) (p : Pkt) : (s.holdPkt f p).frst = s.frst := by simp [State.holdPkt]
@[simp] theorem State.holdPkt_started (s : State) (f : Nat) (p : Pkt) : (s.holdPkt f p).started = s.started := by simp [State.holdPkt]
@[simp] theorem State.holdPkt_prim (s : State) (f : Nat) (p : Pkt) : (s.holdPkt f p).prim = s.prim := by simp [State.holdPkt]
@[simp] theorem State.holdPkt_haltConds (s : State) (f : Nat) (p : Pkt) : (s.holdPkt f p).haltConds = s.haltConds := by simp [State.holdPkt]
@[simp] theorem State.holdPkt_fallback (s : State) (f : Nat) (p : Pkt) : (s.holdPkt f p).fallback = s.fallback := by simp [State.holdPkt]
@[simp] theorem State.holdPkt_drainPend (s : State) (f : Nat) (p : Pkt) : (s.holdPkt f p).drainPend = s.drainPend := by simp [State.holdPkt]
@[simp] theorem State.holdPkt_drainAt (s : State) (f : Nat) (p : Pkt) : (s.holdPkt f p).drainAt = s.drainAt := by simp [State.holdPkt]
@[simp] theorem State.holdPkt_pdrec (s : State) (f : Nat) (p : Pkt) : (s.holdPkt f p).pdrec = s.pdrec := by simp [State.holdPkt]
@[simp] theorem State.holdPkt_modeWas (s : State) (f : Nat) (p : Pkt) : (s.holdPkt f p).modeWas = s.modeWas := by simp [State.holdPkt]
@[simp] theorem State.holdPkt_quietWas (s : State) (f : Nat) (p : Pkt) : (s.holdPkt f p).quietWas = s.quietWas := by simp [State.holdPkt]
@[simp] theorem State.holdPkt_shadows (s : State) (f : Nat) (p : Pkt) : (s.holdPkt f p).shadows = s.shadows := by simp [State.holdPkt]
@[simp] theorem State.holdPkt_tabs (s : State) (f : Nat) (p : Pkt) : (s.holdPkt f p).tabs = s.tabs := by simp [State.holdPkt]
@[simp] theorem State.holdPkt_fuses (s : State) (f : Nat) (p : Pkt) : (s.holdPkt f p).fuses = s.fuses := by simp [State.holdPkt]
@[simp] theorem State.holdPkt_ownEp (s : State) (f : Nat) (p : Pkt) : (s.holdPkt f p).ownEp = s.ownEp := by simp [State.holdPkt]
@[simp] theorem State.holdPkt_tim (s : State) (f : Nat) (p : Pkt) : (s.holdPkt f p).tim = s.tim := by simp [State.holdPkt]
@[simp] theorem State.holdPkt_fc (s : State) (f : Nat) (p : Pkt) : (s.holdPkt f p).fc = s.fc := by simp [State.holdPkt]
@[simp] theorem State.holdPkt_prg (s : State) (f : Nat) (p : Pkt) : (s.holdPkt f p).prg = s.prg := by simp [State.holdPkt]
@[simp] theorem State.holdPkt_epo (s : State) (f : Nat) (p : Pkt) : (s.holdPkt f p).epo = s.epo := by simp [State.holdPkt]
@[simp] theorem State.holdPkt_hub (s : State) (f : Nat) (p : Pkt) : (s.holdPkt f p).hub = s.hub := by simp [State.holdPkt]
@[simp] theorem State.holdPkt_rkCopy (s : State) (f : Nat) (p : Pkt) : (s.holdPkt f p).rkCopy = s.rkCopy := by simp [State.holdPkt]
@[simp] theorem State.holdPkt_rbuf (s : State) (f : Nat) (p : Pkt) : (s.holdPkt f p).rbuf = s.rbuf := by simp [State.holdPkt]
@[simp] theorem State.holdPkt_cred (s : State) (f : Nat) (p : Pkt) : (s.holdPkt f p).cred = s.cred := by simp [State.holdPkt]
@[simp] theorem State.holdPkt_arbs (s : State) (f : Nat) (p : Pkt) : (s.holdPkt f p).arbs = s.arbs := by simp [State.holdPkt]
@[simp] theorem State.holdPkt_saf (s : State) (f : Nat) (p : Pkt) : (s.holdPkt f p).saf = s.saf := by simp [State.holdPkt]
@[simp] theorem State.holdPkt_home (s : State) (f : Nat) (p : Pkt) : (s.holdPkt f p).home = s.home := by simp [State.holdPkt]
@[simp] theorem State.holdPkt_dir (s : State) (f : Nat) (p : Pkt) : (s.holdPkt f p).dir = s.dir := by simp [State.holdPkt]
@[simp] theorem State.holdPkt_plru (s : State) (f : Nat) (p : Pkt) : (s.holdPkt f p).plru = s.plru := by simp [State.holdPkt]
@[simp] theorem State.holdPkt_pred (s : State) (f : Nat) (p : Pkt) : (s.holdPkt f p).pred = s.pred := by simp [State.holdPkt]
@[simp] theorem State.holdPkt_cache (s : State) (f : Nat) (p : Pkt) : (s.holdPkt f p).cache = s.cache := by simp [State.holdPkt]
@[simp] theorem State.holdPkt_recalls (s : State) (f : Nat) (p : Pkt) : (s.holdPkt f p).recalls = s.recalls := by simp [State.holdPkt]
@[simp] theorem State.holdPkt_sram (s : State) (f : Nat) (p : Pkt) : (s.holdPkt f p).sram = s.sram := by simp [State.holdPkt]
@[simp] theorem State.holdPkt_sramBad (s : State) (f : Nat) (p : Pkt) : (s.holdPkt f p).sramBad = s.sramBad := by simp [State.holdPkt]
@[simp] theorem State.holdPkt_bank (s : State) (f : Nat) (p : Pkt) : (s.holdPkt f p).bank = s.bank := by simp [State.holdPkt]
@[simp] theorem State.holdPkt_loc (s : State) (f : Nat) (p : Pkt) : (s.holdPkt f p).loc = s.loc := by simp [State.holdPkt]
@[simp] theorem State.holdPkt_que (s : State) (f : Nat) (p : Pkt) : (s.holdPkt f p).que = s.que := by simp [State.holdPkt]
@[simp] theorem State.holdPkt_qm (s : State) (f : Nat) (p : Pkt) : (s.holdPkt f p).qm = s.qm := by simp [State.holdPkt]
@[simp] theorem State.holdPkt_refillAt (s : State) (f : Nat) (p : Pkt) : (s.holdPkt f p).refillAt = s.refillAt := by simp [State.holdPkt]
@[simp] theorem State.holdPkt_ecl (s : State) (f : Nat) (p : Pkt) : (s.holdPkt f p).ecl = s.ecl := by simp [State.holdPkt]
@[simp] theorem State.holdPkt_lsram (s : State) (f : Nat) (p : Pkt) : (s.holdPkt f p).lsram = s.lsram := by simp [State.holdPkt]
@[simp] theorem State.holdPkt_lsramBad (s : State) (f : Nat) (p : Pkt) : (s.holdPkt f p).lsramBad = s.lsramBad := by simp [State.holdPkt]
@[simp] theorem State.holdPkt_ctrWas (s : State) (f : Nat) (p : Pkt) : (s.holdPkt f p).ctrWas = s.ctrWas := by simp [State.holdPkt]
@[simp] theorem State.holdPkt_ctrClr (s : State) (f : Nat) (p : Pkt) : (s.holdPkt f p).ctrClr = s.ctrClr := by simp [State.holdPkt]
@[simp] theorem State.holdPkt_wakePin (s : State) (f : Nat) (p : Pkt) : (s.holdPkt f p).wakePin = s.wakePin := by simp [State.holdPkt]
@[simp] theorem State.holdPkt_dom (s : State) (f : Nat) (p : Pkt) : (s.holdPkt f p).dom = s.dom := by simp [State.holdPkt]
@[simp] theorem State.holdPkt_sigs (s : State) (f : Nat) (p : Pkt) : (s.holdPkt f p).sigs = s.sigs := by simp [State.holdPkt]
@[simp] theorem State.holdPkt_slc (s : State) (f : Nat) (p : Pkt) : (s.holdPkt f p).slc = s.slc := by simp [State.holdPkt]
@[simp] theorem State.holdPkt_freeze (s : State) (f : Nat) (p : Pkt) : (s.holdPkt f p).freeze = s.freeze := by simp [State.holdPkt]
@[simp] theorem State.holdPkt_probe (s : State) (f : Nat) (p : Pkt) : (s.holdPkt f p).probe = s.probe := by simp [State.holdPkt]
@[simp] theorem State.holdPkt_free (s : State) (f : Nat) (p : Pkt) : (s.holdPkt f p).free = s.free := by simp [State.holdPkt]

/-! ### `State.ownComp` changes only `ni`. -/

@[simp] theorem State.ownComp_pending (s : State) (f : Nat) (p : Pkt) (st : Nat) : (s.ownComp f p st).pending = s.pending := rfl
@[simp] theorem State.ownComp_tick (s : State) (f : Nat) (p : Pkt) (st : Nat) : (s.ownComp f p st).tick = s.tick := rfl
@[simp] theorem State.ownComp_frst (s : State) (f : Nat) (p : Pkt) (st : Nat) : (s.ownComp f p st).frst = s.frst := rfl
@[simp] theorem State.ownComp_started (s : State) (f : Nat) (p : Pkt) (st : Nat) : (s.ownComp f p st).started = s.started := rfl
@[simp] theorem State.ownComp_prim (s : State) (f : Nat) (p : Pkt) (st : Nat) : (s.ownComp f p st).prim = s.prim := rfl
@[simp] theorem State.ownComp_haltConds (s : State) (f : Nat) (p : Pkt) (st : Nat) : (s.ownComp f p st).haltConds = s.haltConds := rfl
@[simp] theorem State.ownComp_fallback (s : State) (f : Nat) (p : Pkt) (st : Nat) : (s.ownComp f p st).fallback = s.fallback := rfl
@[simp] theorem State.ownComp_drainPend (s : State) (f : Nat) (p : Pkt) (st : Nat) : (s.ownComp f p st).drainPend = s.drainPend := rfl
@[simp] theorem State.ownComp_drainAt (s : State) (f : Nat) (p : Pkt) (st : Nat) : (s.ownComp f p st).drainAt = s.drainAt := rfl
@[simp] theorem State.ownComp_pdrec (s : State) (f : Nat) (p : Pkt) (st : Nat) : (s.ownComp f p st).pdrec = s.pdrec := rfl
@[simp] theorem State.ownComp_regs (s : State) (f : Nat) (p : Pkt) (st : Nat) : (s.ownComp f p st).regs = s.regs := rfl
@[simp] theorem State.ownComp_cyc (s : State) (f : Nat) (p : Pkt) (st : Nat) : (s.ownComp f p st).cyc = s.cyc := rfl
@[simp] theorem State.ownComp_modeWas (s : State) (f : Nat) (p : Pkt) (st : Nat) : (s.ownComp f p st).modeWas = s.modeWas := rfl
@[simp] theorem State.ownComp_quietWas (s : State) (f : Nat) (p : Pkt) (st : Nat) : (s.ownComp f p st).quietWas = s.quietWas := rfl
@[simp] theorem State.ownComp_shadows (s : State) (f : Nat) (p : Pkt) (st : Nat) : (s.ownComp f p st).shadows = s.shadows := rfl
@[simp] theorem State.ownComp_tabs (s : State) (f : Nat) (p : Pkt) (st : Nat) : (s.ownComp f p st).tabs = s.tabs := rfl
@[simp] theorem State.ownComp_fuses (s : State) (f : Nat) (p : Pkt) (st : Nat) : (s.ownComp f p st).fuses = s.fuses := rfl
@[simp] theorem State.ownComp_ownEp (s : State) (f : Nat) (p : Pkt) (st : Nat) : (s.ownComp f p st).ownEp = s.ownEp := rfl
@[simp] theorem State.ownComp_tim (s : State) (f : Nat) (p : Pkt) (st : Nat) : (s.ownComp f p st).tim = s.tim := rfl
@[simp] theorem State.ownComp_fc (s : State) (f : Nat) (p : Pkt) (st : Nat) : (s.ownComp f p st).fc = s.fc := rfl
@[simp] theorem State.ownComp_prg (s : State) (f : Nat) (p : Pkt) (st : Nat) : (s.ownComp f p st).prg = s.prg := rfl
@[simp] theorem State.ownComp_epo (s : State) (f : Nat) (p : Pkt) (st : Nat) : (s.ownComp f p st).epo = s.epo := rfl
@[simp] theorem State.ownComp_hub (s : State) (f : Nat) (p : Pkt) (st : Nat) : (s.ownComp f p st).hub = s.hub := rfl
@[simp] theorem State.ownComp_rkCopy (s : State) (f : Nat) (p : Pkt) (st : Nat) : (s.ownComp f p st).rkCopy = s.rkCopy := rfl
@[simp] theorem State.ownComp_rbuf (s : State) (f : Nat) (p : Pkt) (st : Nat) : (s.ownComp f p st).rbuf = s.rbuf := rfl
@[simp] theorem State.ownComp_cred (s : State) (f : Nat) (p : Pkt) (st : Nat) : (s.ownComp f p st).cred = s.cred := rfl
@[simp] theorem State.ownComp_arbs (s : State) (f : Nat) (p : Pkt) (st : Nat) : (s.ownComp f p st).arbs = s.arbs := rfl
@[simp] theorem State.ownComp_saf (s : State) (f : Nat) (p : Pkt) (st : Nat) : (s.ownComp f p st).saf = s.saf := rfl
@[simp] theorem State.ownComp_home (s : State) (f : Nat) (p : Pkt) (st : Nat) : (s.ownComp f p st).home = s.home := rfl
@[simp] theorem State.ownComp_dir (s : State) (f : Nat) (p : Pkt) (st : Nat) : (s.ownComp f p st).dir = s.dir := rfl
@[simp] theorem State.ownComp_plru (s : State) (f : Nat) (p : Pkt) (st : Nat) : (s.ownComp f p st).plru = s.plru := rfl
@[simp] theorem State.ownComp_pred (s : State) (f : Nat) (p : Pkt) (st : Nat) : (s.ownComp f p st).pred = s.pred := rfl
@[simp] theorem State.ownComp_cache (s : State) (f : Nat) (p : Pkt) (st : Nat) : (s.ownComp f p st).cache = s.cache := rfl
@[simp] theorem State.ownComp_recalls (s : State) (f : Nat) (p : Pkt) (st : Nat) : (s.ownComp f p st).recalls = s.recalls := rfl
@[simp] theorem State.ownComp_sram (s : State) (f : Nat) (p : Pkt) (st : Nat) : (s.ownComp f p st).sram = s.sram := rfl
@[simp] theorem State.ownComp_sramBad (s : State) (f : Nat) (p : Pkt) (st : Nat) : (s.ownComp f p st).sramBad = s.sramBad := rfl
@[simp] theorem State.ownComp_bank (s : State) (f : Nat) (p : Pkt) (st : Nat) : (s.ownComp f p st).bank = s.bank := rfl
@[simp] theorem State.ownComp_loc (s : State) (f : Nat) (p : Pkt) (st : Nat) : (s.ownComp f p st).loc = s.loc := rfl
@[simp] theorem State.ownComp_que (s : State) (f : Nat) (p : Pkt) (st : Nat) : (s.ownComp f p st).que = s.que := rfl
@[simp] theorem State.ownComp_qm (s : State) (f : Nat) (p : Pkt) (st : Nat) : (s.ownComp f p st).qm = s.qm := rfl
@[simp] theorem State.ownComp_refillAt (s : State) (f : Nat) (p : Pkt) (st : Nat) : (s.ownComp f p st).refillAt = s.refillAt := rfl
@[simp] theorem State.ownComp_ecl (s : State) (f : Nat) (p : Pkt) (st : Nat) : (s.ownComp f p st).ecl = s.ecl := rfl
@[simp] theorem State.ownComp_lsram (s : State) (f : Nat) (p : Pkt) (st : Nat) : (s.ownComp f p st).lsram = s.lsram := rfl
@[simp] theorem State.ownComp_lsramBad (s : State) (f : Nat) (p : Pkt) (st : Nat) : (s.ownComp f p st).lsramBad = s.lsramBad := rfl
@[simp] theorem State.ownComp_ctr (s : State) (f : Nat) (p : Pkt) (st : Nat) : (s.ownComp f p st).ctr = s.ctr := rfl
@[simp] theorem State.ownComp_ctrWas (s : State) (f : Nat) (p : Pkt) (st : Nat) : (s.ownComp f p st).ctrWas = s.ctrWas := rfl
@[simp] theorem State.ownComp_ctrClr (s : State) (f : Nat) (p : Pkt) (st : Nat) : (s.ownComp f p st).ctrClr = s.ctrClr := rfl
@[simp] theorem State.ownComp_wakePin (s : State) (f : Nat) (p : Pkt) (st : Nat) : (s.ownComp f p st).wakePin = s.wakePin := rfl
@[simp] theorem State.ownComp_dom (s : State) (f : Nat) (p : Pkt) (st : Nat) : (s.ownComp f p st).dom = s.dom := rfl
@[simp] theorem State.ownComp_sigs (s : State) (f : Nat) (p : Pkt) (st : Nat) : (s.ownComp f p st).sigs = s.sigs := rfl
@[simp] theorem State.ownComp_slc (s : State) (f : Nat) (p : Pkt) (st : Nat) : (s.ownComp f p st).slc = s.slc := rfl
@[simp] theorem State.ownComp_freeze (s : State) (f : Nat) (p : Pkt) (st : Nat) : (s.ownComp f p st).freeze = s.freeze := rfl
@[simp] theorem State.ownComp_bw (s : State) (f : Nat) (p : Pkt) (st : Nat) : (s.ownComp f p st).bw = s.bw := rfl
@[simp] theorem State.ownComp_probe (s : State) (f : Nat) (p : Pkt) (st : Nat) : (s.ownComp f p st).probe = s.probe := rfl
@[simp] theorem State.ownComp_free (s : State) (f : Nat) (p : Pkt) (st : Nat) : (s.ownComp f p st).free = s.free := rfl

/-! ### `State.sendTc` changes only `ni`, `ctr`, `regs`, `cyc`, `bw`. -/

@[simp] theorem State.sendTc_pending (s : State) (f : Nat) (p : Pkt) : (s.sendTc f p).pending = s.pending := by
  unfold State.sendTc; dsimp only; repeat' split
  all_goals simp
@[simp] theorem State.sendTc_tick (s : State) (f : Nat) (p : Pkt) : (s.sendTc f p).tick = s.tick := by
  unfold State.sendTc; dsimp only; repeat' split
  all_goals simp
@[simp] theorem State.sendTc_frst (s : State) (f : Nat) (p : Pkt) : (s.sendTc f p).frst = s.frst := by
  unfold State.sendTc; dsimp only; repeat' split
  all_goals simp
@[simp] theorem State.sendTc_started (s : State) (f : Nat) (p : Pkt) : (s.sendTc f p).started = s.started := by
  unfold State.sendTc; dsimp only; repeat' split
  all_goals simp
@[simp] theorem State.sendTc_prim (s : State) (f : Nat) (p : Pkt) : (s.sendTc f p).prim = s.prim := by
  unfold State.sendTc; dsimp only; repeat' split
  all_goals simp
@[simp] theorem State.sendTc_haltConds (s : State) (f : Nat) (p : Pkt) : (s.sendTc f p).haltConds = s.haltConds := by
  unfold State.sendTc; dsimp only; repeat' split
  all_goals simp
@[simp] theorem State.sendTc_fallback (s : State) (f : Nat) (p : Pkt) : (s.sendTc f p).fallback = s.fallback := by
  unfold State.sendTc; dsimp only; repeat' split
  all_goals simp
@[simp] theorem State.sendTc_drainPend (s : State) (f : Nat) (p : Pkt) : (s.sendTc f p).drainPend = s.drainPend := by
  unfold State.sendTc; dsimp only; repeat' split
  all_goals simp
@[simp] theorem State.sendTc_drainAt (s : State) (f : Nat) (p : Pkt) : (s.sendTc f p).drainAt = s.drainAt := by
  unfold State.sendTc; dsimp only; repeat' split
  all_goals simp
@[simp] theorem State.sendTc_pdrec (s : State) (f : Nat) (p : Pkt) : (s.sendTc f p).pdrec = s.pdrec := by
  unfold State.sendTc; dsimp only; repeat' split
  all_goals simp
@[simp] theorem State.sendTc_modeWas (s : State) (f : Nat) (p : Pkt) : (s.sendTc f p).modeWas = s.modeWas := by
  unfold State.sendTc; dsimp only; repeat' split
  all_goals simp
@[simp] theorem State.sendTc_quietWas (s : State) (f : Nat) (p : Pkt) : (s.sendTc f p).quietWas = s.quietWas := by
  unfold State.sendTc; dsimp only; repeat' split
  all_goals simp
@[simp] theorem State.sendTc_shadows (s : State) (f : Nat) (p : Pkt) : (s.sendTc f p).shadows = s.shadows := by
  unfold State.sendTc; dsimp only; repeat' split
  all_goals simp
@[simp] theorem State.sendTc_tabs (s : State) (f : Nat) (p : Pkt) : (s.sendTc f p).tabs = s.tabs := by
  unfold State.sendTc; dsimp only; repeat' split
  all_goals simp
@[simp] theorem State.sendTc_fuses (s : State) (f : Nat) (p : Pkt) : (s.sendTc f p).fuses = s.fuses := by
  unfold State.sendTc; dsimp only; repeat' split
  all_goals simp
@[simp] theorem State.sendTc_ownEp (s : State) (f : Nat) (p : Pkt) : (s.sendTc f p).ownEp = s.ownEp := by
  unfold State.sendTc; dsimp only; repeat' split
  all_goals simp
@[simp] theorem State.sendTc_tim (s : State) (f : Nat) (p : Pkt) : (s.sendTc f p).tim = s.tim := by
  unfold State.sendTc; dsimp only; repeat' split
  all_goals simp
@[simp] theorem State.sendTc_fc (s : State) (f : Nat) (p : Pkt) : (s.sendTc f p).fc = s.fc := by
  unfold State.sendTc; dsimp only; repeat' split
  all_goals simp
@[simp] theorem State.sendTc_prg (s : State) (f : Nat) (p : Pkt) : (s.sendTc f p).prg = s.prg := by
  unfold State.sendTc; dsimp only; repeat' split
  all_goals simp
@[simp] theorem State.sendTc_epo (s : State) (f : Nat) (p : Pkt) : (s.sendTc f p).epo = s.epo := by
  unfold State.sendTc; dsimp only; repeat' split
  all_goals simp
@[simp] theorem State.sendTc_hub (s : State) (f : Nat) (p : Pkt) : (s.sendTc f p).hub = s.hub := by
  unfold State.sendTc; dsimp only; repeat' split
  all_goals simp
@[simp] theorem State.sendTc_rkCopy (s : State) (f : Nat) (p : Pkt) : (s.sendTc f p).rkCopy = s.rkCopy := by
  unfold State.sendTc; dsimp only; repeat' split
  all_goals simp
@[simp] theorem State.sendTc_rbuf (s : State) (f : Nat) (p : Pkt) : (s.sendTc f p).rbuf = s.rbuf := by
  unfold State.sendTc; dsimp only; repeat' split
  all_goals simp
@[simp] theorem State.sendTc_cred (s : State) (f : Nat) (p : Pkt) : (s.sendTc f p).cred = s.cred := by
  unfold State.sendTc; dsimp only; repeat' split
  all_goals simp
@[simp] theorem State.sendTc_arbs (s : State) (f : Nat) (p : Pkt) : (s.sendTc f p).arbs = s.arbs := by
  unfold State.sendTc; dsimp only; repeat' split
  all_goals simp
@[simp] theorem State.sendTc_saf (s : State) (f : Nat) (p : Pkt) : (s.sendTc f p).saf = s.saf := by
  unfold State.sendTc; dsimp only; repeat' split
  all_goals simp
@[simp] theorem State.sendTc_home (s : State) (f : Nat) (p : Pkt) : (s.sendTc f p).home = s.home := by
  unfold State.sendTc; dsimp only; repeat' split
  all_goals simp
@[simp] theorem State.sendTc_dir (s : State) (f : Nat) (p : Pkt) : (s.sendTc f p).dir = s.dir := by
  unfold State.sendTc; dsimp only; repeat' split
  all_goals simp
@[simp] theorem State.sendTc_plru (s : State) (f : Nat) (p : Pkt) : (s.sendTc f p).plru = s.plru := by
  unfold State.sendTc; dsimp only; repeat' split
  all_goals simp
@[simp] theorem State.sendTc_pred (s : State) (f : Nat) (p : Pkt) : (s.sendTc f p).pred = s.pred := by
  unfold State.sendTc; dsimp only; repeat' split
  all_goals simp
@[simp] theorem State.sendTc_cache (s : State) (f : Nat) (p : Pkt) : (s.sendTc f p).cache = s.cache := by
  unfold State.sendTc; dsimp only; repeat' split
  all_goals simp
@[simp] theorem State.sendTc_recalls (s : State) (f : Nat) (p : Pkt) : (s.sendTc f p).recalls = s.recalls := by
  unfold State.sendTc; dsimp only; repeat' split
  all_goals simp
@[simp] theorem State.sendTc_sram (s : State) (f : Nat) (p : Pkt) : (s.sendTc f p).sram = s.sram := by
  unfold State.sendTc; dsimp only; repeat' split
  all_goals simp
@[simp] theorem State.sendTc_sramBad (s : State) (f : Nat) (p : Pkt) : (s.sendTc f p).sramBad = s.sramBad := by
  unfold State.sendTc; dsimp only; repeat' split
  all_goals simp
@[simp] theorem State.sendTc_bank (s : State) (f : Nat) (p : Pkt) : (s.sendTc f p).bank = s.bank := by
  unfold State.sendTc; dsimp only; repeat' split
  all_goals simp
@[simp] theorem State.sendTc_loc (s : State) (f : Nat) (p : Pkt) : (s.sendTc f p).loc = s.loc := by
  unfold State.sendTc; dsimp only; repeat' split
  all_goals simp
@[simp] theorem State.sendTc_que (s : State) (f : Nat) (p : Pkt) : (s.sendTc f p).que = s.que := by
  unfold State.sendTc; dsimp only; repeat' split
  all_goals simp
@[simp] theorem State.sendTc_qm (s : State) (f : Nat) (p : Pkt) : (s.sendTc f p).qm = s.qm := by
  unfold State.sendTc; dsimp only; repeat' split
  all_goals simp
@[simp] theorem State.sendTc_refillAt (s : State) (f : Nat) (p : Pkt) : (s.sendTc f p).refillAt = s.refillAt := by
  unfold State.sendTc; dsimp only; repeat' split
  all_goals simp
@[simp] theorem State.sendTc_ecl (s : State) (f : Nat) (p : Pkt) : (s.sendTc f p).ecl = s.ecl := by
  unfold State.sendTc; dsimp only; repeat' split
  all_goals simp
@[simp] theorem State.sendTc_lsram (s : State) (f : Nat) (p : Pkt) : (s.sendTc f p).lsram = s.lsram := by
  unfold State.sendTc; dsimp only; repeat' split
  all_goals simp
@[simp] theorem State.sendTc_lsramBad (s : State) (f : Nat) (p : Pkt) : (s.sendTc f p).lsramBad = s.lsramBad := by
  unfold State.sendTc; dsimp only; repeat' split
  all_goals simp
@[simp] theorem State.sendTc_ctrWas (s : State) (f : Nat) (p : Pkt) : (s.sendTc f p).ctrWas = s.ctrWas := by
  unfold State.sendTc; dsimp only; repeat' split
  all_goals simp
@[simp] theorem State.sendTc_ctrClr (s : State) (f : Nat) (p : Pkt) : (s.sendTc f p).ctrClr = s.ctrClr := by
  unfold State.sendTc; dsimp only; repeat' split
  all_goals simp
@[simp] theorem State.sendTc_wakePin (s : State) (f : Nat) (p : Pkt) : (s.sendTc f p).wakePin = s.wakePin := by
  unfold State.sendTc; dsimp only; repeat' split
  all_goals simp
@[simp] theorem State.sendTc_dom (s : State) (f : Nat) (p : Pkt) : (s.sendTc f p).dom = s.dom := by
  unfold State.sendTc; dsimp only; repeat' split
  all_goals simp
@[simp] theorem State.sendTc_sigs (s : State) (f : Nat) (p : Pkt) : (s.sendTc f p).sigs = s.sigs := by
  unfold State.sendTc; dsimp only; repeat' split
  all_goals simp
@[simp] theorem State.sendTc_slc (s : State) (f : Nat) (p : Pkt) : (s.sendTc f p).slc = s.slc := by
  unfold State.sendTc; dsimp only; repeat' split
  all_goals simp
@[simp] theorem State.sendTc_freeze (s : State) (f : Nat) (p : Pkt) : (s.sendTc f p).freeze = s.freeze := by
  unfold State.sendTc; dsimp only; repeat' split
  all_goals simp
@[simp] theorem State.sendTc_probe (s : State) (f : Nat) (p : Pkt) : (s.sendTc f p).probe = s.probe := by
  unfold State.sendTc; dsimp only; repeat' split
  all_goals simp
@[simp] theorem State.sendTc_free (s : State) (f : Nat) (p : Pkt) : (s.sendTc f p).free = s.free := by
  unfold State.sendTc; dsimp only; repeat' split
  all_goals simp

/-! ### `State.send` changes only `ni`, `ctr`, `regs`, `cyc`, `bw`. -/

@[simp] theorem State.send_pending (s : State) (f : Nat) (p : Pkt) : (s.send f p).pending = s.pending := by simp [State.send]
@[simp] theorem State.send_tick (s : State) (f : Nat) (p : Pkt) : (s.send f p).tick = s.tick := by simp [State.send]
@[simp] theorem State.send_frst (s : State) (f : Nat) (p : Pkt) : (s.send f p).frst = s.frst := by simp [State.send]
@[simp] theorem State.send_started (s : State) (f : Nat) (p : Pkt) : (s.send f p).started = s.started := by simp [State.send]
@[simp] theorem State.send_prim (s : State) (f : Nat) (p : Pkt) : (s.send f p).prim = s.prim := by simp [State.send]
@[simp] theorem State.send_haltConds (s : State) (f : Nat) (p : Pkt) : (s.send f p).haltConds = s.haltConds := by simp [State.send]
@[simp] theorem State.send_fallback (s : State) (f : Nat) (p : Pkt) : (s.send f p).fallback = s.fallback := by simp [State.send]
@[simp] theorem State.send_drainPend (s : State) (f : Nat) (p : Pkt) : (s.send f p).drainPend = s.drainPend := by simp [State.send]
@[simp] theorem State.send_drainAt (s : State) (f : Nat) (p : Pkt) : (s.send f p).drainAt = s.drainAt := by simp [State.send]
@[simp] theorem State.send_pdrec (s : State) (f : Nat) (p : Pkt) : (s.send f p).pdrec = s.pdrec := by simp [State.send]
@[simp] theorem State.send_modeWas (s : State) (f : Nat) (p : Pkt) : (s.send f p).modeWas = s.modeWas := by simp [State.send]
@[simp] theorem State.send_quietWas (s : State) (f : Nat) (p : Pkt) : (s.send f p).quietWas = s.quietWas := by simp [State.send]
@[simp] theorem State.send_shadows (s : State) (f : Nat) (p : Pkt) : (s.send f p).shadows = s.shadows := by simp [State.send]
@[simp] theorem State.send_tabs (s : State) (f : Nat) (p : Pkt) : (s.send f p).tabs = s.tabs := by simp [State.send]
@[simp] theorem State.send_fuses (s : State) (f : Nat) (p : Pkt) : (s.send f p).fuses = s.fuses := by simp [State.send]
@[simp] theorem State.send_ownEp (s : State) (f : Nat) (p : Pkt) : (s.send f p).ownEp = s.ownEp := by simp [State.send]
@[simp] theorem State.send_tim (s : State) (f : Nat) (p : Pkt) : (s.send f p).tim = s.tim := by simp [State.send]
@[simp] theorem State.send_fc (s : State) (f : Nat) (p : Pkt) : (s.send f p).fc = s.fc := by simp [State.send]
@[simp] theorem State.send_prg (s : State) (f : Nat) (p : Pkt) : (s.send f p).prg = s.prg := by simp [State.send]
@[simp] theorem State.send_epo (s : State) (f : Nat) (p : Pkt) : (s.send f p).epo = s.epo := by simp [State.send]
@[simp] theorem State.send_hub (s : State) (f : Nat) (p : Pkt) : (s.send f p).hub = s.hub := by simp [State.send]
@[simp] theorem State.send_rkCopy (s : State) (f : Nat) (p : Pkt) : (s.send f p).rkCopy = s.rkCopy := by simp [State.send]
@[simp] theorem State.send_rbuf (s : State) (f : Nat) (p : Pkt) : (s.send f p).rbuf = s.rbuf := by simp [State.send]
@[simp] theorem State.send_cred (s : State) (f : Nat) (p : Pkt) : (s.send f p).cred = s.cred := by simp [State.send]
@[simp] theorem State.send_arbs (s : State) (f : Nat) (p : Pkt) : (s.send f p).arbs = s.arbs := by simp [State.send]
@[simp] theorem State.send_saf (s : State) (f : Nat) (p : Pkt) : (s.send f p).saf = s.saf := by simp [State.send]
@[simp] theorem State.send_home (s : State) (f : Nat) (p : Pkt) : (s.send f p).home = s.home := by simp [State.send]
@[simp] theorem State.send_dir (s : State) (f : Nat) (p : Pkt) : (s.send f p).dir = s.dir := by simp [State.send]
@[simp] theorem State.send_plru (s : State) (f : Nat) (p : Pkt) : (s.send f p).plru = s.plru := by simp [State.send]
@[simp] theorem State.send_pred (s : State) (f : Nat) (p : Pkt) : (s.send f p).pred = s.pred := by simp [State.send]
@[simp] theorem State.send_cache (s : State) (f : Nat) (p : Pkt) : (s.send f p).cache = s.cache := by simp [State.send]
@[simp] theorem State.send_recalls (s : State) (f : Nat) (p : Pkt) : (s.send f p).recalls = s.recalls := by simp [State.send]
@[simp] theorem State.send_sram (s : State) (f : Nat) (p : Pkt) : (s.send f p).sram = s.sram := by simp [State.send]
@[simp] theorem State.send_sramBad (s : State) (f : Nat) (p : Pkt) : (s.send f p).sramBad = s.sramBad := by simp [State.send]
@[simp] theorem State.send_bank (s : State) (f : Nat) (p : Pkt) : (s.send f p).bank = s.bank := by simp [State.send]
@[simp] theorem State.send_loc (s : State) (f : Nat) (p : Pkt) : (s.send f p).loc = s.loc := by simp [State.send]
@[simp] theorem State.send_que (s : State) (f : Nat) (p : Pkt) : (s.send f p).que = s.que := by simp [State.send]
@[simp] theorem State.send_qm (s : State) (f : Nat) (p : Pkt) : (s.send f p).qm = s.qm := by simp [State.send]
@[simp] theorem State.send_refillAt (s : State) (f : Nat) (p : Pkt) : (s.send f p).refillAt = s.refillAt := by simp [State.send]
@[simp] theorem State.send_ecl (s : State) (f : Nat) (p : Pkt) : (s.send f p).ecl = s.ecl := by simp [State.send]
@[simp] theorem State.send_lsram (s : State) (f : Nat) (p : Pkt) : (s.send f p).lsram = s.lsram := by simp [State.send]
@[simp] theorem State.send_lsramBad (s : State) (f : Nat) (p : Pkt) : (s.send f p).lsramBad = s.lsramBad := by simp [State.send]
@[simp] theorem State.send_ctrWas (s : State) (f : Nat) (p : Pkt) : (s.send f p).ctrWas = s.ctrWas := by simp [State.send]
@[simp] theorem State.send_ctrClr (s : State) (f : Nat) (p : Pkt) : (s.send f p).ctrClr = s.ctrClr := by simp [State.send]
@[simp] theorem State.send_wakePin (s : State) (f : Nat) (p : Pkt) : (s.send f p).wakePin = s.wakePin := by simp [State.send]
@[simp] theorem State.send_dom (s : State) (f : Nat) (p : Pkt) : (s.send f p).dom = s.dom := by simp [State.send]
@[simp] theorem State.send_sigs (s : State) (f : Nat) (p : Pkt) : (s.send f p).sigs = s.sigs := by simp [State.send]
@[simp] theorem State.send_slc (s : State) (f : Nat) (p : Pkt) : (s.send f p).slc = s.slc := by simp [State.send]
@[simp] theorem State.send_freeze (s : State) (f : Nat) (p : Pkt) : (s.send f p).freeze = s.freeze := by simp [State.send]
@[simp] theorem State.send_probe (s : State) (f : Nat) (p : Pkt) : (s.send f p).probe = s.probe := by simp [State.send]
@[simp] theorem State.send_free (s : State) (f : Nat) (p : Pkt) : (s.send f p).free = s.free := by simp [State.send]

/-! ### `State.ownIntr` changes only `ni`, `ctr`, `regs`, `cyc`, `bw`. -/

@[simp] theorem State.ownIntr_pending (s : State) (f d v : Nat) : (s.ownIntr f d v).pending = s.pending := by simp [State.ownIntr]
@[simp] theorem State.ownIntr_tick (s : State) (f d v : Nat) : (s.ownIntr f d v).tick = s.tick := by simp [State.ownIntr]
@[simp] theorem State.ownIntr_frst (s : State) (f d v : Nat) : (s.ownIntr f d v).frst = s.frst := by simp [State.ownIntr]
@[simp] theorem State.ownIntr_started (s : State) (f d v : Nat) : (s.ownIntr f d v).started = s.started := by simp [State.ownIntr]
@[simp] theorem State.ownIntr_prim (s : State) (f d v : Nat) : (s.ownIntr f d v).prim = s.prim := by simp [State.ownIntr]
@[simp] theorem State.ownIntr_haltConds (s : State) (f d v : Nat) : (s.ownIntr f d v).haltConds = s.haltConds := by simp [State.ownIntr]
@[simp] theorem State.ownIntr_fallback (s : State) (f d v : Nat) : (s.ownIntr f d v).fallback = s.fallback := by simp [State.ownIntr]
@[simp] theorem State.ownIntr_drainPend (s : State) (f d v : Nat) : (s.ownIntr f d v).drainPend = s.drainPend := by simp [State.ownIntr]
@[simp] theorem State.ownIntr_drainAt (s : State) (f d v : Nat) : (s.ownIntr f d v).drainAt = s.drainAt := by simp [State.ownIntr]
@[simp] theorem State.ownIntr_pdrec (s : State) (f d v : Nat) : (s.ownIntr f d v).pdrec = s.pdrec := by simp [State.ownIntr]
@[simp] theorem State.ownIntr_modeWas (s : State) (f d v : Nat) : (s.ownIntr f d v).modeWas = s.modeWas := by simp [State.ownIntr]
@[simp] theorem State.ownIntr_quietWas (s : State) (f d v : Nat) : (s.ownIntr f d v).quietWas = s.quietWas := by simp [State.ownIntr]
@[simp] theorem State.ownIntr_shadows (s : State) (f d v : Nat) : (s.ownIntr f d v).shadows = s.shadows := by simp [State.ownIntr]
@[simp] theorem State.ownIntr_tabs (s : State) (f d v : Nat) : (s.ownIntr f d v).tabs = s.tabs := by simp [State.ownIntr]
@[simp] theorem State.ownIntr_fuses (s : State) (f d v : Nat) : (s.ownIntr f d v).fuses = s.fuses := by simp [State.ownIntr]
@[simp] theorem State.ownIntr_ownEp (s : State) (f d v : Nat) : (s.ownIntr f d v).ownEp = s.ownEp := by simp [State.ownIntr]
@[simp] theorem State.ownIntr_tim (s : State) (f d v : Nat) : (s.ownIntr f d v).tim = s.tim := by simp [State.ownIntr]
@[simp] theorem State.ownIntr_fc (s : State) (f d v : Nat) : (s.ownIntr f d v).fc = s.fc := by simp [State.ownIntr]
@[simp] theorem State.ownIntr_prg (s : State) (f d v : Nat) : (s.ownIntr f d v).prg = s.prg := by simp [State.ownIntr]
@[simp] theorem State.ownIntr_epo (s : State) (f d v : Nat) : (s.ownIntr f d v).epo = s.epo := by simp [State.ownIntr]
@[simp] theorem State.ownIntr_hub (s : State) (f d v : Nat) : (s.ownIntr f d v).hub = s.hub := by simp [State.ownIntr]
@[simp] theorem State.ownIntr_rkCopy (s : State) (f d v : Nat) : (s.ownIntr f d v).rkCopy = s.rkCopy := by simp [State.ownIntr]
@[simp] theorem State.ownIntr_rbuf (s : State) (f d v : Nat) : (s.ownIntr f d v).rbuf = s.rbuf := by simp [State.ownIntr]
@[simp] theorem State.ownIntr_cred (s : State) (f d v : Nat) : (s.ownIntr f d v).cred = s.cred := by simp [State.ownIntr]
@[simp] theorem State.ownIntr_arbs (s : State) (f d v : Nat) : (s.ownIntr f d v).arbs = s.arbs := by simp [State.ownIntr]
@[simp] theorem State.ownIntr_saf (s : State) (f d v : Nat) : (s.ownIntr f d v).saf = s.saf := by simp [State.ownIntr]
@[simp] theorem State.ownIntr_home (s : State) (f d v : Nat) : (s.ownIntr f d v).home = s.home := by simp [State.ownIntr]
@[simp] theorem State.ownIntr_dir (s : State) (f d v : Nat) : (s.ownIntr f d v).dir = s.dir := by simp [State.ownIntr]
@[simp] theorem State.ownIntr_plru (s : State) (f d v : Nat) : (s.ownIntr f d v).plru = s.plru := by simp [State.ownIntr]
@[simp] theorem State.ownIntr_pred (s : State) (f d v : Nat) : (s.ownIntr f d v).pred = s.pred := by simp [State.ownIntr]
@[simp] theorem State.ownIntr_cache (s : State) (f d v : Nat) : (s.ownIntr f d v).cache = s.cache := by simp [State.ownIntr]
@[simp] theorem State.ownIntr_recalls (s : State) (f d v : Nat) : (s.ownIntr f d v).recalls = s.recalls := by simp [State.ownIntr]
@[simp] theorem State.ownIntr_sram (s : State) (f d v : Nat) : (s.ownIntr f d v).sram = s.sram := by simp [State.ownIntr]
@[simp] theorem State.ownIntr_sramBad (s : State) (f d v : Nat) : (s.ownIntr f d v).sramBad = s.sramBad := by simp [State.ownIntr]
@[simp] theorem State.ownIntr_bank (s : State) (f d v : Nat) : (s.ownIntr f d v).bank = s.bank := by simp [State.ownIntr]
@[simp] theorem State.ownIntr_loc (s : State) (f d v : Nat) : (s.ownIntr f d v).loc = s.loc := by simp [State.ownIntr]
@[simp] theorem State.ownIntr_que (s : State) (f d v : Nat) : (s.ownIntr f d v).que = s.que := by simp [State.ownIntr]
@[simp] theorem State.ownIntr_qm (s : State) (f d v : Nat) : (s.ownIntr f d v).qm = s.qm := by simp [State.ownIntr]
@[simp] theorem State.ownIntr_refillAt (s : State) (f d v : Nat) : (s.ownIntr f d v).refillAt = s.refillAt := by simp [State.ownIntr]
@[simp] theorem State.ownIntr_ecl (s : State) (f d v : Nat) : (s.ownIntr f d v).ecl = s.ecl := by simp [State.ownIntr]
@[simp] theorem State.ownIntr_lsram (s : State) (f d v : Nat) : (s.ownIntr f d v).lsram = s.lsram := by simp [State.ownIntr]
@[simp] theorem State.ownIntr_lsramBad (s : State) (f d v : Nat) : (s.ownIntr f d v).lsramBad = s.lsramBad := by simp [State.ownIntr]
@[simp] theorem State.ownIntr_ctrWas (s : State) (f d v : Nat) : (s.ownIntr f d v).ctrWas = s.ctrWas := by simp [State.ownIntr]
@[simp] theorem State.ownIntr_ctrClr (s : State) (f d v : Nat) : (s.ownIntr f d v).ctrClr = s.ctrClr := by simp [State.ownIntr]
@[simp] theorem State.ownIntr_wakePin (s : State) (f d v : Nat) : (s.ownIntr f d v).wakePin = s.wakePin := by simp [State.ownIntr]
@[simp] theorem State.ownIntr_dom (s : State) (f d v : Nat) : (s.ownIntr f d v).dom = s.dom := by simp [State.ownIntr]
@[simp] theorem State.ownIntr_sigs (s : State) (f d v : Nat) : (s.ownIntr f d v).sigs = s.sigs := by simp [State.ownIntr]
@[simp] theorem State.ownIntr_slc (s : State) (f d v : Nat) : (s.ownIntr f d v).slc = s.slc := by simp [State.ownIntr]
@[simp] theorem State.ownIntr_freeze (s : State) (f d v : Nat) : (s.ownIntr f d v).freeze = s.freeze := by simp [State.ownIntr]
@[simp] theorem State.ownIntr_probe (s : State) (f d v : Nat) : (s.ownIntr f d v).probe = s.probe := by simp [State.ownIntr]
@[simp] theorem State.ownIntr_free (s : State) (f d v : Nat) : (s.ownIntr f d v).free = s.free := by simp [State.ownIntr]

/-! ### `State.countAnswer` changes only `ctr`, `regs`, `cyc`. -/

@[simp] theorem State.countAnswer_pending (s : State) (sl st : Nat) : (s.countAnswer sl st).pending = s.pending := by
  unfold State.countAnswer; repeat' split
  all_goals simp
@[simp] theorem State.countAnswer_tick (s : State) (sl st : Nat) : (s.countAnswer sl st).tick = s.tick := by
  unfold State.countAnswer; repeat' split
  all_goals simp
@[simp] theorem State.countAnswer_frst (s : State) (sl st : Nat) : (s.countAnswer sl st).frst = s.frst := by
  unfold State.countAnswer; repeat' split
  all_goals simp
@[simp] theorem State.countAnswer_started (s : State) (sl st : Nat) : (s.countAnswer sl st).started = s.started := by
  unfold State.countAnswer; repeat' split
  all_goals simp
@[simp] theorem State.countAnswer_prim (s : State) (sl st : Nat) : (s.countAnswer sl st).prim = s.prim := by
  unfold State.countAnswer; repeat' split
  all_goals simp
@[simp] theorem State.countAnswer_haltConds (s : State) (sl st : Nat) : (s.countAnswer sl st).haltConds = s.haltConds := by
  unfold State.countAnswer; repeat' split
  all_goals simp
@[simp] theorem State.countAnswer_fallback (s : State) (sl st : Nat) : (s.countAnswer sl st).fallback = s.fallback := by
  unfold State.countAnswer; repeat' split
  all_goals simp
@[simp] theorem State.countAnswer_drainPend (s : State) (sl st : Nat) : (s.countAnswer sl st).drainPend = s.drainPend := by
  unfold State.countAnswer; repeat' split
  all_goals simp
@[simp] theorem State.countAnswer_drainAt (s : State) (sl st : Nat) : (s.countAnswer sl st).drainAt = s.drainAt := by
  unfold State.countAnswer; repeat' split
  all_goals simp
@[simp] theorem State.countAnswer_pdrec (s : State) (sl st : Nat) : (s.countAnswer sl st).pdrec = s.pdrec := by
  unfold State.countAnswer; repeat' split
  all_goals simp
@[simp] theorem State.countAnswer_modeWas (s : State) (sl st : Nat) : (s.countAnswer sl st).modeWas = s.modeWas := by
  unfold State.countAnswer; repeat' split
  all_goals simp
@[simp] theorem State.countAnswer_quietWas (s : State) (sl st : Nat) : (s.countAnswer sl st).quietWas = s.quietWas := by
  unfold State.countAnswer; repeat' split
  all_goals simp
@[simp] theorem State.countAnswer_shadows (s : State) (sl st : Nat) : (s.countAnswer sl st).shadows = s.shadows := by
  unfold State.countAnswer; repeat' split
  all_goals simp
@[simp] theorem State.countAnswer_tabs (s : State) (sl st : Nat) : (s.countAnswer sl st).tabs = s.tabs := by
  unfold State.countAnswer; repeat' split
  all_goals simp
@[simp] theorem State.countAnswer_fuses (s : State) (sl st : Nat) : (s.countAnswer sl st).fuses = s.fuses := by
  unfold State.countAnswer; repeat' split
  all_goals simp
@[simp] theorem State.countAnswer_ownEp (s : State) (sl st : Nat) : (s.countAnswer sl st).ownEp = s.ownEp := by
  unfold State.countAnswer; repeat' split
  all_goals simp
@[simp] theorem State.countAnswer_tim (s : State) (sl st : Nat) : (s.countAnswer sl st).tim = s.tim := by
  unfold State.countAnswer; repeat' split
  all_goals simp
@[simp] theorem State.countAnswer_fc (s : State) (sl st : Nat) : (s.countAnswer sl st).fc = s.fc := by
  unfold State.countAnswer; repeat' split
  all_goals simp
@[simp] theorem State.countAnswer_prg (s : State) (sl st : Nat) : (s.countAnswer sl st).prg = s.prg := by
  unfold State.countAnswer; repeat' split
  all_goals simp
@[simp] theorem State.countAnswer_epo (s : State) (sl st : Nat) : (s.countAnswer sl st).epo = s.epo := by
  unfold State.countAnswer; repeat' split
  all_goals simp
@[simp] theorem State.countAnswer_hub (s : State) (sl st : Nat) : (s.countAnswer sl st).hub = s.hub := by
  unfold State.countAnswer; repeat' split
  all_goals simp
@[simp] theorem State.countAnswer_rkCopy (s : State) (sl st : Nat) : (s.countAnswer sl st).rkCopy = s.rkCopy := by
  unfold State.countAnswer; repeat' split
  all_goals simp
@[simp] theorem State.countAnswer_rbuf (s : State) (sl st : Nat) : (s.countAnswer sl st).rbuf = s.rbuf := by
  unfold State.countAnswer; repeat' split
  all_goals simp
@[simp] theorem State.countAnswer_cred (s : State) (sl st : Nat) : (s.countAnswer sl st).cred = s.cred := by
  unfold State.countAnswer; repeat' split
  all_goals simp
@[simp] theorem State.countAnswer_arbs (s : State) (sl st : Nat) : (s.countAnswer sl st).arbs = s.arbs := by
  unfold State.countAnswer; repeat' split
  all_goals simp
@[simp] theorem State.countAnswer_ni (s : State) (sl st : Nat) : (s.countAnswer sl st).ni = s.ni := by
  unfold State.countAnswer; repeat' split
  all_goals simp
@[simp] theorem State.countAnswer_saf (s : State) (sl st : Nat) : (s.countAnswer sl st).saf = s.saf := by
  unfold State.countAnswer; repeat' split
  all_goals simp
@[simp] theorem State.countAnswer_home (s : State) (sl st : Nat) : (s.countAnswer sl st).home = s.home := by
  unfold State.countAnswer; repeat' split
  all_goals simp
@[simp] theorem State.countAnswer_dir (s : State) (sl st : Nat) : (s.countAnswer sl st).dir = s.dir := by
  unfold State.countAnswer; repeat' split
  all_goals simp
@[simp] theorem State.countAnswer_plru (s : State) (sl st : Nat) : (s.countAnswer sl st).plru = s.plru := by
  unfold State.countAnswer; repeat' split
  all_goals simp
@[simp] theorem State.countAnswer_pred (s : State) (sl st : Nat) : (s.countAnswer sl st).pred = s.pred := by
  unfold State.countAnswer; repeat' split
  all_goals simp
@[simp] theorem State.countAnswer_cache (s : State) (sl st : Nat) : (s.countAnswer sl st).cache = s.cache := by
  unfold State.countAnswer; repeat' split
  all_goals simp
@[simp] theorem State.countAnswer_recalls (s : State) (sl st : Nat) : (s.countAnswer sl st).recalls = s.recalls := by
  unfold State.countAnswer; repeat' split
  all_goals simp
@[simp] theorem State.countAnswer_sram (s : State) (sl st : Nat) : (s.countAnswer sl st).sram = s.sram := by
  unfold State.countAnswer; repeat' split
  all_goals simp
@[simp] theorem State.countAnswer_sramBad (s : State) (sl st : Nat) : (s.countAnswer sl st).sramBad = s.sramBad := by
  unfold State.countAnswer; repeat' split
  all_goals simp
@[simp] theorem State.countAnswer_bank (s : State) (sl st : Nat) : (s.countAnswer sl st).bank = s.bank := by
  unfold State.countAnswer; repeat' split
  all_goals simp
@[simp] theorem State.countAnswer_loc (s : State) (sl st : Nat) : (s.countAnswer sl st).loc = s.loc := by
  unfold State.countAnswer; repeat' split
  all_goals simp
@[simp] theorem State.countAnswer_que (s : State) (sl st : Nat) : (s.countAnswer sl st).que = s.que := by
  unfold State.countAnswer; repeat' split
  all_goals simp
@[simp] theorem State.countAnswer_qm (s : State) (sl st : Nat) : (s.countAnswer sl st).qm = s.qm := by
  unfold State.countAnswer; repeat' split
  all_goals simp
@[simp] theorem State.countAnswer_refillAt (s : State) (sl st : Nat) : (s.countAnswer sl st).refillAt = s.refillAt := by
  unfold State.countAnswer; repeat' split
  all_goals simp
@[simp] theorem State.countAnswer_ecl (s : State) (sl st : Nat) : (s.countAnswer sl st).ecl = s.ecl := by
  unfold State.countAnswer; repeat' split
  all_goals simp
@[simp] theorem State.countAnswer_lsram (s : State) (sl st : Nat) : (s.countAnswer sl st).lsram = s.lsram := by
  unfold State.countAnswer; repeat' split
  all_goals simp
@[simp] theorem State.countAnswer_lsramBad (s : State) (sl st : Nat) : (s.countAnswer sl st).lsramBad = s.lsramBad := by
  unfold State.countAnswer; repeat' split
  all_goals simp
@[simp] theorem State.countAnswer_ctrWas (s : State) (sl st : Nat) : (s.countAnswer sl st).ctrWas = s.ctrWas := by
  unfold State.countAnswer; repeat' split
  all_goals simp
@[simp] theorem State.countAnswer_ctrClr (s : State) (sl st : Nat) : (s.countAnswer sl st).ctrClr = s.ctrClr := by
  unfold State.countAnswer; repeat' split
  all_goals simp
@[simp] theorem State.countAnswer_wakePin (s : State) (sl st : Nat) : (s.countAnswer sl st).wakePin = s.wakePin := by
  unfold State.countAnswer; repeat' split
  all_goals simp
@[simp] theorem State.countAnswer_dom (s : State) (sl st : Nat) : (s.countAnswer sl st).dom = s.dom := by
  unfold State.countAnswer; repeat' split
  all_goals simp
@[simp] theorem State.countAnswer_sigs (s : State) (sl st : Nat) : (s.countAnswer sl st).sigs = s.sigs := by
  unfold State.countAnswer; repeat' split
  all_goals simp
@[simp] theorem State.countAnswer_slc (s : State) (sl st : Nat) : (s.countAnswer sl st).slc = s.slc := by
  unfold State.countAnswer; repeat' split
  all_goals simp
@[simp] theorem State.countAnswer_freeze (s : State) (sl st : Nat) : (s.countAnswer sl st).freeze = s.freeze := by
  unfold State.countAnswer; repeat' split
  all_goals simp
@[simp] theorem State.countAnswer_bw (s : State) (sl st : Nat) : (s.countAnswer sl st).bw = s.bw := by
  unfold State.countAnswer; repeat' split
  all_goals simp
@[simp] theorem State.countAnswer_probe (s : State) (sl st : Nat) : (s.countAnswer sl st).probe = s.probe := by
  unfold State.countAnswer; repeat' split
  all_goals simp
@[simp] theorem State.countAnswer_free (s : State) (sl st : Nat) : (s.countAnswer sl st).free = s.free := by
  unfold State.countAnswer; repeat' split
  all_goals simp

/-! ### `State.answer` changes only `ni`, `ctr`, `regs`, `cyc`, `bw`. -/

@[simp] theorem State.answer_pending (s : State) (f : Nat) (q : Pkt) (st c : Nat) (o : List Word64) : (s.answer f q st c o).pending = s.pending := by simp [State.answer]
@[simp] theorem State.answer_tick (s : State) (f : Nat) (q : Pkt) (st c : Nat) (o : List Word64) : (s.answer f q st c o).tick = s.tick := by simp [State.answer]
@[simp] theorem State.answer_frst (s : State) (f : Nat) (q : Pkt) (st c : Nat) (o : List Word64) : (s.answer f q st c o).frst = s.frst := by simp [State.answer]
@[simp] theorem State.answer_started (s : State) (f : Nat) (q : Pkt) (st c : Nat) (o : List Word64) : (s.answer f q st c o).started = s.started := by simp [State.answer]
@[simp] theorem State.answer_prim (s : State) (f : Nat) (q : Pkt) (st c : Nat) (o : List Word64) : (s.answer f q st c o).prim = s.prim := by simp [State.answer]
@[simp] theorem State.answer_haltConds (s : State) (f : Nat) (q : Pkt) (st c : Nat) (o : List Word64) : (s.answer f q st c o).haltConds = s.haltConds := by simp [State.answer]
@[simp] theorem State.answer_fallback (s : State) (f : Nat) (q : Pkt) (st c : Nat) (o : List Word64) : (s.answer f q st c o).fallback = s.fallback := by simp [State.answer]
@[simp] theorem State.answer_drainPend (s : State) (f : Nat) (q : Pkt) (st c : Nat) (o : List Word64) : (s.answer f q st c o).drainPend = s.drainPend := by simp [State.answer]
@[simp] theorem State.answer_drainAt (s : State) (f : Nat) (q : Pkt) (st c : Nat) (o : List Word64) : (s.answer f q st c o).drainAt = s.drainAt := by simp [State.answer]
@[simp] theorem State.answer_pdrec (s : State) (f : Nat) (q : Pkt) (st c : Nat) (o : List Word64) : (s.answer f q st c o).pdrec = s.pdrec := by simp [State.answer]
@[simp] theorem State.answer_modeWas (s : State) (f : Nat) (q : Pkt) (st c : Nat) (o : List Word64) : (s.answer f q st c o).modeWas = s.modeWas := by simp [State.answer]
@[simp] theorem State.answer_quietWas (s : State) (f : Nat) (q : Pkt) (st c : Nat) (o : List Word64) : (s.answer f q st c o).quietWas = s.quietWas := by simp [State.answer]
@[simp] theorem State.answer_shadows (s : State) (f : Nat) (q : Pkt) (st c : Nat) (o : List Word64) : (s.answer f q st c o).shadows = s.shadows := by simp [State.answer]
@[simp] theorem State.answer_tabs (s : State) (f : Nat) (q : Pkt) (st c : Nat) (o : List Word64) : (s.answer f q st c o).tabs = s.tabs := by simp [State.answer]
@[simp] theorem State.answer_fuses (s : State) (f : Nat) (q : Pkt) (st c : Nat) (o : List Word64) : (s.answer f q st c o).fuses = s.fuses := by simp [State.answer]
@[simp] theorem State.answer_ownEp (s : State) (f : Nat) (q : Pkt) (st c : Nat) (o : List Word64) : (s.answer f q st c o).ownEp = s.ownEp := by simp [State.answer]
@[simp] theorem State.answer_tim (s : State) (f : Nat) (q : Pkt) (st c : Nat) (o : List Word64) : (s.answer f q st c o).tim = s.tim := by simp [State.answer]
@[simp] theorem State.answer_fc (s : State) (f : Nat) (q : Pkt) (st c : Nat) (o : List Word64) : (s.answer f q st c o).fc = s.fc := by simp [State.answer]
@[simp] theorem State.answer_prg (s : State) (f : Nat) (q : Pkt) (st c : Nat) (o : List Word64) : (s.answer f q st c o).prg = s.prg := by simp [State.answer]
@[simp] theorem State.answer_epo (s : State) (f : Nat) (q : Pkt) (st c : Nat) (o : List Word64) : (s.answer f q st c o).epo = s.epo := by simp [State.answer]
@[simp] theorem State.answer_hub (s : State) (f : Nat) (q : Pkt) (st c : Nat) (o : List Word64) : (s.answer f q st c o).hub = s.hub := by simp [State.answer]
@[simp] theorem State.answer_rkCopy (s : State) (f : Nat) (q : Pkt) (st c : Nat) (o : List Word64) : (s.answer f q st c o).rkCopy = s.rkCopy := by simp [State.answer]
@[simp] theorem State.answer_rbuf (s : State) (f : Nat) (q : Pkt) (st c : Nat) (o : List Word64) : (s.answer f q st c o).rbuf = s.rbuf := by simp [State.answer]
@[simp] theorem State.answer_cred (s : State) (f : Nat) (q : Pkt) (st c : Nat) (o : List Word64) : (s.answer f q st c o).cred = s.cred := by simp [State.answer]
@[simp] theorem State.answer_arbs (s : State) (f : Nat) (q : Pkt) (st c : Nat) (o : List Word64) : (s.answer f q st c o).arbs = s.arbs := by simp [State.answer]
@[simp] theorem State.answer_saf (s : State) (f : Nat) (q : Pkt) (st c : Nat) (o : List Word64) : (s.answer f q st c o).saf = s.saf := by simp [State.answer]
@[simp] theorem State.answer_home (s : State) (f : Nat) (q : Pkt) (st c : Nat) (o : List Word64) : (s.answer f q st c o).home = s.home := by simp [State.answer]
@[simp] theorem State.answer_dir (s : State) (f : Nat) (q : Pkt) (st c : Nat) (o : List Word64) : (s.answer f q st c o).dir = s.dir := by simp [State.answer]
@[simp] theorem State.answer_plru (s : State) (f : Nat) (q : Pkt) (st c : Nat) (o : List Word64) : (s.answer f q st c o).plru = s.plru := by simp [State.answer]
@[simp] theorem State.answer_pred (s : State) (f : Nat) (q : Pkt) (st c : Nat) (o : List Word64) : (s.answer f q st c o).pred = s.pred := by simp [State.answer]
@[simp] theorem State.answer_cache (s : State) (f : Nat) (q : Pkt) (st c : Nat) (o : List Word64) : (s.answer f q st c o).cache = s.cache := by simp [State.answer]
@[simp] theorem State.answer_recalls (s : State) (f : Nat) (q : Pkt) (st c : Nat) (o : List Word64) : (s.answer f q st c o).recalls = s.recalls := by simp [State.answer]
@[simp] theorem State.answer_sram (s : State) (f : Nat) (q : Pkt) (st c : Nat) (o : List Word64) : (s.answer f q st c o).sram = s.sram := by simp [State.answer]
@[simp] theorem State.answer_sramBad (s : State) (f : Nat) (q : Pkt) (st c : Nat) (o : List Word64) : (s.answer f q st c o).sramBad = s.sramBad := by simp [State.answer]
@[simp] theorem State.answer_bank (s : State) (f : Nat) (q : Pkt) (st c : Nat) (o : List Word64) : (s.answer f q st c o).bank = s.bank := by simp [State.answer]
@[simp] theorem State.answer_loc (s : State) (f : Nat) (q : Pkt) (st c : Nat) (o : List Word64) : (s.answer f q st c o).loc = s.loc := by simp [State.answer]
@[simp] theorem State.answer_que (s : State) (f : Nat) (q : Pkt) (st c : Nat) (o : List Word64) : (s.answer f q st c o).que = s.que := by simp [State.answer]
@[simp] theorem State.answer_qm (s : State) (f : Nat) (q : Pkt) (st c : Nat) (o : List Word64) : (s.answer f q st c o).qm = s.qm := by simp [State.answer]
@[simp] theorem State.answer_refillAt (s : State) (f : Nat) (q : Pkt) (st c : Nat) (o : List Word64) : (s.answer f q st c o).refillAt = s.refillAt := by simp [State.answer]
@[simp] theorem State.answer_ecl (s : State) (f : Nat) (q : Pkt) (st c : Nat) (o : List Word64) : (s.answer f q st c o).ecl = s.ecl := by simp [State.answer]
@[simp] theorem State.answer_lsram (s : State) (f : Nat) (q : Pkt) (st c : Nat) (o : List Word64) : (s.answer f q st c o).lsram = s.lsram := by simp [State.answer]
@[simp] theorem State.answer_lsramBad (s : State) (f : Nat) (q : Pkt) (st c : Nat) (o : List Word64) : (s.answer f q st c o).lsramBad = s.lsramBad := by simp [State.answer]
@[simp] theorem State.answer_ctrWas (s : State) (f : Nat) (q : Pkt) (st c : Nat) (o : List Word64) : (s.answer f q st c o).ctrWas = s.ctrWas := by simp [State.answer]
@[simp] theorem State.answer_ctrClr (s : State) (f : Nat) (q : Pkt) (st c : Nat) (o : List Word64) : (s.answer f q st c o).ctrClr = s.ctrClr := by simp [State.answer]
@[simp] theorem State.answer_wakePin (s : State) (f : Nat) (q : Pkt) (st c : Nat) (o : List Word64) : (s.answer f q st c o).wakePin = s.wakePin := by simp [State.answer]
@[simp] theorem State.answer_dom (s : State) (f : Nat) (q : Pkt) (st c : Nat) (o : List Word64) : (s.answer f q st c o).dom = s.dom := by simp [State.answer]
@[simp] theorem State.answer_sigs (s : State) (f : Nat) (q : Pkt) (st c : Nat) (o : List Word64) : (s.answer f q st c o).sigs = s.sigs := by simp [State.answer]
@[simp] theorem State.answer_slc (s : State) (f : Nat) (q : Pkt) (st c : Nat) (o : List Word64) : (s.answer f q st c o).slc = s.slc := by simp [State.answer]
@[simp] theorem State.answer_freeze (s : State) (f : Nat) (q : Pkt) (st c : Nat) (o : List Word64) : (s.answer f q st c o).freeze = s.freeze := by simp [State.answer]
@[simp] theorem State.answer_probe (s : State) (f : Nat) (q : Pkt) (st c : Nat) (o : List Word64) : (s.answer f q st c o).probe = s.probe := by simp [State.answer]
@[simp] theorem State.answer_free (s : State) (f : Nat) (q : Pkt) (st c : Nat) (o : List Word64) : (s.answer f q st c o).free = s.free := by simp [State.answer]

/-! ### `State.raiseNi` changes only `ni`, `ctr`, `regs`, `cyc`, `bw`, `fc`. -/

@[simp] theorem State.raiseNi_pending (s : State) (f c l d : Nat) (j : Bool) (u : Option UnitRef) : (s.raiseNi f c l d j u).pending = s.pending := by
  unfold State.raiseNi; dsimp only; repeat' split
  all_goals simp
@[simp] theorem State.raiseNi_tick (s : State) (f c l d : Nat) (j : Bool) (u : Option UnitRef) : (s.raiseNi f c l d j u).tick = s.tick := by
  unfold State.raiseNi; dsimp only; repeat' split
  all_goals simp
@[simp] theorem State.raiseNi_frst (s : State) (f c l d : Nat) (j : Bool) (u : Option UnitRef) : (s.raiseNi f c l d j u).frst = s.frst := by
  unfold State.raiseNi; dsimp only; repeat' split
  all_goals simp
@[simp] theorem State.raiseNi_started (s : State) (f c l d : Nat) (j : Bool) (u : Option UnitRef) : (s.raiseNi f c l d j u).started = s.started := by
  unfold State.raiseNi; dsimp only; repeat' split
  all_goals simp
@[simp] theorem State.raiseNi_prim (s : State) (f c l d : Nat) (j : Bool) (u : Option UnitRef) : (s.raiseNi f c l d j u).prim = s.prim := by
  unfold State.raiseNi; dsimp only; repeat' split
  all_goals simp
@[simp] theorem State.raiseNi_haltConds (s : State) (f c l d : Nat) (j : Bool) (u : Option UnitRef) : (s.raiseNi f c l d j u).haltConds = s.haltConds := by
  unfold State.raiseNi; dsimp only; repeat' split
  all_goals simp
@[simp] theorem State.raiseNi_fallback (s : State) (f c l d : Nat) (j : Bool) (u : Option UnitRef) : (s.raiseNi f c l d j u).fallback = s.fallback := by
  unfold State.raiseNi; dsimp only; repeat' split
  all_goals simp
@[simp] theorem State.raiseNi_drainPend (s : State) (f c l d : Nat) (j : Bool) (u : Option UnitRef) : (s.raiseNi f c l d j u).drainPend = s.drainPend := by
  unfold State.raiseNi; dsimp only; repeat' split
  all_goals simp
@[simp] theorem State.raiseNi_drainAt (s : State) (f c l d : Nat) (j : Bool) (u : Option UnitRef) : (s.raiseNi f c l d j u).drainAt = s.drainAt := by
  unfold State.raiseNi; dsimp only; repeat' split
  all_goals simp
@[simp] theorem State.raiseNi_pdrec (s : State) (f c l d : Nat) (j : Bool) (u : Option UnitRef) : (s.raiseNi f c l d j u).pdrec = s.pdrec := by
  unfold State.raiseNi; dsimp only; repeat' split
  all_goals simp
@[simp] theorem State.raiseNi_modeWas (s : State) (f c l d : Nat) (j : Bool) (u : Option UnitRef) : (s.raiseNi f c l d j u).modeWas = s.modeWas := by
  unfold State.raiseNi; dsimp only; repeat' split
  all_goals simp
@[simp] theorem State.raiseNi_quietWas (s : State) (f c l d : Nat) (j : Bool) (u : Option UnitRef) : (s.raiseNi f c l d j u).quietWas = s.quietWas := by
  unfold State.raiseNi; dsimp only; repeat' split
  all_goals simp
@[simp] theorem State.raiseNi_shadows (s : State) (f c l d : Nat) (j : Bool) (u : Option UnitRef) : (s.raiseNi f c l d j u).shadows = s.shadows := by
  unfold State.raiseNi; dsimp only; repeat' split
  all_goals simp
@[simp] theorem State.raiseNi_tabs (s : State) (f c l d : Nat) (j : Bool) (u : Option UnitRef) : (s.raiseNi f c l d j u).tabs = s.tabs := by
  unfold State.raiseNi; dsimp only; repeat' split
  all_goals simp
@[simp] theorem State.raiseNi_fuses (s : State) (f c l d : Nat) (j : Bool) (u : Option UnitRef) : (s.raiseNi f c l d j u).fuses = s.fuses := by
  unfold State.raiseNi; dsimp only; repeat' split
  all_goals simp
@[simp] theorem State.raiseNi_ownEp (s : State) (f c l d : Nat) (j : Bool) (u : Option UnitRef) : (s.raiseNi f c l d j u).ownEp = s.ownEp := by
  unfold State.raiseNi; dsimp only; repeat' split
  all_goals simp
@[simp] theorem State.raiseNi_tim (s : State) (f c l d : Nat) (j : Bool) (u : Option UnitRef) : (s.raiseNi f c l d j u).tim = s.tim := by
  unfold State.raiseNi; dsimp only; repeat' split
  all_goals simp
@[simp] theorem State.raiseNi_prg (s : State) (f c l d : Nat) (j : Bool) (u : Option UnitRef) : (s.raiseNi f c l d j u).prg = s.prg := by
  unfold State.raiseNi; dsimp only; repeat' split
  all_goals simp
@[simp] theorem State.raiseNi_epo (s : State) (f c l d : Nat) (j : Bool) (u : Option UnitRef) : (s.raiseNi f c l d j u).epo = s.epo := by
  unfold State.raiseNi; dsimp only; repeat' split
  all_goals simp
@[simp] theorem State.raiseNi_hub (s : State) (f c l d : Nat) (j : Bool) (u : Option UnitRef) : (s.raiseNi f c l d j u).hub = s.hub := by
  unfold State.raiseNi; dsimp only; repeat' split
  all_goals simp
@[simp] theorem State.raiseNi_rkCopy (s : State) (f c l d : Nat) (j : Bool) (u : Option UnitRef) : (s.raiseNi f c l d j u).rkCopy = s.rkCopy := by
  unfold State.raiseNi; dsimp only; repeat' split
  all_goals simp
@[simp] theorem State.raiseNi_rbuf (s : State) (f c l d : Nat) (j : Bool) (u : Option UnitRef) : (s.raiseNi f c l d j u).rbuf = s.rbuf := by
  unfold State.raiseNi; dsimp only; repeat' split
  all_goals simp
@[simp] theorem State.raiseNi_cred (s : State) (f c l d : Nat) (j : Bool) (u : Option UnitRef) : (s.raiseNi f c l d j u).cred = s.cred := by
  unfold State.raiseNi; dsimp only; repeat' split
  all_goals simp
@[simp] theorem State.raiseNi_arbs (s : State) (f c l d : Nat) (j : Bool) (u : Option UnitRef) : (s.raiseNi f c l d j u).arbs = s.arbs := by
  unfold State.raiseNi; dsimp only; repeat' split
  all_goals simp
@[simp] theorem State.raiseNi_saf (s : State) (f c l d : Nat) (j : Bool) (u : Option UnitRef) : (s.raiseNi f c l d j u).saf = s.saf := by
  unfold State.raiseNi; dsimp only; repeat' split
  all_goals simp
@[simp] theorem State.raiseNi_home (s : State) (f c l d : Nat) (j : Bool) (u : Option UnitRef) : (s.raiseNi f c l d j u).home = s.home := by
  unfold State.raiseNi; dsimp only; repeat' split
  all_goals simp
@[simp] theorem State.raiseNi_dir (s : State) (f c l d : Nat) (j : Bool) (u : Option UnitRef) : (s.raiseNi f c l d j u).dir = s.dir := by
  unfold State.raiseNi; dsimp only; repeat' split
  all_goals simp
@[simp] theorem State.raiseNi_plru (s : State) (f c l d : Nat) (j : Bool) (u : Option UnitRef) : (s.raiseNi f c l d j u).plru = s.plru := by
  unfold State.raiseNi; dsimp only; repeat' split
  all_goals simp
@[simp] theorem State.raiseNi_pred (s : State) (f c l d : Nat) (j : Bool) (u : Option UnitRef) : (s.raiseNi f c l d j u).pred = s.pred := by
  unfold State.raiseNi; dsimp only; repeat' split
  all_goals simp
@[simp] theorem State.raiseNi_cache (s : State) (f c l d : Nat) (j : Bool) (u : Option UnitRef) : (s.raiseNi f c l d j u).cache = s.cache := by
  unfold State.raiseNi; dsimp only; repeat' split
  all_goals simp
@[simp] theorem State.raiseNi_recalls (s : State) (f c l d : Nat) (j : Bool) (u : Option UnitRef) : (s.raiseNi f c l d j u).recalls = s.recalls := by
  unfold State.raiseNi; dsimp only; repeat' split
  all_goals simp
@[simp] theorem State.raiseNi_sram (s : State) (f c l d : Nat) (j : Bool) (u : Option UnitRef) : (s.raiseNi f c l d j u).sram = s.sram := by
  unfold State.raiseNi; dsimp only; repeat' split
  all_goals simp
@[simp] theorem State.raiseNi_sramBad (s : State) (f c l d : Nat) (j : Bool) (u : Option UnitRef) : (s.raiseNi f c l d j u).sramBad = s.sramBad := by
  unfold State.raiseNi; dsimp only; repeat' split
  all_goals simp
@[simp] theorem State.raiseNi_bank (s : State) (f c l d : Nat) (j : Bool) (u : Option UnitRef) : (s.raiseNi f c l d j u).bank = s.bank := by
  unfold State.raiseNi; dsimp only; repeat' split
  all_goals simp
@[simp] theorem State.raiseNi_loc (s : State) (f c l d : Nat) (j : Bool) (u : Option UnitRef) : (s.raiseNi f c l d j u).loc = s.loc := by
  unfold State.raiseNi; dsimp only; repeat' split
  all_goals simp
@[simp] theorem State.raiseNi_que (s : State) (f c l d : Nat) (j : Bool) (u : Option UnitRef) : (s.raiseNi f c l d j u).que = s.que := by
  unfold State.raiseNi; dsimp only; repeat' split
  all_goals simp
@[simp] theorem State.raiseNi_qm (s : State) (f c l d : Nat) (j : Bool) (u : Option UnitRef) : (s.raiseNi f c l d j u).qm = s.qm := by
  unfold State.raiseNi; dsimp only; repeat' split
  all_goals simp
@[simp] theorem State.raiseNi_refillAt (s : State) (f c l d : Nat) (j : Bool) (u : Option UnitRef) : (s.raiseNi f c l d j u).refillAt = s.refillAt := by
  unfold State.raiseNi; dsimp only; repeat' split
  all_goals simp
@[simp] theorem State.raiseNi_ecl (s : State) (f c l d : Nat) (j : Bool) (u : Option UnitRef) : (s.raiseNi f c l d j u).ecl = s.ecl := by
  unfold State.raiseNi; dsimp only; repeat' split
  all_goals simp
@[simp] theorem State.raiseNi_lsram (s : State) (f c l d : Nat) (j : Bool) (u : Option UnitRef) : (s.raiseNi f c l d j u).lsram = s.lsram := by
  unfold State.raiseNi; dsimp only; repeat' split
  all_goals simp
@[simp] theorem State.raiseNi_lsramBad (s : State) (f c l d : Nat) (j : Bool) (u : Option UnitRef) : (s.raiseNi f c l d j u).lsramBad = s.lsramBad := by
  unfold State.raiseNi; dsimp only; repeat' split
  all_goals simp
@[simp] theorem State.raiseNi_ctrWas (s : State) (f c l d : Nat) (j : Bool) (u : Option UnitRef) : (s.raiseNi f c l d j u).ctrWas = s.ctrWas := by
  unfold State.raiseNi; dsimp only; repeat' split
  all_goals simp
@[simp] theorem State.raiseNi_ctrClr (s : State) (f c l d : Nat) (j : Bool) (u : Option UnitRef) : (s.raiseNi f c l d j u).ctrClr = s.ctrClr := by
  unfold State.raiseNi; dsimp only; repeat' split
  all_goals simp
@[simp] theorem State.raiseNi_wakePin (s : State) (f c l d : Nat) (j : Bool) (u : Option UnitRef) : (s.raiseNi f c l d j u).wakePin = s.wakePin := by
  unfold State.raiseNi; dsimp only; repeat' split
  all_goals simp
@[simp] theorem State.raiseNi_dom (s : State) (f c l d : Nat) (j : Bool) (u : Option UnitRef) : (s.raiseNi f c l d j u).dom = s.dom := by
  unfold State.raiseNi; dsimp only; repeat' split
  all_goals simp
@[simp] theorem State.raiseNi_sigs (s : State) (f c l d : Nat) (j : Bool) (u : Option UnitRef) : (s.raiseNi f c l d j u).sigs = s.sigs := by
  unfold State.raiseNi; dsimp only; repeat' split
  all_goals simp
@[simp] theorem State.raiseNi_slc (s : State) (f c l d : Nat) (j : Bool) (u : Option UnitRef) : (s.raiseNi f c l d j u).slc = s.slc := by
  unfold State.raiseNi; dsimp only; repeat' split
  all_goals simp
@[simp] theorem State.raiseNi_freeze (s : State) (f c l d : Nat) (j : Bool) (u : Option UnitRef) : (s.raiseNi f c l d j u).freeze = s.freeze := by
  unfold State.raiseNi; dsimp only; repeat' split
  all_goals simp
@[simp] theorem State.raiseNi_probe (s : State) (f c l d : Nat) (j : Bool) (u : Option UnitRef) : (s.raiseNi f c l d j u).probe = s.probe := by
  unfold State.raiseNi; dsimp only; repeat' split
  all_goals simp
@[simp] theorem State.raiseNi_free (s : State) (f c l d : Nat) (j : Bool) (u : Option UnitRef) : (s.raiseNi f c l d j u).free = s.free := by
  unfold State.raiseNi; dsimp only; repeat' split
  all_goals simp

/-! ### `State.capture` changes only `regs`, `cyc`. -/

@[simp] theorem State.capture_pending (s : State) (a l h : Reg) (b p n v c x : Nat) : (s.capture a l h b p n v c x).pending = s.pending := by simp [State.capture]
@[simp] theorem State.capture_tick (s : State) (a l h : Reg) (b p n v c x : Nat) : (s.capture a l h b p n v c x).tick = s.tick := by simp [State.capture]
@[simp] theorem State.capture_frst (s : State) (a l h : Reg) (b p n v c x : Nat) : (s.capture a l h b p n v c x).frst = s.frst := by simp [State.capture]
@[simp] theorem State.capture_started (s : State) (a l h : Reg) (b p n v c x : Nat) : (s.capture a l h b p n v c x).started = s.started := by simp [State.capture]
@[simp] theorem State.capture_prim (s : State) (a l h : Reg) (b p n v c x : Nat) : (s.capture a l h b p n v c x).prim = s.prim := by simp [State.capture]
@[simp] theorem State.capture_haltConds (s : State) (a l h : Reg) (b p n v c x : Nat) : (s.capture a l h b p n v c x).haltConds = s.haltConds := by simp [State.capture]
@[simp] theorem State.capture_fallback (s : State) (a l h : Reg) (b p n v c x : Nat) : (s.capture a l h b p n v c x).fallback = s.fallback := by simp [State.capture]
@[simp] theorem State.capture_drainPend (s : State) (a l h : Reg) (b p n v c x : Nat) : (s.capture a l h b p n v c x).drainPend = s.drainPend := by simp [State.capture]
@[simp] theorem State.capture_drainAt (s : State) (a l h : Reg) (b p n v c x : Nat) : (s.capture a l h b p n v c x).drainAt = s.drainAt := by simp [State.capture]
@[simp] theorem State.capture_pdrec (s : State) (a l h : Reg) (b p n v c x : Nat) : (s.capture a l h b p n v c x).pdrec = s.pdrec := by simp [State.capture]
@[simp] theorem State.capture_modeWas (s : State) (a l h : Reg) (b p n v c x : Nat) : (s.capture a l h b p n v c x).modeWas = s.modeWas := by simp [State.capture]
@[simp] theorem State.capture_quietWas (s : State) (a l h : Reg) (b p n v c x : Nat) : (s.capture a l h b p n v c x).quietWas = s.quietWas := by simp [State.capture]
@[simp] theorem State.capture_shadows (s : State) (a l h : Reg) (b p n v c x : Nat) : (s.capture a l h b p n v c x).shadows = s.shadows := by simp [State.capture]
@[simp] theorem State.capture_tabs (s : State) (a l h : Reg) (b p n v c x : Nat) : (s.capture a l h b p n v c x).tabs = s.tabs := by simp [State.capture]
@[simp] theorem State.capture_fuses (s : State) (a l h : Reg) (b p n v c x : Nat) : (s.capture a l h b p n v c x).fuses = s.fuses := by simp [State.capture]
@[simp] theorem State.capture_ownEp (s : State) (a l h : Reg) (b p n v c x : Nat) : (s.capture a l h b p n v c x).ownEp = s.ownEp := by simp [State.capture]
@[simp] theorem State.capture_tim (s : State) (a l h : Reg) (b p n v c x : Nat) : (s.capture a l h b p n v c x).tim = s.tim := by simp [State.capture]
@[simp] theorem State.capture_fc (s : State) (a l h : Reg) (b p n v c x : Nat) : (s.capture a l h b p n v c x).fc = s.fc := by simp [State.capture]
@[simp] theorem State.capture_prg (s : State) (a l h : Reg) (b p n v c x : Nat) : (s.capture a l h b p n v c x).prg = s.prg := by simp [State.capture]
@[simp] theorem State.capture_epo (s : State) (a l h : Reg) (b p n v c x : Nat) : (s.capture a l h b p n v c x).epo = s.epo := by simp [State.capture]
@[simp] theorem State.capture_hub (s : State) (a l h : Reg) (b p n v c x : Nat) : (s.capture a l h b p n v c x).hub = s.hub := by simp [State.capture]
@[simp] theorem State.capture_rkCopy (s : State) (a l h : Reg) (b p n v c x : Nat) : (s.capture a l h b p n v c x).rkCopy = s.rkCopy := by simp [State.capture]
@[simp] theorem State.capture_rbuf (s : State) (a l h : Reg) (b p n v c x : Nat) : (s.capture a l h b p n v c x).rbuf = s.rbuf := by simp [State.capture]
@[simp] theorem State.capture_cred (s : State) (a l h : Reg) (b p n v c x : Nat) : (s.capture a l h b p n v c x).cred = s.cred := by simp [State.capture]
@[simp] theorem State.capture_arbs (s : State) (a l h : Reg) (b p n v c x : Nat) : (s.capture a l h b p n v c x).arbs = s.arbs := by simp [State.capture]
@[simp] theorem State.capture_ni (s : State) (a l h : Reg) (b p n v c x : Nat) : (s.capture a l h b p n v c x).ni = s.ni := by simp [State.capture]
@[simp] theorem State.capture_saf (s : State) (a l h : Reg) (b p n v c x : Nat) : (s.capture a l h b p n v c x).saf = s.saf := by simp [State.capture]
@[simp] theorem State.capture_home (s : State) (a l h : Reg) (b p n v c x : Nat) : (s.capture a l h b p n v c x).home = s.home := by simp [State.capture]
@[simp] theorem State.capture_dir (s : State) (a l h : Reg) (b p n v c x : Nat) : (s.capture a l h b p n v c x).dir = s.dir := by simp [State.capture]
@[simp] theorem State.capture_plru (s : State) (a l h : Reg) (b p n v c x : Nat) : (s.capture a l h b p n v c x).plru = s.plru := by simp [State.capture]
@[simp] theorem State.capture_pred (s : State) (a l h : Reg) (b p n v c x : Nat) : (s.capture a l h b p n v c x).pred = s.pred := by simp [State.capture]
@[simp] theorem State.capture_cache (s : State) (a l h : Reg) (b p n v c x : Nat) : (s.capture a l h b p n v c x).cache = s.cache := by simp [State.capture]
@[simp] theorem State.capture_recalls (s : State) (a l h : Reg) (b p n v c x : Nat) : (s.capture a l h b p n v c x).recalls = s.recalls := by simp [State.capture]
@[simp] theorem State.capture_sram (s : State) (a l h : Reg) (b p n v c x : Nat) : (s.capture a l h b p n v c x).sram = s.sram := by simp [State.capture]
@[simp] theorem State.capture_sramBad (s : State) (a l h : Reg) (b p n v c x : Nat) : (s.capture a l h b p n v c x).sramBad = s.sramBad := by simp [State.capture]
@[simp] theorem State.capture_bank (s : State) (a l h : Reg) (b p n v c x : Nat) : (s.capture a l h b p n v c x).bank = s.bank := by simp [State.capture]
@[simp] theorem State.capture_loc (s : State) (a l h : Reg) (b p n v c x : Nat) : (s.capture a l h b p n v c x).loc = s.loc := by simp [State.capture]
@[simp] theorem State.capture_que (s : State) (a l h : Reg) (b p n v c x : Nat) : (s.capture a l h b p n v c x).que = s.que := by simp [State.capture]
@[simp] theorem State.capture_qm (s : State) (a l h : Reg) (b p n v c x : Nat) : (s.capture a l h b p n v c x).qm = s.qm := by simp [State.capture]
@[simp] theorem State.capture_refillAt (s : State) (a l h : Reg) (b p n v c x : Nat) : (s.capture a l h b p n v c x).refillAt = s.refillAt := by simp [State.capture]
@[simp] theorem State.capture_ecl (s : State) (a l h : Reg) (b p n v c x : Nat) : (s.capture a l h b p n v c x).ecl = s.ecl := by simp [State.capture]
@[simp] theorem State.capture_lsram (s : State) (a l h : Reg) (b p n v c x : Nat) : (s.capture a l h b p n v c x).lsram = s.lsram := by simp [State.capture]
@[simp] theorem State.capture_lsramBad (s : State) (a l h : Reg) (b p n v c x : Nat) : (s.capture a l h b p n v c x).lsramBad = s.lsramBad := by simp [State.capture]
@[simp] theorem State.capture_ctr (s : State) (a l h : Reg) (b p n v c x : Nat) : (s.capture a l h b p n v c x).ctr = s.ctr := by simp [State.capture]
@[simp] theorem State.capture_ctrWas (s : State) (a l h : Reg) (b p n v c x : Nat) : (s.capture a l h b p n v c x).ctrWas = s.ctrWas := by simp [State.capture]
@[simp] theorem State.capture_ctrClr (s : State) (a l h : Reg) (b p n v c x : Nat) : (s.capture a l h b p n v c x).ctrClr = s.ctrClr := by simp [State.capture]
@[simp] theorem State.capture_wakePin (s : State) (a l h : Reg) (b p n v c x : Nat) : (s.capture a l h b p n v c x).wakePin = s.wakePin := by simp [State.capture]
@[simp] theorem State.capture_dom (s : State) (a l h : Reg) (b p n v c x : Nat) : (s.capture a l h b p n v c x).dom = s.dom := by simp [State.capture]
@[simp] theorem State.capture_sigs (s : State) (a l h : Reg) (b p n v c x : Nat) : (s.capture a l h b p n v c x).sigs = s.sigs := by simp [State.capture]
@[simp] theorem State.capture_slc (s : State) (a l h : Reg) (b p n v c x : Nat) : (s.capture a l h b p n v c x).slc = s.slc := by simp [State.capture]
@[simp] theorem State.capture_freeze (s : State) (a l h : Reg) (b p n v c x : Nat) : (s.capture a l h b p n v c x).freeze = s.freeze := by simp [State.capture]
@[simp] theorem State.capture_bw (s : State) (a l h : Reg) (b p n v c x : Nat) : (s.capture a l h b p n v c x).bw = s.bw := by simp [State.capture]
@[simp] theorem State.capture_probe (s : State) (a l h : Reg) (b p n v c x : Nat) : (s.capture a l h b p n v c x).probe = s.probe := by simp [State.capture]
@[simp] theorem State.capture_free (s : State) (a l h : Reg) (b p n v c x : Nat) : (s.capture a l h b p n v c x).free = s.free := by simp [State.capture]

/-! ### `State.captureNi` changes only `regs`, `cyc`. -/

@[simp] theorem State.captureNi_pending (s : State) (f c : Nat) (p : Pkt) : (s.captureNi f c p).pending = s.pending := by simp [State.captureNi]
@[simp] theorem State.captureNi_tick (s : State) (f c : Nat) (p : Pkt) : (s.captureNi f c p).tick = s.tick := by simp [State.captureNi]
@[simp] theorem State.captureNi_frst (s : State) (f c : Nat) (p : Pkt) : (s.captureNi f c p).frst = s.frst := by simp [State.captureNi]
@[simp] theorem State.captureNi_started (s : State) (f c : Nat) (p : Pkt) : (s.captureNi f c p).started = s.started := by simp [State.captureNi]
@[simp] theorem State.captureNi_prim (s : State) (f c : Nat) (p : Pkt) : (s.captureNi f c p).prim = s.prim := by simp [State.captureNi]
@[simp] theorem State.captureNi_haltConds (s : State) (f c : Nat) (p : Pkt) : (s.captureNi f c p).haltConds = s.haltConds := by simp [State.captureNi]
@[simp] theorem State.captureNi_fallback (s : State) (f c : Nat) (p : Pkt) : (s.captureNi f c p).fallback = s.fallback := by simp [State.captureNi]
@[simp] theorem State.captureNi_drainPend (s : State) (f c : Nat) (p : Pkt) : (s.captureNi f c p).drainPend = s.drainPend := by simp [State.captureNi]
@[simp] theorem State.captureNi_drainAt (s : State) (f c : Nat) (p : Pkt) : (s.captureNi f c p).drainAt = s.drainAt := by simp [State.captureNi]
@[simp] theorem State.captureNi_pdrec (s : State) (f c : Nat) (p : Pkt) : (s.captureNi f c p).pdrec = s.pdrec := by simp [State.captureNi]
@[simp] theorem State.captureNi_modeWas (s : State) (f c : Nat) (p : Pkt) : (s.captureNi f c p).modeWas = s.modeWas := by simp [State.captureNi]
@[simp] theorem State.captureNi_quietWas (s : State) (f c : Nat) (p : Pkt) : (s.captureNi f c p).quietWas = s.quietWas := by simp [State.captureNi]
@[simp] theorem State.captureNi_shadows (s : State) (f c : Nat) (p : Pkt) : (s.captureNi f c p).shadows = s.shadows := by simp [State.captureNi]
@[simp] theorem State.captureNi_tabs (s : State) (f c : Nat) (p : Pkt) : (s.captureNi f c p).tabs = s.tabs := by simp [State.captureNi]
@[simp] theorem State.captureNi_fuses (s : State) (f c : Nat) (p : Pkt) : (s.captureNi f c p).fuses = s.fuses := by simp [State.captureNi]
@[simp] theorem State.captureNi_ownEp (s : State) (f c : Nat) (p : Pkt) : (s.captureNi f c p).ownEp = s.ownEp := by simp [State.captureNi]
@[simp] theorem State.captureNi_tim (s : State) (f c : Nat) (p : Pkt) : (s.captureNi f c p).tim = s.tim := by simp [State.captureNi]
@[simp] theorem State.captureNi_fc (s : State) (f c : Nat) (p : Pkt) : (s.captureNi f c p).fc = s.fc := by simp [State.captureNi]
@[simp] theorem State.captureNi_prg (s : State) (f c : Nat) (p : Pkt) : (s.captureNi f c p).prg = s.prg := by simp [State.captureNi]
@[simp] theorem State.captureNi_epo (s : State) (f c : Nat) (p : Pkt) : (s.captureNi f c p).epo = s.epo := by simp [State.captureNi]
@[simp] theorem State.captureNi_hub (s : State) (f c : Nat) (p : Pkt) : (s.captureNi f c p).hub = s.hub := by simp [State.captureNi]
@[simp] theorem State.captureNi_rkCopy (s : State) (f c : Nat) (p : Pkt) : (s.captureNi f c p).rkCopy = s.rkCopy := by simp [State.captureNi]
@[simp] theorem State.captureNi_rbuf (s : State) (f c : Nat) (p : Pkt) : (s.captureNi f c p).rbuf = s.rbuf := by simp [State.captureNi]
@[simp] theorem State.captureNi_cred (s : State) (f c : Nat) (p : Pkt) : (s.captureNi f c p).cred = s.cred := by simp [State.captureNi]
@[simp] theorem State.captureNi_arbs (s : State) (f c : Nat) (p : Pkt) : (s.captureNi f c p).arbs = s.arbs := by simp [State.captureNi]
@[simp] theorem State.captureNi_ni (s : State) (f c : Nat) (p : Pkt) : (s.captureNi f c p).ni = s.ni := by simp [State.captureNi]
@[simp] theorem State.captureNi_saf (s : State) (f c : Nat) (p : Pkt) : (s.captureNi f c p).saf = s.saf := by simp [State.captureNi]
@[simp] theorem State.captureNi_home (s : State) (f c : Nat) (p : Pkt) : (s.captureNi f c p).home = s.home := by simp [State.captureNi]
@[simp] theorem State.captureNi_dir (s : State) (f c : Nat) (p : Pkt) : (s.captureNi f c p).dir = s.dir := by simp [State.captureNi]
@[simp] theorem State.captureNi_plru (s : State) (f c : Nat) (p : Pkt) : (s.captureNi f c p).plru = s.plru := by simp [State.captureNi]
@[simp] theorem State.captureNi_pred (s : State) (f c : Nat) (p : Pkt) : (s.captureNi f c p).pred = s.pred := by simp [State.captureNi]
@[simp] theorem State.captureNi_cache (s : State) (f c : Nat) (p : Pkt) : (s.captureNi f c p).cache = s.cache := by simp [State.captureNi]
@[simp] theorem State.captureNi_recalls (s : State) (f c : Nat) (p : Pkt) : (s.captureNi f c p).recalls = s.recalls := by simp [State.captureNi]
@[simp] theorem State.captureNi_sram (s : State) (f c : Nat) (p : Pkt) : (s.captureNi f c p).sram = s.sram := by simp [State.captureNi]
@[simp] theorem State.captureNi_sramBad (s : State) (f c : Nat) (p : Pkt) : (s.captureNi f c p).sramBad = s.sramBad := by simp [State.captureNi]
@[simp] theorem State.captureNi_bank (s : State) (f c : Nat) (p : Pkt) : (s.captureNi f c p).bank = s.bank := by simp [State.captureNi]
@[simp] theorem State.captureNi_loc (s : State) (f c : Nat) (p : Pkt) : (s.captureNi f c p).loc = s.loc := by simp [State.captureNi]
@[simp] theorem State.captureNi_que (s : State) (f c : Nat) (p : Pkt) : (s.captureNi f c p).que = s.que := by simp [State.captureNi]
@[simp] theorem State.captureNi_qm (s : State) (f c : Nat) (p : Pkt) : (s.captureNi f c p).qm = s.qm := by simp [State.captureNi]
@[simp] theorem State.captureNi_refillAt (s : State) (f c : Nat) (p : Pkt) : (s.captureNi f c p).refillAt = s.refillAt := by simp [State.captureNi]
@[simp] theorem State.captureNi_ecl (s : State) (f c : Nat) (p : Pkt) : (s.captureNi f c p).ecl = s.ecl := by simp [State.captureNi]
@[simp] theorem State.captureNi_lsram (s : State) (f c : Nat) (p : Pkt) : (s.captureNi f c p).lsram = s.lsram := by simp [State.captureNi]
@[simp] theorem State.captureNi_lsramBad (s : State) (f c : Nat) (p : Pkt) : (s.captureNi f c p).lsramBad = s.lsramBad := by simp [State.captureNi]
@[simp] theorem State.captureNi_ctr (s : State) (f c : Nat) (p : Pkt) : (s.captureNi f c p).ctr = s.ctr := by simp [State.captureNi]
@[simp] theorem State.captureNi_ctrWas (s : State) (f c : Nat) (p : Pkt) : (s.captureNi f c p).ctrWas = s.ctrWas := by simp [State.captureNi]
@[simp] theorem State.captureNi_ctrClr (s : State) (f c : Nat) (p : Pkt) : (s.captureNi f c p).ctrClr = s.ctrClr := by simp [State.captureNi]
@[simp] theorem State.captureNi_wakePin (s : State) (f c : Nat) (p : Pkt) : (s.captureNi f c p).wakePin = s.wakePin := by simp [State.captureNi]
@[simp] theorem State.captureNi_dom (s : State) (f c : Nat) (p : Pkt) : (s.captureNi f c p).dom = s.dom := by simp [State.captureNi]
@[simp] theorem State.captureNi_sigs (s : State) (f c : Nat) (p : Pkt) : (s.captureNi f c p).sigs = s.sigs := by simp [State.captureNi]
@[simp] theorem State.captureNi_slc (s : State) (f c : Nat) (p : Pkt) : (s.captureNi f c p).slc = s.slc := by simp [State.captureNi]
@[simp] theorem State.captureNi_freeze (s : State) (f c : Nat) (p : Pkt) : (s.captureNi f c p).freeze = s.freeze := by simp [State.captureNi]
@[simp] theorem State.captureNi_bw (s : State) (f c : Nat) (p : Pkt) : (s.captureNi f c p).bw = s.bw := by simp [State.captureNi]
@[simp] theorem State.captureNi_probe (s : State) (f c : Nat) (p : Pkt) : (s.captureNi f c p).probe = s.probe := by simp [State.captureNi]
@[simp] theorem State.captureNi_free (s : State) (f c : Nat) (p : Pkt) : (s.captureNi f c p).free = s.free := by simp [State.captureNi]

/-! ### `State.captureRtr` changes only `regs`, `cyc`. -/

@[simp] theorem State.captureRtr_pending (s : State) (n q c : Nat) (p : Pkt) : (s.captureRtr n q c p).pending = s.pending := by simp [State.captureRtr]
@[simp] theorem State.captureRtr_tick (s : State) (n q c : Nat) (p : Pkt) : (s.captureRtr n q c p).tick = s.tick := by simp [State.captureRtr]
@[simp] theorem State.captureRtr_frst (s : State) (n q c : Nat) (p : Pkt) : (s.captureRtr n q c p).frst = s.frst := by simp [State.captureRtr]
@[simp] theorem State.captureRtr_started (s : State) (n q c : Nat) (p : Pkt) : (s.captureRtr n q c p).started = s.started := by simp [State.captureRtr]
@[simp] theorem State.captureRtr_prim (s : State) (n q c : Nat) (p : Pkt) : (s.captureRtr n q c p).prim = s.prim := by simp [State.captureRtr]
@[simp] theorem State.captureRtr_haltConds (s : State) (n q c : Nat) (p : Pkt) : (s.captureRtr n q c p).haltConds = s.haltConds := by simp [State.captureRtr]
@[simp] theorem State.captureRtr_fallback (s : State) (n q c : Nat) (p : Pkt) : (s.captureRtr n q c p).fallback = s.fallback := by simp [State.captureRtr]
@[simp] theorem State.captureRtr_drainPend (s : State) (n q c : Nat) (p : Pkt) : (s.captureRtr n q c p).drainPend = s.drainPend := by simp [State.captureRtr]
@[simp] theorem State.captureRtr_drainAt (s : State) (n q c : Nat) (p : Pkt) : (s.captureRtr n q c p).drainAt = s.drainAt := by simp [State.captureRtr]
@[simp] theorem State.captureRtr_pdrec (s : State) (n q c : Nat) (p : Pkt) : (s.captureRtr n q c p).pdrec = s.pdrec := by simp [State.captureRtr]
@[simp] theorem State.captureRtr_modeWas (s : State) (n q c : Nat) (p : Pkt) : (s.captureRtr n q c p).modeWas = s.modeWas := by simp [State.captureRtr]
@[simp] theorem State.captureRtr_quietWas (s : State) (n q c : Nat) (p : Pkt) : (s.captureRtr n q c p).quietWas = s.quietWas := by simp [State.captureRtr]
@[simp] theorem State.captureRtr_shadows (s : State) (n q c : Nat) (p : Pkt) : (s.captureRtr n q c p).shadows = s.shadows := by simp [State.captureRtr]
@[simp] theorem State.captureRtr_tabs (s : State) (n q c : Nat) (p : Pkt) : (s.captureRtr n q c p).tabs = s.tabs := by simp [State.captureRtr]
@[simp] theorem State.captureRtr_fuses (s : State) (n q c : Nat) (p : Pkt) : (s.captureRtr n q c p).fuses = s.fuses := by simp [State.captureRtr]
@[simp] theorem State.captureRtr_ownEp (s : State) (n q c : Nat) (p : Pkt) : (s.captureRtr n q c p).ownEp = s.ownEp := by simp [State.captureRtr]
@[simp] theorem State.captureRtr_tim (s : State) (n q c : Nat) (p : Pkt) : (s.captureRtr n q c p).tim = s.tim := by simp [State.captureRtr]
@[simp] theorem State.captureRtr_fc (s : State) (n q c : Nat) (p : Pkt) : (s.captureRtr n q c p).fc = s.fc := by simp [State.captureRtr]
@[simp] theorem State.captureRtr_prg (s : State) (n q c : Nat) (p : Pkt) : (s.captureRtr n q c p).prg = s.prg := by simp [State.captureRtr]
@[simp] theorem State.captureRtr_epo (s : State) (n q c : Nat) (p : Pkt) : (s.captureRtr n q c p).epo = s.epo := by simp [State.captureRtr]
@[simp] theorem State.captureRtr_hub (s : State) (n q c : Nat) (p : Pkt) : (s.captureRtr n q c p).hub = s.hub := by simp [State.captureRtr]
@[simp] theorem State.captureRtr_rkCopy (s : State) (n q c : Nat) (p : Pkt) : (s.captureRtr n q c p).rkCopy = s.rkCopy := by simp [State.captureRtr]
@[simp] theorem State.captureRtr_rbuf (s : State) (n q c : Nat) (p : Pkt) : (s.captureRtr n q c p).rbuf = s.rbuf := by simp [State.captureRtr]
@[simp] theorem State.captureRtr_cred (s : State) (n q c : Nat) (p : Pkt) : (s.captureRtr n q c p).cred = s.cred := by simp [State.captureRtr]
@[simp] theorem State.captureRtr_arbs (s : State) (n q c : Nat) (p : Pkt) : (s.captureRtr n q c p).arbs = s.arbs := by simp [State.captureRtr]
@[simp] theorem State.captureRtr_ni (s : State) (n q c : Nat) (p : Pkt) : (s.captureRtr n q c p).ni = s.ni := by simp [State.captureRtr]
@[simp] theorem State.captureRtr_saf (s : State) (n q c : Nat) (p : Pkt) : (s.captureRtr n q c p).saf = s.saf := by simp [State.captureRtr]
@[simp] theorem State.captureRtr_home (s : State) (n q c : Nat) (p : Pkt) : (s.captureRtr n q c p).home = s.home := by simp [State.captureRtr]
@[simp] theorem State.captureRtr_dir (s : State) (n q c : Nat) (p : Pkt) : (s.captureRtr n q c p).dir = s.dir := by simp [State.captureRtr]
@[simp] theorem State.captureRtr_plru (s : State) (n q c : Nat) (p : Pkt) : (s.captureRtr n q c p).plru = s.plru := by simp [State.captureRtr]
@[simp] theorem State.captureRtr_pred (s : State) (n q c : Nat) (p : Pkt) : (s.captureRtr n q c p).pred = s.pred := by simp [State.captureRtr]
@[simp] theorem State.captureRtr_cache (s : State) (n q c : Nat) (p : Pkt) : (s.captureRtr n q c p).cache = s.cache := by simp [State.captureRtr]
@[simp] theorem State.captureRtr_recalls (s : State) (n q c : Nat) (p : Pkt) : (s.captureRtr n q c p).recalls = s.recalls := by simp [State.captureRtr]
@[simp] theorem State.captureRtr_sram (s : State) (n q c : Nat) (p : Pkt) : (s.captureRtr n q c p).sram = s.sram := by simp [State.captureRtr]
@[simp] theorem State.captureRtr_sramBad (s : State) (n q c : Nat) (p : Pkt) : (s.captureRtr n q c p).sramBad = s.sramBad := by simp [State.captureRtr]
@[simp] theorem State.captureRtr_bank (s : State) (n q c : Nat) (p : Pkt) : (s.captureRtr n q c p).bank = s.bank := by simp [State.captureRtr]
@[simp] theorem State.captureRtr_loc (s : State) (n q c : Nat) (p : Pkt) : (s.captureRtr n q c p).loc = s.loc := by simp [State.captureRtr]
@[simp] theorem State.captureRtr_que (s : State) (n q c : Nat) (p : Pkt) : (s.captureRtr n q c p).que = s.que := by simp [State.captureRtr]
@[simp] theorem State.captureRtr_qm (s : State) (n q c : Nat) (p : Pkt) : (s.captureRtr n q c p).qm = s.qm := by simp [State.captureRtr]
@[simp] theorem State.captureRtr_refillAt (s : State) (n q c : Nat) (p : Pkt) : (s.captureRtr n q c p).refillAt = s.refillAt := by simp [State.captureRtr]
@[simp] theorem State.captureRtr_ecl (s : State) (n q c : Nat) (p : Pkt) : (s.captureRtr n q c p).ecl = s.ecl := by simp [State.captureRtr]
@[simp] theorem State.captureRtr_lsram (s : State) (n q c : Nat) (p : Pkt) : (s.captureRtr n q c p).lsram = s.lsram := by simp [State.captureRtr]
@[simp] theorem State.captureRtr_lsramBad (s : State) (n q c : Nat) (p : Pkt) : (s.captureRtr n q c p).lsramBad = s.lsramBad := by simp [State.captureRtr]
@[simp] theorem State.captureRtr_ctr (s : State) (n q c : Nat) (p : Pkt) : (s.captureRtr n q c p).ctr = s.ctr := by simp [State.captureRtr]
@[simp] theorem State.captureRtr_ctrWas (s : State) (n q c : Nat) (p : Pkt) : (s.captureRtr n q c p).ctrWas = s.ctrWas := by simp [State.captureRtr]
@[simp] theorem State.captureRtr_ctrClr (s : State) (n q c : Nat) (p : Pkt) : (s.captureRtr n q c p).ctrClr = s.ctrClr := by simp [State.captureRtr]
@[simp] theorem State.captureRtr_wakePin (s : State) (n q c : Nat) (p : Pkt) : (s.captureRtr n q c p).wakePin = s.wakePin := by simp [State.captureRtr]
@[simp] theorem State.captureRtr_dom (s : State) (n q c : Nat) (p : Pkt) : (s.captureRtr n q c p).dom = s.dom := by simp [State.captureRtr]
@[simp] theorem State.captureRtr_sigs (s : State) (n q c : Nat) (p : Pkt) : (s.captureRtr n q c p).sigs = s.sigs := by simp [State.captureRtr]
@[simp] theorem State.captureRtr_slc (s : State) (n q c : Nat) (p : Pkt) : (s.captureRtr n q c p).slc = s.slc := by simp [State.captureRtr]
@[simp] theorem State.captureRtr_freeze (s : State) (n q c : Nat) (p : Pkt) : (s.captureRtr n q c p).freeze = s.freeze := by simp [State.captureRtr]
@[simp] theorem State.captureRtr_bw (s : State) (n q c : Nat) (p : Pkt) : (s.captureRtr n q c p).bw = s.bw := by simp [State.captureRtr]
@[simp] theorem State.captureRtr_probe (s : State) (n q c : Nat) (p : Pkt) : (s.captureRtr n q c p).probe = s.probe := by simp [State.captureRtr]
@[simp] theorem State.captureRtr_free (s : State) (n q c : Nat) (p : Pkt) : (s.captureRtr n q c p).free = s.free := by simp [State.captureRtr]

end Sys2Proof.Machine
end

