-- ==== Sys2Proof/Laws/Ops.lean ====
section
/-! SUPPORT. What the shared operations do: what is read after each, through the model's own accessors. -/

namespace Sys2Proof.Machine

/-! ### Sorted insertion and mapped values -/

/-- An insertion adds its element and keeps the others. -/
@[simp] theorem mem_insertOn {α : Type} (key : α → Nat) (x y : α) (xs : List α) : y ∈ insertOn key x xs ↔ y = x ∨ y ∈ xs := by
  induction xs with
  | nil => simp [insertOn]
  | cons z zs ih =>
    unfold insertOn
    split
    · simp
    · simp only [List.mem_cons, ih]; exact or_left_comm

theorem insertOn_length {α : Type} (key : α → Nat) (x : α) (xs : List α) : (insertOn key x xs).length = xs.length + 1 := by
  induction xs with
  | nil => rfl
  | cons z zs ih => unfold insertOn; split <;> simp [ih]

/-- What holds of the default and of every changed value holds of every read of a mapped map. -/
theorem SMap.get_mapVals_all {α : Type} [DecidableEq α] (d : α) (f : Nat → α → α) (m : SMap α) (P : α → Prop) (hd : P d)
    (h : ∀ k v, P (f k v)) (k : Nat) : P (SMap.get d (SMap.mapVals d f m) k) := by
  unfold SMap.mapVals
  induction m with
  | nil => simpa
  | cons p m ih =>
    simp only [List.map_cons, List.filter_cons]
    split
    · simp only [SMap.get]; split
      · exact h _ _
      · exact ih
    · exact ih

/-- A read of a mapped map in canonical form is the change of the read, when the change keeps the default. -/
theorem SMap.get_mapVals {α : Type} [DecidableEq α] (d : α) (f : Nat → α → α) (m : SMap α) (a : Nat)
    (hm : SMap.wfFrom d a m = true) (hf : ∀ k, f k d = d) (k : Nat) :
    SMap.get d (SMap.mapVals d f m) k = f k (SMap.get d m k) := by
  induction m generalizing a with
  | nil => simp [SMap.mapVals, hf]
  | cons p m ih =>
    obtain ⟨k', v⟩ := p
    simp only [SMap.wfFrom, Bool.and_eq_true, decide_eq_true_eq] at hm
    have ih' := ih _ hm.2
    simp only [SMap.mapVals] at ih' ⊢
    simp only [List.map_cons, List.filter_cons, SMap.get]
    by_cases e : k' = k
    · subst e
      by_cases e2 : f k' v = d
      · simp only [e2, ne_eq, not_true_eq_false, decide_false, Bool.false_eq_true, if_false, if_true]
        rw [ih', SMap.wfFrom_get_lt hm.2 (by omega), hf]
      · simp [e2, SMap.get]
    · by_cases e2 : f k' v = d
      · simp only [e2, e, ne_eq, not_true_eq_false, decide_false, Bool.false_eq_true, if_false]; exact ih'
      · simp only [e2, e, ne_eq, not_false_eq_true, decide_true, if_true, if_false, SMap.get]; exact ih'

/-! ### Interfaces and domains -/

@[simp] theorem State.nif_setNi (s : State) (f f' : Nat) (n : Ni) : (s.setNi f n).nif f' = if f' = f then n else s.nif f' := by
  simp [State.nif, State.setNi]

@[simp] theorem State.nif_updNi (s : State) (f f' : Nat) (g : Ni → Ni) :
    (s.updNi f g).nif f' = if f' = f then g (s.nif f) else s.nif f' := by
  simp [State.updNi]

@[simp] theorem State.domain_setDomain (s : State) (d d' : Nat) (x : Dom) :
    (s.setDomain d x).domain d' = if d' = d then x else s.domain d' := by
  simp [State.domain, State.setDomain]

@[simp] theorem State.setNi_rest (s : State) (f : Nat) (n : Ni) : { s.setNi f n with ni := s.ni } = s := rfl
@[simp] theorem State.setDomain_rest (s : State) (d : Nat) (x : Dom) : { s.setDomain d x with dom := s.dom } = s := rfl

/-! ### Registers behind the other updates -/

@[simp] theorem State.setNi_reg (s : State) (f : Nat) (n : Ni) (r : Reg) (b i : Nat) : (s.setNi f n).reg r b i = s.reg r b i :=
  State.reg_congr rfl rfl _ _ _
@[simp] theorem State.updNi_reg (s : State) (f : Nat) (g : Ni → Ni) (r : Reg) (b i : Nat) : (s.updNi f g).reg r b i = s.reg r b i :=
  State.reg_congr rfl rfl _ _ _
@[simp] theorem State.setNi_rf (s : State) (f : Nat) (n : Ni) (r : Reg) (lo w b i : Nat) :
    (s.setNi f n).rf r lo w b i = s.rf r lo w b i := State.rf_congr rfl rfl _ _ _ _ _
@[simp] theorem State.updNi_rf (s : State) (f : Nat) (g : Ni → Ni) (r : Reg) (lo w b i : Nat) :
    (s.updNi f g).rf r lo w b i = s.rf r lo w b i := State.rf_congr rfl rfl _ _ _ _ _
@[simp] theorem State.setDomain_reg (s : State) (d : Nat) (x : Dom) (r : Reg) (b i : Nat) :
    (s.setDomain d x).reg r b i = s.reg r b i := State.reg_congr rfl rfl _ _ _
@[simp] theorem State.setDomain_rf (s : State) (d : Nat) (x : Dom) (r : Reg) (lo w b i : Nat) :
    (s.setDomain d x).rf r lo w b i = s.rf r lo w b i := State.rf_congr rfl rfl _ _ _ _ _

/-! ### Fault reports -/

@[simp] theorem State.collect_reg (s : State) (x : FaultRec) (r : Reg) (b i : Nat) : (s.collect x).reg r b i = s.reg r b i :=
  State.reg_congr rfl rfl _ _ _
@[simp] theorem State.collect_rf (s : State) (x : FaultRec) (r : Reg) (lo w b i : Nat) :
    (s.collect x).rf r lo w b i = s.rf r lo w b i := State.rf_congr rfl rfl _ _ _ _ _
@[simp] theorem State.raiseSpine_reg (s : State) (g c l : Nat) (u : UnitRef) (d : Nat) (j : Bool) (r : Reg) (b i : Nat) :
    (s.raiseSpine g c l u d j).reg r b i = s.reg r b i := State.reg_congr rfl rfl _ _ _
@[simp] theorem State.raiseSpine_rf (s : State) (g c l : Nat) (u : UnitRef) (d : Nat) (j : Bool) (r : Reg) (lo w b i : Nat) :
    (s.raiseSpine g c l u d j).rf r lo w b i = s.rf r lo w b i := State.rf_congr rfl rfl _ _ _ _ _
@[simp] theorem State.raiseRtr_reg (s : State) (n c l p : Nat) (j : Bool) (r : Reg) (b i : Nat) :
    (s.raiseRtr n c l p j).reg r b i = s.reg r b i := State.reg_congr rfl rfl _ _ _
@[simp] theorem State.raiseRtr_rf (s : State) (n c l p : Nat) (j : Bool) (r : Reg) (lo w b i : Nat) :
    (s.raiseRtr n c l p j).rf r lo w b i = s.rf r lo w b i := State.rf_congr rfl rfl _ _ _ _ _

theorem State.le_raisedLevel (s : State) (c l : Nat) : l ≤ s.raisedLevel c l := Nat.le_max_left _ _

/-- A fault of the spine stands in the collector's queue, at its source's level or above (R333, R334). -/
theorem State.raiseSpine_mem (s : State) (g c l : Nat) (u : UnitRef) (d : Nat) (j : Bool) :
    ∃ r ∈ (s.raiseSpine g c l u d j).fc.queue, r.src = 32 * g + c ∧ l ≤ r.level ∧ r.level = s.raisedLevel c l ∧ r.unit = u ∧
      r.detail = d ∧ r.inj = j ∧ r.ns = s.ns ∧ r.arr = s.tick := by
  refine ⟨_, (mem_insertOn _ _ _ _).mpr (Or.inl rfl), rfl, s.le_raisedLevel c l, rfl, rfl, rfl, rfl, rfl, rfl⟩

end Sys2Proof.Machine
end

