-- ==== Sys2Proof/Machine/Flits.lean ====
section
/-! DEFINITION. The bits of a flit on the wires of its network, and its sideband: layouts, parity, PCHK and the checks of a
receiver (R47, R50 to R54, R63, R71 to R73).  The commands carry what a check finds as an operand: `Wire.judge` says what it
is for the bits that arrive. -/

namespace Sys2Proof.Machine

/-! ### Layouts (R50 to R53) -/

/-- REQ flits, 144 bits: flit 0, and a continuation flit with its operand in [127:64] (R50). -/
def Pkt.reqFlit (p : Pkt) : Nat → Nat
  | 0 => p.header + p.addr.toNat * 2 ^ 64 + p.size.toNat * 2 ^ 116 + p.rlx.toNat * 2 ^ 119 + p.sd.toNat * 2 ^ 120
      + p.aop.toNat * 2 ^ 124
  | i + 1 => p.header + (p.ops.getD i 0).toNat * 2 ^ 64

/-- RSP flits, 96 bits: STATUS, CNT and DF of flit 0; the two halves of an `AtomResult`, or a register value (R51). -/
def Pkt.rspFlit (p : Pkt) : Nat → Nat
  | 0 => p.header + p.status.toNat * 2 ^ 64 + p.cnt.toNat * 2 ^ 72 + (p.opc == 7 && p.df).toNat * 2 ^ 80
  | i + 1 => p.header + fld (p.ops.getD 0 0).toNat (32 * i) 32 * 2 ^ 64

/-- SNP flits, 128 bits: LINE [109:64], RQFID [119:110], HTID [127:120] (R52). -/
def Pkt.snpFlit (p : Pkt) : Nat :=
  p.header + p.line.toNat * 2 ^ 64 + p.rqfid.toNat * 2 ^ 110 + p.htid.toNat * 2 ^ 120

/-- Data word `j` of a DAT flit: data bytes 8j to 8j + 7. -/
def Pkt.datWord (p : Pkt) (i j : Nat) : Word64 := BitVec.ofNat 64 (leNat ((p.data.drop (64 * i + 8 * j)).take 8))

/-- DAT flits, 640 bits: eight data words from bit 64, and their check bytes from bit 576 (R53). -/
def Pkt.datFlit (p : Pkt) (i : Nat) : Nat :=
  (List.range 8).foldl (fun a j => a + (p.datWord i j).toNat * 2 ^ (64 + 64 * j) + secdedCheck (p.datWord i j) * 2 ^ (576 + 8 * j))
    p.header

/-- The bits of a flit (R50 to R53). -/
def Flit.bits (x : Flit) : Nat :=
  match x.pkt.net with
  | .req => x.pkt.reqFlit x.idx
  | .rsp => x.pkt.rspFlit x.idx
  | .snp => x.pkt.snpFlit
  | .dat => x.pkt.datFlit x.idx

/-- Width of the flits of a network. -/
def flitBits : Net → Nat | .req => 144 | .rsp => 96 | .snp => 128 | .dat => 640

/-! ### Sideband (R63) -/

/-- Even parity of the lowest `n` bits. -/
def evenParity (n v : Nat) : Nat := popCount n v % 2

/-- The payload words that PCHK covers, in order (R71). -/
def pchkWords (n : Net) (bits : Nat) : List Word64 :=
  match n with
  | .req => [BitVec.ofNat 64 (fld bits 64 64), BitVec.ofNat 64 (fld bits 128 16)]
  | .rsp => [BitVec.ofNat 64 (fld bits 64 32)]
  | .snp => [BitVec.ofNat 64 (fld bits 64 64)]
  | .dat => []

/-- What a link carries for one flit: its bits and its sideband (R63). -/
structure Wire where
  net  : Net
  bits : Nat
  la   : Nat
  fidx : Nat
  inj  : Nat
  psn  : Bool
  old  : Bool
  /-- SECDED check bytes of the payload words, word 0 first. -/
  pchk : List Nat
  spar : Nat
  hpar : Nat
  deriving DecidableEq, Repr

/-- SPAR: even parity over LA, FIDX, INJ, PSN and OLD. -/
def sparOf (la fidx inj : Nat) (psn old : Bool) : Nat :=
  evenParity 24 (la % 8 + fidx % 8 * 2 ^ 3 + inj % 65536 * 2 ^ 6 + psn.toNat * 2 ^ 22 + old.toNat * 2 ^ 23)

/-- HPAR: even parity over header [63:32] in bit 1 and over header [31:0] in bit 0. -/
def hparOf (bits : Nat) : Nat := evenParity 32 (fld bits 0 32) + 2 * evenParity 32 (fld bits 32 32)

/-- A flit as it is sent: PCHK as generated at ingress, SPAR and HPAR for the link at hand (R68, R71, R72). -/
def Flit.wire (x : Flit) : Wire :=
  let psn : Bool := x.pkt.net == .dat && x.pkt.psn
  { net := x.pkt.net, bits := x.bits, la := x.pkt.la.toNat, fidx := x.idx % 8, inj := x.pkt.inj.toNat, psn := psn, old := x.pkt.old
    pchk := (pchkWords x.pkt.net x.bits).map secdedCheck
    spar := sparOf x.pkt.la.toNat x.idx x.pkt.inj.toNat psn x.pkt.old
    hpar := hparOf x.bits }

/-! ### The checks of a receiver (R71, R72) -/

/-- Payload or data words with their check bytes. -/
def Wire.words (w : Wire) : List (Word64 × Nat) :=
  match w.net with
  | .dat => (List.range 8).map (fun j => (BitVec.ofNat 64 (fld w.bits (64 + 64 * j) 64), fld w.bits (576 + 8 * j) 8))
  | n => (pchkWords n w.bits).zip w.pchk

/-- HCRC agrees with header bytes 1 to 7, the VC bits taken as 0 (R49). -/
def hcrcOk (bits : Nat) : Bool :=
  (crc8 (leBytes 7 (setFld (fld bits 8 56) 26 2 0))).toNat == fld bits 0 8

/-- What the check of a flit finds: parity first, then the SECDED words, and at egress HCRC. -/
def Wire.judge (w : Wire) (egress : Bool) : LinkErr :=
  let errs := w.words.map (fun d => (secdedRead d.1 d.2).2)
  if w.hpar ≠ hparOf w.bits ∨ w.spar ≠ sparOf w.la w.fidx w.inj w.psn w.old then .parity
  else if errs.contains .uncorrectable then .uncorrectable
  else if egress ∧ ¬hcrcOk w.bits then .hcrc
  else if errs.contains .corrected then .corrected
  else .clean

end Sys2Proof.Machine
end

