-- ==== Sys2Proof/Tests/Slice0.lean ====
section
/-! SUPPORT. Tests: ill-formed commands are refused, the words of the spec's encodings decode as it says, and for every
statement with hypotheses a state and operands that meet them (its witness). -/

namespace Sys2Proof.Tests

open Sys2Proof Sys2Proof.Machine

-- The theorems below are checked one after the other: checked side by side they would take one stack each.
set_option Elab.async false

/-! ### Ill-formed commands -/

/-- Every check of `Instr.wf` refuses a term: a port that is no partner's, a channel that the class lacks, a FID without a tracker or a
cache, an unassigned FID, a unit and a counter bank that do not exist (R59, R102, R385). -/
theorem test_wf_refuses :
    ([.p2fWake 0x0C0, .p2fLinkRise 0x180, .ingressAccept 0x3FF .clean .clean, .pieceAnswer 0x160, .tgtTrackerExpire 0x130 0,
      .p2fBeat 0x100 { net := .req, opc := 1 }, .creditReturn 0x127 .snp true, .creditReturn 0x127 .snp false, .pieceIssue 0x170,
      .nackReissue 0x3FF 0, .cacheSnoop 0x110, .cacheAnswer 0x126, .prgStart 0x3FF, .prgDataWrite 0x200 [], .robRelease 0x186,
      .registerWrite 0x3FF 0 0, .oldMark (.inject 0x3FF), .oldMark (.parked 0x3FF), .epochArmAck ⟨true, 144⟩,
      .syncBeat ⟨false, 0x3FF⟩ .missed, .powerAnswer 0 ⟨true, 200⟩, .ctrRead 0x3FF 0, .ctrClear 0x3FF,
      .ctrChainWrite 0x3FF 0 true] : List Instr).all (fun c => !c.wf) = true := by decide +kernel

/-- An ill-formed command stops the block and names why. -/
theorem test_wf_stops : exec (.p2fWake 0x0C0) State.reset = .fault .noSuchUnit := rfl

/-! ### Witnesses -/

/-- The fabric in RUN with a program, no unit at work. -/
def run : State := { frst := false, started := true, prim := .run, epo := { first := true } }

/-- The fabric in RUN with one interface as given. -/
def runNi (f : Nat) (n : Ni) : State := { run with ni := [(f, n)] }

/-- A fuse array whose FCRC passes, with MG as rule writer of domain 0, and one whose FCRC fails. -/
def goodFuses : FuseArray := { rule := BitVec.ofNat 2240 (2 ^ 2182 + 0x126 * 2 ^ 2172 + 1335254253 * 2 ^ 2208), socket := 0, serial := 0 }
def badFuses : FuseArray := { goodFuses with rule := 1 }

theorem witness_CommandsCompleteExactlyWhenWellFormed :
    (Instr.wf (.p2fWake 0) = true) ∧ (Instr.wf (.p2fWake 0x3FF) = false) := by decide +kernel

set_option maxRecDepth 40000 in
theorem witness_ResetsReachTheirState :
    (State.reset.frst = true ∧ fuseGood goodFuses = true ∧ fuseGood badFuses = false) ∧
    (run.prim ≠ .test ∧ run.started = true) ∧ ((0 : BitVec 16) ≠ 0x0A4D) := by decide +kernel

theorem witness_GlobalModeCommands :
    let q : State := { run with prim := .quiesced }
    let d : State := { run with prim := .drain, drainAt := some 0, tick := usTicks 65536 }
    (State.reset.prim = .boot) ∧ (run.prim ≠ .boot ∧ run.prim = .run) ∧ (({ run with prim := .dual } : State).prim = .dual) ∧
    (d.prim = .drain ∧ d.allEmpty = true ∧ d.drainAt = some 0 ∧ 0 + usTicks (max 1 (d.rf .GLB_DRAIN_TMO 0 16)) ≤ d.tick) ∧
    (q.prim = .quiesced ∧ (q.setRf .PWR_CTRL 0 1 1).rf .PWR_CTRL 0 1 = 1 ∧ (q.setRf .PWR_CTRL 0 1 1).pdrec = none) ∧
    (({ q with pdrec := some [] } : State).pdrec.isSome = true) := by decide +kernel

theorem witness_PrimaryModeChangesOnlyAsListed :
    exec .testEntry State.reset = .next { State.reset with prim := .test } := rfl

theorem witness_FabricTimeAdvancesAndIsSet :
    (run.pending = [] ∧ run.frst = false ∧ (run.domain 1).st < 2) ∧ (State.reset.pending = [] ∧ State.reset.frst = true) ∧
    (run.tim.c % 3072 = 0) ∧ (State.reset.prim = .boot ∧ State.reset.epo.t = none) ∧
    (3 * ((State.reset.reg .TIM_SET_S_LO + State.reset.rf .TIM_SET_S_HI 0 16 * 2 ^ 32) * 1000000000
      + min (State.reset.reg .TIM_SET_NS) 999999999) < 2 ^ 64) ∧
    (run.prim ≠ .boot ∧ run.prim ≠ .load ∧ run.prim ≠ .test) ∧
    (run.epo.t = none ∧ run.epo.dual = false ∧ run.prim = .run ∧ 0 ≤ run.ns + 1024 * run.stepUnits) ∧
    (({ run with epo := { dual := true } } : State).epo.dual = true) ∧
    (run.tim.jump = none ∧ (let j (x : TimeJump) : State := { run with tim := { jump := some x } }
      (j (.set 5)).pending = [] ∧ (j (.set 5)).frst = false ∧ (j (.set 5)).tim.jump = some (.set 5) ∧
      (j (.step 1)).pending = [] ∧ ((j (.step 1)).domain 1).st < 2 ∧ (j (.step 1)).tim.jump = some (.step 1))) ∧
    (let u : UnitRef := ⟨true, 3⟩
     let m (n : Nat) : State := { run with tim := { leaf := [(unitKey u, ⟨n⟩)] } }
     unitExists u = true ∧ run.started = true ∧ run.tim.c % 3072 = 0 ∧ run.domDown (leafDomain u) = false ∧ run.domDown 1 = false ∧
     u.node = true ∧ (SMap.get {} (m 2).tim.leaf (unitKey u)).missed < 3 ∧ (SMap.get {} (m 3).tim.leaf (unitKey u)).missed = 3 ∧
     (m 3).started = true ∧ (m 3).tim.c % 3072 = 0 ∧ (m 3).domDown (leafDomain u) = false ∧ (m 3).domDown 1 = false) := by
  decide +kernel

theorem witness_PpsBeaconAndTimeRead :
    let s : State := { run.setReg .TIM_CTRL 3 with tim := { c := 3 * 10 ^ 9 * 600 } }
    let e : State := { s with tim := { s.tim with ppsLast := some (s.ns - 1) } }
    let p : State := { s with tick := usTicks 2000000, tim := { s.tim with ppsRise := some (0, 0), ppsOut := true } }
    (s.rf .TIM_CTRL 0 1 = 1 ∧ s.tim.ppsLast = none ∧ 0 ≤ (s.timeAgo 2).1) ∧
    (e.tim.ppsLast = some (s.ns - 1) ∧ (e.timeAgo 2).1 < s.ns - 1 + 900000000) ∧
    (s.rf .TIM_STATUS 1 1 = 0 ∧ s.tim.ppsRef + (max 1 (s.rf .TIM_CTRL 8 8) : Nat) * 1000000000 ≤ s.ns) ∧
    (s.rf .TIM_CTRL 1 1 = 1 ∧ s.tim.ppsOut = false ∧ nsOf s.ns = 0 ∧ s.tim.c % 3 = 0 ∧ s.tim.ppsRise = none) ∧
    (p.tim.ppsRise = some (0, 0) ∧ p.tim.ppsOut = true ∧ 0 + usTicks (max 1 (p.rf .TIM_PPSOUT_W 0 20)) ≤ p.tick) ∧
    (((runNi 0x120 { link := .up }).setReg .NI_SLCAP_COMMON (2 ^ 12) (niBase 0x120)).slTime 0 = true) := by decide +kernel

theorem witness_CounterBanks :
    let c : State := (run.setRf .CTR_STAT 1 1 1 (ctrBase 0) 0)
    let f : State := { c with ctr := [(0, 2 ^ 48 - 1)] }
    (run.chained 0 0 = false) ∧ (c.chained 0 0 = true ∧ f.chained 0 0 = true ∧ f.ctrAt 0 0 = 2 ^ 48 - 1) ∧
    (ctrExists (0 : BitVec 10).toNat = true ∧ 1 ∉ run.ctrClr ∧ (0 : Fin 128).val % 2 = 0) := by decide +kernel

theorem witness_BandwidthWindowsAndProbes :
    let b : State := { run.setRf .NI_BW_CFG 31 1 1 (niBase 0) with tim := { c := 3 * 10 ^ 15 } }
    let p (n : Nat) : State := { run with probe := [(n, { staged := [(1, 0)], came := [(2, 0), (3, 0)] })] }
    let g : State := { run with probe := [(0, { staged := [(1, 0)] })], tick := 1 }
    (assigned (0 : Fid).toNat = true ∧ b.rf .NI_BW_CFG 31 1 (niBase 0) = 1 ∧ b.ns % b.bwWin 0 = 0 ∧
      b.ns ≠ (SMap.get {} b.bw 0).start ∧ b.floorMisses 0 (b.ns - (SMap.get {} b.bw 0).start).toNat (SMap.get {} b.bw 0) = []) ∧
    ((SMap.get {} (p 0).probe 0).came = (2, 0) :: (3, 0) :: [] ∧ (SMap.get {} (p 0).probe 0).stopped = false ∧
      (p 0).qmLive (0 / 36) = true ∧ (p 0).prim = .run) ∧
    (g.tick % 2 = 1 ∧ g.probeGone 0 = false ∧ g.traceNext 0 = some 0 ∧ g.probe ≠ []) ∧
    (((p 0).setMap .FC_FENCED_RTRn 0 true).probeGone 0 = true ∧
      (SMap.get {} ((p 0).setMap .FC_FENCED_RTRn 0 true).probe 0).staged ≠ []) := by decide +kernel

theorem witness_ControlRequestsAreCheckedAtTheHub :
    let rd (src : Fid) (a : BitVec 52) : State := runNi 0x180 { inbox := [{ net := .req, src := src, opc := 0x15, addr := a }] }
    let wr (src : Fid) (a : BitVec 52) : State := runNi 0x180 { inbox := [{ net := .req, src := src, opc := 0x16, addr := a, len := 2, ops := [1] }] }
    ((rd 0 0x100000).hubHead = some { net := .req, src := 0, opc := 0x15, addr := 0x100000 } ∧ (rd 0 0x100000).hubReady = true ∧
      (rd 0 0x100000).csaAllows ((rd 0 0x100000).hubSd { net := .req, src := 0, opc := 0x15, addr := 0x100000 }) false 0x100000 = false) ∧
    ((rd 0x184 0x0FFF000).csaAllows ((rd 0x184 0x0FFF000).hubSd { net := .req, src := 0x184 }) false 0x0FFF000 = true ∧ absent 0x0FFF000 = true) ∧
    ((rd 0x184 0).csaAllows ((rd 0x184 0).hubSd { net := .req, src := 0x184 }) false 0 = true ∧ absent 0 = false ∧ (rd 0x184 0).prim ≠ .test) ∧
    ((wr 0 0x400).hubHead.map (fun q => (q.opc, q.len)) = some (0x16, 2) ∧ (wr 0 0x400).hubReady = true ∧
      (wr 0 0x400).csaAllows ((wr 0 0x400).hubSd { net := .req, src := 0 }) true 0x400 = false) ∧
    ((wr 0x184 0x400).csaAllows ((wr 0x184 0x400).hubSd { net := .req, src := 0x184 }) true 0x400 = true ∧ absent 0x400 = false ∧
      inPrgData 0x400 = false ∧ inPrgData 0x1000 = true ∧ absent 0x1000 = false ∧ absent 0x0FFF000 = true ∧ (wr 0x184 0x1000).prim ≠ .test) ∧
    (let e : State := run.setReg .GLB_CSAn_LO (2 ^ 19 + 26 * 2 ^ 14) 0 1
     e.csaMatch 1 0x40 = true ∧ (∀ m, m < 1 → e.csaMatch m 0x40 = false) ∧
     (∀ m, m < 32 → run.csaMatch m 0x40 = false) ∧ (run.setRf .GLB_CSA_CTRL 0 1 1).rf .GLB_CSA_CTRL 0 1 = 1 ∧
     (∀ m, m < 32 → (run.setRf .GLB_CSA_CTRL 0 1 1).csaMatch m 0x40 = false)) := by decide +kernel

theorem witness_TreeAccessReachesItsUnit :
    let r : HubReq := { src := 0, sd := 0, write := false, off := 0 }
    let t (p : List HubReq) (st : Nat) : State := { run with hub := { tree := p }, dom := [(2, { st := st })] }
    let q : HubReq := { r with off := rtrBase 0 }
    (assigned (0 : Fid).toNat = true ∧ (t [r] 0).hub.tree.find? (fun x => x.src == 0) = some r ∧
      ((t [r] 0).hub.tree.takeWhile (fun x => x.src != 0)).any (fun x => x.off == r.off) = false ∧ absent r.off = false ∧
      (t [r] 0).ownerAsleep r.off = false ∧ r.write = false) ∧
    ((t [q] 3).hub.tree.find? (fun x => x.src == 0) = some q ∧ absent q.off = false ∧ (t [q] 3).ownerAsleep q.off = true ∧
      ((t [q] 3).hub.tree.takeWhile (fun x => x.src != 0)).any (fun x => x.off == q.off) = false) ∧
    ((t [{ r with src := 1 }, r] 0).hub.tree.find? (fun x => x.src == 0) = some r ∧
      ((t [{ r with src := 1 }, r] 0).hub.tree.takeWhile (fun x => x.src != 0)).any (fun x => x.off == r.off) = true) := by decide +kernel

theorem witness_RegisterWritesFollowTheFieldRules :
    (assigned (0 : Fid).toNat = true ∧ ({ run with prim := .test } : State).prim = .test ∧ run.prim ≠ .test ∧
      run.ownerAsleep 0xA14 = false) ∧
    (let f (a : Access) : Field := { lo := 24, w := 8, acc := a, reset := 0, kind := .live, cold := false }
     (f .rw).lo + (f .rw).w ≤ 32 ∧ 2 ^ 32 - 1 < 2 ^ 32 ∧ (f .rw).acc = .rw ∧ (f .rwl).acc = .rwl ∧ (f .w1c).acc = .w1c ∧
     (f .w1s).acc = .w1s ∧ (f .ro).acc = .ro) := by decide +kernel

theorem witness_LinksComeUpAndFall :
    let w (f : Nat) : State := runNi f { link := .waitPartner, f2pLink := true }
    let c : State := (runNi 0x120 { link := .cap }).setReg .NI_SLCAP_OWN 7 (niBase 0x120)
    let up (f : Nat) (l : LinkState) : State := runNi f { link := l, f2pLink := true, p2fLink := true }
    (isPartner 0x120 = true ∧ (w 0x120).portLives 0x120 = true ∧ ((w 0x120).nif 0x120).p2fLink = false ∧
      ((w 0x120).nif 0x120).relink = false ∧ ((w 0x120).nif 0x120).link = .waitPartner ∧ ((w 0x120).nif 0x120).f2pLink = true ∧
      ((w 0x120).nif 0x120).mustFall = false ∧ pclass 0x120 = 5) ∧
    (isPartner 0 = true ∧ (w 0).portLives 0 = true ∧ ((w 0).nif 0).link = .waitPartner ∧ pclass 0 ≠ 5) ∧
    (State.reset.portLives 0 = false ∧ (State.reset.nif 0).p2fLink = false) ∧
    ((c.nif 0x120).link = .cap ∧ slCommon (c.reg .NI_SLCAP_OWN (niBase 0x120)) 0x47 = some 0x46 ∧
      fld 0x47 6 3 ≠ fld (c.reg .NI_SLCAP_OWN (niBase 0x120)) 6 3) ∧
    (slCommon (c.reg .NI_SLCAP_OWN (niBase 0x120)) 0 = none ∧ ((runNi 0x120 { link := .cap }).nif 0x120).link = .cap ∧
      fld 0x07 6 3 = fld (c.reg .NI_SLCAP_OWN (niBase 0x120)) 6 3) ∧
    ((up 0 .credit).portLives 0 = true ∧ ((up 0 .credit).nif 0).p2fLink = true ∧ ((up 0 .credit).nif 0).link ∈ [.waitPartner, .cap, .credit]) ∧
    ((up 0 .up).portLives 0 = true ∧ ((up 0 .up).nif 0).p2fLink = true ∧ ((up 0 .up).nif 0).link = .up) ∧
    (let t : State := { w 0 with tick := usTicks 65536 }
     (t.nif 0).link = .waitPartner ∧ (t.nif 0).p2fLink = false ∧
     (t.nif 0).linkAt + usTicks (max 1 (t.rf .NI_LINK 16 16 (niBase 0))) ≤ t.tick) ∧
    (({ w 0x126 with prim := .boot } : State).prim = .boot ∧ (({ w 0x126 with prim := .boot } : State).nif 0x126).link = .waitPartner) := by
  decide +kernel

theorem witness_BeatsAndCredits :
    let one : PerNet := { req := 1, rsp := 1 }
    let s (n : Ni) : State := runNi 0 { n with link := .up, f2pLink := true }
    let b : Beat := { net := .rsp, opc := 1 }
    (isPartner (0 : Fid).toNat = true ∧ hasP2f 0 b.net = true ∧ (s { given := one }).awake 0 = true ∧
      ((s { given := one }).nif 0).link = .up ∧ (s { given := one }).prim ≠ .halt ∧
      ((s { given := one }).nif 0).given.get b.net ≠ 0 ∧ b.net = .rsp) ∧
    (let p (c : CSt) : State := (s { given := one }).setCline 0 0 { st := c }
     let g : Beat := { net := .req, opc := 1 }
     isCaching (0 : Fid).toNat = true ∧ ((p .m).nif 0).openMsg .req = [] ∧ (p .i).mayRequest 0 g = true ∧
     (p .m).mayRequest 0 g = false ∧ hasP2f 0 .req = true ∧ (p .m).awake 0 = true) ∧
    ((s {}).awake 0 = true ∧ ((s {}).nif 0).given.get b.net = 0) ∧
    (((s { owed := one }).nif 0).owed.get .req ≠ 0 ∧ ((s { owed := one }).nif 0).given.get .req < 63 ∧ hasP2f 0 .req = true) ∧
    (((s {}).nif 0).cred.get .rsp < 63 ∧ ((runNi 0x120 { link := .cap }).nif 0x120).link = .cap ∧ ((s {}).nif 0).f2pWait = [] ∧ hasF2p 0 .rsp = true) ∧
    (let n : Ni := { link := .credit, got := { req := 64, rsp := 64, snp := 64, dat := 64 } }
     ((runNi 0 n).nif 0).link = .credit ∧
     (∀ c ∈ [Net.req, .rsp, .snp, .dat], ((runNi 0 n).nif 0).owed.get c = 0 ∧ leastOf c ≤ ((runNi 0 n).nif 0).got.get c)) := by
  decide +kernel

theorem witness_WakeSources :
    let d (n : Nat) : State := { run with dom := [(niDomain 0, { st := 2 }), (n, { st := 2 })], wakePin := true }
    (isPartner (0 : Fid).toNat = true ∧ ((d 1).domain (niDomain 0)).st ≠ 0) ∧
    ((run.domain (niDomain 0)).st = 0 ∧ (run.domain (niDomain 0)).phase = 0) ∧
    (let v : State := { runNi 0 { f2pLink := true } with dom := [(niDomain 0, { st := 2 })] }
     hasP2f 0 .req = true ∧ v.prim ≠ .halt ∧ (v.nif 0).f2pLink = true ∧ (v.domain (niDomain 0)).st ≠ 0) ∧
    (run.rf .PWR_WAKE_CFG 0 1 = 0) ∧
    (((d 1).setReg .PWR_WAKE_CFG 1).rf .PWR_WAKE_CFG 0 1 = 1 ∧ ((d 1).setReg .PWR_WAKE_CFG 1).wakePin = true) ∧
    (2 ≤ (((d 1).setReg .PWR_WAKE_CFG (2 ^ 18)).domain 1).st ∧ ((d 1).setReg .PWR_WAKE_CFG (2 ^ 18)).rf .PWR_WAKE_CFG 18 1 = 1 ∧
      (((d 1).setReg .PWR_WAKE_CFG (2 ^ 18)).domain 1).commit = none) := by decide +kernel

/-! ### Witnesses: programs and epochs -/

/-- A delta image of one CTRL section of at most 64 bytes and one section of eight zero bytes (R25), with its CRCs or without. -/
def image (ctrl : List Nat) (sums : Bool := false) : List Byte :=
  let crc (b : List Byte) : Nat := if sums then (crc32c b).toNat else 0
  let c := ctrl.flatMap (leBytes 4)
  let c := c ++ zeros ((8 - c.length % 8) % 8)
  let d := zeros 8
  let sec (t off : Nat) (b : List Byte) : List Byte :=
    leBytes 4 t ++ leBytes 4 off ++ leBytes 4 b.length ++ leBytes 4 (crc b) ++ zeros 16
  let tbl := sec 12 0x140 c ++ sec 1 0x180 d
  let hd := leBytes 4 0x47505541 ++ leBytes 4 0x10003 ++ leBytes 4 0x0A4D ++ leBytes 4 0x20100 ++ leBytes 8 7 ++ leBytes 8 0
    ++ leBytes 4 0x1C0 ++ leBytes 4 2 ++ leBytes 4 0 ++ leBytes 4 2048 ++ leBytes 4 (crc tbl) ++ zeros 0xC8
  hd ++ leBytes 4 (crc hd) ++ tbl ++ c ++ zeros (64 - c.length) ++ d ++ zeros 56

/-- The program controller at the first instruction of a CTRL section. -/
def atWord (ctrl : List Nat) : State := { run with prg := { state := .executing, store := image ctrl } }

/-- The program controller in a wait of an eight-byte instruction. -/
def waits (w : PrgWait) : State := { run with prg := { state := .executing, wait := w } }

/-- The words of the fabric-control group, written out from R28: FOP in [25:21], NW in [20:19]. -/
theorem test_ctrl_words :
    let d (w : List Nat) : Option CtrlInstr := ctrlAt (w.flatMap (leBytes 4)) 0
    d [0xFC000000] = some ⟨0, 0, [], 4⟩ ∧ d [0xFC3A7000, 1, 2, 3] = some ⟨1, 0x27000, [1, 2, 3], 16⟩ ∧
    d [0xFC500000, 1, 2] = some ⟨2, 0, [1, 2], 12⟩ ∧ d [0xFC700000, 1, 2] = some ⟨3, 0, [1, 2], 12⟩ ∧
    d [0xFC88FFFF, 9] = some ⟨4, 0xFFFF, [9], 8⟩ ∧ d [0xFCA80000, 9] = some ⟨5, 0, [9], 8⟩ ∧
    d [0xFCD80000, 1, 2, 3] = some ⟨6, 0, [1, 2, 3], 16⟩ ∧ d [0xFCE2008F] = some ⟨7, 0x2008F, [], 4⟩ ∧
    d [0xFD000003] = some ⟨8, 3, [], 4⟩ ∧ d [0xFD280000, 0xFFFFFFFF] = some ⟨9, 0, [0xFFFFFFFF], 8⟩ ∧
    d [0xFD40007F] = some ⟨10, 0x7F, [], 4⟩ ∧ d [0xFFE00000] = some ⟨0x1F, 0, [], 4⟩ ∧
    d [0xFD600000] = none ∧ d [0xFC380000, 1, 2] = none := by decide +kernel

set_option maxRecDepth 40000 in
theorem witness_ProgramPortAndVerification :
    let p (st : PrgState) : State := { run with prg := { state := st } }
    let v : State := { run with prg := { state := .verifying, running := true, store := image [0xFC000000, 0xFFE00000] true } }
    (assigned (0 : Fid).toNat = true ∧ run.prim ≠ .test ∧ run.prim ≠ .halt ∧ run.prg.busy = false ∧ State.reset.prg.busy = false) ∧
    ((p .executing).prg.busy = true ∧ (p .executing).prim ≠ .boot ∧ (p .executing).prg.state ≠ .receiving) ∧
    ((p .receiving).prg.state = .receiving ∧ (p .receiving).prg.fetching = false ∧
      (p .receiving).prg.store.length + (zeros 64).length < 256 ∧ (zeros 64).length = 64) ∧
    ((waits .epsw).prg.state = .executing ∧ (waits .epsw).prg.wait = .epsw ∧ (waits .epsw).epo.missing = []) ∧
    (v.prim ≠ .halt ∧ v.prg.state = .verifying ∧ v.imageErr v.prg.store = none) ∧
    ((p .verifying).prim ≠ .halt ∧ (p .verifying).imageErr (p .verifying).prg.store = some 1) ∧
    (run.prg.waiting = [] ∧ run.prg.clove = none ∧ run.epo.dual = false) := by decide +kernel

set_option maxRecDepth 40000 in
theorem witness_SequenceWaitsAndStoreErrors :
    ((atWord [0xFC000000]).atCtrl ⟨0, 0, [], 4⟩) ∧
    ((atWord [0xFC880001, 5]).atCtrl ⟨4, 1, [5], 8⟩ ∧ (atWord [0xFC880001, 5]).ns < instanceOf (atWord [0xFC880001, 5]).ns 1 5) ∧
    (let s : State := { atWord [0xFC880001, 5] with tim := { c := 3 * 10 ^ 9 * 2 } }
     s.atCtrl ⟨4, 1, [5], 8⟩ ∧ instanceOf s.ns 1 5 < s.ns) ∧
    ((waits (.waitt 0)).ctrlWaits (.waitt 0) ∧ 0 ≤ (waits (.waitt 0)).ns) ∧
    ((atWord [0xFCA80000, 9]).atCtrl ⟨5, 0, [9], 8⟩) ∧ ((waits (.waitd 0 0)).ctrlWaits (.waitd 0 0) ∧ 0 + 3 * 0 ≤ (waits (.waitd 0 0)).tick) ∧
    ((atWord [0xFCD80000, 0, 0, 0]).atCtrl ⟨6, 0, [0, 0, 0], 16⟩) ∧
    (let s := waits (.waits 0 0xFFFF 0x0E57 0)
     s.ctrlWaits (.waits 0 0xFFFF 0x0E57 0) ∧ (s.sampleOff 0) &&& 0xFFFF = 0x0E57) ∧
    (let s : State := { waits (.waits 0 0 1 0) with tick := 2 ^ 60 }
     s.ctrlWaits (.waits 0 0 1 0) ∧ 0 + usTicks (max 1 (s.reg .PRG_WAITS_LIMIT)) ≤ s.tick) ∧
    ((atWord [0xFFE00000]).atCtrl ⟨0x1F, 0, [], 4⟩ ∧ (atWord [0xFFE00000]).epo.dual = false) ∧
    (let s : State := { atWord [0xFFE00000] with epo := { dual := true } }
     s.atCtrl ⟨0x1F, 0, [], 4⟩ ∧ s.epo.dual = true) := by
  and_intros <;> decide +kernel

set_option maxRecDepth 40000 in
theorem witness_TableInstructionsTouchOnlyTheShadow :
    let w := [0xFC380000, 0x10000000, 0, 4]
    let v (crc : Nat) := [0xFC518000, 0xC00000, crc]
    ((atWord w).atCtrl ⟨1, 0, [0x10000000, 0, 4], 16⟩ ∧ (atWord w).epo.dual = false ∧ (atWord w).rkCopy = none ∧
      ((atWord w).wrtbWrites (atWord w).prg.store ⟨1, 0, [0x10000000, 0, 4], 16⟩).isSome = true) ∧
    ((atWord [0xFC380000, 0x10000000, 4, 4]).atCtrl ⟨1, 0, [0x10000000, 4, 4], 16⟩ ∧
      (atWord w).wrtbWrites (atWord w).prg.store ⟨1, 0, [0x10000000, 4, 4], 16⟩ = none) ∧
    (({ atWord w with epo := { dual := true } } : State).atCtrl ⟨1, 0, [0x10000000, 0, 4], 16⟩) ∧
    ((atWord (v 0)).atCtrl ⟨2, 0x18000, [0xC00000, 0], 12⟩ ∧ holdsTable (fld 0x18000 15 4) 0xC0 (fld 0x18000 12 3) = true ∧
      (atWord (v 0)).domDown (tabDomain (fld 0x18000 15 4) 0xC0) = false ∧
      (atWord (v 0)).tableCrc (atWord (v 0)).shadowBank 3 0xC0 0 ≠ 0) ∧
    ((atWord (v 1114675946)).atCtrl ⟨2, 0x18000, [0xC00000, 1114675946], 12⟩ ∧
      (atWord (v 1114675946)).tableCrc (atWord (v 1114675946)).shadowBank 3 0xC0 0 = 1114675946) := by decide +kernel

set_option maxRecDepth 40000 in
theorem witness_WrcsHoldsTheSequence :
    let w := [0xFC700000, 0, 5]
    let r : HubReq := { src := 0x180, sd := 0, write := true, off := 0 }
    ((atWord w).atCtrl ⟨3, 0, [0, 5], 12⟩ ∧ (atWord w).hubFree = true ∧ inDirect (fld ([0, 5].getD 0 0) 0 26) = false ∧
      (atWord w).prim ≠ .test ∧ absent (fld ([0, 5].getD 0 0) 0 26) = false) ∧
    ((atWord [0xFC700000, 0x0FFF000, 5]).atCtrl ⟨3, 0, [0x0FFF000, 5], 12⟩ ∧ (atWord [0xFC700000, 0x0FFF000, 5]).hubFree = true ∧
      inDirect (fld 0x0FFF000 0 26) = false ∧ absent (fld 0x0FFF000 0 26) = true) ∧
    ((atWord [0xFC700000, 0x2000000, 5]).atCtrl ⟨3, 0, [0x2000000, 5], 12⟩ ∧ inDirect (fld 0x2000000 0 26) = true) ∧
    (let p : Pkt := { net := .rsp, txid := wrcsTxid }
     let s : State := { waits (.wrcs true) with ni := [(0x180, { inbox := [p] })] }
     s.ctrlWaits (.wrcs true) ∧ (s.nif 0x180).inbox = p :: [] ∧ p.net = .rsp ∧ p.txid = wrcsTxid) ∧
    (let s : State := { atWord w with hub := { queue := List.replicate 64 r } }
     s.atCtrl ⟨3, 0, [0, 5], 12⟩ ∧ s.hubFree = false ∧ inDirect (fld ([0, 5].getD 0 0) 0 26) = false) ∧
    ((waits (.wrcs false)).ctrlWaits (.wrcs false) ∧
      ((waits (.wrcs false)).hub.queue ++ (waits (.wrcs false)).hub.tree).any HubReq.mine = false) ∧
    (let s : State := { waits (.wrcs false) with hub := { queue := [r] } }
     s.ctrlWaits (.wrcs false) ∧ (s.hub.queue ++ s.hub.tree).any HubReq.mine = true) := by decide +kernel

/-- A Clove copy with one image under the key (R43). -/
def cloveCopy (key : Nat) (img : List Byte) : List Byte :=
  let e := leBytes 4 key ++ leBytes 4 0x30 ++ leBytes 4 img.length ++ leBytes 4 (areaNat img 0xFC 4)
  leBytes 4 0x45564C43 ++ leBytes 4 1 ++ leBytes 8 0 ++ leBytes 4 (crc32c e).toNat ++ zeros 12 ++ e ++ img

set_option maxRecDepth 40000 in
theorem witness_FencesLinkupAndCloveImages :
    let f : State := { run with prg := { state := .receiving, fetching := true, clove := some { key := 9, sort := 0 } } }
    let img := image [0xFFE00000] true
    ((atWord [0xFCE00003]).atCtrl ⟨7, 3, [], 4⟩ ∧ (⟨7, 3, [], 4⟩ : CtrlInstr).unit = some (nodeUnit 3)) ∧
    ((atWord [0xFCE003FF]).atCtrl ⟨7, 0x3FF, [], 4⟩ ∧ (⟨7, 0x3FF, [], 4⟩ : CtrlInstr).unit = none) ∧
    ((atWord [0xFD000003]).atCtrl ⟨8, 3, [], 4⟩ ∧ (⟨8, 3, [], 4⟩ : CtrlInstr).unit = some (nodeUnit 3)) ∧
    ((atWord [0xFD40007F]).atCtrl ⟨10, 0x7F, [], 4⟩ ∧ (atWord [0xFD40007F]).epo.first = true) ∧
    (let s : State := { atWord [0xFD40007F] with epo := {} }
     s.atCtrl ⟨10, 0x7F, [], 4⟩ ∧ s.epo.first = false) ∧
    (run.niFenced 0 = false ∧ (run.nif 0).link ≠ .up ∧ (run.nif 0).p2fLink = false) ∧
    (f.prg.clove = some { key := 9, sort := 0 } ∧ f.prg.fetching = true ∧ f.prim ≠ .halt ∧
      f.cloveImage { key := 9, sort := 0 } (cloveCopy 9 img) = some (some img)) ∧
    (f.cloveImage { key := 9, sort := 0 } [] = none) ∧
    (let s : State := { run with fallback := true }
     s.fallback = true ∧ s.prg.busy = false ∧ (∀ c, c < 32 → s.pendOf c < 2) ∧ s.prg.waiting = [] ∧ s.prg.clove = none ∧
     s.epo.dual = false ∧ s.prim ≠ .halt) ∧ (run.fallback = false) := by decide +kernel

set_option maxRecDepth 40000 in
theorem witness_EpochArm :
    let w := [0xFD280000, 0xFFFFFFFF]
    let i : CtrlInstr := ⟨9, 0, [0xFFFFFFFF], 8⟩
    let armed : State := { run with epo := { t := some 8192, missing := [nodeUnit 3], first := true } }
    ((0 : Int) + 4000 ≤ 4000) ∧
    (let s : State := { atWord w with ni := [(0x180, { safCred := 1 })] }
     s.atCtrl i ∧ s.prim ≠ .drain ∧ s.epo.dual = false ∧ s.saf.spine = [] ∧ 0 < (s.nif 0x180).safCred ∧ i.ops.getD 0 0 = 0xFFFFFFFF) ∧
    (({ atWord w with prim := .drain } : State).atCtrl i) ∧
    (unitExists (nodeUnit 3) = true ∧ armed.epo.t = some 8192 ∧ armed.prim ≠ .halt ∧ armed.ns < 8192 - 1000 ∧
      armed.canAck (nodeUnit 3) = true ∧ (nodeUnit 3).node = true) ∧
    (let a : State := { armed with ni := [(0xC0, { arm := some { net := .req } })] }
     unitExists (fidUnit 0xC0) = true ∧ a.epo.t = some 8192 ∧ a.ns < 8192 - 1000 ∧ a.canAck (fidUnit 0xC0) = true ∧
     (fidUnit 0xC0).node = false ∧ (a.nif 0xC0).arm = some { net := .req }) ∧
    (0x800 ≤ ({ net := .rsp, txid := 0x800 } : Pkt).txid.toNat ∧ ({ net := .rsp, txid := 0x800 } : Pkt).status = 0) ∧
    (let s : State := { armed with tim := { c := 3 * 8000 } }
     s.epo.t = some 8192 ∧ 8192 - 1000 ≤ s.ns ∧ s.epo.missing ≠ [] ∧ s.prim ≠ .halt) := by decide +kernel

theorem witness_EpochSwitchAndDrain :
    let a : State := { waits .epsw with epo := { t := some 0, first := true } }
    let d (late : Bool) : State := { run with prim := .dual, epo := { dual := true, overrun := late, first := true, cur := true } }
    let o : State := { d false with ni := [(0, { egress := [⟨{ net := .req }, 0, 0⟩] })] }
    (a.epo.t = some 0 ∧ a.prim ≠ .halt ∧ a.prg.wait = .epsw ∧ 0 ≤ a.ns ∧ a.epo.missing = [] ∧ a.prim = .run ∧ a.prg.clove = none ∧
      a.prg.abort = false) ∧
    (({ a with epo := { t := some 1 } } : State).epo.t = some 1 ∧ a.ns < 1) ∧
    ((d false).prim = .dual ∧ (d false).epo.dual = true ∧ (d false).epo.overrun = false ∧
      (d false).epo.at_ + nsTicks (d false).epo.drain ≤ (d false).tick ∧ (d false).oldHolders = []) ∧
    ((d true).epo.overrun = true ∧ (d true).oldHolders = []) ∧
    ((d false).drainPend = false ∧ (d false).prg.waiting = [] ∧ (∀ x, x < 18 → ((d false).domain x).phase ≠ 3) ∧
      (d false).prg.state ≠ .executing) ∧
    (o.oldHolders ≠ [] ∧ o.epo.dual = true ∧ o.prim ≠ .halt ∧ o.epo.at_ + nsTicks o.epo.drain ≤ o.tick) ∧
    (let s : State := { run with rkCopy := some 0 }
     s.rkCopy.isSome = true ∧ SMap.wf 0 s.tabs = true ∧ s.domDown 1 = false) := by decide +kernel

/-! ### Witnesses: the networks, the rules and Saffron -/

/-- A rule entry that lets every domain read and write all memory (R199). -/
def openRule : Nat := 44 * 2 ^ 40 + 2 ^ 46 + 0xFFFF * 2 ^ 48 + 0xFFFF * 2 ^ 64

/-- RUN with CC0 in domain 1 and slice 0, and one rule that admits everything in every checker. -/
def ruled (s : State) : State :=
  let s := (s.setTab 0 8 0 0 4160 128).setTab 0 5 4 0 4096 17
  (List.range 5).foldl (fun s c => s.setTab 0 5 c 0 16 openRule) s

theorem witness_RequestsSplitIntoAlignedPieces : 0 < 4096 ∧ 4096 ≤ 4096 := by decide

/-- No cell of an index is listed that no key ends in. -/
theorem tab_unlisted (s : State) (i : Nat) (hi : i < 65536) (h : s.tabs.all (fun kv => kv.1 % 65536 != i) = true)
    (b t u p : Nat) : s.tab b t u p i = 0 := by
  have g : ∀ m : SMap Nat, m.all (fun kv => kv.1 % 65536 != i) = true → SMap.get 0 m (tabKey b t u p i) = 0 := by
    intro m
    induction m with
    | nil => intro _; rfl
    | cons kv m ih =>
      intro h
      simp only [List.all_cons, Bool.and_eq_true, bne_iff_ne] at h
      have hk : kv.1 ≠ tabKey b t u p i := by
        intro e
        apply h.1
        rw [e]
        unfold tabKey
        omega
      simp [SMap.get, hk, ih h.2]
  exact g _ h

/-- A beat of a read request, and RUN with that read of CC0 as a TC0 message two cycles before slot 7. -/
def rdBeat : Beat := { net := .req, opc := 0x12, plen := 63 }
def tc0Read : State := (ruled { runNi 0 { link := .up, beats := [rdBeat] } with tim := { c := 5 } }).setTab 0 1 0 0 (1025 + 0x12) 4

/-- With no slot entry at index 7 no message of TC0 is accepted two cycles before, wherever the interface is attached. -/
theorem no_slot_due (s : State) (f : Nat) (net : Net) (ep : Bool) (dst : Nat) (hc : s.tim.c = 5) (h : ∀ b t u p, s.tab b t u p 7 = 0) :
    s.slotDue f net ep dst = false := by
  simp [State.slotDue, State.headSlots, State.slotAt, hc, h, fld, bitOf]

theorem witness_a_TC0_request_waits :
    (beatPieces rdBeat).length ≤ (tc0Read.freeSrc 0).length ∧ tc0Read.sliceStamp 0 (tc0Read.epOf 0) rdBeat = some 0 ∧
    tc0Read.sliceHolds 0 0x12 0 = false ∧ tc0Read.sliceRefuses 0 0x12 0 = false ∧
    (∃ ps, tc0Read.precheck 0 (tc0Read.epOf 0) 0 (tc0Read.domainOf (tc0Read.epOf 0) 0) rdBeat = .ok ps ∧
      ps.head? = some (0, 6, 256) ∧ ∀ p ∈ ps, p.2.2 < 0x120 ∨ 0x126 ≤ p.2.2) ∧ tc0Read.mayAccept 0 .req 0x12 256 = false := by
  have hd := fun ep => no_slot_due tc0Read 0 .req ep 256 rfl (tab_unlisted tc0Read 7 (by decide) (by decide +kernel))
  have ht : tc0Read.tcOf 0 (tc0Read.epOf 0) .req 0x12 = 0 := by decide +kernel
  exact ⟨by decide +kernel, by decide +kernel, by decide +kernel, by decide +kernel, ⟨[(0, 6, 256)], by rfl, by decide, by decide⟩,
    by simp [State.mayAccept, ht, hd]⟩

theorem witness_IngressTakesRequestsWhole :
    let rd : Beat := { net := .req, opc := 0x12, plen := 63 }
    let s (h : Beat) (n : Ni) : State := runNi 0 { n with link := .up, beats := [h] }
    let r : State := ruled (s rd {})
    let full : State := ruled (s rd { src := (List.range (srcCap 0)).map (fun i => (i, some {})) })
    (isPartner (0 : Fid).toNat = true ∧ ((s rd {}).nif 0).link = .up ∧ (s rd {}).prim = .run ∧ (s rd {}).fc.inject = none ∧
      ((s rd {}).nif 0).beats = [rd] ∧ rd.net = .req ∧ rd.last = true ∧ (s rd {}).epo.first = true) ∧
    (classPermits 0 0x3F = false) ∧ (beatFormatOk { net := .req, opc := 1 } = false) ∧
    (classPermits 0 0x12 = true ∧ beatFormatOk rd = true ∧ rd.addr.toNat < 2 ^ 47) ∧
    ((s rd {}).sliceStamp 0 ((s rd {}).epOf 0) rd = none ∧ (beatPieces rd).length ≤ ((s rd {}).freeSrc 0).length) ∧
    ((full.freeSrc 0).length < (beatPieces rd).length) ∧
    (r.sliceStamp 0 (r.epOf 0) rd = some 0 ∧ r.sliceHolds 0 0x12 0 = false ∧ r.sliceRefuses 0 0x12 0 = false ∧
      pclass 0 ≠ 5 ∧ (r.nif 0).link = .up ∧ (r.nif 0).beats = [rd]) ∧
    ((match (r.setTab 0 5 4 0 4096 0).precheck 0 (r.epOf 0) 0 ((r.setTab 0 5 4 0 4096 0).domainOf (r.epOf 0) 0) rd with
      | .error e => e == (4, 0x1FFF, 0) | .ok _ => false) = true) ∧
    ((match r.precheck 0 (r.epOf 0) 0 (r.domainOf (r.epOf 0) 0) rd with
      | .error _ => false
      | .ok ps => ps.all (fun p => p.2.2 < 0x120 || 0x126 ≤ p.2.2) &&
        ps.head?.all (fun p => (r.setTab 0 1 0 0 (1025 + 0x12) 5).mayAccept 0 .req 0x12 p.2.2)) = true) ∧
    ((run.nif 0).link ≠ .up) ∧
    (let e : SrcEnt := { req := { net := .req, opc := 0x12 } }
     let q : State := runNi 0 { src := [(3, some e)] }
     tracked 0 = true ∧ q.niFenced 0 = false ∧ q.prim ≠ .halt ∧ (3, e) ∈ (q.nif 0).ents ∧ q.canIssue 0 (q.nif 0).ents e = true ∧
     (∀ x ∈ (q.nif 0).ents, x = (3, e)) ∧ (q.setMap .FC_FENCED_NIn 0 true).niFenced 0 = true) := by decide +kernel

theorem witness_ArbiterPicksByForceLevelAndRotation :
    let r : ArbReq := { idx := 1, level := 3, burst := 2 }
    let p : ArbReq := { idx := 2, level := 3, burst := 2, kind := some 0 }
    ((0 : Nat) < 3 ∧ (∀ q ∈ [r, p], q.idx < 3 ∧ q.level < 8)) ∧
    (forcedOf (2 ^ 41) {} [r, p] = [] ∧ (∀ q ∈ [r, p], ({} : Arb).holder ≠ some q.idx) ∧
      arbWinner (2 ^ 41) 3 {} [r, p] = some (r, false, true)) ∧
    (forcedOf (2 ^ 41) { holder := some 1, used := 1 } [r, p] = [] ∧ r ∈ [r, p] ∧ ({ holder := some 1, used := 1 } : Arb).holder = some r.idx ∧
      1 < r.burst ∧ [r, p].Pairwise (fun x y => x.idx ≠ y.idx)) ∧
    (forcedOf (2 ^ 41) { waits := [(2, 2)] } [r, p] ≠ []) := by decide +kernel

/-- With nothing in the buffers and at the interfaces no flit claims a slot, wherever the interfaces are attached. -/
theorem witness_no_slot_claims : run.slotClaims 1 .req 1 = [] := by
  have h : ∀ inp, run.vc1Front 1 .req inp = none := by
    intro inp
    rfl
  simp [State.slotClaims, h]

theorem witness_RouterOutputsDecide :
    let p : Pkt := { net := .req, dst := 5, src := 1, opc := 0x12, vc := 3, la := 1 }
    let e : Pkt := { p with opc := 0x1B, vc := 2, tc := 1, la := 1 }
    let s (k : Nat) (q : Pkt) (b : RBuf) : State := { run with rbuf := [(bufKey 1 .req 3 k, { b with q := [⟨q, 0, 0⟩] })], tick := 1 }
    let f : State := { s 2 e {} with epo := {}, tick := 1, arbs := [(arbBase (.router 1 .req 1), { waits := [(reqIdx 3 2, 1023)] })] }
    (run.prim ≠ .halt ∧ run.rtrFenced 1 = false ∧ portPresent 1 1 = true ∧ run.fc.inject = none) ∧
    (run.hopReqs 1 .req 1 = []) ∧
    (f.prim ≠ .halt ∧ f.rtrFenced 1 = false ∧ (f.forcedAt (.router 1 .req 1) 21 ((f.hopReqs 1 .req 1).map (·.2.2))).isSome = true) ∧
    ((run.forcedAt (.home 0) 5 (run.homeReqs 0)).isSome = false) ∧ ((f.hopReqs 1 .req 1).length = 1) ∧
    (let t := s 3 p {}
     (t.buf 1 .req 3 3).q = [⟨p, 0, 0⟩] ∧ (t.buf 1 .req 3 3).kept = none ∧ p.dst ≠ 0x3FF ∧ p.len = 0 ∧ neighbour 1 0 = none) ∧
    (let t : State := ({ s 3 p { dry := some 0 } with tick := 4096 } : State).setTab 0 0 1 0 5 (2 ^ 12 + 8)
     (t.buf 1 .req 3 3).q = [⟨p, 0, 0⟩] ∧ (t.buf 1 .req 3 3).dry = some 0 ∧ t.prim ≠ .halt ∧ t.rtrFenced 1 = false ∧
     0 + max 1 (t.rf .RTR_ESC 0 10 (rtrBase 1)) ≤ t.tick ∧ t.escapable 1 .req 3 3 = true) ∧
    (let t : State := { s 1 { p with vc := 1 } {} with tick := 9 }
     (t.buf 1 .req 3 1).q = [⟨{ p with vc := 1 }, 0, 0⟩] ∧ 0 + 1 < t.tick) ∧
    (((s 3 p {}).buf 1 .req 3 3).dry = none) := by decide +kernel

theorem witness_AgesWatchdogsAndWindows :
    let p (i : BitVec 16) : Pkt := { net := .req, opc := 0x12, vc := 3, inj := i }
    let s (i : BitVec 16) : State := { run with rbuf := [(bufKey 1 .req 3 3, { q := [⟨p i, 0, 0⟩] })], tim := { c := 40000 }, tick := 2 ^ 20 }
    let n (x : Ni) : State := { runNi 0 x with tim := { c := 40000 } }
    (((s 7233).buf 1 .req 3 3).q = [⟨p 7233, 0, 0⟩] ∧ (p 7233).old = false ∧ 32768 ≤ ageOf ((s 7233).tim.c % 65536) 7233) ∧
    (ageOf ((s 7234).tim.c % 65536) 7234 < 32768) ∧
    (assigned (0 : Fid).toNat = true ∧ (n {}).oldWaits ((n { injq := [⟨p 0, 0, 0⟩] }).nif 0) = true ∧ (n {}).isOld (p 0) = true) ∧
    (((n { rob := [p 0] }).nif 0).rob = [p 0]) ∧
    ((s 0).prim ≠ .halt ∧ (s 0).rtrFenced 1 = false ∧
      ((s 0).buf 1 .req 3 3).moved + max 0x400 ((s 0).rf .RTR_WDOG 0 20 (rtrBase 1)) ≤ (s 0).tick) ∧
    (({ s 0 with tick := 0 } : State).tick < ((s 0).buf 1 .req 3 3).moved + max 0x400 ((s 0).rf .RTR_WDOG 0 20 (rtrBase 1))) ∧
    (let a : State := { run with arbs := [(arbBase (.home 0), { tc1 := 1 })] }
     a.arbs = [(arbBase (.home 0), { tc1 := 1 })] ∧ siteOf (arbBase (.home 0)) = some (.home 0) ∧
     a.tim.c % 2 ^ windowLog2 (a.arbEntry (.home 0)) = 0) := by decide +kernel

theorem witness_EgressChecksAndOrders :
    let p (net : Net) (d : Fid) (t : BitVec 12) : Pkt := { net := net, dst := d, opc := 0x12, src := 3, vc := 3, txid := t }
    let s (q : Pkt) : State := { runNi 0xC0 { egress := [⟨q, 0, 0⟩] } with tick := 1 }
    let x (net : Net) (d : Fid) : Flit := ⟨p net d 0, 0, 0⟩
    (assigned (0xC0 : Fid).toNat = true ∧ run.prim ≠ .halt ∧ run.fc.inject = none ∧
      (s (p .req 0xC0 0)).egressFront 0xC0 .req 3 = some (x .req 0xC0) ∧ (x .req 0xC0).idx = 0 ∧ (p .req 0xC0 0).len = 0 ∧
      (s (p .req 0xC0 0)).egressWaits 0xC0 (p .req 0xC0 0) = false ∧ (p .req 0xC0 0).dst.toNat = 0xC0) ∧
    ((s (p .req 0xC1 0)).egressFront 0xC0 .req 3 = some (x .req 0xC1) ∧ (p .req 0xC1 0).dst.toNat ≠ 0xC0 ∧
      (p .req 0xC1 0).dst ≠ 0x3FF ∧ (s (p .req 0xC1 0)).egressWaits 0xC0 (p .req 0xC1 0) = false) ∧
    ((s (p .dat 0xC0 0)).egressFront 0xC0 .dat 3 = some (x .dat 0xC0) ∧ (s (p .dat 0xC0 0)).egressWaits 0xC0 (p .dat 0xC0 0) = false) ∧
    (let q : Pkt := { p .dat 0xC0 0 with len := 2 }
     let c (i : Nat) (d : Bool) : State := { runNi 0xC0 { egress := [⟨q, i, 0⟩], asm := [(asmKey .dat 3, some { pkt := q, n := i, drop := d })] } with tick := 1 }
     (∀ i d, i = 1 ∨ i = 2 → (c i d).egressFront 0xC0 .dat 3 = some ⟨q, i, 0⟩ ∧
       SMap.get none ((c i d).nif 0xC0).asm (asmKey .dat 3) = some { pkt := q, n := i, drop := d }) ∧ q.len.toNat = 2 ∧
     (c 2 false).egressWaits 0xC0 q = false) ∧
    ((s (p .req 0xC0 5)).outOfTurn 0xC0 (p .req 0xC0 5) = true ∧ (p .req 0xC0 5).net = .req) ∧
    (run.egressFront 0xC0 .req 3 = none) ∧
    (let r (t : BitVec 12) : State := runNi 0xC0 { rob := [p .req 0xC0 t] }
     ((r 0).nif 0xC0).rob = [p .req 0xC0 0] ∧ (r 0).outOfTurn 0xC0 (p .req 0xC0 0) = false ∧ (r 0).reqWaits 0xC0 (p .req 0xC0 0) = false ∧
     (∀ x ∈ [p .req 0xC0 5], (r 5).outOfTurn 0xC0 x = true)) ∧ ((p .req 0xC0 0).rlx = false) := by
  and_intros <;> first | decide +kernel | (rintro i d (rfl | rfl) <;> cases d <;> decide +kernel)

theorem witness_AnswersCompletePieces :
    let c (src : Fid) (cnt : BitVec 8) : Pkt := { net := .rsp, opc := 0x10, src := src, cnt := cnt, txid := 0x20 }
    let e (st : PieceState) : SrcEnt := { state := st, req := { net := .req, opc := 0x12, txid := 0x20 } }
    let s (p : Pkt) (st : PieceState) : State := runNi 0 { inbox := [p], src := [(2, some (e st))] }
    let late (st : PieceState) : State := { ruled (s (c 5 0) st) with tick := 64, epo := { first := true, count := 1 } }
    (isPartner (0 : Fid).toNat = true ∧ ((s (c 0x181 0x81) .issued).nif 0).inbox = [c 0x181 0x81] ∧ (c 0x181 0x81).net = .rsp ∧
      (c 0x181 0x81).opc = 0x10 ∧ (c 0x181 0x81).src = 0x181 ∧ (c 0x181 0x81).cnt = 0x81) ∧
    ((c 5 0).cnt ≠ 0x81 ∧ (runNi 0 { inbox := [c 5 0] }).srcEnt 0 ((c 5 0).txid.toNat / 16) = none) ∧
    ((s (c 5 0) .issued).srcEnt 0 ((c 5 0).txid.toNat / 16) = some (e .issued) ∧ (e .issued).state = .issued ∧
      (e .issued).req.txid = (c 5 0).txid) ∧
    (tracked 0 = true ∧ (s (c 5 0) .nackWait).srcEnt 0 2 = some (e .nackWait) ∧ (s (c 5 0) .nackWait).tick < 0 + 64) ∧
    ((s (c 5 0) .epochWait).srcEnt 0 2 = some (e .epochWait) ∧ (s (c 5 0) .epochWait).epo.count ≤ (e .epochWait).epoch) ∧
    ((late .nackWait).srcEnt 0 2 = some (e .nackWait) ∧ (late .nackWait).niFenced 0 = false ∧ 0 + 64 ≤ (late .nackWait).tick ∧
      (((late .nackWait).redirect 0 2 (e .nackWait)).srcEnt 0 2).any (fun x => x.state == .ready &&
        ((late .nackWait).redirect 0 2 (e .nackWait)).streamRoom 0 x.req) = true) ∧
    ((late .epochWait).srcEnt 0 2 = some (e .epochWait) ∧ (e .epochWait).epoch < (late .epochWait).epo.count ∧
      (((late .epochWait).redirect 0 2 (e .epochWait)).srcEnt 0 2).any (fun x => x.state == .ready &&
        ((late .epochWait).redirect 0 2 (e .epochWait)).streamRoom 0 x.req) = true) ∧
    (∀ x ∈ [e .issued], x.status = 0) ∧
    (let b : SrcEnt := { off := 64, status := 6 }
     let a : SrcEnt := { status := 1 }
     a ∈ [a, b] ∧ a.status ≠ 0 ∧ (∀ x ∈ [a, b], x.status ≠ 0 → x ≠ a → a.off < x.off)) := by decide +kernel

theorem witness_TrackersExpireAndRelease :
    let e (st : PieceState) (at_ : Nat) : SrcEnt := { state := st, start := at_, since := at_ }
    let s (st : PieceState) (at_ now : Nat) : State := { runNi 0 { src := [(2, some (e st at_))] } with tick := now }
    let lim := run.trackLimit 0
    (tracked 0 = true ∧ (s .issued 1 lim).srcEnt 0 2 = some (e .issued 1) ∧ (e .issued 1).timed = true ∧
      (e .issued 1).start + (s .issued 1 lim).trackLimit 0 ≤ (s .issued 1 lim).tick + 1) ∧
    ((s .issued 1 0).tick + 1 < (e .issued 1).start + (s .issued 1 0).trackLimit 0) ∧
    ((s .dead 0 lim).srcEnt 0 2 = some (e .dead 0) ∧ (e .dead 0).trans = 0 ∧ 0 + (s .dead 0 lim).trackLimit 0 ≤ (s .dead 0 lim).tick) ∧
    ((s .dead 0 0).tick < (e .dead 0).since + (s .dead 0 0).trackLimit 0) ∧ (0x180 ≤ 0x183 ∧ 0x183 < 1024) ∧
    (let t (a : Bool) (now : Nat) : State := { runNi 0 { tgt := [(1, some { req := { net := .req }, answered := a })] } with tick := now }
     isPartner 0 = true ∧ SMap.get none ((t false lim).nif 0).tgt 1 = some { req := { net := .req } } ∧ (t false 0).tick < 0 + (t false 0).trackLimit 0 ∧
     0 + (t false lim).trackLimit 0 ≤ (t false lim).tick ∧
     SMap.get none ((t true lim).nif 0).tgt 1 = some { req := { net := .req }, answered := true }) ∧
    (let p : Pkt := { net := .req, dst := 5, tc := 1 }
     let h (now : Nat) : State := { (runNi 0 { epHold := [p], lastOld := [(2 * streamKey p + 1, 5)] }).setTab 0 10 0 0 20 (5 + 2 ^ 10 + 2 ^ 12 + 100 * 2 ^ 16) with tick := now }
     assigned 0 = true ∧ ((h 0).nif 0).epHold = [p] ∧ p.net = .req ∧ (h 0).holdOf 0 p = some 100 ∧
     0 < SMap.get 0 ((h 0).nif 0).lastOld (2 * streamKey p + (!p.ep).toNat) ∧
     (h 0).tick + 1 < SMap.get 0 ((h 0).nif 0).lastOld (2 * streamKey p + (!p.ep).toNat) + 100 ∧ (h 199).holdOf 0 p = some 100 ∧
     SMap.get 0 ((h 199).nif 0).lastOld (2 * streamKey p + (!p.ep).toNat) + 100 ≤ (h 199).tick + 1) ∧
    (let p : Pkt := { net := .req, dst := 5 }
     let h (f now : Nat) : State := { runNi f { hold := [(p, 0), (p, 9)] } with tick := now }
     ((h 0 0).nif 0).hold = (p, 0) :: [(p, 9)] ∧ (∀ x ∈ [(p, 9)], x.1.net = .req) ∧
     (h 0 0).tick < 0 + usTicks (max 1 ((h 0 0).rf .PWR_HOLD 0 16)) ∧
     0 + usTicks (max 1 ((h 0 (2 ^ 30)).rf .PWR_HOLD 0 16)) ≤ (h 0 (2 ^ 30)).tick ∧
     ((h 0x183 (2 ^ 30)).nif 0x183).hold = (p, 0) :: [(p, 9)] ∧ tracked 0x183 = false) := by decide +kernel

theorem witness_AccessRulesDecideAndAreRepaired :
    let r := ruled run
    let no : State := r.setTab 0 5 0 0 16 (44 * 2 ^ 40 + 2 ^ 46)
    (SMap.wf 0 r.tabs = true ∧ r.deciding false 0 0 0x40 = some (16, openRule)) ∧
    (rulePerm 0x12 = some (true, false) ∧ rulePerm 0x13 = some (false, true) ∧ (1 ≠ 15)) ∧
    (run.deciding false 0 0 0x40 = none) ∧
    ((0x12 ≠ 0xA) ∧ ruleRd openRule 1 = true ∧ ruleWr openRule 1 = true) ∧
    (no.deciding false 0 0 0x40 = some (16, 44 * 2 ^ 40 + 2 ^ 46) ∧ ruleRd (44 * 2 ^ 40 + 2 ^ 46) 1 = false) ∧
    ((rulePerm 0x12).isSome = true ∧
      ({ run with fuses := some { goodFuses with rule := BitVec.ofNat 2240 (2 ^ 2183) } } : State).dbgOvr = true) ∧
    (let dev : State := r.setTab 0 5 0 0 16 (openRule + 2 ^ 80)
     dev.deciding false 0 0 0x40 = some (16, openRule + 2 ^ 80) ∧ ruleType (openRule + 2 ^ 80) = 1) ∧
    ((run.setReg .RK_DENY_CAP (2 ^ 31) rkBase).rf .RK_DENY_CAP 31 1 rkBase = 1) ∧ (run.rf .RK_CENTRAL_ERR 31 1 rkBase = 0) := by
  decide +kernel

theorem witness_SaffronOrdersAndReserves :
    let h : Pkt := { net := .req, src := 0, opc := 0x14 }
    let box (n : Nat) : State := { runNi 0x181 { inbox := [h] } with saf := { admq := List.replicate n h } }
    let g : State := ({ box 1 with saf := { admq := [h] } } : State).setReg .SAF_POOLDEF 1
    let slot (st : SlotState) : SafSlot := { master := 0, pool := true, slice := 0, txid := 0, req := h, seq := some 4, state := st }
    let c (st : SlotState) : State := { run with saf := { slots := [slot st] } }
    let own : Nat := 0x180 + 4 * 2 ^ 10 + 2 ^ 24
    ((box 0).prim ≠ .halt ∧ (∀ t ∈ (box 0).saf.slots, t.state ≠ .granted) ∧ ((box 0).nif 0x181).inbox = [h] ∧ h.net = .req ∧ h.opc = 0x14 ∧
      h.df = false ∧ (box 0).saf.admq.length < 256) ∧ (256 ≤ (box 256).saf.admq.length) ∧
    (g.prim ≠ .halt ∧ g.saf.admq = [h] ∧ g.safCanGrant h = true ∧ g.saf.freeSlot = some 0 ∧ noData h = false) ∧
    ((box 0).saf.admq = []) ∧
    (let d : Pkt := { net := .dat }
     let s : State := runNi 0x181 { inbox := [{ h with df := true }, d] }
     s.prim ≠ .halt ∧ (∀ t ∈ s.saf.slots, t.state ≠ .granted) ∧ (s.nif 0x181).inbox = [{ h with df := true }, d] ∧ d.net = .dat ∧
     d.src = h.src ∧ d.txid = h.txid ∧ s.saf.freeSlot = some 0) ∧
    (let s : State := { run with saf := { spine := [{ req := h }] }, tick := 2 ^ 20 }
     s.saf.spine[0]? = some { req := h } ∧ ({ req := h } : SpineReq).waited = false ∧
     ({ req := h } : SpineReq).since + max 1 (s.rf .SAF_WAIT 0 20) ≤ s.tick) ∧
    ((c .done).prim ≠ .halt ∧ (∀ p ∈ ((c .done).nif 0x181).inbox, p.net ≠ .rsp) ∧ (c .done).saf.oldest = some (slot .done) ∧
      (slot .done).state = .done) ∧
    ((c .granted).saf.oldest = some (slot .granted) ∧ (slot .granted).req.opc = 0x14) ∧
    (safLegal ((List.range 32).map (fun i => if i = 0 then fld own 0 25 else 0)) 0 = true) ∧
    (safLegal ((List.range 32).map (fun i => if i = 0 then fld 0 0 25 else 0)) 0 = false) ∧
    (safLegal (run.setReg .SAF_ENTn own 0 0).safEnts (fld 1 0 7) = true) ∧ (safLegal (run.setReg .SAF_ENTn own 0 0).safEnts (fld 127 0 7) = false) ∧
    (let e (w : Bool) : SrcEnt := { req := h, waited := w }
     let s (w : Bool) (now : Nat) : State := { runNi 0 { src := [(2, some (e w))] } with tick := now }
     tracked 0 = true ∧ (s false (2 ^ 20)).srcEnt 0 2 = some (e false) ∧ (e false).req.opc = 0x14 ∧ (e false).state = .ready ∧
     (e false).since + max 1 ((s false (2 ^ 20)).rf .SAF_WAIT 0 20) ≤ (s false (2 ^ 20)).tick ∧
     (s true 0).srcEnt 0 2 = some (e true) ∧ (s false 0).tick < (e false).since + max 1 ((s false 0).rf .SAF_WAIT 0 20)) := by
  decide +kernel

/-! ### Witnesses: homes, caching partners and shared SRAM -/

/-- RUN on the fused arbiter entries, with home slice 0 and its interface's packets as given. -/
def atHome (h : Home) (box : List Pkt) : State := { run with epo := {}, home := [(0, h)], ni := [(0xC0, { inbox := box })] }

theorem witness_BucketOfAnAddress :
    bucketOf ((0xFFFC0 : BitVec 52).toNat / 64) = 0xFFC ∧ (5 : Nat) < 2 ^ 46 ∧
    (let s : State := { run with cache := [(cacheKey 3 5, { st := .s })] }
     (cacheKey 3 5, ({ st := .s } : CLine)) ∈ s.cache ∧ s.bucketLines 3 5 = [5] ∧ bucketOf 5 = 5 ∧ s.bucketLines 3 6 = []) := by
  decide +kernel

theorem witness_HomesDecideRequestsAndWritebacks :
    let q : Pkt := { net := .req, src := 3, opc := 1, vc := 3, addr := 64 }
    let p : Pkt := { q with opc := 6 }
    let d : State := { run with dir := [(dirKey 0 1 0, some { tag := 0, st := 2, owner := 3 })] }
    let r : State := atHome { ready := [(1, [(q, [], false)])] } []
    let j : Judge := { line := 1, bkt := false, puts := [(p, [], false)] }
    let g : State := atHome { judge := [j] } []
    let e1 : TrkEnt := { line := 1, st := .ack, req := q }
    ((atHome {} [q]).laneHead 0 (laneIdx 3) = some q ∧ q.opc ≠ 0x1C ∧ (atHome {} [q]).homeFenced 0 = false ∧
      (atHome {} [q]).fc.inject = none ∧ (atHome {} [q]).waiterOn 0 (laneIdx 3) = false ∧
      ((atHome {} [q]).homeWins 0 (laneIdx 3)).isSome = true) ∧
    (homeServes { q with opc := 0x3F } = false ∧ homeServes q = true ∧ badAop q = false ∧
      (atHome { trk := [(2, some e1)] } []).waitersOf 0 q.lineOf = some 0 ∧ (atHome {} []).waitersOf 0 q.lineOf = none ∧
      (d.dirWay 0 (dirSet q.lineOf) 0).isSome = true) ∧
    (((atHome {} [q]).setMap .FC_FENCED_HSn 0 true).laneHead 0 (laneIdx 3) = some q ∧
      ((atHome {} [q]).setMap .FC_FENCED_HSn 0 true).homeFenced 0 = true) ∧
    ((atHome {} []).laneHead 0 (laneIdx 3) = none) ∧
    ((atHome {} [p]).nextJudge 0 = none ∧ (atHome {} [p]).putHead 0 = some p ∧ (atHome {} [p]).homeFenced 0 = false ∧
      ((atHome {} [p]).homeWins 0 1).isSome = true ∧ (atHome {} [p]).trkOf 0 p.lineOf = none ∧ ((atHome {} [p]).hm 0).judge = []) ∧
    ((atHome { trk := [(2, some e1)] } [p]).trkOf 0 p.lineOf = some (2, e1)) ∧
    (g.nextJudge 0 = some j ∧ j.puts = (p, [], false) :: [] ∧ g.fc.inject = none) ∧
    ((atHome {} []).nextJudge 0 = none ∧ (atHome {} []).putHead 0 = none) ∧
    (d.dirFind 0 (p.addr.toNat / 64) = some (0, { tag := 0, st := 2, owner := 3 }) ∧ cacheIdx p.src.toNat = some 3 ∧
      cacheIdx (4 : Fid).toNat = some 4) ∧
    (r.waiterReady 0).map (·.1) = some 1 ∧ (r.waiterReady 0).map (·.2.1) = some (q, [], false) ∧ (r.waiterReady 0).map (·.2.2) = some [] ∧ (r.homeFenced 0 = false ∧ r.fc.inject = none ∧
      (r.homeWins 0 (laneIdx q.vc)).isSome = true) ∧
    ((run.hm 0).ready = []) := by
  dsimp only
  and_intros <;> first | decide +kernel | rfl

theorem witness_GetSOfAnUncachedLine :
    let q : Pkt := { net := .req, src := 3, opc := 1, vc := 3, addr := 64 }
    (let e : TrkEnt := { line := 1, st := .way, req := q }
     let s : State := atHome { trk := [(2, some e)] } []
     s.trk 0 2 = some e ∧ e.req.opc = 1 ∧ cacheIdx e.req.src.toNat = some 3 ∧ (s.hm 0).newest e.line = none ∧ e.owed = [] ∧
     e.buf = none ∧ e.held = [] ∧ e.waiters = []) ∧
    (let e : TrkEnt := { line := 1, st := .mem, req := q, memRd := true, buf := some ([], false) }
     (atHome { trk := [(2, some e)] } []).trk 0 2 = some e ∧ e.req.opc = 1 ∧ e.buf = some ([], false)) := by
  dsimp only
  and_intros <;> first | decide +kernel | rfl

theorem witness_HomesTakeAnswers :
    let q : Pkt := { net := .req, src := 3, opc := 1, vc := 3, addr := 64, txid := 0x40 }
    let a (net : Net) (opc : BitVec 6) (t : BitVec 12) : Pkt := { net := net, src := 3, opc := opc, txid := t, line := 1 }
    let e (st : HSt) : TrkEnt := { line := 1, st := st, req := q, owed := [{ port := 3, opc := 3, rq := 0xC0 }] }
    let s (st : HSt) (p : Pkt) : State := atHome { trk := [(2, some (e st))] } [p]
    let took (x : State) (p : Pkt) (f : State → Bool) : Bool := x.respHead 0 == some p && (x.takeResp 0 p).any f
    (took (s .ack (a .rsp 2 0x40)) (a .rsp 2 0x40) (fun s1 => (s1.hm 0).trk == [(2, some (e .ack))] && !s1.homeFenced 0) = true ∧
      (e .ack).st = .ack ∧ (e .ack).req.src = 3 ∧ (e .ack).req.txid = 0x40 ∧ (e .ack).line = (a .rsp 2 0x40).line.toNat) ∧
    (took (atHome {} [a .rsp 2 0x40]) (a .rsp 2 0x40) (fun s1 => (s1.hm 0).trk.isEmpty) = true) ∧
    (took (s .col { a .rsp 1 2 with status := 9 }) { a .rsp 1 2 with status := 9 } (fun _ => true) = true) ∧
    (took (s .col (a .rsp 1 2)) (a .rsp 1 2) (fun s1 => s1.snoopOwed 0 (a .rsp 1 2) == some 2) = true) ∧
    (took (atHome {} [a .rsp 1 2]) (a .rsp 1 2) (fun s1 => (s1.snoopOwed 0 (a .rsp 1 2)).isNone) = true) ∧
    (took (s .col (a .dat 0x14 2)) (a .dat 0x14 2) (fun s1 => s1.snoopOwed 0 (a .dat 0x14 2) == some 2) = true) ∧
    (took (atHome {} [a .dat 0x14 2]) (a .dat 0x14 2) (fun s1 => (s1.snoopOwed 0 (a .dat 0x14 2)).isNone) = true) ∧
    (let m : TrkEnt := { e .mem with memRd := true }
     took (atHome { trk := [(2, some m)] } [a .dat 8 2]) (a .dat 8 2) (fun s1 => s1.trk 0 2 == some m) = true ∧ m.memRd = true ∧
      m.buf = none ∧ m.st = .mem) ∧
    (took (atHome {} [a .dat 8 2]) (a .dat 8 2) (fun s1 => (s1.trk 0 2).isNone && (s1.hm 0).lateMem.isEmpty) = true) ∧
    (took (atHome { lateMem := [2] } [a .dat 8 2]) (a .dat 8 2) (fun s1 => (s1.trk 0 2).isNone && (s1.hm 0).lateMem.contains 2) = true) ∧
    (let w : Wbuf := { line := 1, data := [], sent := true, put := some q }
     took (atHome { wbufs := [(3, some w)] } [a .rsp 0x10 259]) (a .rsp 0x10 259)
       (fun s1 => SMap.get none (s1.hm 0).wbufs 3 == some w) = true ∧ w.sent = true ∧ w.put = some q ∧ w.flow = none) ∧
    (took (atHome {} [a .rsp 0x10 259]) (a .rsp 0x10 259) (fun s1 => (SMap.get none (s1.hm 0).wbufs 3).isNone) = true) ∧
    ((atHome {} []).respHead 0 = none) := by decide +kernel

theorem witness_HomeTimersScrubAndPredictor :
    let e : TrkEnt := { line := 1, st := .ack, req := { net := .req } }
    let s (now : Nat) : State := { atHome { trk := [(2, some e)] } [] with tick := now }
    let d : State := { run.setReg .HS_SCRUB 4 (hsBase 0) with dir := [(dirKey 0 0 5, some { tag := 0, st := 1 })], tick := 4 }
    let t : State := { run with tim := { c := 3 * 2000 } }
    ((s 0).trk 0 2 = some e ∧ (s 0).tick < e.start + usTicks (max 1 ((s 0).rf .HS_TMO 0 16 (hsBase 0)))) ∧
    ((s (2 ^ 30)).trk 0 2 = some e ∧ e.start + usTicks (max 1 ((s (2 ^ 30)).rf .HS_TMO 0 16 (hsBase 0))) ≤ (s (2 ^ 30)).tick ∧
      (s (2 ^ 30)).homeFenced 0 = false ∧ e.st = .ack) ∧
    (d.rf .HS_SCRUB 0 16 (hsBase 0) ≠ 0 ∧ d.homeFenced 0 = false ∧ (d.hm 0).scrubAt + d.rf .HS_SCRUB 0 16 (hsBase 0) ≤ d.tick ∧
      d.fc.inject = none ∧ d.dirWay 0 (d.hm 0).scrub 5 = some { tag := 0, st := 1 }) ∧
    (t.ns % (1000 * (max 1 (t.hm 0).predWin : Nat)) = 0 ∧ t.ns ≠ (t.hm 0).predAt) ∧
    (({ tag := 0 } : PredEnt).recAt ≠ 5 + 1 ∧ ({ tag := 0, recAt := 6 } : PredEnt).recAt = 5 + 1) ∧
    (((atHome { predClearAt := some 1 } []).hm 0).predClearAt = some 1 ∧ (atHome { predClearAt := some 1 } []).tick < 1 ∧
      ({ atHome { predClearAt := some 1 } [] with tick := 1 } : State).tick = 1) := by decide +kernel

theorem witness_BucketsMoveBetweenHomes :
    let mv : Nat × Nat × Nat := (7, 0, 1)
    let s (dual : Bool) (h : Home) : State := { atHome h [] with epo := { dual := dual, moves := [mv] } }
    let e : TrkEnt := { line := 7, st := .mem, req := { net := .req } }
    let f : State := (s false {}).setMap .FC_FENCED_HSn 0 true
    let q : Pkt := { net := .req, src := 0xC1, opc := 0x1C, vc := 3, rlx := true, addr := 7 }
    let w (now : Nat) (late : Bool) : State :=
      { atHome { sweeps := [(2, some { bucket := 7, owed := [3], start := 0, late := late })] } [] with tick := now }
    let lim : Nat := usTicks (16 * max 1 ((w 0 false).rf .HS_TMO 0 16 (hsBase 0)))
    ((s true {}).moveOf 0 7 = some mv ∧ (s true {}).epo.dual = true) ∧
    ((s false {}).moveOf 0 7 = some mv ∧ (s false {}).epo.dual = false ∧ (s false {}).homeFenced 0 = false ∧
      (s false {}).bucketIdle 0 7 = true) ∧
    ((s false { trk := [(2, some e)] }).moveOf 0 7 = some mv ∧ (s false { trk := [(2, some e)] }).bucketIdle 0 7 = false) ∧
    (f.moveOf 0 7 = some mv ∧ f.epo.dual = false ∧ f.homeFenced 0 = true ∧ (f.hm 0).wbufs = [] ∧ (f.hm 0).wbWait = []) ∧
    ((atHome {} [q]).laneHead 0 2 = none ∧ (atHome {} [{ q with vc := 0 }]).laneHead 0 2 = some { q with vc := 0 } ∧ q.opc = 0x1C ∧
      ((atHome {} [{ q with vc := 0 }]).homeWins 0 2).isSome = true) ∧
    (∀ i < 8, (atHome {} []).laneHead 0 i = none) ∧
    (SMap.get none ((w 0 false).hm 0).sweeps 2 = some { bucket := 7, owed := [3], start := 0 } ∧ (w 0 false).tick < 0 + lim) ∧
    (SMap.get none ((w lim false).hm 0).sweeps 2 = some { bucket := 7, owed := [3], start := 0 } ∧
      0 + usTicks (16 * max 1 ((w lim false).rf .HS_TMO 0 16 (hsBase 0))) ≤ (w lim false).tick) ∧
    (SMap.get none ((w lim true).hm 0).sweeps 2 = some { bucket := 7, owed := [3], start := 0, late := true }) := by decide +kernel

theorem witness_CachingPartnersFollowTheLineTables :
    let n : PerNet := { rsp := 1, dat := 1 }
    let b : Beat := { net := .snp, opc := 3, rqfid := 0xC0, line := 1 }
    let s (b : Beat) (g : PerNet) (l : CLine) : State := { runNi 0 { f2p := [b], given := g } with cache := [(cacheKey 0 1, l)] }
    let g : Beat := { net := .dat, opc := 10, tag := 5 }
    (isCaching 0 = true ∧ ((s b n {}).nif 0).f2p = [b] ∧ b.net = .snp ∧ b.rqfid ≠ 0x3FF ∧ 0 < ((s b n {}).nif 0).given.rsp ∧
      0 < ((s b n {}).nif 0).given.dat) ∧
    (((s b {} {}).nif 0).given.rsp = 0 ∧ ((s b {} {}).nif 0).given.dat = 0) ∧
    (snpAct b.opc.toNat ((s b n { st := .s }).cline 0 b.line.toNat).st = .ack .i ∧ ((s b n { st := .e }).cline 0 1).st = .e ∧
      ((s b n { st := .s }).cline 0 1).st ≠ .e) ∧
    (snpAct 1 ((s b n { st := .o }).cline 0 b.line.toNat).st = .data 9 .o ∧ ((s b n { st := .o }).cline 0 b.line.toNat).st ≠ .m ∧
      ((s b n { st := .o }).cline 0 b.line.toNat).st ≠ .e) ∧
    (((s g n { st := .isD, tag := 5 }).nif 0).f2p = [g] ∧ g.net = .dat ∧ (s g n { st := .isD, tag := 5 }).clineOf 0 g.tag =
      some (1, { st := .isD, tag := 5 })) ∧
    (({ st := .imAd, cnt := some 2 } : CLine).st = .imAd ∧ ({ st := .imAd, cnt := some 2 } : CLine).cnt = some 2) := by decide +kernel

theorem witness_SharedSramAccesses :
    let q (opc size : Nat) (a : BitVec 52) : Pkt := { net := .req, src := 0, opc := BitVec.ofNat 6 opc, size := BitVec.ofNat 3 size, addr := a }
    let d : Pkt := { net := .dat, src := 0, opc := 0x18, data := List.replicate 64 7, be := BitVec.allOnes 64 }
    let r : State := ((runNi 0x160 { inbox := [d] }).setReg .SSB_RGNn_LO 0xF000 (ssbBase 0) 0)
    let sc : State := { run.setReg .SSB_SCRUB 4 (ssbBase 0) with tick := 4 }
    (run.prim ≠ .halt ∧ run.fc.inject = none ∧ run.arbDone (.bank 0 0) = false ∧ (run.bankAt 0 0).atom = none ∧ run.sbox 0 = [] ∧ run.locOf 0 = []) ∧
    (run.regionOk 0 (q 0x12 3 0).src.toNat (q 0x12 3 0).slice.toNat true false = false ∧ (q 0x12 3 0).opc = 0x12) ∧
    (wrData (r.sbox 0) (q 0x13 6 0) = some d ∧ r.fc.inject = none ∧ d.be = BitVec.allOnes 64 ∧ d.data.length = 64 ∧
      r.regionOk 64 0 0 false true = true ∧ (q 0x13 6 0).size = 6) ∧
    (r.sramBadIn 8 (2 ^ (q 0x12 3 0).size.toNat) = [] ∧ r.regionOk 8 0 0 true false = true) ∧
    (run.sramOff 0 (q 0x15 2 0x1000008) = some 0x1000008) ∧
    (sc.rf .SSB_SCRUB 0 16 (ssbBase 0) ≠ 0 ∧ sc.niFenced (ssbFid 0) = false ∧
      (sc.bankAt 0 0).scrubAt + sc.rf .SSB_SCRUB 0 16 (ssbBase 0) ≤ sc.tick ∧
      sc.sramBadIn ((4 * 0 + 0) * 2 ^ 19 + 64 * (sc.bankAt 0 0).scrub) 64 = [] ∧
      (sc.subsBusy 0 0).contains ((sc.bankAt 0 0).scrub % 8) = false) ∧
    (let b : State := { sc with arbs := [(arbBase (.bank 0 0), { at_ := 5 })], bank := [(0, { subs := [0] })] }
     (b.subsBusy 0 0).contains ((b.bankAt 0 0).scrub % 8) = true) ∧
    ((run.setReg .SSB_SCRUB 0 (ssbBase 0)).rf .SSB_SCRUB 0 16 (ssbBase 0) = 0) := by decide +kernel

/-! ### Witnesses: queue managers -/

/-- RUN with queue 5 of manager 0 on a descriptor and a dynamic state, the packets at the manager, and rules that admit it. -/
def atQueue (d : Nat) (x : QDyn) (box : List Pkt) : State :=
  { ((ruled (runNi 0x170 { inbox := box })).setTab 0 5 4 0 (4096 + 0x170) 17).setTab 0 6 0x170 0 5 d with que := SMap.set {} [] 5 x }

/-- A pull queue and a push queue with 64 slots of 64 bytes in host memory, of slice 0 (R237). -/
def pullDesc : Nat := 2 ^ 128 + 2 ^ 131 + 6 * 2 ^ 134
def pushDesc : Nat := 2 ^ 129 + 2 ^ 131 + 6 * 2 ^ 134

theorem witness_QueueRequestsAreServed :
    let q (opc : BitVec 6) : Pkt := { net := .req, src := 0, opc := opc, addr := 5 }
    let d : Pkt := { net := .dat, src := 0, opc := 0x20, data := List.replicate 64 1 }
    let s (opc : BitVec 6) : State := atQueue pullDesc {} [q opc, d]
    let m : QMsg := { len := 64, src := 0, slice := 0, ns := 0 }
    let full : State := atQueue pullDesc { fullSaid := true, msgs := List.replicate 64 m } []
    (∀ opc ∈ [0x17, 0x18, 0x19, (0x12 : BitVec 6)], (s opc).qmLive 0 = true ∧ (s opc).qmReqs 0 = [q opc] ∧ (s opc).queueBusy (reqQueue (q opc)) opc = false ∧ (s opc).fc.inject = none) ∧
    ((s 0x17).enqData 0 (q 0x17) = some d ∧ qmOf (reqQueue (q 0x17)) = 0) ∧
    (run.qmReqs 0 = [] ∧ State.reset.qmLive 0 = false) ∧
    ((s 0x17).queueReset 5 = false ∧ qMode ((s 0x17).qdesc 5) = 1 ∧ qPwr ((s 0x17).qdesc 5) = false ∧
      sliceFits ((s 0x17).qdesc 5) 0 = true ∧ (s 0x17).queueLive 5 = true ∧ d.data.length ≤ qSlot ((s 0x17).qdesc 5) ∧
      (s 0x17).frozenOut 5 (q 0x17) = false ∧ (s 0x17).ringFull 5 ((s 0x17).qdesc 5) = false ∧ reqQueue (q 0x17) = 5) ∧
    (let j : RingJob := { why := .put (q 0x17) m, step := 1 }
     j.why = .put (q 0x17) m ∧ j.status = 0 ∧ j.void = false ∧ j.step = 1 ∧ { j with step := 2 }.step = 2 ∧ { j with status := 3 }.status ≠ 0) ∧
    (full.ringFull 5 (full.qdesc 5) = true ∧ (full.qdyn 5).fullSaid = true ∧ full.queueLive 5 = true) ∧
    (((s 0x18).qdyn 5).msgs = [] ∧ (({ s 0x18 with que := [(5, { msgs := [m] })] } : State).qdyn 5).msgs = m :: []) := by decide +kernel

theorem witness_PushDeliveriesAreAnswered :
    let m (t : Option Nat) : QMsg := { len := 64, src := 0, slice := 0, ns := 0, out := true, retry := t }
    let p : Pkt := { net := .rsp, opc := 0x10, txid := 0x20 }
    let v (stale : Bool) : Dlv := { queue := 5, slot := 0, txid := 0x20, stale := stale }
    let s (stale : Bool) : State := { atQueue pushDesc { msgs := [m none] } [p] with qm := [(0, { dlv := [(2, some (v stale))] })] }
    let r (now : Nat) : State := { atQueue pushDesc { msgs := [m (some 9)] } [] with tick := now }
    (run.qmLive 0 = true ∧ run.fc.inject = none ∧ (run.qport 0 0).staged = [] ∧ (run.qport 0 0).bkt.avail run.tick ≤ 0) ∧
    (∀ b, (s b).qmLive 0 = true ∧ ((s b).nif (qmFid 0)).inbox = [p] ∧ p.net = .rsp ∧ (s b).ringAnswers 0 p = false ∧
      SMap.get none ((s b).qmAt 0).dlv (p.txid.toNat / 16) = some (v b) ∧ (v b).txid = p.txid ∧ (v b).dead = none) ∧
    (((s false).qdyn (v false).queue).msgs[0]? = some (m none) ∧
      ((s false).qdyn (v false).queue).slot ((s false).qdesc (v false).queue) 0 = (v false).slot) ∧
    (qEvq ((s false).qdesc (v false).queue) ≠ (v false).queue) ∧
    ((r 9).qmLive (qmOf 5) = true ∧ ((r 9).qdyn 5).msgs = [m (some 9)] ∧ 9 ≤ (r 9).tick ∧ (r 8).tick < 9) := by decide +kernel

theorem witness_TokenBuckets :
    (SMap.wf {} run.que = true ∧ run.tim.c % 1024 = 0 ∧ run.refillAt ≠ run.tick + 1 ∧ (run.qdyn 0).bkt.at_ ≠ run.tick + 1 ∧ (run.qport 0 0).bkt.at_ ≠ run.tick + 1) ∧
    (({ run with tim := { c := 1 } } : State).tim.c % 1024 ≠ 0) := by decide +kernel

theorem witness_GatesAndSamplePeriods :
    let g : GateList := { cycle := 1000, ents := [(1, 1000)] }
    let s (x : QPort) : State := { run with qm := [(0, { port := [(3, x)] })] }
    let sm : State := run.setReg .QM_SAMPLE_CFG (2 ^ 31 + 1) (qmBase 0)
    ((5 : Int) + 2000 ≤ 2005 ∧ (2004 : Int) < 5 + 2000 ∧ 0 < 1000) ∧
    (((s { pend := some (g, 0) }).qport 0 3).pend = some (g, 0) ∧ 0 ≤ (s { pend := some (g, 0) }).ns ∧
      ((s { pend := some (g, 1) }).qport 0 3).pend = some (g, 1) ∧ (s { pend := some (g, 1) }).ns < 1) ∧
    (((s { op := g }).qport 0 3).op.ents ≠ [] ∧ ((s { op := g }).qport 0 3).ends ≤ (s { op := g }).ns ∧
      ((s { op := g }).qport 0 3).pend = none ∧ (s { op := g, ends := 1 }).ns < ((s { op := g, ends := 1 }).qport 0 3).ends) ∧
    (sm.sampling 0 = true ∧ sm.ns % sm.samplePeriod 0 = 0 ∧ (sm.qmAt 0).opened ≠ some sm.ns ∧ SMap.wf 0 sm.tabs = true) ∧
    (run.sampling 0 = false) := by decide +kernel

/-! ### Engines: words written out from the encoding tables, and witnesses -/

/-- A word of form A and of form I, from R269: MAJ in [31:26], D in [25:21], A in [20:16], B in [15:11], FN in [10:0]. -/
def formA (maj d a b fn : Nat) : Nat := maj * 2 ^ 26 + d * 2 ^ 21 + a * 2 ^ 16 + b * 2 ^ 11 + fn
def formI (maj d a imm : Nat) : Nat := maj * 2 ^ 26 + d * 2 ^ 21 + a * 2 ^ 16 + imm

/-- Every instruction of R270 with a word of it. -/
def tWords : List (TOp × Nat) :=
  (List.range 17).map (fun fn => (.alu fn, formA 0 3 1 2 fn)) ++
  [(.addk, formI 1 3 1 7), (.andk, formI 2 3 1 7), (.iork, formI 3 3 1 7), (.xork, formI 4 3 1 7), (.cmpltk, formI 5 3 1 7),
   (.sethi, formI 6 3 0 7), (.shk 0, formI 7 3 1 5), (.shk 1, formI 7 3 1 0x45), (.shk 2, formI 7 3 1 0x85), (.callr, formI 8 3 1 7)] ++
  [(.sync, formA 9 0 0 0 0), (.rett, formA 9 0 0 0 1), (.rdtcr, formA 9 3 0 9 2), (.wrtcr, formA 9 0 1 9 3), (.signal, formA 9 0 1 0 4),
   (.halt, formA 9 0 0 0 5), (.brk, formA 9 0 0 0 6)] ++
  [(.load 1 false, formI 0x10 3 1 0), (.load 2 false, formI 0x11 3 1 0), (.load 4 false, formI 0x12 3 1 0), (.load 8 false, formI 0x13 3 1 0),
   (.load 1 true, formI 0x14 3 1 0), (.load 2 true, formI 0x15 3 1 0), (.load 4 true, formI 0x16 3 1 0),
   (.store 1, formI 0x18 3 1 0), (.store 2, formI 0x19 3 1 0), (.store 4, formI 0x1A 3 1 0), (.store 8, formI 0x1B 3 1 0)] ++
  [(.ldln, formA 0x1C 3 1 2 0), (.stln, formA 0x1D 3 1 2 0), (.atom, formA 0x20 3 1 2 0x35), (.enq, formA 0x28 3 1 2 0),
   (.deq, formA 0x29 3 1 2 0), (.dbell, formA 0x2A 3 1 0 0), (.seqw, formA 0x2B 3 1 2 3), (.intr, formA 0x2C 3 1 2 0),
   (.recv, formA 0x2D 3 0 0 0), (.rxdone, formA 0x2E 0 1 0 0), (.rdtim, formA 0x30 3 0 0 0), (.waitt, formA 0x31 0 1 0 0),
   (.settmr, formA 0x32 0 1 0 0)] ++
  [(.branch 0, formI 0x38 1 2 0xFFFF), (.branch 1, formI 0x39 1 2 4), (.branch 2, formI 0x3A 1 2 4), (.branch 3, formI 0x3B 1 2 4),
   (.branch 4, formI 0x3C 1 2 4), (.branch 5, formI 0x3D 1 2 4), (.call, 0xFBFFFFFF)]

/-- A thread in READY with two registers: an address of local SRAM each. -/
def ready : Thr := { st := .ready, regs := [(1, 0x8000000000000000), (2, 0x8000000000000040)], tvec := 64, tvld := true }

/-- RUN with thread 0 of cluster 0 as given, and a word at its PC. -/
def eng (w : Nat) (x : Thr := ready) : State := { run.setTab 0 9 0x130 0 x.pc w with ecl := [(0, { thr := [(0, x)] })] }

/-- Each word decodes to its instruction, and an engine issues it; unlisted codes and fields that must be zero are ILLEGAL (R270). -/
theorem test_tamik_words :
    tWords.all (fun p => tDecode p.2 == some p.1) = true ∧ tWords.all (fun p => decide ((eng p.2).issues 0 p.1 p.2)) = true ∧
    [formA 0 3 1 2 17, formI 6 3 1 7, formI 7 3 1 0xC5, formA 9 1 0 0 0, formI 0x17 3 1 0, formA 0x1C 3 1 2 1, formA 0x20 3 1 2 0x0A,
      formA 0x2B 3 1 2 7, formA 0x2D 3 1 0 0, formA 0x33 0 0 0 0, 0xFC000000].all (fun w => (tDecode w).isNone) = true := by
  and_intros <;> decide +kernel

theorem witness_EngineArithmetic : ∃ w, (eng w).issues 0 (.alu 5) w := ⟨formA 0 3 1 2 5, by decide +kernel⟩

theorem witness_EngineControlAndTime :
    let x : Thr := { st := .wait, until_ := some 0, timer := some 0 }
    let y : Thr := { st := .wait, until_ := some 1, timer := some 1 }
    ((eng (formI 0x38 1 2 4)).issues 0 (.branch 0) (formI 0x38 1 2 4)) ∧ (((eng 0).thrOf 0).tep = (eng 0).epo.cur) ∧
    (((eng 0 x).thrOf 0).until_ = some 0 ∧ (eng 0 x).clLive (0 / 32) = true ∧ ((eng 0 x).thrOf 0).st = .wait ∧ 0 ≤ (eng 0 x).rdtim ∧
      ((eng 0 x).thrOf 0).timer = some 0) ∧
    (((eng 0 y).thrOf 0).until_ = some 1 ∧ ((eng 0 y).thrOf 0).timer = some 1 ∧ (eng 0 y).rdtim < 1) ∧
    (((eng 0).thrOf 0).timer = none) := by decide +kernel

theorem witness_EngineTrapsAndThreadControl :
    let b := formA 9 0 0 0 6
    let sg := formA 9 0 2 0 4
    let d : DueTrap := ⟨0x10, 1, 0⟩
    let tr : State := (eng b { ready with intrap := true })
    let due : State := eng 0 { ready with due := some d }
    let irq : State := eng 0 { ready with ie := true, ien := 7, ipend := 6 }
    let off (st : ThrState) : State := (eng 0 { st := st }).setTab 0 9 0x130 0 16384 (2 ^ 20 + 5)
    ((eng b).issues 0 .brk b ∧ ((eng b).thrOf 0).intrap = false ∧ ((eng b).thrOf 0).tvld = true ∧ ((eng b).thrOf 0).tep = (eng b).epo.cur) ∧
    (tr.issues 0 .brk b ∧ (tr.thrOf 0).intrap = true ∧ (tr.thrOf 0).tep = tr.epo.cur) ∧
    ((eng sg { ready with regs := [(2, 33)] }).issues 0 .signal sg ∧
      1 = (((eng sg { ready with regs := [(2, 33)] }).thrOf 0).reg (opA sg)).toNat % 32 ∧ 1 ≠ 0 % 32) ∧
    ((due.thrOf 0).due = some d ∧ due.clLive 0 = true ∧ (due.thrOf 0).st = .ready ∧ (due.thrOf 0).intrap = false ∧ (due.thrOf 0).tvld = true) ∧
    (let s := eng 0 { ready with due := some d, intrap := true }
     (s.thrOf 0).due = some d ∧ s.clLive 0 = true ∧ (s.thrOf 0).st = .ready ∧ (s.thrOf 0).intrap = true ∧ (s.thrOf 0).tep = s.epo.cur) ∧
    (irq.clLive 0 = true ∧ (irq.thrOf 0).st = .ready ∧ (irq.thrOf 0).due = none ∧ (irq.thrOf 0).irq ≠ 0 ∧ ((eng 0).thrOf 0).irq = 0) ∧
    (((off .off).thrOf 0).st = .off ∧ bitOf ((off .off).thrEntry 0 ((off .off).thrOf 0).tep 0) 20 = true ∧
      (off .off).clusterFenced 0 = false ∧ (off .off).stands ((off .off).thrOf 0).slice.toNat = false ∧
      ((off .off).thrOf 0).tep = (off .off).epo.cur) ∧
    (((off .ready).thrOf 0).st = .ready ∧ ((off .ready).thrOf 0).st ≠ .off) := by decide +kernel

theorem witness_EngineLocalMemory :
    let ld := formI 0x13 3 1 0
    let st := formI 0x1B 3 1 0
    let at_ := formA 0x20 3 1 2 0x35
    let x := (eng ld).thrOf 0
    let bad : State := eng ld { ready with regs := [(1, 0x7000000000000000)] }
    let b : SbEnt := { id := 2, pair := 1, win := 0x800, ea := 8, data := leBytes 8 5 }
    let dr : State := eng 0 { ready with sb := [b] }
    let sc (now : Nat) : State := { run.setReg .ENG_CL_SCRUB 4 (eclBase 0) with tick := now }
    ((eng ld).issues 0 (.load 8 false) ld ∧ x.sb = [] ∧ (x.ea ld).toNat % 8 = 0 ∧ (eng ld).place 0 (x.ea ld).toNat 8 = some (.loc 0) ∧
      (wordsOf (lsAddr 0 0) 8).filter (SMap.get false (eng ld).lsramBad) = []) ∧
    (bad.issues 0 (.load 8 false) ld ∧ bad.place 0 ((bad.thrOf 0).ea ld).toNat 8 = none ∧ (bad.thrOf 0).intrap = false ∧
      (bad.thrOf 0).tvld = true) ∧
    ((eng st).issues 0 (.store 8) st ∧ (((eng st).thrOf 0).ea st).toNat % 8 = 0 ∧
      (eng st).place 0 (((eng st).thrOf 0).ea st).toNat 8 = some (.loc 0)) ∧
    ((eng at_).issues 0 .atom at_ ∧ fld at_ 4 2 = 3 ∧ (((eng at_).thrOf 0).reg (opA at_)).toNat % 2 ^ fld at_ 4 2 = 0 ∧
      (eng at_).place 0 (((eng at_).thrOf 0).reg (opA at_)).toNat (2 ^ fld at_ 4 2) = some (.loc 0)) ∧
    (dr.clLive 0 = true ∧ SMap.get 0 (dr.cl 0).drained 0 ≠ dr.eclk + 1 ∧
      ((List.range 8).map (fun n => 8 * 0 + (SMap.get 7 (dr.cl 0).turn 0 + 1 + n) % 8)).find? (dr.canDrain 0) = some 0 ∧
      (dr.thr 0 0).sb = [b] ∧ dr.place 0 b.full b.data.length = some (.loc 8)) ∧
    ((sc 0).rf .ENG_CL_SCRUB 0 16 (eclBase 0) ≠ 0 ∧ (sc 0).eclk < ((sc 0).cl 0).scrubAt + (sc 0).rf .ENG_CL_SCRUB 0 16 (eclBase 0)) ∧
    (((sc 8).cl 0).scrubAt + (sc 8).rf .ENG_CL_SCRUB 0 16 (eclBase 0) ≤ (sc 8).eclk ∧ (sc 8).fc.inject = none ∧ ((sc 8).domain (unitDomain (clFid 0))).st = 0 ∧
      (wordsOf (lsAddr 0 (64 * ((sc 8).cl 0).scrub)) 64).filter (SMap.get false (sc 8).lsramBad) = []) := by decide +kernel

/-- A message instruction with its D, A and B, its thread, and the state in which thread 0 runs it under rules that admit everything. -/
def wM (maj fn : Nat) : Nat := formA maj 3 1 2 fn
def thM (a : Word64) : Thr := { ready with regs := [(1, a), (2, 0x8000000000000040)] }
def atMsg (n : Nat) (a : Word64) : State := { (ruled (eng n (thM a))).setTab 0 5 4 0 (4096 + 0x130) 17 with ni := [] }
def sent (n : Nat) (a : Word64) : State := (atMsg n a).issued 0 0
def sideLn : Word64 := 0x8010000000000000
def region (n : Nat) : State := (atMsg n sideLn).setReg .SSB_RGNn_LO (0xE000 + 0x130) (ssbBase 0) 0

theorem witness_EngineMessagesAndLineCopies :
    (((atMsg (wM 0x1C 0) 0x1000).unsampled 0) ∧ (atMsg (wM 0x1C 0) 0x1000).issues 0 .ldln (wM 0x1C 0) ∧
      (sent (wM 0x1C 0) 0x1000).lineAt 0 0x1000 = some (.fab 0x1000 true) ∧
      (sent (wM 0x1C 0) 0x1000).bufOff 0 0x8000000000000040 64 = some 0x40 ∧ (thM 0x1000).meet 0x8000000000000040 64 = .clear ∧
      ((sent (wM 0x1C 0) 0x1000).checkParts 0 0 false [(0x1000, 64, .fab 0x1000 true)]).1.isSome = true) ∧
    ((region (wM 0x1D 0)).issues 0 .stln (wM 0x1D 0) ∧ ((region (wM 0x1D 0)).issued 0 0).lineAt 0 sideLn.toNat = some (.side 0) ∧
      (match ((region (wM 0x1D 0)).issued 0 0).bufRead 0 0 0x8000000000000040 0x40 64 [] with
       | (some (_, bad), s1) => !bad && (s1.checkParts 0 0 true [(sideLn.toNat, 64, .side 0)]).1.isSome | _ => false) = true) ∧
    ((atMsg (wM 0x28 0) 0x30005).issues 0 .enq (wM 0x28 0) ∧
      (sent (wM 0x28 0) 0x30005).bufOff 0 0x8000000000000040 (fld 0x30005 16 9 + 1) = some 0x40 ∧
      ((sent (wM 0x28 0) 0x30005).bufRead 0 0 0x8000000000000040 0x40 (fld 0x30005 16 9 + 1) []).1.isSome = true) ∧
    ((atMsg (wM 0x29 0) 5).issues 0 .deq (wM 0x29 0) ∧ (sent (wM 0x29 0) 5).bufOff 0 0x8000000000000040 512 = some 0x40 ∧
      (thM 5).meet 0x8000000000000040 512 = .clear) ∧
    ((atMsg (formA 0x2A 3 1 0 0) 5).issues 0 .dbell (formA 0x2A 3 1 0 0)) ∧ ((atMsg (wM 0x2C 0) 5).issues 0 .intr (wM 0x2C 0)) ∧
    ((atMsg (wM 0x2B 3) 0x1000).issues 0 .seqw (wM 0x2B 3) ∧
      ((sent (wM 0x2B 3) 0x1000).place 0 0x1000 8).map ((sent (wM 0x2B 3) 0x1000).asFabric 0) = some (.fab 0x1000 true) ∧
      (match (sent (wM 0x2B 3) 0x1000).bufRead 0 0 0x8000000000000040 0x40 8 [] with
       | (some _, s1) => (s1.engCheck 0 0 0x1000 0x14).1.isSome | _ => false) = true) ∧
    (let rv := formA 0x2D 3 0 0 0
     let r (g : RxRing) : State := { (eng rv).setTab 0 9 0x130 0 (16416 + 4) (5 + 2 ^ 21) with
       ecl := [(0, { thr := [(0, ready)], ring := [(4, g)] })] }
     ((r { bell := true }).issues 0 .recv rv ∧ (r { bell := true }).recvBind 0 0 = some 4 ∧ ((r { bell := true }).ring 0 false 4).bell = true) ∧
     ((r { msgs := [(0, 9)] }).recvBind 0 0 = some 4 ∧ ((r { msgs := [(0, 9)] }).ring 0 false 4).bell = false ∧
      ((r { msgs := [(0, 9)] }).ring 0 false 4).msgs[((r { msgs := [(0, 9)] }).ring 0 false 4).handed]? = some (0, 9)) ∧
     ((eng rv).issues 0 .recv rv ∧ (eng rv).recvBind 0 0 = none ∧ ((eng rv).thrOf 0).tep = (eng rv).epo.cur)) ∧
    (let rx := formA 0x2E 0 1 0 0
     let s : State := { eng rx (thM 4) with ecl := [(0, { thr := [(0, thM 4)], ring := [(4, { msgs := [(0, 9)], handed := 1 })] })] }
     s.issues 0 .rxdone rx ∧ 4 = ((s.thrOf 0).reg (opA rx)).toNat % 64 ∧ 0 < (s.ring 0 (s.thrOf 0).tep 4).handed) := by
  and_intros <;> decide +kernel

theorem witness_ClustersTakeDeliveriesAndAnswers :
    let q : Pkt := { net := .req, src := 0x170, opc := 0x17, addr := 5 }
    let p : Pkt := { net := .dat, src := 0x170, opc := 0x20, data := [1, 2] }
    let s (g : RxRing) (sl : Nat) : State := { ((runNi 0x130 { inbox := [q, p] }).setTab 0 9 0x130 0 (16416 + 4) (5 + 2 ^ 21)).setTab 0 9
      0x130 0 16384 (2 ^ 20 + sl * 2 ^ 14) with ecl := [(0, { thr := [(0, ready)], ring := [(4, g)] })] }
    let e : Nat := 5 + 2 ^ 21
    let a : Pkt := { net := .rsp, opc := 0x10, txid := 0x20 }
    let x : SrcEnt := { state := .issued, req := { net := .req, opc := 7, txid := 0x20 } }
    let smp : Samp := { pc := 0, eng := 0, thr := 0, maj := 0, ea := 0, at_ := 0, doneAt := some 4 }
    let sm (now : Nat) : State := { run with ecl := [(0, { sample := some smp })], tick := now }
    ((s {} 0).prim ≠ .halt ∧ ((s {} 0).nif (clFid 0)).inbox = [q, p] ∧ (s {} 0).clusterFenced 0 = false ∧
      (List.range 64).find? (fun b => bindVld ((s {} 0).bindEntry 0 (s {} 0).epo.cur b) &&
        bindQueue ((s {} 0).bindEntry 0 (s {} 0).epo.cur b) == q.addr.toNat % 2 ^ 16) = some 4 ∧
      (s {} 0).bindEntry 0 (s {} 0).epo.cur 4 = e ∧ fld ((s {} 0).thrEntry 0 (s {} 0).epo.cur (bindThr e)) 14 6 = q.slice.toNat ∧
      ((s {} 0).ring 0 (s {} 0).epo.cur 4).msgs.length < bindSlots e) ∧
    (bindSlots e ≤ ((s { msgs := [(0, 9)] } 0).ring 0 (s { msgs := [(0, 9)] } 0).epo.cur 4).msgs.length) ∧
    (fld ((s {} 3).thrEntry 0 (s {} 3).epo.cur (bindThr e)) 14 6 ≠ q.slice.toNat) ∧ ((run.nif (clFid 0)).inbox = []) ∧
    (let t : State := runNi 0x130 { inbox := [a], src := [(2, some x)] }
     (t.nif (clFid 0)).inbox = [a] ∧ a.net = .rsp ∧ a.cnt ≠ 0x81 ∧ t.srcEnt (clFid 0) (a.txid.toNat / 16) = some x ∧ x.req.txid = a.txid ∧
     x.state ≠ .dead ∧ (runNi 0x130 { inbox := [a] }).srcEnt (clFid 0) (a.txid.toNat / 16) = none) ∧
    (let r (bad : Option (Nat × Nat)) : EReq := { id := 1, thr := 0, kind := .load 8 false, d := 3, bad := bad }
     (r none).kind = .load 8 false ∧ (r none).d ≠ 0 ∧ (r none).bad = none ∧ (r none).poison = false ∧ (r (some (0, 1))).bad = some (0, 1) ∧
     (run.thr 0 0).due = none) ∧
    (((sm 0).cl 0).sample = some smp ∧ smp.doneAt = some 4 ∧ (sm 0).eclk < 4 ∧ 4 ≤ (sm 8).eclk ∧ (sm 8).clLive 0 = true) ∧
    ((run.cl 0).sample = none) := by
  dsimp only
  and_intros <;> decide +kernel

/-! ### Witnesses: slices and faults -/

/-- RUN with slice 5 defined (R316) and its record as given. -/
def slc5 (c : Slc) (now : Nat := 0) : State := { run.setTab 0 8 0x180 0 (4096 + 5) 1 with slc := SMap.set {} [] 5 c, tick := now }

theorem witness_SliceCommandsFollowTheirTable :
    (SMap.wf {} (slc5 {}).ecl = true ∧ ∀ k, SMap.wf {} ((slc5 {}).cl k).thr = true) ∧
    ((slc5 {}).slcState 5 = 1 ∧ (slc5 { mode := .freezing }).slcState 5 = 2 ∧ (slc5 { mode := .frozen }).slcState 5 = 3 ∧
      (slc5 { mode := .resetting }).slcState 5 = 4 ∧ run.slcState 5 = 0) ∧
    ((slc5 { mode := .frozen }).que.any (fun kx => kx.2.reload) = false) ∧
    (let port (x : Ni) : State := { slc5 {} with ni := [(0x180, x)] }
     (slc5 {}).saf.spine = [] ∧ 0 < ((port { safCred := 2 }).nif 0x180).safCred ∧ ((port {}).nif 0x180).safCred = 0 ∧
      ((port {}).nif 0x180).safPool < (port {}).safPoolmax 0x180 ∧
      ¬((port { safPool := 9999 }).nif 0x180).safPool < (port { safPool := 9999 }).safPoolmax 0x180) ∧
    (((slc5 { mode := .frozen }).slice 5).saving = none ∧ ((slc5 { mode := .frozen }).slice 5).restoring = false) ∧
    (let s : State := { slc5 { mode := .frozen } with ecl := [(2, { thr := [(3, { st := .halt, held := some .wait, until_ := some 9, slice := 5 })] })] }
     (s.thr 2 3).slice.toNat = 5 ∧ (s.thr 2 3).held = some .wait ∧ (s.thr 2 3).until_ = some 9 ∧ s.prim ≠ .drain ∧ s.prim ≠ .quiesced ∧
     bitOf ((s.setTab 0 9 0x132 0 (16384 + 3) (2 ^ 20)).thrEntry 2 (s.thr 2 3).tep 3) 20 = true) := by
  refine ⟨⟨by decide +kernel, fun k => rfl⟩, ?_⟩
  and_intros <;> decide +kernel

/-- An area whose first page is denied is refused (R324, R380). -/
theorem areaOk_first (s : State) (f base len opc : Nat) (hl : 0 < len) (h : (s.spineCheck f base opc).1 = false) :
    (s.areaOk f base len opc).1 = false := by
  unfold State.areaOk
  obtain ⟨n, hn⟩ : ∃ n, (len + 4095) / 4096 = n + 1 := ⟨(len + 4095) / 4096 - 1, by omega⟩
  have hf : ∀ (l : List Nat) (r : Bool × State), r.1 = false →
      (l.foldl (fun (r : Bool × State) i => if r.1 then r.2.spineCheck f (base + 4096 * i) opc else r) r).1 = false := by
    intro l
    induction l with
    | nil => intro r hr; exact hr
    | cons a l ih => intro r hr; rw [List.foldl_cons]; exact ih _ (by simp [hr])
  rw [hn, List.range_succ_eq_map, List.foldl_cons]
  exact hf _ _ (by simpa using h)

theorem witness_SliceOperationsRunTheirCourse :
    let f (now : Nat) : State := slc5 { mode := .freezing } now
    let r (now : Nat) : State := { slc5 { mode := .resetting } now with
      ni := [(0, { src := [(1, some { req := { net := .req, opc := 0x12, slice := 5 } })] })] }
    let sv : Slc := { mode := .frozen, saving := some 64 }
    let rs : Slc := { mode := .frozen, restoring := true }
    (((f 0).slice 5).mode = .freezing ∧ ((f 0).slice 5).marker = 0 ∧ (f 0).slcTrk 5 = 0 ∧ ((f 0).slice 5).stuck = false ∧
      (f 0).tick < ((f 0).slice 5).at_ + (f 0).slcTmo 5 ∧ ((f (2 ^ 30)).slice 5).at_ + (f (2 ^ 30)).slcTmo 5 ≤ (f (2 ^ 30)).tick) ∧
    (((r (2 ^ 30)).slice 5).mode = .resetting ∧ ((r (2 ^ 30)).slice 5).squashed = false ∧
      ((r (2 ^ 30)).slice 5).at_ + (r (2 ^ 30)).slcTmo 5 ≤ (r (2 ^ 30)).tick ∧ (r (2 ^ 30)).slcTrk 5 ≠ 0 ∧ (slc5 { mode := .resetting }).slcTrk 5 = 0) ∧
    (isCluster 0 = false ∧ ({ state := .issued, req := { net := .req } } : SrcEnt).state = .issued ∧
      ({ state := .nackWait, req := { net := .req } } : SrcEnt).state ≠ .poolWait) ∧
    (((slc5 sv).slice 5).saving = some 64 ∧ ((slc5 sv).areaOk 0x180 ((slc5 sv).saveBase 5) 64 0x13).1 = false ∧
      ((ruled (slc5 sv)).areaOk 0x180 ((ruled (slc5 sv)).saveBase 5) 64 0x13).1 = true ∧ ((ruled (slc5 sv)).slice 5).saving = some 64) ∧
    (((slc5 rs).slice 5).restoring = true ∧ ((slc5 rs).areaOk 0x180 ((slc5 rs).saveBase 5) 0 0x12).2.restoreErr 5 [] ≠ 0) ∧
    (((slc5 {}).slice 5).saving = none ∧ ((slc5 {}).slice 5).restoring = false) := by decide +kernel

theorem witness_SavedAreaRestoresWhatItHolds :
    (∀ q, (run.qdyn q).cause < 256) ∧
    (let x := (atQueue pullDesc { head := 70000, tail := 70003, bkt := { tokens := -5 }, paused := true, cause := 6 } []).qdyn 5
     x.head < 2 ^ 17 ∧ x.tail < 2 ^ 17 ∧ x.deficit < 2 ^ 32 ∧ x.cause < 256 ∧ -2 ^ 31 ≤ x.bkt.tokens ∧ x.bkt.tokens < 2 ^ 31) ∧
    (ready.pc < 2 ^ 14 ∧ ready.epc < 2 ^ 14 ∧ ready.tvec < 2 ^ 14 ∧ ready.cause < 2 ^ 16 ∧ ready.ien < 8 ∧ ready.ipend < 8) := by
  refine ⟨fun q => ?_, by decide +kernel, by decide⟩
  show (0 : Nat) < 256
  decide

theorem witness_FaultsReachTheCollector :
    let p (old : Bool) (delay : Nat) : Pkt := 
      { net := .req, opc := 0x1D, src := 3, txid := 0x10, old := old, addr := BitVec.ofNat 52 (5 + 2 ^ 10 + delay * 2 ^ 24) }
    let s (q : Pkt) (fc : FcSt) : State := { runNi 0x183 { inbox := [q] } with fc := fc }
    let a : Alarm := { node := 4, src := 6, level := 2, count := 9 }
    let r : Report := { src := 5, level := 1, unit := ⟨false, 3⟩, detail := 0, txid := 0x10 }
    let rs (now : Nat) : State := { runNi 3 { reports := [r] } with tick := now }
    (((s (p false 7) {}).nif 0x183).inbox = [p false 7] ∧ (p false 7).net = .req ∧ (p false 7).opc = 0x1D ∧ (p false 7).old = false ∧
      fld (p false 7).addr.toNat 24 12 ≠ 0xFFF ∧ fld (p false 0xFFF).addr.toNat 24 12 = 0xFFF ∧ (p true 7).old = true) ∧
    (((s (p false 7) { recent := [(3, 0x10, 0)] }).fc.recent.filter (fun x => decide ((0 : Nat) < x.2.2 + 64 * 3000))).any
      (fun x => x.1 == (p false 7).src && x.2.1 == (p false 7).txid) = true) ∧
    ((run.nif 0x183).inbox.filter (fun p => p.net == .req && p.opc == 0x1D) = []) ∧
    (({ run with fc := { alarms := [a] } } : State).fc.alarms = [a] ∧ a.node = 4 ∧ run.fc.alarms.filter (fun a => a.node == 4) = []) ∧
    (assigned (3 : Fid).toNat = true ∧ ((rs 24000).nif 3).reports = [r] ∧ r.sent + 8 * 3000 ≤ (rs 24000).tick ∧ (rs 24000).prim ≠ .halt ∧
      (rs 0).tick < r.sent + 8 * 3000 ∧ (run.nif 3).reports = []) := by decide +kernel

theorem witness_FaultsAreTakenAndAcknowledged :
    let r (lvl src : Nat) : FaultRec := { src := src, level := lvl, unit := ⟨false, 3⟩ }
    let s : State := { run with fc := { queue := [r 1 9] } }
    let pin (n t : Nat) : State := { run with fc := { pinAt := some n, pinFrom := some n, relPend := true }, tick := t }
    let held : State := (pin 0 0).setRf .FC_PENDn 4 4 2 0 1
    (run.fc.queue = [] ∧ s.fc.queue = [r 1 9] ∧ s.fc.takeAt ≠ s.tick + 1 ∧ s.fc.inject = none) ∧
    ((r 1 9).level < 4 ∧ run.prim ≠ .halt ∧ (r 1 9).level ≤ 1 ∧ run.lvlOf (r 1 9) ≤ 1 ∧ ({ run with prim := .halt } : State).prim = .halt ∧
      run.prim ≠ .test ∧ (r 4 9).level = 4) ∧
    (fenceTarget (r 2 9) = some (.ni 3) ∧ fenceTarget (r 2 (32 * 28)) = none ∧ (r 3 9).src / 32 < 28 ∧ 28 ≤ (r 3 (32 * 28)).src / 32) ∧
    ((run.setReg .FC_FIRST (2 ^ 31)).rf .FC_FIRST 31 1 = 1 ∧ run.rf .FC_FIRST 31 1 = 0 ∧ (r 1 9).src < 1024 ∧ (r 1 9).unit.id < 1024 ∧
      (r 1 9).detail < 4096 ∧ (r 1 9).delay < 4096) ∧
    (run.fc.took < 160 ∧ run.fc.takeAt ≠ run.tick + 1 ∧ run.fc.ackAt ≠ run.tick + 1) ∧ run.pinLvl ≤ run.lvlOf (r 4 9) ∧
    (held.fc.pinAt ≠ none ∧ held.pinFree = false ∧ held.fc.relPend = true ∧
      ((pin 0 6000).setRf .FC_PENDn 4 4 2 0 1).minPulse = false ∧ ((pin 0 6000).setRf .FC_PENDn 4 4 2 0 1).pinFree = false) ∧
    ((pin 0 0).fc.pinAt ≠ none ∧ (pin 0 0).pinFree = true ∧ (pin 0 0).minPulse = true ∧ (pin 0 6000).minPulse = false ∧
      (pin 0 6000).pinFree = true ∧ (pin 0 6000).fc.relPend = true ∧ run.fc.relPend = false ∧ (pin 0 0).fc.pinAt = some 0) := by decide +kernel

theorem witness_InjectionAndSpineVoting :
    let arm (v : Nat) : State := run.setReg .FC_INJ_CTRL v
    let vote : State := run.setReg .FC_VOTE 2
    (hasChecker ⟨false, 0⟩ 2 0 = true ∧ (arm (2 * 2 ^ 11)).fc.inject = none ∧ (arm (2 * 2 ^ 11)).niFenced 0 = false ∧
      fld ((arm (2 * 2 ^ 11)).reg .FC_INJ_CTRL) 11 4 = 2 ∧ (arm (2 * 2 ^ 11)).prim = .run) ∧
    (hasChecker ⟨false, 0⟩ 13 0 = false ∧ fld ((arm (13 * 2 ^ 11)).reg .FC_INJ_CTRL) 11 4 = 13) ∧
    (vote.rf .FC_VOTE (3 * 0 + 1) 1 = 1 ∧ vote.rf .FC_VOTE (3 * 0 + 0) 1 = 0 ∧ vote.resyncing 0 = true ∧ run.resyncing 0 = false) := by
  decide +kernel

/-! ### Witnesses: power, and the invariant of every step -/

/-- RUN with one power domain as given. -/
def domn (d : Nat) (x : Dom) (now : Nat := 0) : State := { run with dom := SMap.set {} [] d x, tick := now }

theorem witness_PowerEntriesAskTheirUnits :
    let u : UnitRef := fidUnit 0
    let k := unitKey u
    let d := niDomain 0
    let ask (x : Dom) (now : Nat := 0) : State := domn d { x with phase := 4 } now
    let busy : State := { ask { asking := [k] } with ni := [(0, { rob := [{ net := .req }] })] }
    let idle : State := { run.setReg .PWR_DOMd_CFG (1 * 2 ^ 8) (domBase 3) with tick := 64 }
    (State.reset.prim = .boot ∧ ¬(run.prim = .boot ∨ run.prim = .load ∨ run.prim = .test ∨ run.prim = .halt)) ∧
    ((run.domain 3).phase = 0 ∧ (run.domain 3).st = 0 ∧ (domn 1 { phase := 4 }).domain 1 = { phase := 4 } ∧
      ((domn 3 { phase := 4 }).domain 3).phase ≠ 0) ∧
    (run.checkEntry (domQuad 2) (2 ^ domBit 2) = some 2 ∧ run.checkEntry (domQuad 3) (2 ^ domBit 3) = none ∧ run.quadMask (domQuad 3) = 0) ∧
    (fld (run.reg .PWR_QREQn 0 0) 0 4 = 0 ∧ fld ((run.setReg .PWR_QREQn 15 0 0).reg .PWR_QREQn 0 0) 0 4 ≠ 0) ∧
    (idle.prim = .run ∧ idle.rf .PWR_DOMd_CFG 8 16 (domBase 3) = 1 ∧ (idle.domain 3).st = 0 ∧ (idle.domain 3).phase = 0 ∧
      (idle.domain 3).idleAt + 64 * 1 ≤ idle.tick ∧ idle.domainBusy 3 = false ∧ run.rf .PWR_DOMd_CFG 8 16 (domBase 3) = 0) ∧
    (unitExists u = true ∧ (run.domain d).phase ≠ 4 ∧ ((ask { asking := [k] }).domain d).phase = 4 ∧
      ((ask { asking := [k] }).domain d).asking.contains k = true ∧ (ask { asking := [k] }).refusal d u = none ∧
      (ask { asking := [k] }).unitBusy d u = false) ∧
    (busy.refusal d u = none ∧ busy.unitBusy d u = true ∧ (SMap.get (0, 0) (busy.domain d).defers k).2 < (busy.setReg .PWR_DEFER (2 ^ 8)).rf .PWR_DEFER 8 8 ∧
      (busy.setReg .PWR_DEFER 0).rf .PWR_DEFER 8 8 ≤ (SMap.get (0, 0) (busy.domain d).defers k).2) ∧
    (let s := ask { defers := [(k, (0, 1))] } (2 ^ 20)
     (s.domain d).phase = 4 ∧ (s.domain d).asking.contains k = false ∧ (SMap.get (0, 0) (s.domain d).defers k).2 ≠ 0 ∧
      (SMap.get (0, 0) (s.domain d).defers k).1 + 8 * max 1 (s.rf .PWR_DEFER 0 8) ≤ s.tick) ∧
    (((ask { asking := [k] } 128).domain d).at_ + 128 ≤ (ask { asking := [k] } 128).tick ∧ (ask { asking := [k] }).tick < ((ask { asking := [k] }).domain d).at_ + 128) ∧
    (let x := (domn 1 { phase := 4, target := 1 }).domain 1
     x.phase = 4 ∧ x.asking = [] ∧ x.defers = [] ∧ x.abandon = false ∧ x.target = 1 ∧ x.st = 0 ∧ x.group = 0 ∧ x.fabric = false ∧
      x.imaged = false ∧ x.pend = none) ∧
    (∀ t ∈ [2, 3, 4], ((domn 5 { phase := 5, target := t }).domain 5).phase = 5 ∧ ((domn 5 { phase := 5, target := t }).domain 5).st < 2) ∧
    (2 ≤ ((domn 5 { phase := 5, target := 4, st := 2, abandon := true }).domain 5).st ∧
      ((domn 5 { phase := 5, abandon := true }).domain 5).abandon = true ∧ ((ask { st := 2, asking := [k] }).domain d).st = 2) ∧
    (domBit (5 : Nat) = 3 ∧ (2 : Nat) ≤ 5) := by
  dsimp only
  and_intros <;> decide +kernel

/-- No rule admits the slot of a domain in a state whose rule table is empty. -/
theorem witness_SlotIsRefused : ((domn 5 { phase := 5, target := 4 }).slotOk 5 0x13).1 = false ∧
    ((domn 3 { phase := 9, st := 4, low := 4 }).slotOk 3 0x12).1 = false := by
  constructor <;> exact areaOk_first _ _ _ _ _ (by decide) (by decide +kernel)

theorem witness_PowerVoltageWakeAndFabricSleep :
    let v (x : Dom) (now : Nat := 0) : State := domn 3 x now
    let poll (now : Nat) : State := (v {} now).setReg .PWR_AVS (2 ^ 16)
    let q : State := { run.setReg .PWR_FABREQ 2 with prim := .quiesced }
    let t1 (s : State) : State := s.takePwrCtl 3
    let held : State := { run with dom := [(4, { st := 2, phase := 11, fabric := true })] }
    (((v {}).domain 3).polling = false ∧ ((v { polling := true, phase := 7 }).domain 3).pend = none ∧
      ((v { polling := true, phase := 7 }).domain 3).phase = 7 ∧ ((v { polling := true, phase := 8 }).domain 3).phase ≠ 7 ∧
      ((v { phase := 7, tries := 2 }).domain 3).tries < 3 ∧ 3 ≤ ((v { phase := 7, tries := 3 }).domain 3).tries) ∧
    (((v { polling := true } (2 ^ 30)).domain 3).at_ + 3000 * max 1 ((v { polling := true } (2 ^ 30)).rf .PWR_AVS 0 16) ≤
        (v { polling := true } (2 ^ 30)).tick ∧
      (v { polling := true } 12000).tick < ((v { polling := true } 12000).domain 3).at_ + 3000 * max 1 (((v { polling := true } 12000).setReg .PWR_AVS 9).rf .PWR_AVS 0 16) ∧
      ((v { polling := true } 12000).domain 3).pollAt + 12000 ≤ (v { polling := true } 12000).tick) ∧
    (((poll (2 ^ 30)).domain 3).st = 0 ∧ (poll (2 ^ 30)).rf .PWR_AVS 16 8 ≠ 0 ∧
      ((poll (2 ^ 30)).domain 3).pollAt + 3000000 * (poll (2 ^ 30)).rf .PWR_AVS 16 8 ≤ (poll (2 ^ 30)).tick) ∧
    (run.prim ≠ .halt ∧ (t1 run).wakeStands 3 = false ∧ (t1 (v { wake := true })).wakeStands 3 = true ∧
      (t1 (v { st := 1, wake := true })).wakeStands 3 = true ∧ ((t1 (v { wake := true })).domain 3).st = 0 ∧
      ((t1 (v { st := 1, wake := true })).domain 3).phase = 0) ∧
    ((t1 (v { phase := 7, wake := true })).wakeStands 3 = true ∧ (t1 (v { phase := 9, wake := true })).wakeStands 3 = true ∧
      (t1 (v { phase := 4, wake := true })).wakeStands 3 = true ∧ ((t1 (v { phase := 4, wake := true })).domain 3).abandon = false ∧
      ((t1 (v { phase := 4, wake := true })).domain 3).group = 0) ∧
    ((t1 (v { st := 2, wake := true })).wakeStands 3 = true ∧ ((t1 (v { st := 2, wake := true })).domain 1).st = 0 ∧
      ((t1 { run with dom := [(1, { st := 2 }), (3, { st := 2, wake := true })] }).domain 1).st ≠ 0) ∧
    (((v { phase := 9, st := 4, low := 4 }).domain 3).phase = 9 ∧ (v { phase := 9, st := 4, low := 4 }).spineFirst 3 = false ∧
      ((v { phase := 9, st := 4, low := 4 }).domain 3).low = 4 ∧ ((v { phase := 9, st := 2, low := 2 }).domain 3).low ≠ 4) ∧
    (((v { phase := 11 }).domain 3).phase = 11 ∧ ((v { phase := 11 }).domain 3).fabric = false ∧
      (∀ g ∈ (v { phase := 11 }).groupDoms 3, g = 3 ∨ ((v { phase := 11 }).domain g).phase = 12)) ∧
    (let s := v { phase := 11, group := 6 }
     ∃ g ∈ s.groupDoms 3, g ≠ 3 ∧ (s.domain g).phase ≠ 12) ∧
    (q.prim = .quiesced ∧ q.rf .PWR_FABREQ 0 3 = 2 ∧ (∀ d, d < 18 → (q.domain d).phase = 0 ∧ (q.domain d).st ≤ 1)) ∧
    (((List.range 17).map (· + 1)).filter (fun d => (held.domain d).fabric) = [4] ∧ (held.domain 4).phase = 11 ∧ (held.domain 4).pend = none) ∧
    (((List.range 17).map (· + 1)).filter (fun d => (run.domain d).fabric) = []) := by
  dsimp only
  and_intros <;> decide +kernel

theorem witness_StepRunsTheFrontCommand : (run.pending = [] : Prop) := rfl

theorem witness_EveryStepKeepsTheInvariant :
    let s : State := { run with fuses := some goodFuses, pending := [.testEntry], sram := [(5, 1)] }
    s.Inv ∧ step s = .next { s with pending := [] } := ⟨by decide +kernel, rfl⟩


/-! ### The wires -/

/-- Payloads written out from the layouts: ADDR, SIZE, RLX, SD and AOP of a request, an operand; STATUS, CNT and DF of `GrantM`, the halves
of an `AtomResult`; LINE, RQFID and HTID of a snoop; data byte 0 and check byte 0, the first column of the code (R50 to R53, R71). -/
theorem test_flit_layouts :
    let q : Pkt := { net := .req, opc := 0xA, addr := 0xABCDE12345678, size := 3, rlx := true, sd := 5, aop := 9, ops := [0x1122334455667788] }
    let g : Pkt := { net := .rsp, opc := 7, status := 9, cnt := 0x81, df := true }
    let a : Pkt := { net := .rsp, opc := 9, ops := [0x1122334455667788] }
    let n : Pkt := { net := .snp, opc := 1, line := 1, rqfid := 2, htid := 3 }
    (⟨q, 0, 0⟩ : Flit).bits / 2 ^ 64 = 0x95BABCDE12345678 ∧ (⟨q, 1, 0⟩ : Flit).bits / 2 ^ 64 = 0x1122334455667788 ∧
    (⟨g, 0, 0⟩ : Flit).bits / 2 ^ 64 = 0x18109 ∧ (⟨a, 1, 0⟩ : Flit).bits / 2 ^ 64 = 0x55667788 ∧ (⟨a, 2, 0⟩ : Flit).bits / 2 ^ 64 = 0x11223344 ∧
    (⟨n, 0, 0⟩ : Flit).bits / 2 ^ 64 = 0x0300800000000001 ∧
    (⟨{ net := .dat, opc := 1, data := [1] }, 0, 0⟩ : Flit).bits / 2 ^ 64 = 1 + 0x07 * 2 ^ 512 := by decide +kernel

/-- What a receiver finds: nothing, an odd header, one data bit, two data bits (R71, R72). -/
theorem test_wire_checks :
    let w := (⟨{ net := .dat, opc := 1, data := [1] }, 0, 0⟩ : Flit).wire
    w.judge true = .clean ∧ ({ w with bits := w.bits ^^^ 2 ^ 40 } : Wire).judge false = .parity ∧
    ({ w with bits := w.bits ^^^ 2 ^ 70 } : Wire).judge false = .corrected ∧
    ({ w with bits := w.bits ^^^ (2 ^ 70 + 2 ^ 71) } : Wire).judge false = .uncorrectable := by decide +kernel

end Sys2Proof.Tests
end

/-! ### CRC-32C: the reflected register of the model is the mirror image of the spec's remainder (R26) -/

namespace Sys2Proof.Machine

/-- One bit into the remainder by the polynomial 0x1EDC_6F41, most significant bit first: the step R26 speaks of. -/
def castagnoliBit (c : Word32) (b : Bool) : Word32 :=
  if (c.msb != b) = true then (c <<< 1) ^^^ 0x1EDC6F41 else c <<< 1

/-- The mirror image of `castagnoliBit`: the register shifts to the right and takes the reversed polynomial. -/
def reflectedBit (c : Word32) (b : Bool) : Word32 :=
  if (c.getLsbD 0 != b) = true then (c >>> 1) ^^^ 0x82F63B78 else c >>> 1

theorem reverse_xor {w : Nat} (x y : BitVec w) : (x ^^^ y).reverse = x.reverse ^^^ y.reverse := by
  ext i hi
  simp only [BitVec.getElem_xor, BitVec.getElem_reverse, BitVec.getMsbD_xor]

theorem reverse_ushiftRight_one {w : Nat} (x : BitVec w) : (x >>> 1).reverse = x.reverse <<< 1 := by
  ext i hi
  simp [BitVec.getElem_shiftLeft, BitVec.getElem_reverse, BitVec.getMsbD_ushiftRight, hi]

/-- Bit reversal carries the model's step on a bit to the spec's. -/
theorem reverse_reflectedBit (c : Word32) (b : Bool) : (reflectedBit c b).reverse = castagnoliBit c.reverse b := by
  have hpoly : (0x82F63B78 : Word32).reverse = 0x1EDC6F41 := by decide +kernel
  unfold reflectedBit castagnoliBit
  rw [BitVec.msb_reverse, apply_ite BitVec.reverse, reverse_xor, reverse_ushiftRight_one, hpoly]

theorem reverse_foldl_reflectedBit (bits : List Bool) (c : Word32) :
    (bits.foldl reflectedBit c).reverse = bits.foldl castagnoliBit c.reverse :=
  (List.foldl_hom BitVec.reverse fun c b => (reverse_reflectedBit c b).symm).symm

/-- A word added to the register before a shift step: its lowest bit is taken as an input bit, its other bits move on by one place. -/
theorem reflectedBit_xor_false (c x : Word32) :
    reflectedBit (c ^^^ x) false = reflectedBit c (x.getLsbD 0) ^^^ (x >>> 1) := by
  unfold reflectedBit
  rw [BitVec.getLsbD_xor, Bool.bne_false, BitVec.ushiftRight_xor_distrib]
  split
  · ac_rfl
  · rfl

/-- `n` shift steps after a word is added at once are `n` steps on that word's bits from the lowest up; the bits above stay to come. -/
theorem foldl_reflectedBit_xor (n : Nat) (c x : Word32) :
    (List.range n).foldl (fun c _ => reflectedBit c false) (c ^^^ x) =
      ((List.range n).map x.getLsbD).foldl reflectedBit c ^^^ (x >>> n) := by
  induction n with
  | zero => simp
  | succ n ih =>
    have hbit : (x >>> n).getLsbD 0 = x.getLsbD n := by simp
    simp only [List.range_succ, List.foldl_append, List.map_append, List.map_cons, List.map_nil, List.foldl_cons, List.foldl_nil]
    rw [ih, reflectedBit_xor_false, hbit, BitVec.shiftRight_add]

/-- The model's step on a byte takes the byte's bits one after the other, least significant first (reflected input). -/
theorem crc32cStep_eq_foldl_bits (crc : Word32) (b : Byte) :
    crc32cStep crc b = ((List.range 8).map b.getLsbD).foldl reflectedBit crc := by
  have hrest : b.zeroExtend 32 >>> 8 = 0 := by
    ext i hi
    simp
  have hbits : (List.range 8).map (b.zeroExtend 32).getLsbD = (List.range 8).map b.getLsbD := by
    refine List.map_congr_left fun i hi => ?_
    have : i < 32 := by have := List.mem_range.mp hi; omega
    simp [this]
  calc crc32cStep crc b
      = (List.range 8).foldl (fun c _ => reflectedBit c false) (crc ^^^ b.zeroExtend 32) := by
        simp [crc32cStep, reflectedBit]
    _ = ((List.range 8).map b.getLsbD).foldl reflectedBit crc := by
        rw [foldl_reflectedBit_xor, hbits, hrest]; exact BitVec.xor_zero

/-- The register after a list of bytes, reversed, is the spec's remainder over their bits. -/
theorem foldl_crc32cStep_eq_reverse (bs : List Byte) (c : Word32) :
    bs.foldl crc32cStep c =
      ((bs.flatMap fun b => (List.range 8).map b.getLsbD).foldl castagnoliBit c.reverse).reverse := by
  have hstep : crc32cStep = fun c b => ((List.range 8).map b.getLsbD).foldl reflectedBit c :=
    funext fun c => funext (crc32cStep_eq_foldl_bits c)
  rw [← reverse_foldl_reflectedBit, BitVec.reverse_reverse_eq, List.foldl_flatMap, hstep]

/-- The check value of the CRC catalogues: the nine ASCII bytes "123456789". -/
theorem crc32c_check_value :
    crc32c [0x31, 0x32, 0x33, 0x34, 0x35, 0x36, 0x37, 0x38, 0x39] = 0xE3069283 := by decide +kernel

/-- Settles O58: bit reversal carries the model's register to the spec's remainder, and an initial value of ones is its own reverse. -/
theorem crc32cIsTheReflectedCastagnoliCrc : Obligations.Crc32cIsTheReflectedCastagnoliCrc := by
  have hones : (0xFFFFFFFF : Word32).reverse = 0xFFFFFFFF := by decide +kernel
  refine ⟨fun bs => ?_, crc32c_check_value⟩
  rw [crc32c, foldl_crc32cStep_eq_reverse, hones]
  rfl

end Sys2Proof.Machine

/-! ### Buckets: the hash of a physical address and the lines a partner lists for it (R158) -/

namespace Sys2Proof.Machine

/-- A field of a line number is the bit range of the address six places higher: a line is PA[51:6]. -/
theorem fld_div_64_eq_extractLsb' (pa : BitVec 52) (lo w : Nat) :
    fld (pa.toNat / 64) lo w = (pa.extractLsb' (6 + lo) w).toNat := by
  rw [BitVec.extractLsb'_toNat, Nat.shiftRight_eq_div_pow, Nat.pow_add, ← Nat.div_div_eq_div_mul]
  rfl

theorem bucketOf_lt (line : Nat) : bucketOf line < 4096 := by
  have hlow (lo : Nat) : fld line lo 12 < 2 ^ 12 := fld_lt line lo 12
  have htop : fld line 36 10 < 2 ^ 12 := Nat.lt_trans (fld_lt line 36 10) (by decide)
  exact Nat.xor_lt_two_pow (Nat.xor_lt_two_pow (Nat.xor_lt_two_pow (hlow 0) (hlow 12)) (hlow 24)) htop

theorem bucketOf_eq_xor_bits (pa : BitVec 52) :
    bucketOf (pa.toNat / 64) =
      (pa.extractLsb' 6 12 ^^^ pa.extractLsb' 18 12 ^^^ pa.extractLsb' 30 12 ^^^
        (pa.extractLsb' 42 10).zeroExtend 12).toNat := by
  have hzero : ((pa.extractLsb' 42 10).zeroExtend 12).toNat = (pa.extractLsb' 42 10).toNat :=
    BitVec.toNat_setWidth_of_le (by decide)
  simp only [bucketOf, fld_div_64_eq_extractLsb', BitVec.toNat_xor, hzero]

theorem cacheKey_div (f : Nat) {line : Nat} (h : line < 2 ^ 46) : cacheKey f line / 2 ^ 46 = f := by
  unfold cacheKey; omega

theorem cacheKey_mod (f : Nat) {line : Nat} (h : line < 2 ^ 46) : cacheKey f line % 2 ^ 46 = line := by
  unfold cacheKey; omega

/-- What the filter of `bucketLines` lets pass: the lines in the partner's key range whose bucket is the named one. -/
theorem mem_bucketLines (s : State) (f b line : Nat) :
    line ∈ s.bucketLines f b ↔
      ∃ kc ∈ s.cache, kc.1 / 2 ^ 46 = f ∧ kc.1 % 2 ^ 46 = line ∧ bucketOf line = b := by
  simp only [State.bucketLines, List.mem_filterMap, Option.ite_none_right_eq_some, Option.some.injEq]
  constructor
  · rintro ⟨kc, hmem, ⟨hf, hb⟩, rfl⟩
    exact ⟨kc, hmem, hf, rfl, hb⟩
  · rintro ⟨kc, hmem, hf, rfl, hb⟩
    exact ⟨kc, hmem, ⟨hf, hb⟩, rfl⟩

/-- Settles O33: each field of the line is a bit range of the address, and a listed line's key gives back its partner and its number. -/
theorem bucketOfAnAddress : Obligations.BucketOfAnAddress := by
  refine ⟨fun pa => ⟨bucketOf_eq_xor_bits pa, bucketOf_lt _⟩, fun s f b line c hline hmem => ?_⟩
  rw [mem_bucketLines]
  constructor
  · rintro ⟨-, -, -, -, hb⟩
    exact hb
  · intro hb
    exact ⟨(cacheKey f line, c), hmem, cacheKey_div f hline, cacheKey_mod f hline, hb⟩

end Sys2Proof.Machine

namespace Sys2Proof.Machine

/-- From `s₀` to `s` the mode, the start-up pins and the fuses have not moved, and the byte memories have kept their canonical form. -/
structure State.Keeps (s₀ s : State) : Prop where
  prim : s.prim = s₀.prim
  started : s.started = s₀.started
  frst : s.frst = s₀.frst
  fuses : s.fuses = s₀.fuses
  sram : Memory.wf s₀.sram = true → Memory.wf s.sram = true
  lsram : Memory.wf s₀.lsram = true → Memory.wf s.lsram = true

section
variable {s₀ s t : State}

theorem State.Keeps.refl : s₀.Keeps s₀ := ⟨Eq.refl _, Eq.refl _, Eq.refl _, Eq.refl _, id, id⟩

theorem State.Keeps.trans (h : s₀.Keeps s) (h' : s.Keeps t) : s₀.Keeps t :=
  ⟨h'.prim.trans h.prim, h'.started.trans h.started, h'.frst.trans h.frst, h'.fuses.trans h.fuses, h'.sram ∘ h.sram, h'.lsram ∘ h.lsram⟩

theorem State.Keeps.ite {c : Prop} [Decidable c] (hs : s₀.Keeps s) (ht : s₀.Keeps t) : s₀.Keeps (if c then s else t) := by
  split
  · exact hs
  · exact ht

theorem State.Keeps.foldl {α : Type} {g : State → α → State} {xs : List α} (h : s₀.Keeps s) (hg : ∀ s x, s₀.Keeps s → s₀.Keeps (g s x)) :
    s₀.Keeps (xs.foldl g s) := by
  induction xs generalizing s with
  | nil => exact h
  | cons x xs ih => exact ih (hg s x h)
end

/-- A change of any other fields. -/
theorem State.Keeps.upd {s₀ s : State} (h : s₀.Keeps s) {pending : List Instr} {tick : Nat} {haltConds : Option (Bool × Bool × Bool × Bool)} {fallback : Bool} {drainPend : Bool} {drainAt : Option Nat} {pdrec : Option (List Byte)} {regs : SMap Word32} {cyc : SMap CycReg} {modeWas : Nat} {quietWas : Nat} {shadows : SMap (Option Word32)} {tabs : SMap Nat} {ownEp : SMap Bool} {tim : TimeSt} {fc : FcSt} {prg : PrgSt} {epo : EpoSt} {hub : Hub} {rkCopy : Option Nat} {rbuf : SMap RBuf} {cred : SMap Cred} {arbs : SMap Arb} {ni : SMap Ni} {saf : Saf} {home : SMap Home} {dir : SMap (Option DirEnt)} {plru : SMap Nat} {pred : SMap (Option PredEnt)} {cache : SMap CLine} {recalls : SMap (List PortRecall)} {sramBad : SMap Bool} {bank : SMap Bank} {loc : SMap (List LocAcc)} {que : SMap QDyn} {qm : SMap Qm} {refillAt : Nat} {ecl : SMap Ecl} {lsramBad : SMap Bool} {ctr : SMap Nat} {ctrWas : SMap Nat} {ctrClr : List Nat} {wakePin : Bool} {dom : SMap Dom} {sigs : SMap Nat} {slc : SMap Slc} {freeze : Bool} {bw : SMap BwSt} {probe : SMap ProbeSt} {free : Nat} :
    s₀.Keeps ⟨pending, tick, s.frst, s.started, s.prim, haltConds, fallback, drainPend, drainAt, pdrec, regs, cyc, modeWas, quietWas, shadows, tabs, s.fuses, ownEp, tim, fc, prg, epo, hub, rkCopy, rbuf, cred, arbs, ni, saf, home, dir, plru, pred, cache, recalls, s.sram, sramBad, bank, loc, que, qm, refillAt, ecl, s.lsram, lsramBad, ctr, ctrWas, ctrClr, wakePin, dom, sigs, slc, freeze, bw, probe, free⟩ :=
  ⟨h.prim, h.started, h.frst, h.fuses, h.sram, h.lsram⟩

end Sys2Proof.Machine

namespace Sys2Proof.Machine
variable {s₀ s t : State} {α β : Type}

/-- A command that answers next keeps the frame. -/
def State.KeepsOut (s₀ : State) : Host.Outcome State Fault Refusal → Prop
  | .next t => s₀.Keeps t
  | _ => True

def State.KeepsOpt (s₀ : State) : Option State → Prop
  | some t => s₀.Keeps t
  | none => True

def State.KeepsPair (s₀ : State) (p : α × State) : Prop := s₀.Keeps p.2
def State.KeepsTriple (s₀ : State) (p : α × β × State) : Prop := s₀.Keeps p.2.2

theorem State.KeepsOut.next (h : s₀.Keeps t) : s₀.KeepsOut (.next t) := h
theorem State.KeepsOut.fault {f : Fault} : s₀.KeepsOut (.fault f) := trivial
theorem State.KeepsOut.ite {c : Prop} [Decidable c] {x y : Host.Outcome State Fault Refusal} (hx : s₀.KeepsOut x) (hy : s₀.KeepsOut y) :
    s₀.KeepsOut (if c then x else y) := by
  split
  · exact hx
  · exact hy

theorem State.KeepsOpt.some (h : s₀.Keeps t) : s₀.KeepsOpt (.some t) := h
theorem State.KeepsOpt.none : s₀.KeepsOpt .none := trivial
theorem State.KeepsOpt.ite {c : Prop} [Decidable c] {x y : Option State} (hx : s₀.KeepsOpt x) (hy : s₀.KeepsOpt y) :
    s₀.KeepsOpt (if c then x else y) := by
  split
  · exact hx
  · exact hy
theorem State.KeepsOpt.of_eq {o : Option State} (h : s₀.KeepsOpt o) (e : o = .some t) : s₀.Keeps t := by
  subst e; exact h
theorem State.KeepsOpt.getD {o : Option State} (h : s₀.KeepsOpt o) (hs : s₀.Keeps s) : s₀.Keeps (o.getD s) := by
  cases o with
  | none => exact hs
  | some t => exact h

theorem State.KeepsPair.mk {x : α} (h : s₀.Keeps t) : s₀.KeepsPair (x, t) := h
theorem State.KeepsPair.snd {p : α × State} (h : s₀.KeepsPair p) : s₀.Keeps p.2 := h
theorem State.Keeps.of_pair {p : α × State} (h : s₀.KeepsPair p) : s₀.Keeps p.2 := h
theorem State.KeepsPair.of_eq {p : α × State} {x : α} (h : s₀.KeepsPair p) (e : p = (x, t)) : s₀.Keeps t := by
  subst e; exact h
theorem State.KeepsPair.ite {c : Prop} [Decidable c] {x y : α × State} (hx : s₀.KeepsPair x) (hy : s₀.KeepsPair y) :
    s₀.KeepsPair (if c then x else y) := by
  split
  · exact hx
  · exact hy

theorem State.KeepsTriple.mk {x : α} {p : β × State} (h : s₀.KeepsPair p) : s₀.KeepsTriple (x, p) := h
theorem State.KeepsTriple.snd {p : α × β × State} (h : s₀.KeepsTriple p) : s₀.KeepsPair p.2 := h
theorem State.KeepsTriple.of_eq {p : α × β × State} {x : α} {y : β} (h : s₀.KeepsTriple p) (e : p = (x, y, t)) : s₀.Keeps t := by
  subst e; exact h
theorem State.KeepsTriple.ite {c : Prop} [Decidable c] {x y : α × β × State} (hx : s₀.KeepsTriple x) (hy : s₀.KeepsTriple y) :
    s₀.KeepsTriple (if c then x else y) := by
  split
  · exact hx
  · exact hy
theorem State.Keeps.dite {c : Prop} [Decidable c] {x : c → State} {y : ¬c → State} (hx : ∀ h, s₀.Keeps (x h)) (hy : ∀ h, s₀.Keeps (y h)) :
    s₀.Keeps (if h : c then x h else y h) := by
  split
  · exact hx _
  · exact hy _
theorem State.KeepsPair.foldl {g : α × State → β → α × State} {xs : List β} {p : α × State} (h : s₀.KeepsPair p)
    (hg : ∀ p x, s₀.KeepsPair p → s₀.KeepsPair (g p x)) : s₀.KeepsPair (xs.foldl g p) :=
  List.foldlRecOn xs g h fun p hp x _ => hg p x hp

theorem State.KeepsTriple.foldl {γ : Type} {g : α × γ × State → β → α × γ × State} {xs : List β} {p : α × γ × State} (h : s₀.KeepsTriple p)
    (hg : ∀ p x, s₀.KeepsTriple p → s₀.KeepsTriple (g p x)) : s₀.KeepsTriple (xs.foldl g p) :=
  List.foldlRecOn xs g h fun p hp x _ => hg p x hp

theorem State.KeepsOpt.orElse {o : Option State} {o' : Unit → Option State} (h : s₀.KeepsOpt o) (h' : s₀.KeepsOpt (o' ())) :
    s₀.KeepsOpt (o.orElse o') := by
  cases o with
  | none => exact h'
  | some t => exact h
theorem State.KeepsOpt.bind {o : Option α} {g : α → Option State} (h : ∀ x, s₀.KeepsOpt (g x)) : s₀.KeepsOpt (o.bind g) := by
  cases o with
  | none => trivial
  | some x => exact h x
theorem State.KeepsOpt.findSome {xs : List α} {g : α → Option State} (h : ∀ x, s₀.KeepsOpt (g x)) : s₀.KeepsOpt (xs.findSome? g) := by
  cases hx : xs.findSome? g with
  | none => trivial
  | some t =>
    obtain ⟨x, -, hg⟩ := List.exists_of_findSome?_eq_some hx
    exact (h x).of_eq hg
end Sys2Proof.Machine

namespace Sys2Proof.Machine
variable {s₀ s : State}

theorem State.Keeps.putWord (hs : s₀.Keeps s) {r : Reg} {v : Nat} {base : Nat} {i : Nat} : s₀.Keeps (State.putWord s r v base i) :=
  hs.upd

theorem State.Keeps.noteCyc (hs : s₀.Keeps s) {off : Nat} {g : CycReg → CycReg} : s₀.Keeps (State.noteCyc s off g) :=
  hs.upd

theorem State.Keeps.noteWas (hs : s₀.Keeps s) {r : Reg} {base i : Nat} : s₀.Keeps (State.noteWas s r base i) :=
  hs.noteCyc

theorem State.Keeps.noteSet (hs : s₀.Keeps s) {r : Reg} {bits : Nat} {base i : Nat} : s₀.Keeps (State.noteSet s r bits base i) :=
  hs.upd

theorem State.Keeps.noteUpd (hs : s₀.Keeps s) {r : Reg} {g : Nat → Nat} {base i : Nat} : s₀.Keeps (State.noteUpd s r g base i) :=
  hs.noteCyc

theorem State.Keeps.setReg (hs : s₀.Keeps s) {r : Reg} {v : Nat} {base : Nat} {i : Nat} : s₀.Keeps (State.setReg s r v base i) :=
  hs.noteSet.putWord

theorem State.Keeps.setRf (hs : s₀.Keeps s) {r : Reg} {lo w x : Nat} {base : Nat} {i : Nat} : s₀.Keeps (State.setRf s r lo w x base i) :=
  hs.noteSet.putWord

theorem State.Keeps.bump (hs : s₀.Keeps s) {r : Reg} {base : Nat} {i : Nat} {n : Nat} : s₀.Keeps (State.bump s r base i n) :=
  hs.noteUpd.putWord

theorem State.Keeps.latchWords (hs : s₀.Keeps s) {cap : Reg} {ws : List (Reg × Nat)} {base : Nat} {i : Nat} {miss : List Reg} : s₀.Keeps (State.latchWords s cap ws base i miss) :=
  (.ite (hs.noteCyc.foldl fun _ _ hs => hs.bump) (hs.foldl fun _ _ hs => hs.setReg))

theorem State.Keeps.takeLate (hs : s₀.Keeps s) {cap : Reg} {base i : Nat} : s₀.Keeps (State.takeLate s cap base i) :=
  ((hs.foldl fun _ _ hs => hs.putWord).foldl fun _ _ hs => hs.setReg)

theorem State.Keeps.raiseMax (hs : s₀.Keeps s) {r : Reg} {n : Nat} {base : Nat} {i : Nat} : s₀.Keeps (State.raiseMax s r n base i) :=
  hs.noteUpd.putWord

theorem State.Keeps.rcRead (hs : s₀.Keeps s) {r : Reg} {base i : Nat} : s₀.Keeps (State.rcRead s r base i) :=
  (.ite hs.putWord.noteCyc hs.putWord)

theorem State.Keeps.noteUndo (hs : s₀.Keeps s) {r : Reg} {base i : Nat} : s₀.Keeps (State.noteUndo s r base i) :=
  hs.noteCyc

theorem State.Keeps.undoWrite (hs : s₀.Keeps s) {r : Reg} {base i : Nat} : s₀.KeepsPair (State.undoWrite s r base i) := by
  unfold State.undoWrite
  split
  · exact (.mk hs.putWord.noteCyc)
  · exact (.mk hs)

theorem State.Keeps.undoLocked (hs : s₀.Keeps s) {lock : Reg} : s₀.Keeps (State.undoLocked s lock) :=
  (hs.foldl fun _ _ hs => (hs.foldl fun _ _ hs => hs.undoWrite.snd))

theorem State.Keeps.draw (hs : s₀.Keeps s)  : s₀.Keeps (State.draw s) :=
  hs.upd

theorem State.Keeps.count (hs : s₀.Keeps s) {b i : Nat} {n : Nat} : s₀.Keeps (State.count s b i n) :=
  (.ite hs (.ite hs.upd (.ite (.ite hs.upd.upd hs.upd.upd.setRf) hs.upd.setRf)))

theorem State.Keeps.countRtr (hs : s₀.Keeps s) {node : Nat} {net : Net} {j : Nat} : s₀.Keeps (State.countRtr s node net j) :=
  hs.count

theorem State.Keeps.countSlice (hs : s₀.Keeps s) {sl i : Nat} {n : Nat} : s₀.Keeps (State.countSlice s sl i n) :=
  hs.count

theorem State.Keeps.setTab (hs : s₀.Keeps s) {bank table unit port idx v : Nat} : s₀.Keeps (State.setTab s bank table unit port idx v) :=
  hs.upd

theorem State.Keeps.setNi (hs : s₀.Keeps s) {f : Nat} {n : Ni} : s₀.Keeps (State.setNi s f n) :=
  hs.upd

theorem State.Keeps.updNi (hs : s₀.Keeps s) {f : Nat} {g : Ni → Ni} : s₀.Keeps (State.updNi s f g) :=
  hs.setNi

theorem State.Keeps.bareFence (hs : s₀.Keeps s) {k : FenceKey} : s₀.Keeps (State.bareFence s k) :=
  (.ite hs hs.upd)

theorem State.Keeps.setMap (hs : s₀.Keeps s) {r : Reg} {i : Nat} {b : Bool} : s₀.Keeps (State.setMap s r i b) :=
  hs.setRf

theorem State.Keeps.collect (hs : s₀.Keeps s) {r : FaultRec} : s₀.Keeps (State.collect s r) :=
  hs.upd

theorem State.Keeps.raiseSpine (hs : s₀.Keeps s) {group cls lvl : Nat} {u : UnitRef} {detail : Nat} {inj : Bool} : s₀.Keeps (State.raiseSpine s group cls lvl u detail inj) :=
  hs.collect

theorem State.Keeps.raiseRtr (hs : s₀.Keeps s) {n cls lvl port : Nat} {inj : Bool} : s₀.Keeps (State.raiseRtr s n cls lvl port inj) :=
  hs.upd

theorem State.Keeps.countFloor (hs : s₀.Keeps s) {f : Nat} {p : Pkt} : s₀.Keeps (State.countFloor s f p) :=
  (.ite hs hs.upd)

theorem State.Keeps.pushNow (hs : s₀.Keeps s) {f : Nat} {p : Pkt} : s₀.Keeps (State.pushNow s f p) :=
  (.ite hs.countFloor.count.count.updNi hs.countFloor.count.count.updNi)

theorem State.Keeps.push (hs : s₀.Keeps s) {f : Nat} {p : Pkt} : s₀.Keeps (State.push s f p) :=
  (.ite hs.updNi hs.pushNow)

theorem State.Keeps.acceptTc0 (hs : s₀.Keeps s) {f : Nat} : s₀.Keeps (State.acceptTc0 s f) := by
  unfold State.acceptTc0
  exact (hs.foldl fun _ _ hs => (by split; exact hs.updNi.pushNow; exact hs))

theorem State.Keeps.inject (hs : s₀.Keeps s) {f : Nat} {p : Pkt} : s₀.Keeps (State.inject s f p) :=
  hs.push

theorem State.Keeps.setDomain (hs : s₀.Keeps s) {d : Nat} {x : Dom} : s₀.Keeps (State.setDomain s d x) :=
  hs.upd

theorem State.Keeps.wakeLevel (hs : s₀.Keeps s) {d : Nat} : s₀.Keeps (State.wakeLevel s d) :=
  (.ite hs hs.setDomain)

theorem State.Keeps.holdPkt (hs : s₀.Keeps s) {f : Nat} {p : Pkt} : s₀.Keeps (State.holdPkt s f p) :=
  hs.updNi.count.inject

theorem State.Keeps.ownComp (hs : s₀.Keeps s) {f : Nat} {p : Pkt} {status : Nat} : s₀.Keeps (State.ownComp s f p status) :=
  hs.updNi

theorem State.Keeps.sendTc (hs : s₀.Keeps s) {f : Nat} {p : Pkt} : s₀.Keeps (State.sendTc s f p) :=
  (.ite (.ite hs.holdPkt (.ownComp (.count (.ite hs.bump hs)))) hs.inject)

theorem State.Keeps.send (hs : s₀.Keeps s) {f : Nat} {p : Pkt} : s₀.Keeps (State.send s f p) :=
  hs.sendTc

theorem State.Keeps.ownIntr (hs : s₀.Keeps s) {f dst vec : Nat} : s₀.Keeps (State.ownIntr s f dst vec) :=
  hs.updNi.send

theorem State.Keeps.raiseNi (hs : s₀.Keeps s) {f cls lvl : Nat} {detail : Nat} {inj : Bool} {u : Option UnitRef} : s₀.Keeps (State.raiseNi s f cls lvl detail inj u) := by
  unfold State.raiseNi
  exact (.ite hs.raiseSpine (.ite (by split; exact hs.updNi.inject; exact hs.updNi) hs.updNi))

theorem State.Keeps.capture (hs : s₀.Keeps s) {cap lo hi : Reg} {base port net vc code : Nat} {hdr : Nat} : s₀.Keeps (State.capture s cap lo hi base port net vc code hdr) :=
  hs.latchWords

theorem State.Keeps.captureNi (hs : s₀.Keeps s) {f code : Nat} {p : Pkt} : s₀.Keeps (State.captureNi s f code p) :=
  hs.capture

theorem State.Keeps.captureRtr (hs : s₀.Keeps s) {n port code : Nat} {p : Pkt} : s₀.Keeps (State.captureRtr s n port code p) :=
  hs.capture

theorem State.Keeps.countAnswer (hs : s₀.Keeps s) {sl status : Nat} : s₀.Keeps (State.countAnswer s sl status) :=
  (.ite hs.countSlice (.ite hs.countSlice (.ite hs.countSlice hs)))

theorem State.Keeps.answer (hs : s₀.Keeps s) {f : Nat} {q : Pkt} {status : Nat} {cnt : Nat} {ops : List Word64} : s₀.Keeps (State.answer s f q status cnt ops) :=
  hs.send.countAnswer

theorem State.Keeps.injUse (hs : s₀.Keeps s)  : s₀.Keeps (State.injUse s) := by
  unfold State.injUse
  split
  · exact (.ite hs.setRf.upd hs.setRf.upd)
  · exact hs

theorem State.Keeps.checkWord (hs : s₀.Keeps s) {u : UnitRef} {chk : Nat} {err : WordErr} {port : Option Nat} : s₀.KeepsTriple (State.checkWord s u chk err port) := by
  unfold State.checkWord
  exact (.ite (by split; exact (.mk (.mk hs.injUse)); exact (.mk (.mk hs))) (.mk (.mk hs)))

theorem State.Keeps.tableCheck (hs : s₀.Keeps s) {u : UnitRef} {err : WordErr} {port : Nat} : s₀.KeepsPair (State.tableCheck s u err port) := by
  simp only [State.tableCheck]
  split
  · exact (.mk (hs.checkWord.of_eq ‹_›))
  · exact (.mk (.ite ((hs.checkWord.of_eq ‹_›).raiseRtr) ((hs.checkWord.of_eq ‹_›).raiseNi)))
  · exact (.mk (.ite ((hs.checkWord.of_eq ‹_›).raiseRtr) ((hs.checkWord.of_eq ‹_›).raiseNi)))

theorem State.Keeps.setArb (hs : s₀.Keeps s) {site : ArbSite} {a : Arb} : s₀.Keeps (State.setArb s site a) :=
  hs.upd

theorem State.Keeps.endGrant (hs : s₀.Keeps s) {site : ArbSite} : s₀.Keeps (State.endGrant s site) :=
  hs.setArb

theorem State.Keeps.noteMask (hs : s₀.Keeps s) {site : ArbSite} : s₀.Keeps (State.noteMask s site) :=
  (.ite hs.setArb.bump hs)

theorem State.Keeps.arbSlot (hs : s₀.Keeps s) {site : ArbSite} : s₀.Keeps (State.arbSlot s site) :=
  hs.setArb

theorem State.Keeps.arbitrate (hs : s₀.Keeps s) {site : ArbSite} {n : Nat} {rs : List ArbReq} : s₀.KeepsPair (State.arbitrate s site n rs) := by
  unfold State.arbitrate
  exact (.ite (.mk hs) (by split; exact (.mk hs.endGrant); exact (.mk (.noteMask (.ite hs.setArb.bump hs.setArb)))))

theorem State.Keeps.maskAll (hs : s₀.Keeps s)  : s₀.Keeps (State.maskAll s) := by
  unfold State.maskAll
  exact (hs.foldl fun _ _ hs => (by split; exact hs.noteMask; exact hs))

theorem State.Keeps.setHm (hs : s₀.Keeps s) {k : Nat} {h : Home} : s₀.Keeps (State.setHm s k h) :=
  hs.upd

theorem State.Keeps.updHm (hs : s₀.Keeps s) {k : Nat} {g : Home → Home} : s₀.Keeps (State.updHm s k g) :=
  hs.setHm

theorem State.Keeps.countHome (hs : s₀.Keeps s) {k j : Nat} {n : Nat} : s₀.Keeps (State.countHome s k j n) :=
  hs.count

theorem State.Keeps.setDir (hs : s₀.Keeps s) {k set way : Nat} {e : Option DirEnt} : s₀.Keeps (State.setDir s k set way e) :=
  hs.upd

theorem State.Keeps.plruTouch (hs : s₀.Keeps s) {k set way : Nat} : s₀.Keeps (State.plruTouch s k set way) :=
  hs.upd

theorem State.Keeps.putDir (hs : s₀.Keeps s) {k line : Nat} {way : Nat} {e : Option DirEnt} : s₀.Keeps (State.putDir s k line way e) := by
  unfold State.putDir
  split
  · exact hs.setDir
  · exact hs.setDir
  · exact hs

theorem State.Keeps.addSharer (hs : s₀.Keeps s) {k line way : Nat} {e : DirEnt} {i : Nat} : s₀.Keeps (State.addSharer s k line way e i) :=
  (.ite hs.putDir.bump.countHome hs.putDir)

theorem State.Keeps.setTrk (hs : s₀.Keeps s) {k h : Nat} {e : Option TrkEnt} : s₀.Keeps (State.setTrk s k h e) :=
  hs.updHm

theorem State.Keeps.updTrk (hs : s₀.Keeps s) {k h : Nat} {g : TrkEnt → TrkEnt} : s₀.Keeps (State.updTrk s k h g) := by
  unfold State.updTrk
  split
  · exact hs.setTrk
  · exact hs

theorem State.Keeps.injectAs (hs : s₀.Keeps s) {f : Nat} {src : Fid} {p : Pkt} : s₀.Keeps (State.injectAs s f src p) :=
  (.ite hs.updNi hs.push)

theorem State.Keeps.sinkData (hs : s₀.Keeps s) {f : Nat} {q : Pkt} : s₀.Keeps (State.sinkData s f q) := by
  simp only [State.sinkData]
  exact (.ite hs (by split; exact hs.setNi; exact hs.setNi; exact hs.setNi))

theorem State.Keeps.snoop (hs : s₀.Keeps s) {k opc idx line : Nat} {rq : Fid} {h : Nat} {txid : BitVec 12} {slice : BitVec 6} : s₀.Keeps (State.snoop s k opc idx line rq h txid slice) :=
  (.ite hs.countHome.injectAs hs.countHome.send)

theorem State.Keeps.grantM (hs : s₀.Keeps s) {k : Nat} {q : Pkt} {cnt : Nat} {df : Bool} : s₀.Keeps (State.grantM s k q cnt df) :=
  hs.send

theorem State.Keeps.nack (hs : s₀.Keeps s) {k : Nat} {q : Pkt} {reason : Nat} : s₀.Keeps (State.nack s k q reason) :=
  hs.send.bump.countHome

theorem State.Keeps.homeProto (hs : s₀.Keeps s) {k lvl code : Nat} {p : Pkt} {u : UnitRef} : s₀.Keeps (State.homeProto s k lvl code p u) :=
  hs.latchWords.raiseNi

theorem State.Keeps.issueWr (hs : s₀.Keeps s) {k line : Nat} : s₀.Keeps (State.issueWr s k line) := by
  unfold State.issueWr
  exact (.ite hs (by split; exact hs; exact hs.updHm.send.send.countHome))

theorem State.Keeps.fillWb (hs : s₀.Keeps s) {k : Nat} : s₀.Keeps (State.fillWb s k) := by
  simp only [State.fillWb]
  split
  · exact (.ite hs.setHm.issueWr hs)
  · exact hs

theorem State.Keeps.addWb (hs : s₀.Keeps s) {k : Nat} {w : Wbuf} : s₀.Keeps (State.addWb s k w) :=
  hs.updHm.fillWb

theorem State.Keeps.freeWb (hs : s₀.Keeps s) {k i : Nat} : s₀.Keeps (State.freeWb s k i) :=
  hs.updHm.fillWb

theorem State.Keeps.readLineMem (hs : s₀.Keeps s) {k h : Nat} {e : TrkEnt} : s₀.Keeps (State.readLineMem s k h e) :=
  hs.setTrk.send.countHome

theorem State.Keeps.needLine (hs : s₀.Keeps s) {k h : Nat} : s₀.Keeps (State.needLine s k h) := by
  unfold State.needLine
  split
  · exact hs
  · exact (by split; exact hs.setTrk; exact (.ite hs.readLineMem hs.setTrk))

theorem State.Keeps.readWaiting (hs : s₀.Keeps s) {k : Nat} : s₀.Keeps (State.readWaiting s k) := by
  simp only [State.readWaiting]
  split
  · exact (.ite hs.readLineMem hs)
  · exact hs

theorem State.Keeps.predRecord (hs : s₀.Keeps s) {k line : Nat} : s₀.Keeps (State.predRecord s k line) := by
  simp only [State.predRecord]
  split
  · exact (.ite hs.upd (.ite hs.bump hs.upd))
  · exact hs.upd

theorem State.Keeps.homeComp (hs : s₀.Keeps s) {k : Nat} {q : Pkt} {status : Nat} : s₀.Keeps (State.homeComp s k q status) :=
  hs.answer

theorem State.Keeps.putAck (hs : s₀.Keeps s) {k : Nat} {q : Pkt} {stale : Bool} : s₀.Keeps (State.putAck s k q stale) :=
  (.ite hs.send.bump.countHome hs.send)

theorem State.Keeps.acceptPut (hs : s₀.Keeps s) {k : Nat} {q : Pkt} {data : List Byte} {poison : Bool} : s₀.Keeps (State.acceptPut s k q data poison) :=
  (.ite hs.putAck hs.addWb)

theorem State.Keeps.judgePut (hs : s₀.Keeps s) {k : Nat} {q : Pkt} {data : List Byte} {poison unknown : Bool} : s₀.Keeps (State.judgePut s k q data poison unknown) := by
  simp only [State.judgePut]
  split
  · exact (.ite hs.plruTouch.setDir.acceptPut hs.plruTouch.putAck)
  · exact (.ite hs.acceptPut hs.putAck)

theorem State.Keeps.endFlow (hs : s₀.Keeps s) {k h : Nat} : s₀.Keeps (State.endFlow s k h) := by
  unfold State.endFlow
  split
  · exact hs
  · exact hs.setTrk.updHm

theorem State.Keeps.restoreDir (hs : s₀.Keeps s) {k : Nat} {e : TrkEnt} : s₀.Keeps (State.restoreDir s k e) :=
  hs.putDir

theorem State.Keeps.dropDir (hs : s₀.Keeps s) {k : Nat} {e : TrkEnt} : s₀.Keeps (State.dropDir s k e) :=
  hs.putDir

theorem State.Keeps.farExecute (hs : s₀.Keeps s) {k h : Nat} {e : TrkEnt} {data : List Byte} {poison : Bool} : s₀.Keeps (State.farExecute s k h e data poison) :=
  (.ite (.endFlow (.homeComp (.ite hs.dropDir.addWb hs.dropDir))) hs.dropDir.bump.countHome.predRecord.addWb.send.endFlow)

theorem State.Keeps.writePassOut (hs : s₀.Keeps s) {k h : Nat} {e : TrkEnt} {old : List Byte} {poison : Bool} : s₀.Keeps (State.writePassOut s k h e old poison) :=
  hs.setTrk.addWb

theorem State.Keeps.complete (hs : s₀.Keeps s) {k h : Nat} : s₀.Keeps (State.complete s k h) := by
  unfold State.complete
  split
  · exact hs
  · exact (.ite hs.send.setTrk (.ite hs.send.setTrk (.ite hs.writePassOut (.ite hs.farExecute hs.send.setTrk))))

theorem State.Keeps.gathered (hs : s₀.Keeps s) {k h : Nat} : s₀.Keeps (State.gathered s k h) := by
  unfold State.gathered
  split
  · exact hs
  · exact (.ite hs.setTrk (.ite hs.setTrk hs.complete))

theorem State.Keeps.snoopAll (hs : s₀.Keeps s) {k h opc : Nat} {idxs : List Nat} {toHome : Bool} {own : Bool} : s₀.Keeps (State.snoopAll s k h opc idxs toHome own) := by
  unfold State.snoopAll
  split
  · exact hs
  · exact (hs.setTrk.foldl fun _ _ hs => hs.snoop)

theorem State.Keeps.takeWay (hs : s₀.Keeps s) {k h way i : Nat} : s₀.Keeps (State.takeWay s k h way i) := by
  unfold State.takeWay
  split
  · exact hs
  · exact hs.setDir.plruTouch.setTrk

theorem State.Keeps.serveI (hs : s₀.Keeps s) {k h way : Nat} : s₀.Keeps (State.serveI s k h way) := by
  unfold State.serveI
  split
  · exact hs
  · exact (.ite hs.takeWay.needLine.gathered hs.takeWay.updTrk.grantM.predRecord.needLine.gathered)

theorem State.Keeps.findWay (hs : s₀.Keeps s) {k h : Nat} : s₀.Keeps (State.findWay s k h) := by
  simp only [State.findWay]
  split
  · exact hs
  · exact (by split; exact hs.serveI; exact (by split; exact (by split; exact hs; exact hs.setTrk.setTrk.bump.countHome.countHome.snoopAll.snoopAll); exact hs.setTrk; exact hs.nack.endFlow))

theorem State.Keeps.retryWays (hs : s₀.Keeps s) {k : Nat} : s₀.Keeps (State.retryWays s k) :=
  (hs.foldl fun _ _ hs => hs.findWay)

theorem State.Keeps.serve (hs : s₀.Keeps s) {k h : Nat} : s₀.Keeps (State.serve s k h) := by
  unfold State.serve
  split
  · exact hs
  · exact (.ite (.endFlow (.homeComp (.homeProto (.setTrk (.ite (.countHome (.bump (by split; exact hs.countHome.plruTouch; exact hs.countHome))) (by split; exact hs.countHome.plruTouch; exact hs.countHome)))))) (.ite (.ite (.findWay (.setTrk (.ite (.countHome (.bump (by split; exact hs.countHome.plruTouch; exact hs.countHome))) (by split; exact hs.countHome.plruTouch; exact hs.countHome)))) (.ite (by split; exact (.gathered (.needLine (.addSharer (.setTrk (.ite (.countHome (.bump (by split; exact hs.countHome.plruTouch; exact hs.countHome))) (by split; exact hs.countHome.plruTouch; exact hs.countHome)))))); exact (.gathered (.needLine (.setTrk (.ite (.countHome (.bump (by split; exact hs.countHome.plruTouch; exact hs.countHome))) (by split; exact hs.countHome.plruTouch; exact hs.countHome)))))) (by split; exact (.updTrk (.snoopAll (.addSharer (.setTrk (.ite (.countHome (.bump (by split; exact hs.countHome.plruTouch; exact hs.countHome))) (by split; exact hs.countHome.plruTouch; exact hs.countHome)))))); exact (.updTrk (.snoopAll (.setTrk (.ite (.countHome (.bump (by split; exact hs.countHome.plruTouch; exact hs.countHome))) (by split; exact hs.countHome.plruTouch; exact hs.countHome)))))))) (.ite (.ite (.findWay (.setTrk (.ite (.countHome (.bump (by split; exact hs.countHome.plruTouch; exact hs.countHome))) (by split; exact hs.countHome.plruTouch; exact hs.countHome)))) (.ite (.gathered (.needLine (.predRecord (.snoopAll (.grantM (.putDir (.updTrk (.setTrk (.ite (.countHome (.bump (by split; exact hs.countHome.plruTouch; exact hs.countHome))) (by split; exact hs.countHome.plruTouch; exact hs.countHome)))))))))) (.updTrk (.predRecord (.grantM (.snoopAll (.snoopAll (.putDir (.setTrk (.ite (.countHome (.bump (by split; exact hs.countHome.plruTouch; exact hs.countHome))) (by split; exact hs.countHome.plruTouch; exact hs.countHome))))))))))) (.ite (.updTrk (.predRecord (.grantM (.snoopAll (.putDir (.setTrk (.ite (.countHome (.bump (by split; exact hs.countHome.plruTouch; exact hs.countHome))) (by split; exact hs.countHome.plruTouch; exact hs.countHome)))))))) (.ite (.ite (.gathered (.needLine (.setTrk (.ite (.countHome (.bump (by split; exact hs.countHome.plruTouch; exact hs.countHome))) (by split; exact hs.countHome.plruTouch; exact hs.countHome))))) (.updTrk (.snoopAll (by split; exact (.putDir (.setTrk (.ite (.countHome (.bump (by split; exact hs.countHome.plruTouch; exact hs.countHome))) (by split; exact hs.countHome.plruTouch; exact hs.countHome)))); exact (.setTrk (.ite (.countHome (.bump (by split; exact hs.countHome.plruTouch; exact hs.countHome))) (by split; exact hs.countHome.plruTouch; exact hs.countHome))))))) (.ite (.ite (.ite (.writePassOut (.setTrk (.ite (.countHome (.bump (by split; exact hs.countHome.plruTouch; exact hs.countHome))) (by split; exact hs.countHome.plruTouch; exact hs.countHome)))) (.gathered (.needLine (.setTrk (.ite (.countHome (.bump (by split; exact hs.countHome.plruTouch; exact hs.countHome))) (by split; exact hs.countHome.plruTouch; exact hs.countHome)))))) (.ite (.gathered (.ite (.snoopAll (.setTrk (.ite (.countHome (.bump (by split; exact hs.countHome.plruTouch; exact hs.countHome))) (by split; exact hs.countHome.plruTouch; exact hs.countHome)))) (.needLine (.snoopAll (.setTrk (.ite (.countHome (.bump (by split; exact hs.countHome.plruTouch; exact hs.countHome))) (by split; exact hs.countHome.plruTouch; exact hs.countHome))))))) (.gathered (.snoopAll (.snoopAll (.setTrk (.ite (.countHome (.bump (by split; exact hs.countHome.plruTouch; exact hs.countHome))) (by split; exact hs.countHome.plruTouch; exact hs.countHome)))))))) (.ite (.ite (.gathered (.needLine (.setTrk (.ite (.countHome (.bump (by split; exact hs.countHome.plruTouch; exact hs.countHome))) (by split; exact hs.countHome.plruTouch; exact hs.countHome))))) (.ite (.gathered (.needLine (.snoopAll (.setTrk (.ite (.countHome (.bump (by split; exact hs.countHome.plruTouch; exact hs.countHome))) (by split; exact hs.countHome.plruTouch; exact hs.countHome)))))) (.gathered (.snoopAll (.snoopAll (.setTrk (.ite (.countHome (.bump (by split; exact hs.countHome.plruTouch; exact hs.countHome))) (by split; exact hs.countHome.plruTouch; exact hs.countHome)))))))) (.setTrk (.ite (.countHome (.bump (by split; exact hs.countHome.plruTouch; exact hs.countHome))) (by split; exact hs.countHome.plruTouch; exact hs.countHome))))))))))

theorem State.Keeps.recallAll (hs : s₀.Keeps s) {k line : Nat} {rq : Fid} {txid : Nat} {h : Nat} {slice : BitVec 6} : s₀.Keeps (State.recallAll s k line rq txid h slice) :=
  hs.send

theorem State.Keeps.begin_ (hs : s₀.Keeps s) {k h : Nat} : s₀.Keeps (State.begin_ s k h) := by
  unfold State.begin_
  split
  · exact hs
  · exact (.ite hs.setTrk (.ite (.ite hs.bump.countHome.recallAll.setTrk.serve hs.bump.countHome.recallAll.setTrk) hs.serve))

theorem State.Keeps.newFlow (hs : s₀.Keeps s) {k : Nat} {q : Pkt} {data : List Byte} {poison : Bool} {ws : List (Pkt × List Byte × Bool)} : s₀.Keeps (State.newFlow s k q data poison ws) := by
  unfold State.newFlow
  split
  · exact hs
  · exact hs.setTrk.countHome.countHome.begin_

theorem State.Keeps.collected (hs : s₀.Keeps s) {k h : Nat} : s₀.Keeps (State.collected s k h) := by
  unfold State.collected
  split
  · exact hs
  · exact (.ite hs (by split; exact (.ite hs.setTrk hs.setDir.endFlow.serveI); exact (.ite hs.setTrk hs.serve); exact hs.complete))

theorem State.Keeps.snoopAnswer (hs : s₀.Keeps s) {k h port : Nat} {data : Option (List Byte × Bool)} {fenced : Bool} : s₀.Keeps (State.snoopAnswer s k h port data fenced) := by
  unfold State.snoopAnswer
  split
  · exact hs
  · exact (.collected (by split; exact hs.setTrk.updTrk; exact hs.setTrk.addWb; exact (by split; exact (.ite hs.setTrk.addWb hs.setTrk); exact hs.setTrk)))

theorem State.Keeps.sweepOne (hs : s₀.Keeps s) {k : Nat} : s₀.Keeps (State.sweepOne s k) := by
  simp only [State.sweepOne]
  split
  · exact hs.recallAll.updHm
  · exact hs

theorem State.Keeps.sweepDone (hs : s₀.Keeps s) {k : Nat} : s₀.Keeps (State.sweepDone s k) :=
  hs.updHm

theorem State.Keeps.sweepNext (hs : s₀.Keeps s) {k : Nat} : s₀.Keeps (State.sweepNext s k) :=
  hs.sweepDone.sweepOne.sweepDone.sweepOne.sweepDone.sweepOne.sweepDone.sweepOne.sweepDone

theorem State.Keeps.portGone (hs : s₀.Keeps s) {f : Nat} : s₀.Keeps (State.portGone s f) :=
  (hs.foldl fun _ _ hs => (hs.setHm.sweepNext.foldl fun _ _ hs => hs.snoopAnswer))

theorem State.Keeps.enterRecon (hs : s₀.Keeps s) {k b : Nat} : s₀.Keeps (State.enterRecon s k b) := by
  unfold State.enterRecon
  exact (hs.setHm.sweepNext.foldl fun _ _ hs => (by split; exact (hs.setTrk.foldl fun _ _ hs => hs.judgePut).begin_; exact hs))

theorem State.Keeps.fenceEntry (hs : s₀.Keeps s) {k : Nat} {he : Nat × Option TrkEnt} : s₀.Keeps (State.fenceEntry s k he) := by
  unfold State.fenceEntry
  split
  · exact hs
  · exact (.ite (.setTrk (by split; exact (.ite ((hs.foldl fun _ _ hs => hs.nack).addWb) (hs.foldl fun _ _ hs => hs.nack)); exact (hs.foldl fun _ _ hs => hs.nack))) (.setTrk (.ite (by split; exact (.ite ((hs.foldl fun _ _ hs => hs.nack).addWb) (hs.foldl fun _ _ hs => hs.nack)); exact (hs.foldl fun _ _ hs => hs.nack)) (.nack (by split; exact (.ite ((hs.foldl fun _ _ hs => hs.nack).addWb) (hs.foldl fun _ _ hs => hs.nack)); exact (hs.foldl fun _ _ hs => hs.nack))))))

theorem State.Keeps.dropBoxed (hs : s₀.Keeps s) {k : Nat} {q : Pkt} : s₀.Keeps (State.dropBoxed s k q) :=
  hs.updNi.sinkData

theorem State.Keeps.fenceHome (hs : s₀.Keeps s) {k : Nat} : s₀.Keeps (State.fenceHome s k) :=
  (.ite hs (((((hs.setMap.setMap.bareFence.updHm.foldl fun _ _ hs => hs.fenceEntry).foldl fun _ _ hs => hs.nack).foldl fun _ _ hs => hs.dropBoxed).foldl fun _ _ hs => hs.nack).updHm))

theorem State.Keeps.setCline (hs : s₀.Keeps s) {f line : Nat} {c : CLine} : s₀.Keeps (State.setCline s f line c) :=
  hs.upd

theorem State.Keeps.partnerBeat (hs : s₀.Keeps s) {f : Nat} {b : Beat} : s₀.Keeps (State.partnerBeat s f b) :=
  hs.updNi

theorem State.Keeps.cacheRequest (hs : s₀.Keeps s) {f : Nat} {h : Beat} {ops : List Word64} : s₀.Keeps (State.cacheRequest s f h ops) := by
  simp only [State.cacheRequest]
  split
  · exact hs
  · exact (hs.foldl fun _ _ hs => hs.setCline)
  · exact hs.setCline

theorem State.Keeps.cacheWbData (hs : s₀.Keeps s) {f : Nat} {b : Beat} : s₀.Keeps (State.cacheWbData s f b) := by
  unfold State.cacheWbData
  split
  · exact hs.setCline
  · exact hs

theorem State.Keeps.silent (hs : s₀.Keeps s) {f line : Nat} : s₀.Keeps (State.silent s f line) :=
  (.ite hs (.ite hs.draw.setCline hs.draw))

theorem State.Keeps.ownerData (hs : s₀.Keeps s) {c : CLine} : s₀.KeepsPair (State.ownerData s c) :=
  (.ite (.mk hs.draw) (.mk hs))

theorem State.Keeps.answerSnoop (hs : s₀.Keeps s) {f : Nat} {b : Beat} : s₀.Keeps (State.answerSnoop s f b) := by
  simp only [State.answerSnoop]
  split
  · exact hs.setCline.partnerBeat
  · exact hs.ownerData.snd.setCline.partnerBeat
  · exact hs.partnerBeat

theorem State.Keeps.evictLine (hs : s₀.Keeps s) {f line : Nat} : s₀.Keeps (State.evictLine s f line) := by
  simp only [State.evictLine]
  split
  · exact (.ite hs.silent hs.silent.ownerData.snd.setCline.partnerBeat.partnerBeat)
  · exact (.ite hs.silent hs.silent.ownerData.snd.setCline.partnerBeat.partnerBeat)
  · exact (.ite hs.silent hs.silent.setCline.partnerBeat)
  · exact hs.silent

theorem State.Keeps.recallStep (hs : s₀.Keeps s) {f : Nat} : s₀.Keeps (State.recallStep s f) := by
  have h1 : s₀.Keeps ((SMap.get [] s.recalls f).foldl (fun s r => r.lines.foldl (fun s l => s.evictLine f l) s) s) :=
    hs.foldl fun _ _ hs => hs.foldl fun _ _ hs => hs.evictLine
  exact (List.foldlRecOn (motive := fun acc : State × List PortRecall => s₀.Keeps acc.1) _ _ h1 fun acc hs r _ => by
    split
    · exact hs.partnerBeat
    · exact hs).upd

theorem State.Keeps.bucketRecall (hs : s₀.Keeps s) {f : Nat} {b : Beat} : s₀.Keeps (State.bucketRecall s f b) :=
  (hs.foldl fun _ _ hs => (.ite hs.setCline (.ite hs.setCline hs))).upd

theorem execCacheSnoop_keeps (hs : s₀.Keeps s) {fid : Fid} : s₀.KeepsOut (execCacheSnoop fid s) := by
  simp only [execCacheSnoop]
  exact (.ite .fault (by split; exact (.next hs.recallStep); exact (.ite (.next hs.setNi.bucketRecall.recallStep) (.ite (.next hs) (.next hs.silent.setNi.answerSnoop.recallStep)))))

theorem State.Keeps.compAck (hs : s₀.Keeps s) {f : Nat} {tag : BitVec 12} {peer : Fid} : s₀.Keeps (State.compAck s f tag peer) :=
  hs.partnerBeat

theorem State.Keeps.settle (hs : s₀.Keeps s) {f line : Nat} {c : CLine} {peer : Fid} : s₀.Keeps (State.settle s f line c peer) :=
  (.ite hs.setCline.compAck hs.setCline)

theorem State.Keeps.passDone (hs : s₀.Keeps s) {f : Nat} {tag : BitVec 12} : s₀.Keeps (State.passDone s f tag) :=
  hs.upd

theorem State.Keeps.lineAnswer (hs : s₀.Keeps s) {f line : Nat} {c : CLine} {b : Beat} : s₀.Keeps (State.lineAnswer s f line c b) :=
  (.ite (.ite hs.passDone hs) (.ite (.ite hs.setCline.compAck (.ite hs.setCline.compAck (.ite hs.settle hs))) (.ite (.ite hs.settle (.ite hs.settle hs)) (.ite (.ite hs.settle hs) (.ite (.ite hs.setCline hs) (.ite (.ite hs.setCline hs) (.ite (.ite hs.setCline hs.setCline) hs)))))))

theorem execCacheAnswer_keeps (hs : s₀.Keeps s) {fid : Fid} : s₀.KeepsOut (execCacheAnswer fid s) := by
  simp only [execCacheAnswer]
  exact (.ite .fault (by split; exact (.next hs); exact (.ite (.next hs) (by split; exact (.next hs.setNi.lineAnswer.recallStep); exact (.next hs.setNi)))))

theorem State.Keeps.overrideUsed (hs : s₀.Keeps s) {f opc : Nat} {sd : Option Nat} : s₀.Keeps (State.overrideUsed s f opc sd) :=
  (.ite hs.bump.raiseNi hs)

theorem State.Keeps.denied (hs : s₀.Keeps s) {f : Nat} {pre : Bool} {src : Nat} {sd : Option Nat} {opc cause entry pa : Nat} : s₀.Keeps (State.denied s f pre src sd opc cause entry pa) := by
  have h1 : s₀.Keeps (if sd = some 15 then (s.bump .RK_DENY_CNT rkBase).bump .RK_DBG_DENY_CNT rkBase else s.bump .RK_DENY_CNT rkBase) :=
    .ite hs.bump.bump hs.bump
  unfold State.denied
  exact h1.latchWords.count.raiseNi

theorem State.Keeps.unmapped (hs : s₀.Keeps s) {f : Nat} : s₀.Keeps (State.unmapped s f) :=
  hs.bump.raiseNi

theorem State.Keeps.ruleCopy (hs : s₀.Keeps s) {src dst i : Nat} : s₀.Keeps (State.ruleCopy s src dst i) :=
  hs.setTab.setTab

theorem State.Keeps.ruleRepair (hs : s₀.Keeps s) {bad : BitVec 5} {i : Nat} {inj : Bool} : s₀.Keeps (State.ruleRepair s bad i inj) := by
  unfold State.ruleRepair
  split
  · exact (.ite ((hs.foldl fun _ _ hs => hs.setTab.setTab).raiseSpine) (hs.foldl fun _ _ hs => hs.ruleCopy.bump.raiseSpine))
  · exact (.foldl (.ite hs.ruleCopy.latchWords hs) fun _ _ hs => hs.ruleCopy.bump.raiseSpine)

theorem State.Keeps.ruleEcc (hs : s₀.Keeps s) {f : Nat} {ep : Bool} {sl pa opc : Nat} {err : WordErr} : s₀.Keeps (State.ruleEcc s f ep sl pa opc err) := by
  simp only [State.ruleEcc]
  exact (.ite hs (by split; exact (hs.checkWord.of_eq ‹_›); exact (hs.checkWord.of_eq ‹_›).bump; exact (hs.checkWord.of_eq ‹_›).ruleRepair))

theorem execReplicaRepair_keeps (hs : s₀.Keeps s) {copies : BitVec 5} {index : BitVec 13} : s₀.KeepsOut (execReplicaRepair copies index s) :=
  (.ite (.next hs) (.next hs.ruleRepair))

theorem State.Keeps.hubTook (hs : s₀.Keeps s)  : s₀.Keeps (State.hubTook s) :=
  hs.upd

theorem State.Keeps.csaRefuse (hs : s₀.Keeps s) {src : Nat} {sd : Option Nat} {write : Bool} {off cause : Nat} : s₀.Keeps (State.csaRefuse s src sd write off cause) :=
  hs.bump.latchWords

theorem State.Keeps.hubJudge (hs : s₀.Keeps s) {src : Nat} {sd : Option Nat} {write : Bool} {off : Nat} : s₀.KeepsPair (State.hubJudge s src sd write off) :=
  (.ite (.mk hs.csaRefuse) (.ite (.mk hs.csaRefuse) (.ite (.mk hs) (.mk hs))))

theorem State.Keeps.portBytes (hs : s₀.Keeps s) {f dir n : Nat} : s₀.Keeps (State.portBytes s f dir n) :=
  (.ite hs (.ite hs.count.upd hs.count))

theorem State.Keeps.present (hs : s₀.Keeps s) {f : Nat} {bs : List Beat} : s₀.Keeps (State.present s f bs) :=
  (.ite hs.updNi.portBytes hs)

theorem State.Keeps.linkCheck (hs : s₀.Keeps s) {f : Nat} : s₀.Keeps (State.linkCheck s f) :=
  (.ite hs.setNi hs)

theorem State.Keeps.linkOn (hs : s₀.Keeps s) {f : Nat} : s₀.Keeps (State.linkOn s f) :=
  (.ite (.ite hs.setNi hs.setNi) hs)

theorem State.Keeps.startLink (hs : s₀.Keeps s) {f : Nat} : s₀.Keeps (State.startLink s f) :=
  (.ite hs hs.setNi.linkOn)

theorem State.Keeps.safReclaim (hs : s₀.Keeps s) {f : Nat} : s₀.Keeps (State.safReclaim s f) :=
  hs.upd.updNi

theorem State.Keeps.ownCompAck (hs : s₀.Keeps s) {f : Nat} {e : SrcEnt} : s₀.Keeps (State.ownCompAck s f e) :=
  hs.send

theorem State.Keeps.closeDone (hs : s₀.Keeps s) {f : Nat} : s₀.Keeps (State.closeDone s f) :=
  (hs.foldl fun _ _ hs => hs.ownCompAck.updNi)

theorem State.Keeps.proxySnoops (hs : s₀.Keeps s) {f : Nat} : s₀.Keeps (State.proxySnoops s f) :=
  (.ite (hs.foldl fun _ _ hs => hs.send) hs)

theorem State.Keeps.answerTargets (hs : s₀.Keeps s) {f status : Nat} : s₀.Keeps (State.answerTargets s f status) := by
  unfold State.answerTargets
  exact (hs.foldl fun _ _ hs => hs.answer).updNi

theorem State.Keeps.dropLines (hs : s₀.Keeps s) {f : Nat} : s₀.Keeps (State.dropLines s f) :=
  hs.upd

theorem State.Keeps.fenceNi (hs : s₀.Keeps s) {f : Nat} : s₀.Keeps (State.fenceNi s f) :=
  (.ite hs (.ite ((hs.setMap.bareFence.setNi.answerTargets.foldl fun _ _ hs => hs.answer).proxySnoops.closeDone.updNi.safReclaim.dropLines.portGone) ((hs.setMap.bareFence.setNi.answerTargets.foldl fun _ _ hs => hs.answer).proxySnoops.closeDone.updNi.safReclaim.dropLines)))

theorem State.Keeps.linkDrop (hs : s₀.Keeps s) {f : Nat} : s₀.Keeps (State.linkDrop s f) :=
  (.ite (.fenceNi (.ite (.portGone (.dropLines (.safReclaim (.ite hs.raiseNi.answerTargets.proxySnoops.closeDone.updNi.setRf hs.raiseNi.answerTargets.proxySnoops.closeDone.updNi)))) (.dropLines (.safReclaim (.ite hs.raiseNi.answerTargets.proxySnoops.closeDone.updNi.setRf hs.raiseNi.answerTargets.proxySnoops.closeDone.updNi))))) (.ite (.portGone (.dropLines (.safReclaim (.ite hs.raiseNi.answerTargets.proxySnoops.closeDone.updNi.setRf hs.raiseNi.answerTargets.proxySnoops.closeDone.updNi)))) (.dropLines (.safReclaim (.ite hs.raiseNi.answerTargets.proxySnoops.closeDone.updNi.setRf hs.raiseNi.answerTargets.proxySnoops.closeDone.updNi)))))

theorem State.Keeps.refuse (hs : s₀.Keeps s) {f : Nat} {h : Beat} {status : Nat} {slice : Nat} : s₀.Keeps (State.refuse s f h status slice) :=
  (.ite hs.countAnswer.present hs.countAnswer.updNi)

theorem State.Keeps.badReq (hs : s₀.Keeps s) {f : Nat} {h : Beat} : s₀.Keeps (State.badReq s f h) :=
  hs.captureNi.raiseNi.refuse

theorem State.Keeps.captureTs (hs : s₀.Keeps s) {f : Nat} {egress : Bool} {p : Pkt} : s₀.Keeps (State.captureTs s f egress p) :=
  (.ite hs hs.latchWords)

theorem State.Keeps.holdOrRefuse (hs : s₀.Keeps s) {f : Nat} {p : Pkt} : s₀.KeepsPair (State.holdOrRefuse s f p) :=
  (.ite (.mk hs.holdPkt) (.mk (.count (.ite hs.bump hs))))

theorem State.Keeps.setSrc (hs : s₀.Keeps s) {f i : Nat} {e : Option SrcEnt} : s₀.Keeps (State.setSrc s f i e) :=
  hs.updNi

theorem State.Keeps.progress (hs : s₀.Keeps s) {f t : Nat} {cnt : Nat} {ops : List Word64} : s₀.Keeps (State.progress s f t cnt ops) := by
  unfold State.progress
  split
  · exact hs
  · exact (.ite hs.present.updNi.present.countAnswer.updNi hs.present.updNi)

theorem State.Keeps.pieceDone (hs : s₀.Keeps s) {f i : Nat} {status : Nat} {data : Option (List Byte × Word64 × Bool)} {cnt : Nat} {ops : List Word64} : s₀.Keeps (State.pieceDone s f i status data cnt ops) := by
  unfold State.pieceDone
  split
  · exact hs
  · exact hs.setSrc.progress

theorem State.Keeps.cohError (hs : s₀.Keeps s) {f i status : Nat} {peer : Fid} : s₀.Keeps (State.cohError s f i status peer) := by
  unfold State.cohError
  split
  · exact hs
  · exact (by split; exact hs.present.countAnswer.updNi; exact hs.setSrc)

theorem State.Keeps.pieceFail (hs : s₀.Keeps s) {f i status : Nat} : s₀.Keeps (State.pieceFail s f i status) := by
  unfold State.pieceFail
  split
  · exact hs
  · exact (.ite hs.setSrc.ownComp (.ite hs.cohError hs.pieceDone))

theorem State.Keeps.sleepCheck (hs : s₀.Keeps s) {f i : Nat} : s₀.Keeps (State.sleepCheck s f i) := by
  unfold State.sleepCheck
  split
  · exact hs
  · exact (.ite (.ite hs.count.pieceFail hs) (.ite hs (by split; exact (hs.holdOrRefuse.of_eq ‹_›).setSrc; exact (hs.holdOrRefuse.of_eq ‹_›).pieceFail)))

theorem execP2fLinkRise_keeps (hs : s₀.Keeps s) {fid : Fid} : s₀.KeepsOut (execP2fLinkRise fid s) :=
  (.ite .fault (.ite (.next hs) (.ite (.next hs.updNi) (.ite (.next hs.updNi.startLink) (.next hs.updNi.linkOn)))))

theorem execP2fLinkFall_keeps (hs : s₀.Keeps s) {fid : Fid} : s₀.KeepsOut (execP2fLinkFall fid s) := by
  simp only [execP2fLinkFall]
  exact (.ite .fault (.ite (.next hs) (.ite (.next hs.updNi) (by split; exact (.next hs.updNi.setNi); exact (.next hs.updNi.setNi); exact (.next hs.updNi.setNi); exact (.next hs.updNi.linkDrop); exact (.next hs.updNi)))))

theorem State.Keeps.linkFail (hs : s₀.Keeps s) {f : Nat} {st : LinkState} : s₀.Keeps (State.linkFail s f st) :=
  hs.updNi.raiseNi

theorem execSlCapReceive_keeps (hs : s₀.Keeps s) {sl : Fin 6} {cap : BitVec 32} : s₀.KeepsOut (execSlCapReceive sl cap s) := by
  simp only [execSlCapReceive]
  exact (.ite (.next hs) (by split; exact (.next hs.setReg.linkFail); exact (.ite (.next hs.setReg.linkFail) (.next hs.setReg.setReg.setNi))))

theorem execLinkTimeout_keeps (hs : s₀.Keeps s) {fid : Fid} : s₀.KeepsOut (execLinkTimeout fid s) :=
  (.ite .fault (.ite (.next hs.linkFail) (.next hs)))

theorem execP2fBeat_keeps (hs : s₀.Keeps s) {fid : Fid} {beat : Beat} : s₀.KeepsOut (execP2fBeat fid beat s) := by
  unfold execP2fBeat
  exact (.ite .fault (.ite (.next hs) (.ite (.next hs.wakeLevel) (.ite (.next hs) (.ite (.next hs) (.ite (.next hs.captureNi.linkDrop.updNi) (.ite (by split; exact (.next hs.partnerBeat.portBytes.cacheRequest); exact (.next hs.partnerBeat.portBytes)) (.ite (.next hs.partnerBeat.portBytes.cacheWbData) (.next hs.partnerBeat.portBytes)))))))))

theorem execCreditReturn_keeps (hs : s₀.Keeps s) {fid : Fid} {net : Net} {toPartner : Bool} : s₀.KeepsOut (execCreditReturn fid net toPartner s) :=
  (.ite .fault (.ite (.next hs) (.ite (.ite (.next hs) (.next hs.setNi.linkCheck)) (.ite (.next hs) (.next hs.setNi.linkCheck)))))

theorem State.Keeps.lateAnswer (hs : s₀.Keeps s) {f : Nat} : s₀.Keeps (State.lateAnswer s f) :=
  hs.bump

theorem State.Keeps.takeBeat (hs : s₀.Keeps s) {f : Nat} {b : Beat} : s₀.Keeps (State.takeBeat s f b) :=
  hs.updNi

theorem State.Keeps.takeCompAck (hs : s₀.Keeps s) {f : Nat} {h : Beat} : s₀.Keeps (State.takeCompAck s f h) := by
  unfold State.takeCompAck
  split
  · exact hs.send.updNi
  · exact hs.lateAnswer

theorem State.Keeps.takeTgtRsp (hs : s₀.Keeps s) {f : Nat} {h : Beat} {rest : List Beat} : s₀.Keeps (State.takeTgtRsp s f h rest) := by
  unfold State.takeTgtRsp
  split
  · exact (.ite hs.send.updNi hs.send.updNi)
  · exact hs.lateAnswer

theorem State.Keeps.takeRsp (hs : s₀.Keeps s) {f : Nat} {msg : List Beat} : s₀.KeepsOpt (State.takeRsp s f msg) := by
  unfold State.takeRsp
  split
  · exact .none
  · exact (.ite .none (.ite (.some ((hs.foldl fun _ _ hs => hs.takeBeat).send)) (.ite (.some ((hs.foldl fun _ _ hs => hs.takeBeat).takeCompAck)) (.some ((hs.foldl fun _ _ hs => hs.takeBeat).takeTgtRsp)))))

theorem State.Keeps.takeSnp (hs : s₀.Keeps s) {f : Nat} {b : Beat} : s₀.KeepsOpt (State.takeSnp s f b) :=
  (.ite .none (.some hs.takeBeat.send))

theorem State.Keeps.joinData (hs : s₀.Keeps s) {f : Nat} {x : Trans} {b : Beat} : s₀.Keeps (State.joinData s f x b) :=
  (.ite hs.setNi hs.setNi)

theorem State.Keeps.dropData (hs : s₀.Keeps s) {f : Nat} {d : BitVec 12 × Nat × Nat × BitVec 6} : s₀.Keeps (State.dropData s f d) :=
  (.ite hs.updNi.present hs.updNi)

theorem State.Keeps.takeDat (hs : s₀.Keeps s) {f : Nat} {b : Beat} : s₀.KeepsOpt (State.takeDat s f b) := by
  unfold State.takeDat
  exact (.ite (by split; exact (.some hs.takeBeat.dropData); exact (.some hs.takeBeat.joinData); exact (.ite .none (.some hs.takeBeat.lateAnswer))) (.ite (.ite .none (.some hs.takeBeat.send)) (.ite .none (by split; exact (.some (.ite hs.takeBeat.send.updNi hs.takeBeat.send.updNi)); exact (.some hs.takeBeat.lateAnswer)))))

theorem State.Keeps.countOp (hs : s₀.Keeps s) {sl opc len : Nat} : s₀.Keeps (State.countOp s sl opc len) :=
  (.ite (.countSlice (.ite hs.countSlice.countSlice (.ite hs.countSlice.countSlice hs.countSlice))) (.ite (.countSlice (.ite hs.countSlice.countSlice (.ite hs.countSlice.countSlice hs.countSlice))) (.ite (.countSlice (.ite hs.countSlice.countSlice (.ite hs.countSlice.countSlice hs.countSlice))) (.ite (.countSlice (.ite hs.countSlice.countSlice (.ite hs.countSlice.countSlice hs.countSlice))) (.ite hs.countSlice.countSlice (.ite hs.countSlice.countSlice hs.countSlice))))))

theorem State.Keeps.enter (hs : s₀.Keeps s) {f : Nat} {h : Beat} {ops : List Word64} {sl : Nat} {sd : Option Nat} {tc : BitVec 2} {ep : Bool} {ps : List (Nat × Nat × Nat)} : s₀.Keeps (State.enter s f h ops sl sd tc ep ps) :=
  (hs.setNi.count.countOp.foldl fun _ _ hs => hs.captureTs.sleepCheck)

theorem State.Keeps.takeReq (hs : s₀.Keeps s) {f : Nat} {msg : List Beat} : s₀.KeepsOpt (State.takeReq s f msg) := by
  simp only [State.takeReq]
  split
  · exact .none
  · exact (.ite .none (.ite (.some ((hs.foldl fun _ _ hs => hs.takeBeat).badReq)) (.ite (.some ((hs.foldl fun _ _ hs => hs.takeBeat).refuse)) (.ite (.some ((hs.foldl fun _ _ hs => hs.takeBeat).badReq)) (.ite .none (by split; exact (.some ((hs.foldl fun _ _ hs => hs.takeBeat).unmapped.refuse)); exact (.ite .none (.ite (.some ((hs.foldl fun _ _ hs => hs.takeBeat).refuse)) (.ite (.some ((hs.foldl fun _ _ hs => hs.takeBeat).bump.count.refuse)) (by split; exact (.some ((hs.foldl fun _ _ hs => hs.takeBeat).denied.refuse)); exact (.ite (.some ((hs.foldl fun _ _ hs => hs.takeBeat).bump.count.refuse)) (.ite .none (.some ((hs.foldl fun _ _ hs => hs.takeBeat).overrideUsed.enter))))))))))))))

theorem State.Keeps.takeChecked (hs : s₀.Keeps s) {f : Nat} {m : List Beat} {table rule : WordErr} : s₀.KeepsOpt (State.takeChecked s f m table rule) := by
  unfold State.takeChecked
  split
  · exact (by split; exact (.ite (.some ((hs.tableCheck.of_eq ‹_›).fenceNi)) ((hs.tableCheck.of_eq ‹_›).takeReq)); exact (hs.tableCheck.of_eq ‹_›).ruleEcc.takeReq)
  · exact .none

theorem execIngressAccept_keeps (hs : s₀.Keeps s) {fid : Fid} {table rule : WordErr} : s₀.KeepsOut (execIngressAccept fid table rule s) := by
  unfold execIngressAccept
  exact .ite .fault (.ite (.next hs) (.next (State.KeepsOpt.getD (.orElse (.ite .none (.bind fun _ => hs.takeRsp)) (.orElse (.ite .none (.bind fun _ =>
    hs.takeSnp)) (.orElse (.ite .none (.findSome fun _ => hs.takeDat)) (by split; exact hs.takeChecked; exact .none)))) hs)))

theorem State.Keeps.noteOld (hs : s₀.Keeps s) {f : Nat} {p : Pkt} : s₀.Keeps (State.noteOld s f p) :=
  (.ite hs hs.updNi)

theorem State.Keeps.streamTake (hs : s₀.Keeps s) {f : Nat} {p : Pkt} : s₀.Keeps (State.streamTake s f p) :=
  (.ite hs hs.updNi)

theorem State.Keeps.streamLeave (hs : s₀.Keeps s) {f : Nat} {p : Pkt} : s₀.Keeps (State.streamLeave s f p) :=
  (.ite hs hs.updNi)

theorem State.Keeps.pushHeld (hs : s₀.Keeps s) {f : Nat} {ps : List Pkt} : s₀.Keeps (State.pushHeld s f ps) := by
  unfold State.pushHeld
  split
  · exact hs
  · exact (.ite hs.updNi (hs.foldl fun _ _ hs => hs.noteOld.push))

theorem State.Keeps.sendOrdered (hs : s₀.Keeps s) {f : Nat} {p : Pkt} {data : List Pkt} : s₀.Keeps (State.sendOrdered s f p data) :=
  (.ite hs.streamTake.pushHeld (.ite hs.streamTake.holdPkt.updNi (.ownComp (.count (.ite hs.streamTake.bump hs.streamTake)))))

theorem execEpochHoldRelease_keeps (hs : s₀.Keeps s) {fid : Fid} : s₀.KeepsOut (execEpochHoldRelease fid s) := by
  simp only [execEpochHoldRelease]
  exact (.ite .fault (by split; exact (.next hs); exact (.next (hs.setNi.foldl fun _ _ hs => hs.noteOld.push))))

theorem State.Keeps.issue (hs : s₀.Keeps s) {f i : Nat} {e : SrcEnt} : s₀.Keeps (State.issue s f i e) :=
  (.ite hs.streamTake.setSrc.updNi.pushHeld (.pushHeld (.setSrc (.ite hs.streamTake.updNi hs.streamTake))))

theorem execPieceIssue_keeps (hs : s₀.Keeps s) {fid : Fid} : s₀.KeepsOut (execPieceIssue fid s) := by
  simp only [execPieceIssue]
  exact (.ite .fault (.ite (.next hs) (by split; exact (.next hs.issue); exact (.next hs))))

theorem State.Keeps.endCoh (hs : s₀.Keeps s) {f i : Nat} {e : SrcEnt} : s₀.Keeps (State.endCoh s f i e) :=
  hs.updNi

theorem State.Keeps.lostAnswer (hs : s₀.Keeps s) {f i : Nat} {e : SrcEnt} {p : Pkt} : s₀.Keeps (State.lostAnswer s f i e p) :=
  (.ite (.ite hs.ownCompAck.setSrc hs.setSrc) (.ite hs.ownCompAck.streamLeave.setSrc (.ite hs hs.streamLeave.setSrc)))

theorem State.Keeps.nacked (hs : s₀.Keeps s) {f i : Nat} {e : SrcEnt} {p : Pkt} : s₀.Keeps (State.nacked s f i e p) :=
  hs.setSrc.streamLeave

theorem State.Keeps.cohAnswer (hs : s₀.Keeps s) {f i : Nat} {e : SrcEnt} {x : Trans} {p : Pkt} : s₀.Keeps (State.cohAnswer s f i e x p) :=
  (.ite (.setSrc (.present (.ite hs hs.streamLeave))) (.ite (.cohError (.ite hs hs.streamLeave)) (.ite (.endCoh (.present (.ite hs hs.streamLeave))) (.endCoh (.present (.ite hs hs.streamLeave))))))

theorem State.Keeps.deqStep (hs : s₀.Keeps s) {f i : Nat} {e : SrcEnt} : s₀.Keeps (State.deqStep s f i e) := by
  unfold State.deqStep
  split
  · exact (.ite hs.pieceDone hs.setSrc)
  · exact hs.setSrc

theorem State.Keeps.seqBook (hs : s₀.Keeps s) {f i : Nat} {e : SrcEnt} {p : Pkt} : s₀.KeepsPair (State.seqBook s f i e p) := by
  unfold State.seqBook
  exact (.ite (.mk hs) (.ite (.mk (by split; exact hs.setSrc.updNi.push; exact hs.setSrc.updNi)) (.mk (.ite (.updNi (.ite hs.updNi hs)) (.ite hs.updNi hs)))))

theorem State.Keeps.compAnswer (hs : s₀.Keeps s) {f i : Nat} {e : SrcEnt} {p : Pkt} : s₀.Keeps (State.compAnswer s f i e p) :=
  (.ite hs.streamLeave.deqStep hs.streamLeave.pieceDone)

theorem State.Keeps.entAnswer (hs : s₀.Keeps s) {f i : Nat} {e : SrcEnt} {p : Pkt} : s₀.Keeps (State.entAnswer s f i e p) := by
  unfold State.entAnswer
  exact (.ite (.ite hs.streamLeave.setSrc hs.nacked) (by split; exact (hs.seqBook.of_eq ‹_›); exact (.ite (.ite ((hs.seqBook.of_eq ‹_›).ownCompAck.streamLeave.setSrc) ((hs.seqBook.of_eq ‹_›).streamLeave.setSrc)) (.ite ((hs.seqBook.of_eq ‹_›).lostAnswer) (by split; exact (hs.seqBook.of_eq ‹_›).setSrc; exact (.ite ((hs.seqBook.of_eq ‹_›).cohAnswer) (.ite (.ite ((hs.seqBook.of_eq ‹_›).present.deqStep) (.pieceDone (.streamLeave (.ite ((hs.seqBook.of_eq ‹_›).ownCompAck) (hs.seqBook.of_eq ‹_›))))) ((hs.seqBook.of_eq ‹_›).compAnswer))))))))

theorem execPieceAnswer_keeps (hs : s₀.Keeps s) {fid : Fid} : s₀.KeepsOut (execPieceAnswer fid s) := by
  simp only [execPieceAnswer]
  exact (.ite .fault (by split; exact (.next hs); exact (.ite (.next hs.setNi.updNi) (by split; exact (.ite (.next hs.setNi.entAnswer) (.next hs.setNi.lateAnswer)); exact (.next hs.setNi.lateAnswer)))))

theorem State.Keeps.redirect (hs : s₀.Keeps s) {f i : Nat} {e : SrcEnt} : s₀.Keeps (State.redirect s f i e) := by
  simp only [State.redirect]
  split
  · exact hs.ruleEcc.denied.pieceFail
  · exact hs.ruleEcc.setSrc.sleepCheck

theorem execNackReissue_keeps (hs : s₀.Keeps s) {fid : Fid} {entry : BitVec 8} : s₀.KeepsOut (execNackReissue fid entry s) := by
  simp only [execNackReissue]
  exact (.ite .fault (by split; exact (.next hs); exact (.ite (.next hs) (by split; exact (.ite (.next hs.redirect.issue) (.next hs.redirect)); exact (.next hs.redirect)))))

theorem execTgtTrackerExpire_keeps (hs : s₀.Keeps s) {fid : Fid} {entry : BitVec 8} : s₀.KeepsOut (execTgtTrackerExpire fid entry s) := by
  unfold execTgtTrackerExpire
  exact (.ite .fault (by split; exact (.next hs); exact (.ite (.next hs) (.ite (.next hs.bump.updNi) (.next hs.bump.updNi.answer)))))

theorem execHoldTimeout_keeps (hs : s₀.Keeps s) {fid : Fid} : s₀.KeepsOut (execHoldTimeout fid s) := by
  simp only [execHoldTimeout]
  exact (.ite .fault (by split; exact (.next hs); exact (.ite (.next hs) (.ite (.next hs.setNi.count.pieceFail) (.next hs.setNi.count.ownComp)))))

theorem State.Keeps.reinject (hs : s₀.Keeps s) {f : Nat} {p : Pkt} {data : List Pkt} : s₀.Keeps (State.reinject s f p data) := by
  simp only [State.reinject]
  split
  · exact hs.denied.ownComp
  · exact (hs.foldl fun _ _ hs => hs.push)

theorem State.Keeps.releaseHolds (hs : s₀.Keeps s) {f : Nat} : s₀.Keeps (State.releaseHolds s f) := by
  unfold State.releaseHolds
  exact (hs.foldl fun _ _ hs => (.ite hs (.ite (by split; exact (.ite hs.updNi.redirect hs.updNi); exact hs.updNi) hs.updNi.reinject)))

theorem State.Keeps.sramWrite (hs : s₀.Keeps s) {o : Nat} {bs : List Byte} {poison : Bool} : s₀.Keeps (State.sramWrite s o bs poison) := { hs with sram := fun hm => Memory.wf_write _ _ (hs.sram hm) }

theorem State.Keeps.sramZero (hs : s₀.Keeps s) {g : Nat} : s₀.Keeps (State.sramZero s g) := { hs with sram := fun hm => Memory.wf_zero _ _ (hs.sram hm) }

theorem State.Keeps.sramCapture (hs : s₀.Keeps s) {k w : Nat} {localPort scrub : Bool} : s₀.Keeps (State.sramCapture s k w localPort scrub) :=
  hs.latchWords

theorem State.Keeps.wordCheck (hs : s₀.Keeps s) {w : Nat} {err : WordErr} : s₀.KeepsTriple (State.wordCheck s w err) := by
  simp only [State.wordCheck]
  split
  · exact (.mk (.mk hs.checkWord.snd))
  · exact (.ite (.mk (.mk hs.checkWord.snd)) (.mk (.mk hs.checkWord.snd.bump.count)))
  · exact (.ite (.mk (.mk hs.checkWord.snd)) (.mk (.mk hs.checkWord.snd.upd)))

theorem State.Keeps.wordsCheck (hs : s₀.Keeps s) {ws : List Nat} {localPort scrub : Bool} {errs : WordErrs} : s₀.KeepsPair (State.wordsCheck s ws localPort scrub errs) := by
  unfold State.wordsCheck
  split
  rename_i hits t heq
  have ht : s₀.Keeps t := State.KeepsPair.of_eq (by exact .foldl (.mk hs) fun _ _ hs => .mk hs.snd.wordCheck.snd.snd) heq
  split
  · exact .mk ht
  · exact .mk ht.bump.sramCapture.raiseNi

theorem State.Keeps.sramCheck (hs : s₀.Keeps s) {o n : Nat} {localPort scrub : Bool} {errs : WordErrs} : s₀.KeepsPair (State.sramCheck s o n localPort scrub errs) :=
  hs.wordsCheck

theorem State.Keeps.regionDeny (hs : s₀.Keeps s) {o master : Nat} {wr localPort : Bool} : s₀.Keeps (State.regionDeny s o master wr localPort) :=
  hs.bump.count.latchWords.raiseNi

theorem State.Keeps.setCl (hs : s₀.Keeps s) {k : Nat} {c : Ecl} : s₀.Keeps (State.setCl s k c) :=
  hs.upd

theorem State.Keeps.updCl (hs : s₀.Keeps s) {k : Nat} {g : Ecl → Ecl} : s₀.Keeps (State.updCl s k g) :=
  hs.setCl

theorem State.Keeps.setThr (hs : s₀.Keeps s) {k i : Nat} {x : Thr} : s₀.Keeps (State.setThr s k i x) :=
  hs.updCl

theorem State.Keeps.updThr (hs : s₀.Keeps s) {k i : Nat} {g : Thr → Thr} : s₀.Keeps (State.updThr s k i g) :=
  hs.setThr

theorem State.Keeps.lsWrite (hs : s₀.Keeps s) {k off : Nat} {bs : List Byte} {poison : Bool} : s₀.Keeps (State.lsWrite s k off bs poison) := { hs with lsram := fun hm => Memory.wf_write _ _ (hs.lsram hm) }

theorem State.Keeps.lsZero (hs : s₀.Keeps s) {k : Nat} : s₀.Keeps (State.lsZero s k) := { hs with lsram := fun hm => Memory.wf_zero _ _ (hs.lsram hm) }

theorem State.Keeps.clCapture (hs : s₀.Keeps s) {k w : Nat} {istore : Bool} : s₀.Keeps (State.clCapture s k w istore) :=
  hs.latchWords

theorem State.Keeps.lsWord (hs : s₀.Keeps s) {k w : Nat} {err : WordErr} : s₀.KeepsTriple (State.lsWord s k w err) := by
  simp only [State.lsWord]
  split
  · exact (.mk (.mk hs.checkWord.snd))
  · exact (.ite (.mk (.mk hs.checkWord.snd)) (.mk (.mk hs.checkWord.snd.bump)))
  · exact (.ite (.mk (.mk hs.checkWord.snd)) (.mk (.mk hs.checkWord.snd.upd)))

theorem State.Keeps.lsCheck (hs : s₀.Keeps s) {k off n : Nat} {errs : WordErrs} : s₀.KeepsPair (State.lsCheck s k off n errs) := by
  unfold State.lsCheck
  split
  rename_i hits t heq
  have ht : s₀.Keeps t := State.KeepsPair.of_eq (by exact .foldl (.mk hs) fun _ _ hs => .mk hs.snd.lsWord.snd.snd) heq
  split
  · exact .mk ht
  · exact .mk ht.bump.clCapture.raiseNi

theorem State.Keeps.countTrap (hs : s₀.Keeps s) {k i : Nat} : s₀.Keeps (State.countTrap s k i) :=
  hs.bump.count

theorem State.Keeps.trapHalt (hs : s₀.Keeps s) {k i cause status epc : Nat} {taddr : Word64} : s₀.Keeps (State.trapHalt s k i cause status epc taddr) :=
  hs.updThr.latchWords.raiseNi

theorem State.Keeps.takeTrap (hs : s₀.Keeps s) {k i cause status epc : Nat} {taddr : Word64} : s₀.Keeps (State.takeTrap s k i cause status epc taddr) :=
  (.ite hs.trapHalt hs.setThr.countTrap)

theorem State.Keeps.deferTrap (hs : s₀.Keeps s) {k i cause status : Nat} {taddr : Word64} : s₀.Keeps (State.deferTrap s k i cause status taddr) :=
  hs.updThr

theorem State.Keeps.sampleEnd (hs : s₀.Keeps s) {k : Nat} {req pair : Option Nat} {trap : Bool} : s₀.Keeps (State.sampleEnd s k req pair trap) :=
  hs.updCl

theorem State.Keeps.reqFinish (hs : s₀.Keeps s) {k : Nat} {r : EReq} : s₀.Keeps (State.reqFinish s k r) := by
  unfold State.reqFinish
  exact (.sampleEnd (by split; exact (.ite hs.updCl.updThr hs.updCl.updThr.deferTrap); exact (.ite hs.updCl.updThr hs.updCl.updThr.deferTrap); exact (.ite hs.updCl.updThr hs.updCl.updThr.deferTrap); exact (.ite hs.updCl.updThr hs.updCl.updThr.deferTrap); exact hs.updCl.updThr; exact hs.updCl.updThr; exact (.ite hs.updCl hs.updCl.deferTrap)))

theorem State.Keeps.partDone (hs : s₀.Keeps s) {k id off status : Nat} {bytes : List Byte} {poison : Bool} : s₀.Keeps (State.partDone s k id off status bytes poison) := by
  unfold State.partDone
  split
  · exact hs
  · exact (.ite (.reqFinish (by split; exact (.ite hs hs.lsWrite); exact (.ite hs hs.lsWrite); exact hs)) (.updCl (by split; exact (.ite hs hs.lsWrite); exact (.ite hs hs.lsWrite); exact hs)))

theorem State.Keeps.newReq (hs : s₀.Keeps s) {k : Nat} {r : EReq} : s₀.KeepsPair (State.newReq s k r) :=
  (.mk hs.updCl)

theorem State.Keeps.engCheck (hs : s₀.Keeps s) {k sl pa opc : Nat} : s₀.KeepsPair (State.engCheck s k sl pa opc) := by
  simp only [State.engCheck]
  split
  · exact (.mk hs.ruleEcc.denied)
  · exact (.mk hs.ruleEcc.overrideUsed)

theorem State.Keeps.engSend (hs : s₀.Keeps s) {k sl : Nat} {req off : Nat} {q : Pkt} {data : Option (List Byte × Word64 × Bool)} : s₀.Keeps (State.engSend s k sl req off q data) := by
  simp only [State.engSend]
  split
  · exact hs
  · exact (.ite hs.setSrc.count.countOp.captureTs.pieceFail (.ite hs.setSrc.count.countOp.captureTs.bump.count.pieceFail (by split; exact (.ite hs.setSrc.count.countOp.captureTs.sleepCheck.issue hs.setSrc.count.countOp.captureTs.sleepCheck); exact hs.setSrc.count.countOp.captureTs.sleepCheck)))

theorem State.Keeps.fenceCluster (hs : s₀.Keeps s) {k : Nat} : s₀.Keeps (State.fenceCluster s k) :=
  (.ite hs ((hs.setMap.setMap.bareFence.updCl.upd.setNi.foldl fun _ _ hs => hs.answer).safReclaim))

theorem State.Keeps.spend (hs : s₀.Keeps s) {node : Nat} {net : Net} {port vc : Nat} : s₀.Keeps (State.spend s node net port vc) :=
  (.ite hs hs.upd)

theorem State.Keeps.giveBack (hs : s₀.Keeps s) {node : Nat} {net : Net} {port vc : Nat} : s₀.Keeps (State.giveBack s node net port vc) :=
  (.ite hs hs.upd)

theorem State.Keeps.setBuf (hs : s₀.Keeps s) {node : Nat} {net : Net} {inp vc : Nat} {b : RBuf} : s₀.Keeps (State.setBuf s node net inp vc b) :=
  hs.upd

theorem State.Keeps.creditIn (hs : s₀.Keeps s) {node : Nat} {net : Net} {inp vc : Nat} : s₀.Keeps (State.creditIn s node net inp vc) := by
  unfold State.creditIn
  split
  · exact hs.giveBack
  · exact hs

theorem State.Keeps.flush (hs : s₀.Keeps s) {node : Nat} {net : Net} {inp vc : Nat} : s₀.Keeps (State.flush s node net inp vc) :=
  (.setBuf (.ite (hs.foldl fun _ _ hs => hs.creditIn) ((hs.foldl fun _ _ hs => hs.creditIn).countRtr)))

theorem State.Keeps.flushRouter (hs : s₀.Keeps s) {node : Nat} : s₀.Keeps (State.flushRouter s node) :=
  (hs.foldl fun _ _ hs => (hs.foldl fun _ _ hs => (hs.foldl fun _ _ hs => hs.flush))).upd

theorem State.Keeps.fenceFid (hs : s₀.Keeps s) {f : Nat} : s₀.Keeps (State.fenceFid s f) :=
  (.ite hs.fenceHome (.ite hs.fenceCluster hs.fenceNi))

theorem State.Keeps.fenceRouter (hs : s₀.Keeps s) {node : Nat} : s₀.Keeps (State.fenceRouter s node) :=
  (.ite hs (hs.setMap.bareFence.flushRouter.foldl fun _ _ hs => hs.fenceFid))

theorem State.Keeps.fenceLink (hs : s₀.Keeps s) {node port : Nat} : s₀.Keeps (State.fenceLink s node port) :=
  (.ite hs hs.bareFence.upd)

theorem State.Keeps.discarded (hs : s₀.Keeps s) {node inp code : Nat} {p : Pkt} : s₀.Keeps (State.discarded s node inp code p) :=
  hs.captureRtr.countRtr

theorem State.Keeps.arrive (hs : s₀.Keeps s) {node inp : Nat} {x : Flit} : s₀.Keeps (State.arrive s node inp x) := by
  unfold State.arrive
  exact (.ite hs.creditIn.countRtr (.ite hs.setBuf.creditIn (by split; exact hs.setBuf.creditIn.discarded.raiseRtr; exact (.ite hs.setBuf.creditIn ((hs.foldl fun _ _ hs => hs.creditIn).setBuf)))))

theorem State.Keeps.refill (hs : s₀.Keeps s) {node : Nat} {net : Net} : s₀.Keeps (State.refill s node net) := by
  unfold State.refill
  exact (hs.foldl fun _ _ hs => (hs.foldl fun _ _ hs => (by split; exact (.ite hs.updNi.arrive hs); exact hs)))

theorem State.Keeps.probeSee (hs : s₀.Keeps s) {node out : Nat} {p : Pkt} : s₀.Keeps (State.probeSee s node out p) :=
  (.ite hs (.ite hs.bump (.ite hs.bump.bump hs.bump.upd)))

theorem State.Keeps.deliver (hs : s₀.Keeps s) {node out : Nat} {x : Flit} : s₀.Keeps (State.deliver s node out x) := by
  unfold State.deliver
  split
  · exact (.ite hs.giveBack.countRtr hs.arrive)
  · exact (by split; exact hs.updNi; exact hs)

theorem State.Keeps.popBuf (hs : s₀.Keeps s) {node : Nat} {net : Net} {inp vc : Nat} {kept : Option (Nat × Pkt)} : s₀.Keeps (State.popBuf s node net inp vc kept) :=
  hs.setBuf.creditIn

theorem State.Keeps.dropFront (hs : s₀.Keeps s) {node : Nat} {net : Net} {inp vc : Nat} : s₀.Keeps (State.dropFront s node net inp vc) := by
  simp only [State.dropFront]
  split
  · exact hs
  · exact (hs.setBuf.foldl fun _ _ hs => hs.creditIn)

theorem State.Keeps.sendFlit (hs : s₀.Keeps s) {node : Nat} {net : Net} {inp vc out : Nat} {outVc : BitVec 2} {x : Flit} {psn : Bool} : s₀.Keeps (State.sendFlit s node net inp vc out outVc x psn) :=
  (.deliver (.ite (.probeSee (.countRtr (.spend (.ite hs.popBuf hs.setBuf)))) (.countRtr (.spend (.ite hs.popBuf hs.setBuf)))))

theorem State.Keeps.routerCheck (hs : s₀.Keeps s) {node inp : Nat} {err : LinkErr} : s₀.KeepsTriple (State.routerCheck s node inp err) :=
  (.ite (.mk (.mk hs)) (.ite (.mk (.mk hs.injUse)) (.ite (.mk (.mk hs.injUse)) (.ite (.mk (.mk hs.injUse)) (.mk (.mk hs))))))

theorem State.Keeps.corrected (hs : s₀.Keeps s) {node : Nat} {net : Net} {cls port : Nat} {inj : Bool} : s₀.Keeps (State.corrected s node net cls port inj) :=
  hs.bump.countRtr.raiseRtr

theorem State.Keeps.checkFront (hs : s₀.Keeps s) {node : Nat} {net : Net} {inp vc : Nat} {x : Flit} {err : LinkErr} : s₀.KeepsPair (State.checkFront s node net inp vc x err) := by
  simp only [State.checkFront]
  split
  · exact (.ite (.mk hs.routerCheck.snd.dropFront.discarded.raiseRtr) (.mk hs.routerCheck.snd.corrected))
  · exact (.ite (.ite (.mk (.raiseRtr (.discarded (.dropFront (.ite hs.routerCheck.snd hs.routerCheck.snd.captureRtr.raiseRtr))))) (.mk (.ite hs.routerCheck.snd hs.routerCheck.snd.captureRtr.raiseRtr))) (.mk hs.routerCheck.snd.dropFront.discarded.raiseRtr))
  · exact (.ite (.mk hs.routerCheck.snd.dropFront.discarded.raiseRtr.fenceRouter) (.mk hs.routerCheck.snd))
  · exact (.ite (.mk hs.routerCheck.snd.dropFront.discarded.raiseRtr) (.mk hs.routerCheck.snd.corrected))
  · exact (.ite (.mk hs.routerCheck.snd.dropFront.discarded.raiseRtr) (.mk hs.routerCheck.snd.corrected))
  · exact (.ite (.mk hs.routerCheck.snd.dropFront.discarded.raiseRtr) (.mk hs.routerCheck.snd))
  · exact (.ite (.mk hs.routerCheck.snd.dropFront.discarded.raiseRtr) (.mk hs.routerCheck.snd))

theorem State.Keeps.clearWait (hs : s₀.Keeps s) {node : Nat} {net : Net} {out idx : Nat} : s₀.Keeps (State.clearWait s node net out idx) :=
  (.dite (fun _ => hs.setArb) (fun _ => hs))

theorem State.Keeps.escape (hs : s₀.Keeps s) {node : Nat} {net : Net} {inp vc : Nat} : s₀.Keeps (State.escape s node net inp vc) := by
  simp only [State.escape]
  split
  · exact hs
  · exact (hs.foldl fun _ _ hs => hs.clearWait).setBuf.countRtr

theorem State.Keeps.missSlot (hs : s₀.Keeps s) {node : Nat} {net : Net} {inp : Nat} : s₀.Keeps (State.missSlot s node net inp) :=
  (.ite hs.escape.bump.countRtr hs)

theorem execEscapeMove_keeps (hs : s₀.Keeps s) {node : Fin 144} {net : Net} {inp : Fin 7} {vc : BitVec 2} : s₀.KeepsOut (execEscapeMove node net inp vc s) :=
  (.ite (.next hs) (.ite (.next (.ite hs.missSlot hs)) (.ite (.next hs.escape) (.next hs))))

theorem State.Keeps.slotServe (hs : s₀.Keeps s) {node : Nat} {net : Net} {out : Nat} {c : Nat × Flit} {err : LinkErr} : s₀.Keeps (State.slotServe s node net out c err) := by
  unfold State.slotServe
  split
  · exact (hs.checkFront.of_eq ‹_›).sendFlit.countRtr
  · exact (hs.checkFront.of_eq ‹_›)

theorem State.Keeps.slotMisses (hs : s₀.Keeps s) {node : Nat} {net : Net} {out : Nat} {served : Option Nat} : s₀.Keeps (State.slotMisses s node net out served) := by
  unfold State.slotMisses
  exact (hs.foldl fun _ _ hs => (by split; exact (.ite hs.missSlot hs); exact hs))

theorem State.Keeps.hopCount (hs : s₀.Keeps s) {node : Fin 144} {net : Net} {out : Fin 7} {sent : Nat} : s₀.Keeps (State.hopCount s node net out sent) :=
  (.ite (.countRtr (.ite hs.countRtr hs)) (.ite hs.countRtr hs))

theorem State.Keeps.hopArb (hs : s₀.Keeps s) {node : Fin 144} {net : Net} {out : Fin 7} {err : LinkErr} : s₀.Keeps (State.hopArb s node net out err) := by
  unfold State.hopArb
  extract_lets rs s1
  have h1 : s₀.Keeps s1 := hs.hopCount
  split
  · exact h1.arbitrate.of_eq ‹_›
  · rename_i r s2 heq
    have h2 : s₀.Keeps s2 := h1.arbitrate.of_eq heq
    split
    · exact h2
    · split
      · exact h2
      · dsimp only
        split
        · exact (h2.checkFront.of_eq ‹_›).endGrant
        · rename_i s3 heq
          have h3 : s₀.Keeps s3 := h2.checkFront.of_eq heq
          exact .ite h3.sendFlit.endGrant h3.sendFlit

theorem State.Keeps.hop (hs : s₀.Keeps s) {node : Fin 144} {net : Net} {out : Fin 7} {err : LinkErr} : s₀.Keeps (State.hop s node net out err) := by
  unfold State.hop
  exact (.ite hs.refill (by split; exact hs.refill.hopCount.slotServe.arbSlot.slotMisses; exact hs.refill.slotMisses.hopArb))

theorem execRouterHop_keeps (hs : s₀.Keeps s) {node : Fin 144} {net : Net} {out : Fin 7} {err : LinkErr} {table : WordErr} : s₀.KeepsOut (execRouterHop node net out err table s) := by
  unfold execRouterHop
  exact (.ite (.next hs) (by split; exact (.next ((hs.tableCheck.of_eq ‹_›).fenceRouter)); exact (.next ((hs.tableCheck.of_eq ‹_›).bump.countRtr.hop)); exact (.next ((hs.tableCheck.of_eq ‹_›).hop))))

theorem execOldMark_keeps (hs : s₀.Keeps s) {place : Holder} : s₀.KeepsOut (execOldMark place s) := by
  simp only [execOldMark]
  split
  · exact (.ite (.next hs.setBuf) (.next hs))
  · exact (.ite .fault (.ite (.next hs.updNi) (.next hs)))
  · exact (.ite .fault (by split; exact (.next hs.setNi); exact (.next hs)))

theorem execWatchdogExpire_keeps (hs : s₀.Keeps s) {node : Fin 144} {net : Net} {inp : Fin 7} {vc : BitVec 2} : s₀.KeepsOut (execWatchdogExpire node net inp vc s) := by
  simp only [execWatchdogExpire]
  split
  · exact (.ite (.next hs) (.next hs.captureRtr.raiseRtr.fenceRouter))
  · exact (.next hs)

theorem execArbWindowEnd_keeps (hs : s₀.Keeps s)  : s₀.KeepsOut (execArbWindowEnd s) := by
  unfold execArbWindowEnd
  exact (.next (hs.foldl fun _ _ hs => (by split; exact (.ite hs.setArb hs); exact hs)))

theorem State.Keeps.monitor (hs : s₀.Keeps s) {f : Nat} {p : Pkt} : s₀.Keeps (State.monitor s f p) := by
  unfold State.monitor
  split
  · exact hs
  · exact (.ite hs.count.count.raiseMax.bump.raiseNi.latchWords hs.count.count.raiseMax)

theorem State.Keeps.refuseReq (hs : s₀.Keeps s) {f : Nat} {q : Pkt} {status : Nat} : s₀.Keeps (State.refuseReq s f q status) :=
  hs.answer.sinkData

theorem State.Keeps.badEgress (hs : s₀.Keeps s) {f : Nat} {q : Pkt} : s₀.Keeps (State.badEgress s f q) :=
  hs.captureNi.raiseNi.refuseReq

theorem State.Keeps.presentReq (hs : s₀.Keeps s) {f : Nat} {q : Pkt} : s₀.Keeps (State.presentReq s f q) := by
  unfold State.presentReq
  split
  · exact hs
  · exact (hs.setNi.count.present.foldl fun _ _ hs => hs.present)

theorem State.Keeps.takeArm (hs : s₀.Keeps s) {f : Nat} {q : Pkt} : s₀.Keeps (State.takeArm s f q) :=
  (.ite hs.updNi hs)

theorem State.Keeps.deliverReq (hs : s₀.Keeps s) {f : Nat} {q : Pkt} : s₀.Keeps (State.deliverReq s f q) := by
  simp only [State.deliverReq]
  exact (.ite hs.bump.count.refuseReq (.ite (.ite hs hs.captureNi.raiseNi.refuseReq) (.ite hs.refuseReq (by split; exact (.refuseReq (.denied (.ite hs.ruleEcc hs))); exact (.ite (.takeArm (.ite hs.ruleEcc hs)) (.ite (.ite hs.ruleEcc hs) (.ite (.updNi (.ite hs.ruleEcc hs)) (.ite (.badEgress (.ite hs.ruleEcc hs)) (.ite (.refuseReq (.ite hs.ruleEcc hs)) (.ite (.refuseReq (.count (.bump (.ite hs.ruleEcc hs)))) (.presentReq (.ite hs.ruleEcc hs))))))))))))

theorem State.Keeps.inTurn (hs : s₀.Keeps s) {f : Nat} {q : Pkt} : s₀.Keeps (State.inTurn s f q) :=
  (.deliverReq (.ite hs hs.updNi))

theorem State.Keeps.present1 (hs : s₀.Keeps s) {f : Nat} {p : Pkt} : s₀.Keeps (State.present1 s f p) :=
  hs.monitor.captureTs

theorem execRobRelease_keeps (hs : s₀.Keeps s) {fid : Fid} : s₀.KeepsOut (execRobRelease fid s) := by
  simp only [execRobRelease]
  exact (.ite .fault (by split; exact (.next hs); exact (.ite (.next hs) (.next hs.setNi.present1.inTurn))))

theorem State.Keeps.notForHome (hs : s₀.Keeps s) {f : Nat} {p : Pkt} : s₀.Keeps (State.notForHome s f p) :=
  hs.captureNi.homeProto

theorem State.Keeps.deliverRsp (hs : s₀.Keeps s) {f : Nat} {p : Pkt} : s₀.Keeps (State.deliverRsp s f p) := by
  unfold State.deliverRsp
  exact (.ite hs.setNi (.ite hs.setNi (.ite hs (.ite (.ite hs.setNi (.ite hs.setNi (.ite (.ite hs.present (by split; exact hs.setNi.present; exact hs.lateAnswer)) hs.lateAnswer))) (.ite hs.notForHome hs.setNi)))))

theorem State.Keeps.deliverDat (hs : s₀.Keeps s) {f : Nat} {p : Pkt} {bad : Nat} : s₀.Keeps (State.deliverDat s f p bad) := by
  unfold State.deliverDat
  exact (.ite (.setNi (.ite hs hs.bump)) (.ite (.ite (.notForHome (.ite hs hs.bump)) (.setNi (.ite hs hs.bump))) (.ite (.setNi (.ite hs hs.bump)) (.ite (by split; exact (.present (.ite hs hs.bump)); exact (.ite (.present (.ite hs hs.bump)) (.ite (.ite hs hs.bump) (.setNi (.ite hs hs.bump))))) (.ite (.present (.ite hs hs.bump)) (.lateAnswer (.ite hs hs.bump)))))))

theorem State.Keeps.deliverSnp (hs : s₀.Keeps s) {f : Nat} {p : Pkt} : s₀.Keeps (State.deliverSnp s f p) :=
  (.ite (.ite hs hs.notForHome) (.ite hs (.ite hs.present (.ite hs hs.send))))

theorem State.Keeps.deliverOther (hs : s₀.Keeps s) {f : Nat} {p : Pkt} {bad : Nat} : s₀.Keeps (State.deliverOther s f p bad) := by
  unfold State.deliverOther
  exact (.ite hs.updNi.bump.count (.ite (.ite hs hs.captureNi.raiseNi) (by split; exact hs.deliverRsp; exact hs.deliverSnp; exact hs.deliverDat)))

theorem State.Keeps.leaveEgress (hs : s₀.Keeps s) {f : Nat} {x : Flit} : s₀.Keeps (State.leaveEgress s f x) :=
  hs.updNi.giveBack

theorem State.Keeps.setAsm (hs : s₀.Keeps s) {f k : Nat} {a : Option Asm} : s₀.Keeps (State.setAsm s f k a) :=
  hs.updNi

theorem State.Keeps.egressCheck (hs : s₀.Keeps s) {f : Nat} {err : LinkErr} : s₀.KeepsTriple (State.egressCheck s f err) :=
  (.ite (.mk (.mk hs)) (.ite (.mk (.mk hs.injUse)) (.ite (.mk (.mk hs.injUse)) (.ite (.mk (.mk hs.injUse)) (.mk (.mk hs))))))

theorem State.Keeps.egressPass (hs : s₀.Keeps s) {f : Nat} {a : Asm} : s₀.Keeps (State.egressPass s f a) :=
  (.ite hs.count.count.updNi (.ite (.inTurn (.ite hs.count.count hs.count.count.present1)) (.deliverOther (.ite hs.count.count hs.count.count.present1))))

theorem State.Keeps.joinFlit (hs : s₀.Keeps s) {f k : Nat} {a : Asm} {x : Flit} {bad : Bool} : s₀.Keeps (State.joinFlit s f k a x bad) :=
  (.ite hs.setAsm.egressPass (.ite hs.present1.setAsm hs.setAsm))

theorem State.Keeps.dropAsm (hs : s₀.Keeps s) {f k : Nat} {a : Asm} {x : Flit} : s₀.Keeps (State.dropAsm s f k a x) :=
  hs.setAsm

theorem State.Keeps.egressFlit (hs : s₀.Keeps s) {f k : Nat} {a : Asm} {x : Flit} {err : LinkErr} : s₀.Keeps (State.egressFlit s f k a x err) := by
  simp only [State.egressFlit]
  split
  · exact (.ite hs.egressCheck.snd.dropAsm.captureNi.raiseNi hs.egressCheck.snd.raiseNi.joinFlit)
  · exact hs.egressCheck.snd.dropAsm.captureNi.raiseNi
  · exact (.ite hs.egressCheck.snd.dropAsm.captureNi.raiseNi.raiseNi hs.egressCheck.snd.raiseNi.joinFlit)
  · exact (.ite hs.egressCheck.snd.dropAsm.captureNi.raiseNi (.ite (.ite hs.egressCheck.snd.dropAsm.captureNi.raiseNi hs.egressCheck.snd.dropAsm.captureNi.raiseNi.captureNi.raiseNi) (.joinFlit (.ite hs.egressCheck.snd hs.egressCheck.snd.captureNi.raiseNi))))
  · exact (.ite hs.egressCheck.snd.dropAsm.captureNi.raiseNi hs.egressCheck.snd.joinFlit)
  · exact (.ite hs.egressCheck.snd.dropAsm.captureNi.raiseNi hs.egressCheck.snd.joinFlit)
  · exact (.ite hs.egressCheck.snd.dropAsm.captureNi.raiseNi hs.egressCheck.snd.joinFlit)

theorem execEgressPresent_keeps (hs : s₀.Keeps s) {fid : Fid} {net : Net} {vc : BitVec 2} {err : LinkErr} : s₀.KeepsOut (execEgressPresent fid net vc err s) := by
  unfold execEgressPresent
  exact (.ite .fault (.ite (.next hs) (by split; exact (.next hs); exact (by split; exact (.next hs.leaveEgress); exact (.ite (.next hs.leaveEgress.dropAsm) (.ite (.next hs) (.next hs.leaveEgress.egressFlit)))))))

theorem State.Keeps.setHbox (hs : s₀.Keeps s) {k : Nat} {b : List Pkt} : s₀.Keeps (State.setHbox s k b) :=
  hs.updNi

theorem State.Keeps.homeWins (hs : s₀.Keeps s) {k : Fin 64} {lane : Nat} : s₀.KeepsOpt (State.homeWins s k lane) := by
  unfold State.homeWins
  split
  · exact (.ite (.some (.ite ((hs.arbitrate.of_eq ‹_›).endGrant) (hs.arbitrate.of_eq ‹_›))) .none)
  · exact .none

theorem State.Keeps.homeIdle (hs : s₀.Keeps s) {k : Fin 64} : s₀.Keeps (State.homeIdle s k) :=
  (.ite hs.endGrant hs)

theorem State.Keeps.fencedAnswer (hs : s₀.Keeps s) {k : Nat} {q : Pkt} : s₀.Keeps (State.fencedAnswer s k q) :=
  (.ite hs.nack hs.homeComp)

theorem State.Keeps.dirBad (hs : s₀.Keeps s) {k set way : Nat} {inj : Bool} : s₀.Keeps (State.dirBad s k set way inj) :=
  hs.latchWords.raiseNi.fenceHome

theorem State.Keeps.dirWord (hs : s₀.Keeps s) {k set : Nat} {err : WordErrs} {i : Nat} : s₀.KeepsPair (State.dirWord s k set err i) := by
  unfold State.dirWord
  split
  · exact (.mk (hs.checkWord.of_eq ‹_›))
  · exact (.mk ((hs.checkWord.of_eq ‹_›).bump))
  · exact (.mk ((hs.checkWord.of_eq ‹_›).dirBad))

theorem State.Keeps.dirRead (hs : s₀.Keeps s) {k set : Nat} {err : WordErrs} : s₀.KeepsPair (State.dirRead s k set err) := 
  .foldl (.mk hs) fun _ _ hs => .ite hs.snd.dirWord hs

theorem State.Keeps.joinWait (hs : s₀.Keeps s) {k : Nat} {q : Pkt × List Byte × Bool} : s₀.Keeps (State.joinWait s k q) := by
  simp only [State.joinWait]
  split
  · exact hs.setTrk
  · exact hs.updHm

theorem State.Keeps.decideReq (hs : s₀.Keeps s) {k : Nat} {q : Pkt} {err : WordErrs} : s₀.Keeps (State.decideReq s k q err) := by
  simp only [State.decideReq]
  exact (.ite hs.setHbox.homeProto.homeComp (by split; exact hs.setHbox.joinWait; exact (by split; exact (hs.dirRead.of_eq ‹_›); exact (hs.dirRead.of_eq ‹_›).setHbox.newFlow)))

theorem execHomeRequestDecide_keeps (hs : s₀.Keeps s) {k : Fin 64} {lane : BitVec 2} {err : WordErrs} {table : WordErr} : s₀.KeepsOut (execHomeRequestDecide k lane err table s) := by
  simp only [execHomeRequestDecide]
  split
  · exact (.next hs)
  · exact (.ite (.next hs) (.ite (.next hs.dropBoxed.fencedAnswer) (.ite (.next hs) (by split; exact (.next hs); exact (by split; exact (.next (((hs.homeWins.of_eq ‹_›).tableCheck.of_eq ‹_›).fenceHome)); exact (.next (((hs.homeWins.of_eq ‹_›).tableCheck.of_eq ‹_›).decideReq)))))))

theorem State.Keeps.dropJudge (hs : s₀.Keeps s) {k : Nat} {j : Judge} : s₀.Keeps (State.dropJudge s k j) :=
  hs.updHm

theorem State.Keeps.decidePut (hs : s₀.Keeps s) {k : Nat} {q : Pkt} {err : WordErrs} : s₀.Keeps (State.decidePut s k q err) := by
  simp only [State.decidePut]
  split
  · exact hs.setHbox.setTrk
  · exact hs.setHbox.updHm
  · exact (by split; exact (hs.dirRead.of_eq ‹_›); exact (hs.dirRead.of_eq ‹_›).setHbox.judgePut)

theorem execHomeWritebackDecide_keeps (hs : s₀.Keeps s) {k : Fin 64} {err : WordErrs} : s₀.KeepsOut (execHomeWritebackDecide k err s) := by
  unfold execHomeWritebackDecide
  split
  · exact (by split; exact (by split; exact (.next (hs.dirRead.of_eq ‹_›)); exact (.next ((hs.dirRead.of_eq ‹_›).dropJudge.judgePut))); exact (.next hs))
  · exact (by split; exact (.next hs); exact (.ite (.next hs.dropBoxed.fencedAnswer) (by split; exact (.next hs); exact (.next ((hs.homeWins.of_eq ‹_›).decidePut)))))

theorem execHomeWaiterEnter_keeps (hs : s₀.Keeps s) {k : Fin 64} {err : WordErrs} : s₀.KeepsOut (execHomeWaiterEnter k err s) := by
  unfold execHomeWaiterEnter
  split
  · exact (.next hs)
  · exact (.ite (.next hs) (by split; exact (.next hs); exact (by split; exact (.next ((hs.homeWins.of_eq ‹_›).dirRead.of_eq ‹_›)); exact (.next (((hs.homeWins.of_eq ‹_›).dirRead.of_eq ‹_›).updHm.newFlow)))))

theorem State.Keeps.stray (hs : s₀.Keeps s) {k : Nat} {p : Pkt} : s₀.Keeps (State.stray s k p) :=
  hs.bump.homeProto

theorem State.Keeps.takeResp (hs : s₀.Keeps s) {k : Fin 64} {p : Pkt} : s₀.KeepsOpt (State.takeResp s k p) := by
  unfold State.takeResp
  cases hw : s.homeWins k 0 with
  | none => trivial
  | some t => exact (hs.homeWins.of_eq hw).setHbox

theorem execHomeCompack_keeps (hs : s₀.Keeps s) {k : Fin 64} : s₀.KeepsOut (execHomeCompack k s) := by
  unfold execHomeCompack
  split
  · exact (.next hs)
  · exact (.ite (.next hs) (by split; exact (.next hs); exact (by split; exact (.next (.ite (hs.takeResp.of_eq ‹_›) ((hs.takeResp.of_eq ‹_›).endFlow))); exact (.next ((hs.takeResp.of_eq ‹_›).stray)))))

theorem State.Keeps.badInvack (hs : s₀.Keeps s) {k : Nat} {p : Pkt} : s₀.Keeps (State.badInvack s k p) := by
  simp only [State.badInvack]
  split
  · exact hs.stray
  · exact (by split; exact hs.stray; exact (.ite hs.homeProto.snoopAnswer hs.homeProto.setTrk.injectAs))

theorem execHomeInvack_keeps (hs : s₀.Keeps s) {k : Fin 64} : s₀.KeepsOut (execHomeInvack k s) := by
  simp only [execHomeInvack]
  split
  · exact (.next hs)
  · exact (.ite (.next hs) (by split; exact (.next hs); exact (.ite (.next ((hs.takeResp.of_eq ‹_›).badInvack)) (.ite (by split; exact (.ite (.next ((hs.takeResp.of_eq ‹_›).updHm.sweepNext)) (.next ((hs.takeResp.of_eq ‹_›).stray))); exact (.next ((hs.takeResp.of_eq ‹_›).stray))) (by split; exact (.next ((hs.takeResp.of_eq ‹_›).snoopAnswer)); exact (.next ((hs.takeResp.of_eq ‹_›).stray)))))))

theorem execHomeSnoopData_keeps (hs : s₀.Keeps s) {k : Fin 64} : s₀.KeepsOut (execHomeSnoopData k s) := by
  unfold execHomeSnoopData
  split
  · exact (.next hs)
  · exact (.ite (.next hs) (by split; exact (.next hs); exact (by split; exact (.next ((hs.takeResp.of_eq ‹_›).snoopAnswer)); exact (.next ((hs.takeResp.of_eq ‹_›).stray)))))

theorem State.Keeps.memUnexpected (hs : s₀.Keeps s) {k : Nat} {p : Pkt} : s₀.Keeps (State.memUnexpected s k p) :=
  hs.homeProto

theorem execHomeMemData_keeps (hs : s₀.Keeps s) {k : Fin 64} : s₀.KeepsOut (execHomeMemData k s) := by
  unfold execHomeMemData
  split
  · exact (.next hs)
  · exact (.ite (.next hs) (by split; exact (.next hs); exact (by split; exact (.ite (.ite (.next (.ite ((hs.takeResp.of_eq ‹_›).setTrk.complete) ((hs.takeResp.of_eq ‹_›).setTrk.collected))) (.ite (.next ((hs.takeResp.of_eq ‹_›).setTrk.collected)) (.next ((hs.takeResp.of_eq ‹_›).restoreDir.homeComp.endFlow)))) (.ite (.next ((hs.takeResp.of_eq ‹_›).bump.updHm)) (.next ((hs.takeResp.of_eq ‹_›).memUnexpected)))); exact (.ite (.next ((hs.takeResp.of_eq ‹_›).bump.updHm)) (.next ((hs.takeResp.of_eq ‹_›).memUnexpected))))))

theorem execHomeMemComp_keeps (hs : s₀.Keeps s) {k : Fin 64} : s₀.KeepsOut (execHomeMemComp k s) := by
  simp only [execHomeMemComp]
  split
  · exact (.next hs)
  · exact (.ite (.next hs) (by split; exact (.next hs); exact (by split; exact (.next ((hs.takeResp.of_eq ‹_›).memUnexpected)); exact (.ite (.next ((hs.takeResp.of_eq ‹_›).memUnexpected)) (.next (.issueWr (by split; exact (by split; exact (.endFlow (.homeComp (.ite (.dropDir (by split; exact (.ite ((hs.takeResp.of_eq ‹_›).freeWb.putAck) ((hs.takeResp.of_eq ‹_›).freeWb.homeComp)); exact (hs.takeResp.of_eq ‹_›).freeWb)) (by split; exact (.ite ((hs.takeResp.of_eq ‹_›).freeWb.putAck) ((hs.takeResp.of_eq ‹_›).freeWb.homeComp)); exact (hs.takeResp.of_eq ‹_›).freeWb)))); exact (by split; exact (.ite ((hs.takeResp.of_eq ‹_›).freeWb.putAck) ((hs.takeResp.of_eq ‹_›).freeWb.homeComp)); exact (hs.takeResp.of_eq ‹_›).freeWb)); exact (by split; exact (.ite ((hs.takeResp.of_eq ‹_›).freeWb.putAck) ((hs.takeResp.of_eq ‹_›).freeWb.homeComp)); exact (hs.takeResp.of_eq ‹_›).freeWb))))))))

theorem State.Keeps.expireFlow (hs : s₀.Keeps s) {k h : Nat} {e : TrkEnt} : s₀.Keeps (State.expireFlow s k h e) := by
  simp only [State.expireFlow]
  split
  · exact hs.endFlow
  · exact (by split; exact (.ite (.ite (.endFlow (.homeComp (.dropDir (.addWb (.updTrk (.setTrk (.ite hs.updHm hs))))))) (.collected (.updTrk (.setTrk (.ite hs.updHm hs))))) (.ite (.ite (.endFlow (.homeComp (.dropDir (.setTrk (.ite hs.updHm hs))))) (.collected (.updTrk (.setTrk (.ite hs.updHm hs))))) (.collected (.setTrk (.ite hs.updHm hs))))); exact (.collected (.ite (.addWb (.setTrk (.ite hs.updHm hs))) (.setTrk (.ite hs.updHm hs)))))
  · exact (.endFlow (.homeComp (.ite (.updHm (.ite hs.updHm hs)) (.restoreDir (.updHm (.ite hs.updHm hs))))))

theorem execHomeTrackerExpire_keeps (hs : s₀.Keeps s) {k : Fin 64} {htid : BitVec 8} : s₀.KeepsOut (execHomeTrackerExpire k htid s) := by
  simp only [execHomeTrackerExpire]
  split
  · exact (.next hs)
  · exact (.ite (.next hs) (.next hs.raiseNi.expireFlow))

theorem execDirScrub_keeps (hs : s₀.Keeps s) {k : Fin 64} {err0 err1 : WordErrs} : s₀.KeepsOut (execDirScrub k err0 err1 s) :=
  (.ite (.next hs) (.next hs.setHm.dirRead.snd))

theorem execPredWindowEnd_keeps (hs : s₀.Keeps s) {k : Fin 64} : s₀.KeepsOut (execPredWindowEnd k s) :=
  (.ite (.next hs) (.next hs.upd.setHm))

theorem State.Keeps.predClear (hs : s₀.Keeps s) {k : Nat} : s₀.Keeps (State.predClear s k) :=
  hs.updHm

theorem State.Keeps.predEmpty (hs : s₀.Keeps s) {k : Nat} : s₀.Keeps (State.predEmpty s k) :=
  (.ite hs.upd.updHm hs)

theorem execPredClear_keeps (hs : s₀.Keeps s) {k : Fin 64} : s₀.KeepsOut (execPredClear k s) :=
  (.next hs.predClear)

theorem State.Keeps.forgetBucket (hs : s₀.Keeps s) {k b : Nat} : s₀.Keeps (State.forgetBucket s k b) :=
  hs.upd

theorem State.Keeps.releaseBucket (hs : s₀.Keeps s) {src : Nat} {mv : Nat × Nat × Nat} : s₀.Keeps (State.releaseBucket s src mv) :=
  hs.upd.forgetBucket.updHm.sweepNext.updNi.send

theorem execBucketReleaseSend_keeps (hs : s₀.Keeps s) {k : Fin 64} {bucket : BitVec 12} : s₀.KeepsOut (execBucketReleaseSend k bucket s) := by
  unfold execBucketReleaseSend
  split
  · exact (.ite (.next hs) (.next hs.releaseBucket))
  · exact (.next hs)

theorem execBucketReleaseProxy_keeps (hs : s₀.Keeps s) {k : Fin 64} {bucket : BitVec 12} : s₀.KeepsOut (execBucketReleaseProxy k bucket s) := by
  unfold execBucketReleaseProxy
  split
  · exact (.ite (.next hs) (.next hs.releaseBucket))
  · exact (.next hs)

theorem execBucketReleaseReceive_keeps (hs : s₀.Keeps s) {k : Fin 64} : s₀.KeepsOut (execBucketReleaseReceive k s) := by
  simp only [execBucketReleaseReceive]
  split
  · exact (.next hs)
  · exact (by split; exact (.next hs); exact (.next ((hs.homeWins.of_eq ‹_›).setHbox.updNi.enterRecon)))

theorem execBucketSweepTimeout_keeps (hs : s₀.Keeps s) {k : Fin 64} {slot : Fin 4} : s₀.KeepsOut (execBucketSweepTimeout k slot s) := by
  unfold execBucketSweepTimeout
  split
  · exact (.next hs)
  · exact (.ite (.next hs) (.next hs.updHm.raiseNi))

theorem State.Keeps.setBank (hs : s₀.Keeps s) {k b : Nat} {x : Bank} : s₀.Keeps (State.setBank s k b x) :=
  hs.upd

theorem State.Keeps.countConflict (hs : s₀.Keeps s) {k b master : Nat} : s₀.Keeps (State.countConflict s k b master) := by
  simp only [State.countConflict]
  split
  · exact hs.count.bump
  · exact (hs.count.foldl fun _ _ hs => hs.bump)

theorem State.Keeps.bankTake (hs : s₀.Keeps s) {k : Nat} {q : Pkt} : s₀.Keeps (State.bankTake s k q) :=
  hs.updNi

theorem State.Keeps.bankRefuse (hs : s₀.Keeps s) {k : Nat} {q : Pkt} : s₀.Keeps (State.bankRefuse s k q) :=
  (.ite hs.bankTake.answer hs.bankTake.raiseNi.answer.sinkData)

theorem State.Keeps.storeBe (hs : s₀.Keeps s) {row : Nat} {d : Pkt} : s₀.Keeps (State.storeBe s row d) :=
  (hs.foldl fun _ _ hs => (.ite hs.sramWrite (hs.foldl fun _ _ hs => hs.sramWrite)))

theorem State.Keeps.fabPerform (hs : s₀.Keeps s) {k b o : Nat} {q : Pkt} {err : WordErrs} : s₀.Keeps (State.fabPerform s k b o q err) :=
  (.ite hs.count.bankTake.regionDeny.answer (.ite hs.count.sramCheck.snd.bankTake.sramWrite.answer (.ite hs.count.wordsCheck.snd.bankTake.storeBe.answer (.ite hs.count.sramCheck.snd.bankTake.answer (.ite (.ite hs.count.sramCheck.snd.bankTake.answer hs.count.sramCheck.snd.setBank) hs.count.sramCheck.snd.bankTake.send)))))

theorem State.Keeps.atomFinish (hs : s₀.Keeps s) {k b : Nat} {q : Pkt} {old : Nat} : s₀.Keeps (State.atomFinish s k b q old) :=
  hs.bankTake.setBank.sramWrite.send

theorem State.Keeps.locTake (hs : s₀.Keeps s) {k : Nat} {a : LocAcc} : s₀.Keeps (State.locTake s k a) :=
  hs.upd

theorem State.Keeps.storeFreed (hs : s₀.Keeps s) {k i ent : Nat} : s₀.Keeps (State.storeFreed s k i ent) :=
  (.ite hs.updThr hs.updThr.sampleEnd)

theorem State.Keeps.locDenied (hs : s₀.Keeps s) {a : LocAcc} : s₀.Keeps (State.locDenied s a) := by
  unfold State.locDenied
  split
  · exact hs.regionDeny.storeFreed.deferTrap
  · exact hs.regionDeny.partDone
  · exact hs.regionDeny

theorem State.Keeps.locPerform (hs : s₀.Keeps s) {k b : Nat} {a : LocAcc} {err : WordErrs} : s₀.Keeps (State.locPerform s k b a err) := by
  simp only [State.locPerform]
  exact (.ite hs.locTake.count.locDenied (.ite (by split; exact hs.locTake.count.wordsCheck.snd.sramWrite.storeFreed; exact hs.locTake.count.wordsCheck.snd.sramWrite.partDone; exact hs.locTake.count.wordsCheck.snd.sramWrite) (by split; exact hs.locTake.count.sramCheck.snd.partDone; exact hs.locTake.count.sramCheck.snd)))

theorem State.Keeps.bankGrant (hs : s₀.Keeps s) {k : Fin 16} {b : Fin 4} {c : BankPick} : s₀.Keeps (State.bankGrant s k b c) := by
  unfold State.bankGrant
  exact (.noteMask (.setBank (.setArb (by split; exact hs.bump; exact hs))))

theorem State.Keeps.fabDo (hs : s₀.Keeps s) {k b : Nat} {q : Pkt} {fu : Option RowUse} {err : WordErrs} : s₀.Keeps (State.fabDo s k b q fu err) := by
  unfold State.fabDo
  split
  · exact hs.atomFinish
  · exact hs.fabPerform
  · exact hs.bankRefuse

theorem State.Keeps.bankCycle (hs : s₀.Keeps s) {node : Fin 16} {bank : Fin 4} {fabErr locErr : WordErrs} : s₀.Keeps (State.bankCycle s node bank fabErr locErr) := by
  simp only [State.bankCycle]
  exact (.ite (by split; exact (.ite (.locPerform (by split; exact (.ite (.fabDo (by split; exact (.ite (by split; exact (.ite hs.bankGrant.setBank hs.bankGrant.setBank.countConflict); exact hs.bankGrant.setBank) (.countConflict (by split; exact (.ite hs.bankGrant.setBank hs.bankGrant.setBank.countConflict); exact hs.bankGrant.setBank))); exact (by split; exact (.ite hs.bankGrant.setBank hs.bankGrant.setBank.countConflict); exact hs.bankGrant.setBank))) (by split; exact (.ite (by split; exact (.ite hs.bankGrant.setBank hs.bankGrant.setBank.countConflict); exact hs.bankGrant.setBank) (.countConflict (by split; exact (.ite hs.bankGrant.setBank hs.bankGrant.setBank.countConflict); exact hs.bankGrant.setBank))); exact (by split; exact (.ite hs.bankGrant.setBank hs.bankGrant.setBank.countConflict); exact hs.bankGrant.setBank))); exact (by split; exact (.ite (by split; exact (.ite hs.bankGrant.setBank hs.bankGrant.setBank.countConflict); exact hs.bankGrant.setBank) (.countConflict (by split; exact (.ite hs.bankGrant.setBank hs.bankGrant.setBank.countConflict); exact hs.bankGrant.setBank))); exact (by split; exact (.ite hs.bankGrant.setBank hs.bankGrant.setBank.countConflict); exact hs.bankGrant.setBank)))) (by split; exact (.ite (.fabDo (by split; exact (.ite (by split; exact (.ite hs.bankGrant.setBank hs.bankGrant.setBank.countConflict); exact hs.bankGrant.setBank) (.countConflict (by split; exact (.ite hs.bankGrant.setBank hs.bankGrant.setBank.countConflict); exact hs.bankGrant.setBank))); exact (by split; exact (.ite hs.bankGrant.setBank hs.bankGrant.setBank.countConflict); exact hs.bankGrant.setBank))) (by split; exact (.ite (by split; exact (.ite hs.bankGrant.setBank hs.bankGrant.setBank.countConflict); exact hs.bankGrant.setBank) (.countConflict (by split; exact (.ite hs.bankGrant.setBank hs.bankGrant.setBank.countConflict); exact hs.bankGrant.setBank))); exact (by split; exact (.ite hs.bankGrant.setBank hs.bankGrant.setBank.countConflict); exact hs.bankGrant.setBank))); exact (by split; exact (.ite (by split; exact (.ite hs.bankGrant.setBank hs.bankGrant.setBank.countConflict); exact hs.bankGrant.setBank) (.countConflict (by split; exact (.ite hs.bankGrant.setBank hs.bankGrant.setBank.countConflict); exact hs.bankGrant.setBank))); exact (by split; exact (.ite hs.bankGrant.setBank hs.bankGrant.setBank.countConflict); exact hs.bankGrant.setBank)))); exact (by split; exact (.ite (.fabDo (by split; exact (.ite (by split; exact (.ite hs.bankGrant.setBank hs.bankGrant.setBank.countConflict); exact hs.bankGrant.setBank) (.countConflict (by split; exact (.ite hs.bankGrant.setBank hs.bankGrant.setBank.countConflict); exact hs.bankGrant.setBank))); exact (by split; exact (.ite hs.bankGrant.setBank hs.bankGrant.setBank.countConflict); exact hs.bankGrant.setBank))) (by split; exact (.ite (by split; exact (.ite hs.bankGrant.setBank hs.bankGrant.setBank.countConflict); exact hs.bankGrant.setBank) (.countConflict (by split; exact (.ite hs.bankGrant.setBank hs.bankGrant.setBank.countConflict); exact hs.bankGrant.setBank))); exact (by split; exact (.ite hs.bankGrant.setBank hs.bankGrant.setBank.countConflict); exact hs.bankGrant.setBank))); exact (by split; exact (.ite (by split; exact (.ite hs.bankGrant.setBank hs.bankGrant.setBank.countConflict); exact hs.bankGrant.setBank) (.countConflict (by split; exact (.ite hs.bankGrant.setBank hs.bankGrant.setBank.countConflict); exact hs.bankGrant.setBank))); exact (by split; exact (.ite hs.bankGrant.setBank hs.bankGrant.setBank.countConflict); exact hs.bankGrant.setBank)))) (by split; exact (.ite (.fabDo (by split; exact (.ite (.locPerform (by split; exact (.ite (by split; exact (.ite hs.bankGrant.setBank hs.bankGrant.setBank.countConflict); exact hs.bankGrant.setBank) (.countConflict (by split; exact (.ite hs.bankGrant.setBank hs.bankGrant.setBank.countConflict); exact hs.bankGrant.setBank))); exact (by split; exact (.ite hs.bankGrant.setBank hs.bankGrant.setBank.countConflict); exact hs.bankGrant.setBank))) (by split; exact (.ite (by split; exact (.ite hs.bankGrant.setBank hs.bankGrant.setBank.countConflict); exact hs.bankGrant.setBank) (.countConflict (by split; exact (.ite hs.bankGrant.setBank hs.bankGrant.setBank.countConflict); exact hs.bankGrant.setBank))); exact (by split; exact (.ite hs.bankGrant.setBank hs.bankGrant.setBank.countConflict); exact hs.bankGrant.setBank))); exact (by split; exact (.ite (by split; exact (.ite hs.bankGrant.setBank hs.bankGrant.setBank.countConflict); exact hs.bankGrant.setBank) (.countConflict (by split; exact (.ite hs.bankGrant.setBank hs.bankGrant.setBank.countConflict); exact hs.bankGrant.setBank))); exact (by split; exact (.ite hs.bankGrant.setBank hs.bankGrant.setBank.countConflict); exact hs.bankGrant.setBank)))) (by split; exact (.ite (.locPerform (by split; exact (.ite (by split; exact (.ite hs.bankGrant.setBank hs.bankGrant.setBank.countConflict); exact hs.bankGrant.setBank) (.countConflict (by split; exact (.ite hs.bankGrant.setBank hs.bankGrant.setBank.countConflict); exact hs.bankGrant.setBank))); exact (by split; exact (.ite hs.bankGrant.setBank hs.bankGrant.setBank.countConflict); exact hs.bankGrant.setBank))) (by split; exact (.ite (by split; exact (.ite hs.bankGrant.setBank hs.bankGrant.setBank.countConflict); exact hs.bankGrant.setBank) (.countConflict (by split; exact (.ite hs.bankGrant.setBank hs.bankGrant.setBank.countConflict); exact hs.bankGrant.setBank))); exact (by split; exact (.ite hs.bankGrant.setBank hs.bankGrant.setBank.countConflict); exact hs.bankGrant.setBank))); exact (by split; exact (.ite (by split; exact (.ite hs.bankGrant.setBank hs.bankGrant.setBank.countConflict); exact hs.bankGrant.setBank) (.countConflict (by split; exact (.ite hs.bankGrant.setBank hs.bankGrant.setBank.countConflict); exact hs.bankGrant.setBank))); exact (by split; exact (.ite hs.bankGrant.setBank hs.bankGrant.setBank.countConflict); exact hs.bankGrant.setBank)))); exact (by split; exact (.ite (.locPerform (by split; exact (.ite (by split; exact (.ite hs.bankGrant.setBank hs.bankGrant.setBank.countConflict); exact hs.bankGrant.setBank) (.countConflict (by split; exact (.ite hs.bankGrant.setBank hs.bankGrant.setBank.countConflict); exact hs.bankGrant.setBank))); exact (by split; exact (.ite hs.bankGrant.setBank hs.bankGrant.setBank.countConflict); exact hs.bankGrant.setBank))) (by split; exact (.ite (by split; exact (.ite hs.bankGrant.setBank hs.bankGrant.setBank.countConflict); exact hs.bankGrant.setBank) (.countConflict (by split; exact (.ite hs.bankGrant.setBank hs.bankGrant.setBank.countConflict); exact hs.bankGrant.setBank))); exact (by split; exact (.ite hs.bankGrant.setBank hs.bankGrant.setBank.countConflict); exact hs.bankGrant.setBank))); exact (by split; exact (.ite (by split; exact (.ite hs.bankGrant.setBank hs.bankGrant.setBank.countConflict); exact hs.bankGrant.setBank) (.countConflict (by split; exact (.ite hs.bankGrant.setBank hs.bankGrant.setBank.countConflict); exact hs.bankGrant.setBank))); exact (by split; exact (.ite hs.bankGrant.setBank hs.bankGrant.setBank.countConflict); exact hs.bankGrant.setBank)))))

theorem execBankAccess_keeps (hs : s₀.Keeps s) {node : Fin 16} {bank : Fin 4} {fabErr locErr : WordErrs} {table : WordErr} : s₀.KeepsOut (execBankAccess node bank fabErr locErr table s) := by
  unfold execBankAccess
  exact (.ite (.next hs) (by split; exact (.next ((hs.tableCheck.of_eq ‹_›).fenceNi)); exact (.next ((hs.tableCheck.of_eq ‹_›).bankCycle))))

theorem execSramScrub_keeps (hs : s₀.Keeps s) {node : Fin 16} {bank : Fin 4} {err : WordErrs} : s₀.KeepsOut (execSramScrub node bank err s) :=
  (.ite (.next hs) (.next hs.setBank.sramCheck.snd))

theorem State.Keeps.adopt (hs : s₀.Keeps s) {k i : Nat} : s₀.Keeps (State.adopt s k i) := by
  unfold State.adopt
  exact hs.updThr

theorem State.Keeps.adoptIdle (hs : s₀.Keeps s) {k i : Nat} : s₀.Keeps (State.adoptIdle s k i) :=
  (.ite hs.adopt hs)

theorem State.Keeps.sampleIssue (hs : s₀.Keeps s) {k i : Nat} {x : Thr} {w : Nat} {ea : Word64} {split : Bool} : s₀.Keeps (State.sampleIssue s k i x w ea split) :=
  (.ite hs (.ite hs.setCl (.ite (.bump (.setCl (.of_pair (.ite (.mk hs.draw) (.mk hs))))) (.setCl (.of_pair (.ite (.mk hs.draw) (.mk hs)))))))

theorem State.Keeps.issued (hs : s₀.Keeps s) {k i : Nat} : s₀.Keeps (State.issued s k i) :=
  (hs.foldl fun _ _ hs => hs.updThr).updCl.updThr.bump.count.countSlice

theorem State.Keeps.sampleTrap (hs : s₀.Keeps s) {k i : Nat} : s₀.Keeps (State.sampleTrap s k i) :=
  hs.updCl

theorem State.Keeps.precise (hs : s₀.Keeps s) {k i cause : Nat} {taddr : Word64} : s₀.Keeps (State.precise s k i cause taddr) :=
  hs.takeTrap.adoptIdle.sampleTrap

theorem State.Keeps.sampleWait (hs : s₀.Keeps s) {k i serial lat : Nat} : s₀.Keeps (State.sampleWait s k i serial lat) :=
  hs.updCl

theorem State.Keeps.istoreBad (hs : s₀.Keeps s) {k i pc : Nat} {inj : Bool} : s₀.Keeps (State.istoreBad s k i pc inj) :=
  hs.clCapture.raiseNi.fenceCluster

theorem State.Keeps.instr (hs : s₀.Keeps s) {t : Fin 1536} {op : TOp} {store : WordErr} {body : Nat → Nat → Thr → Nat → State → State} (hb : ∀ k i x w s, s₀.Keeps s → s₀.Keeps (body k i x w s)) : s₀.KeepsOut (State.instr s t op store body) := by
  unfold State.instr
  exact .ite (.next hs) (by split; exact (.next (hs.checkWord.of_eq ‹_›).istoreBad); exact (.ite (.next (hs.checkWord.of_eq ‹_›).issued.sampleIssue.precise) (.next (hb _ _ _ _ _ (hs.checkWord.of_eq ‹_›).issued.sampleIssue).sampleWait)))

theorem State.Keeps.result (hs : s₀.Keeps s) {k i d lat : Nat} {v : Word64} : s₀.Keeps (State.result s k i d lat v) :=
  hs.updThr

theorem State.Keeps.jump (hs : s₀.Keeps s) {k i : Nat} {pc : Int} : s₀.Keeps (State.jump s k i pc) :=
  hs.updThr

theorem State.Keeps.alu (hs : s₀.Keeps s) {t : Fin 1536} {fn : Nat} {store : WordErr} {f : Word64 → Word64 → Word64} : s₀.KeepsOut (State.alu s t fn store f) :=
  (hs.instr fun _ _ _ _ _ hs => hs.result)

theorem State.Keeps.divide (hs : s₀.Keeps s) {t : Fin 1536} {fn : Nat} {store : WordErr} {f : Word64 → Word64 → Word64} {z : Word64 → Word64} : s₀.KeepsOut (State.divide s t fn store f z) :=
  (hs.instr fun _ _ _ _ _ hs => (.ite hs.updThr.result hs.result))

theorem State.Keeps.aluImm (hs : s₀.Keeps s) {t : Fin 1536} {op : TOp} {store : WordErr} {f : Word64 → Nat → Word64} : s₀.KeepsOut (State.aluImm s t op store f) :=
  (hs.instr fun _ _ _ _ _ hs => hs.result)

theorem execAdd_keeps (hs : s₀.Keeps s) {t : Fin 1536} {store : WordErr} : s₀.KeepsOut (execAdd t store s) :=
  hs.alu

theorem execSub_keeps (hs : s₀.Keeps s) {t : Fin 1536} {store : WordErr} : s₀.KeepsOut (execSub t store s) :=
  hs.alu

theorem execMullo_keeps (hs : s₀.Keeps s) {t : Fin 1536} {store : WordErr} : s₀.KeepsOut (execMullo t store s) :=
  hs.alu

theorem execMulhi_keeps (hs : s₀.Keeps s) {t : Fin 1536} {store : WordErr} : s₀.KeepsOut (execMulhi t store s) :=
  hs.alu

theorem execMulhiu_keeps (hs : s₀.Keeps s) {t : Fin 1536} {store : WordErr} : s₀.KeepsOut (execMulhiu t store s) :=
  hs.alu

theorem execAnd_keeps (hs : s₀.Keeps s) {t : Fin 1536} {store : WordErr} : s₀.KeepsOut (execAnd t store s) :=
  hs.alu

theorem execIor_keeps (hs : s₀.Keeps s) {t : Fin 1536} {store : WordErr} : s₀.KeepsOut (execIor t store s) :=
  hs.alu

theorem execXor_keeps (hs : s₀.Keeps s) {t : Fin 1536} {store : WordErr} : s₀.KeepsOut (execXor t store s) :=
  hs.alu

theorem execShl_keeps (hs : s₀.Keeps s) {t : Fin 1536} {store : WordErr} : s₀.KeepsOut (execShl t store s) :=
  hs.alu

theorem execShr_keeps (hs : s₀.Keeps s) {t : Fin 1536} {store : WordErr} : s₀.KeepsOut (execShr t store s) :=
  hs.alu

theorem execShra_keeps (hs : s₀.Keeps s) {t : Fin 1536} {store : WordErr} : s₀.KeepsOut (execShra t store s) :=
  hs.alu

theorem execCmplt_keeps (hs : s₀.Keeps s) {t : Fin 1536} {store : WordErr} : s₀.KeepsOut (execCmplt t store s) :=
  hs.alu

theorem execCmpltu_keeps (hs : s₀.Keeps s) {t : Fin 1536} {store : WordErr} : s₀.KeepsOut (execCmpltu t store s) :=
  hs.alu

theorem execQuo_keeps (hs : s₀.Keeps s) {t : Fin 1536} {store : WordErr} : s₀.KeepsOut (execQuo t store s) :=
  hs.divide

theorem execQuou_keeps (hs : s₀.Keeps s) {t : Fin 1536} {store : WordErr} : s₀.KeepsOut (execQuou t store s) :=
  hs.divide

theorem execMod_keeps (hs : s₀.Keeps s) {t : Fin 1536} {store : WordErr} : s₀.KeepsOut (execMod t store s) :=
  hs.divide

theorem execModu_keeps (hs : s₀.Keeps s) {t : Fin 1536} {store : WordErr} : s₀.KeepsOut (execModu t store s) :=
  hs.divide

theorem execAddk_keeps (hs : s₀.Keeps s) {t : Fin 1536} {store : WordErr} : s₀.KeepsOut (execAddk t store s) :=
  hs.aluImm

theorem execAndk_keeps (hs : s₀.Keeps s) {t : Fin 1536} {store : WordErr} : s₀.KeepsOut (execAndk t store s) :=
  hs.aluImm

theorem execIork_keeps (hs : s₀.Keeps s) {t : Fin 1536} {store : WordErr} : s₀.KeepsOut (execIork t store s) :=
  hs.aluImm

theorem execXork_keeps (hs : s₀.Keeps s) {t : Fin 1536} {store : WordErr} : s₀.KeepsOut (execXork t store s) :=
  hs.aluImm

theorem execCmpltk_keeps (hs : s₀.Keeps s) {t : Fin 1536} {store : WordErr} : s₀.KeepsOut (execCmpltk t store s) :=
  hs.aluImm

theorem execSethi_keeps (hs : s₀.Keeps s) {t : Fin 1536} {store : WordErr} : s₀.KeepsOut (execSethi t store s) :=
  hs.aluImm

theorem execShkShl_keeps (hs : s₀.Keeps s) {t : Fin 1536} {store : WordErr} : s₀.KeepsOut (execShkShl t store s) :=
  hs.aluImm

theorem execShkShr_keeps (hs : s₀.Keeps s) {t : Fin 1536} {store : WordErr} : s₀.KeepsOut (execShkShr t store s) :=
  hs.aluImm

theorem execShkShra_keeps (hs : s₀.Keeps s) {t : Fin 1536} {store : WordErr} : s₀.KeepsOut (execShkShra t store s) :=
  hs.aluImm

theorem State.Keeps.branch (hs : s₀.Keeps s) {t : Fin 1536} {cond : Nat} {store : WordErr} {f : Word64 → Word64 → Bool} : s₀.KeepsOut (State.branch s t cond store f) :=
  (hs.instr fun _ _ _ _ _ hs => (.ite hs.jump hs.updThr))

theorem execBreq_keeps (hs : s₀.Keeps s) {t : Fin 1536} {store : WordErr} : s₀.KeepsOut (execBreq t store s) :=
  hs.branch

theorem execBrne_keeps (hs : s₀.Keeps s) {t : Fin 1536} {store : WordErr} : s₀.KeepsOut (execBrne t store s) :=
  hs.branch

theorem execBrlt_keeps (hs : s₀.Keeps s) {t : Fin 1536} {store : WordErr} : s₀.KeepsOut (execBrlt t store s) :=
  hs.branch

theorem execBrge_keeps (hs : s₀.Keeps s) {t : Fin 1536} {store : WordErr} : s₀.KeepsOut (execBrge t store s) :=
  hs.branch

theorem execBrlo_keeps (hs : s₀.Keeps s) {t : Fin 1536} {store : WordErr} : s₀.KeepsOut (execBrlo t store s) :=
  hs.branch

theorem execBrhs_keeps (hs : s₀.Keeps s) {t : Fin 1536} {store : WordErr} : s₀.KeepsOut (execBrhs t store s) :=
  hs.branch

theorem execCall_keeps (hs : s₀.Keeps s) {t : Fin 1536} {store : WordErr} : s₀.KeepsOut (execCall t store s) :=
  (hs.instr fun _ _ _ _ _ hs => hs.updThr.jump)

theorem execCallr_keeps (hs : s₀.Keeps s) {t : Fin 1536} {store : WordErr} : s₀.KeepsOut (execCallr t store s) :=
  (hs.instr fun _ _ _ _ _ hs => hs.updThr.jump)

theorem execSync_keeps (hs : s₀.Keeps s) {t : Fin 1536} {store : WordErr} : s₀.KeepsOut (execSync t store s) :=
  (hs.instr fun _ _ _ _ _ hs => hs.updThr)

theorem execRett_keeps (hs : s₀.Keeps s) {t : Fin 1536} {store : WordErr} : s₀.KeepsOut (execRett t store s) :=
  (hs.instr fun _ _ _ _ _ hs => hs.updThr.jump)

theorem execRdtcr_keeps (hs : s₀.Keeps s) {t : Fin 1536} {store : WordErr} : s₀.KeepsOut (execRdtcr t store s) :=
  (hs.instr fun _ _ _ _ _ hs => hs.result)

theorem execWrtcr_keeps (hs : s₀.Keeps s) {t : Fin 1536} {store : WordErr} : s₀.KeepsOut (execWrtcr t store s) :=
  (hs.instr fun _ _ _ _ _ hs => hs.updThr)

theorem execSignal_keeps (hs : s₀.Keeps s) {t : Fin 1536} {store : WordErr} : s₀.KeepsOut (execSignal t store s) :=
  (hs.instr fun _ _ _ _ _ hs => hs.updThr.updThr)

theorem execHalt_keeps (hs : s₀.Keeps s) {t : Fin 1536} {store : WordErr} : s₀.KeepsOut (execHalt t store s) :=
  (hs.instr fun _ _ _ _ _ hs => hs.updThr.adoptIdle)

theorem execBreakTrap_keeps (hs : s₀.Keeps s) {t : Fin 1536} {store : WordErr} : s₀.KeepsOut (execBreakTrap t store s) :=
  (hs.instr fun _ _ _ _ _ hs => hs.precise)

theorem execRdtim_keeps (hs : s₀.Keeps s) {t : Fin 1536} {store : WordErr} : s₀.KeepsOut (execRdtim t store s) :=
  (hs.instr fun _ _ _ _ _ hs => hs.result)

theorem execThreadWaitt_keeps (hs : s₀.Keeps s) {t : Fin 1536} {store : WordErr} : s₀.KeepsOut (execThreadWaitt t store s) :=
  (hs.instr fun _ _ _ _ _ hs => (.ite hs.adopt (.ite hs.updThr hs.updThr)))

theorem execThreadWaittExpire_keeps (hs : s₀.Keeps s) {t : Fin 1536} : s₀.KeepsOut (execThreadWaittExpire t s) := by
  simp only [execThreadWaittExpire]
  split
  · exact (.ite (.next hs.updThr) (.next hs))
  · exact (.next hs)

theorem execSettmr_keeps (hs : s₀.Keeps s) {t : Fin 1536} {store : WordErr} : s₀.KeepsOut (execSettmr t store s) :=
  (hs.instr fun _ _ _ _ _ hs => hs.updThr)

theorem execTimerFire_keeps (hs : s₀.Keeps s) {t : Fin 1536} : s₀.KeepsOut (execTimerFire t s) := by
  simp only [execTimerFire]
  split
  · exact (.ite (.next hs.updThr) (.next hs))
  · exact (.next hs)

theorem State.Keeps.park (hs : s₀.Keeps s) {k i : Nat} {ents : List Nat} : s₀.Keeps (State.park s k i ents) :=
  hs.updThr.count

theorem State.Keeps.checkParts (hs : s₀.Keeps s) {k sl : Nat} {wr : Bool} {ps : List (Nat × Nat × Place)} : s₀.KeepsPair (State.checkParts s k sl wr ps) := 
  .foldl (.mk hs) fun _ _ hs => by
    split
    · exact hs
    · split
      · exact hs
      · exact .ite hs hs.snd.regionDeny
      · exact .foldl hs fun _ _ hs => by
          split
          · exact hs
          · split
            · exact .mk (hs.snd.engCheck.of_eq ‹_›)
            · exact .mk (hs.snd.engCheck.of_eq ‹_›)

theorem State.Keeps.locPush (hs : s₀.Keeps s) {a : LocAcc} : s₀.Keeps (State.locPush s a) :=
  hs.upd

theorem State.Keeps.sendParts (hs : s₀.Keeps s) {k i sl id ea0 : Nat} {ps : List (Nat × Nat × Place)} {ds : List (Nat × Nat × Nat)} : s₀.Keeps (State.sendParts s k i sl id ea0 ps ds) := by
  unfold State.sendParts
  exact (hs.foldl fun _ _ hs => (by split; exact hs; exact hs.locPush; exact (hs.foldl fun _ _ hs => hs.engSend)))

theorem State.Keeps.loadNow (hs : s₀.Keeps s) {k i d n : Nat} {signed : Bool} {ea : Word64} {bytes : List Byte} {bad fwd : Bool} : s₀.Keeps (State.loadNow s k i d n signed ea bytes bad fwd) :=
  (.ite (.deferTrap (.result (.ite hs.updCl hs))) (.result (.ite hs.updCl hs)))

theorem State.Keeps.doLoad (hs : s₀.Keeps s) {k i : Nat} {x : Thr} {w n : Nat} {signed : Bool} {mem : WordErrs} : s₀.Keeps (State.doLoad s k i x w n signed mem) := by
  simp only [State.doLoad]
  split
  · exact hs.precise
  · refine .ite (.park (.ite hs.count hs)) ?_
    split
    · exact ((.checkParts (.ite hs.count hs)) : s₀.KeepsPair _).of_eq ‹_› |>.precise
    · rename_i ds s1 heq
      have h1 : s₀.Keeps s1 := State.KeepsPair.of_eq (by exact .checkParts (.ite hs.count hs)) heq
      have h2 (c : Prop) [Decidable c] : s₀.Keeps (if c then s1.count (clFid k) 73 else s1) := .ite h1.count h1
      refine .ite (.loadNow ?_) (.sendParts (.updThr (.of_pair (.newReq ?_)))) <;>
      exact .of_pair (.snd (State.KeepsTriple.foldl (.mk (.mk (h2 _))) fun _ _ hs => by
        split
        · exact hs
        · exact .mk (.mk hs.snd.snd.lsCheck.snd)
        · exact hs))

theorem execLdb_keeps (hs : s₀.Keeps s) {t : Fin 1536} {store : WordErr} {mem : WordErrs} : s₀.KeepsOut (execLdb t store mem s) :=
  (hs.instr fun _ _ _ _ _ hs => hs.doLoad)

theorem execLdh_keeps (hs : s₀.Keeps s) {t : Fin 1536} {store : WordErr} {mem : WordErrs} : s₀.KeepsOut (execLdh t store mem s) :=
  (hs.instr fun _ _ _ _ _ hs => hs.doLoad)

theorem execLdw_keeps (hs : s₀.Keeps s) {t : Fin 1536} {store : WordErr} {mem : WordErrs} : s₀.KeepsOut (execLdw t store mem s) :=
  (hs.instr fun _ _ _ _ _ hs => hs.doLoad)

theorem execLdd_keeps (hs : s₀.Keeps s) {t : Fin 1536} {store : WordErr} {mem : WordErrs} : s₀.KeepsOut (execLdd t store mem s) :=
  (hs.instr fun _ _ _ _ _ hs => hs.doLoad)

theorem execLdbs_keeps (hs : s₀.Keeps s) {t : Fin 1536} {store : WordErr} {mem : WordErrs} : s₀.KeepsOut (execLdbs t store mem s) :=
  (hs.instr fun _ _ _ _ _ hs => hs.doLoad)

theorem execLdhs_keeps (hs : s₀.Keeps s) {t : Fin 1536} {store : WordErr} {mem : WordErrs} : s₀.KeepsOut (execLdhs t store mem s) :=
  (hs.instr fun _ _ _ _ _ hs => hs.doLoad)

theorem execLdws_keeps (hs : s₀.Keeps s) {t : Fin 1536} {store : WordErr} {mem : WordErrs} : s₀.KeepsOut (execLdws t store mem s) :=
  (hs.instr fun _ _ _ _ _ hs => hs.doLoad)

theorem State.Keeps.doStore (hs : s₀.Keeps s) {k i : Nat} {x : Thr} {w n : Nat} : s₀.Keeps (State.doStore s k i x w n) := by
  simp only [State.doStore]
  split
  · exact hs.precise
  · exact (.updThr (.updCl (.ite hs.count hs)))

theorem execStb_keeps (hs : s₀.Keeps s) {t : Fin 1536} {store : WordErr} : s₀.KeepsOut (execStb t store s) :=
  (hs.instr fun _ _ _ _ _ hs => hs.doStore)

theorem execSth_keeps (hs : s₀.Keeps s) {t : Fin 1536} {store : WordErr} : s₀.KeepsOut (execSth t store s) :=
  (hs.instr fun _ _ _ _ _ hs => hs.doStore)

theorem execStw_keeps (hs : s₀.Keeps s) {t : Fin 1536} {store : WordErr} : s₀.KeepsOut (execStw t store s) :=
  (hs.instr fun _ _ _ _ _ hs => hs.doStore)

theorem execStd_keeps (hs : s₀.Keeps s) {t : Fin 1536} {store : WordErr} : s₀.KeepsOut (execStd t store s) :=
  (hs.instr fun _ _ _ _ _ hs => hs.doStore)

theorem State.Keeps.storeDenied (hs : s₀.Keeps s) {k i : Nat} {es : List SbEnt} : s₀.Keeps (State.storeDenied s k i es) :=
  (hs.foldl fun _ _ hs => hs.storeFreed).deferTrap

theorem State.Keeps.drainStore (hs : s₀.Keeps s) {k i : Nat} : s₀.Keeps (State.drainStore s k i) := by
  simp only [State.drainStore]
  split
  · exact (hs.checkParts.of_eq ‹_›).storeDenied
  · exact (.foldl (.of_pair (.ite (.mk (hs.checkParts.of_eq ‹_›)) ((hs.checkParts.of_eq ‹_›).newReq))) fun _ _ hs => (by split; exact hs.lsWrite.storeFreed; exact hs.updThr.locPush; exact (hs.foldl fun _ _ hs => hs.engSend).storeFreed))

theorem execStoreDrain_keeps (hs : s₀.Keeps s) {e : Fin 192} : s₀.KeepsOut (execStoreDrain e s) := by
  simp only [execStoreDrain]
  exact (.ite (.next hs) (by split; exact (.next hs); exact (.next hs.setCl.drainStore)))

theorem State.Keeps.bufRead (hs : s₀.Keeps s) {k i ea off n : Nat} {mem : WordErrs} : s₀.KeepsPair (State.bufRead s k i ea off n mem) := by
  simp only [State.bufRead]
  split
  · exact (.mk hs.park)
  · exact (.mk hs)
  · exact (.mk hs.lsCheck.snd)

theorem execLdln_keeps (hs : s₀.Keeps s) {t : Fin 1536} {store : WordErr} : s₀.KeepsOut (execLdln t store s) := by
  simp only [execLdln]
  exact (hs.instr fun _ _ _ _ _ hs => (by split; exact hs.precise; exact hs.precise; exact (.ite hs.precise (.ite hs.precise (by split; exact hs.park; exact (by split; exact (hs.checkParts.of_eq ‹_›).precise; exact (hs.checkParts.of_eq ‹_›).newReq.snd.updThr.sendParts))))))

theorem execStln_keeps (hs : s₀.Keeps s) {t : Fin 1536} {store : WordErr} {mem : WordErrs} : s₀.KeepsOut (execStln t store mem s) := by
  simp only [execStln]
  exact (hs.instr fun _ _ _ _ _ hs => (by split; exact hs.precise; exact hs.precise; exact (.ite hs.precise (.ite hs.precise (by split; exact (hs.bufRead.of_eq ‹_›); exact (by split; exact ((hs.bufRead.of_eq ‹_›).checkParts.of_eq ‹_›).result.deferTrap; exact (by split; exact ((hs.bufRead.of_eq ‹_›).checkParts.of_eq ‹_›).newReq.snd.updThr.locPush; exact ((hs.bufRead.of_eq ‹_›).checkParts.of_eq ‹_›).newReq.snd.updThr.engSend; exact ((hs.bufRead.of_eq ‹_›).checkParts.of_eq ‹_›).newReq.snd.updThr)))))))

theorem State.Keeps.atomLocal (hs : s₀.Keeps s) {k i d off n aop : Nat} {a b ea : Word64} {mem : WordErrs} : s₀.Keeps (State.atomLocal s k i d off n aop a b ea mem) :=
  (.ite hs.lsCheck.snd.result.deferTrap hs.lsCheck.snd.lsWrite.result)

theorem execAtom_keeps (hs : s₀.Keeps s) {t : Fin 1536} {store : WordErr} {mem : WordErrs} : s₀.KeepsOut (execAtom t store mem s) := by
  unfold execAtom
  exact (hs.instr fun _ _ _ _ _ hs => (.ite hs.precise (by split; exact hs.precise; exact hs.atomLocal; exact hs; exact (by split; exact (hs.engCheck.of_eq ‹_›).precise; exact (hs.engCheck.of_eq ‹_›).newReq.snd.updThr.engSend))))

theorem State.Keeps.sendMsg (hs : s₀.Keeps s) {k i d : Nat} {kind : ReqKind} {q : Pkt} {data : Option (List Byte × Word64 × Bool)} : s₀.Keeps (State.sendMsg s k i d kind q data) :=
  hs.newReq.snd.updThr.engSend

theorem execEnqInstr_keeps (hs : s₀.Keeps s) {t : Fin 1536} {store : WordErr} {mem : WordErrs} : s₀.KeepsOut (execEnqInstr t store mem s) := by
  simp only [execEnqInstr]
  exact (hs.instr fun _ _ _ _ _ hs => (by split; exact hs.precise; exact (by split; exact (hs.bufRead.of_eq ‹_›); exact (hs.bufRead.of_eq ‹_›).sendMsg)))

theorem execDeqInstr_keeps (hs : s₀.Keeps s) {t : Fin 1536} {store : WordErr} : s₀.KeepsOut (execDeqInstr t store s) := by
  simp only [execDeqInstr]
  exact (hs.instr fun _ _ _ _ _ hs => (by split; exact hs.precise; exact (.ite hs.precise (by split; exact hs.park; exact hs.sendMsg))))

theorem execDbell_keeps (hs : s₀.Keeps s) {t : Fin 1536} {store : WordErr} : s₀.KeepsOut (execDbell t store s) :=
  (hs.instr fun _ _ _ _ _ hs => hs.sendMsg)

theorem execIntr_keeps (hs : s₀.Keeps s) {t : Fin 1536} {store : WordErr} : s₀.KeepsOut (execIntr t store s) :=
  (hs.instr fun _ _ _ _ _ hs => hs.sendMsg)

theorem execSeqw_keeps (hs : s₀.Keeps s) {t : Fin 1536} {store : WordErr} {mem : WordErrs} : s₀.KeepsOut (execSeqw t store mem s) := by
  simp only [execSeqw]
  exact (hs.instr fun _ _ _ _ _ hs => (by split; exact (.ite hs.precise (.ite hs.precise (by split; exact (hs.bufRead.of_eq ‹_›); exact (by split; exact ((hs.bufRead.of_eq ‹_›).engCheck.of_eq ‹_›).result; exact ((hs.bufRead.of_eq ‹_›).engCheck.of_eq ‹_›).sendMsg)))); exact hs.precise; exact hs.precise))

theorem State.Keeps.setRing (hs : s₀.Keeps s) {k : Nat} {bank : Bool} {b : Nat} {r : RxRing} : s₀.Keeps (State.setRing s k bank b r) :=
  hs.updCl

theorem execRecv_keeps (hs : s₀.Keeps s) {t : Fin 1536} {store : WordErr} : s₀.KeepsOut (execRecv t store s) := by
  unfold execRecv
  exact (hs.instr fun _ _ _ _ _ hs => (by split; exact (.ite hs.updThr.setRing.result hs.updThr.setRing.result); exact (.ite hs.adopt hs.updThr)))

theorem execRxdone_keeps (hs : s₀.Keeps s) {t : Fin 1536} {store : WordErr} : s₀.KeepsOut (execRxdone t store s) :=
  (hs.instr fun _ _ _ _ _ hs => (.ite hs.updThr hs.updThr.setRing))

theorem State.Keeps.wakeRecv (hs : s₀.Keeps s) {k i : Nat} {bank : Bool} : s₀.Keeps (State.wakeRecv s k i bank) :=
  hs.updThr

theorem execEngDelivery_keeps (hs : s₀.Keeps s) {k : Fin 48} : s₀.KeepsOut (execEngDelivery k s) := by
  simp only [execEngDelivery]
  split
  · exact (.next hs)
  · exact (.ite (.next hs) (.ite (.next (.ite hs.updNi.answer hs.updNi.answer.sinkData)) (.ite (.next (.ite hs.updNi.raiseNi.answer hs.updNi.raiseNi.answer.sinkData)) (by split; exact (.next hs.updNi.bump.answer); exact (.ite (.next hs.updNi.bump.answer) (.ite (.next hs.updNi.setRing.wakeRecv.answer) (.ite (.next hs.updNi.bump.count.answer) (.next hs.updNi.lsWrite.count.setRing.wakeRecv.answer))))))))

theorem State.Keeps.engPart (hs : s₀.Keeps s) {k i : Nat} {e : SrcEnt} {status : Nat} {bytes : List Byte} {poison : Bool} : s₀.Keeps (State.engPart s k i e status bytes poison) :=
  (.partDone (.setSrc (.ite hs.streamLeave hs)))

theorem State.Keeps.engDeq (hs : s₀.Keeps s) {k i : Nat} {e : SrcEnt} {g : EReq → EReq} : s₀.Keeps (State.engDeq s k i e g) := by
  simp only [State.engDeq]
  split
  · exact (by split; exact (.ite hs.updCl.engPart hs.updCl); exact hs.updCl)
  · exact hs.updCl.setSrc

theorem State.Keeps.engAnswer (hs : s₀.Keeps s) {k i : Nat} {e : SrcEnt} {p : Pkt} : s₀.Keeps (State.engAnswer s k i e p) := by
  unfold State.engAnswer
  exact (.ite (.ite hs.setSrc hs.nacked) (by split; exact (hs.seqBook.of_eq ‹_›); exact (.ite (.ite (.ite ((hs.seqBook.of_eq ‹_›).ownCompAck) (hs.seqBook.of_eq ‹_›)) (.setSrc (.streamLeave (.ite ((hs.seqBook.of_eq ‹_›).ownCompAck) (hs.seqBook.of_eq ‹_›))))) (.ite (.ite (((hs.seqBook.of_eq ‹_›).foldl fun _ _ hs => (.ite (by split; exact hs.lsWrite; exact hs) hs)).engDeq) (.engPart (.ite ((hs.seqBook.of_eq ‹_›).ownCompAck) (hs.seqBook.of_eq ‹_›)))) (.ite ((hs.seqBook.of_eq ‹_›).engPart) (.ite ((hs.seqBook.of_eq ‹_›).engDeq) ((hs.seqBook.of_eq ‹_›).engPart)))))))

theorem execEngFabricAnswer_keeps (hs : s₀.Keeps s) {k : Fin 48} : s₀.KeepsOut (execEngFabricAnswer k s) := by
  simp only [execEngFabricAnswer]
  split
  · exact (.next hs)
  · exact (.ite (.next hs) (.ite (.next hs.setNi.updNi) (by split; exact (.ite (.next hs.setNi.engAnswer) (.next hs.setNi.lateAnswer)); exact (.next hs.setNi.lateAnswer))))

theorem execTrapTake_keeps (hs : s₀.Keeps s) {t : Fin 1536} : s₀.KeepsOut (execTrapTake t s) := by
  simp only [execTrapTake]
  split
  · exact (.ite (.next hs.updThr.takeTrap.adoptIdle) (.next hs))
  · exact (.next hs)

theorem execInterruptTake_keeps (hs : s₀.Keeps s) {t : Fin 1536} : s₀.KeepsOut (execInterruptTake t s) :=
  (.ite (.next hs) (.next hs.draw.setThr.countTrap))

theorem State.Keeps.threadStart (hs : s₀.Keeps s) {k i : Nat} : s₀.Keeps (State.threadStart s k i) :=
  (.ite hs.adoptIdle.setThr hs.adoptIdle)

theorem execEngTStart_keeps (hs : s₀.Keeps s) {t : Fin 1536} : s₀.KeepsOut (execEngTStart t s) :=
  (.next hs.threadStart)

theorem State.Keeps.threadHalt (hs : s₀.Keeps s) {k i : Nat} : s₀.Keeps (State.threadHalt s k i) :=
  (.ite hs hs.setThr.adoptIdle)

theorem execEngTHalt_keeps (hs : s₀.Keeps s) {t : Fin 1536} : s₀.KeepsOut (execEngTHalt t s) :=
  (.next hs.threadHalt)

theorem execLocalSramScrub_keeps (hs : s₀.Keeps s) {k : Fin 48} {err : WordErrs} : s₀.KeepsOut (execLocalSramScrub k err s) :=
  (.ite (.next hs) (.next hs.setCl.lsCheck.snd))

theorem execEngSampleWrite_keeps (hs : s₀.Keeps s) {k : Fin 48} : s₀.KeepsOut (execEngSampleWrite k s) := by
  unfold execEngSampleWrite
  split
  · exact (.next hs)
  · exact (by split; exact (.next hs); exact (.ite (.next hs) (.next hs.updCl.locPush.setReg)))

theorem State.Keeps.updQ (hs : s₀.Keeps s) {q : Nat} {g : QDyn → QDyn} : s₀.Keeps (State.updQ s q g) :=
  hs.upd

theorem State.Keeps.updQm (hs : s₀.Keeps s) {n : Nat} {g : Qm → Qm} : s₀.Keeps (State.updQm s n g) :=
  hs.upd

theorem State.Keeps.updPort (hs : s₀.Keeps s) {n p : Nat} {g : QPort → QPort} : s₀.Keeps (State.updPort s n p g) :=
  hs.updQm

theorem State.Keeps.qmRule (hs : s₀.Keeps s) {n sl pa opc : Nat} : s₀.KeepsPair (State.qmRule s n sl pa opc) := by
  simp only [State.qmRule]
  split
  · exact (.mk hs.ruleEcc.denied)
  · exact (.mk hs.ruleEcc.overrideUsed)

theorem State.Keeps.ringJob (hs : s₀.Keeps s) {n : Nat} {j : RingJob} : s₀.Keeps (State.ringJob s n j) :=
  hs.updQm

theorem State.Keeps.reloadQueue (hs : s₀.Keeps s) {q : Nat} : s₀.Keeps (State.reloadQueue s q) :=
  (.ite hs (.ite hs.updQ hs.updQ.ringJob))

theorem State.Keeps.pullNotify (hs : s₀.Keeps s) {n q d : Nat} {wasEmpty : Bool} : s₀.Keeps (State.pullNotify s n q d wasEmpty) :=
  (.ite hs hs.updQ.updNi.send)

theorem State.Keeps.postEvent (hs : s₀.Keeps s) {cnt src evq : Nat} {evv : Bool} {code queue arg : Nat} : s₀.Keeps (State.postEvent s cnt src evq evv code queue arg) :=
  (.ite hs.bump hs.ringJob)

theorem State.Keeps.queueEvent (hs : s₀.Keeps s) {q code arg : Nat} : s₀.Keeps (State.queueEvent s q code arg) :=
  (.ite hs hs.postEvent)

theorem State.Keeps.sliceEvent (hs : s₀.Keeps s) {sl code arg : Nat} : s₀.Keeps (State.sliceEvent s sl code arg) :=
  hs.postEvent

theorem State.Keeps.dropDeliveries (hs : s₀.Keeps s) {q : Nat} : s₀.Keeps (State.dropDeliveries s q) :=
  hs.updQm

theorem State.Keeps.discardQueue (hs : s₀.Keeps s) {q : Nat} : s₀.Keeps (State.discardQueue s q) :=
  (.updQ (.updQm (.dropDeliveries (.ite hs hs.bump))))

theorem State.Keeps.queueSwitch (hs : s₀.Keeps s) {q dOld dNew : Nat} : s₀.Keeps (State.queueSwitch s q dOld dNew) :=
  (.updQ (.ite (.updQ (.ite hs.discardQueue.queueEvent hs)) (.ite hs.discardQueue.queueEvent hs)))

theorem State.Keeps.portSwitch (hs : s₀.Keeps s) {n p : Nat} {t : Int} : s₀.Keeps (State.portSwitch s n p t) := by
  simp only [State.portSwitch]
  exact (.ite hs.updPort.updPort (.ite hs.updPort.updPort.setReg.setReg.setRf (by split; exact hs.updPort.updPort.setReg.setReg.setRf.postEvent; exact hs.updPort.updPort.setReg.setReg.setRf.bump)))

theorem State.Keeps.qmSwitch (hs : s₀.Keeps s) {t : Int} : s₀.Keeps (State.qmSwitch s t) :=
  (hs.foldl fun _ _ hs => ((hs.foldl fun _ _ hs => hs.queueSwitch).foldl fun _ _ hs => hs.portSwitch))

theorem State.Keeps.ownTxid (hs : s₀.Keeps s) {n : Nat} {t : BitVec 12} : s₀.Keeps (State.ownTxid s n t) :=
  hs.updNi

theorem State.Keeps.freeTxid (hs : s₀.Keeps s) {n : Nat} {t : BitVec 12} : s₀.Keeps (State.freeTxid s n t) :=
  hs.updNi

theorem State.Keeps.setJob (hs : s₀.Keeps s) {n : Nat} {j : RingJob} : s₀.Keeps (State.setJob s n j) :=
  hs.updQm

theorem State.Keeps.dropJob (hs : s₀.Keeps s) {n id : Nat} : s₀.Keeps (State.dropJob s n id) :=
  hs.updQm

theorem State.Keeps.ringGo (hs : s₀.Keeps s) {n : Nat} {j : RingJob} {wr : Bool} {off : Nat} {data : List Byte} : s₀.Keeps (State.ringGo s n j wr off data) :=
  hs.setJob.updQm

theorem State.Keeps.ringBegin (hs : s₀.Keeps s) {n : Nat} {j : RingJob} : s₀.Keeps (State.ringBegin s n j) := by
  unfold State.ringBegin
  split
  · exact hs.ringGo
  · exact hs.ringGo
  · exact hs.ringGo
  · exact hs.ringGo
  · exact hs.ringGo
  · exact hs.ringGo
  · exact hs.ringGo
  · exact hs.ringGo

theorem State.Keeps.ringEnter (hs : s₀.Keeps s) {n q : Nat} {m : QMsg} : s₀.Keeps (State.ringEnter s n q m) :=
  hs.updQ.count.pullNotify

theorem State.Keeps.stageFail (hs : s₀.Keeps s) {n p : Nat} {j : RingJob} : s₀.Keeps (State.stageFail s n p j) := by
  unfold State.stageFail
  split
  · exact hs
  · exact hs.updPort.updQ.queueEvent

theorem State.Keeps.ringDone (hs : s₀.Keeps s) {n : Nat} {j : RingJob} : s₀.Keeps (State.ringDone s n j) := by
  unfold State.ringDone
  split
  · exact (.ite hs.dropJob.answer (.ite hs.dropJob.answer (.ite hs.ringGo hs.dropJob.answer.ringEnter)))
  · exact (.ite hs.dropJob (.ite hs.dropJob.bump (.ite hs.ringGo hs.dropJob.ringEnter)))
  · exact (.ite hs.dropJob.answer (.ite hs.dropJob.answer (.ite (.ite hs.dropJob.bump.answer hs.ringGo) hs.dropJob.answer)))
  · exact (.ite hs.dropJob.answer (.ite hs.dropJob.answer hs.updQm))
  · exact (.ite hs.dropJob.stageFail hs.dropJob.updPort)
  · exact hs.dropJob
  · exact hs.dropJob
  · exact (.ite hs.updQ.ringBegin hs.updQ.dropJob.updQ)

theorem State.Keeps.ringPiece (hs : s₀.Keeps s) {n id rel status : Nat} {bytes : List Byte} {bad : Bool} : s₀.Keeps (State.ringPiece s n id rel status bytes bad) := by
  unfold State.ringPiece
  split
  · exact hs
  · exact (.ite hs.setJob.ringDone hs.setJob)

theorem State.Keeps.ringSend (hs : s₀.Keeps s) {n i : Nat} {j : RingJob} {rel size : Nat} : s₀.Keeps (State.ringSend s n i j rel size) := by
  simp only [State.ringSend]
  split
  · exact hs.ringPiece
  · exact (by split; exact (hs.qmRule.of_eq ‹_›).ringPiece; exact (hs.qmRule.of_eq ‹_›).updQm.ownTxid.sendOrdered)

theorem State.Keeps.deqAnswer (hs : s₀.Keeps s) {n : Nat} {j : RingJob} {q : Pkt} : s₀.Keeps (State.deqAnswer s n j q) :=
  (.ite hs.dropJob.answer hs.dropJob.updQ.count.send.answer)

theorem State.Keeps.ringInject (hs : s₀.Keeps s) {n : Nat} : s₀.Keeps (State.ringInject s n) := by
  unfold State.ringInject
  exact (.ite hs (by split; exact hs; exact (by split; exact (by split; exact (by split; exact hs.updQm.deqAnswer; exact hs.updQm); exact hs.updQm); exact (by split; exact hs.updQm; exact hs; exact hs.updQm.ringSend))))

theorem State.Keeps.ringAnswer (hs : s₀.Keeps s) {n : Nat} {p : Pkt} : s₀.Keeps (State.ringAnswer s n p) := by
  simp only [State.ringAnswer]
  split
  · exact (.ite hs.updNi.lateAnswer (.ite hs.updNi.updQm.freeTxid hs.updNi.updQm.freeTxid.ringPiece))
  · exact hs.updNi.lateAnswer

theorem State.Keeps.ringExpire (hs : s₀.Keeps s) {n i : Nat} {e : RingEnt} : s₀.Keeps (State.ringExpire s n i e) :=
  (.ite hs.bump.count.raiseNi.updQm hs.bump.count.raiseNi.updQm.ringPiece)

theorem State.Keeps.ringSquash (hs : s₀.Keeps s) {n i : Nat} {e : RingEnt} : s₀.Keeps (State.ringSquash s n i e) :=
  hs.updQm.ringPiece

theorem State.Keeps.tickRing (hs : s₀.Keeps s) {n : Nat} : s₀.Keeps (State.tickRing s n) :=
  ((hs.foldl fun _ _ hs => hs.ringAnswer).foldl fun _ _ hs => (.ite hs.ringDone hs.ringBegin)).ringInject

theorem State.Keeps.qmTake (hs : s₀.Keeps s) {n : Nat} {q : Pkt} : s₀.Keeps (State.qmTake s n q) :=
  hs.updNi

theorem State.Keeps.qmServe (hs : s₀.Keeps s) {n : Nat} {opc : BitVec 6} {table : WordErr} {go : Pkt → State → State} (hg : ∀ p s, s₀.Keeps s → s₀.Keeps (go p s)) : s₀.Keeps (State.qmServe s n opc table go) := by
  unfold State.qmServe
  dsimp only
  exact .ite hs (by split; exact hs.qmTake.raiseNi.answer.sinkData; exact (by split; exact hs; exact (.ite hs.qmTake.raiseNi.answer (by split; exact (hs.tableCheck.of_eq ‹_›).fenceNi; exact hg _ _ (hs.tableCheck.of_eq ‹_›)))))

theorem State.Keeps.qmDeny (hs : s₀.Keeps s) {n : Nat} {q : Pkt} : s₀.Keeps (State.qmDeny s n q) :=
  hs.bump.answer

theorem State.Keeps.qmFull (hs : s₀.Keeps s) {n : Nat} {q : Pkt} : s₀.Keeps (State.qmFull s n q) :=
  hs.bump.count.answer

theorem State.Keeps.enqueue (hs : s₀.Keeps s) {n : Nat} {q data : Pkt} : s₀.Keeps (State.enqueue s n q data) :=
  (.ite hs.answer (.ite hs.qmDeny.raiseNi (.ite hs.qmDeny (.ite hs.bump.answer (.ite hs.qmFull (.ite (.ite hs.qmFull hs.qmFull.updQ.queueEvent) hs.ringJob))))))

theorem execEnq_keeps (hs : s₀.Keeps s) {q : Fin 4} {table : WordErr} : s₀.KeepsOut (execEnq q table s) :=
  (.next (hs.qmServe fun _ _ hs => hs.qmTake.enqueue))

theorem State.Keeps.doorbell (hs : s₀.Keeps s) {n : Nat} {q : Pkt} : s₀.Keeps (State.doorbell s n q) :=
  (.ite hs.answer (.ite hs.qmDeny (.ite hs.qmFull hs.ringJob)))

theorem execDoorbell_keeps (hs : s₀.Keeps s) {q : Fin 4} {table : WordErr} : s₀.KeepsOut (execDoorbell q table s) :=
  (.next (hs.qmServe fun _ _ hs => hs.qmTake.doorbell))

theorem State.Keeps.dequeue (hs : s₀.Keeps s) {n : Nat} {q : Pkt} : s₀.Keeps (State.dequeue s n q) := by
  unfold State.dequeue
  exact (.ite hs.answer (.ite hs.qmDeny (.ite hs.answer (.ite hs.answer (by split; exact hs.updQ.answer; exact hs.ringJob)))))

theorem execDeq_keeps (hs : s₀.Keeps s) {q : Fin 4} {table : WordErr} : s₀.KeepsOut (execDeq q table s) :=
  (.next (hs.qmServe fun _ _ hs => hs.qmTake.dequeue))

theorem State.Keeps.keepPick (hs : s₀.Keeps s) {n p g : Nat} {k : Pick} : s₀.Keeps (State.keepPick s n p g k) :=
  ((hs.foldl fun _ _ hs => hs.updQ).foldl fun _ _ hs => (.ite hs hs.updQ)).updPort

theorem State.Keeps.stage (hs : s₀.Keeps s) {n p queue input : Nat} : s₀.KeepsOpt (State.stage s n p queue input) := by
  simp only [State.stage]
  split
  · exact .none
  · exact (.some hs.ringJob.updQ.updPort)

theorem State.Keeps.portPick (hs : s₀.Keeps s) {n p : Nat} : s₀.Keeps (State.portPick s n p) := by
  simp only [State.portPick]
  refine .ite hs ?_
  split
  · exact hs.stage.getD hs
  · split
    · exact .ite (hs.foldl fun _ _ hs => .ite hs.keepPick hs) hs.updPort
    · split
      · split
        · exact (hs.stage.of_eq ‹_›).keepPick.updPort
        · exact hs
      · exact hs

theorem State.Keeps.portInject (hs : s₀.Keeps s) {n p : Nat} : s₀.Keeps (State.portInject s n p) := by
  unfold State.portInject
  exact (.ite hs (by split; exact hs.updQm.updPort.ownTxid.bump.count.count.count.sendOrdered; exact hs))

theorem execPortSelect_keeps (hs : s₀.Keeps s) {q : Fin 4} {p : Fin 8} {table gate : WordErr} : s₀.KeepsOut (execPortSelect q p table gate s) := by
  unfold execPortSelect
  exact (.ite (.next hs) (by split; exact (.next ((hs.tableCheck.of_eq ‹_›).fenceNi)); exact (by split; exact (.next (((hs.tableCheck.of_eq ‹_›).tableCheck.of_eq ‹_›).fenceNi)); exact (.next (((hs.tableCheck.of_eq ‹_›).tableCheck.of_eq ‹_›).portPick.portInject)))))

theorem State.Keeps.delivered (hs : s₀.Keeps s) {v : Dlv} {status : Nat} : s₀.Keeps (State.delivered s v status) := by
  simp only [State.delivered]
  exact (.ite (by split; exact (.ite hs.updQ (by split; exact hs.updQ.ringJob; exact hs.updQ)); exact hs.updQ) (.ite hs.updQ hs.updQ.queueEvent))

theorem execDeliveryComp_keeps (hs : s₀.Keeps s) {q : Fin 4} : s₀.KeepsOut (execDeliveryComp q s) := by
  simp only [execDeliveryComp]
  split
  · exact (.next hs)
  · exact (.ite (.next hs) (by split; exact (.ite (.next hs.setNi.lateAnswer) (.ite (.next hs.setNi.updQm.freeTxid.streamLeave) (.next hs.setNi.updQm.freeTxid.streamLeave.delivered))); exact (.ite (.next hs.setNi.freeTxid) (.next hs.setNi.lateAnswer))))

theorem execDeliveryRetry_keeps (hs : s₀.Keeps s) {queue : BitVec 16} : s₀.KeepsOut (execDeliveryRetry queue s) := by
  simp only [execDeliveryRetry]
  split
  · exact (.next hs)
  · exact (.ite (.next hs) (.next hs.updQ.bump.count))

theorem State.Keeps.queueResume (hs : s₀.Keeps s) {n : Nat} : s₀.Keeps (State.queueResume s n) :=
  hs.updQ

theorem execQmQResume_keeps (hs : s₀.Keeps s) {q : Fin 4} : s₀.KeepsOut (execQmQResume q s) :=
  (.next hs.queueResume)

theorem execTokenRefill_keeps (hs : s₀.Keeps s)  : s₀.KeepsOut (execTokenRefill s) :=
  (.ite (.next hs) (.next hs.upd))

theorem State.Keeps.shapePut (hs : s₀.Keeps s) {n idx lo v : Nat} : s₀.Keeps (State.shapePut s n idx lo v) :=
  (hs.foldl fun _ _ hs => hs.setTab)

theorem State.Keeps.queueRate (hs : s₀.Keeps s) {n v : Nat} : s₀.Keeps (State.queueRate s n v) :=
  hs.shapePut.updQ

theorem State.Keeps.queueBurst (hs : s₀.Keeps s) {n v : Nat} : s₀.Keeps (State.queueBurst s n v) :=
  hs.shapePut.updQ

theorem State.Keeps.portRate (hs : s₀.Keeps s) {n p v : Nat} : s₀.Keeps (State.portRate s n p v) :=
  hs.shapePut.updPort

theorem State.Keeps.portBurst (hs : s₀.Keeps s) {n p v : Nat} : s₀.Keeps (State.portBurst s n p v) :=
  hs.shapePut.updPort

theorem execQmQRateWrite_keeps (hs : s₀.Keeps s) {q : Fin 4} {value : BitVec 32} : s₀.KeepsOut (execQmQRateWrite q value s) :=
  (.next hs.queueRate)

theorem execQmQBurstWrite_keeps (hs : s₀.Keeps s) {q : Fin 4} {value : BitVec 32} : s₀.KeepsOut (execQmQBurstWrite q value s) :=
  (.next hs.queueBurst)

theorem execQmPRateWrite_keeps (hs : s₀.Keeps s) {q : Fin 4} {p : Fin 8} {value : BitVec 32} : s₀.KeepsOut (execQmPRateWrite q p value s) :=
  (.next hs.portRate)

theorem execQmPBurstWrite_keeps (hs : s₀.Keeps s) {q : Fin 4} {p : Fin 8} {value : BitVec 32} : s₀.KeepsOut (execQmPBurstWrite q p value s) :=
  (.next hs.portBurst)

theorem execGateEntryChange_keeps (hs : s₀.Keeps s) {q : Fin 4} {p : Fin 8} : s₀.KeepsOut (execGateEntryChange q p s) :=
  (.ite (.next hs) (.next hs.updPort))

theorem execGateListStart_keeps (hs : s₀.Keeps s) {q : Fin 4} {p : Fin 8} : s₀.KeepsOut (execGateListStart q p s) := by
  unfold execGateListStart
  split
  · exact (.next hs)
  · exact (.ite (.next hs) (.next hs.updPort))

theorem State.Keeps.sampleRecord (hs : s₀.Keeps s) {n r : Nat} : s₀.Keeps (State.sampleRecord s n r) :=
  (.ite hs.updQm (.count (.ite hs.updQm.ringJob.setReg hs.updQm.ringJob.setReg)))

theorem execSamplePeriodOpen_keeps (hs : s₀.Keeps s) {q : Fin 4} : s₀.KeepsOut (execSamplePeriodOpen q s) :=
  (.ite (.next hs) (.next (.sampleRecord (.updQm (.ite hs hs.bump)))))

theorem State.Keeps.sampleVisit (hs : s₀.Keeps s) {n : Nat} : s₀.Keeps (State.sampleVisit s n) := by
  unfold State.sampleVisit
  exact (.ite hs (by split; exact hs; exact hs.updQm.sampleRecord))

theorem State.Keeps.spineSend (hs : s₀.Keeps s) {q : Pkt} {credit : Bool} : s₀.Keeps (State.spineSend s q credit) :=
  hs.updNi

theorem State.Keeps.spineTry (hs : s₀.Keeps s)  : s₀.Keeps (State.spineTry s) := by
  unfold State.spineTry
  exact (hs.foldl fun _ _ hs => (by split; exact hs; exact (.ite hs.upd.updNi.spineSend (.ite hs.upd.updNi.spineSend hs))))

theorem State.Keeps.spineSeq (hs : s₀.Keeps s) {p : Pkt} : s₀.Keeps (State.spineSeq s p) :=
  hs.upd.spineTry

theorem State.Keeps.spineGranted (hs : s₀.Keeps s) {q : Pkt} : s₀.Keeps (State.spineGranted s q) := by
  unfold State.spineGranted
  split
  · exact hs.upd.updNi.spineTry
  · exact hs

theorem State.Keeps.safGive (hs : s₀.Keeps s) {f : Nat} : s₀.Keeps (State.safGive s f) :=
  (.ite hs.upd.updNi.spineTry hs.upd.send)

theorem State.Keeps.safGrant (hs : s₀.Keeps s)  : s₀.Keeps (State.safGrant s) :=
  (hs.foldl fun _ _ hs => (.ite (hs.foldl fun _ _ hs => (.ite hs.safGive hs)) hs))

theorem State.Keeps.safEntPut (hs : s₀.Keeps s) {n v : Nat} : s₀.Keeps (State.safEntPut s n v) :=
  (.ite hs.setRf.safGrant hs.setRf)

theorem State.Keeps.safPooldefPut (hs : s₀.Keeps s) {v : Nat} : s₀.Keeps (State.safPooldefPut s v) :=
  (.ite hs.setRf hs.setRf)

theorem execSafEntWrite_keeps (hs : s₀.Keeps s) {n : Fin 32} {value : BitVec 32} : s₀.KeepsOut (execSafEntWrite n value s) :=
  (.next hs.safEntPut)

theorem execSafPooldefWrite_keeps (hs : s₀.Keeps s) {value : BitVec 32} : s₀.KeepsOut (execSafPooldefWrite value s) :=
  (.next hs.safPooldefPut)

theorem State.Keeps.setSlot (hs : s₀.Keeps s) {t : SafSlot} : s₀.Keeps (State.setSlot s t) :=
  hs.upd

theorem State.Keeps.sendArms (hs : s₀.Keeps s) {t : SafSlot} : s₀.Keeps (State.sendArms s t) :=
  (hs.foldl fun _ _ hs => hs.send)

theorem State.Keeps.safDenied (hs : s₀.Keeps s) {t : SafSlot} {cause entry : Nat} : s₀.Keeps (State.safDenied s t cause entry) :=
  hs.denied.setSlot

theorem State.Keeps.safForward (hs : s₀.Keeps s) {t : SafSlot} : s₀.KeepsPair (State.safForward s t) := by
  simp only [State.safForward]
  split
  · exact (.mk hs.ruleEcc.safDenied)
  · exact (by split; exact (.mk hs.ruleEcc.safDenied); exact (.ite (.mk hs.ruleEcc) (.mk hs.ruleEcc.setSlot.sendOrdered)))

theorem State.Keeps.safForwards (hs : s₀.Keeps s)  : s₀.Keeps (State.safForwards s) := 
  .of_pair (.foldl (.mk hs) fun _ _ hs => .ite hs.snd.safForward hs)

theorem State.Keeps.safSlot (hs : s₀.Keeps s) {q : Pkt} {pool : Bool} {x : SafSlot} {t : State} (h : s.safSlot q pool = some (x, t)) :
    s₀.Keeps t := by
  unfold State.safSlot at h
  split at h <;> cases h
  exact hs.upd

theorem State.Keeps.safAdmit (hs : s₀.Keeps s) {t : SafSlot} {data : Option Pkt} {stored : WordErr} : s₀.Keeps (State.safAdmit s t data stored) := by
  unfold State.safAdmit
  split
  rename_i e inj s1 heq
  have h1 : s₀.Keeps s1 := hs.checkWord.of_eq heq
  extract_lets s2 t s3
  have h2 : s₀.Keeps s2 := by unfold s2; split; exact h1; exact h1.raiseSpine; exact h1.raiseSpine
  exact .ite h2.upd.count.setSlot (.ite h2.upd.count.setSlot.sendArms h2.upd.count.setSlot.safForwards)

theorem State.Keeps.safTake (hs : s₀.Keeps s) {p : Pkt} : s₀.Keeps (State.safTake s p) :=
  hs.updNi

theorem execSafHeaderArrive_keeps (hs : s₀.Keeps s) {stored : WordErr} : s₀.KeepsOut (execSafHeaderArrive stored s) := by
  simp only [execSafHeaderArrive]
  exact (.ite (.next hs) (by split; exact (.next hs.safTake.safAdmit); exact (by split; exact (.next hs); exact (.ite (.next hs.safTake.raiseNi.answer) (.ite (by split; exact (.next hs); exact (by split; exact (.next ((hs.safSlot ‹_›).upd.safTake.safTake.safAdmit)); exact (.next ((hs.safSlot ‹_›).upd.safTake.safAdmit)))) (.ite (.next hs) (.next hs.safTake.upd)))))))

theorem execSafPoolGrant_keeps (hs : s₀.Keeps s)  : s₀.KeepsOut (execSafPoolGrant s) := by
  unfold execSafPoolGrant
  exact (.ite (.next hs) (by split; exact (.next hs); exact (by split; exact (.next hs); exact (.ite (.next ((hs.safSlot ‹_›).upd.safAdmit.spineGranted)) (.next ((hs.safSlot ‹_›).upd.send))))))

theorem State.Keeps.safLeave (hs : s₀.Keeps s) {t : SafSlot} : s₀.Keeps (State.safLeave s t) :=
  (.safGrant (.ite (.ite (.upd (.ite (.spineTry (.updNi (.ite hs.upd.upd hs.upd))) (.ite hs.upd.upd hs.upd))) (.ite (.spineTry (.updNi (.ite hs.upd.upd hs.upd))) (.ite hs.upd.upd hs.upd))) (.send (.ite hs.upd.upd hs.upd))))

theorem State.Keeps.safAnswer (hs : s₀.Keeps s) {p : Pkt} : s₀.Keeps (State.safAnswer s p) := by
  unfold State.safAnswer
  exact (.ite (.ite hs.safTake.upd hs.safTake) (by split; exact hs.safTake.setSlot.streamLeave.safForwards; exact hs.safTake.lateAnswer))

theorem State.Keeps.safAnswers (hs : s₀.Keeps s)  : s₀.Keeps (State.safAnswers s) := by
  unfold State.safAnswers
  split
  · exact hs.safAnswer
  · exact hs

theorem execSafComplete_keeps (hs : s₀.Keeps s)  : s₀.KeepsOut (execSafComplete s) := by
  unfold execSafComplete
  exact (.ite (.next hs) (by split; exact (.ite (.next hs.safAnswers.safLeave) (.next hs.safAnswers)); exact (.next hs.safAnswers)))

theorem State.Keeps.safWait (hs : s₀.Keeps s) {f i : Nat} : s₀.Keeps (State.safWait s f i) := by
  unfold State.safWait
  split
  · exact hs
  · exact (.ite hs.setSrc.bump.count.raiseNi hs)

theorem State.Keeps.spineWait (hs : s₀.Keeps s) {i : Nat} : s₀.Keeps (State.spineWait s i) := by
  unfold State.spineWait
  split
  · exact hs
  · exact (.ite hs.upd.bump.count.raiseNi hs)

theorem State.Keeps.expired (hs : s₀.Keeps s) {f txid : Nat} : s₀.Keeps (State.expired s f txid) :=
  hs.bump.count.raiseNi

theorem State.Keeps.pieceExpire (hs : s₀.Keeps s) {f i : Nat} {e : SrcEnt} : s₀.Keeps (State.pieceExpire s f i e) :=
  (.ite (.setSrc (.ite (.updNi (.ite (.updNi (.ite hs.expired.streamLeave hs.expired)) (.ite hs.expired.streamLeave hs.expired))) (.ite (.updNi (.ite hs.expired.streamLeave hs.expired)) (.ite hs.expired.streamLeave hs.expired)))) (.ite (.partDone (.setSrc (.ite (.updNi (.ite (.updNi (.ite hs.expired.streamLeave hs.expired)) (.ite hs.expired.streamLeave hs.expired))) (.ite (.updNi (.ite hs.expired.streamLeave hs.expired)) (.ite hs.expired.streamLeave hs.expired))))) (.ite (.setSrc (.cohError (.ite (.updNi (.ite (.updNi (.ite hs.expired.streamLeave hs.expired)) (.ite hs.expired.streamLeave hs.expired))) (.ite (.updNi (.ite hs.expired.streamLeave hs.expired)) (.ite hs.expired.streamLeave hs.expired))))) (.progress (.setSrc (.ite (.updNi (.ite (.updNi (.ite hs.expired.streamLeave hs.expired)) (.ite hs.expired.streamLeave hs.expired))) (.ite (.updNi (.ite hs.expired.streamLeave hs.expired)) (.ite hs.expired.streamLeave hs.expired))))))))

theorem State.Keeps.dlvExpire (hs : s₀.Keeps s) {n i : Nat} {v : Dlv} : s₀.Keeps (State.dlvExpire s n i v) :=
  (.ite hs.expired.streamLeave.updQm hs.expired.streamLeave.updQm.delivered)

theorem State.Keeps.slotExpire (hs : s₀.Keeps s) {t : SafSlot} : s₀.Keeps (State.slotExpire s t) :=
  hs.expired.setSlot.streamLeave.upd.safForwards

theorem execSrcTrackerExpire_keeps (hs : s₀.Keeps s) {fid : Fid} {entry : BitVec 8} : s₀.KeepsOut (execSrcTrackerExpire fid entry s) := by
  unfold execSrcTrackerExpire
  exact (.ite (by split; exact (.next hs); exact (.ite (.next hs) (.next hs.pieceExpire))) (.ite (by split; exact (.ite (.next hs) (.next hs.dlvExpire)); exact (.ite (.next hs) (.next hs.ringExpire)); exact (.next hs)) (.ite (by split; exact (.ite (.next hs) (.next hs.slotExpire)); exact (.next hs)) (.ite (.next hs) .fault))))

theorem execTrackerRelease_keeps (hs : s₀.Keeps s) {fid : Fid} {entry : BitVec 8} : s₀.KeepsOut (execTrackerRelease fid entry s) := by
  simp only [execTrackerRelease]
  exact (.ite (by split; exact (.next hs); exact (.ite (.next hs.setSrc) (.next hs))) (.ite (by split; exact (.ite (.next hs.updQm.freeTxid) (.next hs)); exact (.ite (.next hs.updQm.freeTxid) (.next hs)); exact (.next hs)) (.ite (.ite (.next hs.upd) (.next hs)) (.ite (.next hs) .fault))))

theorem execSafWaitExpire_keeps (hs : s₀.Keeps s) {fid : Fid} {entry : BitVec 8} : s₀.KeepsOut (execSafWaitExpire fid entry s) :=
  (.ite (.next hs.safWait) (.ite (.next hs.spineWait) (.ite (.next hs) .fault)))

theorem State.Keeps.updSlc (hs : s₀.Keeps s) {sl : Nat} {g : Slc → Slc} : s₀.Keeps (State.updSlc s sl g) :=
  hs.upd

theorem State.Keeps.freezeEnd (hs : s₀.Keeps s)  : s₀.Keeps (State.freezeEnd s) :=
  (.ite hs hs.upd)

theorem State.Keeps.slcReject (hs : s₀.Keeps s) {sl : Nat} : s₀.Keeps (State.slcReject s sl) :=
  hs.setRf

theorem State.Keeps.mapThreads (hs : s₀.Keeps s) {ok : Thr → Bool} {g : Nat → Nat → Thr → Thr} : s₀.Keeps (State.mapThreads s ok g) :=
  hs.upd

theorem State.Keeps.slcFreeze (hs : s₀.Keeps s) {sl : Nat} : s₀.Keeps (State.slcFreeze s sl) :=
  hs.updSlc.mapThreads.spineSeq

theorem State.Keeps.slcThaw (hs : s₀.Keeps s) {sl : Nat} : s₀.Keeps (State.slcThaw s sl) := by
  have h1 : s₀.Keeps ((s.updSlc sl fun c => { c with mode := .active })) := hs.updSlc
  unfold State.slcThaw
  exact ((h1.foldl fun _ _ hs => .ite hs.reloadQueue hs).foldl fun _ _ hs => .ite hs.setThr hs).freezeEnd.sliceEvent

theorem State.Keeps.slcReset (hs : s₀.Keeps s) {sl : Nat} : s₀.Keeps (State.slcReset s sl) :=
  hs.updSlc.setReg.mapThreads.freezeEnd

theorem State.Keeps.squashPiece (hs : s₀.Keeps s) {f i : Nat} {e : SrcEnt} : s₀.Keeps (State.squashPiece s f i e) :=
  (.ite hs.setSrc.partDone (.ite hs.setSrc hs.setSrc))

theorem State.Keeps.squashNi (hs : s₀.Keeps s) {f sl : Nat} : s₀.Keeps (State.squashNi s f sl) :=
  (.ite (hs.bump.foldl fun _ _ hs => hs.squashPiece) ((hs.bump.foldl fun _ _ hs => hs.squashPiece).foldl fun _ _ hs => hs.progress))

theorem State.Keeps.slcSquash (hs : s₀.Keeps s) {sl : Nat} : s₀.Keeps (State.slcSquash s sl) :=
  (((hs.updSlc.foldl fun _ _ hs => (.ite hs.squashNi hs)).foldl fun _ _ hs => (hs.bump.updQm.bump.foldl fun _ _ hs => hs.ringSquash)).upd.foldl fun _ _ hs => hs.send)

theorem State.Keeps.clearBank (hs : s₀.Keeps s) {b : Nat} : s₀.Keeps (State.clearBank s b) :=
  (hs.upd.foldl fun _ _ hs => (.ite hs.setRf hs))

theorem State.Keeps.slcClear (hs : s₀.Keeps s) {sl : Nat} : s₀.Keeps (State.slcClear s sl) :=
  (((hs.foldl fun _ _ hs => hs.discardQueue.updQ).foldl fun _ _ hs => hs.adoptIdle.updThr).foldl fun _ _ hs => (hs.foldl fun _ _ hs => hs.putWord)).clearBank.putWord.updSlc.freezeEnd.sliceEvent

theorem State.Keeps.slcSave (hs : s₀.Keeps s) {sl : Nat} : s₀.Keeps (State.slcSave s sl) :=
  hs.updSlc

theorem State.Keeps.spineCheck (hs : s₀.Keeps s) {f pa opc : Nat} : s₀.KeepsPair (State.spineCheck s f pa opc) := by
  simp only [State.spineCheck]
  split
  · exact (.mk hs.ruleEcc.denied)
  · exact (.ite (.mk hs.ruleEcc) (by split; exact (.mk hs.ruleEcc.ruleEcc.denied); exact (.mk hs.ruleEcc.ruleEcc)))

theorem State.Keeps.areaOk (hs : s₀.Keeps s) {f base len opc : Nat} : s₀.KeepsPair (State.areaOk s f base len opc) := 
  .foldl (.mk hs) fun _ _ hs => .ite hs.snd.spineCheck hs

theorem execSaveDone_keeps (hs : s₀.Keeps s) {sl : Fin 64} {status : BitVec 8} : s₀.KeepsOut (execSaveDone sl status s) := by
  unfold execSaveDone
  split
  · exact (.next hs)
  · exact (.ite (.next hs.areaOk.snd.updSlc.sliceEvent) (.next hs.areaOk.snd.updSlc.sliceEvent))

theorem State.Keeps.restore (hs : s₀.Keeps s) {sl : Nat} {a : List Byte} : s₀.Keeps (State.restore s sl a) :=
  ((hs.foldl fun _ _ hs => hs.updQ).foldl fun _ _ hs => hs.updThr)

theorem execRestoreDone_keeps (hs : s₀.Keeps s) {sl : Fin 64} {area : List Byte} {status : BitVec 8} : s₀.KeepsOut (execRestoreDone sl area status s) :=
  (.ite (.next hs) (.ite (.next hs.areaOk.snd.updSlc.restore.sliceEvent) (.next hs.areaOk.snd.updSlc.sliceEvent)))

theorem State.Keeps.slcCtrl (hs : s₀.Keeps s) {sl v : Nat} : s₀.Keeps (State.slcCtrl s sl v) :=
  (.ite hs (.ite hs.slcReject (.ite (.of_pair (.ite (.mk hs.slcReset) (.ite (.mk hs.slcFreeze) (.ite (.mk hs.slcThaw) (.ite (.mk hs.slcSave) (.mk hs.updSlc)))))) (.slcReject (.of_pair (.ite (.mk hs.slcReset) (.ite (.mk hs.slcFreeze) (.ite (.mk hs.slcThaw) (.ite (.mk hs.slcSave) (.mk hs.updSlc))))))))))

theorem execSlcFreeze_keeps (hs : s₀.Keeps s) {sl : Fin 64} : s₀.KeepsOut (execSlcFreeze sl s) :=
  (.next hs.slcCtrl)

theorem execSlcThaw_keeps (hs : s₀.Keeps s) {sl : Fin 64} : s₀.KeepsOut (execSlcThaw sl s) :=
  (.next hs.slcCtrl)

theorem execSlcReset_keeps (hs : s₀.Keeps s) {sl : Fin 64} : s₀.KeepsOut (execSlcReset sl s) :=
  (.next hs.slcCtrl)

theorem execSlcSave_keeps (hs : s₀.Keeps s) {sl : Fin 64} : s₀.KeepsOut (execSlcSave sl s) :=
  (.next hs.slcCtrl)

theorem execSlcRestore_keeps (hs : s₀.Keeps s) {sl : Fin 64} : s₀.KeepsOut (execSlcRestore sl s) :=
  (.next hs.slcCtrl)

theorem execSliceFrozen_keeps (hs : s₀.Keeps s) {sl : Fin 64} : s₀.KeepsOut (execSliceFrozen sl s) :=
  (.ite (.next hs) (.next hs.updSlc.upd.sliceEvent))

theorem execFreezeStuck_keeps (hs : s₀.Keeps s) {sl : Fin 64} : s₀.KeepsOut (execFreezeStuck sl s) :=
  (.ite (.next hs) (.next hs.updSlc.raiseSpine.sliceEvent))

theorem execSliceResetSquash_keeps (hs : s₀.Keeps s) {sl : Fin 64} : s₀.KeepsOut (execSliceResetSquash sl s) :=
  (.ite (.next hs) (.next hs.slcSquash))

theorem execSliceResetClear_keeps (hs : s₀.Keeps s) {sl : Fin 64} : s₀.KeepsOut (execSliceResetClear sl s) :=
  (.ite (.next hs) (.next hs.slcClear))

theorem State.Keeps.qliveWrite (hs : s₀.Keeps s) {sl v : Nat} : s₀.Keeps (State.qliveWrite s sl v) :=
  hs.setRf

theorem execSlcQliveWrite_keeps (hs : s₀.Keeps s) {sl : Fin 64} {value : BitVec 32} : s₀.KeepsOut (execSlcQliveWrite sl value s) :=
  (.next hs.qliveWrite)

theorem State.Keeps.slcSwitch (hs : s₀.Keeps s)  : s₀.Keeps (State.slcSwitch s) :=
  hs.upd.freezeEnd

theorem State.Keeps.copyTabs (hs : s₀.Keeps s) {src : Nat} {ok : Nat → Nat → Bool} : s₀.Keeps (State.copyTabs s src ok) :=
  hs.upd

theorem State.Keeps.pwrReject (hs : s₀.Keeps s)  : s₀.Keeps (State.pwrReject s) :=
  hs.setRf

theorem State.Keeps.raisePower (hs : s₀.Keeps s) {d cls lvl : Nat} {u : UnitRef} {inj : Bool} : s₀.Keeps (State.raisePower s d cls lvl u inj) :=
  hs.raiseSpine

theorem State.Keeps.refused (hs : s₀.Keeps s) {d : Nat} {u : UnitRef} {reason : Nat} : s₀.Keeps (State.refused s d u reason) :=
  hs.bump.setReg

theorem State.Keeps.wantImage (hs : s₀.Keeps s) {r : CloveReq} : s₀.Keeps (State.wantImage s r) :=
  hs.upd

theorem State.Keeps.wantReturn (hs : s₀.Keeps s)  : s₀.Keeps (State.wantReturn s) :=
  (.ite hs hs.wantImage)

theorem State.Keeps.startEntry (hs : s₀.Keeps s) {ds : List Nat} {t : Nat} : s₀.Keeps (State.startEntry s ds t) := by
  simp only [State.startEntry]
  split
  · exact hs
  · exact (.ite (hs.foldl fun _ _ hs => hs.setDomain) (by split; exact (hs.foldl fun _ _ hs => hs.refused); exact (.ite (hs.foldl fun _ _ hs => hs.setDomain) ((hs.foldl fun _ _ hs => hs.setDomain).wantImage))))

theorem State.Keeps.wakeEdge (hs : s₀.Keeps s) {d : Nat} : s₀.Keeps (State.wakeEdge s d) :=
  (.ite hs hs.setDomain)

theorem State.Keeps.pwrRequest (hs : s₀.Keeps s) {ds : List Nat} {t : Nat} : s₀.Keeps (State.pwrRequest s ds t) :=
  (.ite hs.pwrReject (.ite (hs.foldl fun _ _ hs => hs.wakeLevel) (.ite ((hs.foldl fun _ _ hs => hs.setDomain).pwrReject) ((hs.foldl fun _ _ hs => hs.setDomain).startEntry))))

theorem State.Keeps.endSeq (hs : s₀.Keeps s) {d : Nat} : s₀.Keeps (State.endSeq s d) := by
  unfold State.endSeq
  split
  · exact hs
  · exact (.ite hs.setDomain hs.setDomain.pwrRequest)

theorem State.Keeps.abandonEntry (hs : s₀.Keeps s) {d : Nat} : s₀.Keeps (State.abandonEntry s d) :=
  (.ite ((hs.foldl fun _ _ hs => hs.setDomain).wantReturn) ((hs.foldl fun _ _ hs => hs.setDomain).foldl fun _ _ hs => hs.endSeq))

theorem State.Keeps.refuseEntry (hs : s₀.Keeps s) {d : Nat} {u : UnitRef} {reason : Nat} : s₀.Keeps (State.refuseEntry s d u reason) :=
  hs.refused.abandonEntry

theorem State.Keeps.imageFailed (hs : s₀.Keeps s) {r : CloveReq} : s₀.Keeps (State.imageFailed s r) := by
  unfold State.imageFailed
  split
  · exact (.ite hs.refuseEntry hs)
  · exact hs

theorem State.Keeps.commitOne (hs : s₀.Keeps s) {d : Nat} : s₀.Keeps (State.commitOne s d) :=
  (.ite (.ite (hs.setDomain.foldl fun _ _ hs => hs.updNi) hs.setDomain) (.endSeq (.ite (hs.setDomain.foldl fun _ _ hs => hs.updNi) hs.setDomain)))

theorem State.Keeps.readyCommit (hs : s₀.Keeps s) {d : Nat} : s₀.Keeps (State.readyCommit s d) :=
  (.ite (hs.setDomain.foldl fun _ _ hs => hs.commitOne) hs.setDomain)

theorem State.Keeps.askDone (hs : s₀.Keeps s) {d : Nat} : s₀.Keeps (State.askDone s d) :=
  (.ite hs (.ite hs.abandonEntry (.ite hs.setDomain hs.setDomain.readyCommit)))

theorem State.Keeps.powerImageT (hs : s₀.Keeps s) {r : CloveReq} : s₀.Keeps (State.powerImageT s r) := by
  unfold State.powerImageT
  split
  · exact (hs.foldl fun _ _ hs => (.ite hs.setDomain hs))
  · exact hs

theorem State.Keeps.returnImageT (hs : s₀.Keeps s)  : s₀.Keeps (State.returnImageT s) :=
  ((hs.foldl fun _ _ hs => hs.setDomain).foldl fun _ _ hs => hs.endSeq)

theorem State.Keeps.powerDrained (hs : s₀.Keeps s)  : s₀.Keeps (State.powerDrained s) :=
  (hs.foldl fun _ _ hs => (.ite hs (.ite hs.abandonEntry hs.setDomain)))

theorem State.Keeps.putEntry (hs : s₀.Keeps s) {bank : Nat} {w : TabWrite} : s₀.Keeps (State.putEntry s bank w) :=
  (.ite (.ite hs hs.setTab) (.ite hs.setTab.setTab hs.setTab))

theorem State.Keeps.resetShadow (hs : s₀.Keeps s) {rules : Bool} : s₀.Keeps (State.resetShadow s rules) :=
  hs.copyTabs

theorem State.Keeps.imageless (hs : s₀.Keeps s) {k : Option FenceKey} : s₀.Keeps (State.imageless s k) := by
  unfold State.imageless
  exact (hs.foldl fun _ _ hs => (by split; exact hs.updHm; exact hs))

theorem State.Keeps.noImage (hs : s₀.Keeps s) {k : Option FenceKey} : s₀.Keeps (State.noImage s k) :=
  (.raiseSpine (.ite (.ite hs.imageless hs.imageless.setRf) (.upd (.ite hs.imageless hs.imageless.setRf))))

theorem State.Keeps.startFetch (hs : s₀.Keeps s) {r : CloveReq} : s₀.Keeps (State.startFetch s r) :=
  hs.setReg.setReg.upd

theorem State.Keeps.disarm (hs : s₀.Keeps s)  : s₀.Keeps (State.disarm s) :=
  hs.upd

theorem State.Keeps.prgStop (hs : s₀.Keeps s) {err : Nat} : s₀.Keeps (State.prgStop s err) := by
  simp only [State.prgStop]
  split
  · exact (.ite (.imageFailed (.raiseSpine (.ite hs.upd.setRf.disarm hs.upd.setRf.disarm.resetShadow))) (.raiseSpine (.ite hs.upd.setRf.disarm hs.upd.setRf.disarm.resetShadow)))
  · exact (.raiseSpine (.ite hs.upd.setRf.disarm hs.upd.setRf.disarm.resetShadow))

theorem State.Keeps.preempt (hs : s₀.Keeps s) {r : CloveReq} : s₀.Keeps (State.preempt s r) := by
  unfold State.preempt
  exact (.ite (.startFetch (by split; exact hs.upd.prgStop.wantImage; exact hs.upd.prgStop)) hs.startFetch)

theorem State.Keeps.pump (hs : s₀.Keeps s)  : s₀.Keeps (State.pump s) := by
  unfold State.pump
  exact (.ite hs (by split; exact (.ite hs.upd.noImage hs.upd.preempt); exact (.ite hs hs.upd.startFetch); exact hs))

theorem State.Keeps.callImage (hs : s₀.Keeps s) {key : Nat} {k : FenceKey} : s₀.Keeps (State.callImage s key k) :=
  (.ite hs.noImage (.ite hs.wantImage hs.preempt))

theorem State.Keeps.markCalled (hs : s₀.Keeps s) {ks : List FenceKey} : s₀.Keeps (State.markCalled s ks) :=
  hs.upd

theorem State.Keeps.fenceKey (hs : s₀.Keeps s) {k : FenceKey} : s₀.Keeps (s.fenceKey k) := by
  cases k with
  | router n => exact hs.fenceRouter
  | link n p => exact hs.fenceLink
  | ni f => exact hs.fenceFid
  | home k => exact hs.fenceHome
  | cluster k => exact hs.fenceCluster
  | quadrant q => exact (hs.setRf.foldl fun _ _ hs => hs.fenceRouter).foldl fun _ _ hs => hs.fenceFid

theorem State.Keeps.orderFence (hs : s₀.Keeps s) {k : FenceKey} : s₀.Keeps (State.orderFence s k) := by
  unfold State.orderFence
  exact (.ite hs (by split; exact hs.fenceKey.markCalled.callImage; exact hs.fenceKey.markCalled))

theorem State.Keeps.cover (hs : s₀.Keeps s) {k : FenceKey} : s₀.Keeps (State.cover s k) :=
  hs.upd

theorem execFaultReport_keeps (hs : s₀.Keeps s)  : s₀.KeepsOut (execFaultReport s) := by
  unfold execFaultReport
  split
  · exact (.next hs)
  · exact (.ite (.next hs.updNi.answer.upd) (.next (.collect (.upd (.ite hs.updNi.answer.bump hs.updNi.answer)))))

theorem execAlarmFrame_keeps (hs : s₀.Keeps s) {node : Fin 144} : s₀.KeepsOut (execAlarmFrame node s) := by
  unfold execAlarmFrame
  split
  · exact (.next hs)
  · exact (.next hs.upd.collect)

theorem execFaultReportResend_keeps (hs : s₀.Keeps s) {fid : Fid} : s₀.KeepsOut (execFaultReportResend fid s) := by
  unfold execFaultReportResend
  exact (.ite (by split; exact (.next hs); exact (.ite (.next hs) (.next hs.updNi.inject))) .fault)

theorem State.Keeps.setPend (hs : s₀.Keeps s) {c v : Nat} : s₀.Keeps (State.setPend s c v) :=
  hs.setRf

theorem State.Keeps.latchFault (hs : s₀.Keeps s) {r : FaultRec} {lvl : Nat} : s₀.Keeps (State.latchFault s r lvl) :=
  (.ite hs.latchWords.setRf hs.latchWords)

theorem State.Keeps.assertPin (hs : s₀.Keeps s)  : s₀.Keeps (State.assertPin s) :=
  hs.upd

theorem State.Keeps.faultIrq (hs : s₀.Keeps s)  : s₀.Keeps (State.faultIrq s) :=
  (.ite hs.ownIntr hs)

theorem State.Keeps.ackOne (hs : s₀.Keeps s) {c : Nat} : s₀.Keeps (State.ackOne s c) :=
  hs.setPend.upd

theorem State.Keeps.ackFaults (hs : s₀.Keeps s) {value : Nat} : s₀.Keeps (State.ackFaults s value) :=
  (.foldl (.ite hs hs.upd) fun _ _ hs => (.ite hs.ackOne hs))

theorem execFcAck_keeps (hs : s₀.Keeps s) {value : BitVec 32} : s₀.KeepsOut (execFcAck value s) :=
  (.next hs.ackFaults)

theorem State.Keeps.pinRelease (hs : s₀.Keeps s)  : s₀.Keeps (State.pinRelease s) :=
  (.ite hs.setRf (.ite hs.upd hs.upd))

theorem execFcPinRelease_keeps (hs : s₀.Keeps s)  : s₀.KeepsOut (execFcPinRelease s) :=
  (.next hs.pinRelease)

theorem execPinMinimumEnd_keeps (hs : s₀.Keeps s)  : s₀.KeepsOut (execPinMinimumEnd s) :=
  (.ite (.next hs) (.ite (.next hs.upd) (.next hs.upd)))

theorem State.Keeps.injArm (hs : s₀.Keeps s)  : s₀.Keeps (State.injArm s) :=
  (.ite hs.setRf hs.upd.setRf)

theorem execInjArm_keeps (hs : s₀.Keeps s)  : s₀.KeepsOut (execInjArm s) :=
  (.next hs.injArm)

theorem State.Keeps.injDisarm (hs : s₀.Keeps s)  : s₀.Keeps (State.injDisarm s) :=
  hs.upd.setRf

theorem execInjDisarm_keeps (hs : s₀.Keeps s)  : s₀.KeepsOut (execInjDisarm s) :=
  (.next hs.injDisarm)

theorem State.Keeps.swRaise (hs : s₀.Keeps s) {src : Nat} : s₀.Keeps (State.swRaise s src) :=
  hs.raiseSpine

theorem execSwRaise_keeps (hs : s₀.Keeps s) {src : Fid} : s₀.KeepsOut (execSwRaise src s) :=
  (.ite .fault (.next hs.swRaise))

theorem State.Keeps.voteMiss (hs : s₀.Keeps s) {u : Nat} {copy : Option Nat} {inj : Bool} : s₀.Keeps (State.voteMiss s u copy inj) := by
  unfold State.voteMiss
  split
  · exact hs.raiseSpine
  · exact (.ite hs (.ite hs.raiseSpine hs.setRf.raiseSpine))

theorem execSpineVoteMismatch_keeps (hs : s₀.Keeps s) {unit : Fin 6} {copy : Option (Fin 3)} : s₀.KeepsOut (execSpineVoteMismatch unit copy s) :=
  (.next hs.voteMiss)

theorem execVoteResyncDone_keeps (hs : s₀.Keeps s) {unit : Fin 6} {copy : Fin 3} : s₀.KeepsOut (execVoteResyncDone unit copy s) :=
  (.next hs.setRf)

theorem State.Keeps.voterTick (hs : s₀.Keeps s)  : s₀.Keeps (State.voterTick s) := by
  unfold State.voterTick
  split
  · exact (.ite hs.voteMiss.injUse hs)
  · exact hs

theorem State.Keeps.keepTime (hs : s₀.Keeps s)  : s₀.Keeps (State.keepTime s) :=
  hs.upd

theorem State.Keeps.spineTime (hs : s₀.Keeps s)  : s₀.Keeps (State.spineTime s) :=
  hs.upd.setRf

theorem State.Keeps.raiseTime (hs : s₀.Keeps s) {u : UnitRef} {lvl : Nat} : s₀.Keeps (State.raiseTime s u lvl) :=
  (.ite hs.raiseRtr hs.raiseNi)

theorem State.Keeps.fenceLeaf (hs : s₀.Keeps s) {u : UnitRef} : s₀.Keeps (State.fenceLeaf s u) :=
  (.ite hs (.ite hs.fenceRouter hs.fenceFid))

theorem execSyncBeat_keeps (hs : s₀.Keeps s) {leaf : UnitRef} {reading : LeafReading} : s₀.KeepsOut (execSyncBeat leaf reading s) := by
  unfold execSyncBeat
  exact (.ite .fault (.ite (.next hs) (by split; exact (.ite (.next hs.keepTime.upd) (.next hs.keepTime.upd.raiseTime.fenceLeaf)); exact (.ite (.next hs.keepTime.upd) (.ite (.next hs.keepTime.upd.raiseTime.fenceLeaf) (.next hs.keepTime.upd.bump.latchWords.raiseTime))))))

theorem State.Keeps.timReject (hs : s₀.Keeps s)  : s₀.Keeps (State.timReject s) :=
  hs.setRf

theorem State.Keeps.cutWindows (hs : s₀.Keeps s)  : s₀.Keeps (State.cutWindows s) :=
  hs.upd

theorem State.Keeps.timSet (hs : s₀.Keeps s)  : s₀.Keeps (State.timSet s) :=
  (.ite hs.upd hs.timReject)

theorem State.Keeps.timStep (hs : s₀.Keeps s)  : s₀.Keeps (State.timStep s) :=
  (.ite hs.timReject hs.upd)

theorem State.Keeps.loadTime (hs : s₀.Keeps s) {new : Nat} : s₀.Keeps (State.loadTime s new) :=
  hs.upd.setRf.cutWindows

theorem State.Keeps.stepTime (hs : s₀.Keeps s) {u : Int} : s₀.Keeps (State.stepTime s u) :=
  hs.upd.upd.cutWindows

theorem State.Keeps.timeJump (hs : s₀.Keeps s)  : s₀.Keeps (State.timeJump s) := by
  unfold State.timeJump
  split
  · exact hs
  · exact hs.upd.loadTime
  · exact hs.upd.stepTime

theorem execTimSet_keeps (hs : s₀.Keeps s)  : s₀.KeepsOut (execTimSet s) :=
  (.next hs.timSet)

theorem execTimStep_keeps (hs : s₀.Keeps s)  : s₀.KeepsOut (execTimStep s) :=
  (.next hs.timStep)

theorem execPpsInEdge_keeps (hs : s₀.Keeps s)  : s₀.KeepsOut (execPpsInEdge s) :=
  (.ite (.next hs.bump) (.next hs.setReg.setReg.setReg.setRf.upd))

theorem execHoldoverEnter_keeps (hs : s₀.Keeps s)  : s₀.KeepsOut (execHoldoverEnter s) :=
  (.ite (.next hs) (.next hs.setRf.raiseSpine))

theorem execPpsOutRise_keeps (hs : s₀.Keeps s)  : s₀.KeepsOut (execPpsOutRise s) :=
  (.ite (.next hs) (.ite (.next hs.upd) (.next hs.upd)))

theorem execPpsOutFall_keeps (hs : s₀.Keeps s)  : s₀.KeepsOut (execPpsOutFall s) := by
  unfold execPpsOutFall
  split
  · exact (.ite (.next hs.upd) (.next hs))
  · exact (.next hs)

theorem execTimeBeacon_keeps (hs : s₀.Keeps s) {sl : Fin 6} {offset : BitVec 32} : s₀.KeepsOut (execTimeBeacon sl offset s) :=
  (.ite (.next hs.setReg.setRf) (.next hs))

theorem State.Keeps.latchTime (hs : s₀.Keeps s)  : s₀.Keeps (State.latchTime s) :=
  hs.upd

theorem execTimNowRead_keeps (hs : s₀.Keeps s)  : s₀.KeepsOut (execTimNowRead s) :=
  (.next hs.latchTime)

theorem State.Keeps.restartCluster (hs : s₀.Keeps s) {k : Nat} : s₀.Keeps (State.restartCluster s k) :=
  (hs.lsZero.bump.updCl.foldl fun _ _ hs => (.ite (.updThr (.ite hs hs.adopt)) hs))

theorem State.Keeps.dropKeys (hs : s₀.Keeps s) {ks : List FenceKey} : s₀.Keeps (State.dropKeys s ks) :=
  hs.upd

theorem State.Keeps.clearRouter (hs : s₀.Keeps s) {n : Nat} : s₀.Keeps (State.clearRouter s n) :=
  hs.upd

theorem State.Keeps.clearHome (hs : s₀.Keeps s) {k : Nat} : s₀.Keeps (State.clearHome s k) :=
  hs.setHm.upd

theorem State.Keeps.unfenceUnit (hs : s₀.Keeps s) {u : UnitRef} : s₀.Keeps (State.unfenceUnit s u) := by
  unfold State.unfenceUnit
  exact (.ite hs (by split; exact hs.setMap.clearRouter.dropKeys; exact hs.setMap.setMap.updNi.clearHome.dropKeys; exact hs.setMap.setMap.updNi.restartCluster.dropKeys; exact hs.setMap.updNi.dropKeys; exact hs))

theorem State.Keeps.quadsNow (hs : s₀.Keeps s)  : s₀.Keeps (State.quadsNow s) :=
  (hs.foldl fun _ _ hs => (.ite hs.setRf.dropKeys hs))

theorem State.Keeps.unfenceAll (hs : s₀.Keeps s)  : s₀.Keeps (State.unfenceAll s) :=
  (hs.foldl fun _ _ hs => hs.unfenceUnit).quadsNow

theorem State.Keeps.linksBack (hs : s₀.Keeps s)  : s₀.Keeps (State.linksBack s) :=
  hs.dropKeys.upd

theorem State.Keeps.applyShadows (hs : s₀.Keeps s)  : s₀.Keeps (State.applyShadows s) := by
  unfold State.applyShadows
  exact (hs.foldl fun _ _ hs => (by split; exact hs.setReg; exact hs)).upd

theorem State.Keeps.keepEpochs (hs : s₀.Keeps s)  : s₀.Keeps (State.keepEpochs s) :=
  hs.upd

theorem State.Keeps.moveBuckets (hs : s₀.Keeps s)  : s₀.Keeps (State.moveBuckets s) :=
  (hs.upd.foldl fun _ _ hs => hs.updHm)

theorem State.Keeps.adoptAll (hs : s₀.Keeps s)  : s₀.Keeps (State.adoptAll s) :=
  (hs.foldl fun _ _ hs => (.ite hs hs.adoptIdle))

theorem State.Keeps.coverFences (hs : s₀.Keeps s)  : s₀.Keeps (State.coverFences s) := by
  simp only [State.coverFences]
  split
  · exact (.cover (.foldl (.ite hs hs.upd) fun _ _ hs => hs.cover))
  · exact (.foldl (.ite hs hs.upd) fun _ _ hs => hs.cover)

theorem State.Keeps.raiseContract (hs : s₀.Keeps s) {u : UnitRef} : s₀.Keeps (State.raiseContract s u) :=
  (.ite hs.raiseRtr hs.raiseNi)

theorem State.Keeps.prgDone (hs : s₀.Keeps s)  : s₀.Keeps (State.prgDone s) := by
  simp only [State.prgDone]
  split
  · exact (.ite hs.upd.imageFailed hs.upd)
  · exact hs.upd

theorem State.Keeps.dropOldRings (hs : s₀.Keeps s)  : s₀.Keeps (State.dropOldRings s) :=
  hs.upd

theorem State.Keeps.prgAbandon (hs : s₀.Keeps s)  : s₀.Keeps (State.prgAbandon s) :=
  (.ite hs.prgStop.pump (.ite (.ite hs.prgStop.pump hs.upd) hs))

theorem execPrgAbort_keeps (hs : s₀.Keeps s)  : s₀.KeepsOut (execPrgAbort s) :=
  (.next hs.prgAbandon)

theorem execCloveLock_keeps (hs : s₀.Keeps s)  : s₀.KeepsOut (execCloveLock s) :=
  (.next (.ite hs hs.setRf.undoLocked))

theorem State.Keeps.prgData (hs : s₀.Keeps s) {src : Nat} {data : List Byte} : s₀.Keeps (State.prgData s src data) := by
  simp only [State.prgData]
  exact (.ite hs (by split; exact hs.upd.prgStop.pump; exact (.ite hs.upd (.ite hs.upd.prgStop.pump hs.upd.upd))))

theorem execPrgDataWrite_keeps (hs : s₀.Keeps s) {src : Fid} {data : List Byte} : s₀.KeepsOut (execPrgDataWrite src data s) :=
  (.ite .fault (.next hs.prgData))

theorem execImageVerify_keeps (hs : s₀.Keeps s)  : s₀.KeepsOut (execImageVerify s) := by
  unfold execImageVerify
  exact (.ite (.next hs) (by split; exact (.next hs.prgStop.pump); exact (.next hs.upd)))

theorem State.Keeps.stopSeq (hs : s₀.Keeps s) {err : Nat} : s₀.Keeps (State.stopSeq s err) :=
  hs.prgStop.pump

theorem State.Keeps.prgNext (hs : s₀.Keeps s) {size : Nat} : s₀.Keeps (State.prgNext s size) :=
  (.ite hs.stopSeq hs.upd)

theorem State.Keeps.prgWait (hs : s₀.Keeps s) {w : PrgWait} : s₀.Keeps (State.prgWait s w) :=
  hs.upd

theorem State.Keeps.storeWord (hs : s₀.Keeps s) {err : WordErr} : s₀.KeepsPair (State.storeWord s err) := by
  simp only [State.storeWord]
  split
  · exact (.mk hs.checkWord.snd)
  · exact (.mk hs.checkWord.snd)
  · exact (.mk hs.checkWord.snd.raiseSpine.stopSeq)

theorem State.Keeps.storeWord_some (hs : s₀.Keeps s) {err : WordErr} {t u : State} (h : s.storeWord err = (some t, u)) : s₀.Keeps t := by
  unfold State.storeWord at h
  split at h
  rename_i e inj s1 heq
  have h1 : s₀.Keeps s1 := hs.checkWord.of_eq heq
  split at h <;> cases h
  · exact h1
  · exact h1.raiseSpine

theorem State.Keeps.ctrlStep (hs : s₀.Keeps s) {fop : Nat} {err : WordErr} {stall : CtrlInstr → Bool} {go : CtrlInstr → State → State} (hg : ∀ c s, s₀.Keeps s → s₀.Keeps (go c s)) : s₀.Keeps (State.ctrlStep s fop err stall go) := by
  unfold State.ctrlStep
  refine .ite hs ?_
  split
  · exact hs.stopSeq
  · refine .ite hs ?_
    split
    · exact hg _ _ (hs.storeWord_some ‹_›)
    · exact hs.storeWord.of_eq ‹_›

theorem execNop_keeps (hs : s₀.Keeps s) {store : WordErr} : s₀.KeepsOut (execNop store s) :=
  (.next (hs.ctrlStep fun _ _ hs => hs.prgNext))

theorem execWrtb_keeps (hs : s₀.Keeps s) {store : WordErr} : s₀.KeepsOut (execWrtb store s) := by
  unfold execWrtb
  exact (.next (hs.ctrlStep fun _ _ hs => (by split; exact hs.stopSeq; exact (hs.foldl fun _ _ hs => hs.putEntry).prgNext)))

theorem execVcrc_keeps (hs : s₀.Keeps s) {store : WordErr} : s₀.KeepsOut (execVcrc store s) :=
  (.next (hs.ctrlStep fun _ _ hs => (.ite hs.stopSeq (.ite hs.prgNext hs.stopSeq))))

theorem State.Keeps.wrcsDirect (hs : s₀.Keeps s) {off v : Nat} : s₀.Keeps (State.wrcsDirect s off v) :=
  (.ite hs.prgWait hs.send.prgWait)

theorem execWrcs_keeps (hs : s₀.Keeps s) {store : WordErr} : s₀.KeepsOut (execWrcs store s) := by
  unfold execWrcs
  exact (.next (hs.ctrlStep fun _ _ hs => (.ite hs.wrcsDirect (by split; exact (hs.hubTook.hubJudge.of_eq ‹_›).prgWait; exact (hs.hubTook.hubJudge.of_eq ‹_›).upd.prgWait))))

theorem execWrcsComplete_keeps (hs : s₀.Keeps s)  : s₀.KeepsOut (execWrcsComplete s) := by
  unfold execWrcsComplete
  exact (.ite (.next hs) (by split; exact (.ite (.next hs) (.next hs.prgNext)); exact (by split; exact (.next hs.updNi.prgNext); exact (.next hs)); exact (.next hs)))

theorem State.Keeps.prgLate (hs : s₀.Keeps s)  : s₀.Keeps (State.prgLate s) :=
  hs.setRf

theorem execWaitt_keeps (hs : s₀.Keeps s) {store : WordErr} : s₀.KeepsOut (execWaitt store s) :=
  (.next (hs.ctrlStep fun _ _ hs => (.ite hs.prgLate.prgNext (.ite hs.prgNext hs.prgWait))))

theorem execWaittExpire_keeps (hs : s₀.Keeps s)  : s₀.KeepsOut (execWaittExpire s) := by
  unfold execWaittExpire
  exact (.ite (.next hs) (by split; exact (.ite (.next hs.prgNext) (.next hs)); exact (.next hs)))

theorem execWaitd_keeps (hs : s₀.Keeps s) {store : WordErr} : s₀.KeepsOut (execWaitd store s) :=
  (.next (hs.ctrlStep fun _ _ hs => hs.prgWait))

theorem execWaitdExpire_keeps (hs : s₀.Keeps s)  : s₀.KeepsOut (execWaitdExpire s) := by
  unfold execWaitdExpire
  exact (.ite (.next hs) (by split; exact (.ite (.next hs.prgNext) (.next hs)); exact (.next hs)))

theorem execWaits_keeps (hs : s₀.Keeps s) {store : WordErr} : s₀.KeepsOut (execWaits store s) :=
  (.next (hs.ctrlStep fun _ _ hs => hs.prgWait))

theorem execWaitsTimeout_keeps (hs : s₀.Keeps s)  : s₀.KeepsOut (execWaitsTimeout s) := by
  unfold execWaitsTimeout
  exact (.ite (.next hs) (by split; exact (.ite (.next hs.stopSeq) (.next hs)); exact (.next hs)))

theorem execFence_keeps (hs : s₀.Keeps s) {store : WordErr} : s₀.KeepsOut (execFence store s) := by
  unfold execFence
  exact (.next (hs.ctrlStep fun _ _ hs => (by split; exact hs.stopSeq; exact hs.fenceKey.markCalled.upd.prgNext)))

theorem execUnfence_keeps (hs : s₀.Keeps s) {store : WordErr} : s₀.KeepsOut (execUnfence store s) := by
  unfold execUnfence
  exact (.next (hs.ctrlStep fun _ _ hs => (by split; exact hs.stopSeq; exact hs.upd.prgNext)))

theorem execLinkup_keeps (hs : s₀.Keeps s) {store : WordErr} : s₀.KeepsOut (execLinkup store s) :=
  (.next (hs.ctrlStep fun _ _ hs => (.ite hs.stopSeq ((hs.foldl fun _ _ hs => hs.startLink).prgNext))))

theorem execEndSeq_keeps (hs : s₀.Keeps s) {store : WordErr} : s₀.KeepsOut (execEndSeq store s) :=
  (.next (hs.ctrlStep fun _ _ hs => (.ite hs.prgWait hs.prgDone.pump)))

theorem execEpsw_keeps (hs : s₀.Keeps s) {store : WordErr} : s₀.KeepsOut (execEpsw store s) :=
  (.next (hs.ctrlStep fun _ _ hs => (.prgWait (.spineSeq (.upd (.setReg (.setReg (.ite hs.prgLate hs))))))))

theorem execEpochArmAck_keeps (hs : s₀.Keeps s) {unit : UnitRef} : s₀.KeepsOut (execEpochArmAck unit s) := by
  unfold execEpochArmAck
  exact (.ite .fault (by split; exact (.ite (.next hs) (by split; exact (.next hs.updNi.answer); exact (.next hs.upd))); exact (.next hs)))

theorem execArmTimeout_keeps (hs : s₀.Keeps s)  : s₀.KeepsOut (execArmTimeout s) := by
  unfold execArmTimeout
  split
  · exact (.ite (.next hs) (.next hs.stopSeq))
  · exact (.next hs)

theorem execRuleShadowCopyDone_keeps (hs : s₀.Keeps s)  : s₀.KeepsOut (execRuleShadowCopyDone s) :=
  (.ite (.next hs) (.next hs.copyTabs.upd))

theorem execCloveFetchDone_keeps (hs : s₀.Keeps s) {copy0 copy1 : List Byte} : s₀.KeepsOut (execCloveFetchDone copy0 copy1 s) := by
  unfold execCloveFetchDone
  split
  · exact (.ite (.next hs) (by split; exact (.next hs.upd); exact (.next hs.imageless.stopSeq)))
  · exact (.next hs)

theorem State.Keeps.askReturn (hs : s₀.Keeps s)  : s₀.Keeps (State.askReturn s) :=
  (.ite hs.setRf hs.wantReturn.pump)

theorem execFaultReturn_keeps (hs : s₀.Keeps s)  : s₀.KeepsOut (execFaultReturn s) :=
  (.next hs.askReturn)

theorem execPwrDomReq_keeps (hs : s₀.Keeps s) {d : Fin 18} {target : BitVec 3} : s₀.KeepsOut (execPwrDomReq d target s) :=
  (.next hs.pwrRequest.pump)

theorem State.Keeps.quadRequest (hs : s₀.Keeps s) {n : Nat} : s₀.Keeps (State.quadRequest s n) :=
  (.ite hs hs.pwrRequest.pump)

theorem execPwrQreqGo_keeps (hs : s₀.Keeps s) {n : Fin 4} : s₀.KeepsOut (execPwrQreqGo n s) :=
  (.next hs.quadRequest)

theorem execIdleTimeout_keeps (hs : s₀.Keeps s) {d : Fin 18} : s₀.KeepsOut (execIdleTimeout d s) :=
  (.ite (.next hs) (.next hs.pwrRequest))

theorem State.Keeps.fabricSleep (hs : s₀.Keeps s)  : s₀.Keeps (State.fabricSleep s) :=
  (.ite hs.pwrReject (hs.foldl fun _ _ hs => hs.setDomain))

theorem execPwrFabreqGo_keeps (hs : s₀.Keeps s)  : s₀.KeepsOut (execPwrFabreqGo s) :=
  (.next hs.fabricSleep)

theorem execPowerAnswer_keeps (hs : s₀.Keeps s) {d : Fin 18} {unit : UnitRef} : s₀.KeepsOut (execPowerAnswer d unit s) := by
  unfold execPowerAnswer
  exact (.ite .fault (.ite (.next hs) (by split; exact (.next hs.refuseEntry.pump); exact (.ite (.ite (.next hs.refuseEntry.pump) (.next hs.setDomain)) (.next hs.setDomain.askDone.pump)))))

theorem execDeferReask_keeps (hs : s₀.Keeps s) {d : Fin 18} {unit : UnitRef} : s₀.KeepsOut (execDeferReask d unit s) :=
  (.ite .fault (.ite (.next hs) (.next hs.setDomain)))

theorem execNoanswerTimeout_keeps (hs : s₀.Keeps s) {d : Fin 18} {unit : UnitRef} : s₀.KeepsOut (execNoanswerTimeout d unit s) :=
  (.ite .fault (.ite (.next hs) (.next hs.raisePower.refuseEntry.pump)))

theorem State.Keeps.saveSigs (hs : s₀.Keeps s) {d : Nat} : s₀.Keeps (State.saveSigs s d) :=
  hs.upd

theorem State.Keeps.slotOk (hs : s₀.Keeps s) {d opc : Nat} : s₀.KeepsPair (State.slotOk s d opc) :=
  hs.areaOk

theorem execEntrySaveDone_keeps (hs : s₀.Keeps s) {d : Fin 18} {status : BitVec 8} : s₀.KeepsOut (execEntrySaveDone d status s) :=
  (.ite (.next hs) (.ite (.ite (.next (.endSeq (.setDomain (.refused (.of_pair (.ite hs.slotOk (.mk hs))))))) (.next (.pump (.refuseEntry (.of_pair (.ite hs.slotOk (.mk hs))))))) (.ite (.ite (.next (.setDomain (.of_pair (.ite hs.slotOk (.mk hs))))) (.next (.pump (.abandonEntry (.of_pair (.ite hs.slotOk (.mk hs))))))) (.next (.pump (.readyCommit (.ite (.saveSigs (.of_pair (.ite hs.slotOk (.mk hs)))) (.of_pair (.ite hs.slotOk (.mk hs))))))))))

theorem State.Keeps.avsFail (hs : s₀.Keeps s) {d ack : Nat} {tmo : Bool} : s₀.Keeps (State.avsFail s d ack tmo) :=
  hs.raisePower.setRf.latchWords.setDomain.endSeq

theorem execAvsVoltageWriteDone_keeps (hs : s₀.Keeps s) {d : Fin 18} {crcOk : Bool} {ack : BitVec 2} : s₀.KeepsOut (execAvsVoltageWriteDone d crcOk ack s) :=
  (.ite (.next hs) (.ite (.next hs.setDomain) (.ite (.next hs.setDomain) (.next hs.avsFail))))

theorem execVdone_keeps (hs : s₀.Keeps s) {d : Fin 18} : s₀.KeepsOut (execVdone d s) :=
  (.ite (.next hs) (.ite (.next hs.setDomain.endSeq) (.next hs.setDomain)))

theorem execAvsStatusPoll_keeps (hs : s₀.Keeps s) {d : Fin 18} {alert : Bool} : s₀.KeepsOut (execAvsStatusPoll d alert s) :=
  (.ite (.next hs) (.ite (.ite (.next hs.avsFail) (.ite (.next hs.setDomain) (.next hs))) (.ite (.next hs) (.next (.ite hs.setDomain.raisePower hs.setDomain)))))

theorem execWakePin_keeps (hs : s₀.Keeps s) {level : Bool} : s₀.KeepsOut (execWakePin level s) :=
  (.ite (.next (.ite (hs.upd.foldl fun _ _ hs => hs.wakeEdge) hs.upd)) (.next (.ite (hs.upd.foldl fun _ _ hs => hs.wakeLevel) hs.upd)))

theorem execAniseDetect_keeps (hs : s₀.Keeps s) {sl : Fin 6} : s₀.KeepsOut (execAniseDetect sl s) :=
  (.ite (.next hs) (.next (hs.foldl fun _ _ hs => hs.wakeEdge)))

theorem execP2fWake_keeps (hs : s₀.Keeps s) {fid : Fid} : s₀.KeepsOut (execP2fWake fid s) :=
  (.ite .fault (.next hs.wakeLevel))

theorem State.Keeps.takePwrCtl (hs : s₀.Keeps s) {d : Nat} : s₀.Keeps (State.takePwrCtl s d) :=
  (.ite (hs.updNi.foldl fun _ _ hs => hs.answer) ((hs.updNi.foldl fun _ _ hs => hs.answer).wakeLevel))

theorem State.Keeps.clearWake (hs : s₀.Keeps s) {d : Nat} : s₀.Keeps (State.clearWake s d) :=
  hs.setDomain

theorem State.Keeps.startWake (hs : s₀.Keeps s) {d : Nat} : s₀.Keeps (State.startWake s d) :=
  (.ite hs (.ite (.ite hs.setDomain hs) hs.setDomain))

theorem State.Keeps.acceptWake (hs : s₀.Keeps s) {d : Nat} : s₀.Keeps (State.acceptWake s d) :=
  (.ite hs (.ite hs.clearWake (.ite (.ite hs.clearWake (hs.bump.foldl fun _ _ hs => hs.setDomain)) (.ite hs.clearWake (.ite hs.setDomain.endSeq (.ite hs.setDomain (hs.foldl fun _ _ hs => hs.startWake)))))))

theorem execWakeAccept_keeps (hs : s₀.Keeps s) {d : Fin 18} : s₀.KeepsOut (execWakeAccept d s) :=
  (.ite (.next hs) (.ite (.next hs.takePwrCtl.acceptWake.pump) (.next hs.takePwrCtl)))

theorem State.Keeps.bankLost (hs : s₀.Keeps s) {d g : Nat} {inj : Bool} : s₀.Keeps (State.bankLost s d g inj) :=
  (hs.sramZero.setRf.raisePower.foldl fun _ _ hs => hs.sliceEvent)

theorem State.Keeps.checkBank (hs : s₀.Keeps s) {d g : Nat} {bad : Bool} : s₀.Keeps (State.checkBank s d g bad) :=
  (.ite (.bankLost (.ite hs.injUse hs)) (.ite hs.injUse hs))

theorem State.Keeps.wakeCluster (hs : s₀.Keeps s) {k : Nat} : s₀.Keeps (State.wakeCluster s k) :=
  (.ite hs hs.updCl)

theorem State.Keeps.wakeTables (hs : s₀.Keeps s) {d : Nat} : s₀.Keeps (State.wakeTables s d) :=
  (.ite (.upd (.upd (.ite (hs.copyTabs.copyTabs.foldl fun _ _ hs => hs.wakeCluster) hs.copyTabs.copyTabs))) (.upd (.ite (hs.copyTabs.copyTabs.foldl fun _ _ hs => hs.wakeCluster) hs.copyTabs.copyTabs)))

theorem State.Keeps.wakeData (hs : s₀.Keeps s) {d : Nat} {lost : List Nat} : s₀.Keeps (State.wakeData s d lost) :=
  (.ite hs (.ite (.ite (hs.foldl fun _ _ hs => hs.clearHome.setHm) hs) (.ite (.ite (hs.foldl fun _ _ hs => hs.restartCluster) hs) (.ite (hs.foldl fun _ _ hs => (.ite hs.sramZero (.ite hs.checkBank hs))) hs))))

theorem State.Keeps.wakeIrq (hs : s₀.Keeps s)  : s₀.Keeps (State.wakeIrq s) :=
  (.ite hs.ownIntr hs)

theorem execWakeStartDone_keeps (hs : s₀.Keeps s) {d : Fin 18} {reply : WakeReply} : s₀.KeepsOut (execWakeStartDone d reply s) :=
  (.ite (.next hs) (.ite (.next (.raisePower (.setRf (.setDomain (.of_pair (.ite hs.slotOk (.mk hs))))))) (.next (.wakeIrq (.setDomain (.ite (.spineTime (.wakeData (.wakeTables (.of_pair (.ite hs.slotOk (.mk hs)))))) (.wakeData (.wakeTables (.of_pair (.ite hs.slotOk (.mk hs)))))))))))

theorem State.Keeps.relinkPorts (hs : s₀.Keeps s) {d : Nat} : s₀.Keeps (State.relinkPorts s d) :=
  (hs.foldl fun _ _ hs => hs.startLink)

theorem State.Keeps.fabricWoken (hs : s₀.Keeps s) {d : Nat} : s₀.Keeps (State.fabricWoken s d) :=
  hs.setDomain.relinkPorts.endSeq

theorem State.Keeps.unclampDom (hs : s₀.Keeps s) {d : Nat} : s₀.Keeps (State.unclampDom s d) :=
  (.ite hs.pwrReject (.ite hs.fabricWoken (.ite hs.setDomain.relinkPorts.wantReturn.pump hs.setDomain.relinkPorts)))

theorem execPwrUnclamp_keeps (hs : s₀.Keeps s) {d : Fin 18} : s₀.KeepsOut (execPwrUnclamp d s) :=
  (.next hs.unclampDom)

theorem State.Keeps.fabricUnclamp (hs : s₀.Keeps s)  : s₀.Keeps (State.fabricUnclamp s) :=
  (.ite hs.pwrReject (hs.foldl fun _ _ hs => hs.fabricWoken))

theorem execPwrFabreqUnclamp_keeps (hs : s₀.Keeps s)  : s₀.KeepsOut (execPwrFabreqUnclamp s) :=
  (.next hs.fabricUnclamp)

theorem State.Keeps.sendAnise (hs : s₀.Keeps s) {sl : Nat} : s₀.Keeps (State.sendAnise s sl) :=
  hs.updNi

theorem execPwrAniseSend_keeps (hs : s₀.Keeps s) {sl : Fin 6} : s₀.KeepsOut (execPwrAniseSend sl s) :=
  (.next hs.sendAnise)

theorem execPwrSaveLock_keeps (hs : s₀.Keeps s)  : s₀.KeepsOut (execPwrSaveLock s) :=
  (.next hs.setRf)

theorem State.Keeps.ctrLatch (hs : s₀.Keeps s) {b i : Nat} : s₀.Keeps (State.ctrLatch s b i) :=
  (.ite hs.setReg.setReg.setReg hs.setReg.setReg.setReg.setReg.setReg.setReg)

theorem execCtrRead_keeps (hs : s₀.Keeps s) {bank : BitVec 10} {i : Fin 128} : s₀.KeepsOut (execCtrRead bank i s) :=
  (.ite (.next hs.ctrLatch) .fault)

theorem State.Keeps.askClear (hs : s₀.Keeps s) {b : Nat} : s₀.Keeps (State.askClear s b) :=
  hs.upd

theorem execCtrClear_keeps (hs : s₀.Keeps s) {bank : BitVec 10} : s₀.KeepsOut (execCtrClear bank s) :=
  (.ite (.next hs.askClear) .fault)

theorem State.Keeps.setChain (hs : s₀.Keeps s) {b i : Nat} {chain : Bool} : s₀.Keeps (State.setChain s b i chain) :=
  (.ite hs hs.noteWas.setRf)

theorem execCtrChainWrite_keeps (hs : s₀.Keeps s) {bank : BitVec 10} {i : Fin 128} {chain : Bool} : s₀.KeepsOut (execCtrChainWrite bank i chain s) :=
  (.ite (.next hs.setChain) .fault)

theorem State.Keeps.bwStart (hs : s₀.Keeps s) {f : Nat} : s₀.Keeps (State.bwStart s f) :=
  hs.upd

theorem State.Keeps.bwEnd (hs : s₀.Keeps s) {f : Nat} : s₀.Keeps (State.bwEnd s f) :=
  (hs.setReg.setReg.setReg.setReg.setReg.upd.foldl fun _ _ hs => hs.raiseNi)

theorem execBwWindowEnd_keeps (hs : s₀.Keeps s) {fid : Fid} : s₀.KeepsOut (execBwWindowEnd fid s) :=
  (.ite .fault (.ite (.next hs) (.next hs.bwEnd)))

theorem State.Keeps.probeLine (hs : s₀.Keeps s) {n a b : Nat} : s₀.Keeps (State.probeLine s n a b) :=
  (.upd (.ite hs.ringJob.count.setReg.setRf hs.ringJob.count.setReg))

theorem State.Keeps.probeDrop (hs : s₀.Keeps s) {n k : Nat} : s₀.Keeps (State.probeDrop s n k) :=
  hs.bump.upd

theorem State.Keeps.tickTrace (hs : s₀.Keeps s) {n : Nat} : s₀.Keeps (State.tickTrace s n) := by
  unfold State.tickTrace
  exact (.ite (hs.foldl fun _ _ hs => hs.probeDrop) (by split; exact (hs.foldl fun _ _ hs => hs.probeDrop); exact (hs.foldl fun _ _ hs => hs.probeDrop).updQm.upd))

theorem execProbeRecordWrite_keeps (hs : s₀.Keeps s) {node : Fin 144} : s₀.KeepsOut (execProbeRecordWrite node s) := by
  unfold execProbeRecordWrite
  exact (.ite (.next hs) (by split; exact (.next hs.upd.probeLine); exact (.ite (.next hs.upd.probeLine) (.next hs)); exact (.next hs)))

theorem State.Keeps.probeRearm (hs : s₀.Keeps s) {n : Nat} : s₀.Keeps (State.probeRearm s n) :=
  hs.setRf.upd

theorem execProbeFullClear_keeps (hs : s₀.Keeps s) {node : Fin 144} : s₀.KeepsOut (execProbeFullClear node s) :=
  (.next hs.probeRearm)

theorem State.Keeps.glbReject (hs : s₀.Keeps s)  : s₀.Keeps (State.glbReject s) :=
  hs.setRf

theorem execDrainTimeout_keeps (hs : s₀.Keeps s)  : s₀.KeepsOut (execDrainTimeout s) := by
  unfold execDrainTimeout
  split
  · exact (.ite (.next hs.upd.setRf.raiseSpine) (.next hs))
  · exact (.next hs)

theorem State.Keeps.threadsGoOn (hs : s₀.Keeps s)  : s₀.Keeps (State.threadsGoOn s) :=
  hs.mapThreads

theorem State.Keeps.pdrecWrite (hs : s₀.Keeps s)  : s₀.Keeps (State.pdrecWrite s) :=
  (.ite hs.upd hs.glbReject)

theorem execGlbPdrec_keeps (hs : s₀.Keeps s)  : s₀.KeepsOut (execGlbPdrec s) :=
  (.next hs.pdrecWrite)

theorem execPdrecDone_keeps (hs : s₀.Keeps s) {status : BitVec 8} : s₀.KeepsOut (execPdrecDone status s) := by
  simp only [execPdrecDone]
  split
  · exact (.next (.ite hs.upd.areaOk.snd.setRf hs.upd.areaOk.snd.setRf))
  · exact (.next hs)

theorem State.Keeps.latchLo (hs : s₀.Keeps s) {seq : Bool} : s₀.Keeps (State.latchLo s seq) :=
  hs.upd

theorem execLatchReadLo_keeps (hs : s₀.Keeps s) {seq : Bool} : s₀.KeepsOut (execLatchReadLo seq s) :=
  (.next hs.latchLo)

theorem State.Keeps.csRead (hs : s₀.Keeps s) {off : Nat} : s₀.KeepsPair (State.csRead s off) := by
  unfold State.csRead
  exact (.mk (by split; exact hs.latchLo; exact hs.latchLo; exact hs.latchTime; exact hs.ctrLatch; exact (.ite hs hs.rcRead); exact hs))

theorem State.Keeps.putLive (hs : s₀.Keeps s) {r : Reg} {base i v : Nat} : s₀.Keeps (State.putLive s r base i v) :=
  (.ite (.undoLocked (.ite (.takeLate (.putWord (.ite (.noteWas (.ite hs hs.noteUndo)) (.ite hs hs.noteUndo)))) (.putWord (.ite (.noteWas (.ite hs hs.noteUndo)) (.ite hs hs.noteUndo))))) (.ite (.takeLate (.putWord (.ite (.noteWas (.ite hs hs.noteUndo)) (.ite hs hs.noteUndo)))) (.putWord (.ite (.noteWas (.ite hs hs.noteUndo)) (.ite hs hs.noteUndo)))))

theorem State.Keeps.putQuiesce (hs : s₀.Keeps s) {r : Reg} {base i v : Nat} : s₀.Keeps (State.putQuiesce s r base i v) :=
  (.ite hs.noteUndo.putWord hs.setRf)

theorem State.Keeps.putReg (hs : s₀.Keeps s) {r : Reg} {base i v : Nat} : s₀.Keeps (State.putReg s r base i v) :=
  (.ite (.putQuiesce (.ite hs.putLive.upd hs.putLive)) (.ite hs.putLive.upd hs.putLive))

theorem State.Keeps.bwCfg (hs : s₀.Keeps s) {base v : Nat} : s₀.Keeps (State.bwCfg s base v) :=
  (.ite (.ite hs.putReg.bwStart hs.putReg) hs.putReg.upd)

theorem State.Keeps.timCtrl (hs : s₀.Keeps s) {v : Nat} : s₀.Keeps (State.timCtrl s v) :=
  (.ite hs.putReg.upd hs.putReg)

theorem State.Keeps.timCmd (hs : s₀.Keeps s) {v : Nat} : s₀.Keeps (State.timCmd s v) :=
  (.ite (.ite hs.timSet.timReject hs.timSet) (.ite hs.timStep hs))

theorem State.Keeps.engCtrl (hs : s₀.Keeps s) {k t v : Nat} : s₀.Keeps (State.engCtrl s k t v) :=
  (.ite (.threadHalt (.ite hs.threadStart hs)) (.ite hs.threadStart hs))

theorem State.Keeps.injCtrl (hs : s₀.Keeps s) {v : Nat} : s₀.Keeps (State.injCtrl s v) :=
  (.ite (.injArm (.ite hs.putReg.injDisarm hs.putReg)) (.ite hs.putReg.injDisarm hs.putReg))

theorem State.Keeps.fabReq (hs : s₀.Keeps s) {v : Nat} : s₀.Keeps (State.fabReq s v) :=
  (.ite (.fabricUnclamp (.ite hs.putReg.fabricSleep hs.putReg)) (.ite hs.putReg.fabricSleep hs.putReg))

theorem State.Keeps.ctrStat (hs : s₀.Keeps s) {base i v : Nat} : s₀.Keeps (State.ctrStat s base i v) :=
  (.setChain (.ite hs.setRf hs))

theorem State.Keeps.ringReg (hs : s₀.Keeps s) {r : Reg} {base v : Nat} : s₀.Keeps (State.ringReg s r base v) :=
  (.ite hs.setRf hs.putReg)

theorem execCsaLock_keeps (hs : s₀.Keeps s)  : s₀.KeepsOut (execCsaLock s) :=
  (.next (.ite hs hs.setRf.undoLocked))

theorem State.Keeps.hubTake (hs : s₀.Keeps s) {ps : List Pkt} : s₀.Keeps (State.hubTake s ps) :=
  hs.hubTook.updNi

theorem State.Keeps.hubBegin (hs : s₀.Keeps s)  : s₀.Keeps (State.hubBegin s) := by
  unfold State.hubBegin
  exact (.ite hs (by split; exact hs.upd; exact hs))

theorem execCsrRead_keeps (hs : s₀.Keeps s)  : s₀.KeepsOut (execCsrRead s) := by
  simp only [execCsrRead]
  split
  · exact (.next hs)
  · exact (.ite (.next hs) (by split; exact (.next ((hs.hubTake.hubJudge.of_eq ‹_›).answer)); exact (.next ((hs.hubTake.hubJudge.of_eq ‹_›).upd.hubBegin))))

theorem execCsrWrite_keeps (hs : s₀.Keeps s)  : s₀.KeepsOut (execCsrWrite s) := by
  simp only [execCsrWrite]
  split
  · exact (.next hs)
  · exact (.ite (.next hs) (by split; exact (.next ((hs.hubTake.hubJudge.of_eq ‹_›).answer)); exact (.ite (.next ((hs.hubTake.hubJudge.of_eq ‹_›).prgData.answer)) (.next ((hs.hubTake.hubJudge.of_eq ‹_›).upd.hubBegin)))))

theorem State.Keeps.hubAnswer (hs : s₀.Keeps s) {r : HubReq} {status value : Nat} : s₀.Keeps (State.hubAnswer s r status value) := by
  unfold State.hubAnswer
  split
  · exact hs.answer
  · exact hs

theorem execWaitsSample_keeps (hs : s₀.Keeps s)  : s₀.KeepsOut (execWaitsSample s) := by
  unfold execWaitsSample
  exact (.ite (.next hs) (by split; exact (.ite (.next hs.prgNext) (.next hs)); exact (.next hs)))

theorem State.Keeps.homeRespond (hs : s₀.Keeps s) {k : Fin 64} : s₀.KeepsOut (State.homeRespond s k) := by
  unfold State.homeRespond
  split
  · exact (.next hs)
  · exact (.ite (.ite (execHomeMemData_keeps hs) (execHomeSnoopData_keeps hs)) (.ite (execHomeInvack_keeps hs) (.ite (execHomeCompack_keeps hs) (.ite (execHomeMemData_keeps hs) (execHomeMemComp_keeps hs)))))

theorem execForcedWin_keeps (hs : s₀.Keeps s) {site : ArbSite} : s₀.KeepsOut (execForcedWin site s) := by
  unfold execForcedWin
  split
  · exact (.ite (.next hs) (.next hs.hop))
  · exact (by split; exact (.next hs); exact (.ite hs.homeRespond (.ite (execHomeWritebackDecide_keeps hs) (execHomeRequestDecide_keeps hs))))
  · exact (.ite (.next hs) (execBankAccess_keeps hs))

theorem State.Keeps.settleQuiesce (hs : s₀.Keeps s)  : s₀.Keeps (State.settleQuiesce s) :=
  (hs.foldl fun _ _ hs => (.ite hs (.ite hs.undoWrite.snd.setRf hs.undoWrite.snd)))

theorem State.Keeps.newCycle (hs : s₀.Keeps s)  : s₀.Keeps (State.newCycle s) :=
  (hs.upd.foldl fun _ _ hs => hs.clearBank)

theorem State.Keeps.tickTime (hs : s₀.Keeps s)  : s₀.Keeps (State.tickTime s) :=
  (.timeJump (.ite hs.upd hs.upd))

theorem State.Keeps.tickDry (hs : s₀.Keeps s)  : s₀.Keeps (State.tickDry s) :=
  hs.upd

theorem State.Keeps.tickFloors (hs : s₀.Keeps s) {f : Nat} : s₀.Keeps (State.tickFloors s f) :=
  (.ite hs hs.upd)

theorem State.Keeps.tickNi (hs : s₀.Keeps s) {f : Nat} : s₀.Keeps (State.tickNi s f) :=
  (.tickFloors (.ite (.bump (.ite hs.acceptTc0.count.count.count.bump.count hs.acceptTc0.count.count.count)) (.ite hs.acceptTc0.count.count.count.bump.count hs.acceptTc0.count.count.count)))

theorem State.Keeps.tickHome (hs : s₀.Keeps s) {k : Nat} : s₀.Keeps (State.tickHome s k) :=
  (.ite (.bump (.count (.count (.predEmpty (.retryWays (.readWaiting (.dite (fun _ => hs.homeIdle) (fun _ => hs)))))))) (.count (.count (.predEmpty (.retryWays (.readWaiting (.dite (fun _ => hs.homeIdle) (fun _ => hs))))))))

theorem State.Keeps.tickSaf (hs : s₀.Keeps s)  : s₀.Keeps (State.tickSaf s) :=
  (hs.count.count.foldl fun _ _ hs => hs.countSlice).safGrant

theorem State.Keeps.tickEngine (hs : s₀.Keeps s) {k j : Nat} : s₀.Keeps (State.tickEngine s k j) :=
  (.ite hs hs.bump.count.updCl)

theorem State.Keeps.tickCluster (hs : s₀.Keeps s) {k : Nat} : s₀.Keeps (State.tickCluster s k) :=
  (.ite hs (hs.count.foldl fun _ _ hs => hs.tickEngine))

theorem State.Keeps.tickDomain (hs : s₀.Keeps s) {d : Nat} : s₀.Keeps (State.tickDomain s d) :=
  (.ite hs.setDomain hs)

theorem State.Keeps.tickUnits (hs : s₀.Keeps s)  : s₀.Keeps (State.tickUnits s) :=
  (.foldl (.ite (((hs.tickDry.tickSaf.foldl fun _ _ hs => hs.tickNi).foldl fun _ _ hs => hs.tickHome).foldl fun _ _ hs => hs.tickCluster) ((hs.tickDry.tickSaf.foldl fun _ _ hs => hs.tickNi).foldl fun _ _ hs => hs.tickHome)) fun _ _ hs => (.ite hs.sampleVisit.tickRing.tickTrace hs))

theorem State.Keeps.tickFclk (hs : s₀.Keeps s)  : s₀.Keeps (tickFclk s) :=
  (.ite hs (.newCycle (.tickTime (.settleQuiesce (.hubBegin (.voterTick (.foldl (.ite hs hs.tickUnits) fun _ _ hs => hs.tickDomain)))))))

end Sys2Proof.Machine

namespace Sys2Proof.Machine
variable {s₀ s t : State}

/-- The edges of the table of R415. -/
def modeEdges : List (Primary × Primary) :=
  [(.boot, .test), (.boot, .load), (.load, .dual), (.run, .dual), (.dual, .run), (.dual, .drain),
    (.run, .drain), (.drain, .quiesced), (.drain, .run), (.quiesced, .run), (.boot, .halt), (.load, .halt), (.run, .halt),
    (.dual, .halt), (.drain, .halt), (.quiesced, .halt)]

/-- What a command other than a cold one can do to mode and start-up: nothing, an edge of R415, or a warm reset. -/
inductive State.Turn (s : State) : State → Prop
  | same : s.Turn s
  | edge {m : Primary} (h : (s.prim, m) ∈ modeEdges) : s.Turn { s with prim := m }
  | boot (hp : s.prim ≠ .test) (hs : s.started = true) :
    s.Turn { s with prim := .boot, frst := false, started := true, sram := [], lsram := [] }

/-- One turn, and around it only what keeps the frame. -/
def State.Goes (s₀ t : State) : Prop := ∃ b, s₀.Turn b ∧ b.Keeps t

theorem State.Keeps.goes (h : s₀.Keeps t) : s₀.Goes t := ⟨s₀, .same, h⟩

theorem State.Goes.andThen (h : s₀.Goes s) (k : ∀ {b : State}, b.Keeps s → b.Keeps t) : s₀.Goes t := by
  obtain ⟨b, hb, hk⟩ := h
  exact ⟨b, hb, k hk⟩

theorem State.Goes.ite {c : Prop} [Decidable c] (hs : s₀.Goes s) (ht : s₀.Goes t) : s₀.Goes (if c then s else t) := by
  split
  · exact hs
  · exact ht

/-- The same mode set on both sides. -/
theorem State.Keeps.setPrim (h : s₀.Keeps s) (m : Primary) : ({ s₀ with prim := m } : State).Keeps { s with prim := m } :=
  ⟨rfl, h.started, h.frst, h.fuses, h.sram, h.lsram⟩

theorem State.Keeps.goes_of (h : s₀.Keeps s) (g : s.Goes t) : s₀.Goes t := by
  obtain ⟨b, hb, hk⟩ := g
  cases hb with
  | same => exact (h.trans hk).goes
  | edge he => exact ⟨_, .edge (by rwa [← h.prim]), (h.setPrim _).trans hk⟩
  | boot hp hs => exact ⟨_, .boot (h.prim ▸ hp) (h.started ▸ hs), hk.prim, hk.started, hk.frst, hk.fuses.trans h.fuses, hk.sram, hk.lsram⟩

theorem State.Goes.edge {m : Primary} (h : (s.prim, m) ∈ modeEdges) (k : ({ s with prim := m } : State).Keeps t) : s.Goes t :=
  ⟨_, .edge h, k⟩

theorem State.enterHalt_goes (s : State) : s.Goes s.enterHalt := by
  unfold State.enterHalt
  split
  · exact State.Keeps.refl.goes
  · refine .edge (m := .halt) ?_ (State.Keeps.disarm (.upd .refl))
    cases hp : s.prim <;> simp_all [modeEdges]

theorem State.faultEffect_goes (s : State) (r : FaultRec) (lvl : Nat) : s.Goes (s.faultEffect r lvl) := by
  unfold State.faultEffect
  have h : s.Keeps s := .refl
  refine .ite s.enterHalt_goes (.ite h.orderFence.goes (.ite ?_ h.goes))
  split
  · exact h.orderFence.goes
  · exact h.goes

theorem State.takeFault_goes (s : State) (r : FaultRec) : s.Goes (s.takeFault r) := by
  have h : s.Keeps s := .refl
  simp only [State.takeFault]
  refine .ite h.bump.latchFault.goes (.ite h.bump.latchFault.upd.goes ?_)
  have h1 (c : Prop) [Decidable c] {l n : Nat} {u : State} (hu : s.Keeps u) : s.Keeps (if c then (u.setPend l n).assertPin else u.setPend l n) :=
    .ite hu.setPend.assertPin hu.setPend
  exact State.Keeps.goes_of (.ite (.faultIrq (h1 _ h.bump.latchFault.upd)) (h1 _ h.bump.latchFault.upd)) (State.faultEffect_goes _ _ _)

theorem execFaultTake_goes {stored : WordErr} (h : execFaultTake stored s = .next t) : s.Goes t := by
  have hs : s.Keeps s := .refl
  simp only [execFaultTake] at h
  split at h
  · cases h; exact hs.goes
  · split at h <;> cases h
    · exact hs.goes
    · refine State.Keeps.goes_of ?_ (State.takeFault_goes _ _)
      split
      · exact hs.upd.checkWord.snd.snd
      · exact hs.upd.checkWord.snd.snd.raiseSpine
      · exact hs.upd.checkWord.snd.snd.raiseSpine

theorem State.Keeps.beginDrain (hs : s₀.Keeps s) : ({ s₀ with prim := .drain } : State).Keeps s.beginDrain :=
  (hs.setPrim .drain).upd.mapThreads

/-- Outside DUAL the mode stays when the bank is freed. -/
theorem State.freeBank_keeps (hd : s.prim ≠ .dual) : s.Keeps s.freeBank := by
  unfold State.freeBank
  extract_lets e s1 s2 s3 s4
  have h1 : s.Keeps s1 := .dropOldRings (.upd .refl)
  have h2 : s.Keeps s2 := by
    unfold s2
    rwa [if_neg fun h => hd (h1.prim.symm.trans h)]
  exact .pump (.powerDrained (.ite h2.resetShadow.prgDone h2.resetShadow))

/-- A freed bank ends DUAL, in DRAIN when one is pending, and leaves every other mode. -/
theorem State.freeBank_goes (s : State) : s.Goes s.freeBank := by
  by_cases hd : s.prim = .dual
  · unfold State.freeBank
    extract_lets e s1 s2 s3 s4
    have h1 : s.Keeps s1 := .dropOldRings (.upd .refl)
    have h2 : s.Goes s2 := by
      unfold s2
      rw [if_pos (h1.prim.trans hd)]
      exact .ite (.edge (m := .drain) (by simp [hd, modeEdges]) h1.beginDrain) (.edge (m := .run) (by simp [hd, modeEdges]) (h1.setPrim _))
    exact h2.andThen fun h => .pump (.powerDrained (.ite h.resetShadow.prgDone h.resetShadow))
  · exact (State.freeBank_keeps hd).goes

theorem State.prgBegin_goes (s : State) (src : Nat) : s.Goes (s.prgBegin src) := by
  have h : s.Keeps (s.setRf .PRG_STATUS 8 5 0) := .setRf .refl
  unfold State.prgBegin
  refine .ite State.Keeps.refl.goes (.ite (State.Keeps.goes (.setRf .refl)) ?_)
  by_cases hb : s.prim = .boot
  · exact .edge (m := .load) (by simp [hb, modeEdges]) ⟨by simp [hb], h.started, h.frst, h.fuses, h.sram, h.lsram⟩
  · exact State.Keeps.goes ⟨by simp [hb], h.started, h.frst, h.fuses, h.sram, h.lsram⟩

theorem execPrgStart_goes {src : Fid} (h : execPrgStart src s = .next t) : s.Goes t := by
  unfold execPrgStart at h
  split at h
  · cases h
  · split at h <;> cases h
    · exact State.Keeps.refl.goes
    · exact s.prgBegin_goes _

/-- The registers, queues, slices, threads and buckets of a switch, up to its buckets. -/
theorem State.Keeps.switchTables (hs : s₀.Keeps s) {c : Prop} [Decidable c] {t : Int} :
    s₀.Keeps ((if c then s.coverFences.unfenceAll.linksBack else s.coverFences.unfenceAll).applyShadows.qmSwitch
      t).slcSwitch.adoptAll.moveBuckets :=
  .moveBuckets (.adoptAll (.slcSwitch (.qmSwitch (.applyShadows (.ite hs.coverFences.unfenceAll.linksBack hs.coverFences.unfenceAll)))))

/-- A switch at T turns LOAD and RUN into DUAL; in QUIESCED the old bank is free at once. -/
theorem State.switchEpoch_goes (s : State) (t : Int) : s.Goes (s.switchEpoch t) := by
  have h1 : s.Keeps s.keepEpochs := .keepEpochs .refl
  have hbase {X : State} {m : Primary} (hm : m = if s.keepEpochs.prim = .load ∨ s.keepEpochs.prim = .run then .dual
      else s.keepEpochs.prim) (hX : ({ s with prim := m } : State).Keeps X) :
      s.Goes (if (s.keepEpochs.prim == .quiesced) = true then X.freeBank else X) := by
    rw [h1.prim] at hm ⊢
    by_cases hc : s.prim = .load ∨ s.prim = .run
    · rw [if_pos hc] at hm
      subst hm
      rw [if_neg (by rcases hc with hc | hc <;> simp [hc])]
      exact .edge (by rcases hc with hc | hc <;> simp [hc, modeEdges]) hX
    · rw [if_neg hc] at hm
      subst hm
      refine State.Keeps.goes ?_
      split
      · next hq => exact State.Keeps.trans hX (State.freeBank_keeps (by rw [hX.prim]; simp_all))
      · exact hX
  simp only [State.switchEpoch]
  generalize hm : (if s.keepEpochs.prim = .load ∨ s.keepEpochs.prim = .run then Primary.dual else s.keepEpochs.prim) = m
  refine State.Goes.andThen (hbase hm.symm (.foldl ?_ fun _ _ hs => hs.releaseHolds)) fun h => h.prgNext
  generalize hX : State.maskAll _ = X
  have h7 : ({ s with prim := m } : State).Keeps X := by
    rw [← hX]
    exact .maskAll (.upd (.switchTables (.upd (h1.setPrim m))))
  split
  · exact .ite h7.powerImageT (.ite h7.returnImageT h7)
  · exact h7

theorem execEpochSwitch_goes (h : execEpochSwitch s = .next t) : s.Goes t := by
  unfold execEpochSwitch at h
  split at h
  · split at h <;> cases h
    · exact State.Keeps.refl.goes
    · exact s.switchEpoch_goes _
  · cases h; exact State.Keeps.refl.goes

theorem execDrainEnd_goes (h : execDrainEnd s = .next t) : s.Goes t := by
  simp only [execDrainEnd] at h
  split at h
  · cases h; exact State.Keeps.refl.goes
  · split at h <;> cases h
    · exact s.freeBank_goes
    · exact State.Keeps.goes (.foldl (.setRf (.upd .refl)) fun _ _ hs => hs.raiseContract)

theorem execOldBankFree_goes (h : execOldBankFree s = .next t) : s.Goes t := by
  unfold execOldBankFree at h
  split at h <;> cases h
  · exact State.Keeps.refl.goes
  · exact s.freeBank_goes

theorem State.startUp_keeps (s : State) : ({ s with frst := false, started := true } : State).Keeps s.startUp :=
  .startLink (.safGrant .refl)

/-- A cold start boots with the fuses loaded; without a rise of FRST_N it does nothing. -/
theorem execColdStart_eq {fuses : FuseArray} (h : execColdStart fuses s = .next t) :
    t = s ∨ s.frst = true ∧ ({ s.coldReset with fuses := some fuses, frst := false, started := true } : State).Keeps t := by
  unfold execColdStart at h
  split at h
  · cases h; exact .inl rfl
  · next hf =>
    have h1 := State.startUp_keeps { s.coldReset with fuses := some fuses }
    cases h
    exact .inr ⟨by simpa using hf, .ite h1.raiseSpine h1⟩

/-- A warm reset boots with the fuses as they were and both memories empty. -/
theorem State.warmReset_keeps (s : State) :
    ({ s with prim := .boot, frst := false, started := true, sram := [], lsram := [] } : State).Keeps s.warmReset := by
  unfold State.warmReset
  extract_lets src t
  have h := State.startUp_keeps t
  have h' : ({ s with prim := .boot, frst := false, started := true, sram := [], lsram := [] } : State).Keeps t.startUp :=
    ⟨h.prim, h.started, h.frst, h.fuses, h.sram, h.lsram⟩
  exact h'.setRf

theorem State.resetWrite_goes (s : State) (key : Nat) (go : Bool) : s.Goes (s.resetWrite key go) := by
  unfold State.resetWrite
  split
  · next h =>
    obtain ⟨-, -, hp, hs⟩ := h
    exact ⟨_, .boot hp hs, s.warmReset_keeps⟩
  · exact State.Keeps.goes (.setRf .refl)

theorem execTestEntry_goes (h : execTestEntry s = .next t) : s.Goes t := by
  unfold execTestEntry at h
  split at h <;> cases h
  · next hb => exact .edge (m := .test) (by simp [hb, modeEdges]) .refl
  · exact State.Keeps.refl.goes

theorem State.drainWrite_goes {m : Primary} (hm : m = .run → s.prim = .run) : s.Goes (s.drainWrite m) := by
  unfold State.drainWrite
  split
  · exact .edge (m := .drain) (by simp [hm rfl, modeEdges]) (State.Keeps.refl.beginDrain)
  · exact State.Keeps.goes (.upd .refl)
  · exact State.Keeps.goes (.glbReject .refl)

theorem State.leaveDrain_keeps (s : State) (m : Primary) : ({ s with prim := m } : State).Keeps (s.leaveDrain m) :=
  .setRf (.upd .refl)

theorem execFabricQuiesced_goes (h : execFabricQuiesced s = .next t) : s.Goes t := by
  unfold execFabricQuiesced at h
  split at h <;> cases h
  · next hd => exact .edge (by simp [hd.1, modeEdges]) (s.leaveDrain_keeps _)
  · exact State.Keeps.refl.goes

theorem State.resumeWrite_goes (s : State) : s.Goes (s.resumeWrite s.prim) := by
  unfold State.resumeWrite
  split
  case h_1 hd | h_2 hd => exact .edge (m := .run) (by simp [hd, modeEdges]) (s.leaveDrain_keeps _).threadsGoOn
  · exact State.Keeps.goes (.glbReject (.upd .refl))

/-- RESUME leaves RUN where it is, so a DRAIN of the same write that is judged in RUN finds it there. -/
theorem State.resumeWrite_run (h : s.prim = .run) : s.Keeps (s.resumeWrite s.prim) := by
  rw [h]; exact .glbReject (.upd .refl)

theorem State.glbCtrl_goes (s : State) (v : Nat) : s.Goes (s.glbCtrl v) := by
  have hrun : s.prim = .run → s.Keeps (if bitOf v 1 then s.resumeWrite s.prim else s) := fun h => .ite (State.resumeWrite_run h) .refl
  have hdrain : s.Goes (if bitOf v 0 then (if bitOf v 1 then s.resumeWrite s.prim else s).drainWrite s.prim
      else if bitOf v 1 then s.resumeWrite s.prim else s) := by
    by_cases h : s.prim = .run
    · exact .ite ((hrun h).goes_of (State.drainWrite_goes fun _ => (hrun h).prim.trans h)) (hrun h).goes
    · have h1 : s.Goes (if bitOf v 1 then s.resumeWrite s.prim else s) := .ite s.resumeWrite_goes State.Keeps.refl.goes
      refine .ite (h1.andThen fun hs => ?_) h1
      unfold State.drainWrite
      split
      · contradiction
      · exact hs.upd
      · exact hs.glbReject
  simp only [State.glbCtrl]
  exact hdrain.andThen fun hs => .ite hs.pdrecWrite hs

theorem State.prgCtrl_goes (s : State) (src v : Nat) : s.Goes (s.prgCtrl src v) := by
  have h : s.Keeps (s.putReg .PRG_CTRL 0 0 (without v [0, 1])) := .putReg .refl
  have h1 : s.Keeps (if bitOf v 1 then (s.putReg .PRG_CTRL 0 0 (without v [0, 1])).prgAbandon
      else s.putReg .PRG_CTRL 0 0 (without v [0, 1])) := .ite h.prgAbandon h
  simp only [State.prgCtrl]
  exact .ite (h1.goes_of (State.prgBegin_goes _ _)) h1.goes

theorem State.regWrite_goes (s : State) (src : Nat) (r : Reg) (base i v : Nat) : s.Goes (s.regWrite src r base i v) := by
  have hs : s.Keeps s := .refl
  simp only [State.regWrite]
  split
  case h_1 => exact s.resetWrite_goes _ _
  case h_2 => exact s.glbCtrl_goes _
  case h_3 => exact s.prgCtrl_goes _ _
  all_goals refine State.Keeps.goes ?_
  · exact hs.prgData
  · exact hs.safPooldefPut
  · exact hs.safEntPut
  · exact hs.bwCfg
  · exact .ite hs.putReg.predClear hs.putReg
  · exact hs.queueRate
  · exact hs.queueBurst
  · exact .ite hs.queueResume hs
  · exact hs.portRate
  · exact hs.portBurst
  · exact hs.engCtrl
  · exact hs.timCtrl
  · exact hs.timCmd
  · exact hs.slcCtrl
  · exact hs.qliveWrite
  · exact .ite hs.putReg.askReturn hs.putReg
  · exact .ite hs.pinRelease hs
  · exact hs.ackFaults
  · exact hs.injCtrl
  · exact .ite hs.putReg.swRaise hs.putReg
  · exact hs.foldl fun _ _ hs => hs.sendAnise
  · exact .ite hs.putReg.quadRequest hs.putReg
  · exact hs.fabReq
  · exact hs.pwrRequest.pump
  · exact .ite hs.unclampDom hs
  · exact hs.ctrStat
  · exact .ite hs.putReg.askClear hs.putReg
  · exact hs.ringReg
  · exact hs.ringReg
  · exact .ite hs.putReg.probeRearm hs.putReg
  · exact hs.putReg

theorem State.csWrite_goes (s : State) (src off v : Nat) : s.Goes (s.csWrite src off v) := by
  unfold State.csWrite
  split
  · exact s.regWrite_goes _ _ _ _ _
  · exact State.Keeps.refl.goes

theorem execRegisterWrite_goes {src : Fid} {offset : BitVec 26} {value : BitVec 32} (h : execRegisterWrite src offset value s = .next t) :
    s.Goes t := by
  unfold execRegisterWrite at h
  split at h
  · cases h
  · split at h <;> cases h
    · exact State.Keeps.refl.goes
    · exact s.csWrite_goes _ _ _

theorem State.treeAccess_goes (s : State) (r : HubReq) : s.Goes (s.treeAccess r) := by
  have hs : s.Keeps s := .refl
  have hw := s.csWrite_goes r.src.toNat r.off r.value.toNat
  unfold State.treeAccess
  exact .ite hs.csaRefuse.hubAnswer.goes (.ite hs.hubAnswer.goes (.ite (.ite hw (hw.andThen fun hs => hs.hubAnswer))
    hs.csRead.snd.hubAnswer.goes))

theorem execTreeAccessDone_goes {src : Fid} (h : execTreeAccessDone src s = .next t) : s.Goes t := by
  simp only [execTreeAccessDone] at h
  split at h
  · cases h
  · split at h
    · cases h; exact State.Keeps.refl.goes
    · split at h <;> cases h
      · exact State.Keeps.refl.goes
      · exact (s.treeAccess_goes _).andThen fun hs => hs.upd.hubBegin

end Sys2Proof.Machine

namespace Sys2Proof.Machine
variable {s₀ s t : State}

theorem State.KeepsOut.goes {o : Host.Outcome State Fault Refusal} (hk : s.KeepsOut o) (h : o = .next t) : s.Goes t := by
  subst h; exact State.Keeps.goes hk

/-- Apart from the cold reset and the cold start a command makes at most one turn of mode and start-up. -/
theorem exec_goes {c : Instr} (hf : c ≠ .frstNAssert) (hc : ∀ fuses, c ≠ .coldStart fuses) (h : exec c s = .next t) : s.Goes t := by
  have hs : s.Keeps s := .refl
  cases c with
  | frstNAssert => exact absurd rfl hf
  | coldStart fuses => exact absurd rfl (hc fuses)
  | warmReset _ _ => cases h; exact s.resetWrite_goes _ _
  | testEntry => exact execTestEntry_goes h
  | ppsInEdge => exact (execPpsInEdge_keeps hs).goes h
  | wakePin _ => exact (execWakePin_keeps hs).goes h
  | aniseDetect _ => exact (execAniseDetect_keeps hs).goes h
  | p2fWake _ => exact (execP2fWake_keeps hs).goes h
  | p2fLinkRise _ => exact (execP2fLinkRise_keeps hs).goes h
  | p2fLinkFall _ => exact (execP2fLinkFall_keeps hs).goes h
  | slCapReceive _ _ => exact (execSlCapReceive_keeps hs).goes h
  | linkTimeout _ => exact (execLinkTimeout_keeps hs).goes h
  | p2fBeat _ _ => exact (execP2fBeat_keeps hs).goes h
  | creditReturn _ _ _ => exact (execCreditReturn_keeps hs).goes h
  | prgStart _ => exact execPrgStart_goes h
  | prgAbort => exact (execPrgAbort_keeps hs).goes h
  | cloveLock => exact (execCloveLock_keeps hs).goes h
  | prgDataWrite _ _ => exact (execPrgDataWrite_keeps hs).goes h
  | imageVerify => exact (execImageVerify_keeps hs).goes h
  | nop _ => exact (execNop_keeps hs).goes h
  | wrtb _ => exact (execWrtb_keeps hs).goes h
  | vcrc _ => exact (execVcrc_keeps hs).goes h
  | wrcs _ => exact (execWrcs_keeps hs).goes h
  | wrcsComplete => exact (execWrcsComplete_keeps hs).goes h
  | waitt _ => exact (execWaitt_keeps hs).goes h
  | waittExpire => exact (execWaittExpire_keeps hs).goes h
  | waitd _ => exact (execWaitd_keeps hs).goes h
  | waitdExpire => exact (execWaitdExpire_keeps hs).goes h
  | waits _ => exact (execWaits_keeps hs).goes h
  | waitsSample => exact (execWaitsSample_keeps hs).goes h
  | waitsTimeout => exact (execWaitsTimeout_keeps hs).goes h
  | fence _ => exact (execFence_keeps hs).goes h
  | unfence _ => exact (execUnfence_keeps hs).goes h
  | epsw _ => exact (execEpsw_keeps hs).goes h
  | armTimeout => exact (execArmTimeout_keeps hs).goes h
  | linkup _ => exact (execLinkup_keeps hs).goes h
  | endSeq _ => exact (execEndSeq_keeps hs).goes h
  | epochSwitch => exact execEpochSwitch_goes h
  | drainEnd => exact execDrainEnd_goes h
  | oldBankFree => exact execOldBankFree_goes h
  | ruleShadowCopyDone => exact (execRuleShadowCopyDone_keeps hs).goes h
  | epochArmAck _ => exact (execEpochArmAck_keeps hs).goes h
  | epochHoldRelease _ => exact (execEpochHoldRelease_keeps hs).goes h
  | bucketReleaseSend _ _ => exact (execBucketReleaseSend_keeps hs).goes h
  | bucketReleaseProxy _ _ => exact (execBucketReleaseProxy_keeps hs).goes h
  | bucketReleaseReceive _ => exact (execBucketReleaseReceive_keeps hs).goes h
  | bucketSweepTimeout _ _ => exact (execBucketSweepTimeout_keeps hs).goes h
  | cloveFetchDone _ _ => exact (execCloveFetchDone_keeps hs).goes h
  | faultReturn => exact (execFaultReturn_keeps hs).goes h
  | ingressAccept _ _ _ => exact (execIngressAccept_keeps hs).goes h
  | pieceIssue _ => exact (execPieceIssue_keeps hs).goes h
  | routerHop _ _ _ _ _ => exact (execRouterHop_keeps hs).goes h
  | escapeMove _ _ _ _ => exact (execEscapeMove_keeps hs).goes h
  | forcedWin _ => exact (execForcedWin_keeps hs).goes h
  | arbWindowEnd => exact (execArbWindowEnd_keeps hs).goes h
  | oldMark _ => exact (execOldMark_keeps hs).goes h
  | watchdogExpire _ _ _ _ => exact (execWatchdogExpire_keeps hs).goes h
  | egressPresent _ _ _ _ => exact (execEgressPresent_keeps hs).goes h
  | robRelease _ => exact (execRobRelease_keeps hs).goes h
  | pieceAnswer _ => exact (execPieceAnswer_keeps hs).goes h
  | nackReissue _ _ => exact (execNackReissue_keeps hs).goes h
  | srcTrackerExpire _ _ => exact (execSrcTrackerExpire_keeps hs).goes h
  | tgtTrackerExpire _ _ => exact (execTgtTrackerExpire_keeps hs).goes h
  | trackerRelease _ _ => exact (execTrackerRelease_keeps hs).goes h
  | safHeaderArrive _ => exact (execSafHeaderArrive_keeps hs).goes h
  | safPoolGrant => exact (execSafPoolGrant_keeps hs).goes h
  | safComplete => exact (execSafComplete_keeps hs).goes h
  | safWaitExpire _ _ => exact (execSafWaitExpire_keeps hs).goes h
  | safEntWrite _ _ => exact (execSafEntWrite_keeps hs).goes h
  | safPooldefWrite _ => exact (execSafPooldefWrite_keeps hs).goes h
  | homeRequestDecide _ _ _ _ => exact (execHomeRequestDecide_keeps hs).goes h
  | homeWritebackDecide _ _ => exact (execHomeWritebackDecide_keeps hs).goes h
  | homeWaiterEnter _ _ => exact (execHomeWaiterEnter_keeps hs).goes h
  | homeCompack _ => exact (execHomeCompack_keeps hs).goes h
  | homeInvack _ => exact (execHomeInvack_keeps hs).goes h
  | homeSnoopData _ => exact (execHomeSnoopData_keeps hs).goes h
  | homeMemData _ => exact (execHomeMemData_keeps hs).goes h
  | homeMemComp _ => exact (execHomeMemComp_keeps hs).goes h
  | homeTrackerExpire _ _ => exact (execHomeTrackerExpire_keeps hs).goes h
  | dirScrub _ _ _ => exact (execDirScrub_keeps hs).goes h
  | predWindowEnd _ => exact (execPredWindowEnd_keeps hs).goes h
  | predClear _ => exact (execPredClear_keeps hs).goes h
  | cacheSnoop _ => exact (execCacheSnoop_keeps hs).goes h
  | cacheAnswer _ => exact (execCacheAnswer_keeps hs).goes h
  | replicaRepair _ _ => exact (execReplicaRepair_keeps hs).goes h
  | bankAccess _ _ _ _ _ => exact (execBankAccess_keeps hs).goes h
  | sramScrub _ _ _ => exact (execSramScrub_keeps hs).goes h
  | enq _ _ => exact (execEnq_keeps hs).goes h
  | doorbell _ _ => exact (execDoorbell_keeps hs).goes h
  | deq _ _ => exact (execDeq_keeps hs).goes h
  | portSelect _ _ _ _ => exact (execPortSelect_keeps hs).goes h
  | deliveryComp _ => exact (execDeliveryComp_keeps hs).goes h
  | deliveryRetry _ => exact (execDeliveryRetry_keeps hs).goes h
  | qmQResume _ => exact (execQmQResume_keeps hs).goes h
  | tokenRefill => exact (execTokenRefill_keeps hs).goes h
  | qmQRateWrite _ _ => exact (execQmQRateWrite_keeps hs).goes h
  | qmQBurstWrite _ _ => exact (execQmQBurstWrite_keeps hs).goes h
  | qmPRateWrite _ _ _ => exact (execQmPRateWrite_keeps hs).goes h
  | qmPBurstWrite _ _ _ => exact (execQmPBurstWrite_keeps hs).goes h
  | gateEntryChange _ _ => exact (execGateEntryChange_keeps hs).goes h
  | gateListStart _ _ => exact (execGateListStart_keeps hs).goes h
  | samplePeriodOpen _ => exact (execSamplePeriodOpen_keeps hs).goes h
  | add _ _ => exact (execAdd_keeps hs).goes h
  | sub _ _ => exact (execSub_keeps hs).goes h
  | mullo _ _ => exact (execMullo_keeps hs).goes h
  | mulhi _ _ => exact (execMulhi_keeps hs).goes h
  | mulhiu _ _ => exact (execMulhiu_keeps hs).goes h
  | quo _ _ => exact (execQuo_keeps hs).goes h
  | quou _ _ => exact (execQuou_keeps hs).goes h
  | mod _ _ => exact (execMod_keeps hs).goes h
  | modu _ _ => exact (execModu_keeps hs).goes h
  | and _ _ => exact (execAnd_keeps hs).goes h
  | ior _ _ => exact (execIor_keeps hs).goes h
  | xor _ _ => exact (execXor_keeps hs).goes h
  | shl _ _ => exact (execShl_keeps hs).goes h
  | shr _ _ => exact (execShr_keeps hs).goes h
  | shra _ _ => exact (execShra_keeps hs).goes h
  | cmplt _ _ => exact (execCmplt_keeps hs).goes h
  | cmpltu _ _ => exact (execCmpltu_keeps hs).goes h
  | addk _ _ => exact (execAddk_keeps hs).goes h
  | andk _ _ => exact (execAndk_keeps hs).goes h
  | iork _ _ => exact (execIork_keeps hs).goes h
  | xork _ _ => exact (execXork_keeps hs).goes h
  | cmpltk _ _ => exact (execCmpltk_keeps hs).goes h
  | sethi _ _ => exact (execSethi_keeps hs).goes h
  | shkShl _ _ => exact (execShkShl_keeps hs).goes h
  | shkShr _ _ => exact (execShkShr_keeps hs).goes h
  | shkShra _ _ => exact (execShkShra_keeps hs).goes h
  | callr _ _ => exact (execCallr_keeps hs).goes h
  | sync _ _ => exact (execSync_keeps hs).goes h
  | rett _ _ => exact (execRett_keeps hs).goes h
  | rdtcr _ _ => exact (execRdtcr_keeps hs).goes h
  | wrtcr _ _ => exact (execWrtcr_keeps hs).goes h
  | signal _ _ => exact (execSignal_keeps hs).goes h
  | halt _ _ => exact (execHalt_keeps hs).goes h
  | breakTrap _ _ => exact (execBreakTrap_keeps hs).goes h
  | ldb _ _ _ => exact (execLdb_keeps hs).goes h
  | ldh _ _ _ => exact (execLdh_keeps hs).goes h
  | ldw _ _ _ => exact (execLdw_keeps hs).goes h
  | ldd _ _ _ => exact (execLdd_keeps hs).goes h
  | ldbs _ _ _ => exact (execLdbs_keeps hs).goes h
  | ldhs _ _ _ => exact (execLdhs_keeps hs).goes h
  | ldws _ _ _ => exact (execLdws_keeps hs).goes h
  | stb _ _ => exact (execStb_keeps hs).goes h
  | sth _ _ => exact (execSth_keeps hs).goes h
  | stw _ _ => exact (execStw_keeps hs).goes h
  | std _ _ => exact (execStd_keeps hs).goes h
  | ldln _ _ => exact (execLdln_keeps hs).goes h
  | stln _ _ _ => exact (execStln_keeps hs).goes h
  | atom _ _ _ => exact (execAtom_keeps hs).goes h
  | enqInstr _ _ _ => exact (execEnqInstr_keeps hs).goes h
  | deqInstr _ _ => exact (execDeqInstr_keeps hs).goes h
  | dbell _ _ => exact (execDbell_keeps hs).goes h
  | seqw _ _ _ => exact (execSeqw_keeps hs).goes h
  | intr _ _ => exact (execIntr_keeps hs).goes h
  | recv _ _ => exact (execRecv_keeps hs).goes h
  | rxdone _ _ => exact (execRxdone_keeps hs).goes h
  | rdtim _ _ => exact (execRdtim_keeps hs).goes h
  | threadWaitt _ _ => exact (execThreadWaitt_keeps hs).goes h
  | settmr _ _ => exact (execSettmr_keeps hs).goes h
  | breq _ _ => exact (execBreq_keeps hs).goes h
  | brne _ _ => exact (execBrne_keeps hs).goes h
  | brlt _ _ => exact (execBrlt_keeps hs).goes h
  | brge _ _ => exact (execBrge_keeps hs).goes h
  | brlo _ _ => exact (execBrlo_keeps hs).goes h
  | brhs _ _ => exact (execBrhs_keeps hs).goes h
  | call _ _ => exact (execCall_keeps hs).goes h
  | threadWaittExpire _ => exact (execThreadWaittExpire_keeps hs).goes h
  | trapTake _ => exact (execTrapTake_keeps hs).goes h
  | timerFire _ => exact (execTimerFire_keeps hs).goes h
  | interruptTake _ => exact (execInterruptTake_keeps hs).goes h
  | storeDrain _ => exact (execStoreDrain_keeps hs).goes h
  | engFabricAnswer _ => exact (execEngFabricAnswer_keeps hs).goes h
  | engDelivery _ => exact (execEngDelivery_keeps hs).goes h
  | engTStart _ => exact (execEngTStart_keeps hs).goes h
  | engTHalt _ => exact (execEngTHalt_keeps hs).goes h
  | localSramScrub _ _ => exact (execLocalSramScrub_keeps hs).goes h
  | engSampleWrite _ => exact (execEngSampleWrite_keeps hs).goes h
  | syncBeat _ _ => exact (execSyncBeat_keeps hs).goes h
  | timSet => exact (execTimSet_keeps hs).goes h
  | timStep => exact (execTimStep_keeps hs).goes h
  | holdoverEnter => exact (execHoldoverEnter_keeps hs).goes h
  | ppsOutRise => exact (execPpsOutRise_keeps hs).goes h
  | ppsOutFall => exact (execPpsOutFall_keeps hs).goes h
  | timeBeacon _ _ => exact (execTimeBeacon_keeps hs).goes h
  | timNowRead => exact (execTimNowRead_keeps hs).goes h
  | slcFreeze _ => exact (execSlcFreeze_keeps hs).goes h
  | sliceFrozen _ => exact (execSliceFrozen_keeps hs).goes h
  | freezeStuck _ => exact (execFreezeStuck_keeps hs).goes h
  | slcThaw _ => exact (execSlcThaw_keeps hs).goes h
  | slcReset _ => exact (execSlcReset_keeps hs).goes h
  | sliceResetSquash _ => exact (execSliceResetSquash_keeps hs).goes h
  | sliceResetClear _ => exact (execSliceResetClear_keeps hs).goes h
  | slcSave _ => exact (execSlcSave_keeps hs).goes h
  | slcRestore _ => exact (execSlcRestore_keeps hs).goes h
  | saveDone _ _ => exact (execSaveDone_keeps hs).goes h
  | restoreDone _ _ _ => exact (execRestoreDone_keeps hs).goes h
  | slcQliveWrite _ _ => exact (execSlcQliveWrite_keeps hs).goes h
  | faultReport => exact (execFaultReport_keeps hs).goes h
  | alarmFrame _ => exact (execAlarmFrame_keeps hs).goes h
  | faultTake _ => exact execFaultTake_goes h
  | faultReportResend _ => exact (execFaultReportResend_keeps hs).goes h
  | pinMinimumEnd => exact (execPinMinimumEnd_keeps hs).goes h
  | fcAck _ => exact (execFcAck_keeps hs).goes h
  | fcPinRelease => exact (execFcPinRelease_keeps hs).goes h
  | injArm => exact (execInjArm_keeps hs).goes h
  | injDisarm => exact (execInjDisarm_keeps hs).goes h
  | swRaise _ => exact (execSwRaise_keeps hs).goes h
  | spineVoteMismatch _ _ => exact (execSpineVoteMismatch_keeps hs).goes h
  | voteResyncDone _ _ => exact (execVoteResyncDone_keeps hs).goes h
  | pwrDomReq _ _ => exact (execPwrDomReq_keeps hs).goes h
  | pwrQreqGo _ => exact (execPwrQreqGo_keeps hs).goes h
  | idleTimeout _ => exact (execIdleTimeout_keeps hs).goes h
  | powerAnswer _ _ => exact (execPowerAnswer_keeps hs).goes h
  | deferReask _ _ => exact (execDeferReask_keeps hs).goes h
  | noanswerTimeout _ _ => exact (execNoanswerTimeout_keeps hs).goes h
  | entrySaveDone _ _ => exact (execEntrySaveDone_keeps hs).goes h
  | vdone _ => exact (execVdone_keeps hs).goes h
  | avsStatusPoll _ _ => exact (execAvsStatusPoll_keeps hs).goes h
  | avsVoltageWriteDone _ _ _ => exact (execAvsVoltageWriteDone_keeps hs).goes h
  | wakeAccept _ => exact (execWakeAccept_keeps hs).goes h
  | wakeStartDone _ _ => exact (execWakeStartDone_keeps hs).goes h
  | pwrUnclamp _ => exact (execPwrUnclamp_keeps hs).goes h
  | pwrFabreqGo => exact (execPwrFabreqGo_keeps hs).goes h
  | pwrFabreqUnclamp => exact (execPwrFabreqUnclamp_keeps hs).goes h
  | pwrAniseSend _ => exact (execPwrAniseSend_keeps hs).goes h
  | pwrSaveLock => exact (execPwrSaveLock_keeps hs).goes h
  | holdTimeout _ => exact (execHoldTimeout_keeps hs).goes h
  | glbDrain => cases h; exact State.drainWrite_goes id
  | fabricQuiesced => exact execFabricQuiesced_goes h
  | drainTimeout => exact (execDrainTimeout_keeps hs).goes h
  | glbResume => cases h; exact s.resumeWrite_goes
  | glbPdrec => exact (execGlbPdrec_keeps hs).goes h
  | pdrecDone _ => exact (execPdrecDone_keeps hs).goes h
  | ctrRead _ _ => exact (execCtrRead_keeps hs).goes h
  | ctrClear _ => exact (execCtrClear_keeps hs).goes h
  | ctrChainWrite _ _ _ => exact (execCtrChainWrite_keeps hs).goes h
  | bwWindowEnd _ => exact (execBwWindowEnd_keeps hs).goes h
  | probeRecordWrite _ => exact (execProbeRecordWrite_keeps hs).goes h
  | probeFullClear _ => exact (execProbeFullClear_keeps hs).goes h
  | csrRead => exact (execCsrRead_keeps hs).goes h
  | csrWrite => exact (execCsrWrite_keeps hs).goes h
  | treeAccessDone _ => exact execTreeAccessDone_goes h
  | csaLock => exact (execCsaLock_keeps hs).goes h
  | latchReadLo _ => exact (execLatchReadLo_keeps hs).goes h
  | registerWrite _ _ _ => exact execRegisterWrite_goes h

theorem State.Goes.prim (h : s.Goes t) : t.prim = s.prim ∨ t.prim = .boot ∧ s.prim ≠ .test ∨ (s.prim, t.prim) ∈ modeEdges := by
  obtain ⟨b, hb, hk⟩ := h
  cases hb with
  | same => exact .inl hk.prim
  | edge he => exact .inr (.inr (by rwa [hk.prim]))
  | boot hp => exact .inr (.inl ⟨hk.prim, hp⟩)

theorem State.Keeps.inv (h : s.Keeps t) (hi : s.Inv) : t.Inv := by
  obtain ⟨hm, hl, hr⟩ := hi
  exact ⟨h.sram hm, h.lsram hl, by rw [h.started, h.frst, h.fuses]; exact hr⟩

/-- A warm reset needs the fuses that a started fabric has. -/
theorem State.Goes.inv (h : s.Goes t) (hi : s.Inv) : t.Inv := by
  obtain ⟨b, hb, hk⟩ := h
  refine hk.inv ?_
  obtain ⟨hm, hl, hr⟩ := hi
  cases hb with
  | same => exact ⟨hm, hl, hr⟩
  | edge => exact ⟨hm, hl, hr⟩
  | boot _ hs => exact ⟨Memory.wf_nil, Memory.wf_nil, fun _ => ⟨rfl, (hr hs).2⟩⟩

theorem State.coldReset_inv (s : State) : s.coldReset.Inv := ⟨Memory.wf_nil, Memory.wf_nil, fun h => nomatch h⟩

theorem exec_inv {c : Instr} (h : exec c s = .next t) (hi : s.Inv) : t.Inv := by
  by_cases hf : c = .frstNAssert
  · subst hf
    cases h
    exact s.coldReset_inv
  · by_cases hc : ∃ fuses, c = .coldStart fuses
    · obtain ⟨fuses, rfl⟩ := hc
      obtain rfl | ⟨-, hk⟩ := execColdStart_eq h
      · exact hi
      · exact hk.inv ⟨Memory.wf_nil, Memory.wf_nil, fun _ => ⟨rfl, rfl⟩⟩
    · exact (exec_goes hf (fun f hf => hc ⟨f, hf⟩) h).inv hi

/-- Settles O59: time keeps the frame, and a command keeps it around at most one turn of mode and start-up. -/
theorem everyStepKeepsTheInvariant : Obligations.EveryStepKeepsTheInvariant := by
  intro s t hi h
  unfold step at h
  split at h
  · cases h
    exact (State.Keeps.tickFclk .refl).inv hi
  · exact exec_inv h hi

/-- Settles O5: the one turn that a command makes is an edge of R415 or a warm reset, and TEST has no edge. -/
theorem primaryModeChangesOnlyAsListed : Obligations.PrimaryModeChangesOnlyAsListed := by
  intro c s t h
  by_cases hf : c = .frstNAssert
  · subst hf
    cases h
    exact .inr (.inl ⟨rfl, .inr (.inr rfl)⟩)
  · by_cases hc : ∃ fuses, c = .coldStart fuses
    · obtain ⟨fuses, rfl⟩ := hc
      obtain rfl | ⟨hr, hk⟩ := execColdStart_eq h
      · exact .inl rfl
      · exact .inr (.inl ⟨hk.prim, .inr (.inl hr)⟩)
    · obtain hp | ⟨hp, ht⟩ | he := (exec_goes hf (fun f hf => hc ⟨f, hf⟩) h).prim
      · exact .inl hp
      · exact .inr (.inl ⟨hp, .inl ht⟩)
      · exact .inr (.inr he)

/-- Settles O60. -/
theorem resetMeetsTheInvariant : Obligations.ResetMeetsTheInvariant := ⟨Memory.wf_nil, Memory.wf_nil, fun h => nomatch h⟩

/-- Settles O1: both halves are the two branches of `step`. -/
theorem stepRunsTheFrontCommand : Obligations.StepRunsTheFrontCommand := by
  refine ⟨fun c rest s => rfl, fun s h => ?_⟩
  unfold step
  rw [h]

end Sys2Proof.Machine

namespace Sys2Proof.Machine
variable {s : State}

/-- The command answers next when the units that it names exist, and stops when one does not. -/
inductive Answers : Bool → Host.Outcome State Fault Refusal → Prop
  | next {t : State} : Answers true (.next t)
  | fault : Answers false (.fault .noSuchUnit)

section
variable {b : Bool} {x y : Host.Outcome State Fault Refusal}

theorem Answers.ite {c : Prop} [Decidable c] (hx : Answers b x) (hy : Answers b y) : Answers b (if c then x else y) := by
  split
  · exact hx
  · exact hy

theorem Answers.guard (h : Answers true x) : Answers b (if !b then .fault .noSuchUnit else x) := by
  cases b
  · exact .fault
  · exact h

theorem Answers.guard_prop (h : Answers true x) : Answers b (if ¬b = true then .fault .noSuchUnit else x) := by
  cases b
  · exact .fault
  · exact h

theorem Answers.guard_two {b' : Bool} (h : Answers true x) : Answers (b && b') (if (!b) = true ∨ (!b') = true then .fault .noSuchUnit else x) := by
  cases b <;> cases b'
  · exact .fault
  · exact .fault
  · exact .fault
  · exact h

theorem Answers.ite_fault {t : State} : Answers b (if b then .next t else .fault .noSuchUnit) := by
  cases b
  · exact .fault
  · exact .next
end

theorem State.instr_answers {t : Fin 1536} {op : TOp} {store : WordErr} {body : Nat → Nat → Thr → Nat → State → State} :
    Answers true (s.instr t op store body) := by
  simp only [State.instr]
  (repeat' split) <;> exact .next

theorem State.alu_answers {t : Fin 1536} {fn : Nat} {store : WordErr} {f : Word64 → Word64 → Word64} :
    Answers true (s.alu t fn store f) := State.instr_answers

theorem State.divide_answers {t : Fin 1536} {fn : Nat} {store : WordErr} {f : Word64 → Word64 → Word64} {z : Word64 → Word64} :
    Answers true (s.divide t fn store f z) := State.instr_answers

theorem State.aluImm_answers {t : Fin 1536} {op : TOp} {store : WordErr} {f : Word64 → Nat → Word64} :
    Answers true (s.aluImm t op store f) := State.instr_answers

theorem State.branch_answers {t : Fin 1536} {cond : Nat} {store : WordErr} {f : Word64 → Word64 → Bool} :
    Answers true (s.branch t cond store f) := State.instr_answers

theorem execP2fLinkFall_answers {fid : Fid} : Answers (isPartner fid.toNat) (execP2fLinkFall fid s) := by
  simp only [execP2fLinkFall]
  refine .guard ?_
  (repeat' split) <;> exact .next

theorem execSlCapReceive_answers {sl : Fin 6} {cap : BitVec 32} : Answers true (execSlCapReceive sl cap s) := by
  simp only [execSlCapReceive]
  (repeat' split) <;> exact .next

theorem execP2fBeat_answers {fid : Fid} {beat : Beat} : Answers (isPartner fid.toNat && hasP2f fid.toNat beat.net) (execP2fBeat fid beat s) := by
  simp only [execP2fBeat]
  refine .guard_two ?_
  (repeat' split) <;> exact .next

theorem execImageVerify_answers  : Answers true (execImageVerify s) := by
  simp only [execImageVerify]
  (repeat' split) <;> exact .next

theorem execWrcsComplete_answers  : Answers true (execWrcsComplete s) := by
  simp only [execWrcsComplete]
  (repeat' split) <;> exact .next

theorem execWaittExpire_answers  : Answers true (execWaittExpire s) := by
  simp only [execWaittExpire]
  (repeat' split) <;> exact .next

theorem execWaitdExpire_answers  : Answers true (execWaitdExpire s) := by
  simp only [execWaitdExpire]
  (repeat' split) <;> exact .next

theorem execWaitsSample_answers  : Answers true (execWaitsSample s) := by
  simp only [execWaitsSample]
  (repeat' split) <;> exact .next

theorem execWaitsTimeout_answers  : Answers true (execWaitsTimeout s) := by
  simp only [execWaitsTimeout]
  (repeat' split) <;> exact .next

theorem execArmTimeout_answers  : Answers true (execArmTimeout s) := by
  simp only [execArmTimeout]
  (repeat' split) <;> exact .next

theorem execEpochSwitch_answers  : Answers true (execEpochSwitch s) := by
  simp only [execEpochSwitch]
  (repeat' split) <;> exact .next

theorem execEpochArmAck_answers {unit : UnitRef} : Answers (unitExists unit) (execEpochArmAck unit s) := by
  simp only [execEpochArmAck]
  refine .guard ?_
  (repeat' split) <;> exact .next

theorem execEpochHoldRelease_answers {fid : Fid} : Answers (assigned fid.toNat) (execEpochHoldRelease fid s) := by
  simp only [execEpochHoldRelease]
  refine .guard ?_
  (repeat' split) <;> exact .next

theorem execBucketReleaseSend_answers {k : Fin 64} {bucket : BitVec 12} : Answers true (execBucketReleaseSend k bucket s) := by
  simp only [execBucketReleaseSend]
  (repeat' split) <;> exact .next

theorem execBucketReleaseProxy_answers {k : Fin 64} {bucket : BitVec 12} : Answers true (execBucketReleaseProxy k bucket s) := by
  simp only [execBucketReleaseProxy]
  (repeat' split) <;> exact .next

theorem execBucketReleaseReceive_answers {k : Fin 64} : Answers true (execBucketReleaseReceive k s) := by
  simp only [execBucketReleaseReceive]
  (repeat' split) <;> exact .next

theorem execBucketSweepTimeout_answers {k : Fin 64} {slot : Fin 4} : Answers true (execBucketSweepTimeout k slot s) := by
  simp only [execBucketSweepTimeout]
  (repeat' split) <;> exact .next

theorem execCloveFetchDone_answers {copy0 copy1 : List Byte} : Answers true (execCloveFetchDone copy0 copy1 s) := by
  simp only [execCloveFetchDone]
  (repeat' split) <;> exact .next

theorem execPieceIssue_answers {fid : Fid} : Answers (tracked fid.toNat) (execPieceIssue fid s) := by
  simp only [execPieceIssue]
  refine .guard ?_
  (repeat' split) <;> exact .next

theorem execRouterHop_answers {node : Fin 144} {net : Net} {out : Fin 7} {err : LinkErr} {table : WordErr} : Answers true (execRouterHop node net out err table s) := by
  simp only [execRouterHop]
  (repeat' split) <;> exact .next

theorem execWatchdogExpire_answers {node : Fin 144} {net : Net} {inp : Fin 7} {vc : BitVec 2} : Answers true (execWatchdogExpire node net inp vc s) := by
  simp only [execWatchdogExpire]
  (repeat' split) <;> exact .next

theorem execEgressPresent_answers {fid : Fid} {net : Net} {vc : BitVec 2} {err : LinkErr} : Answers (assigned fid.toNat) (execEgressPresent fid net vc err s) := by
  simp only [execEgressPresent]
  refine .guard ?_
  (repeat' split) <;> exact .next

theorem execRobRelease_answers {fid : Fid} : Answers (assigned fid.toNat) (execRobRelease fid s) := by
  simp only [execRobRelease]
  refine .guard ?_
  (repeat' split) <;> exact .next

theorem execPieceAnswer_answers {fid : Fid} : Answers (isPartner fid.toNat) (execPieceAnswer fid s) := by
  simp only [execPieceAnswer]
  refine .guard ?_
  (repeat' split) <;> exact .next

theorem execNackReissue_answers {fid : Fid} {entry : BitVec 8} : Answers (tracked fid.toNat) (execNackReissue fid entry s) := by
  simp only [execNackReissue]
  refine .guard ?_
  (repeat' split) <;> exact .next

theorem execTgtTrackerExpire_answers {fid : Fid} {entry : BitVec 8} : Answers (isPartner fid.toNat) (execTgtTrackerExpire fid entry s) := by
  simp only [execTgtTrackerExpire]
  refine .guard ?_
  (repeat' split) <;> exact .next

theorem execSafHeaderArrive_answers {stored : WordErr} : Answers true (execSafHeaderArrive stored s) := by
  simp only [execSafHeaderArrive]
  (repeat' split) <;> exact .next

theorem execSafPoolGrant_answers  : Answers true (execSafPoolGrant s) := by
  simp only [execSafPoolGrant]
  (repeat' split) <;> exact .next

theorem execSafComplete_answers  : Answers true (execSafComplete s) := by
  simp only [execSafComplete]
  (repeat' split) <;> exact .next

theorem execHomeRequestDecide_answers {k : Fin 64} {lane : BitVec 2} {err : WordErrs} {table : WordErr} : Answers true (execHomeRequestDecide k lane err table s) := by
  simp only [execHomeRequestDecide]
  (repeat' split) <;> exact .next

theorem execHomeWritebackDecide_answers {k : Fin 64} {err : WordErrs} : Answers true (execHomeWritebackDecide k err s) := by
  simp only [execHomeWritebackDecide]
  (repeat' split) <;> exact .next

theorem execHomeWaiterEnter_answers {k : Fin 64} {err : WordErrs} : Answers true (execHomeWaiterEnter k err s) := by
  simp only [execHomeWaiterEnter]
  (repeat' split) <;> exact .next

theorem execHomeCompack_answers {k : Fin 64} : Answers true (execHomeCompack k s) := by
  simp only [execHomeCompack]
  (repeat' split) <;> exact .next

theorem execHomeInvack_answers {k : Fin 64} : Answers true (execHomeInvack k s) := by
  simp only [execHomeInvack]
  (repeat' split) <;> exact .next

theorem execHomeSnoopData_answers {k : Fin 64} : Answers true (execHomeSnoopData k s) := by
  simp only [execHomeSnoopData]
  (repeat' split) <;> exact .next

theorem execHomeMemData_answers {k : Fin 64} : Answers true (execHomeMemData k s) := by
  simp only [execHomeMemData]
  (repeat' split) <;> exact .next

theorem execHomeMemComp_answers {k : Fin 64} : Answers true (execHomeMemComp k s) := by
  simp only [execHomeMemComp]
  (repeat' split) <;> exact .next

theorem execHomeTrackerExpire_answers {k : Fin 64} {htid : BitVec 8} : Answers true (execHomeTrackerExpire k htid s) := by
  simp only [execHomeTrackerExpire]
  (repeat' split) <;> exact .next

theorem execCacheSnoop_answers {fid : Fid} : Answers (isCaching fid.toNat) (execCacheSnoop fid s) := by
  simp only [execCacheSnoop]
  refine .guard ?_
  (repeat' split) <;> exact .next

theorem execCacheAnswer_answers {fid : Fid} : Answers (isCaching fid.toNat) (execCacheAnswer fid s) := by
  simp only [execCacheAnswer]
  refine .guard ?_
  (repeat' split) <;> exact .next

theorem execBankAccess_answers {node : Fin 16} {bank : Fin 4} {fabErr locErr : WordErrs} {table : WordErr} : Answers true (execBankAccess node bank fabErr locErr table s) := by
  simp only [execBankAccess]
  (repeat' split) <;> exact .next

theorem execPortSelect_answers {q : Fin 4} {p : Fin 8} {table gate : WordErr} : Answers true (execPortSelect q p table gate s) := by
  simp only [execPortSelect]
  (repeat' split) <;> exact .next

theorem execDeliveryComp_answers {q : Fin 4} : Answers true (execDeliveryComp q s) := by
  simp only [execDeliveryComp]
  (repeat' split) <;> exact .next

theorem execDeliveryRetry_answers {queue : BitVec 16} : Answers true (execDeliveryRetry queue s) := by
  simp only [execDeliveryRetry]
  (repeat' split) <;> exact .next

theorem execGateListStart_answers {q : Fin 4} {p : Fin 8} : Answers true (execGateListStart q p s) := by
  simp only [execGateListStart]
  (repeat' split) <;> exact .next

theorem execThreadWaittExpire_answers {t : Fin 1536} : Answers true (execThreadWaittExpire t s) := by
  simp only [execThreadWaittExpire]
  (repeat' split) <;> exact .next

theorem execTrapTake_answers {t : Fin 1536} : Answers true (execTrapTake t s) := by
  simp only [execTrapTake]
  (repeat' split) <;> exact .next

theorem execTimerFire_answers {t : Fin 1536} : Answers true (execTimerFire t s) := by
  simp only [execTimerFire]
  (repeat' split) <;> exact .next

theorem execStoreDrain_answers {e : Fin 192} : Answers true (execStoreDrain e s) := by
  simp only [execStoreDrain]
  (repeat' split) <;> exact .next

theorem execEngFabricAnswer_answers {k : Fin 48} : Answers true (execEngFabricAnswer k s) := by
  simp only [execEngFabricAnswer]
  (repeat' split) <;> exact .next

theorem execEngDelivery_answers {k : Fin 48} : Answers true (execEngDelivery k s) := by
  simp only [execEngDelivery]
  (repeat' split) <;> exact .next

theorem execEngSampleWrite_answers {k : Fin 48} : Answers true (execEngSampleWrite k s) := by
  simp only [execEngSampleWrite]
  (repeat' split) <;> exact .next

theorem execSyncBeat_answers {leaf : UnitRef} {reading : LeafReading} : Answers (unitExists leaf) (execSyncBeat leaf reading s) := by
  simp only [execSyncBeat]
  refine .guard ?_
  (repeat' split) <;> exact .next

theorem execPpsOutFall_answers  : Answers true (execPpsOutFall s) := by
  simp only [execPpsOutFall]
  (repeat' split) <;> exact .next

theorem execSaveDone_answers {sl : Fin 64} {status : BitVec 8} : Answers true (execSaveDone sl status s) := by
  simp only [execSaveDone]
  (repeat' split) <;> exact .next

theorem execFaultReport_answers  : Answers true (execFaultReport s) := by
  simp only [execFaultReport]
  (repeat' split) <;> exact .next

theorem execAlarmFrame_answers {node : Fin 144} : Answers true (execAlarmFrame node s) := by
  simp only [execAlarmFrame]
  (repeat' split) <;> exact .next

theorem execFaultTake_answers {stored : WordErr} : Answers true (execFaultTake stored s) := by
  simp only [execFaultTake]
  (repeat' split) <;> exact .next

theorem execPowerAnswer_answers {d : Fin 18} {unit : UnitRef} : Answers (unitExists unit) (execPowerAnswer d unit s) := by
  simp only [execPowerAnswer]
  refine .guard ?_
  (repeat' split) <;> exact .next

theorem execHoldTimeout_answers {fid : Fid} : Answers (assigned fid.toNat) (execHoldTimeout fid s) := by
  simp only [execHoldTimeout]
  refine .guard ?_
  (repeat' split) <;> exact .next

theorem execDrainTimeout_answers  : Answers true (execDrainTimeout s) := by
  simp only [execDrainTimeout]
  (repeat' split) <;> exact .next

theorem execPdrecDone_answers {status : BitVec 8} : Answers true (execPdrecDone status s) := by
  simp only [execPdrecDone]
  (repeat' split) <;> exact .next

theorem execProbeRecordWrite_answers {node : Fin 144} : Answers true (execProbeRecordWrite node s) := by
  simp only [execProbeRecordWrite]
  (repeat' split) <;> exact .next

theorem execCsrRead_answers  : Answers true (execCsrRead s) := by
  simp only [execCsrRead]
  (repeat' split) <;> exact .next

theorem execCsrWrite_answers  : Answers true (execCsrWrite s) := by
  simp only [execCsrWrite]
  (repeat' split) <;> exact .next

theorem execTreeAccessDone_answers {src : Fid} : Answers (assigned src.toNat) (execTreeAccessDone src s) := by
  simp only [execTreeAccessDone]
  refine .guard_prop ?_
  (repeat' split) <;> exact .next

theorem State.homeRespond_answers {k : Fin 64} : Answers true (s.homeRespond k) := by
  unfold State.homeRespond
  split
  · exact .next
  · exact .ite (.ite execHomeMemData_answers execHomeSnoopData_answers) (.ite execHomeInvack_answers (.ite execHomeCompack_answers
      (.ite execHomeMemData_answers execHomeMemComp_answers)))

theorem execForcedWin_answers {site : ArbSite} : Answers true (execForcedWin site s) := by
  unfold execForcedWin
  split
  · exact .ite .next .next
  · split
    · exact .next
    · exact .ite State.homeRespond_answers (.ite execHomeWritebackDecide_answers execHomeRequestDecide_answers)
  · exact .ite .next execBankAccess_answers

theorem execOldMark_answers {place : Holder} : Answers place.wf (execOldMark place s) := by
  cases place with
  | router => exact .ite .next .next
  | inject => exact .guard (.ite .next .next)
  | parked =>
    simp only [execOldMark]
    refine .guard ?_
    split
    · exact .next
    · exact .next

theorem assigned_of_tracked {f : Nat} (h : tracked f = true) : assigned f = true := by
  unfold tracked isPartner isCluster at h
  unfold assigned at h ⊢
  grind

theorem Answers.assigned_ite {x y : Host.Outcome State Fault Refusal} {f : Nat} {c : Prop} [Decidable c] (hc : c → assigned f = true)
    (hx : Answers true x) (hy : Answers (assigned f) y) : Answers (assigned f) (if c then x else y) := by
  split
  · next h => rwa [hc h]
  · exact hy

theorem Answers.ite_of {x : Host.Outcome State Fault Refusal} {b : Bool} (hx : b = true → Answers true x) :
    Answers b (if b then x else .fault .noSuchUnit) := by
  cases b
  · exact .fault
  · exact hx rfl

theorem Answers.assigned_else {f : Nat} : Answers (assigned f) (if assigned f then .next s else .fault .noSuchUnit) :=
  .ite_fault

theorem assigned_of_queueManager {f : Nat} (h : 0x170 ≤ f ∧ f < 0x174) : assigned f = true := by
  unfold assigned
  grind

theorem execSrcTrackerExpire_answers {fid : Fid} {entry : BitVec 8} : Answers (assigned fid.toNat) (execSrcTrackerExpire fid entry s) := by
  simp only [execSrcTrackerExpire]
  refine .assigned_ite assigned_of_tracked ?_ (.assigned_ite assigned_of_queueManager ?_
    (.assigned_ite (fun h => h ▸ rfl) ?_ .assigned_else))
  all_goals (repeat' split) <;> exact .next

theorem execTrackerRelease_answers {fid : Fid} {entry : BitVec 8} : Answers (assigned fid.toNat) (execTrackerRelease fid entry s) := by
  simp only [execTrackerRelease]
  refine .assigned_ite assigned_of_tracked ?_ (.assigned_ite assigned_of_queueManager ?_
    (.assigned_ite (fun h => h ▸ rfl) (.ite .next .next) .assigned_else))
  all_goals (repeat' split) <;> exact .next

theorem execFaultReportResend_answers {fid : Fid} : Answers (assigned fid.toNat) (execFaultReportResend fid s) := by
  simp only [execFaultReportResend]
  refine .ite_of fun _ => ?_
  (repeat' split) <;> exact .next

theorem execSafWaitExpire_answers {fid : Fid} {entry : BitVec 8} : Answers (assigned fid.toNat) (execSafWaitExpire fid entry s) :=
  .assigned_ite assigned_of_tracked .next (.assigned_ite (fun h => h ▸ rfl) .next .assigned_else)

theorem execAdd_answers {t : Fin 1536} {store : WordErr} : Answers true (execAdd t store s) :=
  State.alu_answers

theorem execSub_answers {t : Fin 1536} {store : WordErr} : Answers true (execSub t store s) :=
  State.alu_answers

theorem execMullo_answers {t : Fin 1536} {store : WordErr} : Answers true (execMullo t store s) :=
  State.alu_answers

theorem execMulhi_answers {t : Fin 1536} {store : WordErr} : Answers true (execMulhi t store s) :=
  State.alu_answers

theorem execMulhiu_answers {t : Fin 1536} {store : WordErr} : Answers true (execMulhiu t store s) :=
  State.alu_answers

theorem execQuo_answers {t : Fin 1536} {store : WordErr} : Answers true (execQuo t store s) :=
  State.divide_answers

theorem execQuou_answers {t : Fin 1536} {store : WordErr} : Answers true (execQuou t store s) :=
  State.divide_answers

theorem execMod_answers {t : Fin 1536} {store : WordErr} : Answers true (execMod t store s) :=
  State.divide_answers

theorem execModu_answers {t : Fin 1536} {store : WordErr} : Answers true (execModu t store s) :=
  State.divide_answers

theorem execAnd_answers {t : Fin 1536} {store : WordErr} : Answers true (execAnd t store s) :=
  State.alu_answers

theorem execIor_answers {t : Fin 1536} {store : WordErr} : Answers true (execIor t store s) :=
  State.alu_answers

theorem execXor_answers {t : Fin 1536} {store : WordErr} : Answers true (execXor t store s) :=
  State.alu_answers

theorem execShl_answers {t : Fin 1536} {store : WordErr} : Answers true (execShl t store s) :=
  State.alu_answers

theorem execShr_answers {t : Fin 1536} {store : WordErr} : Answers true (execShr t store s) :=
  State.alu_answers

theorem execShra_answers {t : Fin 1536} {store : WordErr} : Answers true (execShra t store s) :=
  State.alu_answers

theorem execCmplt_answers {t : Fin 1536} {store : WordErr} : Answers true (execCmplt t store s) :=
  State.alu_answers

theorem execCmpltu_answers {t : Fin 1536} {store : WordErr} : Answers true (execCmpltu t store s) :=
  State.alu_answers

theorem execAddk_answers {t : Fin 1536} {store : WordErr} : Answers true (execAddk t store s) :=
  State.aluImm_answers

theorem execAndk_answers {t : Fin 1536} {store : WordErr} : Answers true (execAndk t store s) :=
  State.aluImm_answers

theorem execIork_answers {t : Fin 1536} {store : WordErr} : Answers true (execIork t store s) :=
  State.aluImm_answers

theorem execXork_answers {t : Fin 1536} {store : WordErr} : Answers true (execXork t store s) :=
  State.aluImm_answers

theorem execCmpltk_answers {t : Fin 1536} {store : WordErr} : Answers true (execCmpltk t store s) :=
  State.aluImm_answers

theorem execSethi_answers {t : Fin 1536} {store : WordErr} : Answers true (execSethi t store s) :=
  State.aluImm_answers

theorem execShkShl_answers {t : Fin 1536} {store : WordErr} : Answers true (execShkShl t store s) :=
  State.aluImm_answers

theorem execShkShr_answers {t : Fin 1536} {store : WordErr} : Answers true (execShkShr t store s) :=
  State.aluImm_answers

theorem execShkShra_answers {t : Fin 1536} {store : WordErr} : Answers true (execShkShra t store s) :=
  State.aluImm_answers

theorem execCallr_answers {t : Fin 1536} {store : WordErr} : Answers true (execCallr t store s) :=
  State.instr_answers

theorem execSync_answers {t : Fin 1536} {store : WordErr} : Answers true (execSync t store s) :=
  State.instr_answers

theorem execRett_answers {t : Fin 1536} {store : WordErr} : Answers true (execRett t store s) :=
  State.instr_answers

theorem execRdtcr_answers {t : Fin 1536} {store : WordErr} : Answers true (execRdtcr t store s) :=
  State.instr_answers

theorem execWrtcr_answers {t : Fin 1536} {store : WordErr} : Answers true (execWrtcr t store s) :=
  State.instr_answers

theorem execSignal_answers {t : Fin 1536} {store : WordErr} : Answers true (execSignal t store s) :=
  State.instr_answers

theorem execHalt_answers {t : Fin 1536} {store : WordErr} : Answers true (execHalt t store s) :=
  State.instr_answers

theorem execBreakTrap_answers {t : Fin 1536} {store : WordErr} : Answers true (execBreakTrap t store s) :=
  State.instr_answers

theorem execLdb_answers {t : Fin 1536} {store : WordErr} {mem : WordErrs} : Answers true (execLdb t store mem s) :=
  State.instr_answers

theorem execLdh_answers {t : Fin 1536} {store : WordErr} {mem : WordErrs} : Answers true (execLdh t store mem s) :=
  State.instr_answers

theorem execLdw_answers {t : Fin 1536} {store : WordErr} {mem : WordErrs} : Answers true (execLdw t store mem s) :=
  State.instr_answers

theorem execLdd_answers {t : Fin 1536} {store : WordErr} {mem : WordErrs} : Answers true (execLdd t store mem s) :=
  State.instr_answers

theorem execLdbs_answers {t : Fin 1536} {store : WordErr} {mem : WordErrs} : Answers true (execLdbs t store mem s) :=
  State.instr_answers

theorem execLdhs_answers {t : Fin 1536} {store : WordErr} {mem : WordErrs} : Answers true (execLdhs t store mem s) :=
  State.instr_answers

theorem execLdws_answers {t : Fin 1536} {store : WordErr} {mem : WordErrs} : Answers true (execLdws t store mem s) :=
  State.instr_answers

theorem execStb_answers {t : Fin 1536} {store : WordErr} : Answers true (execStb t store s) :=
  State.instr_answers

theorem execSth_answers {t : Fin 1536} {store : WordErr} : Answers true (execSth t store s) :=
  State.instr_answers

theorem execStw_answers {t : Fin 1536} {store : WordErr} : Answers true (execStw t store s) :=
  State.instr_answers

theorem execStd_answers {t : Fin 1536} {store : WordErr} : Answers true (execStd t store s) :=
  State.instr_answers

theorem execLdln_answers {t : Fin 1536} {store : WordErr} : Answers true (execLdln t store s) :=
  State.instr_answers

theorem execStln_answers {t : Fin 1536} {store : WordErr} {mem : WordErrs} : Answers true (execStln t store mem s) :=
  State.instr_answers

theorem execAtom_answers {t : Fin 1536} {store : WordErr} {mem : WordErrs} : Answers true (execAtom t store mem s) :=
  State.instr_answers

theorem execEnqInstr_answers {t : Fin 1536} {store : WordErr} {mem : WordErrs} : Answers true (execEnqInstr t store mem s) :=
  State.instr_answers

theorem execDeqInstr_answers {t : Fin 1536} {store : WordErr} : Answers true (execDeqInstr t store s) :=
  State.instr_answers

theorem execDbell_answers {t : Fin 1536} {store : WordErr} : Answers true (execDbell t store s) :=
  State.instr_answers

theorem execSeqw_answers {t : Fin 1536} {store : WordErr} {mem : WordErrs} : Answers true (execSeqw t store mem s) :=
  State.instr_answers

theorem execIntr_answers {t : Fin 1536} {store : WordErr} : Answers true (execIntr t store s) :=
  State.instr_answers

theorem execRecv_answers {t : Fin 1536} {store : WordErr} : Answers true (execRecv t store s) :=
  State.instr_answers

theorem execRxdone_answers {t : Fin 1536} {store : WordErr} : Answers true (execRxdone t store s) :=
  State.instr_answers

theorem execRdtim_answers {t : Fin 1536} {store : WordErr} : Answers true (execRdtim t store s) :=
  State.instr_answers

theorem execThreadWaitt_answers {t : Fin 1536} {store : WordErr} : Answers true (execThreadWaitt t store s) :=
  State.instr_answers

theorem execSettmr_answers {t : Fin 1536} {store : WordErr} : Answers true (execSettmr t store s) :=
  State.instr_answers

theorem execBreq_answers {t : Fin 1536} {store : WordErr} : Answers true (execBreq t store s) :=
  State.branch_answers

theorem execBrne_answers {t : Fin 1536} {store : WordErr} : Answers true (execBrne t store s) :=
  State.branch_answers

theorem execBrlt_answers {t : Fin 1536} {store : WordErr} : Answers true (execBrlt t store s) :=
  State.branch_answers

theorem execBrge_answers {t : Fin 1536} {store : WordErr} : Answers true (execBrge t store s) :=
  State.branch_answers

theorem execBrlo_answers {t : Fin 1536} {store : WordErr} : Answers true (execBrlo t store s) :=
  State.branch_answers

theorem execBrhs_answers {t : Fin 1536} {store : WordErr} : Answers true (execBrhs t store s) :=
  State.branch_answers

theorem execCall_answers {t : Fin 1536} {store : WordErr} : Answers true (execCall t store s) :=
  State.instr_answers

theorem exec_answers (c : Instr) (s : State) : Answers c.wf (exec c s) := by
  cases c with
  | frstNAssert => exact .next
  | coldStart _ => exact .ite .next .next
  | warmReset _ _ => exact .next
  | testEntry => exact .next
  | ppsInEdge => exact .ite .next .next
  | wakePin _ => exact .ite .next .next
  | aniseDetect _ => exact .ite .next .next
  | p2fWake _ => exact .guard .next
  | p2fLinkRise _ => exact .guard (.ite .next (.ite .next (.ite .next .next)))
  | p2fLinkFall _ => exact execP2fLinkFall_answers
  | slCapReceive _ _ => exact execSlCapReceive_answers
  | linkTimeout _ => exact .guard (.ite .next .next)
  | p2fBeat _ _ => exact execP2fBeat_answers
  | creditReturn _ _ _ => exact .guard_two (.ite .next (.ite (.ite .next .next) (.ite .next .next)))
  | prgStart _ => exact .guard (.ite .next .next)
  | prgAbort => exact .next
  | cloveLock => exact .next
  | prgDataWrite _ _ => exact .guard .next
  | imageVerify => exact execImageVerify_answers
  | nop _ => exact .next
  | wrtb _ => exact .next
  | vcrc _ => exact .next
  | wrcs _ => exact .next
  | wrcsComplete => exact execWrcsComplete_answers
  | waitt _ => exact .next
  | waittExpire => exact execWaittExpire_answers
  | waitd _ => exact .next
  | waitdExpire => exact execWaitdExpire_answers
  | waits _ => exact .next
  | waitsSample => exact execWaitsSample_answers
  | waitsTimeout => exact execWaitsTimeout_answers
  | fence _ => exact .next
  | unfence _ => exact .next
  | epsw _ => exact .next
  | armTimeout => exact execArmTimeout_answers
  | linkup _ => exact .next
  | endSeq _ => exact .next
  | epochSwitch => exact execEpochSwitch_answers
  | drainEnd => exact .ite .next (.ite .next .next)
  | oldBankFree => exact .ite .next .next
  | ruleShadowCopyDone => exact .ite .next .next
  | epochArmAck _ => exact execEpochArmAck_answers
  | epochHoldRelease _ => exact execEpochHoldRelease_answers
  | bucketReleaseSend _ _ => exact execBucketReleaseSend_answers
  | bucketReleaseProxy _ _ => exact execBucketReleaseProxy_answers
  | bucketReleaseReceive _ => exact execBucketReleaseReceive_answers
  | bucketSweepTimeout _ _ => exact execBucketSweepTimeout_answers
  | cloveFetchDone _ _ => exact execCloveFetchDone_answers
  | faultReturn => exact .next
  | ingressAccept _ _ _ => exact .guard (.ite .next .next)
  | pieceIssue _ => exact execPieceIssue_answers
  | routerHop _ _ _ _ _ => exact execRouterHop_answers
  | escapeMove _ _ _ _ => exact .ite .next (.ite .next (.ite .next .next))
  | forcedWin _ => exact execForcedWin_answers
  | arbWindowEnd => exact .next
  | oldMark _ => exact execOldMark_answers
  | watchdogExpire _ _ _ _ => exact execWatchdogExpire_answers
  | egressPresent _ _ _ _ => exact execEgressPresent_answers
  | robRelease _ => exact execRobRelease_answers
  | pieceAnswer _ => exact execPieceAnswer_answers
  | nackReissue _ _ => exact execNackReissue_answers
  | srcTrackerExpire _ _ => exact execSrcTrackerExpire_answers
  | tgtTrackerExpire _ _ => exact execTgtTrackerExpire_answers
  | trackerRelease _ _ => exact execTrackerRelease_answers
  | safHeaderArrive _ => exact execSafHeaderArrive_answers
  | safPoolGrant => exact execSafPoolGrant_answers
  | safComplete => exact execSafComplete_answers
  | safWaitExpire _ _ => exact execSafWaitExpire_answers
  | safEntWrite _ _ => exact .next
  | safPooldefWrite _ => exact .next
  | homeRequestDecide _ _ _ _ => exact execHomeRequestDecide_answers
  | homeWritebackDecide _ _ => exact execHomeWritebackDecide_answers
  | homeWaiterEnter _ _ => exact execHomeWaiterEnter_answers
  | homeCompack _ => exact execHomeCompack_answers
  | homeInvack _ => exact execHomeInvack_answers
  | homeSnoopData _ => exact execHomeSnoopData_answers
  | homeMemData _ => exact execHomeMemData_answers
  | homeMemComp _ => exact execHomeMemComp_answers
  | homeTrackerExpire _ _ => exact execHomeTrackerExpire_answers
  | dirScrub _ _ _ => exact .ite .next .next
  | predWindowEnd _ => exact .ite .next .next
  | predClear _ => exact .next
  | cacheSnoop _ => exact execCacheSnoop_answers
  | cacheAnswer _ => exact execCacheAnswer_answers
  | replicaRepair _ _ => exact .ite .next .next
  | bankAccess _ _ _ _ _ => exact execBankAccess_answers
  | sramScrub _ _ _ => exact .ite .next .next
  | enq _ _ => exact .next
  | doorbell _ _ => exact .next
  | deq _ _ => exact .next
  | portSelect _ _ _ _ => exact execPortSelect_answers
  | deliveryComp _ => exact execDeliveryComp_answers
  | deliveryRetry _ => exact execDeliveryRetry_answers
  | qmQResume _ => exact .next
  | tokenRefill => exact .ite .next .next
  | qmQRateWrite _ _ => exact .next
  | qmQBurstWrite _ _ => exact .next
  | qmPRateWrite _ _ _ => exact .next
  | qmPBurstWrite _ _ _ => exact .next
  | gateEntryChange _ _ => exact .ite .next .next
  | gateListStart _ _ => exact execGateListStart_answers
  | samplePeriodOpen _ => exact .ite .next .next
  | add _ _ => exact execAdd_answers
  | sub _ _ => exact execSub_answers
  | mullo _ _ => exact execMullo_answers
  | mulhi _ _ => exact execMulhi_answers
  | mulhiu _ _ => exact execMulhiu_answers
  | quo _ _ => exact execQuo_answers
  | quou _ _ => exact execQuou_answers
  | mod _ _ => exact execMod_answers
  | modu _ _ => exact execModu_answers
  | and _ _ => exact execAnd_answers
  | ior _ _ => exact execIor_answers
  | xor _ _ => exact execXor_answers
  | shl _ _ => exact execShl_answers
  | shr _ _ => exact execShr_answers
  | shra _ _ => exact execShra_answers
  | cmplt _ _ => exact execCmplt_answers
  | cmpltu _ _ => exact execCmpltu_answers
  | addk _ _ => exact execAddk_answers
  | andk _ _ => exact execAndk_answers
  | iork _ _ => exact execIork_answers
  | xork _ _ => exact execXork_answers
  | cmpltk _ _ => exact execCmpltk_answers
  | sethi _ _ => exact execSethi_answers
  | shkShl _ _ => exact execShkShl_answers
  | shkShr _ _ => exact execShkShr_answers
  | shkShra _ _ => exact execShkShra_answers
  | callr _ _ => exact execCallr_answers
  | sync _ _ => exact execSync_answers
  | rett _ _ => exact execRett_answers
  | rdtcr _ _ => exact execRdtcr_answers
  | wrtcr _ _ => exact execWrtcr_answers
  | signal _ _ => exact execSignal_answers
  | halt _ _ => exact execHalt_answers
  | breakTrap _ _ => exact execBreakTrap_answers
  | ldb _ _ _ => exact execLdb_answers
  | ldh _ _ _ => exact execLdh_answers
  | ldw _ _ _ => exact execLdw_answers
  | ldd _ _ _ => exact execLdd_answers
  | ldbs _ _ _ => exact execLdbs_answers
  | ldhs _ _ _ => exact execLdhs_answers
  | ldws _ _ _ => exact execLdws_answers
  | stb _ _ => exact execStb_answers
  | sth _ _ => exact execSth_answers
  | stw _ _ => exact execStw_answers
  | std _ _ => exact execStd_answers
  | ldln _ _ => exact execLdln_answers
  | stln _ _ _ => exact execStln_answers
  | atom _ _ _ => exact execAtom_answers
  | enqInstr _ _ _ => exact execEnqInstr_answers
  | deqInstr _ _ => exact execDeqInstr_answers
  | dbell _ _ => exact execDbell_answers
  | seqw _ _ _ => exact execSeqw_answers
  | intr _ _ => exact execIntr_answers
  | recv _ _ => exact execRecv_answers
  | rxdone _ _ => exact execRxdone_answers
  | rdtim _ _ => exact execRdtim_answers
  | threadWaitt _ _ => exact execThreadWaitt_answers
  | settmr _ _ => exact execSettmr_answers
  | breq _ _ => exact execBreq_answers
  | brne _ _ => exact execBrne_answers
  | brlt _ _ => exact execBrlt_answers
  | brge _ _ => exact execBrge_answers
  | brlo _ _ => exact execBrlo_answers
  | brhs _ _ => exact execBrhs_answers
  | call _ _ => exact execCall_answers
  | threadWaittExpire _ => exact execThreadWaittExpire_answers
  | trapTake _ => exact execTrapTake_answers
  | timerFire _ => exact execTimerFire_answers
  | interruptTake _ => exact .ite .next .next
  | storeDrain _ => exact execStoreDrain_answers
  | engFabricAnswer _ => exact execEngFabricAnswer_answers
  | engDelivery _ => exact execEngDelivery_answers
  | engTStart _ => exact .next
  | engTHalt _ => exact .next
  | localSramScrub _ _ => exact .ite .next .next
  | engSampleWrite _ => exact execEngSampleWrite_answers
  | syncBeat _ _ => exact execSyncBeat_answers
  | timSet => exact .next
  | timStep => exact .next
  | holdoverEnter => exact .ite .next .next
  | ppsOutRise => exact .ite .next (.ite .next .next)
  | ppsOutFall => exact execPpsOutFall_answers
  | timeBeacon _ _ => exact .ite .next .next
  | timNowRead => exact .next
  | slcFreeze _ => exact .next
  | sliceFrozen _ => exact .ite .next .next
  | freezeStuck _ => exact .ite .next .next
  | slcThaw _ => exact .next
  | slcReset _ => exact .next
  | sliceResetSquash _ => exact .ite .next .next
  | sliceResetClear _ => exact .ite .next .next
  | slcSave _ => exact .next
  | slcRestore _ => exact .next
  | saveDone _ _ => exact execSaveDone_answers
  | restoreDone _ _ _ => exact .ite .next (.ite .next .next)
  | slcQliveWrite _ _ => exact .next
  | faultReport => exact execFaultReport_answers
  | alarmFrame _ => exact execAlarmFrame_answers
  | faultTake _ => exact execFaultTake_answers
  | faultReportResend _ => exact execFaultReportResend_answers
  | pinMinimumEnd => exact .ite .next (.ite .next .next)
  | fcAck _ => exact .next
  | fcPinRelease => exact .next
  | injArm => exact .next
  | injDisarm => exact .next
  | swRaise _ => exact .guard .next
  | spineVoteMismatch _ _ => exact .next
  | voteResyncDone _ _ => exact .next
  | pwrDomReq _ _ => exact .next
  | pwrQreqGo _ => exact .next
  | idleTimeout _ => exact .ite .next .next
  | powerAnswer _ _ => exact execPowerAnswer_answers
  | deferReask _ _ => exact .guard (.ite .next .next)
  | noanswerTimeout _ _ => exact .guard (.ite .next .next)
  | entrySaveDone _ _ => exact .ite .next (.ite (.ite .next .next) (.ite (.ite .next .next) .next))
  | vdone _ => exact .ite .next (.ite .next .next)
  | avsStatusPoll _ _ => exact .ite .next (.ite (.ite .next (.ite .next .next)) (.ite .next .next))
  | avsVoltageWriteDone _ _ _ => exact .ite .next (.ite .next (.ite .next .next))
  | wakeAccept _ => exact .ite .next (.ite .next .next)
  | wakeStartDone _ _ => exact .ite .next (.ite .next .next)
  | pwrUnclamp _ => exact .next
  | pwrFabreqGo => exact .next
  | pwrFabreqUnclamp => exact .next
  | pwrAniseSend _ => exact .next
  | pwrSaveLock => exact .next
  | holdTimeout _ => exact execHoldTimeout_answers
  | glbDrain => exact .next
  | fabricQuiesced => exact .ite .next .next
  | drainTimeout => exact execDrainTimeout_answers
  | glbResume => exact .next
  | glbPdrec => exact .next
  | pdrecDone _ => exact execPdrecDone_answers
  | ctrRead _ _ => exact .ite_fault
  | ctrClear _ => exact .ite_fault
  | ctrChainWrite _ _ _ => exact .ite_fault
  | bwWindowEnd _ => exact .guard_prop (.ite .next .next)
  | probeRecordWrite _ => exact execProbeRecordWrite_answers
  | probeFullClear _ => exact .next
  | csrRead => exact execCsrRead_answers
  | csrWrite => exact execCsrWrite_answers
  | treeAccessDone _ => exact execTreeAccessDone_answers
  | csaLock => exact .next
  | latchReadLo _ => exact .next
  | registerWrite _ _ _ => exact .guard_prop (.ite .next .next)

/-- Settles O2: each command's guard is the existence of the units that it names. -/
theorem commandsCompleteExactlyWhenWellFormed : Obligations.CommandsCompleteExactlyWhenWellFormed := by
  intro c s
  have h := exec_answers c s
  generalize c.wf = b at h ⊢
  generalize exec c s = o at h ⊢
  cases h with
  | next => exact ⟨fun _ => ⟨_, rfl⟩, nofun⟩
  | fault => exact ⟨nofun, fun _ => rfl⟩

end Sys2Proof.Machine

namespace Sys2Proof.Machine
variable {s t u : State}

/-! ### Resets -/

/-- Nothing but the credits of the spine's own interface and Saffron's count of them has changed. -/
structure State.CreditsOnly (t u : State) : Prop where
  rest : { u with saf := t.saf, ni := t.ni } = t
  spine : u.saf.spine = []
  slots : u.saf.slots = []
  ni : ∀ f, ∃ c, u.nif f = { t.nif f with safCred := c }

theorem State.spineTry_of_nil (h : s.saf.spine = []) : s.spineTry = s := by
  unfold State.spineTry
  rw [h]
  rfl

theorem State.safGive_spine (h : s.saf.spine = []) : s.safGive 0x180 =
    { s with saf := { s.saf with given := SMap.upd 0 s.saf.given 0x180 (· + 1) } }.updNi 0x180 (fun n => { n with safCred := n.safCred + 1 }) := by
  unfold State.safGive
  rw [if_pos rfl]
  exact State.spineTry_of_nil h

theorem State.CreditsOnly.safGive (h : t.CreditsOnly u) : t.CreditsOnly (u.safGive 0x180) := by
  rw [State.safGive_spine h.spine]
  refine ⟨h.rest, h.spine, h.slots, fun f => ?_⟩
  rw [State.nif_updNi]
  split
  · next e =>
    obtain ⟨c, hc⟩ := h.ni 0x180
    subst e
    exact ⟨c + 1, congrArg (fun n : Ni => { n with safCred := n.safCred + 1 }) hc⟩
  · exact h.ni f

theorem State.safLive_before_first (h : s.epo.first = false) (f : Nat) : s.safLive f = (f == 0x180) := by
  simp [State.safLive, h]

theorem State.CreditsOnly.safGrant (hs : t.saf.spine = []) (hl : t.saf.slots = []) (hf : t.epo.first = false) : t.CreditsOnly t.safGrant := by
  unfold State.safGrant
  refine List.foldlRecOn _ _ ⟨rfl, hs, hl, fun f => ⟨_, rfl⟩⟩ fun u hu e _ => ?_
  have hu' : u.epo.first = false := (congrArg (·.epo.first) hu.rest).trans hf
  simp only [State.safLive_before_first hu', beq_iff_eq]
  split
  · next h =>
    rw [h.2]
    refine List.foldlRecOn _ _ hu fun v hv _ _ => ?_
    split
    · exact hv.safGive
    · exact hv
  · exact hu

theorem State.linkOn_cases (f : Nat) : s.linkOn f = s ∨ ∃ n, s.linkOn f = s.setNi f n ∧ n.f2pLink = (s.nif f).f2pLink := by
  simp only [State.linkOn]
  split
  · split
    · exact .inr ⟨_, rfl, rfl⟩
    · exact .inr ⟨_, rfl, rfl⟩
  · exact .inl rfl

/-- Only the interface `f` may have changed. -/
structure State.NiOnly (f : Nat) (t u : State) : Prop where
  rest : { u with ni := t.ni } = t
  other : ∀ f', f' ≠ f → u.nif f' = t.nif f'

theorem State.NiOnly.refl (f : Nat) : t.NiOnly f t := ⟨rfl, fun _ _ => rfl⟩

theorem State.NiOnly.setNi {f : Nat} (h : t.NiOnly f u) (n : Ni) : t.NiOnly f (u.setNi f n) :=
  ⟨h.rest, fun f' hf => by rw [State.nif_setNi, if_neg hf, h.other f' hf]⟩

theorem State.NiOnly.linkOn {f : Nat} (h : t.NiOnly f u) : t.NiOnly f (u.linkOn f) := by
  obtain e | ⟨n, e, -⟩ := State.linkOn_cases (s := u) f
  · rwa [e]
  · rw [e]; exact h.setNi n

theorem State.linkOn_f2pLink (f : Nat) : ((s.linkOn f).nif f).f2pLink = (s.nif f).f2pLink := by
  obtain e | ⟨n, e, hn⟩ := State.linkOn_cases (s := s) f
  · rw [e]
  · rw [e, State.nif_setNi, if_pos rfl, hn]

theorem State.startLink_niOnly (f : Nat) : s.NiOnly f (s.startLink f) := by
  unfold State.startLink
  exact (iteInduction (motive := s.NiOnly f) (fun _ => .refl f) fun _ => ((State.NiOnly.refl f).setNi _).linkOn)

theorem State.startLink_f2pLink (f : Nat) (hl : (s.nif f).link ≠ .up) (hf : s.niFenced f = false) : ((s.startLink f).nif f).f2pLink = true := by
  simp only [State.startLink]
  rw [if_neg (by simp [hl, hf]), State.linkOn_f2pLink, State.nif_setNi, if_pos rfl]

/-- Start-up sets the two flags, gives the spine's credits and starts the link at MG. -/
structure State.StartsUp (t u : State) : Prop where
  rest : { u with saf := t.saf, ni := t.ni } = { t with frst := false, started := true }
  slots : u.saf.slots = []
  ni : ∀ f, f ≠ 0x126 → ∃ c, u.nif f = { t.nif f with safCred := c }
  link : (t.nif 0x126).link ≠ .up → t.niFenced 0x126 = false → (u.nif 0x126).f2pLink = true

theorem State.CreditsOnly.startsUp {g : State} (hg : ({ t with frst := false, started := true } : State).CreditsOnly g) (hr : g.NiOnly 0x126 u)
    (hl : (g.nif 0x126).link ≠ .up → g.niFenced 0x126 = false → (u.nif 0x126).f2pLink = true) : t.StartsUp u where
  rest := (congrArg (fun x : State => { x with saf := t.saf, ni := t.ni }) hr.rest).trans hg.rest
  slots := (congrArg (·.saf.slots) hr.rest).trans hg.slots
  ni f h := by
    obtain ⟨c, hc⟩ := hg.ni f
    exact ⟨c, (hr.other f h).trans hc⟩
  link h h' := by
    obtain ⟨c, hc⟩ := hg.ni 0x126
    refine hl ?_ ?_
    · rw [hc]
      exact h
    · rw [← h']
      exact congrArg (bitOf · _) (State.reg_congr (t := g) (s := t) (congrArg State.regs hg.rest :) (congrArg State.fuses hg.rest :) _ _ _)

theorem State.startUp_startsUp (hs : t.saf.spine = []) (hl : t.saf.slots = []) (hf : t.epo.first = false) : t.StartsUp t.startUp :=
  State.CreditsOnly.startsUp (.safGrant hs hl hf) (State.startLink_niOnly 0x126) (State.startLink_f2pLink 0x126)

theorem State.nif_partnerPins (f : Nat) : ∃ b, SMap.get {} s.partnerPins f = ({ p2fLink := b } : Ni) :=
  SMap.get_mapVals_all _ _ _ (fun n => ∃ b, n = ({ p2fLink := b } : Ni)) ⟨false, rfl⟩ (fun _ n => ⟨n.p2fLink, rfl⟩) f

/-- The state in which a cold start brings the fabric up. -/
def State.fused (s : State) (fu : FuseArray) : State := { s.coldReset with fuses := some fu }

theorem State.fused_startsUp (fu : FuseArray) : (s.fused fu).StartsUp (s.fused fu).startUp := State.startUp_startsUp rfl rfl rfl

theorem State.fused_niFenced (fu : FuseArray) : (s.fused fu).niFenced 0x126 = false := by
  have h : (s.fused fu).reg .FC_FENCED_NIn 0 9 = 0 := rfl
  unfold State.niFenced
  rw [h]
  rfl

theorem execColdStart_of_frst (fu : FuseArray) (h : s.frst = true) : execColdStart fu s =
    .next (if fuseGood fu then (s.fused fu).startUp else (s.fused fu).startUp.raiseSpine 28 7 1 (fidUnit 0x182)) := by
  unfold execColdStart
  cases hg : fuseGood fu <;> simp [h, State.fuseBad, hg, State.fused]

/-- What a cold start leaves, but for the fault that a bad FCRC raises. -/
structure State.ColdStarted (s : State) (fu : FuseArray) (t : State) : Prop where
  flags : t.frst = false ∧ t.started = true ∧ t.fuses = some fu ∧ t.prim = .boot ∧ t.epo = {} ∧ t.tim = {} ∧ t.sram = [] ∧
    t.lsram = [] ∧ t.tabs = [] ∧ t.pending = s.pending
  link : ∀ f, (t.nif f).f2pLink = decide (f = 0x126)

section
variable {fu : FuseArray} (h : (s.fused fu).StartsUp u)
include h

theorem State.StartsUp.flags : u.frst = false ∧ u.started = true ∧ u.fuses = some fu ∧ u.prim = .boot ∧ u.epo = {} ∧ u.tim = {} ∧ u.sram = [] ∧
    u.lsram = [] ∧ u.tabs = [] ∧ u.pending = s.pending :=
  ⟨(congrArg State.frst h.rest :), (congrArg State.started h.rest :), (congrArg State.fuses h.rest :), (congrArg State.prim h.rest :),
    (congrArg State.epo h.rest :), (congrArg State.tim h.rest :), (congrArg State.sram h.rest :), (congrArg State.lsram h.rest :),
    (congrArg State.tabs h.rest :), (congrArg State.pending h.rest :)⟩

theorem State.StartsUp.f2pLink (f : Nat) : (u.nif f).f2pLink = decide (f = 0x126) := by
  by_cases hf : f = 0x126
  · obtain ⟨b, hb⟩ := State.nif_partnerPins (s := s) 0x126
    rw [hf, h.link (by rw [show (s.fused fu).nif 0x126 = _ from hb]; nofun) (State.fused_niFenced fu)]
    rfl
  · obtain ⟨b, hb⟩ := State.nif_partnerPins (s := s) f
    obtain ⟨c, hc⟩ := h.ni f hf
    rw [hc, show (s.fused fu).nif f = _ from hb]
    simp [hf]

theorem State.StartsUp.coldStarted : s.ColdStarted fu u := ⟨h.flags, h.f2pLink⟩

theorem State.StartsUp.fc : u.fc = {} := (congrArg State.fc h.rest :)

theorem State.StartsUp.raisedLevel : u.raisedLevel 7 1 = 1 := by
  have hr : u.reg .FC_CLASS_CFGc 0 7 = 8 :=
    (State.reg_congr (s := s.fused fu) (t := u) (congrArg State.regs h.rest :) (congrArg State.fuses h.rest :) _ _ _).trans rfl
  rw [State.raisedLevel, State.rf, hr]
  rfl
end

theorem State.ruleWriter_of_bad_fuses {fu : FuseArray} (h : s.fuses = some fu) (hg : fuseGood fu = false) : s.ruleWriter = none := by
  simp [State.ruleWriter, State.fuseBad, h, hg]

theorem State.StartsUp.bad_fuses {fu : FuseArray} (h : (s.fused fu).StartsUp u) (hg : fuseGood fu = false) :
    s.ColdStarted fu (u.raiseSpine 28 7 1 (fidUnit 0x182)) ∧ (u.raiseSpine 28 7 1 (fidUnit 0x182)).ruleWriter = none ∧
    ∃ r ∈ (u.raiseSpine 28 7 1 (fidUnit 0x182)).fc.queue, r.src = 32 * 28 + 7 ∧ r.level = 1 := by
  obtain ⟨r, hr, hsrc, -, hlev, -⟩ := State.raiseSpine_mem u 28 7 1 (fidUnit 0x182) 0 false
  exact ⟨⟨h.flags, h.f2pLink⟩, State.ruleWriter_of_bad_fuses (congrArg State.fuses h.rest :) hg, r, hr, hsrc, hlev.trans h.raisedLevel⟩

theorem execColdStart_reaches (fu : FuseArray) (h : s.frst = true) : ∃ t, execColdStart fu s = .next t ∧ s.ColdStarted fu t ∧
    (fuseGood fu = false → t.ruleWriter = none ∧ ∃ r ∈ t.fc.queue, r.src = 32 * 28 + 7 ∧ r.level = 1) ∧ (fuseGood fu = true → t.fc = {}) := by
  have hu := State.fused_startsUp (s := s) fu
  rw [execColdStart_of_frst fu h]
  generalize (s.fused fu).startUp = u at hu ⊢
  cases hg : fuseGood fu with
  | true => exact ⟨u, rfl, hu.coldStarted, nofun, fun _ => hu.fc⟩
  | false =>
    obtain ⟨hc, hw⟩ := hu.bad_fuses hg
    exact ⟨_, rfl, hc, fun _ => hw, nofun⟩

/-- What a warm reset of `s` keeps in the state `t`. -/
structure State.WarmKept (s t : State) : Prop where
  fields : t.prim = .boot ∧ t.fuses = s.fuses ∧ t.ns = s.ns ∧ t.tick = s.tick ∧ t.epo = { count := s.epo.count } ∧
    t.fc.pinAt = s.fc.pinAt ∧ t.fc.inject = none ∧ t.sram = [] ∧ t.lsram = [] ∧ t.home = [] ∧ t.pending = s.pending
  ni : ∀ f, (t.nif f).f2pLink = false ∧ (t.nif f).beats = [] ∧ (t.nif f).hold = []

theorem State.warmReset_eq : ∃ t : State, s.warmReset = t.startUp.setRf .GLB_STATUS 6 1 1 ∧ s.WarmKept t ∧
    t.saf.spine = [] ∧ t.saf.slots = [] ∧ t.epo.first = false := by
  refine ⟨_, rfl, ⟨⟨rfl, rfl, rfl, rfl, rfl, rfl, rfl, rfl, rfl, rfl, rfl⟩, fun f => ?_⟩, rfl, rfl, rfl⟩
  obtain ⟨b, hb⟩ := State.nif_partnerPins (s := s) f
  unfold State.nif
  simp only [hb, and_self]

theorem State.StartsUp.warm (h : t.StartsUp u) (hk : s.WarmKept t) : u.prim = .boot ∧ u.started = true ∧ u.fuses = s.fuses ∧ u.ns = s.ns ∧
    u.tick = s.tick ∧ u.epo = { count := s.epo.count } ∧ u.fc.pinAt = s.fc.pinAt ∧ u.fc.inject = none ∧ u.sram = [] ∧ u.lsram = [] ∧
    u.home = [] ∧ u.pending = s.pending := by
  obtain ⟨hprim, hfuses, hns, htick, hepo, hpin, hinj, hsram, hlsram, hhome, hpend⟩ := hk.fields
  exact ⟨(congrArg State.prim h.rest :).trans hprim, (congrArg State.started h.rest :), (congrArg State.fuses h.rest :).trans hfuses,
    (congrArg (fun x : State => x.ns) h.rest :).trans hns, (congrArg State.tick h.rest :).trans htick, (congrArg State.epo h.rest :).trans hepo,
    (congrArg (·.fc.pinAt) h.rest :).trans hpin, (congrArg (·.fc.inject) h.rest :).trans hinj, (congrArg State.sram h.rest :).trans hsram,
    (congrArg State.lsram h.rest :).trans hlsram, (congrArg State.home h.rest :).trans hhome, (congrArg State.pending h.rest :).trans hpend⟩

theorem State.StartsUp.warm_ni (h : t.StartsUp u) (hk : s.WarmKept t) (f : Nat) (hf : f ≠ 0x126) :
    (u.nif f).f2pLink = false ∧ (u.nif f).beats = [] ∧ (u.nif f).hold = [] := by
  obtain ⟨c, hc⟩ := h.ni f hf
  rw [hc]
  exact hk.ni f

theorem State.warmReset_reaches : ∃ u : State, s.warmReset = u.setRf .GLB_STATUS 6 1 1 ∧
    (u.prim = .boot ∧ u.started = true ∧ u.fuses = s.fuses ∧ u.ns = s.ns ∧ u.tick = s.tick ∧ u.epo = { count := s.epo.count } ∧
      u.fc.pinAt = s.fc.pinAt ∧ u.fc.inject = none ∧ u.sram = [] ∧ u.lsram = [] ∧ u.home = [] ∧ u.pending = s.pending) ∧ u.saf.slots = [] ∧
    (∀ f, f ≠ 0x126 → (u.nif f).f2pLink = false ∧ (u.nif f).beats = [] ∧ (u.nif f).hold = []) := by
  obtain ⟨t, ht, hk, hs, hl, hf⟩ := State.warmReset_eq (s := s)
  have h := State.startUp_startsUp hs hl hf
  exact ⟨t.startUp, ht, h.warm hk, h.slots, h.warm_ni hk⟩

theorem execWarmReset_of_key (hp : s.prim ≠ .test) (hs : s.started = true) : execWarmReset 0x0A4D true s = .next s.warmReset :=
  congrArg Host.Outcome.next (if_pos ⟨rfl, rfl, hp, hs⟩)

theorem execWarmReset_rejected (key : BitVec 16) (go : Bool) (h : key ≠ 0x0A4D ∨ go = false ∨ s.prim = .test) :
    execWarmReset key go s = .next (s.setRf .GLB_STATUS 3 1 1) := by
  refine congrArg Host.Outcome.next (if_neg ?_)
  rintro ⟨hkey, hgo, hprim, -⟩
  obtain h | h | h := h
  · exact h (BitVec.eq_of_toNat_eq hkey)
  · exact Bool.false_ne_true (h.symm.trans hgo)
  · exact hprim h

/-- Settles O3: each reset is the default state with the fields that it keeps, and start-up adds credits and the link at MG. -/
theorem resetsReachTheirState : Obligations.ResetsReachTheirState := by
  refine ⟨fun s => ⟨s.coldReset, rfl, rfl, rfl, rfl, fun f => ?_⟩, fun s fu h => ?_, fun s hp hs => ?_, fun s key go h => ?_⟩
  · obtain ⟨b, hb⟩ := State.nif_partnerPins (s := s) f
    simp [show s.coldReset.nif f = _ from hb, State.awake]
  · obtain ⟨t, ht, ⟨⟨hfrst, hst, hfu, hprim, hepo, htim, hsram, hlsram, htabs, hpend⟩, hlink⟩, hbad, hgood⟩ := execColdStart_reaches fu h
    exact ⟨t, ht, hfrst, hst, hfu, hprim, hepo, htim, hsram, hlsram, htabs, hpend, hlink, hbad, hgood⟩
  · obtain ⟨u, hu, ⟨hprim, hst, hfu, hns, htick, hepo, hpin, hinj, hsram, hlsram, hhome, hpend⟩, hslots, hni⟩ := State.warmReset_reaches (s := s)
    exact ⟨_, (execWarmReset_of_key hp hs).trans (congrArg _ hu), hprim, hst, State.rf_setRf_same u _ _ _ _ _ _ (by decide), hfu, hns, htick,
      hepo, hpin, hinj, hsram, hlsram, hhome, hslots, hpend, hni⟩
  · exact ⟨_, execWarmReset_rejected key go h, State.rf_setRf_same s _ _ _ _ _ _ (by decide), rfl⟩

end Sys2Proof.Machine

namespace Sys2Proof.Machine

/-- A power-down record is being written while a fault injection waits at the rule keeper's entries, whose copy 0 differs from the
central copy. -/
def pdrecInjected : State :=
  { pdrec := some [], tabs := [(tabKey 0 5 0 0 0, 1)], fc := { inject := some ⟨fidUnit 0x182, 5, true, 4, 1⟩ } }

/-- The check of the record's area meets the injected error, and its repair rewrites the central copy. -/
theorem execPdrecDone_repairs :
    (match execPdrecDone 0 pdrecInjected with | .next t => decide (t.tabs = pdrecInjected.tabs) | _ => true) = false := by
  decide

/-- Refutes O4: where an injected error hits the rule check of the record's area, the end of the power-down record changes the tables. -/
theorem not_globalModeCommands : ¬ Obligations.GlobalModeCommands := by
  intro h
  obtain ⟨-, -, -, -, -, -, -, -, -, hdone⟩ := h
  obtain ⟨t, ht, -, -, htabs, -⟩ := hdone pdrecInjected 0 rfl
  have hrep := execPdrecDone_repairs
  rw [show execPdrecDone 0 pdrecInjected = .next t from ht] at hrep
  exact absurd htabs (of_decide_eq_false hrep)

end Sys2Proof.Machine

namespace Sys2Proof.Machine

/-- No command waits; queue manager 0 is about to send a piece of a ring access, and a fault injection waits at the rule keeper's entries,
whose copy 0 differs from the central copy. -/
def ringInjected : State :=
  { frst := false, started := true, prim := .run, tabs := [(tabKey 0 5 0 0 0, 1)],
    fc := { inject := some ⟨fidUnit 0x182, 5, true, 0, 1⟩ },
    qm := [(0, { jobs := [{ id := 1, why := .bell { net := .req }, step := 1, mem := true, left := 2 }], out := [.piece 1 0 3] })] }

/-- The rule check of the piece meets the injected error, and the rule keeper repairs copy 0 in that FCLK. -/
theorem step_ringInjected_repairs : (match step ringInjected with | .next t => decide (t.tabs = ringInjected.tabs) | _ => true) = false := by
  decide +kernel

/-- Refutes O6: with no command waiting, an FCLK in which a rule check meets an injected error changes the tables. -/
theorem not_fabricTimeAdvancesAndIsSet : ¬ Obligations.FabricTimeAdvancesAndIsSet := by
  intro h
  obtain ⟨⟨htick, -⟩, -⟩ := h
  obtain ⟨t, ht, -, -, -, -, -, htabs, -⟩ := htick ringInjected rfl rfl (by decide) rfl
  have hrep := step_ringInjected_repairs
  rw [ht] at hrep
  exact absurd htabs (of_decide_eq_false hrep)

end Sys2Proof.Machine

namespace Sys2Proof.Machine
variable {s : State}

/-! ### A frame: registers only -/

/-- Only registers, and the notes of the running cycle about them, may differ from `s`. -/
def State.RegsOnly (s t : State) : Prop := { t with regs := s.regs, cyc := s.cyc } = s

section
variable {t : State} (h : s.RegsOnly t)

theorem State.RegsOnly.refl : s.RegsOnly s := Eq.refl s

include h

theorem State.RegsOnly.setReg (r : Reg) (v b i : Nat) : s.RegsOnly (t.setReg r v b i) := h

theorem State.RegsOnly.setRf (r : Reg) (lo w x b i : Nat) : s.RegsOnly (t.setRf r lo w x b i) := h

theorem State.RegsOnly.bump (r : Reg) (b i n : Nat) : s.RegsOnly (t.bump r b i n) := h

theorem State.RegsOnly.noteCyc (off : Nat) (g : CycReg → CycReg) : s.RegsOnly (t.noteCyc off g) := h

theorem State.RegsOnly.of_tim (tim : TimeSt) : { ({ t with tim := tim } : State) with tim := s.tim, regs := s.regs, cyc := s.cyc } = s :=
  (congrArg (fun x : State => { x with tim := s.tim }) h :)

theorem State.RegsOnly.collect (r : FaultRec) : { t.collect r with regs := s.regs, cyc := s.cyc, fc := s.fc } = s :=
  (congrArg (fun x : State => { x with fc := s.fc }) h :)
end

theorem State.RegsOnly.foldl {α : Type} {t : State} {g : State → α → State} (h : s.RegsOnly t) (hg : ∀ t x, s.RegsOnly t → s.RegsOnly (g t x))
    (xs : List α) : s.RegsOnly (xs.foldl g t) :=
  List.foldlRecOn xs g h fun t ht x _ => hg t x ht

@[simp] theorem State.reg_raiseSpine (g c l : Nat) (u : UnitRef) (d : Nat) (j : Bool) (r : Reg) (b i : Nat) :
    (s.raiseSpine g c l u d j).reg r b i = s.reg r b i := State.reg_congr rfl rfl r b i

@[simp] theorem State.rf_raiseSpine (g c l : Nat) (u : UnitRef) (d : Nat) (j : Bool) (r : Reg) (lo w b i : Nat) :
    (s.raiseSpine g c l u d j).rf r lo w b i = s.rf r lo w b i := State.rf_congr rfl rfl r lo w b i

/-! ### PPS, the time beacon and the time read -/

theorem nsOf_lt (t : Int) : nsOf t < 2 ^ 32 := by
  unfold nsOf
  omega

/-- The state after an accepted edge of PPS_IN at time `t`, with the residue `e` towards the nearest second. -/
def State.ppsAccepted (s : State) (t : Int) (e : Nat) : State :=
  ((((s.setReg .TIM_PPS_S (secOf t % 2 ^ 32)).setReg .TIM_PPS_NS (nsOf t)).setReg .TIM_PPS_ERR e).setRf .TIM_STATUS 1 1 0)

theorem State.reg_ppsAccepted_ns (t : Int) (e : Nat) : (s.ppsAccepted t e).reg .TIM_PPS_NS = nsOf t := by
  unfold State.ppsAccepted
  rw [State.reg_setRf_other _ _ _ _ _ _ _ _ _ _ (by decide), State.reg_setReg_other _ _ _ _ _ _ _ _ (by decide), State.reg_setReg_same]
  exact Nat.mod_eq_of_lt (nsOf_lt t)

theorem State.reg_ppsAccepted_s (t : Int) (e : Nat) : (s.ppsAccepted t e).reg .TIM_PPS_S = secOf t % 2 ^ 32 := by
  unfold State.ppsAccepted
  rw [State.reg_setRf_other _ _ _ _ _ _ _ _ _ _ (by decide), State.reg_setReg_other _ _ _ _ _ _ _ _ (by decide),
    State.reg_setReg_other _ _ _ _ _ _ _ _ (by decide), State.reg_setReg_same, Nat.mod_mod]

theorem State.rf_ppsAccepted_holdover (t : Int) (e : Nat) : (s.ppsAccepted t e).rf .TIM_STATUS 1 1 = 0 :=
  State.rf_setRf_same _ _ _ _ _ _ _ (by decide)

/-- The accepted edge with its time captured. -/
def State.ppsTaken (s : State) (t : Int) (e : Nat) : State :=
  { s.ppsAccepted t e with tim := { s.tim with ppsLast := some t, ppsRef := t } }

theorem State.reg_ppsTaken (t : Int) (e : Nat) (r : Reg) (b i : Nat) : (s.ppsTaken t e).reg r b i = (s.ppsAccepted t e).reg r b i :=
  State.reg_congr rfl rfl r b i

theorem State.rf_ppsTaken (t : Int) (e : Nat) (r : Reg) (lo w b i : Nat) : (s.ppsTaken t e).rf r lo w b i = (s.ppsAccepted t e).rf r lo w b i :=
  State.rf_congr rfl rfl r lo w b i

theorem State.ppsAccepted_regsOnly (t : Int) (e : Nat) : s.RegsOnly (s.ppsAccepted t e) :=
  (((State.RegsOnly.refl.setReg _ _ _ _).setReg _ _ _ _).setReg _ _ _ _).setRf _ _ _ _ _ _

theorem execPpsInEdge_accepted (hc : s.rf .TIM_CTRL 0 1 = 1) (hl : ∀ l, s.tim.ppsLast = some l → l + 900000000 ≤ (s.timeAgo 2).1) :
    ∃ e, execPpsInEdge s = .next (s.ppsTaken (s.timeAgo 2).1 e) := by
  unfold execPpsInEdge
  generalize s.timeAgo 2 = ta at hl ⊢
  refine ⟨_, if_neg ?_⟩
  rw [hc]
  cases hp : s.tim.ppsLast with
  | none => simp
  | some l => simpa using hl l hp

theorem execPpsInEdge_rejected (h : s.rf .TIM_CTRL 0 1 = 0 ∨ ∃ l, s.tim.ppsLast = some l ∧ (s.timeAgo 2).1 < l + 900000000) :
    execPpsInEdge s = .next (s.bump .TIM_PPS_REJ) := by
  unfold execPpsInEdge
  generalize s.timeAgo 2 = ta at h ⊢
  refine if_pos (h.imp id ?_)
  rintro ⟨l, hp, hl⟩
  rw [hp]
  exact decide_eq_true hl

theorem execHoldoverEnter_due (hc : s.rf .TIM_CTRL 0 1 = 1) (hh : s.rf .TIM_STATUS 1 1 = 0)
    (ht : s.tim.ppsRef + (max 1 (s.rf .TIM_CTRL 8 8) : Nat) * 1000000000 ≤ s.ns) :
    execHoldoverEnter s = .next ((s.setRf .TIM_STATUS 1 1 1).raiseSpine 28 13 1 (fidUnit 0x185)) := by
  refine if_neg ?_
  rw [hc, hh]
  simpa using ht

theorem execPpsOutRise_due (hc : s.rf .TIM_CTRL 1 1 = 1) (ho : s.tim.ppsOut = false) (hd : s.tim.ppsDue = true ∨ nsOf s.ns = 0 ∧ s.tim.c % 3 = 0)
    (hr : ∀ r t, s.tim.ppsRise = some (r, t) → t + usTicks 900000 ≤ s.tick) :
    execPpsOutRise s = .next { s with tim := { s.tim with ppsOut := true, ppsDue := false, ppsRise := some (s.ns, s.tick) } } := by
  refine (if_neg ?_).trans (if_neg ?_)
  · obtain hd | ⟨h0, h3⟩ := hd
    · simp [hc, ho, hd]
    · simp [hc, ho, h0, h3]
  · rcases hp : s.tim.ppsRise with _ | ⟨r, t⟩
    · simp
    · simpa using hr r t hp

theorem execPpsOutFall_due {r : Int} {t : Nat} (hp : s.tim.ppsRise = some (r, t)) (ho : s.tim.ppsOut = true)
    (ht : t + usTicks (max 1 (s.rf .TIM_PPSOUT_W 0 20)) ≤ s.tick) :
    execPpsOutFall s = .next { s with tim := { s.tim with ppsOut := false } } := by
  unfold execPpsOutFall
  rw [hp]
  exact if_pos ⟨ho, ht⟩

theorem off_TIM_SLOFFn_ne_TIM_STATUS (sl : Fin 6) : Reg.off .TIM_SLOFFn 0 sl ≠ Reg.off .TIM_STATUS 0 0 := by
  revert sl
  decide

theorem execTimeBeacon_of_slTime {sl : Fin 6} (off : BitVec 32) (h : s.slTime sl = true) :
    execTimeBeacon sl off s = .next ((s.setReg .TIM_SLOFFn off.toNat 0 sl).setRf .TIM_STATUS (3 + sl) 1 1) := if_pos h

/-- Settles O7. -/
theorem ppsBeaconAndTimeRead : Obligations.PpsBeaconAndTimeRead := by
  refine ⟨⟨fun s hc hl _ => ?_, fun s h => ?_, fun s hc hh ht => ?_⟩, fun s hc ho hd hr => execPpsOutRise_due hc ho hd hr,
    fun s r t hp ho ht => execPpsOutFall_due hp ho ht, fun s sl off h => ?_, fun s => rfl⟩
  · obtain ⟨e, he⟩ := execPpsInEdge_accepted hc hl
    exact ⟨_, he, rfl, (State.rf_ppsTaken _ e _ _ _ _ _).trans (State.rf_ppsAccepted_holdover _ e),
      (State.reg_ppsTaken _ e _ _ _).trans (State.reg_ppsAccepted_ns _ e), (State.reg_ppsTaken _ e _ _ _).trans (State.reg_ppsAccepted_s _ e),
      (State.ppsAccepted_regsOnly _ e).of_tim _⟩
  · exact ⟨_, execPpsInEdge_rejected h, State.reg_bump_same _ _ _ _ _, rfl⟩
  · obtain ⟨r, hr, hsrc, hlev, -, hunit, -⟩ := State.raiseSpine_mem (s.setRf .TIM_STATUS 1 1 1) 28 13 1 (fidUnit 0x185) 0 false
    refine ⟨_, execHoldoverEnter_due hc hh ht, ?_, ⟨r, hr, hsrc, hlev, hunit⟩,
      (State.RegsOnly.refl.setRf _ _ _ _ _ _).collect _⟩
    exact (State.rf_raiseSpine ..).trans (State.rf_setRf_same s _ _ _ _ _ _ (by decide))
  · refine ⟨_, execTimeBeacon_of_slTime off h, ?_, State.rf_setRf_same _ _ _ _ _ _ _ (by omega),
      (State.RegsOnly.refl.setReg _ _ _ _).setRf _ _ _ _ _ _⟩
    rw [State.reg_setRf_other _ _ _ _ _ _ _ _ _ _ (off_TIM_SLOFFn_ne_TIM_STATUS sl), State.reg_setReg_same]
    exact Nat.mod_eq_of_lt off.isLt

end Sys2Proof.Machine

namespace Sys2Proof.Machine
variable {s t : State}

/-! ### Counter banks -/

theorem off_CTR_STAT (b i : Nat) : Reg.off .CTR_STAT (ctrBase b) i = 0x1000004 + 0x1000 * b + 0x10 * i := by
  show 0x1000000 + 0x1000 * b + 4 + 16 * i = _
  omega

theorem State.was_setRf (r : Reg) (lo w x b i o : Nat) : ((s.setRf r lo w x b i).cycAt o).was = (s.cycAt o).was := by
  unfold State.setRf State.putWord State.noteSet State.cycAt
  simp only
  split
  · rfl
  · rw [SMap.get_upd]
    split
    · next h => rw [h]
    · rfl

/-- The overflow bit of a counter is apart from the CHAIN bits. -/
theorem State.chain_setRf_overflow (x b' i' b i : Nat) (hi' : i' < 128) (hi : i < 128) :
    (s.setRf .CTR_STAT 0 1 x (ctrBase b') i').rf .CTR_STAT 1 1 (ctrBase b) i = s.rf .CTR_STAT 1 1 (ctrBase b) i := by
  by_cases h : b = b' ∧ i = i'
  · obtain ⟨rfl, rfl⟩ := h
    exact State.rf_setRf_apart _ _ _ _ _ _ _ _ _ (by decide) (.inr (by decide))
  · refine State.rf_setRf_other _ _ _ _ _ _ _ _ _ _ _ _ ?_
    rw [off_CTR_STAT, off_CTR_STAT]
    omega

/-! #### Counting -/

/-- What a count leaves in the counters: the sum at its own place, and a wrap of a chained counter at the next one. -/
theorem State.ctr_count {b i n : Nat} (h : i % 2 = 0 ∨ s.chained b (i - 1) = false) : (s.count b i n).ctr =
    if 2 ^ 48 ≤ s.ctrAt b i + n ∧ s.chained b i = true then
      SMap.set 0 (SMap.set 0 s.ctr (128 * b + i) ((s.ctrAt b i + n) % 2 ^ 48)) (128 * b + i + 1)
        ((s.ctrAt b (i + 1) + (s.ctrAt b i + n) / 2 ^ 48) % 2 ^ 48)
    else SMap.set 0 s.ctr (128 * b + i) ((s.ctrAt b i + n) % 2 ^ 48) := by
  have hodd : ¬(i % 2 = 1 ∧ s.chained b (i - 1) = true) := by
    rintro ⟨h1, h2⟩
    rcases h with h | h
    · omega
    · exact Bool.false_ne_true (h.symm.trans h2)
  have hnext : SMap.get 0 (SMap.set 0 s.ctr (128 * b + i) ((s.ctrAt b i + n) % 2 ^ 48)) (128 * b + i + 1) = s.ctrAt b (i + 1) :=
    SMap.get_set_ne _ _ _ _ (by omega)
  refine (congrArg State.ctr (if_neg hodd)).trans ?_
  by_cases hv : s.ctrAt b i + n < 2 ^ 48
  · exact (congrArg State.ctr (if_pos hv)).trans (if_neg (fun h => absurd hv (Nat.not_lt.mpr h.1))).symm
  · refine (congrArg State.ctr (if_neg hv)).trans ?_
    by_cases hc : s.chained b i = true
    · refine (congrArg State.ctr (if_pos hc)).trans ?_
      refine Eq.trans ?_ (if_pos (And.intro (Nat.not_lt.mp hv) hc)).symm
      rw [← hnext]
      exact (apply_ite State.ctr _ _ _).trans (ite_self _)
    · exact (congrArg State.ctr (if_neg hc)).trans (if_neg (fun h => hc h.2)).symm

theorem State.ctrAt_count_same {b i n : Nat} (h : i % 2 = 0 ∨ s.chained b (i - 1) = false) :
    (s.count b i n).ctrAt b i = (s.ctrAt b i + n) % 2 ^ 48 := by
  rw [State.ctrAt, State.ctr_count h]
  split
  · rw [SMap.get_set, if_neg (by omega), SMap.get_set, if_pos rfl]
  · rw [SMap.get_set, if_pos rfl]

theorem State.ctrAt_count_other {b i n b' i' : Nat} (h : i % 2 = 0 ∨ s.chained b (i - 1) = false) (h0 : 128 * b' + i' ≠ 128 * b + i)
    (h1 : 128 * b' + i' ≠ 128 * b + i + 1) : (s.count b i n).ctrAt b' i' = s.ctrAt b' i' := by
  rw [State.ctrAt, State.ctr_count h]
  split
  · rw [SMap.get_set, if_neg h1, SMap.get_set, if_neg h0]
    rfl
  · rw [SMap.get_set, if_neg h0]
    rfl

/-- A wrap of a chained counter goes to the next one. -/
theorem State.ctrAt_count_chained {b i n : Nat} (hi : i % 2 = 0) (hc : s.chained b i = true) (hv : 2 ^ 48 ≤ s.ctrAt b i + n) :
    (s.count b i n).ctrAt b (i + 1) = (s.ctrAt b (i + 1) + (s.ctrAt b i + n) / 2 ^ 48) % 2 ^ 48 := by
  rw [State.ctrAt, State.ctr_count (.inl hi), if_pos ⟨hv, hc⟩, SMap.get_set, if_pos (by omega)]

theorem State.count_of_chained_pair {b i n : Nat} (hi : i % 2 = 1) (hc : s.chained b (i - 1) = true) : s.count b i n = s := if_pos ⟨hi, hc⟩

/-! #### Reading a counter -/

theorem Reg.off_ne {r r' : Reg} (b : Nat) (h : r.spec.off ≠ r'.spec.off) : r.off b 0 ≠ r'.off b 0 := by
  unfold Reg.off
  omega

theorem State.reg_ctrLatch (b i : Nat) : (s.ctrLatch b i).reg .CTR_LAT_HI (ctrBase b) = s.ctrThen b i / 2 ^ 32 % 2 ^ 32 ∧
    (s.chained b i = false → (s.ctrLatch b i).reg .CTR_LAT_PAIR_LO (ctrBase b) = 0 ∧ (s.ctrLatch b i).reg .CTR_LAT_PAIR_HI (ctrBase b) = 0) := by
  have hother (u : State) (r r' : Reg) (v : Nat) (h : r.spec.off ≠ r'.spec.off) :
      (u.setReg r' v (ctrBase b)).reg r (ctrBase b) = u.reg r (ctrBase b) := State.reg_setReg_other _ _ _ _ _ _ _ _ (Reg.off_ne _ h)
  simp only [State.ctrLatch]
  generalize hp : (if s.chained b i = true then s.ctrThen b (i + 1) else 0) = pair
  have hpair (hc : s.chained b i = false) : pair = 0 := by
    rw [← hp, hc]
    rfl
  split
  · refine ⟨?_, fun hc => ⟨?_, ?_⟩⟩
    · simp (disch := decide) only [hother, State.reg_setReg_same]
    · simp (disch := decide) only [hother, State.reg_setReg_same, hpair hc, show fld 0 0 32 = 0 from rfl, Nat.zero_mod]
    · simp (disch := decide) only [State.reg_setReg_same, hpair hc, Nat.zero_div, Nat.zero_mod]
  · refine ⟨?_, fun hc => ⟨?_, ?_⟩⟩
    · simp (disch := decide) only [hother, State.reg_setReg_same]
    · simp (disch := decide) only [hother, State.reg_setReg_same, hpair hc, show fld 0 0 32 = 0 from rfl, Nat.zero_mod]
    · simp (disch := decide) only [hother, State.reg_setReg_same, hpair hc, Nat.zero_div, Nat.zero_mod]

theorem State.RegsOnly.ite {c : Prop} [Decidable c] {u : State} (ht : s.RegsOnly t) (hu : s.RegsOnly u) : s.RegsOnly (if c then t else u) :=
  iteInduction (fun _ => ht) fun _ => hu

theorem State.ctrLatch_regsOnly (b i : Nat) : s.RegsOnly (s.ctrLatch b i) := by
  have h := ((State.RegsOnly.refl (s := s).setReg .CTR_LAT_HI (s.ctrThen b i / 2 ^ 32) (ctrBase b) 0).setReg .CTR_LAT_PAIR_LO
    (fld (if s.chained b i then s.ctrThen b (i + 1) else 0) 0 32) (ctrBase b) 0).setReg .CTR_LAT_PAIR_HI
    ((if s.chained b i then s.ctrThen b (i + 1) else 0) / 2 ^ 32) (ctrBase b) 0
  exact h.ite (((h.setReg _ _ _ _).setReg _ _ _ _).setReg _ _ _ _)

/-! #### CLEAR -/

theorem SMap.get_filter_key {α : Type} (d : α) (p : Nat → Bool) (m : SMap α) (k : Nat) :
    SMap.get d (m.filter (fun kv => p kv.1)) k = if p k then SMap.get d m k else d := by
  induction m with
  | nil => exact (ite_self d).symm
  | cons kv m ih =>
    obtain ⟨k', v⟩ := kv
    by_cases hk : k' = k
    · subst hk
      cases hp : p k' <;> simp_all [SMap.get]
    · cases hp : p k' <;> simp_all [SMap.get]

theorem State.ctr_clearBank (b : Nat) : (s.clearBank b).ctr = s.ctr.filter (fun kv => kv.1 / 128 != b) := by
  refine State.foldl_keeps State.ctr _ (fun _ _ => ?_) _ _
  exact (apply_ite State.ctr _ _ _).trans (ite_self _)

theorem State.ctrWas_clearBank (b : Nat) : (s.clearBank b).ctrWas = s.ctrWas := by
  refine State.foldl_keeps State.ctrWas _ (fun _ _ => ?_) _ _
  exact (apply_ite State.ctrWas _ _ _).trans (ite_self _)

theorem State.ctrAt_clearBank (b b' i : Nat) (hi : i < 128) : (s.clearBank b).ctrAt b' i = if b' = b then 0 else s.ctrAt b' i := by
  rw [State.ctrAt, State.ctr_clearBank, SMap.get_filter_key 0 (fun k => k / 128 != b), show (128 * b' + i) / 128 = b' by omega]
  by_cases h : b' = b
  · simp [h]
  · simp [h, State.ctrAt]

theorem State.ctrAt_foldl_clearBank (bs : List Nat) (b' i : Nat) (hi : i < 128) :
    (bs.foldl State.clearBank s).ctrAt b' i = if b' ∈ bs then 0 else s.ctrAt b' i := by
  induction bs generalizing s with
  | nil => simp
  | cons b bs ih =>
    rw [List.foldl_cons, ih, State.ctrAt_clearBank b b' i hi]
    by_cases h : b' ∈ bs
    · simp [h]
    · simp [h]

/-- The next FCLK, before the banks that were asked to clear do. -/
def State.nextCycle (s : State) : State :=
  { s with cyc := [], modeWas := s.modeNow, quietWas := s.quietNow, ctrWas := s.ctr, ctrClr := [] }

theorem State.newCycle_eq : s.newCycle = s.ctrClr.foldl State.clearBank s.nextCycle := rfl

theorem State.ctrAt_newCycle (b i : Nat) (hi : i < 128) : s.newCycle.ctrAt b i = if b ∈ s.ctrClr then 0 else s.ctrAt b i := by
  rw [State.newCycle_eq, State.ctrAt_foldl_clearBank _ _ _ hi]
  rfl

theorem State.ctrThen_newCycle (b i : Nat) : s.newCycle.ctrThen b i = s.ctrAt b i := by
  have h : s.newCycle.ctrWas = s.ctr := State.foldl_keeps State.ctrWas _ (fun _ b => State.ctrWas_clearBank b) _ _
  rw [State.ctrThen, h]
  rfl

/-! #### CHAIN -/

/-- What the bits of CHAIN read, and that no earlier word of them is noted, is kept. -/
structure State.ChainKept (s t : State) : Prop where
  rf : ∀ b i, i < 128 → t.rf .CTR_STAT 1 1 (ctrBase b) i = s.rf .CTR_STAT 1 1 (ctrBase b) i
  was : ∀ o, (t.cycAt o).was = none

theorem State.ChainKept.clearBank (h : s.ChainKept t) (b : Nat) : s.ChainKept (t.clearBank b) := by
  refine List.foldlRecOn _ _ ⟨fun b i hi => (State.rf_congr rfl rfl _ _ _ _ _).trans (h.rf b i hi), h.was⟩ fun u hu i' hi' => ?_
  refine iteInduction (fun _ => ?_) fun _ => hu
  exact ⟨fun b' i hi => (State.chain_setRf_overflow _ _ _ _ _ (List.mem_range.mp hi') hi).trans (hu.rf b' i hi),
    fun o => (State.was_setRf _ _ _ _ _ _ _).trans (hu.was o)⟩

theorem State.ChainKept.newCycle : s.ChainKept s.newCycle :=
  List.foldlRecOn _ _ ⟨fun _ _ _ => State.rf_congr rfl rfl _ _ _ _ _, fun _ => rfl⟩ fun _ h b _ => h.clearBank b

theorem State.chained_newCycle (b i : Nat) (hi : i < 128) : s.newCycle.chained b i = (i % 2 == 0 && s.rf .CTR_STAT 1 1 (ctrBase b) i == 1) := by
  have h := State.ChainKept.newCycle (s := s)
  rw [State.chained, State.rfThen, h.was, ← h.rf b i hi]
  rfl

theorem State.chained_setChain (b i : Nat) (c : Bool) : (s.setChain b i c).chained b i = s.chained b i := by
  refine iteInduction (motive := fun t : State => t.chained b i = s.chained b i) (fun _ => rfl) fun _ => ?_
  have hwas : ((((s.noteWas .CTR_STAT (ctrBase b) i).setRf .CTR_STAT 1 1 c.toNat (ctrBase b) i)).cycAt (Reg.off .CTR_STAT (ctrBase b) i)).was =
      some ((s.cycAt (Reg.off .CTR_STAT (ctrBase b) i)).was.getD (s.reg .CTR_STAT (ctrBase b) i)) := by
    rw [State.was_setRf]
    unfold State.noteWas State.noteCyc State.cycAt
    simp only
    rw [SMap.get_upd, if_pos rfl]
  rw [State.chained, State.rfThen, hwas]
  rfl

/-- Settles O8: counts, CLEAR and CHAIN by what each leaves at a key of the counters and at a bank's registers. -/
theorem counterBanks : Obligations.CounterBanks := by
  refine ⟨fun s b i n h => ⟨State.ctrAt_count_same h, fun b' i' => State.ctrAt_count_other h⟩, fun s b i n => State.count_of_chained_pair,
    fun s b i hi hc hv => ⟨?_, ?_⟩, fun s b i hb => ?_, fun s b hb => ?_, fun s b i c hb hi => ?_⟩
  · exact (State.ctrAt_count_same (.inl hi)).trans (congrArg (fun x => (x + 1) % 2 ^ 48) hv)
  · exact (State.ctrAt_count_chained hi hc (by omega)).trans (congrArg (fun x => (s.ctrAt b (i + 1) + (x + 1) / 2 ^ 48) % 2 ^ 48) hv)
  · obtain ⟨hhi, hpair⟩ := State.reg_ctrLatch (s := s) b.toNat i
    exact ⟨_, if_pos hb, hhi, hpair, State.ctrLatch_regsOnly _ _⟩
  · refine ⟨_, if_pos hb, List.mem_cons_self, rfl, fun i hi => ⟨?_, State.ctrThen_newCycle _ _⟩, fun b' i hi hne hmem => ?_⟩
    · rw [State.ctrAt_newCycle _ _ hi]
      exact if_pos List.mem_cons_self
    · rw [State.ctrAt_newCycle _ _ hi]
      exact if_neg (by simp [State.askClear, hne, hmem])
  · have hchain : (s.setChain b.toNat i c).rf .CTR_STAT 1 1 (ctrBase b.toNat) i = c.toNat := by
      rw [State.setChain, if_neg (by omega), State.rf_setRf_same _ _ _ _ _ _ _ (by decide)]
      exact Nat.mod_eq_of_lt c.toNat_lt
    refine ⟨_, if_pos hb, hchain, State.chained_setChain _ _ _, ?_, ?_⟩
    · rw [State.chained_newCycle _ _ i.isLt, hi, hchain]
      cases c <;> rfl
    · exact (State.RegsOnly.refl).ite ((State.RegsOnly.refl.noteCyc _ _).setRf _ _ _ _ _ _)

end Sys2Proof.Machine

namespace Sys2Proof.Machine
variable {s t : State}

/-! ### Bandwidth windows and probe records -/

/-- The registers of a bandwidth window that has ended, in the buffer `k`. -/
def State.bwRegs (s : State) (base k inLo outLo hi len word : Nat) : State :=
  ((((s.setReg .NI_BWk_IN_LO inLo base k).setReg .NI_BWk_OUT_LO outLo base k).setReg .NI_BWk_HI hi base k).setReg .NI_BWk_LEN len base k).setReg
    .NI_BWk_META word base k

/-- The next window begins where this one ends. -/
def State.bwNext (s t : State) (f : Nat) : State :=
  { t with bw := SMap.set {} s.bw f { start := s.ns, cut := false, seq := ((SMap.get {} s.bw f).seq + 1) % 65536 } }

theorem State.bwRegs_regsOnly (base k inLo outLo hi len word : Nat) : s.RegsOnly (s.bwRegs base k inLo outLo hi len word) :=
  ((((State.RegsOnly.refl.setReg _ _ _ _).setReg _ _ _ _).setReg _ _ _ _).setReg _ _ _ _).setReg _ _ _ _

theorem State.RegsOnly.bwNext (h : s.RegsOnly t) (f : Nat) : { s.bwNext t f with regs := s.regs, cyc := s.cyc, bw := s.bw } = s :=
  (congrArg (fun x : State => { x with bw := s.bw }) h :)

theorem State.reg_bwNext (f : Nat) (r : Reg) (b i : Nat) : (s.bwNext t f).reg r b i = t.reg r b i :=
  State.reg_congr rfl rfl _ _ _

theorem State.bwEnd_of_no_miss {f : Nat} (h : s.floorMisses f (s.ns - (SMap.get {} s.bw f).start).toNat (SMap.get {} s.bw f) = []) :
    let w := SMap.get {} s.bw f
    s.bwEnd f = s.bwNext (s.bwRegs (niBase f) ((w.seq + 1) % 65536 % 2) (fld w.inB 0 32) (fld w.outB 0 32)
      (fld w.inB 32 16 + fld w.outB 32 16 * 2 ^ 16) ((s.ns - w.start).toNat % 2 ^ 32) ((w.seq + 1) % 65536 + w.cut.toNat * 2 ^ 16)) f := by
  simp only [State.bwEnd, h, List.map_nil, List.sum_nil, List.foldl_nil, Nat.add_zero]
  simp only [State.bwNext, State.bwRegs, State.ns, State.setReg_tim, State.setReg_bw]

theorem Reg.off_ne_same {r r' : Reg} (b i : Nat) (h : r.spec.off ≠ r'.spec.off) (hs : r.spec.stride = r'.spec.stride) : r.off b i ≠ r'.off b i := by
  unfold Reg.off
  rw [hs]
  omega

theorem State.reg_bwRegs (base k inLo outLo hi len word : Nat) : let t := s.bwRegs base k inLo outLo hi len word
    t.reg .NI_BWk_IN_LO base k = inLo % 2 ^ 32 ∧ t.reg .NI_BWk_OUT_LO base k = outLo % 2 ^ 32 ∧ t.reg .NI_BWk_LEN base k = len % 2 ^ 32 ∧
    t.reg .NI_BWk_META base k = word % 2 ^ 32 := by
  have hother (u : State) (r r' : Reg) (v : Nat) (h : r.spec.off ≠ r'.spec.off) (hs : r.spec.stride = r'.spec.stride) :
      (u.setReg r' v base k).reg r base k = u.reg r base k := State.reg_setReg_other _ _ _ _ _ _ _ _ (Reg.off_ne_same _ _ h hs)
  unfold State.bwRegs
  simp (disch := decide) only [hother, State.reg_setReg_same, and_self]

theorem execBwWindowEnd_due {fid : Fid} (ha : assigned fid.toNat = true) (hon : s.rf .NI_BW_CFG 31 1 (niBase fid.toNat) = 1)
    (hw : s.ns % s.bwWin fid.toNat = 0) (hs : s.ns ≠ (SMap.get {} s.bw fid.toNat).start) : execBwWindowEnd fid s = .next (s.bwEnd fid.toNat) := by
  simp [execBwWindowEnd, ha, hon, hw, hs]

/-! #### Probe records -/

/-- Two records that the trace line has brought leave. -/
def State.probeTook (s : State) (n : Nat) (rest : List (Nat × Nat)) : State :=
  { s with probe := SMap.set {} s.probe n { SMap.get {} s.probe n with came := rest } }

theorem execProbeRecordWrite_pair {n : Fin 144} {a b : Nat × Nat} {rest : List (Nat × Nat)} (hc : (SMap.get {} s.probe n.val).came = a :: b :: rest)
    (hs : (SMap.get {} s.probe n.val).stopped = false) (hq : s.qmLive (n.val / 36) = true) (hp : s.prim = .run) :
    execProbeRecordWrite n s = .next ((s.probeTook n rest).probeLine n a.1 b.1) := by
  have hr : s.prim ≠ .drain ∧ s.prim ≠ .quiesced ∧ s.prim ≠ .halt := by rw [hp]; decide
  simp only [execProbeRecordWrite]
  rw [if_neg (by simp [hs, hq, hr]), hc]
  rfl

theorem State.probeSize_of_regs {u : State} (h : u.rf .PRB_RING_SIZE 0 5 (prbBase n) = s.rf .PRB_RING_SIZE 0 5 (prbBase n)) :
    u.probeSize n = s.probeSize n := by
  unfold State.probeSize
  rw [h]

theorem State.probe_ringJob {q : Nat} {j : RingJob} : (s.ringJob q j).probe = s.probe := rfl

theorem State.rf_ringJob (q : Nat) (j : RingJob) (r : Reg) (lo w b i : Nat) : (s.ringJob q j).rf r lo w b i = s.rf r lo w b i :=
  State.rf_congr rfl rfl _ _ _ _ _

/-- Counting touches no register but the overflow bits of its own bank. -/
theorem State.rf_count (b i n : Nat) (r : Reg) (lo w b' i' : Nat)
    (h : ∀ j, j = i ∨ j = i + 1 → r.off b' i' ≠ Reg.off .CTR_STAT (ctrBase b) j) : (s.count b i n).rf r lo w b' i' = s.rf r lo w b' i' := by
  have hset (u : State) (hu : ∀ r lo w b' i', u.rf r lo w b' i' = s.rf r lo w b' i') (j : Nat) (hj : j = i ∨ j = i + 1) :
      (u.setRf .CTR_STAT 0 1 1 (ctrBase b) j).rf r lo w b' i' = s.rf r lo w b' i' :=
    (State.rf_setRf_other _ _ _ _ _ _ _ _ _ _ _ _ (h j hj)).trans (hu _ _ _ _ _)
  unfold State.count
  refine iteInduction (motive := fun u : State => u.rf r lo w b' i' = s.rf r lo w b' i') (fun _ => rfl) fun _ => ?_
  refine iteInduction (motive := fun u : State => u.rf r lo w b' i' = s.rf r lo w b' i') (fun _ => State.rf_congr rfl rfl _ _ _ _ _) fun _ => ?_
  refine iteInduction (motive := fun u : State => u.rf r lo w b' i' = s.rf r lo w b' i') (fun _ => ?_) fun _ => ?_
  · refine iteInduction (motive := fun u : State => u.rf r lo w b' i' = s.rf r lo w b' i') (fun _ => State.rf_congr rfl rfl _ _ _ _ _) fun _ => ?_
    exact hset _ (fun _ _ _ _ _ => State.rf_congr rfl rfl _ _ _ _ _) _ (.inr rfl)
  · exact hset _ (fun _ _ _ _ _ => State.rf_congr rfl rfl _ _ _ _ _) _ (.inl rfl)

theorem off_PRB_RING_SIZE (n : Nat) : Reg.off .PRB_RING_SIZE (prbBase n) 0 = 0x1380024 + 0x200 * n := by
  show 0x1380000 + 0x200 * n + 0x24 + 4 * 0 = _
  omega

theorem State.probeSize_counted (n q : Nat) (hq : q < 4) (j : RingJob) : ((s.ringJob q j).count (qmFid q) 71).probeSize n = s.probeSize n := by
  refine State.probeSize_of_regs ((State.rf_count _ _ _ _ _ _ _ _ fun k hk => ?_).trans (State.rf_ringJob _ _ _ _ _ _ _))
  rw [off_PRB_RING_SIZE, off_CTR_STAT]
  unfold qmFid
  omega

/-- A line of two records for the ring, and where the ring then stands. -/
theorem State.probe_probeLine (n a b : Nat) (hn : n < 144) : ∃ p : ProbeSt, p.came = (SMap.get {} s.probe n).came ∧
    p.index = ((SMap.get {} s.probe n).index + 2) % s.probeSize n ∧ (s.probeLine n a b).probe = SMap.set {} s.probe n p := by
  simp only [State.probeLine, State.probeSize_counted n (n / 36) (by omega), apply_ite State.probe, State.setRf_probe, State.setReg_probe,
    State.count_probe, ite_self]
  refine ⟨_, ?_, ?_, congrArg (fun x => SMap.set {} x n _) State.probe_ringJob⟩
  · rfl
  · rfl

theorem State.tabs_probeLine (n a b : Nat) : (s.probeLine n a b).tabs = s.tabs ∧ (s.probeLine n a b).lsram = s.lsram := by
  simp only [State.probeLine, apply_ite State.tabs, apply_ite State.lsram, State.setRf_tabs, State.setReg_tabs, State.count_tabs,
    State.setRf_lsram, State.setReg_lsram, State.count_lsram, ite_self]
  exact ⟨rfl, rfl⟩

/-! #### The trace lines -/

theorem SMap.mem_keys_of_get_ne {α : Type} {d : α} {m : SMap α} {k : Nat} (h : SMap.get d m k ≠ d) : k ∈ SMap.keys m := by
  induction m with
  | nil => exact absurd rfl h
  | cons kv m ih =>
    obtain ⟨k', v⟩ := kv
    by_cases hk : k' = k
    · exact hk ▸ List.mem_cons_self
    · rw [SMap.get, if_neg hk] at h
      exact List.mem_cons_of_mem _ (ih h)

theorem State.reg_withProbe (p : SMap ProbeSt) (r : Reg) (b i : Nat) : ({ s with probe := p } : State).reg r b i = s.reg r b i :=
  State.reg_congr rfl rfl _ _ _

theorem State.rf_withProbe (p : SMap ProbeSt) (r : Reg) (lo w b i : Nat) : ({ s with probe := p } : State).rf r lo w b i = s.rf r lo w b i :=
  State.rf_congr rfl rfl _ _ _ _ _

/-- The staged records of a router that is gone are dropped and counted. -/
def State.dropStaged (s : State) (m : Nat) : State := s.probeDrop m (SMap.get {} s.probe m).staged.length

theorem State.staged_dropStaged_same (m : Nat) : (SMap.get {} (s.dropStaged m).probe m).staged = [] := by
  simp [State.dropStaged, State.probeDrop]

theorem State.probe_dropStaged_other (m n : Nat) (h : n ≠ m) : SMap.get {} (s.dropStaged m).probe n = SMap.get {} s.probe n := by
  simp [State.dropStaged, State.probeDrop, h]

theorem State.reg_dropStaged_same (m : Nat) : (s.dropStaged m).reg .PRB_DROP (prbBase m) =
    min (s.reg .PRB_DROP (prbBase m) + (SMap.get {} s.probe m).staged.length) 0xFFFFFFFF :=
  (State.reg_withProbe _ _ _ _).trans
    (State.reg_bump_same _ _ _ _ _)

theorem State.reg_dropStaged_other (m n : Nat) (h : n ≠ m) : (s.dropStaged m).reg .PRB_DROP (prbBase n) = s.reg .PRB_DROP (prbBase n) :=
  (State.reg_withProbe _ _ _ _).trans
    (State.reg_bump_other _ _ _ _ _ _ _ _ (by simp only [Reg.off, prbBase]; omega))

/-- Router `n` has nothing staged any more, and all `k` records are counted. -/
structure State.Dropped (s t : State) (n k : Nat) : Prop where
  staged : (SMap.get {} t.probe n).staged = []
  count : t.reg .PRB_DROP (prbBase n) = min (s.reg .PRB_DROP (prbBase n) + k) 0xFFFFFFFF

theorem State.Dropped.dropStaged {n k : Nat} (h : s.Dropped t n k) (m : Nat) : s.Dropped (t.dropStaged m) n k := by
  by_cases e : n = m
  · subst e
    refine ⟨State.staged_dropStaged_same n, ?_⟩
    rw [State.reg_dropStaged_same, h.staged, h.count, List.length_nil]
    omega
  · exact ⟨by rw [State.probe_dropStaged_other _ _ e, h.staged], by rw [State.reg_dropStaged_other _ _ e, h.count]⟩

theorem State.dropped_foldl {n : Nat} {ms : List Nat} (hn : n ∈ ms) : s.Dropped (ms.foldl State.dropStaged s) n (SMap.get {} s.probe n).staged.length := by
  suffices h : ∀ u : State, SMap.get {} u.probe n = SMap.get {} s.probe n → u.reg .PRB_DROP (prbBase n) = s.reg .PRB_DROP (prbBase n) →
      s.Dropped (ms.foldl State.dropStaged u) n (SMap.get {} s.probe n).staged.length from h s rfl rfl
  induction ms with
  | nil => exact absurd hn List.not_mem_nil
  | cons m ms ih =>
    intro u hp hr
    by_cases e : n = m
    · subst e
      rw [List.foldl_cons]
      refine List.foldlRecOn (motive := fun v => s.Dropped v n _) _ _ ⟨State.staged_dropStaged_same n, ?_⟩ fun v hv m _ => hv.dropStaged m
      rw [State.reg_dropStaged_same, hp, hr]
    · exact ih ((List.mem_cons.mp hn).resolve_left e) _ ((State.probe_dropStaged_other _ _ e).trans hp) ((State.reg_dropStaged_other _ _ e).trans hr)

/-- What the trace line of a quadrant takes after the drops. -/
def State.traceTake (s : State) (q m : Nat) : State :=
  let s := s.updQm q (fun x => { x with traced := m % 36 })
  { s with probe := SMap.upd {} s.probe m (fun p =>
      { p with staged := p.staged.drop 1, came := p.came ++ (p.staged.take 1).map (fun r => (r.1, s.tick)) }) }

theorem State.probe_traceTake (q m : Nat) : (s.traceTake q m).probe = SMap.upd {} s.probe m (fun p =>
    { p with staged := p.staged.drop 1, came := p.came ++ (p.staged.take 1).map (fun r => (r.1, s.tick)) }) := rfl

/-- The routers of a quadrant whose staged records are dropped. -/
def State.traceGone (s : State) (q : Nat) : List Nat :=
  (SMap.keys s.probe).filter (fun m => m / 36 == q && s.probeGone m && !(SMap.get {} s.probe m).staged.isEmpty)

theorem State.tickTrace_eq (q : Nat) : s.tickTrace q =
    let t := (s.traceGone q).foldl State.dropStaged s
    if t.tick % 2 = 0 ∨ t.probe.isEmpty then t else match t.traceNext q with
      | none => t
      | some m => t.traceTake q m := rfl

theorem State.Dropped.traceTake {n k : Nat} (h : s.Dropped t n k) (q m : Nat) : s.Dropped (t.traceTake q m) n k := by
  refine ⟨?_, (State.reg_congr (s := t) rfl rfl _ _ _).trans h.count⟩
  rw [State.probe_traceTake, SMap.get_upd]
  split
  · next e => subst e; simp [h.staged]
  · exact h.staged

theorem State.tickTrace_drops {n : Nat} (hs : (SMap.get {} s.probe n).staged ≠ []) (hg : s.probeGone n = true) :
    s.Dropped (s.tickTrace (n / 36)) n (SMap.get {} s.probe n).staged.length := by
  have hmem : n ∈ s.traceGone (n / 36) := by
    refine List.mem_filter.mpr ⟨SMap.mem_keys_of_get_ne fun e => hs (by rw [e]), ?_⟩
    simp [hg, hs]
  have hd := State.dropped_foldl (s := s) hmem
  rw [State.tickTrace_eq]
  generalize (s.traceGone (n / 36)).foldl State.dropStaged s = t at hd ⊢
  refine iteInduction (motive := fun u => s.Dropped u n _) (fun _ => hd) fun _ => ?_
  cases t.traceNext (n / 36) with
  | none => exact hd
  | some m => exact hd.traceTake _ m

theorem State.tickTrace_takes {q m : Nat} (ht : s.tick % 2 = 1) (hg : ∀ k, s.probeGone k = false) (hn : s.traceNext q = some m) (hp : s.probe ≠ []) :
    s.tickTrace q = s.traceTake q m := by
  have hnone : s.traceGone q = [] := List.filter_eq_nil_iff.mpr fun k _ => by simp [hg]
  rw [State.tickTrace_eq, hnone, List.foldl_nil]
  simp only [hn]
  rw [if_neg]
  simp [ht, hp]

theorem State.traceTake_moves {q m : Nat} (hn : s.traceNext q = some m) :
    (SMap.get {} (s.traceTake q m).probe m).staged = (SMap.get {} s.probe m).staged.drop 1 ∧
    (SMap.get {} (s.traceTake q m).probe m).came.length = (SMap.get {} s.probe m).came.length + 1 := by
  have hst : 1 ≤ (SMap.get {} s.probe m).staged.length := by
    have h := List.find?_some hn
    simp only [Bool.and_eq_true, Bool.not_eq_true', List.isEmpty_eq_false_iff] at h
    exact List.length_pos_iff.mpr h.1
  rw [State.probe_traceTake, SMap.get_upd, if_pos rfl]
  refine ⟨rfl, ?_⟩
  simp only [List.length_append, List.length_map, List.length_take]
  omega

theorem State.RegsOnly.of_probe (h : s.RegsOnly t) (p : SMap ProbeSt) :
    { ({ t with probe := p } : State) with probe := s.probe, regs := s.regs, cyc := s.cyc } = s :=
  (congrArg (fun x : State => { x with probe := s.probe }) h :)

theorem State.probeRearm_clears (n : Nat) : (SMap.get {} (s.probeRearm n).probe n).stopped = false ∧
    (s.probeRearm n).rf .PRB_STATUS 0 1 (prbBase n) = 0 := by
  refine ⟨?_, (State.rf_withProbe _ _ _ _ _ _).trans (State.rf_setRf_same _ _ _ _ _ _ _ (by decide))⟩
  rw [State.probeRearm, SMap.get_upd, if_pos rfl]

/-- Settles O9. -/
theorem bandwidthWindowsAndProbes : Obligations.BandwidthWindowsAndProbes := by
  refine ⟨fun s fid ha hon hw hs => ?_, fun s n a b rest hc hst hq hp => ?_, fun s n hs hg => ?_, fun s q m ht hg hn hp => ?_, fun s n => ?_⟩
  · intro w k hmiss
    have hcut : w.cut.toNat ≤ 1 := Bool.toNat_le _
    obtain ⟨hin, hout, hlen, hmeta⟩ := State.reg_bwRegs (s := s) (niBase fid.toNat) k (fld w.inB 0 32) (fld w.outB 0 32)
      (fld w.inB 32 16 + fld w.outB 32 16 * 2 ^ 16) ((s.ns - w.start).toNat % 2 ^ 32) ((w.seq + 1) % 65536 + w.cut.toNat * 2 ^ 16)
    refine ⟨_, (execBwWindowEnd_due ha hon hw hs).trans (congrArg _ (State.bwEnd_of_no_miss hmiss)), ?_, ?_, ?_, ?_, ?_, ?_,
      (State.bwRegs_regsOnly ..).bwNext _⟩
    · exact (State.reg_bwNext ..).trans (hin.trans (by simp [fld]))
    · exact (State.reg_bwNext ..).trans (hout.trans (by simp [fld]))
    · exact (State.reg_bwNext ..).trans (hlen.trans (Nat.mod_mod _ _))
    · exact (State.reg_bwNext ..).trans (hmeta.trans (Nat.mod_eq_of_lt (by omega)))
    · simp [State.bwNext]
    · simp [State.bwNext]
  · obtain ⟨p, hcame, hidx, hprobe⟩ := State.probe_probeLine (s := s.probeTook n rest) n a.1 b.1 n.isLt
    obtain ⟨htabs, hlsram⟩ := State.tabs_probeLine (s := s.probeTook n rest) n a.1 b.1
    refine ⟨_, execProbeRecordWrite_pair hc hst hq hp, ?_, ?_, fun m hm => ?_, htabs, hlsram⟩
    · rw [hprobe, SMap.get_set, if_pos rfl, hcame]
      simp [State.probeTook]
    · rw [hprobe, SMap.get_set, if_pos rfl, hidx, State.probeTook, State.probeSize_of_regs (State.rf_withProbe _ _ _ _ _ _), SMap.get_set, if_pos rfl]
    · rw [hprobe, SMap.get_set, if_neg hm]
      simp [State.probeTook, hm]
  · obtain ⟨hstaged, hcount⟩ := State.tickTrace_drops hs hg
    exact ⟨hstaged, hcount⟩
  · rw [State.tickTrace_takes ht hg hn hp]
    exact State.traceTake_moves hn
  · obtain ⟨hstop, hfull⟩ := State.probeRearm_clears (s := s) n
    exact ⟨_, rfl, hstop, hfull, (State.RegsOnly.refl.setRf _ _ _ _ _ _).of_probe _⟩

end Sys2Proof.Machine

namespace Sys2Proof.Machine
variable {s t : State}

/-! ### Control requests at the hub -/

theorem State.csaAllows_hubTake (ps : List Pkt) (sd : Option Nat) (w : Bool) (off : Nat) : (s.hubTake ps).csaAllows sd w off = s.csaAllows sd w off := rfl

/-- Nothing but the hub, the interfaces and registers has changed, and the hub's queue stands. -/
structure State.HubKept (s t : State) : Prop where
  rest : { t with hub := s.hub, ni := s.ni, regs := s.regs, cyc := s.cyc } = s
  queue : t.hub.queue = s.hub.queue

theorem State.HubKept.hubTake (ps : List Pkt) : s.HubKept (s.hubTake ps) := ⟨rfl, rfl⟩

section
variable (h : s.HubKept t)
include h
theorem State.HubKept.setReg (r : Reg) (v b i : Nat) : s.HubKept (t.setReg r v b i) := ⟨h.rest, h.queue⟩
theorem State.HubKept.noteCyc (o : Nat) (g : CycReg → CycReg) : s.HubKept (t.noteCyc o g) := ⟨h.rest, h.queue⟩
theorem State.HubKept.bump (r : Reg) (b i n : Nat) : s.HubKept (t.bump r b i n) := ⟨h.rest, h.queue⟩

theorem State.HubKept.csaRefuse (src : Nat) (sd : Option Nat) (w : Bool) (off cause : Nat) : s.HubKept (t.csaRefuse src sd w off cause) :=
  iteInduction (motive := s.HubKept) (fun _ => (h.bump _ _ _ _).noteCyc _ _) fun _ => ((h.bump _ _ _ _).setReg _ _ _ _).setReg _ _ _ _
end

theorem State.reg_latchWords_other (cap r : Reg) (ws : List (Reg × Nat)) (b i b' i' : Nat) (h : ∀ rw ∈ ws, r.off b' i' ≠ rw.1.off b i) :
    (s.latchWords cap ws b i).reg r b' i' = s.reg r b' i' := by
  refine iteInduction (motive := fun u : State => u.reg r b' i' = s.reg r b' i') (fun _ => State.reg_noteCyc _ _ _ _ _ _) fun _ => ?_
  refine List.foldlRecOn (motive := fun u : State => u.reg r b' i' = s.reg r b' i') _ _ rfl fun u hu rw hrw => ?_
  exact (State.reg_setReg_other _ _ _ _ _ _ _ _ (h rw hrw)).trans hu

/-- A refusal is counted. -/
theorem State.reg_csaRefuse (src : Nat) (sd : Option Nat) (w : Bool) (off : Nat) :
    (s.csaRefuse src sd w off 1).reg .GLB_CSA_DENY_CNT = min (s.reg .GLB_CSA_DENY_CNT + 1) 0xFFFFFFFF ∧
    (s.csaRefuse src sd w off 2).reg .GLB_CSA_ABSENT_CNT = min (s.reg .GLB_CSA_ABSENT_CNT + 1) 0xFFFFFFFF := by
  have hne (r : Reg) (hr : r = .GLB_CSA_DENY_CNT ∨ r = .GLB_CSA_ABSENT_CNT) (v v' : Nat) :
      ∀ rw ∈ [(Reg.GLB_CSA_CAP, v), (Reg.GLB_CSA_CAP_OFF, v')], r.off 0 0 ≠ rw.1.off 0 0 := by
    simp only [List.forall_mem_cons]
    obtain rfl | rfl := hr
    · exact ⟨by decide, by decide, nofun⟩
    · exact ⟨by decide, by decide, nofun⟩
  exact ⟨(State.reg_latchWords_other _ _ _ _ _ _ _ (hne _ (.inl rfl) _ _)).trans (State.reg_bump_same _ _ _ _ _),
    (State.reg_latchWords_other _ _ _ _ _ _ _ (hne _ (.inr rfl) _ _)).trans (State.reg_bump_same _ _ _ _ _)⟩

theorem State.reg_hubTake (ps : List Pkt) (r : Reg) (b i : Nat) : (s.hubTake ps).reg r b i = s.reg r b i := State.reg_congr rfl rfl _ _ _

/-! #### The verdict of the hub -/

theorem State.hubJudge_denied {sd : Option Nat} {w : Bool} {off : Nat} (src : Nat) (h : s.csaAllows sd w off = false) :
    s.hubJudge src sd w off = (some 1, s.csaRefuse src sd w off 1) := if_pos (by simp [h])

theorem State.hubJudge_absent {sd : Option Nat} {w : Bool} {off : Nat} (src : Nat) (h : s.csaAllows sd w off = true) (ha : absent off = true) :
    s.hubJudge src sd w off = (some 9, s.csaRefuse src sd w off 2) := (if_neg (by simp [h])).trans (if_pos ha)

theorem State.hubJudge_passed {sd : Option Nat} {w : Bool} {off : Nat} (src : Nat) (h : s.csaAllows sd w off = true) (ha : absent off = false)
    (hp : s.prim ≠ .test) : s.hubJudge src sd w off = (none, s) :=
  (if_neg (by simp [h])).trans ((if_neg (by simp [ha])).trans (if_neg fun e => hp e.1))

/-! #### The hub's queue and tree -/

theorem State.hubBegin_cases : s.hubBegin = s ∨ ∃ r ∈ s.hub.queue, s.hubBegin =
    { s with hub := { s.hub with queue := s.hub.queue.erase r, tree := s.hub.tree ++ [r], beginAt := s.tick + 1 } } := by
  unfold State.hubBegin
  refine iteInduction (motive := fun u => u = s ∨ ∃ r ∈ s.hub.queue, u = { s with hub := { s.hub with
    queue := s.hub.queue.erase r, tree := s.hub.tree ++ [r], beginAt := s.tick + 1 } }) (fun _ => .inl rfl) fun _ => ?_
  cases hr : s.hub.queue.find? (fun r => !s.hub.tree.any (fun x => x.src == r.src)) with
  | none => exact .inl rfl
  | some r => exact .inr ⟨r, List.mem_of_find?_eq_some hr, rfl⟩

/-- A request that the hub holds still waits or has begun after the hub's next begin. -/
theorem State.mem_hubBegin {r : HubReq} (h : r ∈ s.hub.queue) : r ∈ s.hubBegin.hub.queue ∨ r ∈ s.hubBegin.hub.tree := by
  obtain e | ⟨x, -, e⟩ := State.hubBegin_cases (s := s)
  · rw [e]
    exact .inl h
  · rw [e]
    by_cases hx : r = x
    · exact .inr (List.mem_append_right _ (hx ▸ List.mem_singleton_self x))
    · exact .inl ((List.mem_erase_of_ne hx).mpr h)

theorem State.hubBegin_rest : { s.hubBegin with hub := s.hub } = s := by
  obtain e | ⟨x, -, e⟩ := State.hubBegin_cases (s := s)
  · rw [e]
  · rw [e]

/-- The hub's queue with one more request, and its next begin. -/
def State.hubQueue (s : State) (r : HubReq) : State := ({ s with hub := { s.hub with queue := s.hub.queue ++ [r] } } : State).hubBegin

theorem State.mem_hubQueue (r : HubReq) : r ∈ (s.hubQueue r).hub.queue ∨ r ∈ (s.hubQueue r).hub.tree :=
  State.mem_hubBegin (List.mem_append_right _ (List.mem_singleton_self r))

theorem State.hubQueue_rest (r : HubReq) (hub : Hub) (ni : SMap Ni) (h : { t with hub := hub, ni := ni } = s) :
    { t.hubQueue r with hub := hub, ni := ni } = s :=
  (congrArg (fun x : State => { x with hub := hub, ni := ni }) (State.hubBegin_rest (s := { t with hub := { t.hub with queue := t.hub.queue ++ [r] } })) :).trans h

/-! #### CsrRd -/

section
variable {q : Pkt} (hh : s.hubHead = some q) (hr : s.hubReady = true)
include hh hr

theorem execCsrRead_taken (ho : q.opc = 0x15) : execCsrRead s =
    match (s.hubTake [q]).hubJudge q.src.toNat (s.hubSd q) false (q.addr.toNat % 2 ^ 26) with
    | (some st, t) => .next (t.answer 0x180 q st 0 [0])
    | (none, t) => .next (t.hubQueue
        { src := q.src, sd := BitVec.ofNat 4 ((s.hubSd q).getD 0), write := false, off := q.addr.toNat % 2 ^ 26, req := some q }) := by
  simp only [execCsrRead, hh]
  rw [if_neg (by simp [hr, ho])]
  rfl

/-- The word of the request, or the line that follows it. -/
theorem execCsrWrite_taken (ho : q.opc = 0x16) {d : Option Pkt}
    (hd : (s.nif 0x180).inbox.find? (fun p => p.net == .dat && p.src == q.src && p.txid == q.txid) = d) (hline : q.len = 0 → d.isSome = true) :
    ∃ ps, execCsrWrite s = match (s.hubTake ps).hubJudge q.src.toNat (s.hubSd q) true (q.addr.toNat % 2 ^ 26) with
    | (some st, t) => .next (t.answer 0x180 q st)
    | (none, t) =>
      if inPrgData (q.addr.toNat % 2 ^ 26) then .next ((t.prgData q.src.toNat
        (if q.len == 0 then (d.map (·.data)).getD [] else leBytes 4 ((q.ops.getD 0 0).toNat % 2 ^ 32))).answer 0x180 q 0)
      else .next (t.hubQueue
        { src := q.src, sd := BitVec.ofNat 4 ((s.hubSd q).getD 0), write := true, off := q.addr.toNat % 2 ^ 26,
          value := BitVec.ofNat 32 ((q.ops.getD 0 0).toNat % 2 ^ 32), req := some q }) := by
  subst hd
  simp only [execCsrWrite, hh]
  rw [if_neg (by
    rintro (h | h | ⟨h1, h2⟩)
    · exact h hr
    · exact h ho
    · have hs := hline (by simpa using h1)
      rw [Option.isNone_iff_eq_none] at h2
      rw [h2] at hs
      exact Bool.false_ne_true hs)]
  exact ⟨_, rfl⟩
end

/-! #### The permission entries -/

theorem State.csaAllows_entry {d n off : Nat} {w : Bool} (h0 : d ≠ 0) (h15 : d ≠ 15) (hn : n < 32) (hm : s.csaMatch n off = true)
    (hl : ∀ m, m < n → s.csaMatch m off = false) : s.csaAllows (some d) w off = bitOf (s.reg .GLB_CSAn_HI 0 n) (d + 16 * w.toNat) := by
  have hf : (List.range 32).find? (fun n => s.csaMatch n off) = some n := by
    rw [List.find?_range_eq_some]
    exact ⟨hm, List.mem_range.mpr hn, fun m h => by simp [hl m h]⟩
  simp [State.csaAllows, h0, h15, hf]

theorem State.csaAllows_locked {d off : Nat} {w : Bool} (h0 : d ≠ 0) (h15 : d ≠ 15) (hm : ∀ m, m < 32 → s.csaMatch m off = false)
    (hl : s.rf .GLB_CSA_CTRL 0 1 = 1) : s.csaAllows (some d) w off = false := by
  have hf : (List.range 32).find? (fun n => s.csaMatch n off) = none :=
    List.find?_eq_none.mpr fun m h => by simp [hm m (List.mem_range.mp h)]
  simp [State.csaAllows, h0, h15, hf, hl]

theorem State.csaAllows_domain_zero (w : Bool) (off : Nat) : s.csaAllows (some 0) w off = true := by
  unfold State.csaAllows
  exact if_pos (.inl rfl)

/-- A control write that the hub answers itself, by what it refuses. -/
theorem execCsrWrite_refused {q : Pkt} (hh : s.hubHead = some q) (hr : s.hubReady = true) (ho : q.opc = 0x16) (hl : q.len ≠ 0) :
    let off := q.addr.toNat % 2 ^ 26
    (s.csaAllows (s.hubSd q) true off = false → ∃ s' : State, execCsrWrite s = .next (s'.answer 0x180 q 1) ∧
      s'.reg .GLB_CSA_DENY_CNT = min (s.reg .GLB_CSA_DENY_CNT + 1) 0xFFFFFFFF ∧ s.HubKept s') ∧
    (s.csaAllows (s.hubSd q) true off = true → absent off = true → ∃ s' : State, execCsrWrite s = .next (s'.answer 0x180 q 9) ∧
      s'.reg .GLB_CSA_ABSENT_CNT = min (s.reg .GLB_CSA_ABSENT_CNT + 1) 0xFFFFFFFF ∧ s.HubKept s') := by
  intro off
  obtain ⟨ps, e⟩ := execCsrWrite_taken hh hr ho rfl fun h => absurd h hl
  refine ⟨fun hd => ?_, fun hc ha => ?_⟩
  · rw [State.hubJudge_denied _ ((State.csaAllows_hubTake ..).trans hd)] at e
    exact ⟨_, e, (State.reg_csaRefuse ..).1.trans (by rw [State.reg_hubTake]), (State.HubKept.hubTake ps).csaRefuse ..⟩
  · rw [State.hubJudge_absent _ ((State.csaAllows_hubTake ..).trans hc) ha] at e
    exact ⟨_, e, (State.reg_csaRefuse ..).2.trans (by rw [State.reg_hubTake]), (State.HubKept.hubTake ps).csaRefuse ..⟩

/-- A control write that passes goes to the program port or to the hub's queue. -/
theorem execCsrWrite_passed {q : Pkt} (hh : s.hubHead = some q) (hr : s.hubReady = true) (ho : q.opc = 0x16) {d : Option Pkt}
    (hd : (s.nif 0x180).inbox.find? (fun p => p.net == .dat && p.src == q.src && p.txid == q.txid) = d) (hline : q.len = 0 → d.isSome = true)
    (hc : s.csaAllows (s.hubSd q) true (q.addr.toNat % 2 ^ 26) = true) (ha : absent (q.addr.toNat % 2 ^ 26) = false) (hp : s.prim ≠ .test) :
    ∃ ps, execCsrWrite s = if inPrgData (q.addr.toNat % 2 ^ 26) then .next (((s.hubTake ps).prgData q.src.toNat
        (if q.len == 0 then (d.map (·.data)).getD [] else leBytes 4 ((q.ops.getD 0 0).toNat % 2 ^ 32))).answer 0x180 q 0)
      else .next ((s.hubTake ps).hubQueue
        { src := q.src, sd := BitVec.ofNat 4 ((s.hubSd q).getD 0), write := true, off := q.addr.toNat % 2 ^ 26,
          value := BitVec.ofNat 32 ((q.ops.getD 0 0).toNat % 2 ^ 32), req := some q }) := by
  obtain ⟨ps, e⟩ := execCsrWrite_taken hh hr ho hd hline
  refine ⟨ps, e.trans ?_⟩
  rw [State.hubJudge_passed _ ((State.csaAllows_hubTake ..).trans hc) ha hp]

/-- Settles O10. -/
theorem controlRequestsAreCheckedAtTheHub : Obligations.ControlRequestsAreCheckedAtTheHub := by
  refine ⟨fun s q hh hr ho => ⟨fun hd => ?_, fun hc ha => ?_, fun hc ha hp => ?_⟩,
    fun s q hh hr ho => ⟨fun hl hd => ?_, fun hl hc ha => ?_, fun d hd hline hc ha hp hin => ?_, fun hl hc ha hp hin => ?_⟩,
    fun s w off => State.csaAllows_domain_zero w off, fun _ _ _ => rfl,
    fun s d n off w h0 h15 hn hm hl => State.csaAllows_entry h0 h15 hn hm hl, fun s d off w h0 h15 hm hl => State.csaAllows_locked h0 h15 hm hl⟩
  · have hk := (State.HubKept.hubTake (s := s) [q]).csaRefuse q.src.toNat (s.hubSd q) false (q.addr.toNat % 2 ^ 26) 1
    refine ⟨_, (execCsrRead_taken hh hr ho).trans ?_, (State.reg_csaRefuse ..).1.trans (by rw [State.reg_hubTake]), hk.rest, hk.queue⟩
    rw [State.hubJudge_denied _ ((State.csaAllows_hubTake ..).trans hd)]
  · have hk := (State.HubKept.hubTake (s := s) [q]).csaRefuse q.src.toNat (s.hubSd q) false (q.addr.toNat % 2 ^ 26) 2
    refine ⟨_, (execCsrRead_taken hh hr ho).trans ?_, (State.reg_csaRefuse ..).2.trans (by rw [State.reg_hubTake]), hk.rest, hk.queue⟩
    rw [State.hubJudge_absent _ ((State.csaAllows_hubTake ..).trans hc) ha]
  · have e := execCsrRead_taken hh hr ho
    rw [State.hubJudge_passed _ ((State.csaAllows_hubTake ..).trans hc) ha hp] at e
    exact ⟨_, e, ⟨_, rfl, rfl, rfl, State.mem_hubQueue _⟩, State.hubQueue_rest _ _ _ rfl⟩
  · obtain ⟨s', he, hcnt, hk⟩ := (execCsrWrite_refused hh hr ho hl).1 hd
    exact ⟨s', he, hcnt, hk.rest⟩
  · obtain ⟨s', he, hcnt, hk⟩ := (execCsrWrite_refused hh hr ho hl).2 hc ha
    exact ⟨s', he, hcnt, hk.rest⟩
  · obtain ⟨ps, e⟩ := execCsrWrite_passed hh hr ho hd hline hc ha hp
    exact ⟨s.hubTake ps, rfl, e.trans (if_pos hin)⟩
  · obtain ⟨ps, e⟩ := execCsrWrite_passed hh hr ho rfl (fun h => absurd h hl) hc ha hp
    refine ⟨_, e.trans (if_neg (fun h => Bool.false_ne_true (hin.symm.trans h))), ⟨_, rfl, rfl, ?_, rfl, State.mem_hubQueue _⟩, State.hubQueue_rest _ _ _ rfl⟩
    simp

end Sys2Proof.Machine

namespace Sys2Proof.Machine
variable {s : State}

/-! ### Accesses on the control tree -/

/-- The access of `r` has ended in the state `t`: it leaves the tree, and the hub begins its next one. -/
def State.treeLeave (t : State) (r : HubReq) : State := ({ t with hub := { t.hub with tree := t.hub.tree.erase r } } : State).hubBegin

theorem State.treeAccess_asleep {r : HubReq} (ha : absent r.off = false) (hs : s.ownerAsleep r.off = true) : s.treeAccess r = s.hubAnswer r 3 0 :=
  (if_neg (Bool.eq_false_iff.mp ha)).trans (if_pos hs)

theorem State.treeAccess_read {r : HubReq} (ha : absent r.off = false) (hs : s.ownerAsleep r.off = false) (hw : r.write = false) :
    s.treeAccess r = (s.csRead r.off).2.hubAnswer r 0 (s.csPeek r.off) :=
  (if_neg (Bool.eq_false_iff.mp ha)).trans ((if_neg (Bool.eq_false_iff.mp hs)).trans (if_neg (Bool.eq_false_iff.mp hw)))

theorem State.treeAccess_write {r : HubReq} (ha : absent r.off = false) (hs : s.ownerAsleep r.off = false) (hw : r.write = true)
    (ht : (s.csWrite r.src.toNat r.off r.value.toNat).hub.tree ≠ []) :
    s.treeAccess r = (s.csWrite r.src.toNat r.off r.value.toNat).hubAnswer r 0 0 :=
  (if_neg (Bool.eq_false_iff.mp ha)).trans ((if_neg (Bool.eq_false_iff.mp hs)).trans ((if_pos hw).trans
    (if_neg fun h => ht (List.isEmpty_iff.mp h.1))))

section
variable {src : Fid} {r : HubReq} (ha : assigned src.toNat = true) (hf : s.hub.tree.find? (fun x => x.src == src) = some r)
include ha hf

theorem execTreeAccessDone_first (ho : (s.hub.tree.takeWhile (fun x => x.src != src)).any (fun x => x.off == r.off) = false) :
    execTreeAccessDone src s = .next ((s.treeAccess r).treeLeave r) := by
  simp only [execTreeAccessDone, hf, ho]
  exact if_neg (not_not_intro ha)

/-- An earlier access to the same register comes first. -/
theorem execTreeAccessDone_waits (ho : (s.hub.tree.takeWhile (fun x => x.src != src)).any (fun x => x.off == r.off) = true) :
    execTreeAccessDone src s = .next s := by
  simp only [execTreeAccessDone, hf, ho]
  exact if_neg (not_not_intro ha)
end

/-- Settles O11. -/
theorem treeAccessReachesItsUnit : Obligations.TreeAccessReachesItsUnit := by
  intro s src r ha hf
  refine ⟨fun ho hab => ⟨fun hs => ?_, fun hs hw => ?_, fun hs hw ht => ?_⟩, execTreeAccessDone_waits ha hf⟩
  · exact ⟨_, rfl, (execTreeAccessDone_first ha hf ho).trans (by rw [State.treeAccess_asleep hab hs]; rfl)⟩
  · exact ⟨_, rfl, (execTreeAccessDone_first ha hf ho).trans (by rw [State.treeAccess_read hab hs hw]; rfl)⟩
  · exact ⟨_, rfl, (execTreeAccessDone_first ha hf ho).trans (by rw [State.treeAccess_write hab hs hw ht]; rfl)⟩

end Sys2Proof.Machine

namespace Sys2Proof.Machine
variable {s t : State}

/-! ### Register writes -/

/-! #### Bits of a field -/

/-- Taking the bits of `b` out of `a`. -/
theorem testBit_sub_and (a b i : Nat) : (a - (a &&& b)).testBit i = (a.testBit i && !b.testBit i) := by
  induction i generalizing a b with
  | zero =>
    have hab := Nat.and_mod_two_eq_one (a := a) (b := b)
    have hle : a &&& b ≤ a := Nat.and_le_left
    simp only [Nat.testBit_zero]
    by_cases ha : a % 2 = 1
    · by_cases hb : b % 2 = 1
      · simp [ha, hb, show ¬(a - (a &&& b)) % 2 = 1 by have := hab.mpr ⟨ha, hb⟩; omega]
      · simp [ha, hb, show (a - (a &&& b)) % 2 = 1 by have := mt hab.mp (fun h => hb h.2); omega]
    · simp [ha, show ¬(a - (a &&& b)) % 2 = 1 by have := mt hab.mp (fun h => ha h.1); omega]
  | succ i ih =>
    have hab := Nat.and_mod_two_eq_one (a := a) (b := b)
    have hd : (a &&& b) / 2 = a / 2 &&& b / 2 := Nat.and_div_two
    have hle : a &&& b ≤ a := Nat.and_le_left
    have h : (a - (a &&& b)) / 2 = a / 2 - (a / 2 &&& b / 2) := by
      rw [← hd]
      by_cases ha : a % 2 = 1
      · omega
      · have := mt hab.mp (fun h => ha h.1)
        omega
    rw [Nat.testBit_succ, Nat.testBit_succ, Nat.testBit_succ, h, ih]

theorem bitOf_eq_testBit (v i : Nat) : bitOf v i = v.testBit i := by
  rw [Nat.testBit_eq_decide_div_mod_eq]
  rfl

theorem testBit_fld (v lo w i : Nat) (h : i < w) : (fld v lo w).testBit i = bitOf v (lo + i) := by
  rw [bitOf_eq_testBit, fld, Nat.testBit_mod_two_pow, Nat.testBit_div_two_pow, decide_eq_true h, Bool.true_and, Nat.add_comm]

theorem bitOf_setFld {v lo w x i : Nat} (hi : i < w) (hx : x < 2 ^ w) : bitOf (setFld v lo w x) (lo + i) = x.testBit i := by
  rw [← testBit_fld _ _ w _ hi, fld_setFld_same, Nat.mod_eq_of_lt hx]

/-! #### The access codes -/

section
variable {f : Field} {lk : Bool} {hw old v : Nat}

theorem Field.write_rw (h : f.acc = .rw) : fld (f.write lk hw old v) f.lo f.w = fld v f.lo f.w := by
  rw [Field.write, h]
  exact (fld_setFld_same ..).trans (Nat.mod_mod _ _)

theorem Field.write_rwl (h : f.acc = .rwl) : f.write true hw old v = old ∧ fld (f.write false hw old v) f.lo f.w = fld v f.lo f.w := by
  rw [Field.write, Field.write, h]
  exact ⟨rfl, (fld_setFld_same ..).trans (Nat.mod_mod _ _)⟩

theorem Field.write_w1c (h : f.acc = .w1c) : f.write lk hw old v =
    setFld old f.lo f.w (fld old f.lo f.w - (fld old f.lo f.w &&& (fld v f.lo f.w - (fld v f.lo f.w &&& fld hw f.lo f.w)))) := by
  rw [Field.write, h]

/-- Nothing set by the hardware: the bits written as 1 are cleared. -/
theorem Field.write_w1c_clears (h : f.acc = .w1c) :
    fld (f.write lk 0 old v) f.lo f.w = fld old f.lo f.w - (fld old f.lo f.w &&& fld v f.lo f.w) := by
  have h0 : fld 0 f.lo f.w = 0 := by simp [fld]
  rw [Field.write_w1c h, fld_setFld_same, h0, Nat.and_zero, Nat.sub_zero]
  exact Nat.mod_eq_of_lt (Nat.lt_of_le_of_lt (Nat.sub_le _ _) (fld_lt ..))

/-- A bit that the hardware sets in the same cycle is not cleared (R9). -/
theorem Field.write_w1c_keeps (h : f.acc = .w1c) {i : Nat} (hi : i < f.w) (hb : bitOf hw (f.lo + i) = true) :
    bitOf (f.write lk hw old v) (f.lo + i) = bitOf old (f.lo + i) := by
  rw [Field.write_w1c h, bitOf_setFld hi (Nat.lt_of_le_of_lt (Nat.sub_le _ _) (fld_lt ..)), testBit_sub_and, testBit_sub_and, testBit_fld _ _ _ _ hi,
    testBit_fld hw _ _ _ hi, hb]
  simp

theorem Field.write_w1s (h : f.acc = .w1s) : fld (f.write lk hw old v) f.lo f.w = (fld old f.lo f.w ||| fld v f.lo f.w) := by
  rw [Field.write, h]
  exact (fld_setFld_same ..).trans (Nat.mod_eq_of_lt (Nat.or_lt_two_pow (fld_lt ..) (fld_lt ..)))

theorem Field.write_read_only (h : f.acc = .ro ∨ f.acc = .rc) : f.write lk hw old v = old := by
  rw [Field.write]
  obtain h | h := h
  · rw [h]
  · rw [h]
end

/-! #### Where a register lies -/

theorem forall_mem_ite {α : Type} {P : α → Prop} {c : Prop} [Decidable c] {x y : Option α} (hx : c → ∀ p ∈ x, P p) (hy : ¬c → ∀ p ∈ y, P p) :
    ∀ p ∈ (if c then x else y), P p := by
  split
  · exact hx ‹c›
  · exact hy ‹¬c›

theorem blockOf_base_le {off base : Nat} {b : RegBlock} (h : blockOf off = some (b, base)) : base ≤ off := by
  suffices hall : ∀ p ∈ blockOf off, p.2 ≤ off from hall (b, base) h
  unfold blockOf
  repeat' refine forall_mem_ite (fun _ => ?_) (fun _ => ?_)
  all_goals simp only [Option.mem_def, Option.some.injEq, forall_eq', reduceCtorEq, false_imp_iff, implies_true, domBase, rkBase, rtrBase, niBase,
    hsBase, ssbBase, qmBase, engBase, eclBase, ctrBase, prbBase, slcBase, slcgBase]
  all_goals omega

theorem Reg.findIn_off {rs : List Reg} {rel i : Nat} {r : Reg} (h : Reg.findIn rs rel = some (r, i)) : r.spec.off + r.spec.stride * i = rel := by
  unfold Reg.findIn at h
  rw [Option.map_eq_some_iff] at h
  obtain ⟨r', hr', he⟩ := h
  obtain ⟨rfl, rfl⟩ := Prod.mk.inj he
  have hp := List.find?_some hr'
  simp only [Bool.and_eq_true, decide_eq_true_eq, beq_iff_eq] at hp
  obtain ⟨⟨hle, hmod⟩, -⟩ := hp
  have hdiv := Nat.div_add_mod (rel - r'.spec.off) r'.spec.stride
  omega

/-- The offset of the register that stands at `off` is `off`. -/
theorem regAt_off {off base i : Nat} {r : Reg} (h : regAt off = some (r, base, i)) : r.off base i = off := by
  have hin {rs : List Reg} {b : Nat} (hb : b ≤ off) (h : (Reg.findIn rs (off - b)).map (fun ri => (ri.1, b, ri.2)) = some (r, base, i)) :
      r.off base i = off := by
    rw [Option.map_eq_some_iff] at h
    obtain ⟨⟨r', i'⟩, hf, he⟩ := h
    simp only [Prod.mk.injEq] at he
    obtain ⟨rfl, rfl, rfl⟩ := he
    have := Reg.findIn_off hf
    unfold Reg.off
    omega
  unfold regAt at h
  split at h
  · exact absurd h nofun
  · next b base' hblock =>
    have hle := blockOf_base_le hblock
    split at h
    · split at h
      · exact hin (by omega) h
      · exact hin hle h
    · exact hin hle h

/-! #### What a write of a register leaves -/

/-- A write of a register with Epoch fields alone waits in its shadow for the next switch. -/
theorem State.shadow_putReg {r : Reg} (he : r.spec.hasKind .epoch = true) (hq : r.spec.hasKind .quiesce = false) (base i v : Nat) :
    SMap.get none (s.putReg r base i v).shadows (r.off base i) = some (BitVec.ofNat 32 v) := by
  simp only [State.putReg, he, hq]
  simp

theorem State.csWrite_of_regAt {off src v base i : Nat} {r : Reg} (h : regAt off = some (r, base, i)) :
    s.csWrite src off v = s.regWrite src r base i v := by
  rw [State.csWrite, h]

theorem execRegisterWrite_dropped {src : Fid} {off : BitVec 26} (v : BitVec 32) (ha : assigned src.toNat = true)
    (h : s.prim = .test ∨ s.ownerAsleep off.toNat = true) : execRegisterWrite src off v s = .next s :=
  (if_neg (not_not_intro ha)).trans (if_pos h)

theorem execRegisterWrite_taken {src : Fid} {off : BitVec 26} (v : BitVec 32) (ha : assigned src.toNat = true)
    (hp : s.prim ≠ .test) (ho : s.ownerAsleep off.toNat = false) : execRegisterWrite src off v s = .next (s.csWrite src.toNat off.toNat v.toNat) :=
  (if_neg (not_not_intro ha)).trans (if_neg (by simp [hp, ho]))

theorem State.shadow_csWrite {src off v base i : Nat} {r : Reg} (h : regAt off = some (r, base, i))
    (hr : r = .SSB_RGNn_LO ∨ r = .SSB_RGNn_HI ∨ r = .ENG_CL_SRAMPA) :
    SMap.get none (s.csWrite src off v).shadows off = some (BitVec.ofNat 32 v) := by
  rw [State.csWrite_of_regAt h]
  have hoff := regAt_off h
  obtain rfl | rfl | rfl := hr
  · exact hoff ▸ State.shadow_putReg (by decide) (by decide) base i v
  · exact hoff ▸ State.shadow_putReg (by decide) (by decide) base i v
  · exact hoff ▸ State.shadow_putReg (by decide) (by decide) base i v

theorem State.csWrite_TIM_SET_NS (src v : Nat) : s.csWrite src 0xA14 v = s.putWord .TIM_SET_NS
    (Reg.TIM_SET_NS.spec.liveWord false (s.cycAt 0xA14).set (s.reg .TIM_SET_NS) v) := by
  rw [State.csWrite_of_regAt (r := .TIM_SET_NS) (base := 0) (i := 0) (by decide)]
  rfl

theorem liveWord_TIM_SET_NS (hw old v : Nat) : Reg.TIM_SET_NS.spec.liveWord false hw old v % 2 ^ 32 = v % 2 ^ 32 := by
  have h : fld (Field.write ⟨0, 32, .rw, 0, .live, false⟩ false hw old v) 0 32 = fld v 0 32 := Field.write_rw rfl
  simp only [fld, Nat.pow_zero, Nat.div_one] at h
  exact h

/-! #### The locks -/

theorem State.RegsOnly.undoWrite (h : s.RegsOnly t) (r : Reg) (base i : Nat) : s.RegsOnly (t.undoWrite r base i).2 := by
  unfold State.undoWrite
  split
  · exact h
  · exact h

theorem State.reg_undoWrite_other (r r' : Reg) (base i b' i' : Nat) (h : r'.off b' i' ≠ r.off base i) :
    (s.undoWrite r base i).2.reg r' b' i' = s.reg r' b' i' := by
  unfold State.undoWrite
  split
  · exact (State.reg_noteCyc ..).trans (State.reg_putWord_other _ _ _ _ _ _ _ _ h)
  · rfl

theorem State.RegsOnly.undoLocked (h : s.RegsOnly t) (lock : Reg) : s.RegsOnly (t.undoLocked lock) :=
  h.foldl (fun _ rn hu => hu.foldl (fun _ i hv => hv.undoWrite rn.1 0 i) (List.range rn.2)) (lockedBy lock)

/-- What a lock takes back is not the lock's own register. -/
theorem State.reg_undoLocked (lock r : Reg) (h : ∀ rn ∈ lockedBy lock, ∀ i < rn.2, r.off 0 0 ≠ rn.1.off 0 i) :
    (s.undoLocked lock).reg r = s.reg r := by
  refine List.foldlRecOn (motive := fun u : State => u.reg r = s.reg r) _ _ rfl fun u hu rn hrn => ?_
  refine List.foldlRecOn (motive := fun u : State => u.reg r = s.reg r) _ _ hu fun v hv i hi => ?_
  exact (State.reg_undoWrite_other _ _ _ _ _ _ (h rn hrn i (List.mem_range.mp hi))).trans hv

/-- A lock bit that is set stays set; else it is set and what it locks is taken back. -/
theorem State.lock_sets {lock : Reg} {lo : Nat} (hlo : lo + 1 ≤ 32) (hl : s.lockOf lock = (s.rf lock lo 1 == 1))
    (h : ∀ rn ∈ lockedBy lock, ∀ i < rn.2, lock.off 0 0 ≠ rn.1.off 0 i) :
    (if s.lockOf lock then s else (s.setRf lock lo 1 1).undoLocked lock).rf lock lo 1 = 1 := by
  split
  · next hs => simpa [hl] using hs
  · rw [State.rf, State.reg_undoLocked _ _ h]
    exact State.rf_setRf_same _ _ _ _ _ _ _ hlo

/-- Settles O12. -/
theorem registerWritesFollowTheFieldRules : Obligations.RegisterWritesFollowTheFieldRules := by
  refine ⟨fun s src off v ha h => execRegisterWrite_dropped v ha h, fun s src off v base i ha hp ho hr => ?_, fun s src v ha hp ho => ?_,
    fun f lk hw old v _ _ => ⟨Field.write_rw, Field.write_rwl, fun h => ⟨Field.write_w1c_clears h, fun i hi => Field.write_w1c_keeps h hi⟩,
      Field.write_w1s, Field.write_read_only⟩, fun s => ?_, fun s => ?_, fun s => ?_, fun s => ⟨rfl, rfl⟩⟩
  · obtain ⟨r, hreg, hr⟩ := hr
    refine ⟨_, execRegisterWrite_taken v ha hp ho, ?_⟩
    rw [State.shadow_csWrite hreg hr, BitVec.ofNat_toNat, BitVec.setWidth_eq]
  · refine ⟨_, (execRegisterWrite_taken (off := 0xA14) v ha hp ho).trans (congrArg _ (State.csWrite_TIM_SET_NS _ _)), ?_, rfl⟩
    rw [State.reg_putWord_same, liveWord_TIM_SET_NS, Nat.mod_eq_of_lt v.isLt]
  · exact ⟨_, rfl, State.lock_sets (by decide) rfl (by decide), State.RegsOnly.refl.ite ((State.RegsOnly.refl.setRf _ _ _ _ _ _).undoLocked _)⟩
  · exact ⟨_, rfl, State.rf_setRf_same _ _ _ _ _ _ _ (by decide), rfl⟩
  · exact ⟨_, rfl, State.lock_sets (by decide) rfl (by decide), State.RegsOnly.refl.ite ((State.RegsOnly.refl.setRf _ _ _ _ _ _).undoLocked _)⟩

end Sys2Proof.Machine

namespace Sys2Proof.Machine
variable {s t : State}

/-! ### Partner links -/

theorem PerNet.get_set (p : PerNet) (x c : Net) (v : Nat) : (p.set x v).get c = if c = x then v else p.get c := by
  cases x <;> cases c <;> rfl

theorem Ni.owed_giveInitial (n : Ni) (f : Nat) (c : Net) : (n.giveInitial f).owed.get c = if hasP2f f c then initialOf c else 0 := by
  simp only [Ni.giveInitial, nets, List.foldl_cons, List.foldl_nil, apply_ite (PerNet.get · c), PerNet.get_set]
  cases c <;> simp [PerNet.get]

theorem State.portLives_updNi (f f' : Nat) (g : Ni → Ni) : (s.updNi f g).portLives f' = s.portLives f' := rfl

/-- A port that waits for its partner sees P2F_LINK. -/
theorem State.nif_linkOn {f : Nat} (hl : (s.nif f).link = .waitPartner) (hp : (s.nif f).p2fLink = true) (hf : (s.nif f).f2pLink = true)
    (hm : (s.nif f).mustFall = false) : (s.linkOn f).nif f =
      if pclass f = 5 then { s.nif f with link := .cap, capv := true, linkAt := s.tick } else (s.nif f).giveInitial f := by
  simp only [State.linkOn]
  rw [if_pos (by simp [hl, hp, hf, hm])]
  split
  · rw [State.nif_setNi, if_pos rfl]
  · rw [State.nif_setNi, if_pos rfl]

theorem State.NiOnly.updNi {f : Nat} (h : s.NiOnly f t) (g : Ni → Ni) : s.NiOnly f (t.updNi f g) := h.setNi _

/-- P2F_LINK has risen at `f`. -/
def State.p2fRose (s : State) (f : Nat) : State := s.updNi f (fun n => { n with p2fLink := true })

theorem State.nif_p2fRose (f : Nat) : (s.p2fRose f).nif f = { s.nif f with p2fLink := true } := by
  rw [State.p2fRose, State.nif_updNi, if_pos rfl]

section
variable {fid : Fid} (hp : isPartner fid.toNat = true)
include hp

theorem execP2fLinkRise_waiting (hl : s.portLives fid.toNat = true) (hn : (s.nif fid.toNat).p2fLink = false)
    (hr : (s.nif fid.toNat).relink = false) : execP2fLinkRise fid s = .next ((s.p2fRose fid.toNat).linkOn fid.toNat) := by
  simp [execP2fLinkRise, hp, hn, hl, hr, State.portLives_updNi, State.p2fRose]

theorem execP2fLinkRise_dead (hl : s.portLives fid.toNat = false) (hn : (s.nif fid.toNat).p2fLink = false) :
    execP2fLinkRise fid s = .next (s.p2fRose fid.toNat) := by
  simp [execP2fLinkRise, hp, hn, hl, State.portLives_updNi, State.p2fRose]
end

/-- P2F_LINK has fallen at `f`. -/
def State.p2fFell (s : State) (f : Nat) : State := s.updNi f (fun n => { n with p2fLink := false, mustFall := false })

theorem State.nif_p2fFell (f : Nat) : (s.p2fFell f).nif f = { s.nif f with p2fLink := false, mustFall := false } := by
  rw [State.p2fFell, State.nif_updNi, if_pos rfl]

/-- The link-up that a fall of P2F_LINK abandons. -/
def State.linkAgain (s : State) (f : Nat) : State :=
  s.setNi f { (s.nif f).unlinked with link := .waitPartner, f2pLink := true, linkAt := s.tick }

section
variable {fid : Fid} (hp : isPartner fid.toNat = true) (hl : s.portLives fid.toNat = true) (hn : (s.nif fid.toNat).p2fLink = true)
include hp hl hn

theorem execP2fLinkFall_up (hup : (s.nif fid.toNat).link = .up) : execP2fLinkFall fid s = .next ((s.p2fFell fid.toNat).linkDrop fid.toNat) := by
  simp [execP2fLinkFall, hp, hn, hl, hup, State.portLives_updNi, State.p2fFell]

theorem execP2fLinkFall_linking (h : (s.nif fid.toNat).link ∈ [.waitPartner, .cap, .credit]) :
    execP2fLinkFall fid s = .next ((s.p2fFell fid.toNat).linkAgain fid.toNat) := by
  simp only [List.mem_cons, List.not_mem_nil, or_false] at h
  obtain h | h | h := h
  · simp [execP2fLinkFall, hp, hn, hl, h, State.portLives_updNi, State.p2fFell, State.linkAgain]
  · simp [execP2fLinkFall, hp, hn, hl, h, State.portLives_updNi, State.p2fFell, State.linkAgain]
  · simp [execP2fLinkFall, hp, hn, hl, h, State.portLives_updNi, State.p2fFell, State.linkAgain]
end

/-- The common word of a socket link is agreed. -/
def State.slAgreed (s : State) (f cap w : Nat) : State :=
  ((s.setReg .NI_SLCAP_FAR cap (niBase f)).setReg .NI_SLCAP_COMMON w (niBase f)).setNi f ((s.nif f).giveInitial f)

theorem State.RegsOnly.setNi (h : s.RegsOnly t) (f : Nat) (n : Ni) : { t.setNi f n with ni := s.ni, regs := s.regs, cyc := s.cyc } = s :=
  (congrArg (fun x : State => { x with ni := s.ni }) h :)

theorem State.reg_setNi (f : Nat) (n : Ni) (r : Reg) (b i : Nat) : (s.setNi f n).reg r b i = s.reg r b i := State.reg_congr rfl rfl _ _ _

theorem State.reg_slAgreed (f cap w : Nat) (hcap : cap < 2 ^ 32) : (s.slAgreed f cap w).reg .NI_SLCAP_FAR (niBase f) = cap ∧
    (s.slAgreed f cap w).reg .NI_SLCAP_COMMON (niBase f) = w % 2 ^ 32 := by
  unfold State.slAgreed
  rw [State.reg_setNi, State.reg_setNi, State.reg_setReg_same, State.reg_setReg_other _ _ _ _ _ _ _ _ (Reg.off_ne _ (by decide)),
    State.reg_setReg_same]
  exact ⟨Nat.mod_eq_of_lt hcap, rfl⟩

theorem execSlCapReceive_agreed {sl : Fin 6} {cap : BitVec 32} {w : Nat} (hl : (s.nif (0x120 + sl)).link = .cap)
    (hw : slCommon (s.reg .NI_SLCAP_OWN (niBase (0x120 + sl))) cap.toNat = some w)
    (hs : fld cap.toNat 6 3 ≠ fld (s.reg .NI_SLCAP_OWN (niBase (0x120 + sl))) 6 3) :
    execSlCapReceive sl cap s = .next (s.slAgreed (0x120 + sl) cap.toNat w) := by
  simp only [execSlCapReceive, hl, hw]
  exact if_neg hs

theorem execSlCapReceive_nocommon {sl : Fin 6} {cap : BitVec 32} (hl : (s.nif (0x120 + sl)).link = .cap)
    (h : slCommon (s.reg .NI_SLCAP_OWN (niBase (0x120 + sl))) cap.toNat = none ∨
      fld cap.toNat 6 3 = fld (s.reg .NI_SLCAP_OWN (niBase (0x120 + sl))) 6 3) :
    execSlCapReceive sl cap s = .next ((s.setReg .NI_SLCAP_FAR cap.toNat (niBase (0x120 + sl))).linkFail (0x120 + sl) .nocommon) := by
  simp only [execSlCapReceive, hl]
  cases hw : slCommon (s.reg .NI_SLCAP_OWN (niBase (0x120 + sl))) cap.toNat with
  | none => rfl
  | some w => exact if_pos (h.resolve_left (by simp [hw]))

theorem execLinkTimeout_late {fid : Fid} (hp : isPartner fid.toNat = true) (hw : (s.nif fid.toNat).link = .waitPartner ∧
      (s.nif fid.toNat).p2fLink = false ∧ (fid ≠ 0x126 ∨ s.prim ≠ .boot) ∨ (s.nif fid.toNat).link = .cap)
    (ht : (s.nif fid.toNat).linkAt + usTicks (max 1 (s.rf .NI_LINK 16 16 (niBase fid.toNat))) ≤ s.tick) :
    execLinkTimeout fid s = .next (s.linkFail fid.toNat .timeout) := by
  have hmg (h : fid ≠ 0x126 ∨ s.prim ≠ .boot) : (fid.toNat == 0x126 && s.prim == .boot) = false := by
    rw [Bool.and_eq_false_iff, beq_eq_false_iff_ne, beq_eq_false_iff_ne]
    exact h.imp_left fun h h' => h (BitVec.eq_of_toNat_eq h')
  simp only [execLinkTimeout, hp, decide_eq_true ht]
  obtain ⟨hl, hn, hb⟩ | hl := hw
  · simp [hl, hn, hmg hb]
  · simp [hl]

theorem execLinkTimeout_MG_in_boot (hb : s.prim = .boot) (hl : (s.nif 0x126).link = .waitPartner) : execLinkTimeout 0x126 s = .next s := by
  have h : ((0x126 : Fid).toNat) = 0x126 := rfl
  simp only [execLinkTimeout, h, hl, hb]
  simp [show isPartner 0x126 = true by decide]

/-- Settles O13. -/
theorem linksComeUpAndFall : Obligations.LinksComeUpAndFall := by
  refine ⟨⟨fun s fid hp hl hn hr hm hw hf => ?_, fun s fid hp hl hn => ?_⟩, fun s sl cap hl => ⟨fun w hw hs => ?_, fun h => ?_⟩,
    ⟨fun s fid hp hl hn hlink => ?_, fun s fid hp hl hn hup => ?_⟩,
    fun s fid hp hw ht => execLinkTimeout_late hp hw ht, fun s f st _ => ?_, fun s hb hl => execLinkTimeout_MG_in_boot hb hl⟩
  · have ho : s.NiOnly fid.toNat ((s.p2fRose fid.toNat).linkOn fid.toNat) := ((State.NiOnly.refl _).updNi _).linkOn
    have hnif : ((s.p2fRose fid.toNat).linkOn fid.toNat).nif fid.toNat = _ := State.nif_linkOn (by rw [State.nif_p2fRose, hw])
      (by rw [State.nif_p2fRose]) (by rw [State.nif_p2fRose, hf]) (by rw [State.nif_p2fRose, hm])
    refine ⟨_, execP2fLinkRise_waiting hp hl hn hr, ?_, fun h5 => ?_, fun h5 => ?_, ho.other, ho.rest⟩
    · rw [hnif]
      split
      · rw [State.nif_p2fRose]
      · rw [State.nif_p2fRose]; rfl
    · rw [hnif, if_pos h5]
      exact ⟨rfl, rfl⟩
    · rw [hnif, if_neg h5]
      exact ⟨rfl, fun c => Ni.owed_giveInitial _ _ _⟩
  · have ho : s.NiOnly fid.toNat (s.p2fRose fid.toNat) := (State.NiOnly.refl _).updNi _
    exact ⟨_, execP2fLinkRise_dead hp hl hn, State.nif_p2fRose _, ho.other, ho.rest⟩
  · obtain ⟨hfar, hcom⟩ := State.reg_slAgreed (s := s) (0x120 + sl) cap.toNat w cap.isLt
    refine ⟨_, execSlCapReceive_agreed hl hw hs, ?_, hfar, hcom,
      ((State.RegsOnly.refl.setReg _ _ _ _).setReg _ _ _ _).setNi _ _⟩
    rw [State.slAgreed, State.nif_setNi, if_pos rfl]
    rfl
  · exact ⟨_, (State.reg_setReg_same ..).trans (Nat.mod_eq_of_lt cap.isLt), State.RegsOnly.refl.setReg _ _ _ _, execSlCapReceive_nocommon hl h⟩
  · have ho : s.NiOnly fid.toNat ((s.p2fFell fid.toNat).linkAgain fid.toNat) := ((State.NiOnly.refl _).updNi _).setNi _
    have hnif : ((s.p2fFell fid.toNat).linkAgain fid.toNat).nif fid.toNat = { ((s.p2fFell fid.toNat).nif fid.toNat).unlinked with
        link := .waitPartner, f2pLink := true, linkAt := (s.p2fFell fid.toNat).tick } := by rw [State.linkAgain, State.nif_setNi, if_pos rfl]
    refine ⟨_, execP2fLinkFall_linking hp hl hn hlink, ?_, ?_, ?_, ?_, ?_, ho.other, ho.rest⟩
    · rw [hnif]
    · rw [hnif]
    · rw [hnif, State.nif_p2fFell]
      rfl
    · rw [hnif]; rfl
    · rw [hnif]; rfl
  · exact execP2fLinkFall_up hp hl hn hup
  · refine ⟨_, rfl, ?_, ?_, rfl⟩
    · rw [State.nif_updNi, if_pos rfl]
    · rw [State.nif_updNi, if_pos rfl]
      rfl

end Sys2Proof.Machine

namespace Sys2Proof.Machine
variable {s t : State}

/-! ### The sources of a wake -/

/-- Only power domains may differ from `s`. -/
def State.DomOnly (s t : State) : Prop := { t with dom := s.dom } = s

theorem State.DomOnly.refl : s.DomOnly s := Eq.refl s

theorem State.DomOnly.wakeLevel (h : s.DomOnly t) (d : Nat) : s.DomOnly (t.wakeLevel d) := iteInduction (fun _ => h) fun _ => h

theorem State.DomOnly.wakeEdge (h : s.DomOnly t) (d : Nat) : s.DomOnly (t.wakeEdge d) := iteInduction (fun _ => h) fun _ => h

theorem State.DomOnly.foldl {α : Type} {g : State → α → State} (h : s.DomOnly t) (hg : ∀ t x, s.DomOnly t → s.DomOnly (g t x)) (xs : List α) :
    s.DomOnly (xs.foldl g t) :=
  List.foldlRecOn xs g h fun t ht x _ => hg t x ht

theorem State.DomOnly.wakePin (h : s.DomOnly t) : t.wakePin = s.wakePin := (congrArg State.wakePin h :)

/-! #### A level wake -/

theorem State.wakeLevel_asleep {d : Nat} (h : (s.domain d).st ≠ 0) :
    s.wakeLevel d = s.setDomain d { s.domain d with wake := true, pend := none } := if_neg fun hd => h hd.1

theorem State.wakeLevel_in_run {d : Nat} (h : (s.domain d).st = 0) (hp : (s.domain d).phase = 0) : s.wakeLevel d = s := if_pos ⟨h, hp⟩

theorem State.wake_wakeLevel {d : Nat} (h : (s.domain d).st ≠ 0) : ((s.wakeLevel d).domain d).wake = true := by
  rw [State.wakeLevel_asleep h, State.domain_setDomain, if_pos rfl]

theorem State.domain_wakeLevel_other {d d' : Nat} (h : d' ≠ d) : (s.wakeLevel d).domain d' = s.domain d' :=
  iteInduction (motive := fun u : State => u.domain d' = s.domain d') (fun _ => rfl) fun _ => by rw [State.domain_setDomain, if_neg h]

theorem State.st_wakeLevel (d d' : Nat) : ((s.wakeLevel d).domain d').st = (s.domain d').st :=
  iteInduction (motive := fun u : State => (u.domain d').st = (s.domain d').st) (fun _ => rfl) fun _ => by
    rw [State.domain_setDomain]
    split
    · next h => rw [h]
    · rfl

theorem State.wake_foldl_wakeLevel {d : Nat} {ds : List Nat} (h : (s.domain d).st ≠ 0) (hd : d ∈ ds ∨ (s.domain d).wake = true) :
    ((ds.foldl State.wakeLevel s).domain d).wake = true := by
  induction ds generalizing s with
  | nil => exact hd.resolve_left List.not_mem_nil
  | cons x ds ih =>
    refine ih (by rwa [State.st_wakeLevel]) ?_
    by_cases hx : d = x
    · exact .inr (hx ▸ State.wake_wakeLevel h)
    · rw [State.domain_wakeLevel_other hx]
      exact hd.imp_left fun hm => (List.mem_cons.mp hm).resolve_left hx

/-! #### An edge wake -/

theorem State.wakeEdge_taken {d : Nat} (h : (s.domain d).st ≠ 0) (hc : (s.domain d).commit = none) :
    s.wakeEdge d = s.setDomain d { s.domain d with edge := some s.tick, pend := none } := by
  simp [State.wakeEdge, h, hc]

theorem State.domain_wakeEdge_other {d d' : Nat} (h : d' ≠ d) : (s.wakeEdge d).domain d' = s.domain d' := by
  unfold State.wakeEdge
  refine iteInduction (motive := fun u : State => u.domain d' = s.domain d') (fun _ => rfl) fun _ => ?_
  rw [State.domain_setDomain, if_neg h]

theorem State.tick_wakeEdge (d : Nat) : (s.wakeEdge d).tick = s.tick :=
  iteInduction (motive := fun u : State => u.tick = s.tick) (fun _ => rfl) fun _ => rfl

/-- Domain `d` is below Run and the commit point of an entry has not passed. -/
def Dom.takesEdge (x : Dom) : Prop := x.st ≠ 0 ∧ x.commit = none

theorem State.takesEdge_wakeEdge {d : Nat} (d' : Nat) (h : (s.domain d).takesEdge) : ((s.wakeEdge d').domain d).takesEdge := by
  by_cases e : d = d'
  · subst e
    rw [State.wakeEdge_taken h.1 h.2, State.domain_setDomain, if_pos rfl]
    exact h
  · rwa [State.domain_wakeEdge_other e]

theorem State.edge_foldl_wakeEdge {d n : Nat} {ds : List Nat} (h : (s.domain d).takesEdge) (hn : s.tick = n)
    (hd : d ∈ ds ∨ (s.domain d).edge = some n) : ((ds.foldl State.wakeEdge s).domain d).edge = some n := by
  induction ds generalizing s with
  | nil => exact hd.resolve_left List.not_mem_nil
  | cons x ds ih =>
    refine ih (State.takesEdge_wakeEdge x h) ((State.tick_wakeEdge x).trans hn) ?_
    by_cases hx : d = x
    · subst hx
      rw [State.wakeEdge_taken h.1 h.2, State.domain_setDomain, if_pos rfl]
      exact .inr (congrArg some hn)
    · rw [State.domain_wakeEdge_other hx]
      exact hd.imp_left fun hm => (List.mem_cons.mp hm).resolve_left hx

/-! #### The commands -/

/-- The WAKE pin at a level. -/
def State.pinAt (s : State) (level : Bool) : State := { s with wakePin := level }

theorem execWakePin_eq (level : Bool) : execWakePin level s = .next (if s.rf .PWR_WAKE_CFG 0 1 = 1 then
    (if level && !s.wakePin then s.pinDoms.foldl State.wakeEdge (s.pinAt level) else s.pinAt level)
    else if level then s.pinDoms.foldl State.wakeLevel (s.pinAt level) else s.pinAt level) :=
  (apply_ite Host.Outcome.next _ _ _).symm

theorem State.DomOnly.of_pin {u : State} (h : (s.pinAt true).DomOnly u) : { u with dom := s.dom, wakePin := s.wakePin } = s :=
  (congrArg (fun x : State => { x with wakePin := s.wakePin }) h :)

theorem execP2fBeat_asleep {fid : Fid} {b : Beat} (hp : isPartner fid.toNat = true) (hf : hasP2f fid.toNat b.net = true) (hh : s.prim ≠ .halt)
    (hl : (s.nif fid.toNat).f2pLink = true) (hd : (s.domain (niDomain fid.toNat)).st ≠ 0) :
    execP2fBeat fid b s = .next (s.wakeLevel (niDomain fid.toNat)) := by
  simp [execP2fBeat, hp, hf, hh, hl, State.awake, hd]

theorem execAniseDetect_taken {sl : Fin 6} (hd : 2 ≤ (s.domain 1).st) (hc : s.rf .PWR_WAKE_CFG (18 + sl) 1 = 1) :
    ∃ ds, execAniseDetect sl s = .next ((1 :: ds).foldl State.wakeEdge s) :=
  ⟨_, if_neg (by omega)⟩

/-- Settles O15. -/
theorem wakeSources : Obligations.WakeSources := by
  refine ⟨fun s fid hp hd => ?_, fun s fid hp hd hph => ?_, fun s fid b hp hf hh hl hd => ?_, fun s hc => ?_, fun s hc hw => ?_, fun s hc hw => ?_,
    fun s => ?_, fun s sl hd hc hcom => ?_⟩
  · exact ⟨_, if_neg (by simp [hp]), State.wake_wakeLevel hd, fun d h => State.domain_wakeLevel_other h, State.DomOnly.refl.wakeLevel _⟩
  · exact (if_neg (by simp [hp])).trans (congrArg _ (State.wakeLevel_in_run hd hph))
  · refine ⟨_, execP2fBeat_asleep hp hf hh hl hd, State.wake_wakeLevel hd, ?_, fun d h => State.domain_wakeLevel_other h,
      State.DomOnly.refl.wakeLevel _⟩
    rw [State.wakeLevel_asleep hd]
    rfl
  · refine ⟨_, (execWakePin_eq true).trans (congrArg _ ((if_neg (by simp [hc])).trans (if_pos rfl))), ?_, fun d hd hst => ?_, ?_⟩
    · exact (State.DomOnly.refl.foldl (s := s.pinAt true) (fun _ d h => h.wakeLevel d) _).wakePin
    · exact State.wake_foldl_wakeLevel hst (.inl hd)
    · exact (State.DomOnly.refl.foldl (fun _ d h => h.wakeLevel d) _).of_pin
  · refine (execWakePin_eq true).trans (congrArg _ ((if_pos hc).trans ((if_neg (by simp [hw])).trans ?_)))
    rw [State.pinAt, ← hw]
  · refine ⟨_, (execWakePin_eq true).trans (congrArg _ ((if_pos hc).trans (if_pos (by simp [hw])))), ?_, fun d hd hst hcom => ?_, ?_⟩
    · exact (State.DomOnly.refl.foldl (s := s.pinAt true) (fun _ d h => h.wakeEdge d) _).wakePin
    · exact State.edge_foldl_wakeEdge (s := s.pinAt true) ⟨hst, hcom⟩ rfl (.inl hd)
    · exact (State.DomOnly.refl.foldl (fun _ d h => h.wakeEdge d) _).of_pin
  · refine (execWakePin_eq false).trans (congrArg _ ?_)
    simp only [Bool.false_and, Bool.false_eq_true, if_false, ite_self]
    rfl
  · obtain ⟨ds, e⟩ := execAniseDetect_taken (sl := sl) hd hc
    exact ⟨_, e, State.edge_foldl_wakeEdge ⟨by omega, hcom⟩ rfl (.inl List.mem_cons_self), State.DomOnly.refl.foldl (fun _ d h => h.wakeEdge d) _⟩

end Sys2Proof.Machine

namespace Sys2Proof.Machine
variable {s t : State}

theorem State.nif_congr (h : t.ni = s.ni) (f : Nat) : t.nif f = s.nif f := by rw [State.nif, h, State.nif]

/-! ### Beats and credits of a partner port -/

/-- Only what a beat towards the fabric changes may differ from `s`: its interface, its partner's cache, and the counts of its bytes. -/
def State.BeatOnly (s t : State) : Prop :=
  { t with ni := s.ni, cache := s.cache, bw := s.bw, ctr := s.ctr, regs := s.regs, cyc := s.cyc } = s

theorem State.BeatOnly.setRf (h : s.BeatOnly t) (r : Reg) (lo w x b i : Nat) : s.BeatOnly (t.setRf r lo w x b i) := h

theorem State.BeatOnly.of_ctr (h : s.BeatOnly t) (c : SMap Nat) : s.BeatOnly { t with ctr := c } := h

theorem State.BeatOnly.count (h : s.BeatOnly t) (b i n : Nat) : s.BeatOnly (t.count b i n) :=
  iteInduction (motive := s.BeatOnly) (fun _ => h) fun _ => iteInduction (fun _ => h.of_ctr _) fun _ =>
    iteInduction (fun _ => iteInduction (fun _ => (h.of_ctr _).of_ctr _) fun _ => ((h.of_ctr _).of_ctr _).setRf ..) fun _ => (h.of_ctr _).setRf ..

theorem State.BeatOnly.portBytes (h : s.BeatOnly t) (f dir n : Nat) : s.BeatOnly (t.portBytes f dir n) :=
  iteInduction (motive := s.BeatOnly) (fun _ => h) fun _ => iteInduction (fun _ => h.count ..) fun _ => h.count ..

theorem State.portBytes_ni (f dir n : Nat) : (s.portBytes f dir n).ni = s.ni :=
  iteInduction (motive := fun t : State => t.ni = s.ni) (fun _ => rfl) fun _ =>
    iteInduction (motive := fun t : State => t.ni = s.ni) (fun _ => State.count_ni ..) fun _ => State.count_ni ..

/-- Only partner caches may differ from `s`. -/
def State.CacheOnly (s t : State) : Prop := { t with cache := s.cache } = s

theorem State.CacheOnly.ni (h : s.CacheOnly t) : t.ni = s.ni := (congrArg State.ni h :)
theorem State.CacheOnly.bw (h : s.CacheOnly t) : t.bw = s.bw := (congrArg State.bw h :)
theorem State.CacheOnly.ctr (h : s.CacheOnly t) : t.ctr = s.ctr := (congrArg State.ctr h :)
theorem State.CacheOnly.regs (h : s.CacheOnly t) : t.regs = s.regs := (congrArg State.regs h :)

theorem State.CacheOnly.beatOnly {u : State} (h : t.CacheOnly u) (ht : s.BeatOnly t) : s.BeatOnly u :=
  (congrArg (fun x : State => { x with ni := s.ni, cache := s.cache, bw := s.bw, ctr := s.ctr, regs := s.regs, cyc := s.cyc }) h :).trans ht

theorem State.cacheRequest_cacheOnly (f : Nat) (h : Beat) (ops : List Word64) : s.CacheOnly (s.cacheRequest f h ops) := by
  unfold State.cacheRequest
  dsimp only
  split
  · rfl
  · exact List.foldlRecOn (motive := s.CacheOnly) _ _ (Eq.refl s) fun _ ht _ _ => ht
  · rfl

theorem State.cacheRequest_of_not_caching {f : Nat} (hf : isCaching f = false) (h : Beat) (ops : List Word64) : s.cacheRequest f h ops = s := by
  simp [State.cacheRequest, hf]

theorem State.cacheWbData_cacheOnly (f : Nat) (b : Beat) : s.CacheOnly (s.cacheWbData f b) := by
  unfold State.cacheWbData
  split <;> rfl

theorem State.wbBeat_of_not_data {f : Nat} {b : Beat} (h : b.net ≠ .dat) : s.wbBeat f b = b := by
  simp [State.wbBeat, State.wbLine, h]

theorem State.net_wbBeat (f : Nat) (b : Beat) : (s.wbBeat f b).net = b.net := by
  unfold State.wbBeat
  split
  · split <;> rfl
  · rfl

theorem State.last_wbBeat (f : Nat) (b : Beat) : (s.wbBeat f b).last = b.last := by
  unfold State.wbBeat
  split
  · split <;> rfl
  · rfl

theorem beatBytes_of_not_data {b : Beat} (h : b.net ≠ .dat) : beatBytes b = 0 := by simp [beatBytes, h]

/-- `t` is `s` after the port has taken beat `b`, before the partner's cache follows. -/
def State.taken (s : State) (f : Nat) (b : Beat) : State := (s.partnerBeat f (s.wbBeat f b)).portBytes f 0 (beatBytes (s.wbBeat f b))

theorem State.taken_ni (f : Nat) (b : Beat) : (s.taken f b).ni = (s.partnerBeat f (s.wbBeat f b)).ni := State.portBytes_ni ..

theorem State.taken_beatOnly (f : Nat) (b : Beat) : s.BeatOnly (s.taken f b) := State.BeatOnly.portBytes (show s.BeatOnly (s.partnerBeat f _) from rfl) ..

theorem State.taken_of_not_data {f : Nat} {b : Beat} (h : b.net ≠ .dat) : s.taken f b = s.partnerBeat f b := by
  rw [State.taken, State.wbBeat_of_not_data h, beatBytes_of_not_data h]
  rfl

/-- A beat that uses a credit is taken, and the caches alone follow it. -/
theorem execP2fBeat_taken {fid : Fid} {b : Beat} (hp : isPartner fid.toNat = true) (hf : hasP2f fid.toNat b.net = true)
    (ha : s.awake fid.toNat = true) (hl : (s.nif fid.toNat).link = .up) (hh : s.prim ≠ .halt) (hg : (s.nif fid.toNat).given.get b.net ≠ 0)
    (hr : b.net = .req → (s.nif fid.toNat).openMsg .req = [] → s.mayRequest fid.toNat b = true) :
    ∃ t, execP2fBeat fid b s = .next t ∧ (s.taken fid.toNat b).CacheOnly t ∧
      (b.net ≠ .dat → isCaching fid.toNat = false ∨ b.net ≠ .req ∨ b.last = false → t = s.taken fid.toNat b) := by
  have hlink : (s.nif fid.toNat).f2pLink = true := (Bool.and_eq_true_iff.mp ha).1
  have hreq : ¬(((b.net == .req) && ((s.nif fid.toNat).openMsg .req).isEmpty) = true ∧ ¬s.mayRequest fid.toNat b = true) := by
    simp only [Bool.and_eq_true, beq_iff_eq, List.isEmpty_iff]
    exact fun h => h.2 (hr h.1.1 h.1.2)
  unfold execP2fBeat
  rw [if_neg (by simp [hp, hf]), if_neg (by simp [hh, hlink]), if_neg (by simp [ha]), if_neg (by simp [hl]), if_neg hreq, if_neg hg]
  dsimp only
  rw [State.net_wbBeat, State.last_wbBeat]
  split
  next hlast =>
    split
    · exact ⟨_, rfl, State.cacheRequest_cacheOnly .., fun _ h => State.cacheRequest_of_not_caching (by simpa [hlast] using h) ..⟩
    · exact ⟨_, rfl, rfl, fun _ _ => rfl⟩
  next =>
    split
    next hd => exact ⟨_, rfl, State.cacheWbData_cacheOnly .., fun h => absurd hd h⟩
    next => exact ⟨_, rfl, rfl, fun _ _ => rfl⟩

theorem execP2fBeat_overrun {fid : Fid} {b : Beat} (hp : isPartner fid.toNat = true) (hf : hasP2f fid.toNat b.net = true)
    (ha : s.awake fid.toNat = true) (hl : (s.nif fid.toNat).link = .up) (hh : s.prim ≠ .halt) (hg : (s.nif fid.toNat).given.get b.net = 0)
    (hr : b.net = .req → (s.nif fid.toNat).openMsg .req = [] → s.mayRequest fid.toNat b = true) :
    execP2fBeat fid b s = .next (((s.captureNi fid.toNat 12 { net := b.net, opc := b.opc }).linkDrop fid.toNat).updNi fid.toNat
      (fun n => { n with mustFall := n.p2fLink })) := by
  have hlink : (s.nif fid.toNat).f2pLink = true := (Bool.and_eq_true_iff.mp ha).1
  unfold execP2fBeat
  rw [if_neg (by simp [hp, hf]), if_neg (by simp [hh, hlink]), if_neg (by simp [ha]), if_neg (by simp [hl]), if_neg, if_pos hg]
  simp only [Bool.and_eq_true, beq_iff_eq, List.isEmpty_iff]
  exact fun h => h.2 (hr h.1.1 h.1.2)

theorem isPartner_of_caching {f : Nat} (h : isCaching f = true) : isPartner f = true := by
  have hf : f < 0x80 ∨ f < 0xC0 ∨ (0x120 ≤ f ∧ f < 0x126) := by
    unfold isCaching cacheIdx at h
    grind
  have ha : assigned f = true := by simp [assigned]; omega
  have hc : pclass f = 0 ∨ pclass f = 1 ∨ pclass f = 5 := by
    unfold pclass
    grind
  rcases hc with e | e | e <;> simp [isPartner, ha, e]

theorem execP2fBeat_forbidden {fid : Fid} {b : Beat} (hc : isCaching fid.toNat = true) (hn : b.net = .req)
    (hm : s.mayRequest fid.toNat b = false) (hf : hasP2f fid.toNat b.net = true) (ha : s.awake fid.toNat = true)
    (ho : (s.nif fid.toNat).openMsg .req = []) : execP2fBeat fid b s = .next s := by
  unfold execP2fBeat
  rw [if_neg (by simp [isPartner_of_caching hc, hf])]
  refine iteInduction (motive := fun o : Host.Outcome State Fault Refusal => o = .next s) (fun _ => rfl) fun _ => ?_
  rw [if_neg (by simp [ha])]
  exact iteInduction (motive := fun o : Host.Outcome State Fault Refusal => o = .next s) (fun _ => rfl) fun _ => if_pos (by simp [hn, ho, hm])

/-! #### Credits -/

theorem State.linkCheck_cases (f : Nat) : s.linkCheck f = s ∨ s.linkCheck f = s.setNi f { s.nif f with link := .up } :=
  iteInduction (motive := fun t => t = s ∨ t = s.setNi f { s.nif f with link := .up }) (fun _ => .inr rfl) fun _ => .inl rfl

/-- What `linkCheck` leaves of an interface is all but its link state. -/
theorem State.nif_linkCheck (f : Nat) : ∃ l, (s.linkCheck f).nif f = { s.nif f with link := l } := by
  rcases State.linkCheck_cases (s := s) f with e | e
  · exact ⟨_, congrArg (State.nif · f) e⟩
  · rw [e, State.nif_setNi, if_pos rfl]
    exact ⟨_, rfl⟩

theorem State.NiOnly.linkCheck {f : Nat} (h : s.NiOnly f t) : s.NiOnly f (t.linkCheck f) := by
  rcases State.linkCheck_cases (s := t) f with e | e
  · rwa [e]
  · rw [e]
    exact h.setNi _

theorem State.linkCheck_up {f : Nat} (hl : (s.nif f).link = .credit) (ho : ∀ c, hasP2f f c = true → (s.nif f).owed.get c = 0)
    (hg : ∀ c, hasF2p f c = true → leastOf c ≤ (s.nif f).got.get c) : ((s.linkCheck f).nif f).link = .up := by
  have hp : nets.all (fun c => !hasP2f f c || (s.nif f).owed.get c == 0) = true :=
    List.all_eq_true.mpr fun c _ => by cases h : hasP2f f c <;> simp [ho c, h]
  have hq : nets.all (fun c => !hasF2p f c || decide (leastOf c ≤ (s.nif f).got.get c)) = true :=
    List.all_eq_true.mpr fun c _ => by cases h : hasF2p f c <;> simp [hg c, h]
  rw [State.linkCheck, if_pos ⟨hl, hp, hq⟩, State.nif_setNi, if_pos rfl]

theorem Ni.cred_drainWait {n : Ni} (h : n.f2pWait = []) : n.drainWait.cred = n.cred := by rw [Ni.drainWait, h, List.foldl_nil]

theorem execCreditReturn_toPartner {fid : Fid} {c : Net} (hp : isPartner fid.toNat = true) (hf : hasP2f fid.toNat c = true)
    (hl : (s.nif fid.toNat).link = .credit ∨ (s.nif fid.toNat).link = .up) (hh : s.prim ≠ .halt)
    (ho : (s.nif fid.toNat).owed.get c ≠ 0) (hg : (s.nif fid.toNat).given.get c < 63) :
    execCreditReturn fid c true s = .next ((s.setNi fid.toNat { s.nif fid.toNat with
      owed := (s.nif fid.toNat).owed.set c ((s.nif fid.toNat).owed.get c - 1)
      given := (s.nif fid.toNat).given.set c ((s.nif fid.toNat).given.get c + 1) }).linkCheck fid.toNat) := by
  have hlink : ¬(((s.nif fid.toNat).link ≠ .credit ∧ (s.nif fid.toNat).link ≠ .up ∧ (true = true ∨ (s.nif fid.toNat).link ≠ .cap)) ∨ s.prim = .halt) := by
    rcases hl with h | h <;> simp [h, hh]
  unfold execCreditReturn
  rw [if_neg (by simp [hp, hf]), if_neg hlink, if_pos rfl, if_neg (by omega)]

theorem execCreditReturn_toFabric {fid : Fid} {c : Net} (hp : isPartner fid.toNat = true) (hf : hasF2p fid.toNat c = true)
    (hl : (s.nif fid.toNat).link = .up ∨ (s.nif fid.toNat).link = .cap) (hh : s.prim ≠ .halt) (hc : (s.nif fid.toNat).cred.get c < 63)
    (hw : (s.nif fid.toNat).f2pWait = []) : ∃ n : Ni, execCreditReturn fid c false s = .next ((s.setNi fid.toNat n).linkCheck fid.toNat) ∧
      n.cred.get c = (s.nif fid.toNat).cred.get c + 1 := by
  have hlink : ¬(((s.nif fid.toNat).link ≠ .credit ∧ (s.nif fid.toNat).link ≠ .up ∧ (false = true ∨ (s.nif fid.toNat).link ≠ .cap)) ∨ s.prim = .halt) := by
    rcases hl with h | h <;> simp [h, hh]
  unfold execCreditReturn
  rw [if_neg (by simp [hp, hf]), if_neg hlink, if_neg Bool.false_ne_true, if_neg (by omega)]
  refine ⟨_, rfl, (congrArg (PerNet.get · c) (Ni.cred_drainWait ?_)).trans ?_⟩
  · split <;> exact hw
  · split <;> exact (PerNet.get_set _ c c _).trans (if_pos rfl)

/-- Settles O14. -/
theorem beatsAndCredits : Obligations.BeatsAndCredits := by
  refine ⟨⟨fun s fid b hp hf ha hl hh hg hr => ?_, fun s fid b => execP2fBeat_overrun, fun s fid b hc hn hm hf ha ho => execP2fBeat_forbidden hc hn hm hf ha ho⟩,
    fun s fid c hp hf hl hh ho hg => ?_, fun s fid c hp hf hl hh hc hw => ?_, fun s f => State.linkCheck_up⟩
  · obtain ⟨t, e, ht, htn⟩ := execP2fBeat_taken hp hf ha hl hh hg hr
    have hni : ∀ f, t.nif f = (s.partnerBeat fid.toNat (s.wbBeat fid.toNat b)).nif f := fun f =>
      State.nif_congr (ht.ni.trans (State.taken_ni ..)) f
    have hself : t.nif fid.toNat = _ := (hni _).trans ((State.nif_updNi ..).trans (if_pos rfl))
    refine ⟨t, e, ?_, ?_, fun f hne => ?_, ht.beatOnly (State.taken_beatOnly ..), fun hd => ?_, fun hd h => ?_⟩
    · rw [hself]
    · rw [hself, State.net_wbBeat, PerNet.get_set, if_pos rfl]
      omega
    · exact (hni f).trans ((State.nif_updNi ..).trans (if_neg hne))
    · have hu := State.taken_of_not_data (s := s) (f := fid.toNat) hd
      exact ⟨State.wbBeat_of_not_data hd, ht.bw.trans (congrArg State.bw hu :), ht.ctr.trans (congrArg State.ctr hu :), ht.regs.trans (congrArg State.regs hu :)⟩
    · exact (congrArg State.cache ((htn hd h).trans (State.taken_of_not_data hd)) :)
  · obtain ⟨l, hn⟩ := State.nif_linkCheck (s := s.setNi fid.toNat { s.nif fid.toNat with
      owed := (s.nif fid.toNat).owed.set c ((s.nif fid.toNat).owed.get c - 1)
      given := (s.nif fid.toNat).given.set c ((s.nif fid.toNat).given.get c + 1) }) fid.toNat
    rw [State.nif_setNi, if_pos rfl] at hn
    have hk := ((State.NiOnly.refl (t := s) fid.toNat).setNi { s.nif fid.toNat with
      owed := (s.nif fid.toNat).owed.set c ((s.nif fid.toNat).owed.get c - 1)
      given := (s.nif fid.toNat).given.set c ((s.nif fid.toNat).given.get c + 1) }).linkCheck
    refine ⟨_, execCreditReturn_toPartner hp hf hl hh ho hg, ?_, ?_, fun c' hne => ?_, hk.other, hk.rest⟩
    · rw [hn]
      dsimp only
      rw [PerNet.get_set, if_pos rfl]
      omega
    · rw [hn]
      exact (PerNet.get_set ..).trans (if_pos rfl)
    · rw [hn]
      exact (PerNet.get_set ..).trans (if_neg hne)
  · obtain ⟨n, e, hc⟩ := execCreditReturn_toFabric hp hf hl hh hc hw
    obtain ⟨l, hn⟩ := State.nif_linkCheck (s := s.setNi fid.toNat n) fid.toNat
    rw [State.nif_setNi, if_pos rfl] at hn
    have hk := ((State.NiOnly.refl (t := s) fid.toNat).setNi n).linkCheck
    exact ⟨_, e, by rw [hn]; exact hc, hk.other, hk.rest⟩

end Sys2Proof.Machine

namespace Sys2Proof.Machine
variable {s t : State}

/-! ### The program port and the verification of an image -/

theorem execPrgStart_begins {src : Fid} (ha : assigned src.toNat = true) (hb : s.prim = .boot → src = 0x126) :
    execPrgStart src s = .next (s.prgBegin src.toNat) := by
  unfold execPrgStart
  rw [if_neg (by simp [ha]), if_neg fun h => h.2 (hb h.1)]

/-- A reception begins in a state that only the mode, the program and one status field tell from `s`. -/
theorem State.prgBegin_begins (src : Nat) (ht : s.prim ≠ .test) (hh : s.prim ≠ .halt) (hb : s.prg.busy = false) :
    (s.prgBegin src).prg.state = .receiving ∧ (s.prgBegin src).prg.store = [] ∧ (s.prgBegin src).prg.pc = 0 ∧
      (s.prgBegin src).prim = (if s.prim = .boot then .load else s.prim) ∧ (s.prgBegin src).rf .PRG_STATUS 8 5 = 0 ∧
      { s.prgBegin src with prg := s.prg, prim := s.prim, regs := s.regs, cyc := s.cyc } = s := by
  unfold State.prgBegin
  rw [if_neg (by simp [ht, hh]), if_neg (by simp [hb])]
  exact ⟨rfl, rfl, rfl, rfl, (State.rf_congr rfl rfl ..).trans (State.rf_setRf_same s .PRG_STATUS 8 5 0 0 0 (by decide)), rfl⟩

theorem State.prgBegin_busy (src : Nat) (ht : s.prim ≠ .test) (hh : s.prim ≠ .halt) (hb : s.prg.busy = true) :
    s.prgBegin src = s.setRf .PRG_STATUS 17 1 1 := by
  unfold State.prgBegin
  rw [if_neg (by simp [ht, hh]), if_pos hb]

/-- Bytes within the image header join the store. -/
theorem State.prgData_header {src : Nat} {data : List Byte} (hr : s.prg.state = .receiving) (hf : s.prg.fetching = false)
    (hl : data.length = 4 ∨ data.length = 64) (hb : s.prg.store.length + data.length < 256) : s.prgData src data =
      { s with prg := { s.prg with store := s.prg.store ++ data, writer := s.prg.writer && s.ruleWriter == some src } } := by
  have hlen : (s.prg.store ++ data).length < 256 := by rwa [List.length_append]
  unfold State.prgData
  rw [if_neg (by simp [hr, hf]; omega)]
  simp only [if_neg (show ¬(s.prg.store.length < 256 ∧ 256 ≤ (s.prg.store ++ data).length) by omega)]
  exact if_pos (.inl hlen)

theorem State.prgAbandon_before_verified (h : s.prg.state = .receiving ∨ s.prg.state = .verifying) : s.prgAbandon = s.stopSeq 0xE := if_pos h

theorem State.prgAbandon_armed (h : s.prg.state = .executing) (hw : s.prg.wait = .epsw) (hm : s.epo.missing = []) :
    s.prgAbandon = { s with prg := { s.prg with abort := true } } := by
  unfold State.prgAbandon
  rw [if_neg (by simp [h]), if_pos h, if_neg (by simp [hw, hm])]

/-! #### A stop of the sequence -/

/-- The state of a stopped image whose switch is disarmed, before the shadow banks and the fault. -/
def State.stopMarked (s : State) (e : Nat) : State :=
  (({ s with prg := { s.prg with state := .failed, wait := .none, abort := false, unfence := [], fenced := [], clove := none,
                                 fetching := false } } : State).setRf .PRG_STATUS 8 5 e).disarm

theorem State.rf_stopMarked (e : Nat) : (s.stopMarked e).rf .PRG_STATUS 8 5 = e % 32 :=
  (State.rf_congr rfl rfl ..).trans (State.rf_setRf_same _ .PRG_STATUS 8 5 e 0 0 (by decide))

/-- The shadow banks of a stopped image: kept after VCRC or in DUAL, else a copy of the active ones. -/
def State.stopShadow (s : State) (e : Nat) : State :=
  if e = 0xC ∨ s.epo.dual = true then s.stopMarked e else (s.stopMarked e).resetShadow true

/-- Only the tables may differ from `s`. -/
def State.TabsOnly (s t : State) : Prop := { t with tabs := s.tabs } = s

theorem State.TabsOnly.prg (h : s.TabsOnly t) : t.prg = s.prg := (congrArg State.prg h :)
theorem State.TabsOnly.epo (h : s.TabsOnly t) : t.epo = s.epo := (congrArg State.epo h :)
theorem State.TabsOnly.prim (h : s.TabsOnly t) : t.prim = s.prim := (congrArg State.prim h :)
theorem State.TabsOnly.rf (h : s.TabsOnly t) (r : Reg) (lo w b i : Nat) : t.rf r lo w b i = s.rf r lo w b i :=
  State.rf_congr (congrArg State.regs h :) (congrArg State.fuses h :) ..

theorem State.stopShadow_tabsOnly (e : Nat) : (s.stopMarked e).TabsOnly (s.stopShadow e) := by
  unfold State.stopShadow
  split <;> rfl

theorem State.stopShadow_tabs (e : Nat) :
    (s.stopShadow e).tabs = if e = 0xC ∨ s.epo.dual = true then s.tabs else (s.resetShadow true).tabs :=
  apply_ite State.tabs ..

theorem State.pump_of_nil (h : s.prg.waiting = []) : s.pump = s := by
  unfold State.pump
  rw [h]
  exact ite_self _

/-- Without Clove images a stop is the marking, the shadow banks and PROGRAM at L1. -/
theorem State.stopSeq_eq (e : Nat) (hw : s.prg.waiting = []) (hc : s.prg.clove = none) :
    s.stopSeq e = (s.stopShadow e).raiseSpine 28 12 1 (fidUnit 0x180) := by
  have hstop : s.prgStop e = (s.stopShadow e).raiseSpine 28 12 1 (fidUnit 0x180) := by
    unfold State.prgStop
    rw [hc]
    rfl
  rw [State.stopSeq, hstop]
  exact State.pump_of_nil ((congrArg PrgSt.waiting (s.stopShadow_tabsOnly e).prg).trans hw)

theorem State.stopSeq_stops (e : Nat) (hw : s.prg.waiting = []) (hc : s.prg.clove = none) : (s.stopSeq e).prg.state = .failed ∧
    (s.stopSeq e).rf .PRG_STATUS 8 5 = e % 32 ∧ (s.stopSeq e).epo.t = none ∧ (s.stopSeq e).epo.cur = s.epo.cur ∧
    (∃ r ∈ (s.stopSeq e).fc.queue, r.src = 32 * 28 + 12 ∧ 1 ≤ r.level) ∧ (s.stopSeq e).prim = s.prim := by
  have hrest := s.stopShadow_tabsOnly e
  have hprg : (s.stopShadow e).prg.state = .failed := congrArg PrgSt.state hrest.prg
  have hepo : (s.stopShadow e).epo.t = none ∧ (s.stopShadow e).epo.cur = s.epo.cur := ⟨(congrArg EpoSt.t hrest.epo :), (congrArg EpoSt.cur hrest.epo :)⟩
  have hprim : (s.stopShadow e).prim = s.prim := hrest.prim
  obtain ⟨r, hr, hsrc, hlvl, -⟩ := (s.stopShadow e).raiseSpine_mem 28 12 1 (fidUnit 0x180) 0 false
  rw [State.stopSeq_eq e hw hc, State.rf_raiseSpine, hrest.rf, s.rf_stopMarked e]
  exact ⟨hprg, rfl, hepo.1, hepo.2, ⟨r, hr, hsrc, hlvl⟩, hprim⟩

/-- Settles O16. -/
theorem programPortAndVerification : Obligations.ProgramPortAndVerification := by
  refine ⟨⟨fun s src ha ht hh hb hsrc => ?_, fun s src ha hn ht hh hb => ?_, fun s src data ha hr hf hl hb => ?_, fun s src data ha hr => ?_,
    fun s h => congrArg Host.Outcome.next (State.prgAbandon_before_verified h), fun s h hw hm => congrArg Host.Outcome.next (State.prgAbandon_armed h hw hm)⟩,
    fun s hh hv hi => ?_, fun s e hh hv hi => ?_, fun s e hw hc => ?_⟩
  · obtain ⟨hst, hstore, hpc, hprim, hrf, hrest⟩ := s.prgBegin_begins src.toNat ht hh hb
    exact ⟨_, execPrgStart_begins ha hsrc, hst, hstore, hpc, fun h => hprim.trans (if_pos h), fun h => hprim.trans (if_neg h), hrf, hrest⟩
  · exact ⟨s.setRf .PRG_STATUS 17 1 1, (execPrgStart_begins ha fun h => absurd h hn).trans (congrArg Host.Outcome.next (State.prgBegin_busy _ ht hh hb)),
      State.rf_setRf_same s .PRG_STATUS 17 1 1 0 0 (by omega), State.RegsOnly.refl.setRf ..⟩
  · exact ⟨_, (if_neg (by simp [ha])).trans (congrArg Host.Outcome.next (State.prgData_header hr hf hl hb)), rfl, hr, rfl⟩
  · exact (if_neg (by simp [ha])).trans (congrArg Host.Outcome.next (if_pos (.inl hr)))
  · exact (if_neg (by simp [hv, hh])).trans (by rw [hi])
  · exact (if_neg (by simp [hv, hh])).trans (by rw [hi]; rfl)
  · obtain ⟨hst, hrf, ht, hcur, hr, hprim⟩ := s.stopSeq_stops e hw hc
    have htabs : (s.stopSeq e).tabs = _ := (congrArg State.tabs (State.stopSeq_eq e hw hc)).trans (s.stopShadow_tabs e)
    exact ⟨hst, hrf, ht, hcur, hr, hprim, fun h => htabs.trans (if_pos h), fun h h' => htabs.trans (if_neg (by simp [h, h']))⟩

end Sys2Proof.Machine

namespace Sys2Proof.Machine
variable {s t : State}

/-! ### What a refused power entry leaves unchanged -/

/-- Only power domains, their registers and the waiting image requests may differ from `s`. -/
structure State.PwrOnly (s t : State) : Prop where
  rest : { t with regs := s.regs, cyc := s.cyc, dom := s.dom, prg := s.prg } = s
  prg : { t.prg with waiting := s.prg.waiting } = s.prg

theorem State.PwrOnly.refl : s.PwrOnly s := ⟨rfl, rfl⟩

section
variable (h : s.PwrOnly t)
include h

theorem State.PwrOnly.setRf (r : Reg) (lo w x b i : Nat) : s.PwrOnly (t.setRf r lo w x b i) := ⟨h.rest, h.prg⟩

theorem State.PwrOnly.setReg (r : Reg) (v b i : Nat) : s.PwrOnly (t.setReg r v b i) := ⟨h.rest, h.prg⟩

theorem State.PwrOnly.bump (r : Reg) (b i n : Nat) : s.PwrOnly (t.bump r b i n) := ⟨h.rest, h.prg⟩

theorem State.PwrOnly.setDomain (d : Nat) (x : Dom) : s.PwrOnly (t.setDomain d x) := ⟨h.rest, h.prg⟩

theorem State.PwrOnly.wantImage (r : CloveReq) : s.PwrOnly (t.wantImage r) := ⟨h.rest, h.prg⟩

theorem State.PwrOnly.foldl {α : Type} {g : State → α → State} (hg : ∀ t x, s.PwrOnly t → s.PwrOnly (g t x)) (xs : List α) :
    s.PwrOnly (xs.foldl g t) :=
  List.foldlRecOn xs g h fun t ht x _ => hg t x ht

theorem State.PwrOnly.foldl_setDomain {α : Type} (d : State → α → Nat) (x : State → α → Dom) (xs : List α) :
    s.PwrOnly (xs.foldl (fun t a => t.setDomain (d t a) (x t a)) t) := h.foldl (fun _ _ h => h.setDomain ..) xs

theorem State.PwrOnly.wantReturn : s.PwrOnly t.wantReturn := iteInduction (motive := s.PwrOnly) (fun _ => h) fun _ => h.wantImage _

theorem State.PwrOnly.wakeLevel (d : Nat) : s.PwrOnly (t.wakeLevel d) :=
  iteInduction (motive := s.PwrOnly) (fun _ => h) fun _ => h.setDomain ..

theorem State.PwrOnly.refused (d : Nat) (u : UnitRef) (reason : Nat) : s.PwrOnly (t.refused d u reason) := (h.bump ..).setReg ..

theorem State.PwrOnly.startEntry (ds : List Nat) (n : Nat) : s.PwrOnly (t.startEntry ds n) := by
  unfold State.startEntry
  split
  · exact h
  · refine iteInduction (fun _ => h.foldl_setDomain ..) fun _ => ?_
    dsimp only
    split
    · exact h.foldl (fun _ _ h => h.refused ..) _
    · exact iteInduction (fun _ => h.foldl_setDomain ..) fun _ => (h.foldl_setDomain ..).wantImage _

theorem State.PwrOnly.pwrRequest (ds : List Nat) (n : Nat) : s.PwrOnly (t.pwrRequest ds n) := by
  unfold State.pwrRequest
  refine iteInduction (fun _ => h.setRf ..) fun _ => iteInduction (fun _ => h.foldl (fun _ _ h => h.wakeLevel _) _) fun _ => ?_
  exact iteInduction (fun _ => (h.foldl_setDomain ..).setRf ..) fun _ => (h.foldl_setDomain ..).startEntry ..

theorem State.PwrOnly.endSeq (d : Nat) : s.PwrOnly (t.endSeq d) := by
  unfold State.endSeq
  split
  · exact h
  · exact iteInduction (fun _ => h.setDomain ..) fun _ => (h.setDomain ..).pwrRequest ..

theorem State.PwrOnly.abandonEntry (d : Nat) : s.PwrOnly (t.abandonEntry d) := by
  unfold State.abandonEntry
  exact iteInduction (fun _ => (h.foldl_setDomain ..).wantReturn) fun _ => (h.foldl_setDomain ..).foldl (fun _ _ h => h.endSeq _) _

theorem State.PwrOnly.refuseEntry (d : Nat) (u : UnitRef) (reason : Nat) : s.PwrOnly (t.refuseEntry d u reason) := (h.refused ..).abandonEntry d

theorem State.PwrOnly.imageFailed (r : CloveReq) : s.PwrOnly (t.imageFailed r) := by
  unfold State.imageFailed
  split
  · exact iteInduction (fun _ => h.refuseEntry ..) fun _ => h
  · exact h

end

/-! ### The waits of a control sequence and errors of the program store -/

theorem State.checkWord_of_no_inject (hi : s.fc.inject = none) (u : UnitRef) (chk : Nat) (e : WordErr) (p : Option Nat) :
    s.checkWord u chk e p = (e, false, s) :=
  if_neg fun h => by simp [State.injHit, hi] at h

theorem State.atCtrl.step {i : CtrlInstr} (h : s.atCtrl i) {fop : Nat} (hf : i.fop = fop) (store : WordErr) (stall : CtrlInstr → Bool)
    (go : CtrlInstr → State → State) (hs : stall i = false) : s.ctrlStep fop store stall go =
      match s.storeWord store with
      | (some s, _) => go i s
      | (none, s) => s := by
  subst hf
  obtain ⟨hh, hx, hw, -, -, hc⟩ := h
  unfold State.ctrlStep
  rw [if_neg (by simp [State.atInstr, hh, hx, hw]), hc]
  exact if_neg (by simp [hs])

/-- An instruction whose word is good runs. -/
theorem State.atCtrl.step_clean {i : CtrlInstr} (h : s.atCtrl i) {fop : Nat} (hf : i.fop = fop) (stall : CtrlInstr → Bool)
    (go : CtrlInstr → State → State) (hs : stall i = false) : s.ctrlStep fop .clean stall go = go i s := by
  rw [h.step hf _ _ _ hs, State.storeWord, State.checkWord_of_no_inject h.2.2.2.2.1]

theorem State.prgNext_of_no_abort (h : s.prg.abort = false) (n : Nat) : s.prgNext n = s.seqAt n := if_neg (by simp [h])

theorem instanceOf_near (now : Int) (sec ns : Nat) : instanceOf now sec ns - now < 32768 * 1000000000 ∧
    now - instanceOf now sec ns ≤ 32768 * 1000000000 ∧ (instanceOf now sec ns - (sec * 1000000000 + ns : Nat)) % (65536 * 1000000000) = 0 := by
  unfold instanceOf
  dsimp only
  split <;> omega

theorem execWaitt_past {i : CtrlInstr} (h : s.atCtrl i) (hf : i.fop = 4) (hp : instanceOf s.ns (fld i.low 0 16) (i.ops.getD 0 0) < s.ns) :
    execWaitt .clean s = .next (s.prgLate.seqAt i.size) :=
  congrArg Host.Outcome.next ((h.step_clean hf _ _ rfl).trans ((if_pos hp).trans (State.prgNext_of_no_abort (s := s.prgLate) h.2.2.2.1 _)))

theorem execWaitt_future {i : CtrlInstr} (h : s.atCtrl i) (hf : i.fop = 4) (hp : s.ns < instanceOf s.ns (fld i.low 0 16) (i.ops.getD 0 0)) :
    execWaitt .clean s = .next (s.prgWait (.waitt (instanceOf s.ns (fld i.low 0 16) (i.ops.getD 0 0)))) :=
  congrArg Host.Outcome.next ((h.step_clean hf _ _ rfl).trans ((if_neg (by omega)).trans (if_neg (by omega))))

section
variable {w : PrgWait} (h : s.ctrlWaits w)
include h

theorem State.ctrlWaits.runs : ¬(s.prim = .halt ∨ s.prg.state ≠ .executing) := by simp [h.1, h.2.1]

end

theorem execWaittExpire_due {t : Int} (h : s.ctrlWaits (.waitt t)) (ht : t ≤ s.ns) : execWaittExpire s = .next (s.seqAt 8) := by
  unfold execWaittExpire
  rw [if_neg h.runs, h.2.2.1]
  exact (if_pos ht).trans (congrArg _ (State.prgNext_of_no_abort h.2.2.2 _))

theorem execWaitdExpire_due {n t : Nat} (h : s.ctrlWaits (.waitd n t)) (ht : t + 3 * n ≤ s.tick) : execWaitdExpire s = .next (s.seqAt 8) := by
  unfold execWaitdExpire
  rw [if_neg h.runs, h.2.2.1]
  exact (if_pos ht).trans (congrArg _ (State.prgNext_of_no_abort h.2.2.2 _))

theorem execWaitsSample_equal {off mask value t : Nat} (h : s.ctrlWaits (.waits off mask value t)) (hv : s.sampleOff off &&& mask = value) :
    execWaitsSample s = .next (s.seqAt 16) := by
  unfold execWaitsSample
  rw [if_neg h.runs, h.2.2.1]
  exact (if_pos hv).trans (congrArg _ (State.prgNext_of_no_abort h.2.2.2 _))

theorem execWaitsTimeout_due {off mask value t : Nat} (h : s.ctrlWaits (.waits off mask value t))
    (ht : t + usTicks (max 1 (s.reg .PRG_WAITS_LIMIT)) ≤ s.tick) : execWaitsTimeout s = .next (s.stopSeq 0xB) := by
  unfold execWaitsTimeout
  rw [if_neg h.runs, h.2.2.1]
  exact if_pos ht

theorem State.state_prgDone : s.prgDone.prg.state = .done := by
  unfold State.prgDone
  dsimp only
  split
  · refine iteInduction (motive := fun t : State => t.prg.state = .done) (fun _ => ?_) fun _ => rfl
    exact (congrArg PrgSt.state (State.PwrOnly.refl.imageFailed _).prg :)
  · rfl

theorem execNop_uncorrectable {i : CtrlInstr} (h : s.atCtrl i) (hf : i.fop = 0) :
    execNop .uncorrectable s = .next ((s.raiseSpine 28 5 1 (fidUnit 0x180)).stopSeq 0x11) := by
  unfold execNop
  rw [h.step hf _ _ _ rfl, State.storeWord, State.checkWord_of_no_inject h.2.2.2.2.1]

theorem execNop_corrected {i : CtrlInstr} (h : s.atCtrl i) (hf : i.fop = 0) :
    execNop .corrected s = .next ((s.raiseSpine 28 5 0 (fidUnit 0x180)).seqAt i.size) := by
  unfold execNop
  rw [h.step hf _ _ _ rfl, State.storeWord, State.checkWord_of_no_inject h.2.2.2.2.1]
  exact congrArg _ (State.prgNext_of_no_abort (s := s.raiseSpine 28 5 0 (fidUnit 0x180)) h.2.2.2.1 _)

/-- Settles O17. -/
theorem sequenceWaitsAndStoreErrors : Obligations.SequenceWaitsAndStoreErrors := by
  refine ⟨⟨fun s i h hf => ?_, fun s i h hf => ⟨execWaitt_future h hf, fun hp => ?_⟩, fun now sec ns _ _ => instanceOf_near now sec ns,
    fun s t => execWaittExpire_due, fun s i h hf => ?_, fun s n t => execWaitdExpire_due, fun s i h hf => ?_,
    fun s off mask value t => execWaitsSample_equal, fun s off mask value t => execWaitsTimeout_due, fun s i h hf hd => ?_, fun s i h hf hd => ?_⟩,
    fun s i h hf => ⟨execNop_uncorrectable h hf, execNop_corrected h hf⟩⟩
  · exact congrArg Host.Outcome.next ((h.step_clean hf _ _ rfl).trans (State.prgNext_of_no_abort h.2.2.2.1 _))
  · exact ⟨s.prgLate, State.rf_setRf_same s .PRG_STATUS 16 1 1 0 0 (by omega), State.RegsOnly.refl.setRf .., execWaitt_past h hf hp⟩
  · exact congrArg Host.Outcome.next (h.step_clean hf _ _ rfl)
  · exact congrArg Host.Outcome.next (h.step_clean hf _ _ rfl)
  · exact ⟨congrArg Host.Outcome.next ((h.step_clean hf _ _ rfl).trans (if_neg (by simp [hd]))), State.state_prgDone⟩
  · exact congrArg Host.Outcome.next ((h.step_clean hf _ _ rfl).trans (if_pos hd))

end Sys2Proof.Machine

namespace Sys2Proof.Machine
variable {s t : State}

/-! ### WRTB and VCRC -/

/-- A place of a structural table within its bank. -/
def tabPlace (table unit port idx : Nat) : Nat := ((table * 1024 + unit) * 8 + port) * 65536 + idx

theorem tabKey_eq (bank table unit port idx : Nat) : tabKey bank table unit port idx = bank * 2 ^ 33 + tabPlace table unit port idx := by
  unfold tabKey tabPlace
  omega

theorem tabPlace_lt {table unit port idx : Nat} (ht : table < 16) (hu : unit < 1024) (hp : port < 8) (hi : idx < 65536) :
    tabPlace table unit port idx < 2 ^ 33 := by
  unfold tabPlace
  omega

/-- A write to a bank leaves the other bank's cells. -/
theorem State.tab_setTab_other_bank {b b' : Nat} (hb : b' ≠ b) {table unit port idx table' unit' port' idx' : Nat}
    (h : tabPlace table unit port idx < 2 ^ 33) (h' : tabPlace table' unit' port' idx' < 2 ^ 33) (v : Nat) :
    (s.setTab b table unit port idx v).tab b' table' unit' port' idx' = s.tab b' table' unit' port' idx' := by
  refine (SMap.get_set ..).trans (if_neg ?_)
  rw [tabKey_eq, tabKey_eq]
  omega

/-- The bounds of a table write that a WRTB makes: its index may pass the end of a section of 65,536 entries. -/
structure TabWrite.Fits (w : TabWrite) : Prop where
  table : w.table ≤ 10
  unit : w.unit < 1024
  port : w.port < 8
  idx : w.idx < 2 ^ 17

/-- `t` is `s` but for table cells outside bank `b`. -/
structure State.OtherBank (b : Nat) (s t : State) : Prop where
  rest : s.TabsOnly t
  tab : ∀ table unit port idx, tabPlace table unit port idx < 2 ^ 33 → t.tab b table unit port idx = s.tab b table unit port idx

theorem State.OtherBank.refl (b : Nat) : s.OtherBank b s := ⟨rfl, fun _ _ _ _ _ => rfl⟩

theorem State.OtherBank.setTab {b b' : Nat} (h : s.OtherBank b t) (hb : b ≠ b') {table unit port idx : Nat} (hp : tabPlace table unit port idx < 2 ^ 33)
    (v : Nat) : s.OtherBank b (t.setTab b' table unit port idx v) :=
  ⟨h.rest, fun _ _ _ _ hp' => (State.tab_setTab_other_bank hb hp hp' v).trans (h.tab _ _ _ _ hp')⟩

theorem State.OtherBank.putEntry {b b' : Nat} (h : s.OtherBank b t) (hb : b ≠ b') {w : TabWrite} (hw : w.Fits) : s.OtherBank b (t.putEntry b' w) := by
  obtain ⟨ht, hu, hp, hi⟩ := hw
  unfold State.putEntry
  refine iteInduction (fun _ => iteInduction (fun _ => h) fun _ => h.setTab hb ?_ _) fun _ => iteInduction (fun _ => ?_) fun _ => h.setTab hb ?_ _
  · unfold tabPlace
    omega
  · refine (h.setTab hb ?_ _).setTab hb ?_ _
    · unfold tabPlace
      omega
    · unfold tabPlace
      omega
  · unfold tabPlace
    omega

theorem fst_of_mem_sliceEntries {sec : List Byte} {t n i off : Nat} {e : Nat × Nat} (h : e ∈ sliceEntries sec t n i off) : e.1 < i + n := by
  induction n generalizing i off with
  | zero => cases h
  | succ n ih =>
    rcases List.mem_cons.mp h with rfl | h
    · exact Nat.lt_add_of_pos_right n.succ_pos
    · have := ih h
      omega

theorem lt_of_mem_unitsOf {t port u v : Nat} {ok : Nat → Bool} (hu : u < 1024) (h : v ∈ unitsOf t port u ok) : v < 1024 := by
  unfold unitsOf at h
  split at h
  · split at h
    · rwa [List.mem_singleton.mp h]
    · cases h
  · split at h
    · split at h
      · simp only [List.mem_cons, List.not_mem_nil, or_false] at h
        omega
      · cases h
    · have hv := List.mem_range.mp (List.mem_filter.mp (List.mem_filter.mp h).1).1
      omega

theorem State.wrtbWrites_fits {img : List Byte} {i : CtrlInstr} {ws : List TabWrite} (h : s.wrtbWrites img i = some ws) : ∀ w ∈ ws, w.Fits := by
  unfold State.wrtbWrites CtrlInstr.wrtb at h
  dsimp only at h
  split at h
  · cases h
  · split at h
    · cases h
    next hok =>
      cases h
      intro w hw
      obtain ⟨u, hu, hw⟩ := List.mem_flatMap.mp hw
      obtain ⟨e, he, rfl⟩ := List.mem_map.mp hw
      have hidx := fst_of_mem_sliceEntries he
      have hfirst := fld_lt (i.ops.getD 2 0) 16 16
      have hn := fld_lt (i.ops.getD 2 0) 0 16
      exact ⟨show fld i.low 15 4 ≤ 10 by omega, lt_of_mem_unitsOf (fld_lt ..) (List.mem_filter.mp hu).1, fld_lt .., show e.1 < 2 ^ 17 by omega⟩

theorem State.shadowBank_ne : bankOf s.epo.cur ≠ s.shadowBank := by
  unfold bankOf State.shadowBank
  cases s.epo.cur <;> decide

/-- The writes of a WRTB leave the active bank and all that is not a table. -/
theorem State.OtherBank.putEntries {ws : List TabWrite} (hw : ∀ w ∈ ws, w.Fits) :
    s.OtherBank (bankOf s.epo.cur) (ws.foldl (fun s w => s.putEntry s.shadowBank w) s) :=
  List.foldlRecOn ws _ (.refl _) fun t ht w hwm => by
    have hb : t.shadowBank = s.shadowBank := congrArg (fun e : EpoSt => (!e.cur).toNat) ht.rest.epo
    rw [hb]
    exact ht.putEntry s.shadowBank_ne (hw w hwm)

theorem execWrtb_eq {i : CtrlInstr} (h : s.atCtrl i) (hf : i.fop = 1) (hd : s.epo.dual = false) (hk : s.rkCopy = none) :
    execWrtb .clean s = .next (match s.wrtbWrites s.prg.store i with
      | none => s.stopSeq 9
      | some ws => (ws.foldl (fun s w => s.putEntry s.shadowBank w) s).prgNext i.size) :=
  congrArg Host.Outcome.next (h.step_clean hf _ _ (by simp [State.tableStall, hd, hk]))

theorem State.ctrlStep_stalled {i : CtrlInstr} (h : s.atCtrl i) {fop : Nat} (store : WordErr) (stall : CtrlInstr → Bool)
    (go : CtrlInstr → State → State) (hs : stall i = true) : s.ctrlStep fop store stall go = s := by
  obtain ⟨hh, hx, hw, -, -, hc⟩ := h
  unfold State.ctrlStep
  rw [if_neg (by simp [State.atInstr, hh, hx, hw]), hc]
  exact if_pos (.inr hs)

theorem execVcrc_one_unit {i : CtrlInstr} {u : Nat} (h : s.atCtrl i) (hf : i.fop = 2) (hd : s.epo.dual = false) (ht : fld i.low 15 4 ≤ 10)
    (hu : u = fld (i.ops.getD 0 0) 16 10) (hne : u ≠ 0x3FF) (hh : holdsTable (fld i.low 15 4) u (fld i.low 12 3) = true)
    (hdown : s.domDown (tabDomain (fld i.low 15 4) u) = false) :
    execVcrc .clean s = .next (if s.tableCrc s.shadowBank (fld i.low 15 4) u (fld i.low 12 3) = i.ops.getD 1 0 then s.prgNext i.size
      else s.stopSeq 0xA) := by
  have hus : unitsOf (fld i.low 15 4) (fld i.low 12 3) u (fun _ => true) = [u] := (if_pos hne).trans (if_pos ⟨hh, rfl⟩)
  refine congrArg Host.Outcome.next ((h.step_clean hf _ _ (by simp [State.tableStall, hd])).trans ?_)
  dsimp only
  rw [← hu, hus, if_neg (by simp [hdown]; omega)]
  simp [hdown]

/-- Settles O18. -/
theorem tableInstructionsTouchOnlyTheShadow : Obligations.TableInstructionsTouchOnlyTheShadow := by
  refine ⟨fun s i ws h hf hd hk hw => ?_, fun s i h hf hd hk hw => ?_, fun s i h hf hd => ?_, fun s i u h hf hd ht hu hne hh hdown => ⟨fun hc => ?_, fun hc => ?_⟩⟩
  · have hb := State.OtherBank.putEntries (s := s) (State.wrtbWrites_fits hw)
    have habort : (ws.foldl (fun s w => s.putEntry s.shadowBank w) s).prg.abort = false := (congrArg PrgSt.abort hb.rest.prg).trans h.2.2.2.1
    refine ⟨_, (execWrtb_eq h hf hd hk).trans ?_, rfl, fun table unit port idx ht hu hp hi => ?_, ?_⟩
    · rw [hw]
      exact congrArg _ (State.prgNext_of_no_abort habort _)
    · exact hb.tab _ _ _ _ (tabPlace_lt ht hu hp hi)
    · exact (congrArg (fun t : State => { t with prg := s.prg }) hb.rest :)
  · exact (execWrtb_eq h hf hd hk).trans (by rw [hw])
  · exact congrArg Host.Outcome.next (State.ctrlStep_stalled h _ _ _ (by simp [State.tableStall, hd]))
  · exact (execVcrc_one_unit h hf hd ht hu hne hh hdown).trans (congrArg _ ((if_pos hc).trans (State.prgNext_of_no_abort h.2.2.2.1 _)))
  · exact (execVcrc_one_unit h hf hd ht hu hne hh hdown).trans (congrArg _ (if_neg hc))

end Sys2Proof.Machine

namespace Sys2Proof.Machine
variable {s t : State}

/-! ### WRCS -/

theorem State.csaRefuse_regsOnly (src : Nat) (sd : Option Nat) (w : Bool) (off cause : Nat) : t.RegsOnly (t.csaRefuse src sd w off cause) :=
  iteInduction (motive := t.RegsOnly) (fun _ => (State.RegsOnly.refl.bump ..).noteCyc ..) fun _ => ((State.RegsOnly.refl.bump ..).setReg ..).setReg ..

/-- The control request of a WRCS. -/
def CtrlInstr.wrcsReq (i : CtrlInstr) : HubReq :=
  { src := 0x180, sd := 0, write := true, off := fld (i.ops.getD 0 0) 0 26, value := BitVec.ofNat 32 (i.ops.getD 1 0) }

theorem State.csaAllows_domain0 (w : Bool) (off : Nat) : s.csaAllows (some 0) w off = true := rfl

/-- A WRCS outside the direct window joins the hub's queue. -/
theorem execWrcs_present {i : CtrlInstr} (h : s.atCtrl i) (hf : i.fop = 3) (hd : inDirect (fld (i.ops.getD 0 0) 0 26) = false)
    (hh : s.hubFree = true) (ht : s.prim ≠ .test) (ha : absent (fld (i.ops.getD 0 0) 0 26) = false) : execWrcs .clean s =
      .next (({ s.hubTook with hub := { s.hubTook.hub with queue := s.hub.queue ++ [i.wrcsReq] } } : State).prgWait (.wrcs false)) := by
  refine congrArg Host.Outcome.next ((h.step_clean hf _ _ (by rw [hh, Bool.not_true, Bool.and_false])).trans ((if_neg (by simp only [hd, Bool.false_eq_true, not_false_eq_true])).trans ?_))
  rw [State.hubJudge_passed (s := s.hubTook) _ (State.csaAllows_domain0 ..) ha ht]
  rfl

/-- A WRCS to an absent offset is dropped by the hub. -/
theorem execWrcs_absent {i : CtrlInstr} (h : s.atCtrl i) (hf : i.fop = 3) (hd : inDirect (fld (i.ops.getD 0 0) 0 26) = false)
    (hh : s.hubFree = true) (ha : absent (fld (i.ops.getD 0 0) 0 26) = true) : execWrcs .clean s =
      .next ((s.hubTook.csaRefuse 0x180 (some 0) true (fld (i.ops.getD 0 0) 0 26) 2).prgWait (.wrcs false)) := by
  refine congrArg Host.Outcome.next ((h.step_clean hf _ _ (by rw [hh, Bool.not_true, Bool.and_false])).trans ((if_neg (by simp only [hd, Bool.false_eq_true, not_false_eq_true])).trans ?_))
  rw [State.hubJudge_absent (s := s.hubTook) _ (State.csaAllows_domain0 ..) ha]

theorem execWrcsComplete_hub (h : s.ctrlWaits (.wrcs false)) :
    execWrcsComplete s = if (s.hub.queue ++ s.hub.tree).any HubReq.mine then .next s else .next (s.prgNext 12) := by
  unfold execWrcsComplete
  rw [if_neg h.runs, h.2.2.1]

theorem execWrcsComplete_direct {p : Pkt} {rest : List Pkt} (h : s.ctrlWaits (.wrcs true)) (hp : (s.nif 0x180).inbox = p :: rest)
    (hn : p.net = .rsp) (ht : p.txid = wrcsTxid) :
    execWrcsComplete s = .next ((s.updNi 0x180 (fun n => { n with inbox := n.inbox.erase p })).seqAt 12) := by
  have hfind : (s.nif 0x180).inbox.find? (fun p => p.net == .rsp && p.txid == wrcsTxid) = some p := by
    rw [hp]
    exact List.find?_cons_of_pos (by simp [hn, ht])
  unfold execWrcsComplete
  rw [if_neg h.runs, h.2.2.1]
  dsimp only
  rw [hfind]
  exact congrArg _ (State.prgNext_of_no_abort (s := s.updNi 0x180 _) h.2.2.2 _)

theorem State.nif_seqAt (n f : Nat) : (s.seqAt n).nif f = s.nif f := rfl

theorem State.seqAt_updNi_rest (f n : Nat) (g : Ni → Ni) : { (s.updNi f g).seqAt n with prg := s.prg, ni := s.ni } = s :=
  (congrArg (fun t : State => { t with prg := s.prg }) ((State.NiOnly.refl f).updNi g).rest :)

/-- Settles O19. -/
theorem wrcsHoldsTheSequence : Obligations.WrcsHoldsTheSequence := by
  refine ⟨fun s i h hf hd hh ht => ⟨fun ha => ?_, fun ha => ?_⟩, fun s i h hf hd hh => ?_, fun s i h hf hd => ?_, fun s h hm => ?_,
    fun s p rest h hp hn htx => ?_, fun s h hm => ?_⟩
  · exact ⟨_, execWrcs_present h hf hd hh ht ha, rfl, rfl, rfl, rfl⟩
  · have hk := s.hubTook.csaRefuse_regsOnly 0x180 (some 0) true (fld (i.ops.getD 0 0) 0 26) 2
    have hreg := (State.reg_csaRefuse (s := s.hubTook) 0x180 (some 0) true (fld (i.ops.getD 0 0) 0 26)).2
    exact ⟨_, execWrcs_absent h hf hd hh ha, rfl, (congrArg (fun t : State => t.prg.pc) hk :), (congrArg (fun t : State => t.hub.queue) hk :),
      (State.reg_congr rfl rfl ..).trans (hreg.trans (congrArg (fun n => min (n + 1) 0xFFFFFFFF) (State.reg_congr rfl rfl ..))),
      (congrArg (fun t : State => { t with prg := s.prg, hub := s.hub }) hk :)⟩
  · exact congrArg Host.Outcome.next (State.ctrlStep_stalled h _ _ _ (by rw [hd, hh]; rfl))
  · exact congrArg Host.Outcome.next ((h.step_clean hf _ _ (by rw [hd]; rfl)).trans (if_pos hd))
  · exact (execWrcsComplete_hub h).trans ((if_neg (by simp [hm])).trans (congrArg _ (State.prgNext_of_no_abort h.2.2.2 _)))
  · refine ⟨_, execWrcsComplete_direct h hp hn htx, rfl, rfl, ?_, State.seqAt_updNi_rest ..⟩
    rw [State.nif_seqAt, State.nif_updNi, if_pos rfl]
    exact (congrArg (List.erase · p) hp).trans (List.erase_cons_head ..)
  · exact (execWrcsComplete_hub h).trans (if_pos hm)

end Sys2Proof.Machine

namespace Sys2Proof.Machine
variable {s t : State}

/-! ### FENCE, UNFENCE, LINKUP, CLOVE and RETURN -/

theorem execFence_unit {i : CtrlInstr} {u : UnitRef} (h : s.atCtrl i) (hf : i.fop = 7) (hu : i.unit = some u) :
    execFence .clean s = .next (({ (s.fenceKey (fenceKeyOf u)).markCalled (keysOf (fenceKeyOf u)) with
      prg := { (s.fenceKey (fenceKeyOf u)).prg with fenced := fenceKeyOf u :: (s.fenceKey (fenceKeyOf u)).prg.fenced } } : State).prgNext i.size) := by
  unfold execFence
  rw [h.step_clean hf _ _ rfl]
  dsimp only
  rw [hu]
  rfl

theorem execFence_no_unit {i : CtrlInstr} (h : s.atCtrl i) (hf : i.fop = 7) (hu : i.unit = none) :
    execFence .clean s = .next (s.stopSeq 9) := by
  unfold execFence
  rw [h.step_clean hf _ _ rfl]
  dsimp only
  rw [hu]

theorem execUnfence_unit {i : CtrlInstr} {u : UnitRef} (h : s.atCtrl i) (hf : i.fop = 8) (hu : i.unit = some u) :
    execUnfence .clean s =
      .next (({ s with prg := { s.prg with unfence := (fld i.low 17 2, fld i.low 0 10) :: s.prg.unfence } } : State).seqAt i.size) := by
  unfold execUnfence
  rw [h.step_clean hf _ _ rfl]
  dsimp only
  rw [hu]
  exact congrArg Host.Outcome.next (if_neg (Bool.not_eq_true _ ▸ h.2.2.2.1))

theorem State.linkOn_of_waiting {f : Nat} (h : (s.nif f).p2fLink = false) : s.linkOn f = s := if_neg (by simp [h])

theorem State.nif_startLink_waiting {f : Nat} (hf : s.niFenced f = false) (hl : (s.nif f).link ≠ .up) (hp : (s.nif f).p2fLink = false) :
    (s.startLink f).nif f =
      { (s.nif f).unlinked with link := .waitPartner, f2pLink := true, linkAt := s.tick, relink := false } := by
  unfold State.startLink
  rw [if_neg (by simp [hl, hf]), State.linkOn_of_waiting]
  · rw [State.nif_setNi, if_pos rfl]
  · rw [State.nif_setNi, if_pos rfl]
    exact hp

theorem execCloveFetchDone_image {r : CloveReq} {c0 c1 img : List Byte} (hr : s.prg.clove = some r) (hf : s.prg.fetching = true)
    (hh : s.prim ≠ .halt) (hi : s.cloveImage r c0 = some (some img) ∨ s.cloveImage r c0 = none ∧ s.cloveImage r c1 = some (some img)) :
    execCloveFetchDone c0 c1 s = .next { s with prg := { s.prg with store := img, fetching := false, state := .verifying } } := by
  have himg : (s.cloveImage r c0).orElse (fun _ => s.cloveImage r c1) = some (some img) := by
    rcases hi with h | ⟨h, h'⟩
    · rw [h, Option.orElse_some]
    · rw [h, Option.orElse_none, h']
  unfold execCloveFetchDone
  simp only [hr, himg]
  exact if_neg (by simp [hh, hf])

theorem execCloveFetchDone_no_image {r : CloveReq} {c0 c1 : List Byte} (hr : s.prg.clove = some r) (hf : s.prg.fetching = true)
    (hh : s.prim ≠ .halt) (h0 : s.cloveImage r c0 = none) (h1 : s.cloveImage r c1 = none) :
    execCloveFetchDone c0 c1 s = .next ((s.imageless r.fence).stopSeq 0xF) := by
  have himg : (s.cloveImage r c0).orElse (fun _ => s.cloveImage r c1) = none := by rw [h0, Option.orElse_none, h1]
  unfold execCloveFetchDone
  simp only [hr, himg]
  exact if_neg (by simp [hh, hf])

/-- The request for the return image. -/
def returnReq : CloveReq := { key := 0x6000, sort := 2 }

theorem State.wantReturn_first (hw : s.prg.waiting = []) (hc : s.prg.clove = none) : s.wantReturn = s.wantImage returnReq :=
  if_neg (by simp [hw, hc])

/-- A power or return request that waits alone is fetched at once. -/
theorem State.pump_alone {r : CloveReq} (hw : s.prg.waiting = [r]) (hr : r.sort ≠ 0) (hb : s.prg.busy = false) (hd : s.epo.dual = false)
    (hh : s.prim ≠ .halt) : s.pump = ({ s with prg := { s.prg with waiting := s.prg.waiting.erase r } } : State).startFetch r := by
  unfold State.pump
  rw [if_neg (by simp [hd, hh])]
  simp [hw, hr, hb]

theorem State.askReturn_taken (hf : s.fallback = true) (hb : s.prg.busy = false) (hc : ∀ c, c < 32 → s.pendOf c < 2) (hw : s.prg.waiting = [])
    (hn : s.prg.clove = none) (hd : s.epo.dual = false) (hh : s.prim ≠ .halt) :
    s.askReturn = ({ s.wantImage returnReq with prg := { s.prg with waiting := [returnReq].erase returnReq } } : State).startFetch returnReq := by
  have hany : (List.range 32).any (fun c => decide (2 ≤ s.pendOf c)) = false := by
    refine List.any_eq_false.mpr fun c hm => ?_
    have := hc c (List.mem_range.mp hm)
    simpa using this
  have hwait : (s.wantImage returnReq).prg.waiting = [returnReq] := congrArg (· ++ [returnReq]) hw
  unfold State.askReturn
  rw [if_neg (by simp only [hf, hb, hany]; simp), State.wantReturn_first hw hn, State.pump_alone hwait (by decide) hb hd hh, hwait]
  rfl

theorem State.startFetch_rest (r : CloveReq) : { s.startFetch r with prg := s.prg, regs := s.regs, cyc := s.cyc } = s := by
  have h : s.RegsOnly ((s.setReg .PRG_WPTR 0).setReg .PRG_SEQ_PC 0) := (State.RegsOnly.refl.setReg ..).setReg ..
  exact (congrArg (fun t : State => { t with prg := s.prg }) h :)

theorem State.askReturn_fetches (hf : s.fallback = true) (hb : s.prg.busy = false) (hc : ∀ c, c < 32 → s.pendOf c < 2) (hw : s.prg.waiting = [])
    (hn : s.prg.clove = none) (hd : s.epo.dual = false) (hh : s.prim ≠ .halt) : s.askReturn.prg.fetching = true ∧
      s.askReturn.prg.clove = some returnReq ∧ { s.askReturn with prg := s.prg, regs := s.regs, cyc := s.cyc } = s := by
  rw [State.askReturn_taken hf hb hc hw hn hd hh]
  exact ⟨rfl, rfl, (congrArg (fun t : State => { t with prg := s.prg }) (State.startFetch_rest (s := { s with prg := { s.prg with waiting := _ } }) returnReq) :)⟩

/-- Settles O20. -/
theorem fencesLinkupAndCloveImages : Obligations.FencesLinkupAndCloveImages := by
  refine ⟨⟨fun s i u h hf hu => ⟨_, execFence_unit h hf hu, rfl⟩, fun s i h hf => execFence_no_unit h hf.1 hf.2,
    fun s i u h hf hu => execUnfence_unit h hf hu, fun s i h hf hfirst => ?_, fun s i h hf hfirst => ?_, fun s f hf hl hp => ?_⟩,
    fun s r c0 c1 img => execCloveFetchDone_image, fun s r c0 c1 => execCloveFetchDone_no_image, fun s hf hb hc hw hn hd hh => ?_, fun s hf => ?_⟩
  · exact congrArg Host.Outcome.next ((h.step_clean hf _ _ rfl).trans (if_neg (by simp [hfirst])))
  · exact congrArg Host.Outcome.next ((h.step_clean hf _ _ rfl).trans (if_pos (by simp [hfirst])))
  · have hn := State.nif_startLink_waiting hf hl hp
    exact ⟨congrArg Ni.link hn, congrArg Ni.f2pLink hn, (s.startLink_niOnly f).rest⟩
  · exact ⟨_, rfl, State.askReturn_fetches hf hb hc hw hn hd hh⟩
  · exact ⟨s.setRf .FC_STATUS 5 1 1, congrArg Host.Outcome.next (if_pos (by simp [hf])), State.rf_setRf_same s .FC_STATUS 5 1 1 0 0 (by omega),
      State.RegsOnly.refl.setRf ..⟩

end Sys2Proof.Machine

namespace Sys2Proof.Machine
variable {s t : State}

/-! ### EPSW, the acknowledgements of an arm and their limit -/

theorem switchTime_bounds (now : Int) (w : Option Int) : now + 4000 ≤ switchTime now w ∧ switchTime now w % 1024 = 0 ∧
    switchTime now none < now + 4000 + 1024 ∧ (∀ x, w = some x → now + 4000 ≤ x → x ≤ switchTime now w ∧ switchTime now w < x + 1024) := by
  cases w with
  | none =>
    simp only [switchTime]
    exact ⟨by omega, by omega, by omega, nofun⟩
  | some x =>
    simp only [switchTime]
    refine ⟨by omega, by omega, by omega, fun y h hy => ?_⟩
    cases h
    omega

theorem State.spine_nil (h : s.saf.spine = []) : { s with saf := { s.saf with spine := [] } } = s := by rw [← h]

/-- A request of the spine itself, as Saffron receives it. -/
def spinePkt (p : Pkt) : Pkt := { p with net := .req, src := 0x180, dst := 0x181 }

/-- With a credit held and no other request waiting, a request of the spine goes to Saffron at once. -/
theorem State.spineSeq_credited (p : Pkt) (hs : s.saf.spine = []) (hc : 0 < (s.nif 0x180).safCred) :
    s.spineSeq p = (s.updNi 0x180 (fun n => { n with safCred := n.safCred - 1 })).spineSend (spinePkt p) true := by
  have hfind : [({ req := spinePkt p, since := s.tick } : SpineReq)].find? (fun r => !r.sent) = some { req := spinePkt p, since := s.tick } := rfl
  have hone : s.saf.spine ++ [({ req := spinePkt p, since := s.tick } : SpineReq)] = [{ req := spinePkt p, since := s.tick }] := by rw [hs]; rfl
  unfold State.spineSeq
  dsimp only
  rw [show ({ p with net := .req, src := 0x180, dst := 0x181 } : Pkt) = spinePkt p from rfl, hone]
  unfold State.spineTry
  rw [List.length_singleton, List.range_one, List.foldl_cons, List.foldl_nil]
  dsimp only
  rw [hfind]
  refine (if_pos hc).trans ?_
  rw [List.erase_cons_head]
  exact congrArg (fun u : State => (u.updNi 0x180 _).spineSend _ _) (State.spine_nil hs)

/-- What the switch time of an EPSW may be asked for. -/
def CtrlInstr.switchWant (i : CtrlInstr) (now : Int) : Option Int :=
  if i.ops.getD 0 0 = 0xFFFFFFFF then none else some (instanceOf now (fld i.low 0 16) (i.ops.getD 0 0))

/-- A request for a time that has passed marks the program late. -/
def State.markLate (s : State) (w : Option Int) : State :=
  if (match w with | some w => decide (w < s.ns) | none => false) = true then s.prgLate else s

theorem State.markLate_regsOnly (w : Option Int) : s.RegsOnly (s.markLate w) :=
  iteInduction (motive := s.RegsOnly) (fun _ => State.RegsOnly.refl.setRf ..) fun _ => .refl

theorem State.rf_markLate {w : Int} (h : w < s.ns) : (s.markLate (some w)).rf .PRG_STATUS 16 1 = 1 :=
  (congrArg (fun u : State => u.rf .PRG_STATUS 16 1) (if_pos (decide_eq_true h))).trans (State.rf_setRf_same s .PRG_STATUS 16 1 1 0 0 (by omega))

/-- The switch time `t` shown to software. -/
def State.showSwitch (s : State) (t : Int) : State := (s.setReg .EPO_TIME_S (secOf t % 65536)).setReg .EPO_TIME_NS (nsOf t)

theorem State.RegsOnly.showSwitch (h : s.RegsOnly t) (x : Int) : s.RegsOnly (t.showSwitch x) := (h.setReg ..).setReg ..

theorem State.rf_showSwitch (t : Int) : (s.showSwitch t).rf .PRG_STATUS 16 1 = s.rf .PRG_STATUS 16 1 :=
  congrArg (fld · 16 1) ((State.reg_setReg_other _ _ _ _ _ _ _ _ (by decide)).trans (State.reg_setReg_other _ _ _ _ _ _ _ _ (by decide)))

/-- The arm of a switch at `t`, before Saffron is asked. -/
def State.armAt (s : State) (t : Int) : State := { s with epo := { s.epo with t := some t, missing := s.participants } }

/-- The EpochCtl request of an arm for `t`. -/
def epochPkt (t : Int) : Pkt := { net := .req, opc := 0x1B, tc := 1, addr := BitVec.ofInt 52 t }

/-- The registers of the fences that an arm looks at. -/
def fenceRegs : List Reg := [.FC_FENCED_RTRn, .FC_FENCED_HSn, .FC_FENCED_ECn, .FC_FENCED_NIn]

theorem State.isFenced_congr (h : ∀ r ∈ fenceRegs, ∀ i, t.reg r 0 i = s.reg r 0 i) (u : UnitRef) :
    t.isFenced (fenceKeyOf u) = s.isFenced (fenceKeyOf u) := by
  have hword (r : Reg) (hr : r ∈ fenceRegs) (i j : Nat) : bitOf (t.reg r 0 i) j = bitOf (s.reg r 0 i) j := congrArg (bitOf · j) (h r hr i)
  unfold fenceKeyOf
  split
  · exact hword .FC_FENCED_RTRn (by decide) ..
  · split
    · exact hword .FC_FENCED_HSn (by decide) ..
    · split
      · exact hword .FC_FENCED_ECn (by decide) ..
      · exact hword .FC_FENCED_NIn (by decide) ..

/-- Registers do not move who takes part in a switch, but for the fences. -/
theorem State.RegsOnly.participants (h : s.RegsOnly t) (hf : ∀ r ∈ fenceRegs, ∀ i, t.reg r 0 i = s.reg r 0 i) : t.participants = s.participants := by
  have hun (u : UnitRef) : t.unfences u = s.unfences u := (congrArg (State.unfences · u) h :)
  have hdom (d : Nat) : t.domain d = s.domain d := (congrArg (State.domain · d) h :)
  unfold State.participants
  simp only [State.isFenced_congr hf, hun, hdom]

theorem Reg.off_ne_of_lt {r r' : Reg} (h : r.spec.off < r'.spec.off) (i : Nat) : r'.off 0 i ≠ r.off 0 0 := by
  unfold Reg.off
  omega

theorem State.reg_armed_fences (w : Option Int) (x : Int) : ∀ r ∈ fenceRegs, ∀ i, ((s.markLate w).showSwitch x).reg r 0 i = s.reg r 0 i := by
  have hlt : ∀ r ∈ fenceRegs, Reg.PRG_STATUS.spec.off < r.spec.off ∧ Reg.EPO_TIME_S.spec.off < r.spec.off ∧ Reg.EPO_TIME_NS.spec.off < r.spec.off := by
    decide
  intro r hr i
  obtain ⟨hp, hs, hn⟩ := hlt r hr
  refine (State.reg_setReg_other _ _ _ _ _ _ _ _ (Reg.off_ne_of_lt hn i)).trans ((State.reg_setReg_other _ _ _ _ _ _ _ _ (Reg.off_ne_of_lt hs i)).trans ?_)
  exact iteInduction (motive := fun u : State => u.reg r 0 i = s.reg r 0 i)
    (fun _ => State.reg_setRf_other _ _ _ _ _ _ _ _ _ _ (Reg.off_ne_of_lt hp i)) fun _ => rfl

theorem execEpsw_eq {i : CtrlInstr} (h : s.atCtrl i) (hf : i.fop = 9) (hp : s.prim ≠ .drain) (hd : s.epo.dual = false) :
    execEpsw .clean s = .next (((((s.markLate (i.switchWant s.ns)).showSwitch (switchTime s.ns (i.switchWant s.ns))).armAt
      (switchTime s.ns (i.switchWant s.ns))).spineSeq (epochPkt (switchTime s.ns (i.switchWant s.ns)))).prgWait .epsw) :=
  congrArg Host.Outcome.next (h.step_clean hf _ _ (by simp [hp, hd]))

theorem execEpochArmAck_plain {u : UnitRef} {t : Int} (hu : unitExists u = true) (ht : s.epo.t = some t) (hh : s.prim ≠ .halt)
    (hn : s.ns < t - 1000) (ha : s.canAck u = true) (hq : u.node = true ∨ (s.nif u.id).arm = none) :
    execEpochArmAck u s = .next { s with epo := { s.epo with missing := s.epo.missing.filter (· != u) } } := by
  have harm : (if u.node = true then none else (s.nif u.id).arm) = none := by
    rcases hq with h | h
    · exact if_pos h
    · rw [h, ite_self]
  unfold execEpochArmAck
  rw [if_neg (by simp [hu]), ht]
  dsimp only
  rw [if_neg (by simp [hh, ha]; omega), harm]

theorem execEpochArmAck_packet {u : UnitRef} {t : Int} {q : Pkt} (hu : unitExists u = true) (ht : s.epo.t = some t) (hh : s.prim ≠ .halt)
    (hn : s.ns < t - 1000) (ha : s.canAck u = true) (hu' : u.node = false) (hq : (s.nif u.id).arm = some q) :
    execEpochArmAck u s = .next ((s.updNi u.id (fun n => { n with arm := none })).answer u.id q 0) := by
  unfold execEpochArmAck
  rw [if_neg (by simp [hu]), ht]
  dsimp only
  rw [if_neg (by simp [hh, ha]; omega), hu', if_neg Bool.false_ne_true, hq]

theorem State.missing_safAnswer {p : Pkt} {t : Int} (hx : 0x800 ≤ p.txid.toNat) (hs : p.status = 0) (ht : s.epo.t = some t) (hn : s.ns < t - 1000) :
    (s.safAnswer p).epo.missing = s.epo.missing.filter (· != fidUnit p.src.toNat) := by
  have hany : (s.safTake p).epo.t.any (fun t => decide ((s.safTake p).ns < t - 1000)) = true :=
    (congrArg (Option.any _) ht).trans (decide_eq_true hn)
  unfold State.safAnswer
  rw [if_pos hx, if_pos ⟨hs, hany⟩]
  rfl

theorem State.nif_prgWait (w : PrgWait) (f : Nat) : (s.prgWait w).nif f = s.nif f := rfl

/-- An arm for `x` from a state whose registers alone differ from `s` reaches Saffron, and the sequence waits. -/
theorem State.armed_reaches (h : s.RegsOnly t) (hf : ∀ r ∈ fenceRegs, ∀ i, t.reg r 0 i = s.reg r 0 i) (hs : s.saf.spine = [])
    (hc : 0 < (s.nif 0x180).safCred) (x : Int) : ∃ u, ((t.armAt x).spineSeq (epochPkt x)).prgWait .epsw = u ∧
      u.epo.t = some x ∧ u.epo.missing = s.participants ∧ u.prg.wait = .epsw ∧ u.prg.pc = s.prg.pc ∧ u.rf .PRG_STATUS 16 1 = t.rf .PRG_STATUS 16 1 ∧
      ({ spinePkt (epochPkt x) with df := true } : Pkt) ∈ (u.nif 0x181).inbox ∧
      { u with prg := s.prg, epo := s.epo, regs := s.regs, cyc := s.cyc, ni := s.ni } = s := by
  have hs' : (t.armAt x).saf.spine = [] := (congrArg (fun u : State => u.saf.spine) h :).trans hs
  have hc' : 0 < ((t.armAt x).nif 0x180).safCred := lt_of_lt_of_eq hc (congrArg (fun u : State => (u.nif 0x180).safCred) h :).symm
  rw [State.spineSeq_credited _ hs' hc']
  refine ⟨_, rfl, rfl, h.participants hf, rfl, (congrArg (fun u : State => u.prg.pc) h :), State.rf_congr rfl rfl .., ?_, ?_⟩
  · rw [State.nif_prgWait, State.spineSend, State.nif_updNi, if_pos rfl]
    exact List.mem_append_right _ (List.mem_singleton_self _)
  · exact (congrArg (fun u : State => { u with prg := s.prg, epo := s.epo, ni := s.ni }) h :)

/-- Settles O21. -/
theorem epochArm : Obligations.EpochArm := by
  refine ⟨switchTime_bounds, fun s i h hf hp hd hs hc => ?_, fun s i h hf hp => ?_, fun s u t hu ht hh hn ha => ⟨fun hq => ?_, fun q hu' hq => ?_⟩,
    fun s p t hx hst ht hn => State.missing_safAnswer hx hst ht hn, fun s t ht hh hn hm => ?_⟩
  · have hk := (s.markLate_regsOnly (i.switchWant s.ns)).showSwitch (switchTime s.ns (i.switchWant s.ns))
    obtain ⟨t, ht, hat, hmiss, hw, hpc, hrf, hpkt, hrest⟩ := State.armed_reaches hk (fun r hr i => State.reg_armed_fences _ _ r hr i) hs hc _
    refine ⟨t, (execEpsw_eq h hf hp hd).trans (congrArg _ ht), hat, hmiss, hw, hpc, fun w hw hlt => ?_, ⟨_, hpkt, rfl, rfl, rfl, rfl, rfl⟩, hrest⟩
    rw [hrf, State.rf_showSwitch, show i.switchWant s.ns = some w from hw]
    exact State.rf_markLate hlt
  · refine congrArg Host.Outcome.next (State.ctrlStep_stalled h _ _ _ ?_)
    rcases hp with e | e <;> simp [e]
  · refine ⟨_, execEpochArmAck_plain hu ht hh hn ha hq, ?_, fun v hv => ?_, rfl⟩
    · simp
    · simp [hv]
  · exact execEpochArmAck_packet hu ht hh hn ha hu' hq
  · unfold exec execArmTimeout
    rw [ht]
    exact if_neg (by simp [hh, hm]; omega)

end Sys2Proof.Machine

namespace Sys2Proof.Machine
variable {s₀ s t : State}

/-! ### What the work of a switch leaves unchanged -/

/-- The mode, the program, the tables, the waiting Epoch writes and the epochs are those of `s₀`, and no injection is armed. -/
structure State.Settled (s₀ s : State) : Prop where
  prim : s.prim = s₀.prim
  prg : s.prg = s₀.prg
  tabs : s.tabs = s₀.tabs
  shadows : s.shadows = s₀.shadows
  epo : s.epo = s₀.epo
  unarmed : s.fc.inject = none

theorem State.Settled.refl (h : s.fc.inject = none) : s.Settled s := ⟨rfl, rfl, rfl, rfl, rfl, h⟩

theorem State.Settled.ite {c : Prop} [Decidable c] (hs : s₀.Settled s) (ht : s₀.Settled t) : s₀.Settled (if c then s else t) :=
  iteInduction (fun _ => hs) fun _ => ht

theorem State.Settled.foldl {α : Type} {g : State → α → State} {xs : List α} (h : s₀.Settled s) (hg : ∀ s x, s₀.Settled s → s₀.Settled (g s x)) :
    s₀.Settled (xs.foldl g s) :=
  List.foldlRecOn xs g h fun t ht x _ => hg t x ht

/-- A pair whose state is settled. -/
def State.SettledPair {α : Type} (s₀ : State) (p : α × State) : Prop := s₀.Settled p.2

theorem State.SettledPair.mk {α : Type} {x : α} (h : s₀.Settled t) : s₀.SettledPair (x, t) := h

theorem State.SettledPair.of_eq {α : Type} {p : α × State} {x : α} (h : s₀.SettledPair p) (e : p = (x, t)) : s₀.Settled t := by
  subst e
  exact h

theorem State.SettledPair.ite {α : Type} {c : Prop} [Decidable c] {x y : α × State} (hx : s₀.SettledPair x) (hy : s₀.SettledPair y) :
    s₀.SettledPair (if c then x else y) :=
  iteInduction (fun _ => hx) fun _ => hy

/-- A change of fields that a switch works on, the armed injection not among them. -/
theorem State.Settled.upd (hs : s₀.Settled s) {regs : SMap Word32} {cyc : SMap CycReg} {fc : FcSt} {rbuf : SMap RBuf} {cred : SMap Cred} {arbs : SMap
    Arb} {ni : SMap Ni} {home : SMap Home} {dir : SMap (Option DirEnt)} {plru : SMap Nat} {pred : SMap (Option PredEnt)} {que : SMap QDyn} {qm : SMap
    Qm} {ecl : SMap Ecl} {lsram : List Host.Cell} {lsramBad : SMap Bool} {ctr : SMap Nat} {slc : SMap Slc} {freeze : Bool} {bw : SMap BwSt} (hq :
    fc.inject = s.fc.inject) :
        s₀.Settled ⟨s.pending, s.tick, s.frst, s.started, s.prim, s.haltConds, s.fallback, s.drainPend, s.drainAt, s.pdrec, regs, cyc, s.modeWas,
    s.quietWas, s.shadows, s.tabs, s.fuses, s.ownEp, s.tim, fc, s.prg, s.epo, s.hub, s.rkCopy, rbuf, cred, arbs, ni, s.saf, home, dir, plru, pred,
    s.cache, s.recalls, s.sram, s.sramBad, s.bank, s.loc, que, qm, s.refillAt, ecl, lsram, lsramBad, ctr, s.ctrWas, s.ctrClr, s.wakePin, s.dom,
    s.sigs, slc, freeze, bw, s.probe, s.free⟩ :=
    ⟨hs.prim, hs.prg, hs.tabs, hs.shadows, hs.epo, hq.trans hs.unarmed⟩

/-- Without an armed injection a rule check of clean words changes nothing. -/
theorem State.ruleEcc_of_no_inject (h : s.fc.inject = none) (f : Nat) (ep : Bool) (sl pa opc : Nat) : s.ruleEcc f ep sl pa opc = s := by
  unfold State.ruleEcc
  dsimp only
  rw [State.checkWord_of_no_inject h]
  exact ite_self _

theorem State.Settled.putWord (hs : s₀.Settled s) {r : Reg} {v : Nat} {base : Nat} {i : Nat} : s₀.Settled (State.putWord s r v base i) :=
  (hs.upd rfl)

theorem State.Settled.noteCyc (hs : s₀.Settled s) {off : Nat} {g : CycReg → CycReg} : s₀.Settled (State.noteCyc s off g) :=
  (hs.upd rfl)

theorem State.Settled.noteSet (hs : s₀.Settled s) {r : Reg} {bits : Nat} {base i : Nat} : s₀.Settled (State.noteSet s r bits base i) :=
  (hs.upd rfl)

theorem State.Settled.noteUpd (hs : s₀.Settled s) {r : Reg} {g : Nat → Nat} {base i : Nat} : s₀.Settled (State.noteUpd s r g base i) :=
  hs.noteCyc

theorem State.Settled.setReg (hs : s₀.Settled s) {r : Reg} {v : Nat} {base : Nat} {i : Nat} : s₀.Settled (State.setReg s r v base i) :=
  hs.noteSet.putWord

theorem State.Settled.setRf (hs : s₀.Settled s) {r : Reg} {lo w x : Nat} {base : Nat} {i : Nat} : s₀.Settled (State.setRf s r lo w x base i) :=
  hs.noteSet.putWord

theorem State.Settled.bump (hs : s₀.Settled s) {r : Reg} {base : Nat} {i : Nat} {n : Nat} : s₀.Settled (State.bump s r base i n) :=
  hs.noteUpd.putWord

theorem State.Settled.latchWords (hs : s₀.Settled s) {cap : Reg} {ws : List (Reg × Nat)} {base : Nat} {i : Nat} {miss : List Reg} : s₀.Settled (State.latchWords s cap ws base i miss) :=
  (.ite (hs.noteCyc.foldl fun _ _ hs => hs.bump) (hs.foldl fun _ _ hs => hs.setReg))

theorem State.Settled.count (hs : s₀.Settled s) {b i : Nat} {n : Nat} : s₀.Settled (State.count s b i n) :=
  (.ite hs (.ite (hs.upd rfl) (.ite (.ite ((hs.upd rfl).upd rfl) ((hs.upd rfl).upd rfl).setRf) (hs.upd rfl).setRf)))

theorem State.Settled.countSlice (hs : s₀.Settled s) {sl i : Nat} {n : Nat} : s₀.Settled (State.countSlice s sl i n) :=
  hs.count

theorem State.Settled.setNi (hs : s₀.Settled s) {f : Nat} {n : Ni} : s₀.Settled (State.setNi s f n) :=
  (hs.upd rfl)

theorem State.Settled.updNi (hs : s₀.Settled s) {f : Nat} {g : Ni → Ni} : s₀.Settled (State.updNi s f g) :=
  hs.setNi

theorem State.Settled.setMap (hs : s₀.Settled s) {r : Reg} {i : Nat} {b : Bool} : s₀.Settled (State.setMap s r i b) :=
  hs.setRf

theorem State.Settled.collect (hs : s₀.Settled s) {r : FaultRec} : s₀.Settled (State.collect s r) :=
  (hs.upd rfl)

theorem State.Settled.raiseSpine (hs : s₀.Settled s) {group cls lvl : Nat} {u : UnitRef} {detail : Nat} {inj : Bool} : s₀.Settled (State.raiseSpine s group cls lvl u detail inj) :=
  hs.collect

theorem State.Settled.countFloor (hs : s₀.Settled s) {f : Nat} {p : Pkt} : s₀.Settled (State.countFloor s f p) :=
  (.ite hs (hs.upd rfl))

theorem State.Settled.pushNow (hs : s₀.Settled s) {f : Nat} {p : Pkt} : s₀.Settled (State.pushNow s f p) :=
  (.ite hs.countFloor.count.count.updNi hs.countFloor.count.count.updNi)

theorem State.Settled.push (hs : s₀.Settled s) {f : Nat} {p : Pkt} : s₀.Settled (State.push s f p) :=
  (.ite hs.updNi hs.pushNow)

theorem State.Settled.inject (hs : s₀.Settled s) {f : Nat} {p : Pkt} : s₀.Settled (State.inject s f p) :=
  hs.push

theorem State.Settled.holdPkt (hs : s₀.Settled s) {f : Nat} {p : Pkt} : s₀.Settled (State.holdPkt s f p) :=
  hs.updNi.count.inject

theorem State.Settled.ownComp (hs : s₀.Settled s) {f : Nat} {p : Pkt} {status : Nat} : s₀.Settled (State.ownComp s f p status) :=
  hs.updNi

theorem State.Settled.raiseNi (hs : s₀.Settled s) {f cls lvl : Nat} {detail : Nat} {inj : Bool} {u : Option UnitRef} : s₀.Settled (State.raiseNi s f cls lvl detail inj u) := by
  unfold State.raiseNi
  exact (.ite hs.raiseSpine (.ite (by split; exact hs.updNi.inject; exact hs.updNi) hs.updNi))

theorem State.Settled.countAnswer (hs : s₀.Settled s) {sl status : Nat} : s₀.Settled (State.countAnswer s sl status) :=
  (.ite hs.countSlice (.ite hs.countSlice (.ite hs.countSlice hs)))

theorem State.Settled.setArb (hs : s₀.Settled s) {site : ArbSite} {a : Arb} : s₀.Settled (State.setArb s site a) :=
  (hs.upd rfl)

theorem State.Settled.noteMask (hs : s₀.Settled s) {site : ArbSite} : s₀.Settled (State.noteMask s site) :=
  (.ite hs.setArb.bump hs)

theorem State.Settled.maskAll (hs : s₀.Settled s)  : s₀.Settled (State.maskAll s) := by
  unfold State.maskAll
  exact (hs.foldl fun _ _ hs => (by split; exact hs.noteMask; exact hs))

theorem State.Settled.setHm (hs : s₀.Settled s) {k : Nat} {h : Home} : s₀.Settled (State.setHm s k h) :=
  (hs.upd rfl)

theorem State.Settled.updHm (hs : s₀.Settled s) {k : Nat} {g : Home → Home} : s₀.Settled (State.updHm s k g) :=
  hs.setHm

theorem State.Settled.denied (hs : s₀.Settled s) {f : Nat} {pre : Bool} {src : Nat} {sd : Option Nat} {opc cause entry pa : Nat} : s₀.Settled (State.denied s f pre src sd opc cause entry pa) := by
  have h1 : s₀.Settled (if sd = some 15 then (s.bump .RK_DENY_CNT rkBase).bump .RK_DBG_DENY_CNT rkBase else s.bump .RK_DENY_CNT rkBase) :=
    .ite hs.bump.bump hs.bump
  unfold State.denied
  exact h1.latchWords.count.raiseNi

theorem State.Settled.portBytes (hs : s₀.Settled s) {f dir n : Nat} : s₀.Settled (State.portBytes s f dir n) :=
  (.ite hs (.ite (hs.count.upd rfl) hs.count))

theorem State.Settled.present (hs : s₀.Settled s) {f : Nat} {bs : List Beat} : s₀.Settled (State.present s f bs) :=
  (.ite hs.updNi.portBytes hs)

theorem State.Settled.holdOrRefuse (hs : s₀.Settled s) {f : Nat} {p : Pkt} : s₀.SettledPair (State.holdOrRefuse s f p) :=
  (.ite (.mk hs.holdPkt) (.mk (.count (.ite hs.bump hs))))

theorem State.Settled.setSrc (hs : s₀.Settled s) {f i : Nat} {e : Option SrcEnt} : s₀.Settled (State.setSrc s f i e) :=
  hs.updNi

theorem State.Settled.progress (hs : s₀.Settled s) {f t : Nat} {cnt : Nat} {ops : List Word64} : s₀.Settled (State.progress s f t cnt ops) := by
  unfold State.progress
  split
  · exact hs
  · exact (.ite hs.present.updNi.present.countAnswer.updNi hs.present.updNi)

theorem State.Settled.pieceDone (hs : s₀.Settled s) {f i : Nat} {status : Nat} {data : Option (List Byte × Word64 × Bool)} {cnt : Nat} {ops : List Word64} : s₀.Settled (State.pieceDone s f i status data cnt ops) := by
  unfold State.pieceDone
  split
  · exact hs
  · exact hs.setSrc.progress

theorem State.Settled.cohError (hs : s₀.Settled s) {f i status : Nat} {peer : Fid} : s₀.Settled (State.cohError s f i status peer) := by
  unfold State.cohError
  split
  · exact hs
  · exact (by split; exact hs.present.countAnswer.updNi; exact hs.setSrc)

theorem State.Settled.pieceFail (hs : s₀.Settled s) {f i status : Nat} : s₀.Settled (State.pieceFail s f i status) := by
  unfold State.pieceFail
  split
  · exact hs
  · exact (.ite hs.setSrc.ownComp (.ite hs.cohError hs.pieceDone))

theorem State.Settled.sleepCheck (hs : s₀.Settled s) {f i : Nat} : s₀.Settled (State.sleepCheck s f i) := by
  unfold State.sleepCheck
  split
  · exact hs
  · exact (.ite (.ite hs.count.pieceFail hs) (.ite hs (by split; exact (hs.holdOrRefuse.of_eq ‹_›).setSrc; exact (hs.holdOrRefuse.of_eq ‹_›).pieceFail)))

theorem State.Settled.ruleEcc (hs : s₀.Settled s) {f : Nat} {ep : Bool} {sl pa opc : Nat} : s₀.Settled (State.ruleEcc s f ep sl pa opc) := by
  rw [State.ruleEcc_of_no_inject hs.unarmed]
  exact hs

theorem State.Settled.redirect (hs : s₀.Settled s) {f i : Nat} {e : SrcEnt} : s₀.Settled (State.redirect s f i e) := by
  simp only [State.redirect]
  split
  · exact hs.ruleEcc.denied.pieceFail
  · exact hs.ruleEcc.setSrc.sleepCheck

theorem State.Settled.reinject (hs : s₀.Settled s) {f : Nat} {p : Pkt} {data : List Pkt} : s₀.Settled (State.reinject s f p data) := by
  simp only [State.reinject]
  split
  · exact hs.denied.ownComp
  · exact (hs.foldl fun _ _ hs => hs.push)

theorem State.Settled.releaseHolds (hs : s₀.Settled s) {f : Nat} : s₀.Settled (State.releaseHolds s f) := by
  unfold State.releaseHolds
  exact (hs.foldl fun _ _ hs => (.ite hs (.ite (by split; exact (.ite hs.updNi.redirect hs.updNi); exact hs.updNi) hs.updNi.reinject)))

theorem State.Settled.setCl (hs : s₀.Settled s) {k : Nat} {c : Ecl} : s₀.Settled (State.setCl s k c) :=
  (hs.upd rfl)

theorem State.Settled.updCl (hs : s₀.Settled s) {k : Nat} {g : Ecl → Ecl} : s₀.Settled (State.updCl s k g) :=
  hs.setCl

theorem State.Settled.setThr (hs : s₀.Settled s) {k i : Nat} {x : Thr} : s₀.Settled (State.setThr s k i x) :=
  hs.updCl

theorem State.Settled.updThr (hs : s₀.Settled s) {k i : Nat} {g : Thr → Thr} : s₀.Settled (State.updThr s k i g) :=
  hs.setThr

theorem State.Settled.lsZero (hs : s₀.Settled s) {k : Nat} : s₀.Settled (State.lsZero s k) :=
  (hs.upd rfl)

theorem State.Settled.adopt (hs : s₀.Settled s) {k i : Nat} : s₀.Settled (State.adopt s k i) := by
  unfold State.adopt
  exact hs.updThr

theorem State.Settled.adoptIdle (hs : s₀.Settled s) {k i : Nat} : s₀.Settled (State.adoptIdle s k i) :=
  (.ite hs.adopt hs)

theorem State.Settled.updQ (hs : s₀.Settled s) {q : Nat} {g : QDyn → QDyn} : s₀.Settled (State.updQ s q g) :=
  (hs.upd rfl)

theorem State.Settled.updQm (hs : s₀.Settled s) {n : Nat} {g : Qm → Qm} : s₀.Settled (State.updQm s n g) :=
  (hs.upd rfl)

theorem State.Settled.updPort (hs : s₀.Settled s) {n p : Nat} {g : QPort → QPort} : s₀.Settled (State.updPort s n p g) :=
  hs.updQm

theorem State.Settled.ringJob (hs : s₀.Settled s) {n : Nat} {j : RingJob} : s₀.Settled (State.ringJob s n j) :=
  hs.updQm

theorem State.Settled.postEvent (hs : s₀.Settled s) {cnt src evq : Nat} {evv : Bool} {code queue arg : Nat} : s₀.Settled (State.postEvent s cnt src evq evv code queue arg) :=
  (.ite hs.bump hs.ringJob)

theorem State.Settled.queueEvent (hs : s₀.Settled s) {q code arg : Nat} : s₀.Settled (State.queueEvent s q code arg) :=
  (.ite hs hs.postEvent)

theorem State.Settled.dropDeliveries (hs : s₀.Settled s) {q : Nat} : s₀.Settled (State.dropDeliveries s q) :=
  hs.updQm

theorem State.Settled.discardQueue (hs : s₀.Settled s) {q : Nat} : s₀.Settled (State.discardQueue s q) :=
  (.updQ (.updQm (.dropDeliveries (.ite hs hs.bump))))

theorem State.Settled.queueSwitch (hs : s₀.Settled s) {q dOld dNew : Nat} : s₀.Settled (State.queueSwitch s q dOld dNew) :=
  (.updQ (.ite (.updQ (.ite hs.discardQueue.queueEvent hs)) (.ite hs.discardQueue.queueEvent hs)))

theorem State.Settled.portSwitch (hs : s₀.Settled s) {n p : Nat} {t : Int} : s₀.Settled (State.portSwitch s n p t) := by
  simp only [State.portSwitch]
  exact (.ite hs.updPort.updPort (.ite hs.updPort.updPort.setReg.setReg.setRf (by split; exact hs.updPort.updPort.setReg.setReg.setRf.postEvent; exact hs.updPort.updPort.setReg.setReg.setRf.bump)))

theorem State.Settled.qmSwitch (hs : s₀.Settled s) {t : Int} : s₀.Settled (State.qmSwitch s t) :=
  (hs.foldl fun _ _ hs => ((hs.foldl fun _ _ hs => hs.queueSwitch).foldl fun _ _ hs => hs.portSwitch))

theorem State.Settled.freezeEnd (hs : s₀.Settled s)  : s₀.Settled (State.freezeEnd s) :=
  (.ite hs (hs.upd rfl))

theorem State.Settled.slcSwitch (hs : s₀.Settled s)  : s₀.Settled (State.slcSwitch s) :=
  (hs.upd rfl).freezeEnd

theorem State.Settled.cover (hs : s₀.Settled s) {k : FenceKey} : s₀.Settled (State.cover s k) :=
  (hs.upd rfl)

theorem State.Settled.restartCluster (hs : s₀.Settled s) {k : Nat} : s₀.Settled (State.restartCluster s k) :=
  (hs.lsZero.bump.updCl.foldl fun _ _ hs => (.ite (.updThr (.ite hs hs.adopt)) hs))

theorem State.Settled.dropKeys (hs : s₀.Settled s) {ks : List FenceKey} : s₀.Settled (State.dropKeys s ks) :=
  (hs.upd rfl)

theorem State.Settled.clearRouter (hs : s₀.Settled s) {n : Nat} : s₀.Settled (State.clearRouter s n) :=
  (hs.upd rfl)

theorem State.Settled.clearHome (hs : s₀.Settled s) {k : Nat} : s₀.Settled (State.clearHome s k) :=
  (hs.setHm.upd rfl)

theorem State.Settled.unfenceUnit (hs : s₀.Settled s) {u : UnitRef} : s₀.Settled (State.unfenceUnit s u) := by
  unfold State.unfenceUnit
  exact (.ite hs (by split; exact hs.setMap.clearRouter.dropKeys; exact hs.setMap.setMap.updNi.clearHome.dropKeys; exact hs.setMap.setMap.updNi.restartCluster.dropKeys; exact hs.setMap.updNi.dropKeys; exact hs))

theorem State.Settled.quadsNow (hs : s₀.Settled s)  : s₀.Settled (State.quadsNow s) :=
  (hs.foldl fun _ _ hs => (.ite hs.setRf.dropKeys hs))

theorem State.Settled.unfenceAll (hs : s₀.Settled s)  : s₀.Settled (State.unfenceAll s) :=
  (hs.foldl fun _ _ hs => hs.unfenceUnit).quadsNow

theorem State.Settled.linksBack (hs : s₀.Settled s)  : s₀.Settled (State.linksBack s) :=
  (hs.dropKeys.upd rfl)

theorem State.Settled.adoptAll (hs : s₀.Settled s)  : s₀.Settled (State.adoptAll s) :=
  (hs.foldl fun _ _ hs => (.ite hs hs.adoptIdle))

theorem State.Settled.coverFences (hs : s₀.Settled s)  : s₀.Settled (State.coverFences s) := by
  have h1 : s₀.Settled (if s.epo.first then s
      else { s with fc := { s.fc with bare := s.fencedKeys.filter (fun k => !(s.prg.fenced.flatMap keysOf).contains k) } }) :=
    .ite hs (hs.upd rfl)
  simp only [State.coverFences]
  split
  · exact (.cover (h1.foldl fun _ _ hs => hs.cover))
  · exact (h1.foldl fun _ _ hs => hs.cover)

end Sys2Proof.Machine

namespace Sys2Proof.Machine
variable {s₀ s t : State}

/-! ### The epoch switch -/

theorem State.applyShadows_rest : { s.applyShadows with regs := s.regs, cyc := s.cyc, shadows := s.shadows } = s := by
  have h : s.RegsOnly (s.shadows.foldl (fun s kv => match regAt kv.1, kv.2 with
    | some (r, base, i), some v => s.setReg r (r.spec.epochWord (s.reg r base i) v.toNat) base i
    | _, _ => s) s) := by
    refine State.RegsOnly.refl.foldl (fun t kv ht => ?_) _
    split
    · exact ht.setReg ..
    · exact ht
  exact (congrArg (fun t : State => { t with shadows := s.shadows }) h :)

/-- A state in which an epoch switch has begun: the new epoch, the mode and the program of the image are in force. -/
structure State.Switched (s t : State) : Prop where
  cur : t.epo.cur = !s.epo.cur
  dual : t.epo.dual = true
  free : t.epo.t = none
  count : t.epo.count = s.epo.count + 1
  drain : t.epo.drain = imgDrain s.prg.store
  prim : t.prim = .dual
  running : t.prg.running = true
  progId : t.prg.progId = imgProg s.prg.store
  pc : t.prg.pc = s.prg.pc
  noAbort : t.prg.abort = false
  noClove : t.prg.clove = none
  tabs : t.tabs = s.tabs
  unarmed : t.fc.inject = none

theorem State.Switched.settled {u : State} (h : s.Switched t) (hu : t.Settled u) : s.Switched u := by
  obtain ⟨hprim, hprg, htabs, -, hepo, hinj⟩ := hu
  obtain ⟨cur, dual, free, count, drain, prim, running, progId, pc, abort, clove, tabs, -⟩ := h
  exact ⟨hepo ▸ cur, hepo ▸ dual, hepo ▸ free, hepo ▸ count, hepo ▸ drain, hprim.trans prim, hprg ▸ running, hprg ▸ progId, hprg ▸ pc,
    hprg ▸ abort, hprg ▸ clove, htabs.trans tabs, hinj⟩

theorem State.Switched.applyShadows (h : s.Switched t) : s.Switched t.applyShadows ∧ t.applyShadows.shadows = [] := by
  have hr := State.applyShadows_rest (s := t)
  generalize hu : t.applyShadows = u at hr
  have hsh : u.shadows = [] := by rw [← hu]; rfl
  rw [← hr] at h
  exact ⟨⟨h.cur, h.dual, h.free, h.count, h.drain, h.prim, h.running, h.progId, h.pc, h.noAbort, h.noClove, h.tabs, h.unarmed⟩, hsh⟩

theorem State.Switched.moveBuckets (h : s.Switched t) : s.Switched t.moveBuckets ∧ t.moveBuckets.shadows = t.shadows := by
  have hm : ({ t with epo := { t.epo with moves := t.epo.moves ++ t.bucketMoves } } : State).Settled t.moveBuckets :=
    State.Settled.foldl (State.Settled.refl (s := { t with epo := _ }) h.unarmed) fun _ _ h => h.updHm
  refine ⟨State.Switched.settled ?_ hm, hm.shadows⟩
  exact ⟨h.cur, h.dual, h.free, h.count, h.drain, h.prim, h.running, h.progId, h.pc, h.noAbort, h.noClove, h.tabs, h.unarmed⟩

/-- The units follow a switch that has begun, and no Epoch write is left waiting. -/
theorem State.Switched.units (h : s.Switched t) {x : Int} {u : State} (hu : ((t.applyShadows.qmSwitch x).slcSwitch.adoptAll.moveBuckets) = u) :
    s.Switched ({ u with epo := { u.epo with first := true } } : State).maskAll ∧
      ({ u with epo := { u.epo with first := true } } : State).maskAll.shadows = [] := by
  obtain ⟨ha, hsa⟩ := h.applyShadows
  have hq := (State.Settled.refl ha.unarmed).qmSwitch (t := x) |>.slcSwitch.adoptAll
  obtain ⟨hb, hsb⟩ := (ha.settled hq).moveBuckets
  rw [hu] at hb hsb
  have hf : s.Switched { u with epo := { u.epo with first := true } } :=
    ⟨hb.cur, hb.dual, hb.free, hb.count, hb.drain, hb.prim, hb.running, hb.progId, hb.pc, hb.noAbort, hb.noClove, hb.tabs, hb.unarmed⟩
  have hm := (State.Settled.refl hf.unarmed).maskAll
  exact ⟨hf.settled hm, hm.shadows.trans (hsb.trans (hq.shadows.trans hsa))⟩

/-- The fences that a switch lifts. -/
theorem State.Switched.fences (h : s.Switched t) {c : Prop} [Decidable c] :
    s.Switched (if c then t.coverFences.unfenceAll.linksBack else t.coverFences.unfenceAll) :=
  have hu := (State.Settled.refl h.unarmed).coverFences.unfenceAll
  h.settled (.ite hu.linksBack hu)

theorem State.Switched.releases (h : s.Switched t) (hs : t.shadows = []) :
    s.Switched (allFids.foldl State.releaseHolds t) ∧ (allFids.foldl State.releaseHolds t).shadows = [] := by
  have hr := (State.Settled.refl h.unarmed).foldl (g := State.releaseHolds) (xs := allFids) fun _ _ h => h.releaseHolds
  exact ⟨h.settled hr, hr.shadows.trans hs⟩

/-- The whole switch at `t`: its effects, with no Epoch write left waiting. -/
theorem State.switchEpoch_switched (h : s.prim = .load ∨ s.prim = .run) (hc : s.prg.clove = none) (ha : s.prg.abort = false)
    (hi : s.fc.inject = none) (t : Int) : ∃ u, s.switchEpoch t = u.seqAt 8 ∧ s.Switched u ∧ u.shadows = [] := by
  have hq : (s.keepEpochs.prim == .quiesced) = false := by
    rcases h with e | e <;> exact (congrArg (· == Primary.quiesced) e :)
  simp only [State.switchEpoch, hq]
  generalize hX : State.maskAll _ = X
  obtain ⟨h1, h1s⟩ : s.Switched X ∧ X.shadows = [] := by
    rw [← hX]
    refine State.Switched.units (.fences ?_) rfl
    exact ⟨rfl, rfl, rfl, rfl, rfl, if_pos h, rfl, rfl, rfl, ha, hc, rfl, hi⟩
  rw [h1.noClove, if_neg Bool.false_ne_true]
  obtain ⟨h2, h2s⟩ := h1.releases h1s
  exact ⟨_, State.prgNext_of_no_abort h2.noAbort 8, h2, h2s⟩

/-! ### The end of the drain -/

theorem State.powerDrained_of_none (h : ∀ d, d < 18 → (s.domain d).phase ≠ 3) : s.powerDrained = s := by
  have hnil : (List.range 18).filter (fun d => (s.domain d).phase == 3) = [] :=
    List.filter_eq_nil_iff.mpr fun d hd => by simpa using h d (List.mem_range.mp hd)
  rw [State.powerDrained, hnil, List.foldl_nil]

/-- The old bank's end, before what waits for it. -/
def State.bankFreed (s : State) : State :=
  { { s with epo := { s.epo with dual := false, overrun := false, quiet := false }, rkCopy := some s.tick }.dropOldRings with prim := .run }

theorem State.bankFreed_fields : s.bankFreed.prim = .run ∧ s.bankFreed.epo.dual = false ∧ s.bankFreed.epo.cur = s.epo.cur ∧
    s.bankFreed.rkCopy = some s.tick ∧ s.bankFreed.prg = s.prg ∧ s.bankFreed.dom = s.dom := ⟨rfl, rfl, rfl, rfl, rfl, rfl⟩

/-- Nothing waits for the end of the drain: the fabric is in RUN and the shadow is filled from the active bank. -/
theorem State.freeBank_eq (hp : s.prim = .dual) (hd : s.drainPend = false) (hw : s.prg.waiting = [])
    (hph : ∀ d, d < 18 → (s.domain d).phase ≠ 3) (hx : s.prg.state ≠ .executing ∨ s.prg.wait ≠ .drain) :
    s.freeBank = s.bankFreed.resetShadow false := by
  have hprg : (s.bankFreed.resetShadow false).prg = s.prg := rfl
  have hdom (d : Nat) : (s.bankFreed.resetShadow false).domain d = s.domain d := rfl
  have hexec : ¬((s.bankFreed.resetShadow false).prg.state = .executing ∧ (s.bankFreed.resetShadow false).prg.wait = .drain) := by
    rw [hprg]
    exact fun h => hx.elim (· h.1) (· h.2)
  unfold State.freeBank
  extract_lets epo s1 s2 s3 s4
  have e2 : s2 = s.bankFreed := (if_pos hp).trans (if_neg (by rw [show s1.drainPend = s.drainPend from rfl, hd]; exact Bool.false_ne_true))
  have e3 : s3 = s.bankFreed.resetShadow false := congrArg (State.resetShadow · false) e2
  have e4 : s4 = s.bankFreed.resetShadow false := (if_neg (e3 ▸ hexec)).trans e3
  rw [e4, State.powerDrained_of_none fun d h e => hph d h ((congrArg Dom.phase (hdom d)).symm.trans e)]
  exact State.pump_of_nil ((congrArg PrgSt.waiting hprg).trans hw)

/-! ### The copy of a bank -/

theorem SMap.get_foldl_set_apart {m : SMap Nat} {xs : List (Nat × Nat)} {k : Nat} (h : ∀ x ∈ xs, x.1 ≠ k) :
    SMap.get 0 (xs.foldl (fun m kv => SMap.set 0 m kv.1 kv.2) m) k = SMap.get 0 m k := by
  induction xs generalizing m with
  | nil => rfl
  | cons x xs ih =>
    rw [List.foldl_cons, ih fun y hy => h y (List.mem_cons_of_mem _ hy)]
    exact SMap.get_set_ne _ _ _ _ (h x List.mem_cons_self).symm

theorem SMap.le_key_of_wfFrom {xs : SMap Nat} {lo : Nat} {z : Nat × Nat} (hx : SMap.wfFrom 0 lo xs = true) (hz : z ∈ xs) : lo ≤ z.1 := by
  induction xs generalizing lo with
  | nil => cases hz
  | cons x xs ih =>
    simp only [SMap.wfFrom, Bool.and_eq_true, decide_eq_true_eq] at hx
    rcases List.mem_cons.mp hz with rfl | hz
    · exact hx.1.1
    · exact Nat.le_of_succ_le (Nat.le_trans (Nat.succ_le_succ hx.1.1) (ih hx.2 hz))

/-- Entries of a canonical map that are copied under keys of their own read as they stood. -/
theorem SMap.get_foldl_set_mapped {m : SMap Nat} {g : Nat → Nat} {p : Nat → Bool} {k : Nat} (hp : p k = true)
    (hg : ∀ a, p a = true → g a = g k → a = k) {xs : SMap Nat} {lo : Nat} (hx : SMap.wfFrom 0 lo xs = true) (hm : SMap.get 0 m (g k) = 0) :
    SMap.get 0 (((xs.filter (fun kv => p kv.1)).map (fun kv => (g kv.1, kv.2))).foldl (fun m kv => SMap.set 0 m kv.1 kv.2) m) (g k) =
      SMap.get 0 xs k := by
  induction xs generalizing m lo with
  | nil => exact hm
  | cons x xs ih =>
    obtain ⟨a, v⟩ := x
    simp only [SMap.wfFrom, Bool.and_eq_true, decide_eq_true_eq] at hx
    obtain ⟨-, hrest⟩ := hx
    by_cases hak : a = k
    · subst hak
      have hapart : ∀ y ∈ (xs.filter (fun kv => p kv.1)).map (fun kv => (g kv.1, kv.2)), y.1 ≠ g a := by
        intro y hy he
        obtain ⟨z, hz, rfl⟩ := List.mem_map.mp hy
        obtain ⟨hz, hpz⟩ := List.mem_filter.mp hz
        have hza := hg z.1 hpz he
        have := SMap.le_key_of_wfFrom hrest hz
        omega
      rw [List.filter_cons_of_pos (p := fun kv : Nat × Nat => p kv.1) hp, List.map_cons, List.foldl_cons, SMap.get_foldl_set_apart hapart]
      simp [SMap.get, SMap.get_set]
    · have hget : SMap.get 0 ((a, v) :: xs) k = SMap.get 0 xs k := if_neg hak
      rw [hget]
      by_cases hpa : p a = true
      · rw [List.filter_cons_of_pos (p := fun kv : Nat × Nat => p kv.1) hpa, List.map_cons, List.foldl_cons]
        refine ih hrest ?_
        rw [SMap.get_set_ne _ _ _ _ fun e => hak (hg a hpa e.symm)]
        exact hm
      · rw [List.filter_cons_of_neg (p := fun kv : Nat × Nat => p kv.1) hpa]
        exact ih hrest hm

/-- The cells of bank `b` that `ok` selects, by key. -/
def tabIn (b : Nat) (ok : Nat → Nat → Bool) (k : Nat) : Bool :=
  let u := k / 65536 / 8
  u / 1024 / 16 == b && ok (u / 1024 % 16) (u % 1024)

/-- The key of the same cell in bank `b`. -/
def tabInBank (b k : Nat) : Nat := k % (16 * 1024 * 8 * 65536) + b * (16 * 1024 * 8 * 65536)

theorem tabIn_tabKey {b table unit port idx : Nat} {ok : Nat → Nat → Bool} (ht : table < 16) (hu : unit < 1024) (hp : port < 8)
    (hi : idx < 65536) : tabIn b ok (tabKey b table unit port idx) = ok table unit := by
  have h : tabKey b table unit port idx / 65536 / 8 = (b * 16 + table) * 1024 + unit := by
    unfold tabKey
    omega
  unfold tabIn
  dsimp only
  rw [h, show ((b * 16 + table) * 1024 + unit) / 1024 / 16 = b by omega, show ((b * 16 + table) * 1024 + unit) / 1024 % 16 = table by omega,
    show ((b * 16 + table) * 1024 + unit) % 1024 = unit by omega, beq_self_eq_true, Bool.true_and]

theorem tabInBank_tabKey {b b' table unit port idx : Nat} (ht : table < 16) (hu : unit < 1024) (hp : port < 8) (hi : idx < 65536) :
    tabInBank b' (tabKey b table unit port idx) = tabKey b' table unit port idx := by
  unfold tabInBank tabKey
  omega

theorem tabInBank_inj {b b' : Nat} {ok : Nat → Nat → Bool} {a k : Nat} (ha : tabIn b ok a = true) (hk : tabIn b ok k = true)
    (h : tabInBank b' a = tabInBank b' k) : a = k := by
  simp only [tabIn, Bool.and_eq_true, beq_iff_eq] at ha hk
  unfold tabInBank at h
  omega

/-- A bank copied to the other one: the copied cells read alike. -/
theorem State.tab_copyTabs {b table unit port idx : Nat} {ok : Nat → Nat → Bool} (hw : SMap.wf 0 s.tabs = true) (ht : table < 16)
    (hu : unit < 1024) (hp : port < 8) (hi : idx < 65536) (hok : ok table unit = true) :
    (s.copyTabs b ok).tab (1 - b) table unit port idx = s.tab b table unit port idx := by
  have hin : tabIn b ok (tabKey b table unit port idx) = true := (tabIn_tabKey ht hu hp hi).trans hok
  have hkept : SMap.get 0 (s.tabs.filter (fun kv => !tabIn (1 - b) ok kv.1)) (tabInBank (1 - b) (tabKey b table unit port idx)) = 0 := by
    refine (SMap.get_filter_key 0 (fun k => !tabIn (1 - b) ok k) s.tabs _).trans (if_neg ?_)
    rw [tabInBank_tabKey ht hu hp hi, tabIn_tabKey ht hu hp hi, hok]
    exact Bool.false_ne_true
  have h := SMap.get_foldl_set_mapped (g := tabInBank (1 - b)) hin (fun a ha => tabInBank_inj ha hin) hw hkept
  rw [tabInBank_tabKey ht hu hp hi] at h
  exact h

/-- Settles O22. -/
theorem epochSwitchAndDrain : Obligations.EpochSwitchAndDrain := by
  refine ⟨⟨fun s t ht hh hw hn hm hp hc ha hi => ?_, fun s t ht hn => ?_⟩, fun s hp hd ho hat hold => ?_, fun s hp hd ho hold => ?_,
    fun s hp hd hw hph hx => ?_, fun s hh hd ho hat hold => ?_, fun s hk hw hdn => ?_⟩
  · obtain ⟨u, e, hu, hs⟩ := State.switchEpoch_switched hp hc ha hi t
    refine ⟨u.seqAt 8, ?_, hu.cur, hu.dual, hu.free, hu.count, hu.prim, hu.drain, hu.running, hu.progId, congrArg (· + 8) hu.pc, hs, hu.tabs⟩
    rw [← e]
    unfold exec execEpochSwitch
    rw [ht]
    exact if_neg (by simp [hh, hw, hm]; omega)
  · unfold exec execEpochSwitch
    rw [ht]
    refine if_pos ?_
    rcases hn with h | h
    · exact .inr (.inr (.inl h))
    · exact .inr (.inr (.inr (by simp [h])))
  · exact (if_neg (by simp [hp, hd, ho]; omega)).trans (if_pos (by simp [hold]))
  · exact if_neg (by simp [hp, hd, ho, hold])
  · obtain ⟨hprim, hdual, hcur, hcopy, -, -⟩ := s.bankFreed_fields
    rw [State.freeBank_eq hp hd hw hph hx]
    exact ⟨hprim, hdual, hcur, hcopy⟩
  · refine ⟨({ s with epo := { s.epo with overrun := true } } : State).setRf .EPO_STATUS 3 1 1, ?_, rfl, hd,
      State.rf_setRf_same _ .EPO_STATUS 3 1 1 0 0 (by omega), rfl⟩
    exact (if_neg (by simp [hh, hd, ho]; omega)).trans (if_neg (by simp [hold]))
  · refine ⟨_, if_neg (fun h => by rw [Option.isNone_iff_eq_none.mp h] at hk; cases hk), rfl, fun i hi => ?_, rfl⟩
    have h := State.tab_copyTabs (b := bankOf s.epo.cur) (ok := fun t u => t == 5 && !s.domDown (tabDomain 5 u)) hw (table := 5) (unit := 4) (port := 0)
      (by omega) (by omega) (by omega) hi (by simp [show tabDomain 5 4 = 1 from rfl, hdn])
    rwa [show 1 - bankOf s.epo.cur = s.shadowBank by unfold bankOf State.shadowBank; cases s.epo.cur <;> rfl] at h

end Sys2Proof.Machine

namespace Sys2Proof.Machine

/-! ### The pieces of a request -/

/-- A piece of a range is a naturally aligned power of two of at most a line that fits in what is left. -/
theorem blockLog_spec {a rem : Nat} (h : rem ≠ 0) : blockLog a rem ≤ 6 ∧ 2 ^ blockLog a rem ∣ a ∧ 2 ^ blockLog a rem ≤ rem := by
  unfold blockLog
  cases hf : [6, 5, 4, 3, 2, 1].find? (fun k => a % 2 ^ k == 0 && decide (2 ^ k ≤ rem)) with
  | none => exact ⟨by decide, Nat.one_dvd a, Nat.one_le_iff_ne_zero.mpr h⟩
  | some k =>
    have hk := List.find?_some hf
    have hm := List.mem_of_find?_eq_some hf
    simp only [Bool.and_eq_true, beq_iff_eq, decide_eq_true_eq] at hk
    exact ⟨by simp at hm; simp; omega, Nat.dvd_of_mod_eq_zero hk.1, hk.2⟩

theorem le_find?_of_descending {p : Nat → Bool} {xs : List Nat} {k : Nat} (hx : xs.Pairwise (· > ·)) (hk : k ∈ xs) (hp : p k = true) :
    k ≤ (xs.find? p).getD 0 := by
  induction xs with
  | nil => cases hk
  | cons x xs ih =>
    obtain ⟨hlt, hx⟩ := List.pairwise_cons.mp hx
    by_cases hpx : p x = true
    · rw [List.find?_cons_of_pos hpx]
      rcases List.mem_cons.mp hk with rfl | hk
      · exact Nat.le_refl _
      · exact Nat.le_of_lt (hlt k hk)
    · rw [List.find?_cons_of_neg hpx]
      rcases List.mem_cons.mp hk with rfl | hk
      · exact absurd hp hpx
      · exact ih hx hk

/-- No larger piece would do. -/
theorem le_blockLog {a rem k : Nat} (hk : k ≤ 6) (ha : 2 ^ k ∣ a) (hr : 2 ^ k ≤ rem) : k ≤ blockLog a rem := by
  rcases Nat.eq_zero_or_pos k with rfl | h0
  · exact Nat.zero_le _
  · refine le_find?_of_descending (by decide) ?_ (by simp [Nat.mod_eq_zero_of_dvd ha, hr])
    simp only [List.mem_cons, List.not_mem_nil, or_false]
    omega

/-- The range left after a piece is a range of pieces again. -/
theorem splitRange_succ {n a rem : Nat} (h : rem ≠ 0) : splitRange (n + 1) a rem =
    (a, blockLog a rem) :: splitRange n (a + 2 ^ blockLog a rem) (rem - 2 ^ blockLog a rem) := if_neg h

theorem splitRange_zero (n a : Nat) : splitRange n a 0 = [] := by
  cases n <;> rfl

/-- The pieces lie in the range in ascending order. -/
theorem splitRange_inside {n a rem : Nat} : (∀ p ∈ splitRange n a rem, p.2 ≤ 6 ∧ p.1 % 2 ^ p.2 = 0 ∧ a ≤ p.1 ∧ p.1 + 2 ^ p.2 ≤ a + rem) ∧
    (splitRange n a rem).Pairwise (fun p q => p.1 + 2 ^ p.2 ≤ q.1) := by
  induction n generalizing a rem with
  | zero => exact ⟨nofun, .nil⟩
  | succ n ih =>
    by_cases h : rem = 0
    · rw [h, splitRange_zero]
      exact ⟨nofun, .nil⟩
    · obtain ⟨h6, hd, hr⟩ := blockLog_spec (a := a) h
      rw [splitRange_succ h]
      generalize blockLog a rem = k at h6 hd hr
      obtain ⟨hin, hord⟩ := ih (a := a + 2 ^ k) (rem := rem - 2 ^ k)
      refine ⟨fun p hp => ?_, List.pairwise_cons.mpr ⟨fun p hp => (hin p hp).2.2.1, hord⟩⟩
      rcases List.mem_cons.mp hp with rfl | hp
      · exact ⟨h6, Nat.mod_eq_zero_of_dvd hd, Nat.le_refl _, by dsimp only; omega⟩
      · obtain ⟨h1, h2, h3, h4⟩ := hin p hp
        exact ⟨h1, h2, by omega, by omega⟩

/-- The bytes that pieces cover. -/
def pieceBytes (ps : List (Nat × Nat)) : Nat := (ps.map (fun p => 2 ^ p.2)).sum

/-- A piece of a range, and pieces that cover what is left, cover the range. -/
theorem pieceBytes_split {n a rem : Nat} (h : rem ≠ 0)
    (hrest : pieceBytes (splitRange n (a + 2 ^ blockLog a rem) (rem - 2 ^ blockLog a rem)) = rem - 2 ^ blockLog a rem) :
    pieceBytes (splitRange (n + 1) a rem) = rem := by
  have hr := (blockLog_spec (a := a) h).2.2
  rw [splitRange_succ h, pieceBytes, List.map_cons, List.sum_cons]
  exact (congrArg _ hrest).trans (Nat.add_sub_cancel' hr)

/-- Less than an aligned block: each piece at least halves what is left. -/
theorem pieceBytes_below {j n a rem : Nat} (hj : j ≤ 6) (ha : 2 ^ j ∣ a) (hr : rem < 2 ^ j) (hn : j ≤ n) :
    pieceBytes (splitRange n a rem) = rem := by
  induction n generalizing j a rem with
  | zero =>
    obtain rfl := Nat.le_zero.mp hn
    obtain rfl := Nat.lt_one_iff.mp hr
    rfl
  | succ n ih =>
    by_cases h : rem = 0
    · rw [h, splitRange_zero]
      rfl
    · obtain ⟨h6, hd, hle⟩ := blockLog_spec (a := a) h
      have hlt : blockLog a rem < j := (Nat.pow_lt_pow_iff_right (by decide)).mp (Nat.lt_of_le_of_lt hle hr)
      refine pieceBytes_split h (ih h6 (Nat.dvd_add hd (Nat.dvd_refl _)) ?_ (by omega))
      refine Nat.lt_of_not_le fun hbig => ?_
      have hnext : 2 ^ (blockLog a rem + 1) ≤ rem := by omega
      have := le_blockLog (k := blockLog a rem + 1) (by omega) (Nat.dvd_trans (Nat.pow_dvd_pow 2 hlt) ha) hnext
      omega

/-- From an aligned address whole lines go first. -/
theorem pieceBytes_lines {n a rem : Nat} (ha : 2 ^ 6 ∣ a) (hn : rem / 64 + 6 ≤ n) : pieceBytes (splitRange n a rem) = rem := by
  induction n generalizing a rem with
  | zero => omega
  | succ n ih =>
    by_cases h : rem < 64
    · exact pieceBytes_below (Nat.le_refl _) ha h (by omega)
    · have h0 : rem ≠ 0 := by omega
      have hk : blockLog a rem = 6 := Nat.le_antisymm (blockLog_spec h0).1 (le_blockLog (Nat.le_refl _) ha (by omega))
      refine pieceBytes_split h0 ?_
      rw [hk]
      exact ih (Nat.dvd_add ha (Nat.dvd_refl _)) (by omega)

/-- Each piece up to the first aligned address doubles the alignment. -/
theorem pieceBytes_from {d j n a rem : Nat} (hd : j + d = 6) (ha : 2 ^ j ∣ a) (hn : rem / 64 + 6 + d ≤ n) :
    pieceBytes (splitRange n a rem) = rem := by
  induction d generalizing j n a rem with
  | zero =>
    obtain rfl : j = 6 := hd
    exact pieceBytes_lines ha hn
  | succ d ih =>
    by_cases hnext : 2 ^ (j + 1) ∣ a
    · exact ih (by omega) hnext (by omega)
    by_cases hr : rem < 2 ^ j
    · exact pieceBytes_below (by omega) ha hr (by omega)
    · have h0 : rem ≠ 0 := fun h => hr (h ▸ Nat.two_pow_pos j)
      obtain ⟨n, rfl⟩ : ∃ m, n = m + 1 := ⟨n - 1, by omega⟩
      obtain ⟨-, hdv, -⟩ := blockLog_spec (a := a) h0
      have hge := le_blockLog (k := j) (by omega) ha (Nat.not_lt.mp hr)
      have hk : blockLog a rem = j := Nat.le_antisymm
        (Nat.le_of_not_lt fun hlt => hnext (Nat.dvd_trans (Nat.pow_dvd_pow 2 hlt) hdv)) hge
      refine pieceBytes_split h0 ?_
      rw [hk]
      refine ih (j := j + 1) (by omega) ?_ (by have := Nat.div_le_div_right (c := 64) (Nat.sub_le rem (2 ^ j)); omega)
      obtain ⟨q, rfl⟩ := ha
      have hodd : q % 2 = 1 := (Nat.mod_two_eq_zero_or_one q).resolve_left fun he =>
        hnext ⟨q / 2, by rw [Nat.pow_succ, Nat.mul_assoc, show 2 * (q / 2) = q by omega]⟩
      exact ⟨(q + 1) / 2, by rw [Nat.pow_succ, Nat.mul_assoc, show 2 * ((q + 1) / 2) = q + 1 by omega, Nat.mul_add, Nat.mul_one]⟩

/-- Settles O23: the pieces up to the first line, the whole lines and the pieces after them fit in the fuel. -/
theorem requestsSplitIntoAlignedPieces : Obligations.RequestsSplitIntoAlignedPieces := by
  intro a len _ hlen
  obtain ⟨hin, hord⟩ := splitRange_inside (n := 128) (a := a) (rem := len)
  exact ⟨pieceBytes_from (d := 6) (j := 0) rfl (Nat.one_dvd a) (by omega), hin, hord⟩

end Sys2Proof.Machine

namespace Sys2Proof.Machine
variable {s t : State}

/-! ### Requests at a partner port -/

/-- The end of a request that has been checked: its slice, its freeze and reset, its rules and its room. -/
theorem execIngressAccept_request {fid : Fid} {h : Beat} (hp : isPartner fid.toNat = true) (hl : (s.nif fid.toNat).link = .up)
    (hi : s.fc.inject = none) (hb : (s.nif fid.toNat).beats = [h]) (hn : h.net = .req) (hlast : h.last = true) :
    execIngressAccept fid .clean .clean s = .next ((s.takeReq fid.toNat [h]).getD s) := by
  have hrsp : (s.nif fid.toNat).message .rsp = none := by simp [Ni.message, hb, hn]
  have hreq : (s.nif fid.toNat).message .req = some [h] := by simp [Ni.message, hb, hn, hlast]
  have hchk : s.takeChecked fid.toNat [h] .clean .clean = s.takeReq fid.toNat [h] := by
    unfold State.takeChecked
    cases ht : s.takeReq fid.toNat [h] with
    | none => rfl
    | some t =>
      simp only [List.head?_cons, State.tableCheck, State.checkWord_of_no_inject hi, State.ruleEcc_of_no_inject hi]
      exact ht
  unfold execIngressAccept
  rw [if_neg (by simp [hp]), if_neg (by simp [hl])]
  simp [hrsp, hreq, hchk, hb, hn]

section
variable {f : Nat} {h : Beat} (hl : (s.nif f).link = .up) (hr : s.prim = .run)
include hl hr

theorem State.takeReq_bad (hb : classPermits f h.opc.toNat = false ∨ beatFormatOk h = false) :
    s.takeReq f [h] = some ((s.takeBeat f h).badReq f h) := by
  unfold State.takeReq
  dsimp only
  rw [if_neg (by simp [hl, hr]), if_pos (by rcases hb with e | e <;> simp [e])]
  rfl

variable (he : s.epo.first = true) (hc : classPermits f h.opc.toNat = true) (hf : beatFormatOk h = true) (ha : h.addr.toNat < 140737488355328)
include he hc hf ha

/-- Without room in the source tracker a request waits. -/
theorem State.takeReq_no_room (hroom : (s.freeSrc f).length < (beatPieces h).length) : s.takeReq f [h] = none := by
  simp [State.takeReq, hl, hr, he, hc, hf, Nat.not_le.mpr ha, hroom]

variable (hroom : (beatPieces h).length ≤ (s.freeSrc f).length)
include hroom

theorem State.takeReq_no_slice (hs : s.sliceStamp f (s.epOf f) h = none) :
    s.takeReq f [h] = some (((s.takeBeat f h).unmapped f).refuse f h 1) := by
  simp [State.takeReq, hl, hr, he, hc, hf, Nat.not_le.mpr ha, Nat.not_lt.mpr hroom, hs]

variable {sl : Nat} (hs : s.sliceStamp f (s.epOf f) h = some sl)
include hs

theorem State.takeReq_frozen (hh : s.sliceHolds f h.opc.toNat sl = true) : s.takeReq f [h] = none := by
  simp [State.takeReq, hl, hr, he, hc, hf, Nat.not_le.mpr ha, Nat.not_lt.mpr hroom, hs, hh]

variable (hh : s.sliceHolds f h.opc.toNat sl = false)
include hh

theorem State.takeReq_reset (hx : s.sliceRefuses f h.opc.toNat sl = true) : s.takeReq f [h] = some ((s.takeBeat f h).refuse f h 4 sl) := by
  simp [State.takeReq, hl, hr, he, hc, hf, Nat.not_le.mpr ha, Nat.not_lt.mpr hroom, hs, hh, hx]

variable (hx : s.sliceRefuses f h.opc.toNat sl = false)
  (hcross : pclass f = 5 → s.cannotCross f f h.opc.toNat (s.tcOf f (s.epOf f) .req h.opc.toNat) = false)
include hx hcross

theorem State.takeReq_denied {cause entry pa : Nat} (hd : s.precheck f (s.epOf f) sl (s.domainOf (s.epOf f) f) h = .error (cause, entry, pa)) :
    s.takeReq f [h] = some (((s.takeBeat f h).denied f true f (s.domainOf (s.epOf f) f) h.opc.toNat cause entry pa).refuse f h 1 sl) := by
  have hno : ¬(pclass f = 5 ∧ s.cannotCross f f h.opc.toNat (s.tcOf f (s.epOf f) .req h.opc.toNat) = true) := fun e => by
    rw [hcross e.1] at e
    exact Bool.false_ne_true e.2
  simp [State.takeReq, hl, hr, he, hc, hf, Nat.not_le.mpr ha, Nat.not_lt.mpr hroom, hs, hh, hx, hno, hd]

/-- With its rules passed, a request enters when its TC0 slot is due, else it waits. -/
theorem State.takeReq_allowed {ps : List (Nat × Nat × Nat)} (hd : s.precheck f (s.epOf f) sl (s.domainOf (s.epOf f) f) h = .ok ps)
    (hps : ∀ p ∈ ps, p.2.2 < 0x120 ∨ 0x126 ≤ p.2.2) :
    s.takeReq f [h] = if (ps.head?).any (fun p => !s.mayAccept f .req h.opc.toNat p.2.2) = true then none
      else some (((s.takeBeat f h).overrideUsed f h.opc.toNat (s.domainOf (s.epOf f) f)).enter f h [] sl (s.domainOf (s.epOf f) f)
        (s.tcOf f (s.epOf f) .req h.opc.toNat) (s.epOf f) ps) := by
  have hno : ¬(pclass f = 5 ∧ s.cannotCross f f h.opc.toNat (s.tcOf f (s.epOf f) .req h.opc.toNat) = true) := fun e => by
    rw [hcross e.1] at e
    exact Bool.false_ne_true e.2
  have hlocal : ps.any (fun p => 0x120 ≤ p.2.2 && p.2.2 < 0x126 && s.cannotCross p.2.2 f h.opc.toNat (s.tcOf f (s.epOf f) .req h.opc.toNat)) = false :=
    List.any_eq_false.mpr fun p hp => by
      have : ¬(0x120 ≤ p.2.2 ∧ p.2.2 < 0x126) := by have := hps p hp; omega
      simp only [Bool.and_eq_true, decide_eq_true_eq]
      exact fun h => this h.1
  unfold State.takeReq
  dsimp only
  rw [if_neg (by simp [hl, hr]), if_neg (by simp [hc, hf, he]), if_neg (by simp [hr]), if_neg (by omega), if_neg (by omega), hs]
  dsimp only
  rw [if_neg (by simp [hh]), if_neg (by simp [hx]), if_neg hno, hd]
  dsimp only
  rw [hlocal, if_neg Bool.false_ne_true]
  rfl

end

/-! ### The earliest piece -/

theorem head?_insertOn {α : Type} (key : α → Nat) (x : α) (ys : List α) :
    (insertOn key x ys).head? = match ys.head? with
      | none => some x
      | some y => if key x < key y then some x else some y := by
  cases ys with
  | nil => rfl
  | cons y ys => exact (apply_ite List.head? ..)

/-- Insertions behind an element of least key leave it at the head. -/
theorem head?_foldl_insertOn {α : Type} (key : α → Nat) {xs acc : List α} {x : α} (h : acc.head? = some x) (hmin : ∀ y ∈ xs, y ≠ x → key x < key y) :
    (xs.foldl (fun acc y => insertOn key y acc) acc).head? = some x := by
  induction xs generalizing acc with
  | nil => exact h
  | cons y ys ih =>
    refine ih ?_ fun z hz => hmin z (List.mem_cons_of_mem _ hz)
    rw [head?_insertOn, h]
    refine if_neg fun hlt => ?_
    have hne : y ≠ x := fun e => by rw [e] at hlt; exact Nat.lt_irrefl _ hlt
    exact Nat.lt_asymm hlt (hmin y List.mem_cons_self hne)

theorem mem_foldl_insertOn {α : Type} (key : α → Nat) {xs acc : List α} {y : α} :
    y ∈ xs.foldl (fun acc z => insertOn key z acc) acc ↔ y ∈ xs ∨ y ∈ acc := by
  induction xs generalizing acc with
  | nil => simp
  | cons x xs ih =>
    rw [List.foldl_cons, ih, mem_insertOn, List.mem_cons, or_assoc, or_left_comm]

/-- The head of a sorted list is the one element of least key. -/
theorem head?_sortOn {α : Type} (key : α → Nat) {xs : List α} {x : α} (hx : x ∈ xs) (hmin : ∀ y ∈ xs, y ≠ x → key x < key y) :
    (sortOn key xs).head? = some x := by
  obtain ⟨as, bs, rfl⟩ := List.append_of_mem hx
  rw [sortOn, List.foldl_append, List.foldl_cons]
  refine head?_foldl_insertOn key ?_ fun y hy => hmin y (by simp [hy])
  rw [head?_insertOn]
  cases hacc : (as.foldl (fun acc y => insertOn key y acc) []).head? with
  | none => rfl
  | some y =>
    have hy : y ∈ as := by simpa using (mem_foldl_insertOn key).mp (List.mem_of_head? hacc)
    by_cases hne : y = x
    · rw [hne]
      exact ite_self _
    · exact if_pos (hmin y (List.mem_append_left _ hy) hne)

theorem execPieceIssue_first {fid : Fid} {i : Nat} {e : SrcEnt} (ht : tracked fid.toNat = true) (hf : s.niFenced fid.toNat = false)
    (hh : s.prim ≠ .halt) (hm : (i, e) ∈ (s.nif fid.toNat).ents) (hc : s.canIssue fid.toNat (s.nif fid.toNat).ents e = true)
    (hmin : ∀ j x, (j, x) ∈ (s.nif fid.toNat).ents → s.canIssue fid.toNat (s.nif fid.toNat).ents x = true → (j, x) ≠ (i, e) →
      e.trans * 4096 + e.off < x.trans * 4096 + x.off) : execPieceIssue fid s = .next (s.issue fid.toNat i e) := by
  have hhead := head?_sortOn (fun ie : Nat × SrcEnt => ie.2.trans * 4096 + ie.2.off)
    (xs := (s.nif fid.toNat).ents.filter (fun ie => s.canIssue fid.toNat (s.nif fid.toNat).ents ie.2)) (x := (i, e))
    (List.mem_filter.mpr ⟨hm, hc⟩) fun y hy hne => hmin y.1 y.2 (List.mem_filter.mp hy).1 (List.mem_filter.mp hy).2 hne
  unfold execPieceIssue
  rw [if_neg (by simp [ht]), if_neg (by simp [hf, hh])]
  dsimp only
  generalize sortOn _ _ = es at hhead
  cases es with
  | nil => cases hhead
  | cons x xs =>
    obtain rfl := Option.some.inj hhead
    rfl

/-- Settles O24. -/
theorem ingressTakesRequestsWhole : Obligations.IngressTakesRequestsWhole := by
  refine ⟨?_, fun s fid t r hp hl => ?_, fun s fid i e => execPieceIssue_first, fun s fid ht hf => ?_⟩
  · intro s fid h hp hl hr hi hb hn hlast he f s0
    have hreq {o : Option State} (e : s.takeReq f [h] = o) : exec (.ingressAccept fid .clean .clean) s = .next (o.getD s) :=
      (execIngressAccept_request hp hl hi hb hn hlast).trans (congrArg (fun o : Option State => Host.Outcome.next (o.getD s)) e)
    refine ⟨fun hbad => hreq (State.takeReq_bad hl hr hbad), fun hc hf ha => ⟨fun hroom => hreq (State.takeReq_no_room hl hr he hc hf ha hroom),
      fun hroom => ⟨fun hs => hreq (State.takeReq_no_slice hl hr he hc hf ha hroom hs), fun sl hs =>
        ⟨fun hh => hreq (State.takeReq_frozen hl hr he hc hf ha hroom hs hh), fun hh hx => hreq (State.takeReq_reset hl hr he hc hf ha hroom hs hh hx),
          fun hh hx hcross => ⟨fun cause entry pa hd => hreq (State.takeReq_denied hl hr he hc hf ha hroom hs hh hx hcross hd),
            fun ps hd hps hm => ?_, fun ps p hd hps hhead hm => ?_⟩⟩⟩⟩⟩
    · refine hreq ((State.takeReq_allowed hl hr he hc hf ha hroom hs hh hx hcross hd hps).trans (if_neg ?_))
      cases hhead : ps.head? with
      | none => exact Bool.false_ne_true
      | some p =>
        rw [Option.any_some, hm p hhead]
        decide
    · exact hreq ((State.takeReq_allowed hl hr he hc hf ha hroom hs hh hx hcross hd hps).trans (if_pos (by rw [hhead, Option.any_some, hm]; rfl)))
  · exact (if_neg (by simp [hp])).trans (if_pos hl)
  · exact (if_neg (by simp [ht])).trans (if_pos (.inl hf))

end Sys2Proof.Machine

namespace Sys2Proof.Machine

/-! ### The arbiter's forced winners -/

/-- Requester 0 won by force and still holds the resource; requester 1 has waited to its limit. -/
def heldByForce : Arb := { holder := some 0, forced := true, waits := [(1, 2 ^ 64)] }

/-- The two requesters of `heldByForce`. -/
def heldByForceReqs : List ArbReq := [{ idx := 0, level := 0, burst := 1 }, { idx := 1, level := 0, burst := 1, kind := some 0 }]

/-- The holder by force goes on before the one that is forced now. -/
theorem arbWinner_heldByForce : forcedOf 0 heldByForce heldByForceReqs ≠ [] ∧
    arbWinner 0 2 heldByForce heldByForceReqs = some ({ idx := 0, level := 0, burst := 1 }, true, false) := by
  decide

/-- Refutes O25: a requester that won by force keeps the resource to the end of its packet (R88), so a forced requester does not come first. -/
theorem not_arbiterPicksByForceLevelAndRotation : ¬ Obligations.ArbiterPicksByForceLevelAndRotation := by
  intro h
  obtain ⟨-, -, hforced, -, -⟩ := h 0 2 heldByForce heldByForceReqs (by decide) (by decide)
  obtain ⟨hne, hwin⟩ := arbWinner_heldByForce
  obtain ⟨r, hr, -⟩ := hforced hne
  rw [hwin] at hr
  cases hr

end Sys2Proof.Machine

namespace Sys2Proof.Machine
variable {s t u : State}

/-! ### Router outputs -/

theorem State.tableCheck_of_no_inject (hi : s.fc.inject = none) (u : UnitRef) (port : Nat) : s.tableCheck u .clean port = (.clean, s) := by
  simp only [State.tableCheck, State.checkWord_of_no_inject hi]

theorem execRouterHop_clean {node : Fin 144} {net : Net} {out : Fin 7} (hh : s.prim ≠ .halt) (hf : s.rtrFenced node = false)
    (hp : portPresent node out = true) (hi : s.fc.inject = none) (err : LinkErr) :
    execRouterHop node net out err .clean s = .next (s.hop node net out err) := by
  unfold execRouterHop
  rw [if_neg (by simp [hh, hf, hp]), State.tableCheck_of_no_inject hi]

theorem execRouterHop_uncorrectable {node : Fin 144} {net : Net} {out : Fin 7} (hh : s.prim ≠ .halt) (hf : s.rtrFenced node = false)
    (hp : portPresent node out = true) (hi : s.fc.inject = none) (err : LinkErr) :
    execRouterHop node net out err .uncorrectable s = .next ((s.raiseRtr node 2 2 out).fenceRouter node) := by
  unfold execRouterHop
  rw [if_neg (by simp [hh, hf, hp])]
  simp only [State.tableCheck, State.checkWord_of_no_inject hi]
  rfl

theorem execForcedWin_router_none {node : Fin 144} {net : Net} {out : Fin 7} (hr : s.hopReqs node net out = []) :
    execForcedWin (.router node net out) s = .next s := by
  refine if_pos (.inr (.inr (.inr ?_)))
  rw [hr]
  rfl

theorem execForcedWin_router {node : Fin 144} {net : Net} {out : Fin 7} (hh : s.prim ≠ .halt) (hf : s.rtrFenced node = false)
    (hp : portPresent node out = true) (hw : (s.forcedAt (.router node net out) 21 ((s.hopReqs node net out).map (·.2.2))).isSome = true) :
    execForcedWin (.router node net out) s = .next (s.hop node net out .clean) := by
  refine if_neg ?_
  rw [Option.isNone_eq_false_iff.mpr hw]
  simp [hh, hf, hp]

theorem execForcedWin_home_none {k : Fin 64} (hw : (s.forcedAt (.home k) 5 (s.homeReqs k)).isSome = false) :
    execForcedWin (.home k) s = .next s := by
  unfold execForcedWin
  dsimp only
  rw [Option.isSome_eq_false_iff.mp hw |> Option.isNone_iff_eq_none.mp]

/-- The requests that an output looks at are among those that ask. -/
theorem mem_of_mem_firstOfIdx {rs : List (Nat × Nat × ArbReq)} {r : Nat × Nat × ArbReq} (h : r ∈ firstOfIdx rs) : r ∈ rs := by
  refine (List.foldlRecOn (motive := fun acc => ∀ r ∈ acc, r ∈ rs) rs _ (fun _ h => absurd h List.not_mem_nil) fun acc ih q hq r hr => ?_) r h
  split at hr
  · exact ih r hr
  · rcases List.mem_append.mp hr with hr | hr
    · exact ih r hr
    · rwa [List.mem_singleton.mp hr]

/-- Only fronts of buffers with a credit ask for an output. -/
theorem State.hopReqs_front {node : Fin 144} {net : Net} {out : Fin 7} {r : Nat × Nat × ArbReq} (h : r ∈ s.hopReqs node net out) :
    s.hasCredit node net out ((s.wants node net r.1 r.2.1).2.toNat) = true ∧ (s.buf node net r.1 r.2.1).q ≠ [] := by
  obtain ⟨a, ha, rfl⟩ := List.mem_map.mp (mem_of_mem_firstOfIdx h)
  obtain ⟨inp, -, ha⟩ := List.mem_flatMap.mp (List.mem_filter.mp ha).1
  obtain ⟨vc, -, ha⟩ := List.mem_filterMap.mp ha
  dsimp only at ha
  split at ha
  next hw =>
    split at ha
    next x rest hq =>
      cases ha
      exact ⟨hw.2.2.2, by rw [hq]; exact List.cons_ne_nil _ _⟩
    next => cases ha
  next => cases ha

/-! #### A flit leaves a buffer -/

theorem State.count_rest (s : State) (b i n : Nat) : { s.count b i n with ctr := s.ctr, regs := s.regs, cyc := s.cyc } = s := by
  unfold State.count
  dsimp only
  split
  · rfl
  · split
    · rfl
    · split
      · split <;> rfl
      · rfl

/-- Only what a sent flit uses and counts may differ from `s`: credits, counters, registers and probes. -/
def State.SentOnly (s t : State) : Prop := { t with cred := s.cred, ctr := s.ctr, regs := s.regs, cyc := s.cyc, probe := s.probe } = s

theorem State.SentOnly.refl : s.SentOnly s := Eq.refl s

section
variable (h : s.SentOnly t)
include h

theorem State.SentOnly.bump (r : Reg) (b i n : Nat) : s.SentOnly (t.bump r b i n) := h
theorem State.SentOnly.of_cred (c : SMap Cred) : s.SentOnly { t with cred := c } := h
theorem State.SentOnly.of_probe (p : SMap ProbeSt) : s.SentOnly { t with probe := p } := h

theorem State.SentOnly.count (b i n : Nat) : s.SentOnly (t.count b i n) :=
  (congrArg (fun t : State => { t with cred := s.cred, ctr := s.ctr, regs := s.regs, cyc := s.cyc, probe := s.probe }) (t.count_rest b i n) :).trans h

theorem State.SentOnly.giveBack (node : Nat) (net : Net) (port vc : Nat) : s.SentOnly (t.giveBack node net port vc) :=
  iteInduction (motive := s.SentOnly) (fun _ => h) fun _ => h.of_cred _

theorem State.SentOnly.creditIn (node : Nat) (net : Net) (inp vc : Nat) : s.SentOnly (t.creditIn node net inp vc) := by
  unfold State.creditIn
  split
  · exact h.giveBack ..
  · exact h

theorem State.SentOnly.spend (node : Nat) (net : Net) (port vc : Nat) : s.SentOnly (t.spend node net port vc) :=
  iteInduction (motive := s.SentOnly) (fun _ => h) fun _ => h.of_cred _

theorem State.SentOnly.probeSee (node out : Nat) (p : Pkt) : s.SentOnly (t.probeSee node out p) :=
  iteInduction (motive := s.SentOnly) (fun _ => h) fun _ => iteInduction (fun _ => h.bump ..) fun _ =>
    iteInduction (fun _ => (h.bump ..).bump ..) fun _ => (h.bump ..).of_probe _

theorem State.SentOnly.ni : t.ni = s.ni := (congrArg State.ni h :)
theorem State.SentOnly.rbuf : t.rbuf = s.rbuf := (congrArg State.rbuf h :)
theorem State.SentOnly.tick : t.tick = s.tick := (congrArg State.tick h :)

end

theorem State.buf_setBuf (node : Nat) (net : Net) (inp vc : Nat) (b : RBuf) : (s.setBuf node net inp vc b).buf node net inp vc = b :=
  (SMap.get_set ..).trans (if_pos rfl)

theorem State.buf_congr (h : t.rbuf = s.rbuf) (node : Nat) (net : Net) (inp vc : Nat) : t.buf node net inp vc = s.buf node net inp vc := by
  rw [State.buf, h, State.buf]

/-- The buffer behind a flit that has left it as the last of its packet. -/
def RBuf.popped (b : RBuf) (tick : Nat) : RBuf :=
  { b with q := b.q.drop 1, kept := none, moved := tick, dry := none, bcast := none, esc := false }

/-- The packet of a single flit as it leaves by `out`. -/
def State.sentPkt (s : State) (node : Nat) (p : Pkt) (ov : BitVec 2) (psn : Bool) : Pkt :=
  { p with vc := ov, psn := p.psn || psn,
           la := BitVec.ofNat 3 (if ov = 0 then fld (s.route node p.ep p.dst.toNat) 9 3 else fld (s.route node p.ep p.dst.toNat) 6 3) }

theorem State.nif_setBuf (node : Nat) (net : Net) (inp vc : Nat) (b : RBuf) (f : Nat) : (s.setBuf node net inp vc b).nif f = s.nif f := rfl

/-- A single-flit packet leaves its buffer and is delivered. -/
theorem State.sendFlit_single {node inp vc out c : Nat} {net : Net} {ov : BitVec 2} {p : Pkt} {psn : Bool}
    (hk : (s.buf node net inp vc).kept = none) (hd : p.dst ≠ 0x3FF) (hl : p.len = 0) :
    ∃ u, (s.setBuf node net inp vc ((s.buf node net inp vc).popped s.tick)).SentOnly u ∧
      s.sendFlit node net inp vc out ov ⟨p, 0, c⟩ psn = u.deliver node out ⟨s.sentPkt node p ov psn, 0, c⟩ := by
  refine ⟨(((s.popBuf node net inp vc none).spend node net out ov.toNat).countRtr node net (4 * out)).probeSee node out (s.sentPkt node p ov psn),
    (((State.SentOnly.refl.creditIn ..).spend ..).count ..).probeSee .., ?_⟩
  have hleft : (if p.dst = 0x3FF then (((s.buf node net inp vc).bcast.getD (s.bcastPorts node inp p)).erase out) else []).isEmpty = true := by
    rw [if_neg hd]
    rfl
  have hlast : decide (0 = p.len.toNat) = true := by rw [hl]; rfl
  unfold State.sendFlit
  simp only [hk, hleft, hlast, if_true]
  rfl

/-- What a single-flit packet leaves: its buffer without it, and an interface with it. -/
theorem State.sendFlit_local {node inp vc out c : Nat} {net : Net} {ov : BitVec 2} {p : Pkt} {rest : List Flit} {psn : Bool}
    (hq : (s.buf node net inp vc).q = ⟨p, 0, c⟩ :: rest) (hk : (s.buf node net inp vc).kept = none) (hd : p.dst ≠ 0x3FF) (hl : p.len = 0)
    (hn : neighbour node out = none) : let t := s.sendFlit node net inp vc out ov ⟨p, 0, c⟩ psn
    (t.buf node net inp vc).q = rest ∧
      (∀ f, localFid node out = some f → (s.nif f).egress = [] → (t.nif f).egress = [⟨s.sentPkt node p ov psn, 0, s.tick⟩]) ∧
      { t with rbuf := s.rbuf, cred := s.cred, ni := s.ni, ctr := s.ctr, regs := s.regs, cyc := s.cyc, probe := s.probe } = s := by
  obtain ⟨u, hu, e⟩ := State.sendFlit_single (s := s) (node := node) (net := net) (inp := inp) (vc := vc) (out := out) (ov := ov) (c := c)
    (psn := psn) hk hd hl
  have hbuf : (u.buf node net inp vc).q = rest := by
    rw [State.buf_congr hu.rbuf, State.buf_setBuf]
    exact (congrArg (List.drop 1) hq).trans rfl
  have hrest : { u with rbuf := s.rbuf, cred := s.cred, ni := s.ni, ctr := s.ctr, regs := s.regs, cyc := s.cyc, probe := s.probe } = s :=
    (congrArg (fun t : State => { t with rbuf := s.rbuf, ni := s.ni }) hu :)
  dsimp only
  rw [e, State.deliver, hn]
  dsimp only
  cases hf : localFid node out with
  | none => exact ⟨hbuf, nofun, hrest⟩
  | some f =>
    refine ⟨hbuf, fun f' hf' he => ?_, hrest⟩
    obtain rfl := Option.some.inj hf'
    rw [State.nif_updNi, if_pos rfl, State.nif_congr hu.ni, State.nif_setBuf, he, hu.tick]
    rfl

/-! #### Escapes -/

/-- Only what an escape changes may differ from `s`: buffers, arbiters, counters and registers. -/
def State.EscOnly (s t : State) : Prop := { t with rbuf := s.rbuf, arbs := s.arbs, ctr := s.ctr, regs := s.regs, cyc := s.cyc } = s

theorem State.EscOnly.count (h : s.EscOnly t) (b i n : Nat) : s.EscOnly (t.count b i n) :=
  (congrArg (fun t : State => { t with rbuf := s.rbuf, arbs := s.arbs, ctr := s.ctr, regs := s.regs, cyc := s.cyc }) (t.count_rest b i n) :).trans h

theorem State.EscOnly.clearWait (h : s.EscOnly t) (node : Nat) (net : Net) (out idx : Nat) : s.EscOnly (t.clearWait node net out idx) := by
  unfold State.clearWait
  split
  · exact h
  · exact h

/-- The wait counters of a head that escapes start anew. -/
def State.waitsCleared (s : State) (node : Nat) (net : Net) (inp : Nat) (w : List Nat × BitVec 2) : State :=
  w.1.foldl (fun s o => s.clearWait node net o (reqIdx inp w.2)) s

theorem State.waitsCleared_escOnly (node : Nat) (net : Net) (inp : Nat) (w : List Nat × BitVec 2) : s.EscOnly (s.waitsCleared node net inp w) :=
  List.foldlRecOn (motive := s.EscOnly) _ _ (Eq.refl s) fun _ h _ _ => h.clearWait ..

/-- A head that escapes stays in front of its buffer and asks for its escape port on VC0. -/
theorem State.escape_front {node inp vc : Nat} {net : Net} {x : Flit} {rest : List Flit} (hq : (s.buf node net inp vc).q = x :: rest) :
    ((s.escape node net inp vc).buf node net inp vc).q = x :: rest ∧
      (s.escape node net inp vc).wants node net inp vc = ([s.escPort node x.pkt], 0) ∧ s.EscOnly (s.escape node net inp vc) := by
  have hw := s.waitsCleared_escOnly node net inp (s.wants node net inp vc)
  generalize hu : s.waitsCleared node net inp (s.wants node net inp vc) = u at hw
  have he : s.escape node net inp vc =
      (u.setBuf node net inp vc { s.buf node net inp vc with esc := true, moved := u.tick, dry := none }).countRtr node net
        (4 * u.escPort node x.pkt + 3) := by
    unfold State.escape
    simp only [hq]
    rw [← hu]
    rfl
  have hb : (s.escape node net inp vc).buf node net inp vc = { s.buf node net inp vc with esc := true, moved := u.tick, dry := none } := by
    rw [he, State.countRtr, State.buf_congr (State.count_rbuf ..), State.buf_setBuf]
  have hesc : s.EscOnly (s.escape node net inp vc) := by
    rw [he]
    exact State.EscOnly.count (t := u.setBuf node net inp vc _) hw ..
  have hport : (s.escape node net inp vc).escPort node x.pkt = s.escPort node x.pkt := (congrArg (fun t : State => t.escPort node x.pkt) hesc :)
  refine ⟨(congrArg RBuf.q hb).trans hq, ?_, hesc⟩
  unfold State.wants
  simp only [hb, hq, if_true, hport]

section
variable {node : Fin 144} {net : Net} {inp : Fin 7} {x : Flit} {rest : List Flit} (hh : s.prim ≠ .halt) (hf : s.rtrFenced node = false)
include hh hf

theorem execEscapeMove_head {vc : BitVec 2} {d : Nat} (hv : vc = 2 ∨ vc = 3) (hq : (s.buf node net inp vc.toNat).q = x :: rest) (hx : x.idx = 0)
    (hd : (s.buf node net inp vc.toNat).dry = some d) (hw : d + max 1 (s.rf .RTR_ESC 0 10 (rtrBase node)) ≤ s.tick)
    (he : s.escapable node net inp vc.toNat = true) : execEscapeMove node net inp vc s = .next (s.escape node net inp vc.toNat) := by
  unfold execEscapeMove
  dsimp only
  rw [hq, hd, if_neg (by simp [hh, hf]), if_neg (by rcases hv with e | e <;> rw [e] <;> decide), if_pos]
  exact ⟨by rcases hv with e | e <;> rw [e] <;> decide, by simp [hx], by simpa using hw, he⟩

theorem execEscapeMove_vc1 (hq : (s.buf node net inp 1).q = x :: rest) (hx : x.at_ + 1 < s.tick) :
    execEscapeMove node net inp 1 s = .next (s.missSlot node net inp) := by
  unfold execEscapeMove
  dsimp only
  rw [show (1 : BitVec 2).toNat = 1 from rfl, hq, if_neg (by simp [hh, hf]), if_pos rfl]
  exact congrArg Host.Outcome.next (if_pos (decide_eq_true hx))

end

theorem execEscapeMove_idle {node : Fin 144} {net : Net} {inp : Fin 7} {vc : BitVec 2} (hd : (s.buf node net inp vc.toNat).dry = none) (hv : vc ≠ 1) :
    execEscapeMove node net inp vc s = .next s := by
  unfold execEscapeMove
  dsimp only
  rw [hd]
  by_cases hb : s.prim = .halt ∨ s.rtrFenced node = true
  · rw [if_pos hb]
  · rw [if_neg hb, if_neg hv, if_neg fun h => Bool.false_ne_true h.2.2.1]

/-- Settles O26. -/
theorem routerOutputsDecide : Obligations.RouterOutputsDecide := by
  refine ⟨fun s node net out err hh hf hp hi => ⟨execRouterHop_clean hh hf hp hi err, execRouterHop_uncorrectable (net := net) hh hf hp hi err,
      fun hr _ => execForcedWin_router_none hr⟩, fun s node net out => execForcedWin_router, fun s k => execForcedWin_home_none,
    fun s node net out r hr => State.hopReqs_front hr, fun s node inp out c net vc ov p rest psn _ _ _ hq hk hd hl hn => ?_,
    fun s node net inp vc d x rest hh hf hv hq hx hd hw he => execEscapeMove_head hh hf hv hq hx hd hw he,
    fun s node inp vc net x rest hq => State.escape_front hq, fun s node net inp x rest hh hf hq hx => execEscapeMove_vc1 hh hf hq hx,
    fun s node net inp vc hd hv => execEscapeMove_idle hd hv⟩
  obtain ⟨hbuf, heg, hrest⟩ := State.sendFlit_local (out := out) (ov := ov) (psn := psn) hq hk hd hl hn
  exact ⟨hbuf, fun f hf he => ⟨_, heg f hf he, rfl, rfl, rfl⟩, hrest⟩

end Sys2Proof.Machine

namespace Sys2Proof.Machine
variable {s t : State}

/-! ### Ages, watchdogs and windows -/

theorem State.isOld_iff (p : Pkt) : s.isOld p = true ↔ p.old = false ∧ 32768 ≤ ageOf (s.tim.c % 65536) p.inj.toNat := by
  simp [State.isOld]

/-- A run of flits marked where its packets are old, when the flits of the packet under way go by `m`. -/
def State.markFrom (s : State) : Bool → List Flit → List Flit
  | _, [] => []
  | m, x :: q =>
    let m' : Bool := if x.idx = 0 then s.isOld x.pkt else m
    (if m' then { x with pkt := x.pkt.marked } else x) :: s.markFrom m' q

theorem State.markRun_eq (q : List Flit) : s.markRun q = s.markFrom false q := by
  have h (acc : List Flit) (m : Bool) : (q.foldl (fun (acc : List Flit × Bool) x =>
      let m : Bool := if x.idx = 0 then s.isOld x.pkt else acc.2
      (acc.1 ++ [if m then { x with pkt := x.pkt.marked } else x], m)) (acc, m)).1 = acc ++ s.markFrom m q := by
    induction q generalizing acc m with
    | nil => exact (List.append_nil acc).symm
    | cons x q ih =>
      rw [List.foldl_cons]
      dsimp only
      rw [ih, List.append_assoc]
      rfl
  exact (h [] false).trans (List.nil_append _)

theorem State.length_markFrom (m : Bool) (q : List Flit) : (s.markFrom m q).length = q.length := by
  induction q generalizing m with
  | nil => rfl
  | cons x q ih => exact congrArg (· + 1) (ih _)

/-- A head flit is marked by its own age. -/
theorem State.getElem?_markFrom {m : Bool} {q : List Flit} {i : Nat} {x : Flit} (h : q[i]? = some x) (hx : x.idx = 0) :
    (s.markFrom m q)[i]? = some (if s.isOld x.pkt then { x with pkt := x.pkt.marked } else x) := by
  induction q generalizing m i with
  | nil => cases h
  | cons y q ih =>
    cases i with
    | zero =>
      obtain rfl := Option.some.inj h
      simp [State.markFrom, hx]
    | succ i => exact ih h

theorem execOldMark_router {node : Fin 144} {net : Net} {inp : Fin 7} {vc : BitVec 2}
    (h : ∃ x ∈ (s.buf node net inp vc.toNat).q, x.idx = 0 ∧ s.isOld x.pkt = true) : execOldMark (.router node net inp vc) s =
      .next (s.setBuf node net inp vc.toNat { s.buf node net inp vc.toNat with q := s.markRun (s.buf node net inp vc.toNat).q }) := by
  obtain ⟨x, hx, h0, ho⟩ := h
  exact if_pos (List.any_eq_true.mpr ⟨x, hx, by simp [h0, ho]⟩)

theorem execOldMark_router_none {node : Fin 144} {net : Net} {inp : Fin 7} {vc : BitVec 2}
    (h : ∀ x ∈ (s.buf node net inp vc.toNat).q, x.idx = 0 → s.isOld x.pkt = false) : execOldMark (.router node net inp vc) s = .next s :=
  if_neg fun e => by
    obtain ⟨x, hx, e⟩ := List.any_eq_true.mp e
    simp only [Bool.and_eq_true, beq_iff_eq] at e
    exact Bool.false_ne_true ((h x hx e.1).symm.trans e.2)

theorem execOldMark_inject {f : Fid} (ha : assigned f.toNat = true) (ho : s.oldWaits (s.nif f.toNat) = true) :
    execOldMark (.inject f) s = .next (s.updNi f.toNat s.markNi) :=
  (if_neg (by simp [ha])).trans (if_pos ho)

theorem execOldMark_parked {f : Fid} {p : Pkt} (ha : assigned f.toNat = true) (hr : (s.nif f.toNat).rob = [p]) (ho : s.isOld p = true) :
    execOldMark (.parked f) s = .next (s.setNi f.toNat { s.nif f.toNat with rob := [p.marked] }) := by
  have hf : (s.nif f.toNat).rob.find? s.isOld = some p := by
    rw [hr]
    exact List.find?_cons_of_pos ho
  refine (if_neg (by simp [ha])).trans ?_
  dsimp only
  rw [hf]
  simp [hr]

theorem execWatchdogExpire_front {node : Fin 144} {net : Net} {inp : Fin 7} {vc : BitVec 2} {x : Flit} {rest : List Flit} (hh : s.prim ≠ .halt)
    (hf : s.rtrFenced node = false) (hq : (s.buf node net inp vc.toNat).q = x :: rest) : execWatchdogExpire node net inp vc s =
      .next (if s.tick < (s.buf node net inp vc.toNat).moved + max 0x400 (s.rf .RTR_WDOG 0 20 (rtrBase node)) then s
        else ((s.captureRtr node inp 6 x.pkt).raiseRtr node 8 2 inp).fenceRouter node) := by
  unfold execWatchdogExpire
  simp only [hq, hh, hf, Bool.false_eq_true, false_or]
  exact (apply_ite ..).symm

/-- Arbiters alone change at a window's end. -/
theorem execArbWindowEnd_next : ∃ t, execArbWindowEnd s = .next t ∧ { t with arbs := s.arbs } = s := by
  refine ⟨_, rfl, List.foldlRecOn (motive := fun t : State => { t with arbs := s.arbs } = s) _ _ rfl fun t ht ba _ => ?_⟩
  split
  · exact iteInduction (motive := fun t : State => { t with arbs := s.arbs } = s) (fun _ => ht) fun _ => ht
  · exact ht

theorem execArbWindowEnd_single {a : Arb} {site : ArbSite} (ha : s.arbs = [(arbBase site, a)]) (hs : siteOf (arbBase site) = some site)
    (hw : s.tim.c % 2 ^ windowLog2 (s.arbEntry site) = 0) :
    execArbWindowEnd s = .next (s.setArb site { a with tc1 := 0, wb := 0, maskSeen := false }) := by
  have hself : s.arb site = a := by
    rw [State.arb, ha]
    exact if_pos rfl
  unfold execArbWindowEnd
  rw [ha, List.foldl_cons, List.foldl_nil]
  simp only [hs, hw, if_true, hself]

/-- Settles O27. -/
theorem agesWatchdogsAndWindows : Obligations.AgesWatchdogsAndWindows := by
  refine ⟨fun s => s.isOld_iff, ?_, fun s f ha ho => ?_, fun s f p ha hr ho => ?_, ?_, fun s => ?_⟩
  · intro s node net inp vc q
    refine ⟨fun h => ?_, execOldMark_router_none⟩
    have hq : ((s.setBuf node net inp vc.toNat { s.buf node net inp vc.toNat with q := s.markRun q }).buf node net inp vc.toNat).q = s.markFrom false q :=
      (congrArg RBuf.q (State.buf_setBuf ..)).trans (State.markRun_eq q)
    refine ⟨_, execOldMark_router h, (congrArg List.length hq).trans (State.length_markFrom ..), fun i x hi hx => ?_, rfl⟩
    exact (congrArg (·[i]?) hq).trans (State.getElem?_markFrom hi hx)
  · have hn : (s.updNi f.toNat s.markNi).nif f.toNat = s.markNi (s.nif f.toNat) := (State.nif_updNi ..).trans (if_pos rfl)
    have hk := (State.NiOnly.refl (t := s) f.toNat).updNi s.markNi
    exact ⟨_, execOldMark_inject ha ho, congrArg Ni.injq hn, congrArg Ni.epHold hn, hk.other, hk.rest⟩
  · have hk := (State.NiOnly.refl (t := s) f.toNat).setNi { s.nif f.toNat with rob := [p.marked] }
    exact ⟨_, execOldMark_parked ha hr ho, congrArg Ni.rob ((State.nif_setNi ..).trans (if_pos rfl)), hk.rest⟩
  · intro s node net inp vc x rest hh hf hq limit
    exact ⟨fun h => (execWatchdogExpire_front hh hf hq).trans (congrArg _ (if_neg (Nat.not_lt.mpr h))),
      fun h => (execWatchdogExpire_front hh hf hq).trans (congrArg _ (if_pos h))⟩
  · obtain ⟨t, e, ht⟩ := execArbWindowEnd_next (s := s)
    refine ⟨t, e, ht, fun a site ha hs hw => ?_⟩
    rw [Host.Outcome.next.inj (e.symm.trans (execArbWindowEnd_single ha hs hw))]
    exact (SMap.get_set ..).trans (if_pos rfl)

end Sys2Proof.Machine

namespace Sys2Proof.Machine
variable {s t : State}

/-! ### Egress -/

theorem State.egressFront_vc {f : Nat} {net : Net} {vc : BitVec 2} {x : Flit} (h : s.egressFront f net vc = some x) :
    x.pkt.net = net ∧ x.pkt.vc = vc := by
  unfold State.egressFront at h
  split at h
  next y hy =>
    have hp := List.find?_some hy
    simp only [Bool.and_eq_true, beq_iff_eq] at hp
    split at h
    · cases h
      exact hp
    · cases h
  next => cases h

theorem State.egressCheck_of_no_inject (hi : s.fc.inject = none) (f : Nat) (err : LinkErr) : s.egressCheck f err = (err, false, s) := by
  have h (u : UnitRef) (c : Nat) (p : Option Nat) : s.injHit u c p = false := by rw [State.injHit, hi]
  unfold State.egressCheck
  cases err <;> simp [h]

theorem State.leaveEgress_inject (f : Nat) (x : Flit) : (s.leaveEgress f x).fc.inject = s.fc.inject :=
  (apply_ite (fun u : State => u.fc.inject) ..).trans (ite_self _)

/-- A flit with its header's errors sorted out: what its packet comes to. -/
theorem execEgressPresent_flit {fid : Fid} {net : Net} {vc : BitVec 2} {x : Flit} {a : Asm} {k : Nat} (ha : assigned fid.toNat = true)
    (hh : s.prim ≠ .halt) (hx : s.egressFront fid.toNat net vc = some x) (hasm : (s.nif fid.toNat).asmOf x = (k, some a))
    (hd : a.drop = false) (hw : ¬((x.idx = 0 ∨ x.idx = a.pkt.len.toNat) ∧ s.egressWaits fid.toNat a.pkt = true)) (err : LinkErr) :
    execEgressPresent fid net vc err s = .next ((s.leaveEgress fid.toNat x).egressFlit fid.toNat k a x err) := by
  unfold execEgressPresent
  rw [if_neg (by simp [ha]), if_neg hh, hx]
  dsimp only
  rw [hasm]
  dsimp only
  rw [if_neg (by simp [hd]), if_neg hw]

theorem Ni.asmOf_head {n : Ni} {x : Flit} (h : x.idx = 0) : n.asmOf x = (asmKey x.pkt.net x.pkt.vc, some { pkt := x.pkt }) := if_pos h

theorem Ni.asmOf_rest {n : Ni} {x : Flit} {a : Asm} (h : x.idx ≠ 0) (ha : SMap.get none n.asm (asmKey x.pkt.net x.pkt.vc) = some a) :
    n.asmOf x = (asmKey x.pkt.net x.pkt.vc, some a) := by
  unfold Ni.asmOf
  rw [if_neg h, ha]

/-- Where a flit belongs to a packet for another place: the header alone can tell. -/
def Flit.strange (x : Flit) (f : Nat) : Bool := x.idx == 0 && x.pkt.dst.toNat != f && x.pkt.dst != 0x3FF

theorem Flit.strange_of_here {x : Flit} {f : Nat} (h : x.pkt.dst.toNat = f ∨ x.pkt.dst = 0x3FF) : x.strange f = false := by
  unfold Flit.strange
  rcases h with h | h
  · rw [h, bne_self_eq_false, Bool.and_false, Bool.false_and]
  · rw [h, bne_self_eq_false, Bool.and_false]

section
variable (hi : s.fc.inject = none) {f k : Nat} {a : Asm} {x : Flit}
include hi

theorem State.egressFlit_clean (hs : x.strange f = false) : s.egressFlit f k a x .clean = s.joinFlit f k a x (x.pkt.net == .dat && x.pkt.psn) := by
  unfold State.egressFlit
  rw [State.egressCheck_of_no_inject hi]
  exact if_neg (by rw [show (x.idx == 0 && x.pkt.dst.toNat != f && x.pkt.dst != 0x3FF) = x.strange f from rfl, hs]; exact Bool.false_ne_true)

theorem State.egressFlit_strange (hs : x.strange f = true) :
    s.egressFlit f k a x .clean = ((s.dropAsm f k a x).captureNi f 8 x.pkt).raiseNi f 6 1 := by
  unfold State.egressFlit
  rw [State.egressCheck_of_no_inject hi]
  exact if_pos hs

theorem State.egressFlit_hcrc : s.egressFlit f k a x .hcrc = ((s.dropAsm f k a x).captureNi f 7 x.pkt).raiseNi f 1 1 := by
  unfold State.egressFlit
  rw [State.egressCheck_of_no_inject hi]

theorem State.egressFlit_parity_head (hx : x.idx = 0) :
    s.egressFlit f k a x .parity = ((s.dropAsm f k a x).captureNi f 1 x.pkt).raiseNi f 0 1 := by
  unfold State.egressFlit
  rw [State.egressCheck_of_no_inject hi]
  exact if_pos hx

theorem State.egressFlit_parity_rest (hx : x.idx ≠ 0) :
    s.egressFlit f k a x .parity = (s.raiseNi f 0 0).joinFlit f k a x (x.pkt.net == .dat && x.pkt.psn) := by
  unfold State.egressFlit
  rw [State.egressCheck_of_no_inject hi]
  exact if_neg hx

theorem State.egressFlit_uncorrectable (hn : x.pkt.net ≠ .dat) :
    s.egressFlit f k a x .uncorrectable = ((s.dropAsm f k a x).captureNi f 2 x.pkt).raiseNi f 0 1 := by
  unfold State.egressFlit
  rw [State.egressCheck_of_no_inject hi]
  exact if_pos hn

end

theorem State.dropAsm_last {f k : Nat} {a : Asm} {x : Flit} (h : x.idx = a.pkt.len.toNat) : s.dropAsm f k a x = s.setAsm f k none :=
  congrArg (s.setAsm f k) (if_pos h)

theorem State.joinFlit_last {f k : Nat} {a : Asm} {x : Flit} {bad : Bool} (h : x.idx = a.pkt.len.toNat) :
    s.joinFlit f k a x bad = (s.setAsm f k none).egressPass f { a with n := a.n + 1, bad := a.bad + bad.toNat } := if_pos h

theorem State.joinFlit_middle {f k : Nat} {a : Asm} {x : Flit} {bad : Bool} (h0 : x.idx ≠ 0) (h : x.idx ≠ a.pkt.len.toNat) :
    s.joinFlit f k a x bad = s.setAsm f k (some { a with n := a.n + 1, bad := a.bad + bad.toNat }) :=
  (if_neg h).trans (if_neg fun e => h0 e.1)

theorem execEgressPresent_none {fid : Fid} {net : Net} {vc : BitVec 2} (ha : assigned fid.toNat = true)
    (hx : s.egressFront fid.toNat net vc = none) (err : LinkErr) : execEgressPresent fid net vc err s = .next s := by
  unfold execEgressPresent
  rw [if_neg (by simp [ha]), hx]
  exact ite_self _

/-- A request ahead of its stream is parked. -/
theorem State.rob_egressPass {f : Nat} {a : Asm} (ho : s.outOfTurn f a.pkt = true) :
    ((s.egressPass f a).nif f).rob = (s.nif f).rob ++ [{ a.pkt with psn := a.pkt.psn || a.bad != 0 }] := by
  have hni : ((s.count f (4 * netCode a.pkt.net + 2)).count f (4 * netCode a.pkt.net + 3) (a.pkt.len.toNat + 1)).ni = s.ni :=
    (State.count_ni ..).trans (State.count_ni ..)
  have ho' : ((s.count f (4 * netCode a.pkt.net + 2)).count f (4 * netCode a.pkt.net + 3) (a.pkt.len.toNat + 1)).outOfTurn f
      { a.pkt with psn := a.pkt.psn || a.bad != 0 } = true := by
    unfold State.outOfTurn at ho ⊢
    rw [State.nif_congr hni]
    exact ho
  unfold State.egressPass
  dsimp only
  rw [if_pos ho', State.nif_updNi, if_pos rfl, State.nif_congr hni]

/-! #### The reorder buffer -/

theorem execRobRelease_front {fid : Fid} {q : Pkt} {rest : List Pkt} (ha : assigned fid.toNat = true) (hr : (s.nif fid.toNat).rob = q :: rest)
    (ho : s.outOfTurn fid.toNat q = false) (hw : s.reqWaits fid.toNat q = false) : execRobRelease fid s =
      .next (((s.setNi fid.toNat { s.nif fid.toNat with rob := rest }).present1 fid.toNat q).inTurn fid.toNat q) := by
  have hf : (s.nif fid.toNat).rob.find? (fun q => !s.outOfTurn fid.toNat q) = some q := by
    rw [hr]
    exact List.find?_cons_of_pos (by simp [ho])
  have he : (s.nif fid.toNat).rob.erase q = rest := by rw [hr, List.erase_cons_head]
  unfold execRobRelease
  rw [if_neg (by simp [ha])]
  dsimp only
  rw [hf]
  dsimp only
  rw [if_neg (by simp [hw]), he]

theorem execRobRelease_none {fid : Fid} {qs : List Pkt} (ha : assigned fid.toNat = true) (hr : (s.nif fid.toNat).rob = qs)
    (ho : ∀ x ∈ qs, s.outOfTurn fid.toNat x = true) : execRobRelease fid s = .next s := by
  have hf : (s.nif fid.toNat).rob.find? (fun q => !s.outOfTurn fid.toNat q) = none := by
    rw [hr]
    exact List.find?_eq_none.mpr fun x hx => by simp [ho x hx]
  unfold execRobRelease
  rw [if_neg (by simp [ha])]
  dsimp only
  rw [hf]

theorem Ni.expected_advance (n : Ni) (src : Fid) : (n.advance src).expected src = (n.expected src + 1) % 16 :=
  (SMap.get_set ..).trans (if_pos rfl)

/-- Settles O28. -/
theorem egressChecksAndOrders : Obligations.EgressChecksAndOrders := by
  refine ⟨?_, ?_, fun s fid net vc err ha hx => execEgressPresent_none ha hx err, fun s f a _ ho => State.rob_egressPass ho,
    fun s fid q rest ha hr => ⟨execRobRelease_front ha hr, execRobRelease_none ha hr⟩, fun s f q hn hr hd => ⟨?_, Ni.expected_advance ..⟩⟩
  · intro s fid net vc x ha hh hi hx h0 hlen hw f p s0 a
    obtain ⟨rfl, rfl⟩ := State.egressFront_vc hx
    have hl : x.idx = p.len.toNat := by rw [h0, hlen]; rfl
    have hflit (err : LinkErr) : exec (.egressPresent fid x.pkt.net x.pkt.vc err) s =
        .next ((s.leaveEgress f x).egressFlit f (asmKey x.pkt.net x.pkt.vc) { pkt := p } x err) :=
      execEgressPresent_flit ha hh hx (Ni.asmOf_head h0) rfl (fun h => by rw [hw] at h; exact Bool.false_ne_true h.2) err
    have hi' : (s.leaveEgress f x).fc.inject = none := (State.leaveEgress_inject ..).trans hi
    have hdrop : (s.leaveEgress f x).dropAsm f (asmKey x.pkt.net x.pkt.vc) { pkt := p } x = s0 := State.dropAsm_last hl
    refine ⟨fun hd => ?_, fun hd hb => ?_, ?_, ?_, fun hn => ?_⟩
    · have hs : x.strange f = false := Flit.strange_of_here hd
      rw [hflit, State.egressFlit_clean hi' hs, State.joinFlit_last hl]
      simp [s0, a, p]
    · have hs : x.strange f = true := by simp [Flit.strange, h0]; exact ⟨hd, hb⟩
      rw [hflit, State.egressFlit_strange hi' hs, hdrop]
    · rw [hflit, State.egressFlit_hcrc hi', hdrop]
    · rw [hflit, State.egressFlit_parity_head hi' h0, hdrop]
    · rw [hflit, State.egressFlit_uncorrectable hi' hn, hdrop]
  · intro s fid net vc x a ha hh hi hx h0 hasm f s0 b
    obtain ⟨rfl, rfl⟩ := State.egressFront_vc hx
    have hi' : s0.fc.inject = none := (State.leaveEgress_inject ..).trans hi
    have hs : x.strange f = false := by simp [Flit.strange, h0]
    have hflit (hd : a.drop = false) (hw : x.idx = a.pkt.len.toNat → s.egressWaits f a.pkt = false) (err : LinkErr) :
        exec (.egressPresent fid x.pkt.net x.pkt.vc err) s = .next (s0.egressFlit f (asmKey x.pkt.net x.pkt.vc) a x err) :=
      execEgressPresent_flit ha hh hx (Ni.asmOf_rest h0 hasm) hd
        (fun h => h.1.elim h0 fun e => Bool.false_ne_true ((hw e).symm.trans h.2)) err
    refine ⟨fun hd hl => ?_, fun hd hl hw => ?_, fun hd hl => ?_, fun hd => ?_⟩
    · rw [hflit hd (absurd · hl), State.egressFlit_clean hi' hs, State.joinFlit_middle h0 hl]
    · rw [hflit hd (fun _ => hw), State.egressFlit_clean hi' hs, State.joinFlit_last hl]
    · rw [hflit hd (absurd · hl), State.egressFlit_parity_rest hi' h0, State.joinFlit_middle h0 hl]
    · refine (if_neg (by simp [ha])).trans ((if_neg hh).trans ?_)
      rw [hx]
      dsimp only
      rw [Ni.asmOf_rest h0 hasm]
      exact if_pos hd
  · have hb : (q.dst != 0x3FF) = true := bne_iff_ne.mpr hd
    rw [State.outOfTurn, hn, hr, hb]
    rfl

end Sys2Proof.Machine

namespace Sys2Proof.Machine
variable {s t : State}

/-! ### Answers to pieces -/

/-- The state in which the answer in front of an inbox has been taken out. -/
def State.inboxTaken (s : State) (f : Nat) (rest : List Pkt) : State := s.setNi f { s.nif f with inbox := rest }

theorem State.srcEnt_inboxTaken (f i : Nat) (rest : List Pkt) : (s.inboxTaken f rest).srcEnt f i = s.srcEnt f i := by
  rw [State.srcEnt, State.inboxTaken, State.nif_setNi, if_pos rfl, State.srcEnt]

section
variable {fid : Fid} {p : Pkt} {rest : List Pkt} (hp : isPartner fid.toNat = true) (hi : (s.nif fid.toNat).inbox = p :: rest)
include hp hi

theorem execPieceAnswer_credit (hn : p.net = .rsp) (ho : p.opc = 0x10) (hs : p.src = 0x181) (hc : p.cnt = 0x81) :
    execPieceAnswer fid s = .next ((s.inboxTaken fid.toNat rest).updNi fid.toNat (fun n => { n with safCred := n.safCred + 1 })) := by
  have hf : (s.nif fid.toNat).inbox.find? (fun p => p.net == .rsp || p.net == .dat) = some p := by
    rw [hi]
    exact List.find?_cons_of_pos (by simp [hn])
  unfold execPieceAnswer
  rw [if_neg (by simp [hp])]
  dsimp only
  rw [hf]
  dsimp only
  rw [hi, List.erase_cons_head]
  exact if_pos ⟨hn, ho, hs, hc⟩

/-- An answer that is no credit goes by the piece that it names. -/
theorem execPieceAnswer_piece (hn : p.net = .rsp ∨ p.net = .dat) (hc : p.cnt ≠ 0x81) : execPieceAnswer fid s =
    match s.srcEnt fid.toNat (p.txid.toNat / 16) with
    | some e =>
      if (e.state = .issued ∨ e.state = .poolWait) ∧ e.req.txid = p.txid then
        .next ((s.inboxTaken fid.toNat rest).entAnswer fid.toNat (p.txid.toNat / 16) e p)
      else .next ((s.inboxTaken fid.toNat rest).lateAnswer fid.toNat)
    | none => .next ((s.inboxTaken fid.toNat rest).lateAnswer fid.toNat) := by
  have hf : (s.nif fid.toNat).inbox.find? (fun p => p.net == .rsp || p.net == .dat) = some p := by
    rw [hi]
    exact List.find?_cons_of_pos (by simpa using hn)
  rw [← State.srcEnt_inboxTaken (rest := rest)]
  unfold execPieceAnswer
  rw [if_neg (by simp [hp])]
  dsimp only
  rw [hf]
  dsimp only
  rw [hi, List.erase_cons_head]
  exact if_neg fun h => hc h.2.2.2

end

/-! #### Reissue of Nacked pieces -/

/-- The time of a Nacked piece to go out again has come. -/
def State.reissueDue (s : State) (e : SrcEnt) : Bool :=
  (e.state == .nackWait && decide (e.since + 64 ≤ s.tick)) || (e.state == .epochWait && decide (e.epoch < s.epo.count))

section
variable {fid : Fid} {i : BitVec 8} {e : SrcEnt} (ht : tracked fid.toNat = true) (he : s.srcEnt fid.toNat i.toNat = some e)
include ht he

theorem execNackReissue_early (hd : s.reissueDue e = false) : execNackReissue fid i s = .next s := by
  unfold execNackReissue
  rw [if_neg (by simp [ht])]
  dsimp only
  rw [he]
  exact if_pos (.inl (congrArg Bool.not hd))

theorem execNackReissue_due {e' : SrcEnt} (hd : s.reissueDue e = true) (hf : s.niFenced fid.toNat = false)
    (he' : (s.redirect fid.toNat i.toNat e).srcEnt fid.toNat i.toNat = some e') (hs : e'.state = .ready)
    (hr : (s.redirect fid.toNat i.toNat e).streamRoom fid.toNat e'.req = true) :
    execNackReissue fid i s = .next ((s.redirect fid.toNat i.toNat e).issue fid.toNat i.toNat e') := by
  unfold execNackReissue
  rw [if_neg (by simp [ht])]
  dsimp only
  rw [he]
  dsimp only
  rw [if_neg, he']
  · exact if_pos ⟨hs, hr⟩
  · rw [hf, show ((e.state == .nackWait && decide (e.since + 64 ≤ s.tick)) || (e.state == .epochWait && decide (e.epoch < s.epo.count))) = true from hd]
    decide

end

/-! #### The status of a transaction -/

theorem transStatus_ok {es : List SrcEnt} (h : ∀ e ∈ es, e.status = 0) : transStatus es = 0 := by
  have hnil : es.filter (fun e => e.status != 0) = [] := List.filter_eq_nil_iff.mpr fun e he => by simp [h e he]
  rw [transStatus, hnil]
  rfl

/-- The first piece in address order that failed gives the status. -/
theorem transStatus_first {es : List SrcEnt} {e : SrcEnt} (he : e ∈ es) (hs : e.status ≠ 0)
    (hmin : ∀ x ∈ es, x.status ≠ 0 → x ≠ e → e.off < x.off) : transStatus es = e.status.toNat := by
  have hhead := head?_sortOn (fun e : SrcEnt => e.off) (xs := es.filter (fun e => e.status != 0)) (x := e)
    (List.mem_filter.mpr ⟨he, bne_iff_ne.mpr hs⟩) fun y hy hne => hmin y (List.mem_filter.mp hy).1 (bne_iff_ne.mp (List.mem_filter.mp hy).2) hne
  unfold transStatus
  generalize sortOn _ _ = xs at hhead
  cases xs with
  | nil => cases hhead
  | cons x xs =>
    obtain rfl := Option.some.inj hhead
    rfl

/-- Settles O29. -/
theorem answersCompletePieces : Obligations.AnswersCompletePieces := by
  refine ⟨?_, fun s fid i e ht he => ⟨fun hs hw => ?_, fun hs hw => ?_, fun e' hf hd he' hs hr => ?_⟩, fun es => transStatus_ok, fun es e => transStatus_first⟩
  · intro s fid p rest hp hi hn f s0
    refine ⟨fun hr ho hs hc => execPieceAnswer_credit hp hi hr ho hs hc, fun hc he => ?_, fun e hc he hs ht => ?_⟩
    · exact (execPieceAnswer_piece hp hi hn hc).trans (by rw [he]; rfl)
    · exact (execPieceAnswer_piece hp hi hn hc).trans (by rw [he]; exact if_pos ⟨.inl hs, ht⟩)
  · exact execNackReissue_early ht he (by simp [State.reissueDue, hs]; omega)
  · exact execNackReissue_early ht he (by simp [State.reissueDue, hs]; omega)
  · refine execNackReissue_due ht he ?_ hf he' hs hr
    rcases hd with ⟨h, hw⟩ | ⟨h, hw⟩ <;> simp [State.reissueDue, h, hw]

end Sys2Proof.Machine

namespace Sys2Proof.Machine
variable {s t : State}

/-! ### Tracker timers, held packets and the epoch hold -/

section
variable {fid : Fid} {i : BitVec 8} {e : SrcEnt} (ht : tracked fid.toNat = true) (he : s.srcEnt fid.toNat i.toNat = some e)
include ht he

theorem execSrcTrackerExpire_piece : execSrcTrackerExpire fid i s =
    if !e.timed ∨ s.tick + 1 < e.start + s.trackLimit fid.toNat then .next s else .next (s.pieceExpire fid.toNat i.toNat e) := by
  unfold execSrcTrackerExpire
  dsimp only
  rw [if_pos ht, he]

theorem execTrackerRelease_piece : execTrackerRelease fid i s =
    if e.state = .dead ∧ e.trans = 0 ∧ e.since + s.trackLimit fid.toNat ≤ s.tick then .next (s.setSrc fid.toNat i.toNat none) else .next s := by
  unfold execTrackerRelease
  dsimp only
  rw [if_pos ht, he]

end

theorem State.srcEnt_setSrc (f i : Nat) (e : Option SrcEnt) : (s.setSrc f i e).srcEnt f i = e := by
  rw [State.srcEnt, State.setSrc, State.nif_updNi, if_pos rfl]
  exact (SMap.get_set ..).trans (if_pos rfl)

/-- A piece that expires at an interface of the spine reaches the collector with its TXID. -/
theorem State.expired_mem {f txid : Nat} (hf : 0x180 ≤ f) :
    ∃ r ∈ (s.expired f txid).fc.queue, r.src = 32 * 28 + 9 ∧ 1 ≤ r.level ∧ r.detail = txid := by
  obtain ⟨r, hr, hsrc, hl, -, -, hd, -⟩ := ((s.bump .NI_TMO_CNT (niBase f)).count f 25).raiseSpine_mem 28 9 1 (fidUnit f) txid false
  have he : s.expired f txid = ((s.bump .NI_TMO_CNT (niBase f)).count f 25).raiseSpine 28 9 1 (fidUnit f) txid false := if_pos hf
  exact ⟨r, he ▸ hr, hsrc, hl, hd⟩

/-- An expired target entry counted and freed. -/
def State.tgtFreed (s : State) (f i : Nat) : State :=
  (s.bump .NI_TMO_CNT (niBase f)).updNi f (fun n => { n with tgt := SMap.set none n.tgt i none })

theorem State.tgtFreed_spec (f i : Nat) : (SMap.get none ((s.tgtFreed f i).nif f).tgt i).isNone = true ∧
    { s.tgtFreed f i with ni := s.ni, regs := s.regs, cyc := s.cyc } = s := by
  refine ⟨?_, ?_⟩
  · rw [State.tgtFreed, State.nif_updNi, if_pos rfl]
    show (SMap.get none (SMap.set none (s.nif f).tgt i none) i).isNone = true
    rw [SMap.get_set, if_pos rfl]
    rfl
  · have h : s.RegsOnly (s.bump .NI_TMO_CNT (niBase f)) := State.RegsOnly.refl.bump ..
    exact (congrArg (fun t : State => { t with ni := s.ni }) h :)

section
variable {fid : Fid} {i : BitVec 8} {e : TgtEnt} (hp : isPartner fid.toNat = true) (he : SMap.get none (s.nif fid.toNat).tgt i.toNat = some e)
include hp he

theorem execTgtTrackerExpire_early (ht : s.tick < e.start + s.trackLimit fid.toNat) : execTgtTrackerExpire fid i s = .next s := by
  unfold execTgtTrackerExpire
  rw [if_neg (by simp [hp])]
  dsimp only
  rw [he]
  exact if_pos ht

theorem execTgtTrackerExpire_due (ht : e.start + s.trackLimit fid.toNat ≤ s.tick) : execTgtTrackerExpire fid i s =
    if e.answered then .next (s.tgtFreed fid.toNat i.toNat) else .next ((s.tgtFreed fid.toNat i.toNat).answer fid.toNat e.req 7) := by
  unfold execTgtTrackerExpire
  rw [if_neg (by simp [hp])]
  dsimp only
  rw [he]
  exact if_neg (Nat.not_lt.mpr ht)

end

section
variable {fid : Fid} {p : Pkt} {h : Nat} (ha : assigned fid.toNat = true) (hh : (s.nif fid.toNat).epHold = [p]) (hn : p.net = .req)
  (ho : s.holdOf fid.toNat p = some h)
include ha hh hn ho

theorem execEpochHoldRelease_running (h0 : 0 < SMap.get 0 (s.nif fid.toNat).lastOld (2 * streamKey p + (!p.ep).toNat))
    (hl : s.tick + 1 < SMap.get 0 (s.nif fid.toNat).lastOld (2 * streamKey p + (!p.ep).toNat) + h) : execEpochHoldRelease fid s = .next s := by
  have hrun : s.holdRuns fid.toNat p = true := by simp [State.holdRuns, ho, h0, hl]
  unfold execEpochHoldRelease
  rw [if_neg (by simp [ha])]
  simp [hh, hrun]

theorem execEpochHoldRelease_over (hl : SMap.get 0 (s.nif fid.toNat).lastOld (2 * streamKey p + (!p.ep).toNat) = 0 ∨
    SMap.get 0 (s.nif fid.toNat).lastOld (2 * streamKey p + (!p.ep).toNat) + h ≤ s.tick + 1) : execEpochHoldRelease fid s =
      .next (((s.setNi fid.toNat { s.nif fid.toNat with epHold := [] }).noteOld fid.toNat p).push fid.toNat p) := by
  have hrun : s.holdRuns fid.toNat p = false := by
    simp only [State.holdRuns, ho, decide_eq_false_iff_not]
    omega
  unfold execEpochHoldRelease
  rw [if_neg (by simp [ha])]
  simp [hh, hrun, hn]

end

/-- The oldest held packet, given up and counted. -/
def State.holdGivenUp (s : State) (f : Nat) (rest : List (Pkt × Nat)) : State := (s.setNi f { s.nif f with hold := rest }).count f 28

theorem State.holdGivenUp_spec (f : Nat) (rest : List (Pkt × Nat)) : ((s.holdGivenUp f rest).nif f).hold = rest ∧
    { s.holdGivenUp f rest with ni := s.ni, ctr := s.ctr, regs := s.regs, cyc := s.cyc } = s := by
  refine ⟨?_, ?_⟩
  · rw [State.holdGivenUp, State.nif_congr (State.count_ni ..), State.nif_setNi, if_pos rfl]
  · exact (congrArg (fun t : State => { t with ni := s.ni }) ((s.setNi f { s.nif f with hold := rest }).count_rest f 28 1) :)

section
variable {fid : Fid} {p : Pkt} {t : Nat} {rest : List (Pkt × Nat)} (ha : assigned fid.toNat = true) (hh : (s.nif fid.toNat).hold = (p, t) :: rest)
include ha hh

theorem execHoldTimeout_early (ht : s.tick < t + usTicks (max 1 (s.rf .PWR_HOLD 0 16))) : execHoldTimeout fid s = .next s := by
  unfold execHoldTimeout
  rw [if_neg (by simp [ha])]
  dsimp only
  rw [hh]
  exact if_pos ht

theorem execHoldTimeout_due (hr : ∀ x ∈ rest, x.1.net = .req) (ht : t + usTicks (max 1 (s.rf .PWR_HOLD 0 16)) ≤ s.tick) :
    execHoldTimeout fid s = if tracked fid.toNat then .next ((s.holdGivenUp fid.toNat rest).pieceFail fid.toNat (p.txid.toNat / 16) 3)
      else .next ((s.holdGivenUp fid.toNat rest).ownComp fid.toNat p 3) := by
  have hkeep : rest.filter (fun x => x.1.net != .dat || x.1.dst != p.dst || x.1.txid != p.txid) = rest :=
    List.filter_eq_self.mpr fun x hx => by simp [hr x hx]
  unfold execHoldTimeout
  rw [if_neg (by simp [ha])]
  dsimp only
  rw [hh]
  dsimp only
  rw [if_neg (Nat.not_lt.mpr ht), hkeep]
  rfl

end

/-- Settles O30. -/
theorem trackersExpireAndRelease : Obligations.TrackersExpireAndRelease := by
  refine ⟨fun s fid i e ht he => ⟨fun hti hl => ?_, fun hl => ?_, fun hd h0 hl => ?_, fun hl => ?_⟩, fun s f txid hf _ => State.expired_mem hf,
    fun s fid i e hp he => ⟨execTgtTrackerExpire_early hp he, fun hl => ?_⟩, ?_, ?_⟩
  · exact (execSrcTrackerExpire_piece ht he).trans (if_neg (by simp [hti]; omega))
  · exact (execSrcTrackerExpire_piece ht he).trans (if_pos (.inr hl))
  · exact ⟨_, (execTrackerRelease_piece ht he).trans (if_pos ⟨hd, h0, hl⟩), State.srcEnt_setSrc .., rfl⟩
  · exact (execTrackerRelease_piece ht he).trans (if_neg fun h => by omega)
  · obtain ⟨hnone, hrest⟩ := State.tgtFreed_spec (s := s) fid.toNat i.toNat
    exact ⟨_, hnone, hrest, fun ha => (execTgtTrackerExpire_due hp he hl).trans (if_neg (by simp [ha])),
      fun ha => (execTgtTrackerExpire_due hp he hl).trans (if_pos ha)⟩
  · intro s fid p h ha hh hn ho last
    refine ⟨execEpochHoldRelease_running ha hh hn ho, fun hl => ⟨s.setNi fid.toNat { s.nif fid.toNat with epHold := [] }, ?_, rfl,
      execEpochHoldRelease_over ha hh hn ho hl⟩⟩
    rw [State.nif_setNi, if_pos rfl]
  · intro s fid p t rest ha hh hn hr limit
    obtain ⟨hhold, hrest⟩ := State.holdGivenUp_spec (s := s) fid.toNat rest
    refine ⟨execHoldTimeout_early ha hh, fun ht => ⟨_, hhold, hrest, fun htr => ?_, fun htr => ?_⟩⟩
    · exact (execHoldTimeout_due ha hh hr ht).trans (if_pos htr)
    · exact (execHoldTimeout_due ha hh hr ht).trans (if_neg (by simp [htr]))

end Sys2Proof.Machine

namespace Sys2Proof.Machine
variable {s t : State}

/-! ### The rule that decides -/

theorem SMap.pairwise_keys_of_wfFrom {m : SMap Nat} {lo : Nat} (h : SMap.wfFrom 0 lo m = true) : m.Pairwise (fun x y => x.1 < y.1) := by
  induction m generalizing lo with
  | nil => exact List.Pairwise.nil
  | cons x m ih =>
    simp only [SMap.wfFrom, Bool.and_eq_true, decide_eq_true_eq] at h
    exact List.Pairwise.cons (fun y hy => SMap.le_key_of_wfFrom h.2 hy) (ih h.2)

/-- The place of an entry of one rule table at 16 or above. -/
def ruleSlot (ep : Bool) (chk : Nat) (kv : Nat × Nat) : Option Nat :=
  if kv.1 / 65536 = ((bankOf ep * 16 + 5) * 1024 + chk) * 8 ∧ 16 ≤ kv.1 % 65536 ∧ kv.1 % 65536 < 4096 then some (kv.1 % 65536) else none

theorem ruleSlot_eq_some {ep : Bool} {chk i : Nat} {kv : Nat × Nat} : ruleSlot ep chk kv = some i ↔
    kv.1 = tabKey (bankOf ep) 5 chk 0 i ∧ 16 ≤ i ∧ i < 4096 := by
  unfold ruleSlot tabKey
  constructor
  · intro h
    obtain ⟨⟨hq, hlo, hhi⟩, rfl⟩ := (Option.ite_none_right_eq_some.trans (and_congr_right fun _ => Option.some_inj)).mp h
    omega
  · rintro ⟨hk, hlo, hhi⟩
    have hm : kv.1 % 65536 = i := by omega
    rw [hm, if_pos (by omega)]

theorem State.ruleIndices_eq (s : State) (ep : Bool) (chk : Nat) : s.ruleIndices ep chk = List.range 16 ++ s.tabs.filterMap (ruleSlot ep chk) := rfl

theorem State.ruleIndices_pairwise (h : SMap.wf 0 s.tabs = true) (ep : Bool) (chk : Nat) : (s.ruleIndices ep chk).Pairwise (· < ·) := by
  rw [State.ruleIndices_eq, List.pairwise_append]
  refine ⟨List.pairwise_lt_range, List.pairwise_filterMap.mpr ((SMap.pairwise_keys_of_wfFrom h).imp fun {x y} hxy i hi j hj => ?_), fun i hi j hj => ?_⟩
  · obtain ⟨hx, -, hi⟩ := ruleSlot_eq_some.mp hi
    obtain ⟨hy, -, hj⟩ := ruleSlot_eq_some.mp hj
    unfold tabKey at hx hy
    omega
  · obtain ⟨kv, -, hkv⟩ := List.mem_filterMap.mp hj
    have := (ruleSlot_eq_some.mp hkv).2.1
    have := List.mem_range.mp hi
    omega

theorem State.lt_of_mem_ruleIndices {ep : Bool} {chk i : Nat} (h : i ∈ s.ruleIndices ep chk) : i < 4096 := by
  rw [State.ruleIndices_eq, List.mem_append] at h
  rcases h with h | h
  · exact Nat.lt_trans (List.mem_range.mp h) (by decide)
  · obtain ⟨kv, -, hkv⟩ := List.mem_filterMap.mp h
    exact (ruleSlot_eq_some.mp hkv).2.2

theorem not_ruleMatch_zero (pa : Nat) : ruleMatch 0 pa = false := Bool.and_eq_false_imp.mpr fun h => absurd h (by decide)

/-- A stored entry that matches is among those that a check looks at. -/
theorem State.mem_ruleIndices_of_match {ep : Bool} {chk i pa : Nat} (hlo : 16 ≤ i) (hhi : i < 4096)
    (h : ruleMatch (s.ruleEntry ep chk i) pa = true) : i ∈ s.ruleIndices ep chk := by
  have hne : SMap.get 0 s.tabs (tabKey (bankOf ep) 5 chk 0 i) ≠ 0 := by
    intro h0
    have he : s.ruleEntry ep chk i = 0 := (if_neg (Nat.not_lt.mpr hlo)).trans h0
    rw [he, not_ruleMatch_zero] at h
    cases h
  obtain ⟨kv, hkv, hk⟩ := List.mem_map.mp (SMap.mem_keys_of_get_ne hne)
  exact List.mem_append_right _ (List.mem_filterMap.mpr ⟨kv, hkv, ruleSlot_eq_some.mpr ⟨hk, hlo, hhi⟩⟩)

theorem State.deciding_spec {ep : Bool} {chk sl pa i e : Nat} (hwf : SMap.wf 0 s.tabs = true) (h : s.deciding ep chk sl pa = some (i, e)) :
    e = s.ruleEntry ep chk i ∧ ruleMatch e pa = true ∧ s.ruleOpen ep sl i = true ∧
      ∀ j, j < i → 16 ≤ j → s.ruleOpen ep sl j = true → ruleMatch (s.ruleEntry ep chk j) pa = false := by
  obtain ⟨before, a, after, hl, ha, hnone⟩ := List.findSome?_eq_some_iff.mp h
  obtain ⟨⟨hm, -, ho⟩, heq⟩ := (Option.ite_none_right_eq_some.trans (and_congr_right fun _ => Option.some_inj)).mp ha
  obtain ⟨rfl, rfl⟩ := Prod.mk.inj heq
  refine ⟨rfl, hm, ho, fun j hji hlo hjo => Bool.eq_false_iff.mpr fun hjm => ?_⟩
  have hsorted := hl ▸ s.ruleIndices_pairwise hwf ep chk
  have ha : a ∈ s.ruleIndices ep chk := hl ▸ List.mem_append_right _ List.mem_cons_self
  have hmem := hl ▸ State.mem_ruleIndices_of_match hlo (Nat.lt_trans hji (State.lt_of_mem_ruleIndices ha)) hjm
  rcases List.mem_append.mp hmem with hb | hc
  · exact absurd (hnone j hb) (by simp [hjm, hlo, hjo])
  · rcases List.mem_cons.mp hc with rfl | hc
    · exact Nat.lt_irrefl _ hji
    · exact Nat.lt_asymm hji ((List.pairwise_cons.mp (List.pairwise_append.mp hsorted).2.1).1 j hc)

section
variable {chk : Nat} {ep : Bool} {sl pa opc d : Nat} {rd wr : Bool} (hp : rulePerm opc = some (rd, wr)) (hd : d ≠ 15 ∨ s.dbgOvr = false)
include hd

theorem State.not_debug_override : ¬(d = 15 ∧ s.dbgOvr = true) := fun h => hd.elim (· h.1) fun hd => by simp [h.2] at hd

include hp

theorem State.ruleCheck_no_match (h : s.deciding ep chk sl pa = none) : s.ruleCheck chk ep sl pa opc (some d) = .deny 1 0x1FFF := by
  unfold State.ruleCheck
  rw [hp]
  dsimp only
  rw [h]
  exact if_neg (State.not_debug_override hd)

theorem State.ruleCheck_match {i e : Nat} (h : s.deciding ep chk sl pa = some (i, e)) : s.ruleCheck chk ep sl pa opc (some d) =
    if opc = 0xA ∧ ruleType e = 1 then .deny 3 i else if (rd ∧ ¬ruleRd e d) ∨ (wr ∧ ¬ruleWr e d) then .deny 2 i else .allow e := by
  unfold State.ruleCheck
  rw [hp]
  dsimp only
  rw [h]
  exact if_neg (State.not_debug_override hd)

end

theorem State.ruleCheck_no_domain {chk : Nat} {ep : Bool} {sl pa opc : Nat} (h : (rulePerm opc).isSome = true) :
    s.ruleCheck chk ep sl pa opc none = .deny 4 0x1FFF := by
  obtain ⟨⟨rd, wr⟩, hp⟩ := Option.isSome_iff_exists.mp h
  unfold State.ruleCheck
  rw [hp]

theorem State.ruleCheck_debug {chk : Nat} {ep : Bool} {sl pa opc : Nat} (h : (rulePerm opc).isSome = true) (hd : s.dbgOvr = true) :
    ∃ e, s.ruleCheck chk ep sl pa opc (some 15) = .allow e := by
  obtain ⟨⟨rd, wr⟩, hp⟩ := Option.isSome_iff_exists.mp h
  unfold State.ruleCheck
  rw [hp]
  dsimp only
  cases s.deciding ep chk sl pa with
  | none => exact ⟨0, if_pos ⟨rfl, hd⟩⟩
  | some r => exact ⟨r.2, if_pos ⟨rfl, hd⟩⟩

/-! ### A denial that finds its capture taken -/

theorem State.latchWords_held {cap : Reg} {ws : List (Reg × Nat)} {b i : Nat} (h : s.rf cap 31 1 b i = 1) (r : Reg) (b' i' : Nat) :
    (s.latchWords cap ws b i).reg r b' i' = s.reg r b' i' :=
  (congrArg (fun t : State => t.reg r b' i') (if_pos h :)).trans (State.reg_congr rfl rfl ..)

theorem State.latchWords_empty {cap : Reg} {ws : List (Reg × Nat)} {b i : Nat} (h : s.rf cap 31 1 b i = 0) :
    s.latchWords cap ws b i = ws.foldl (fun s rw => s.setReg rw.1 rw.2 b i) s := if_neg (by omega)

/-- Counting touches no register below the counter banks. -/
theorem State.reg_count_low (f j n : Nat) {r : Reg} {b i : Nat} (hr : r.off b i < 0x1000000) : (s.count f j n).reg r b i = s.reg r b i := by
  have hne (j' : Nat) : r.off b i ≠ Reg.off .CTR_STAT (ctrBase f) j' := by
    have hstat : 0x1000000 ≤ Reg.off .CTR_STAT (ctrBase f) j' := by unfold Reg.off ctrBase; omega
    omega
  have hstat (t : State) (j' : Nat) (ht : t.reg r b i = s.reg r b i) : (t.setRf .CTR_STAT 0 1 1 (ctrBase f) j').reg r b i = s.reg r b i :=
    (State.reg_setRf_other _ _ _ _ _ _ _ _ _ _ (hne j')).trans ht
  have hctr (t : State) (c : SMap Nat) (ht : t.reg r b i = s.reg r b i) : ({ t with ctr := c } : State).reg r b i = s.reg r b i :=
    (State.reg_congr rfl rfl ..).trans ht
  unfold State.count
  dsimp only
  exact iteInduction (motive := fun t : State => t.reg r b i = s.reg r b i) (fun _ => rfl) fun _ =>
    iteInduction (motive := fun t : State => t.reg r b i = s.reg r b i) (fun _ => hctr _ _ rfl) fun _ =>
      iteInduction (motive := fun t : State => t.reg r b i = s.reg r b i)
        (fun _ => iteInduction (motive := fun t : State => t.reg r b i = s.reg r b i) (fun _ => hctr _ _ (hctr _ _ rfl)) fun _ =>
          hstat _ _ (hctr _ _ (hctr _ _ rfl)))
        fun _ => hstat _ _ (hctr _ _ rfl)

theorem State.raiseNi_spine {f cls lvl : Nat} (h : 0x180 ≤ f) : s.raiseNi f cls lvl = s.raiseSpine 28 cls lvl (fidUnit f) 0 false := if_pos h

theorem State.denied_held {f : Nat} {pre : Bool} {src d opc cause entry pa : Nat} (hf : 0x180 ≤ f) (hd : d ≠ 15)
    (hc : s.rf .RK_DENY_CAP 31 1 rkBase = 1) (r : Reg) (hr : r.spec.off < 4096) :
    (s.denied f pre src (some d) opc cause entry pa).reg r rkBase = (s.bump .RK_DENY_CNT rkBase).reg r rkBase := by
  have hcap : (s.bump .RK_DENY_CNT rkBase).rf .RK_DENY_CAP 31 1 rkBase = 1 :=
    (congrArg (fun w => fld w 31 1) (State.reg_bump_other s .RK_DENY_CNT .RK_DENY_CAP rkBase 0 1 rkBase 0 (by decide))).trans hc
  unfold State.denied
  dsimp only
  rw [State.raiseNi_spine hf, State.reg_raiseSpine, State.reg_count_low _ _ _ (by unfold Reg.off rkBase; omega), if_neg (by simpa using hd), State.latchWords_held hcap]

/-! ### The repair of a replica -/

theorem execReplicaRepair_eq (m : BitVec 5) {i : Nat} (hi : i < 4096) : execReplicaRepair m (BitVec.ofNat 13 i) s = .next (s.ruleRepair m i) := by
  have h : (BitVec.ofNat 13 i).toNat = i := by simp; omega
  unfold execReplicaRepair
  rw [h]
  exact if_neg (by omega)

/-- A copy rewritten from the central one, counted and reported. -/
def State.copyMended (s : State) (c i : Nat) : State :=
  ((s.ruleCopy 4 c i).bump .RK_REPAIR_CNT rkBase).raiseSpine 28 2 0 (fidUnit 0x182) i false

theorem State.ruleRepair_copy {c : Nat} (hc : c < 4) (i : Nat) : s.ruleRepair (BitVec.ofNat 5 (2 ^ c)) i = s.copyMended c i := by
  obtain rfl | rfl | rfl | rfl : c = 0 ∨ c = 1 ∨ c = 2 ∨ c = 3 := by omega
  all_goals rfl

theorem State.ruleRepair_central (i : Nat) :
    s.ruleRepair 16 i = (s.ruleCopy 0 4 i).latchWords .RK_CENTRAL_ERR [(.RK_CENTRAL_ERR, i + 2 ^ 31)] rkBase := rfl

/-- An entry written as invalid in every copy of both banks. -/
def State.ruleLost (s : State) (i : Nat) : State := (List.range 5).foldl (fun s c => (s.setTab 0 5 c 0 i 0).setTab 1 5 c 0 i 0) s

theorem State.ruleRepair_none (i : Nat) : s.ruleRepair 31 i = (s.ruleLost i).raiseSpine 28 2 4 (fidUnit 0x182) i := rfl

theorem State.tab_setTab_rule (b b' c c' i v : Nat) (hc : c < 1024) (hc' : c' < 1024) :
    (s.setTab b 5 c 0 i v).tab b' 5 c' 0 i = if b' = b ∧ c' = c then v else s.tab b' 5 c' 0 i := by
  refine (SMap.get_set ..).trans (ite_congr (propext ?_) (fun _ => rfl) fun _ => rfl)
  unfold tabKey
  omega

theorem State.tab_ruleCopy {src dst c i b : Nat} (hb : b < 2) (hc : c < 1024) (hd : dst < 1024) :
    (s.ruleCopy src dst i).tab b 5 c 0 i = if c = dst then s.tab b 5 src 0 i else s.tab b 5 c 0 i := by
  unfold State.ruleCopy
  rw [State.tab_setTab_rule _ _ _ _ _ _ hd hc, State.tab_setTab_rule _ _ _ _ _ _ hd hc]
  obtain rfl | rfl : b = 0 ∨ b = 1 := by omega
  · simp
  · simp

theorem State.tab_ruleLost {c i b : Nat} (hb : b < 2) (hc : c < 5) : (s.ruleLost i).tab b 5 c 0 i = 0 := by
  have hrule (s : State) (c' b : Nat) (hb : b < 2) (hc' : c' < 5) :
      ((s.setTab 0 5 c' 0 i 0).setTab 1 5 c' 0 i 0).tab b 5 c 0 i = if c = c' then 0 else s.tab b 5 c 0 i := by
    rw [State.tab_setTab_rule _ _ _ _ _ _ (by omega) (by omega), State.tab_setTab_rule _ _ _ _ _ _ (by omega) (by omega)]
    obtain rfl | rfl : b = 0 ∨ b = 1 := by omega
    · simp
    · simp
  simp only [State.ruleLost, List.range, List.range.loop, List.foldl_cons, List.foldl_nil]
  simp only [hrule _ _ b hb (show 0 < 5 by omega), hrule _ _ b hb (show 1 < 5 by omega), hrule _ _ b hb (show 2 < 5 by omega),
    hrule _ _ b hb (show 3 < 5 by omega), hrule _ _ b hb (show 4 < 5 by omega)]
  obtain rfl | rfl | rfl | rfl | rfl : c = 0 ∨ c = 1 ∨ c = 2 ∨ c = 3 ∨ c = 4 := by omega
  all_goals rfl

theorem State.tabs_setTab_rest (h : { t with tabs := s.tabs } = s) (b table u p i v : Nat) : { t.setTab b table u p i v with tabs := s.tabs } = s := h

theorem State.ruleLost_rest (i : Nat) : { s.ruleLost i with tabs := s.tabs } = s :=
  List.foldlRecOn (motive := fun t : State => { t with tabs := s.tabs } = s) _ _ rfl fun _ h c _ =>
    State.tabs_setTab_rest (State.tabs_setTab_rest h 0 5 c 0 i 0) 1 5 c 0 i 0

theorem State.copyMended_rest (c i : Nat) : { s.copyMended c i with tabs := s.tabs, regs := s.regs, cyc := s.cyc, fc := s.fc } = s := by
  have h : (s.ruleCopy 4 c i).RegsOnly ((s.ruleCopy 4 c i).bump .RK_REPAIR_CNT rkBase) := State.RegsOnly.refl.bump ..
  exact (congrArg (fun t : State => { t with tabs := s.tabs, fc := s.fc }) h :)

theorem State.copyMended_tab {b c c' i : Nat} (hb : b < 2) (hc : c < 4) (hc' : c' < 1024) :
    (s.copyMended c i).tab b 5 c' 0 i = if c' = c then s.tab b 5 4 0 i else s.tab b 5 c' 0 i :=
  State.tab_ruleCopy hb hc' (by omega)

theorem State.copyMended_count (c i : Nat) :
    (s.copyMended c i).reg .RK_REPAIR_CNT rkBase = min (s.reg .RK_REPAIR_CNT rkBase + 1) 0xFFFFFFFF :=
  (State.reg_raiseSpine ..).trans (State.reg_bump_same ..)

theorem State.copyMended_mem (c i : Nat) : ∃ r ∈ (s.copyMended c i).fc.queue, r.src = 32 * 28 + 2 := by
  obtain ⟨r, hr, hsrc, -⟩ := ((s.ruleCopy 4 c i).bump .RK_REPAIR_CNT rkBase).raiseSpine_mem 28 2 0 (fidUnit 0x182) i false
  exact ⟨r, hr, hsrc⟩

/-- The central copy rewritten from the first replica. -/
def State.centralMended (s : State) (i : Nat) : State :=
  (s.ruleCopy 0 4 i).latchWords .RK_CENTRAL_ERR [(.RK_CENTRAL_ERR, i + 2 ^ 31)] rkBase

theorem State.centralMended_spec {i : Nat} (hi : i < 4096) : (∀ b, b < 2 → (s.centralMended i).tab b 5 4 0 i = s.tab b 5 0 0 i) ∧
    (s.rf .RK_CENTRAL_ERR 31 1 rkBase = 0 → (s.centralMended i).reg .RK_CENTRAL_ERR rkBase = i + 2 ^ 31) ∧
    { s.centralMended i with tabs := s.tabs, regs := s.regs, cyc := s.cyc } = s := by
  refine ⟨fun b hb => ?_, fun hf => ?_, ?_⟩
  · have h := State.tab_ruleCopy (s := s) (src := 0) (c := 4) (dst := 4) (i := i) hb (by omega) (by omega)
    have ht : (s.centralMended i).tabs = (s.ruleCopy 0 4 i).tabs := State.latchWords_tabs ..
    exact (congrArg (fun m => SMap.get 0 m (tabKey b 5 4 0 i)) ht).trans (h.trans (if_pos rfl))
  · have hf : (s.ruleCopy 0 4 i).rf .RK_CENTRAL_ERR 31 1 rkBase = 0 := hf
    rw [State.centralMended, State.latchWords_empty hf]
    exact (State.reg_setReg_same ..).trans (Nat.mod_eq_of_lt (by omega))
  · have h : (s.ruleCopy 0 4 i).RegsOnly (s.centralMended i) :=
      iteInduction (fun _ => State.RegsOnly.refl.noteCyc _ _) fun _ => State.RegsOnly.refl.setReg ..
    exact (congrArg (fun t : State => { t with tabs := s.tabs }) h :)

theorem State.raiseSpine_of_tabs (h : { t with tabs := s.tabs } = s) (g c l : Nat) (u : UnitRef) (d : Nat) (j : Bool) :
    { t.raiseSpine g c l u d j with fc := s.fc, tabs := s.tabs } = s :=
  (congrArg (fun t : State => { t with fc := s.fc }) h :)

theorem execReplicaRepair_lost {i : Nat} (hi : i < 4096) : ∃ t, execReplicaRepair 31 (BitVec.ofNat 13 i) s = .next t ∧
    (∃ r ∈ t.fc.queue, r.src = 32 * 28 + 2 ∧ 4 ≤ r.level) ∧ (∀ b c, b < 2 → c < 5 → t.tab b 5 c 0 i = 0) ∧
      { t with fc := s.fc, tabs := s.tabs } = s := by
  have hrest := State.raiseSpine_of_tabs (s.ruleLost_rest i) 28 2 4 (fidUnit 0x182) i false
  have htab (b c : Nat) (hb : b < 2) (hc : c < 5) := State.tab_ruleLost (s := s) (i := i) hb hc
  refine ⟨_, (execReplicaRepair_eq 31 hi).trans (congrArg Host.Outcome.next (State.ruleRepair_none i)), ?_, ?_, hrest⟩
  · obtain ⟨r, hr, hsrc, hl, -⟩ := (s.ruleLost i).raiseSpine_mem 28 2 4 (fidUnit 0x182) i false
    exact ⟨r, hr, hsrc, hl⟩
  · generalize s.ruleLost i = t at htab
    exact htab

section
variable {chk : Nat} {ep : Bool} {sl pa opc d i e : Nat} {rd wr : Bool} (hp : rulePerm opc = some (rd, wr)) (hd : d ≠ 15 ∨ s.dbgOvr = false)
  (h : s.deciding ep chk sl pa = some (i, e)) (hfar : opc ≠ 0xA ∨ ruleType e ≠ 1)
include hp hd h hfar

theorem State.ruleCheck_permitted (hok : (rd = true → ruleRd e d = true) ∧ (wr = true → ruleWr e d = true)) :
    s.ruleCheck chk ep sl pa opc (some d) = .allow e := by
  rw [State.ruleCheck_match hp hd h, if_neg (fun hx => hfar.elim (· hx.1) (· hx.2)), if_neg]
  rintro (⟨hr, hn⟩ | ⟨hw, hn⟩)
  · exact hn (hok.1 hr)
  · exact hn (hok.2 hw)

theorem State.ruleCheck_not_permitted (hbad : ¬((rd = true → ruleRd e d = true) ∧ (wr = true → ruleWr e d = true))) :
    s.ruleCheck chk ep sl pa opc (some d) = .deny 2 i := by
  rw [State.ruleCheck_match hp hd h, if_neg (fun hx => hfar.elim (· hx.1) (· hx.2)), if_pos]
  refine Classical.byContradiction fun hx => hbad ?_
  simpa only [not_or, not_and, Classical.not_not] using hx

end

/-- Settles O31. -/
theorem accessRulesDecideAndAreRepaired : Obligations.AccessRulesDecideAndAreRepaired := by
  refine ⟨⟨fun e pa => by simp [ruleMatch], fun s ep chk sl pa i e hwf _ h => State.deciding_spec hwf h, fun s chk ep sl pa opc d rd wr hp hd =>
    ⟨fun h => State.ruleCheck_no_match hp hd h, fun i e h hfar => ⟨State.ruleCheck_permitted hp hd h hfar, State.ruleCheck_not_permitted hp hd h hfar⟩,
      fun i e h ho ht => (State.ruleCheck_match hp hd h).trans (if_pos ⟨ho, ht⟩)⟩,
    fun s chk ep sl pa opc hp => ⟨State.ruleCheck_no_domain hp, State.ruleCheck_debug hp⟩, fun s f pre src d opc cause entry pa hf _ hd hc => ⟨?_, ?_⟩⟩,
    fun s c i hc hi => ?_, fun s i hi => ?_, fun s i hi => execReplicaRepair_lost hi⟩
  · exact (State.denied_held hf hd hc _ (by decide)).trans (State.reg_bump_same ..)
  · exact (State.denied_held hf hd hc _ (by decide)).trans (State.reg_bump_other _ _ _ _ _ _ _ _ (by decide))
  · exact ⟨s.copyMended c i, (execReplicaRepair_eq _ hi).trans (congrArg _ (State.ruleRepair_copy hc i)),
      fun b hb => ⟨(State.copyMended_tab hb hc (by omega)).trans (if_pos rfl), (State.copyMended_tab hb hc (by omega)).trans (if_neg (by omega))⟩,
      State.copyMended_count c i, State.copyMended_mem c i, State.copyMended_rest c i⟩
  · exact ⟨s.centralMended i, (execReplicaRepair_eq 16 hi).trans (congrArg _ (State.ruleRepair_central i)), State.centralMended_spec hi⟩

end Sys2Proof.Machine

namespace Sys2Proof.Machine
variable {s t : State}

/-! ### Headers and grants -/

theorem State.no_granted_with_data (h : ∀ t ∈ s.saf.slots, t.state ≠ .granted) :
    s.saf.slots.findSome? (fun t => if t.state = .granted then (s.safData t.req).map (fun d => (t, d)) else none) = none :=
  List.findSome?_eq_none_iff.mpr fun t ht => if_neg (h t ht)

theorem State.nif_safTake (p : Pkt) : ((s.safTake p).nif 0x181).inbox = (s.nif 0x181).inbox.erase p := by
  rw [State.safTake, State.nif_updNi, if_pos rfl]

theorem State.safTake_two {q d : Pkt} (h : (s.nif 0x181).inbox = [q, d]) : (((s.safTake q).safTake d).nif 0x181).inbox = [] := by
  rw [State.nif_safTake, State.nif_safTake, h, List.erase_cons_head]
  exact List.erase_cons_head ..

theorem State.safTake_rest (h : { t with saf := s.saf, ni := s.ni } = s) (p : Pkt) : { t.safTake p with saf := s.saf, ni := s.ni } = s := h

section
variable (hh : s.prim ≠ .halt) (hg : ∀ t ∈ s.saf.slots, t.state ≠ .granted)
include hh hg

section
variable {q : Pkt} {rest : List Pkt} (hi : (s.nif 0x181).inbox = q :: rest) (hq : q.net = .req) (hop : q.opc = 0x14) (hdf : q.df = false)
include hi hq hop hdf

theorem execSafHeaderArrive_uncredited (st : WordErr) : execSafHeaderArrive st s = if 256 ≤ s.saf.admq.length then .next s
    else .next { (s.safTake q) with saf := { s.saf with admq := s.saf.admq ++ [q] } } := by
  have hfind : (s.nif 0x181).inbox.find? (fun p => p.net == .req && (!credited p || noData p || (s.safData p).isSome)) = some q := by
    rw [hi]
    exact List.find?_cons_of_pos (by simp [hq, credited, hdf])
  unfold execSafHeaderArrive
  rw [if_neg hh, State.no_granted_with_data hg]
  dsimp only
  rw [hfind]
  dsimp only
  rw [if_neg (fun h => h.1 hop), if_neg (by simp [credited, hdf])]

end

theorem execSafHeaderArrive_credited {q d : Pkt} {i : Nat} (hi : (s.nif 0x181).inbox = [q, d]) (hq : q.net = .req) (hop : q.opc = 0x14)
    (hdf : q.df = true) (hd : d.net = .dat) (hsrc : d.src = q.src) (htx : d.txid = q.txid) (hfree : s.saf.freeSlot = some i) (st : WordErr) :
    execSafHeaderArrive st s = .next ((((({ s with saf := { s.saf with
        slots := s.saf.slots ++ [{ n := i, master := q.src, pool := false, slice := q.slice, txid := q.txid, req := q }]
        given := SMap.upd 0 s.saf.given q.src.toNat (· - 1) } } : State).safTake q).safTake d).safAdmit
          { n := i, master := q.src, pool := false, slice := q.slice, txid := q.txid, req := q } (some d) st)) := by
  have hdata : (s.nif 0x181).inbox.find? (fun p => p.net == .dat && p.src == q.src && p.txid == q.txid) = some d := by
    rw [hi]
    simp [hq, hd, hsrc, htx]
  have hkept (x : Saf) : ({ s with saf := x } : State).safData q = some d := hdata
  have hfind : (s.nif 0x181).inbox.find? (fun p => p.net == .req && (!credited p || noData p || (s.safData p).isSome)) = some q := by
    have hsome : (s.safData q).isSome = true := congrArg Option.isSome hdata
    rw [hi]
    exact List.find?_cons_of_pos (by simp [hq, hsome])
  unfold execSafHeaderArrive
  rw [if_neg hh, State.no_granted_with_data hg]
  dsimp only
  rw [hfind]
  dsimp only
  rw [if_neg (fun h => h.1 hop), if_pos (show credited q = true from hdf)]
  unfold State.safSlot
  rw [hfree]
  dsimp only
  rw [hkept]

end

theorem execSafPoolGrant_first {q : Pkt} {rest : List Pkt} {i : Nat} (hh : s.prim ≠ .halt) (ha : s.saf.admq = q :: rest)
    (hc : s.safCanGrant q = true) (hfree : s.saf.freeSlot = some i) (hn : noData q = false) : execSafPoolGrant s =
      .next (({ s with saf := { s.saf with
        slots := s.saf.slots ++ [{ n := i, master := q.src, pool := true, slice := q.slice, txid := q.txid, req := q }]
        admq := rest } } : State).send 0x181 { net := .rsp, dst := q.src, opc := 0x10, txid := q.txid, slice := q.slice, cnt := 0x80 }) := by
  have hfind : s.saf.admq.find? s.safCanGrant = some q := by rw [ha]; exact List.find?_cons_of_pos hc
  have herase : s.saf.admq.erase q = rest := by rw [ha]; exact List.erase_cons_head ..
  unfold execSafPoolGrant
  rw [if_neg hh, hfind]
  unfold State.safSlot
  rw [hfree]
  dsimp only
  rw [if_neg (by simp [hn]), herase]

theorem execSafPoolGrant_empty (ha : s.saf.admq = []) : execSafPoolGrant s = .next s := by
  unfold execSafPoolGrant
  rw [ha]
  exact ite_self _

theorem State.safCanGrant_bounds {q : Pkt} (h : s.safCanGrant q = true) : s.saf.slots.length + s.saf.credits < 96 ∧
    s.saf.poolUse < s.safPoolSize ∧ s.saf.poolOf q.src.toNat < s.safPoolmax q.src.toNat := by
  simp only [State.safCanGrant, Bool.and_eq_true, decide_eq_true_eq] at h
  obtain ⟨⟨⟨hs, hu⟩, hm⟩, -⟩ := h
  refine ⟨?_, hu, hm⟩
  unfold Saf.spare at hs
  omega

theorem execSafComplete_oldest {x : SafSlot} (hh : s.prim ≠ .halt) (hi : ∀ p ∈ (s.nif 0x181).inbox, p.net ≠ .rsp) (ho : s.saf.oldest = some x) :
    execSafComplete s = if x.state = .done ∨ s.epochDone x then .next (s.safLeave x) else .next s := by
  have hans : s.safAnswers = s := by
    unfold State.safAnswers
    rw [List.find?_eq_none.mpr fun p hp => by simpa using hi p hp]
  unfold execSafComplete
  rw [if_neg hh, hans, ho]

/-! ### The oldest slot -/

/-- The head of a list built by insertions is an element of least key. -/
theorem foldl_insertOn_head_le {α : Type} (key : α → Nat) {xs acc : List α} {x : α} (h : (xs.foldl (fun acc y => insertOn key y acc) acc).head? = some x) :
    (∀ y ∈ xs, key x ≤ key y) ∧ ∀ y, acc.head? = some y → key x ≤ key y := by
  induction xs generalizing acc with
  | nil => exact ⟨fun _ h => absurd h List.not_mem_nil, fun y hy => Nat.le_of_eq (congrArg key (Option.some.inj (h.symm.trans hy)))⟩
  | cons z xs ih =>
    obtain ⟨hxs, hhead⟩ := ih h
    rw [head?_insertOn] at hhead
    cases hacc : acc.head? with
    | none =>
      rw [hacc] at hhead
      exact ⟨List.forall_mem_cons.mpr ⟨hhead z rfl, hxs⟩, fun _ h => absurd h (by simp)⟩
    | some y =>
      rw [hacc] at hhead
      by_cases hlt : key z < key y
      · have hz := hhead z (if_pos hlt)
        exact ⟨List.forall_mem_cons.mpr ⟨hz, hxs⟩, fun _ e => Option.some.inj e ▸ Nat.le_trans hz (Nat.le_of_lt hlt)⟩
      · have hy := hhead y (if_neg hlt)
        exact ⟨List.forall_mem_cons.mpr ⟨Nat.le_trans hy (Nat.le_of_not_lt hlt), hxs⟩, fun _ e => Option.some.inj e ▸ hy⟩

theorem Saf.oldest_spec {x : Saf} {a : SafSlot} (h : x.oldest = some a) :
    a ∈ x.slots ∧ ∀ u ∈ x.slots, u.seq.isSome = true → a.seq.getD 0 ≤ u.seq.getD 0 := by
  have hmem := (mem_foldl_insertOn (fun t : SafSlot => t.seq.getD 0)).mp (List.mem_of_head? h)
  refine ⟨(List.mem_filter.1 (hmem.resolve_right List.not_mem_nil)).1, fun u hu hs => ?_⟩
  exact (foldl_insertOn_head_le (fun t : SafSlot => t.seq.getD 0) h).1 u (List.mem_filter.mpr ⟨hu, hs⟩)

/-! ### Reservations -/

theorem State.safEnt_setEnt {n i v : Nat} (hv : v < 2 ^ 25) : (s.setRf .SAF_ENTn 0 25 v 0 n).safEnt i = if i = n then v else s.safEnt i := by
  by_cases h : i = n
  · subst h
    exact (State.rf_setRf_same _ _ _ _ _ _ _ (by omega)).trans ((Nat.mod_eq_of_lt hv).trans (if_pos rfl).symm)
  · refine (State.rf_setRf_other _ _ _ _ _ _ _ _ _ _ _ _ ?_).trans (if_neg h).symm
    unfold Reg.off
    simp [Reg.spec]
    omega

theorem State.safEnt_setStatus (i : Nat) : (s.setRf .SAF_STATUS 30 1 1).safEnt i = s.safEnt i := by
  refine State.rf_setRf_other _ _ _ _ _ _ _ _ _ _ _ _ ?_
  unfold Reg.off
  simp [Reg.spec]
  omega

theorem execSafEntWrite_eq (n : Fin 32) (v : BitVec 32) : execSafEntWrite n v s =
    .next (if safLegal ((List.range 32).map (fun i => if i = n.val then fld v.toNat 0 25 else s.safEnt i)) (s.rf .SAF_POOLDEF 0 7) then
      (s.setRf .SAF_ENTn 0 25 (fld v.toNat 0 25) 0 n).safGrant else s.setRf .SAF_STATUS 30 1 1) := rfl

section
variable {n : Fin 32} {v : BitVec 32}

theorem execSafEntWrite_refused
    (hl : safLegal ((List.range 32).map (fun i => if i = n.val then fld v.toNat 0 25 else s.safEnt i)) (s.rf .SAF_POOLDEF 0 7) = false) :
    ∃ t, execSafEntWrite n v s = .next t ∧ t.rf .SAF_STATUS 30 1 = 1 ∧ (∀ i, i < 32 → t.safEnt i = s.safEnt i) ∧
      { t with regs := s.regs, cyc := s.cyc } = s := by
  refine ⟨s.setRf .SAF_STATUS 30 1 1, ?_, (State.rf_setRf_same _ _ _ _ _ _ _ (by omega)).trans (Nat.mod_eq_of_lt (by omega)), fun i _ => State.safEnt_setStatus i, State.RegsOnly.refl.setRf ..⟩
  rw [execSafEntWrite_eq, if_neg (ne_true_of_eq_false hl)]

theorem execSafEntWrite_taken
    (hl : safLegal ((List.range 32).map (fun i => if i = n.val then fld v.toNat 0 25 else s.safEnt i)) (s.rf .SAF_POOLDEF 0 7) = true) :
    ∃ s' : State, execSafEntWrite n v s = .next s'.safGrant ∧ s'.safEnt n = fld v.toNat 0 25 ∧
      (∀ i, i < 32 → i ≠ n.val → s'.safEnt i = s.safEnt i) ∧ { s' with regs := s.regs, cyc := s.cyc } = s := by
  have hv : fld v.toNat 0 25 < 2 ^ 25 := fld_lt ..
  refine ⟨s.setRf .SAF_ENTn 0 25 (fld v.toNat 0 25) 0 n, ?_, (State.safEnt_setEnt hv).trans (if_pos rfl),
    fun i _ hne => (State.safEnt_setEnt hv).trans (if_neg hne), State.RegsOnly.refl.setRf ..⟩
  rw [execSafEntWrite_eq, if_pos hl]

end

theorem execSafPooldefWrite_eq (v : BitVec 32) : execSafPooldefWrite v s =
    .next (if safLegal s.safEnts (fld v.toNat 0 7) then s.setRf .SAF_POOLDEF 0 7 (fld v.toNat 0 7) else s.setRf .SAF_STATUS 30 1 1) := rfl

theorem safLegal_bounds {es : List Nat} {d : Nat} (h : safLegal es d = true) : ((es.filter safValid).map safResv).sum ≤ 96 ∧
    ∃ e ∈ es, safValid e = true ∧ safMaster e = 0x180 ∧ 0 < safResv e := by
  simp only [safLegal, Bool.and_eq_true, decide_eq_true_eq] at h
  obtain ⟨⟨⟨hsum, hspine⟩, -⟩, -⟩ := h
  obtain ⟨e, he, hp⟩ := List.any_eq_true.mp hspine
  obtain ⟨he, hv⟩ := List.mem_filter.mp he
  simp only [Bool.and_eq_true, beq_iff_eq, decide_eq_true_eq] at hp
  exact ⟨hsum, e, he, hv, hp⟩

/-! ### The wait limit -/

theorem execSafWaitExpire_tracked {fid : Fid} (ht : tracked fid.toNat = true) (i : BitVec 8) :
    execSafWaitExpire fid i s = .next (s.safWait fid.toNat i.toNat) := if_pos ht

theorem State.safWait_of_entry {f i : Nat} {e : SrcEnt} (he : s.srcEnt f i = some e) : s.safWait f i =
    if e.req.opc = 0x14 ∧ (e.state = .ready ∨ e.state = .poolWait ∨ e.state = .held) ∧ ¬e.waited ∧ e.since + max 1 (s.rf .SAF_WAIT 0 20) ≤ s.tick
    then (((s.setSrc f i (some { e with waited := true })).bump .SAF_WAITCNT).count 0x181 67).raiseNi f 10 1 else s := by
  unfold State.safWait
  rw [he]

/-- A spine request that has waited the limit. -/
def State.spineWaited (s : State) (i : Nat) (r : SpineReq) : State :=
  ((({ s with saf := { s.saf with spine := s.saf.spine.set i { r with waited := true } } } : State).bump .SAF_WAITCNT).count 0x181 67).raiseNi
    0x180 10 1

theorem State.spineWait_due {i : Nat} {r : SpineReq} (hr : s.saf.spine[i]? = some r) (hw : r.waited = false)
    (hl : r.since + max 1 (s.rf .SAF_WAIT 0 20) ≤ s.tick) : s.spineWait i = s.spineWaited i r := by
  unfold State.spineWait
  rw [hr]
  exact if_pos ⟨by simp [hw], hl⟩

theorem State.spineWaited_spec {i : Nat} {r : SpineReq} (hr : s.saf.spine[i]? = some r) :
    (s.spineWaited i r).saf.spine[i]? = some { r with waited := true } ∧
    (s.spineWaited i r).reg .SAF_WAITCNT = min (s.reg .SAF_WAITCNT + 1) 0xFFFFFFFF ∧
    ∃ x ∈ (s.spineWaited i r).fc.queue, x.src = 32 * 28 + 10 ∧ 1 ≤ x.level := by
  have hi : i < s.saf.spine.length := (List.getElem?_eq_some_iff.mp hr).1
  obtain ⟨x, hx, hsrc, hl, -⟩ := ((({ s with saf := { s.saf with spine := s.saf.spine.set i { r with waited := true } } } : State).bump
    .SAF_WAITCNT).count 0x181 67).raiseSpine_mem 28 10 1 (fidUnit 0x180) 0 false
  refine ⟨?_, ?_, x, hx, hsrc, hl⟩
  · have hsaf : (s.spineWaited i r).saf = { s.saf with spine := s.saf.spine.set i { r with waited := true } } := by
      rw [State.spineWaited, State.raiseNi_spine (by decide)]
      exact State.count_saf ..
    rw [hsaf]
    exact List.getElem?_set_self hi
  · rw [State.spineWaited, State.raiseNi_spine (by decide), State.reg_raiseSpine, State.reg_count_low _ _ _ (by decide), State.reg_bump_same]
    exact congrArg (fun w => min (w + 1) 0xFFFFFFFF) (State.reg_congr rfl rfl ..)

/-- Settles O32. -/
theorem saffronOrdersAndReserves : Obligations.SaffronOrdersAndReserves := by
  refine ⟨⟨fun s q rest hh hg hi hq hop hdf => ⟨fun hl => ?_, fun hl => (execSafHeaderArrive_uncredited hh hg hi hq hop hdf _).trans (if_pos hl)⟩,
      fun s q d i hh hg hi hq hop hdf hd hsrc htx hfree => ?_, fun s q rest i hh ha hc hfree hn => ?_, fun s ha => execSafPoolGrant_empty ha,
      fun s q h => State.safCanGrant_bounds h, fun s x hh hi ho => ⟨fun hx => ?_, fun hx hop => ?_⟩, fun x a h => Saf.oldest_spec h⟩,
    fun s n v => ⟨execSafEntWrite_refused, execSafEntWrite_taken⟩, fun s v => ⟨fun hl => ?_, fun hl => ?_⟩, fun es d h => safLegal_bounds h,
    fun s fid i e ht he => ⟨fun hop hst hw hl => ?_, fun h => ?_⟩, fun s i r hr hw hl => ?_⟩
  · exact ⟨_, (execSafHeaderArrive_uncredited hh hg hi hq hop hdf _).trans (if_neg (Nat.not_le.mpr hl)), rfl,
      (s.nif_safTake q).trans ((congrArg (List.erase · q) hi).trans (List.erase_cons_head ..)), rfl, rfl,
      (congrArg (fun t : State => { t with saf := s.saf }) (State.safTake_rest (s := s) (t := s) rfl q) :)⟩
  · exact ⟨_, execSafHeaderArrive_credited hh hg hi hq hop hdf hd hsrc htx hfree _, rfl, rfl, rfl, State.safTake_two hi, State.safTake_rest (State.safTake_rest (s := s) rfl q) d⟩
  · exact ⟨_, execSafPoolGrant_first hh ha hc hfree hn, rfl, ⟨_, rfl, rfl, rfl, rfl, rfl⟩, rfl⟩
  · exact (execSafComplete_oldest hh hi ho).trans (if_pos (.inl hx))
  · exact (execSafComplete_oldest hh hi ho).trans (if_neg (by simp [hx, State.epochDone, hop]))
  · exact ⟨_, (execSafPooldefWrite_eq v).trans (congrArg _ (if_pos hl)), (State.rf_setRf_same _ _ _ _ _ _ _ (by omega)).trans (Nat.mod_eq_of_lt (fld_lt ..)), State.RegsOnly.refl.setRf ..⟩
  · exact ⟨_, (execSafPooldefWrite_eq v).trans (congrArg _ (if_neg (ne_true_of_eq_false hl))), (State.rf_setRf_same _ _ _ _ _ _ _ (by omega)).trans (Nat.mod_eq_of_lt (by omega)),
      State.rf_setRf_other _ _ _ _ _ _ _ _ _ _ _ _ (by decide), State.RegsOnly.refl.setRf ..⟩
  · exact (execSafWaitExpire_tracked ht i).trans (congrArg _ ((State.safWait_of_entry he).trans (if_pos ⟨hop, hst, by simp [hw], hl⟩)))
  · refine (execSafWaitExpire_tracked ht i).trans (congrArg _ ((State.safWait_of_entry he).trans (if_neg fun hx => ?_)))
    obtain ⟨-, -, hnw, hl⟩ := hx
    exact h.elim hnw (Nat.not_lt.mpr hl)
  · exact ⟨_, congrArg Host.Outcome.next (State.spineWait_due hr hw hl), State.spineWaited_spec hr⟩

end Sys2Proof.Machine

namespace Sys2Proof.Machine
variable {s t : State}

/-! ### What sending changes: the interfaces, their counters and bandwidth windows, and registers -/

/-- A state with those fields as they stand in another. -/
def State.netReset (s t : State) : State := { t with ni := s.ni, regs := s.regs, cyc := s.cyc, ctr := s.ctr, bw := s.bw }

def State.NetOnly (s t : State) : Prop := s.netReset t = s

theorem State.NetOnly.refl : s.NetOnly s := Eq.refl s

section
variable (h : s.NetOnly t)
include h

theorem State.NetOnly.updNi (f : Nat) (g : Ni → Ni) : s.NetOnly (t.updNi f g) := h
theorem State.NetOnly.bump (r : Reg) (b i n : Nat) : s.NetOnly (t.bump r b i n) := h
theorem State.NetOnly.withBw (bw : SMap BwSt) : s.NetOnly { t with bw := bw } := h

theorem State.NetOnly.count (b i n : Nat) : s.NetOnly (t.count b i n) :=
  (congrArg s.netReset (t.count_rest b i n)).trans h

theorem State.NetOnly.ite {c : Prop} [Decidable c] {u : State} (hu : s.NetOnly u) : s.NetOnly (if c then t else u) :=
  iteInduction (fun _ => h) fun _ => hu

theorem State.NetOnly.countFloor (f : Nat) (p : Pkt) : s.NetOnly (t.countFloor f p) := h.ite (h.withBw _)

theorem State.NetOnly.pushNow (f : Nat) (p : Pkt) : s.NetOnly (t.pushNow f p) :=
  have hc := ((h.countFloor f p).count f (4 * netCode p.net) 1).count f (4 * netCode p.net + 1) (p.len.toNat + 1)
  (hc.updNi _ _).ite (hc.updNi _ _)

theorem State.NetOnly.push (f : Nat) (p : Pkt) : s.NetOnly (t.push f p) := (h.updNi _ _).ite (h.pushNow f p)

theorem State.NetOnly.inject (f : Nat) (p : Pkt) : s.NetOnly (t.inject f p) := h.push ..

theorem State.NetOnly.holdPkt (f : Nat) (p : Pkt) : s.NetOnly (t.holdPkt f p) := ((h.updNi _ _).count _ _ _).inject ..

theorem State.NetOnly.ownComp (f : Nat) (p : Pkt) (st : Nat) : s.NetOnly (t.ownComp f p st) := h.updNi ..

theorem State.NetOnly.sendTc (f : Nat) (p : Pkt) : s.NetOnly (t.sendTc f p) :=
  ((h.holdPkt _ _).ite ((((h.bump _ _ _ _).ite h).count _ _ _).ownComp _ _ _)).ite (h.inject _ _)

theorem State.NetOnly.send (f : Nat) (p : Pkt) : s.NetOnly (t.send f p) := h.sendTc ..

end

/-! ### Registers that sending leaves alone -/

/-- The registers below the counter banks are the same, but for the count of packets that found no room to wait. -/
def State.LowRegs (s t : State) : Prop :=
  ∀ (r : Reg) (b i : Nat), r.off b i < 0x1000000 → r.off b i ≠ Reg.off .PWR_HOLD_OVF 0 0 → t.reg r b i = s.reg r b i

theorem State.LowRegs.refl : s.LowRegs s := fun _ _ _ _ _ => rfl

section
variable (h : s.LowRegs t)
include h

theorem State.LowRegs.updNi (f : Nat) (g : Ni → Ni) : s.LowRegs (t.updNi f g) :=
  fun r b i hl hne => (State.reg_congr rfl rfl ..).trans (h r b i hl hne)

theorem State.LowRegs.withBw (bw : SMap BwSt) : s.LowRegs { t with bw := bw } :=
  fun r b i hl hne => (State.reg_congr rfl rfl ..).trans (h r b i hl hne)

theorem State.LowRegs.count (b i n : Nat) : s.LowRegs (t.count b i n) :=
  fun r b' i' hl hne => (State.reg_count_low _ _ _ hl).trans (h r b' i' hl hne)

theorem State.LowRegs.ite {c : Prop} [Decidable c] {u : State} (hu : s.LowRegs u) : s.LowRegs (if c then t else u) :=
  iteInduction (fun _ => h) fun _ => hu

theorem State.LowRegs.pushNow (f : Nat) (p : Pkt) : s.LowRegs (t.pushNow f p) :=
  have hc := ((State.LowRegs.ite h (h.withBw _)).count f (4 * netCode p.net) 1).count f (4 * netCode p.net + 1) (p.len.toNat + 1)
  (hc.updNi _ _).ite (hc.updNi _ _)

theorem State.LowRegs.inject (f : Nat) (p : Pkt) : s.LowRegs (t.inject f p) := (h.updNi _ _).ite (h.pushNow f _)

theorem State.LowRegs.sendTc (f : Nat) (p : Pkt) : s.LowRegs (t.sendTc f p) :=
  have hovf : s.LowRegs (t.bump .PWR_HOLD_OVF) := fun r b i hl hne => (State.reg_bump_other _ _ _ _ _ _ _ _ hne).trans (h r b i hl hne)
  ((((h.updNi _ _).count _ _ _).inject _ _).ite (((hovf.ite h).count _ _ _).updNi _ _)).ite (h.inject _ _)

theorem State.LowRegs.send (f : Nat) (p : Pkt) : s.LowRegs (t.send f p) := h.sendTc f _

end

end Sys2Proof.Machine

namespace Sys2Proof.Machine
variable {s t : State}

/-! ### Arbitration, table and directory words of a home -/

theorem State.arbitrate_fc (site : ArbSite) (n : Nat) (rs : List ArbReq) : (s.arbitrate site n rs).2.fc = s.fc := by
  unfold State.arbitrate
  dsimp only
  split
  · rfl
  · split
    · rfl
    · exact iteInduction (motive := fun t : State => t.fc = s.fc) (fun _ => iteInduction (motive := fun t : State => t.fc = s.fc) (fun _ => rfl) fun _ => rfl)
        fun _ => iteInduction (motive := fun t : State => t.fc = s.fc) (fun _ => rfl) fun _ => rfl

theorem State.homeWins_fc {k : Fin 64} {lane : Nat} {s1 : State} (h : s.homeWins k lane = some s1) : s1.fc = s.fc := by
  have hfc := s.arbitrate_fc (.home k) 5 (s.homeReqs k)
  unfold State.homeWins at h
  split at h
  next r s' hr =>
    rw [hr] at hfc
    split at h
    · obtain rfl := Option.some.inj h
      exact iteInduction (motive := fun t : State => t.fc = s.fc) (fun _ => hfc) fun _ => hfc
    · cases h
  next => cases h

theorem State.tableCheck_uncorrectable (u : UnitRef) (hu : u.node = false) (h : s.fc.inject = none) :
    s.tableCheck u .uncorrectable = (.uncorrectable, s.raiseNi u.id 2 2) := by
  unfold State.tableCheck
  dsimp only
  rw [State.checkWord_of_no_inject h]
  dsimp only
  rw [hu]
  rfl

theorem State.dirWord_of_no_inject (h : s.fc.inject = none) (k set : Nat) (err : WordErrs) (i : Nat) : s.dirWord k set err i =
    match errAt err i with
    | .clean => (true, s)
    | .corrected => (true, s.bump .HS_DIR_CORR (hsBase k))
    | .uncorrectable => (false, s.dirBad k set (i / 2) false) := by
  unfold State.dirWord
  rw [State.checkWord_of_no_inject h]
  cases errAt err i <;> rfl

/-- A step of the read of a set: the word is checked where its way holds an entry. -/
def State.dirStep (s : State) (k set : Nat) (err : WordErrs) (a : Bool × State) (i : Nat) : Bool × State :=
  if a.1 && (s.dirWay k set (i / 2)).isSome then a.2.dirWord k set err i else a

theorem State.foldl_dirStep_clean (h : t.fc.inject = none) {k set : Nat} {err : WordErrs} {is : List Nat} (hc : ∀ i ∈ is, errAt err i = .clean) :
    is.foldl (s.dirStep k set err) (true, t) = (true, t) :=
  List.foldlRecOn (motive := fun a => a = (true, t)) is _ rfl fun a ha i hi => by
    subst ha
    rw [State.dirStep, State.dirWord_of_no_inject h, hc i hi]
    exact ite_self _

theorem State.foldl_dirStep_stopped {k set : Nat} {err : WordErrs} (is : List Nat) : is.foldl (t.dirStep k set err) (false, s) = (false, s) :=
  List.foldlRecOn (motive := fun a => a = (false, s)) is _ rfl fun a ha i _ => by rw [ha]; rfl

theorem State.dirRead_eq (s : State) (k set : Nat) (err : WordErrs) :
    s.dirRead k set err = (List.range 24).foldl (s.dirStep k set err) (true, s) := rfl

theorem State.dirRead_clean (h : s.fc.inject = none) (k set : Nat) : s.dirRead k set [] = (true, s) := by
  rw [State.dirRead_eq]
  exact State.foldl_dirStep_clean h fun _ _ => rfl

/-- The read of a set one of whose words is in error. -/
theorem State.dirRead_one (h : s.fc.inject = none) {k set i : Nat} (hi : i < 24) (hd : (s.dirWay k set (i / 2)).isSome = true) (e : WordErr) :
    s.dirRead k set [(i, e)] = match e with
      | .clean => (true, s)
      | .corrected => (true, s.bump .HS_DIR_CORR (hsBase k))
      | .uncorrectable => (false, s.dirBad k set (i / 2) false) := by
  obtain ⟨as, bs, hl⟩ := List.append_of_mem (List.mem_range.mpr hi)
  have hnd := List.nodup_append.mp (hl ▸ List.nodup_range (n := 24))
  have hbefore (j : Nat) (hj : j ∈ as) : errAt [(i, e)] j = .clean := by
    have hne : i ≠ j := fun he => hnd.2.2 j hj i List.mem_cons_self he.symm
    simp [errAt, hne]
  have hafter (j : Nat) (hj : j ∈ bs) : errAt [(i, e)] j = .clean := by
    have hne : i ≠ j := fun he => (List.nodup_cons.mp hnd.2.1).1 (he ▸ hj)
    simp [errAt, hne]
  have hword : s.dirStep k set [(i, e)] (true, s) i = s.dirWord k set [(i, e)] i := if_pos (by simp [hd])
  have hat : errAt [(i, e)] i = e := by simp [errAt]
  rw [State.dirRead_eq, hl, List.foldl_append, State.foldl_dirStep_clean h hbefore, List.foldl_cons, hword, State.dirWord_of_no_inject h, hat]
  cases e with
  | clean => exact State.foldl_dirStep_clean h hafter
  | corrected =>
    have hbump : (s.bump .HS_DIR_CORR (hsBase k)).fc.inject = none := h
    exact State.foldl_dirStep_clean hbump hafter
  | uncorrectable => exact State.foldl_dirStep_stopped bs

theorem State.dirRead_bad (h : s.fc.inject = none) {k set w : Nat} (hw : w < 12) (hd : (s.dirWay k set w).isSome = true) :
    s.dirRead k set [(2 * w, .uncorrectable)] = (false, s.dirBad k set w false) := by
  have hhalf : 2 * w / 2 = w := by omega
  have hone := State.dirRead_one h (by omega : 2 * w < 24) (set := set) (k := k) (by rwa [hhalf]) .uncorrectable
  rwa [hhalf] at hone

/-! ### Requests -/

section
variable {k : Fin 64} {lane : BitVec 2} {q : Pkt} (hq : s.laneHead k (laneIdx lane) = some q) (ho : q.opc ≠ 0x1C)
include hq ho

theorem execHomeRequestDecide_fenced (hf : s.homeFenced k = true) (e : WordErrs) (st : WordErr) :
    execHomeRequestDecide k lane e st s = .next ((s.dropBoxed k q).fencedAnswer k q) := by
  unfold execHomeRequestDecide
  dsimp only
  rw [hq]
  exact (if_neg ho).trans (if_pos hf)

theorem execHomeRequestDecide_won (hf : s.homeFenced k = false) (hw : s.waiterOn k (laneIdx lane) = false) {s1 : State}
    (h1 : s.homeWins k (laneIdx lane) = some s1) (e : WordErrs) (st : WordErr) : execHomeRequestDecide k lane e st s =
      match s1.tableCheck (fidUnit (homeFid k)) st with
      | (.uncorrectable, s) => .next (s.fenceHome k)
      | (_, s) => .next (s.decideReq k q e) := by
  unfold execHomeRequestDecide
  dsimp only
  rw [hq]
  dsimp only
  rw [if_neg ho, if_neg (ne_true_of_eq_false hf), if_neg (ne_true_of_eq_false hw), h1] <;> rfl

end

theorem execHomeRequestDecide_empty {k : Fin 64} {lane : BitVec 2} (h : s.laneHead k (laneIdx lane) = none) (e : WordErrs) (st : WordErr) :
    execHomeRequestDecide k lane e st s = .next s := by
  unfold execHomeRequestDecide
  dsimp only
  rw [h]

/-- A request or writeback with the data that came with it. -/
def State.homeItem (s : State) (k : Nat) (q : Pkt) : Pkt × List Byte × Bool :=
  let d := if q.needsData then dataOf (s.hbox k) q else none
  (q, (d.map (·.data)).getD [], (d.map (·.psn)).getD false)

/-- The home's inbox without a request and its data. -/
def State.unboxed (s : State) (k : Nat) (q : Pkt) : State := s.setHbox k (boxWithout (s.hbox k) q)

section
variable {k : Nat} {q : Pkt}

theorem State.decideReq_refused (h : homeServes q = false ∨ badAop q = true) (e : WordErrs) : s.decideReq k q e =
    ((s.unboxed k q).homeProto k 1 ((s.unboxed k q).homeCode k q.lineOf) q (fidUnit (homeFid k))).homeComp k q 9 := if_pos (by simpa using h)

theorem State.decideReq_served (hs : homeServes q = true) (hb : badAop q = false) (e : WordErrs) : s.decideReq k q e =
    match s.waitersOf k q.lineOf with
    | some _ => (s.unboxed k q).joinWait k (s.homeItem k q)
    | none =>
      match s.dirRead k (dirSet q.lineOf) e with
      | (false, s) => s
      | (true, t) => (t.setHbox k (boxWithout (s.hbox k) q)).newFlow k q (s.homeItem k q).2.1 (s.homeItem k q).2.2 :=
  if_neg (by simp [hs, hb])

variable (hs : homeServes q = true) (hb : badAop q = false)
include hs hb

theorem State.decideReq_waits {n : Nat} (hw : s.waitersOf k q.lineOf = some n) (e : WordErrs) :
    s.decideReq k q e = (s.unboxed k q).joinWait k (s.homeItem k q) := by
  rw [State.decideReq_served hs hb, hw]

theorem State.decideReq_new (hw : s.waitersOf k q.lineOf = none) (hi : s.fc.inject = none) :
    s.decideReq k q [] = (s.unboxed k q).newFlow k q (s.homeItem k q).2.1 (s.homeItem k q).2.2 := by
  rw [State.decideReq_served hs hb, hw, State.dirRead_clean hi]
  rfl

theorem State.decideReq_bad (hw : s.waitersOf k q.lineOf = none) (hi : s.fc.inject = none) {w : Nat} (hlt : w < 12)
    (hd : (s.dirWay k (dirSet q.lineOf) w).isSome = true) :
    s.decideReq k q [(2 * w, .uncorrectable)] = s.dirBad k (dirSet q.lineOf) w false := by
  rw [State.decideReq_served hs hb, hw, State.dirRead_bad hi hlt hd]

end

/-! ### Writebacks -/

section
variable {k : Fin 64}

section
variable {q : Pkt} (hj : s.nextJudge k = none) (hp : s.putHead k = some q)
include hj hp

theorem execHomeWritebackDecide_fenced (hf : s.homeFenced k = true) (e : WordErrs) :
    execHomeWritebackDecide k e s = .next ((s.dropBoxed k q).fencedAnswer k q) := by
  unfold execHomeWritebackDecide
  rw [hj]
  dsimp only
  rw [hp]
  exact if_pos hf

theorem execHomeWritebackDecide_won (hf : s.homeFenced k = false) {s1 : State} (h1 : s.homeWins k 1 = some s1) (e : WordErrs) :
    execHomeWritebackDecide k e s = .next (s1.decidePut k q e) := by
  unfold execHomeWritebackDecide
  rw [hj]
  dsimp only
  rw [hp]
  dsimp only
  rw [if_neg (ne_true_of_eq_false hf), h1]

end

theorem execHomeWritebackDecide_held {j : Judge} {q : Pkt × List Byte × Bool} {qs : List (Pkt × List Byte × Bool)} (hj : s.nextJudge k = some j)
    (hp : j.puts = q :: qs) (hi : s.fc.inject = none) :
    execHomeWritebackDecide k [] s = .next ((s.dropJudge k j).judgePut k q.1 q.2.1 q.2.2 j.bkt) := by
  unfold execHomeWritebackDecide
  rw [hj]
  dsimp only
  rw [hp]
  dsimp only
  rw [State.dirRead_clean hi]

theorem execHomeWritebackDecide_none (hj : s.nextJudge k = none) (hp : s.putHead k = none) (e : WordErrs) : execHomeWritebackDecide k e s = .next s := by
  unfold execHomeWritebackDecide
  rw [hj]
  dsimp only
  rw [hp]

theorem execHomeWaiterEnter_won {line : Nat} {q : Pkt × List Byte × Bool} {ws : List (Pkt × List Byte × Bool)}
    (hw : s.waiterReady k = some (line, q, ws)) (hf : s.homeFenced k = false) {s1 : State} (h1 : s.homeWins k (laneIdx q.1.vc) = some s1)
    (hi : s.fc.inject = none) : execHomeWaiterEnter k [] s =
      .next ((s1.updHm k (fun m => { m with ready := m.ready.filter (fun r => r.1 != line) })).newFlow k q.1 q.2.1 q.2.2 ws) := by
  have hi1 : s1.fc.inject = none := (congrArg FcSt.inject (State.homeWins_fc h1)).trans hi
  unfold execHomeWaiterEnter
  rw [hw]
  dsimp only
  rw [if_neg (ne_true_of_eq_false hf), h1]
  dsimp only
  rw [State.dirRead_clean hi1]

theorem execHomeWaiterEnter_none (h : (s.hm k).ready = []) (e : WordErrs) : execHomeWaiterEnter k e s = .next s := by
  have hw : s.waiterReady k = none := by
    unfold State.waiterReady
    dsimp only
    rw [h]
    rfl
  unfold execHomeWaiterEnter
  rw [hw]

end

theorem State.putAck_stale_count {k : Nat} (hk : k < 64) (q : Pkt) :
    (s.putAck k q true).reg .HS_STALE_CNT (hsBase k) = min (s.reg .HS_STALE_CNT (hsBase k) + 1) 0xFFFFFFFF := by
  have hoff : Reg.off .HS_STALE_CNT (hsBase k) 0 = hsBase k + Reg.HS_STALE_CNT.spec.off := by unfold Reg.off; omega
  have hspec : Reg.HS_STALE_CNT.spec.off < 0x10000 := by decide
  have hovf : Reg.off .PWR_HOLD_OVF 0 0 < 0x800000 := by decide
  have hbase : hsBase k = 0x800000 + 0x10000 * k := rfl
  have hlow : Reg.off .HS_STALE_CNT (hsBase k) 0 < 0x1000000 := by omega
  have hsend := (State.LowRegs.refl (s := s)).send (homeFid k) { net := .rsp, dst := q.src, opc := 4, txid := q.txid, slice := q.slice }
    .HS_STALE_CNT (hsBase k) 0 hlow (by omega)
  unfold State.putAck
  dsimp only
  rw [if_pos rfl, State.countHome, State.reg_count_low _ _ _ hlow, State.reg_bump_same]
  exact congrArg (fun v => min (v + 1) 0xFFFFFFFF) hsend

section
variable {k : Nat} {q : Pkt}

theorem State.decidePut_held {h : Nat} {x : TrkEnt} (ht : s.trkOf k q.lineOf = some (h, x)) (e : WordErrs) :
    s.decidePut k q e = (s.unboxed k q).setTrk k h (some { x with held := x.held ++ [s.homeItem k q] }) := by
  unfold State.decidePut
  dsimp only
  rw [ht]
  rfl

theorem State.decidePut_judged (ht : s.trkOf k q.lineOf = none) (hj : (s.hm k).judge = []) (hi : s.fc.inject = none) :
    s.decidePut k q [] = (s.unboxed k q).judgePut k q (s.homeItem k q).2.1 (s.homeItem k q).2.2 true := by
  unfold State.decidePut
  dsimp only
  rw [ht, hj, State.dirRead_clean hi]
  rfl

variable {data : List Byte} {poison unknown : Bool} {w i : Nat} {d : DirEnt} (hf : s.dirFind k q.lineOf = some (w, d)) (hc : cacheIdx q.src.toNat = some i)
include hf hc

theorem State.judgePut_found : s.judgePut k q data poison unknown =
    if 2 ≤ d.st ∧ d.owner = i then ((s.plruTouch k (dirSet q.lineOf) w).setDir k (dirSet q.lineOf) w
      (if (d.sharers.filter (· != i)).isEmpty then none else some { d with st := 1, owner := 0 })).acceptPut k q data poison
    else (s.plruTouch k (dirSet q.lineOf) w).putAck k q true := by
  have hf : s.dirFind k (q.addr.toNat / 64) = some (w, d) := hf
  unfold State.judgePut
  dsimp only
  rw [hf]
  dsimp only
  rw [hc]
  by_cases ho : d.owner = i
  · subst ho
    simp only [and_true]
    rfl
  · rw [if_neg (fun h => ho (Option.some.inj h.2).symm), if_neg (fun h => ho h.2)]
    rfl

theorem State.judgePut_stale (hk : k < 64) (hs : d.st < 2 ∨ d.owner ≠ i) :
    (s.judgePut k q data poison unknown).reg .HS_STALE_CNT (hsBase k) = min (s.reg .HS_STALE_CNT (hsBase k) + 1) 0xFFFFFFFF := by
  rw [State.judgePut_found hf hc, if_neg (by omega), State.putAck_stale_count hk]
  exact congrArg (fun v => min (v + 1) 0xFFFFFFFF) (State.reg_congr rfl rfl ..)

end

/-! ### Flows -/

theorem State.hm_updHm (k : Nat) (g : Home → Home) : (s.updHm k g).hm k = g (s.hm k) := (SMap.get_set ..).trans (if_pos rfl)

theorem State.trk_setTrk (k h : Nat) (e : Option TrkEnt) : (s.setTrk k h e).trk k h = e := by
  rw [State.trk, State.setTrk, State.hm_updHm]
  exact (SMap.get_set ..).trans (if_pos rfl)

theorem State.trk_of_home (h : t.home = s.home) (k i : Nat) : t.trk k i = s.trk k i :=
  congrArg (fun m : SMap Home => SMap.get none (SMap.get ({} : Home) m k).trk i) h

theorem State.newest_setTrk (k h line : Nat) (e : Option TrkEnt) : ((s.setTrk k h e).hm k).newest line = (s.hm k).newest line := by
  rw [State.setTrk, State.hm_updHm]
  rfl

section
variable {k h : Nat} {e : TrkEnt} (ht : s.trk k h = some e)
include ht

/-- A flow that goes to the memory state with its entry as it is. -/
theorem State.gathered_due (ho : e.owed = []) (hd : e.memDue = true) : s.gathered k h = s.setTrk k h (some { e with st := .mem }) := by
  unfold State.gathered
  rw [ht]
  dsimp only
  rw [if_neg (by simp [ho]), if_pos hd]

theorem State.needLine_uncached (hn : (s.hm k).newest e.line = none) : s.needLine k h =
    if (s.hm k).lineBufs < 16 then s.readLineMem k h e else s.setTrk k h (some { e with wantRd := true }) := by
  unfold State.needLine
  rw [ht]
  dsimp only
  rw [hn]

theorem State.takeWay_eq (way i : Nat) : s.takeWay k h way i = ((s.setDir k (dirSet e.line) way (some { tag := dirTag e.line, st := 2, owner := i })).plruTouch k
    (dirSet e.line) way).setTrk k h (some { e with way := some way }) := by
  unfold State.takeWay
  rw [ht]

theorem State.trk_takeWay (way i : Nat) : (s.takeWay k h way i).trk k h = some { e with way := some way } := by
  rw [State.takeWay_eq ht, State.trk_setTrk]

theorem State.dirWay_takeWay (way i : Nat) :
    (s.takeWay k h way i).dirWay k (dirSet e.line) way = some { tag := dirTag e.line, st := 2, owner := i } := by
  rw [State.takeWay_eq ht]
  show SMap.get none (SMap.set none s.dir _ (some _)) _ = _
  rw [SMap.get_set, if_pos rfl]

theorem State.newest_takeWay (way i : Nat) (line : Nat) : ((s.takeWay k h way i).hm k).newest line = (s.hm k).newest line := by
  rw [State.takeWay_eq ht, State.newest_setTrk]
  rfl

theorem State.serveI_shared (ho : e.req.opc = 1) {i : Nat} (hc : cacheIdx e.req.src.toNat = some i) (way : Nat) :
    s.serveI k h way = ((s.takeWay k h way i).needLine k h).gathered k h := by
  unfold State.serveI
  rw [ht]
  dsimp only
  rw [if_pos ho, hc]
  rfl

end

/-- The memory read of a flow leaves the directory and every entry but its own. -/
theorem State.readLineMem_spec (k h : Nat) (e : TrkEnt) : (s.readLineMem k h e).trk k h = some { e with memRd := true, wantRd := false } ∧
    (s.readLineMem k h e).dir = s.dir := by
  have hnet (t : State) (p : Pkt) : t.NetOnly ((t.send (homeFid k) p).countHome k 6) := (State.NetOnly.refl.send ..).count ..
  have hhome (t : State) (p : Pkt) : ((t.send (homeFid k) p).countHome k 6).home = t.home := (congrArg State.home (hnet t p) :)
  have hdir (t : State) (p : Pkt) : ((t.send (homeFid k) p).countHome k 6).dir = t.dir := (congrArg State.dir (hnet t p) :)
  unfold State.readLineMem
  dsimp only
  refine ⟨(State.trk_of_home (hhome _ _) k h).trans (State.trk_setTrk ..), ?_⟩
  rw [hdir]
  rfl

theorem State.needLine_gathered {k h : Nat} {e : TrkEnt} (ht : s.trk k h = some e) (hn : (s.hm k).newest e.line = none) (ho : e.owed = [])
    (hb : e.buf = none) : ((s.needLine k h).gathered k h).dir = s.dir ∧ ∃ e', ((s.needLine k h).gathered k h).trk k h = some e' ∧ e'.st = .mem ∧
      ((s.hm k).lineBufs < 16 → e'.memRd = true ∧ e'.wantRd = false) ∧ (16 ≤ (s.hm k).lineBufs → e'.wantRd = true) ∧ e'.line = e.line ∧
      e'.req = e.req := by
  rw [State.needLine_uncached ht hn]
  by_cases hl : (s.hm k).lineBufs < 16
  · obtain ⟨htrk, hdir⟩ := s.readLineMem_spec k h e
    rw [if_pos hl, State.gathered_due htrk ho (by simp [TrkEnt.memDue, hb])]
    exact ⟨hdir, _, State.trk_setTrk .., rfl, fun _ => ⟨rfl, rfl⟩, fun hx => absurd hl (Nat.not_lt.mpr hx), rfl, rfl⟩
  · have htrk := s.trk_setTrk k h (some { e with wantRd := true })
    rw [if_neg hl, State.gathered_due htrk ho (by simp [TrkEnt.memDue, hb])]
    exact ⟨rfl, _, State.trk_setTrk .., rfl, fun hx => absurd hx hl, fun _ => rfl, rfl, rfl⟩

/-- A shared read of a line that no cache holds: the requester becomes the owner, and memory is read or waits for a buffer. -/
theorem State.serveI_reads {k h way i : Nat} {e : TrkEnt} (ht : s.trk k h = some e) (hop : e.req.opc = 1) (hc : cacheIdx e.req.src.toNat = some i)
    (hn : (s.hm k).newest e.line = none) (ho : e.owed = []) (hb : e.buf = none) :
    (s.serveI k h way).dirWay k (dirSet e.line) way = some { tag := dirTag e.line, st := 2, owner := i } ∧
    ∃ e', (s.serveI k h way).trk k h = some e' ∧ e'.st = .mem ∧ (((s.takeWay k h way i).hm k).lineBufs < 16 → e'.memRd = true ∧ e'.wantRd = false) ∧
      (16 ≤ ((s.takeWay k h way i).hm k).lineBufs → e'.wantRd = true) ∧ e'.line = e.line ∧ e'.req = e.req := by
  obtain ⟨hdir, hent⟩ := State.needLine_gathered (State.trk_takeWay ht way i) ((State.newest_takeWay ht way i _).trans hn) ho hb
  rw [State.serveI_shared ht hop hc]
  exact ⟨(congrArg (fun m => SMap.get none m (dirKey k (dirSet e.line) way)) hdir).trans (State.dirWay_takeWay ht way i), hent⟩

theorem State.complete_shared {k h : Nat} {e : TrkEnt} {d : List Byte} {p : Bool} (ht : s.trk k h = some e) (hop : e.req.opc = 1)
    (hb : e.buf = some (d, p)) : s.complete k h = (s.send (homeFid k) (dataFor e.req (if e.prior.isNone then 2 else 1) d p)).setTrk k h
      (some { e with st := .ack, granted := true, memRd := false, buf := none }) := by
  unfold State.complete
  rw [ht]
  dsimp only
  rw [if_pos hop, hb]
  rfl

theorem State.homeOnly_updHm (h : { t with home := s.home } = s) (k : Nat) (g : Home → Home) : { t.updHm k g with home := s.home } = s := h

theorem State.endFlow_eq {k h : Nat} {e : TrkEnt} (ht : s.trk k h = some e) : s.endFlow k h = (s.setTrk k h none).updHm k (fun m => { m with
    judge := if e.held.isEmpty then m.judge else m.judge ++ [⟨e.line, e.st == .bkt, e.held⟩]
    ready := if e.waiters.isEmpty then m.ready else m.ready ++ [(e.line, e.waiters)]
    before := m.before.erase (e.req.src, e.req.txid) }) := by
  unfold State.endFlow
  rw [ht]

theorem State.endFlow_spec {k h : Nat} {e : TrkEnt} (ht : s.trk k h = some e) :
    (s.endFlow k h).trk k h = none ∧ { s.endFlow k h with home := s.home } = s := by
  rw [State.endFlow_eq ht]
  refine ⟨?_, State.homeOnly_updHm (State.homeOnly_updHm (t := s) rfl _ _) _ _⟩
  rw [State.trk, State.hm_updHm]
  exact State.trk_setTrk ..

/-- Settles O34. -/
theorem homesDecideRequestsAndWritebacks : Obligations.HomesDecideRequestsAndWritebacks := by
  refine ⟨⟨fun s s1 k lane q e hq ho => ⟨fun hf => execHomeRequestDecide_fenced hq ho hf e _, fun hf hi hw h1 => ?_⟩,
      fun s k lane e st h => execHomeRequestDecide_empty h e st,
      fun s k q e => ⟨fun h => State.decideReq_refused h e, fun hs hb => ⟨fun n hw => State.decideReq_waits hs hb hw e, fun hw hi =>
        ⟨State.decideReq_new hs hb hw hi, fun w hlt hd => State.decideReq_bad hs hb hw hi hlt hd⟩⟩⟩,
      fun s s1 k q e hj hp => ⟨fun hf => execHomeWritebackDecide_fenced hj hp hf e, fun hf h1 => execHomeWritebackDecide_won hj hp hf h1 e⟩,
      fun s k j q qs hj hp hi => execHomeWritebackDecide_held hj hp hi, fun s k e hj hp => execHomeWritebackDecide_none hj hp e,
      fun s k q => ⟨fun h x e ht => State.decidePut_held ht e, fun ht hj hi => State.decidePut_judged ht hj hi⟩,
      fun s k q data poison unknown w i d hk hf hc => ⟨fun ho => (State.judgePut_found hf hc).trans (if_pos ho), State.judgePut_stale hf hc hk⟩,
      fun s s1 k line q ws hw hf h1 hi => execHomeWaiterEnter_won hw hf h1 hi, fun s k e h => execHomeWaiterEnter_none h e⟩,
    fun s k h way i e _ _ ht hop hc hn ho hb => State.serveI_reads ht hop hc hn ho hb,
    fun s k h e d p ht hop hb => State.complete_shared ht hop hb, fun s k h e ht _ _ => State.endFlow_spec ht⟩
  have hi1 : s1.fc.inject = none := (congrArg FcSt.inject (State.homeWins_fc h1)).trans hi
  refine ⟨(execHomeRequestDecide_won hq ho hf hw h1 e .clean).trans ?_, (execHomeRequestDecide_won hq ho hf hw h1 e .uncorrectable).trans ?_⟩
  · rw [show s1.tableCheck (fidUnit (homeFid k)) .clean = (.clean, s1) from State.tableCheck_of_no_inject hi1 ..]
  · rw [State.tableCheck_uncorrectable _ rfl hi1]
    rfl

end Sys2Proof.Machine

namespace Sys2Proof.Machine
variable {s s1 : State} {k : Fin 64} {p : Pkt}

section
variable (hh : s.respHead k = some p) (ht : s.takeResp k p = some s1)
include hh ht

theorem execHomeCompack_taken (hn : p.net = .rsp) (ho : p.opc = 2) : execHomeCompack k s =
    match (s1.hm k).trk.find? (fun he => match he.2 with
      | some e => e.st == .ack && e.req.src == p.src && e.req.txid == p.txid && e.line == p.line.toNat
      | none => false) with
    | some (h, _) => .next (if s1.homeFenced k then s1 else s1.endFlow k h)
    | none => .next (s1.stray k p) := by
  unfold execHomeCompack
  rw [hh]
  dsimp only
  rw [if_neg (by simp [hn, ho]), ht] <;> rfl

theorem execHomeCompack_awaited (hn : p.net = .rsp) (ho : p.opc = 2) {h : Nat} {e : TrkEnt} (htrk : (s1.hm k).trk = [(h, some e)]) (hst : e.st = .ack)
    (hsrc : e.req.src = p.src) (htx : e.req.txid = p.txid) (hl : e.line = p.line.toNat) (hf : s1.homeFenced k = false) :
    execHomeCompack k s = .next (s1.endFlow k h) := by
  rw [execHomeCompack_taken hh ht hn ho, htrk, List.find?_cons_of_pos (by simp [hst, hsrc, htx, hl])]
  dsimp only
  rw [if_neg (ne_true_of_eq_false hf)]

theorem execHomeCompack_stray (hn : p.net = .rsp) (ho : p.opc = 2)
    (hno : ∀ h e, (h, some e) ∈ (s1.hm k).trk → ¬(e.st = .ack ∧ e.req.src = p.src ∧ e.req.txid = p.txid ∧ e.line = p.line.toNat)) :
    execHomeCompack k s = .next (s1.stray k p) := by
  rw [execHomeCompack_taken hh ht hn ho, List.find?_eq_none.mpr]
  rintro ⟨h, (_ | e)⟩ hm
  · exact Bool.false_ne_true
  · have := hno h e hm
    simp only [Bool.and_eq_true, beq_iff_eq]
    exact fun ⟨⟨⟨h1, h2⟩, h3⟩, h4⟩ => this ⟨h1, h2, h3, h4⟩

theorem execHomeInvack_bad (hn : p.net = .rsp) (ho : p.opc = 1) (hs : p.status = 9) : execHomeInvack k s = .next (s1.badInvack k p) := by
  unfold execHomeInvack
  rw [hh]
  dsimp only
  rw [if_neg (by simp [hn, ho]), ht]
  exact if_pos hs

theorem execHomeInvack_of_snoop (hn : p.net = .rsp) (ho : p.opc = 1) (hs : p.status ≠ 9) (htx : p.txid.toNat < 0xF00) : execHomeInvack k s =
    match s1.snoopOwed k p with
    | some h => .next (s1.snoopAnswer k h p.src.toNat none (p.status == 8))
    | none => .next (s1.stray k p) := by
  have hfld : fld p.txid.toNat 8 4 ≠ 15 := by
    unfold fld
    omega
  unfold execHomeInvack
  rw [hh]
  dsimp only
  rw [if_neg (by simp [hn, ho]), ht]
  exact (if_neg hs).trans (if_neg hfld)

theorem execHomeSnoopData_taken (hn : p.net = .dat) (ho : 0x10 ≤ p.opc.toNat) : execHomeSnoopData k s =
    match s1.snoopOwed k p with
    | some h => .next (s1.snoopAnswer k h p.src.toNat (some (p.data, p.psn)) false)
    | none => .next (s1.stray k p) := by
  unfold execHomeSnoopData
  rw [hh]
  dsimp only
  rw [if_neg (by simp [hn]; omega), ht] <;> rfl

section
variable (hn : p.net = .dat) (ho : p.opc = 8) (htx : p.txid.toNat < 256)
include hn ho htx

theorem execHomeMemData_due {e : TrkEnt} (he : s1.trk k p.txid.toNat = some e) (hr : e.memRd = true) (hb : e.buf = none) (hst : e.st = .mem) :
    execHomeMemData k s =
      .next ((s1.setTrk k p.txid.toNat (some { e with buf := some (p.data, p.psn) })).complete k p.txid.toNat) := by
  unfold execHomeMemData
  rw [hh]
  dsimp only
  rw [if_neg (by simp [hn, ho]), ht]
  dsimp only
  rw [if_pos htx, he]
  dsimp only
  rw [if_pos ⟨hr, by rw [hb]; rfl⟩, if_pos (by simp [hn, ho]), if_pos hst]

theorem execHomeMemData_no_flow (he : s1.trk k p.txid.toNat = none) : execHomeMemData k s =
    if (s1.hm k).lateMem.contains p.txid.toNat then
      .next ((s1.bump .HS_STRAY_CNT (hsBase k)).updHm k (fun m => { m with lateMem := m.lateMem.erase p.txid.toNat }))
    else .next (s1.memUnexpected k p) := by
  unfold execHomeMemData
  rw [hh]
  dsimp only
  rw [if_neg (by simp [hn, ho]), ht]
  dsimp only
  rw [if_pos htx, he]

end

section
variable (hn : p.net = .rsp) (ho : p.opc = 0x10) (htx : 256 ≤ p.txid.toNat)
include hn ho htx

theorem execHomeMemComp_written {w : Wbuf} {q : Pkt} (hw : SMap.get none (s1.hm k).wbufs (p.txid.toNat - 256) = some w) (hs : w.sent = true)
    (hp : w.put = some q) (hf : w.flow = none) (hst : p.status = 0) : execHomeMemComp k s =
      .next (((s1.freeWb k (p.txid.toNat - 256)).putAck k q false).issueWr k w.line) := by
  unfold execHomeMemComp
  rw [hh]
  dsimp only
  rw [if_neg (by simp [hn, ho]; omega), ht]
  dsimp only
  rw [hw]
  dsimp only
  rw [if_neg (not_not_intro hs), hp, hf]
  dsimp only
  rw [if_pos hst]

theorem execHomeMemComp_unexpected (hw : SMap.get none (s1.hm k).wbufs (p.txid.toNat - 256) = none) :
    execHomeMemComp k s = .next (s1.memUnexpected k p) := by
  unfold execHomeMemComp
  rw [hh]
  dsimp only
  rw [if_neg (by simp [hn, ho]; omega), ht]
  dsimp only
  rw [hw]

end

end

theorem home_answers_none (hh : s.respHead k = none) : execHomeCompack k s = .next s ∧ execHomeInvack k s = .next s ∧
    execHomeSnoopData k s = .next s ∧ execHomeMemData k s = .next s ∧ execHomeMemComp k s = .next s := by
  refine ⟨?_, ?_, ?_, ?_, ?_⟩
  · unfold execHomeCompack; rw [hh]
  · unfold execHomeInvack; rw [hh]
  · unfold execHomeSnoopData; rw [hh]
  · unfold execHomeMemData; rw [hh]
  · unfold execHomeMemComp; rw [hh]

/-- Settles O35. -/
theorem homesTakeAnswers : Obligations.HomesTakeAnswers := by
  refine ⟨fun s s1 k p hh ht => ⟨fun hn ho => ⟨fun h e htrk hst hsrc htx hl hf => execHomeCompack_awaited hh ht hn ho htrk hst hsrc htx hl hf,
      execHomeCompack_stray hh ht hn ho⟩, execHomeInvack_bad hh ht,
    fun hn ho hs htx => ⟨fun h hq => (execHomeInvack_of_snoop hh ht hn ho hs htx).trans (by rw [hq]), fun hq =>
      (execHomeInvack_of_snoop hh ht hn ho hs htx).trans (by rw [hq])⟩,
    fun hn ho => ⟨fun h hq => (execHomeSnoopData_taken hh ht hn ho).trans (by rw [hq]), fun hq => (execHomeSnoopData_taken hh ht hn ho).trans (by rw [hq])⟩,
    fun hn ho htx => ⟨fun e he hr hb hst => execHomeMemData_due hh ht hn ho htx he hr hb hst, fun he hl =>
      (execHomeMemData_no_flow hh ht hn ho htx he).trans (if_neg (by simp [hl])), fun he hl =>
      (execHomeMemData_no_flow hh ht hn ho htx he).trans (if_pos (List.contains_iff_mem.mpr hl))⟩,
    fun hn ho htx => ⟨fun w q hw hs hp hf hst => execHomeMemComp_written hh ht hn ho htx hw hs hp hf hst, execHomeMemComp_unexpected hh ht hn ho htx⟩⟩,
    fun s k hh => home_answers_none hh⟩

end Sys2Proof.Machine

namespace Sys2Proof.Machine
variable {s t : State}

/-! ### Expiry and the scrubber -/

section
variable {k : Fin 64} {h : BitVec 8} {e : TrkEnt} (ht : s.trk k h.toNat = some e)
include ht

theorem execHomeTrackerExpire_entry : execHomeTrackerExpire k h s =
    if s.tick < e.start + usTicks (max 1 (s.rf .HS_TMO 0 16 (hsBase k))) ∨ s.homeFenced k then .next s
    else .next ((s.raiseNi (homeFid k) 9 1 h.toNat).expireFlow k h.toNat e) := by
  unfold execHomeTrackerExpire
  dsimp only
  rw [ht]

end

theorem State.expireFlow_ack {k h : Nat} {e : TrkEnt} (hs : e.st = .ack) : s.expireFlow k h e = s.endFlow k h := by
  unfold State.expireFlow
  rw [hs]

/-- The scrubber past the set at its pointer. -/
def State.scrubbed (s : State) (k : Fin 64) : State := s.setHm k { s.hm k with scrub := ((s.hm k).scrub + 1) % 8192, scrubAt := s.tick }

/-- What a word in the given condition does to a home whose scrubber reads it. -/
def State.scrubWord (s : State) (k set w : Nat) : WordErr → State
  | .clean => s
  | .corrected => s.bump .HS_DIR_CORR (hsBase k)
  | .uncorrectable => s.dirBad k set w false

section
variable {k : Fin 64} (hiv : s.rf .HS_SCRUB 0 16 (hsBase k) ≠ 0) (hf : s.homeFenced k = false)
  (ht : (s.hm k).scrubAt + s.rf .HS_SCRUB 0 16 (hsBase k) ≤ s.tick)
include hiv hf ht

theorem execDirScrub_due (err0 err1 : WordErrs) :
    execDirScrub k err0 err1 s = .next ((s.scrubbed k).dirRead k (s.hm k).scrub (dirErrs err0 err1)).2 := by
  unfold execDirScrub
  dsimp only
  rw [if_neg (by simp [hiv, hf]; omega)]
  rfl

theorem execDirScrub_clean (hi : s.fc.inject = none) : execDirScrub k [] [] s = .next (s.scrubbed k) := by
  have hi1 : (s.scrubbed k).fc.inject = none := hi
  rw [execDirScrub_due hiv hf ht, show dirErrs [] [] = [] from rfl, State.dirRead_clean hi1]

/-- A word of an occupied way that is in error: corrected it is counted, else the slice is fenced. -/
theorem execDirScrub_word (hi : s.fc.inject = none) {w i : Nat} {err0 err1 : WordErrs} {e : WordErr} (hw : i / 2 = w) (hlt : i < 24)
    (hd : (s.dirWay k (s.hm k).scrub w).isSome = true) (he : dirErrs err0 err1 = [(i, e)]) : execDirScrub k err0 err1 s =
      .next ((s.scrubbed k).scrubWord k (s.hm k).scrub w e) := by
  subst hw
  have hi1 : (s.scrubbed k).fc.inject = none := hi
  have hd1 : ((s.scrubbed k).dirWay k (s.hm k).scrub (i / 2)).isSome = true := hd
  rw [execDirScrub_due hiv hf ht, he, State.dirRead_one hi1 hlt hd1]
  cases e <;> rfl

end

/-! ### The predictor -/

section
variable {hi lo t : Nat} {e : PredEnt}

theorem PredEnt.windowEnd_quiet (h : e.recAt ≠ t + 1) : (e.windowEnd hi lo t).count = 0 ∧
    ((e.windowEnd hi lo t).hot = true ↔ max hi 1 ≤ e.count ∨ e.hot = true ∧ min lo (max hi 1) ≤ e.count) := by
  simp [PredEnt.windowEnd, h]

theorem PredEnt.windowEnd_recent (h : e.recAt = t + 1) : (e.windowEnd hi lo t).count = min e.recent 63 ∧
    ((e.windowEnd hi lo t).hot = true ↔ max hi 1 ≤ e.count - e.recent ∨ e.hot = true ∧ min lo (max hi 1) ≤ e.count - e.recent) := by
  simp [PredEnt.windowEnd, h]

end

theorem SMap.get_map {α : Type} {d : α} (g : Nat → α → α) (hg : ∀ k, g k d = d) (m : SMap α) (k : Nat) :
    SMap.get d (m.map (fun kv => (kv.1, g kv.1 kv.2))) k = g k (SMap.get d m k) := by
  induction m with
  | nil => exact (hg k).symm
  | cons kv m ih =>
    obtain ⟨k', v⟩ := kv
    by_cases hk : k' = k
    · subst hk
      simp [SMap.get]
    · simp only [List.map_cons, SMap.get, if_neg hk]
      exact ih

theorem predMine_own {k i : Nat} (hi : i < 2048) : predMine k (2048 * k + i) = true := by
  simp only [predMine, beq_iff_eq]
  omega

theorem predMine_other {k key : Nat} (h : key / 2048 ≠ k) : predMine k key = false := beq_false_of_ne h

/-- The predictor of one home with a window ended. -/
def State.windowEnded (s : State) (k : Fin 64) : SMap (Option PredEnt) :=
  s.pred.map (fun ke => (ke.1, if predMine k ke.1 then
    ke.2.map (PredEnt.windowEnd (s.rf .HS_PRED_CFG 10 6 (hsBase k)) (s.rf .HS_PRED_CFG 16 6 (hsBase k)) s.tick) else ke.2))

theorem State.get_windowEnded (k : Fin 64) (key : Nat) : SMap.get none (s.windowEnded k) key = if predMine k key then
    (SMap.get none s.pred key).map (PredEnt.windowEnd (s.rf .HS_PRED_CFG 10 6 (hsBase k)) (s.rf .HS_PRED_CFG 16 6 (hsBase k)) s.tick)
    else SMap.get none s.pred key :=
  SMap.get_map (fun key v => if predMine k key then
    v.map (PredEnt.windowEnd (s.rf .HS_PRED_CFG 10 6 (hsBase k)) (s.rf .HS_PRED_CFG 16 6 (hsBase k)) s.tick) else v)
    (fun _ => ite_self _) s.pred key

theorem execPredWindowEnd_due {k : Fin 64} (hn : s.ns % (1000 * (max 1 (s.hm k).predWin : Nat)) = 0) (hp : s.ns ≠ (s.hm k).predAt) :
    execPredWindowEnd k s = .next (({ s with pred := s.windowEnded k } : State).setHm k
      { s.hm k with predWin := s.rf .HS_PRED_CFG 0 10 (hsBase k), predAt := s.ns, winAt := s.tick + 1 }) := by
  unfold execPredWindowEnd
  dsimp only
  rw [if_neg (fun h => h.elim (· hn) hp)]
  rfl

theorem State.hm_setHm (k : Nat) (m : Home) : (s.setHm k m).hm k = m := (SMap.get_set ..).trans (if_pos rfl)

theorem State.predEmpty_due {k at_ : Nat} (h : (s.hm k).predClearAt = some at_) (ht : at_ ≤ s.tick) : s.predEmpty k =
    ({ s with pred := s.pred.filter (fun ke => !predMine k ke.1) } : State).updHm k (fun m => { m with predClearAt := none }) :=
  if_pos (by simp [h, ht])

theorem State.predEmpty_early {k at_ : Nat} (h : (s.hm k).predClearAt = some at_) (ht : s.tick < at_) : s.predEmpty k = s :=
  if_neg (by simp [h]; omega)

theorem State.get_predFiltered (k key : Nat) :
    SMap.get none (s.pred.filter (fun ke => !predMine k ke.1)) key = if predMine k key then none else SMap.get none s.pred key := by
  rw [SMap.get_filter_key none (fun key => !predMine k key)]
  cases predMine k key <;> rfl

/-- Settles O36. -/
theorem homeTimersScrubAndPredictor : Obligations.HomeTimersScrubAndPredictor := by
  refine ⟨fun s k h e ht => ⟨fun hl => (execHomeTrackerExpire_entry ht).trans (if_pos (.inl hl)), fun hl hf =>
      (execHomeTrackerExpire_entry ht).trans (if_neg (by simp [hf]; omega)), State.expireFlow_ack⟩,
    fun s k hiv hf ht hi => ⟨execDirScrub_clean hiv hf ht hi, fun w hw hd => ?_⟩,
    fun hi lo t e => ⟨rfl, rfl, PredEnt.windowEnd_quiet, PredEnt.windowEnd_recent⟩, fun s k hn hp => ?_, fun s k => ?_,
    fun s k at_ h => ⟨State.predEmpty_early h, fun ht => ?_⟩⟩
  · have hhalf : 2 * w / 2 = w := by omega
    have hhalf' : (2 * w + 1) / 2 = w := by omega
    exact ⟨execDirScrub_word (e := .corrected) hiv hf ht hi hhalf (by omega) hd rfl, execDirScrub_word (e := .corrected) hiv hf ht hi hhalf' (by omega) hd rfl,
      execDirScrub_word (e := .uncorrectable) hiv hf ht hi hhalf (by omega) hd rfl, execDirScrub_word (e := .uncorrectable) hiv hf ht hi hhalf' (by omega) hd rfl⟩
  · exact ⟨_, execPredWindowEnd_due hn hp, congrArg Home.predAt (State.hm_setHm ..), congrArg Home.winAt (State.hm_setHm ..),
      fun i hi => (State.get_windowEnded k _).trans (if_pos (predMine_own hi)),
      fun key hk => (State.get_windowEnded k key).trans (if_neg (by simp [predMine_other hk])), rfl⟩
  · exact ⟨s.predClear k, rfl, congrArg Home.predClearAt (State.hm_updHm ..), rfl⟩
  · exact ⟨_, (State.predEmpty_due h ht).symm, fun i hi => congrArg Option.isNone ((State.get_predFiltered k _).trans (if_pos (predMine_own hi))),
      fun key hk => (State.get_predFiltered k key).trans (if_neg (by simp [predMine_other hk])), congrArg Home.predClearAt (State.hm_updHm ..), rfl⟩

end Sys2Proof.Machine

namespace Sys2Proof.Machine
variable {s t : State}

/-! ### What the sweeps of a home change: its own state, and what sending a packet without data changes -/

/-- A state with those fields as they stand in another. -/
def State.sweepReset (s t : State) : State := { t with home := s.home, ni := s.ni, regs := s.regs, cyc := s.cyc, ctr := s.ctr }

def State.SweepOnly (s t : State) : Prop := s.sweepReset t = s

theorem State.SweepOnly.refl : s.SweepOnly s := Eq.refl s

theorem State.countFloor_of_not_dat (f : Nat) {p : Pkt} (hp : p.net ≠ .dat) : s.countFloor f p = s := if_pos (.inl (if_pos hp))

theorem State.ownSd_net (f : Nat) (p : Pkt) : (s.ownSd f p).net = p.net :=
  iteInduction (motive := fun x : Pkt => x.net = p.net) (fun _ => rfl) fun _ => rfl

section
variable (h : s.SweepOnly t)
include h

theorem State.SweepOnly.updNi (f : Nat) (g : Ni → Ni) : s.SweepOnly (t.updNi f g) := h
theorem State.SweepOnly.updHm (k : Nat) (g : Home → Home) : s.SweepOnly (t.updHm k g) := h
theorem State.SweepOnly.bump (r : Reg) (b i n : Nat) : s.SweepOnly (t.bump r b i n) := h

theorem State.SweepOnly.count (b i n : Nat) : s.SweepOnly (t.count b i n) := (congrArg s.sweepReset (t.count_rest b i n)).trans h

theorem State.SweepOnly.ite {c : Prop} [Decidable c] {u : State} (hu : s.SweepOnly u) : s.SweepOnly (if c then t else u) :=
  iteInduction (fun _ => h) fun _ => hu

theorem State.SweepOnly.pushNow (f : Nat) {p : Pkt} (hp : p.net ≠ .dat) : s.SweepOnly (t.pushNow f p) := by
  unfold State.pushNow
  dsimp only
  rw [State.countFloor_of_not_dat f hp]
  exact (((h.count _ _ _).count _ _ _).updNi _ _).ite (((h.count _ _ _).count _ _ _).updNi _ _)

theorem State.SweepOnly.inject (f : Nat) {p : Pkt} (hp : p.net ≠ .dat) : s.SweepOnly (t.inject f p) :=
  have hn : (t.stamp f (t.ownSd f p)).net ≠ .dat := fun e => hp ((t.ownSd_net f p).symm.trans e)
  (h.updNi _ _).ite (h.pushNow f hn)

theorem State.SweepOnly.send (f : Nat) {p : Pkt} (hp : p.net ≠ .dat) : s.SweepOnly (t.send f p) := by
  have hn : (t.ownSd f { p with tc := t.tcOf f (t.epOf f) p.net p.opc.toNat }).net ≠ .dat := by
    rw [State.ownSd_net]
    exact hp
  exact ((((h.updNi _ _).count _ _ _).inject f Net.noConfusion).ite ((((h.bump _ _ _ _).ite h).count _ _ _).updNi _ _)).ite (h.inject f hn)

theorem State.SweepOnly.sweepDone (k : Nat) : s.SweepOnly (t.sweepDone k) := h.updHm ..

theorem State.SweepOnly.sweepOne (k : Nat) : s.SweepOnly (t.sweepOne k) := by
  unfold State.sweepOne
  dsimp only
  split
  · exact (h.send _ Net.noConfusion).updHm ..
  · exact h

theorem State.SweepOnly.sweepNext (k : Nat) : s.SweepOnly (t.sweepNext k) :=
  ((((((((h.sweepDone k).sweepOne k).sweepDone k).sweepOne k).sweepDone k).sweepOne k).sweepDone k).sweepOne k).sweepDone k

end

/-! ### A bucket that a home has given up -/

/-- A bucket that a home neither rebuilds nor has still to sweep. -/
def State.Forgot (s : State) (k b : Nat) : Prop := b ∉ (s.hm k).recon ∧ b ∉ (s.hm k).toSweep

theorem State.Forgot.of_home {k b : Nat} (h : s.Forgot k b) (ht : t.home = s.home) : t.Forgot k b := by
  have hm : t.hm k = s.hm k := congrArg (fun m : SMap Home => SMap.get ({} : Home) m k) ht
  unfold State.Forgot
  rwa [hm]

theorem State.forgot_updHm {k b : Nat} {g : Home → Home} (hr : b ∉ (g (s.hm k)).recon) (hs : b ∉ (g (s.hm k)).toSweep) : (s.updHm k g).Forgot k b := by
  unfold State.Forgot
  rw [State.hm_updHm]
  exact ⟨hr, hs⟩

section
variable {k b : Nat} (h : s.Forgot k b)
include h

theorem State.Forgot.sweepDone : (s.sweepDone k).Forgot k b := State.forgot_updHm (fun hm => h.1 (List.mem_filter.1 hm).1) h.2

theorem State.Forgot.sweepOne : (s.sweepOne k).Forgot k b := by
  unfold State.sweepOne
  dsimp only
  split
  next b' i _ _ =>
    have hhome : (s.recallAll k b' 0x3FF (0xF00 + i) 0 0).Forgot k b := h.of_home (State.send_home ..)
    exact State.forgot_updHm hhome.1 fun hm => hhome.2 (List.mem_filter.1 hm).1
  next => exact h

theorem State.Forgot.sweepNext : (s.sweepNext k).Forgot k b := h.sweepDone.sweepOne.sweepDone.sweepOne.sweepDone.sweepOne.sweepDone.sweepOne.sweepDone

end

/-- The old home with a bucket given up, its directory entries and sweeps with it. -/
def State.bucketGone (s : State) (mv : Nat × Nat × Nat) : State :=
  let s := { s with epo := { s.epo with moves := s.epo.moves.erase mv } }.forgetBucket mv.2.1 mv.1
  (s.updHm mv.2.1 (fun m => { m with
    recon := m.recon.filter (· != mv.1)
    toSweep := m.toSweep.filter (· != mv.1)
    sweeps := SMap.mapVals none (fun _ (w : Option Sweep) => w.map (fun w => if w.bucket = mv.1 then { w with gone := true } else w))
      m.sweeps })).sweepNext mv.2.1

theorem State.bucketGone_sweepOnly (mv : Nat × Nat × Nat) :
    (({ s with epo := { s.epo with moves := s.epo.moves.erase mv } } : State).forgetBucket mv.2.1 mv.1).SweepOnly (s.bucketGone mv) :=
  (State.SweepOnly.refl.updHm ..).sweepNext ..

theorem State.bucketGone_forgot (mv : Nat × Nat × Nat) : (s.bucketGone mv).Forgot mv.2.1 mv.1 :=
  (State.forgot_updHm (by simp) (by simp)).sweepNext

/-- A TXID taken at an interface for a request of its own. -/
def State.takeTxid (s : State) (f : Nat) : State := s.updNi f (fun n => { n with own := n.own ++ [(s.nif f).freshTxid] })

theorem State.SweepOnly.takeTxid (h : s.SweepOnly t) (f : Nat) : s.SweepOnly (t.takeTxid f) := h

theorem State.takeTxid_own (f : Nat) : (s.nif f).freshTxid ∈ ((s.takeTxid f).nif f).own := by
  rw [State.takeTxid, State.nif_updNi, if_pos rfl]
  exact List.mem_append_right _ (List.mem_singleton_self _)

/-- The bucket given up, with the TXID of the release taken at its sender. -/
def State.releasing (s : State) (src : Nat) (mv : Nat × Nat × Nat) : State := (s.bucketGone mv).takeTxid src

theorem State.releaseBucket_eq (src : Nat) (mv : Nat × Nat × Nat) : s.releaseBucket src mv = (s.releasing src mv).send src
    { net := .req, dst := BitVec.ofNat 10 (homeFid mv.2.2), opc := 0x1C, rlx := true, txid := ((s.bucketGone mv).nif src).freshTxid,
      addr := BitVec.ofNat 52 mv.1 } := rfl

theorem State.SweepOnly.widen {e : EpoSt} {d : SMap (Option DirEnt)} (h : ({ s with epo := e, dir := d } : State).SweepOnly t) :
    { t with epo := s.epo, home := s.home, dir := s.dir, ni := s.ni, ctr := s.ctr, regs := s.regs, cyc := s.cyc } = s :=
  (congrArg (fun t : State => { t with epo := s.epo, dir := s.dir }) h :)

theorem State.SweepOnly.epo (h : s.SweepOnly t) : t.epo = s.epo := (congrArg State.epo h :)

theorem State.Forgot.takeTxid {k b : Nat} (h : s.Forgot k b) (f : Nat) : (s.takeTxid f).Forgot k b := h.of_home rfl

theorem State.releasing_moves (src : Nat) (mv : Nat × Nat × Nat) : (s.releasing src mv).epo.moves = s.epo.moves.erase mv :=
  congrArg EpoSt.moves ((s.bucketGone_sweepOnly mv).takeTxid src).epo

/-! ### The commands -/

section
variable {k : Fin 64} {b : BitVec 12} {mv : Nat × Nat × Nat} (hm : s.moveOf k b.toNat = some mv)
include hm

theorem execBucketReleaseSend_move : execBucketReleaseSend k b s =
    if s.epo.dual ∨ s.homeFenced k ∨ ¬s.bucketIdle k b.toNat then .next s else .next (s.releaseBucket (homeFid k) mv) := by
  unfold execBucketReleaseSend
  rw [hm]

theorem execBucketReleaseProxy_move : execBucketReleaseProxy k b s =
    if s.epo.dual ∨ ¬s.homeFenced k ∨ ¬((s.hm k).wbufs.isEmpty && (s.hm k).wbWait.isEmpty) then .next s else .next (s.releaseBucket 0x180 mv) := by
  unfold execBucketReleaseProxy
  rw [hm]

end

theorem execBucketReleaseReceive_won {k : Fin 64} {q : Pkt} {s1 : State} (hq : s.laneHead k 2 = some q) (ho : q.opc = 0x1C)
    (hw : s.homeWins k 2 = some s1) : execBucketReleaseReceive k s = .next (((s1.setHbox k ((s1.hbox k).erase q)).updNi q.src.toNat (fun n =>
      { n with own := n.own.erase q.txid })).enterRecon k (q.addr.toNat % 4096)) := by
  unfold execBucketReleaseReceive
  simp only [List.findSome?_cons, hq]
  rw [if_pos ho]
  dsimp only
  rw [hw]

theorem execBucketReleaseReceive_none {k : Fin 64} (h : ∀ i, s.laneHead k i = none) : execBucketReleaseReceive k s = .next s := by
  unfold execBucketReleaseReceive
  simp only [List.findSome?_cons, List.findSome?_nil, h]

section
variable {k : Fin 64} {i : Fin 4} {w : Sweep} (hw : SMap.get none (s.hm k).sweeps i = some w)
include hw

theorem execBucketSweepTimeout_sweep : execBucketSweepTimeout k i s =
    if w.late ∨ w.gone ∨ s.tick < w.start + usTicks (16 * max 1 (s.rf .HS_TMO 0 16 (hsBase k))) then .next s
    else .next ((s.updHm k (fun m => { m with sweeps := SMap.set none m.sweeps i (some { w with late := true }) })).raiseNi (homeFid k) 9 1 w.bucket) := by
  unfold execBucketSweepTimeout
  rw [hw]

end

/-- Settles O37. -/
theorem bucketsMoveBetweenHomes : Obligations.BucketsMoveBetweenHomes := by
  refine ⟨fun s k b mv hm => ⟨fun hd => ⟨(execBucketReleaseSend_move hm).trans (if_pos (.inl hd)), (execBucketReleaseProxy_move hm).trans (if_pos (.inl hd))⟩,
      fun hd hf hi => (execBucketReleaseSend_move hm).trans (if_neg (by simp [hd, hf, hi])),
      fun hi => (execBucketReleaseSend_move hm).trans (if_pos (.inr (.inr (by simp [hi])))),
      fun hd hf hb hw => (execBucketReleaseProxy_move hm).trans (if_neg (by simp [hd, hf, hb, hw])),
      fun hf => (execBucketReleaseProxy_move hm).trans (if_pos (.inr (.inl (by simp [hf]))))⟩,
    fun s src mv => ⟨s.releasing src mv, ((s.bucketGone mv).nif src).freshTxid, s.releaseBucket_eq src mv, (s.bucketGone mv).takeTxid_own src, s.releasing_moves src mv,
      ((s.bucketGone_forgot mv).takeTxid src).1, ((s.bucketGone_forgot mv).takeTxid src).2, State.SweepOnly.widen (s := s) ((s.bucketGone_sweepOnly mv).takeTxid src)⟩,
    fun s s1 k q => execBucketReleaseReceive_won, fun s k => execBucketReleaseReceive_none,
    fun s k i w hw => ⟨fun h => ?_, fun hl hg ht => ?_⟩⟩
  · exact (execBucketSweepTimeout_sweep hw).trans (if_pos h)
  · refine ⟨s.updHm k (fun m => { m with sweeps := SMap.set none m.sweeps i (some { w with late := true }) }), rfl, ?_,
      (execBucketSweepTimeout_sweep hw).trans (if_neg (by simp [hl, hg]; omega))⟩
    rw [State.hm_updHm, SMap.get_set, if_pos rfl]

end Sys2Proof.Machine

namespace Sys2Proof.Machine
variable {s t : State}

/-! ### The lines of a cache and the beats of a partner -/

theorem State.cline_setCline (f line : Nat) (c : CLine) : (s.setCline f line c).cline f line = if c.st = .i then {} else c := by
  rw [State.cline, State.setCline, SMap.get_set, if_pos rfl]

theorem State.cline_setCline_st (f line : Nat) (c : CLine) : ((s.setCline f line c).cline f line).st = c.st := by
  rw [State.cline_setCline]
  split
  next h => exact h.symm
  next => rfl

theorem State.beats_partnerBeat (f : Nat) (b : Beat) : ((s.partnerBeat f b).nif f).beats = (s.nif f).beats ++ [b] := by
  rw [State.partnerBeat, State.nif_updNi, if_pos rfl]

/-! ### A line that the cores may have written -/

theorem State.silent_other {f line : Nat} (h : (s.cline f line).st ≠ .e) : s.silent f line = s := if_pos h

theorem State.silent_exclusive {f line : Nat} (h : (s.cline f line).st = .e) : s.silent f line =
    if s.drawn % 2 = 1 then s.draw.setCline f line { s.cline f line with st := .m } else s.draw := if_neg (not_not_intro h)

theorem State.silent_spec {f line : Nat} (h : (s.cline f line).st = .e) :
    (((s.silent f line).cline f line).st = .e ∨ ((s.silent f line).cline f line).st = .m) ∧
    ((s.silent f line).cline f line).data = (s.cline f line).data ∧ { s.silent f line with cache := s.cache, free := s.free } = s := by
  rw [State.silent_exclusive h]
  by_cases hd : s.drawn % 2 = 1
  · rw [if_pos hd, State.cline_setCline]
    exact ⟨.inr rfl, rfl, rfl⟩
  · rw [if_neg hd]
    exact ⟨.inl h, rfl, rfl⟩

/-! ### Snoops -/

section
variable {fid : Fid} {b : Beat} (hc : isCaching fid.toNat = true) (hb : (s.nif fid.toNat).f2p = [b]) (hn : b.net = .snp) (hr : b.rqfid ≠ 0x3FF)
include hc hb hn hr

theorem execCacheSnoop_snoop : execCacheSnoop fid s =
    if (match snpAct b.opc.toNat ((s.silent fid.toNat b.line.toNat).cline fid.toNat b.line.toNat).st with
      | .data .. => (s.nif fid.toNat).given.dat
      | _ => (s.nif fid.toNat).given.rsp) = 0 then .next s
    else .next ((((s.silent fid.toNat b.line.toNat).setNi fid.toNat { s.nif fid.toNat with f2p := [] }).answerSnoop fid.toNat b).recallStep
      fid.toNat) := by
  have herase : [b].erase b = [] := List.erase_cons_head ..
  unfold execCacheSnoop
  dsimp only
  rw [if_neg (by simp [hc]), hb, List.find?_cons_of_pos (by simp [hn])]
  dsimp only
  rw [if_neg hr, herase] <;> rfl

theorem execCacheSnoop_answered (h1 : 0 < (s.nif fid.toNat).given.rsp) (h2 : 0 < (s.nif fid.toNat).given.dat) : execCacheSnoop fid s =
    .next ((((s.silent fid.toNat b.line.toNat).setNi fid.toNat { s.nif fid.toNat with f2p := [] }).answerSnoop fid.toNat b).recallStep
      fid.toNat) := by
  refine (execCacheSnoop_snoop hc hb hn hr).trans (if_neg ?_)
  split <;> omega

theorem execCacheSnoop_waits (h1 : (s.nif fid.toNat).given.rsp = 0) (h2 : (s.nif fid.toNat).given.dat = 0) : execCacheSnoop fid s = .next s := by
  refine (execCacheSnoop_snoop hc hb hn hr).trans (if_pos ?_)
  split <;> assumption

end

section
variable {f : Nat} {b : Beat}

theorem State.answerSnoop_ack {next : CSt} (h : snpAct b.opc.toNat (s.cline f b.line.toNat).st = .ack next) :
    s.answerSnoop f b = (s.setCline f b.line.toNat { s.cline f b.line.toNat with st := next }).partnerBeat f
      { net := .rsp, opc := 1, tag := b.tag, peer := b.rqfid, line := b.line } := by
  unfold State.answerSnoop
  dsimp only
  rw [h]

/-- The beat with which a partner gives a line's data away. -/
def dataBeat (b : Beat) (o : Nat) (data : List Byte) (poison : Bool) : Beat :=
  { net := .dat, opc := BitVec.ofNat 6 o, tag := b.tag, peer := b.rqfid, data := data, be := BitVec.allOnes 64, poison := poison, line := b.line }

theorem State.answerSnoop_data {next : CSt} {o : Nat} (h : snpAct b.opc.toNat (s.cline f b.line.toNat).st = .data o next) :
    s.answerSnoop f b = ((s.ownerData (s.cline f b.line.toNat)).2.setCline f b.line.toNat { s.cline f b.line.toNat with
      st := next, data := (s.ownerData (s.cline f b.line.toNat)).1,
      fixed := (s.cline f b.line.toNat).fixed || (s.cline f b.line.toNat).st == .miA }).partnerBeat f
        (dataBeat b o (s.ownerData (s.cline f b.line.toNat)).1 (s.cline f b.line.toNat).poison) := by
  unfold State.answerSnoop
  dsimp only
  rw [h]
  rfl

theorem State.ownerData_rest (c : CLine) : { (s.ownerData c).2 with free := s.free } = s := by
  unfold State.ownerData
  split <;> rfl

theorem State.ownerData_known {c : CLine} (hm : c.st ≠ .m) (hf : c.st = .miA → c.fixed = true) : (s.ownerData c).1 = c.data := by
  unfold State.ownerData
  rw [if_neg]
  rintro (h | ⟨h, hx⟩)
  · exact hm h
  · exact hx (hf h)

theorem State.cacheFree_partnerBeat (h : { t with free := s.free } = s) (f line : Nat) (c : CLine) (x : Beat) :
    { (t.setCline f line c).partnerBeat f x with cache := s.cache, ni := s.ni, free := s.free } = s :=
  (congrArg (fun t : State => { t with cache := s.cache, ni := s.ni }) h :)

theorem State.cacheNi_setCline (h : { t with cache := s.cache, ni := s.ni } = s) (f line : Nat) (c : CLine) :
    { t.setCline f line c with cache := s.cache, ni := s.ni } = s := h

theorem State.cacheNi_partnerBeat (h : { t with cache := s.cache, ni := s.ni } = s) (f : Nat) (x : Beat) :
    { t.partnerBeat f x with cache := s.cache, ni := s.ni } = s := h

theorem State.nif_ownerData (c : CLine) (g line : Nat) (d : CLine) : ((s.ownerData c).2.setCline g line d).nif f = s.nif f :=
  have h : (s.ownerData c).2.ni = s.ni := (congrArg State.ni (s.ownerData_rest c) :)
  State.nif_congr (s := s) h f

theorem State.beats_answerSnoop_data {next : CSt} {o : Nat} (h : snpAct b.opc.toNat (s.cline f b.line.toNat).st = .data o next) :
    ((s.answerSnoop f b).nif f).beats =
      (s.nif f).beats ++ [dataBeat b o (s.ownerData (s.cline f b.line.toNat)).1 (s.cline f b.line.toNat).poison] := by
  rw [State.answerSnoop_data h, State.beats_partnerBeat, State.nif_ownerData]

end

/-! ### Answers -/

theorem State.cline_compAck (f line : Nat) (c : CLine) (tag : BitVec 12) (peer : Fid) :
    (((s.setCline f line c).compAck f tag peer).cline f line).st = c.st := State.cline_setCline_st f line c

theorem execCacheAnswer_awaited {fid : Fid} {b : Beat} {line : Nat} {c : CLine} (hc : isCaching fid.toNat = true) (hb : (s.nif fid.toNat).f2p = [b])
    (hn : b.net = .dat ∨ b.net = .rsp) (hg : 0 < (s.nif fid.toNat).given.rsp) (hl : s.clineOf fid.toNat b.tag = some (line, c)) :
    execCacheAnswer fid s = .next (((s.setNi fid.toNat { s.nif fid.toNat with f2p := [] }).lineAnswer fid.toNat line c b).recallStep fid.toNat) := by
  have herase : [b].erase b = [] := List.erase_cons_head ..
  have hl' (n : Ni) : (s.setNi fid.toNat n).clineOf fid.toNat b.tag = some (line, c) := hl
  unfold execCacheAnswer
  dsimp only
  rw [if_neg (by simp [hc]), hb, List.find?_cons_of_pos (by simpa using hn)]
  dsimp only
  rw [if_neg (by omega), herase, hl']

theorem State.lineAnswer_exclusive {f line : Nat} {c : CLine} {b : Beat} (hc : c.st = .isD) (hn : b.net = .dat) (ho : b.opc = 10) :
    s.lineAnswer f line c b = (s.setCline f line { st := .e, data := b.data, poison := b.poison }).compAck f c.tag b.peer := by
  unfold State.lineAnswer
  dsimp only
  rw [if_neg (by simp [hc]), if_pos hn, if_neg (by simp [ho]), if_pos ⟨hc, by simp [ho]⟩]

/-- A line that asks for M reaches it exactly when its acknowledgements and its data are there. -/
theorem State.settle_modified {f line n : Nat} {c : CLine} {peer : Fid} (hs : c.st = .imAd) (hn : c.cnt = some n) :
    ((s.settle f line c peer).cline f line).st = .m ↔ n ≤ c.acks ∧ (c.df = true → c.got = true) := by
  unfold State.settle
  dsimp only
  rw [hn]
  dsimp only
  by_cases hd : n ≤ c.acks ∧ (c.df = true → c.got = true)
  · rw [if_pos ⟨by cases hdf : c.df <;> simp_all, .inl hs⟩]
    exact iff_of_true (State.cline_compAck ..) hd
  · rw [if_neg (fun h => hd ?_)]
    · exact iff_of_false (fun h => by rw [State.cline_setCline_st, hs] at h; cases h) hd
    · obtain ⟨h, -⟩ := h
      cases hdf : c.df <;> simp_all

/-- Settles O38. -/
theorem cachingPartnersFollowTheLineTables : Obligations.CachingPartnersFollowTheLineTables := by
  refine ⟨fun s fid b hc hb hn hr => ⟨execCacheSnoop_answered hc hb hn hr, execCacheSnoop_waits hc hb hn hr⟩,
    fun s f line => ⟨State.silent_other, fun h => ⟨_, rfl, State.silent_spec h⟩⟩, fun s f b next h => ⟨_, rfl, ?_⟩,
    fun s f b next o h => ⟨_, rfl, ?_⟩, fun s fid b line c hc hb hn hg hl => execCacheAnswer_awaited hc hb hn hg hl,
    fun s f line c b hc hn ho => ?_, fun s f line c peer n hs hn => State.settle_modified hs hn⟩
  · rw [State.answerSnoop_ack h]
    exact ⟨State.cline_setCline_st .., State.beats_partnerBeat .., State.cacheNi_partnerBeat (State.cacheNi_setCline (t := s) rfl ..) ..⟩
  · have hbeats := State.beats_answerSnoop_data h
    rw [State.answerSnoop_data h] at hbeats ⊢
    exact ⟨State.cline_setCline_st .., ⟨_, hbeats, rfl, rfl, rfl, rfl, rfl,
      State.ownerData_known⟩, State.cacheFree_partnerBeat (s.ownerData_rest _) ..⟩
  · rw [State.lineAnswer_exclusive hc hn ho]
    exact ⟨State.cline_compAck .., _, State.beats_partnerBeat .., rfl, rfl, rfl⟩

end Sys2Proof.Machine

namespace Sys2Proof.Machine
variable {s t : State}

/-! ### Words of the shared SRAM -/

theorem State.wordCheck_clean (h : s.fc.inject = none) (w : Nat) : s.wordCheck w .clean = (SMap.get false s.sramBad w, false, s) := by
  unfold State.wordCheck
  dsimp only
  rw [State.checkWord_of_no_inject h]

theorem State.wordsCheck_clean (h : s.fc.inject = none) {ws : List Nat} (hw : ∀ w ∈ ws, SMap.get false s.sramBad w = false) (port scrub : Bool) :
    s.wordsCheck ws port scrub [] = (false, s) := by
  have hfold : ws.foldl (fun (hs : List (Nat × Bool) × State) w =>
      let (bad, inj, t) := hs.2.wordCheck w (errAt [] (w % 8))
      (if bad then hs.1 ++ [(w, inj)] else hs.1, t)) (([] : List (Nat × Bool)), s) = ([], s) :=
    List.foldlRecOn (motive := fun a => a = (([] : List (Nat × Bool)), s)) ws _ rfl fun a ha w hm => by
      subst ha
      show (let (bad, inj, t) := s.wordCheck w .clean; (if bad then [] ++ [(w, inj)] else [], t)) = _
      rw [State.wordCheck_clean h, hw w hm]
      rfl
  unfold State.wordsCheck
  rw [hfold]

theorem State.sramCheck_clean (h : s.fc.inject = none) {o n : Nat} (hb : s.sramBadIn o n = []) (port scrub : Bool) :
    s.sramCheck o n port scrub [] = (false, s) :=
  State.wordsCheck_clean h (fun w hw => by simpa using List.filter_eq_nil_iff.mp hb w hw) port scrub

theorem length_leBytes (n v : Nat) : (leBytes n v).length = n := by
  induction n generalizing v with
  | zero => rfl
  | succ n ih => exact congrArg Nat.succ (ih _)

/-- A line's bytes written eight at a time. -/
def writeLine (m : List Host.Cell) (row : Nat) (data : List Byte) (n : Nat) : List Host.Cell :=
  (List.range n).foldl (fun m w => memWrite m (row + 8 * w) ((data.drop (8 * w)).take 8)) m

theorem memByte_writeLine (m : List Host.Cell) (row : Nat) {data : List Byte} {n : Nat} (hd : 8 * n ≤ data.length) :
    (∀ i, i < 8 * n → memByte (writeLine m row data n) (row + i) = data.getD i 0) ∧
    ∀ a, a < row ∨ row + 8 * n ≤ a → memByte (writeLine m row data n) a = memByte m a := by
  induction n with
  | zero => exact ⟨fun i hi => absurd hi (by omega), fun _ _ => rfl⟩
  | succ n ih =>
    obtain ⟨hin, hout⟩ := ih (by omega)
    have hlen : ((data.drop (8 * n)).take 8).length = 8 := by simp; omega
    have hstep : writeLine m row data (n + 1) = memWrite (writeLine m row data n) (row + 8 * n) ((data.drop (8 * n)).take 8) := by
      rw [writeLine, List.range_succ, List.foldl_append]
      rfl
    rw [hstep]
    refine ⟨fun i hi => ?_, fun a ha => ?_⟩
    · by_cases hlt : i < 8 * n
      · rw [memByte_write_outside _ _ _ _ (by omega), hin i hlt]
      · obtain ⟨j, rfl⟩ : ∃ j, i = 8 * n + j := ⟨i - 8 * n, by omega⟩
        have hj : j < ((data.drop (8 * n)).take 8).length := by omega
        rw [← Nat.add_assoc, memByte_write_inside _ _ _ _ hj, List.getElem_take, List.getElem_drop, List.getD_eq_getElem?_getD,
          List.getElem?_eq_getElem (by omega)]
        rfl
    · rw [memByte_write_outside _ _ _ _ (by omega), hout a (by omega)]

/-- What a store changes: the bytes and the marks of bad words. -/
def State.SramOnly (s t : State) : Prop := { t with sram := s.sram, sramBad := s.sramBad } = s

theorem State.SramOnly.sramWrite (h : s.SramOnly t) (o : Nat) (bs : List Byte) (p : Bool) : s.SramOnly (t.sramWrite o bs p) := h

theorem foldl_eq_of_mem {α β : Type} {f g : β → α → β} {l : List α} (h : ∀ b, ∀ a ∈ l, f b a = g b a) (b : β) : l.foldl f b = l.foldl g b := by
  induction l generalizing b with
  | nil => rfl
  | cons a l ih =>
    rw [List.foldl_cons, List.foldl_cons, h b a List.mem_cons_self]
    exact ih (fun b a ha => h b a (List.mem_cons_of_mem _ ha)) _

theorem State.storeBe_line (row : Nat) {d : Pkt} (hbe : d.be = BitVec.allOnes 64) : s.SramOnly (s.storeBe row d) ∧
    (s.storeBe row d).sram = writeLine s.sram row d.data 8 := by
  have hall (w : Nat) (hw : w ∈ List.range 8) : (List.range 8).filter (fun i => d.be.getLsbD (8 * w + i)) = List.range 8 :=
    List.filter_eq_self.mpr fun i hi => by
      have := List.mem_range.mp hi
      have := List.mem_range.mp hw
      rw [hbe, BitVec.getLsbD_allOnes]
      exact decide_eq_true (by omega)
  have hstore : s.storeBe row d = (List.range 8).foldl (fun s w => s.sramWrite (row + 8 * w) ((d.data.drop (8 * w)).take 8) d.psn) s := by
    unfold State.storeBe
    refine foldl_eq_of_mem (fun t w hw => ?_) s
    dsimp only
    rw [hall w hw]
    exact if_pos List.length_range
  rw [hstore]
  refine ⟨List.foldlRecOn _ _ rfl fun t ht w _ => ht.sramWrite .., ?_⟩
  exact (List.foldl_hom State.sram fun t w => rfl).symm

/-! ### Accesses of the fabric port -/

theorem partWords_line (row : Nat) : partWords row (BitVec.allOnes 64) = [] := by
  unfold partWords
  rw [List.filter_eq_nil_iff.mpr, List.map_nil]
  intro w hw
  have hall : (List.range 8).filter (fun i => (BitVec.allOnes 64).getLsbD (8 * w + i)) = List.range 8 :=
    List.filter_eq_self.mpr fun i hi => by
      have := List.mem_range.mp hi
      have := List.mem_range.mp hw
      rw [BitVec.getLsbD_allOnes]
      exact decide_eq_true (by omega)
  dsimp only
  rw [hall]
  decide

/-- Counting touches no region register. -/
theorem State.regionOk_count (f j : Nat) (o master slice : Nat) (rd wr : Bool) :
    (s.count f j).regionOk o master slice rd wr = s.regionOk o master slice rd wr := by
  have hk : sramNode o < 16 := fld_lt ..
  have hlo : Reg.SSB_RGNn_LO.spec.off + Reg.SSB_RGNn_LO.spec.stride * 64 < 0x10000 := by decide
  have hhi : Reg.SSB_RGNn_HI.spec.off + Reg.SSB_RGNn_HI.spec.stride * 64 < 0x10000 := by decide
  have hbase : ssbBase (sramNode o) ≤ 0xCF0000 := by unfold ssbBase; omega
  have hhit (n : Nat) (hn : n < 64) : (s.count f j).regionHit (sramNode o) n master (fld o 12 9) slice rd wr =
      s.regionHit (sramNode o) n master (fld o 12 9) slice rd wr := by
    have hl : Reg.off .SSB_RGNn_LO (ssbBase (sramNode o)) n < 0x1000000 := by
      have := Nat.mul_le_mul_left Reg.SSB_RGNn_LO.spec.stride (Nat.le_of_lt hn)
      unfold Reg.off
      omega
    have hh : Reg.off .SSB_RGNn_HI (ssbBase (sramNode o)) n < 0x1000000 := by
      have := Nat.mul_le_mul_left Reg.SSB_RGNn_HI.spec.stride (Nat.le_of_lt hn)
      unfold Reg.off
      omega
    unfold State.regionHit
    rw [State.reg_count_low _ _ _ hl, State.reg_count_low _ _ _ hh]
  unfold State.regionOk
  congr 1
  rw [Bool.eq_iff_iff, List.any_eq_true, List.any_eq_true]
  exact exists_congr fun n => and_congr_right fun hn => by rw [hhit n (List.mem_range.mp hn)]

section
variable {k b o : Nat} {q : Pkt}

theorem State.fabPerform_denied (ho : q.opc = 0x12) (hr : s.regionOk o q.src.toNat q.slice.toNat true false = false) :
    s.fabPerform k b o q [] = (((s.count (ssbFid k) (64 + b)).bankTake k q).regionDeny o q.src.toNat false false).answer (ssbFid k) q 1 := by
  unfold State.fabPerform
  simp only [bankStores, bankWr, ho]
  rw [if_pos (by simpa [State.regionOk_count] using hr), if_neg (by decide)]
  rfl

theorem State.fabPerform_write {d : Pkt} (ho : q.opc = 0x13) (hi : s.fc.inject = none) (hd : wrData (s.sbox k) q = some d)
    (hbe : d.be = BitVec.allOnes 64) (hr : s.regionOk o q.src.toNat q.slice.toNat false true = true) : s.fabPerform k b o q [] =
      (((s.count (ssbFid k) (64 + b)).bankTake k q).storeBe (o / 64 * 64) d).answer (ssbFid k) q 0 := by
  have hi' : (s.count (ssbFid k) (64 + b)).fc.inject = none := by rw [State.count_fc]; exact hi
  have hbox : (s.count (ssbFid k) (64 + b)).sbox k = s.sbox k := congrArg Ni.inbox (State.nif_congr (State.count_ni ..) _)
  unfold State.fabPerform
  simp only [bankStores, bankWr, ho]
  rw [if_neg (by simpa [State.regionOk_count] using hr), if_neg (by decide), if_pos (by decide), hbox, hd]
  dsimp only [Option.getD_some]
  rw [hbe, partWords_line, State.wordsCheck_clean hi' (fun _ h => absurd h List.not_mem_nil)]

theorem State.fabPerform_read (ho : q.opc = 0x12) (hi : s.fc.inject = none) (hb : s.sramBadIn o (2 ^ q.size.toNat) = [])
    (hr : s.regionOk o q.src.toNat q.slice.toNat true false = true) : s.fabPerform k b o q [] =
      ((s.count (ssbFid k) (64 + b)).bankTake k q).send (ssbFid k)
        { dataFor q 0 (s.sramRead (o / 64 * 64) 64) with be := spanBe (o % 64) (2 ^ q.size.toNat) } := by
  have hi' : (s.count (ssbFid k) (64 + b)).fc.inject = none := by rw [State.count_fc]; exact hi
  have hb' : (s.count (ssbFid k) (64 + b)).sramBadIn o (2 ^ q.size.toNat) = [] := by
    unfold State.sramBadIn
    rw [State.count_sramBad]
    exact hb
  have hread : (s.count (ssbFid k) (64 + b)).sramRead (o / 64 * 64) 64 = s.sramRead (o / 64 * 64) 64 :=
    congrArg (fun m => memRead m (o / 64 * 64) 64) (State.count_sram ..)
  unfold State.fabPerform
  simp only [bankStores, bankWr, ho]
  rw [if_neg (by simpa [State.regionOk_count] using hr), if_neg (by decide), if_neg (by decide), State.sramCheck_clean hi' hb', hread]
  dsimp only
  rw [if_neg (by decide), if_neg (by decide)]

end

theorem State.SramOnly.bankTake (k : Nat) (q : Pkt) (row : Nat) {d : Pkt} (hbe : d.be = BitVec.allOnes 64) (f i : Nat) :
    { ((s.count f i).bankTake k q).storeBe row d with sram := s.sram, sramBad := s.sramBad, ctr := s.ctr, regs := s.regs, cyc := s.cyc, ni := s.ni } = s := by
  have htake : { (s.count f i).bankTake k q with ctr := s.ctr, regs := s.regs, cyc := s.cyc, ni := s.ni } = s :=
    (congrArg (fun t : State => { t with ni := s.ni }) (s.count_rest f i 1) :)
  have hstore := (State.storeBe_line (s := (s.count f i).bankTake k q) row hbe).1
  generalize (s.count f i).bankTake k q = t at htake hstore
  generalize t.storeBe row d = u at hstore
  have hu : { u with sram := s.sram, sramBad := s.sramBad, ctr := s.ctr, regs := s.regs, cyc := s.cyc, ni := s.ni } =
      { t with sram := s.sram, sramBad := s.sramBad, ctr := s.ctr, regs := s.regs, cyc := s.cyc, ni := s.ni } :=
    (congrArg (fun t : State => { t with sram := s.sram, sramBad := s.sramBad, ctr := s.ctr, regs := s.regs, cyc := s.cyc, ni := s.ni }) hstore :)
  exact hu.trans (congrArg (fun t : State => { t with sram := s.sram, sramBad := s.sramBad }) htake :)

/-- The bank after an atomic: the operation's result at its place, the bank free. -/
def State.atomDone (s : State) (k b o : Nat) (q : Pkt) (old : Nat) : State :=
  ((s.bankTake k q).setBank k b { s.bankAt k b with atom := none }).sramWrite o (leBytes (2 ^ q.size.toNat) (aopResult q.aop.toNat
    (2 ^ q.size.toNat) old (q.ops.getD 0 0).toNat (q.ops.getD 1 0).toNat))

theorem State.atomFinish_eq {k b o : Nat} {q : Pkt} (ho : s.sramOff k q = some o) (old : Nat) : s.atomFinish k b q old =
    (s.atomDone k b o q old).send (ssbFid k)
      { net := .rsp, dst := q.src, opc := 6, txid := q.txid, slice := q.slice, len := 2, ops := [BitVec.ofNat 64 old] } := by
  unfold State.atomFinish
  rw [ho]
  rfl

theorem State.atomDone_spec (k b o : Nat) (q : Pkt) (old : Nat) :
    (s.atomDone k b o q old).sramRead o (2 ^ q.size.toNat) = leBytes (2 ^ q.size.toNat) (aopResult q.aop.toNat (2 ^ q.size.toNat) old
      (q.ops.getD 0 0).toNat (q.ops.getD 1 0).toNat) ∧
    (∀ a, (a < o ∨ o + 2 ^ q.size.toNat ≤ a) → memByte (s.atomDone k b o q old).sram a = memByte s.sram a) ∧
    ((s.atomDone k b o q old).bankAt k b).atom = none := by
  have hread (v : Nat) := memRead_write s.sram (leBytes (2 ^ q.size.toNat) v) o
  simp only [length_leBytes] at hread
  refine ⟨hread _, fun a ha => memByte_write_outside _ _ _ _ (by rwa [length_leBytes]), ?_⟩
  have hbank (t : State) (x : Bank) : (t.setBank k b x).bankAt k b = x := (SMap.get_set ..).trans (if_pos rfl)
  exact congrArg Bank.atom (hbank (s.bankTake k q) _)

/-! ### A cycle without an access -/

/-- What an empty cycle of a bank changes. -/
def State.BankOnly (s t : State) : Prop := { t with arbs := s.arbs, bank := s.bank, regs := s.regs, cyc := s.cyc } = s

section
variable (h : s.BankOnly t)
include h

theorem State.BankOnly.setArb (site : ArbSite) (a : Arb) : s.BankOnly (t.setArb site a) := h
theorem State.BankOnly.setBank (k b : Nat) (x : Bank) : s.BankOnly (t.setBank k b x) := h
theorem State.BankOnly.bump (r : Reg) (b i n : Nat) : s.BankOnly (t.bump r b i n) := h
theorem State.BankOnly.noteMask (site : ArbSite) : s.BankOnly (t.noteMask site) := iteInduction (fun _ => (h.setArb ..).bump ..) fun _ => h

theorem State.BankOnly.bankGrant (k : Fin 16) (b : Fin 4) (c : BankPick) : s.BankOnly (t.bankGrant k b c) := by
  unfold State.bankGrant
  dsimp only
  split
  · exact (((h.bump ..).setArb ..).setBank ..).noteMask ..
  · exact ((h.setArb ..).setBank ..).noteMask ..

end

theorem State.bankCycle_idle {node : Fin 16} {bank : Fin 4} (ha : (s.bankAt node bank).atom = none) (hb : s.sbox node = []) (hl : s.locOf node = [])
    (fe le : WordErrs) : s.BankOnly (s.bankCycle node bank fe le) := by
  have hhead (i : Nat) : s.bankHead node bank i = none := by
    unfold State.bankHead
    rw [hb]
    rfl
  have hloc (j : Nat) : s.locHead node bank j = none := by
    unfold State.locHead
    rw [hl]
    rfl
  unfold State.bankCycle
  simp only [ha, hhead, hloc, Option.bind_fun_none, Option.isSome_none, Option.map_none, Option.bind_none, ite_self]
  exact (State.BankOnly.bankGrant (Eq.refl s) _ _ _).setBank ..

/-! ### The scrubber -/

section
variable {node : Fin 16} {bank : Fin 4}

theorem execSramScrub_clean (hiv : s.rf .SSB_SCRUB 0 16 (ssbBase node) ≠ 0) (hf : s.niFenced (ssbFid node) = false) (hi : s.fc.inject = none)
    (ht : (s.bankAt node bank).scrubAt + s.rf .SSB_SCRUB 0 16 (ssbBase node) ≤ s.tick)
    (hb : s.sramBadIn ((4 * node.val + bank.val) * 2 ^ 19 + 64 * (s.bankAt node bank).scrub) 64 = [])
    (hs : (s.subsBusy node bank).contains ((s.bankAt node bank).scrub % 8) = false) : execSramScrub node bank [] s =
      .next (s.setBank node bank { s.bankAt node bank with scrub := ((s.bankAt node bank).scrub + 1) % 8192, scrubAt := s.tick }) := by
  have hclean (x : Bank) := State.sramCheck_clean (s := s.setBank node bank x) hi hb false true
  unfold execSramScrub
  dsimp only
  rw [if_neg (by simp only [hiv, hf, hs]; simp; omega), hclean]

theorem execSramScrub_waits (h : s.rf .SSB_SCRUB 0 16 (ssbBase node) = 0 ∨ (s.subsBusy node bank).contains ((s.bankAt node bank).scrub % 8) = true)
    (e : WordErrs) : execSramScrub node bank e s = .next s := if_pos (h.imp_right fun h => .inr (.inr h))

end

theorem execBankAccess_free {node : Fin 16} {bank : Fin 4} (hh : s.prim ≠ .halt) (ha : s.arbDone (.bank node bank) = false) (fe le : WordErrs)
    (st : WordErr) : execBankAccess node bank fe le st s = match s.tableCheck (fidUnit (ssbFid node)) st with
      | (.uncorrectable, s) => .next (s.fenceNi (ssbFid node))
      | (_, s) => .next (s.bankCycle node bank fe le) := if_neg (by simp [hh, ha])

/-- Settles O39. -/
theorem sharedSramAccesses : Obligations.SharedSramAccesses := by
  refine ⟨fun s node bank fe le hh hi ha => ⟨?_, ?_⟩, fun s node bank fe le ha hb hl => ⟨_, rfl, State.bankCycle_idle ha hb hl fe le⟩,
    fun s k b o q _ _ ho hr => State.fabPerform_denied ho hr, fun s k b o q d _ _ ho _ hi hd hal hbe hlen hr => ?_,
    fun s k b o q _ _ ho hi hb hr => ⟨_, State.fabPerform_read ho hi hb hr, ?_⟩,
    fun s k b q old o ho => ⟨_, State.atomFinish_eq ho old, s.atomDone_spec k b o q old⟩,
    fun s node bank hiv hf hi ht hb hs => ⟨_, execSramScrub_clean hiv hf hi ht hb hs, ?_, ?_, rfl⟩, fun s node bank e h => execSramScrub_waits h e⟩
  · exact (execBankAccess_free hh ha fe le .clean).trans (by rw [State.tableCheck_of_no_inject hi])
  · exact (execBankAccess_free hh ha fe le .uncorrectable).trans (by rw [State.tableCheck_uncorrectable _ rfl hi] <;> rfl)
  · have hrow : o / 64 * 64 = o := by omega
    have hwrite := State.fabPerform_write (b := b) ho hi hd hbe hr
    rw [hrow] at hwrite
    have hsram := (State.storeBe_line (s := (s.count (ssbFid k) (64 + b)).bankTake k q) o hbe).2
    have hkept : ((s.count (ssbFid k) (64 + b)).bankTake k q).sram = s.sram := State.count_sram ..
    obtain ⟨hin, hout⟩ := memByte_writeLine s.sram o (data := d.data) (n := 8) (by omega)
    rw [hkept] at hsram
    refine ⟨_, hwrite, fun i hi => ?_, fun a ha => ?_, State.SramOnly.bankTake k q o hbe _ _⟩
    · rw [hsram, hin i (by omega)]
    · rw [hsram, hout a (by omega)]
  · exact (congrArg (fun t : State => { t with ni := s.ni }) (s.count_rest (ssbFid k) (64 + b) 1) :)
  · exact congrArg Bank.scrub ((SMap.get_set ..).trans (if_pos rfl))
  · exact congrArg Bank.scrubAt ((SMap.get_set ..).trans (if_pos rfl))

end Sys2Proof.Machine

namespace Sys2Proof.Machine
variable {s t : State}

/-! ### The request in front of a manager -/

section
variable {n : Nat} {q : Pkt} (hl : s.qmLive n = true) (hr : s.qmReqs n = [q])
include hl hr

theorem State.qmServe_other (ho : q.opc ≠ 0x17) (ho' : q.opc ≠ 0x18) (ho'' : q.opc ≠ 0x19) (opc : BitVec 6) (table : WordErr) (go : Pkt → State → State) :
    s.qmServe n opc table go = (((s.qmTake n q).raiseNi (qmFid n) 6 1 q.txid.toNat).answer (qmFid n) q 9).sinkData (qmFid n) q := by
  unfold State.qmServe
  dsimp only
  rw [if_neg (not_not_intro hl), hr, List.find?_cons_of_pos (by simp only [Bool.and_eq_true, bne_iff_ne]; exact ⟨⟨ho, ho'⟩, ho''⟩)]

theorem State.qmNext_one (hb : s.queueBusy (reqQueue q) q.opc = false) (hd : q.opc = 0x17 → (s.enqData n q).isSome = true) :
    s.qmNext n q.opc = some q := by
  unfold State.qmNext
  dsimp only
  rw [hr, List.find?_cons_of_pos]
  have hfirst : [q].find? (fun x => reqQueue x == reqQueue q) = some q := List.find?_cons_of_pos (by simp)
  have hdata : (q.opc != 0x17 || (s.enqData n q).isSome) = true := by
    by_cases ho : q.opc = 0x17
    · rw [hd ho, Bool.or_true]
    · rw [bne_iff_ne.mpr ho, Bool.true_or]
  rw [hfirst, hb, hdata]
  simp

/-- A request whose queue is not being served is served, unless its descriptor table is lost. -/
theorem State.qmServe_served (hq : qmOf (reqQueue q) = n) (hb : s.queueBusy (reqQueue q) q.opc = false) (hi : s.fc.inject = none)
    (ho : q.opc = 0x17 ∨ q.opc = 0x18 ∨ q.opc = 0x19) (hd : q.opc = 0x17 → (s.enqData n q).isSome = true) (go : Pkt → State → State) :
    s.qmServe n q.opc .clean go = go q s ∧ s.qmServe n q.opc .uncorrectable go = (s.raiseNi (qmFid n) 2 2).fenceNi (qmFid n) := by
  have hnone : [q].find? (fun q => q.opc != 0x17 && q.opc != 0x18 && q.opc != 0x19) = none := by
    rw [List.find?_eq_none]
    rintro x hx
    rw [List.mem_singleton.mp hx]
    rcases ho with ho | ho | ho <;> simp [ho]
  have hnext := State.qmNext_one hl hr hb hd
  have hserve (table : WordErr) : s.qmServe n q.opc table go = match s.tableCheck (fidUnit (qmFid n)) table with
      | (.uncorrectable, s) => s.fenceNi (qmFid n)
      | (_, s) => go q s := by
    unfold State.qmServe
    dsimp only
    rw [if_neg (not_not_intro hl), hr, hnone]
    dsimp only
    rw [hnext]
    exact if_neg (not_not_intro hq)
  refine ⟨(hserve .clean).trans ?_, (hserve .uncorrectable).trans ?_⟩
  · rw [State.tableCheck_of_no_inject hi]
  · rw [State.tableCheck_uncorrectable _ rfl hi] <;> rfl

end

theorem State.qmServe_idle {n : Nat} (h : s.qmLive n = false ∨ s.qmReqs n = []) (opc : BitVec 6) (table : WordErr) (go : Pkt → State → State) :
    s.qmServe n opc table go = s := by
  unfold State.qmServe
  dsimp only
  rcases h with h | h
  · exact if_pos (by simp [h])
  · have hnext : s.qmNext n opc = none := by
      unfold State.qmNext
      rw [h]
      rfl
    rw [h, List.find?_nil]
    dsimp only
    rw [hnext]
    exact ite_self _

/-! ### Enqueue -/

theorem State.qmAt_updQm (n : Nat) (g : Qm → Qm) : (s.updQm n g).qmAt n = g (s.qmAt n) := by
  rw [State.qmAt, State.updQm, SMap.get_upd, if_pos rfl]
  rfl

theorem State.jobs_ringJob (n : Nat) (j : RingJob) : ((s.ringJob n j).qmAt n).jobs = (s.qmAt n).jobs ++ [{ j with id := (s.qmAt n).serial }] := by
  rw [State.ringJob, State.qmAt_updQm]

theorem State.ringJob_rest (n : Nat) (j : RingJob) : { s.ringJob n j with qm := s.qm } = s := rfl

/-- The ring access of a message that a queue takes. -/
def putJob (d : Nat) (q data : Pkt) : RingJob where
  why := .put q { len := data.data.length, src := q.src, slice := q.slice, ns := q.stamp }
  queue := reqQueue q
  mem := qMem d
  slice := BitVec.ofNat 6 (qSlice d)
  data := data.data
  bad := data.psn

/-- The ring access of a message that a request fetches. -/
def deqJob (d head : Nat) (q : Pkt) (m : QMsg) : RingJob where
  why := .deq q m
  queue := reqQueue q
  mem := qMem d
  slice := BitVec.ofNat 6 (qSlice d)
  off := qRing d + slotOf d head * qSlot d
  data := zeros m.len

section
variable {n : Nat} {q data : Pkt} (hr : s.queueReset (reqQueue q) = false) (hm : qMode (s.qdesc (reqQueue q)) = 1 ∨ qMode (s.qdesc (reqQueue q)) = 2)
  (hp : qPwr (s.qdesc (reqQueue q)) = false) (hf : sliceFits (s.qdesc (reqQueue q)) q.slice.toNat = true) (hl : s.queueLive (reqQueue q) = true)
  (hd : data.data.length ≤ qSlot (s.qdesc (reqQueue q))) (hz : s.frozenOut (reqQueue q) q = false)
include hr hm hp hf hl hd hz

theorem State.enqueue_open : s.enqueue n q data = if s.ringFull (reqQueue q) (s.qdesc (reqQueue q)) then
      (if (s.qdyn (reqQueue q)).fullSaid then s.qmFull n q
        else ((s.qmFull n q).updQ (reqQueue q) (fun y => { y with fullSaid := true })).queueEvent (reqQueue q) 1 0)
    else s.ringJob n (putJob (s.qdesc (reqQueue q)) q data) := by
  unfold State.enqueue
  dsimp only
  rw [if_neg (by simp [hr]), if_neg (by simp [hp, hf]; omega), if_neg (by simp [hl]), if_neg (by omega), if_neg (by simp [hz])] <;> rfl

end

/-! ### A job's steps -/

section
variable {n : Nat} {j : RingJob} {q : Pkt} {m : QMsg} (hw : j.why = .put q m)
include hw

theorem State.ringDone_put : s.ringDone n j = if j.status ≠ 0 then (s.dropJob n j.id).answer (qmFid n) q j.status
    else if j.void then (s.dropJob n j.id).answer (qmFid n) q 0
    else if j.step = 1 then s.ringGo n j true (metaAt (s.qdesc j.queue) (s.qdyn j.queue).tail) (leBytes 16 m.word)
    else ((s.dropJob n j.id).answer (qmFid n) q 0).ringEnter n j.queue m := by
  unfold State.ringDone
  dsimp only
  rw [hw]

end

/-! ### A message enters and leaves its queue -/

theorem State.qdyn_updQ (q x : Nat) (g : QDyn → QDyn) : (s.updQ q g).qdyn x = if x = q then g (s.qdyn q) else s.qdyn x := by
  rw [State.qdyn, State.updQ, SMap.get_upd]
  rfl

theorem State.qdyn_of_que (h : t.que = s.que) (x : Nat) : t.qdyn x = s.qdyn x := congrArg (fun m : SMap QDyn => SMap.get ({} : QDyn) m x) h

/-- What a notification does to the queues: it disarms its own one. -/
theorem State.pullNotify_qdyn (n q d : Nat) (e : Bool) : (∀ x, x ≠ q → (s.pullNotify n q d e).qdyn x = s.qdyn x) ∧
    ((s.pullNotify n q d e).qdyn q).msgs = (s.qdyn q).msgs ∧ ((s.pullNotify n q d e).qdyn q).tail = (s.qdyn q).tail ∧
    ((s.pullNotify n q d e).qdyn q).head = (s.qdyn q).head := by
  unfold State.pullNotify
  split
  · exact ⟨fun _ _ => rfl, rfl, rfl, rfl⟩
  · dsimp only
    have hsend (t : State) (g : Ni → Ni) (p : Pkt) (x : Nat) : ((t.updNi (qmFid n) g).send (qmFid n) p).qdyn x = t.qdyn x :=
      State.qdyn_of_que (State.send_que ..) x
    simp only [hsend, State.qdyn_updQ]
    exact ⟨fun x hx => if_neg hx, (congrArg QDyn.msgs (if_pos trivial) :), (congrArg QDyn.tail (if_pos trivial) :), (congrArg QDyn.head (if_pos trivial) :)⟩

theorem State.ringEnter_spec (n q : Nat) (m : QMsg) : ((s.ringEnter n q m).qdyn q).msgs = (s.qdyn q).msgs ++ [m] ∧
    ((s.ringEnter n q m).qdyn q).tail = ((s.qdyn q).tail + 1) % 2 ^ (qLog (s.qdesc q) + 1) ∧
    ((s.ringEnter n q m).qdyn q).head = (s.qdyn q).head ∧ ∀ x, x ≠ q → (s.ringEnter n q m).qdyn x = s.qdyn x := by
  have hcount (t : State) (i x : Nat) : (t.count (qmFid n) i).qdyn x = t.qdyn x := State.qdyn_of_que (State.count_que ..) x
  unfold State.ringEnter
  dsimp only
  obtain ⟨hother, hmsgs, htail, hhead⟩ := ((s.updQ q (fun x => { x with tail := ringAdd (s.qdesc q) x.tail 1, msgs := x.msgs ++ [m] })).count
    (qmFid n) 64).pullNotify_qdyn n q (s.qdesc q) (s.qdyn q).msgs.isEmpty
  rw [hmsgs, htail, hhead]
  refine ⟨?_, ?_, ?_, fun x hx => (hother x hx).trans ?_⟩ <;> rw [hcount, State.qdyn_updQ]
  · rw [if_pos rfl]
  · rw [if_pos rfl]; rfl
  · rw [if_pos rfl]
  · exact if_neg hx

section
variable {n : Nat} {q : Pkt} (hr : s.queueReset (reqQueue q) = false) (hm : qMode (s.qdesc (reqQueue q)) = 1)
  (hf : sliceFits (s.qdesc (reqQueue q)) q.slice.toNat = true) (hz : s.frozenOut (reqQueue q) q = false)
include hr hm hf hz

theorem State.dequeue_empty (he : (s.qdyn (reqQueue q)).msgs = []) :
    s.dequeue n q = (s.updQ (reqQueue q) (fun y => { y with armed := true })).answer (qmFid n) q 0 := by
  unfold State.dequeue
  dsimp only
  rw [if_neg (by simp [hr]), if_neg (by simp [hm, hf]), if_neg (by simp [hm]), if_neg (by simp [hz]), he]

theorem State.dequeue_first {m : QMsg} {ms : List QMsg} (he : (s.qdyn (reqQueue q)).msgs = m :: ms) :
    s.dequeue n q = s.ringJob n (deqJob (s.qdesc (reqQueue q)) (s.qdyn (reqQueue q)).head q m) := by
  unfold State.dequeue
  dsimp only
  rw [if_neg (by simp [hr]), if_neg (by simp [hm, hf]), if_neg (by simp [hm]), if_neg (by simp [hz]), he] <;> rfl

end

theorem State.deqAnswer_spec {n : Nat} {j : RingJob} (hv : j.void = false) (q : Pkt) :
    ((s.deqAnswer n j q).qdyn j.queue).msgs = (s.qdyn j.queue).msgs.drop 1 ∧
    ((s.deqAnswer n j q).qdyn j.queue).head = ((s.qdyn j.queue).head + 1) % 2 ^ (qLog (s.qdesc j.queue) + 1) ∧
    ((s.deqAnswer n j q).qdyn j.queue).tail = (s.qdyn j.queue).tail ∧ ∀ x, x ≠ j.queue → (s.deqAnswer n j q).qdyn x = s.qdyn x := by
  have hsent (t : State) (p : Pkt) (fl x : Nat) : (((t.count (qmFid n) 65).send (qmFid n) p).answer (qmFid n) q 0 fl).qdyn x = t.qdyn x :=
    State.qdyn_of_que ((State.answer_que ..).trans ((State.send_que ..).trans (State.count_que ..))) x
  have hdrop (x : Nat) : (s.dropJob n j.id).qdyn x = s.qdyn x := rfl
  unfold State.deqAnswer
  dsimp only
  rw [if_neg (by simp [hv])]
  simp only [hsent, State.qdyn_updQ, hdrop]
  exact ⟨(congrArg QDyn.msgs (if_pos trivial) :), (congrArg QDyn.head (if_pos trivial) :), (congrArg QDyn.tail (if_pos trivial) :), fun x hx => if_neg hx⟩

/-- Settles O40. -/
theorem queueRequestsAreServed : Obligations.QueueRequestsAreServed := by
  refine ⟨fun s n q hl hr hq hb hi => ⟨fun d ho hd => ?_, fun ho => ?_, fun ho => ?_, fun table ho => ?_⟩,
    fun s n table h => ⟨congrArg Host.Outcome.next (State.qmServe_idle h ..), congrArg Host.Outcome.next (State.qmServe_idle h ..),
      congrArg Host.Outcome.next (State.qmServe_idle h ..)⟩,
    fun s n q data hr hm hp hf hl hd hz => ⟨fun hfull hsaid => ?_, fun hfull => ?_⟩,
    fun s n j q m hw => ⟨fun hs => (State.ringDone_put hw).trans (if_pos hs), fun hs hv h1 => ?_, fun hs hv h2 => ?_⟩,
    fun s n q m => ⟨_, rfl, s.ringEnter_spec n q m⟩, fun s n q hr hm hf hz => ⟨fun he => ?_, fun m ms he => ?_⟩,
    fun s n j q hv => ⟨_, rfl, State.deqAnswer_spec hv q⟩⟩
  · obtain ⟨hc, hu⟩ := State.qmServe_served hl hr hq hb hi (.inl ho) (fun _ => by rw [hd]; rfl) fun p s =>
      (s.qmTake n p).enqueue n p ((s.enqData n p).getD { net := .dat })
    rw [ho] at hc hu
    rw [hd] at hc
    exact ⟨congrArg Host.Outcome.next hc, congrArg Host.Outcome.next hu⟩
  · obtain ⟨hc, hu⟩ := State.qmServe_served hl hr hq hb hi (.inr (.inr ho)) (fun h => absurd (ho.symm.trans h) (by decide)) fun p s =>
      (s.qmTake n p).doorbell n p
    rw [ho] at hc hu
    exact ⟨congrArg Host.Outcome.next hc, congrArg Host.Outcome.next hu⟩
  · obtain ⟨hc, hu⟩ := State.qmServe_served hl hr hq hb hi (.inr (.inl ho)) (fun h => absurd (ho.symm.trans h) (by decide)) fun p s =>
      (s.qmTake n p).dequeue n p
    rw [ho] at hc hu
    exact ⟨congrArg Host.Outcome.next hc, congrArg Host.Outcome.next hu⟩
  · exact congrArg Host.Outcome.next (State.qmServe_other hl hr (by simp [ho]) (by simp [ho]) (by simp [ho]) ..)
  · exact (State.enqueue_open hr hm hp hf hl hd hz).trans ((if_pos hfull).trans (if_pos hsaid))
  · rw [(State.enqueue_open hr hm hp hf hl hd hz).trans (if_neg (ne_true_of_eq_false hfull))]
    exact ⟨_, rfl, State.ringJob_rest .., _, State.jobs_ringJob .., rfl, rfl, rfl, rfl⟩
  · exact (State.ringDone_put hw).trans ((if_neg (not_not_intro hs)).trans ((if_neg (by simp [hv])).trans (if_pos h1)))
  · exact (State.ringDone_put hw).trans ((if_neg (not_not_intro hs)).trans ((if_neg (by simp [hv])).trans (if_neg (by omega))))
  · refine ⟨s.updQ (reqQueue q) (fun y => { y with armed := true }), State.dequeue_empty hr hm hf hz he, ?_, rfl⟩
    rw [State.qdyn_updQ, if_pos rfl]
  · rw [State.dequeue_first hr hm hf hz he]
    exact ⟨_, rfl, State.ringJob_rest .., _, State.jobs_ringJob .., rfl, rfl⟩

end Sys2Proof.Machine

namespace Sys2Proof.Machine
variable {s t : State}

/-! ### Selection and injection at a port -/

theorem execPortSelect_clean {n : Fin 4} {p : Fin 8} (hl : s.qmLive n = true) (hi : s.fc.inject = none) :
    execPortSelect n p .clean .clean s = .next ((s.portPick n p).portInject n p) := by
  have hc := State.tableCheck_of_no_inject hi (fidUnit (qmFid n)) 0
  unfold execPortSelect
  rw [if_neg (not_not_intro hl), hc]
  dsimp only
  rw [hc]

theorem execPortSelect_lost_gate {n : Fin 4} {p : Fin 8} (hl : s.qmLive n = true) (hi : s.fc.inject = none) :
    execPortSelect n p .clean .uncorrectable s = .next ((s.raiseNi (qmFid n) 2 2).fenceNi (qmFid n)) := by
  unfold execPortSelect
  rw [if_neg (not_not_intro hl), State.tableCheck_of_no_inject hi]
  dsimp only
  rw [State.tableCheck_uncorrectable _ rfl hi]
  rfl

theorem execPortSelect_lost_table {n : Fin 4} {p : Fin 8} (hl : s.qmLive n = true) (hi : s.fc.inject = none) (gate : WordErr) :
    execPortSelect n p .uncorrectable gate s = .next ((s.raiseNi (qmFid n) 2 2).fenceNi (qmFid n)) := by
  unfold execPortSelect
  rw [if_neg (not_not_intro hl), State.tableCheck_uncorrectable _ rfl hi]
  rfl

theorem State.portPick_no_tokens {n p : Nat} (h : (s.qport n p).bkt.avail s.tick ≤ 0) : s.portPick n p = s := if_pos (.inr (.inl h))

theorem State.portInject_nothing_staged {n p : Nat} (h : (s.qport n p).staged = []) : s.portInject n p = s := by
  have hnone : s.injectable n p = none := by
    unfold State.injectable
    rw [h]
    rfl
  refine if_pos (.inr fun hfind => ?_)
  have hsome := List.find?_some hfind
  rw [hnone] at hsome
  cases hsome

/-! ### The answer of a delivery -/

/-- The delivery in an entry ended: its entry, TXID and place in the stream are free, and its answer is taken. -/
def State.dlvEnded (s : State) (n : Nat) (i : Nat) (v : Dlv) (p : Pkt) : State :=
  ((((s.setNi (qmFid n) { s.nif (qmFid n) with inbox := (s.nif (qmFid n)).inbox.erase p }).updQm n (fun m => { m with dlv := SMap.set none m.dlv i none }))).freeTxid
    n v.txid).streamLeave (qmFid n) { net := .req, dst := v.cons }

/-- What the end of a delivery changes. -/
def State.DlvOnly (s t : State) : Prop := { t with ni := s.ni, qm := s.qm } = s

section
variable (h : s.DlvOnly t)
include h

theorem State.DlvOnly.setNi (f : Nat) (n : Ni) : s.DlvOnly (t.setNi f n) := h
theorem State.DlvOnly.updQm (n : Nat) (g : Qm → Qm) : s.DlvOnly (t.updQm n g) := h
theorem State.DlvOnly.freeTxid (n : Nat) (x : BitVec 12) : s.DlvOnly (t.freeTxid n x) := h
theorem State.DlvOnly.streamLeave (f : Nat) (p : Pkt) : s.DlvOnly (t.streamLeave f p) := iteInduction (fun _ => h) fun _ => h

end

theorem State.dlvEnded_rest (n i : Nat) (v : Dlv) (p : Pkt) : s.DlvOnly (s.dlvEnded n i v p) :=
  ((((State.DlvOnly.setNi (Eq.refl s) _ _).updQm _ _).freeTxid _ _).streamLeave _ _)

theorem State.dlvEnded_inbox (n i : Nat) (v : Dlv) (p : Pkt) :
    ((s.dlvEnded n i v p).nif (qmFid n)).inbox = (s.nif (qmFid n)).inbox.erase p := by
  have hleave (t : State) (q : Pkt) : ((t.streamLeave (qmFid n) q).nif (qmFid n)).inbox = (t.nif (qmFid n)).inbox := by
    unfold State.streamLeave
    split
    · rfl
    · rw [State.nif_updNi, if_pos rfl]
  have hfree (t : State) (x : BitVec 12) : ((t.freeTxid n x).nif (qmFid n)).inbox = (t.nif (qmFid n)).inbox := by
    rw [State.freeTxid, State.nif_updNi, if_pos rfl]
  have hqm (t : State) (g : Qm → Qm) : (t.updQm n g).nif (qmFid n) = t.nif (qmFid n) := rfl
  rw [State.dlvEnded, hleave, hfree, hqm, State.nif_setNi, if_pos rfl]

theorem State.dlvEnded_entry (n i : Nat) (v : Dlv) (p : Pkt) : SMap.get none ((s.dlvEnded n i v p).qmAt n).dlv i = none := by
  have hqm (t : State) (q : Pkt) (x : BitVec 12) : ((t.freeTxid n x).streamLeave (qmFid n) q).qmAt n = t.qmAt n := by
    unfold State.streamLeave
    split <;> rfl
  rw [State.dlvEnded, hqm, State.qmAt_updQm, SMap.get_set, if_pos rfl]

theorem execDeliveryComp_live {n : Fin 4} {p : Pkt} {v : Dlv} (hl : s.qmLive n = true) (hb : (s.nif (qmFid n)).inbox = [p]) (hp : p.net = .rsp)
    (hr : s.ringAnswers n p = false) (hv : SMap.get none (s.qmAt n).dlv (p.txid.toNat / 16) = some v) (ht : v.txid = p.txid) (hd : v.dead = none) :
    execDeliveryComp n s = if v.stale then .next (s.dlvEnded n (p.txid.toNat / 16) v p)
      else .next ((s.dlvEnded n (p.txid.toNat / 16) v p).delivered v p.status.toNat) := by
  have hfind : (s.nif (qmFid n)).inbox.find? (fun p => p.net == .rsp && !s.ringAnswers n p) = some p := by
    rw [hb]
    exact List.find?_cons_of_pos (by simp [hp, hr])
  have hv' (x : Ni) : SMap.get none ((s.setNi (qmFid n) x).qmAt n).dlv (p.txid.toNat / 16) = some v := hv
  unfold execDeliveryComp
  dsimp only
  rw [hfind]
  dsimp only
  rw [if_neg (not_not_intro hl), hv']
  dsimp only
  rw [if_neg (by simp [ht, hd])]
  rfl

theorem QDyn.atSlot_get {x : QDyn} {d slot i : Nat} {g : QMsg → QMsg} {m : QMsg} (hm : x.msgs[i]? = some m) (hs : x.slot d i = slot) :
    (x.atSlot d slot g).msgs[i]? = some (g m) := by
  unfold QDyn.atSlot
  dsimp only
  rw [List.getElem?_map, List.getElem?_zipIdx, hm]
  exact congrArg some (if_pos (by simpa using hs))

theorem State.delivered_retry {v : Dlv} {st : Nat} (h : st = 0xA ∨ st = 3) : s.delivered v st =
    s.updQ v.queue (fun x => x.atSlot (s.qdesc v.queue) v.slot (fun m => { m with
      out := false, retry := some (s.tick + max 1 (s.rf .QM_RETRY 0 16 (qmBase (qmOf v.queue)))) })) := by
  unfold State.delivered
  dsimp only
  rw [if_neg (by omega), if_pos h]

theorem State.postEvent_que (cnt src evq : Nat) (evv : Bool) (code queue arg : Nat) : (s.postEvent cnt src evq evv code queue arg).que = s.que := by
  unfold State.postEvent
  dsimp only
  exact iteInduction (motive := fun t : State => t.que = s.que) (fun _ => rfl) fun _ => rfl

theorem State.queueEvent_que (q code arg : Nat) : (s.queueEvent q code arg).que = s.que := by
  unfold State.queueEvent
  dsimp only
  exact iteInduction (motive := fun t : State => t.que = s.que) (fun _ => rfl) fun _ => State.postEvent_que ..

theorem State.delivered_paused {v : Dlv} {st : Nat} (h0 : st ≠ 0) (hf : st ≠ 0xA) (hs : st ≠ 3) :
    ((s.delivered v st).qdyn v.queue).paused = true ∧ ((s.delivered v st).qdyn v.queue).cause = st := by
  unfold State.delivered
  dsimp only
  rw [if_neg h0, if_neg (by omega), State.qdyn_of_que (State.queueEvent_que ..), State.qdyn_updQ, if_pos rfl]
  exact ⟨rfl, rfl⟩

/-! ### Repeats and RESUME -/

section
variable {queue : BitVec 16} {m : QMsg} {rest : List QMsg} {t0 : Nat} (hm : (s.qdyn queue.toNat).msgs = m :: rest) (hr : m.retry = some t0)
include hm hr

/-- The first message of a queue is to be delivered again. -/
def State.retried (s : State) (q : Nat) : State :=
  (((s.updQ q (fun x => { x with msgs := x.msgs.modify 0 (fun m => { m with retry := none }) })).bump .QM_RETRY_CNT (qmBase (qmOf q))).count
    (qmFid (qmOf q)) 67)

theorem execDeliveryRetry_due (hl : s.qmLive (qmOf queue.toNat) = true) (ht : t0 ≤ s.tick) :
    execDeliveryRetry queue s = .next (s.retried queue.toNat) := by
  unfold execDeliveryRetry
  dsimp only
  rw [hm, List.findIdx?_cons, hr]
  dsimp only
  rw [if_pos (decide_eq_true ht)]
  exact if_neg (not_not_intro hl)

theorem execDeliveryRetry_early (ht : s.tick < t0) (he : rest = []) : execDeliveryRetry queue s = .next s := by
  unfold execDeliveryRetry
  dsimp only
  rw [hm, he, List.findIdx?_cons, hr]
  dsimp only
  rw [if_neg (by simp; omega)]
  rfl

end

theorem State.retried_msgs {q : Nat} {m : QMsg} {rest : List QMsg} (hm : (s.qdyn q).msgs = m :: rest) :
    ((s.retried q).qdyn q).msgs = { m with retry := none } :: rest := by
  have hbump (t : State) : (t.bump .QM_RETRY_CNT (qmBase (qmOf q))).qdyn q = t.qdyn q := rfl
  rw [State.retried, State.qdyn_of_que (State.count_que ..), hbump, State.qdyn_updQ, if_pos rfl]
  dsimp only
  rw [hm]
  rfl

theorem State.retried_count (q : Nat) : (s.retried q).reg .QM_RETRY_CNT (qmBase (qmOf q)) =
    min (s.reg .QM_RETRY_CNT (qmBase (qmOf q)) + 1) 0xFFFFFFFF := by
  have hq : qmOf q < 4 := fld_lt ..
  have hbase : qmBase (qmOf q) ≤ 0xDC0000 := by unfold qmBase; omega
  have hspec : Reg.QM_RETRY_CNT.spec.off < 0x40000 := by decide
  have hlow : Reg.off .QM_RETRY_CNT (qmBase (qmOf q)) 0 < 0x1000000 := by unfold Reg.off; omega
  rw [State.retried, State.reg_count_low _ _ _ hlow, State.reg_bump_same]
  exact congrArg (fun w => min (w + 1) 0xFFFFFFFF) (State.reg_congr rfl rfl ..)

theorem State.retry_count_rest (h : { t with que := s.que, regs := s.regs, cyc := s.cyc, ctr := s.ctr } = s) (b i n : Nat) :
    { t.count b i n with que := s.que, regs := s.regs, cyc := s.cyc, ctr := s.ctr } = s :=
  (congrArg (fun u : State => { u with que := s.que, regs := s.regs, cyc := s.cyc, ctr := s.ctr }) (t.count_rest b i n) :).trans h

theorem State.retry_bump_rest (h : { t with que := s.que, regs := s.regs, cyc := s.cyc, ctr := s.ctr } = s) (r : Reg) (b i n : Nat) :
    { t.bump r b i n with que := s.que, regs := s.regs, cyc := s.cyc, ctr := s.ctr } = s := h

theorem State.retried_rest (q : Nat) : { s.retried q with que := s.que, regs := s.regs, cyc := s.cyc, ctr := s.ctr } = s :=
  State.retry_count_rest (State.retry_bump_rest (t := s.updQ q _) rfl ..) ..

/-- Settles O41. -/
theorem pushDeliveriesAreAnswered : Obligations.PushDeliveriesAreAnswered := by
  refine ⟨fun s n p hl hi => ⟨execPortSelect_clean (p := p) hl hi, execPortSelect_lost_gate (p := p) hl hi, fun gate => execPortSelect_lost_table (p := p) hl hi gate⟩,
    fun s n p hs ha => ⟨State.portPick_no_tokens ha, State.portInject_nothing_staged hs⟩,
    fun s n p v hl hb hp hr hv ht hd => ⟨s.dlvEnded n (p.txid.toNat / 16) v p, s.dlvEnded_rest .., ?_, ?_, fun hs => ?_, fun hs => ?_⟩,
    fun s v st h => ⟨_, (State.delivered_retry h).symm, rfl, fun i m hm hs => ?_⟩, fun s v st => State.delivered_paused,
    fun s queue m rest t0 hl hm hr => ⟨fun ht => ⟨_, execDeliveryRetry_due hm hr hl ht, State.retried_msgs hm, s.retried_count _, s.retried_rest _⟩,
      execDeliveryRetry_early hm hr⟩,
    fun s n => ⟨s.queueResume n, rfl, ?_, fun x hx => (State.qdyn_updQ ..).trans (if_neg hx), rfl⟩⟩
  · rw [State.dlvEnded_entry]
    rfl
  · rw [State.dlvEnded_inbox, hb]
    exact List.erase_cons_head ..
  · exact (execDeliveryComp_live hl hb hp hr hv ht hd).trans (if_neg (ne_true_of_eq_false hs))
  · exact (execDeliveryComp_live hl hb hp hr hv ht hd).trans (if_pos hs)
  · rw [State.qdyn_updQ, if_pos rfl]
    exact QDyn.atSlot_get hm hs
  · exact congrArg QDyn.paused ((State.qdyn_updQ ..).trans (if_pos rfl))

end Sys2Proof.Machine

namespace Sys2Proof.Machine

/-- A queue manager's entry holds the default value in front of another entry of the same key, whose port 0 gains 256 tokens in each refill. -/
def splitManager : State :=
  { ({} : State) with qm := [(0, {}), (0, { port := [(0, { bkt := { rate := 256, burst := 1 } })] })] }

theorem tokenRefill_splitManager : splitManager.tim.c % 1024 = 0 ∧ splitManager.refillAt ≠ splitManager.tick + 1 ∧
    (splitManager.qport 0 0).bkt = {} ∧
    (match execTokenRefill splitManager with | .next t => (t.qport 0 0).bkt.tokens | _ => 0) = 256 := by
  decide +kernel

/-- Refutes O42: a refill removes an entry that holds the default value, and one behind it under the same key then shows. -/
theorem not_tokenBuckets : ¬ Obligations.TokenBuckets := by
  intro h
  obtain ⟨hrefill, -⟩ := h
  obtain ⟨hc, hat, hport, htok⟩ := tokenRefill_splitManager
  obtain ⟨t, ht, -, -, hports, -⟩ := hrefill splitManager hc hat
  have heq := hports 0 0
  rw [show execTokenRefill splitManager = .next t from ht] at htok
  have htok : (t.qport 0 0).bkt.tokens = 256 := htok
  rw [hport, htok] at heq
  exact absurd (heq (by decide)) (by decide)

end Sys2Proof.Machine

namespace Sys2Proof.Machine
variable {s t : State}

/-! ### The start of a list -/

section
variable {base t : Int} {cycle : Nat}

theorem gateStart_base (h : t + 2000 ≤ base) : gateStart base cycle t = (base, 0) := if_pos h

/-- The first whole cycle at least 2 µs away. -/
theorem gateStart_cycle (hc : 0 < cycle) (h : base < t + 2000) : (gateStart base cycle t).1 = base + (gateStart base cycle t).2 * cycle ∧
    t + 2000 ≤ (gateStart base cycle t).1 ∧ (gateStart base cycle t).1 < t + 2000 + cycle := by
  have hc' : (0 : Int) < cycle := by omega
  have hstart : gateStart base cycle t = (base + (((t + 2000 - base + cycle - 1) / cycle).toNat : Nat) * cycle,
      ((t + 2000 - base + cycle - 1) / cycle).toNat) := (if_neg (by omega)).trans (if_neg (by omega))
  have hpos : 0 ≤ (t + 2000 - base + cycle - 1) / (cycle : Int) := Int.ediv_nonneg (by omega) (by omega)
  have hdiv := Int.mul_ediv_add_emod (t + 2000 - base + cycle - 1) cycle
  have hlo := Int.emod_nonneg (t + 2000 - base + cycle - 1) (Int.ne_of_gt hc')
  have hhi := Int.emod_lt_of_pos (t + 2000 - base + cycle - 1) hc'
  rw [Int.mul_comm] at hdiv
  rw [hstart, Int.toNat_of_nonneg hpos]
  exact ⟨rfl, by dsimp only; omega, by dsimp only; omega⟩

end

section
variable {n : Fin 4} {p : Fin 8}

theorem State.qport_updPort (n p : Nat) (g : QPort → QPort) : (s.updPort n p g).qport n p = g (s.qport n p) := by
  rw [State.qport, State.updPort, State.qmAt_updQm, SMap.get_upd, if_pos rfl]
  rfl

theorem execGateListStart_pending {g : GateList} {st : Int} (h : (s.qport n p).pend = some (g, st)) : execGateListStart n p s =
    if s.ns < st then .next s
    else .next (s.updPort n p (fun x => { x with
      op := g, opS := st, pend := none, entry := 0, ends := st + ((g.ents.head?.map (·.2)).getD 0 : Nat) })) := by
  unfold execGateListStart
  rw [h]

theorem execGateEntryChange_early (h : s.ns < (s.qport n p).ends) : execGateEntryChange n p s = .next s := if_pos (.inr h)

theorem execGateEntryChange_due (hne : (s.qport n p).op.ents ≠ []) (h : (s.qport n p).ends ≤ s.ns) (hp : (s.qport n p).pend = none) :
    execGateEntryChange n p s = .next (s.updPort n p (fun y => { y with
      entry := ((s.qport n p).entryNow s.ns).1, ends := ((s.qport n p).entryNow s.ns).2 })) := by
  have hx : { s.qport n p with pend := none } = s.qport n p := by rw [← hp]
  unfold execGateEntryChange
  dsimp only
  rw [if_neg (by simp [hne]; omega), hx]

end

/-! ### A sample period -/

theorem SMap.get_of_mem_wfFrom {m : SMap Nat} {lo : Nat} (hm : SMap.wfFrom 0 lo m = true) {kv : Nat × Nat} (h : kv ∈ m) : SMap.get 0 m kv.1 = kv.2 := by
  induction m generalizing lo with
  | nil => cases h
  | cons x m ih =>
    simp only [SMap.wfFrom, Bool.and_eq_true, decide_eq_true_eq] at hm
    rcases List.mem_cons.mp h with rfl | h
    · exact if_pos rfl
    · have hlt : x.1 < kv.1 := SMap.le_key_of_wfFrom hm.2 h
      exact (if_neg (Nat.ne_of_lt hlt)).trans (ih hm.2 h)

/-- The queues of a manager that are sampled. -/
def State.sampleVisits (s : State) (n : Nat) : List Nat :=
  ((s.qmList n s.epo.cur).filter (fun qd => qSample qd.2)).map (fun qd => 16384 * n + qd.1)

theorem State.qSample_of_mem_sampleVisits {n : Nat} (hn : n < 4) (hw : SMap.wf 0 s.tabs = true) {q : Nat} (h : q ∈ s.sampleVisits n) :
    qSample (s.qdesc q) = true := by
  obtain ⟨⟨i, d⟩, hi, rfl⟩ := List.mem_map.mp h
  obtain ⟨hi, hs⟩ := List.mem_filter.mp hi
  obtain ⟨kv, hkv, hsome⟩ := List.mem_filterMap.mp hi
  obtain ⟨⟨hkey, hlt⟩, heq⟩ := (Option.ite_none_right_eq_some.trans (and_congr_right fun _ => Option.some_inj)).mp hsome
  obtain ⟨rfl, rfl⟩ := Prod.mk.inj heq
  have hof : qmOf (16384 * n + kv.1 % 65536) = n := by
    unfold qmOf fld
    omega
  have hidx : (16384 * n + kv.1 % 65536) % 16384 = kv.1 % 65536 := by omega
  have hk : tabKey (bankOf s.epo.cur) 6 (qmFid n) 0 (kv.1 % 65536) = kv.1 := by
    unfold tabKey
    omega
  unfold State.qdesc State.qdescIn State.tab
  rw [hof, hidx, hk, SMap.get_of_mem_wfFrom hw hkv]
  exact hs

/-- A new sample period: the queues that were not visited are counted as skipped. -/
def State.sampleOpened (s : State) (n : Nat) : State :=
  (if (s.qmAt n).visit.isEmpty then s else s.bump .QM_SAMPLE_SKIP (qmBase n) 0 (s.qmAt n).visit.length).updQm n (fun m =>
    { m with opened := some s.ns, visit := s.sampleVisits n, wrote := 0 })

theorem execSamplePeriodOpen_due {n : Fin 4} (hs : s.sampling n = true) (hp : s.ns % s.samplePeriod n = 0) (ho : (s.qmAt n).opened ≠ some s.ns) :
    execSamplePeriodOpen n s = .next ((s.sampleOpened n).sampleRecord n
      (nsOf s.ns + secOf s.ns % 2 ^ 48 * 2 ^ 32 + (s.qmAt n).wrote % 2 ^ 16 * 2 ^ 80 + 2 ^ 126)) := by
  unfold execSamplePeriodOpen State.sampleOpened
  dsimp only
  rw [if_neg (fun h => h.elim (· hs) fun h => h.elim (· hp) ho)]
  split <;> rfl

theorem State.qmAt_sampleOpened (n : Nat) : (s.sampleOpened n).qmAt n =
    { s.qmAt n with opened := some s.ns, visit := s.sampleVisits n, wrote := 0 } := by
  rw [State.sampleOpened, State.qmAt_updQm]
  split <;> rfl

theorem State.qmRegs_updQm (h : { t with qm := s.qm, regs := s.regs, cyc := s.cyc } = s) (n : Nat) (g : Qm → Qm) :
    { t.updQm n g with qm := s.qm, regs := s.regs, cyc := s.cyc } = s := h

theorem State.sampleOpened_rest (n : Nat) : { s.sampleOpened n with qm := s.qm, regs := s.regs, cyc := s.cyc } = s := by
  refine State.qmRegs_updQm ?_ _ _
  split <;> rfl

/-- Settles O43. -/
theorem gatesAndSamplePeriods : Obligations.GatesAndSamplePeriods := by
  refine ⟨fun base t cycle hc => ⟨gateStart_base, gateStart_cycle hc⟩,
    fun s n p g st h => ⟨fun ht => (execGateListStart_pending h).trans (if_pos ht), fun ht =>
      ⟨_, (execGateListStart_pending h).trans (if_neg (Int.not_lt.mpr ht)), ?_⟩⟩,
    fun s n p hne => ⟨execGateEntryChange_early, fun ht hp => ⟨_, execGateEntryChange_due hne ht hp, ?_, rfl⟩⟩,
    fun s n hs hp ho => ⟨s.sampleOpened n, execSamplePeriodOpen_due hs hp ho, ?_, ?_, fun hw q hq => ?_, s.sampleOpened_rest n⟩,
    fun s n hs => if_pos (.inl (ne_true_of_eq_false hs))⟩
  · rw [State.qport_updPort]
    exact ⟨rfl, rfl, rfl, rfl, rfl⟩
  · rw [State.qport_updPort]
  · rw [State.qmAt_sampleOpened]
  · rw [State.qmAt_sampleOpened]
  · rw [State.qmAt_sampleOpened] at hq
    exact State.qSample_of_mem_sampleVisits n.isLt hw hq

end Sys2Proof.Machine

namespace Sys2Proof.Machine
variable {s t u : State} {k i : Nat} {y : Thr}

/-! ### One thread of a cluster changes -/

theorem State.cl_setCl (s : State) (k m : Nat) (c : Ecl) : (s.setCl k c).cl m = if m = k then c else s.cl m := SMap.get_set ..

theorem State.thr_updThr (s : State) (k i m : Nat) (g : Thr → Thr) :
    (s.updThr k i g).thr k m = if m = i then g (s.thr k i) else s.thr k m := by
  unfold State.updThr State.setThr State.updCl State.thr
  rw [State.cl_setCl, if_pos rfl, SMap.get_set]

/-- A state with what an instruction of an engine may change as it stands in another. -/
def State.engReset (s u : State) : State := { u with ecl := s.ecl, regs := s.regs, cyc := s.cyc, ctr := s.ctr, free := s.free }

/-- Only thread `i` of cluster `k`, which now is `y`, has changed: of the other threads at most the count of ECLK in which
they were passed over, of the cluster neither requests nor receive rings. -/
structure State.EngAt (s : State) (k i : Nat) (y : Thr) (u : State) : Prop where
  rest : s.engReset u = s
  others : ∀ m, m ≠ k → u.cl m = s.cl m
  thr : u.thr k i = y
  threads : ∀ m, m ≠ i → { u.thr k m with skips := (s.thr k m).skips } = s.thr k m
  reqs : (u.cl k).reqs = (s.cl k).reqs
  ring : (u.cl k).ring = (s.cl k).ring

theorem State.EngAt.refl (s : State) (k i : Nat) : s.EngAt k i (s.thr k i) s :=
  ⟨rfl, fun _ _ => rfl, rfl, fun _ _ => rfl, rfl, rfl⟩

section
variable (h : s.EngAt k i y u)
include h

theorem State.EngAt.eclk : u.eclk = s.eclk := (congrArg State.eclk h.rest :)
theorem State.EngAt.ns : u.ns = s.ns := (congrArg State.ns h.rest :)
theorem State.EngAt.epo : u.epo = s.epo := (congrArg State.epo h.rest :)

/-- A step that leaves the clusters as they are and changes nothing else than an instruction may. -/
theorem State.EngAt.sameCl {v : State} (hv : u.engReset v = u) (he : v.ecl = u.ecl) : s.EngAt k i y v := by
  have hc (m : Nat) : v.cl m = u.cl m := congrArg (fun e => SMap.get ({} : Ecl) e m) he
  have ht (m : Nat) : v.thr k m = u.thr k m := congrArg (fun c => SMap.get ({} : Thr) (Ecl.thr c) m) (hc k)
  refine ⟨(congrArg s.engReset hv).trans h.rest, fun m hm => (hc m).trans (h.others m hm), (ht i).trans h.thr, fun m hm => ?_,
    (congrArg Ecl.reqs (hc k)).trans h.reqs, (congrArg Ecl.ring (hc k)).trans h.ring⟩
  rw [ht]
  exact h.threads m hm

theorem State.EngAt.bump (r : Reg) (b j n : Nat) : s.EngAt k i y (u.bump r b j n) := h.sameCl rfl rfl

theorem State.EngAt.draw : s.EngAt k i y u.draw := h.sameCl rfl rfl

theorem State.EngAt.count (b j n : Nat) : s.EngAt k i y (u.count b j n) :=
  h.sameCl (by have := congrArg u.engReset (u.count_rest b j n); exact this) (u.count_ecl b j n)

theorem State.EngAt.countSlice (sl j n : Nat) : s.EngAt k i y (u.countSlice sl j n) := h.count ..

theorem State.EngAt.countTrap : s.EngAt k i y (u.countTrap k i) := (h.bump ..).count ..

/-- The cluster keeps its threads, requests and receive rings. -/
theorem State.EngAt.setCl {c : Ecl} (ht : c.thr = (u.cl k).thr) (hq : c.reqs = (u.cl k).reqs) (hr : c.ring = (u.cl k).ring) :
    s.EngAt k i y (u.setCl k c) := by
  have hc : (u.setCl k c).cl k = c := (State.cl_setCl ..).trans (if_pos rfl)
  have hth (m : Nat) : (u.setCl k c).thr k m = u.thr k m := congrArg (fun e => SMap.get ({} : Thr) e m) ((congrArg Ecl.thr hc).trans ht)
  refine ⟨h.rest, fun m hm => ((State.cl_setCl ..).trans (if_neg hm)).trans (h.others m hm), (hth i).trans h.thr, fun m hm => ?_,
    (congrArg Ecl.reqs hc).trans (hq.trans h.reqs), (congrArg Ecl.ring hc).trans (hr.trans h.ring)⟩
  rw [hth]
  exact h.threads m hm

/-- A thread of the cluster changes: this one, or of another one the count of ECLK in which it was passed over. -/
theorem State.EngAt.setThreads {m : Nat} {g : Thr → Thr} {z : Thr} (hz : (if i = m then g (u.thr k m) else u.thr k i) = z)
    (hm : m ≠ i → { g (u.thr k m) with skips := (s.thr k m).skips } = s.thr k m) : s.EngAt k i z (u.updThr k m g) := by
  have hc : (u.updThr k m g).cl k = { u.cl k with thr := SMap.set {} (u.cl k).thr m (g (u.thr k m)) } :=
    (State.cl_setCl ..).trans (if_pos rfl)
  refine ⟨h.rest, fun n hn => ((State.cl_setCl ..).trans (if_neg hn)).trans (h.others n hn),
    (u.thr_updThr k m i g).trans hz, fun n hn => ?_, (congrArg Ecl.reqs hc).trans h.reqs,
    (congrArg Ecl.ring hc).trans h.ring⟩
  rw [State.thr_updThr]
  split
  case isTrue heq => exact heq ▸ hm (heq ▸ hn)
  case isFalse => exact h.threads n hn

theorem State.EngAt.updThr (g : Thr → Thr) : s.EngAt k i (g y) (u.updThr k i g) :=
  h.setThreads ((if_pos rfl).trans (congrArg g h.thr)) fun hn => absurd rfl hn

theorem State.EngAt.setThr (z : Thr) : s.EngAt k i z (u.setThr k i z) := h.updThr fun _ => z

/-- Another thread is passed over. -/
theorem State.EngAt.skip {m : Nat} (hm : m ≠ i) (n : Nat) :
    s.EngAt k i y (u.updThr k m (fun x => if x.st = .ready then { x with skips := min (x.skips + 1) n } else x)) :=
  h.setThreads ((if_neg (Ne.symm hm)).trans h.thr) fun _ => by
    dsimp only
    split
    · exact h.threads m hm
    · exact h.threads m hm

theorem State.EngAt.skips {l : List Nat} (hl : i ∉ l) :
    s.EngAt k i y (l.foldl (fun s m => s.updThr k m (fun x => if x.st = .ready then { x with skips := min (x.skips + 1) 0xFFF } else x)) u) := by
  induction l generalizing u with
  | nil => exact h
  | cons m l ih => exact ih (h.skip (fun e => hl (e ▸ List.mem_cons_self)) _) fun hi => hl (List.mem_cons_of_mem m hi)

theorem State.EngAt.sampleWait (n lat : Nat) : s.EngAt k i y (u.sampleWait k i n lat) := by
  unfold State.sampleWait State.updCl
  dsimp only
  split
  · split
    · split
      · exact h.setCl rfl rfl rfl
      · exact h.setCl rfl rfl rfl
    · exact h.setCl rfl rfl rfl
  · exact h.setCl rfl rfl rfl

theorem State.EngAt.sampleTrap : s.EngAt k i y (u.sampleTrap k i) := by
  unfold State.sampleTrap State.updCl
  dsimp only
  split
  · split
    · exact h.setCl rfl rfl rfl
    · exact h.setCl rfl rfl rfl
  · exact h.setCl rfl rfl rfl

theorem State.EngAt.sampleIssue (x : Thr) (w : Nat) (ea : Word64) (split : Bool) :
    s.EngAt k i y (u.sampleIssue k i x w ea split) := by
  unfold State.sampleIssue
  refine iteInduction (fun _ => h) fun _ => ?_
  dsimp only
  refine iteInduction (fun _ => h.setCl rfl rfl rfl) fun _ => ?_
  by_cases hb : u.rf .ENG_SAMP_CFG 16 1 (eclBase k) = 1
  · rw [if_pos hb]
    dsimp only
    have hd (c : Ecl) (hc : c.thr = (u.cl k).thr) : c.reqs = (u.cl k).reqs → c.ring = (u.cl k).ring → s.EngAt k i y (u.draw.setCl k c) :=
      h.draw.setCl hc
    split
    · refine State.EngAt.bump (hd _ ?_ ?_ ?_) .. <;> rfl
    · refine hd _ ?_ ?_ ?_ <;> rfl
  · rw [if_neg hb]
    dsimp only
    split
    · refine State.EngAt.bump (h.setCl ?_ ?_ ?_) .. <;> rfl
    · refine h.setCl ?_ ?_ ?_ <;> rfl

end

theorem not_mem_takeWhile_ne (i : Nat) (l : List Nat) : i ∉ l.takeWhile (· != i) := fun hm => by
  have := List.all_eq_true.1 List.all_takeWhile i hm
  simp at this

theorem State.issued_engAt (s : State) (k i : Nat) : s.EngAt k i { s.thr k i with skips := 0 } (s.issued k i) := by
  have hs := (State.EngAt.refl s k i).skips (not_mem_takeWhile_ne i (s.lookOrder k (i / 8)))
  unfold State.issued
  dsimp only
  unfold State.updCl
  refine State.EngAt.countSlice (State.EngAt.count (State.EngAt.bump (State.EngAt.updThr (y := s.thr k i) ?_ fun x => { x with skips := 0 }) ..) ..) ..
  exact hs.setCl rfl rfl rfl

/-! ### An instruction issues -/

/-- The state in which an instruction that issues does its work (R263, R290). -/
def State.atIssue (s : State) (t : Fin 1536) (op : TOp) (w : Nat) : State :=
  (s.issued (t.val / 32) (t.val % 32)).sampleIssue (t.val / 32) (t.val % 32) (s.thrOf t) w (eaOf op (s.thrOf t) w) (splitOf op (s.thrOf t) w)

theorem State.atIssue_engAt (s : State) (t : Fin 1536) (op : TOp) (w : Nat) :
    s.EngAt (t.val / 32) (t.val % 32) { s.thrOf t with skips := 0 } (s.atIssue t op w) :=
  (s.issued_engAt _ _).sampleIssue ..

theorem State.instr_of_issues {t : Fin 1536} {op : TOp} {w : Nat} (h : s.issues t op w) (body : Nat → Nat → Thr → Nat → State → State) :
    s.instr t op .clean body = .next ((body (t.val / 32) (t.val % 32) (s.thrOf t) w (s.atIssue t op w)).sampleWait (t.val / 32)
      (t.val % 32) ((s.atIssue t op w).cl (t.val / 32)).serial (latency op)) := by
  obtain ⟨hlive, hiss, hw, hop, hinj⟩ := h
  have hw' : s.ecode (t.val / 32) (s.thr (t.val / 32) (t.val % 32)).tep (s.thr (t.val / 32) (t.val % 32)).pc = w := hw
  unfold State.instr
  dsimp only
  rw [hw', if_neg (by simp [hlive, hiss, hop]), State.checkWord_of_no_inject hinj]
  dsimp only
  rw [if_neg (by simp [hop])]
  rfl

/-- An instruction that changes its own thread only. -/
theorem State.instr_runs {t : Fin 1536} {op : TOp} {w : Nat} (h : s.issues t op w) {body : Nat → Nat → Thr → Nat → State → State}
    {z : Thr} (hb : ∀ v : State, s.EngAt (t.val / 32) (t.val % 32) { s.thrOf t with skips := 0 } v →
      s.EngAt (t.val / 32) (t.val % 32) z (body (t.val / 32) (t.val % 32) (s.thrOf t) w v)) :
    ∃ u, s.instr t op .clean body = .next u ∧ u.thrOf t = z ∧ s.onlyThread t u := by
  have hu := (hb _ (s.atIssue_engAt t op w)).sampleWait ((s.atIssue t op w).cl (t.val / 32)).serial (latency op)
  exact ⟨_, State.instr_of_issues h body, hu.thr, hu.rest, hu.others, hu.threads, hu.reqs, hu.ring⟩

theorem Thr.put_skips (x : Thr) (r n : Nat) (v : Word64) (a : Nat) :
    ({ x with skips := n } : Thr).put r v a = { x.put r v a with skips := n } := by
  unfold Thr.put
  split <;> rfl

/-- An instruction that writes D and goes on. -/
theorem State.EngAt.result {x : Thr} {n : Nat} (h : s.EngAt k i { x with skips := n } u) (d lat : Nat) (v : Word64) :
    s.EngAt k i { x.step.put d v (s.eclk + lat) with skips := n } (u.result k i d lat v) := by
  have hr := h.updThr (fun x => x.step.put d v (u.eclk + lat))
  rw [h.eclk] at hr
  unfold State.result
  rw [h.eclk, ← x.step.put_skips d n v (s.eclk + lat)]
  exact hr

theorem State.instr_result {t : Fin 1536} {op : TOp} {w : Nat} (h : s.issues t op w) {body : Nat → Nat → Thr → Nat → State → State}
    {lat : Nat} {v : Word64} (hb : ∀ u, body (t.val / 32) (t.val % 32) (s.thrOf t) w u = u.result (t.val / 32) (t.val % 32) (opD w) lat v) :
    ∃ u, s.instr t op .clean body = .next u ∧
      u.thrOf t = { (s.thrOf t).step.put (opD w) v (s.eclk + lat) with skips := 0 } ∧ s.onlyThread t u :=
  State.instr_runs h fun u hu => hb u ▸ hu.result (opD w) lat v

theorem State.alu_result {t : Fin 1536} {fn w lat : Nat} {f : Word64 → Word64 → Word64} {v : Word64} {c : Instr} (h : s.issues t (.alu fn) w)
    (hc : exec c s = s.alu t fn .clean f)
    (hl : latency (.alu fn) = lat) (hv : f ((s.thrOf t).reg (opA w)) ((s.thrOf t).reg (opB w)) = v) : ∃ u, exec c s = .next u ∧
      u.thrOf t = { (s.thrOf t).step.put (opD w) v (s.eclk + lat) with skips := 0 } ∧ s.onlyThread t u :=
  hc ▸ State.instr_result h fun _ => by rw [← hv, ← hl]

theorem State.aluImm_result {t : Fin 1536} {op : TOp} {w : Nat} {f : Word64 → Nat → Word64} {v : Word64} {c : Instr} (h : s.issues t op w)
    (hc : exec c s = s.aluImm t op .clean f)
    (hv : f ((s.thrOf t).reg (opA w)) (opImm w) = v) : ∃ u, exec c s = .next u ∧
      u.thrOf t = { (s.thrOf t).step.put (opD w) v (s.eclk + 4) with skips := 0 } ∧ s.onlyThread t u :=
  hc ▸ State.instr_result h fun _ => by rw [← hv]

theorem State.divide_result {t : Fin 1536} {fn w : Nat} {f z : Word64 → Word64 → Word64} {g : Word64 → Word64 → Word64}
    {g0 : Word64 → Word64} {c : Instr} (h : s.issues t (.alu fn) w)
    (hc : exec c s = s.divide t fn .clean g g0) (hg : ∀ a b, b ≠ 0 → g a b = f a b) (hz : ∀ a, g0 a = z a 0) :
    let x := s.thrOf t
    let a := x.reg (opA w)
    let b := x.reg (opB w)
    ∃ u, exec c s = .next u ∧ u.thrOf t = { ({ x with dz := x.dz || b == 0 } : Thr).step.put (opD w)
      (if b = 0 then z a b else f a b) (s.eclk + 36) with skips := 0 } ∧ s.onlyThread t u := by
  rw [hc]
  refine State.instr_runs h fun u hu => ?_
  dsimp only
  by_cases hb : (s.thrOf t).reg (opB w) = 0
  · have hd := hu.updThr (fun y => { y with dz := true })
    have hr := State.EngAt.result (x := { s.thrOf t with dz := true }) (n := 0) hd (opD w) 36 (g0 ((s.thrOf t).reg (opA w)))
    rw [if_pos hb, if_pos hb, hb, beq_self_eq_true, Bool.or_true, ← hz]
    exact hr
  · rw [if_neg hb, if_neg hb, beq_eq_false_iff_ne.2 hb, Bool.or_false, ← hg _ _ hb]
    exact hu.result ..

/-! ### Words -/

theorem mulhi_eq (a b : Word64) :
    BitVec.ofInt 64 (a.toInt * b.toInt / 2 ^ 64) = (a.signExtend 128 * b.signExtend 128).extractLsb' 64 64 := by
  have hp : a.signExtend 128 * b.signExtend 128 = BitVec.ofInt 128 (a.toInt * b.toInt) := by
    rw [BitVec.ofInt_mul]
    rfl
  rw [hp]
  generalize a.toInt * b.toInt = p
  apply BitVec.eq_of_toNat_eq
  rw [BitVec.extractLsb'_toNat, BitVec.toNat_ofInt, BitVec.toNat_ofInt, Nat.shiftRight_eq_div_pow]
  omega

theorem mulhiu_eq (a b : Word64) :
    BitVec.ofNat 64 (a.toNat * b.toNat / 2 ^ 64) = (a.zeroExtend 128 * b.zeroExtend 128).extractLsb' 64 64 := by
  have := Nat.mul_lt_mul'' a.isLt b.isLt
  apply BitVec.eq_of_toNat_eq
  simp [BitVec.toNat_mul, Nat.shiftRight_eq_div_pow]
  omega

theorem quo_eq (a b : Word64) : BitVec.ofInt 64 (a.toInt.tdiv b.toInt) = a.sdiv b := by
  apply BitVec.eq_of_toInt_eq
  rw [BitVec.toInt_sdiv, BitVec.toInt_ofInt]

theorem mod_eq (a b : Word64) : BitVec.ofInt 64 (a.toInt.tmod b.toInt) = a.srem b := by
  rw [← BitVec.toInt_srem, BitVec.ofInt_toInt]

theorem quou_eq (a b : Word64) : BitVec.ofNat 64 (a.toNat / b.toNat) = a / b := by
  rw [← BitVec.toNat_udiv, BitVec.ofNat_toNat, BitVec.setWidth_eq]

theorem modu_eq (a b : Word64) : BitVec.ofNat 64 (a.toNat % b.toNat) = a % b := by
  rw [← BitVec.toNat_umod, BitVec.ofNat_toNat, BitVec.setWidth_eq]

theorem toNat_and_63 (b : Word64) : (b &&& 63).toNat = b.toNat % 64 := by
  rw [BitVec.toNat_and]
  exact Nat.and_two_pow_sub_one_eq_mod _ 6

theorem sext16_eq (w : Nat) : sext16 (opImm w) = (BitVec.ofNat 16 (opImm w)).signExtend 64 := by
  have : opImm w < 2 ^ 16 := Nat.mod_lt _ (by decide)
  have hi : (BitVec.ofNat 16 (opImm w)).toInt = signedFld 16 (opImm w) := by
    rw [BitVec.toInt_eq_toNat_cond, BitVec.toNat_ofNat, Nat.mod_eq_of_lt this]
    unfold signedFld
    split <;> split <;> omega
  exact congrArg (BitVec.ofInt 64) hi.symm

/-! ### The integer instructions -/

/-- Settles O44: an instruction that issues changes its own thread only, and each arithmetic of the model is that of `BitVec`. -/
theorem engineArithmetic : Obligations.EngineArithmetic := by
  unfold Obligations.EngineArithmetic
  intro s t
  dsimp only
  refine ⟨?add, ?sub, ?mullo, ?mulhi, ?mulhiu, ?quo, ?quou, ?mod, ?modu, ?and, ?ior, ?xor, ?shl, ?shr, ?shra, ?cmplt, ?cmpltu,
    ?addk, ?andk, ?iork, ?xork, ?cmpltk, ?sethi, ?shkShl, ?shkShr, ?shkShra⟩ <;> intro w h
  case add | sub | mullo | and | ior | xor => exact State.alu_result h rfl rfl rfl
  case mulhi => exact State.alu_result (f := fun a b => BitVec.ofInt 64 (a.toInt * b.toInt / 2 ^ 64)) h rfl rfl (mulhi_eq ..)
  case mulhiu => exact State.alu_result (f := fun a b => BitVec.ofNat 64 (a.toNat * b.toNat / 2 ^ 64)) h rfl rfl (mulhiu_eq ..)
  case quo =>
    exact State.divide_result (g := fun a b => BitVec.ofInt 64 (a.toInt.tdiv b.toInt)) (g0 := fun _ => 0) (f := BitVec.sdiv) (z := fun _ _ => 0) h rfl
      (fun a b _ => quo_eq a b) fun _ => rfl
  case quou =>
    exact State.divide_result (g := fun a b => BitVec.ofNat 64 (a.toNat / b.toNat)) (g0 := fun _ => 0) (f := (· / ·)) (z := fun _ _ => 0) h rfl
      (fun a b _ => quou_eq a b) fun _ => rfl
  case mod =>
    exact State.divide_result (g := fun a b => BitVec.ofInt 64 (a.toInt.tmod b.toInt)) (g0 := fun a => a) (f := BitVec.srem) (z := fun a _ => a) h rfl
      (fun a b _ => mod_eq a b) fun _ => rfl
  case modu =>
    exact State.divide_result (g := fun a b => BitVec.ofNat 64 (a.toNat % b.toNat)) (g0 := fun a => a) (f := (· % ·)) (z := fun a _ => a) h rfl
      (fun a b _ => modu_eq a b) fun _ => rfl
  case shl => exact State.alu_result (f := fun a b => a <<< (b.toNat % 64)) h rfl rfl (congrArg (_ <<< ·) (toNat_and_63 _).symm)
  case shr => exact State.alu_result (f := fun a b => a >>> (b.toNat % 64)) h rfl rfl (congrArg (_ >>> ·) (toNat_and_63 _).symm)
  case shra =>
    exact State.alu_result (f := fun a b => a.sshiftRight (b.toNat % 64)) h rfl rfl
      (congrArg (BitVec.sshiftRight _) (toNat_and_63 _).symm)
  case cmplt =>
    exact State.alu_result (f := fun a b => if a.slt b then 1 else 0) h rfl rfl (by simp only [BitVec.slt_iff_toInt_lt])
  case cmpltu => exact State.alu_result (f := fun a b => if a.ult b then 1 else 0) h rfl rfl (by simp only [BitVec.ult_iff_lt])
  case addk => exact State.aluImm_result (f := fun a v => a + sext16 v) h rfl (by rw [sext16_eq])
  case andk => exact State.aluImm_result (f := fun a v => a &&& BitVec.ofNat 64 v) h rfl rfl
  case iork => exact State.aluImm_result (f := fun a v => a ||| BitVec.ofNat 64 v) h rfl rfl
  case xork => exact State.aluImm_result (f := fun a v => a ^^^ BitVec.ofNat 64 v) h rfl rfl
  case shkShl => exact State.aluImm_result (f := fun a v => a <<< (v % 64)) h rfl rfl
  case shkShr => exact State.aluImm_result (f := fun a v => a >>> (v % 64)) h rfl rfl
  case shkShra => exact State.aluImm_result (f := fun a v => a.sshiftRight (v % 64)) h rfl rfl
  case cmpltk =>
    exact State.aluImm_result (f := fun a v => if a.slt (sext16 v) then 1 else 0) h rfl
      (by simp only [BitVec.slt_iff_toInt_lt, sext16_eq])
  case sethi => exact State.aluImm_result (f := fun _ v => sext16 v <<< 16) h rfl (by rw [sext16_eq])

end Sys2Proof.Machine

namespace Sys2Proof.Machine
variable {s t u : State} {k i : Nat} {y : Thr}

/-! ### Branches, calls and the time instructions of the engines -/

theorem State.EngAt.jump (h : s.EngAt k i y u) (pc : Int) :
    s.EngAt k i { y with pc := (pc % 16384).toNat, from_ := s.eclk + 4, parked := false } (u.jump k i pc) := by
  unfold State.jump
  rw [h.eclk]
  exact h.updThr fun x => { x with pc := (pc % 16384).toNat, from_ := s.eclk + 4, parked := false }

theorem State.EngAt.rdtim (h : s.EngAt k i y u) : u.rdtim = s.rdtim := by rw [State.rdtim, State.rdtim, h.ns]

theorem State.branch_runs {t : Fin 1536} {n w : Nat} {f g : Word64 → Word64 → Bool} {c : Instr} (h : s.issues t (.branch n) w)
    (hc : exec c s = s.branch t n .clean f) (hf : ∀ a b, f a b = g a b) :
    let x := s.thrOf t
    ∃ u, exec c s = .next u ∧ u.thrOf t = { (if g (x.reg (opD w)) (x.reg (opA w)) then
      ({ x with pc := ((x.pc + opSimm w) % 16384).toNat, from_ := s.eclk + 4, parked := false } : Thr) else x.step) with skips := 0 } ∧
      s.onlyThread t u := by
  rw [hc]
  refine State.instr_runs h fun u hu => ?_
  dsimp only
  rw [hf]
  split
  · exact hu.jump _
  · exact hu.updThr Thr.step

theorem State.call_runs {t : Fin 1536} {w : Nat} (h : s.issues t .call w) :
    let x := s.thrOf t
    ∃ u, exec (.call t .clean) s = .next u ∧ u.thrOf t = { ({ x.put 31 (BitVec.ofNat 64 ((x.pc + 1) % 16384)) (s.eclk + 4) with
      pc := ((x.pc + opOff26 w) % 16384).toNat, from_ := s.eclk + 4, parked := false } : Thr) with skips := 0 } ∧ s.onlyThread t u := by
  intro x
  change ∃ u, execCall t .clean s = .next u ∧ _
  unfold execCall
  refine State.instr_runs h fun u hu => ?_
  dsimp only
  have hj := (hu.updThr fun y => y.put 31 (BitVec.ofNat 64 ((x.pc + 1) % 16384)) (s.eclk + 4)).jump (x.pc + opOff26 w)
  rw [hu.eclk]
  rw [Thr.put_skips] at hj
  exact hj

theorem State.callr_runs {t : Fin 1536} {w : Nat} (h : s.issues t .callr w) :
    let x := s.thrOf t
    ∃ u, exec (.callr t .clean) s = .next u ∧ u.thrOf t = { ({ x.put (opD w) (BitVec.ofNat 64 ((x.pc + 1) % 16384)) (s.eclk + 4) with
      pc := (((x.reg (opA w)).toNat + opSimm w) % 16384).toNat, from_ := s.eclk + 4, parked := false } : Thr) with skips := 0 } ∧
      s.onlyThread t u := by
  intro x
  change ∃ u, execCallr t .clean s = .next u ∧ _
  unfold execCallr
  refine State.instr_runs h fun u hu => ?_
  dsimp only
  have hj := (hu.updThr fun y => y.put (opD w) (BitVec.ofNat 64 ((x.pc + 1) % 16384)) (s.eclk + 4)).jump ((x.reg (opA w)).toNat + opSimm w)
  rw [hu.eclk]
  rw [Thr.put_skips] at hj
  exact hj

theorem State.rett_runs {t : Fin 1536} {w : Nat} (h : s.issues t .rett w) :
    let x := s.thrOf t
    ∃ u, exec (.rett t .clean) s = .next u ∧ u.thrOf t = { ({ x with
      ie := x.pie, intrap := false, pc := x.epc % 16384, from_ := s.eclk + 4, parked := false } : Thr) with skips := 0 } ∧
      s.onlyThread t u := by
  intro x
  change ∃ u, execRett t .clean s = .next u ∧ _
  unfold execRett
  have he : ((x.epc : Int) % 16384).toNat = x.epc % 16384 := by omega
  rw [← he]
  exact State.instr_runs h fun _ hu => (hu.updThr fun y => { y with ie := y.pie, intrap := false }).jump x.epc

theorem State.sync_runs {t : Fin 1536} {w : Nat} (h : s.issues t .sync w) :
    ∃ u, exec (.sync t .clean) s = .next u ∧ u.thrOf t = { (s.thrOf t).step with skips := 0 } ∧ s.onlyThread t u := by
  change ∃ u, execSync t .clean s = .next u ∧ _
  unfold execSync
  exact State.instr_runs h fun u hu => hu.updThr Thr.step

theorem State.rdtim_runs {t : Fin 1536} {w : Nat} (h : s.issues t .rdtim w) : ∃ u, exec (.rdtim t .clean) s = .next u ∧
    u.thrOf t = { (s.thrOf t).step.put (opD w) s.rdtim (s.eclk + 4) with skips := 0 } ∧ s.onlyThread t u := by
  change ∃ u, execRdtim t .clean s = .next u ∧ _
  unfold execRdtim
  refine State.instr_runs h fun u hu => ?_
  rw [hu.rdtim]
  exact hu.result ..

theorem State.settmr_runs {t : Fin 1536} {w : Nat} (h : s.issues t .settmr w) :
    let x := s.thrOf t
    ∃ u, exec (.settmr t .clean) s = .next u ∧ u.thrOf t = { ({ x.step with
      timer := if x.reg (opA w) = 0 then none else some (x.reg (opA w)) } : Thr) with skips := 0 } ∧ s.onlyThread t u := by
  intro x
  change ∃ u, execSettmr t .clean s = .next u ∧ _
  unfold execSettmr
  exact State.instr_runs h fun u hu => hu.updThr fun y => { y.step with timer := if x.reg (opA w) = 0 then none else some (x.reg (opA w)) }

theorem State.waitt_runs {t : Fin 1536} {w : Nat} (he : (s.thrOf t).tep = s.epo.cur) (h : s.issues t .waitt w) :
    let x := s.thrOf t
    ∃ u, exec (.threadWaitt t .clean) s = .next u ∧ u.thrOf t = { (if x.reg (opA w) ≤ s.rdtim then x.step
      else { x with st := .wait, until_ := some (x.reg (opA w)) }) with skips := 0 } ∧ s.onlyThread t u := by
  intro x
  change ∃ u, execThreadWaitt t .clean s = .next u ∧ _
  unfold execThreadWaitt
  refine State.instr_runs h fun u hu => ?_
  dsimp only
  rw [hu.epo, if_neg (not_not_intro he), hu.rdtim]
  split
  · exact hu.updThr Thr.step
  · exact hu.updThr fun y => { y with st := .wait, until_ := some _ }

/-- A thread changes outside of an instruction. -/
theorem State.updThr_only (s : State) (t : Fin 1536) (g : Thr → Thr) :
    (s.updThr (t.val / 32) (t.val % 32) g).thrOf t = g (s.thrOf t) ∧
      { s.updThr (t.val / 32) (t.val % 32) g with ecl := s.ecl } = s :=
  ⟨(s.thr_updThr ..).trans (if_pos rfl), rfl⟩

theorem State.waittExpire {t : Fin 1536} {v : Word64} (hv : (s.thrOf t).until_ = some v) :
    exec (.threadWaittExpire t) s = if s.clLive (t.val / 32) ∧ (s.thrOf t).st = .wait ∧ v ≤ s.rdtim
      then .next (s.updThr (t.val / 32) (t.val % 32) (fun y => { y.step with st := .ready, until_ := none })) else .next s := by
  have hv' : (s.thr (t.val / 32) (t.val % 32)).until_ = some v := hv
  change execThreadWaittExpire t s = _
  unfold execThreadWaittExpire
  dsimp only
  rw [hv']
  rfl

theorem State.timerFire {t : Fin 1536} {v : Word64} (hv : (s.thrOf t).timer = some v) :
    exec (.timerFire t) s = if s.clLive (t.val / 32) ∧ v ≤ s.rdtim
      then .next (s.updThr (t.val / 32) (t.val % 32) (fun y => { y with timer := none, ipend := y.ipend ||| 1 })) else .next s := by
  have hv' : (s.thr (t.val / 32) (t.val % 32)).timer = some v := hv
  change execTimerFire t s = _
  unfold execTimerFire
  dsimp only
  rw [hv']

theorem State.timerFire_unarmed {t : Fin 1536} (hv : (s.thrOf t).timer = none) : exec (.timerFire t) s = .next s := by
  have hv' : (s.thr (t.val / 32) (t.val % 32)).timer = none := hv
  change execTimerFire t s = _
  unfold execTimerFire
  dsimp only
  rw [hv']

/-- Settles O45. -/
theorem engineControlAndTime : Obligations.EngineControlAndTime := by
  unfold Obligations.EngineControlAndTime
  intro s t
  dsimp only
  refine ⟨fun w h => ?breq, fun w h => ?brne, fun w h => ?brlt, fun w h => ?brge, fun w h => ?brlo, fun w h => ?brhs,
    fun w h => State.call_runs h, fun w h => State.callr_runs h, fun w h => State.sync_runs h, fun w h => State.rett_runs h, fun w h => State.rdtim_runs h,
    fun w h => State.settmr_runs h, fun he w h => State.waitt_runs he h, fun v hv => ⟨fun hl hs ht => ?_, fun ht => ?_⟩,
    fun v hv => ⟨fun hl ht => ?_, fun ht => ?_⟩, State.timerFire_unarmed⟩
  case breq => exact State.branch_runs (f := fun a b => a == b) h rfl fun _ _ => rfl
  case brne => exact State.branch_runs (f := fun a b => a != b) h rfl fun _ _ => rfl
  case brlt => exact State.branch_runs (f := fun a b => a.slt b) (g := fun a b => decide (a.toInt < b.toInt)) h rfl fun _ _ => rfl
  case brge => exact State.branch_runs (f := fun a b => b.sle a) (g := fun a b => decide (b.toInt ≤ a.toInt)) h rfl fun _ _ => rfl
  case brlo => exact State.branch_runs (f := fun a b => a.ult b) (g := fun a b => decide (a.toNat < b.toNat)) h rfl fun _ _ => rfl
  case brhs => exact State.branch_runs (f := fun a b => b.ule a) (g := fun a b => decide (b.toNat ≤ a.toNat)) h rfl fun _ _ => rfl
  · exact ⟨_, (State.waittExpire hv).trans (if_pos ⟨hl, hs, ht⟩), s.updThr_only t _⟩
  · exact (State.waittExpire hv).trans (if_neg fun hc => absurd hc.2.2 (BitVec.not_le.2 ht))
  · exact ⟨_, (State.timerFire hv).trans (if_pos ⟨hl, ht⟩), s.updThr_only t _⟩
  · exact (State.timerFire hv).trans (if_neg fun hc => absurd hc.2 (BitVec.not_le.2 ht))

end Sys2Proof.Machine

namespace Sys2Proof.Machine
variable {s t u : State} {k i : Nat} {y : Thr}

/-! ### Traps, interrupts and thread control -/

theorem State.adoptIdle_current (h : (s.thr k i).tep = s.epo.cur) : s.adoptIdle k i = s := if_neg fun hc => hc.1 h

theorem State.takeTrap_taken {c st epc : Nat} {a : Word64} (hi : (s.thr k i).intrap = false) (hv : (s.thr k i).tvld = true) :
    s.takeTrap k i c st epc a = (s.setThr k i ((s.thr k i).trap c st epc a)).countTrap k i :=
  if_neg (by simp [hi, hv])

theorem State.takeTrap_halted {c st epc : Nat} {a : Word64} (h : (s.thr k i).intrap = true ∨ (s.thr k i).tvld = false) :
    s.takeTrap k i c st epc a = s.trapHalt k i c st epc a :=
  if_pos (by simpa using h)

theorem State.thr_of_ecl (h : t.ecl = s.ecl) (k i : Nat) : t.thr k i = s.thr k i :=
  congrArg (fun e => SMap.get ({} : Thr) (Ecl.thr (SMap.get ({} : Ecl) e k)) i) h

theorem State.trapHalt_thr (s : State) (k i c st epc : Nat) (a : Word64) :
    (s.trapHalt k i c st epc a).thr k i = { s.thr k i with st := .halt, until_ := none, parkOn := [] } := by
  unfold State.trapHalt
  dsimp only
  rw [State.thr_of_ecl ((State.raiseNi_ecl ..).trans (State.latchWords_ecl ..)), State.thr_updThr, if_pos rfl]

theorem State.trapHalt_epo (s : State) (k i c st epc : Nat) (a : Word64) : (s.trapHalt k i c st epc a).epo = s.epo :=
  (State.raiseNi_epo ..).trans (State.latchWords_epo ..)

/-- A trap that cannot be taken halts a thread that has adopted the current bank. -/
theorem State.trapHalt_adopted {c st epc : Nat} {a : Word64} (h : (s.thr k i).tep = s.epo.cur) :
    (s.trapHalt k i c st epc a).adoptIdle k i = s.trapHalt k i c st epc a :=
  State.adoptIdle_current (by rw [State.trapHalt_thr, State.trapHalt_epo]; exact h)

theorem State.EngAt.takeTrap (h : s.EngAt k i y u) (hi : y.intrap = false) (hv : y.tvld = true) (c st epc : Nat) (a : Word64) :
    s.EngAt k i (y.trap c st epc a) (u.takeTrap k i c st epc a) := by
  have hy := h.thr
  subst hy
  rw [State.takeTrap_taken hi hv]
  exact (h.setThr _).countTrap

theorem State.EngAt.adoptIdle (h : s.EngAt k i y u) (hy : y.st = .ready) : s.EngAt k i y (u.adoptIdle k i) := by
  have hn : u.adoptIdle k i = u := if_neg fun hc => by
    rw [h.thr, hy] at hc
    rcases hc.2 with hc | hc <;> exact ThrState.noConfusion hc
  rw [hn]
  exact h

theorem State.EngAt.precise (h : s.EngAt k i y u) (hi : y.intrap = false) (hv : y.tvld = true) (c : Nat) (a : Word64) :
    s.EngAt k i (y.trap c 0 y.pc a) (u.precise k i c a) := by
  unfold State.precise
  rw [h.thr]
  exact ((h.takeTrap hi hv ..).adoptIdle rfl).sampleTrap

theorem State.rdtcr_runs {t : Fin 1536} {w : Nat} (h : s.issues t .rdtcr w) : ∃ u, exec (.rdtcr t .clean) s = .next u ∧
    u.thrOf t = { (s.thrOf t).step.put (opD w) ((s.thrOf t).tcr t (opB w)) (s.eclk + 4) with skips := 0 } ∧ s.onlyThread t u := by
  change ∃ u, execRdtcr t .clean s = .next u ∧ _
  unfold execRdtcr
  exact State.instr_runs h fun u hu => hu.result ..

theorem Thr.setTcr_skips (x : Thr) (n m : Nat) (v : Word64) : ({ x with skips := m } : Thr).setTcr n v = { x.setTcr n v with skips := m } := by
  unfold Thr.setTcr
  dsimp only
  split <;> rfl

theorem State.wrtcr_runs {t : Fin 1536} {w : Nat} (h : s.issues t .wrtcr w) : ∃ u, exec (.wrtcr t .clean) s = .next u ∧
    u.thrOf t = { ((s.thrOf t).setTcr (opB w) ((s.thrOf t).reg (opA w))).step with skips := 0 } ∧ s.onlyThread t u := by
  change ∃ u, execWrtcr t .clean s = .next u ∧ _
  unfold execWrtcr
  refine State.instr_runs h fun u hu => ?_
  have hg := hu.updThr fun y => (y.setTcr (opB w) ((s.thrOf t).reg (opA w))).step
  rw [Thr.setTcr_skips] at hg
  exact hg

theorem State.halt_runs {t : Fin 1536} {w : Nat} (he : (s.thrOf t).tep = s.epo.cur) (h : s.issues t .halt w) :
    ∃ u, exec (.halt t .clean) s = .next u ∧ u.thrOf t = { ({ (s.thrOf t).step with st := .halt } : Thr) with skips := 0 } ∧
      s.onlyThread t u := by
  change ∃ u, execHalt t .clean s = .next u ∧ _
  unfold execHalt
  refine State.instr_runs h fun u hu => ?_
  have hg := hu.updThr fun y => { y.step with st := .halt }
  rw [State.adoptIdle_current (by rw [hg.thr, hg.epo]; exact he)]
  exact hg

theorem State.break_runs {t : Fin 1536} {w : Nat} (hi : (s.thrOf t).intrap = false) (hv : (s.thrOf t).tvld = true)
    (h : s.issues t .brk w) : let x := s.thrOf t
    ∃ u, exec (.breakTrap t .clean) s = .next u ∧ u.thrOf t = { x.trap 5 0 x.pc (BitVec.ofNat 64 x.pc) with skips := 0 } ∧
      s.onlyThread t u := by
  intro x
  change ∃ u, execBreakTrap t .clean s = .next u ∧ _
  unfold execBreakTrap
  exact State.instr_runs h fun u hu => hu.precise hi hv ..

theorem State.sampleWait_thr (s : State) (k i n lat m : Nat) : (s.sampleWait k i n lat).thr k m = s.thr k m := by
  unfold State.sampleWait State.updCl State.thr
  rw [State.cl_setCl, if_pos rfl]
  dsimp only
  split
  · split
    · split <;> rfl
    · rfl
  · rfl

theorem State.sampleTrap_thr (s : State) (k i m : Nat) : (s.sampleTrap k i).thr k m = s.thr k m := by
  unfold State.sampleTrap State.updCl State.thr
  rw [State.cl_setCl, if_pos rfl]
  dsimp only
  split
  · split <;> rfl
  · rfl

/-- What holds after an instruction's work holds after the instruction. -/
theorem State.instr_next {t : Fin 1536} {op : TOp} {w : Nat} (h : s.issues t op w) {body : Nat → Nat → Thr → Nat → State → State}
    {P : State → Prop} (hb : ∀ (v : State) (n : Nat), s.EngAt (t.val / 32) (t.val % 32) { s.thrOf t with skips := 0 } v →
      P ((body (t.val / 32) (t.val % 32) (s.thrOf t) w v).sampleWait (t.val / 32) (t.val % 32) n (latency op))) :
    ∃ u, s.instr t op .clean body = .next u ∧ P u :=
  ⟨_, State.instr_of_issues h body, hb _ _ (s.atIssue_engAt t op w)⟩

theorem State.break_halts {t : Fin 1536} {w : Nat} (h : s.issues t .brk w)
    (hx : (s.thrOf t).intrap = true ∨ (s.thrOf t).tvld = false) (he : (s.thrOf t).tep = s.epo.cur) :
    ∃ u, exec (.breakTrap t .clean) s = .next u ∧ (u.thrOf t).st = .halt ∧ (u.thrOf t).pc = (s.thrOf t).pc := by
  change ∃ u, execBreakTrap t .clean s = .next u ∧ _
  unfold execBreakTrap
  refine State.instr_next h fun v n hv => ?_
  unfold State.thrOf
  rw [State.sampleWait_thr]
  unfold State.precise
  rw [State.sampleTrap_thr, State.takeTrap_halted (by rw [hv.thr]; exact hx),
    State.trapHalt_adopted (by rw [hv.thr, hv.epo]; exact he), State.trapHalt_thr, hv.thr]
  exact ⟨rfl, rfl⟩

/-- Another thread of the cluster has SOFT pending. -/
theorem State.EngAt.signal (h : s.EngAt k i y u) {j : Nat} (hne : j ≠ i) :
    let v := (u.updThr k i Thr.step).updThr k j (fun y => { y with ipend := y.ipend ||| 2 })
    v.thr k i = y.step ∧ (v.thr k j).ipend = (s.thr k j).ipend ||| 2 ∧ (v.thr k j).pc = (s.thr k j).pc := by
  dsimp only
  have hs := h.threads j hne
  have hj : (u.updThr k i Thr.step).thr k j = u.thr k j := (State.thr_updThr ..).trans (if_neg hne)
  refine ⟨?_, ?_⟩
  · rw [State.thr_updThr, if_neg (Ne.symm hne), State.thr_updThr, if_pos rfl, h.thr]
  · rw [State.thr_updThr, if_pos rfl, hj]
    exact ⟨congrArg (·.ipend ||| 2) hs, (congrArg Thr.pc hs :)⟩

theorem State.signal_runs {t : Fin 1536} {w j : Nat} (h : s.issues t .signal w) (hj : j = ((s.thrOf t).reg (opA w)).toNat % 32)
    (hne : j ≠ t.val % 32) : ∃ u, exec (.signal t .clean) s = .next u ∧ u.thrOf t = { (s.thrOf t).step with skips := 0 } ∧
      (u.thr (t.val / 32) j).ipend = (s.thr (t.val / 32) j).ipend ||| 2 ∧ (u.thr (t.val / 32) j).pc = (s.thr (t.val / 32) j).pc := by
  change ∃ u, execSignal t .clean s = .next u ∧ _
  unfold execSignal
  refine State.instr_next h fun v n hv => ?_
  unfold State.thrOf
  rw [State.sampleWait_thr, State.sampleWait_thr]
  have hs := hv.signal hne
  rw [hj] at hs ⊢
  exact hs

/-! ### Thread control registers -/

theorem Thr.setTcr_readonly (x : Thr) {n : Nat} (v : Word64) (h : n = 0 ∨ n = 1 ∨ n = 6 ∨ n = 7 ∨ 10 ≤ n) : x.setTcr n v = x := by
  unfold Thr.setTcr
  dsimp only
  split
  iterate 6 · omega
  · rfl

/-- A write of a thread control register changes neither the registers nor what the thread's entry gave it. -/
theorem Thr.setTcr_keeps (x : Thr) (n : Nat) (v : Word64) :
    (x.setTcr n v).regs = x.regs ∧ (x.setTcr n v).slice = x.slice ∧ (x.setTcr n v).tep = x.tep := by
  unfold Thr.setTcr
  dsimp only
  split <;> exact ⟨rfl, rfl, rfl⟩

/-! ### Taking a trap or an interrupt -/

theorem State.trapTake_at {t : Fin 1536} {d : DueTrap} (hd : (s.thrOf t).due = some d) (hl : s.clLive (t.val / 32) = true)
    (hs : (s.thrOf t).st = .ready) : exec (.trapTake t) s =
      .next (((s.updThr (t.val / 32) (t.val % 32) (fun y => { y with due := none })).takeTrap (t.val / 32) (t.val % 32) d.cause d.status
        (s.thrOf t).pc d.taddr).adoptIdle (t.val / 32) (t.val % 32)) := by
  have hd' : (s.thr (t.val / 32) (t.val % 32)).due = some d := hd
  change execTrapTake t s = _
  unfold execTrapTake
  dsimp only
  rw [hd']
  exact if_pos ⟨hl, by rw [Thr.atBoundary]; simp [show (s.thr (t.val / 32) (t.val % 32)).st = .ready from hs]⟩

/-- A state with what a trap that is taken changes as it stands in another. -/
def State.trapReset (s t : State) : State := { t with ecl := s.ecl, regs := s.regs, cyc := s.cyc, ctr := s.ctr }

theorem State.trapReset_updThr (s t : State) (k i : Nat) (g : Thr → Thr) : s.trapReset (t.updThr k i g) = s.trapReset t := rfl

theorem State.trapReset_setThr (s t : State) (k i : Nat) (x : Thr) : s.trapReset (t.setThr k i x) = s.trapReset t := rfl

theorem State.trapReset_bump (s t : State) (r : Reg) (b i n : Nat) : s.trapReset (t.bump r b i n) = s.trapReset t := rfl

theorem State.trapReset_count (s t : State) (b i n : Nat) : s.trapReset (t.count b i n) = s.trapReset t :=
  (congrArg s.trapReset (t.count_rest b i n) :)

theorem State.trapReset_countTrap (s t : State) (k i : Nat) : s.trapReset (t.countTrap k i) = s.trapReset t :=
  (s.trapReset_count ..).trans (s.trapReset_bump ..)

theorem State.trapReset_adoptIdle (s t : State) (k i : Nat) : s.trapReset (t.adoptIdle k i) = s.trapReset t :=
  iteInduction (motive := fun v : State => s.trapReset v = s.trapReset t) (fun _ => State.trapReset_updThr ..) fun _ => rfl

theorem State.trapTake_taken {t : Fin 1536} {d : DueTrap} (hd : (s.thrOf t).due = some d) (hl : s.clLive (t.val / 32) = true)
    (hs : (s.thrOf t).st = .ready) (hi : (s.thrOf t).intrap = false) (hv : (s.thrOf t).tvld = true) : ∃ u,
      exec (.trapTake t) s = .next u ∧ u.thrOf t = { (s.thrOf t).trap d.cause d.status (s.thrOf t).pc d.taddr with due := none } ∧
      { u with ecl := s.ecl, regs := s.regs, cyc := s.cyc, ctr := s.ctr } = s := by
  refine ⟨_, State.trapTake_at hd hl hs, ?_, ?_⟩
  · exact ((((State.EngAt.refl s _ _).updThr fun y => { y with due := none }).takeTrap hi hv ..).adoptIdle rfl).thr
  · rw [State.takeTrap_taken (by rw [State.thr_updThr, if_pos rfl]; exact hi) (by rw [State.thr_updThr, if_pos rfl]; exact hv)]
    exact (s.trapReset_adoptIdle ..).trans ((s.trapReset_countTrap ..).trans ((s.trapReset_setThr ..).trans (s.trapReset_updThr ..)))

theorem State.trapTake_halted {t : Fin 1536} {d : DueTrap} (hd : (s.thrOf t).due = some d) (hl : s.clLive (t.val / 32) = true)
    (hs : (s.thrOf t).st = .ready) (hi : (s.thrOf t).intrap = true) (he : (s.thrOf t).tep = s.epo.cur) : ∃ u,
      exec (.trapTake t) s = .next u ∧ (u.thrOf t).st = .halt ∧ (u.thrOf t).due = none ∧ (u.thrOf t).epc = (s.thrOf t).epc := by
  refine ⟨_, State.trapTake_at hd hl hs, ?_⟩
  have hx := (s.thr_updThr (t.val / 32) (t.val % 32) (t.val % 32) fun y => { y with due := none }).trans (if_pos rfl)
  unfold State.thrOf
  rw [State.takeTrap_halted (by rw [hx]; exact .inl hi), State.trapHalt_adopted (by rw [hx]; exact he), State.trapHalt_thr, hx]
  exact ⟨rfl, rfl, rfl⟩

theorem State.interruptTake_none {t : Fin 1536} (h : (s.thrOf t).irq = 0) : exec (.interruptTake t) s = .next s :=
  if_pos (.inr (.inr (.inr h)))

/-- The first pending interrupt in the order TIMER, SOFT, EVENT. -/
def firstIrq (q : Nat) : Nat := if bitOf q 0 then 0 else if bitOf q 1 then 1 else 2

theorem firstIrq_spec (q : Nat) : firstIrq q < 3 ∧ (firstIrq q = 0 ↔ bitOf q 0 = true) ∧
    (bitOf q 0 = false → (firstIrq q = 1 ↔ bitOf q 1 = true)) := by
  unfold firstIrq
  cases bitOf q 0 <;> cases bitOf q 1 <;> decide

theorem State.interruptTake_taken {t : Fin 1536} (hl : s.clLive (t.val / 32) = true) (hs : (s.thrOf t).st = .ready)
    (hd : (s.thrOf t).due = none) (h : (s.thrOf t).irq ≠ 0) : ∃ u n a, exec (.interruptTake t) s = .next u ∧ n < 3 ∧
      (n = 0 ↔ bitOf (s.thrOf t).irq 0 = true) ∧ (bitOf (s.thrOf t).irq 0 = false → (n = 1 ↔ bitOf (s.thrOf t).irq 1 = true)) ∧
      u.thrOf t = (s.thrOf t).trap (0x20 + n) 0 (s.thrOf t).pc a ∧
      { u with ecl := s.ecl, regs := s.regs, cyc := s.cyc, ctr := s.ctr, free := s.free } = s := by
  obtain ⟨h3, h0, h1⟩ := firstIrq_spec (s.thrOf t).irq
  have hu := ((State.EngAt.refl s (t.val / 32) (t.val % 32)).draw.setThr
    ((s.thrOf t).trap (0x20 + firstIrq (s.thrOf t).irq) 0 (s.thrOf t).pc (BitVec.ofNat 64 s.drawn))).countTrap
  refine ⟨_, _, _, if_neg ?_, h3, h0, h1, hu.thr, hu.rest⟩
  have hs' : (s.thr (t.val / 32) (t.val % 32)).st = .ready := hs
  have hd' : (s.thr (t.val / 32) (t.val % 32)).due = none := hd
  rintro (hc | hc | hc | hc)
  · exact hc hl
  · exact hc (by rw [Thr.atBoundary, hs']; rfl)
  · rw [hd'] at hc
    exact Bool.noConfusion hc
  · exact h hc

/-! ### Starting and halting a thread -/

theorem State.engTStart_starts {t : Fin 1536} (he : (s.thrOf t).tep = s.epo.cur) (hs : (s.thrOf t).st = .off ∨ (s.thrOf t).st = .halt)
    (hb : bitOf (s.thrEntry (t.val / 32) (s.thrOf t).tep (t.val % 32)) 20 = true) (hf : s.clusterFenced (t.val / 32) = false)
    (hd : s.stands (s.thrOf t).slice.toNat = false) : ∃ u, exec (.engTStart t) s = .next u ∧
      u.thrOf t = { s.thrOf t with
        pc := fld (s.thrEntry (t.val / 32) (s.thrOf t).tep (t.val % 32)) 0 14, ie := false, intrap := false, until_ := none,
        parkOn := [], parked := false, st := .ready, held := none } ∧ { u with ecl := s.ecl } = s := by
  refine ⟨_, ?_, (s.updThr_only t fun _ => _)⟩
  change Host.Outcome.next (s.threadStart _ _) = _
  unfold State.threadStart
  dsimp only
  rw [State.adoptIdle_current he, if_pos ⟨hs, hb, by simp [hf]⟩]
  unfold State.thrOf at hd
  rw [if_neg (by simp [hd])]
  rfl

theorem State.engTStart_ignored {t : Fin 1536} (he : (s.thrOf t).tep = s.epo.cur)
    (h : (s.thrOf t).st = .ready ∨ bitOf (s.thrEntry (t.val / 32) (s.thrOf t).tep (t.val % 32)) 20 = false) :
    exec (.engTStart t) s = .next s := by
  change Host.Outcome.next (s.threadStart _ _) = _
  unfold State.threadStart
  dsimp only
  unfold State.thrOf at h he
  rw [State.adoptIdle_current he]
  refine congrArg _ (if_neg fun hc => ?_)
  obtain ⟨hst, hb, -⟩ := hc
  rcases h with h | h
  · rw [h] at hst
    rcases hst with hst | hst <;> exact ThrState.noConfusion hst
  · rw [h] at hb
    exact Bool.noConfusion hb

theorem State.engTHalt_halts {t : Fin 1536} (he : (s.thrOf t).tep = s.epo.cur) (h : (s.thrOf t).st ≠ .off) : ∃ u,
    exec (.engTHalt t) s = .next u ∧ u.thrOf t = { s.thrOf t with st := .halt, until_ := none, parkOn := [], held := none } ∧
      { u with ecl := s.ecl } = s := by
  refine ⟨_, ?_, (s.updThr_only t fun _ => _)⟩
  change Host.Outcome.next (s.threadHalt _ _) = _
  unfold State.threadHalt
  have ht := (s.thr_updThr (t.val / 32) (t.val % 32) (t.val % 32) fun _ => { s.thrOf t with st := .halt, until_ := none, parkOn := [], held := none }).trans (if_pos rfl)
  refine congrArg _ ((if_neg h).trans (State.adoptIdle_current ?_))
  exact (congrArg Thr.tep ht).trans he

theorem State.engTHalt_ignored {t : Fin 1536} (h : (s.thrOf t).st = .off) : exec (.engTHalt t) s = .next s :=
  congrArg _ (if_pos h)

/-- Settles O46. -/
theorem engineTrapsAndThreadControl : Obligations.EngineTrapsAndThreadControl := by
  unfold Obligations.EngineTrapsAndThreadControl
  refine ⟨fun s t => ?_, ?_, ?_, ?_, ?_, ?_, ?_⟩
  · exact ⟨fun w h => State.rdtcr_runs h, fun w h => State.wrtcr_runs h, fun he w h => State.halt_runs he h,
      fun hi hv w h => State.break_runs hi hv h, fun w h hx he => State.break_halts h hx he, fun w j h hj hne => State.signal_runs h hj hne⟩
  · exact fun x cause status epc a => ⟨rfl, rfl, rfl, rfl, rfl, rfl, rfl, rfl, rfl⟩
  · intro x n v
    obtain ⟨hr, hs, ht⟩ := x.setTcr_keeps n v
    exact ⟨x.setTcr_readonly v, hr, hs, ht, rfl, rfl, rfl⟩
  · exact fun s t d hd hl hs hi hv => State.trapTake_taken hd hl hs hi hv
  · exact fun s t d hd hl hs hi he => State.trapTake_halted hd hl hs hi he
  · exact fun s t hl hs hd => ⟨State.interruptTake_none, State.interruptTake_taken hl hs hd⟩
  · exact fun s t he => ⟨fun hs hb hf hd => State.engTStart_starts he hs hb hf hd, State.engTStart_ignored he,
      State.engTHalt_halts he, State.engTHalt_ignored⟩

end Sys2Proof.Machine

namespace Sys2Proof.Machine
variable {s t u : State} {k i : Nat} {y : Thr}

/-! ### Places of an engine's effective addresses -/

/-- A place in the local window does not depend on the state. -/
theorem State.place_loc {ea n off : Nat} (h : s.place k ea n = some (.loc off)) (u : State) : u.place k ea n = some (.loc off) := by
  unfold State.place at h ⊢
  dsimp only at h ⊢
  split at h
  · split at h <;> cases h
  · rename_i h0
    rw [if_neg h0]
    split at h
    · split at h <;> cases h
    · rename_i h1
      rw [if_neg h1]
      split at h
      · rename_i h8
        rw [if_pos h8]
        exact h
      · split at h
        · split at h
          · split at h <;> cases h
          · cases h
        · cases h

/-- Nor does it depend on the state whether an address has a place. -/
theorem State.place_isSome (s u : State) (k ea n : Nat) : (s.place k ea n).isSome = (u.place k ea n).isSome := by
  unfold State.place
  dsimp only
  split
  · rfl
  · split
    · rfl
    · split
      · rfl
      · split
        · split
          · split <;> simp only [Option.isSome_some]
          · rfl
        · rfl

theorem halvesOf_aligned {ea n : Nat} (h : ea % n = 0) : halvesOf ea n = [(ea, n)] := if_pos h

theorem State.halfPlaces_loc {ea n off : Nat} (ha : ea % n = 0) (h : s.place k ea n = some (.loc off)) :
    s.halfPlaces k ea n = some [(ea, n, .loc off)] := by
  unfold State.halfPlaces
  rw [h, halvesOf_aligned ha]
  simp [h]

theorem State.halfPlaces_none {ea n : Nat} (h : s.place k ea n = none) : s.halfPlaces k ea n = none := by
  unfold State.halfPlaces
  rw [h]
  rfl

/-! ### Local SRAM -/

theorem State.lsWord_clean (hi : s.fc.inject = none) {w : Nat} (h : SMap.get false s.lsramBad w = false) :
    s.lsWord k w .clean = (false, false, s) := by
  unfold State.lsWord
  rw [State.checkWord_of_no_inject hi]
  dsimp only
  rw [h]

/-- Words that are good are checked without an effect. -/
theorem State.lsCheck_clean (hi : s.fc.inject = none) {off n : Nat} (h : (wordsOf (lsAddr k off) n).filter (SMap.get false s.lsramBad) = []) :
    s.lsCheck k off n [] = (false, s) := by
  have hfold : (wordsOf (lsAddr k off) n).foldl (fun (hs : List (Nat × Bool) × State) w =>
      let (bad, inj, t) := hs.2.lsWord k w (errAt [] (w % 2 ^ 15))
      (if bad then hs.1 ++ [(w, inj)] else hs.1, t)) (([] : List (Nat × Bool)), s) = ([], s) :=
    List.foldlRecOn (motive := fun a => a = (([] : List (Nat × Bool)), s)) _ _ rfl fun a ha w hm => by
      subst ha
      show (let (bad, inj, t) := s.lsWord k w .clean; (if bad then [] ++ [(w, inj)] else [], t)) = _
      rw [State.lsWord_clean hi (by simpa using List.filter_eq_nil_iff.mp h w hm)]
      rfl
  unfold State.lsCheck
  rw [hfold]

/-! ### Loads -/

theorem State.EngAt.lsram (h : s.EngAt k i y u) : u.lsram = s.lsram := (congrArg State.lsram h.rest :)
theorem State.EngAt.lsramBad (h : s.EngAt k i y u) : u.lsramBad = s.lsramBad := (congrArg State.lsramBad h.rest :)
theorem State.EngAt.fc (h : s.EngAt k i y u) : u.fc = s.fc := (congrArg State.fc h.rest :)

/-- A load of good bytes in local SRAM, with nothing in the store buffer. -/
theorem State.doLoad_local {x : Thr} {w n off : Nat} {sg : Bool} (hi : u.fc.inject = none) (hsb : x.sb = [])
    (ha : (x.ea w).toNat % n = 0) (hp : u.place k (x.ea w).toNat n = some (.loc off))
    (hg : (wordsOf (lsAddr k off) n).filter (SMap.get false u.lsramBad) = []) :
    u.doLoad k i x w n sg [] = u.result k i (opD w) 6 (extend n sg (leNat (u.lsRead k off n))) := by
  have hm : x.meet (x.ea w).toNat n = .clear := by
    unfold Thr.meet
    rw [hsb]
    rfl
  unfold State.doLoad
  dsimp only
  rw [State.halfPlaces_loc ha hp]
  simp [hm, parkIds, State.checkParts, State.lsCheck_clean hi hg, remoteCount, State.loadNow]

/-- What an aligned load of good local bytes leaves. -/
theorem State.load_local {t : Fin 1536} {w n off : Nat} {sg : Bool} (h : s.issues t (.load n sg) w) (hsb : (s.thrOf t).sb = [])
    (ha : ((s.thrOf t).ea w).toNat % n = 0) (hp : s.place (t.val / 32) ((s.thrOf t).ea w).toNat n = some (.loc off))
    (hg : (wordsOf (lsAddr (t.val / 32) off) n).filter (SMap.get false s.lsramBad) = []) :
    ∃ u, s.instr t (.load n sg) .clean (fun k i x w s => s.doLoad k i x w n sg []) = .next u ∧
      u.thrOf t = { (s.thrOf t).step.put (opD w) (extend n sg (leNat (s.lsRead (t.val / 32) off n))) (s.eclk + 6) with skips := 0 } ∧
      s.onlyThread t u := by
  refine State.instr_runs h fun u hu => ?_
  have hr : u.lsRead (t.val / 32) off n = s.lsRead (t.val / 32) off n := congrArg (memRead · _ n) hu.lsram
  rw [State.doLoad_local (by rw [hu.fc]; exact h.2.2.2.2) hsb ha (State.place_loc hp u) (by rw [hu.lsramBad]; exact hg), hr]
  exact hu.result ..

/-- A load from an address without a place. -/
theorem State.load_noPlace {t : Fin 1536} {w n : Nat} {sg : Bool} (h : s.issues t (.load n sg) w)
    (hp : s.place (t.val / 32) ((s.thrOf t).ea w).toNat n = none) (hi : (s.thrOf t).intrap = false) (hv : (s.thrOf t).tvld = true) :
    ∃ u, s.instr t (.load n sg) .clean (fun k i x w s => s.doLoad k i x w n sg []) = .next u ∧
      u.thrOf t = { (s.thrOf t).trap 3 0 (s.thrOf t).pc ((s.thrOf t).ea w) with skips := 0 } := by
  obtain ⟨u, hu, ht, -⟩ := State.instr_runs h (body := fun k i x w s => s.doLoad k i x w n sg [])
    (z := { (s.thrOf t).trap 3 0 (s.thrOf t).pc ((s.thrOf t).ea w) with skips := 0 }) fun u hu => by
      have hn : u.place (t.val / 32) ((s.thrOf t).ea w).toNat n = none := by
        rw [← Option.isNone_iff_eq_none, ← Option.not_isSome, ← s.place_isSome, hp]
        rfl
      unfold State.doLoad
      dsimp only
      rw [State.halfPlaces_none hn]
      exact hu.precise hi hv ..
  exact ⟨u, hu, ht⟩

/-- The load instructions, by the size and the extension of the value. -/
theorem exec_load {t : Fin 1536} {n : Nat} {sg : Bool} {c : Instr} (hc : (n, sg, c) ∈ [(1, false, Instr.ldb t .clean []), (2, false, .ldh t .clean []),
        (4, false, .ldw t .clean []), (8, false, .ldd t .clean []), (1, true, .ldbs t .clean []),
        (2, true, .ldhs t .clean []), (4, true, .ldws t .clean [])]) :
    exec c s = s.instr t (.load n sg) .clean (fun k i x w s => s.doLoad k i x w n sg []) := by
  simp only [List.mem_cons, Prod.mk.injEq, List.not_mem_nil, or_false] at hc
  rcases hc with ⟨rfl, rfl, rfl⟩ | ⟨rfl, rfl, rfl⟩ | ⟨rfl, rfl, rfl⟩ | ⟨rfl, rfl, rfl⟩ | ⟨rfl, rfl, rfl⟩ | ⟨rfl, rfl, rfl⟩ | ⟨rfl, rfl, rfl⟩ <;> rfl

/-! ### Stores -/

theorem exec_store {t : Fin 1536} {n : Nat} {c : Instr}
    (hc : (n, c) ∈ [(1, Instr.stb t .clean), (2, .sth t .clean), (4, .stw t .clean), (8, .std t .clean)]) :
    exec c s = s.instr t (.store n) .clean (fun k i x w s => s.doStore k i x w n) := by
  simp only [List.mem_cons, Prod.mk.injEq, List.not_mem_nil, or_false] at hc
  rcases hc with ⟨rfl, rfl⟩ | ⟨rfl, rfl⟩ | ⟨rfl, rfl⟩ | ⟨rfl, rfl⟩ <;> rfl

theorem State.serial_updThr (s : State) (k i m : Nat) (g : Thr → Thr) : ((s.updThr k i g).cl m).serial = (s.cl m).serial := by
  unfold State.updThr State.setThr State.updCl
  rw [State.cl_setCl]
  split
  case isTrue h => exact h ▸ rfl
  case isFalse => rfl

theorem State.serial_of_ecl (h : t.ecl = s.ecl) (k : Nat) : (t.cl k).serial = (s.cl k).serial :=
  congrArg (fun e => Ecl.serial (SMap.get ({} : Ecl) e k)) h

theorem State.serial_issued (s : State) (k i : Nat) : ((s.issued k i).cl k).serial = (s.cl k).serial := by
  have hf (l : List Nat) (v : State) : ((l.foldl (fun s m => s.updThr k m (fun x => if x.st = .ready then { x with
      skips := min (x.skips + 1) 0xFFF } else x)) v).cl k).serial = (v.cl k).serial := by
    induction l generalizing v with
    | nil => rfl
    | cons m l ih => exact (ih _).trans (v.serial_updThr ..)
  unfold State.issued
  dsimp only
  rw [State.serial_of_ecl (State.countSlice_ecl ..), State.serial_of_ecl (State.count_ecl ..), State.serial_of_ecl (State.bump_ecl ..),
    State.serial_updThr, State.updCl, State.cl_setCl, if_pos rfl]
  exact hf _ s

theorem State.serial_sampleIssue (s : State) (k i : Nat) (x : Thr) (w : Nat) (ea : Word64) (b : Bool) :
    ((s.sampleIssue k i x w ea b).cl k).serial = (s.cl k).serial := by
  unfold State.sampleIssue
  dsimp only
  have hs {v : State} {c : Ecl} (hc : c.serial = (s.cl k).serial) : ((v.setCl k c).cl k).serial = (s.cl k).serial := by
    rw [State.cl_setCl, if_pos rfl, hc]
  refine iteInduction (motive := fun v : State => (v.cl k).serial = (s.cl k).serial) (fun _ => rfl) fun _ => ?_
  refine iteInduction (motive := fun v : State => (v.cl k).serial = (s.cl k).serial) (fun _ => hs ?_) fun _ => ?_
  · rfl
  · refine iteInduction (motive := fun v : State => (v.cl k).serial = (s.cl k).serial) (fun _ => ?_) fun _ => hs ?_
    · refine (State.serial_of_ecl (State.bump_ecl ..) k).trans (hs ?_)
      rfl
    · rfl

theorem State.serial_atIssue (s : State) (t : Fin 1536) (op : TOp) (w : Nat) :
    ((s.atIssue t op w).cl (t.val / 32)).serial = (s.cl (t.val / 32)).serial :=
  (State.serial_sampleIssue ..).trans (State.serial_issued ..)

/-- The entry of the store buffer that an aligned store makes. -/
def storeEntry (serial ea n v : Nat) : SbEnt :=
  { id := 2 * serial, pair := serial, win := fld ea 52 12, ea := fld ea 0 52, data := leBytes n v }

/-- An aligned store with a place enters the store buffer. -/
theorem State.doStore_aligned {x : Thr} {w n : Nat} {p : Place} (ha : (x.ea w).toNat % n = 0) (hp : u.place k (x.ea w).toNat n = some p) :
    u.doStore k i x w n = (u.updCl k (fun c => { c with serial := (u.cl k).serial + 1 })).updThr k i (fun y => { y.step with
      sb := y.sb ++ [storeEntry (u.cl k).serial (x.ea w).toNat n (x.reg (opD w)).toNat] }) := by
  unfold State.doStore
  dsimp only
  rw [hp, halvesOf_aligned ha]
  have hl : (leBytes n (x.reg (opD w)).toNat).take n = leBytes n (x.reg (opD w)).toNat :=
    List.take_of_length_le (Nat.le_of_eq (length_leBytes ..))
  simp only [List.zipIdx_cons, List.zipIdx_nil, List.map_cons, List.map_nil, Nat.sub_self, List.drop_zero, hl]
  rfl

theorem State.store_runs {t : Fin 1536} {w n : Nat} {p : Place} (h : s.issues t (.store n) w) (ha : ((s.thrOf t).ea w).toNat % n = 0)
    (hp : s.place (t.val / 32) ((s.thrOf t).ea w).toNat n = some p) :
    let x := s.thrOf t
    ∃ u, s.instr t (.store n) .clean (fun k i x w s => s.doStore k i x w n) = .next u ∧
      u.thrOf t = { x.step with
        sb := x.sb ++ [storeEntry (s.cl (t.val / 32)).serial (x.ea w).toNat n (x.reg (opD w)).toNat], skips := 0 } ∧ s.onlyThread t u := by
  intro x
  have hv := s.atIssue_engAt t (.store n) w
  have hn := s.serial_atIssue t (.store n) w
  refine ⟨_, State.instr_of_issues h _, ?_⟩
  generalize s.atIssue t (.store n) w = v at hv hn ⊢
  obtain ⟨q, hq⟩ := Option.isSome_iff_exists.1 ((s.place_isSome v _ _ _).symm.trans (Option.isSome_iff_exists.2 ⟨p, hp⟩))
  rw [State.doStore_aligned ha hq, hn]
  have hu := ((hv.setCl (c := { v.cl (t.val / 32) with serial := (s.cl (t.val / 32)).serial + 1 }) rfl rfl rfl).updThr fun y =>
    { y.step with sb := y.sb ++ [storeEntry (s.cl (t.val / 32)).serial (x.ea w).toNat n (x.reg (opD w)).toNat] }).sampleWait
      (s.cl (t.val / 32)).serial (latency (.store n))
  exact ⟨hu.thr, hu.rest, hu.others, hu.threads, hu.reqs, hu.ring⟩

/-! ### Atomics -/

/-- A state with what an atomic in local SRAM changes as it stands in another. -/
def State.atomReset (s u : State) : State :=
  { u with ecl := s.ecl, regs := s.regs, cyc := s.cyc, ctr := s.ctr, free := s.free, lsram := s.lsram, lsramBad := s.lsramBad }

theorem State.EngAt.atomReset (h : s.EngAt k i y u) : s.atomReset u = s := 
  (congrArg (fun v : State => { v with lsram := s.lsram, lsramBad := s.lsramBad }) h.rest :)

theorem State.atomReset_sampleWait (s u : State) (k i n lat : Nat) : s.atomReset (u.sampleWait k i n lat) = s.atomReset u := rfl
theorem State.atomReset_result (s u : State) (k i d lat : Nat) (v : Word64) : s.atomReset (u.result k i d lat v) = s.atomReset u := rfl
theorem State.atomReset_lsWrite (s u : State) (k off : Nat) (bs : List Byte) (p : Bool) : s.atomReset (u.lsWrite k off bs p) = s.atomReset u := rfl

/-- What an atomic on good local bytes leaves, up to its sample. -/
theorem State.EngAt.atom (h : s.EngAt k i y u) (hi : s.fc.inject = none) {off n : Nat}
    (hg : (wordsOf (lsAddr k off) n).filter (SMap.get false s.lsramBad) = []) (d aop : Nat) (a b ea : Word64) (m lat : Nat) :
    let old := leNat (s.lsRead k off n)
    let v := (u.atomLocal k i d off n aop a b ea []).sampleWait k i m lat
    v.thr k i = y.step.put d (BitVec.ofNat 64 old) (s.eclk + 8) ∧
      v.lsRead k off n = leBytes n (aopResult aop n old a.toNat b.toNat) ∧
      (∀ a, a < lsAddr k off ∨ lsAddr k off + n ≤ a → memByte v.lsram a = memByte s.lsram a) ∧ s.atomReset v = s := by
  intro old v
  have hold : leNat (u.lsRead k off n) = old := congrArg (fun m => leNat (memRead m (lsAddr k off) n)) h.lsram
  have hv : v = (((u.lsWrite k off (leBytes n (aopResult aop n old a.toNat b.toNat))).result k i d 8 (BitVec.ofNat 64 old)).sampleWait k i m lat) := by
    refine congrArg (State.sampleWait · k i m lat) ?_
    unfold State.atomLocal
    rw [State.lsCheck_clean (by rw [h.fc]; exact hi) (by rw [h.lsramBad]; exact hg)]
    dsimp only
    rw [if_neg (by simp), hold]
  have hm : v.lsram = memWrite s.lsram (lsAddr k off) (leBytes n (aopResult aop n old a.toNat b.toNat)) := by
    rw [hv, ← h.lsram]
    rfl
  refine ⟨?_, ?_, ?_, ?_⟩
  · rw [hv, State.sampleWait_thr]
    unfold State.result
    rw [State.thr_updThr, if_pos rfl]
    exact (congrArg (fun x : Thr => x.step.put d (BitVec.ofNat 64 old) _) h.thr).trans
      (congrArg (fun e => Thr.put y.step d (BitVec.ofNat 64 old) (e + 8)) h.eclk)
  · unfold State.lsRead
    rw [hm]
    have := memRead_write s.lsram (leBytes n (aopResult aop n old a.toNat b.toNat)) (lsAddr k off)
    rwa [length_leBytes] at this
  · intro x hx
    rw [hm]
    exact memByte_write_outside _ _ _ _ (by rwa [length_leBytes])
  · rw [hv, State.atomReset_sampleWait, State.atomReset_result, State.atomReset_lsWrite]
    exact h.atomReset

theorem State.atom_local {t : Fin 1536} {w off : Nat} (h : s.issues t .atom w) (ha : ((s.thrOf t).reg (opA w)).toNat % 2 ^ fld w 4 2 = 0)
    (hp : s.place (t.val / 32) ((s.thrOf t).reg (opA w)).toNat (2 ^ fld w 4 2) = some (.loc off))
    (hg : (wordsOf (lsAddr (t.val / 32) off) (2 ^ fld w 4 2)).filter (SMap.get false s.lsramBad) = []) :
    let k := t.val / 32
    let x := s.thrOf t
    let n := 2 ^ fld w 4 2
    let old := leNat (s.lsRead k off n)
    ∃ u, exec (.atom t .clean []) s = .next u ∧
        u.thrOf t = { x.step.put (opD w) (BitVec.ofNat 64 old) (s.eclk + 8) with skips := 0 } ∧
        u.lsRead k off n = leBytes n (aopResult (fld w 0 4) n old
          (if fld w 0 4 = 5 then x.reg (opD w) else x.reg (opB w)).toNat (x.reg (opB w)).toNat) ∧
        (∀ a, a < lsAddr k off ∨ lsAddr k off + n ≤ a → memByte u.lsram a = memByte s.lsram a) ∧ s.atomReset u = s := by
  intro k x n old
  change ∃ u, execAtom t .clean [] s = .next u ∧ _
  unfold execAtom
  refine State.instr_next h fun v m hv => ?_
  dsimp only
  rw [if_neg (not_not_intro ha), State.place_loc hp v]
  dsimp only [Option.map, State.asFabric]
  have hb : (fld w 0 4 == 5) = decide (fld w 0 4 = 5) := rfl
  simp only [hb, decide_eq_true_eq]
  have hu := hv.atom h.2.2.2.2 hg (opD w) (fld w 0 4) (if fld w 0 4 = 5 then x.reg (opD w) else x.reg (opB w)) (x.reg (opB w))
    (x.reg (opA w)) m (latency .atom)
  obtain ⟨ht, hrest⟩ := hu
  exact ⟨ht.trans ((s.thrOf t).step.put_skips ..), hrest⟩

/-! ### The store buffer drains -/

theorem State.drainStore_local {b : SbEnt} {off : Nat} (hb : (s.thr k i).sb = [b]) (hp : s.place k b.full b.data.length = some (.loc off)) :
    s.drainStore k i = (s.lsWrite k off b.data).storeFreed k i b.id := by
  have ho : (s.thr k i).oldest = [b] := by
    unfold Thr.oldest
    rw [hb]
    simp
  unfold State.drainStore
  dsimp only
  rw [ho]
  have hd : s.drainParts k [b] = [(b, b.full, b.data.length, .loc off)] := by
    unfold State.drainParts
    simp [hp]
  rw [hd]
  simp [State.checkParts, storePieces, piecesOf]

/-- A state with the clusters as they stand in another. -/
def State.eclReset (s u : State) : State := { u with ecl := s.ecl }

theorem State.eclReset_updThr (s u : State) (k i : Nat) (g : Thr → Thr) : s.eclReset (u.updThr k i g) = s.eclReset u := rfl
theorem State.eclReset_sampleEnd (s u : State) (k : Nat) (r p : Option Nat) (b : Bool) :
    s.eclReset (u.sampleEnd k r p b) = s.eclReset u := rfl

theorem State.eclReset_storeFreed (s u : State) (k i n : Nat) : s.eclReset (u.storeFreed k i n) = s.eclReset u := by
  unfold State.storeFreed
  dsimp only
  split
  · exact s.eclReset_updThr ..
  · exact (s.eclReset_sampleEnd ..).trans (s.eclReset_updThr ..)

theorem State.lsram_of_eclReset (h : s.eclReset t = s.eclReset u) : t.lsram = u.lsram := (congrArg State.lsram h :)

theorem State.lsram_storeFreed (s : State) (k i n : Nat) : (s.storeFreed k i n).lsram = s.lsram :=
  State.lsram_of_eclReset (State.eclReset_storeFreed s s k i n)

/-- A state with what a local store that drains changes as it stands in another. -/
def State.drainReset (s u : State) : State := { u with ecl := s.ecl, lsram := s.lsram, lsramBad := s.lsramBad }

theorem State.drainReset_eclReset (s u : State) : s.drainReset (s.eclReset u) = s.drainReset u := rfl
theorem State.drainReset_lsWrite (s u : State) (k off : Nat) (bs : List Byte) (p : Bool) : s.drainReset (u.lsWrite k off bs p) = s.drainReset u := rfl

theorem State.drainReset_storeFreed (s u : State) (k i n : Nat) : s.drainReset (u.storeFreed k i n) = s.drainReset u := by
  rw [← s.drainReset_eclReset, s.eclReset_storeFreed, s.drainReset_eclReset]

theorem State.sampleEnd_thr (s : State) (k m : Nat) (r p : Option Nat) (b : Bool) : (s.sampleEnd k r p b).thr k m = s.thr k m := by
  unfold State.sampleEnd State.updCl State.thr
  rw [State.cl_setCl, if_pos rfl]
  dsimp only
  split
  · split <;> rfl
  · rfl

theorem State.storeFreed_sb (s : State) (k i n : Nat) : ((s.storeFreed k i n).thr k i).sb = (s.thr k i).sb.filter (fun e => e.id != n) := by
  unfold State.storeFreed
  dsimp only
  refine iteInduction (motive := fun v : State => (v.thr k i).sb = _) (fun _ => ?_) fun _ => ?_
  · rw [State.thr_updThr, if_pos rfl]
    split <;> rfl
  · rw [State.sampleEnd_thr, State.thr_updThr, if_pos rfl]
    split <;> rfl

theorem State.storeDrain_local {e : Fin 192} {i off : Nat} {b : SbEnt} (hl : s.clLive (e.val / 4) = true)
    (hd : SMap.get 0 (s.cl (e.val / 4)).drained (e.val % 4) ≠ s.eclk + 1)
    (hf : ((List.range 8).map (fun n => 8 * (e.val % 4) + (SMap.get 7 (s.cl (e.val / 4)).turn (e.val % 4) + 1 + n) % 8)).find?
      (s.canDrain (e.val / 4)) = some i)
    (hb : (s.thr (e.val / 4) i).sb = [b]) (hp : s.place (e.val / 4) b.full b.data.length = some (.loc off)) :
    let k := e.val / 4
    ∃ u, exec (.storeDrain e) s = .next u ∧
        u.lsRead k off b.data.length = b.data ∧ (u.thr k i).sb = [] ∧
        (∀ a, a < lsAddr k off ∨ lsAddr k off + b.data.length ≤ a → memByte u.lsram a = memByte s.lsram a) ∧
        { u with ecl := s.ecl, lsram := s.lsram, lsramBad := s.lsramBad } = s := by
  intro k
  let v := s.setCl k { s.cl k with turn := SMap.set 7 (s.cl k).turn (e.val % 4) (i % 8),
                                   drained := SMap.set 0 (s.cl k).drained (e.val % 4) (s.eclk + 1) }
  have hc : v.cl k = { s.cl k with turn := SMap.set 7 (s.cl k).turn (e.val % 4) (i % 8),
                                   drained := SMap.set 0 (s.cl k).drained (e.val % 4) (s.eclk + 1) } := (State.cl_setCl ..).trans (if_pos rfl)
  have hv : v.thr k i = s.thr k i := (congrArg (fun c : Ecl => SMap.get ({} : Thr) c.thr i) hc :)
  have he : exec (.storeDrain e) s = .next ((v.lsWrite k off b.data).storeFreed k i b.id) := by
    change execStoreDrain e s = _
    unfold execStoreDrain
    dsimp only
    rw [if_neg (by simp [hl, hd]), hf]
    exact congrArg _ (State.drainStore_local (by rw [hv]; exact hb) (State.place_loc hp v))
  have hm : ((v.lsWrite k off b.data).storeFreed k i b.id).lsram = memWrite s.lsram (lsAddr k off) b.data := State.lsram_storeFreed ..
  refine ⟨_, he, ?_, ?_, ?_, ?_⟩
  · unfold State.lsRead
    rw [hm, memRead_write]
  · rw [State.storeFreed_sb, show ((v.lsWrite k off b.data).thr k i).sb = [b] from (congrArg Thr.sb hv).trans hb]
    simp
  · intro a ha
    rw [hm]
    exact memByte_write_outside _ _ _ _ ha
  · change s.drainReset ((v.lsWrite k off b.data).storeFreed k i b.id) = s
    rw [State.drainReset_storeFreed, State.drainReset_lsWrite]
    rfl

/-! ### The scrubber -/

theorem State.localSramScrub_early {k : Fin 48} (h : s.eclk < (s.cl k).scrubAt + s.rf .ENG_CL_SCRUB 0 16 (eclBase k)) :
    exec (.localSramScrub k []) s = .next s := if_pos (.inr (.inl h))

theorem State.localSramScrub_row {k : Fin 48} (hiv : s.rf .ENG_CL_SCRUB 0 16 (eclBase k) ≠ 0)
    (h : (s.cl k).scrubAt + s.rf .ENG_CL_SCRUB 0 16 (eclBase k) ≤ s.eclk) (hi : s.fc.inject = none)
    (hd : (s.domain (unitDomain (clFid k))).st = 0)
    (hg : (wordsOf (lsAddr k (64 * (s.cl k).scrub)) 64).filter (SMap.get false s.lsramBad) = []) :
    ∃ u, exec (.localSramScrub k []) s = .next u ∧ (u.cl k).scrub = ((s.cl k).scrub + 1) % 4096 ∧
          (u.cl k).scrubAt = s.eclk ∧ { u with ecl := s.ecl } = s := by
  let v := s.setCl k { s.cl k with scrub := ((s.cl k).scrub + 1) % 4096, scrubAt := s.eclk }
  have hv : v.cl k = { s.cl k with scrub := ((s.cl k).scrub + 1) % 4096, scrubAt := s.eclk } := (State.cl_setCl ..).trans (if_pos rfl)
  refine ⟨v, ?_, congrArg Ecl.scrub hv, congrArg Ecl.scrubAt hv, rfl⟩
  have hc : v.lsCheck k (64 * (s.cl k).scrub) 64 [] = (false, v) := State.lsCheck_clean (s := v) hi hg
  refine (if_neg ?_).trans (congrArg (fun p : Bool × State => Host.Outcome.next p.2) hc)
  rintro (hc | hc | hc)
  · exact hiv hc
  · exact absurd h (Nat.not_le.2 hc)
  · exact hc hd

/-- Settles O47. -/
theorem engineLocalMemory : Obligations.EngineLocalMemory := by
  unfold Obligations.EngineLocalMemory
  intro s t
  refine ⟨fun n sg c hc w h => ?_, fun n c hc w p h ha hp => ?_, fun w off h ha hp hg => State.atom_local h ha hp hg,
    fun e i off b hl hd hf hb hp => State.storeDrain_local hl hd hf hb hp,
    fun k hiv => ⟨State.localSramScrub_early, fun h hi hd hg => State.localSramScrub_row hiv h hi hd hg⟩⟩
  · rw [exec_load hc]
    exact ⟨fun off hsb ha hp hg => State.load_local h hsb ha hp hg, fun hp hi hv => State.load_noPlace h hp hi hv⟩
  · rw [exec_store hc]
    exact State.store_runs h ha hp

end Sys2Proof.Machine

namespace Sys2Proof.Machine
variable {s₀ s t u : State} {k i : Nat} {y : Thr}

/-! ### What a request that leaves an interface changes -/

/-- Only the interfaces, registers, counters and bandwidth windows have changed. -/
def State.SendsOnly (s₀ s : State) : Prop := s₀.netReset s = s₀

theorem State.SendsOnly.refl (s : State) : s.SendsOnly s := Eq.refl s

theorem State.SendsOnly.ite {c : Prop} [Decidable c] (hs : s₀.SendsOnly s) (ht : s₀.SendsOnly t) : s₀.SendsOnly (if c then s else t) :=
  iteInduction (fun _ => hs) fun _ => ht

theorem State.SendsOnly.foldl {α : Type} {g : State → α → State} {xs : List α} (h : s₀.SendsOnly s) (hg : ∀ s x, s₀.SendsOnly s → s₀.SendsOnly (g s x)) :
    s₀.SendsOnly (xs.foldl g s) :=
  List.foldlRecOn xs g h fun t ht x _ => hg t x ht

/-- A pair whose state is one such. -/
def State.SendsOnlyPair {α : Type} (s₀ : State) (p : α × State) : Prop := s₀.SendsOnly p.2

theorem State.SendsOnlyPair.mk {α : Type} {x : α} (h : s₀.SendsOnly t) : s₀.SendsOnlyPair (x, t) := h

theorem State.SendsOnlyPair.of_eq {α : Type} {p : α × State} {x : α} (h : s₀.SendsOnlyPair p) (e : p = (x, t)) : s₀.SendsOnly t := by
  subst e
  exact h

theorem State.SendsOnlyPair.ite {α : Type} {c : Prop} [Decidable c] {x y : α × State} (hx : s₀.SendsOnlyPair x) (hy : s₀.SendsOnlyPair y) :
    s₀.SendsOnlyPair (if c then x else y) :=
  iteInduction (fun _ => hx) fun _ => hy

theorem State.SendsOnly.upd (hs : s₀.SendsOnly s) {regs : SMap Word32} {cyc : SMap CycReg} {ni : SMap Ni} {ctr : SMap Nat} {bw : SMap BwSt} :
        s₀.SendsOnly ⟨s.pending, s.tick, s.frst, s.started, s.prim, s.haltConds, s.fallback, s.drainPend, s.drainAt, s.pdrec, regs, cyc, s.modeWas,
    s.quietWas, s.shadows, s.tabs, s.fuses, s.ownEp, s.tim, s.fc, s.prg, s.epo, s.hub, s.rkCopy, s.rbuf, s.cred, s.arbs, ni, s.saf, s.home, s.dir,
    s.plru, s.pred, s.cache, s.recalls, s.sram, s.sramBad, s.bank, s.loc, s.que, s.qm, s.refillAt, s.ecl, s.lsram, s.lsramBad, ctr, s.ctrWas,
    s.ctrClr, s.wakePin, s.dom, s.sigs, s.slc, s.freeze, bw, s.probe, s.free⟩ :=
    hs

theorem State.SendsOnly.putWord (hs : s₀.SendsOnly s) {r : Reg} {v : Nat} {base : Nat} {i : Nat} : s₀.SendsOnly (State.putWord s r v base i) :=
  hs.upd

theorem State.SendsOnly.noteCyc (hs : s₀.SendsOnly s) {off : Nat} {g : CycReg → CycReg} : s₀.SendsOnly (State.noteCyc s off g) :=
  hs.upd

theorem State.SendsOnly.noteSet (hs : s₀.SendsOnly s) {r : Reg} {bits : Nat} {base i : Nat} : s₀.SendsOnly (State.noteSet s r bits base i) :=
  hs.upd

theorem State.SendsOnly.noteUpd (hs : s₀.SendsOnly s) {r : Reg} {g : Nat → Nat} {base i : Nat} : s₀.SendsOnly (State.noteUpd s r g base i) :=
  hs.noteCyc

theorem State.SendsOnly.setReg (hs : s₀.SendsOnly s) {r : Reg} {v : Nat} {base : Nat} {i : Nat} : s₀.SendsOnly (State.setReg s r v base i) :=
  hs.noteSet.putWord

theorem State.SendsOnly.setRf (hs : s₀.SendsOnly s) {r : Reg} {lo w x : Nat} {base : Nat} {i : Nat} : s₀.SendsOnly (State.setRf s r lo w x base i) :=
  hs.noteSet.putWord

theorem State.SendsOnly.bump (hs : s₀.SendsOnly s) {r : Reg} {base : Nat} {i : Nat} {n : Nat} : s₀.SendsOnly (State.bump s r base i n) :=
  hs.noteUpd.putWord

theorem State.SendsOnly.latchWords (hs : s₀.SendsOnly s) {cap : Reg} {ws : List (Reg × Nat)} {base : Nat} {i : Nat} {miss : List Reg} : s₀.SendsOnly (State.latchWords s cap ws base i miss) :=
  (.ite (hs.noteCyc.foldl fun _ _ hs => hs.bump) (hs.foldl fun _ _ hs => hs.setReg))

theorem State.SendsOnly.count (hs : s₀.SendsOnly s) {b i : Nat} {n : Nat} : s₀.SendsOnly (State.count s b i n) :=
  (.ite hs (.ite hs.upd (.ite (.ite hs.upd.upd hs.upd.upd.setRf) hs.upd.setRf)))

theorem State.SendsOnly.countSlice (hs : s₀.SendsOnly s) {sl i : Nat} {n : Nat} : s₀.SendsOnly (State.countSlice s sl i n) :=
  hs.count

theorem State.SendsOnly.setNi (hs : s₀.SendsOnly s) {f : Nat} {n : Ni} : s₀.SendsOnly (State.setNi s f n) :=
  hs.upd

theorem State.SendsOnly.updNi (hs : s₀.SendsOnly s) {f : Nat} {g : Ni → Ni} : s₀.SendsOnly (State.updNi s f g) :=
  hs.setNi

theorem State.SendsOnly.countFloor (hs : s₀.SendsOnly s) {f : Nat} {p : Pkt} : s₀.SendsOnly (State.countFloor s f p) :=
  (.ite hs hs.upd)

theorem State.SendsOnly.pushNow (hs : s₀.SendsOnly s) {f : Nat} {p : Pkt} : s₀.SendsOnly (State.pushNow s f p) :=
  (.ite hs.countFloor.count.count.updNi hs.countFloor.count.count.updNi)

theorem State.SendsOnly.push (hs : s₀.SendsOnly s) {f : Nat} {p : Pkt} : s₀.SendsOnly (State.push s f p) :=
  (.ite hs.updNi hs.pushNow)

theorem State.SendsOnly.inject (hs : s₀.SendsOnly s) {f : Nat} {p : Pkt} : s₀.SendsOnly (State.inject s f p) :=
  hs.push

theorem State.SendsOnly.holdPkt (hs : s₀.SendsOnly s) {f : Nat} {p : Pkt} : s₀.SendsOnly (State.holdPkt s f p) :=
  hs.updNi.count.inject

theorem State.SendsOnly.ownComp (hs : s₀.SendsOnly s) {f : Nat} {p : Pkt} {status : Nat} : s₀.SendsOnly (State.ownComp s f p status) :=
  hs.updNi

theorem State.SendsOnly.countAnswer (hs : s₀.SendsOnly s) {sl status : Nat} : s₀.SendsOnly (State.countAnswer s sl status) :=
  (.ite hs.countSlice (.ite hs.countSlice (.ite hs.countSlice hs)))

theorem State.SendsOnly.portBytes (hs : s₀.SendsOnly s) {f dir n : Nat} : s₀.SendsOnly (State.portBytes s f dir n) :=
  (.ite hs (.ite hs.count.upd hs.count))

theorem State.SendsOnly.present (hs : s₀.SendsOnly s) {f : Nat} {bs : List Beat} : s₀.SendsOnly (State.present s f bs) :=
  (.ite hs.updNi.portBytes hs)

theorem State.SendsOnly.captureTs (hs : s₀.SendsOnly s) {f : Nat} {egress : Bool} {p : Pkt} : s₀.SendsOnly (State.captureTs s f egress p) :=
  (.ite hs hs.latchWords)

theorem State.SendsOnly.holdOrRefuse (hs : s₀.SendsOnly s) {f : Nat} {p : Pkt} : s₀.SendsOnlyPair (State.holdOrRefuse s f p) :=
  (.ite (.mk hs.holdPkt) (.mk (.count (.ite hs.bump hs))))

theorem State.SendsOnly.setSrc (hs : s₀.SendsOnly s) {f i : Nat} {e : Option SrcEnt} : s₀.SendsOnly (State.setSrc s f i e) :=
  hs.updNi

theorem State.SendsOnly.progress (hs : s₀.SendsOnly s) {f t : Nat} {cnt : Nat} {ops : List Word64} : s₀.SendsOnly (State.progress s f t cnt ops) := by
  unfold State.progress
  split
  · exact hs
  · exact (.ite hs.present.updNi.present.countAnswer.updNi hs.present.updNi)

theorem State.SendsOnly.pieceDone (hs : s₀.SendsOnly s) {f i : Nat} {status : Nat} {data : Option (List Byte × Word64 × Bool)} {cnt : Nat} {ops : List Word64} : s₀.SendsOnly (State.pieceDone s f i status data cnt ops) := by
  unfold State.pieceDone
  split
  · exact hs
  · exact hs.setSrc.progress

theorem State.SendsOnly.cohError (hs : s₀.SendsOnly s) {f i status : Nat} {peer : Fid} : s₀.SendsOnly (State.cohError s f i status peer) := by
  unfold State.cohError
  split
  · exact hs
  · exact (by split; exact hs.present.countAnswer.updNi; exact hs.setSrc)

theorem State.SendsOnly.pieceFail (hs : s₀.SendsOnly s) {f i status : Nat} : s₀.SendsOnly (State.pieceFail s f i status) := by
  unfold State.pieceFail
  split
  · exact hs
  · exact (.ite hs.setSrc.ownComp (.ite hs.cohError hs.pieceDone))

theorem State.SendsOnly.sleepCheck (hs : s₀.SendsOnly s) {f i : Nat} : s₀.SendsOnly (State.sleepCheck s f i) := by
  unfold State.sleepCheck
  split
  · exact hs
  · exact (.ite (.ite hs.count.pieceFail hs) (.ite hs (by split; exact (hs.holdOrRefuse.of_eq ‹_›).setSrc; exact (hs.holdOrRefuse.of_eq ‹_›).pieceFail)))

theorem State.SendsOnly.countOp (hs : s₀.SendsOnly s) {sl opc len : Nat} : s₀.SendsOnly (State.countOp s sl opc len) :=
  (.ite (.countSlice (.ite hs.countSlice.countSlice (.ite hs.countSlice.countSlice hs.countSlice))) (.ite (.countSlice (.ite hs.countSlice.countSlice (.ite hs.countSlice.countSlice hs.countSlice))) (.ite (.countSlice (.ite hs.countSlice.countSlice (.ite hs.countSlice.countSlice hs.countSlice))) (.ite (.countSlice (.ite hs.countSlice.countSlice (.ite hs.countSlice.countSlice hs.countSlice))) (.ite hs.countSlice.countSlice (.ite hs.countSlice.countSlice hs.countSlice))))))

theorem State.SendsOnly.noteOld (hs : s₀.SendsOnly s) {f : Nat} {p : Pkt} : s₀.SendsOnly (State.noteOld s f p) :=
  (.ite hs hs.updNi)

theorem State.SendsOnly.streamTake (hs : s₀.SendsOnly s) {f : Nat} {p : Pkt} : s₀.SendsOnly (State.streamTake s f p) :=
  (.ite hs hs.updNi)

theorem State.SendsOnly.pushHeld (hs : s₀.SendsOnly s) {f : Nat} {ps : List Pkt} : s₀.SendsOnly (State.pushHeld s f ps) := by
  unfold State.pushHeld
  split
  · exact hs
  · exact (.ite hs.updNi (hs.foldl fun _ _ hs => hs.noteOld.push))

theorem State.SendsOnly.issue (hs : s₀.SendsOnly s) {f i : Nat} {e : SrcEnt} : s₀.SendsOnly (State.issue s f i e) :=
  (.ite hs.streamTake.setSrc.updNi.pushHeld (.pushHeld (.setSrc (.ite hs.streamTake.updNi hs.streamTake))))

theorem State.SendsOnly.engSend (hs : s₀.SendsOnly s) {k sl : Nat} {req off : Nat} {q : Pkt} {data : Option (List Byte × Word64 × Bool)} : s₀.SendsOnly (State.engSend s k sl req off q data) := by
  simp only [State.engSend]
  split
  · exact hs
  · exact (.ite hs.setSrc.count.countOp.captureTs.pieceFail (.ite hs.setSrc.count.countOp.captureTs.bump.count.pieceFail (by split; exact (.ite hs.setSrc.count.countOp.captureTs.sleepCheck.issue hs.setSrc.count.countOp.captureTs.sleepCheck); exact hs.setSrc.count.countOp.captureTs.sleepCheck)))

theorem State.SendsOnly.ecl (h : s.SendsOnly t) : t.ecl = s.ecl := (congrArg State.ecl h :)

/-! ### Without sampling -/

theorem State.rf_issued_sampling {k i : Nat} (hk : k < 48) (hi : i < 32) :
    (s.issued k i).rf .ENG_SAMP_CFG 31 1 (eclBase k) = s.rf .ENG_SAMP_CFG 31 1 (eclBase k) := by
  have hf (l : List Nat) (v : State) : (l.foldl (fun s m => s.updThr k m (fun x => if x.st = .ready then { x with
      skips := min (x.skips + 1) 0xFFF } else x)) v).rf .ENG_SAMP_CFG 31 1 (eclBase k) = v.rf .ENG_SAMP_CFG 31 1 (eclBase k) := by
    induction l generalizing v with
    | nil => rfl
    | cons m l ih => exact (ih _).trans (State.rf_congr rfl rfl ..)
  have hr : Reg.off .ENG_SAMP_CFG (eclBase k) 0 = 0xF80040 + 0x1000 * k := by
    unfold Reg.off eclBase
    simp only [Reg.spec]
    omega
  have ho : Reg.off .ENG_SAMP_CFG (eclBase k) 0 < 0x1000000 := by omega
  have hc {v : State} (b j n : Nat) : (v.count b j n).rf .ENG_SAMP_CFG 31 1 (eclBase k) = v.rf .ENG_SAMP_CFG 31 1 (eclBase k) :=
    congrArg (fld · 31 1) (v.reg_count_low b j n ho)
  have hb (v : State) : (v.bump .ENG_ISSUE (engBase (4 * k + i / 8))).rf .ENG_SAMP_CFG 31 1 (eclBase k) = v.rf .ENG_SAMP_CFG 31 1 (eclBase k) :=
    congrArg (fld · 31 1) (v.reg_bump_other .ENG_ISSUE .ENG_SAMP_CFG _ _ _ _ _ (by rw [hr]; unfold Reg.off engBase; have := hi; simp only [Reg.spec]; omega))
  unfold State.issued State.countSlice
  dsimp only
  rw [hc, hc, hb]
  have hw (v : State) (g : Ecl → Ecl) (x : Thr → Thr) :
      ((v.updCl k g).updThr k i x).rf .ENG_SAMP_CFG 31 1 (eclBase k) = v.rf .ENG_SAMP_CFG 31 1 (eclBase k) := State.rf_congr rfl rfl ..
  rw [hw]
  exact hf _ s

theorem State.atIssue_unsampled {t : Fin 1536} (h : s.unsampled t) (op : TOp) (w : Nat) :
    s.atIssue t op w = s.issued (t.val / 32) (t.val % 32) :=
  if_pos ((State.rf_issued_sampling (by omega) (by omega)).trans h)

/-- An instruction that issues while its cluster takes no samples. -/
theorem State.instr_unsampled {t : Fin 1536} {op : TOp} {w : Nat} (hs : s.unsampled t) (h : s.issues t op w) {u : State}
    {body : Nat → Nat → Thr → Nat → State → State}
    (hb : body (t.val / 32) (t.val % 32) (s.thrOf t) w (s.issued (t.val / 32) (t.val % 32)) = u) (hl : latency op = 4) :
    s.instr t op .clean body = .next (u.sampleWait (t.val / 32) (t.val % 32) ((s.issued (t.val / 32) (t.val % 32)).cl (t.val / 32)).serial 4) := by
  rw [State.instr_of_issues h, State.atIssue_unsampled hs, hb, hl]

/-! ### Line copies and messages -/

section
variable {t : Fin 1536} {w : Nat} (hs : s.unsampled t)
include hs

/-- LDLN of a line whose local buffer meets no buffered store. -/
theorem State.ldln_sends {p : Place} {off : Nat} {ds : List (Nat × Nat × Nat)} {s1 : State} (h : s.issues t .ldln w) :
    let k := t.val / 32
    let i := t.val % 32
    let x := s.thrOf t
    let s0 := s.issued k i
    let a := x.reg (opA w)
    let b := x.reg (opB w)
    s0.lineAt k a.toNat = some p → s0.bufOff k b.toNat 64 = some off → a.toNat % 64 = 0 → b.toNat % 64 = 0 →
    x.meet b.toNat 64 = .clear → s0.checkParts k x.slice.toNat false [(a.toNat, 64, p)] = (some ds, s1) →
    exec (.ldln t .clean) s = .next ((((s1.newReq k { id := 0, thr := i, kind := .lineLoad off, d := opD w, ea := a, bytes := zeros 64 }).2.updThr
      k i Thr.step).sendParts k i x.slice.toNat (s1.cl k).serial a.toNat [(a.toNat, 64, p)] ds).sampleWait k i (s0.cl k).serial 4) := by
  intro k i x s0 a b hl hb ha hb64 hm hc
  change execLdln t .clean s = _
  unfold execLdln
  refine State.instr_unsampled hs h ?_ rfl
  dsimp only
  rw [hl, hb]
  dsimp only
  rw [if_neg (not_not_intro ha), if_neg (not_not_intro hb64), hm]
  dsimp only
  rw [hc]
  rfl

/-- STLN of a line of the own bank. -/
theorem State.stln_sends {o off : Nat} {bytes : List Byte} {bad : Bool} {ds : List (Nat × Nat × Nat)} {s1 s2 : State} (h : s.issues t .stln w) :
    let k := t.val / 32
    let i := t.val % 32
    let x := s.thrOf t
    let s0 := s.issued k i
    let a := x.reg (opA w)
    let b := x.reg (opB w)
    s0.lineAt k a.toNat = some (.side o) → s0.bufOff k b.toNat 64 = some off → a.toNat % 64 = 0 → b.toNat % 64 = 0 →
    s0.bufRead k i b.toNat off 64 [] = (some (bytes, bad), s1) → bad = false →
    s1.checkParts k x.slice.toNat true [(a.toNat, 64, .side o)] = (some ds, s2) →
    exec (.stln t .clean []) s = .next ((((s2.newReq k { id := 0, thr := i, kind := .lineStore, d := opD w, ea := a }).2.updThr k i
      Thr.step).locPush { cluster := k, thr := i, why := .part (s2.cl k).serial, o := o, n := 64, wr := true, data := bytes,
                          slice := x.slice.toNat }).sampleWait k i (s0.cl k).serial 4) := by
  intro k i x s0 a b hl hb ha hb64 hr hbad hc
  subst hbad
  change execStln t .clean [] s = _
  unfold execStln
  refine State.instr_unsampled hs h ?_ rfl
  dsimp only
  rw [hl, hb]
  dsimp only
  rw [if_neg (not_not_intro ha), if_neg (not_not_intro hb64), hr]
  dsimp only
  rw [hc]
  rfl

theorem State.enq_sends {off : Nat} {bytes : List Byte} {bad : Bool} {s1 : State} (h : s.issues t .enq w) :
    let k := t.val / 32
    let i := t.val % 32
    let x := s.thrOf t
    let s0 := s.issued k i
    let a := x.reg (opA w)
    let b := x.reg (opB w)
    s0.bufOff k b.toNat (fld a.toNat 16 9 + 1) = some off → s0.bufRead k i b.toNat off (fld a.toNat 16 9 + 1) [] = (some (bytes, bad), s1) →
    exec (.enqInstr t .clean []) s = .next ((s1.sendMsg k i (opD w) .msg (queueReq 0x17 a.toNat)
      (some (bytes, BitVec.allOnes 64, bad))).sampleWait k i (s0.cl k).serial 4) := by
  intro k i x s0 a b hb hr
  change execEnqInstr t .clean [] s = _
  unfold execEnqInstr
  refine State.instr_unsampled hs h ?_ rfl
  dsimp only
  rw [hb]
  dsimp only
  rw [hr]

theorem State.deq_sends {off : Nat} (h : s.issues t .deq w) :
    let k := t.val / 32
    let i := t.val % 32
    let x := s.thrOf t
    let s0 := s.issued k i
    let b := x.reg (opB w)
    s0.bufOff k b.toNat 512 = some off → b.toNat % 64 = 0 → x.meet b.toNat 512 = .clear →
    exec (.deqInstr t .clean) s = .next ((s0.sendMsg k i (opD w) (.deq off) (queueReq 0x18 (x.reg (opA w)).toNat)).sampleWait k i
      (s0.cl k).serial 4) := by
  intro k i x s0 b hb hb64 hm
  change execDeqInstr t .clean s = _
  unfold execDeqInstr
  refine State.instr_unsampled hs h ?_ rfl
  dsimp only
  rw [hb]
  dsimp only
  rw [if_neg (not_not_intro hb64), hm]

theorem State.dbell_sends (h : s.issues t .dbell w) :
    let k := t.val / 32
    let i := t.val % 32
    let s0 := s.issued k i
    exec (.dbell t .clean) s = .next ((s0.sendMsg k i (opD w) .msg (queueReq 0x19 ((s.thrOf t).reg (opA w)).toNat)).sampleWait k i
      (s0.cl k).serial 4) := by
  change execDbell t .clean s = _
  unfold execDbell
  exact State.instr_unsampled hs h rfl rfl

theorem State.intr_sends (h : s.issues t .intr w) :
    let k := t.val / 32
    let i := t.val % 32
    let x := s.thrOf t
    let s0 := s.issued k i
    exec (.intr t .clean) s = .next ((s0.sendMsg k i (opD w) .msg
      { net := .req, dst := BitVec.ofNat 10 (fld (x.reg (opA w)).toNat 0 10), opc := 0x1A, addr := BitVec.ofNat 52 (fld (x.reg (opB w)).toNat 0 12) }).sampleWait k i (s0.cl k).serial 4) := by
  change execIntr t .clean s = _
  unfold execIntr
  exact State.instr_unsampled hs h rfl rfl

theorem State.seqw_sends {pa off d : Nat} {coh : Bool} {bytes : List Byte} {bad : Bool} {s1 s2 : State} (h : s.issues t .seqw w) :
    let k := t.val / 32
    let i := t.val % 32
    let x := s.thrOf t
    let s0 := s.issued k i
    let a := x.reg (opA w)
    let b := x.reg (opB w)
    (s0.place k a.toNat (2 ^ fld w 0 3)).map (s0.asFabric k) = some (.fab pa coh) → s0.bufOff k b.toNat (2 ^ fld w 0 3) = some off →
    a.toNat % 2 ^ fld w 0 3 = 0 → b.toNat % 2 ^ fld w 0 3 = 0 →
    s0.bufRead k i b.toNat off (2 ^ fld w 0 3) [] = (some (bytes, bad), s1) → s1.engCheck k x.slice.toNat pa 0x14 = (some d, s2) →
    exec (.seqw t .clean []) s = .next ((s2.sendMsg k i (opD w) .msg
        { net := .req, dst := 0x181, opc := 0x14, addr := BitVec.ofNat 52 pa, size := BitVec.ofNat 3 (fld w 0 3) }
        (some (patch (zeros 64) (pa % 64) bytes, spanBe (pa % 64) (2 ^ fld w 0 3), bad))).sampleWait k i (s0.cl k).serial 4) := by
  intro k i x s0 a b hp hb ha hba hr hc
  change execSeqw t .clean [] s = _
  unfold execSeqw
  refine State.instr_unsampled hs h ?_ rfl
  dsimp only
  rw [hp, hb]
  dsimp only
  rw [if_neg (not_not_intro ha), if_neg (not_not_intro hba), hr]
  dsimp only
  rw [hc]

end

/-- A message instruction adds its request, and its thread goes on. -/
theorem State.sendMsg_cl (s : State) (k i d : Nat) (kind : ReqKind) (q : Pkt) (data : Option (List Byte × Word64 × Bool)) :
    let u := s.sendMsg k i d kind q data
    (u.cl k).reqs = (s.cl k).reqs ++ [{ id := (s.cl k).serial, thr := i, kind := kind, d := d }] ∧
    (u.cl k).serial = (s.cl k).serial + 1 ∧ (∀ j, u.thr k j = if j = i then (s.thr k i).step else s.thr k j) := by
  intro u
  let v := s.updCl k (fun c => { c with serial := (s.cl k).serial + 1,
                                        reqs := c.reqs ++ [{ id := (s.cl k).serial, thr := i, kind := kind, d := d }] })
  have hv : v.cl k = { s.cl k with
      serial := (s.cl k).serial + 1, reqs := (s.cl k).reqs ++ [{ id := (s.cl k).serial, thr := i, kind := kind, d := d }] } := (State.cl_setCl ..).trans (if_pos rfl)
  have he : u.ecl = (v.updThr k i Thr.step).ecl := State.SendsOnly.ecl ((State.SendsOnly.refl _).engSend)
  have hc : u.cl k = (v.updThr k i Thr.step).cl k := congrArg (SMap.get ({} : Ecl) · k) he
  have hx : (v.updThr k i Thr.step).cl k = { v.cl k with thr := SMap.set {} (v.cl k).thr i (v.thr k i).step } :=
    (State.cl_setCl ..).trans (if_pos rfl)
  have ht (j : Nat) : v.thr k j = s.thr k j := (congrArg (fun c : Ecl => SMap.get ({} : Thr) c.thr j) hv :)
  rw [hc, hx, hv]
  refine ⟨rfl, rfl, fun j => ?_⟩
  rw [State.thr_of_ecl he, State.thr_updThr, ht, ht]

/-! ### Receive rings -/

theorem State.ring_updThr (s : State) (k i : Nat) (g : Thr → Thr) (bank : Bool) (b : Nat) : (s.updThr k i g).ring k bank b = s.ring k bank b := by
  unfold State.ring State.updThr State.setThr State.updCl
  rw [State.cl_setCl, if_pos rfl]

theorem State.ring_setRing (s : State) (k : Nat) (bank : Bool) (b : Nat) (r : RxRing) : (s.setRing k bank b r).ring k bank b = r := by
  unfold State.ring State.setRing State.updCl
  rw [State.cl_setCl, if_pos rfl, SMap.get_set, if_pos rfl]

theorem State.thr_setRing (s : State) (k : Nat) (bank : Bool) (b : Nat) (r : RxRing) (i : Nat) : (s.setRing k bank b r).thr k i = s.thr k i := by
  unfold State.thr State.setRing State.updCl
  rw [State.cl_setCl, if_pos rfl]

theorem State.EngAt.ringOf (h : s.EngAt k i y u) (bank : Bool) (b : Nat) : u.ring k bank b = s.ring k bank b :=
  congrArg (fun m => SMap.get ({} : RxRing) m (ringKey bank b)) h.ring

theorem State.EngAt.bindEntry (h : s.EngAt k i y u) (bank : Bool) (b : Nat) : u.bindEntry k bank b = s.bindEntry k bank b :=
  congrArg (fun m => SMap.get 0 m _) (congrArg State.tabs h.rest :)

theorem State.EngAt.recvBind (h : s.EngAt k i y u) (hs : y.served = (s.thr k i).served) (ht : y.tep = (s.thr k i).tep) :
    u.recvBind k i = s.recvBind k i := by
  simp only [State.recvBind, h.thr, hs, ht, h.bindEntry, h.ringOf]

theorem State.ring_sampleWait (s : State) (k i n lat : Nat) (bank : Bool) (b : Nat) :
    (s.sampleWait k i n lat).ring k bank b = s.ring k bank b :=
  congrArg (fun m => SMap.get ({} : RxRing) m (ringKey bank b)) ((State.EngAt.refl s k i).sampleWait n lat).ring

/-- RECV hands out something of binding `b` and leaves its ring as `r`. -/
theorem State.EngAt.handOut (h : s.EngAt k i y u) (b d : Nat) (bank : Bool) (r : RxRing) (v : Word64) (n lat : Nat) :
    let w := (((u.updThr k i (fun y => { y with served := b })).setRing k bank b r).result k i d 4 v).sampleWait k i n lat
    w.ring k bank b = r ∧ w.thr k i = ({ y with served := b } : Thr).step.put d v (s.eclk + 4) := by
  dsimp only
  rw [State.ring_sampleWait, State.sampleWait_thr]
  unfold State.result
  rw [State.ring_updThr, State.ring_setRing, State.thr_updThr, if_pos rfl, State.thr_setRing, State.thr_updThr, if_pos rfl, h.thr, ← h.eclk]
  exact ⟨rfl, rfl⟩

section
variable {t : Fin 1536} {w : Nat}

theorem State.recv_bell {b : Nat} (h : s.issues t .recv w) (hb : s.recvBind (t.val / 32) (t.val % 32) = some b) :
    let k := t.val / 32
    let x := s.thrOf t
    let r := s.ring k x.tep b
    r.bell = true → ∃ u, exec (.recv t .clean) s = .next u ∧ u.ring k x.tep b = { r with bell := false } ∧ u.thrOf t =
      { ({ x with served := b } : Thr).step.put (opD w) (descriptor (s.bindEntry k x.tep b) b 0 0 true) (s.eclk + 4) with skips := 0 } := by
  intro k x r hr
  change ∃ u, execRecv t .clean s = .next u ∧ _
  unfold execRecv
  refine State.instr_next h fun v n hv => ?_
  have hvb : v.recvBind (t.val / 32) (t.val % 32) = some b := (hv.recvBind rfl rfl).trans hb
  dsimp only
  rw [hvb]
  dsimp only
  rw [hv.ringOf, if_pos hr, hv.bindEntry]
  obtain ⟨hring, hthr⟩ := hv.handOut b (opD w) x.tep { r with bell := false } (descriptor (s.bindEntry k x.tep b) b 0 0 true) n (latency .recv)
  exact ⟨hring, hthr.trans (({ x with served := b } : Thr).step.put_skips ..)⟩

theorem State.recv_message {b slot len : Nat} (h : s.issues t .recv w) (hb : s.recvBind (t.val / 32) (t.val % 32) = some b) :
    let k := t.val / 32
    let x := s.thrOf t
    let r := s.ring k x.tep b
    let e := s.bindEntry k x.tep b
    r.bell = false → r.msgs[r.handed]? = some (slot, len) → ∃ u, exec (.recv t .clean) s = .next u ∧
        u.ring k x.tep b = { r with handed := r.handed + 1 } ∧ u.thrOf t =
        { ({ x with served := b } : Thr).step.put (opD w) (descriptor e b (bindSlot e slot) len false) (s.eclk + 4) with skips := 0 } := by
  intro k x r e hr hm
  change ∃ u, execRecv t .clean s = .next u ∧ _
  unfold execRecv
  refine State.instr_next h fun v n hv => ?_
  have hvb : v.recvBind (t.val / 32) (t.val % 32) = some b := (hv.recvBind rfl rfl).trans hb
  have hget : r.msgs.getD r.handed (0, 1) = (slot, len) := by rw [List.getD_eq_getElem?_getD, hm]; rfl
  dsimp only
  rw [hvb]
  dsimp only
  rw [hv.ringOf, if_neg (show ¬(s.ring (t.val / 32) (s.thrOf t).tep b).bell = true from ne_true_of_eq_false hr), hv.bindEntry, hget]
  obtain ⟨hring, hthr⟩ := hv.handOut b (opD w) x.tep { r with handed := r.handed + 1 } (descriptor e b (bindSlot e slot) len false) n (latency .recv)
  exact ⟨hring, hthr.trans (({ x with served := b } : Thr).step.put_skips ..)⟩

theorem State.recv_waits (h : s.issues t .recv w) (hb : s.recvBind (t.val / 32) (t.val % 32) = none) (he : (s.thrOf t).tep = s.epo.cur) :
    ∃ u, exec (.recv t .clean) s = .next u ∧ u.thrOf t = { s.thrOf t with st := .wait, until_ := none, skips := 0 } ∧ s.onlyThread t u := by
  change ∃ u, execRecv t .clean s = .next u ∧ _
  unfold execRecv
  refine State.instr_runs h fun v hv => ?_
  have hvb : v.recvBind (t.val / 32) (t.val % 32) = none := (hv.recvBind rfl rfl).trans hb
  dsimp only
  rw [hvb]
  dsimp only
  rw [if_neg (not_not_intro (he.trans (congrArg EpoSt.cur hv.epo).symm))]
  exact hv.updThr fun y => { y with st := .wait, until_ := none }

theorem State.rxdone_frees {b : Nat} (h : s.issues t .rxdone w) :
    let k := t.val / 32
    let x := s.thrOf t
    b = (x.reg (opA w)).toNat % 64 → 0 < (s.ring k x.tep b).handed →
      ∃ u, exec (.rxdone t .clean) s = .next u ∧ u.thrOf t = { x.step with skips := 0 } ∧ u.ring k x.tep b =
        { s.ring k x.tep b with msgs := (s.ring k x.tep b).msgs.drop 1, handed := (s.ring k x.tep b).handed - 1 } := by
  intro k x hb hh
  subst hb
  change ∃ u, execRxdone t .clean s = .next u ∧ _
  unfold execRxdone
  refine State.instr_next h fun v n hv => ?_
  dsimp only
  rw [hv.ringOf, if_neg (Nat.ne_of_gt hh)]
  refine ⟨?_, (State.ring_sampleWait ..).trans (State.ring_setRing ..)⟩
  unfold State.thrOf
  rw [State.sampleWait_thr, State.thr_setRing, State.thr_updThr, if_pos rfl, hv.thr]
  rfl

end

/-- Settles O48. -/
theorem engineMessagesAndLineCopies : Obligations.EngineMessagesAndLineCopies := by
  unfold Obligations.EngineMessagesAndLineCopies
  refine ⟨fun s t w hs => ?_, fun s k i d kind q data => s.sendMsg_cl k i d kind q data, fun s t w => ?_⟩
  · exact ⟨fun p off ds s1 h => State.ldln_sends hs h, fun o off bytes bad ds s1 s2 h => State.stln_sends hs h,
      fun off bytes bad s1 h => State.enq_sends hs h, fun off h => State.deq_sends hs h, State.dbell_sends hs, State.intr_sends hs,
      fun pa coh off bytes bad d s1 s2 h => State.seqw_sends hs h⟩
  · exact ⟨fun b h hb => ⟨State.recv_bell h hb, fun slot len => State.recv_message h hb⟩, State.recv_waits, fun b h => State.rxdone_frees h⟩

end Sys2Proof.Machine

namespace Sys2Proof.Machine
variable {s t u : State}

/-! ### Deliveries -/

section
variable {k : Fin 48} {q p : Pkt} {b : Nat} (hh : s.prim ≠ .halt) (hin : (s.nif (clFid k)).inbox = [q, p]) (hqn : q.net = .req)
  (hqo : q.opc = 0x17) (hpn : p.net = .dat) (hpo : p.opc = 0x20) (hsrc : p.src = q.src) (htx : p.txid = q.txid)
  (hlo : 0x170 ≤ q.src.toNat) (hhi : q.src.toNat < 0x174) (hf : s.clusterFenced k = false)
  (hb : (List.range 64).find? (fun b => bindVld (s.bindEntry k s.epo.cur b) &&
      bindQueue (s.bindEntry k s.epo.cur b) == q.addr.toNat % 2 ^ 16) = some b)

/-- The cluster with its delivery and its data taken from the inbox. -/
def State.deliveryTaken (s : State) (k : Nat) : State := s.updNi (clFid k) (fun n => { n with inbox := [] })

/-- The cluster with a delivery in the ring of its binding. -/
def State.deliveredTo (s : State) (k b : Nat) (p : Pkt) : State :=
  let e := s.bindEntry k s.epo.cur b
  let r := s.ring k s.epo.cur b
  let slot := r.tail % bindSlots e
  ((((s.deliveryTaken k).lsWrite k (bindSlot e slot) p.data p.psn).count (clFid k) 76).setRing k s.epo.cur b
    { r with msgs := r.msgs ++ [(slot, p.data.length)], tail := (slot + 1) % bindSlots e }).wakeRecv k (bindThr e) s.epo.cur

include hh hin hqn hqo hpn hpo hsrc htx hlo hhi hf hb

theorem State.engDelivery_eq : exec (.engDelivery k) s = .next (
    let e := s.bindEntry k s.epo.cur b
    let r := s.ring k s.epo.cur b
    let f := clFid k
    if fld (s.thrEntry k s.epo.cur (bindThr e)) 14 6 ≠ q.slice.toNat then
      ((s.deliveryTaken k).bump .ENG_CL_NOBIND (eclBase k)).answer f q 1
    else if bindSlots e ≤ r.msgs.length then
      (((s.deliveryTaken k).bump .ENG_CL_RXFULL (eclBase k)).count f 77).answer f q 0xA
    else (s.deliveredTo k b p).answer f q 0) := by
  have hd : s.msgData (clFid k) q = some p := by
    unfold State.msgData
    rw [hin]
    simp [hqn, hpn, hpo, hsrc, htx]
  have hne : q ≠ p := fun h => by
    rw [← h, hqn] at hpn
    exact Net.noConfusion hpn
  have her : ((s.nif (clFid k)).inbox.erase q).erase p = [] := by
    rw [hin]
    simp
  have hu : s.updNi (clFid k) (fun n => { n with inbox := (n.inbox.erase q).erase p }) = s.deliveryTaken k :=
    congrArg (fun l => s.setNi (clFid k) { s.nif (clFid k) with inbox := l }) her
  have hqm : (decide (0x170 ≤ q.src.toNat) && decide (q.src.toNat < 0x174)) = true := by simp [hlo, hhi]
  change execEngDelivery k s = _
  unfold execEngDelivery
  dsimp only
  rw [show (s.nif (clFid k)).inbox.find? (fun q => q.net == .req && (q.opc != 0x17 || (s.msgData (clFid k) q).isSome)) = some q by
    rw [hin]; simp [hqn, hd]]
  dsimp only
  rw [if_neg hh, if_pos hqo, hd]
  dsimp only
  rw [hu, if_neg (by rw [show (s.deliveryTaken k).clusterFenced k = false from hf]; exact Bool.false_ne_true),
    if_neg (by simp [hlo, hhi, hqo])]
  have hepo : (s.deliveryTaken k).epo = s.epo := rfl
  have hbe (c : Bool) (n : Nat) : (s.deliveryTaken k).bindEntry k c n = s.bindEntry k c n := rfl
  have hte (c : Bool) (n : Nat) : (s.deliveryTaken k).thrEntry k c n = s.thrEntry k c n := rfl
  have hri (c : Bool) (n : Nat) : (s.deliveryTaken k).ring k c n = s.ring k c n := rfl
  simp only [hepo, hbe, hte, hri, hb]
  rw [if_neg (show ¬q.opc = 0x19 by rw [hqo]; decide)]
  split
  · rfl
  · split
    · rfl
    · rfl

end

theorem State.inbox_deliveryTaken (s : State) (k : Nat) : ((s.deliveryTaken k).nif (clFid k)).inbox = [] := by
  unfold State.deliveryTaken State.updNi State.nif State.setNi
  rw [SMap.get_set, if_pos rfl]

theorem State.ni_wakeRecv (s : State) (k i : Nat) (bank : Bool) : (s.wakeRecv k i bank).ni = s.ni := rfl
theorem State.ni_setRing (s : State) (k : Nat) (bank : Bool) (b : Nat) (r : RxRing) : (s.setRing k bank b r).ni = s.ni := rfl
theorem State.lsram_wakeRecv (s : State) (k i : Nat) (bank : Bool) : (s.wakeRecv k i bank).lsram = s.lsram := rfl
theorem State.lsram_setRing (s : State) (k : Nat) (bank : Bool) (b : Nat) (r : RxRing) : (s.setRing k bank b r).lsram = s.lsram := rfl

theorem State.ring_deliveredTo (s : State) (k b : Nat) (p : Pkt) :
    let e := s.bindEntry k s.epo.cur b
    let r := s.ring k s.epo.cur b
    let slot := r.tail % bindSlots e
    (s.deliveredTo k b p).ring k s.epo.cur b =
      { r with msgs := r.msgs ++ [(slot, p.data.length)], tail := (slot + 1) % bindSlots e } :=
  (State.ring_updThr ..).trans (State.ring_setRing ..)

theorem State.lsRead_deliveredTo (s : State) (k b : Nat) (p : Pkt) :
    let e := s.bindEntry k s.epo.cur b
    (s.deliveredTo k b p).lsRead k (bindSlot e ((s.ring k s.epo.cur b).tail % bindSlots e)) p.data.length = p.data := by
  dsimp only
  unfold State.deliveredTo State.lsRead
  dsimp only
  rw [State.lsram_wakeRecv, State.lsram_setRing, State.count_lsram]
  exact memRead_write ..

theorem State.inbox_deliveredTo (s : State) (k b : Nat) (p : Pkt) : ((s.deliveredTo k b p).nif (clFid k)).inbox = [] := by
  unfold State.deliveredTo State.nif
  dsimp only
  rw [State.ni_wakeRecv, State.ni_setRing, State.count_ni]
  exact s.inbox_deliveryTaken k

/-- A state with what a delivery changes as it stands in another. -/
def State.deliveryReset (s t : State) : State :=
  { t with ecl := s.ecl, lsram := s.lsram, lsramBad := s.lsramBad, ni := s.ni, ctr := s.ctr, regs := s.regs, cyc := s.cyc }

theorem State.deliveryReset_wakeRecv (s t : State) (k i : Nat) (bank : Bool) : s.deliveryReset (t.wakeRecv k i bank) = s.deliveryReset t := rfl
theorem State.deliveryReset_setRing (s t : State) (k : Nat) (bank : Bool) (b : Nat) (r : RxRing) :
    s.deliveryReset (t.setRing k bank b r) = s.deliveryReset t := rfl
theorem State.deliveryReset_lsWrite (s t : State) (k off : Nat) (bs : List Byte) (p : Bool) :
    s.deliveryReset (t.lsWrite k off bs p) = s.deliveryReset t := rfl
theorem State.deliveryReset_count (s t : State) (b i n : Nat) : s.deliveryReset (t.count b i n) = s.deliveryReset t :=
  (congrArg s.deliveryReset (t.count_rest b i n) :)
theorem State.deliveryReset_taken (s t : State) (k : Nat) : s.deliveryReset (t.deliveryTaken k) = s.deliveryReset t := rfl

theorem State.deliveryReset_deliveredTo (s : State) (k b : Nat) (p : Pkt) : s.deliveryReset (s.deliveredTo k b p) = s := by
  unfold State.deliveredTo
  dsimp only
  rw [State.deliveryReset_wakeRecv, State.deliveryReset_setRing, State.deliveryReset_count, State.deliveryReset_lsWrite,
    State.deliveryReset_taken]
  rfl

/-- A state with what a refused delivery changes as it stands in another. -/
def State.refusalReset (s t : State) : State := { t with ni := s.ni, ctr := s.ctr, regs := s.regs, cyc := s.cyc }

theorem State.refusalReset_count (s t : State) (b i n : Nat) : s.refusalReset (t.count b i n) = s.refusalReset t :=
  (congrArg s.refusalReset (t.count_rest b i n) :)
theorem State.refusalReset_bump (s t : State) (r : Reg) (b i n : Nat) : s.refusalReset (t.bump r b i n) = s.refusalReset t := rfl
theorem State.refusalReset_taken (s t : State) (k : Nat) : s.refusalReset (t.deliveryTaken k) = s.refusalReset t := rfl

theorem State.refusalReset_full (s : State) (k : Nat) :
    s.refusalReset (((s.deliveryTaken k).bump .ENG_CL_RXFULL (eclBase k)).count (clFid k) 77) = s := by
  rw [State.refusalReset_count, State.refusalReset_bump, State.refusalReset_taken]
  rfl

/-- A state with what a delivery without a binding changes as it stands in another. -/
def State.unboundReset (s t : State) : State := { t with ni := s.ni, regs := s.regs, cyc := s.cyc }

theorem State.unboundReset_bump (s t : State) (r : Reg) (b i n : Nat) : s.unboundReset (t.bump r b i n) = s.unboundReset t := rfl
theorem State.unboundReset_taken (s t : State) (k : Nat) : s.unboundReset (t.deliveryTaken k) = s.unboundReset t := rfl

theorem State.unboundReset_unbound (s : State) (k : Nat) : s.unboundReset ((s.deliveryTaken k).bump .ENG_CL_NOBIND (eclBase k)) = s :=  by
  rw [State.unboundReset_bump, State.unboundReset_taken]
  rfl

/-! ### Answers -/

theorem State.engDelivery_empty {k : Fin 48} (h : (s.nif (clFid k)).inbox = []) : exec (.engDelivery k) s = .next s := by
  change execEngDelivery k s = _
  unfold execEngDelivery
  dsimp only
  rw [h]
  rfl

theorem State.engFabricAnswer_empty {k : Fin 48} (h : (s.nif (clFid k)).inbox = []) : exec (.engFabricAnswer k) s = .next s := by
  change execEngFabricAnswer k s = _
  unfold execEngFabricAnswer
  dsimp only
  rw [h]
  rfl

/-- A cluster takes an answer from its inbox. -/
theorem State.engFabricAnswer_taken {k : Fin 48} {p : Pkt} (hh : s.prim ≠ .halt) (hin : (s.nif (clFid k)).inbox = [p]) (hn : p.net = .rsp)
    (hc : p.cnt ≠ 0x81) : let s0 := s.setNi (clFid k) { s.nif (clFid k) with inbox := [] }
    exec (.engFabricAnswer k) s = (match s.srcEnt (clFid k) (p.txid.toNat / 16) with
      | some e => if e.req.txid = p.txid ∧ e.state ≠ .dead then .next (s0.engAnswer k (p.txid.toNat / 16) e p)
        else .next (s0.lateAnswer (clFid k))
      | none => .next (s0.lateAnswer (clFid k))) := by
  intro s0
  have hsrc : s0.srcEnt (clFid k) (p.txid.toNat / 16) = s.srcEnt (clFid k) (p.txid.toNat / 16) := by
    unfold State.srcEnt State.nif
    rw [show s0.ni = SMap.set {} s.ni (clFid k) { s.nif (clFid k) with inbox := [] } from rfl, SMap.get_set, if_pos rfl]
    rfl
  change execEngFabricAnswer k s = _
  unfold execEngFabricAnswer
  dsimp only
  rw [show (s.nif (clFid k)).inbox.find? (s.engAnswers (clFid k)) = some p by
    rw [hin]; simp [State.engAnswers, hn]]
  dsimp only
  rw [if_neg hh, hin, List.erase_cons_head, if_neg (fun h => hc h.2.2.2)]
  rw [show (s.setNi (clFid k) { s.nif (clFid k) with inbox := [] }).srcEnt (clFid k) (p.txid.toNat / 16) = _ from hsrc] <;> rfl

/-! ### The end of a load's request -/

/-- The request leaves its cluster. -/
def State.reqGone (s : State) (k id : Nat) : State := s.updCl k (fun c => { c with reqs := c.reqs.filter (fun q => q.id != id) })

theorem State.reqGone_thr (s : State) (k id i : Nat) : (s.reqGone k id).thr k i = s.thr k i := by
  unfold State.thr State.reqGone State.updCl
  rw [State.cl_setCl, if_pos rfl]

theorem Thr.reg_put (x : Thr) {r : Nat} (hr : r ≠ 0) (v : Word64) (a : Nat) : (x.put r v a).reg r = v := by
  unfold Thr.put Thr.reg
  rw [if_neg hr, if_neg hr, SMap.get_set, if_pos rfl]

theorem Thr.due_put (x : Thr) (r : Nat) (v : Word64) (a : Nat) : (x.put r v a).due = x.due := by
  unfold Thr.put
  split <;> rfl

/-- The thread at the end of a load's request without a failure. -/
theorem State.reqFinish_load {k : Nat} {r : EReq} {n : Nat} {sg : Bool} (hk : r.kind = .load n sg) (hd : r.d ≠ 0) (hb : r.bad = none)
    (hp : r.poison = false) : ((s.reqFinish k r).thr k r.thr).reg r.d = extend n sg (leNat r.bytes) ∧
      ((s.reqFinish k r).thr k r.thr).due = (s.thr k r.thr).due := by
  have hs : r.status = 0 := by
    unfold EReq.status
    rw [hb, hp]
    rfl
  unfold State.reqFinish
  dsimp only
  rw [State.sampleEnd_thr, hk, hs]
  dsimp only
  rw [if_pos rfl, State.thr_updThr, if_pos rfl, Thr.reg_put _ hd, Thr.due_put]
  exact ⟨rfl, congrArg Thr.due (s.reqGone_thr k r.id r.thr)⟩

theorem State.reqFinish_load_failed {k : Nat} {r : EReq} {n : Nat} {sg : Bool} {o st : Nat} (hk : r.kind = .load n sg) (hd : r.d ≠ 0)
    (hb : r.bad = some (o, st)) (hs : st ≠ 0) (hdue : (s.thr k r.thr).due = none) :
    ((s.reqFinish k r).thr k r.thr).reg r.d = 0 ∧ ((s.reqFinish k r).thr k r.thr).due = some ⟨0x10, st, r.ea⟩ := by
  have hst : r.status = st := by
    unfold EReq.status
    rw [hb]
  have hg : ((s.reqGone k r.id).thr k r.thr).due = none := (congrArg Thr.due (s.reqGone_thr k r.id r.thr)).trans hdue
  unfold State.reqFinish
  dsimp only
  rw [State.sampleEnd_thr, hk, hst]
  dsimp only
  rw [if_neg hs]
  unfold State.deferTrap
  rw [State.thr_updThr, if_pos rfl, State.thr_updThr, if_pos rfl, if_neg (by
    rw [Thr.due_put, show ((s.updCl k _).thr k r.thr).due = none from hg]; exact Bool.false_ne_true)]
  exact ⟨Thr.reg_put _ hd _ _, rfl⟩

/-! ### Sample records -/

theorem State.engSampleWrite_none {k : Fin 48} (h : (s.cl k).sample = none) : exec (.engSampleWrite k) s = .next s := by
  change execEngSampleWrite k s = _
  unfold execEngSampleWrite
  rw [h]

theorem State.engSampleWrite_early {k : Fin 48} {p : Samp} {d : Nat} (h : (s.cl k).sample = some p) (hd : p.doneAt = some d) (he : s.eclk < d) :
    exec (.engSampleWrite k) s = .next s := by
  change execEngSampleWrite k s = _
  unfold execEngSampleWrite
  rw [h]
  dsimp only
  rw [hd]
  exact if_pos (.inl he)

/-- A record of a completed sample goes to its bank, and the write pointer moves on (R290). -/
def State.sampleWritten (s : State) (k : Nat) (p : Samp) : State :=
  let b := eclBase k
  let i := s.rf .ENG_SAMP_WPTR 0 10 b
  let v := s.updCl k (fun c => { c with sample := none })
  let a : LocAcc :=
    { cluster := k, thr := 32, why := .sample, o := k / 3 * 2 ^ 21 + s.rf .ENG_SAMP_BASE 0 6 b * 2 ^ 15 + 32 * i, n := 32, wr := true,
      data := p.record, slice := (v.thr k (8 * (p.eng % 4) + p.thr)).slice.toNat }
  let w := s.rf .ENG_SAMP_WPTR 16 16 b
  (v.locPush a).setReg .ENG_SAMP_WPTR ((i + 1) % 1024 + (if i = 1023 then (w + 1) % 2 ^ 16 else w) * 2 ^ 16) b

theorem State.engSampleWrite_eq {k : Fin 48} {p : Samp} {d : Nat} (h : (s.cl k).sample = some p) (hd : p.doneAt = some d) (he : d ≤ s.eclk)
    (hl : s.clLive k = true) : exec (.engSampleWrite k) s = .next (s.sampleWritten k p) := by
  change execEngSampleWrite k s = _
  unfold execEngSampleWrite
  rw [h]
  dsimp only
  rw [hd]
  refine if_neg ?_
  rintro (hc | hc)
  · exact absurd he (Nat.not_le.2 hc)
  · exact hc hl

theorem State.cl_setReg (s : State) (r : Reg) (v b i k : Nat) : (s.setReg r v b i).cl k = s.cl k := rfl
theorem State.cl_locPush (s : State) (a : LocAcc) (k : Nat) : (s.locPush a).cl k = s.cl k := rfl

theorem State.sampleWritten_sample (s : State) (k : Nat) (p : Samp) : ((s.sampleWritten k p).cl k).sample = none := by
  unfold State.sampleWritten
  dsimp only
  rw [State.cl_setReg, State.cl_locPush, State.updCl, State.cl_setCl, if_pos rfl]

theorem pointer_field (i w : Nat) : fld (((i + 1) % 1024 + w * 2 ^ 16) % 2 ^ 32) 0 10 = (i + 1) % 1024 := by
  unfold fld
  omega

theorem State.sampleWritten_pointer (s : State) (k : Nat) (p : Samp) :
    (s.sampleWritten k p).rf .ENG_SAMP_WPTR 0 10 (eclBase k) = (s.rf .ENG_SAMP_WPTR 0 10 (eclBase k) + 1) % 1024 := by
  unfold State.sampleWritten State.rf
  dsimp only
  rw [State.reg_setReg_same]
  generalize fld (s.reg .ENG_SAMP_WPTR (eclBase k)) 0 10 = i
  generalize (if i = 1023 then _ else _) = w
  exact pointer_field i w

/-- Settles O49. -/
theorem clustersTakeDeliveriesAndAnswers : Obligations.ClustersTakeDeliveriesAndAnswers := by
  unfold Obligations.ClustersTakeDeliveriesAndAnswers
  refine ⟨fun s k q p b hh hin hqn hqo hpn hpo hsrc htx hlo hhi hf hb => ?_, fun s k h => ⟨State.engDelivery_empty h, State.engFabricAnswer_empty h⟩,
    fun s k p hh hin hn hc => ?_, fun s k r n sg hk hd => ⟨State.reqFinish_load hk hd, fun o st => State.reqFinish_load_failed hk hd⟩,
    fun s k p d h hd => ⟨State.engSampleWrite_early h hd, fun he hl => ⟨_, State.engSampleWrite_eq h hd he hl,
      s.sampleWritten_sample k p, s.sampleWritten_pointer k p⟩⟩, fun s k => State.engSampleWrite_none⟩
  · have he := State.engDelivery_eq hh hin hqn hqo hpn hpo hsrc htx hlo hhi hf hb
    intro e r slot
    refine ⟨fun hsl => ⟨fun hlen => ?_, fun hlen => ?_⟩, fun hsl => ?_⟩
    · refine ⟨_, he.trans (congrArg _ ((if_neg (not_not_intro hsl)).trans (if_neg (Nat.not_le.2 hlen)))), s.ring_deliveredTo k b p,
        s.lsRead_deliveredTo k b p, s.inbox_deliveredTo k b p, s.deliveryReset_deliveredTo k b p⟩
    · exact ⟨_, he.trans (congrArg _ ((if_neg (not_not_intro hsl)).trans (if_pos hlen))), s.refusalReset_full k⟩
    · exact ⟨_, he.trans (congrArg _ (if_pos hsl)), s.unboundReset_unbound k⟩
  · have ht := State.engFabricAnswer_taken hh hin hn hc
    intro s0
    refine ⟨fun e he hx hd => ?_, fun he => ?_⟩
    · rw [ht, he]
      exact if_pos ⟨hx, hd⟩
    · rw [ht, he]

end Sys2Proof.Machine

namespace Sys2Proof.Machine
variable {s t u : State}

/-! ### Fault injection -/

/-- Why INJ_ARM is refused (R353). -/
def State.armRefused (s : State) : Prop :=
  let v := s.reg .FC_INJ_CTRL
  let u : UnitRef := ⟨bitOf v 10, fld v 0 10⟩
  s.fc.inject ≠ none ∨ hasChecker u (fld v 11 4) (fld v 24 3) = false ∨ (u.node = true ∧ s.rtrFenced u.id = true) ∨
      (u.node = false ∧ s.niFenced u.id = true) ∨ (s.prim ≠ .run ∧ s.prim ≠ .dual ∧ s.prim ≠ .drain ∧ s.prim ≠ .quiesced) ∨
      (fld v 11 4 = 11 ∧ s.resyncing (u.id - 0x180) = true)

/-- The injection that the fields of FC_INJ_CTRL describe. -/
def State.injectFields (s : State) : Inject :=
  let v := s.reg .FC_INJ_CTRL
  { unit := ⟨bitOf v 10, fld v 0 10⟩, chk := fld v 11 4, two := bitOf v 15, port := fld v 24 3, left := max 1 (fld v 16 8) }

/-- An injection armed, or none, with the count that is left. -/
def State.withInject (s : State) (j : Option Inject) (n : Nat) : State :=
  ({ s with fc := { s.fc with inject := j } } : State).setRf .FC_INJ_LEFT 0 8 n

theorem State.rf_withInject (s : State) (j : Option Inject) {n : Nat} (hn : n < 2 ^ 8) : (s.withInject j n).rf .FC_INJ_LEFT 0 8 = n :=
  (State.rf_setRf_same _ _ _ _ _ _ _ (by decide)).trans (Nat.mod_eq_of_lt hn)

theorem State.withInject_rest (s : State) (j : Option Inject) (n : Nat) :
    { s.withInject j n with fc := s.fc, regs := s.regs, cyc := s.cyc } = s := rfl

theorem State.injArm_refused (h : s.armRefused) : s.injArm = s.setRf .FC_INJ_CTRL 29 1 1 := by
  refine if_pos ?_
  rcases h with h | h | ⟨hn, h⟩ | ⟨hn, h⟩ | h | h
  · exact .inl (Option.isSome_iff_ne_none.2 h)
  · exact .inr (.inl (by rw [h]; exact Bool.false_ne_true))
  · exact .inr (.inr (.inl ((if_pos hn).trans h)))
  · exact .inr (.inr (.inl ((if_neg (ne_true_of_eq_false hn)).trans h)))
  · exact .inr (.inr (.inr (.inl (by simpa [not_or, and_assoc] using h))))
  · exact .inr (.inr (.inr (.inr h)))

theorem State.injArm_armed (h : ¬s.armRefused) : s.injArm = s.withInject (some s.injectFields) (max 1 (fld (s.reg .FC_INJ_CTRL) 16 8)) := by
  refine if_neg fun hc => h ?_
  rcases hc with hc | hc | hc | hc | hc
  · exact .inl (Option.isSome_iff_ne_none.1 hc)
  · exact .inr (.inl (Bool.eq_false_iff.2 hc))
  · dsimp only at hc
    split at hc
    case isTrue hn => exact .inr (.inr (.inl ⟨hn, hc⟩))
    case isFalse hn => exact .inr (.inr (.inr (.inl ⟨Bool.eq_false_iff.2 hn, hc⟩)))
  · exact .inr (.inr (.inr (.inr (.inl (by simpa [not_or, and_assoc] using hc)))))
  · exact .inr (.inr (.inr (.inr (.inr hc))))

theorem hasChecker_none (u : UnitRef) {chk : Nat} (port : Nat) (h : 13 ≤ chk) : hasChecker u chk port = false := by
  unfold hasChecker
  dsimp only
  iterate 10 rw [if_neg (by omega)]

/-! ### Voting -/

theorem fld_one_of_fld_three {v n k : Nat} (hk : k < 3) (h : fld v (3 * n) 3 = 0) : fld v (3 * n + k) 1 = 0 := by
  unfold fld at h ⊢
  rw [Nat.pow_add, ← Nat.div_div_eq_div_mul]
  generalize v / 2 ^ (3 * n) = w at h ⊢
  obtain rfl | rfl | rfl : k = 0 ∨ k = 1 ∨ k = 2 := by omega
  all_goals omega

theorem State.voteMiss_out {n k : Nat} (h : s.rf .FC_VOTE (3 * n + k) 1 = 1) : s.voteMiss n (some k) = s :=
  if_pos (beq_iff_eq.2 h)

theorem State.voteMiss_lost {n k : Nat} (h : s.rf .FC_VOTE (3 * n + k) 1 = 0) (hr : s.resyncing n = true) :
    s.voteMiss n (some k) = s.raiseSpine 28 17 4 (fidUnit (0x180 + n)) (4 * n + k) :=
  (if_neg fun hb => absurd (h.symm.trans (beq_iff_eq.1 hb)) (by decide)).trans (if_pos hr)

theorem State.voteMiss_resync {n k : Nat} (hk : k < 3) (hr : s.resyncing n = false) :
    s.voteMiss n (some k) = (s.setRf .FC_VOTE (3 * n + k) 1 1).raiseSpine 28 17 1 (fidUnit (0x180 + n)) (4 * n + k) := by
  have hz : s.rf .FC_VOTE (3 * n) 3 = 0 := by
    unfold State.resyncing at hr
    simpa using hr
  have hb : s.rf .FC_VOTE (3 * n + k) 1 = 0 := fld_one_of_fld_three hk hz
  exact (if_neg fun hc => absurd (hb.symm.trans (beq_iff_eq.1 hc)) (by decide)).trans (if_neg (ne_true_of_eq_false hr))

theorem State.setRf_rest (s : State) (r : Reg) (lo w x b i : Nat) : { s.setRf r lo w x b i with regs := s.regs, cyc := s.cyc } = s := rfl

theorem State.rf_vote_other {i j x : Nat} (hj : j < 18) (h : i ≠ j) : (s.setRf .FC_VOTE j 1 x).rf .FC_VOTE i 1 = s.rf .FC_VOTE i 1 :=
  State.rf_setRf_apart _ _ _ _ _ _ _ _ _ (by omega) (by omega)

/-- Settles O55. -/
theorem injectionAndSpineVoting : Obligations.InjectionAndSpineVoting := by
  unfold Obligations.InjectionAndSpineVoting
  refine ⟨fun s => ?_, fun u chk port h => hasChecker_none u port h, fun s => ?_, fun s n k => ?_⟩
  · intro v u refused
    refine ⟨fun h => congrArg _ (State.injArm_refused h), ?_⟩
    intro j h
    refine ⟨s.withInject (some s.injectFields) (max 1 (fld v 16 8)), congrArg Host.Outcome.next (State.injArm_armed h), rfl,
      s.rf_withInject _ ?_, s.withInject_rest _ _⟩
    have : fld v 16 8 < 2 ^ 8 := Nat.mod_lt _ (by decide)
    exact Nat.max_lt.2 ⟨by decide, this⟩
  · exact ⟨s.withInject none 0, rfl, rfl, s.rf_withInject _ (by decide), s.withInject_rest _ _⟩
  · have hn := n.isLt
    have hk := k.isLt
    refine ⟨rfl, fun h => congrArg _ (State.voteMiss_out h), fun h hr => congrArg _ (State.voteMiss_lost h hr), fun hr =>
      ⟨_, congrArg _ (State.voteMiss_resync hk hr), (State.rf_setRf_same _ _ _ _ _ _ _ (by omega)), s.setRf_rest ..⟩,
      _, rfl, State.rf_setRf_same _ _ _ _ _ _ _ (by omega), fun i _ hne => State.rf_vote_other (by omega) hne, s.setRf_rest ..⟩

end Sys2Proof.Machine

namespace Sys2Proof.Machine
variable {s t u : State}

/-! ### Fault reports -/

/-- The fault record of a report (R334, R335). -/
def State.reportRec (s : State) (p : Pkt) : FaultRec :=
  let a := p.addr.toNat
  let delay := fld a 24 12
  let age := ageOf (s.tim.c % 65536) p.inj.toNat
  let t := s.timeAgo (if p.old then 0 else if delay = 0xFFF then age - 1 else age - 1 + delay)
  { src := fld a 0 10, level := fld a 10 3, unit := ⟨bitOf a 23, fld a 13 10⟩, detail := fld a 36 12, delay := delay,
    tsat := p.old || delay == 0xFFF, merged := bitOf a 48, inj := bitOf a 49, ns := t.1, frac := t.2 }

theorem State.reportRec_congr (h : t.tim = s.tim) (p : Pkt) : t.reportRec p = s.reportRec p := by
  unfold State.reportRec State.timeAgo
  rw [h]

theorem State.reportRec_tsat (s : State) (p : Pkt) : (s.reportRec p).tsat = true ↔ p.old = true ∨ fld p.addr.toNat 24 12 = 0xFFF := by
  unfold State.reportRec
  simp

/-- The time that the spine gives a report (R335). -/
theorem State.reportRec_time (s : State) (p : Pkt) : let a := p.addr.toNat
    let age := ageOf (s.tim.c % 65536) p.inj.toNat
    let r := s.reportRec p
    (p.old = false → fld a 24 12 ≠ 0xFFF → (r.ns, r.frac) = s.timeAgo (age - 1 + fld a 24 12)) ∧
      (p.old = false → fld a 24 12 = 0xFFF → (r.ns, r.frac) = s.timeAgo (age - 1)) ∧ (p.old = true → (r.ns, r.frac) = s.timeAgo 0) := by
  refine ⟨fun ho hd => ?_, fun ho hd => ?_, fun ho => ?_⟩
  · refine congrArg s.timeAgo ((if_neg (ne_true_of_eq_false ho)).trans (if_neg hd))
  · refine congrArg s.timeAgo ((if_neg (ne_true_of_eq_false ho)).trans (if_pos hd))
  · exact congrArg s.timeAgo (if_pos ho)

/-- The reports that the spine remembers (R336). -/
def State.recentReports (s : State) : List (BitVec 10 × BitVec 12 × Nat) := s.fc.recent.filter (fun x => decide (s.tick < x.2.2 + 64 * 3000))

/-- The spine with a report taken and answered. -/
def State.reportTaken (s : State) (p : Pkt) : State := (s.setNi 0x183 { s.nif 0x183 with inbox := [] }).answer 0x183 p 0

/-- The same with the report remembered and its fault collected. -/
def State.reportCollected (s v : State) (p : Pkt) : State :=
  ({ v with fc := { v.fc with recent := (p.src, p.txid, s.tick) :: s.recentReports } } : State).collect (s.reportRec p)

theorem State.reportCollected_congr {v : State} {rs : List (BitVec 10 × BitVec 12 × Nat)} {r : FaultRec} {p : Pkt} {n : Nat} (hn : n = s.tick)
    (hr : rs = s.recentReports) (hrec : r = s.reportRec p) :
    ({ v with fc := { v.fc with recent := (p.src, p.txid, n) :: rs } } : State).collect r = s.reportCollected v p := by
  subst hn hr hrec
  rfl

/-- A report that is the only packet in the spine's inbox is answered; a second copy of it does nothing else. -/
theorem State.faultReport_eq {p : Pkt} (hin : (s.nif 0x183).inbox = [p]) (hn : p.net = .req) (ho : p.opc = 0x1D) :
    exec .faultReport s = .next (if s.recentReports.any (fun x => x.1 == p.src && x.2.1 == p.txid) then
        { s.reportTaken p with fc := { (s.reportTaken p).fc with recent := s.recentReports } }
      else s.reportCollected (if bitOf p.addr.toNat 48 then (s.reportTaken p).bump .FC_MERGED else s.reportTaken p) p) := by
  have hu : s.updNi 0x183 (fun n => { n with inbox := n.inbox.erase p }) = s.setNi 0x183 { s.nif 0x183 with inbox := [] } :=
    congrArg (fun l => s.setNi 0x183 { s.nif 0x183 with inbox := l }) (by rw [hin]; exact List.erase_cons_head ..)
  have htim : (s.reportTaken p).tim = s.tim := State.answer_tim ..
  have htick : (s.reportTaken p).tick = s.tick := State.answer_tick ..
  have hrec : (s.setNi 0x183 { s.nif 0x183 with inbox := [] }).fc.recent.filter (fun x =>
      decide ((s.setNi 0x183 { s.nif 0x183 with inbox := [] }).tick < x.2.2 + usTicks 64)) = s.recentReports := rfl
  change execFaultReport s = _
  unfold execFaultReport
  rw [show (s.nif 0x183).inbox.find? (fun p => p.net == .req && p.opc == 0x1D) = some p by rw [hin]; simp [hn, ho]]
  dsimp only
  rw [hu, hrec, show (s.setNi 0x183 { s.nif 0x183 with inbox := [] }).answer 0x183 p 0 = s.reportTaken p from rfl,
    apply_ite Host.Outcome.next]
  generalize s.reportTaken p = v at htim htick ⊢
  refine ite_congr rfl (fun _ => rfl) fun _ => congrArg _ (State.reportCollected_congr ?_ rfl (State.reportRec_congr htim p))
  exact iteInduction (motive := fun v : State => v.tick = s.tick) (fun _ => htick) fun _ => htick

/-- Without a report nothing happens. -/
theorem State.faultReport_none (h : (s.nif 0x183).inbox.filter (fun p => p.net == .req && p.opc == 0x1D) = []) :
    exec .faultReport s = .next s := by
  have hf : (s.nif 0x183).inbox.find? (fun p => p.net == .req && p.opc == 0x1D) = none :=
    List.find?_eq_none.2 fun p hp => List.filter_eq_nil_iff.1 h p hp
  change execFaultReport s = _
  unfold execFaultReport
  rw [hf]

/-! ### Alarm frames -/

/-- The fault record of an alarm frame. -/
def State.alarmRec (s : State) (node : Nat) (a : Alarm) : FaultRec :=
  let t := s.timeAgo ((s.tim.c % 65536 + 65536 - a.count) % 65536)
  { src := a.src, level := a.level, unit := nodeUnit node, detail := a.detail, inj := a.inj, ns := t.1, frac := t.2 }

theorem State.alarmFrame_first {node : Fin 144} {a : Alarm} {rest : List Alarm} (h : s.fc.alarms = a :: rest) (ha : a.node = node) :
    exec (.alarmFrame node) s = .next (({ s with fc := { s.fc with alarms := rest } } : State).collect (s.alarmRec node a)) := by
  have hf : s.fc.alarms.find? (fun a => a.node == node.val) = some a := by rw [h]; simp [ha]
  have he : s.fc.alarms.erase a = rest := by rw [h]; exact List.erase_cons_head ..
  change execAlarmFrame node s = _
  unfold execAlarmFrame
  rw [hf]
  dsimp only
  rw [he]
  rfl

theorem State.alarmFrame_none {node : Fin 144} (h : s.fc.alarms.filter (fun a => a.node == node.val) = []) :
    exec (.alarmFrame node) s = .next s := by
  have hf : s.fc.alarms.find? (fun a => a.node == node.val) = none :=
    List.find?_eq_none.2 fun a ha => List.filter_eq_nil_iff.1 h a ha
  change execAlarmFrame node s = _
  unfold execAlarmFrame
  rw [hf]

/-! ### Reports without an answer -/

theorem State.faultReportResend_eq {f : Fid} (hf : assigned f.toNat = true) :
    exec (.faultReportResend f) s = (match (s.nif f.toNat).reports.find? (fun r => decide (r.sent + 8 * 3000 ≤ s.tick)) with
    | none => .next s
    | some r =>
      if s.prim = .halt then .next s
      else
        .next ((s.updNi f.toNat (fun n => { n with
          reports := n.reports.map (fun x => if x = r then { x with sent := s.tick } else x) })).inject f.toNat (r.pkt 0xFFF))) :=
  if_pos hf

theorem State.faultReportResend_due {f : Fid} {r : Report} (hf : assigned f.toNat = true) (h : (s.nif f.toNat).reports = [r])
    (hr : r.sent + 8 * 3000 ≤ s.tick) (hh : s.prim ≠ .halt) : exec (.faultReportResend f) s =
      .next ((s.setNi f.toNat { s.nif f.toNat with reports := [{ r with sent := s.tick }] }).inject f.toNat (r.pkt 0xFFF)) := by
  have hu : s.updNi f.toNat (fun n => { n with reports := n.reports.map (fun x => if x = r then { x with sent := s.tick } else x) }) =
      s.setNi f.toNat { s.nif f.toNat with reports := [{ r with sent := s.tick }] } :=
    congrArg (fun l => s.setNi f.toNat { s.nif f.toNat with reports := l }) (by rw [h]; simp)
  rw [State.faultReportResend_eq hf, show (s.nif f.toNat).reports.find? (fun r => decide (r.sent + 8 * 3000 ≤ s.tick)) = some r by
    rw [h]; simpa using hr]
  dsimp only
  rw [if_neg hh, hu]

theorem State.faultReportResend_early {f : Fid} {r : Report} (hf : assigned f.toNat = true) (h : (s.nif f.toNat).reports = [r])
    (hr : s.tick < r.sent + 8 * 3000) : exec (.faultReportResend f) s = .next s := by
  rw [State.faultReportResend_eq hf, show (s.nif f.toNat).reports.find? (fun r => decide (r.sent + 8 * 3000 ≤ s.tick)) = none by
    rw [h]; simpa using hr]

theorem State.faultReportResend_none {f : Fid} (hf : assigned f.toNat = true) (h : (s.nif f.toNat).reports = []) :
    exec (.faultReportResend f) s = .next s := by
  rw [State.faultReportResend_eq hf, h]
  rfl

theorem State.swRaise_eq {src : Fid} (h : assigned src.toNat = true) : exec (.swRaise src) s = .next (s.swRaise src.toNat) :=
  if_neg (by rw [h]; exact Bool.false_ne_true)

/-- Settles O53. -/
theorem faultsReachTheCollector : Obligations.FaultsReachTheCollector := by
  unfold Obligations.FaultsReachTheCollector
  refine ⟨fun s p hin hn ho => ?_, fun s => State.faultReport_none, fun s node a rest => ⟨fun h ha => ?_, State.alarmFrame_none⟩,
    fun s r => ⟨insertOn_length .., (mem_insertOn ..).2 (.inl rfl), rfl, rfl⟩,
    fun s f r hf => ⟨State.faultReportResend_due hf, State.faultReportResend_early hf, State.faultReportResend_none hf⟩,
    fun s src h => State.swRaise_eq h, fun s cls lvl => ⟨rfl, Nat.le_max_left ..⟩⟩
  · have he := State.faultReport_eq hin hn ho
    intro s0 kept a age
    obtain ⟨h1, h2, h3⟩ := s.reportRec_time p
    refine ⟨fun hd => he.trans (congrArg _ (if_pos hd)), fun hd => ⟨s.reportRec p, _, rfl, he.trans (congrArg _ (if_neg (ne_true_of_eq_false hd))), rfl,
      rfl, rfl, rfl, rfl, rfl, rfl, s.reportRec_tsat p, h1, h2, h3⟩⟩
  · exact ⟨s.alarmRec node a, State.alarmFrame_first h ha, rfl, rfl, rfl, rfl, rfl, rfl⟩

end Sys2Proof.Machine

namespace Sys2Proof.Machine
variable {s₀ s t : State}

/-! ### The slices' records and the assertion of FAULT_N, which the common operations leave alone -/

structure State.Standing (s₀ s : State) : Prop where
  slc : s.slc = s₀.slc
  pin : s.fc.pinAt = s₀.fc.pinAt

theorem State.Standing.refl (s : State) : s.Standing s := ⟨rfl, rfl⟩

theorem State.Standing.ite {c : Prop} [Decidable c] (hs : s₀.Standing s) (ht : s₀.Standing t) : s₀.Standing (if c then s else t) :=
  iteInduction (fun _ => hs) fun _ => ht

theorem State.Standing.foldl {α : Type} {g : State → α → State} {xs : List α} (h : s₀.Standing s) (hg : ∀ s x, s₀.Standing s → s₀.Standing (g s x)) :
    s₀.Standing (xs.foldl g s) :=
  List.foldlRecOn xs g h fun t ht x _ => hg t x ht

/-- A pair, or a triple, whose state is one such. -/
def State.StandingPair {α : Type} (s₀ : State) (p : α × State) : Prop := s₀.Standing p.2
def State.StandingTriple {α β : Type} (s₀ : State) (p : α × β × State) : Prop := s₀.Standing p.2.2

theorem State.StandingPair.mk {α : Type} {x : α} (h : s₀.Standing t) : s₀.StandingPair (x, t) := h
theorem State.StandingPair.snd {α : Type} {p : α × State} (h : s₀.StandingPair p) : s₀.Standing p.2 := h
theorem State.StandingPair.ite {α : Type} {c : Prop} [Decidable c] {x y : α × State} (hx : s₀.StandingPair x) (hy : s₀.StandingPair y) :
    s₀.StandingPair (if c then x else y) :=
  iteInduction (fun _ => hx) fun _ => hy
theorem State.StandingPair.foldl {α β : Type} {g : α × State → β → α × State} {xs : List β} {p : α × State} (h : s₀.StandingPair p)
    (hg : ∀ p x, s₀.StandingPair p → s₀.StandingPair (g p x)) : s₀.StandingPair (xs.foldl g p) :=
  List.foldlRecOn xs g h fun p hp x _ => hg p x hp

theorem State.StandingTriple.mk {α β : Type} {x : α} {p : β × State} (h : s₀.StandingPair p) : s₀.StandingTriple (x, p) := h
theorem State.StandingTriple.of_eq {α β : Type} {p : α × β × State} {x : α} {y : β} (h : s₀.StandingTriple p) (e : p = (x, y, t)) :
    s₀.Standing t := by
  subst e
  exact h
theorem State.StandingTriple.ite {α β : Type} {c : Prop} [Decidable c] {x y : α × β × State} (hx : s₀.StandingTriple x)
    (hy : s₀.StandingTriple y) : s₀.StandingTriple (if c then x else y) :=
  iteInduction (fun _ => hx) fun _ => hy

theorem State.Standing.upd (hs : s₀.Standing s) {pending : List Instr} {tick : Nat} {frst : Bool} {started : Bool} {prim : Primary} {haltConds :
    Option (Bool × Bool × Bool × Bool)} {fallback : Bool} {drainPend : Bool} {drainAt : Option Nat} {pdrec : Option (List Byte)} {regs : SMap Word32}
    {cyc : SMap CycReg} {modeWas : Nat} {quietWas : Nat} {shadows : SMap (Option Word32)} {tabs : SMap Nat} {fuses : Option FuseArray} {ownEp : SMap
    Bool} {tim : TimeSt} {fc : FcSt} {prg : PrgSt} {epo : EpoSt} {hub : Hub} {rkCopy : Option Nat} {rbuf : SMap RBuf} {cred : SMap Cred} {arbs : SMap
    Arb} {ni : SMap Ni} {saf : Saf} {home : SMap Home} {dir : SMap (Option DirEnt)} {plru : SMap Nat} {pred : SMap (Option PredEnt)} {cache : SMap
    CLine} {recalls : SMap (List PortRecall)} {sram : List Host.Cell} {sramBad : SMap Bool} {bank : SMap Bank} {loc : SMap (List LocAcc)} {que : SMap
    QDyn} {qm : SMap Qm} {refillAt : Nat} {ecl : SMap Ecl} {lsram : List Host.Cell} {lsramBad : SMap Bool} {ctr : SMap Nat} {ctrWas : SMap Nat}
    {ctrClr : List Nat} {wakePin : Bool} {dom : SMap Dom} {sigs : SMap Nat} {freeze : Bool} {bw : SMap BwSt} {probe : SMap ProbeSt} {free : Nat} (hq :
    fc.pinAt = s.fc.pinAt) :
        s₀.Standing ⟨pending, tick, frst, started, prim, haltConds, fallback, drainPend, drainAt, pdrec, regs, cyc, modeWas, quietWas, shadows, tabs,
    fuses, ownEp, tim, fc, prg, epo, hub, rkCopy, rbuf, cred, arbs, ni, saf, home, dir, plru, pred, cache, recalls, sram, sramBad, bank, loc, que, qm,
    refillAt, ecl, lsram, lsramBad, ctr, ctrWas, ctrClr, wakePin, dom, sigs, s.slc, freeze, bw, probe, free⟩ :=
    ⟨hs.slc, hq.trans hs.pin⟩

theorem State.Standing.putWord (hs : s₀.Standing s) {r : Reg} {v : Nat} {base : Nat} {i : Nat} : s₀.Standing (State.putWord s r v base i) :=
  (hs.upd rfl)

theorem State.Standing.noteCyc (hs : s₀.Standing s) {off : Nat} {g : CycReg → CycReg} : s₀.Standing (State.noteCyc s off g) :=
  (hs.upd rfl)

theorem State.Standing.noteSet (hs : s₀.Standing s) {r : Reg} {bits : Nat} {base i : Nat} : s₀.Standing (State.noteSet s r bits base i) :=
  (hs.upd rfl)

theorem State.Standing.noteUpd (hs : s₀.Standing s) {r : Reg} {g : Nat → Nat} {base i : Nat} : s₀.Standing (State.noteUpd s r g base i) :=
  hs.noteCyc

theorem State.Standing.setReg (hs : s₀.Standing s) {r : Reg} {v : Nat} {base : Nat} {i : Nat} : s₀.Standing (State.setReg s r v base i) :=
  hs.noteSet.putWord

theorem State.Standing.setRf (hs : s₀.Standing s) {r : Reg} {lo w x : Nat} {base : Nat} {i : Nat} : s₀.Standing (State.setRf s r lo w x base i) :=
  hs.noteSet.putWord

theorem State.Standing.bump (hs : s₀.Standing s) {r : Reg} {base : Nat} {i : Nat} {n : Nat} : s₀.Standing (State.bump s r base i n) :=
  hs.noteUpd.putWord

theorem State.Standing.latchWords (hs : s₀.Standing s) {cap : Reg} {ws : List (Reg × Nat)} {base : Nat} {i : Nat} {miss : List Reg} : s₀.Standing (State.latchWords s cap ws base i miss) :=
  (.ite (hs.noteCyc.foldl fun _ _ hs => hs.bump) (hs.foldl fun _ _ hs => hs.setReg))

theorem State.Standing.count (hs : s₀.Standing s) {b i : Nat} {n : Nat} : s₀.Standing (State.count s b i n) :=
  (.ite hs (.ite (hs.upd rfl) (.ite (.ite ((hs.upd rfl).upd rfl) ((hs.upd rfl).upd rfl).setRf) (hs.upd rfl).setRf)))

theorem State.Standing.countRtr (hs : s₀.Standing s) {node : Nat} {net : Net} {j : Nat} : s₀.Standing (State.countRtr s node net j) :=
  hs.count

theorem State.Standing.countSlice (hs : s₀.Standing s) {sl i : Nat} {n : Nat} : s₀.Standing (State.countSlice s sl i n) :=
  hs.count

theorem State.Standing.setTab (hs : s₀.Standing s) {bank table unit port idx v : Nat} : s₀.Standing (State.setTab s bank table unit port idx v) :=
  (hs.upd rfl)

theorem State.Standing.setNi (hs : s₀.Standing s) {f : Nat} {n : Ni} : s₀.Standing (State.setNi s f n) :=
  (hs.upd rfl)

theorem State.Standing.updNi (hs : s₀.Standing s) {f : Nat} {g : Ni → Ni} : s₀.Standing (State.updNi s f g) :=
  hs.setNi

theorem State.Standing.bareFence (hs : s₀.Standing s) {k : FenceKey} : s₀.Standing (State.bareFence s k) :=
  (.ite hs (hs.upd rfl))

theorem State.Standing.setMap (hs : s₀.Standing s) {r : Reg} {i : Nat} {b : Bool} : s₀.Standing (State.setMap s r i b) :=
  hs.setRf

theorem State.Standing.collect (hs : s₀.Standing s) {r : FaultRec} : s₀.Standing (State.collect s r) :=
  (hs.upd rfl)

theorem State.Standing.raiseSpine (hs : s₀.Standing s) {group cls lvl : Nat} {u : UnitRef} {detail : Nat} {inj : Bool} : s₀.Standing (State.raiseSpine s group cls lvl u detail inj) :=
  hs.collect

theorem State.Standing.countFloor (hs : s₀.Standing s) {f : Nat} {p : Pkt} : s₀.Standing (State.countFloor s f p) :=
  (.ite hs (hs.upd rfl))

theorem State.Standing.pushNow (hs : s₀.Standing s) {f : Nat} {p : Pkt} : s₀.Standing (State.pushNow s f p) :=
  (.ite hs.countFloor.count.count.updNi hs.countFloor.count.count.updNi)

theorem State.Standing.push (hs : s₀.Standing s) {f : Nat} {p : Pkt} : s₀.Standing (State.push s f p) :=
  (.ite hs.updNi hs.pushNow)

theorem State.Standing.inject (hs : s₀.Standing s) {f : Nat} {p : Pkt} : s₀.Standing (State.inject s f p) :=
  hs.push

theorem State.Standing.setDomain (hs : s₀.Standing s) {d : Nat} {x : Dom} : s₀.Standing (State.setDomain s d x) :=
  (hs.upd rfl)

theorem State.Standing.wakeLevel (hs : s₀.Standing s) {d : Nat} : s₀.Standing (State.wakeLevel s d) :=
  (.ite hs hs.setDomain)

theorem State.Standing.holdPkt (hs : s₀.Standing s) {f : Nat} {p : Pkt} : s₀.Standing (State.holdPkt s f p) :=
  hs.updNi.count.inject

theorem State.Standing.ownComp (hs : s₀.Standing s) {f : Nat} {p : Pkt} {status : Nat} : s₀.Standing (State.ownComp s f p status) :=
  hs.updNi

theorem State.Standing.sendTc (hs : s₀.Standing s) {f : Nat} {p : Pkt} : s₀.Standing (State.sendTc s f p) :=
  (.ite (.ite hs.holdPkt (.ownComp (.count (.ite hs.bump hs)))) hs.inject)

theorem State.Standing.send (hs : s₀.Standing s) {f : Nat} {p : Pkt} : s₀.Standing (State.send s f p) :=
  hs.sendTc

theorem State.Standing.raiseNi (hs : s₀.Standing s) {f cls lvl : Nat} {detail : Nat} {inj : Bool} {u : Option UnitRef} : s₀.Standing (State.raiseNi s f cls lvl detail inj u) := by
  unfold State.raiseNi
  exact (.ite hs.raiseSpine (.ite (by split; exact hs.updNi.inject; exact hs.updNi) hs.updNi))

theorem State.Standing.countAnswer (hs : s₀.Standing s) {sl status : Nat} : s₀.Standing (State.countAnswer s sl status) :=
  (.ite hs.countSlice (.ite hs.countSlice (.ite hs.countSlice hs)))

theorem State.Standing.answer (hs : s₀.Standing s) {f : Nat} {q : Pkt} {status : Nat} {cnt : Nat} {ops : List Word64} : s₀.Standing (State.answer s f q status cnt ops) :=
  hs.send.countAnswer

theorem State.Standing.injUse (hs : s₀.Standing s)  : s₀.Standing (State.injUse s) := by
  unfold State.injUse
  split
  · exact (.ite (hs.setRf.upd rfl) (hs.setRf.upd rfl))
  · exact hs

theorem State.Standing.checkWord (hs : s₀.Standing s) {u : UnitRef} {chk : Nat} {err : WordErr} {port : Option Nat} : s₀.StandingTriple (State.checkWord s u chk err port) := by
  unfold State.checkWord
  exact (.ite (by split; exact (.mk (.mk hs.injUse)); exact (.mk (.mk hs))) (.mk (.mk hs)))

theorem State.Standing.setHm (hs : s₀.Standing s) {k : Nat} {h : Home} : s₀.Standing (State.setHm s k h) :=
  (hs.upd rfl)

theorem State.Standing.updHm (hs : s₀.Standing s) {k : Nat} {g : Home → Home} : s₀.Standing (State.updHm s k g) :=
  hs.setHm

theorem State.Standing.countHome (hs : s₀.Standing s) {k j : Nat} {n : Nat} : s₀.Standing (State.countHome s k j n) :=
  hs.count

theorem State.Standing.setDir (hs : s₀.Standing s) {k set way : Nat} {e : Option DirEnt} : s₀.Standing (State.setDir s k set way e) :=
  (hs.upd rfl)

theorem State.Standing.plruTouch (hs : s₀.Standing s) {k set way : Nat} : s₀.Standing (State.plruTouch s k set way) :=
  (hs.upd rfl)

theorem State.Standing.putDir (hs : s₀.Standing s) {k line : Nat} {way : Nat} {e : Option DirEnt} : s₀.Standing (State.putDir s k line way e) := by
  unfold State.putDir
  split
  · exact hs.setDir
  · exact hs.setDir
  · exact hs

theorem State.Standing.addSharer (hs : s₀.Standing s) {k line way : Nat} {e : DirEnt} {i : Nat} : s₀.Standing (State.addSharer s k line way e i) :=
  (.ite hs.putDir.bump.countHome hs.putDir)

theorem State.Standing.setTrk (hs : s₀.Standing s) {k h : Nat} {e : Option TrkEnt} : s₀.Standing (State.setTrk s k h e) :=
  hs.updHm

theorem State.Standing.updTrk (hs : s₀.Standing s) {k h : Nat} {g : TrkEnt → TrkEnt} : s₀.Standing (State.updTrk s k h g) := by
  unfold State.updTrk
  split
  · exact hs.setTrk
  · exact hs

theorem State.Standing.injectAs (hs : s₀.Standing s) {f : Nat} {src : Fid} {p : Pkt} : s₀.Standing (State.injectAs s f src p) :=
  (.ite hs.updNi hs.push)

theorem State.Standing.sinkData (hs : s₀.Standing s) {f : Nat} {q : Pkt} : s₀.Standing (State.sinkData s f q) := by
  simp only [State.sinkData]
  exact (.ite hs (by split; exact hs.setNi; exact hs.setNi; exact hs.setNi))

theorem State.Standing.snoop (hs : s₀.Standing s) {k opc idx line : Nat} {rq : Fid} {h : Nat} {txid : BitVec 12} {slice : BitVec 6} : s₀.Standing (State.snoop s k opc idx line rq h txid slice) :=
  (.ite hs.countHome.injectAs hs.countHome.send)

theorem State.Standing.grantM (hs : s₀.Standing s) {k : Nat} {q : Pkt} {cnt : Nat} {df : Bool} : s₀.Standing (State.grantM s k q cnt df) :=
  hs.send

theorem State.Standing.nack (hs : s₀.Standing s) {k : Nat} {q : Pkt} {reason : Nat} : s₀.Standing (State.nack s k q reason) :=
  hs.send.bump.countHome

theorem State.Standing.homeProto (hs : s₀.Standing s) {k lvl code : Nat} {p : Pkt} {u : UnitRef} : s₀.Standing (State.homeProto s k lvl code p u) :=
  hs.latchWords.raiseNi

theorem State.Standing.issueWr (hs : s₀.Standing s) {k line : Nat} : s₀.Standing (State.issueWr s k line) := by
  unfold State.issueWr
  exact (.ite hs (by split; exact hs; exact hs.updHm.send.send.countHome))

theorem State.Standing.fillWb (hs : s₀.Standing s) {k : Nat} : s₀.Standing (State.fillWb s k) := by
  simp only [State.fillWb]
  split
  · exact (.ite hs.setHm.issueWr hs)
  · exact hs

theorem State.Standing.addWb (hs : s₀.Standing s) {k : Nat} {w : Wbuf} : s₀.Standing (State.addWb s k w) :=
  hs.updHm.fillWb

theorem State.Standing.readLineMem (hs : s₀.Standing s) {k h : Nat} {e : TrkEnt} : s₀.Standing (State.readLineMem s k h e) :=
  hs.setTrk.send.countHome

theorem State.Standing.needLine (hs : s₀.Standing s) {k h : Nat} : s₀.Standing (State.needLine s k h) := by
  unfold State.needLine
  split
  · exact hs
  · exact (by split; exact hs.setTrk; exact (.ite hs.readLineMem hs.setTrk))

theorem State.Standing.predRecord (hs : s₀.Standing s) {k line : Nat} : s₀.Standing (State.predRecord s k line) := by
  simp only [State.predRecord]
  split
  · exact (.ite (hs.upd rfl) (.ite hs.bump (hs.upd rfl)))
  · exact (hs.upd rfl)

theorem State.Standing.homeComp (hs : s₀.Standing s) {k : Nat} {q : Pkt} {status : Nat} : s₀.Standing (State.homeComp s k q status) :=
  hs.answer

theorem State.Standing.endFlow (hs : s₀.Standing s) {k h : Nat} : s₀.Standing (State.endFlow s k h) := by
  unfold State.endFlow
  split
  · exact hs
  · exact hs.setTrk.updHm

theorem State.Standing.dropDir (hs : s₀.Standing s) {k : Nat} {e : TrkEnt} : s₀.Standing (State.dropDir s k e) :=
  hs.putDir

theorem State.Standing.farExecute (hs : s₀.Standing s) {k h : Nat} {e : TrkEnt} {data : List Byte} {poison : Bool} : s₀.Standing (State.farExecute s k h e data poison) :=
  (.ite (.endFlow (.homeComp (.ite hs.dropDir.addWb hs.dropDir))) hs.dropDir.bump.countHome.predRecord.addWb.send.endFlow)

theorem State.Standing.writePassOut (hs : s₀.Standing s) {k h : Nat} {e : TrkEnt} {old : List Byte} {poison : Bool} : s₀.Standing (State.writePassOut s k h e old poison) :=
  hs.setTrk.addWb

theorem State.Standing.complete (hs : s₀.Standing s) {k h : Nat} : s₀.Standing (State.complete s k h) := by
  unfold State.complete
  split
  · exact hs
  · exact (.ite hs.send.setTrk (.ite hs.send.setTrk (.ite hs.writePassOut (.ite hs.farExecute hs.send.setTrk))))

theorem State.Standing.gathered (hs : s₀.Standing s) {k h : Nat} : s₀.Standing (State.gathered s k h) := by
  unfold State.gathered
  split
  · exact hs
  · exact (.ite hs.setTrk (.ite hs.setTrk hs.complete))

theorem State.Standing.snoopAll (hs : s₀.Standing s) {k h opc : Nat} {idxs : List Nat} {toHome : Bool} {own : Bool} : s₀.Standing (State.snoopAll s k h opc idxs toHome own) := by
  unfold State.snoopAll
  split
  · exact hs
  · exact (hs.setTrk.foldl fun _ _ hs => hs.snoop)

theorem State.Standing.takeWay (hs : s₀.Standing s) {k h way i : Nat} : s₀.Standing (State.takeWay s k h way i) := by
  unfold State.takeWay
  split
  · exact hs
  · exact hs.setDir.plruTouch.setTrk

theorem State.Standing.serveI (hs : s₀.Standing s) {k h way : Nat} : s₀.Standing (State.serveI s k h way) := by
  unfold State.serveI
  split
  · exact hs
  · exact (.ite hs.takeWay.needLine.gathered hs.takeWay.updTrk.grantM.predRecord.needLine.gathered)

theorem State.Standing.findWay (hs : s₀.Standing s) {k h : Nat} : s₀.Standing (State.findWay s k h) := by
  simp only [State.findWay]
  split
  · exact hs
  · exact (by split; exact hs.serveI; exact (by split; exact (by split; exact hs; exact hs.setTrk.setTrk.bump.countHome.countHome.snoopAll.snoopAll); exact hs.setTrk; exact hs.nack.endFlow))

theorem State.Standing.serve (hs : s₀.Standing s) {k h : Nat} : s₀.Standing (State.serve s k h) := by
  unfold State.serve
  split
  · exact hs
  · exact (.ite (.endFlow (.homeComp (.homeProto (.setTrk (.ite (.countHome (.bump (by split; exact hs.countHome.plruTouch; exact hs.countHome))) (by split; exact hs.countHome.plruTouch; exact hs.countHome)))))) (.ite (.ite (.findWay (.setTrk (.ite (.countHome (.bump (by split; exact hs.countHome.plruTouch; exact hs.countHome))) (by split; exact hs.countHome.plruTouch; exact hs.countHome)))) (.ite (by split; exact (.gathered (.needLine (.addSharer (.setTrk (.ite (.countHome (.bump (by split; exact hs.countHome.plruTouch; exact hs.countHome))) (by split; exact hs.countHome.plruTouch; exact hs.countHome)))))); exact (.gathered (.needLine (.setTrk (.ite (.countHome (.bump (by split; exact hs.countHome.plruTouch; exact hs.countHome))) (by split; exact hs.countHome.plruTouch; exact hs.countHome)))))) (by split; exact (.updTrk (.snoopAll (.addSharer (.setTrk (.ite (.countHome (.bump (by split; exact hs.countHome.plruTouch; exact hs.countHome))) (by split; exact hs.countHome.plruTouch; exact hs.countHome)))))); exact (.updTrk (.snoopAll (.setTrk (.ite (.countHome (.bump (by split; exact hs.countHome.plruTouch; exact hs.countHome))) (by split; exact hs.countHome.plruTouch; exact hs.countHome)))))))) (.ite (.ite (.findWay (.setTrk (.ite (.countHome (.bump (by split; exact hs.countHome.plruTouch; exact hs.countHome))) (by split; exact hs.countHome.plruTouch; exact hs.countHome)))) (.ite (.gathered (.needLine (.predRecord (.snoopAll (.grantM (.putDir (.updTrk (.setTrk (.ite (.countHome (.bump (by split; exact hs.countHome.plruTouch; exact hs.countHome))) (by split; exact hs.countHome.plruTouch; exact hs.countHome)))))))))) (.updTrk (.predRecord (.grantM (.snoopAll (.snoopAll (.putDir (.setTrk (.ite (.countHome (.bump (by split; exact hs.countHome.plruTouch; exact hs.countHome))) (by split; exact hs.countHome.plruTouch; exact hs.countHome))))))))))) (.ite (.updTrk (.predRecord (.grantM (.snoopAll (.putDir (.setTrk (.ite (.countHome (.bump (by split; exact hs.countHome.plruTouch; exact hs.countHome))) (by split; exact hs.countHome.plruTouch; exact hs.countHome)))))))) (.ite (.ite (.gathered (.needLine (.setTrk (.ite (.countHome (.bump (by split; exact hs.countHome.plruTouch; exact hs.countHome))) (by split; exact hs.countHome.plruTouch; exact hs.countHome))))) (.updTrk (.snoopAll (by split; exact (.putDir (.setTrk (.ite (.countHome (.bump (by split; exact hs.countHome.plruTouch; exact hs.countHome))) (by split; exact hs.countHome.plruTouch; exact hs.countHome)))); exact (.setTrk (.ite (.countHome (.bump (by split; exact hs.countHome.plruTouch; exact hs.countHome))) (by split; exact hs.countHome.plruTouch; exact hs.countHome))))))) (.ite (.ite (.ite (.writePassOut (.setTrk (.ite (.countHome (.bump (by split; exact hs.countHome.plruTouch; exact hs.countHome))) (by split; exact hs.countHome.plruTouch; exact hs.countHome)))) (.gathered (.needLine (.setTrk (.ite (.countHome (.bump (by split; exact hs.countHome.plruTouch; exact hs.countHome))) (by split; exact hs.countHome.plruTouch; exact hs.countHome)))))) (.ite (.gathered (.ite (.snoopAll (.setTrk (.ite (.countHome (.bump (by split; exact hs.countHome.plruTouch; exact hs.countHome))) (by split; exact hs.countHome.plruTouch; exact hs.countHome)))) (.needLine (.snoopAll (.setTrk (.ite (.countHome (.bump (by split; exact hs.countHome.plruTouch; exact hs.countHome))) (by split; exact hs.countHome.plruTouch; exact hs.countHome))))))) (.gathered (.snoopAll (.snoopAll (.setTrk (.ite (.countHome (.bump (by split; exact hs.countHome.plruTouch; exact hs.countHome))) (by split; exact hs.countHome.plruTouch; exact hs.countHome)))))))) (.ite (.ite (.gathered (.needLine (.setTrk (.ite (.countHome (.bump (by split; exact hs.countHome.plruTouch; exact hs.countHome))) (by split; exact hs.countHome.plruTouch; exact hs.countHome))))) (.ite (.gathered (.needLine (.snoopAll (.setTrk (.ite (.countHome (.bump (by split; exact hs.countHome.plruTouch; exact hs.countHome))) (by split; exact hs.countHome.plruTouch; exact hs.countHome)))))) (.gathered (.snoopAll (.snoopAll (.setTrk (.ite (.countHome (.bump (by split; exact hs.countHome.plruTouch; exact hs.countHome))) (by split; exact hs.countHome.plruTouch; exact hs.countHome)))))))) (.setTrk (.ite (.countHome (.bump (by split; exact hs.countHome.plruTouch; exact hs.countHome))) (by split; exact hs.countHome.plruTouch; exact hs.countHome))))))))))

theorem State.Standing.recallAll (hs : s₀.Standing s) {k line : Nat} {rq : Fid} {txid : Nat} {h : Nat} {slice : BitVec 6} : s₀.Standing (State.recallAll s k line rq txid h slice) :=
  hs.send

theorem State.Standing.collected (hs : s₀.Standing s) {k h : Nat} : s₀.Standing (State.collected s k h) := by
  unfold State.collected
  split
  · exact hs
  · exact (.ite hs (by split; exact (.ite hs.setTrk hs.setDir.endFlow.serveI); exact (.ite hs.setTrk hs.serve); exact hs.complete))

theorem State.Standing.snoopAnswer (hs : s₀.Standing s) {k h port : Nat} {data : Option (List Byte × Bool)} {fenced : Bool} : s₀.Standing (State.snoopAnswer s k h port data fenced) := by
  unfold State.snoopAnswer
  split
  · exact hs
  · exact (.collected (by split; exact hs.setTrk.updTrk; exact hs.setTrk.addWb; exact (by split; exact (.ite hs.setTrk.addWb hs.setTrk); exact hs.setTrk)))

theorem State.Standing.sweepOne (hs : s₀.Standing s) {k : Nat} : s₀.Standing (State.sweepOne s k) := by
  simp only [State.sweepOne]
  split
  · exact hs.recallAll.updHm
  · exact hs

theorem State.Standing.sweepDone (hs : s₀.Standing s) {k : Nat} : s₀.Standing (State.sweepDone s k) :=
  hs.updHm

theorem State.Standing.sweepNext (hs : s₀.Standing s) {k : Nat} : s₀.Standing (State.sweepNext s k) :=
  hs.sweepDone.sweepOne.sweepDone.sweepOne.sweepDone.sweepOne.sweepDone.sweepOne.sweepDone

theorem State.Standing.portGone (hs : s₀.Standing s) {f : Nat} : s₀.Standing (State.portGone s f) :=
  (hs.foldl fun _ _ hs => (hs.setHm.sweepNext.foldl fun _ _ hs => hs.snoopAnswer))

theorem State.Standing.fenceEntry (hs : s₀.Standing s) {k : Nat} {he : Nat × Option TrkEnt} : s₀.Standing (State.fenceEntry s k he) := by
  unfold State.fenceEntry
  split
  · exact hs
  · exact (.ite (.setTrk (by split; exact (.ite ((hs.foldl fun _ _ hs => hs.nack).addWb) (hs.foldl fun _ _ hs => hs.nack)); exact (hs.foldl fun _ _ hs => hs.nack))) (.setTrk (.ite (by split; exact (.ite ((hs.foldl fun _ _ hs => hs.nack).addWb) (hs.foldl fun _ _ hs => hs.nack)); exact (hs.foldl fun _ _ hs => hs.nack)) (.nack (by split; exact (.ite ((hs.foldl fun _ _ hs => hs.nack).addWb) (hs.foldl fun _ _ hs => hs.nack)); exact (hs.foldl fun _ _ hs => hs.nack))))))

theorem State.Standing.dropBoxed (hs : s₀.Standing s) {k : Nat} {q : Pkt} : s₀.Standing (State.dropBoxed s k q) :=
  hs.updNi.sinkData

theorem State.Standing.fenceHome (hs : s₀.Standing s) {k : Nat} : s₀.Standing (State.fenceHome s k) :=
  (.ite hs (((((hs.setMap.setMap.bareFence.updHm.foldl fun _ _ hs => hs.fenceEntry).foldl fun _ _ hs => hs.nack).foldl fun _ _ hs => hs.dropBoxed).foldl fun _ _ hs => hs.nack).updHm))

theorem State.Standing.denied (hs : s₀.Standing s) {f : Nat} {pre : Bool} {src : Nat} {sd : Option Nat} {opc cause entry pa : Nat} : s₀.Standing (State.denied s f pre src sd opc cause entry pa) := by
  have h1 : s₀.Standing (if sd = some 15 then (s.bump .RK_DENY_CNT rkBase).bump .RK_DBG_DENY_CNT rkBase else s.bump .RK_DENY_CNT rkBase) :=
    .ite hs.bump.bump hs.bump
  unfold State.denied
  exact h1.latchWords.count.raiseNi

theorem State.Standing.ruleCopy (hs : s₀.Standing s) {src dst i : Nat} : s₀.Standing (State.ruleCopy s src dst i) :=
  hs.setTab.setTab

theorem State.Standing.ruleRepair (hs : s₀.Standing s) {bad : BitVec 5} {i : Nat} {inj : Bool} : s₀.Standing (State.ruleRepair s bad i inj) := by
  unfold State.ruleRepair
  split
  · exact (.ite ((hs.foldl fun _ _ hs => hs.setTab.setTab).raiseSpine) (hs.foldl fun _ _ hs => hs.ruleCopy.bump.raiseSpine))
  · exact (.foldl (.ite hs.ruleCopy.latchWords hs) fun _ _ hs => hs.ruleCopy.bump.raiseSpine)

theorem State.Standing.ruleEcc (hs : s₀.Standing s) {f : Nat} {ep : Bool} {sl pa opc : Nat} {err : WordErr} : s₀.Standing (State.ruleEcc s f ep sl pa opc err) := by
  simp only [State.ruleEcc]
  exact (.ite hs (by split; exact (hs.checkWord.of_eq ‹_›); exact (hs.checkWord.of_eq ‹_›).bump; exact (hs.checkWord.of_eq ‹_›).ruleRepair))

theorem State.Standing.portBytes (hs : s₀.Standing s) {f dir n : Nat} : s₀.Standing (State.portBytes s f dir n) :=
  (.ite hs (.ite (hs.count.upd rfl) hs.count))

theorem State.Standing.present (hs : s₀.Standing s) {f : Nat} {bs : List Beat} : s₀.Standing (State.present s f bs) :=
  (.ite hs.updNi.portBytes hs)

theorem State.Standing.safReclaim (hs : s₀.Standing s) {f : Nat} : s₀.Standing (State.safReclaim s f) :=
  (hs.upd rfl).updNi

theorem State.Standing.ownCompAck (hs : s₀.Standing s) {f : Nat} {e : SrcEnt} : s₀.Standing (State.ownCompAck s f e) :=
  hs.send

theorem State.Standing.closeDone (hs : s₀.Standing s) {f : Nat} : s₀.Standing (State.closeDone s f) :=
  (hs.foldl fun _ _ hs => hs.ownCompAck.updNi)

theorem State.Standing.proxySnoops (hs : s₀.Standing s) {f : Nat} : s₀.Standing (State.proxySnoops s f) :=
  (.ite (hs.foldl fun _ _ hs => hs.send) hs)

theorem State.Standing.answerTargets (hs : s₀.Standing s) {f status : Nat} : s₀.Standing (State.answerTargets s f status) := by
  unfold State.answerTargets
  exact (hs.foldl fun _ _ hs => hs.answer).updNi

theorem State.Standing.dropLines (hs : s₀.Standing s) {f : Nat} : s₀.Standing (State.dropLines s f) :=
  (hs.upd rfl)

theorem State.Standing.fenceNi (hs : s₀.Standing s) {f : Nat} : s₀.Standing (State.fenceNi s f) :=
  (.ite hs (.ite ((hs.setMap.bareFence.setNi.answerTargets.foldl fun _ _ hs => hs.answer).proxySnoops.closeDone.updNi.safReclaim.dropLines.portGone) ((hs.setMap.bareFence.setNi.answerTargets.foldl fun _ _ hs => hs.answer).proxySnoops.closeDone.updNi.safReclaim.dropLines)))

theorem State.Standing.setSrc (hs : s₀.Standing s) {f i : Nat} {e : Option SrcEnt} : s₀.Standing (State.setSrc s f i e) :=
  hs.updNi

theorem State.Standing.progress (hs : s₀.Standing s) {f t : Nat} {cnt : Nat} {ops : List Word64} : s₀.Standing (State.progress s f t cnt ops) := by
  unfold State.progress
  split
  · exact hs
  · exact (.ite hs.present.updNi.present.countAnswer.updNi hs.present.updNi)

theorem State.Standing.setCl (hs : s₀.Standing s) {k : Nat} {c : Ecl} : s₀.Standing (State.setCl s k c) :=
  (hs.upd rfl)

theorem State.Standing.updCl (hs : s₀.Standing s) {k : Nat} {g : Ecl → Ecl} : s₀.Standing (State.updCl s k g) :=
  hs.setCl

theorem State.Standing.setThr (hs : s₀.Standing s) {k i : Nat} {x : Thr} : s₀.Standing (State.setThr s k i x) :=
  hs.updCl

theorem State.Standing.updThr (hs : s₀.Standing s) {k i : Nat} {g : Thr → Thr} : s₀.Standing (State.updThr s k i g) :=
  hs.setThr

theorem State.Standing.lsWrite (hs : s₀.Standing s) {k off : Nat} {bs : List Byte} {poison : Bool} : s₀.Standing (State.lsWrite s k off bs poison) := ⟨hs.slc, hs.pin⟩

theorem State.Standing.deferTrap (hs : s₀.Standing s) {k i cause status : Nat} {taddr : Word64} : s₀.Standing (State.deferTrap s k i cause status taddr) :=
  hs.updThr

theorem State.Standing.sampleEnd (hs : s₀.Standing s) {k : Nat} {req pair : Option Nat} {trap : Bool} : s₀.Standing (State.sampleEnd s k req pair trap) :=
  hs.updCl

theorem State.Standing.reqFinish (hs : s₀.Standing s) {k : Nat} {r : EReq} : s₀.Standing (State.reqFinish s k r) := by
  unfold State.reqFinish
  exact (.sampleEnd (by split; exact (.ite hs.updCl.updThr hs.updCl.updThr.deferTrap); exact (.ite hs.updCl.updThr hs.updCl.updThr.deferTrap); exact (.ite hs.updCl.updThr hs.updCl.updThr.deferTrap); exact (.ite hs.updCl.updThr hs.updCl.updThr.deferTrap); exact hs.updCl.updThr; exact hs.updCl.updThr; exact (.ite hs.updCl hs.updCl.deferTrap)))

theorem State.Standing.partDone (hs : s₀.Standing s) {k id off status : Nat} {bytes : List Byte} {poison : Bool} : s₀.Standing (State.partDone s k id off status bytes poison) := by
  unfold State.partDone
  split
  · exact hs
  · exact (.ite (.reqFinish (by split; exact (.ite hs hs.lsWrite); exact (.ite hs hs.lsWrite); exact hs)) (.updCl (by split; exact (.ite hs hs.lsWrite); exact (.ite hs hs.lsWrite); exact hs)))

theorem State.Standing.fenceCluster (hs : s₀.Standing s) {k : Nat} : s₀.Standing (State.fenceCluster s k) :=
  (.ite hs (((hs.setMap.setMap.bareFence.updCl.upd rfl).setNi.foldl fun _ _ hs => hs.answer).safReclaim))

theorem State.Standing.giveBack (hs : s₀.Standing s) {node : Nat} {net : Net} {port vc : Nat} : s₀.Standing (State.giveBack s node net port vc) :=
  (.ite hs (hs.upd rfl))

theorem State.Standing.setBuf (hs : s₀.Standing s) {node : Nat} {net : Net} {inp vc : Nat} {b : RBuf} : s₀.Standing (State.setBuf s node net inp vc b) :=
  (hs.upd rfl)

theorem State.Standing.creditIn (hs : s₀.Standing s) {node : Nat} {net : Net} {inp vc : Nat} : s₀.Standing (State.creditIn s node net inp vc) := by
  unfold State.creditIn
  split
  · exact hs.giveBack
  · exact hs

theorem State.Standing.flush (hs : s₀.Standing s) {node : Nat} {net : Net} {inp vc : Nat} : s₀.Standing (State.flush s node net inp vc) :=
  (.setBuf (.ite (hs.foldl fun _ _ hs => hs.creditIn) ((hs.foldl fun _ _ hs => hs.creditIn).countRtr)))

theorem State.Standing.flushRouter (hs : s₀.Standing s) {node : Nat} : s₀.Standing (State.flushRouter s node) :=
  ((hs.foldl fun _ _ hs => (hs.foldl fun _ _ hs => (hs.foldl fun _ _ hs => hs.flush))).upd rfl)

theorem State.Standing.fenceFid (hs : s₀.Standing s) {f : Nat} : s₀.Standing (State.fenceFid s f) :=
  (.ite hs.fenceHome (.ite hs.fenceCluster hs.fenceNi))

theorem State.Standing.fenceRouter (hs : s₀.Standing s) {node : Nat} : s₀.Standing (State.fenceRouter s node) :=
  (.ite hs (hs.setMap.bareFence.flushRouter.foldl fun _ _ hs => hs.fenceFid))

theorem State.Standing.fenceLink (hs : s₀.Standing s) {node port : Nat} : s₀.Standing (State.fenceLink s node port) :=
  (.ite hs (hs.bareFence.upd rfl))

theorem State.Standing.adopt (hs : s₀.Standing s) {k i : Nat} : s₀.Standing (State.adopt s k i) := by
  unfold State.adopt
  exact hs.updThr

theorem State.Standing.adoptIdle (hs : s₀.Standing s) {k i : Nat} : s₀.Standing (State.adoptIdle s k i) :=
  (.ite hs.adopt hs)

theorem State.Standing.updQ (hs : s₀.Standing s) {q : Nat} {g : QDyn → QDyn} : s₀.Standing (State.updQ s q g) :=
  (hs.upd rfl)

theorem State.Standing.updQm (hs : s₀.Standing s) {n : Nat} {g : Qm → Qm} : s₀.Standing (State.updQm s n g) :=
  (hs.upd rfl)

theorem State.Standing.updPort (hs : s₀.Standing s) {n p : Nat} {g : QPort → QPort} : s₀.Standing (State.updPort s n p g) :=
  hs.updQm

theorem State.Standing.ringJob (hs : s₀.Standing s) {n : Nat} {j : RingJob} : s₀.Standing (State.ringJob s n j) :=
  hs.updQm

theorem State.Standing.pullNotify (hs : s₀.Standing s) {n q d : Nat} {wasEmpty : Bool} : s₀.Standing (State.pullNotify s n q d wasEmpty) :=
  (.ite hs hs.updQ.updNi.send)

theorem State.Standing.postEvent (hs : s₀.Standing s) {cnt src evq : Nat} {evv : Bool} {code queue arg : Nat} : s₀.Standing (State.postEvent s cnt src evq evv code queue arg) :=
  (.ite hs.bump hs.ringJob)

theorem State.Standing.queueEvent (hs : s₀.Standing s) {q code arg : Nat} : s₀.Standing (State.queueEvent s q code arg) :=
  (.ite hs hs.postEvent)

theorem State.Standing.dropDeliveries (hs : s₀.Standing s) {q : Nat} : s₀.Standing (State.dropDeliveries s q) :=
  hs.updQm

theorem State.Standing.discardQueue (hs : s₀.Standing s) {q : Nat} : s₀.Standing (State.discardQueue s q) :=
  (.updQ (.updQm (.dropDeliveries (.ite hs hs.bump))))

theorem State.Standing.setJob (hs : s₀.Standing s) {n : Nat} {j : RingJob} : s₀.Standing (State.setJob s n j) :=
  hs.updQm

theorem State.Standing.dropJob (hs : s₀.Standing s) {n id : Nat} : s₀.Standing (State.dropJob s n id) :=
  hs.updQm

theorem State.Standing.ringGo (hs : s₀.Standing s) {n : Nat} {j : RingJob} {wr : Bool} {off : Nat} {data : List Byte} : s₀.Standing (State.ringGo s n j wr off data) :=
  hs.setJob.updQm

theorem State.Standing.ringBegin (hs : s₀.Standing s) {n : Nat} {j : RingJob} : s₀.Standing (State.ringBegin s n j) := by
  unfold State.ringBegin
  split
  · exact hs.ringGo
  · exact hs.ringGo
  · exact hs.ringGo
  · exact hs.ringGo
  · exact hs.ringGo
  · exact hs.ringGo
  · exact hs.ringGo
  · exact hs.ringGo

theorem State.Standing.ringEnter (hs : s₀.Standing s) {n q : Nat} {m : QMsg} : s₀.Standing (State.ringEnter s n q m) :=
  hs.updQ.count.pullNotify

theorem State.Standing.stageFail (hs : s₀.Standing s) {n p : Nat} {j : RingJob} : s₀.Standing (State.stageFail s n p j) := by
  unfold State.stageFail
  split
  · exact hs
  · exact hs.updPort.updQ.queueEvent

theorem State.Standing.ringDone (hs : s₀.Standing s) {n : Nat} {j : RingJob} : s₀.Standing (State.ringDone s n j) := by
  unfold State.ringDone
  split
  · exact (.ite hs.dropJob.answer (.ite hs.dropJob.answer (.ite hs.ringGo hs.dropJob.answer.ringEnter)))
  · exact (.ite hs.dropJob (.ite hs.dropJob.bump (.ite hs.ringGo hs.dropJob.ringEnter)))
  · exact (.ite hs.dropJob.answer (.ite hs.dropJob.answer (.ite (.ite hs.dropJob.bump.answer hs.ringGo) hs.dropJob.answer)))
  · exact (.ite hs.dropJob.answer (.ite hs.dropJob.answer hs.updQm))
  · exact (.ite hs.dropJob.stageFail hs.dropJob.updPort)
  · exact hs.dropJob
  · exact hs.dropJob
  · exact (.ite hs.updQ.ringBegin hs.updQ.dropJob.updQ)

theorem State.Standing.ringPiece (hs : s₀.Standing s) {n id rel status : Nat} {bytes : List Byte} {bad : Bool} : s₀.Standing (State.ringPiece s n id rel status bytes bad) := by
  unfold State.ringPiece
  split
  · exact hs
  · exact (.ite hs.setJob.ringDone hs.setJob)

theorem State.Standing.ringSquash (hs : s₀.Standing s) {n i : Nat} {e : RingEnt} : s₀.Standing (State.ringSquash s n i e) :=
  hs.updQm.ringPiece

theorem State.Standing.squashPiece (hs : s₀.Standing s) {f i : Nat} {e : SrcEnt} : s₀.Standing (State.squashPiece s f i e) :=
  (.ite hs.setSrc.partDone (.ite hs.setSrc hs.setSrc))

theorem State.Standing.squashNi (hs : s₀.Standing s) {f sl : Nat} : s₀.Standing (State.squashNi s f sl) :=
  (.ite (hs.bump.foldl fun _ _ hs => hs.squashPiece) ((hs.bump.foldl fun _ _ hs => hs.squashPiece).foldl fun _ _ hs => hs.progress))

theorem State.Standing.spineCheck (hs : s₀.Standing s) {f pa opc : Nat} : s₀.StandingPair (State.spineCheck s f pa opc) := by
  simp only [State.spineCheck]
  split
  · exact (.mk hs.ruleEcc.denied)
  · exact (.ite (.mk hs.ruleEcc) (by split; exact (.mk hs.ruleEcc.ruleEcc.denied); exact (.mk hs.ruleEcc.ruleEcc)))

theorem State.Standing.areaOk (hs : s₀.Standing s) {f base len opc : Nat} : s₀.StandingPair (State.areaOk s f base len opc) := 
  .foldl (.mk hs) fun _ _ hs => .ite hs.snd.spineCheck hs

theorem State.Standing.copyTabs (hs : s₀.Standing s) {src : Nat} {ok : Nat → Nat → Bool} : s₀.Standing (State.copyTabs s src ok) :=
  (hs.upd rfl)

theorem State.Standing.pwrReject (hs : s₀.Standing s)  : s₀.Standing (State.pwrReject s) :=
  hs.setRf

theorem State.Standing.refused (hs : s₀.Standing s) {d : Nat} {u : UnitRef} {reason : Nat} : s₀.Standing (State.refused s d u reason) :=
  hs.bump.setReg

theorem State.Standing.wantImage (hs : s₀.Standing s) {r : CloveReq} : s₀.Standing (State.wantImage s r) :=
  (hs.upd rfl)

theorem State.Standing.wantReturn (hs : s₀.Standing s)  : s₀.Standing (State.wantReturn s) :=
  (.ite hs hs.wantImage)

theorem State.Standing.startEntry (hs : s₀.Standing s) {ds : List Nat} {t : Nat} : s₀.Standing (State.startEntry s ds t) := by
  simp only [State.startEntry]
  split
  · exact hs
  · exact (.ite (hs.foldl fun _ _ hs => hs.setDomain) (by split; exact (hs.foldl fun _ _ hs => hs.refused); exact (.ite (hs.foldl fun _ _ hs => hs.setDomain) ((hs.foldl fun _ _ hs => hs.setDomain).wantImage))))

theorem State.Standing.pwrRequest (hs : s₀.Standing s) {ds : List Nat} {t : Nat} : s₀.Standing (State.pwrRequest s ds t) :=
  (.ite hs.pwrReject (.ite (hs.foldl fun _ _ hs => hs.wakeLevel) (.ite ((hs.foldl fun _ _ hs => hs.setDomain).pwrReject) ((hs.foldl fun _ _ hs => hs.setDomain).startEntry))))

theorem State.Standing.endSeq (hs : s₀.Standing s) {d : Nat} : s₀.Standing (State.endSeq s d) := by
  unfold State.endSeq
  split
  · exact hs
  · exact (.ite hs.setDomain hs.setDomain.pwrRequest)

theorem State.Standing.abandonEntry (hs : s₀.Standing s) {d : Nat} : s₀.Standing (State.abandonEntry s d) :=
  (.ite ((hs.foldl fun _ _ hs => hs.setDomain).wantReturn) ((hs.foldl fun _ _ hs => hs.setDomain).foldl fun _ _ hs => hs.endSeq))

theorem State.Standing.refuseEntry (hs : s₀.Standing s) {d : Nat} {u : UnitRef} {reason : Nat} : s₀.Standing (State.refuseEntry s d u reason) :=
  hs.refused.abandonEntry

theorem State.Standing.imageFailed (hs : s₀.Standing s) {r : CloveReq} : s₀.Standing (State.imageFailed s r) := by
  unfold State.imageFailed
  split
  · exact (.ite hs.refuseEntry hs)
  · exact hs

theorem State.Standing.resetShadow (hs : s₀.Standing s) {rules : Bool} : s₀.Standing (State.resetShadow s rules) :=
  hs.copyTabs

theorem State.Standing.imageless (hs : s₀.Standing s) {k : Option FenceKey} : s₀.Standing (State.imageless s k) := by
  unfold State.imageless
  exact (hs.foldl fun _ _ hs => (by split; exact hs.updHm; exact hs))

theorem State.Standing.noImage (hs : s₀.Standing s) {k : Option FenceKey} : s₀.Standing (State.noImage s k) :=
  (.raiseSpine (.ite (.ite hs.imageless hs.imageless.setRf) (.upd (.ite hs.imageless hs.imageless.setRf) rfl)))

theorem State.Standing.startFetch (hs : s₀.Standing s) {r : CloveReq} : s₀.Standing (State.startFetch s r) :=
  (hs.setReg.setReg.upd rfl)

theorem State.Standing.disarm (hs : s₀.Standing s)  : s₀.Standing (State.disarm s) :=
  (hs.upd rfl)

theorem State.Standing.prgStop (hs : s₀.Standing s) {err : Nat} : s₀.Standing (State.prgStop s err) := by
  simp only [State.prgStop]
  split
  · exact (.ite (.imageFailed (.raiseSpine (.ite (hs.upd rfl).setRf.disarm (hs.upd rfl).setRf.disarm.resetShadow))) (.raiseSpine (.ite (hs.upd rfl).setRf.disarm (hs.upd rfl).setRf.disarm.resetShadow)))
  · exact (.raiseSpine (.ite (hs.upd rfl).setRf.disarm (hs.upd rfl).setRf.disarm.resetShadow))

theorem State.Standing.preempt (hs : s₀.Standing s) {r : CloveReq} : s₀.Standing (State.preempt s r) := by
  unfold State.preempt
  exact (.ite (.startFetch (by split; exact (hs.upd rfl).prgStop.wantImage; exact (hs.upd rfl).prgStop)) hs.startFetch)

theorem State.Standing.callImage (hs : s₀.Standing s) {key : Nat} {k : FenceKey} : s₀.Standing (State.callImage s key k) :=
  (.ite hs.noImage (.ite hs.wantImage hs.preempt))

theorem State.Standing.markCalled (hs : s₀.Standing s) {ks : List FenceKey} : s₀.Standing (State.markCalled s ks) :=
  (hs.upd rfl)

theorem State.Standing.fenceKey (hs : s₀.Standing s) {k : FenceKey} : s₀.Standing (s.fenceKey k) := by
  cases k with
  | router n => exact hs.fenceRouter
  | link n p => exact hs.fenceLink
  | ni f => exact hs.fenceFid
  | home k => exact hs.fenceHome
  | cluster k => exact hs.fenceCluster
  | quadrant q => exact (hs.setRf.foldl fun _ _ hs => hs.fenceRouter).foldl fun _ _ hs => hs.fenceFid

theorem State.Standing.orderFence (hs : s₀.Standing s) {k : FenceKey} : s₀.Standing (State.orderFence s k) := by
  unfold State.orderFence
  exact (.ite hs (by split; exact hs.fenceKey.markCalled.callImage; exact hs.fenceKey.markCalled))

end Sys2Proof.Machine

namespace Sys2Proof.Machine
variable {s t u : State}

/-! ### Pending levels (R339) -/

theorem State.pendOf_lt (s : State) (c : Nat) : s.pendOf c < 16 := Nat.mod_lt _ (by decide)

theorem State.pendOf_congr (h : ∀ i, t.reg .FC_PENDn 0 i = s.reg .FC_PENDn 0 i) (c : Nat) : t.pendOf c = s.pendOf c :=
  congrArg (fld · _ _) (h _)

theorem State.pendOf_setPend (s : State) {c d : Nat} (hc : c < 32) {v : Nat} (hv : v < 16) :
    (s.setPend c v).pendOf d = if d = c then v else s.pendOf d := by
  unfold State.setPend State.pendOf
  by_cases hw : d / 8 = c / 8
  · rw [hw]
    split
    case isTrue h =>
      subst h
      exact (State.rf_setRf_same s .FC_PENDn _ 4 v 0 (d / 8) (by omega)).trans (Nat.mod_eq_of_lt hv)
    case isFalse h => exact State.rf_setRf_apart s .FC_PENDn _ 4 v _ 4 0 (c / 8) (by omega) (by omega)
  · rw [if_neg (fun h => hw (by rw [h])), State.reg_setRf_other]
    simp only [Reg.off, Reg.spec]
    omega

theorem classCeil_le (c : Nat) : classCeil c ≤ 3 := by
  unfold classCeil
  split
  · decide
  · split
    · decide
    · split <;> decide

theorem State.lvlOf_lt (s : State) {r : FaultRec} (h : r.level < 4) : s.lvlOf r < 4 := by
  have := classCeil_le (r.src % 32)
  unfold State.lvlOf
  dsimp only
  split <;> omega

theorem State.lvlOf_max (s : State) {r : FaultRec} (h : r.level = 4) : s.lvlOf r = 4 := by
  have := classCeil_le (r.src % 32)
  unfold State.lvlOf
  dsimp only
  split <;> omega

theorem State.le_lvlOf (s : State) (r : FaultRec) : r.level ≤ s.lvlOf r := by
  unfold State.lvlOf
  dsimp only
  split <;> omega

theorem State.pendWas_unacked (h : s.fc.ackAt ≠ s.tick + 1) (c : Nat) : s.pendWas c = s.pendOf c := if_neg h

/-! ### The first-fault latch (R340) -/

theorem State.latchFault_rest (s : State) (r : FaultRec) (l : Nat) : s.RegsOnly (s.latchFault r l) := by
  have hl : s.RegsOnly (s.latchWords .FC_FIRST
    [(.FC_FIRST, r.src + l * 2 ^ 10 + r.unit.id * 2 ^ 13 + r.unit.node.toNat * 2 ^ 23 + r.inj.toNat * 2 ^ 24 + 2 ^ 31),
     (.FC_FIRST_DET, r.detail + r.delay * 2 ^ 12 + r.tsat.toNat * 2 ^ 24 + r.merged.toNat * 2 ^ 25),
     (.FC_FIRST_NS, nsOf r.ns), (.FC_FIRST_S_LO, secOf r.ns % 2 ^ 32),
     (.FC_FIRST_S_HI, secOf r.ns / 2 ^ 32 % 2 ^ 16 + r.frac * 2 ^ 16), (.FC_OVF, s.reg .FC_OVF)] 0 0 [.FC_COUNT]) :=
    iteInduction (fun _ => (State.RegsOnly.refl.noteCyc _ _).foldl (fun t _ ht => ht.bump ..) _)
      fun _ => State.RegsOnly.refl.foldl (fun t _ ht => ht.setReg ..) _
  exact iteInduction (motive := fun t : State => s.RegsOnly t) (fun _ => hl.setRf ..) fun _ => hl

/-- The latch is full: only FC_OVF and FC_COUNT change. -/
theorem State.latchFault_full (h : s.rf .FC_FIRST 31 1 = 1) (r : FaultRec) (l : Nat) : let u := s.latchFault r l
    u.rf .FC_OVF 0 1 = 1 ∧ u.reg .FC_COUNT = min (s.reg .FC_COUNT + 1) 0xFFFFFFFF ∧
      ∀ (g : Reg) (b i : Nat), g.off b i ≠ Reg.off .FC_OVF 0 0 → g.off b i ≠ Reg.off .FC_COUNT 0 0 → u.reg g b i = s.reg g b i := by
  intro u
  obtain ⟨v, hv, hreg⟩ : ∃ v : State, u = (v.bump .FC_COUNT).setRf .FC_OVF 0 1 1 ∧ ∀ (g : Reg) (b i : Nat), v.reg g b i = s.reg g b i :=
    ⟨_, (if_pos (beq_iff_eq.2 h)).trans (congrArg (fun t : State => t.setRf .FC_OVF 0 1 1) (if_pos h)), fun g b i => State.reg_congr rfl rfl ..⟩
  rw [hv]
  refine ⟨State.rf_setRf_same _ _ _ _ _ _ _ (by decide), ?_, fun g b i ho hc => ?_⟩
  · rw [State.reg_setRf_other _ _ _ _ _ _ _ _ _ _ (by decide), State.reg_bump_same, hreg]
  · rw [State.reg_setRf_other _ _ _ _ _ _ _ _ _ _ ho, State.reg_bump_other _ _ _ _ _ _ _ _ hc, hreg]

/-- The latch is empty: it takes the record. -/
theorem State.latchFault_empty (h : s.rf .FC_FIRST 31 1 = 0) (r : FaultRec) (l : Nat) : s.latchFault r l =
    [(Reg.FC_FIRST, r.src + l * 2 ^ 10 + r.unit.id * 2 ^ 13 + r.unit.node.toNat * 2 ^ 23 + r.inj.toNat * 2 ^ 24 + 2 ^ 31),
     (.FC_FIRST_DET, r.detail + r.delay * 2 ^ 12 + r.tsat.toNat * 2 ^ 24 + r.merged.toNat * 2 ^ 25),
     (.FC_FIRST_NS, nsOf r.ns), (.FC_FIRST_S_LO, secOf r.ns % 2 ^ 32),
     (.FC_FIRST_S_HI, secOf r.ns / 2 ^ 32 % 2 ^ 16 + r.frac * 2 ^ 16), (.FC_OVF, s.reg .FC_OVF)].foldl
      (fun s rw => s.setReg rw.1 rw.2 0 0) s :=
  (if_neg (fun hc => absurd (h.symm.trans (beq_iff_eq.1 hc)) (by decide))).trans (if_neg (by rw [h]; decide))

/-- Registers outside of the latch keep their values. -/
theorem State.reg_latchFault_other (s : State) (r : FaultRec) (l : Nat) {g : Reg} {b i : Nat} (hg : g.off b i < 0xC10 ∨ 0xC2C ≤ g.off b i) :
    (s.latchFault r l).reg g b i = s.reg g b i := by
  by_cases h : s.rf .FC_FIRST 31 1 = 1
  · obtain ⟨-, -, hu⟩ := State.latchFault_full h r l
    exact hu g b i (by simp only [Reg.off, Reg.spec] at hg ⊢; omega) (by simp only [Reg.off, Reg.spec] at hg ⊢; omega)
  · have h0 : s.rf .FC_FIRST 31 1 = 0 := by
      have : s.rf .FC_FIRST 31 1 < 2 := Nat.mod_lt _ (by decide)
      omega
    rw [State.latchFault_empty h0]
    simp only [List.foldl_cons, List.foldl_nil]
    have hne (g' : Reg) (v : Nat) (t : State) (ho : Reg.off g' 0 0 ∈ [0xC10, 0xC14, 0xC18, 0xC1C, 0xC20, 0xC24]) :
        (t.setReg g' v 0 0).reg g b i = t.reg g b i := State.reg_setReg_other _ _ _ _ _ _ _ _ (by
      simp only [List.mem_cons, List.not_mem_nil, or_false] at ho
      omega)
    rw [hne, hne, hne, hne, hne, hne] <;> decide

/-! ### Taking a record (R338, R339) -/

theorem State.LowRegs.faultIrq (h : s.LowRegs t) : s.LowRegs t.faultIrq := by
  unfold State.faultIrq State.ownIntr
  exact iteInduction (motive := fun u : State => s.LowRegs u) (fun _ => (h.updNi _ _).send _ _) fun _ => h

theorem State.faultIrq_fc (s : State) : s.faultIrq.fc = s.fc := by
  unfold State.faultIrq
  dsimp only
  split <;> simp

theorem State.faultIrq_prim (s : State) : s.faultIrq.prim = s.prim := by
  unfold State.faultIrq
  dsimp only
  split <;> simp

theorem State.RegsOnly.after (h : s.RegsOnly t) (hu : t.RegsOnly u) : s.RegsOnly u :=
  have e : ({ u with regs := s.regs, cyc := s.cyc } : State) = { t with regs := s.regs, cyc := s.cyc } :=
    (congrArg (fun v : State => { v with regs := s.regs, cyc := s.cyc }) hu :)
  e.trans h

/-- What a record leaves alone at the collector: all but its registers and its own fields. -/
def State.faultReset (s t : State) : State := { t with regs := s.regs, cyc := s.cyc, fc := s.fc }

theorem State.faultReset_of_regsOnly (h : s.RegsOnly t) : s.faultReset t = s :=
  congrArg (fun u : State => { u with fc := s.fc }) h

theorem State.faultReset_assertPin (h : s.faultReset t = s) : s.faultReset t.assertPin = s := h

theorem State.faultReset_withFc (h : s.faultReset t = s) (f : FcSt) : s.faultReset { t with fc := f } = s := h

theorem State.faultReset_setPend (h : s.faultReset t = s) (c v : Nat) : s.faultReset (t.setPend c v) = s := h

theorem State.prim_of_faultReset (h : s.faultReset t = s) : t.prim = s.prim := (congrArg State.prim h :)

theorem State.tick_of_faultReset (h : s.faultReset t = s) : t.tick = s.tick := (congrArg State.tick h :)

/-- The state of the collector once its latch has been offered the record. -/
def State.latched (s : State) (r : FaultRec) (l : Nat) : State :=
  let u := (s.bump .FC_CCNTc 0 (r.src % 32)).latchFault r l
  { u with fc := { u.fc with took := 32 * l + r.src % 32 } }

/-- The state of the collector once its pending level has risen and FAULT_N is driven, before the interrupt. -/
def State.pended (s : State) (r : FaultRec) (l : Nat) : State :=
  let u := (s.latched r l).setPend (r.src % 32) (max ((s.latched r l).pendOf (r.src % 32)) l)
  if u.pinLvl ≤ l ∨ l = 4 then u.assertPin else u

/-- Registers outside of the latch and the class counters keep their values. -/
theorem State.reg_latched (s : State) (r : FaultRec) (l : Nat) {g : Reg} {b i : Nat} (hg : g.off b i < 0xC10 ∨ 0xC2C ≤ g.off b i)
    (hc : g.off b i ≠ Reg.off .FC_CCNTc 0 (r.src % 32)) : (s.latched r l).reg g b i = s.reg g b i :=
  (State.reg_congr rfl rfl ..).trans ((State.reg_latchFault_other _ r l hg).trans (State.reg_bump_other _ _ _ _ _ _ _ _ hc))

theorem State.latched_rest (s : State) (r : FaultRec) (l : Nat) : s.faultReset (s.latched r l) = s :=
  have h : s.RegsOnly ((s.bump .FC_CCNTc 0 (r.src % 32)).latchFault r l) :=
    State.RegsOnly.after (State.RegsOnly.refl.bump ..) (State.latchFault_rest ..)
  State.faultReset_withFc (State.faultReset_of_regsOnly h) _

theorem State.latched_fc (s : State) (r : FaultRec) (l : Nat) : (s.latched r l).fc = { s.fc with took := 32 * l + r.src % 32 } :=
  have h := State.latchFault_rest (s.bump .FC_CCNTc 0 (r.src % 32)) r l
  congrArg (fun u : State => { u.fc with took := 32 * l + r.src % 32 }) h

theorem State.pendOf_latched (s : State) (r : FaultRec) (l : Nat) {c : Nat} (hc : c < 32) : (s.latched r l).pendOf c = s.pendOf c :=
  congrArg (fld · _ _) (State.reg_latched s r l (by simp only [Reg.off, Reg.spec]; omega) (by simp only [Reg.off, Reg.spec]; omega))

theorem State.pinLvl_latched (s : State) (r : FaultRec) (l : Nat) (v : Nat) :
    ((s.latched r l).setPend (r.src % 32) v).pinLvl = s.pinLvl := by
  unfold State.pinLvl State.rf State.setPend
  rw [State.reg_setRf_other _ _ _ _ _ _ _ _ _ _ (by simp only [Reg.off, Reg.spec]; omega),
    State.reg_latched _ _ _ (by simp only [Reg.off, Reg.spec]; omega) (by simp only [Reg.off, Reg.spec]; omega)]

theorem State.pendWas_bump (s : State) (r : FaultRec) :
    (s.bump .FC_CCNTc 0 (r.src % 32)).pendWas (r.src % 32) = s.pendWas (r.src % 32) := by
  have h : (s.bump .FC_CCNTc 0 (r.src % 32)).pendOf (r.src % 32) = s.pendOf (r.src % 32) :=
    congrArg (fld · _ _) (State.reg_bump_other _ _ _ _ _ _ _ _ (by simp only [Reg.off, Reg.spec]; omega))
  unfold State.pendWas
  rw [h]
  rfl

theorem State.lvlOf_bump (s : State) (r : FaultRec) : (s.bump .FC_CCNTc 0 (r.src % 32)).lvlOf r = s.lvlOf r := by
  unfold State.lvlOf
  dsimp only
  rw [State.pendWas_bump]

/-- A record of level 0 is only latched. -/
theorem State.takeFault_quiet (hp : s.prim ≠ .halt) {r : FaultRec} (hl : s.lvlOf r = 0) : s.takeFault r = s.latched r 0 := by
  have hb : (s.bump .FC_CCNTc 0 (r.src % 32)).prim ≠ .halt := hp
  unfold State.takeFault
  dsimp only
  rw [if_neg hb, State.lvlOf_bump, hl, if_pos rfl]
  rfl

/-- A record of a level above 0 becomes pending, drives FAULT_N and the interrupt, and has its effect. -/
theorem State.takeFault_pend (hp : s.prim ≠ .halt) {r : FaultRec} (hl : s.lvlOf r ≠ 0) : s.takeFault r =
    (if s.pendWas (r.src % 32) < s.lvlOf r then (s.pended r (s.lvlOf r)).faultIrq else s.pended r (s.lvlOf r)).faultEffect r (s.lvlOf r) := by
  have hb : (s.bump .FC_CCNTc 0 (r.src % 32)).prim ≠ .halt := hp
  unfold State.takeFault
  dsimp only
  rw [if_neg hb, State.lvlOf_bump, State.pendWas_bump, if_neg hl]
  rfl

theorem State.takeFault_halt (hp : s.prim = .halt) (r : FaultRec) :
    s.takeFault r = (s.bump .FC_CCNTc 0 (r.src % 32)).latchFault r r.level := if_pos (c := (s.bump .FC_CCNTc 0 (r.src % 32)).prim = .halt) hp

theorem State.pended_rest (s : State) (r : FaultRec) (l : Nat) : s.faultReset (s.pended r l) = s := by
  have h : s.faultReset ((s.latched r l).setPend (r.src % 32) (max ((s.latched r l).pendOf (r.src % 32)) l)) = s :=
    State.faultReset_setPend (s.latched_rest r l) _ _
  unfold State.pended
  exact iteInduction (motive := fun u : State => s.faultReset u = s) (fun _ => State.faultReset_assertPin h) fun _ => h

theorem State.pended_prim (s : State) (r : FaultRec) (l : Nat) : (s.pended r l).prim = s.prim := State.prim_of_faultReset (s.pended_rest r l)

theorem State.pended_pinAt (s : State) (r : FaultRec) (l : Nat) :
    (s.pended r l).fc.pinAt = if s.pinLvl ≤ l ∨ l = 4 then some ((s.tick / 120 + 1) * 120) else s.fc.pinAt := by
  have hpin : ((s.latched r l).setPend (r.src % 32) (max ((s.latched r l).pendOf (r.src % 32)) l)).fc.pinAt = s.fc.pinAt :=
    (congrArg (·.pinAt) (State.latched_fc s r l) :)
  have htick : ((s.latched r l).setPend (r.src % 32) (max ((s.latched r l).pendOf (r.src % 32)) l)).tick = s.tick :=
    State.tick_of_faultReset (State.faultReset_setPend (State.latched_rest s r l) _ _)
  unfold State.pended
  dsimp only
  rw [State.pinLvl_latched]
  split
  · rw [← htick]
    rfl
  · exact hpin

theorem State.pended_relPend (s : State) (r : FaultRec) : (s.pended r 4).fc.relPend = false := by
  unfold State.pended
  dsimp only
  rw [if_pos (.inr rfl)]
  rfl

theorem State.reg_pended (s : State) (r : FaultRec) (l : Nat) (g : Reg) (b i : Nat) :
    (s.pended r l).reg g b i = ((s.latched r l).setPend (r.src % 32) (max (s.pendOf (r.src % 32)) l)).reg g b i := by
  unfold State.pended
  dsimp only
  rw [State.pendOf_latched _ _ _ (Nat.mod_lt _ (by decide))]
  split <;> rfl

theorem State.pendOf_pended (s : State) (r : FaultRec) {l : Nat} (hl : l < 16) {d : Nat} (hd : d < 32) :
    (s.pended r l).pendOf d = if d = r.src % 32 then max (s.pendOf (r.src % 32)) l else s.pendOf d := by
  have hc : r.src % 32 < 32 := Nat.mod_lt _ (by decide)
  have := s.pendOf_lt (r.src % 32)
  rw [← State.pendOf_latched s r l hd]
  exact (congrArg (fld · _ _) (State.reg_pended ..)).trans (State.pendOf_setPend _ hc (by omega))

theorem State.classCount_latched (s : State) (r : FaultRec) (l : Nat) :
    (s.latched r l).reg .FC_CCNTc 0 (r.src % 32) = min (s.reg .FC_CCNTc 0 (r.src % 32) + 1) 0xFFFFFFFF :=
  (State.reg_congr rfl rfl ..).trans ((State.reg_latchFault_other (s.bump .FC_CCNTc 0 (r.src % 32)) r l
    (by simp only [Reg.off, Reg.spec]; omega)).trans (State.reg_bump_same s .FC_CCNTc 0 (r.src % 32) 1))

theorem State.classCount_pended (s : State) (r : FaultRec) (l : Nat) :
    (s.pended r l).reg .FC_CCNTc 0 (r.src % 32) = min (s.reg .FC_CCNTc 0 (r.src % 32) + 1) 0xFFFFFFFF :=
  (State.reg_pended ..).trans ((State.reg_setRf_other _ _ _ _ _ _ _ _ _ _ (by simp only [Reg.off, Reg.spec]; omega)).trans (State.classCount_latched ..))

/-! ### What a level does (R338, R343) -/

theorem State.faultEffect_low (s : State) (r : FaultRec) {l : Nat} (h : l ≤ 1) : s.faultEffect r l = s :=
  (if_neg (by omega)).trans ((if_neg (by omega)).trans (if_neg (by omega)))

theorem State.faultEffect_unit (s : State) (r : FaultRec) :
    s.faultEffect r 2 = match fenceTarget r with | some k => s.orderFence k | none => s := by
  unfold State.faultEffect
  rw [if_neg (by decide), if_neg (by omega), if_pos rfl] <;> rfl

theorem State.faultEffect_quadrant (s : State) {r : FaultRec} (h : r.src / 32 < 28) :
    s.faultEffect r 3 = s.orderFence (.quadrant (r.src / 32 / 7)) := (if_neg (by decide)).trans (if_pos ⟨rfl, h⟩)

theorem State.faultEffect_spine (s : State) {r : FaultRec} (h : 28 ≤ r.src / 32) : s.faultEffect r 3 = s :=
  (if_neg (by decide)).trans ((if_neg (by omega)).trans (if_neg (by decide)))

theorem State.enterHalt_fc (s : State) : s.enterHalt.fc = s.fc := by
  unfold State.enterHalt
  split <;> rfl

theorem State.enterHalt_prim (h : s.prim ≠ .test) : s.enterHalt.prim = .halt := by
  unfold State.enterHalt
  split
  case isTrue hc => exact hc.resolve_left h
  case isFalse => rfl

theorem State.faultEffect_pinAt (s : State) (r : FaultRec) (l : Nat) : (s.faultEffect r l).fc.pinAt = s.fc.pinAt := by
  have hf (k : FenceKey) : (s.orderFence k).fc.pinAt = s.fc.pinAt := (State.Standing.refl s).orderFence.2
  unfold State.faultEffect
  split
  · rw [State.enterHalt_fc]
  · split
    · exact hf _
    · split
      · split
        · exact hf _
        · rfl
      · rfl

theorem State.fc_irqIf (s : State) (p : Prop) [Decidable p] : (if p then s.faultIrq else s).fc = s.fc := by
  split
  · exact s.faultIrq_fc
  · rfl

theorem State.prim_irqIf (s : State) (p : Prop) [Decidable p] : (if p then s.faultIrq else s).prim = s.prim := by
  split
  · exact s.faultIrq_prim
  · rfl

theorem State.reg_irqIf (s : State) (p : Prop) [Decidable p] (g : Reg) (b i : Nat) (hl : g.off b i < 0x1000000)
    (hne : g.off b i ≠ Reg.off .PWR_HOLD_OVF 0 0) : (if p then s.faultIrq else s).reg g b i = s.reg g b i := by
  split
  · exact State.LowRegs.refl.faultIrq g b i hl hne
  · rfl

/-! ### Acknowledgement (R340) -/

/-- What an acknowledgement leaves of the pending level of a class: the level of a record taken in the same cycle. -/
def State.ackStay (s : State) (c : Nat) : Nat := if s.fc.takeAt = s.tick + 1 ∧ s.fc.took % 32 = c then s.fc.took / 32 else 0

theorem State.ackStay_lt (h : s.fc.took < 160) (c : Nat) : s.ackStay c < 16 := by
  unfold State.ackStay
  split <;> omega

theorem State.faultReset_ackOne (h : s.faultReset t = s) (c : Nat) : s.faultReset (t.ackOne c) = s :=
  State.faultReset_withFc (State.faultReset_setPend h c _) _

theorem State.pendOf_ackOne (s : State) {n : Nat} (hn : n < 32) (hs : s.ackStay n < 16) (c : Nat) :
    (s.ackOne n).pendOf c = if c = n then s.ackStay n else s.pendOf c :=
  have e : (s.ackOne n).pendOf c = (s.setPend n (s.ackStay n)).pendOf c := State.pendOf_congr (fun _ => State.reg_congr rfl rfl ..) c
  e.trans (s.pendOf_setPend hn hs)

/-- After the classes below n of an acknowledgement that began in s₀. -/
structure State.AckedTo (s₀ : State) (v n : Nat) (s : State) : Prop where
  pend : ∀ c, c < 32 → s.pendOf c = if c < n ∧ bitOf v c then s₀.ackStay c else s₀.pendOf c
  was : ∀ c, c < 32 → SMap.get 0 s.fc.ackWas c = SMap.get 0 s₀.fc.ackWas c + if c < n ∧ bitOf v c then s₀.pendOf c - s₀.ackStay c else 0
  fc : s.fc = { s₀.fc with ackWas := s.fc.ackWas }
  rest : s₀.faultReset s = s₀

theorem State.AckedTo.start (s₀ : State) (v : Nat) : s₀.AckedTo v 0 s₀ :=
  ⟨fun c _ => by rw [if_neg (by omega)], fun c _ => by rw [if_neg (by omega), Nat.add_zero], rfl, rfl⟩

theorem State.AckedTo.ackStay_eq {s₀ : State} {v n : Nat} (h : s₀.AckedTo v n s) (c : Nat) : s.ackStay c = s₀.ackStay c := by
  have ht := State.tick_of_faultReset h.rest
  unfold State.ackStay
  rw [h.fc, ht]

theorem State.AckedTo.skip {s₀ : State} {v n : Nat} (h : s₀.AckedTo v n s) (hb : bitOf v n = false) : s₀.AckedTo v (n + 1) s := by
  have hiff (c : Nat) : (c < n + 1 ∧ bitOf v c = true) ↔ (c < n ∧ bitOf v c = true) := by
    constructor
    · rintro ⟨hc, hv⟩
      refine ⟨Nat.lt_of_le_of_ne (Nat.le_of_lt_succ hc) ?_, hv⟩
      rintro rfl
      exact Bool.false_ne_true (hb.symm.trans hv)
    · exact fun ⟨hc, hv⟩ => ⟨by omega, hv⟩
  exact ⟨fun c hc => by simp only [hiff, h.pend c hc], fun c hc => by simp only [hiff, h.was c hc], h.fc, h.rest⟩

theorem State.AckedTo.ack {s₀ : State} {v n : Nat} (h : s₀.AckedTo v n s) (hn : n < 32) (ht : s₀.fc.took < 160) (hb : bitOf v n = true) :
    s₀.AckedTo v (n + 1) (s.ackOne n) := by
  have hstay := h.ackStay_eq n
  have hp : s.pendOf n = s₀.pendOf n := (h.pend n hn).trans (if_neg (by omega))
  have hw : SMap.get 0 s.fc.ackWas n = SMap.get 0 s₀.fc.ackWas n := (h.was n hn).trans (by rw [if_neg (by omega), Nat.add_zero])
  have hiff {c : Nat} (hne : c ≠ n) : (c < n + 1 ∧ bitOf v c = true) ↔ (c < n ∧ bitOf v c = true) :=
    and_congr_left fun _ => by omega
  refine ⟨fun c hc => ?_, fun c hc => ?_, ?_, State.faultReset_ackOne h.rest n⟩
  · rw [s.pendOf_ackOne hn (hstay ▸ State.ackStay_lt ht n)]
    by_cases hcn : c = n
    · subst hcn
      rw [if_pos rfl, if_pos ⟨by omega, hb⟩, hstay]
    · rw [if_neg hcn, h.pend c hc]
      simp only [hiff hcn]
  · have e : (s.ackOne n).fc.ackWas = SMap.set 0 s.fc.ackWas n (SMap.get 0 s.fc.ackWas n + (s.pendOf n - s.ackStay n)) := rfl
    rw [e, SMap.get_set]
    by_cases hcn : c = n
    · subst hcn
      rw [if_pos rfl, if_pos ⟨by omega, hb⟩, hw, hp, hstay]
    · rw [if_neg (by simpa using hcn), h.was c hc]
      simp only [hiff hcn]
  · exact (congrArg (fun f : FcSt => { f with ackWas := (s.ackOne n).fc.ackWas }) h.fc :)

theorem State.AckedTo.step {s₀ : State} {v n : Nat} (h : s₀.AckedTo v n s) (hn : n < 32) (ht : s₀.fc.took < 160) :
    s₀.AckedTo v (n + 1) (if bitOf v n then s.ackOne n else s) := by
  split
  case isTrue hb => exact h.ack hn ht hb
  case isFalse hb => exact h.skip (Bool.eq_false_iff.2 hb)

theorem State.AckedTo.fold (s₀ : State) (v : Nat) {n : Nat} (hn : n ≤ 32) (ht : s₀.fc.took < 160) :
    s₀.AckedTo v n ((List.range n).foldl (fun s c => if bitOf v c then s.ackOne c else s) s₀) := by
  induction n with
  | zero => exact State.AckedTo.start s₀ v
  | succ n ih =>
    rw [List.range_succ, List.foldl_append]
    exact (ih (by omega)).step (by omega) ht

/-- The collector at the first acknowledgement of a cycle. -/
def State.ackStart (s : State) : State :=
  if s.fc.ackAt = s.tick + 1 then s else { s with fc := { s.fc with ackAt := s.tick + 1, ackWas := [] } }

theorem State.ackStart_fc (s : State) : s.ackStart.fc = { s.fc with ackAt := s.tick + 1, ackWas := s.ackStart.fc.ackWas } := by
  unfold State.ackStart
  split
  case isTrue h =>
    rw [← h]
  case isFalse => rfl

theorem State.ackStart_rest (s : State) : s.faultReset s.ackStart = s := by
  unfold State.ackStart
  split <;> rfl

theorem State.ackStart_fresh (h : s.fc.ackAt ≠ s.tick + 1) :
    s.ackStart = { s with fc := { s.fc with ackAt := s.tick + 1, ackWas := [] } } := if_neg h

theorem State.ackStart_stay (s : State) (c : Nat) : s.ackStart.ackStay c = s.ackStay c := by
  unfold State.ackStay
  rw [s.ackStart_fc, State.tick_of_faultReset s.ackStart_rest]

theorem State.ackStart_pend (s : State) (c : Nat) : s.ackStart.pendOf c = s.pendOf c := by
  unfold State.ackStart
  split
  · rfl
  · exact State.pendOf_congr (fun _ => State.reg_congr rfl rfl ..) c

theorem State.ackFaults_ackedTo (ht : s.fc.took < 160) (v : Nat) : s.ackStart.AckedTo v 32 (s.ackFaults v) :=
  State.AckedTo.fold s.ackStart v (Nat.le_refl 32) (by rw [s.ackStart_fc]; exact ht)

theorem State.ackFaults_rest (ht : s.fc.took < 160) (v : Nat) : s.faultReset (s.ackFaults v) = s :=
  (congrArg (fun u : State => s.faultReset u) (State.ackFaults_ackedTo ht v).rest :).trans s.ackStart_rest

end Sys2Proof.Machine

namespace Sys2Proof.Machine
variable {s t u : State}

/-! ### Taking, acknowledging and releasing (R337 to R343) -/

theorem State.pendOf_irqIf (s : State) (p : Prop) [Decidable p] {d : Nat} (hd : d < 32) :
    (if p then s.faultIrq else s).pendOf d = s.pendOf d :=
  congrArg (fld · _ _) (State.reg_irqIf _ _ _ _ _ (by simp only [Reg.off, Reg.spec]; omega) (by simp only [Reg.off, Reg.spec]; omega))

/-- A level 1 record or a quiet one: what the taking leaves. -/
theorem State.takeFault_low (hp : s.prim ≠ .halt) {r : FaultRec} (hl : s.lvlOf r ≤ 1) : let u := s.takeFault r
    let l := s.lvlOf r
    let c := r.src % 32
    (∀ d, d < 32 → u.pendOf d = if d = c ∧ l ≠ 0 then max (s.pendOf c) l else s.pendOf d) ∧ u.prim = s.prim ∧
      u.fc.pinAt = (if l = 1 ∧ s.pinLvl = 1 then some ((s.tick / 120 + 1) * 120) else s.fc.pinAt) ∧
      u.reg .FC_CCNTc 0 c = min (s.reg .FC_CCNTc 0 c + 1) 0xFFFFFFFF := by
  intro u l c
  by_cases h0 : l = 0
  · have hu : u = s.latched r 0 := State.takeFault_quiet hp h0
    rw [hu, h0]
    refine ⟨fun d hd => ?_, State.prim_of_faultReset (s.latched_rest r 0), ?_, s.classCount_latched r 0⟩
    · rw [if_neg (fun h => h.2 rfl)]
      exact s.pendOf_latched r 0 hd
    · rw [if_neg (fun h => absurd h.1 (by decide)), s.latched_fc]
  · have h1 : l = 1 := by omega
    have hc : c < 32 := Nat.mod_lt _ (by decide)
    have hpin : 1 ≤ s.pinLvl := by
      unfold State.pinLvl
      omega
    have hu : u = if s.pendWas c < 1 then (s.pended r 1).faultIrq else s.pended r 1 := by
      have e := State.takeFault_pend hp h0
      rw [show s.lvlOf r = 1 from h1, State.faultEffect_low _ _ (Nat.le_refl 1)] at e
      exact e
    rw [hu, h1]
    refine ⟨fun d hd => ?_, (State.prim_irqIf ..).trans (s.pended_prim r 1), ?_, ?_⟩
    · have hiff : (d = c ∧ 1 ≠ 0) ↔ d = c := and_iff_left (by decide)
      simp only [hiff]
      exact (State.pendOf_irqIf _ _ hd).trans (s.pendOf_pended r (by decide) hd)
    · rw [State.fc_irqIf, State.pended_pinAt]
      have hiff : (s.pinLvl ≤ 1 ∨ 1 = 4) ↔ (1 = 1 ∧ s.pinLvl = 1) := by omega
      simp only [hiff]
    · rw [State.reg_irqIf _ _ _ _ _ (by simp only [Reg.off, Reg.spec]; omega) (by simp only [Reg.off, Reg.spec]; omega)]
      exact s.classCount_pended r 1

/-- A level 4 record halts the fabric. -/
theorem State.takeFault_max (hp : s.prim ≠ .halt) (ht : s.prim ≠ .test) {r : FaultRec} (hl : r.level = 4) :
    (s.takeFault r).prim = .halt ∧ (s.takeFault r).fc.relPend = false ∧ (s.takeFault r).fc.pinAt = some ((s.tick / 120 + 1) * 120) := by
  have h4 : s.lvlOf r = 4 := State.lvlOf_max s hl
  have e := State.takeFault_pend hp (r := r) (by omega)
  rw [h4] at e
  have e' : s.takeFault r = (if s.pendWas (r.src % 32) < 4 then (s.pended r 4).faultIrq else s.pended r 4).enterHalt := e
  rw [e', State.enterHalt_fc, State.fc_irqIf]
  refine ⟨State.enterHalt_prim ?_, s.pended_relPend r, (s.pended_pinAt r 4).trans (if_pos (.inr rfl))⟩
  rw [State.prim_irqIf, s.pended_prim]
  exact ht

/-- FAULT_N is driven by every record whose level reaches the pin's. -/
theorem State.takeFault_pinAt (hp : s.prim ≠ .halt) {r : FaultRec} (hr : 1 ≤ r.level) (hl : s.pinLvl ≤ s.lvlOf r) :
    (s.takeFault r).fc.pinAt = some ((s.tick / 120 + 1) * 120) := by
  have := s.le_lvlOf r
  rw [State.takeFault_pend hp (by omega), State.faultEffect_pinAt, State.fc_irqIf, State.pended_pinAt, if_pos (.inl hl)]

/-- The first record that finds the latch empty fills it. -/
theorem State.latchFault_fields (h : s.rf .FC_FIRST 31 1 = 0) {r : FaultRec} {l : Nat} (hs : r.src < 1024) (hl : l < 8) (hu : r.unit.id < 1024) :
    let u := s.latchFault r l
    u.rf .FC_FIRST 0 10 = r.src ∧ u.rf .FC_FIRST 10 3 = l ∧ u.rf .FC_FIRST 13 10 = r.unit.id ∧
      u.rf .FC_FIRST 23 1 = r.unit.node.toNat ∧ u.rf .FC_FIRST 24 1 = r.inj.toNat ∧ u.rf .FC_FIRST 31 1 = 1 ∧
      u.reg .FC_FIRST_NS = nsOf r.ns ∧ u.reg .FC_FIRST_S_LO = secOf r.ns % 2 ^ 32 ∧
      (r.detail < 4096 → r.delay < 4096 → u.rf .FC_FIRST_DET 0 12 = r.detail ∧ u.rf .FC_FIRST_DET 12 12 = r.delay ∧
        u.rf .FC_FIRST_DET 24 1 = r.tsat.toNat ∧ u.rf .FC_FIRST_DET 25 1 = r.merged.toNat) := by
  intro u
  have hn := r.unit.node.toNat_le
  have hi := r.inj.toNat_le
  have ht := r.tsat.toNat_le
  have hm := r.merged.toNat_le
  have hns := nsOf_lt r.ns
  have e : u = _ := State.latchFault_empty h r l
  simp only [List.foldl_cons, List.foldl_nil] at e
  have hF : u.reg .FC_FIRST = r.src + l * 2 ^ 10 + r.unit.id * 2 ^ 13 + r.unit.node.toNat * 2 ^ 23 + r.inj.toNat * 2 ^ 24 + 2 ^ 31 := by
    rw [e, State.reg_setReg_other, State.reg_setReg_other, State.reg_setReg_other, State.reg_setReg_other, State.reg_setReg_other,
      State.reg_setReg_same]
    · omega
    all_goals decide
  have hD : u.reg .FC_FIRST_DET = (r.detail + r.delay * 2 ^ 12 + r.tsat.toNat * 2 ^ 24 + r.merged.toNat * 2 ^ 25) % 2 ^ 32 := by
    rw [e, State.reg_setReg_other, State.reg_setReg_other, State.reg_setReg_other, State.reg_setReg_other, State.reg_setReg_same]
    all_goals decide
  have hN : u.reg .FC_FIRST_NS = nsOf r.ns := by
    rw [e, State.reg_setReg_other, State.reg_setReg_other, State.reg_setReg_other, State.reg_setReg_same]
    · omega
    all_goals decide
  have hL : u.reg .FC_FIRST_S_LO = secOf r.ns % 2 ^ 32 := by
    rw [e, State.reg_setReg_other, State.reg_setReg_other, State.reg_setReg_same, Nat.mod_mod]
    all_goals decide
  unfold State.rf fld
  rw [hF, hD, hN, hL]
  refine ⟨by omega, by omega, by omega, by omega, by omega, by omega, rfl, rfl, fun hd hy => ⟨by omega, by omega, by omega, by omega⟩⟩

/-- Words of the fault collector's storage are read clean while no injection is armed. -/
theorem State.exec_faultTake {r : FaultRec} {rest : List FaultRec} (hq : s.fc.queue = r :: rest) (ht : s.fc.takeAt ≠ s.tick + 1)
    (hi : s.fc.inject = none) : exec (.faultTake .clean) s =
      .next (({ s with fc := { s.fc with queue := rest, takeAt := s.tick + 1 } } : State).takeFault r) := by
  change execFaultTake .clean s = _
  have hc := State.checkWord_of_no_inject (s := { s with fc := { s.fc with queue := rest, takeAt := s.tick + 1 } }) hi (fidUnit 0x183) 10 .clean none
  unfold execFaultTake
  rw [hq]
  dsimp only
  rw [if_neg ht, hc]

theorem State.exec_faultTake_idle (h : s.fc.queue = [] ∨ s.fc.takeAt = s.tick + 1) : exec (.faultTake .clean) s = .next s := by
  change execFaultTake .clean s = _
  unfold execFaultTake
  split
  case h_1 => rfl
  case h_2 hq => exact if_pos (h.resolve_left (by rw [hq]; exact List.cons_ne_nil _ _))

/-- An acknowledgement: what stays pending, and what the same cycle still escalates on. -/
theorem State.exec_fcAck (ht : s.fc.took < 160) (v : Word32) : ∃ u, exec (.fcAck v) s = .next u ∧
    (∀ c, c < 32 → u.pendOf c = if bitOf v.toNat c then
      (if s.fc.takeAt = s.tick + 1 ∧ s.fc.took % 32 = c then s.fc.took / 32 else 0) else s.pendOf c) ∧
    (s.fc.takeAt ≠ s.tick + 1 → s.fc.ackAt ≠ s.tick + 1 → ∀ c, c < 32 → u.pendWas c = s.pendOf c) ∧
    u.fc = { s.fc with ackAt := s.tick + 1, ackWas := u.fc.ackWas } ∧ { u with regs := s.regs, cyc := s.cyc, fc := s.fc } = s := by
  have h := State.ackFaults_ackedTo ht v.toNat
  have hpend (c : Nat) (hc : c < 32) : (s.ackFaults v.toNat).pendOf c = if bitOf v.toNat c then s.ackStay c else s.pendOf c := by
    have hiff : (c < 32 ∧ bitOf v.toNat c = true) ↔ bitOf v.toNat c = true := and_iff_right hc
    rw [h.pend c hc, s.ackStart_stay, s.ackStart_pend]
    simp only [hiff]
  have hfc : (s.ackFaults v.toNat).fc = { s.fc with ackAt := s.tick + 1, ackWas := (s.ackFaults v.toNat).fc.ackWas } :=
    h.fc.trans (congrArg (fun f : FcSt => { f with ackWas := (s.ackFaults v.toNat).fc.ackWas }) s.ackStart_fc)
  refine ⟨_, rfl, hpend, fun htake hack c hc => ?_, hfc, s.ackFaults_rest ht v.toNat⟩
  have hstay : s.ackStay c = 0 := if_neg fun hx => htake hx.1
  have hw := h.was c hc
  have hempty : s.ackStart.fc.ackWas = [] := by rw [State.ackStart_fresh hack]
  rw [s.ackStart_stay, s.ackStart_pend, hempty, hstay] at hw
  have hat : (s.ackFaults v.toNat).fc.ackAt = (s.ackFaults v.toNat).tick + 1 := by
    rw [hfc, State.tick_of_faultReset (s.ackFaults_rest ht v.toNat)]
  unfold State.pendWas
  rw [if_pos hat, hw, hpend c hc, hstay]
  cases bitOf v.toNat c <;> simp [hc, SMap.get]

/-- Settles O54: the collector takes records, escalates, drives FAULT_N and is acknowledged. The pin is driven from a multiple of
120 FCLK on (log 77). -/
theorem faultsAreTakenAndAcknowledged : Obligations.FaultsAreTakenAndAcknowledged := by
  unfold Obligations.FaultsAreTakenAndAcknowledged
  refine ⟨fun s => ⟨State.exec_faultTake_idle, fun r rest hq ht hi => State.exec_faultTake hq ht hi⟩,
    fun s r => ⟨rfl, fun h => State.pendWas_unacked h _, fun h => s.lvlOf_lt h, fun h => State.takeFault_halt h r,
      fun hp _ hl => State.takeFault_low hp hl, fun hp ht hl => State.takeFault_max hp ht hl⟩,
    fun s r k => ⟨s.faultEffect_low r (by decide), s.faultEffect_low r (by decide), fun hk => ?_, fun hk => ?_,
      fun h => s.faultEffect_quadrant h, fun h => s.faultEffect_spine h⟩,
    fun s r l => ⟨s.latchFault_rest r l, fun h => ?_, fun h hs hl hu => State.latchFault_fields h hs hl hu⟩,
    fun s v ht => State.exec_fcAck ht v, fun s => ⟨fun h => ?_, fun h hm => ?_, fun h hm => ?_, fun h => ?_, fun h hm hf => ?_, fun h hm hf => ?_,
      fun r hr hp hl => State.takeFault_pinAt hp hr hl, fun t ht => ?_⟩⟩
  case refine_1 => rw [s.faultEffect_unit r, hk]
  case refine_2 => rw [s.faultEffect_unit r, hk]
  case refine_3 =>
    obtain ⟨ho, hc, hr⟩ := State.latchFault_full h r l
    refine ⟨ho, hc, fun g hg => hr g 0 0 ?_ ?_⟩ <;> rcases hg with rfl | rfl | rfl | rfl | rfl <;> decide
  case refine_4 => exact congrArg Host.Outcome.next (if_pos (by rw [h]; decide))
  case refine_5 => exact congrArg Host.Outcome.next ((if_neg (by rw [h]; decide)).trans (if_pos hm))
  case refine_6 => exact congrArg Host.Outcome.next ((if_neg (by rw [h]; decide)).trans (if_neg (by rw [hm]; decide)))
  case refine_7 => exact if_pos (h.imp (fun hr => by rw [hr]; decide) id)
  case refine_8 => exact (if_neg (by rw [h, hm]; decide)).trans (if_neg (by rw [hf]; decide))
  case refine_9 => exact (if_neg (by rw [h, hm]; decide)).trans (if_pos hf)
  case refine_10 =>
    unfold State.minPulse
    rw [ht]
    exact decide_eq_true_iff

end Sys2Proof.Machine

namespace Sys2Proof.Machine
variable {s₀ s t : State}

/-! ### The clusters and the power domains, which the check of an area leaves alone -/

structure State.AreaKept (s₀ s : State) : Prop where
  ecl : s.ecl = s₀.ecl
  dom : s.dom = s₀.dom

theorem State.AreaKept.refl (s : State) : s.AreaKept s := ⟨rfl, rfl⟩

theorem State.AreaKept.ite {c : Prop} [Decidable c] (hs : s₀.AreaKept s) (ht : s₀.AreaKept t) : s₀.AreaKept (if c then s else t) :=
  iteInduction (fun _ => hs) fun _ => ht

theorem State.AreaKept.foldl {α : Type} {g : State → α → State} {xs : List α} (h : s₀.AreaKept s) (hg : ∀ s x, s₀.AreaKept s → s₀.AreaKept (g s x)) :
    s₀.AreaKept (xs.foldl g s) :=
  List.foldlRecOn xs g h fun t ht x _ => hg t x ht

/-- A pair, or a triple, whose state is one such. -/
def State.AreaKeptPair {α : Type} (s₀ : State) (p : α × State) : Prop := s₀.AreaKept p.2
def State.AreaKeptTriple {α β : Type} (s₀ : State) (p : α × β × State) : Prop := s₀.AreaKept p.2.2

theorem State.AreaKeptPair.mk {α : Type} {x : α} (h : s₀.AreaKept t) : s₀.AreaKeptPair (x, t) := h
theorem State.AreaKeptPair.snd {α : Type} {p : α × State} (h : s₀.AreaKeptPair p) : s₀.AreaKept p.2 := h
theorem State.AreaKeptPair.ite {α : Type} {c : Prop} [Decidable c] {x y : α × State} (hx : s₀.AreaKeptPair x) (hy : s₀.AreaKeptPair y) :
    s₀.AreaKeptPair (if c then x else y) :=
  iteInduction (fun _ => hx) fun _ => hy
theorem State.AreaKeptPair.foldl {α β : Type} {g : α × State → β → α × State} {xs : List β} {p : α × State} (h : s₀.AreaKeptPair p)
    (hg : ∀ p x, s₀.AreaKeptPair p → s₀.AreaKeptPair (g p x)) : s₀.AreaKeptPair (xs.foldl g p) :=
  List.foldlRecOn xs g h fun p hp x _ => hg p x hp

theorem State.AreaKeptTriple.mk {α β : Type} {x : α} {p : β × State} (h : s₀.AreaKeptPair p) : s₀.AreaKeptTriple (x, p) := h
theorem State.AreaKeptTriple.of_eq {α β : Type} {p : α × β × State} {x : α} {y : β} (h : s₀.AreaKeptTriple p) (e : p = (x, y, t)) :
    s₀.AreaKept t := by
  subst e
  exact h
theorem State.AreaKeptTriple.ite {α β : Type} {c : Prop} [Decidable c] {x y : α × β × State} (hx : s₀.AreaKeptTriple x)
    (hy : s₀.AreaKeptTriple y) : s₀.AreaKeptTriple (if c then x else y) :=
  iteInduction (fun _ => hx) fun _ => hy

theorem State.AreaKept.upd (hs : s₀.AreaKept s) {pending : List Instr} {tick : Nat} {frst : Bool} {started : Bool} {prim : Primary} {haltConds :
    Option (Bool × Bool × Bool × Bool)} {fallback : Bool} {drainPend : Bool} {drainAt : Option Nat} {pdrec : Option (List Byte)} {regs : SMap Word32}
    {cyc : SMap CycReg} {modeWas : Nat} {quietWas : Nat} {shadows : SMap (Option Word32)} {tabs : SMap Nat} {fuses : Option FuseArray} {ownEp : SMap
    Bool} {tim : TimeSt} {fc : FcSt} {prg : PrgSt} {epo : EpoSt} {hub : Hub} {rkCopy : Option Nat} {rbuf : SMap RBuf} {cred : SMap Cred} {arbs : SMap
    Arb} {ni : SMap Ni} {saf : Saf} {home : SMap Home} {dir : SMap (Option DirEnt)} {plru : SMap Nat} {pred : SMap (Option PredEnt)} {cache : SMap
    CLine} {recalls : SMap (List PortRecall)} {sram : List Host.Cell} {sramBad : SMap Bool} {bank : SMap Bank} {loc : SMap (List LocAcc)} {que : SMap
    QDyn} {qm : SMap Qm} {refillAt : Nat} {lsram : List Host.Cell} {lsramBad : SMap Bool} {ctr : SMap Nat} {ctrWas : SMap Nat} {ctrClr : List Nat}
    {wakePin : Bool} {sigs : SMap Nat} {slc : SMap Slc} {freeze : Bool} {bw : SMap BwSt} {probe : SMap ProbeSt} {free : Nat} :
        s₀.AreaKept ⟨pending, tick, frst, started, prim, haltConds, fallback, drainPend, drainAt, pdrec, regs, cyc, modeWas, quietWas, shadows, tabs,
    fuses, ownEp, tim, fc, prg, epo, hub, rkCopy, rbuf, cred, arbs, ni, saf, home, dir, plru, pred, cache, recalls, sram, sramBad, bank, loc, que, qm,
    refillAt, s.ecl, lsram, lsramBad, ctr, ctrWas, ctrClr, wakePin, s.dom, sigs, slc, freeze, bw, probe, free⟩ :=
    ⟨hs.ecl, hs.dom⟩

theorem State.AreaKept.putWord (hs : s₀.AreaKept s) {r : Reg} {v : Nat} {base : Nat} {i : Nat} : s₀.AreaKept (State.putWord s r v base i) :=
  hs.upd

theorem State.AreaKept.noteCyc (hs : s₀.AreaKept s) {off : Nat} {g : CycReg → CycReg} : s₀.AreaKept (State.noteCyc s off g) :=
  hs.upd

theorem State.AreaKept.noteSet (hs : s₀.AreaKept s) {r : Reg} {bits : Nat} {base i : Nat} : s₀.AreaKept (State.noteSet s r bits base i) :=
  hs.upd

theorem State.AreaKept.noteUpd (hs : s₀.AreaKept s) {r : Reg} {g : Nat → Nat} {base i : Nat} : s₀.AreaKept (State.noteUpd s r g base i) :=
  hs.noteCyc

theorem State.AreaKept.setReg (hs : s₀.AreaKept s) {r : Reg} {v : Nat} {base : Nat} {i : Nat} : s₀.AreaKept (State.setReg s r v base i) :=
  hs.noteSet.putWord

theorem State.AreaKept.setRf (hs : s₀.AreaKept s) {r : Reg} {lo w x : Nat} {base : Nat} {i : Nat} : s₀.AreaKept (State.setRf s r lo w x base i) :=
  hs.noteSet.putWord

theorem State.AreaKept.bump (hs : s₀.AreaKept s) {r : Reg} {base : Nat} {i : Nat} {n : Nat} : s₀.AreaKept (State.bump s r base i n) :=
  hs.noteUpd.putWord

theorem State.AreaKept.latchWords (hs : s₀.AreaKept s) {cap : Reg} {ws : List (Reg × Nat)} {base : Nat} {i : Nat} {miss : List Reg} : s₀.AreaKept (State.latchWords s cap ws base i miss) :=
  (.ite (hs.noteCyc.foldl fun _ _ hs => hs.bump) (hs.foldl fun _ _ hs => hs.setReg))

theorem State.AreaKept.count (hs : s₀.AreaKept s) {b i : Nat} {n : Nat} : s₀.AreaKept (State.count s b i n) :=
  (.ite hs (.ite hs.upd (.ite (.ite hs.upd.upd hs.upd.upd.setRf) hs.upd.setRf)))

theorem State.AreaKept.setTab (hs : s₀.AreaKept s) {bank table unit port idx v : Nat} : s₀.AreaKept (State.setTab s bank table unit port idx v) :=
  hs.upd

theorem State.AreaKept.setNi (hs : s₀.AreaKept s) {f : Nat} {n : Ni} : s₀.AreaKept (State.setNi s f n) :=
  hs.upd

theorem State.AreaKept.updNi (hs : s₀.AreaKept s) {f : Nat} {g : Ni → Ni} : s₀.AreaKept (State.updNi s f g) :=
  hs.setNi

theorem State.AreaKept.collect (hs : s₀.AreaKept s) {r : FaultRec} : s₀.AreaKept (State.collect s r) :=
  hs.upd

theorem State.AreaKept.raiseSpine (hs : s₀.AreaKept s) {group cls lvl : Nat} {u : UnitRef} {detail : Nat} {inj : Bool} : s₀.AreaKept (State.raiseSpine s group cls lvl u detail inj) :=
  hs.collect

theorem State.AreaKept.countFloor (hs : s₀.AreaKept s) {f : Nat} {p : Pkt} : s₀.AreaKept (State.countFloor s f p) :=
  (.ite hs hs.upd)

theorem State.AreaKept.pushNow (hs : s₀.AreaKept s) {f : Nat} {p : Pkt} : s₀.AreaKept (State.pushNow s f p) :=
  (.ite hs.countFloor.count.count.updNi hs.countFloor.count.count.updNi)

theorem State.AreaKept.push (hs : s₀.AreaKept s) {f : Nat} {p : Pkt} : s₀.AreaKept (State.push s f p) :=
  (.ite hs.updNi hs.pushNow)

theorem State.AreaKept.inject (hs : s₀.AreaKept s) {f : Nat} {p : Pkt} : s₀.AreaKept (State.inject s f p) :=
  hs.push

theorem State.AreaKept.raiseNi (hs : s₀.AreaKept s) {f cls lvl : Nat} {detail : Nat} {inj : Bool} {u : Option UnitRef} : s₀.AreaKept (State.raiseNi s f cls lvl detail inj u) := by
  unfold State.raiseNi
  exact (.ite hs.raiseSpine (.ite (by split; exact hs.updNi.inject; exact hs.updNi) hs.updNi))

theorem State.AreaKept.injUse (hs : s₀.AreaKept s)  : s₀.AreaKept (State.injUse s) := by
  unfold State.injUse
  split
  · exact (.ite hs.setRf.upd hs.setRf.upd)
  · exact hs

theorem State.AreaKept.checkWord (hs : s₀.AreaKept s) {u : UnitRef} {chk : Nat} {err : WordErr} {port : Option Nat} : s₀.AreaKeptTriple (State.checkWord s u chk err port) := by
  unfold State.checkWord
  exact (.ite (by split; exact (.mk (.mk hs.injUse)); exact (.mk (.mk hs))) (.mk (.mk hs)))

theorem State.AreaKept.denied (hs : s₀.AreaKept s) {f : Nat} {pre : Bool} {src : Nat} {sd : Option Nat} {opc cause entry pa : Nat} : s₀.AreaKept (State.denied s f pre src sd opc cause entry pa) := by
  have h1 : s₀.AreaKept (if sd = some 15 then (s.bump .RK_DENY_CNT rkBase).bump .RK_DBG_DENY_CNT rkBase else s.bump .RK_DENY_CNT rkBase) :=
    .ite hs.bump.bump hs.bump
  unfold State.denied
  exact h1.latchWords.count.raiseNi

theorem State.AreaKept.ruleCopy (hs : s₀.AreaKept s) {src dst i : Nat} : s₀.AreaKept (State.ruleCopy s src dst i) :=
  hs.setTab.setTab

theorem State.AreaKept.ruleRepair (hs : s₀.AreaKept s) {bad : BitVec 5} {i : Nat} {inj : Bool} : s₀.AreaKept (State.ruleRepair s bad i inj) := by
  unfold State.ruleRepair
  split
  · exact (.ite ((hs.foldl fun _ _ hs => hs.setTab.setTab).raiseSpine) (hs.foldl fun _ _ hs => hs.ruleCopy.bump.raiseSpine))
  · exact (.foldl (.ite hs.ruleCopy.latchWords hs) fun _ _ hs => hs.ruleCopy.bump.raiseSpine)

theorem State.AreaKept.ruleEcc (hs : s₀.AreaKept s) {f : Nat} {ep : Bool} {sl pa opc : Nat} {err : WordErr} : s₀.AreaKept (State.ruleEcc s f ep sl pa opc err) := by
  simp only [State.ruleEcc]
  exact (.ite hs (by split; exact (hs.checkWord.of_eq ‹_›); exact (hs.checkWord.of_eq ‹_›).bump; exact (hs.checkWord.of_eq ‹_›).ruleRepair))

theorem State.AreaKept.spineCheck (hs : s₀.AreaKept s) {f pa opc : Nat} : s₀.AreaKeptPair (State.spineCheck s f pa opc) := by
  simp only [State.spineCheck]
  split
  · exact (.mk hs.ruleEcc.denied)
  · exact (.ite (.mk hs.ruleEcc) (by split; exact (.mk hs.ruleEcc.ruleEcc.denied); exact (.mk hs.ruleEcc.ruleEcc)))

theorem State.AreaKept.areaOk (hs : s₀.AreaKept s) {f base len opc : Nat} : s₀.AreaKeptPair (State.areaOk s f base len opc) := 
  .foldl (.mk hs) fun _ _ hs => .ite hs.snd.spineCheck hs
-- missing ['setBw', 'setCtr']

end Sys2Proof.Machine

namespace Sys2Proof.Machine
variable {s₀ s t : State}

/-! ### Slice operations run their course (R318, R320, R321, R324 to R328) -/

/-- What an event of a slice leaves alone: all but the registers and the queue managers. -/
def State.eventReset (s t : State) : State := { t with regs := s.regs, cyc := s.cyc, qm := s.qm }

theorem State.sliceEvent_rest (s : State) (sl code arg : Nat) : s.eventReset (s.sliceEvent sl code arg) = s := by
  unfold State.sliceEvent State.postEvent
  exact iteInduction (motive := fun u : State => s.eventReset u = s) (fun _ => rfl) fun _ => rfl

theorem State.slc_sliceEvent (s : State) (sl code arg : Nat) : (s.sliceEvent sl code arg).slc = s.slc :=
  (congrArg State.slc (s.sliceEvent_rest sl code arg) :)

theorem State.fc_sliceEvent (s : State) (sl code arg : Nat) : (s.sliceEvent sl code arg).fc = s.fc :=
  (congrArg State.fc (s.sliceEvent_rest sl code arg) :)

theorem State.ecl_sliceEvent (s : State) (sl code arg : Nat) : (s.sliceEvent sl code arg).ecl = s.ecl :=
  (congrArg State.ecl (s.sliceEvent_rest sl code arg) :)

theorem State.freeze_sliceEvent (s : State) (sl code arg : Nat) : (s.sliceEvent sl code arg).freeze = s.freeze :=
  (congrArg State.freeze (s.sliceEvent_rest sl code arg) :)

theorem State.slice_of_slc (h : t.slc = s.slc) (k : Nat) : t.slice k = s.slice k := by
  unfold State.slice
  rw [h]

theorem State.slice_sliceEvent (s : State) (sl code arg k : Nat) : (s.sliceEvent sl code arg).slice k = s.slice k :=
  State.slice_of_slc (s.slc_sliceEvent sl code arg) k

theorem State.slice_updSlc (s : State) (sl : Nat) (g : Slc → Slc) : (s.updSlc sl g).slice sl = g (s.slice sl) :=
  (SMap.get_upd ..).trans (if_pos rfl)

theorem State.Standing.slice (h : s₀.Standing s) (k : Nat) : s.slice k = s₀.slice k := State.slice_of_slc h.slc k

theorem State.Standing.withSaf (h : s₀.Standing s) (x : Saf) : s₀.Standing { s with saf := x } := ⟨h.slc, h.pin⟩

theorem State.Standing.withCtr (h : s₀.Standing s) (x : SMap Nat) : s₀.Standing { s with ctr := x } := ⟨h.slc, h.pin⟩

theorem State.freezeEnd_slc (s : State) : s.freezeEnd.slc = s.slc := by
  unfold State.freezeEnd
  split <;> rfl

/-! #### A freeze -/

theorem exec_sliceFrozen (sl : Fin 64) (hm : (s.slice sl).mode = .freezing) (hk : (s.slice sl).marker = 0) (ht : s.slcTrk sl = 0) :
    ∃ u, exec (.sliceFrozen sl) s = .next u ∧ u.freeze = true ∧ u.slice sl = { s.slice sl with mode := .frozen } := by
  have hn : ¬((s.slice sl).mode ≠ .freezing ∨ (s.slice sl).marker ≠ 0 ∨ s.slcTrk sl ≠ 0) := by simp [hm, hk, ht]
  refine ⟨_, if_neg hn, State.freeze_sliceEvent .., ?_⟩
  rw [State.slice_sliceEvent]
  exact s.slice_updSlc sl fun c => { c with mode := .frozen }

theorem exec_freezeStuck (sl : Fin 64) (hm : (s.slice sl).mode = .freezing) (hk : (s.slice sl).stuck = false)
    (ht : (s.slice sl).at_ + s.slcTmo sl ≤ s.tick) : ∃ u, exec (.freezeStuck sl) s = .next u ∧ u.slice sl = { s.slice sl with stuck := true } ∧
      ∃ r ∈ u.fc.queue, r.src = 32 * 28 + 9 ∧ r.level = s.raisedLevel 9 1 ∧ r.detail = sl ∧ r.unit = fidUnit 0x180 := by
  have hn : ¬((s.slice sl).mode ≠ .freezing ∨ (s.slice sl).stuck = true ∨ s.tick < (s.slice sl).at_ + s.slcTmo sl) := by
    simp [hm, hk]
    omega
  obtain ⟨r, hr, hsrc, -, hlvl, hunit, hdet, -⟩ :=
    (s.updSlc sl (fun c => { c with stuck := true })).raiseSpine_mem 28 9 1 (fidUnit 0x180) sl false
  refine ⟨_, if_neg hn, ?_, r, ?_, hsrc, hlvl, hdet, hunit⟩
  · rw [State.slice_sliceEvent]
    exact s.slice_updSlc sl fun c => { c with stuck := true }
  · rw [State.fc_sliceEvent]
    exact hr

/-! #### A reset -/

theorem State.slcSquash_standing (s : State) (sl : Nat) : (s.updSlc sl (fun c => { c with squashed := true })).Standing (s.slcSquash sl) := by
  have h := State.Standing.refl (s.updSlc sl (fun c => { c with squashed := true }))
  unfold State.slcSquash
  exact (h.foldl fun _ _ hs => .ite hs.squashNi hs) |>.foldl
    (fun _ _ hs => hs.bump.updQm.bump.foldl fun _ _ hs => hs.ringSquash) |>.withSaf _ |>.foldl fun _ _ hs => hs.send

theorem State.slice_slcSquash (s : State) (sl : Nat) : (s.slcSquash sl).slice sl = { s.slice sl with squashed := true } :=
  ((s.slcSquash_standing sl).slice sl).trans (s.slice_updSlc sl fun c => { c with squashed := true })

theorem State.slice_freezeEnd (s : State) (k : Nat) : s.freezeEnd.slice k = s.slice k :=
  State.slice_of_slc s.freezeEnd_slc k

theorem State.Standing.clearBank (hs : s₀.Standing s) (b : Nat) : s₀.Standing (s.clearBank b) := by
  unfold State.clearBank
  exact (hs.withCtr _).foldl fun _ _ hs => .ite hs.setRf hs

/-- The slice's record after a reset has ended: only the markers that have not completed are left. -/
theorem State.slice_slcClear (s : State) (sl : Nat) : (s.slcClear sl).slice sl = { marker := (s.slice sl).marker } := by
  have hs := State.Standing.refl s
  unfold State.slcClear
  dsimp only
  rw [State.slice_sliceEvent, State.slice_freezeEnd, State.slice_updSlc]
  refine congrArg (fun c : Slc => ({ marker := c.marker } : Slc)) (State.Standing.slice (s₀ := s) ?_ sl)
  exact ((((hs.foldl fun _ _ hs => hs.discardQueue.updQ).foldl fun _ _ hs => hs.adoptIdle.updThr).foldl
    fun _ _ hs => hs.foldl fun _ _ hs => hs.putWord).clearBank _).putWord

/-- Squashed pieces of an interface: those on the way are answered 4 when they arrive, the others at once. -/
theorem State.squashPiece_issued {f : Nat} (hf : isCluster f = false) (i : Nat) {e : SrcEnt} (he : e.state = .issued) :
    s.squashPiece f i e = s.setSrc f i (some { e with squash := true, status := 4 }) := by
  unfold State.squashPiece
  dsimp only
  rw [hf, he]
  rfl

theorem State.squashPiece_held {f : Nat} (hf : isCluster f = false) (i : Nat) {e : SrcEnt} (hi : e.state ≠ .issued) (hp : e.state ≠ .poolWait) :
    s.squashPiece f i e = s.setSrc f i (some { e with state := .answered, status := 4 }) := by
  unfold State.squashPiece
  dsimp only
  rw [hf, beq_eq_false_iff_ne.2 hi, beq_eq_false_iff_ne.2 hp]
  rfl

/-! #### Save and restore -/

theorem exec_saveDone {sl : Fin 64} {len : Nat} (h : (s.slice sl).saving = some len) (status : BitVec 8) :
    let ok := (s.areaOk 0x180 (s.saveBase sl) len 0x13).1
    ∃ u, exec (.saveDone sl status) s = .next u ∧ (u.slice sl).saving = none ∧ (u.slice sl).mode = (s.slice sl).mode ∧
      (ok = true → status = 0 → (u.slice sl).saved = true ∧ (u.slice sl).err = 0) ∧
      (ok = false ∨ status ≠ 0 → (u.slice sl).saved = (s.slice sl).saved ∧ (u.slice sl).err = 3) := by
  intro ok
  change ∃ u, execSaveDone sl status s = .next u ∧ _
  have hs : s.Standing (s.areaOk 0x180 (s.saveBase sl) len 0x13).2 := (State.Standing.refl s).areaOk
  unfold execSaveDone
  rw [h]
  dsimp only
  by_cases hc : ok = true ∧ status = 0
  · rw [if_pos hc]
    refine ⟨_, rfl, ?_⟩
    rw [State.slice_sliceEvent, State.slice_updSlc, hs.slice]
    exact ⟨rfl, rfl, fun _ _ => ⟨rfl, rfl⟩, fun hx => absurd hc fun hc => hx.elim (fun e => absurd (hc.1.symm.trans e) (by decide)) (absurd hc.2)⟩
  · rw [if_neg hc]
    refine ⟨_, rfl, ?_⟩
    rw [State.slice_sliceEvent, State.slice_updSlc, hs.slice]
    exact ⟨rfl, rfl, fun h1 h2 => absurd ⟨h1, h2⟩ hc, fun _ => ⟨rfl, rfl⟩⟩

theorem State.restore_slc (s : State) (sl : Nat) (a : List Byte) : (s.restore sl a).slc = s.slc := by
  have h : s.Standing (s.restore sl a) := by
    have hs := State.Standing.refl s
    unfold State.restore
    exact (hs.foldl fun _ _ hs => hs.updQ).foldl fun _ _ hs => hs.updThr
  exact h.slc

theorem exec_restoreDone {sl : Fin 64} (h : (s.slice sl).restoring = true) (a : List Byte) (status : BitVec 8) :
    let r := s.areaOk 0x180 (s.saveBase sl) a.length 0x12
    let err := if r.1 = false ∨ status ≠ 0 then 3 else r.2.restoreErr sl a
    ∃ u, exec (.restoreDone sl a status) s = .next u ∧ (u.slice sl).restoring = false ∧ (u.slice sl).err = err ∧
      (u.slice sl).mode = (s.slice sl).mode ∧ (err ≠ 0 → u.ecl = s.ecl) := by
  intro r err
  have hs : s.Standing r.2 := (State.Standing.refl s).areaOk
  have he : s.AreaKept r.2 := (State.AreaKept.refl s).areaOk
  have herr : err = if ¬r.1 = true ∨ status ≠ 0 then 3 else r.2.restoreErr sl a := by
    simp only [Bool.not_eq_true]
    rfl
  clear_value err
  subst herr
  let err := if ¬r.1 = true ∨ status ≠ 0 then 3 else r.2.restoreErr sl a
  let v := r.2.updSlc sl fun c => { c with restoring := false, err := err }
  have hv : v.slice sl = { s.slice sl with restoring := false, err := err } := by
    rw [← hs.slice]
    exact r.2.slice_updSlc sl _
  have hx : exec (.restoreDone sl a status) s =
      if err = 0 then .next ((v.restore sl a).sliceEvent sl 0x26 0) else .next (v.sliceEvent sl 0x27 err) := by
    change execRestoreDone sl a status s = _
    unfold execRestoreDone
    rw [if_neg (by rw [h]; decide)]
  by_cases h0 : err = 0
  · refine ⟨_, hx.trans (if_pos h0), ?_⟩
    rw [State.slice_sliceEvent, State.slice_of_slc (v.restore_slc sl a), hv]
    exact ⟨rfl, rfl, rfl, fun hne => absurd h0 hne⟩
  · refine ⟨_, hx.trans (if_neg h0), ?_⟩
    rw [State.slice_sliceEvent, hv]
    exact ⟨rfl, rfl, rfl, fun _ => (State.ecl_sliceEvent ..).trans he.ecl⟩

/-- The checks of a save and of a restore pass over a slice that has none running. -/
theorem exec_saveDone_idle {sl : Fin 64} (h : (s.slice sl).saving = none) (status : BitVec 8) : exec (.saveDone sl status) s = .next s := by
  change execSaveDone sl status s = _
  unfold execSaveDone
  rw [h]

theorem exec_restoreDone_idle {sl : Fin 64} (h : (s.slice sl).restoring = false) (a : List Byte) (status : BitVec 8) :
    exec (.restoreDone sl a status) s = .next s :=
  if_pos (by rw [h]; decide)

/-- Settles O51: freeze, reset, save and restore of a slice run to their end or their limit. -/
theorem sliceOperationsRunTheirCourse : Obligations.SliceOperationsRunTheirCourse := by
  unfold Obligations.SliceOperationsRunTheirCourse
  refine ⟨fun s sl => ⟨exec_sliceFrozen sl, fun h => if_pos h, exec_freezeStuck sl, fun h => if_pos h,
      fun hm hq ht hk => ⟨?_, congrArg Slc.squashed (s.slice_slcSquash sl)⟩, fun h => ?_, fun hm hk => ⟨?_, s.slice_slcClear sl⟩, fun h => if_pos h,
      fun v => ⟨_, rfl, s.rf_setRf_same .SLC_QLIVE 0 17 v.toNat (slcBase sl) 0 (by decide), s.setRf_rest ..⟩⟩,
    fun s f i e hf => ⟨fun he => ?_, fun hi hp => ?_⟩,
    fun x e => ⟨rfl, rfl, fun r => ite_self _, rfl, rfl, rfl, rfl, rfl, rfl, rfl⟩,
    fun s b i hi => (s.ctrAt_clearBank b b i hi).trans (if_pos rfl),
    fun s sl status len h => exec_saveDone h status, fun s sl a status h => exec_restoreDone h a status,
    fun s sl a status hs hr => ⟨exec_saveDone_idle hs status, exec_restoreDone_idle hr a status⟩⟩
  case refine_1 => exact if_neg (by simp only [hm, hq, hk]; simp; omega)
  case refine_2 => exact if_pos (h.imp_right (Or.imp_right .inl))
  case refine_3 => exact if_neg (by simp only [hm, hk]; decide)
  case refine_4 => rw [State.squashPiece_issued hf i he, State.srcEnt_setSrc]
  case refine_5 => rw [State.squashPiece_held hf i hi hp, State.srcEnt_setSrc]

end Sys2Proof.Machine

namespace Sys2Proof.Machine
variable {s₀ s t : State}

/-! ### Threads that a slice command stops, and the spine's own sequenced requests -/

theorem State.thr_mapThreads (he : SMap.wf {} s.ecl = true) (ht : ∀ k, SMap.wf {} (s.cl k).thr = true) {ok : Thr → Bool} {g : Thr → Thr}
    (hd : (if ok {} then g {} else ({} : Thr)) = {}) (k i : Nat) :
    (s.mapThreads ok fun _ _ x => g x).thr k i = if ok (s.thr k i) then g (s.thr k i) else s.thr k i := by
  have hcl : (s.mapThreads ok fun _ _ x => g x).cl k =
      { s.cl k with thr := SMap.mapVals {} (fun _ (x : Thr) => if ok x then g x else x) (s.cl k).thr } :=
    SMap.get_mapVals ({} : Ecl) (fun _ c => { c with thr := SMap.mapVals {} (fun _ (x : Thr) => if ok x then g x else x) c.thr }) s.ecl 0 he
      (fun _ => rfl) k
  unfold State.thr
  rw [hcl]
  exact SMap.get_mapVals ({} : Thr) (fun _ x => if ok x then g x else x) _ 0 (ht k) (fun _ => hd) i

theorem Thr.stand_default (c : Bool) : (if c then Thr.stand {} else ({} : Thr)) = {} := by
  cases c <;> rfl

theorem Thr.stand_live {x : Thr} (ho : x.st ≠ .off) (hh : x.st ≠ .halt) : x.stand = { x with st := .halt, held := some x.st } :=
  if_neg (by simp [ho, hh])

theorem Thr.stand_idle {x : Thr} (h : x.st = .off ∨ x.st = .halt) : x.stand = x := if_pos h

/-- The threads of a slice have been stopped. -/
theorem State.stopped_of_ecl {u : State} {sl : Nat} (he : SMap.wf {} s.ecl = true) (ht : ∀ k, SMap.wf {} (s.cl k).thr = true)
    (hu : u.ecl = (s.mapThreads (fun x => x.slice.toNat == sl) (fun _ _ x => x.stand)).ecl) (k i : Nat) :
    ((s.thr k i).slice.toNat = sl → (s.thr k i).st ≠ .off → (s.thr k i).st ≠ .halt →
        u.thr k i = { s.thr k i with st := .halt, held := some (s.thr k i).st }) ∧
      (((s.thr k i).slice.toNat ≠ sl ∨ (s.thr k i).st = .off ∨ (s.thr k i).st = .halt) → u.thr k i = s.thr k i) := by
  have h := (State.thr_of_ecl hu k i).trans (State.thr_mapThreads he ht (Thr.stand_default _) k i)
  refine ⟨fun hm ho hh => ?_, fun hor => ?_⟩
  · rw [h, if_pos (beq_iff_eq.2 hm), Thr.stand_live ho hh]
  · rw [h]
    split
    case isTrue hm => exact Thr.stand_idle (hor.resolve_left fun hn => hn (beq_iff_eq.1 hm))
    case isFalse => rfl

/-- What a request of the spine itself leaves alone: all but the interfaces and Saffron. -/
def State.spineReset (s t : State) : State := { t with ni := s.ni, saf := s.saf }

theorem State.spineReset_spineSend (s t : State) (q : Pkt) (c : Bool) : s.spineReset (t.spineSend q c) = s.spineReset t := rfl

theorem State.spineReset_withSaf (s t : State) (x : Saf) : s.spineReset { t with saf := x } = s.spineReset t := rfl

theorem State.spineReset_updNi (s t : State) (f : Nat) (g : Ni → Ni) : s.spineReset (t.updNi f g) = s.spineReset t := rfl

theorem State.spineReset_spineTry (s t : State) : s.spineReset t.spineTry = s.spineReset t := by
  unfold State.spineTry
  refine List.foldlRecOn (motive := fun u : State => s.spineReset u = s.spineReset t) _ _ rfl fun u hu _ _ => ?_
  split
  · exact hu
  · split
    · rw [State.spineReset_spineSend, State.spineReset_updNi, State.spineReset_withSaf]
      exact hu
    · split
      · rw [State.spineReset_spineSend, State.spineReset_updNi, State.spineReset_withSaf]
        exact hu
      · exact hu

theorem State.spineReset_spineSeq (s t : State) (p : Pkt) : s.spineReset (t.spineSeq p) = s.spineReset t :=
  (State.spineReset_spineTry ..).trans (State.spineReset_withSaf ..)

/-- The only request of the spine that waits: it goes with a credit, as a pool header, or stays. -/
theorem State.spineTry_one {r : SpineReq} (h : s.saf.spine = [r]) (hr : r.sent = false) : s.spineTry =
    if 0 < (s.nif 0x180).safCred then
      ({ s with saf := { s.saf with spine := [] } }.updNi 0x180 fun n => { n with safCred := n.safCred - 1 }).spineSend r.req true
    else if (s.nif 0x180).safPool < s.safPoolmax 0x180 then
      ({ s with saf := { s.saf with spine := [{ r with sent := true }] } }.updNi 0x180 fun n => { n with safPool := n.safPool + 1 }).spineSend
        r.req false
    else s := by
  unfold State.spineTry
  rw [h]
  simp only [List.length_singleton, List.range_one, List.foldl_cons, List.foldl_nil, h, List.find?_cons, hr, Bool.not_false, List.erase_cons_head,
    List.map_cons, List.map_nil, if_true]

/-- What the spine's interface and Saffron's hold once a request has been sent. -/
theorem State.spineSend_sent (s : State) (x : Saf) (g : Ni → Ni) (q : Pkt) (c : Bool) :
    let u := (({ s with saf := x } : State).updNi 0x180 g).spineSend q c
    (u.nif 0x181).inbox = (s.nif 0x181).inbox ++ [{ q with df := c }] ∧ u.nif 0x180 = g (s.nif 0x180) ∧ u.saf = x := by
  unfold State.spineSend
  dsimp only
  rw [State.nif_updNi, if_pos rfl, State.nif_updNi, if_neg (by decide), State.nif_updNi, if_neg (by decide), State.nif_updNi, if_pos rfl]
  exact ⟨rfl, rfl, rfl⟩

/-- How the request q of the spine goes out when no other waits. -/
theorem State.spineSeq_alone (h : s.saf.spine = []) (p : Pkt) : let u := s.spineSeq p
    let q : Pkt := { p with net := .req, src := 0x180, dst := 0x181 }
    let i := (s.nif 0x181).inbox
    let j := (u.nif 0x181).inbox
    let n := (s.nif 0x180).safCred
    let more : Prop := (s.nif 0x180).safPool < s.safPoolmax 0x180
    (0 < n → j = i ++ [{ q with df := true }] ∧ (u.nif 0x180).safCred = n - 1 ∧ u.saf = s.saf) ∧
    (n = 0 → more → j = i ++ [{ q with df := false }] ∧ (u.nif 0x180).safPool = (s.nif 0x180).safPool + 1 ∧
      u.saf = { s.saf with spine := [{ req := q, since := s.tick, sent := true }] }) ∧
    (n = 0 → ¬more → u.ni = s.ni ∧ u.saf = { s.saf with spine := [{ req := q, since := s.tick }] }) := by
  intro u q i j n more
  have e : u = _ := State.spineTry_one (s := { s with saf := { s.saf with spine := s.saf.spine ++ [{ req := q, since := s.tick }] } })
    (r := { req := q, since := s.tick }) (by rw [h]; rfl) rfl
  have hsaf : s.saf = { s.saf with spine := [] } := by rw [← h]
  refine ⟨fun hn => ?_, fun hn hm => ?_, fun hn hm => ?_⟩
  · obtain ⟨hin, hni, hs⟩ := s.spineSend_sent { s.saf with spine := [] } (fun n => { n with safCred := n.safCred - 1 }) q true
    have e' := e.trans (if_pos hn)
    exact ⟨(congrArg (fun v : State => (v.nif 0x181).inbox) e').trans hin,
      (congrArg (fun v : State => (v.nif 0x180).safCred) e').trans (congrArg Ni.safCred hni), (congrArg State.saf e').trans (hs.trans hsaf.symm)⟩
  · obtain ⟨hin, hni, hs⟩ := s.spineSend_sent { s.saf with spine := [{ req := q, since := s.tick, sent := true }] }
      (fun n => { n with safPool := n.safPool + 1 }) q false
    have e' := e.trans ((if_neg (Nat.not_lt.2 (Nat.le_of_eq hn))).trans (if_pos hm))
    exact ⟨(congrArg (fun v : State => (v.nif 0x181).inbox) e').trans hin,
      (congrArg (fun v : State => (v.nif 0x180).safPool) e').trans (congrArg Ni.safPool hni), (congrArg State.saf e').trans hs⟩
  · replace e := e.trans ((if_neg (Nat.not_lt.2 (Nat.le_of_eq hn))).trans (if_neg hm))
    rw [e, h]
    exact ⟨rfl, rfl⟩

end Sys2Proof.Machine

namespace Sys2Proof.Machine
variable {s₀ s t : State}

/-! ### Thawing the threads of a slice (R320) -/

theorem State.thr_setThr (s : State) (k i k' i' : Nat) (x : Thr) :
    (s.setThr k i x).thr k' i' = if k' = k ∧ i' = i then x else s.thr k' i' := by
  unfold State.setThr State.updCl State.thr
  rw [State.cl_setCl]
  by_cases hk : k' = k
  · subst hk
    rw [if_pos rfl]
    exact (SMap.get_set ..).trans (by simp only [true_and])
  · rw [if_neg hk, if_neg fun h => hk h.1]

/-- A thread as THAW lets it go on: an event is pending, and it runs unless the slice still stands. -/
def Thr.Thawed (x y : Thr) (stand : Bool) : Prop := if stand then y = x.event else ∃ w, y = x.event.goOn w

/-- The thread of number n, when it is one of the slice's. -/
def State.thawThr (sl : Nat) (stand : Bool) (s : State) (n : Nat) : State :=
  if (s.thr (n / 32) (n % 32)).slice.toNat = sl ∧ bitOf (s.thrEntry (n / 32) (s.thr (n / 32) (n % 32)).tep (n % 32)) 20 then
    s.setThr (n / 32) (n % 32) (if stand then (s.thr (n / 32) (n % 32)).event
      else (s.thr (n / 32) (n % 32)).event.goOn (s.recvBind (n / 32) (n % 32)).isSome)
  else s

/-- Thread i of cluster k is of the slice and exists. -/
def State.thaws (s : State) (sl k i : Nat) : Prop :=
  (s.thr k i).slice.toNat = sl ∧ bitOf (s.thrEntry k (s.thr k i).tep i) 20 = true

/-- The threads of a number below n have been thawed. -/
structure State.ThawedTo (s₀ : State) (sl : Nat) (stand : Bool) (n : Nat) (s : State) : Prop where
  on : ∀ k i, i < 32 → 32 * k + i < n → s₀.thaws sl k i → (s₀.thr k i).Thawed (s.thr k i) stand
  off : ∀ k i, ¬(i < 32 ∧ 32 * k + i < n ∧ s₀.thaws sl k i) → s.thr k i = s₀.thr k i
  rest : { s with ecl := s₀.ecl } = s₀

theorem State.ThawedTo.step {sl n : Nat} {stand : Bool} (h : s₀.ThawedTo sl stand n s) : s₀.ThawedTo sl stand (n + 1) (s.thawThr sl stand n) := by
  have hsame : s.thr (n / 32) (n % 32) = s₀.thr (n / 32) (n % 32) := h.off _ _ fun hc => by omega
  have hent (k : Nat) (b : Bool) (i : Nat) : s.thrEntry k b i = s₀.thrEntry k b i :=
    (congrArg (fun u : State => u.thrEntry k b i) h.rest :)
  unfold State.thawThr
  rw [hsame, hent]
  split
  case isTrue hc =>
    refine ⟨fun k i hi hk ht => ?_, fun k i hn => ?_, h.rest⟩
    · rw [State.thr_setThr]
      split
      case isTrue he =>
        obtain ⟨rfl, rfl⟩ := he
        cases stand
        · exact ⟨_, rfl⟩
        · rfl
      case isFalse he => exact h.on k i hi (by omega) ht
    · rw [State.thr_setThr, if_neg, h.off k i fun hx => hn ⟨hx.1, by omega, hx.2.2⟩]
      rintro ⟨rfl, rfl⟩
      exact hn ⟨by omega, by omega, hc⟩
  case isFalse hc =>
    refine ⟨fun k i hi hk ht => ?_, fun k i hn => h.off k i fun hx => hn ⟨hx.1, by omega, hx.2.2⟩, h.rest⟩
    refine h.on k i hi (Nat.lt_of_not_le fun hge => ?_) ht
    have hkn : k = n / 32 ∧ i = n % 32 := by omega
    obtain ⟨rfl, rfl⟩ := hkn
    exact hc ht

theorem State.ThawedTo.fold (s₀ : State) (sl : Nat) (stand : Bool) (n : Nat) :
    s₀.ThawedTo sl stand n ((List.range n).foldl (State.thawThr sl stand) s₀) := by
  induction n with
  | zero => exact ⟨fun k i _ hk => absurd hk (by omega), fun _ _ _ => rfl, rfl⟩
  | succ n ih =>
    rw [List.range_succ, List.foldl_append]
    exact ih.step

/-- THAW when no queue waits for its messages. -/
theorem State.slcThaw_of_loaded (h : s.que.any (fun kx => kx.2.reload) = false) (sl : Nat) : s.slcThaw sl =
    ((((List.range 1536).foldl (State.thawThr sl ((s.updSlc sl fun c => { c with mode := .active }).stands sl))
      (s.updSlc sl fun c => { c with mode := .active })).freezeEnd).sliceEvent sl 0x22 0) := by
  have hf : s.que.filter (fun kx => kx.2.reload) = [] := List.filter_eq_nil_iff.2 fun kx hx hr => by
    rw [List.any_eq_false] at h
    exact h kx hx hr
  have hf' : (s.updSlc sl fun c => { c with mode := .active }).que.filter (fun kx => kx.2.reload) = [] := hf
  unfold State.slcThaw
  dsimp only
  rw [hf']
  rfl

theorem Thr.Thawed.ipend {x y : Thr} {b : Bool} (h : x.Thawed y b) : y.ipend = x.ipend ||| 4 ∧ y.pc = x.pc := by
  cases b
  · obtain ⟨w, rfl⟩ := h
    unfold Thr.goOn
    split <;> exact ⟨rfl, rfl⟩
  · obtain rfl := h
    exact ⟨rfl, rfl⟩

/-- A thread that waited for a time waits for it again. -/
theorem Thr.Thawed.wait {x y : Thr} (h : x.Thawed y false) {v : Word64} (hh : x.held = some .wait) (hv : x.until_ = some v) :
    y.st = .wait ∧ y.held = none := by
  obtain ⟨w, rfl⟩ := h
  unfold Thr.goOn Thr.event
  dsimp only
  rw [hh, hv]
  exact ⟨rfl, rfl⟩

theorem Thr.Thawed.ready {x y : Thr} (h : x.Thawed y false) (hh : x.held = some .ready) : y.st = .ready ∧ y.held = none := by
  obtain ⟨w, rfl⟩ := h
  unfold Thr.goOn Thr.event
  dsimp only
  rw [hh]
  exact ⟨rfl, rfl⟩

end Sys2Proof.Machine

namespace Sys2Proof.Machine
variable {s t : State}

/-! ### Numbers in a save area (R324) -/

theorem leNat_leBytes (n v : Nat) : leNat (leBytes n v) = v % 256 ^ n := by
  induction n generalizing v with
  | zero => simp [leBytes, leNat, Nat.mod_one]
  | succ n ih =>
    simp only [leBytes, leNat, ih, BitVec.toNat_ofNat]
    rw [Nat.pow_succ' (n := n), Nat.mod_mul]

/-- A field behind the first part of an area. -/
theorem areaNat_append_right {x : List Byte} {off : Nat} (h : x.length ≤ off) (y : List Byte) (n : Nat) :
    areaNat (x ++ y) off n = areaNat y (off - x.length) n := by
  unfold areaNat
  rw [List.drop_append, List.drop_eq_nil_of_le h, List.nil_append]

/-- A field within the first part of an area. -/
theorem areaNat_append_left {x : List Byte} {off n : Nat} (h : off + n ≤ x.length) (y : List Byte) : areaNat (x ++ y) off n = areaNat x off n := by
  unfold areaNat
  rw [List.drop_append_of_le_length (by omega), List.take_append_of_le_length (by simp; omega)]

theorem areaNat_leBytes (n v : Nat) : areaNat (leBytes n v) 0 n = v % 256 ^ n := by
  unfold areaNat
  rw [List.drop_zero, List.take_of_length_le (Nat.le_of_eq (length_leBytes n v)), leNat_leBytes]

/-- A number that stands behind the first part of an area. -/
theorem areaNat_field {x : List Byte} {off : Nat} (h : x.length = off) (n v : Nat) (y : List Byte) :
    areaNat (x ++ leBytes n v ++ y) off n = v % 256 ^ n := by
  rw [areaNat_append_left (Nat.le_of_eq (by rw [List.length_append, length_leBytes, h])), areaNat_append_right (Nat.le_of_eq h), h, Nat.sub_self, areaNat_leBytes]

/-! ### A whole area with its trailer -/

theorem length_withTrailer (b : List Byte) : (withTrailer b).length = b.length + 64 := by
  unfold withTrailer zeros
  rw [List.length_append, List.length_append, length_leBytes, List.length_replicate]

/-- The trailer holds the CRC of what stands before it. -/
theorem areaNat_withTrailer_crc (b : List Byte) : areaNat (withTrailer b) b.length 4 = (crc32c b).toNat :=
  (areaNat_field rfl 4 _ _).trans (Nat.mod_eq_of_lt (crc32c b).isLt)

theorem take_withTrailer (b : List Byte) : (withTrailer b).take b.length = b := by
  unfold withTrailer
  rw [List.append_assoc, List.take_left]

theorem areaNat_withTrailer {b : List Byte} {off n : Nat} (h : off + n ≤ b.length) : areaNat (withTrailer b) off n = areaNat b off n := by
  unfold withTrailer
  rw [List.append_assoc, areaNat_append_left h]

/-! ### The layout of a slice's area -/

/-- The first 64 bytes: magic, version, slice, the numbers of queues and threads, PROG_ID and the time. -/
def saveHeader (sl qc tc prog time : Nat) : List Byte :=
  leBytes 4 0x45434C53 ++ leBytes 2 1 ++ leBytes 1 sl ++ [0] ++ leBytes 4 qc ++ leBytes 4 tc ++ leBytes 8 prog ++ leBytes 8 time ++ zeros 32

theorem length_saveHeader (sl qc tc prog time : Nat) : (saveHeader sl qc tc prog time).length = 64 := by
  simp [saveHeader, zeros, length_leBytes]

theorem saveHeader_magic (sl qc tc prog time : Nat) : areaNat (saveHeader sl qc tc prog time) 0 4 = 0x45434C53 := by
  simp only [saveHeader, List.append_assoc]
  rw [areaNat_append_left (by simp [length_leBytes])]
  exact (areaNat_leBytes ..).trans (by decide)

theorem saveHeader_version (sl qc tc prog time : Nat) : areaNat (saveHeader sl qc tc prog time) 4 2 = 1 := by
  simp only [saveHeader, List.append_assoc]
  rw [areaNat_append_right (by simp [length_leBytes]), areaNat_append_left (by simp [length_leBytes]), length_leBytes]
  exact (areaNat_leBytes ..).trans (by decide)

theorem saveHeader_slice {sl : Nat} (h : sl < 256) (qc tc prog time : Nat) : areaNat (saveHeader sl qc tc prog time) 6 1 = sl := by
  have e := areaNat_field (x := leBytes 4 0x45434C53 ++ leBytes 2 1) (off := 6) (by simp [length_leBytes]) 1 sl
    ([0] ++ leBytes 4 qc ++ leBytes 4 tc ++ leBytes 8 prog ++ leBytes 8 time ++ zeros 32)
  simp only [saveHeader, List.append_assoc] at e ⊢
  exact e.trans (Nat.mod_eq_of_lt h)

theorem saveHeader_queues {qc : Nat} (h : qc < 2 ^ 32) (sl tc prog time : Nat) : areaNat (saveHeader sl qc tc prog time) 8 4 = qc := by
  have e := areaNat_field (x := leBytes 4 0x45434C53 ++ leBytes 2 1 ++ leBytes 1 sl ++ [0]) (off := 8) (by simp [length_leBytes]) 4 qc
    (leBytes 4 tc ++ leBytes 8 prog ++ leBytes 8 time ++ zeros 32)
  simp only [saveHeader, List.append_assoc] at e ⊢
  exact e.trans (Nat.mod_eq_of_lt h)

theorem saveHeader_threads {tc : Nat} (h : tc < 2 ^ 32) (sl qc prog time : Nat) : areaNat (saveHeader sl qc tc prog time) 12 4 = tc := by
  have e := areaNat_field (x := leBytes 4 0x45434C53 ++ leBytes 2 1 ++ leBytes 1 sl ++ [0] ++ leBytes 4 qc) (off := 12)
    (by simp [length_leBytes]) 4 tc (leBytes 8 prog ++ leBytes 8 time ++ zeros 32)
  simp only [saveHeader, List.append_assoc] at e ⊢
  exact e.trans (Nat.mod_eq_of_lt h)

/-- The queue records of an area. -/
def State.saveQueues (s : State) (sl : Nat) : List Byte :=
  (List.range (fld (s.sliceDef s.epo.cur sl) 32 17)).flatMap fun i => s.queueSave (fld (s.sliceDef s.epo.cur sl) 16 16 + i)

/-- The thread records of an area. -/
def State.saveThreads (s : State) (sl : Nat) : List Byte :=
  (s.sliceThreads s.epo.cur sl).flatMap fun ki => (s.thr ki.1 ki.2).save (Fin.ofNat 1536 (32 * ki.1 + ki.2))

theorem State.saveBody_eq (s : State) (sl : Nat) : s.saveBody sl =
    saveHeader sl (fld (s.sliceDef s.epo.cur sl) 32 17) (s.sliceThreads s.epo.cur sl).length s.prg.progId
      (nsOf s.ns + secOf s.ns % 2 ^ 32 * 2 ^ 32) ++ (pad64 (s.saveQueues sl) ++ s.saveThreads sl) := List.append_assoc ..

theorem length_flatMap_const {α : Type} {n : Nat} {f : α → List Byte} (h : ∀ x, (f x).length = n) (xs : List α) :
    (xs.flatMap f).length = n * xs.length := by
  rw [List.length_flatMap, List.map_congr_left fun x _ => h x, List.map_const', List.sum_replicate_nat, Nat.mul_comm]

theorem State.length_queueSave (s : State) (q : Nat) : (s.queueSave q).length = 32 := length_leBytes ..

theorem Thr.length_save (x : Thr) (n : Fin 1536) : (x.save n).length = 320 := by
  unfold Thr.save
  rw [List.length_append, List.length_append, length_flatMap_const (fun _ => length_leBytes 8 _), length_flatMap_const (fun _ => length_leBytes 8 _),
    length_leBytes, List.length_range]
  rfl

theorem length_pad64 (bs : List Byte) : (pad64 bs).length = (bs.length + 63) / 64 * 64 := by
  unfold pad64 zeros
  rw [List.length_append, List.length_replicate]
  omega

theorem State.length_saveBody (s : State) (sl : Nat) : (s.saveBody sl).length =
    trailerAt (fld (s.sliceDef s.epo.cur sl) 32 17) (s.sliceThreads s.epo.cur sl).length := by
  unfold trailerAt
  rw [State.saveBody_eq, List.length_append, List.length_append, length_saveHeader, length_pad64, State.saveQueues,
    length_flatMap_const fun _ => s.length_queueSave _, State.saveThreads, length_flatMap_const fun _ => Thr.length_save .., List.length_range,
    Nat.add_assoc]

end Sys2Proof.Machine

namespace Sys2Proof.Machine
variable {s t : State} {sl : Nat}

/-! ### The commands of a slice (R320, R322 to R324, R326) -/

theorem State.sliceOn_of_slcState (h : s.slcState sl ≠ 0) : s.sliceOn sl = true :=
  Classical.byContradiction fun hn => h (if_pos hn)

/-- The state of a slice whose definition has not changed. -/
theorem State.slcState_of_mode {u : State} (hon : s.slcState sl ≠ 0) (ht : u.tabs = s.tabs) (he : u.epo = s.epo) :
    u.slcState sl = match (u.slice sl).mode with | .active => 1 | .freezing => 2 | .frozen => 3 | .resetting => 4 := by
  have h : u.sliceOn sl = true := by
    rw [← State.sliceOn_of_slcState hon]
    unfold State.sliceOn State.sliceDef
    rw [he]
    exact congrArg (bitOf · 0) (congrArg (SMap.get 0 · _) ht)
  unfold State.slcState
  rw [if_neg (by rw [h]; decide)] <;> rfl

theorem State.slcCtrl_freeze (s : State) (sl : Nat) : s.slcCtrl sl 1 = if s.slcState sl = 1 then s.slcFreeze sl else s.slcReject sl := by
  unfold State.slcCtrl
  by_cases h : s.slcState sl = 1
  · rw [if_pos h, h]
    rfl
  · rw [if_neg h]
    have hb : (s.slcState sl == 1) = false := beq_eq_false_iff_ne.2 h
    simp only [show fld 1 0 5 = 1 from rfl, hb]
    rfl

theorem State.slcCtrl_thaw (s : State) (sl : Nat) : s.slcCtrl sl 2 = if s.slcState sl = 3 then s.slcThaw sl else s.slcReject sl := by
  unfold State.slcCtrl
  simp [show fld 2 0 5 = 2 from rfl, show bitOf 2 2 = false from rfl, show bitOf 2 0 = false from rfl, show bitOf 2 1 = true from rfl,
    show popCount 5 2 = 1 from rfl]

theorem State.slcCtrl_reset (s : State) (sl : Nat) :
    s.slcCtrl sl 4 = if 1 ≤ s.slcState sl ∧ s.slcState sl ≤ 3 then s.slcReset sl else s.slcReject sl := by
  unfold State.slcCtrl
  by_cases h : 1 ≤ s.slcState sl ∧ s.slcState sl ≤ 3
  · rw [if_pos h]
    simp only [show fld 4 0 5 = 4 from rfl, decide_eq_true h]
    rfl
  · rw [if_neg h]
    simp only [show fld 4 0 5 = 4 from rfl, decide_eq_false h]
    rfl

/-- The slice neither saves nor restores. -/
def State.sliceIdle (s : State) (sl : Nat) : Prop := (s.slice sl).saving = none ∧ (s.slice sl).restoring = false

theorem State.sliceIdle_iff (s : State) (sl : Nat) :
    (s.slcState sl == 3 && !((s.slice sl).saving.isSome || (s.slice sl).restoring)) = true ↔ s.slcState sl = 3 ∧ s.sliceIdle sl := by
  unfold State.sliceIdle
  cases (s.slice sl).saving <;> simp

theorem State.slcCtrl_save (h : s.slcState sl = 3 ∧ s.sliceIdle sl) : s.slcCtrl sl 8 = s.slcSave sl := by
  unfold State.slcCtrl
  simp only [show fld 8 0 5 = 8 from rfl, (s.sliceIdle_iff sl).2 h]
  rfl

theorem State.slcCtrl_restore (h : s.slcState sl = 3 ∧ s.sliceIdle sl) :
    s.slcCtrl sl 16 = s.updSlc sl fun c => { c with restoring := true } := by
  unfold State.slcCtrl
  simp only [show fld 16 0 5 = 16 from rfl, (s.sliceIdle_iff sl).2 h]
  rfl

theorem State.slcCtrl_busy (h : s.slcState sl ≠ 3 ∨ ¬s.sliceIdle sl) : s.slcCtrl sl 8 = s.slcReject sl ∧ s.slcCtrl sl 16 = s.slcReject sl := by
  have hb : (s.slcState sl == 3 && !((s.slice sl).saving.isSome || (s.slice sl).restoring)) = false :=
    Bool.eq_false_iff.2 fun hx => h.elim (· ((s.sliceIdle_iff sl).1 hx).1) (· ((s.sliceIdle_iff sl).1 hx).2)
  unfold State.slcCtrl
  simp only [show fld 8 0 5 = 8 from rfl, show fld 16 0 5 = 16 from rfl, hb]
  exact ⟨rfl, rfl⟩

/-! #### What each command leaves -/

/-- The request that a freeze sends through Saffron. -/
def freezeMarker (sl : Nat) : Pkt := { net := .req, opc := 0x14, tc := 1, rqfid := 1, htid := BitVec.ofNat 8 sl, src := 0x180, dst := 0x181 }

theorem State.slc_spineSeq (s : State) (p : Pkt) : (s.spineSeq p).slc = s.slc := (congrArg State.slc (State.spineReset_spineSeq s s p) :)
theorem State.ecl_spineSeq (s : State) (p : Pkt) : (s.spineSeq p).ecl = s.ecl := (congrArg State.ecl (State.spineReset_spineSeq s s p) :)
theorem State.tabs_spineSeq (s : State) (p : Pkt) : (s.spineSeq p).tabs = s.tabs := (congrArg State.tabs (State.spineReset_spineSeq s s p) :)
theorem State.epo_spineSeq (s : State) (p : Pkt) : (s.spineSeq p).epo = s.epo := (congrArg State.epo (State.spineReset_spineSeq s s p) :)

theorem State.slice_slcFreeze (s : State) (sl : Nat) : (s.slcFreeze sl).slice sl =
    { s.slice sl with mode := .freezing, at_ := s.tick, stuck := false, saved := false, marker := (s.slice sl).marker + 1 } :=
  (State.slice_of_slc (State.slc_spineSeq ..) sl).trans
    (s.slice_updSlc sl fun c => { c with mode := .freezing, at_ := s.tick, stuck := false, saved := false, marker := c.marker + 1 })

theorem State.slcState_slcFreeze (h : s.slcState sl ≠ 0) : (s.slcFreeze sl).slcState sl = 2 := by
  rw [State.slcState_of_mode (u := s.slcFreeze sl) h (State.tabs_spineSeq ..) (State.epo_spineSeq ..), State.slice_slcFreeze]

/-- All but the slices, the clusters, the interfaces and Saffron. -/
def State.freezeReset (s t : State) : State := { t with slc := s.slc, ecl := s.ecl, ni := s.ni, saf := s.saf }

theorem State.freezeReset_spineReset (s t : State) : s.freezeReset (s.spineReset t) = s.freezeReset t := rfl
theorem State.freezeReset_mapThreads (s t : State) (ok : Thr → Bool) (g : Nat → Nat → Thr → Thr) :
    s.freezeReset (t.mapThreads ok g) = s.freezeReset t := rfl
theorem State.freezeReset_updSlc (s t : State) (sl : Nat) (g : Slc → Slc) : s.freezeReset (t.updSlc sl g) = s.freezeReset t := rfl

theorem State.slcFreeze_rest (s : State) (sl : Nat) : s.freezeReset (s.slcFreeze sl) = s := by
  unfold State.slcFreeze
  dsimp only
  rw [← State.freezeReset_spineReset, State.spineReset_spineSeq, State.freezeReset_spineReset, State.freezeReset_mapThreads,
    State.freezeReset_updSlc]
  rfl

theorem State.slcReset_slc (s : State) (sl : Nat) : (s.slcReset sl).slice sl =
    { s.slice sl with mode := .resetting, at_ := s.tick, squashed := false, saving := none, restoring := false } :=
  (State.slice_freezeEnd ..).trans
    (s.slice_updSlc sl fun c => { c with mode := .resetting, at_ := s.tick, squashed := false, saving := none, restoring := false })

/-- The end of the last freeze changes nothing but the flag. -/
theorem State.freezeEnd_rest (s : State) : { s.freezeEnd with freeze := s.freeze } = s := by
  unfold State.freezeEnd
  split <;> rfl

theorem State.slcState_slcReset (h : s.slcState sl ≠ 0) : (s.slcReset sl).slcState sl = 4 := by
  have ht : (s.slcReset sl).tabs = s.tabs := (congrArg State.tabs (State.freezeEnd_rest _) :)
  have he : (s.slcReset sl).epo = s.epo := (congrArg State.epo (State.freezeEnd_rest _) :)
  rw [State.slcState_of_mode h ht he, State.slcReset_slc]

theorem State.ecl_slcReset (s : State) (sl : Nat) :
    (s.slcReset sl).ecl = (s.mapThreads (fun x => x.slice.toNat == sl) (fun _ _ x => x.stand)).ecl := (congrArg State.ecl (State.freezeEnd_rest _) :)

theorem State.reg_slcReset (s : State) (sl : Nat) : (s.slcReset sl).reg .SLC_SQUASH (slcBase sl) = 0 := by
  have hr : (s.slcReset sl).regs = (s.setReg .SLC_SQUASH 0 (slcBase sl)).regs := (congrArg State.regs (State.freezeEnd_rest _) :)
  have hf : (s.slcReset sl).fuses = (s.setReg .SLC_SQUASH 0 (slcBase sl)).fuses := (congrArg State.fuses (State.freezeEnd_rest _) :)
  rw [State.reg_congr hr hf]
  exact State.reg_setReg_same ..

/-- All but the slices, the clusters, the registers and the freeze. -/
def State.resetReset (s t : State) : State := { t with slc := s.slc, ecl := s.ecl, regs := s.regs, cyc := s.cyc, freeze := s.freeze }

theorem State.resetReset_freezeEnd (s t : State) : s.resetReset t.freezeEnd = s.resetReset t :=
  (congrArg (fun u : State => s.resetReset u) t.freezeEnd_rest :)

theorem State.resetReset_mapThreads (s t : State) (ok : Thr → Bool) (g : Nat → Nat → Thr → Thr) :
    s.resetReset (t.mapThreads ok g) = s.resetReset t := rfl
theorem State.resetReset_updSlc (s t : State) (sl : Nat) (g : Slc → Slc) : s.resetReset (t.updSlc sl g) = s.resetReset t := rfl
theorem State.resetReset_setReg (s t : State) (r : Reg) (v b i : Nat) : s.resetReset (t.setReg r v b i) = s.resetReset t := rfl

theorem State.slcReset_rest (s : State) (sl : Nat) : s.resetReset (s.slcReset sl) = s := by
  unfold State.slcReset
  dsimp only
  rw [State.resetReset_freezeEnd, State.resetReset_mapThreads, State.resetReset_setReg, State.resetReset_updSlc]
  rfl

end Sys2Proof.Machine

namespace Sys2Proof.Machine
variable {s t : State} {sl : Nat}

/-! ### Slice commands go by the slice's state -/

theorem State.thawEnd_keeps (u : State) (sl : Nat) : let v := u.freezeEnd.sliceEvent sl 0x22 0
    v.ecl = u.ecl ∧ v.slc = u.slc ∧ v.tabs = u.tabs ∧ v.epo = u.epo :=
  ⟨(State.ecl_sliceEvent ..).trans (congrArg State.ecl u.freezeEnd_rest :), (State.slc_sliceEvent ..).trans u.freezeEnd_slc,
    (congrArg State.tabs (u.freezeEnd.sliceEvent_rest sl 0x22 0) :).trans (congrArg State.tabs u.freezeEnd_rest :),
    (congrArg State.epo (u.freezeEnd.sliceEvent_rest sl 0x22 0) :).trans (congrArg State.epo u.freezeEnd_rest :)⟩

theorem State.slcThaw_keeps (h : s.que.any (fun kx => kx.2.reload) = false) (sl : Nat) : ∃ u,
    (s.updSlc sl fun c => { c with mode := .active }).ThawedTo sl ((s.updSlc sl fun c => { c with mode := .active }).stands sl) 1536 u ∧
      (s.slcThaw sl).ecl = u.ecl ∧ (s.slcThaw sl).slc = u.slc ∧ (s.slcThaw sl).tabs = u.tabs ∧ (s.slcThaw sl).epo = u.epo := by
  rw [State.slcThaw_of_loaded h]
  exact ⟨_, State.ThawedTo.fold _ _ _ _, State.thawEnd_keeps _ sl⟩

theorem State.stands_active (s : State) (sl : Nat) (hd : s.prim ≠ .drain) (hq : s.prim ≠ .quiesced) :
    (s.updSlc sl fun c => { c with mode := .active }).stands sl = false := by
  have hp : (s.updSlc sl fun c => { c with mode := .active }).prim = s.prim := rfl
  unfold State.stands
  rw [s.slice_updSlc, hp, beq_eq_false_iff_ne.2 hd, beq_eq_false_iff_ne.2 hq]
  rfl

/-- THAW of a frozen slice. -/
theorem exec_slcThaw {sl : Fin 64} (hm : s.slcState sl = 3) (h : s.que.any (fun kx => kx.2.reload) = false) :
    ∃ u, exec (.slcThaw sl) s = .next u ∧ u.slcState sl = 1 ∧
      (∀ k i, k < 48 → i < 32 → (s.thr k i).slice.toNat = sl.val → bitOf (s.thrEntry k (s.thr k i).tep i) 20 = true →
        (u.thr k i).ipend = (s.thr k i).ipend ||| 4 ∧ (u.thr k i).pc = (s.thr k i).pc ∧
        (∀ v, (s.thr k i).held = some .wait → (s.thr k i).until_ = some v → s.prim ≠ .drain → s.prim ≠ .quiesced →
          (u.thr k i).st = .wait ∧ (u.thr k i).held = none) ∧
        ((s.thr k i).held = some .ready → s.prim ≠ .drain → s.prim ≠ .quiesced →
          (u.thr k i).st = .ready ∧ (u.thr k i).held = none)) ∧
      (∀ k i, ¬(s.thr k i).slice.toNat = sl.val → u.thr k i = s.thr k i) := by
  obtain ⟨w, ⟨hon, hoff, hrest⟩, hecl, hslc, htabs, hepo⟩ := State.slcThaw_keeps h sl.val
  have ht : (s.slcThaw sl).tabs = s.tabs := htabs.trans (congrArg State.tabs hrest :)
  have hp : (s.slcThaw sl).epo = s.epo := hepo.trans (congrArg State.epo hrest :)
  have hs : (s.slcThaw sl).slice sl = { s.slice sl with mode := .active } :=
    (State.slice_of_slc (hslc.trans (congrArg State.slc hrest :)) sl).trans (s.slice_updSlc sl fun c => { c with mode := .active })
  refine ⟨s.slcThaw sl, congrArg Host.Outcome.next ((s.slcCtrl_thaw sl).trans (if_pos hm)), ?_, fun k i hk hi hmine hbit => ?_,
    fun k i hmine => (State.thr_of_ecl hecl k i).trans (hoff k i fun hx => hmine hx.2.2.1)⟩
  · rw [State.slcState_of_mode (u := s.slcThaw sl) (by rw [hm]; decide) ht hp, hs]
  · have hthr : (s.slcThaw sl).thr k i = w.thr k i := State.thr_of_ecl hecl k i
    have hx := hon k i hi (by omega) ⟨hmine, hbit⟩
    rw [hthr]
    refine ⟨hx.ipend.1, hx.ipend.2, fun v hh hv hd hq => ?_, fun hh hd hq => ?_⟩
    · rw [s.stands_active sl hd hq] at hx
      exact hx.wait hh hv
    · rw [s.stands_active sl hd hq] at hx
      exact hx.ready hh

/-- SAVE of a frozen slice lays down its area. -/
theorem exec_slcSave {sl : Fin 64} (h : s.slcState sl = 3 ∧ s.sliceIdle sl) : ∃ u, let a := (u.slice sl).area
      let e := a.length - 64
      exec (.slcSave sl) s = .next u ∧ (u.slice sl).saving = some a.length ∧ areaNat a 0 4 = 0x45434C53 ∧ areaNat a 4 2 = 1 ∧
      areaNat a 6 1 = sl ∧ areaNat a e 4 = (crc32c (a.take e)).toNat ∧ (u.slice sl).mode = (s.slice sl).mode ∧
        { u with slc := s.slc } = s := by
  have hs : (s.slcSave sl).slice sl = { s.slice sl with saving := some (withTrailer (s.saveBody sl)).length, area := withTrailer (s.saveBody sl) } :=
    s.slice_updSlc sl fun c => { c with saving := some (withTrailer (s.saveBody sl)).length, area := withTrailer (s.saveBody sl) }
  have hlen : 64 ≤ (s.saveBody sl).length := by
    rw [State.saveBody_eq, List.length_append, length_saveHeader]
    omega
  have hsl : sl.val < 256 := by omega
  refine ⟨s.slcSave sl, congrArg Host.Outcome.next (State.slcCtrl_save h), ?_⟩
  rw [hs, length_withTrailer, Nat.add_sub_cancel, take_withTrailer, areaNat_withTrailer_crc]
  rw [areaNat_withTrailer (by omega), areaNat_withTrailer (by omega), areaNat_withTrailer (by omega), State.saveBody_eq]
  rw [areaNat_append_left (by rw [length_saveHeader]; decide), areaNat_append_left (by rw [length_saveHeader]; decide),
    areaNat_append_left (by rw [length_saveHeader]; decide), saveHeader_magic, saveHeader_version, saveHeader_slice hsl]
  exact ⟨rfl, rfl, rfl, rfl, rfl, rfl, rfl⟩

/-- FREEZE of an active slice. -/
theorem exec_slcFreeze {sl : Fin 64} (he : SMap.wf {} s.ecl = true) (ht : ∀ k, SMap.wf {} (s.cl k).thr = true) (hm : s.slcState sl = 1) :
    let mine := fun (k i : Nat) => (s.thr k i).slice.toNat = sl.val
    let stopped := fun (u : State) => ∀ k i, (mine k i → (s.thr k i).st ≠ .off → (s.thr k i).st ≠ .halt →
        u.thr k i = { s.thr k i with st := .halt, held := some (s.thr k i).st }) ∧
      ((¬mine k i ∨ (s.thr k i).st = .off ∨ (s.thr k i).st = .halt) → u.thr k i = s.thr k i)
    ∃ u q, exec (.slcFreeze sl) s = .next u ∧ u.slcState sl = 2 ∧ (u.slice sl).at_ = s.tick ∧ (u.slice sl).stuck = false ∧
      (u.slice sl).marker = (s.slice sl).marker + 1 ∧ stopped u ∧ q.net = .req ∧ q.opc = 0x14 ∧ q.src = 0x180 ∧ q.dst = 0x181 ∧
      q.htid.toNat = sl.val ∧ { u with slc := s.slc, ecl := s.ecl, ni := s.ni, saf := s.saf } = s ∧
      (s.saf.spine = [] → let i := (s.nif 0x181).inbox
        let j := (u.nif 0x181).inbox
        let n := (s.nif 0x180).safCred
        let more : Prop := (s.nif 0x180).safPool < s.safPoolmax 0x180
        (0 < n → j = i ++ [{ q with df := true }] ∧ (u.nif 0x180).safCred = n - 1 ∧ u.saf = s.saf) ∧
        (n = 0 → more → j = i ++ [{ q with df := false }] ∧ (u.nif 0x180).safPool = (s.nif 0x180).safPool + 1 ∧
          u.saf = { s.saf with spine := [{ req := q, since := s.tick, sent := true }] }) ∧
        (n = 0 → ¬more → u.ni = s.ni ∧ u.saf = { s.saf with spine := [{ req := q, since := s.tick }] })) := by
  intro mine stopped
  have hs := s.slice_slcFreeze sl.val
  have hid : (BitVec.ofNat 8 sl.val).toNat = sl.val := (BitVec.toNat_ofNat ..).trans (Nat.mod_eq_of_lt (by omega))
  refine ⟨s.slcFreeze sl, freezeMarker sl, congrArg Host.Outcome.next ((s.slcCtrl_freeze sl).trans (if_pos hm)),
    State.slcState_slcFreeze (by rw [hm]; decide), congrArg Slc.at_ hs, congrArg Slc.stuck hs, congrArg Slc.marker hs,
    State.stopped_of_ecl he ht (State.ecl_spineSeq ..), rfl, rfl, rfl, rfl, hid, s.slcFreeze_rest sl, fun hsp => ?_⟩
  exact State.spineSeq_alone (s := (s.updSlc sl (fun c => {
      c with mode := .freezing, at_ := s.tick, stuck := false, saved := false, marker := c.marker + 1 })).mapThreads (fun x => x.slice.toNat == sl) (fun _ _ x => x.stand)) hsp
    { net := .req, opc := 0x14, tc := 1, rqfid := 1, htid := BitVec.ofNat 8 sl }

/-- RESET of a slice that is not being reset. -/
theorem exec_slcReset {sl : Fin 64} (he : SMap.wf {} s.ecl = true) (ht : ∀ k, SMap.wf {} (s.cl k).thr = true)
    (h1 : 1 ≤ s.slcState sl) (h3 : s.slcState sl ≤ 3) :
    let mine := fun (k i : Nat) => (s.thr k i).slice.toNat = sl.val
    let stopped := fun (u : State) => ∀ k i, (mine k i → (s.thr k i).st ≠ .off → (s.thr k i).st ≠ .halt →
        u.thr k i = { s.thr k i with st := .halt, held := some (s.thr k i).st }) ∧
      ((¬mine k i ∨ (s.thr k i).st = .off ∨ (s.thr k i).st = .halt) → u.thr k i = s.thr k i)
    ∃ u, exec (.slcReset sl) s = .next u ∧ u.slcState sl = 4 ∧ (u.slice sl).at_ = s.tick ∧
      (u.slice sl).saving = none ∧ (u.slice sl).restoring = false ∧ u.reg .SLC_SQUASH (slcBase sl) = 0 ∧ stopped u ∧
      { u with slc := s.slc, ecl := s.ecl, regs := s.regs, cyc := s.cyc, freeze := s.freeze } = s := by
  intro mine stopped
  have hs := s.slcReset_slc sl.val
  exact ⟨s.slcReset sl, congrArg Host.Outcome.next ((s.slcCtrl_reset sl).trans (if_pos ⟨h1, h3⟩)), State.slcState_slcReset (by omega),
    congrArg Slc.at_ hs, congrArg Slc.saving hs, congrArg Slc.restoring hs, s.reg_slcReset sl,
    State.stopped_of_ecl he ht (s.ecl_slcReset sl), s.slcReset_rest sl⟩

/-- Settles O50: the commands of a slice go by its state. A SAVE or RESTORE while one runs is ignored (log 70); the marker goes with a
credit or through the pool (logs 43, 96). -/
theorem sliceCommandsFollowTheirTable : Obligations.SliceCommandsFollowTheirTable := by
  unfold Obligations.SliceCommandsFollowTheirTable
  intro s sl he ht m idle mine stopped
  refine ⟨exec_slcFreeze he ht, exec_slcThaw, exec_slcReset he ht, fun hm hi => exec_slcSave ⟨hm, hi⟩,
    fun hm hi => ⟨_, congrArg Host.Outcome.next (State.slcCtrl_restore ⟨hm, hi⟩), s.slice_updSlc sl fun c => { c with restoring := true }, rfl⟩,
    fun hm => congrArg Host.Outcome.next ((s.slcCtrl_freeze sl).trans (if_neg hm)),
    fun hm => congrArg Host.Outcome.next ((s.slcCtrl_thaw sl).trans (if_neg hm)),
    fun hm => congrArg Host.Outcome.next ((s.slcCtrl_reset sl).trans (if_neg (by omega))),
    fun h => ⟨congrArg Host.Outcome.next (State.slcCtrl_busy h).1, congrArg Host.Outcome.next (State.slcCtrl_busy h).2⟩,
    s.rf_setRf_same .SLC_STATUS 3 1 1 (slcBase sl) 0 (by decide), s.setRf_rest ..⟩

end Sys2Proof.Machine

namespace Sys2Proof.Machine
variable {s t : State}

/-! ### Records of a save area -/

theorem areaNat_flatMap {α : Type} {n : Nat} {f : α → List Byte} (h : ∀ x, (f x).length = n) {xs : List α} {i : Nat} (hi : i < xs.length) :
    areaNat (xs.flatMap f) (n * i) n = leNat (f xs[i]) := by
  induction xs generalizing i with
  | nil => exact absurd hi (Nat.not_lt_zero _)
  | cons x xs ih =>
    rw [List.flatMap_cons]
    cases i with
    | zero =>
      rw [areaNat_append_left (by rw [h]; omega)]
      unfold areaNat
      rw [Nat.mul_zero, List.drop_zero, List.take_of_length_le (Nat.le_of_eq (h x))]
      rfl
    | succ i =>
      have hi' : i < xs.length := Nat.lt_of_succ_lt_succ hi
      rw [areaNat_append_right (by rw [h, Nat.mul_succ]; omega), h, Nat.mul_succ, Nat.add_sub_cancel, ih hi']
      rfl

/-- The number that a queue's record holds. -/
def recordNat (h t k d p c m l h' t' : Nat) : Nat :=
  h + t * 2 ^ 16 + k * 2 ^ 32 + d * 2 ^ 64 + p * 2 ^ 96 + c * 2 ^ 97 + m * 2 ^ 105 + l * 2 ^ 107 + h' * 2 ^ 112 + t' * 2 ^ 113

theorem recordNat_fields {h t k d p c m l h' t' : Nat} (hh : h < 2 ^ 16) (ht : t < 2 ^ 16) (hk : k < 2 ^ 32) (hd : d < 2 ^ 32) (hp : p < 2)
    (hc : c < 256) (hm : m < 4) (hl : l < 32) (hh' : h' < 2) (ht' : t' < 2) : let w := recordNat h t k d p c m l h' t'
    fld w 0 16 = h ∧ fld w 16 16 = t ∧ fld w 32 32 = k ∧ fld w 64 32 = d ∧ fld w 96 1 = p ∧ fld w 97 8 = c ∧ fld w 105 2 = m ∧
      fld w 107 5 = l ∧ fld w 112 1 = h' ∧ fld w 113 1 = t' ∧ w < 2 ^ 114 := by
  unfold recordNat fld
  refine ⟨?_, ?_, ?_, ?_, ?_, ?_, ?_, ?_, ?_, ?_, ?_⟩ <;> omega

/-- The fields of a queue's record in an area. -/
theorem State.queueSave_fields (s : State) (q : Nat) (hc : (s.qdyn q).cause < 256) : let w := leNat (s.queueSave q)
    let x := s.qdyn q
    let d := s.qdesc q
    fld w 0 16 = x.head % 2 ^ 16 ∧ fld w 16 16 = x.tail % 2 ^ 16 ∧ fld w 32 32 = (BitVec.ofInt 32 x.bkt.tokens).toNat ∧
      fld w 64 32 = x.deficit % 2 ^ 32 ∧ fld w 96 1 = x.paused.toNat ∧ fld w 97 8 = x.cause ∧ fld w 105 2 = fld d 132 2 ∧
      fld w 107 5 = qLog d ∧ fld w 112 1 = x.head / 2 ^ 16 % 2 ∧ fld w 113 1 = x.tail / 2 ^ 16 % 2 := by
  intro w x d
  have h := recordNat_fields (h := x.head % 2 ^ 16) (t := x.tail % 2 ^ 16) (k := (BitVec.ofInt 32 x.bkt.tokens).toNat)
    (d := x.deficit % 2 ^ 32) (p := x.paused.toNat) (c := x.cause) (m := fld d 132 2) (l := qLog d) (h' := x.head / 2 ^ 16 % 2)
    (t' := x.tail / 2 ^ 16 % 2) (Nat.mod_lt _ (by decide)) (Nat.mod_lt _ (by decide)) (BitVec.isLt _) (Nat.mod_lt _ (by decide))
    (Nat.lt_succ_of_le x.paused.toNat_le) hc (fld_lt ..) (fld_lt ..) (Nat.mod_lt _ (by decide)) (Nat.mod_lt _ (by decide))
  have hw : w = recordNat (x.head % 2 ^ 16) (x.tail % 2 ^ 16) (BitVec.ofInt 32 x.bkt.tokens).toNat (x.deficit % 2 ^ 32) x.paused.toNat x.cause
      (fld d 132 2) (qLog d) (x.head / 2 ^ 16 % 2) (x.tail / 2 ^ 16 % 2) :=
    (leNat_leBytes 32 _).trans (Nat.mod_eq_of_lt (Nat.lt_of_lt_of_le h.2.2.2.2.2.2.2.2.2.2 (by decide)))
  obtain ⟨h0, h1, h2, h3, h4, h5, h6, h7, h8, h9, -⟩ := h
  rw [hw]
  exact ⟨h0, h1, h2, h3, h4, h5, h6, h7, h8, h9⟩

theorem join_17 {n : Nat} (h : n < 2 ^ 17) : n % 2 ^ 16 + n / 2 ^ 16 % 2 * 2 ^ 16 = n := by
  omega

/-- Loading a queue's record gives back what was saved, with TOKENS clamped. -/
theorem State.load_queueSave (s : State) (q : Nat) (y : QDyn) : let x := s.qdyn q
    x.head < 2 ^ 17 → x.tail < 2 ^ 17 → x.deficit < 2 ^ 32 → x.cause < 256 → -2 ^ 31 ≤ x.bkt.tokens → x.bkt.tokens < 2 ^ 31 →
    let z := y.load (leNat (s.queueSave q))
    z.head = x.head ∧ z.tail = x.tail ∧ z.deficit = x.deficit ∧ z.paused = x.paused ∧ z.cause = x.cause ∧
    z.bkt.tokens = clampTokens x.bkt.tokens y.bkt.burst ∧ z.msgs = y.msgs ∧ z.armed = y.armed := by
  intro x hh ht hd hc hlo hhi z
  obtain ⟨h0, h1, h2, h3, h4, h5, -, -, h8, h9⟩ := s.queueSave_fields q hc
  have hz : z = y.load (leNat (s.queueSave q)) := rfl
  have htok : (BitVec.ofInt 32 x.bkt.tokens).toInt = x.bkt.tokens := by
    rw [BitVec.toInt_ofInt]
    exact Int.bmod_eq_of_le (by omega) (by omega)
  unfold QDyn.load at hz
  rw [h0, h1, h2, h3, h5, h8, h9, bitOf_eq_fld, h4, BitVec.ofNat_toNat, BitVec.setWidth_eq, htok] at hz
  rw [hz]
  refine ⟨join_17 hh, join_17 ht, Nat.mod_eq_of_lt hd, ?_, rfl, rfl, rfl, rfl⟩
  dsimp only
  cases x.paused <;> rfl

/-! ### A thread's record -/

/-- The registers that a record lays down. -/
theorem get_foldl_set (f : Nat → Word64) (n k : Nat) :
    SMap.get 0 ((List.range n).foldl (fun m r => SMap.set 0 m (r + 1) (f r)) []) k = if 1 ≤ k ∧ k ≤ n then f (k - 1) else 0 := by
  induction n with
  | zero => exact (if_neg (by omega)).symm
  | succ n ih =>
    rw [List.range_succ, List.foldl_append]
    refine (SMap.get_set ..).trans ?_
    rw [ih]
    by_cases h : k = n + 1
    · subst h
      rw [if_pos rfl, if_pos (by omega)]
      rfl
    · rw [if_neg h]
      have hiff : (1 ≤ k ∧ k ≤ n) ↔ (1 ≤ k ∧ k ≤ n + 1) := by omega
      simp only [hiff]

theorem Thr.save_reg (x : Thr) (t : Fin 1536) {r : Nat} (hr : r < 31) : areaNat (x.save t) (8 * r) 8 = (x.reg (r + 1)).toNat := by
  have hlen (r : Nat) : (leBytes 8 (x.reg (r + 1)).toNat).length = 8 := length_leBytes ..
  unfold Thr.save
  rw [List.append_assoc, areaNat_append_left (by rw [length_flatMap_const hlen, List.length_range]; omega),
    areaNat_flatMap hlen (by rw [List.length_range]; exact hr), List.getElem_range, leNat_leBytes]
  exact Nat.mod_eq_of_lt (x.reg (r + 1)).isLt

theorem Thr.save_pc (x : Thr) (t : Fin 1536) : areaNat (x.save t) 248 8 = (x.pc + (x.held.getD x.st).code * 2 ^ 16) % 256 ^ 8 := by
  have hlen (r : Nat) : (leBytes 8 (x.reg (r + 1)).toNat).length = 8 := length_leBytes ..
  exact areaNat_field (by rw [length_flatMap_const hlen, List.length_range]) 8 _ _

theorem Thr.save_tcr (x : Thr) (t : Fin 1536) {n : Nat} (hn : n < 8) : BitVec.ofNat 64 (areaNat (x.save t) (256 + 8 * n) 8) = x.tcr t (n + 2) := by
  have hlen (r : Nat) : (leBytes 8 (x.reg (r + 1)).toNat).length = 8 := length_leBytes ..
  have htcr (n : Nat) : (leBytes 8 (x.tcr t n).toNat).length = 8 := length_leBytes ..
  have hhead : ((List.range 31).flatMap (fun r => leBytes 8 (x.reg (r + 1)).toNat) ++ leBytes 8 (x.pc + (x.held.getD x.st).code * 2 ^ 16)).length = 256 := by
    rw [List.length_append, length_flatMap_const hlen, List.length_range, length_leBytes]
  have hget : ([2, 3, 4, 5, 6, 7, 8, 9] : List Nat)[n]'hn = n + 2 :=
    (show ∀ m : Fin 8, ([2, 3, 4, 5, 6, 7, 8, 9] : List Nat)[m.val]'m.isLt = m.val + 2 by decide) ⟨n, hn⟩
  unfold Thr.save
  rw [areaNat_append_right (by rw [hhead]; omega), hhead, Nat.add_sub_cancel_left, areaNat_flatMap htcr hn, hget, leNat_leBytes]
  exact (congrArg (BitVec.ofNat 64) (Nat.mod_eq_of_lt (x.tcr t (n + 2)).isLt)).trans ((BitVec.ofNat_toNat ..).trans (BitVec.setWidth_eq _))

theorem ThrState.code_lt (x : ThrState) : x.code < 8 := by
  cases x <;> decide

/-- The flags of STATUS in a record. -/
theorem status_bits (a b c d e f : Bool) :
    let w := BitVec.ofNat 64 (a.toNat + 2 * b.toNat + 4 * c.toNat + 8 * d.toNat + 16 * e.toNat + 32 * f.toNat)
    w.getLsbD 0 = a ∧ w.getLsbD 1 = b ∧ w.getLsbD 2 = c ∧ w.getLsbD 4 = e ∧ w.getLsbD 5 = f := by
  revert a b c d e f
  decide

theorem toNat_ofNat_of_lt {n : Nat} (h : n < 2 ^ 16) : (BitVec.ofNat 64 n).toNat = n :=
  (BitVec.toNat_ofNat ..).trans (Nat.mod_eq_of_lt (Nat.lt_of_lt_of_le h (by decide)))

/-- The trap vector and its valid bit in a record. -/
theorem tvec_bits {n : Nat} (h : n < 2 ^ 14) (b : Bool) :
    (BitVec.ofNat 64 (n + b.toNat * 2 ^ 14)).toNat % 2 ^ 14 = n ∧ (BitVec.ofNat 64 (n + b.toNat * 2 ^ 14)).getLsbD 14 = b := by
  have hb := b.toNat_le
  have hlt : n + b.toNat * 2 ^ 14 < 2 ^ 16 := by omega
  refine ⟨?_, ?_⟩
  · rw [toNat_ofNat_of_lt hlt]
    omega
  · rw [← BitVec.testBit_toNat, toNat_ofNat_of_lt hlt, Nat.testBit_eq_decide_div_mod_eq]
    cases b
    · exact decide_eq_false (by simp only [Bool.toNat_false]; omega)
    · exact decide_eq_true (by simp only [Bool.toNat_true]; omega)

/-- The registers that a load takes from an area. -/
theorem Thr.reg_load (y : Thr) (a : List Byte) {r : Nat} (hr : r < 31) :
    (y.load a).reg (r + 1) = BitVec.ofNat 64 (areaNat a (8 * r) 8) := by
  unfold Thr.load Thr.reg
  dsimp only
  rw [if_neg (by omega), get_foldl_set (fun r => BitVec.ofNat 64 (areaNat a (8 * r) 8)), if_pos (by omega)]
  rfl

/-- The thread control registers that a load takes from an area. -/
theorem Thr.load_tcr (y : Thr) {a : List Byte} {w : Nat → Word64} (hw : ∀ n, n < 8 → BitVec.ofNat 64 (areaNat a (256 + 8 * n) 8) = w n) :
    let z := y.load a
    z.ie = (w 0).getLsbD 0 ∧ z.pie = (w 0).getLsbD 1 ∧ z.intrap = (w 0).getLsbD 2 ∧ z.dovf = (w 0).getLsbD 4 ∧ z.dz = (w 0).getLsbD 5 ∧
      z.ien = (w 1).toNat % 8 ∧ z.ipend = (w 2).toNat % 8 ∧ z.epc = (w 3).toNat % 2 ^ 14 ∧ z.cause = (w 4).toNat % 2 ^ 16 ∧ z.taddr = w 5 ∧
      z.tvec = (w 6).toNat % 2 ^ 14 ∧ z.tvld = (w 6).getLsbD 14 ∧ z.scratch = w 7 := by
  rw [← hw 0 (by decide), ← hw 1 (by decide), ← hw 2 (by decide), ← hw 3 (by decide), ← hw 4 (by decide), ← hw 5 (by decide),
    ← hw 6 (by decide), ← hw 7 (by decide)]
  exact ⟨rfl, rfl, rfl, rfl, rfl, rfl, rfl, rfl, rfl, rfl, rfl, rfl, rfl⟩

theorem Thr.pc_load (y : Thr) (a : List Byte) : (y.load a).pc = fld (areaNat a 248 8) 0 14 := rfl

theorem Thr.pc_load_save (x y : Thr) (t : Fin 1536) (h : x.pc < 2 ^ 14) : (y.load (x.save t)).pc = x.pc := by
  have hcode := (x.held.getD x.st).code_lt
  rw [Thr.pc_load, Thr.save_pc]
  unfold fld
  omega

theorem Thr.reg_load_save (x y : Thr) (t : Fin 1536) {r : Nat} (hr : r < 32) : (y.load (x.save t)).reg r = x.reg r := by
  cases r with
  | zero => exact (if_pos rfl : (y.load (x.save t)).reg 0 = 0).trans (if_pos rfl : x.reg 0 = 0).symm
  | succ r =>
    have hr' : r < 31 := by omega
    rw [Thr.reg_load y _ hr', x.save_reg t hr', BitVec.ofNat_toNat, BitVec.setWidth_eq]

/-- Loading a thread's record gives back what was saved. -/
theorem Thr.load_save (x y : Thr) (t : Fin 1536) (hpc : x.pc < 2 ^ 14) (hepc : x.epc < 2 ^ 14) (htv : x.tvec < 2 ^ 14) (hcause : x.cause < 2 ^ 16)
    (hien : x.ien < 8) (hip : x.ipend < 8) : let z := y.load (x.save t)
    (∀ r, r < 32 → z.reg r = x.reg r) ∧ z.pc = x.pc ∧ z.epc = x.epc ∧ z.tvec = x.tvec ∧ z.tvld = x.tvld ∧ z.cause = x.cause ∧
    z.taddr = x.taddr ∧ z.ien = x.ien ∧ z.ipend = x.ipend ∧ z.scratch = x.scratch ∧ z.ie = x.ie ∧ z.pie = x.pie ∧
    z.intrap = x.intrap ∧ z.dovf = x.dovf ∧ z.dz = x.dz ∧ z.slice = y.slice ∧ z.tep = y.tep := by
  intro z
  obtain ⟨b0, b1, b2, b4, b5⟩ := status_bits x.ie x.pie x.intrap x.tep x.dovf x.dz
  obtain ⟨tv, tb⟩ := tvec_bits htv x.tvld
  obtain ⟨hie, hpie, hintrap, hdovf, hdz, hn, hp, he, hc, ha, hv, hvld, hs⟩ := y.load_tcr fun n hn => x.save_tcr t hn
  exact ⟨fun r hr => x.reg_load_save y t hr, x.pc_load_save y t hpc, he.trans ((congrArg (· % 2 ^ 14) (toNat_ofNat_of_lt (by omega))).trans
      (Nat.mod_eq_of_lt hepc)), hv.trans tv, hvld.trans tb,
    hc.trans ((congrArg (· % 2 ^ 16) (toNat_ofNat_of_lt hcause)).trans (Nat.mod_eq_of_lt hcause)), ha,
    hn.trans ((congrArg (· % 8) (toNat_ofNat_of_lt (by omega))).trans (Nat.mod_eq_of_lt hien)),
    hp.trans ((congrArg (· % 8) (toNat_ofNat_of_lt (by omega))).trans (Nat.mod_eq_of_lt hip)), hs, hie.trans b0, hpie.trans b1, hintrap.trans b2,
    hdovf.trans b4, hdz.trans b5, rfl, rfl⟩

end Sys2Proof.Machine

namespace Sys2Proof.Machine
variable {s t : State}

/-! ### What RESTORE finds in an area as SAVE writes it -/

theorem State.length_sliceThreads (s : State) (ep : Bool) (sl : Nat) : (s.sliceThreads ep sl).length < 2 ^ 32 :=
  Nat.lt_of_le_of_lt (List.length_filterMap_le ..) (by rw [List.length_range]; decide)

theorem State.areaNat_header (s : State) (sl : Nat) {off n : Nat} (h : off + n ≤ 64) : areaNat (withTrailer (s.saveBody sl)) off n =
    areaNat (saveHeader sl (fld (s.sliceDef s.epo.cur sl) 32 17) (s.sliceThreads s.epo.cur sl).length s.prg.progId
      (nsOf s.ns + secOf s.ns % 2 ^ 32 * 2 ^ 32)) off n := by
  have hlen : 64 ≤ (s.saveBody sl).length := by
    rw [State.saveBody_eq, List.length_append, length_saveHeader]
    omega
  rw [areaNat_withTrailer (by omega), State.saveBody_eq, areaNat_append_left (by rw [length_saveHeader]; exact h)]

/-- A queue's record stands where RESTORE looks for it. -/
theorem State.areaNat_queue (s : State) (sl : Nat) {i : Nat} (hi : i < fld (s.sliceDef s.epo.cur sl) 32 17) :
    areaNat (withTrailer (s.saveBody sl)) (64 + 32 * i) 32 = leNat (s.queueSave (fld (s.sliceDef s.epo.cur sl) 16 16 + i)) := by
  have hlen : (s.saveQueues sl).length = 32 * fld (s.sliceDef s.epo.cur sl) 32 17 :=
    (length_flatMap_const (fun _ => s.length_queueSave _) _).trans (by rw [List.length_range])
  have hpad : 32 * i + 32 ≤ (pad64 (s.saveQueues sl)).length := by
    rw [length_pad64, hlen]
    omega
  have hbody : 64 + 32 * i + 32 ≤ (s.saveBody sl).length := by
    rw [State.saveBody_eq, List.length_append, List.length_append, length_saveHeader]
    omega
  rw [areaNat_withTrailer hbody, State.saveBody_eq, areaNat_append_right (by rw [length_saveHeader]; omega), length_saveHeader,
    Nat.add_sub_cancel_left, areaNat_append_left hpad]
  unfold pad64
  rw [areaNat_append_left (by rw [hlen]; omega)]
  unfold State.saveQueues
  rw [areaNat_flatMap (fun _ => s.length_queueSave _) (by rw [List.length_range]; exact hi), List.getElem_range]

/-- The area of a SAVE passes the checks of a RESTORE. -/
theorem State.restoreErr_saved (s : State) (sl : Nat) (hc : ∀ q, (s.qdyn q).cause < 256) :
    s.restoreErr sl (withTrailer (s.saveBody sl)) = 0 := by
  have hqc : fld (s.sliceDef s.epo.cur sl) 32 17 < 2 ^ 32 := Nat.lt_of_lt_of_le (fld_lt ..) (by decide)
  have htc := s.length_sliceThreads s.epo.cur sl
  have hq : areaNat (withTrailer (s.saveBody sl)) 8 4 = fld (s.sliceDef s.epo.cur sl) 32 17 :=
    (s.areaNat_header sl (by decide)).trans (saveHeader_queues hqc ..)
  have ht : areaNat (withTrailer (s.saveBody sl)) 12 4 = (s.sliceThreads s.epo.cur sl).length :=
    (s.areaNat_header sl (by decide)).trans (saveHeader_threads htc ..)
  have hm : areaNat (withTrailer (s.saveBody sl)) 0 4 = 0x45434C53 := (s.areaNat_header sl (by decide)).trans (saveHeader_magic ..)
  have hv : areaNat (withTrailer (s.saveBody sl)) 4 2 = 1 := (s.areaNat_header sl (by decide)).trans (saveHeader_version ..)
  have hany : (List.range (fld (s.sliceDef s.epo.cur sl) 32 17)).any (fun i =>
      fld (areaNat (withTrailer (s.saveBody sl)) (64 + 32 * i) 32) 105 2 != fld (s.qdesc (fld (s.sliceDef s.epo.cur sl) 16 16 + i)) 132 2 ||
      fld (areaNat (withTrailer (s.saveBody sl)) (64 + 32 * i) 32) 107 5 != qLog (s.qdesc (fld (s.sliceDef s.epo.cur sl) 16 16 + i))) = false := by
    refine List.any_eq_false.2 fun i hi => ?_
    obtain ⟨-, -, -, -, -, -, h6, h7, -, -⟩ := s.queueSave_fields (fld (s.sliceDef s.epo.cur sl) 16 16 + i) (hc _)
    rw [s.areaNat_queue sl (List.mem_range.1 hi), h6, h7, bne_self_eq_false, bne_self_eq_false]
    decide
  unfold State.restoreErr
  dsimp only
  rw [hq, ht, hm, hv, ← s.length_saveBody, length_withTrailer, take_withTrailer, areaNat_withTrailer_crc, hany]
  simp

/-- Settles O52: an area as SAVE writes it passes the checks of RESTORE, and its records give back what was saved. -/
theorem savedAreaRestoresWhatItHolds : Obligations.SavedAreaRestoresWhatItHolds := by
  unfold Obligations.SavedAreaRestoresWhatItHolds
  exact ⟨fun s sl _ hc => s.restoreErr_saved sl hc,
    fun s q y hh ht hd hc hlo hhi => ⟨s.length_queueSave q, s.load_queueSave q y hh ht hd hc hlo hhi⟩,
    fun x y t hpc hepc htv hcause hien hip => ⟨x.length_save t, x.load_save y t hpc hepc htv hcause hien hip⟩⟩

end Sys2Proof.Machine

namespace Sys2Proof.Machine
variable {s t : State} {d : Nat}

/-! ### A power domain's record -/

theorem State.domain_setDomain_same (s : State) (d : Nat) (x : Dom) : (s.setDomain d x).domain d = x :=
  (s.domain_setDomain d d x).trans (if_pos rfl)

theorem State.domain_setDomain_other {e : Nat} (h : e ≠ d) (s : State) (x : Dom) : (s.setDomain d x).domain e = s.domain e :=
  (s.domain_setDomain d e x).trans (if_neg h)

theorem State.domain_of_dom (h : t.dom = s.dom) (e : Nat) : t.domain e = s.domain e := by
  unfold State.domain
  rw [h]

/-! ### Requests (R361, R363) -/

/-- The request for the domains `ds` to reach state `t` is ignored. -/
def State.pwrBarred (s : State) (ds : List Nat) (t : Nat) : Prop :=
  s.prim = .boot ∨ s.prim = .load ∨ s.prim = .test ∨ s.prim = .halt ∨ 5 ≤ t ∨ ds.contains 0 = true ∨ (ds.contains 1 = true ∧ 2 ≤ t)

theorem State.pwrRequest_barred {ds : List Nat} {n : Nat} (h : s.pwrBarred ds n) : s.pwrRequest ds n = s.pwrReject := if_pos h

theorem State.pwrRequest_run {n : Nat} (h : ¬s.pwrBarred [d] n) (hn : n = 0) : s.pwrRequest [d] n = s.wakeLevel d :=
  (if_neg h).trans (if_pos hn)

/-- A domain that is not steady takes the request into its slot. -/
theorem State.pwrRequest_pend {n : Nat} (h : ¬s.pwrBarred [d] n) (hn : n ≠ 0) (hp : (s.domain d).phase ≠ 0) :
    s.pwrRequest [d] n = s.setDomain d { s.domain d with pend := some n } := by
  have hb : [d].filter (fun d => (s.domain d).phase != 0) = [d] := List.filter_cons_of_pos (by simpa using hp)
  have hg : [d].filter (fun e => ((s.setDomain d { s.domain d with pend := some n }).domain e).phase == 0 &&
      ((s.setDomain d { s.domain d with pend := some n }).domain e).st != n) = [] :=
    List.filter_cons_of_neg (by rw [State.domain_setDomain_same]; simp [hp])
  refine (if_neg h).trans ((if_neg hn).trans ?_)
  dsimp only
  rw [hb]
  simp only [List.foldl_cons, List.foldl_nil, hg]
  exact if_neg fun hc => Bool.false_ne_true hc.2

/-- A steady domain in another state starts an entry. -/
theorem State.pwrRequest_start {n : Nat} (h : ¬s.pwrBarred [d] n) (hn : n ≠ 0) (hp : (s.domain d).phase = 0) (hs : (s.domain d).st ≠ n)
    (h1 : n = 1 → (s.domain d).st < 2) : s.pwrRequest [d] n = s.startEntry [d] n := by
  have hb : [d].filter (fun d => (s.domain d).phase != 0) = [] := List.filter_cons_of_neg (by simpa using hp)
  have hg : [d].filter (fun e => (s.domain e).phase == 0 && (s.domain e).st != n) = [d] := List.filter_cons_of_pos (by simp [hp, hs])
  refine (if_neg h).trans ((if_neg hn).trans ?_)
  dsimp only
  rw [hb]
  simp only [List.foldl_nil, hg]
  refine if_neg fun hc => ?_
  have := h1 hc.1
  have hd : s.domDown d = true := by simpa using hc.2
  unfold State.domDown at hd
  simp only [decide_eq_true_eq] at hd
  omega

theorem State.startEntry_idle (s : State) (d : Nat) : s.startEntry [d] 1 =
    s.setDomain d (({ s.domain d with target := 1, group := 0, abandon := false, imaged := false } : Dom).ask d s.tick) := rfl

theorem State.startEntry_refused {n r : Nat} (hn : n ≠ 1) (h : s.checkEntry (domQuad d) (2 ^ domBit d) = some r) :
    s.startEntry [d] n = s.refused d (fidUnit 0x184) r := by
  have h' : s.checkEntry (domQuad d) ([d].map (fun d => 2 ^ domBit d)).sum = some r := h
  unfold State.startEntry
  dsimp only
  rw [if_neg hn, h']
  rfl

/-- A domain enters with a power image when none of its quadrant is down. -/
theorem State.startEntry_imaged {n : Nat} (hn : n ≠ 1) (h : s.checkEntry (domQuad d) (2 ^ domBit d) = none) (hq : s.quadMask (domQuad d) = 0) :
    s.startEntry [d] n =
      (s.setDomain d { s.domain d with phase := 2, target := n, group := 2 ^ domBit d, abandon := false, imaged := false, low := 0 }).wantImage
        { key := 5 * 4096 + 16 * domQuad d + 2 ^ domBit d, sort := 1, dom := some d } := by
  have h' : s.checkEntry (domQuad d) ([d].map (fun d => 2 ^ domBit d)).sum = none := h
  unfold State.startEntry
  dsimp only
  rw [if_neg hn, h', hq]
  rfl

theorem State.not_pwrBarred {n : Nat} (h : ¬(s.prim = .boot ∨ s.prim = .load ∨ s.prim = .test ∨ s.prim = .halt)) (hn : n < 5) (h0 : 1 ≤ d)
    (h1 : d = 1 → n < 2) : ¬s.pwrBarred [d] n := by
  rintro (hb | hb | hb | hb | hb | hb | ⟨hb, h2⟩)
  · exact h (.inl hb)
  · exact h (.inr (.inl hb))
  · exact h (.inr (.inr (.inl hb)))
  · exact h (.inr (.inr (.inr hb)))
  · omega
  · have : 0 = d := by simpa using hb
    omega
  · have : 1 = d := by simpa using hb
    have := h1 this.symm
    omega

/-- What CHECK has found when it lets an entry go on (R362). -/
theorem State.checkEntry_none {q new : Nat} (h : s.checkEntry q new = none) :
    (bitOf (s.quadMask q ||| new) 0 = true → s.quadMask q ||| new = 15) ∧ (s.quadMask q ≠ 0 → s.quadMask q ||| new = s.quadMask q) ∧
      s.fallback = false ∧ ∀ p, p < 4 → p ≠ q → s.quadMask p = 0 := by
  unfold State.checkEntry at h
  dsimp only at h
  split at h
  case isTrue => cases h
  case isFalse h2 =>
    split at h
    case isTrue => cases h
    case isFalse h1 =>
      split at h
      case isTrue => cases h
      case isFalse ha =>
        split at h
        case isTrue => cases h
        case isFalse hf =>
          refine ⟨fun hb => Classical.byContradiction fun hne => h2 ⟨hb, hne⟩, fun hm => Classical.byContradiction fun hne => h1 ⟨hm, hne⟩, Bool.eq_false_iff.2 hf,
            fun p hp hpq => Classical.byContradiction fun hne => ha (List.any_eq_true.2 ⟨p, List.mem_range.2 hp, ?_⟩)⟩
          simp [hpq, hne]

theorem maskDoms_isEmpty (q : Nat) {m : Nat} (h : m < 16) (h0 : m ≠ 0) : (maskDoms q m).isEmpty = false := by
  unfold maskDoms
  rw [List.isEmpty_map]
  exact (show ∀ m : Fin 16, m.val ≠ 0 → ((List.range 4).filter (bitOf m.val)).isEmpty = false by decide) ⟨m, h⟩ h0

end Sys2Proof.Machine

namespace Sys2Proof.Machine
variable {s t : State} {d : Nat}

/-! ### The end of a sequence, and a domain that enters alone (R363 to R368) -/

theorem State.endSeq_idle (h : (s.domain d).pend = none) : s.endSeq d = s := by
  unfold State.endSeq
  rw [h]

theorem State.groupDoms_alone (hf : (s.domain d).fabric = false) (hg : (s.domain d).group = 0) : s.groupDoms d = [d] := by
  unfold State.groupDoms
  dsimp only
  rw [hf, if_neg (by decide), if_neg fun h => h.2 hg]

theorem State.readyCommit_alone (hf : (s.domain d).fabric = false) (hg : (s.domain d).group = 0) :
    s.readyCommit d = (s.setDomain d { s.domain d with phase := 6 }).commitOne d := by
  have hx := s.domain_setDomain_same d { s.domain d with phase := 6 }
  have hds : (s.setDomain d { s.domain d with phase := 6 }).groupDoms d = [d] := State.groupDoms_alone (by rw [hx]; exact hf) (by rw [hx]; exact hg)
  unfold State.readyCommit
  simp only [hds, List.all_cons, List.all_nil, List.filter_cons, List.filter_nil, hx]
  by_cases h1 : d = 1 <;> simp [h1]

/-- The record of a domain that commits to Idle from Run. -/
def Dom.idled (x : Dom) (now : Nat) : Dom :=
  { x with
    st := 1
    phase := 0
    clamped := false
    commit := some now
    edge := match x.edge with | some t => if now ≤ t + 32 then none else some t | none => none
    low := max x.low x.target
    tries := 0
    polling := false
    at_ := now }

/-- A domain that goes to Idle commits without clamps and without a voltage step. -/
theorem State.commitOne_idle (ht : (s.domain d).target = 1) (hst : (s.domain d).st = 0) (hp : (s.domain d).pend = none) :
    s.commitOne d = s.setDomain d ((s.domain d).idled s.tick) := by
  have e : s.commitOne d = (s.setDomain d ((s.domain d).idled s.tick)).endSeq d := by
    unfold State.commitOne Dom.idled
    simp [ht, hst] <;> rfl
  rw [e]
  exact State.endSeq_idle (by rw [State.domain_setDomain_same]; exact hp)

/-- What the records of the domains leave alone. -/
def State.domReset (s t : State) : State := { t with dom := s.dom }

theorem State.domReset_setDomain (s t : State) (d : Nat) (x : Dom) : s.domReset (t.setDomain d x) = s.domReset t := rfl

theorem State.domReset_domReset (s u t : State) : s.domReset (u.domReset t) = s.domReset t := rfl

/-- A lone domain that is ready to go to Idle goes there. -/
theorem State.readyCommit_idle (ht : (s.domain d).target = 1) (hst : (s.domain d).st = 0) (hg : (s.domain d).group = 0)
    (hf : (s.domain d).fabric = false) (hp : (s.domain d).pend = none) : ∃ x : Dom, ((s.readyCommit d).domain d = x.idled s.tick) ∧
      s.domReset (s.readyCommit d) = s := by
  have hy := s.domain_setDomain_same d { s.domain d with phase := 6 }
  rw [State.readyCommit_alone hf hg, State.commitOne_idle (by rw [hy]; exact ht) (by rw [hy]; exact hst) (by rw [hy]; exact hp)]
  refine ⟨(s.setDomain d { s.domain d with phase := 6 }).domain d, ?_, ?_⟩
  · rw [State.domain_setDomain_same]
    rfl
  · rw [State.domReset_setDomain, State.domReset_setDomain]
    rfl

/-- The handshake of a lone entry to Idle has ended. -/
theorem State.askDone_idle (hph : (s.domain d).phase = 4) (ha : (s.domain d).asking = []) (hd : (s.domain d).defers = [])
    (hab : (s.domain d).abandon = false) (ht : (s.domain d).target = 1) (hst : (s.domain d).st = 0) (hg : (s.domain d).group = 0)
    (hf : (s.domain d).fabric = false) (hp : (s.domain d).pend = none) : ∃ t, s.askDone d = t ∧ (t.domain d).st = 1 ∧ (t.domain d).phase = 0 ∧
      (t.domain d).clamped = false ∧ { t with dom := s.dom } = s := by
  let y : Dom := { s.domain d with phase := 5, retn := s.rf .PWR_DOMd_CFG 0 1 (domBase d), at_ := s.tick }
  have hx : (s.setDomain d y).domain d = y := s.domain_setDomain_same d y
  have e : s.askDone d = (s.setDomain d y).readyCommit d := by
    unfold State.askDone
    dsimp only
    rw [if_neg (by simp [hph, ha, hd]), if_neg (by simp [hab]), if_neg (by simp [ht])]
  obtain ⟨x, hdom, hrest⟩ := State.readyCommit_idle (s := s.setDomain d y) (d := d) (by rw [hx]; exact ht) (by rw [hx]; exact hst)
    (by rw [hx]; exact hg) (by rw [hx]; exact hf) (by rw [hx]; exact hp)
  have hs : s.domReset ((s.setDomain d y).readyCommit d) = s := by
    rw [← State.domReset_domReset s (s.setDomain d y), hrest, State.domReset_setDomain]
    rfl
  exact ⟨_, e, congrArg Dom.st hdom, congrArg Dom.phase hdom, congrArg Dom.clamped hdom, hs⟩

/-! ### Refusals (R367) -/

theorem State.refused_dom (s : State) (d : Nat) (u : UnitRef) (r : Nat) : (s.refused d u r).dom = s.dom :=
  (State.setReg_dom ..).trans (State.bump_dom ..)

theorem State.refused_fields (s : State) {u : UnitRef} {r : Nat} (hu : u.id < 1024) (hr : r < 16) : let t := s.refused d u r
    t.rf .PWR_DOMd_LASTREF 0 10 (domBase d) = u.id ∧ t.rf .PWR_DOMd_LASTREF 11 4 (domBase d) = r ∧
    t.reg .PWR_DOMd_REFUSE_CNT (domBase d) = min (s.reg .PWR_DOMd_REFUSE_CNT (domBase d) + 1) 0xFFFFFFFF := by
  intro t
  have hn := u.node.toNat_le
  have hreg : t.reg .PWR_DOMd_LASTREF (domBase d) = u.id + u.node.toNat * 2 ^ 10 + r * 2 ^ 11 + 2 ^ 31 :=
    (State.reg_setReg_same ..).trans (Nat.mod_eq_of_lt (by omega))
  unfold State.rf fld
  rw [hreg]
  refine ⟨by omega, by omega, ?_⟩
  exact (State.reg_setReg_other _ _ _ _ _ _ _ _ (by simp only [Reg.off, Reg.spec]; omega)).trans (State.reg_bump_same s .PWR_DOMd_REFUSE_CNT (domBase d) 0 1)

/-- A lone entry without an image is abandoned at once. -/
theorem State.abandonEntry_alone (hph : (s.domain d).phase = 4) (hg : (s.domain d).group = 0) (hf : (s.domain d).fabric = false)
    (hi : (s.domain d).imaged = false) (hp : (s.domain d).pend = none) : s.abandonEntry d = s.setDomain d ((s.domain d).abandoned false) := by
  have hds : (s.groupDoms d).filter (fun g => 1 ≤ (s.domain g).phase && (s.domain g).phase ≤ 6) = [d] := by
    rw [State.groupDoms_alone hf hg]
    exact List.filter_cons_of_pos (by rw [hph]; decide)
  have hany : [d].any (fun g => (s.domain g).imaged && decide ((s.domain g).st < 2)) = false := by simp [hi]
  have hpend : ((s.setDomain d ((s.domain d).abandoned false)).domain d).pend = none := by
    rw [State.domain_setDomain_same]
    unfold Dom.abandoned
    dsimp only
    split <;> exact hp
  unfold State.abandonEntry
  simp only [hds, hany]
  exact State.endSeq_idle hpend

end Sys2Proof.Machine

namespace Sys2Proof.Machine
variable {s t : State}

/-! ### The handshake with the units (R366) -/

section
variable {d : Fin 18} {u : UnitRef} (hu : unitExists u = true)
include hu

theorem exec_powerAnswer_unasked (h : (s.domain d).phase ≠ 4 ∨ (s.domain d).asking.contains (unitKey u) = false) :
    exec (.powerAnswer d u) s = .next s ∧ exec (.noanswerTimeout d u) s = .next s := by
  have h' : (s.domain d).phase ≠ 4 ∨ ¬(s.domain d).asking.contains (unitKey u) = true := h.imp_right (by simp)
  change execPowerAnswer d u s = _ ∧ execNoanswerTimeout d u s = _
  unfold execPowerAnswer execNoanswerTimeout
  dsimp only
  rw [hu]
  exact ⟨(if_neg (by decide)).trans (if_pos h'), (if_neg (by decide)).trans (if_pos (h'.imp_right .inl))⟩

section
variable (hp : (s.domain d).phase = 4) (hk : (s.domain d).asking.contains (unitKey u) = true)
include hp hk

/-- A unit that is asked answers by what it holds. -/
theorem exec_powerAnswer : exec (.powerAnswer d u) s =
    match s.refusal d u with
    | some r => .next ((s.refuseEntry d u r).pump)
    | none =>
      if s.unitBusy d u then
        if s.rf .PWR_DEFER 8 8 < (SMap.get (0, 0) (s.domain d).defers (unitKey u)).2 + 1 then .next ((s.refuseEntry d u 7).pump)
        else .next (s.setDomain d { s.domain d with
          asking := (s.domain d).asking.filter (· != unitKey u)
          defers := SMap.set (0, 0) (s.domain d).defers (unitKey u) (s.tick, (SMap.get (0, 0) (s.domain d).defers (unitKey u)).2 + 1) })
      else .next (((s.setDomain d { s.domain d with
        asking := (s.domain d).asking.filter (· != unitKey u), defers := SMap.del (s.domain d).defers (unitKey u) }).askDone d).pump) := by
  change execPowerAnswer d u s = _
  unfold execPowerAnswer
  dsimp only
  rw [hu, if_neg (by decide), if_neg (by simp only [hp, hk]; decide)] <;> rfl

/-- A unit that has not answered for 16 CCLK refuses by that. -/
theorem exec_noanswerTimeout (hn : (SMap.get (0, 0) (s.domain d).defers (unitKey u)).2 = 0) : exec (.noanswerTimeout d u) s =
    if s.tick < (s.domain d).at_ + 128 then .next s else .next (((s.raisePower d 14 1 u).refuseEntry d u 8).pump) := by
  have hiff : ((s.domain d).phase ≠ 4 ∨ ¬(s.domain d).asking.contains (unitKey u) = true ∨ s.tick < (s.domain d).at_ + 128) ↔
      s.tick < (s.domain d).at_ + 128 := by
    rw [hp, hk]
    simp
  change execNoanswerTimeout d u s = _
  unfold execNoanswerTimeout
  simp only [hu, hn, if_true, hiff]
  rfl

end

/-- A unit that deferred is asked again. -/
theorem exec_deferReask (hp : (s.domain d).phase = 4) (hk : (s.domain d).asking.contains (unitKey u) = false)
    (hn : (SMap.get (0, 0) (s.domain d).defers (unitKey u)).2 ≠ 0)
    (ht : (SMap.get (0, 0) (s.domain d).defers (unitKey u)).1 + 8 * max 1 (s.rf .PWR_DEFER 0 8) ≤ s.tick) :
    ∃ t, exec (.deferReask d u) s = .next t ∧ (t.domain d).asking = (s.domain d).asking ++ [unitKey u] ∧
      SMap.get (0, 0) (t.domain d).defers (unitKey u) = (s.tick, (SMap.get (0, 0) (s.domain d).defers (unitKey u)).2) ∧
      { t with dom := s.dom } = s := by
  let y : Dom := { s.domain d with
    asking := (s.domain d).asking ++ [unitKey u]
    defers := SMap.set (0, 0) (s.domain d).defers (unitKey u) (s.tick, (SMap.get (0, 0) (s.domain d).defers (unitKey u)).2) }
  have hy : (s.setDomain d y).domain d = y := s.domain_setDomain_same d y
  refine ⟨s.setDomain d y, ?_, congrArg Dom.asking hy, ?_, rfl⟩
  · change execDeferReask d u s = _
    unfold execDeferReask
    dsimp only
    rw [hu, if_neg (by decide), if_neg (by simp only [hp, hk, hn]; simp; omega)]
  · rw [hy]
    exact (SMap.get_set ..).trans (if_pos rfl)

theorem exec_deferReask_early (h : (SMap.get (0, 0) (s.domain d).defers (unitKey u)).2 = 0 ∨
    s.tick < (SMap.get (0, 0) (s.domain d).defers (unitKey u)).1 + 8 * max 1 (s.rf .PWR_DEFER 0 8)) :
    exec (.deferReask d u) s = .next s := by
  change execDeferReask d u s = _
  unfold execDeferReask
  dsimp only
  rw [hu, if_neg (by decide), if_pos (.inr (.inr h))]

end

/-! ### The save at entry (R377, R378) -/

/-- An area's slot is bad: the save failed, or its accesses were not allowed. -/
def State.saveBad (s : State) (d : Nat) (status : BitVec 8) : Prop := (s.domain d).target = 4 ∧ (status ≠ 0 ∨ (s.slotOk d 0x13).1 = false)

/-- The state in which the save ends: after the check of the slot when the target is Off. -/
def State.saveEnd (s : State) (d : Nat) : State := if (s.domain d).target = 4 then (s.slotOk d 0x13).2 else s

theorem exec_entrySaveDone {d : Fin 18} (hp : (s.domain d).phase = 5) (status : BitVec 8) [Decidable (s.saveBad d status)] :
    exec (.entrySaveDone d status) s =
    if s.saveBad d status then
      if 2 ≤ (s.domain d).st then
        .next ((((s.slotOk d 0x13).2.refused d (fidUnit 0x184) 9).setDomain d { s.domain d with phase := 0, abandon := false }).endSeq d)
      else .next (((s.slotOk d 0x13).2.refuseEntry d (fidUnit 0x184) 9).pump)
    else if (s.domain d).abandon then
      if 2 ≤ (s.domain d).st then .next ((s.saveEnd d).setDomain d { s.domain d with phase := 0, abandon := false, wake := true })
      else .next (((s.saveEnd d).abandonEntry d).pump)
    else .next (((if (s.domain d).target = 3 ∧ 2 ≤ d.val ∧ domBit d = 3 then (s.saveEnd d).saveSigs d else s.saveEnd d).readyCommit d).pump) := by
  change execEntrySaveDone d status s = _
  unfold execEntrySaveDone State.saveBad State.saveEnd
  dsimp only
  rw [if_neg (by simp [hp])]
  by_cases ht : (s.domain d).target = 4
  · simp [ht]
  · simp [ht]

end Sys2Proof.Machine

namespace Sys2Proof.Machine
variable {s t : State}

/-! ### Power entries ask their units (R361 to R363, R365 to R367) -/

theorem exec_pwrDomReq {d : Fin 18} {n : BitVec 3} {t : State} (h : s.pwrRequest [d.val] n.toNat = t) : exec (.pwrDomReq d n) s = .next t.pump :=
  congrArg (fun u : State => Host.Outcome.next u.pump) h

theorem exec_pwrQreqGo (s : State) (n : Fin 4) : let v := s.reg .PWR_QREQn 0 n
    (fld v 0 4 = 0 → exec (.pwrQreqGo n) s = .next s) ∧
    (fld v 0 4 ≠ 0 → exec (.pwrQreqGo n) s = .next (s.pwrRequest (maskDoms n (fld v 0 4)) (fld v 4 3)).pump) := by
  intro v
  refine ⟨fun h0 => congrArg Host.Outcome.next (if_pos ?_), fun h0 => congrArg Host.Outcome.next (if_neg ?_)⟩
  · change (maskDoms n (fld v 0 4)).isEmpty = true
    rw [h0]
    rfl
  · change ¬(maskDoms n (fld v 0 4)).isEmpty = true
    rw [maskDoms_isEmpty n.val (fld_lt ..) h0]
    decide

theorem exec_idleTimeout_due {d : Fin 18} (hd : d.val ≠ 0) (hp : s.prim = .run) (ha : s.rf .PWR_DOMd_CFG 8 16 (domBase d) ≠ 0)
    (hst : (s.domain d).st = 0) (hph : (s.domain d).phase = 0)
    (ht : (s.domain d).idleAt + 64 * s.rf .PWR_DOMd_CFG 8 16 (domBase d) ≤ s.tick) (hb : s.domainBusy d = false) :
    exec (.idleTimeout d) s =
      .next (s.setDomain d (({ s.domain d with target := 1, group := 0, abandon := false, imaged := false } : Dom).ask d s.tick)) := by
  have hreq : s.pwrRequest [d.val] 1 = s.startEntry [d.val] 1 :=
    State.pwrRequest_start (State.not_pwrBarred (by simp [hp]) (by decide) (by omega) fun _ => by decide) (by decide) hph (by omega) fun _ => by omega
  refine (if_neg ?_).trans (congrArg Host.Outcome.next (hreq.trans (s.startEntry_idle d)))
  rw [hp, hst, hph, hb]
  simp only [not_or]
  exact ⟨hd, by decide, ha, by decide, by decide, by omega, by decide⟩

theorem exec_idleTimeout_early {d : Fin 18} (h : s.rf .PWR_DOMd_CFG 8 16 (domBase d) = 0 ∨ (s.domain d).st ≠ 0 ∨ (s.domain d).phase ≠ 0 ∨
    s.tick < (s.domain d).idleAt + 64 * s.rf .PWR_DOMd_CFG 8 16 (domBase d) ∨ s.domainBusy d = true) : exec (.idleTimeout d) s = .next s :=
  if_pos (.inr (.inr h))

/-- Requests for one domain. -/
theorem pwrDomReq_clauses (s : State) (d : Fin 18) (t : BitVec 3) : let x := s.domain d
    let off : Prop := s.prim = .boot ∨ s.prim = .load ∨ s.prim = .test ∨ s.prim = .halt
    let q := domQuad d
    let new := 2 ^ domBit d
    (off ∨ d.val = 0 ∨ 5 ≤ t.toNat ∨ (d.val = 1 ∧ 2 ≤ t.toNat) → exec (.pwrDomReq d t) s = .next s.pwrReject.pump) ∧
    (¬off → 1 ≤ d.val → x.phase = 0 → x.st = 0 → exec (.pwrDomReq d 1) s =
      .next (s.setDomain d (({ x with target := 1, group := 0, abandon := false, imaged := false } : Dom).ask d s.tick)).pump) ∧
    (¬off → 1 ≤ d.val → d.val = 1 → t = 1 → x.phase ≠ 0 →
      exec (.pwrDomReq d t) s = .next (s.setDomain d { x with pend := some t.toNat }).pump) ∧
    (¬off → 2 ≤ d.val → 1 ≤ t.toNat → t.toNat < 5 → x.phase ≠ 0 →
      exec (.pwrDomReq d t) s = .next (s.setDomain d { x with pend := some t.toNat }).pump) ∧
    (¬off → 2 ≤ d.val → 2 ≤ t.toNat → t.toNat < 5 → x.phase = 0 → x.st ≠ t.toNat → ∀ r, s.checkEntry q new = some r →
      exec (.pwrDomReq d t) s = .next (s.refused d (fidUnit 0x184) r).pump) ∧
    (¬off → 2 ≤ d.val → 2 ≤ t.toNat → t.toNat < 5 → x.phase = 0 → x.st < 2 → s.checkEntry q new = none → s.quadMask q = 0 →
      exec (.pwrDomReq d t) s = .next ((s.setDomain d { x with phase := 2, target := t.toNat, group := new, abandon := false,
                                                               imaged := false, low := 0 }).wantImage
        { key := 5 * 4096 + 16 * q + new, sort := 1, dom := some d.val }).pump) ∧
    (¬off → 1 ≤ d.val → exec (.pwrDomReq d 0) s = .next (s.wakeLevel d).pump) := by
  intro x off q new
  refine ⟨fun h => exec_pwrDomReq (State.pwrRequest_barred ?_), fun ho h1 hp hs => exec_pwrDomReq ?_, fun ho h1 hd ht hp => exec_pwrDomReq ?_,
    fun ho h2 ht1 ht5 hp => exec_pwrDomReq ?_, fun ho h2 ht2 ht5 hp hs r hr => exec_pwrDomReq ?_,
    fun ho h2 ht2 ht5 hp hs hc hq => exec_pwrDomReq ?_, fun ho h1 => exec_pwrDomReq ?_⟩
  · rcases h with (h | h | h | h) | h | h | ⟨h, h2⟩
    · exact .inl h
    · exact .inr (.inl h)
    · exact .inr (.inr (.inl h))
    · exact .inr (.inr (.inr (.inl h)))
    · exact .inr (.inr (.inr (.inr (.inr (.inl (by simp [h]))))))
    · exact .inr (.inr (.inr (.inr (.inl h))))
    · exact .inr (.inr (.inr (.inr (.inr (.inr ⟨by simp [h], h2⟩)))))
  · exact (State.pwrRequest_start (State.not_pwrBarred ho (by decide) h1 fun _ => by decide) (by decide) hp (by rw [hs]; decide)
      fun _ => by rw [hs]; decide).trans (s.startEntry_idle d)
  · subst ht
    exact State.pwrRequest_pend (State.not_pwrBarred ho (by decide) h1 fun _ => by decide) (by decide) hp
  · exact State.pwrRequest_pend (State.not_pwrBarred ho ht5 (by omega) fun h => by omega) (by omega) hp
  · exact (State.pwrRequest_start (State.not_pwrBarred ho ht5 (by omega) fun h => by omega) (by omega) hp hs fun h => by omega).trans
      (State.startEntry_refused (by omega) hr)
  · exact (State.pwrRequest_start (State.not_pwrBarred ho ht5 (by omega) fun h => by omega) (by omega) hp (Nat.ne_of_lt (Nat.lt_of_lt_of_le hs ht2)) fun h => by omega).trans
      (State.startEntry_imaged (by omega) hc hq)
  · exact State.pwrRequest_run (State.not_pwrBarred ho (by decide) h1 fun _ => by decide) rfl

/-- A refusal of an entry that runs alone and has no image yet. -/
theorem State.refuseEntry_alone {d : Nat} (hp : (s.domain d).phase = 4) (hg : (s.domain d).group = 0) (hf : (s.domain d).fabric = false)
    (hi : (s.domain d).imaged = false) (hpend : (s.domain d).pend = none) (u : UnitRef) (r : Nat) : ∃ y, s.refuseEntry d u r = y ∧
      (y.domain d).phase = 0 ∧ (y.domain d).st = (if 2 ≤ (s.domain d).st then (s.domain d).st else 0) ∧
      (∀ e, e ≠ d → y.domain e = s.domain e) := by
  have hd (e : Nat) : (s.refused d u r).domain e = s.domain e := State.domain_of_dom (State.refused_dom ..) e
  have e := State.abandonEntry_alone (s := s.refused d u r) (d := d) (by rw [hd]; exact hp) (by rw [hd]; exact hg) (by rw [hd]; exact hf)
    (by rw [hd]; exact hi) (by rw [hd]; exact hpend)
  refine ⟨_, e, ?_, ?_, fun f hne => (State.domain_setDomain_other hne _ _).trans (hd f)⟩
  · rw [State.domain_setDomain_same]
    unfold Dom.abandoned
    dsimp only
    split <;> rfl
  · rw [State.domain_setDomain_same, hd]
    unfold Dom.abandoned
    dsimp only
    split <;> rfl

/-- Settles O56: power requests, their checks, the handshake and the save at entry. A target of 5 to 7 is ignored (log 79); an
abandoned move between sleeps stays in its state (logs 79, 80); the slot that is checked is the whole one (log 102). -/
theorem powerEntriesAskTheirUnits : Obligations.PowerEntriesAskTheirUnits := by
  unfold Obligations.PowerEntriesAskTheirUnits
  refine ⟨pwrDomReq_clauses, fun s q new h => State.checkEntry_none h, exec_pwrQreqGo,
    fun s d => ⟨exec_idleTimeout_due, exec_idleTimeout_early⟩,
    fun s d u hu => ⟨exec_powerAnswer_unasked hu, fun hp hk => ⟨fun r hr => ?_, fun hr hb hn => ?_, fun hr hb hn => ?_, fun hr hb => ?_⟩,
      exec_deferReask hu, exec_deferReask_early hu, fun hp hk hn => ⟨fun ht => ?_, fun ht => ?_⟩⟩,
    fun s d hph ha hd hab ht hst hg hf hp => State.askDone_idle hph ha hd hab ht hst hg hf hp,
    fun s d u r hu hr => ?_, fun s d status => ?_⟩
  case refine_1 => rw [exec_powerAnswer hu hp hk, hr]
  case refine_2 => rw [exec_powerAnswer hu hp hk, hr]; dsimp only; rw [if_pos hb, if_pos (by omega)]
  case refine_3 => rw [exec_powerAnswer hu hp hk, hr]; dsimp only; rw [if_pos hb, if_neg (by omega)]
  case refine_4 => rw [exec_powerAnswer hu hp hk, hr]; dsimp only; rw [if_neg (by rw [hb]; decide)]
  case refine_5 => rw [exec_noanswerTimeout hu hp hk hn, if_neg (by omega)]
  case refine_6 => rw [exec_noanswerTimeout hu hp hk hn, if_pos ht]
  case refine_7 =>
    obtain ⟨h0, h11, hcnt⟩ := State.refused_fields (d := d) s hu hr
    exact ⟨h0, h11, hcnt, fun hp hg hf hi hpend => State.refuseEntry_alone hp hg hf hi hpend u r⟩
  case refine_8 =>
    classical
    refine ⟨fun h => if_pos h, fun hp hb hst => ?_, fun hp hb hst => ?_, fun hp hb ha hst => ?_, fun hp hb ha hst => ?_, fun hp hb ha ht => ?_,
      fun hp ha ht h2 h3 => ?_⟩
    · exact (exec_entrySaveDone hp status).trans ((if_pos hb).trans (if_neg (by omega)))
    · exact (exec_entrySaveDone hp status).trans ((if_pos hb).trans (if_pos hst))
    · exact (exec_entrySaveDone hp status).trans ((if_neg hb).trans ((if_pos ha).trans (if_neg (by omega))))
    · exact (exec_entrySaveDone hp status).trans ((if_neg hb).trans ((if_pos ha).trans (if_pos hst)))
    · refine (exec_entrySaveDone hp status).trans ((if_neg hb).trans ((if_neg (by rw [ha]; decide)).trans ?_))
      rw [if_neg fun hc => by omega]
      rfl
    · have hb : ¬s.saveBad d status := fun hb => absurd (hb.1.symm.trans ht) (by decide)
      have he : s.saveEnd d = s := if_neg (by rw [ht]; decide)
      refine (exec_entrySaveDone hp status).trans ((if_neg hb).trans ((if_neg (by rw [ha]; decide)).trans ?_))
      rw [if_pos ⟨ht, h2, h3⟩, he]

end Sys2Proof.Machine

namespace Sys2Proof.Machine
variable {s t : State}

/-! ### Voltage steps (R383) -/

section
variable {d : Fin 18}

theorem exec_vdone_idle (h : (s.domain d).polling = false) : exec (.vdone d) s = .next s := if_pos (by rw [h]; decide)

theorem exec_vdone_entry (h : (s.domain d).polling = true) (hp : (s.domain d).phase = 7) (hn : (s.domain d).pend = none) :
    exec (.vdone d) s = .next (s.setDomain d { s.domain d with st := (s.domain d).target, phase := 0, polling := false }) := by
  have he := State.endSeq_idle (s := s.setDomain d { s.domain d with st := (s.domain d).target, phase := 0, polling := false }) (d := d)
    (by rw [State.domain_setDomain_same]; exact hn)
  exact (if_neg (by rw [h]; decide)).trans ((if_pos hp).trans (congrArg Host.Outcome.next he))

theorem exec_vdone_wake (h : (s.domain d).polling = true) (hp : (s.domain d).phase ≠ 7) :
    exec (.vdone d) s = .next (s.setDomain d { s.domain d with phase := 9, polling := false }) :=
  (if_neg (by rw [h]; decide)).trans (if_neg hp)

/-- The answer to a voltage write. -/
theorem exec_avsVoltageWriteDone (hp : (s.domain d).phase = 7 ∨ (s.domain d).phase = 8) (h : (s.domain d).polling = false) (ok : Bool)
    (ack : BitVec 2) : exec (.avsVoltageWriteDone d ok ack) s =
    if ok = true ∧ ack = 0 then .next (s.setDomain d { s.domain d with polling := true, at_ := s.tick, pollAt := s.tick })
    else if (s.domain d).tries < 3 then .next (s.setDomain d { s.domain d with tries := (s.domain d).tries + 1 })
    else .next (s.avsFail d ack.toNat false) := by
  refine if_neg ?_
  rw [h]
  rintro (⟨h7, h8⟩ | hf)
  · exact hp.elim h7 h8
  · exact Bool.false_ne_true hf

theorem exec_avsVoltageWriteDone_idle (h : ((s.domain d).phase ≠ 7 ∧ (s.domain d).phase ≠ 8) ∨ (s.domain d).polling = true) (ok : Bool)
    (ack : BitVec 2) : exec (.avsVoltageWriteDone d ok ack) s = .next s := if_pos h

/-- A Status read while the voltage changes. -/
theorem exec_avsStatusPoll_step (hd : d.val ≠ 0) (h : (s.domain d).polling = true) (alert : Bool) : exec (.avsStatusPoll d alert) s =
    if (s.domain d).at_ + 3000 * max 1 (s.rf .PWR_AVS 0 16) ≤ s.tick then .next (s.avsFail d 0 true)
    else if (s.domain d).pollAt + 12000 ≤ s.tick then .next (s.setDomain d { s.domain d with pollAt := s.tick })
    else .next s := (if_neg hd).trans (if_pos h)

/-- A Status read of a running domain's rail. -/
theorem exec_avsStatusPoll_run (hd : d.val ≠ 0) (h : (s.domain d).polling = false) (hs : (s.domain d).st = 0) (hp : (s.domain d).phase = 0)
    (hm : s.rf .PWR_AVS 16 8 ≠ 0) (ht : (s.domain d).pollAt + 3000000 * s.rf .PWR_AVS 16 8 ≤ s.tick) (alert : Bool) :
    exec (.avsStatusPoll d alert) s = .next (if alert then (s.setDomain d { s.domain d with pollAt := s.tick }).raisePower d 14 3
      else s.setDomain d { s.domain d with pollAt := s.tick }) := by
  have hu : usTicks (1000 * s.rf .PWR_AVS 16 8) = 3000000 * s.rf .PWR_AVS 16 8 := by
    unfold usTicks
    omega
  refine (if_neg hd).trans ((if_neg (by rw [h]; decide)).trans (if_neg ?_))
  rw [hs, hp, hu]
  omega

end

/-- The registers of a failed voltage step, before its capture and its record. -/
def State.avsNoted (s : State) (d : Nat) : State := (s.raisePower d 14 1).setRf .PWR_DOMd_STATUS 13 1 1 (domBase d)

/-- The word that a failed voltage step captures. -/
def State.avsWord (s : State) (d ack : Nat) (tmo : Bool) : Nat :=
  (s.avsNoted d).rf .PWR_DOMd_CFG 4 4 (domBase d) + ack * 2 ^ 4 + tmo.toNat * 2 ^ 6 + 2 ^ 31

/-- The state of the controller once the failure has been noted, before the domain's record changes. -/
def State.avsCaught (s : State) (d ack : Nat) (tmo : Bool) : State :=
  (s.avsNoted d).latchWords .PWR_AVS_CAP [(.PWR_AVS_CAP, s.avsWord d ack tmo)]

/-- A failed voltage step of a domain without a pending request. -/
theorem State.avsFail_eq {d : Nat} (h : (s.domain d).pend = none) (ack : Nat) (tmo : Bool) : s.avsFail d ack tmo =
    (s.avsCaught d ack tmo).setDomain d
      { s.domain d with st := if (s.domain d).phase = 7 then 2 else (s.domain d).st, phase := 0, polling := false, tries := 0 } :=
  State.endSeq_idle (by rw [State.domain_setDomain_same]; exact h)

theorem State.avsCaught_fc (s : State) (d ack : Nat) (tmo : Bool) : (s.avsCaught d ack tmo).fc = (s.raisePower d 14 1).fc := State.latchWords_fc ..

theorem State.avsCaught_status (s : State) (d : Nat) (ack : Nat) (tmo : Bool) :
    (s.avsCaught d ack tmo).rf .PWR_DOMd_STATUS 13 1 (domBase d) = 1 := by
  have h : (s.avsCaught d ack tmo).reg .PWR_DOMd_STATUS (domBase d) = (s.avsNoted d).reg .PWR_DOMd_STATUS (domBase d) :=
    State.reg_latchWords_other _ _ _ _ _ _ _ fun rw hrw => by
      obtain rfl := List.mem_singleton.1 hrw
      simp only [Reg.off, Reg.spec, domBase]
      omega
  unfold State.rf
  rw [h]
  exact (s.raisePower d 14 1).rf_setRf_same .PWR_DOMd_STATUS 13 1 1 (domBase d) 0 (by decide)

theorem State.avsCaught_record (s : State) (d : Nat) (ack : Nat) (tmo : Bool) :
    ∃ r ∈ (s.avsCaught d ack tmo).fc.queue, r.src % 32 = 14 ∧ r.level = s.raisedLevel 14 1 := by
  obtain ⟨r, hr, hsrc, -, hlvl, -⟩ := s.raiseSpine_mem (if d < 2 then 30 else 7 * domQuad d + 6) 14 1 (fidUnit 0x184) 0 false
  rw [s.avsCaught_fc]
  exact ⟨r, hr, by omega, hlvl⟩

/-- A failed voltage step: the state, the fault and the record. -/
theorem State.avsFail_clauses {d : Nat} (h : (s.domain d).pend = none) (ack : Nat) (tmo : Bool) : let t := s.avsFail d ack tmo
    (t.domain d).phase = 0 ∧ (t.domain d).st = (if (s.domain d).phase = 7 then 2 else (s.domain d).st) ∧
      t.rf .PWR_DOMd_STATUS 13 1 (domBase d) = 1 ∧ ∃ r ∈ t.fc.queue, r.src % 32 = 14 ∧ r.level = s.raisedLevel 14 1 := by
  intro t
  have ht : t = _ := State.avsFail_eq h ack tmo
  rw [ht, State.domain_setDomain_same]
  exact ⟨rfl, rfl, s.avsCaught_status d ack tmo, s.avsCaught_record d ack tmo⟩

end Sys2Proof.Machine

namespace Sys2Proof.Machine
variable {s t : State}

/-! ### Wakes are accepted by what the domain is at (R368, R375, R376) -/

theorem State.acceptWake_run {d : Nat} (hs : (s.domain d).st = 0) (hp : (s.domain d).phase = 0) : s.acceptWake d = s.clearWake d := by
  unfold State.acceptWake
  dsimp only
  rw [if_neg (by omega), if_neg (by omega), if_neg (by omega), if_pos hs]

/-- Idle returns to Run. -/
theorem State.acceptWake_idle {d : Nat} (hs : (s.domain d).st = 1) (hp : (s.domain d).phase = 0) : s.acceptWake d =
    (s.setDomain d { s.domain d with st := 0, wake := false, edge := none, pend := none, idleAt := s.tick, pollAt := s.tick }).endSeq d := by
  unfold State.acceptWake
  dsimp only
  rw [if_neg (by omega), if_neg (by omega), if_neg (by omega), if_neg (by omega), if_pos hs]

theorem State.acceptWake_step {d : Nat} (hp : (s.domain d).phase = 7) : s.acceptWake d = s := if_pos hp

theorem State.acceptWake_waking {d : Nat} (hp : 8 ≤ (s.domain d).phase) : s.acceptWake d = s.clearWake d :=
  (if_neg (by omega)).trans (if_pos hp)

/-- An entry that runs alone is to be abandoned. -/
theorem State.acceptWake_entry {d : Nat} (h1 : 1 ≤ (s.domain d).phase) (h6 : (s.domain d).phase ≤ 6) (ha : (s.domain d).abandon = false)
    (hf : (s.domain d).fabric = false) (hg : (s.domain d).group = 0) : s.acceptWake d =
      (s.bump .PWR_DOMd_ABORT_CNT (domBase d)).setDomain d { s.domain d with abandon := true, wake := false, edge := none, pend := none } := by
  have hds : ((s.bump .PWR_DOMd_ABORT_CNT (domBase d)).groupDoms d).filter (fun g => 1 ≤ ((s.bump .PWR_DOMd_ABORT_CNT (domBase d)).domain g).phase &&
      ((s.bump .PWR_DOMd_ABORT_CNT (domBase d)).domain g).phase ≤ 6) = [d] := by
    rw [State.groupDoms_alone (s := s.bump .PWR_DOMd_ABORT_CNT (domBase d)) hf hg]
    have h1' : 1 ≤ ((s.bump .PWR_DOMd_ABORT_CNT (domBase d)).domain d).phase := h1
    have h6' : ((s.bump .PWR_DOMd_ABORT_CNT (domBase d)).domain d).phase ≤ 6 := h6
    exact List.filter_cons_of_pos (by rw [decide_eq_true h1', decide_eq_true h6']; rfl)
  unfold State.acceptWake
  dsimp only
  rw [if_neg (by omega), if_neg (by omega), if_pos (by omega), if_neg (by rw [ha]; decide), hds]
  rfl

/-- A domain below Idle waits for SPINE. -/
theorem State.acceptWake_spine {d : Nat} (hs : 2 ≤ (s.domain d).st) (hp : (s.domain d).phase = 0) (hd : d ≠ 1) (h1 : (s.domain 1).st ≠ 0) :
    s.acceptWake d = s.setDomain 1 { s.domain 1 with wake := true } := by
  unfold State.acceptWake
  dsimp only
  rw [if_neg (by omega), if_neg (by omega), if_neg (by omega), if_neg (by omega), if_neg (by omega), if_pos ⟨hd, h1⟩]

/-- A lone domain below Idle begins its wake: the voltage first where it was lowered. -/
theorem State.acceptWake_sleep {d : Nat} (hs : 2 ≤ (s.domain d).st) (hp : (s.domain d).phase = 0) (h1 : d = 1 ∨ (s.domain 1).st = 0)
    (hf : (s.domain d).fabric = false) (hg : (s.domain d).group = 0) : s.acceptWake d =
      s.setDomain d { s.domain d with phase := if 3 ≤ (s.domain d).st then 8 else 9, wake := false, edge := none, pend := none, tries := 0,
                                      polling := false, at_ := s.tick } := by
  have hw : s.startWake d = s.setDomain d { s.domain d with
      phase := if 3 ≤ (s.domain d).st then 8 else 9, wake := false, edge := none, pend := none, tries := 0, polling := false, at_ := s.tick } :=
    (if_neg (by omega)).trans (if_neg (by omega))
  rw [← hw]
  unfold State.acceptWake
  dsimp only
  rw [if_neg (by omega), if_neg (by omega), if_neg (by omega), if_neg (by omega), if_neg (by omega),
    if_neg fun h => h1.elim h.1 h.2, State.groupDoms_alone hf hg]
  rfl

section
variable {d : Fin 18}

theorem exec_wakeAccept_off (h : d.val = 0 ∨ s.prim = .halt) : exec (.wakeAccept d) s = .next s := if_pos h

variable (hd : d.val ≠ 0) (hp : s.prim ≠ .halt)
include hd hp

theorem exec_wakeAccept_none (h : (s.takePwrCtl d).wakeStands d = false) : exec (.wakeAccept d) s = .next (s.takePwrCtl d) :=
  (if_neg (not_or.2 ⟨hd, hp⟩)).trans (if_neg (by rw [h]; decide))

theorem exec_wakeAccept (h : (s.takePwrCtl d).wakeStands d = true) : exec (.wakeAccept d) s = .next ((s.takePwrCtl d).acceptWake d).pump :=
  (if_neg (not_or.2 ⟨hd, hp⟩)).trans (if_pos h)

end

/-- Every wake that is accepted. -/
theorem wakeAccept_clauses {d : Fin 18} (hd : d.val ≠ 0) (hp : s.prim ≠ .halt) (h : (s.takePwrCtl d).wakeStands d = true) :
    let s1 := s.takePwrCtl d
    let x := s1.domain d
    (x.st = 0 → x.phase = 0 → exec (.wakeAccept d) s = .next (s1.setDomain d { x with wake := false, edge := none }).pump) ∧
    (x.st = 1 → x.phase = 0 → exec (.wakeAccept d) s = .next ((s1.setDomain d
      { x with st := 0, wake := false, edge := none, pend := none, idleAt := s1.tick, pollAt := s1.tick }).endSeq d).pump) ∧
    (x.phase = 7 → exec (.wakeAccept d) s = .next s1.pump) ∧
    (8 ≤ x.phase → exec (.wakeAccept d) s = .next (s1.setDomain d { x with wake := false, edge := none }).pump) ∧
    (1 ≤ x.phase → x.phase ≤ 6 → x.abandon = false → x.fabric = false → x.group = 0 → ∃ t : State, exec (.wakeAccept d) s = .next t.pump ∧
      t.domain d = { x with abandon := true, wake := false, edge := none, pend := none } ∧
      t.reg .PWR_DOMd_ABORT_CNT (domBase d) = min (s1.reg .PWR_DOMd_ABORT_CNT (domBase d) + 1) 0xFFFFFFFF) ∧
    (2 ≤ x.st → x.phase = 0 → d.val ≠ 1 → (s1.domain 1).st ≠ 0 →
      exec (.wakeAccept d) s = .next (s1.setDomain 1 { s1.domain 1 with wake := true }).pump) ∧
    (2 ≤ x.st → x.phase = 0 → d.val = 1 ∨ (s1.domain 1).st = 0 → x.fabric = false → x.group = 0 → ∃ t : State,
      exec (.wakeAccept d) s = .next t.pump ∧ (t.domain d).phase = (if 3 ≤ x.st then 8 else 9) ∧ (t.domain d).wake = false ∧
      { t with dom := s1.dom } = s1) := by
  have he := exec_wakeAccept hd hp h
  generalize s.takePwrCtl d = s1 at he h ⊢
  have hgo {t : State} (ht : s1.acceptWake d = t) : exec (.wakeAccept d) s = .next t.pump := by rw [he, ht]
  intro u x
  refine ⟨fun hs hp => hgo (State.acceptWake_run hs hp), fun hs hp => hgo (State.acceptWake_idle hs hp), fun hp => hgo (State.acceptWake_step hp),
    fun hp => hgo (State.acceptWake_waking hp), fun h1 h6 ha hf hg => ⟨_, hgo (State.acceptWake_entry h1 h6 ha hf hg), ?_, ?_⟩,
    fun hs hp hd h1 => hgo (State.acceptWake_spine hs hp hd h1), fun hs hp h1 hf hg => ⟨_, hgo (State.acceptWake_sleep hs hp h1 hf hg), ?_, ?_, rfl⟩⟩
  · exact State.domain_setDomain_same ..
  · exact u.reg_bump_same .PWR_DOMd_ABORT_CNT (domBase d) 0 1
  · rw [State.domain_setDomain_same]
  · rw [State.domain_setDomain_same]

end Sys2Proof.Machine

namespace Sys2Proof.Machine
variable {s t : State}

/-! ### What a wake restores leaves the domains' records (R376 to R378) -/

theorem State.dom_ite {c : Prop} [Decidable c] {u : State} (ht : t.dom = s.dom) (hu : u.dom = s.dom) : (if c then t else u).dom = s.dom :=
  iteInduction (motive := fun v : State => v.dom = s.dom) (fun _ => ht) fun _ => hu

theorem State.sliceEvent_dom (s : State) (sl code arg : Nat) : (s.sliceEvent sl code arg).dom = s.dom :=
  (congrArg State.dom (s.sliceEvent_rest sl code arg) :)

theorem State.injUse_dom (s : State) : s.injUse.dom = s.dom := by
  unfold State.injUse
  split
  · dsimp only
    split <;> rfl
  · rfl

theorem State.bankLost_dom (s : State) (d g : Nat) (inj : Bool) : (s.bankLost d g inj).dom = s.dom :=
  State.foldl_keeps State.dom _ (fun u _ => u.sliceEvent_dom ..) _ _

theorem State.checkBank_dom (s : State) (d g : Nat) (bad : Bool) : (s.checkBank d g bad).dom = s.dom := by
  have h (c : Prop) [Decidable c] : (if c then s.injUse else s).dom = s.dom := State.dom_ite s.injUse_dom rfl
  unfold State.checkBank
  exact State.dom_ite ((State.bankLost_dom ..).trans (h _)) (h _)

theorem State.wakeCluster_dom (s : State) (k : Nat) : (s.wakeCluster k).dom = s.dom := by
  unfold State.wakeCluster
  exact State.dom_ite rfl rfl

theorem State.adopt_dom (s : State) (k i : Nat) : (s.adopt k i).dom = s.dom := rfl

theorem State.restartCluster_dom (s : State) (k : Nat) : (s.restartCluster k).dom = s.dom := by
  unfold State.restartCluster
  refine (State.foldl_keeps State.dom _ (fun u i => ?_) _ _).trans rfl
  exact State.dom_ite (State.dom_ite (t := u) rfl (u.adopt_dom k i)) rfl

theorem State.copyTabs_dom (s : State) (src : Nat) (ok : Nat → Nat → Bool) : (s.copyTabs src ok).dom = s.dom := rfl

theorem State.wakeClusters_dom (s : State) (c : Prop) [Decidable c] (q n : Nat) :
    (if c then (List.range n).foldl (fun s i => s.wakeCluster (12 * q + i)) s else s).dom = s.dom :=
  State.dom_ite (State.foldl_keeps State.dom _ (fun u _ => u.wakeCluster_dom _) _ _) rfl

theorem State.wakeTables_dom (s : State) (d : Nat) : (s.wakeTables d).dom = s.dom := by
  unfold State.wakeTables
  refine State.dom_ite ?_ ?_ <;> exact (State.wakeClusters_dom ..).trans ((State.copyTabs_dom ..).trans (State.copyTabs_dom ..))

theorem State.rehomed_dom (s : State) (k : Nat) (h : Home) : ((s.clearHome k).setHm k h).dom = s.dom := rfl

theorem State.wakeData_dom (s : State) (d : Nat) (lost : List Nat) : (s.wakeData d lost).dom = s.dom := by
  have h1 (q : Nat) : ((List.range 16).foldl (fun s i => (s.clearHome (16 * q + i)).setHm (16 * q + i) (s.hm (16 * q + i))) s).dom = s.dom :=
    State.foldl_keeps State.dom _ (fun u i => u.rehomed_dom (16 * q + i) (u.hm (16 * q + i))) _ _
  have h2 (q : Nat) : ((List.range 12).foldl (fun s i => s.restartCluster (12 * q + i)) s).dom = s.dom :=
    State.foldl_keeps State.dom _ (fun u i => u.restartCluster_dom _) _ _
  unfold State.wakeData
  refine State.dom_ite rfl (State.dom_ite (State.dom_ite (h1 _) rfl) (State.dom_ite (State.dom_ite (h2 _) rfl) (State.dom_ite ?_ rfl)))
  refine State.foldl_keeps State.dom _ (fun u g => ?_) _ _
  exact State.dom_ite rfl (State.dom_ite (u.checkBank_dom ..) rfl)

theorem State.wakeIrq_dom (s : State) : s.wakeIrq.dom = s.dom := by
  unfold State.wakeIrq
  exact State.dom_ite (State.ownIntr_dom ..) rfl

theorem State.slotOk_dom (s : State) (d opc : Nat) : (s.slotOk d opc).2.dom = s.dom := by
  unfold State.slotOk
  exact ((State.AreaKept.refl s).areaOk (f := 0x184) (base := s.offSlot d) (len := 2 ^ 23) (opc := opc)).dom

/-! ### The end of a wake's start (R376) -/

/-- The check of the slot that a wake from Off restores. -/
def State.wakeSlot (s : State) (d : Nat) : Bool × State := if (s.domain d).low = 4 then s.slotOk d 0x12 else (true, s)

theorem State.wakeSlot_dom (s : State) (d : Nat) : (s.wakeSlot d).2.dom = s.dom := by
  unfold State.wakeSlot
  split
  · exact s.slotOk_dom d 0x12
  · rfl

/-- The state in which a domain is woken: its tables and its data are good, and SPINE has its time. -/
def State.wakeMade (s : State) (d : Nat) (lost : List Nat) : State :=
  let t := ((s.wakeSlot d).2.wakeTables d).wakeData d lost
  if d = 1 then t.spineTime else t

theorem State.wakeMade_dom (s : State) (d : Nat) (lost : List Nat) : (s.wakeMade d lost).dom = s.dom := by
  have h : (((s.wakeSlot d).2.wakeTables d).wakeData d lost).dom = s.dom :=
    (State.wakeData_dom ..).trans ((State.wakeTables_dom ..).trans (s.wakeSlot_dom d))
  unfold State.wakeMade
  exact State.dom_ite h h

section
variable {d : Fin 18} {w : WakeReply}

theorem exec_wakeStartDone_early (h : (s.domain d).phase ≠ 9 ∨ s.spineFirst d = true) : exec (.wakeStartDone d w) s = .next s := if_pos h

variable (hp : (s.domain d).phase = 9) (hf : s.spineFirst d = false)
include hp hf

/-- The restore from Off has failed: the domain stays Off. -/
theorem exec_wakeStartDone_bad (hl : (s.domain d).low = 4) (hb : w.readOk = false ∨ (s.slotOk d 0x12).1 = false) :
    exec (.wakeStartDone d w) s = .next ((((s.slotOk d 0x12).2.setDomain d { s.domain d with st := 4, phase := 0 }).setRf .PWR_DOMd_STATUS 14 1 1
      (domBase d)).raisePower d 15 1) := by
  have hw : (if (s.domain d).low = 4 then s.slotOk d 0x12 else (true, s)) = s.slotOk d 0x12 := if_pos hl
  change execWakeStartDone d w s = _
  unfold execWakeStartDone
  dsimp only
  rw [hw, if_neg (by simp [hp, hf]), if_pos ⟨hl, hb.imp (by simp) (by simp)⟩]

theorem exec_wakeStartDone (hg : (s.domain d).low ≠ 4 ∨ (w.readOk = true ∧ (s.slotOk d 0x12).1 = true)) : exec (.wakeStartDone d w) s =
    .next (((s.wakeMade d (w.lost.map (·.val))).setDomain d { (s.wakeMade d (w.lost.map (·.val))).domain d with phase := 11 }).wakeIrq) := by
  have hw : (if (s.domain d).low = 4 then s.slotOk d 0x12 else (true, s)) = s.wakeSlot d := rfl
  have hok : ¬((s.domain d).low = 4 ∧ (¬w.readOk = true ∨ ¬(s.wakeSlot d).1 = true)) := by
    rintro ⟨hl, hb⟩
    have hslot : s.wakeSlot d = s.slotOk d 0x12 := if_pos hl
    obtain ⟨hr, hs⟩ := hg.resolve_left fun hne => hne hl
    rw [hslot, hr, hs] at hb
    exact hb.elim (fun h => h rfl) fun h => h rfl
  change execWakeStartDone d w s = _
  unfold execWakeStartDone
  dsimp only
  rw [hw, if_neg (by simp [hp, hf]), if_neg hok]
  rfl

end

/-- A domain that stays Off after its restore has failed. -/
theorem State.wakeFailed (v : State) (d : Nat) (x : Dom) :
    let t := ((v.setDomain d x).setRf .PWR_DOMd_STATUS 14 1 1 (domBase d)).raisePower d 15 1
    t.domain d = x ∧ t.rf .PWR_DOMd_STATUS 14 1 (domBase d) = 1 := by
  intro t
  have hd : t.dom = (v.setDomain d x).dom := (State.raiseSpine_dom ..).trans (State.setRf_dom ..)
  exact ⟨(State.domain_of_dom hd d).trans (v.domain_setDomain_same d x), (State.rf_raiseSpine ..).trans (State.rf_setRf_same _ _ _ _ _ _ _ (by decide))⟩

theorem wakeStartDone_clauses (s : State) (d : Fin 18) (w : WakeReply) : let x := s.domain d
    (x.phase ≠ 9 ∨ s.spineFirst d = true → exec (.wakeStartDone d w) s = .next s) ∧
    (x.phase = 9 → s.spineFirst d = false → x.low = 4 → w.readOk = false ∨ (s.slotOk d 0x12).1 = false →
      ∃ t, exec (.wakeStartDone d w) s = .next t ∧
      t.domain d = { x with st := 4, phase := 0 } ∧ t.rf .PWR_DOMd_STATUS 14 1 (domBase d) = 1) ∧
    (x.phase = 9 → s.spineFirst d = false → x.low ≠ 4 ∨ (w.readOk = true ∧ (s.slotOk d 0x12).1 = true) →
      ∃ t, exec (.wakeStartDone d w) s = .next t ∧
      (t.domain d).phase = 11 ∧ (t.domain d).clamped = x.clamped ∧ (t.domain d).asleep = x.asleep) := by
  intro x
  refine ⟨exec_wakeStartDone_early, fun hp hf hl hb => ⟨_, exec_wakeStartDone_bad hp hf hl hb, ?_, ?_⟩,
    fun hp hf hg => ⟨_, exec_wakeStartDone hp hf hg, ?_⟩⟩
  · exact (State.wakeFailed _ d _).1
  · exact (State.wakeFailed _ d _).2
  · rw [State.domain_of_dom (State.wakeIrq_dom _), State.domain_setDomain_same, State.domain_of_dom (s.wakeMade_dom _ _)]
    exact ⟨rfl, rfl, rfl⟩

end Sys2Proof.Machine

namespace Sys2Proof.Machine
variable {s t : State}

/-! ### Releasing the clamps (R376, R379) and fabric sleep (R364) -/

/-- What the linking of ports leaves alone: all but the interfaces. -/
def State.niReset (s t : State) : State := { t with ni := s.ni }

theorem State.niReset_setNi (s t : State) (f : Nat) (n : Ni) : s.niReset (t.setNi f n) = s.niReset t := rfl

theorem State.niReset_linkOn (s t : State) (f : Nat) : s.niReset (t.linkOn f) = s.niReset t := by
  unfold State.linkOn
  dsimp only
  split
  · split <;> rw [State.niReset_setNi]
  · rfl

theorem State.niReset_startLink (s t : State) (f : Nat) : s.niReset (t.startLink f) = s.niReset t := by
  unfold State.startLink
  dsimp only
  split
  · rfl
  · rw [State.niReset_linkOn, State.niReset_setNi]

theorem State.relinkPorts_rest (s : State) (d : Nat) : s.niReset (s.relinkPorts d) = s := by
  unfold State.relinkPorts
  exact List.foldlRecOn (motive := fun u : State => s.niReset u = s) _ _ rfl fun u hu f _ => (s.niReset_startLink u f).trans hu

theorem State.relinkPorts_dom (s : State) (d : Nat) : (s.relinkPorts d).dom = s.dom := (congrArg State.dom (s.relinkPorts_rest d) :)

theorem State.relinkPorts_prg (s : State) (d : Nat) : (s.relinkPorts d).prg = s.prg := (congrArg State.prg (s.relinkPorts_rest d) :)

theorem State.relinkPorts_prim (s : State) (d : Nat) : (s.relinkPorts d).prim = s.prim := (congrArg State.prim (s.relinkPorts_rest d) :)

/-- A domain of a power image whose clamps have been released, with its ports linking up. -/
def State.unclamped (s : State) (d : Nat) : State := (s.setDomain d { s.domain d with phase := 12, clamped := false, unclamp := true }).relinkPorts d

theorem State.domain_unclamped (s : State) (d e : Nat) : (s.unclamped d).domain e =
    if e = d then { s.domain d with phase := 12, clamped := false, unclamp := true } else s.domain e :=
  (State.domain_of_dom (State.relinkPorts_dom ..) e).trans (State.domain_setDomain ..)

theorem State.groupDoms_unclamped (s : State) (d : Nat) : (s.unclamped d).groupDoms d = s.groupDoms d := by
  have h := (s.domain_unclamped d d).trans (if_pos rfl)
  unfold State.groupDoms
  rw [h]

theorem State.unclampDom_image {d : Nat} (hp : (s.domain d).phase = 11) (hf : (s.domain d).fabric = false) : s.unclampDom d =
    if (s.groupDoms d).all (fun g => ((s.unclamped d).domain g).phase == 12) then (s.unclamped d).wantReturn.pump else s.unclamped d := by
  rw [← s.groupDoms_unclamped d]
  exact (if_neg (not_not_intro hp)).trans (if_neg (by rw [hf]; decide))

/-- Clamps released while others of the mask keep theirs. -/
theorem State.unclampDom_first {d : Nat} (hp : (s.domain d).phase = 11) (hf : (s.domain d).fabric = false)
    (hg : ∃ g ∈ s.groupDoms d, g ≠ d ∧ (s.domain g).phase ≠ 12) : s.unclampDom d = s.unclamped d := by
  obtain ⟨g, hg, hne, h12⟩ := hg
  rw [State.unclampDom_image hp hf]
  refine if_neg fun hall => h12 ?_
  have h := List.all_eq_true.1 hall g hg
  rw [s.domain_unclamped, if_neg hne] at h
  exact beq_iff_eq.1 h

/-- The last domain of a mask asks for the return image. -/
theorem State.unclampDom_last {d : Nat} (hp : (s.domain d).phase = 11) (hf : (s.domain d).fabric = false)
    (hg : ∀ g ∈ s.groupDoms d, g = d ∨ (s.domain g).phase = 12) : s.unclampDom d = (s.unclamped d).wantReturn.pump := by
  rw [State.unclampDom_image hp hf]
  refine if_pos (List.all_eq_true.2 fun g hg' => ?_)
  rw [s.domain_unclamped]
  split
  · rfl
  case isFalse hne => exact beq_iff_eq.2 ((hg g hg').resolve_left hne)

/-- One domain of a fabric sleep is back in Run: its record begins anew. -/
theorem State.fabricWoken_eq {d : Nat} (h : (s.domain d).pend = none) : s.fabricWoken d =
    (s.setDomain d { pend := none, pollAt := s.tick, idleAt := s.tick }).relinkPorts d := by
  have hd : (((s.setDomain d { pend := (s.domain d).pend, pollAt := s.tick, idleAt := s.tick }).relinkPorts d).domain d).pend = none := by
    rw [State.domain_of_dom (State.relinkPorts_dom ..), State.domain_setDomain_same]
    exact h
  have e : s.fabricWoken d = (s.setDomain d { pend := (s.domain d).pend, pollAt := s.tick, idleAt := s.tick }).relinkPorts d := State.endSeq_idle hd
  rw [h] at e
  exact e

theorem State.domain_fabricWoken {d : Nat} (h : (s.domain d).pend = none) (e : Nat) : (s.fabricWoken d).domain e =
    if e = d then { pend := none, pollAt := s.tick, idleAt := s.tick } else s.domain e := by
  rw [State.fabricWoken_eq h, State.domain_of_dom (State.relinkPorts_dom ..), State.domain_setDomain]

theorem State.prim_fabricWoken {d : Nat} (h : (s.domain d).pend = none) : (s.fabricWoken d).prim = s.prim := by
  rw [State.fabricWoken_eq h, State.relinkPorts_prim]
  rfl

/-- A domain that is back in Run without clamps. -/
def Dom.running (x : Dom) : Prop := x.phase = 0 ∧ x.st = 0 ∧ x.clamped = false

/-- Domains of a fabric sleep that are released one after the other are all back in Run. -/
theorem State.foldl_fabricWoken {ds : List Nat} (h : ∀ d ∈ ds, (s.domain d).pend = none) : (ds.foldl State.fabricWoken s).prim = s.prim ∧
    ∀ e, (e ∈ ds ∨ (s.domain e).running) → ((ds.foldl State.fabricWoken s).domain e).running := by
  induction ds generalizing s with
  | nil => exact ⟨rfl, fun e he => he.resolve_left (List.not_mem_nil)⟩
  | cons d ds ih =>
    have hd := h d (List.mem_cons_self)
    have hdom := State.domain_fabricWoken hd
    have hpend : ∀ e ∈ ds, ((s.fabricWoken d).domain e).pend = none := fun e he => by
      rw [hdom]
      split
      · rfl
      · exact h e (List.mem_cons_of_mem d he)
    obtain ⟨hprim, hrun⟩ := ih hpend
    refine ⟨hprim.trans (State.prim_fabricWoken hd), fun e he => hrun e ?_⟩
    rw [hdom]
    by_cases hed : e = d
    · rw [if_pos hed]
      exact .inr ⟨rfl, rfl, rfl⟩
    · rw [if_neg hed]
      exact he.imp_left fun hm => (List.mem_cons.1 hm).resolve_left hed

end Sys2Proof.Machine

namespace Sys2Proof.Machine
variable {s t : State}

/-- The record of a domain that enters fabric sleep. -/
def Dom.slept (x : Dom) (g d now : Nat) : Dom :=
  ({ x with target := g, fabric := true, abandon := false, imaged := false, low := 0 } : Dom).ask d now

/-- Every domain of a list enters fabric sleep. -/
theorem State.foldl_slept (s : State) (g : Nat) {ds : List Nat} (hn : ds.Nodup) (e : Nat) :
    (ds.foldl (fun s d => s.setDomain d ((s.domain d).slept g d s.tick)) s).domain e =
      if e ∈ ds then (s.domain e).slept g e s.tick else s.domain e := by
  induction ds generalizing s with
  | nil => exact (if_neg List.not_mem_nil).symm
  | cons d ds ih =>
    obtain ⟨hd, hn'⟩ := List.nodup_cons.1 hn
    refine (ih (s.setDomain d ((s.domain d).slept g d s.tick)) hn').trans ?_
    by_cases hed : e = d
    · subst hed
      rw [if_neg hd, if_pos List.mem_cons_self, State.domain_setDomain_same]
    · rw [State.domain_setDomain_other hed]
      have hiff : e ∈ d :: ds ↔ e ∈ ds := by simp [hed]
      simp only [hiff]
      rfl

theorem State.foldl_slept_rest (s : State) (g : Nat) (ds : List Nat) :
    s.domReset (ds.foldl (fun s d => s.setDomain d ((s.domain d).slept g d s.tick)) s) = s :=
  List.foldlRecOn (motive := fun u : State => s.domReset u = s) _ _ rfl fun _ hu _ _ => (State.domReset_setDomain ..).trans hu

/-- The domains that a fabric sleep takes. -/
def sleepers : List Nat := (List.range 17).map (· + 1)

theorem mem_sleepers {d : Nat} : d ∈ sleepers ↔ 1 ≤ d ∧ d ≤ 17 := by
  unfold sleepers
  rw [List.mem_map]
  constructor
  · rintro ⟨i, hi, rfl⟩
    have := List.mem_range.1 hi
    omega
  · rintro ⟨h1, h2⟩
    exact ⟨d - 1, List.mem_range.2 (by omega), by omega⟩

theorem sleepers_nodup : sleepers.Nodup := by
  decide

/-- Every domain is in Run or Idle, with no sequence running. -/
def State.steady (s : State) : Prop := ∀ d, 1 ≤ d → d ≤ 17 → (s.domain d).phase = 0 ∧ (s.domain d).st ≤ 1

theorem State.unsteady_iff (s : State) :
    sleepers.any (fun d => (s.domain d).phase != 0 || (s.domain d).st != 0 && (s.domain d).st != 1) = true ↔ ¬s.steady := by
  unfold State.steady
  rw [List.any_eq_true]
  constructor
  · rintro ⟨d, hd, hb⟩ hall
    obtain ⟨h1, h17⟩ := mem_sleepers.1 hd
    obtain ⟨hp, hs⟩ := hall d h1 h17
    simp only [hp, bne_self_eq_false, Bool.false_or, Bool.and_eq_true, bne_iff_ne] at hb
    omega
  · intro h
    simp only [Classical.not_forall] at h
    obtain ⟨d, h1, h17, hd⟩ := h
    refine ⟨d, mem_sleepers.2 ⟨h1, h17⟩, ?_⟩
    by_cases hp : (s.domain d).phase = 0
    · have hst : ¬(s.domain d).st ≤ 1 := fun h => hd ⟨hp, h⟩
      simp only [hp, bne_self_eq_false, Bool.false_or, Bool.and_eq_true, bne_iff_ne]
      omega
    · simp [hp]

theorem State.fabricSleep_refused (h : s.prim ≠ .quiesced ∨ (s.rf .PWR_FABREQ 0 3 ≠ 2 ∧ s.rf .PWR_FABREQ 0 3 ≠ 3) ∨ ¬s.steady) :
    s.fabricSleep = s.pwrReject := if_pos (h.imp_right (Or.imp_right s.unsteady_iff.2))

theorem State.fabricSleep_taken (hp : s.prim = .quiesced) (hg : s.rf .PWR_FABREQ 0 3 = 2 ∨ s.rf .PWR_FABREQ 0 3 = 3) (hs : s.steady) :
    s.fabricSleep = sleepers.foldl (fun t d => t.setDomain d ((t.domain d).slept (s.rf .PWR_FABREQ 0 3) d t.tick)) s :=
  if_neg fun h => by
    rcases h with h | h | h
    · exact h hp
    · exact hg.elim h.1 h.2
    · exact s.unsteady_iff.1 h hs

/-- The domains of a fabric sleep. -/
def State.heldDoms (s : State) : List Nat := sleepers.filter fun d => (s.domain d).fabric

theorem State.fabricUnclamp_refused (h : s.heldDoms = [] ∨ ∃ d ∈ s.heldDoms, (s.domain d).phase ≠ 11) : s.fabricUnclamp = s.pwrReject := by
  refine if_pos (h.imp (fun h => ?_) fun ⟨d, hd, hp⟩ => ?_)
  · exact List.isEmpty_iff.2 h
  · exact List.any_eq_true.2 ⟨d, hd, bne_iff_ne.2 hp⟩

theorem State.fabricUnclamp_released (hne : s.heldDoms ≠ []) (h : ∀ d ∈ s.heldDoms, (s.domain d).phase = 11) :
    s.fabricUnclamp = s.heldDoms.foldl State.fabricWoken s := by
  refine if_neg fun hc => hc.elim (fun he => hne (List.isEmpty_iff.1 he)) fun ha => ?_
  obtain ⟨d, hd, hp⟩ := List.any_eq_true.1 ha
  exact bne_iff_ne.1 hp (h d hd)

/-- UNCLAMP of one domain. -/
theorem pwrUnclamp_clauses (s : State) (d : Fin 18) : let x := s.domain d
    (x.phase ≠ 11 → exec (.pwrUnclamp d) s = .next s.pwrReject) ∧
    (x.phase = 11 → x.fabric = false → 2 ≤ d.val → (∃ g ∈ s.groupDoms d, g ≠ d.val ∧ (s.domain g).phase ≠ 12) →
      ∃ t, exec (.pwrUnclamp d) s = .next t ∧ (t.domain d).phase = 12 ∧ (t.domain d).clamped = false ∧
        (t.domain d).unclamp = true ∧ t.prg = s.prg) ∧
    (x.phase = 11 → x.fabric = false → (∀ g ∈ s.groupDoms d, g = d.val ∨ (s.domain g).phase = 12) →
      ∃ t : State, exec (.pwrUnclamp d) s = .next t.wantReturn.pump ∧ (t.domain d).phase = 12 ∧ (t.domain d).clamped = false) ∧
    (x.phase = 11 → x.fabric = true → x.pend = none → ∃ t, exec (.pwrUnclamp d) s = .next t ∧ (t.domain d).phase = 0 ∧
      (t.domain d).st = 0 ∧ (t.domain d).clamped = false) := by
  intro x
  have hdom := (s.domain_unclamped d d).trans (if_pos rfl)
  refine ⟨fun hp => congrArg Host.Outcome.next (if_pos hp), fun hp hf _ hg => ⟨_, congrArg Host.Outcome.next (State.unclampDom_first hp hf hg),
      congrArg Dom.phase hdom, congrArg Dom.clamped hdom, congrArg Dom.unclamp hdom, State.relinkPorts_prg ..⟩,
    fun hp hf hg => ⟨_, congrArg Host.Outcome.next (State.unclampDom_last hp hf hg), congrArg Dom.phase hdom, congrArg Dom.clamped hdom⟩,
    fun hp hf hn => ?_⟩
  have hw := (State.domain_fabricWoken hn d).trans (if_pos rfl)
  exact ⟨_, congrArg Host.Outcome.next ((if_neg (not_not_intro hp)).trans (if_pos hf)), congrArg Dom.phase hw, congrArg Dom.st hw, congrArg Dom.clamped hw⟩

/-- Settles O57: voltage steps, wakes and fabric sleep. What a wake restores goes by the lowest state that the domain has been in
(log 80), and one domain of a fabric sleep that is released returns to Run (log 81); the slot that is checked is the whole one
(log 102). -/
theorem powerVoltageWakeAndFabricSleep : Obligations.PowerVoltageWakeAndFabricSleep := by
  unfold Obligations.PowerVoltageWakeAndFabricSleep
  refine ⟨fun s d => ⟨exec_vdone_idle, exec_vdone_entry, exec_vdone_wake, fun ok ack hp hq => ⟨fun ho ha => ?_, fun ho ht => ?_, fun ho ht => ?_⟩,
      fun ok ack h => exec_avsVoltageWriteDone_idle h ok ack, fun alert hd hp => ⟨fun ht => ?_, fun ht hq => ?_, fun ht hq => ?_⟩,
      fun hd hp hs hph hm ht => ⟨exec_avsStatusPoll_run hd hp hs hph hm ht false, exec_avsStatusPoll_run hd hp hs hph hm ht true⟩,
      fun ack tmo hn => State.avsFail_clauses hn ack tmo⟩,
    fun s d => ⟨exec_wakeAccept_off, exec_wakeAccept_none, wakeAccept_clauses⟩, wakeStartDone_clauses, pwrUnclamp_clauses,
    fun s => ⟨fun hp hg hs => ?_, fun h => congrArg Host.Outcome.next (State.fabricSleep_refused h),
      fun h => congrArg Host.Outcome.next (State.fabricUnclamp_refused h), fun hne h => ?_, s.rf_setRf_same .PWR_STATUS 18 1 1 0 0 (by decide)⟩,
    fun s n => ⟨_, rfl, (s.nif_updNi _ _ _).trans (if_pos rfl), rfl⟩⟩
  case refine_1 => exact (exec_avsVoltageWriteDone hp hq ok ack).trans (if_pos ⟨ho, ha⟩)
  case refine_2 =>
    refine (exec_avsVoltageWriteDone hp hq ok ack).trans ((if_neg fun hc => ?_).trans (if_pos ht))
    exact ho.elim (fun h => Bool.false_ne_true (h.symm.trans hc.1)) fun h => h hc.2
  case refine_3 =>
    refine (exec_avsVoltageWriteDone hp hq ok ack).trans ((if_neg fun hc => ?_).trans (if_neg (by omega)))
    exact ho.elim (fun h => Bool.false_ne_true (h.symm.trans hc.1)) fun h => h hc.2
  case refine_4 => exact (exec_avsStatusPoll_step hd hp alert).trans (if_pos ht)
  case refine_5 => exact (exec_avsStatusPoll_step hd hp alert).trans ((if_neg (by omega)).trans (if_pos hq))
  case refine_6 => exact (exec_avsStatusPoll_step hd hp alert).trans ((if_neg (by omega)).trans (if_neg (by omega)))
  case refine_7 =>
    refine ⟨_, congrArg Host.Outcome.next (State.fabricSleep_taken hp hg hs), s.foldl_slept_rest _ sleepers, fun d h1 h17 => ?_⟩
    rw [s.foldl_slept _ sleepers_nodup, if_pos (mem_sleepers.2 ⟨h1, h17⟩)]
    exact ⟨rfl, rfl, rfl, rfl⟩
  case refine_8 =>
    obtain ⟨hprim, hrun⟩ := State.foldl_fabricWoken fun d hd => (h d hd).2
    exact ⟨_, congrArg Host.Outcome.next (State.fabricUnclamp_released hne fun d hd => (h d hd).1), hprim, fun d hd => hrun d (.inl hd)⟩

end Sys2Proof.Machine
